-- ==== Sys2Proof/Word.lean ====
section
/-! DEFINITION. Word.lean: the plain words of the model (R5: bit 0 is the least significant bit, multi-byte
values are little-endian) and the numbers that name the package's units (R19, R30, R259, R285). -/
namespace Sys2Proof

/-- One byte. -/
abbrev Byte := BitVec 8
/-- A 32-bit lane, accumulator entry or descriptor word. -/
abbrev W32 := BitVec 32
/-- A 64-bit value. -/
abbrev W64 := BitVec 64
/-- One 128-bit word of the Toari word code (R246). -/
abbrev W128 := BitVec 128

/-- Logical tile number n, 0 to 191 (R30). -/
abbrev TileNo := Fin 192
/-- Physical tile number p, 0 to 207 (R29). -/
abbrev PhysTile := Fin 208
/-- Die number of the 2 × 2 compute block, or of the memory-side die facing it (R16, R17). -/
abbrev DieNo := Fin 4
/-- Physical server core c, 0 to 67 (R259). -/
abbrev CoreNo := Fin 68
/-- Neighbour port p, 0 to 11 (R285). -/
abbrev PortNo := Fin 12
/-- Command queue q, 0 to 63 (R317). -/
abbrev QueueNo := Fin 64

/-- A sparse store: (key, value) pairs, keys strictly rising, no value equal to the default of its key. -/
abbrev SMap (α : Type) := List (Nat × α)

end Sys2Proof
end

