-- ==== Sys2Proof/Machine/Map.lean ====
section
/-! DEFINITION. Machine/Map.lean: the sparse stores of the state (registers, entries, lines by number) and small
arithmetic helpers. A key that is not listed holds its store's default. -/
namespace Sys2Proof

/-- The value of key k where d is what an unlisted key holds. -/
def SMap.at {α : Type} (d : α) (k : Nat) : SMap α → α
  | [] => d
  | (i, v) :: r => if i = k then v else SMap.at d k r

/-- The entry of key k, if it is listed. -/
def SMap.find {α : Type} (k : Nat) : SMap α → Option α
  | [] => none
  | (i, v) :: r => if i = k then some v else SMap.find k r

/-- The store with key k removed. -/
def SMap.del {α : Type} (k : Nat) : SMap α → SMap α
  | [] => []
  | (i, v) :: r => if i = k then SMap.del k r else (i, v) :: SMap.del k r

/-- The store with (k, v) put in its place, k not listed before. -/
def SMap.ins {α : Type} (k : Nat) (v : α) : SMap α → SMap α
  | [] => [(k, v)]
  | (i, w) :: r => if k < i then (k, v) :: (i, w) :: r else (i, w) :: SMap.ins k v r

/-- Write v at key k, keeping the canonical form: a value equal to the default d is not listed. -/
def SMap.put {α : Type} [DecidableEq α] (d : α) (k : Nat) (v : α) (m : SMap α) : SMap α :=
  if v = d then m.del k else (m.del k).ins k v

/-- The store with f applied to every listed value, in canonical form. -/
def SMap.mapVals {α : Type} [DecidableEq α] (d : α) (f : α → α) (m : SMap α) : SMap α :=
  (m.map fun e => (e.1, f e.2)).filter fun e => decide (e.2 ≠ d)

/-- The canonical form: keys strictly rising, no value equal to the default. -/
def SMap.wf {α : Type} [DecidableEq α] (d : α) : SMap α → Bool
  | [] => true
  | (i, v) :: r => decide (v ≠ d) && r.all (fun e => decide (i < e.1)) && SMap.wf d r

namespace Machine

/-- The smallest k of a list of numbers below n that meets a test. -/
def firstBelow (n : Nat) (f : Nat → Bool) : Option Nat := (List.range n).find? f

/-- A counter of `bits` bits that saturates (the dictionary's 32-bit and 16-bit counters). -/
def satAdd (bits a b : Nat) : Nat := min (a + b) (2 ^ bits - 1)

/-- A counter of `bits` bits that wraps. -/
def wrapAdd (bits a b : Nat) : Nat := (a + b) % 2 ^ bits

/-- Bits [hi:lo] of a number. -/
def bits (w hi lo : Nat) : Nat := w / 2 ^ lo % 2 ^ (hi + 1 - lo)

/-- Bits [hi:lo] of a number read as two's complement. -/
def sbits (w hi lo : Nat) : Int :=
  let v := bits w hi lo
  if v < 2 ^ (hi - lo) then v else (v : Int) - 2 ^ (hi + 1 - lo)

/-- Bit i of a number. -/
def bitOf (w i : Nat) : Bool := w / 2 ^ i % 2 == 1

/-- A field's value v placed at bit lo. -/
def fld (v lo : Nat) : Nat := v * 2 ^ lo

/-- An integer as an n-bit two's complement number. -/
def toBits (n : Nat) (x : Int) : Nat := (x % 2 ^ n).toNat

/-- A Bool as 0 or 1. -/
def b2n (b : Bool) : Nat := if b then 1 else 0

/-- Little-endian value of bytes (R5). -/
def leNat : List Byte → Nat
  | [] => 0
  | b :: r => b.toNat + 256 * leNat r

/-- The n little-endian bytes of a number (R5). -/
def toLe : Nat → Nat → List Byte
  | 0, _ => []
  | n + 1, v => BitVec.ofNat 8 v :: toLe n (v / 256)

/-- ⌈a ÷ b⌉. -/
def ceilDiv (a b : Nat) : Nat := (a + b - 1) / b

/-- A list cut into pieces of n elements. -/
def chunksOf {α : Type} (n : Nat) (l : List α) : List (List α) :=
  (List.range (ceilDiv l.length n)).map fun i => (l.drop (i * n)).take n

/-- A list with entry i replaced, where it has one. -/
def setAt {α : Type} (l : List α) (i : Nat) (v : α) : List α :=
  l.take i ++ (match l.drop i with | [] => [] | _ :: r => v :: r)

/-- The list without its i-th entry. -/
def dropAt {α : Type} (l : List α) (i : Nat) : List α := l.take i ++ l.drop (i + 1)

end Machine
end Sys2Proof
end

