-- ==== Sys2Proof/Syntax.lean ====
section
/-! DEFINITION. Syntax.lean: the commands of the block, one constructor of `Instr` per row of
spec/opcode_table.json, with the operands the row's rule gives it. A slot command carries the fields of its
bundle slot (R40, R109, R135, R137) and, where a rule counts ACLK cycles, the cycle at which it is issued.
An event command carries what the outside world supplies with the event. -/
namespace Sys2Proof

/-- The three access paths of the dictionary (R382). -/
inductive Path where
  | hostBar   -- path 1: port H BAR0
  | core      -- path 2: the control window from cores
  | canFd     -- path 3: CAN FD
  deriving DecidableEq, Repr

/-- The path number of R382. -/
def Path.num : Path → Nat
  | .hostBar => 1
  | .core => 2
  | .canFd => 3

/-- Who writes an owner field: a dictionary path, or the unit itself (a claimant of R57, R254, R279, R306 that
is no path). -/
inductive Writer where
  | path (p : Path)
  | unit
  deriving DecidableEq, Repr

/-- A matrix slot as issued on tile t (R40). -/
structure MSlot where
  t : TileNo
  desc : Fin 64
  wsel : Bool
  acc : Bool
  part : BitVec 2
  tr : Bool
  count : BitVec 16
  cyc : Nat
  deriving DecidableEq, Repr

/-- A vector slot of the register form (R109). -/
structure VRegForm where
  t : TileNo
  vd : Fin 32
  va : Fin 32
  vb : Fin 32
  vc : Fin 32
  msk : Fin 8
  mz : Bool
  cyc : Nat
  deriving DecidableEq, Repr

/-- A vector slot of the compare form (R109, R111). -/
structure VCmpForm where
  t : TileNo
  md : Fin 8
  va : Fin 32
  vb : Fin 32
  cond : BitVec 3
  msk : Fin 8
  cyc : Nat
  deriving DecidableEq, Repr

/-- A vector slot of the mask form (R109). -/
structure VMaskForm where
  t : TileNo
  md : Fin 8
  ma : Fin 8
  mb : Fin 8
  msk : Fin 8
  cyc : Nat
  deriving DecidableEq, Repr

/-- A vector slot of the memory form (R109). -/
structure VMemForm where
  t : TileNo
  v : Fin 32
  vdesc : Fin 64
  msk : Fin 8
  mz : Bool
  rm : BitVec 2
  cyc : Nat
  deriving DecidableEq, Repr

/-- A vector slot of the reduction form (R109, R124). -/
structure VRedForm where
  t : TileNo
  rc : Fin 4
  rop : BitVec 2
  va : Fin 32
  vb : Fin 32
  msk : Fin 8
  cyc : Nat
  deriving DecidableEq, Repr

/-- VRGET: a destination register and a context (R110). -/
structure VFoldForm where
  t : TileNo
  vd : Fin 32
  rc : Fin 4
  cyc : Nat
  deriving DecidableEq, Repr

/-- VFLG: a destination register and a mask (R126). -/
structure VFlgForm where
  t : TileNo
  vd : Fin 32
  msk : Fin 8
  cyc : Nat
  deriving DecidableEq, Repr

/-- VPHR: a phrase descriptor and an iteration count (R109). -/
structure VPhrForm where
  t : TileNo
  phrase : Fin 32
  count : BitVec 16
  cyc : Nat
  deriving DecidableEq, Repr

/-- A move slot (R137). -/
structure XSlot where
  t : TileNo
  mdesc : Fin 64
  count : BitVec 16
  deriving DecidableEq, Repr

/-- How a core's store is made (R260): plain, an atomic access of the profile, or the store of a load-reserved. -/
inductive CoreStoreKind where
  | plain | swap | add | xor | and | or | min | max | minu | maxu | sc
  deriving DecidableEq, Repr

/-- An access by an agent to the package address space. -/
inductive MemAccess where
  | read (addr len : Nat)
  | write (addr : Nat) (bytes : List Byte)
  deriving DecidableEq, Repr

/-- The cases in which a package is late (R146, R169, R229, R346). -/
inductive LateCase where
  | carr (t : TileNo)
  | cwait (t : TileNo)
  | start (t : TileNo)
  | vote
  | stage (e : DieNo)
  | saveHold
  deriving DecidableEq, Repr

/-- What a time exchange brings from the parent (R141, R143, R394). -/
structure TimeExchange where
  parentBeat : Nat
  parentSlip : Nat
  residualPs : Int
  masterGen : Nat
  deriving DecidableEq, Repr

/-- A vote record (R170). -/
structure VoteRec where
  step : Nat
  package : Nat
  source : Nat
  tile : Nat
  tensor : Nat
  position : Nat
  nfCount : Nat
  deriving DecidableEq, Repr

/-- The header flit of an Agreement engine chunk (R187). -/
structure ChunkHdr where
  kind : Nat
  hop : Nat
  poison : Bool
  nf : Bool
  nan : Bool
  stepped : Bool
  lmax : Nat
  engine : Bool
  channel : Nat
  bucket : Nat
  chunk : Nat
  nValid : Nat
  scale : Int
  nsteps : Nat
  tensor : Nat
  elemFirst : Nat
  step : Nat
  nfPkg : Nat
  nfElem : Nat
  stepPkg : Nat
  stepK : Nat
  reserved : Nat
  deriving DecidableEq, Repr

/-- A chunk on the wire: header, 1,024 words, 32 residues (R186). `flitError` is an uncorrectable flit (R197). -/
structure Chunk where
  hdr : ChunkHdr
  words : List W32
  residues : List Nat
  flitError : Bool
  deriving DecidableEq, Repr

/-- A class-0 message with vc 0 (R289, R294): its header fields and the payload record of its type. -/
structure C0Msg where
  type : Nat
  src : Nat
  dst : Nat
  originSeq : Nat
  payload : List Nat
  deriving DecidableEq, Repr

/-- Where a class-0 message came in, and who originated it (R294). -/
structure C0In where
  port : PortNo
  src : Nat
  originSeq : Nat
  deriving DecidableEq, Repr

/-- One link flit (R288, R289): header fields and the 64-byte payload. -/
structure LinkFlit where
  cls : Nat
  vc : Nat
  copy : Bool
  dst : Nat
  src : Nat
  seq : Nat
  target : Nat
  payload : List Byte
  poison : List Bool
  held : Option (Nat × Nat)  -- the receive buffer that a transit flit still takes (port, buffer of R302): no part of the wire
  win : Nat             -- XSEND: the window it credits (the 64 bits of R289 hold none; log 20)
  deriving DecidableEq, Repr

/-- A received codeword (R288, R291): its stream position, its 640 payload bytes (none: uncorrectable), the count of symbols the FEC
corrected, and beside each slot the window of an XSEND flit (log 20). -/
structure RxCodeword where
  pos : Nat
  body : Option (List Byte)
  corrected : Nat
  wins : List Nat
  deriving DecidableEq, Repr

/-- A word that crosses a bridge (R304, R305): what is sent (none: poison), and the bits that the crossing, and its replay if there is
one, turn over, of the data and of the check bits. -/
structure SilzinWord where
  data : Option (BitVec 128)
  first : BitVec 128 × BitVec 16
  again : BitVec 128 × BitVec 16
  deriving DecidableEq, Repr

/-- How a dictionary write reaches the package (R311): as it is, in a write TLP with EP = 1 to port H BAR0, or as a write to port D
BAR0, the value then at BAR offset 0x400 × index + 4 × sub-index. -/
inductive WriteForm where
  | plain
  | poisoned
  | statusPage
  deriving DecidableEq, Repr

/-- Why port H detaches (R328). -/
inductive DetachCause where
  | linkDown
  | perst
  | functionReset
  | busMasterClear
  | powerState
  deriving DecidableEq, Repr

/-- A completion of a host read (R323). -/
structure HostCpl where
  status : Nat          -- 0 SC, 1 UR, 2 CA, 3 EP
  bytes : List Byte
  deriving DecidableEq, Repr

/-- A PCIe port (R309). -/
inductive HostPort where
  | h
  | d
  deriving DecidableEq, Repr

/-- A recovery report of class-0 type 0x25 (R349). -/
structure RecReport where
  reporter : Nat
  lastOpen : Nat
  lastComplete : Nat
  saveSeq : Nat
  confirmedSeq : Nat
  deriving DecidableEq, Repr

/-- The cases of R353. -/
inductive RecCase where
  | remap
  | rollback
  | uncovered
  | halt
  deriving DecidableEq, Repr

/-- A recovery plan of class-0 type 0x22 (R349, R353): for each failed position the spare that takes it. -/
structure RecPlan where
  case : RecCase
  failed : List Nat
  entries : List (Nat × Nat)
  value : Nat
  deriving DecidableEq, Repr

/-- One 64-byte line of protection traffic with its check bits (R340): region, byte offset in the block, four
words as (data, check bits). -/
structure ProtLine where
  region : Nat
  offset : Nat
  words : List (W128 × BitVec 16)
  deriving DecidableEq, Repr

/-- A USDO request frame (R388): read, expedited write, or the parts of a segmented write. -/
inductive UsdoFrame where
  | read (idx sub : Nat)
  | write (idx sub : Nat) (bytes : List Byte)
  | segStart (idx sub len : Nat)
  | segData (bytes : List Byte)
  deriving DecidableEq, Repr

/-- The source of a recovery transfer command (R425, R433). -/
inductive XferSrc where
  | mailbox
  | canFd
  deriving DecidableEq, Repr

/-- What a boot step found (R421): whether the step could complete, the unit whose training failed (R258), and the tiles that failed
their test. -/
structure BootFinding where
  ok : Bool
  reason : Nat
  failedTiles : List PhysTile
  deriving DecidableEq, Repr

/-- A phase-locked loop (R450). -/
inductive Pll where
  | root
  | other (unit : Nat)
  deriving DecidableEq, Repr

/-- What a telemetry transaction returned for one supply (R443, R444). -/
inductive Telemetry where
  | reading (mv ma : Nat)
  | stale
  | noAnswer (retryAnswers : Bool)
  | fault
  | warning
  deriving DecidableEq, Repr

/-- A core's load or fetch: its bytes, and whether it takes a reservation (R260). -/
structure CoreRead where
  len : Nat
  reserve : Bool
  deriving DecidableEq, Repr

/-- A core's store: its bytes, and how it is made (R260). -/
structure CoreWrite where
  bytes : List Byte
  kind : CoreStoreKind
  deriving DecidableEq, Repr

/-- A port that has trained again, and the identity that its neighbour sent (R296, R298). -/
structure PortIdentity where
  own : PortNo
  id : Nat
  port : Nat
  revision : Nat
  deriving DecidableEq, Repr

/-- The data of a memory-write TLP, and its EP bit (R309). -/
structure TlpData where
  bytes : List Byte
  ep : Bool
  deriving DecidableEq, Repr

/-- Why port H detaches, and how many of its posted writes are not acknowledged (R328, R329). -/
structure Detach where
  cause : DetachCause
  unacked : Nat
  deriving DecidableEq, Repr

/-- The value of a dictionary write, and how it reaches the package (R311, R384). -/
structure DictValue where
  value : Nat
  form : WriteForm
  deriving DecidableEq, Repr

/-- A swap refusal: the message, and the logical position that refuses (R392). -/
structure RefusalIn where
  msg : C0In
  position : Nat
  deriving DecidableEq, Repr

/-- The commands of the package: one constructor per row of the table. -/
inductive Instr where
  -- tiles and the matrix array
  | mnop (a : MSlot)
  | mlw (a : MSlot)
  | mws (a : MSlot)
  | mwt (a : MSlot)
  | mdr (a : MSlot)
  | mdv (a : MSlot)
  | mclr (a : MSlot)
  | mflg (a : MSlot)
  | streamResultWrite (t : TileNo)
  | matrixInterlockRelease (t : TileNo) (cyc : Nat)
  | weightRegisterScrub (t : TileNo)
  | bistOwnerWrite (w : Writer) (d : DieNo) (v : Nat)
  | bistRequest (p : Path) (d : DieNo) (v : Nat)
  | bistComplete (d : DieNo) (failed : List (Fin 52))
  | tileSramWindowAccess (a : MemAccess)
  -- the vector engine
  | vnop (t : TileNo)
  | vadd (a : VRegForm)
  | vsub (a : VRegForm)
  | vmul (a : VRegForm)
  | vfma (a : VRegForm)
  | vmax (a : VRegForm)
  | vmin (a : VRegForm)
  | vabs (a : VRegForm)
  | vneg (a : VRegForm)
  | vcmp (a : VCmpForm)
  | vsel (a : VRegForm)
  | vrcp (a : VRegForm)
  | vsqrt (a : VRegForm)
  | vrsq (a : VRegForm)
  | vexp2 (a : VRegForm)
  | vlog2 (a : VRegForm)
  | vexp (a : VRegForm)
  | vtanh (a : VRegForm)
  | vsigm (a : VRegForm)
  | vsinp (a : VRegForm)
  | vcosp (a : VRegForm)
  | viadd (a : VRegForm)
  | vand (a : VRegForm)
  | vor (a : VRegForm)
  | vxor (a : VRegForm)
  | vshl (a : VRegForm)
  | vshr (a : VRegForm)
  | vcvti (a : VRegForm)
  | vcvtf (a : VRegForm)
  | vperm (a : VRegForm)
  | vmand (a : VMaskForm)
  | vmor (a : VMaskForm)
  | vmnot (a : VMaskForm)
  | vld (a : VMemForm)
  | vst (a : VMemForm)
  | vnst (a : VMemForm)
  | vldq (a : VMemForm)
  | vrst (a : VMemForm)
  | vred (a : VRedForm)
  | vrget (a : VFoldForm)
  | vphr (a : VPhrForm)
  | phraseEnd (t : TileNo) (cyc : Nat)
  | vflg (a : VFlgForm)
  | vectorInterlockRelease (t : TileNo) (cyc : Nat)
  | drainQueueHoldRelease (t : TileNo) (cyc : Nat)
  -- the control slot and the sequencer
  | cnop (t : TileNo)
  | cwait (t : TileNo) (target : BitVec 27)
  | carr (t : TileNo) (win : Fin 16) (slack : BitVec 7) (count : BitVec 16)
  | cloop (t : TileNo) (lc : Fin 4) (iterations : BitVec 16)
  | cnext (t : TileNo) (lc : Fin 4)
  | cvote (t : TileNo) (desc : Fin 64) (vreg : Fin 32) (src : BitVec 2)
  | cend (t : TileNo) (cyc : Nat)
  | heldBundleRelease (t : TileNo)
  | clauseStart (t : TileNo) (sentence : Fin 64) (cyc : Nat)
  | clauseStoreScrub (t : TileNo)
  | clauseStoreRefetch (t : TileNo)
  -- the move slot
  | xnop (t : TileNo)
  | xsend (a : XSlot)
  | xget (a : XSlot)
  | xput (a : XSlot)
  | xpub (t : TileNo)
  | xagr (a : XSlot)
  | xdsp (a : XSlot)
  | flitCredit (i : Nat)
  -- schedule time
  | beatBoundary
  | timeExchange (x : TimeExchange)
  | lateCase (c : LateCase)
  | slipRequestRepeat (c : LateCase)
  | slipRequest (x : C0In) (requester beat : Nat)
  | slipHoldStart
  | slipHoldEnd
  | holdLimitExpiry (c : LateCase)
  -- the schedule loader
  | loaderOwnerWrite (w : Writer) (v : Nat)
  | load
  | unload
  | start
  | halt
  | startQuery (x : C0In)
  | startAnswer (x : C0In) (state imageId variant : Nat)
  | startAnswerDeadline
  | startBeatMessage (x : C0In) (beat : Nat)
  | domainStart
  | haltMessage (x : C0In) (beat : Nat)
  | haltTakeEffect
  -- the training step
  | stepStart
  | localVoteDeadline
  | localVoteComplete
  | voteRecord (x : C0In) (r : VoteRec)
  | stepDecision
  | ledgerReadIndexWrite (p : Path) (v : Nat)
  | scaleQuery (p : Path) (v : Nat)
  -- the Agreement engine
  | agreementChunkReceive (e : Bool) (ch : Fin 16) (c : Chunk)
  | agreementHop (e : Bool) (ch : Fin 16) (mismatches : Nat)
  | xagrFlitAccept (e : Bool) (ch : Fin 16)
  -- dispatch and tiers
  | fill (d : DieNo)
  | gather (d : DieNo)
  | scatter (d : DieNo)
  | collect (d : DieNo)
  | routingRecordFlit (d : DieNo) (table : Nat)
  | dispatchTrigger (d : DieNo) (table : Nat)
  | dispatchFlitAccept (d : DieNo) (table : Nat)
  | dispatchTableAdvance (d : DieNo)
  | dispatchReadIndexWrite (p : Path) (v : Nat)
  | stageEntryStart (e : DieNo)
  | stageEntryComplete (e : DieNo)
  | stageEntryDeadline (e : DieNo)
  | placementQuery (p : Path) (v : Nat)
  -- memory
  | memoryLineRead (i : Nat)
  | memoryLineWrite (i : Nat)
  | correctionWriteback (i : Nat)
  | patrolScrubRead (n : DieNo)
  | scrubWindowClose (n : DieNo)
  | memTestOwnerWrite (w : Writer) (n : DieNo) (v : Nat)
  | repairStart (n : DieNo)
  | repairDone (n : DieNo) (bankExhausted : Bool) (leftAfter : Nat)
  | decodeQuery (p : Path) (v : Nat)
  | selfRefreshIdleEntry (unit : Fin 36)
  -- coherence
  | coherentRequestArrival (idx : List Nat) (cyc : Nat)
  | rdShared (line : Nat)
  | rdOwn (line : Nat)
  | upgrade (line : Nat)
  | wbDirty (line : Nat)
  | evClean (line : Nat)
  | rdSnoop (line : Nat)
  | wrInv (line : Nat)
  | directoryRecall (line : Nat)
  | fwdS (c : CoreNo) (line : Nat)
  | fwdM (c : CoreNo) (line : Nat)
  | inv (c : CoreNo) (line : Nat)
  | invD (c : CoreNo) (line : Nat)
  | snpRd (c : CoreNo) (line : Nat)
  | snoopAnswer (c : CoreNo) (line : Nat)
  | completionAck (r : Fin 80) (line : Nat)
  | homeTimeout (c : CoreNo) (line : Nat)
  | coreLoad (c : CoreNo) (addr : Nat) (x : CoreRead)
  | coreStore (c : CoreNo) (addr : Nat) (x : CoreWrite)
  | coreReplacement (c : CoreNo) (line : Nat)
  | coreFill (c : CoreNo) (line : Nat)
  | fence (c : CoreNo)
  | reclaimOwnerWrite (w : Writer) (v : Nat)
  | reclaimStart (p : Path) (v : Nat)
  | reclaimSweepComplete
  | coreTakenOffline (c : CoreNo)
  | coreStarted (c : CoreNo)
  -- neighbour links
  | codewordTransmit (p : PortNo)
  | codewordReceive (p : PortNo) (cw : RxCodeword)
  | ackFlit (p : PortNo) (position : Nat) (credits : List Nat)
  | nakFlit (p : PortNo) (position : Nat)
  | class0Flit (p : PortNo) (m : C0Msg) (copy : Bool) (seq : Nat) (replayed : Bool)
  | portTraining (p : PortNo)
  | identityFlit (p : PortNo) (id port revision : Nat)
  | laneMarginLow (p : PortNo) (lane : Fin 9) (mv : Nat)
  | substitutionFlit (p : PortNo) (lane : Fin 8) (position : Nat)
  | substitutionPosition (p : PortNo)
  | laneLockLoss (p : PortNo) (lane : Option (Fin 8))
  | retrainComplete (x : PortIdentity)
  | retrainLimitExpiry (p : PortNo)
  | silzinWordReceive (b : Fin 13) (w : SilzinWord)
  | linkTestOwnerWrite (w : Writer) (d : Fin 2) (v : Nat)
  | linkTestRequest (p : Path) (d : Fin 2) (v : Nat)
  -- host and ingest ports
  | pcieLinkUp (p : HostPort) (rate width : Nat)
  | pcieLinkDown (p : HostPort) (unacked : Nat)
  | perst (p : HostPort) (unacked : Nat)
  | commandWindowWrite (offset : Nat) (x : TlpData)
  | ingestWrite (offset : Nat) (x : TlpData)
  | ingestRead (offset len : Nat)
  | notificationWrite (w : Nat)
  | queueOwnerWrite (p : Path) (q : QueueNo) (v : Nat)
  | queueEnable (p : Path) (q : QueueNo)
  | queueDisable (p : Path) (q : QueueNo)
  | queueDisableComplete (q : QueueNo)
  | sqDoorbell (p : Path) (q : QueueNo) (v : Nat)
  | descriptorFetch (q : QueueNo)
  | descriptorReread (q : QueueNo)
  | dmaNop (q : QueueNo)
  | copyToHost (q : QueueNo)
  | copyFromHost (q : QueueNo) (cpl : HostCpl)
  | completionPost (q : QueueNo) (bytes : List Byte)
  | completionRecordWrite (q : QueueNo)
  | flushReadComplete
  | completionRingRoom (p : Path) (q : QueueNo) (v : Nat)
  | portHDetach (x : Detach)
  | sessionAttach (p : Path) (token : W64)
  | sessionResumeDrain (p : Path)
  | sessionResumeDiscard (p : Path)
  | sessionRelease (p : Path)
  | sessionExpiry
  | sessionTokenRead (p : Path)
  -- securing and recovery
  | trackedWrite (addr : Nat) (bytes : List Byte)
  | protectionDelta (l : ProtLine)
  | protectionCopy (l : ProtLine)
  | saveHoldEnd
  | saveStallTimeout
  | saveAbandoned (x : C0In) (beat : Nat)
  | saveRequest (p : Path) (v : Nat)
  | saveRequestMessage (x : C0In) (beat position : Nat)
  | restoreRecord
  | failureNotice (x : C0In) (position reporter beat : Nat)
  | deadDetectExpiry (p : PortNo)
  | recoveryReport (x : C0In) (r : RecReport)
  | gatherWindowEnd
  | recoveryPlan (x : C0In) (pl : RecPlan)
  | rebuildComplete
  | resume (x : C0In) (beat step : Nat)
  | resumeBeat
  | rollbackRequest (p : Path) (v : Nat)
  | idleSpareFailure (phys : Nat)
  | regionQuery (p : Path) (v : Nat)
  -- power states
  | psOwnerWrite (p : Path) (v : Nat)
  | psRequest (p : Path) (v : Nat)
  | psEntryStepDone
  | psEntryStepTimeout
  | wakeN
  | wakeStepDone
  | wakeBudgetStep (rail : Fin 9)
  | padRelease (p : Path) (v : Nat)
  | aclkDivisorWrite (p : Path) (v : Nat)
  | divisorChange
  | dvfsInterlockRelease (d : DieNo)
  | powerSample (milliwatts : Nat)
  -- the dictionary, CAN FD and configuration sets
  | dictionaryWrite (p : Path) (idx sub size : Nat) (x : DictValue)
  | usdoRequest (f : UsdoFrame)
  | usdoSegmentTimeout
  | nmtStart (node : Nat)
  | nmtStop (node : Nat)
  | nmtPreOperational (node : Nat)
  | nmtResetNode (node : Nat)
  | nmtResetCommunication (node : Nat)
  | heartbeat
  | emcyTransmit
  | canBusOff
  | canBusOffRecovery
  | canErrorPassive
  | canErrorActive
  | cfgArm (p : Path) (v : Nat)
  | cfgDisarm (p : Path)
  | cfgArmValidated
  | cfgSwapGen (p : Path) (v : Nat)
  | swapAnnouncement (x : C0In) (gen divisor beat : Nat)
  | swapCutoff
  | swapRefusal (x : RefusalIn)
  | cfgSwapLocal (p : Path) (v : Nat)
  | period
  | periodTimerFire
  | periodRequest (p : Path) (v : Nat)
  | periodTimerOwnerWrite (p : Path) (v : Nat)
  | prdOutOwnerWrite (p : Path) (v : Nat)
  | wearSample (readings : List (Nat × Int))
  | wearCheckpoint
  | wearQuery (p : Path) (v : Nat)
  | errorRegisterRead (p : Path)
  -- supplies, clocks, reset and boot
  | pwrOkRise (silentRegulators : List Nat)
  | supplyPowerGood (s : Fin 21)
  | powerGoodTimeout (s : Fin 21)
  | pwrOkFall
  | resetNAssert (memoryConfirmed : Bool)
  | packageReset (p : Path) (v : Nat) (memoryConfirmed : Bool)
  | coldResetRelease (recoveryN testMode : Bool)
  | bootStepDone (f : BootFinding)
  | bootWatchdogExpiry (memoryConfirmed : Bool)
  | osBoot (p : Path) (v : Nat)
  | recoveryRequest (p : Path) (v : Nat)
  | beginTransfer (x : XferSrc) (kind mode totalLen : Nat)
  | dataTransfer (x : XferSrc) (offset : Nat) (bytes : List Byte)
  | endTransfer (x : XferSrc)
  | abortTransfer (x : XferSrc)
  | flashWrite (good : Bool) (goodOnRetry : Bool)
  | floorRaise (p : Path) (v : Nat)
  | quoteNonceWrite (p : Path) (word : Fin 8) (v : W32)
  | quoteRequest (p : Path) (v : Nat)
  | quoteReady (p : Path)
  | measureExtend (p : Path) (v : Nat)
  | rngHealthFail
  | refclkLoss
  | refclkRestored (memoryConfirmed : Bool)
  | pllUnlock (u : Pll)
  | pllLockTimeout (u : Pll)
  | thermalSample (dieTemps stackTemps : List Int)
  | thermalTrip (unit : Fin 22)
  | pmbAlert (s : Fin 18) (x : Telemetry)
  | telemetryPoll (s : Fin 21) (x : Telemetry)
  -- events
  | eventRaise (n : Nat)
  | eventLogRecordLatch (p : Path)
  | escMaskWrite (p : Path) (sev : Fin 6) (v : Nat)
  | msixVectorWrite (p : Path) (q : Option QueueNo) (v : Nat)
  | loadComplete
  deriving DecidableEq, Repr

end Sys2Proof
end

