-- ==== Sys2Proof/Decode.lean ====
section
/-! DEFINITION. Decode.lean: the instruction that each slot of a clause-store bundle spells (R40, R109, R110, R135, R137). The table of
commands itself gives no row any bits: commands are register accesses, issued slots, link messages and pins, so no word spells one. -/
namespace Sys2Proof
open Sys2Proof.Machine

/-- The command that a word of `nbits` bits spells: no row has bits, so none. -/
def decodeTableWord (_nbits _w : Nat) : Option Instr := none

/-- The bits from hi to lo are 0, as reserved bits must be. -/
def zeroBits (w hi lo : Nat) : Bool := decide (bits w hi lo = 0)

/-! ## The matrix slot (R40, R41) -/

/-- The fields of a matrix slot on tile t at cycle c. -/
def mslotOf (t : TileNo) (c w : Nat) : MSlot :=
  ⟨t, Fin.ofNat 64 (bits w 26 21), bitOf w 20, bitOf w 19, BitVec.ofNat 2 (bits w 18 17), bitOf w 16, BitVec.ofNat 16 (bits w 15 0), c⟩

/-- Bits [31:27] pick the instruction; 0x08 to 0x1F are reserved. -/
def decodeMatrixSlot (t : TileNo) (c w : Nat) : Option Instr :=
  let a := mslotOf t c w
  match bits w 31 27 with
  | 0 => some (.mnop a)
  | 1 => some (.mlw a)
  | 2 => some (.mws a)
  | 3 => some (.mwt a)
  | 4 => some (.mdr a)
  | 5 => some (.mdv a)
  | 6 => some (.mclr a)
  | 7 => some (.mflg a)
  | _ => none

/-! ## The vector slot (R109, R110) -/

def vregOf (t : TileNo) (c w : Nat) : VRegForm :=
  ⟨t, Fin.ofNat 32 (bits w 25 21), Fin.ofNat 32 (bits w 20 16), Fin.ofNat 32 (bits w 15 11), Fin.ofNat 32 (bits w 10 6),
    Fin.ofNat 8 (bits w 5 3), bitOf w 2, c⟩

def vmemOf (t : TileNo) (c w : Nat) : VMemForm :=
  ⟨t, Fin.ofNat 32 (bits w 25 21), Fin.ofNat 64 (bits w 20 15), Fin.ofNat 8 (bits w 5 3), bitOf w 2, BitVec.ofNat 2 (bits w 1 0), c⟩

def vmaskOf (t : TileNo) (c w : Nat) : VMaskForm :=
  ⟨t, Fin.ofNat 8 (bits w 23 21), Fin.ofNat 8 (bits w 18 16), Fin.ofNat 8 (bits w 13 11), Fin.ofNat 8 (bits w 5 3), c⟩

def vcmpOf (t : TileNo) (c w : Nat) : VCmpForm :=
  ⟨t, Fin.ofNat 8 (bits w 23 21), Fin.ofNat 32 (bits w 20 16), Fin.ofNat 32 (bits w 15 11), BitVec.ofNat 3 (bits w 8 6),
    Fin.ofNat 8 (bits w 5 3), c⟩

def vredOf (t : TileNo) (c w : Nat) : VRedForm :=
  ⟨t, Fin.ofNat 4 (bits w 25 24), BitVec.ofNat 2 (bits w 23 22), Fin.ofNat 32 (bits w 20 16), Fin.ofNat 32 (bits w 15 11),
    Fin.ofNat 8 (bits w 5 3), c⟩

/-- The instruction, where the bits that its form does not name are 0. -/
def whenZero (ok : Bool) (i : Instr) : Option Instr := if ok then some i else none

/-- Bits [31:26] pick the instruction; 0x2A to 0x3F are reserved, and so is every bit that the opcode's form does not name. -/
def decodeVectorSlot (t : TileNo) (c w : Nat) : Option Instr :=
  let r := vregOf t c w
  let m := vmemOf t c w
  let k := vmaskOf t c w
  let reg := zeroBits w 1 0
  let va := zeroBits w 15 6 && reg
  let mask := zeroBits w 25 24 && zeroBits w 20 19 && zeroBits w 15 14 && zeroBits w 10 6 && zeroBits w 2 0
  let mem := zeroBits w 14 6
  match bits w 31 26 with
  | 0x00 => whenZero (decide (w = 0)) (.vnop t)
  | 0x01 => whenZero reg (.vadd r)
  | 0x02 => whenZero reg (.vsub r)
  | 0x03 => whenZero reg (.vmul r)
  | 0x04 => whenZero reg (.vfma r)
  | 0x05 => whenZero reg (.vmax r)
  | 0x06 => whenZero reg (.vmin r)
  | 0x07 => whenZero reg (.vabs r)
  | 0x08 => whenZero reg (.vneg r)
  | 0x09 => whenZero (zeroBits w 25 24 && zeroBits w 10 9 && zeroBits w 2 0) (.vcmp (vcmpOf t c w))
  | 0x0A => whenZero reg (.vsel r)
  | 0x0B => whenZero va (.vrcp r)
  | 0x0C => whenZero va (.vsqrt r)
  | 0x0D => whenZero va (.vrsq r)
  | 0x0E => whenZero va (.vexp2 r)
  | 0x0F => whenZero va (.vlog2 r)
  | 0x10 => whenZero va (.vexp r)
  | 0x11 => whenZero va (.vtanh r)
  | 0x12 => whenZero va (.vsigm r)
  | 0x13 => whenZero va (.vsinp r)
  | 0x14 => whenZero va (.vcosp r)
  | 0x15 => whenZero reg (.viadd r)
  | 0x16 => whenZero reg (.vand r)
  | 0x17 => whenZero reg (.vor r)
  | 0x18 => whenZero reg (.vxor r)
  | 0x19 => whenZero reg (.vshl r)
  | 0x1A => whenZero reg (.vshr r)
  | 0x1B => whenZero reg (.vcvti r)
  | 0x1C => whenZero reg (.vcvtf r)
  | 0x1D => whenZero reg (.vperm r)
  | 0x1E => whenZero mask (.vmand k)
  | 0x1F => whenZero mask (.vmor k)
  | 0x20 => whenZero mask (.vmnot k)
  | 0x21 => whenZero mem (.vld m)
  | 0x22 => whenZero mem (.vst m)
  | 0x23 => whenZero mem (.vnst m)
  | 0x24 => whenZero (mem && zeroBits w 20 15) (.vldq m)
  | 0x25 => whenZero (mem && zeroBits w 25 21 && zeroBits w 5 2) (.vrst m)
  | 0x26 => whenZero (zeroBits w 21 21 && zeroBits w 10 6 && zeroBits w 2 0) (.vred (vredOf t c w))
  | 0x27 => whenZero (zeroBits w 18 0) (.vrget ⟨t, Fin.ofNat 32 (bits w 25 21), Fin.ofNat 4 (bits w 20 19), c⟩)
  | 0x28 => whenZero (zeroBits w 4 0) (.vphr ⟨t, Fin.ofNat 32 (bits w 25 21), BitVec.ofNat 16 (bits w 20 5), c⟩)
  | 0x29 => whenZero (zeroBits w 20 6 && zeroBits w 2 0) (.vflg ⟨t, Fin.ofNat 32 (bits w 25 21), Fin.ofNat 8 (bits w 5 3), c⟩)
  | _ => none

/-! ## The move slot (R137) -/

def xslotOf (t : TileNo) (w : Nat) : XSlot := ⟨t, Fin.ofNat 64 (bits w 26 21), BitVec.ofNat 16 (bits w 15 0)⟩

/-- Bits [31:27] pick the instruction; 0x07 to 0x1F are reserved. -/
def decodeMoveSlot (t : TileNo) (w : Nat) : Option Instr :=
  let a := xslotOf t w
  let ok := zeroBits w 20 16
  match bits w 31 27 with
  | 0 => whenZero (ok && decide (bits w 15 0 ≠ 0xFFFF)) (.xnop t)
  | 1 => whenZero ok (.xsend a)
  | 2 => whenZero ok (.xget a)
  | 3 => whenZero ok (.xput a)
  | 4 => whenZero (ok && zeroBits w 15 0) (.xpub t)
  | 5 => whenZero ok (.xagr a)
  | 6 => whenZero ok (.xdsp a)
  | _ => none

/-! ## The control slot (R135) -/

/-- Bits [31:27] pick the instruction; 0x07 to 0x1F are reserved, and so is every bit not named for the opcode. -/
def decodeControlSlot (t : TileNo) (c w : Nat) : Option Instr :=
  match bits w 31 27 with
  | 0 => whenZero (zeroBits w 26 0) (.cnop t)
  | 1 => some (.cwait t (BitVec.ofNat 27 (bits w 26 0)))
  | 2 => some (.carr t (Fin.ofNat 16 (bits w 26 23)) (BitVec.ofNat 7 (bits w 22 16)) (BitVec.ofNat 16 (bits w 15 0)))
  | 3 => whenZero (zeroBits w 24 16) (.cloop t (Fin.ofNat 4 (bits w 26 25)) (BitVec.ofNat 16 (bits w 15 0)))
  | 4 => whenZero (zeroBits w 24 0) (.cnext t (Fin.ofNat 4 (bits w 26 25)))
  | 5 => whenZero (zeroBits w 13 0)
      (.cvote t (Fin.ofNat 64 (bits w 26 21)) (Fin.ofNat 32 (bits w 20 16)) (BitVec.ofNat 2 (bits w 15 14)))
  | 6 => whenZero (zeroBits w 26 0) (.cend t c)
  | _ => none

/-! ## The bundle -/

/-- What slot k of a bundle spells: 0 matrix, 1 vector, 2 move, 3 control. -/
def decodeSlot (t : TileNo) (c k w : Nat) : Option Instr :=
  match k with
  | 0 => decodeMatrixSlot t c w
  | 1 => decodeVectorSlot t c w
  | 2 => decodeMoveSlot t w
  | 3 => decodeControlSlot t c w
  | _ => none

/-- The instructions of a bundle's four slots, in the bundle's order of bits: none where a slot is reserved. -/
def decodeBundle (t : TileNo) (c : Nat) (w : W128) : Option (List Instr) :=
  (List.range 4).mapM fun k => decodeSlot t c k (bits w.toNat (32 * k + 31) (32 * k))

end Sys2Proof
end

