-- ==== Sys2Proof/Machine/Num.lean ====
section
/-! DEFINITION. Machine/Num.lean: exact values of elements (R60 to R66), the one rounding of a conversion or an
accumulator update (R75, R88, R96), binary32 arithmetic on lanes, and the generator (R95). -/
namespace Sys2Proof.Machine

/-- An exact value: a signed zero or finite number ±m·2^e, an infinity, or a NaN. -/
inductive FVal where
  | nan
  | inf (neg : Bool)
  | fin (neg : Bool) (m : Nat) (e : Int)
  deriving DecidableEq, Repr

/-- How an exact value is rounded: to nearest even, toward zero, toward +∞, or stochastically with u (R96). -/
inductive Rnd where
  | rne
  | rtz
  | rup
  | stoch (u : Nat)
  deriving DecidableEq, Repr

/-- An element format (R61): mantissa bits, exponent bits, bias, largest finite magnitude code, infinity code if
there is one, NaN code if there is one. -/
structure Fmt where
  width : Nat
  man : Nat
  bias : Int
  maxCode : Nat
  infCode : Option Nat
  nanCode : Option Nat
  deriving DecidableEq, Repr

/-- The formats of R61 by the codes of R44. INT8 (0x2) has no row here: its codes are read as integers. -/
def fmtOf : Nat → Fmt
  | 0 => ⟨8, 3, 7, 0x7E, none, some 0x7F⟩
  | 1 => ⟨8, 2, 15, 0x7B, some 0x7C, some 0x7E⟩
  | 3 => ⟨6, 3, 1, 0x1F, none, none⟩
  | 4 => ⟨6, 2, 3, 0x1F, none, none⟩
  | 5 => ⟨4, 1, 1, 0x7, none, none⟩
  | 6 => ⟨16, 7, 127, 0x7F7F, some 0x7F80, some 0x7FC0⟩
  | 7 => ⟨16, 10, 15, 0x7BFF, some 0x7C00, some 0x7E00⟩
  | _ => ⟨32, 23, 127, 0x7F7FFFFF, some 0x7F800000, some 0x7FC00000⟩

/-- Bits per element of a format code (R61). -/
def fmtWidth (f : Nat) : Nat := if f = 2 then 8 else (fmtOf f).width

/-- The three element classes of R44: 8-bit 0, 4-bit and 6-bit 1, 16-bit 2, FP32 3. -/
def fmtClass (f : Nat) : Nat :=
  if f ≤ 2 then 0 else if f ≤ 5 then 1 else if f ≤ 7 then 2 else 3

/-- The exact value of an element code (R60, R61, R62). -/
def decodeElem (f code : Nat) : FVal :=
  if f = 2 then
    if code < 128 then .fin false code 0 else .fin true (256 - code % 256) 0
  else
    let r := fmtOf f
    let neg := bitOf code (r.width - 1)
    let mag := code % 2 ^ (r.width - 1)
    if some mag = r.infCode then .inf neg
    else if mag > r.maxCode then .nan
    else
      let ex := mag / 2 ^ r.man
      let mant := mag % 2 ^ r.man
      if ex = 0 then .fin neg mant (1 - r.bias - r.man)
      else .fin neg (2 ^ r.man + mant) (ex - r.bias - r.man)

/-- The exact value of a binary32 lane. -/
def f32 (w : W32) : FVal := decodeElem 8 w.toNat

def FVal.isNan : FVal → Bool
  | .nan => true
  | _ => false

def FVal.isFin : FVal → Bool
  | .fin _ _ _ => true
  | _ => false

def FVal.isInf : FVal → Bool
  | .inf _ => true
  | _ => false

def FVal.isZero : FVal → Bool
  | .fin _ 0 _ => true
  | _ => false

def FVal.neg : FVal → Bool
  | .nan => false
  | .inf s => s
  | .fin s _ _ => s

/-- −v. -/
def FVal.opp : FVal → FVal
  | .nan => .nan
  | .inf s => .inf (!s)
  | .fin s m e => .fin (!s) m e

/-- v·2^k. -/
def FVal.scale (k : Int) : FVal → FVal
  | .fin s m e => .fin s m (e + k)
  | v => v

/-- floor(log2 |v|) of a finite non-zero value. -/
def FVal.expo : FVal → Int
  | .fin _ m e => (m.log2 : Int) + e
  | _ => 0

/-- The integer ±m·2^(e − q) of a finite value, for q ≤ e; below the grid q bits are dropped toward zero. -/
def FVal.onGrid (q : Int) : FVal → Int
  | .fin s m e =>
    let n : Nat := if q ≤ e then m * 2 ^ (e - q).toNat else m / 2 ^ (q - e).toNat
    if s then -(n : Int) else n
  | _ => 0

/-- The exact value n·2^q; a zero is +0. -/
def FVal.ofInt (n q : Int) : FVal := .fin (decide (n < 0)) n.natAbs q

/-- The exact product (R87): NaN with a NaN factor or for zero times infinity. -/
def FVal.mul (x y : FVal) : FVal :=
  match x, y with
  | .nan, _ => .nan
  | _, .nan => .nan
  | .inf s, .inf t => .inf (s != t)
  | .inf s, .fin t m _ => if m = 0 then .nan else .inf (s != t)
  | .fin s m _, .inf t => if m = 0 then .nan else .inf (s != t)
  | .fin s m e, .fin t n g => .fin (s != t) (m * n) (e + g)

/-- The exact sum. An exact zero is +0 unless both operands are −0. -/
def FVal.add (x y : FVal) : FVal :=
  match x, y with
  | .nan, _ => .nan
  | _, .nan => .nan
  | .inf s, .inf t => if s = t then .inf s else .nan
  | .inf s, .fin _ _ _ => .inf s
  | .fin _ _ _, .inf t => .inf t
  | .fin s m e, .fin t n g =>
    if m = 0 ∧ n = 0 then .fin (s && t) 0 0
    else
      let q := min e g
      FVal.ofInt ((FVal.fin s m e).onGrid q + (FVal.fin t n g).onGrid q) q

/-- Order of two values that are no NaN: −1, 0 or 1 as x is below, equal to or above y; zeros are equal. -/
def FVal.cmp (x y : FVal) : Int :=
  match x, y with
  | .inf s, .inf t => if s = t then 0 else if s then -1 else 1
  | .inf s, _ => if s then -1 else 1
  | _, .inf t => if t then 1 else -1
  | .fin s m e, .fin t n g =>
    let q := min e g
    Int.sign ((FVal.fin s m e).onGrid q - (FVal.fin t n g).onGrid q)
  | _, _ => 0

/-- The magnitude code of |v| = m·2^e in a format with `man` mantissa bits and bias `bias`, rounded once and not
yet held to the format's largest code, and whether v moved. Magnitude codes are consecutive in value order. -/
def roundMag (man : Nat) (bias : Int) (r : Rnd) (neg : Bool) (m : Nat) (e : Int) : Nat × Bool :=
  if m = 0 then (0, false)
  else
    let emin := 1 - bias
    let top := max ((m.log2 : Int) + e) emin
    let q := top - man
    let base := (top - emin).toNat * 2 ^ man
    if q ≤ e then (base + m * 2 ^ (e - q).toNat, false)
    else
      let d := 2 ^ (q - e).toNat
      let n := m / d
      let rem := m % d
      let up := match r with
        | .rne => decide (2 * rem > d) || (decide (2 * rem = d) && n % 2 == 1)
        | .rtz => false
        | .rup => !neg && decide (rem ≠ 0)
        | .stoch u => decide (rem * 2 ^ 32 / d + u ≥ 2 ^ 32)
      (base + n + (if up then 1 else 0), decide (rem ≠ 0))

/-- The binary32 code of an exact value under one rounding: overflow to infinity, or to the largest finite value
when rounding toward zero; subnormals kept; NaN is 0x7FC0_0000 (R88, R102). -/
def toF32 (r : Rnd) (v : FVal) : W32 :=
  match v with
  | .nan => 0x7FC00000
  | .inf s => if s then 0xFF800000 else 0x7F800000
  | .fin s m e =>
    let c := (roundMag 23 127 r s m e).1
    let lim := match r with
      | .rtz => 0x7F7FFFFF
      | _ => 0x7F800000
    BitVec.ofNat 32 (min c lim + (if s then 2 ^ 31 else 0))

/-- BF16 rounding toward +∞ of a non-negative finite value (R72). -/
def toBf16Up (v : FVal) : Nat :=
  match v with
  | .fin s m e => min (roundMag 7 127 .rup s m e).1 0x7F80 + (if s then 0x8000 else 0)
  | .inf s => if s then 0xFF80 else 0x7F80
  | .nan => 0x7FC0

/-- Truncation to BF16, as the exact value kept (R90). -/
def truncBf16 (v : FVal) : FVal :=
  match v with
  | .fin s m e => decodeElem 6 ((roundMag 7 127 .rtz s m e).1 + (if s then 0x8000 else 0))
  | w => w

/-- What an encode did to one element, for the ledger (R78). -/
structure Enc where
  code : Nat
  sat : Bool
  flushed : Bool
  sub : Bool
  deriving DecidableEq, Repr

/-- R75: encode the finite value t (already divided by the scales) into format f. A code of INT8 never counts as subnormal (R61, R78;
DESIGN CHOICE, log 74). -/
def encodeFin (f : Nat) (r : Rnd) (neg : Bool) (m : Nat) (e : Int) : Enc :=
  if f = 2 then
    let n := if 0 ≤ e then m * 2 ^ e.toNat else
      let d := 2 ^ (-e).toNat
      let rem := m % d
      m / d + (match r with
        | .rne => if 2 * rem > d ∨ (2 * rem = d ∧ m / d % 2 = 1) then 1 else 0
        | .rtz => 0
        | .rup => if ¬ neg ∧ rem ≠ 0 then 1 else 0
        | .stoch u => if rem * 2 ^ 32 / d + u ≥ 2 ^ 32 then 1 else 0)
    let k := min n 127
    ⟨if neg then (256 - k) % 256 else k, decide (n > 127), decide (k = 0 ∧ m ≠ 0), false⟩
  else
    let w := fmtOf f
    let c := (roundMag w.man w.bias r neg m e).1
    let k := min c w.maxCode
    ⟨k + (if neg then 2 ^ (w.width - 1) else 0), decide (c > w.maxCode), decide (k = 0 ∧ m ≠ 0),
      decide (0 < k ∧ k < 2 ^ w.man)⟩

/-- The largest finite value of a destination format (R61). -/
def maxFinite (f : Nat) : FVal :=
  if f = 2 then .fin false 127 0 else decodeElem f (fmtOf f).maxCode

/-- The value of a fine code (R66); 0x3F is the non-finite block marker. -/
def fineVal (c : Nat) : FVal :=
  if c = 0x3F then .nan else .fin false (2 + c % 2) ((c / 2 : Nat) - 25)

/-- An element read through its scales (R64). -/
def scaled (f code : Nat) (k : Int) (fine : Nat) : FVal :=
  ((decodeElem f code).mul (fineVal fine)).scale k

/-- The elements of packed bytes (R63): element i at its bit position, little-endian. FP6 packs four per 24 bits,
which is the same as consecutive 6-bit fields. -/
def unpackElem (f : Nat) (v i : Nat) : Nat := bits v (fmtWidth f * i + fmtWidth f - 1) (fmtWidth f * i)

/-- Elements packed at their bit positions (R63), as a number. -/
def packElems (f : Nat) (l : List Nat) : Nat := l.foldr (fun c acc => c % 2 ^ fmtWidth f + 2 ^ fmtWidth f * acc) 0

/-- Bytes of n packed elements, rounded up to a whole byte (R63). -/
def packedBytes (f n : Nat) : Nat := ceilDiv (n * fmtWidth f) 8

/-! ## binary32 lane operations: round to nearest even, subnormals kept -/

def fAdd (a b : W32) : W32 := toF32 .rne ((f32 a).add (f32 b))
def fSub (a b : W32) : W32 := toF32 .rne ((f32 a).add (f32 b).opp)
def fMul (a b : W32) : W32 := toF32 .rne ((f32 a).mul (f32 b))
def fFma (a b c : W32) : W32 := toF32 .rne (((f32 a).mul (f32 b)).add (f32 c))

/-- A binary32 lane that is a NaN. -/
def isNan32 (a : W32) : Bool := (f32 a).isNan
/-- A binary32 lane that is infinite or NaN. -/
def nonFin32 (a : W32) : Bool := !(f32 a).isFin

/-! ## The generator of R95 -/

def rotl64 (v : W64) (n : Nat) : W64 := v.rotateLeft n

def genRound : W64 × W64 × W64 → W64 × W64 × W64
  | (a, b, k) =>
    let a := (a ^^^ k) * 0xC3A59E1B7D24F6E9
    let b := (b + rotl64 a 29) * 0x8F2D61B4A7C30E55
    (a ^^^ (b >>> 31), b, k + 0xA4D93C7158E2B60F)

/-- toari_gen (R95). -/
def toariGen (seed step tensor elem draw site : Nat) : W64 :=
  let a : W64 := BitVec.ofNat 64 (step % 2 ^ 40 + tensor % 2 ^ 24 * 2 ^ 40)
  let b : W64 := BitVec.ofNat 64 (elem % 2 ^ 46 + draw % 2 ^ 16 * 2 ^ 46 + site % 4 * 2 ^ 62)
  let r := genRound (genRound (genRound (genRound (genRound (genRound (a, b, BitVec.ofNat 64 seed))))))
  r.1 ^^^ rotl64 r.2.1 17

/-- u of R96: bits [63:32] of the generator. -/
def drawU (seed step tensor elem draw site : Nat) : Nat := (toariGen seed step tensor elem draw site).toNat / 2 ^ 32

end Sys2Proof.Machine
end

