-- ==== Sys2Proof/Config.lean ====
section
/-! DEFINITION. Config.lean: what the spec leaves open. Each constant has no body: a statement holds whatever it is.
The log entry named beside each says which rule leaves it open. -/
namespace Sys2Proof

/-- The result lane of a special function whose exact value the model's enclosure does not separate from a rounding
boundary (R120, log 9): function number, operand. -/
opaque Config.specialLane : Nat → BitVec 32 → BitVec 32

/-- A 64-bit value that nothing constrains, the n-th of a run (log 3). -/
opaque Config.freeWord : Nat → BitVec 64

/-- Falcon-1024 verification (R411): public key, message, signature (log 10). -/
opaque Config.falconVerify : List Byte → List Byte → List Byte → Bool

/-- A Falcon-1024 signature of the n-th signing: signer (0 IK, 1 AK), message, n (log 10). -/
opaque Config.falconSign : Nat → List Byte → Nat → List Byte

/-- The Falcon-1024 public key that key generation derives from a SHAKE256 stream's input (R411, log 10). -/
opaque Config.falconPublic : List Byte → List Byte

/-- The seed that the PUF gives (R412, log 10). -/
opaque Config.pufSeed : List Byte

/-- The digest of the boot ROM, and the vendor root key's digest that it holds (R411, R421, log 10). -/
opaque Config.romDigest : List Byte
opaque Config.vendorRootDigest : List Byte

/-- The vendor root's public key as a vendor-signed object carries it; the layouts of R413 and R429 give it no field (R411, log 10). -/
opaque Config.vendorKey : List Byte → List Byte

/-- What the scale part of a Syntax image holds: scale_table_base, the bytes of the table, and the ledger slot
declarations (tensor, site, delta_track). The spec gives the content and not its byte layout (R69, R78, R151, log 11);
none where the part is malformed. -/
opaque Config.scalePart : List Byte → Option (Nat × List Byte × List (Nat × Nat × Bool))

/-- The placement of a variant that the placement part holds: (physical identifier, logical position), 0xFFFF for a
spare (R151, log 11). -/
opaque Config.placementPart : List Byte → Nat → Option (List (Nat × Nat))

/-- Check symbol i of the RS(544,514) code of IEEE 802.3dj over 514 message symbols (R286, R288, log 82). -/
opaque Config.rsCheck : List Nat → Nat → BitVec 10

/-- The conversion-relevant limits of a part, per unit-indicator (R404, R429, log 12): kind, indicator, unit. -/
opaque Config.wearLimit : Nat → Nat → Nat → Nat

/-- The reference current of a rail or bridge, in mA (R404, R429, log 12). -/
opaque Config.wearRefCurrent : Nat → Nat

/-- The order in which the package takes what the spec leaves unordered: a choice below n, the k-th (log 3). -/
opaque Config.choice : Nat → Nat → Nat

end Sys2Proof
end

