-- ==== Sys2Proof/Machine/Objects.lean ====
section
/-! DEFINITION. Machine/Objects.lean: the object dictionary as the chapters' tables give it: for each object its
key (index × 256 + sub-index), the sub-indices and indices it spans, its size in bytes (R383), its access (R12), the
range of values a write may carry, and whether its chapter marks it as latched at every Period (R402). -/
namespace Sys2Proof.Machine

/-- Access codes of R12. -/
inductive Acc where
  | ro
  | rw
  | wo
  | rws
  deriving DecidableEq, Repr

/-- A row of the dictionary tables: `n` elements at sub-index steps of `step`, repeated at `nIdx` indices. -/
structure Obj where
  key : Nat
  n : Nat
  step : Nat
  nIdx : Nat
  size : Nat
  acc : Acc
  lo : Nat
  hi : Nat
  latched : Bool
  deriving DecidableEq, Repr

/-! The keys, named as the tables name them; element i of an array is at its key + i × step. -/

abbrev O.deviceType : Nat := 0x100000
abbrev O.deviceName : Nat := 0x100800
abbrev O.identityCount : Nat := 0x101800
abbrev O.vendorId : Nat := 0x101801
abbrev O.productCode : Nat := 0x101802
abbrev O.revisionNumber : Nat := 0x101803
abbrev O.serialNumber : Nat := 0x101804
abbrev O.spareMapCount : Nat := 0x300000
abbrev O.spareCol : Nat := 0x300001
abbrev O.tileStateCount : Nat := 0x300100
abbrev O.tileState : Nat := 0x300101
abbrev O.tileLogical : Nat := 0x300201
abbrev O.bistOwner : Nat := 0x300801
abbrev O.bistRequest : Nat := 0x300901
abbrev O.dummyFloor : Nat := 0x301001
abbrev O.rampStep : Nat := 0x301002
abbrev O.rampInterval : Nat := 0x301003
abbrev O.gapThreshold : Nat := 0x301004
abbrev O.zeroGateEnable : Nat := 0x301100
abbrev O.scrubCorrections : Nat := 0x301801
abbrev O.tileCounters : Nat := 0x302001
abbrev O.scaleTableBase : Nat := 0x340001
abbrev O.scaleTableEntries : Nat := 0x340003
abbrev O.ledgerSlots : Nat := 0x340101
abbrev O.ledgerRingBase : Nat := 0x340201
abbrev O.ledgerRingRecords : Nat := 0x340203
abbrev O.ledgerWriteIndex : Nat := 0x340204
abbrev O.ledgerReadIndex : Nat := 0x340205
abbrev O.ledgerRecordsDropped : Nat := 0x340206
abbrev O.ledgerTotals : Nat := 0x340401
abbrev O.scaleQueryId : Nat := 0x340501
abbrev O.scaleQueryWord0 : Nat := 0x340502
abbrev O.scaleQueryAmax : Nat := 0x340503
abbrev O.domainSeed : Nat := 0x350001
abbrev O.generatorStep : Nat := 0x350003
abbrev O.probeStep : Nat := 0x350101
abbrev O.probeTensor : Nat := 0x350103
abbrev O.probeElem : Nat := 0x350104
abbrev O.probeDraw : Nat := 0x350106
abbrev O.probeSite : Nat := 0x350107
abbrev O.probeResult : Nat := 0x350108
abbrev O.panelFlagSets : Nat := 0x350201
abbrev O.int32Saturations : Nat := 0x350301
abbrev O.vectorFlagCount : Nat := 0x360000
abbrev O.vectorFlagSets : Nat := 0x360001
abbrev O.vdescEntries : Nat := 0x360101
abbrev O.phraseEntries : Nat := 0x360102
abbrev O.drainQueueRows : Nat := 0x360103
abbrev O.vectorCounters : Nat := 0x362001
abbrev O.imageState : Nat := 0x380001
abbrev O.imageId : Nat := 0x380002
abbrev O.imageVariant : Nat := 0x380004
abbrev O.logicalPosition : Nat := 0x380005
abbrev O.domainPhysId : Nat := 0x380101
abbrev O.loaderOwner : Nat := 0x380102
abbrev O.domainBeat : Nat := 0x380201
abbrev O.slipTotal : Nat := 0x380203
abbrev O.timeOffset : Nat := 0x380301
abbrev O.timeParentPort : Nat := 0x380302
abbrev O.slipRequestsIssued : Nat := 0x380401
abbrev O.slipsApplied : Nat := 0x380402
abbrev O.lateEvents : Nat := 0x380403
abbrev O.maxLateness : Nat := 0x380404
abbrev O.loadRejects : Nat := 0x380501
abbrev O.lastRejectReason : Nat := 0x380502
abbrev O.updateCount : Nat := 0x390001
abbrev O.accCount : Nat := 0x390003
abbrev O.voidCount : Nat := 0x390004
abbrev O.voidStreak : Nat := 0x390005
abbrev O.lastCommitKind : Nat := 0x390006
abbrev O.voidLimit : Nat := 0x390101
abbrev O.lastVoidRecord : Nat := 0x390201
abbrev O.stepBlockBase : Nat := 0x390301
abbrev O.lrRaised : Nat := 0x390401
abbrev O.lrLowered : Nat := 0x390402
abbrev O.lrClamped : Nat := 0x390403
abbrev O.savePointsConfirmed : Nat := 0x390501
abbrev O.lastConfirmedStep : Nat := 0x390502
abbrev O.agreementScaleBase : Nat := 0x3A0001
abbrev O.agreementScaleEntries : Nat := 0x3A0003
abbrev O.stepOutcome : Nat := 0x3A0004
abbrev O.stepOutcomeHigh : Nat := 0x3A0006
abbrev O.scaleSteps : Nat := 0x3A0101
abbrev O.nfChunks : Nat := 0x3A0201
abbrev O.residueMismatches : Nat := 0x3A0301
abbrev O.poisonedChunks : Nat := 0x3A0401
abbrev O.holdStallBeats : Nat := 0x3A0501
abbrev O.recomputes : Nat := 0x3A0601
abbrev O.holdPeakBytes : Nat := 0x3A0701
abbrev O.holdCapacity : Nat := 0x3A0801
abbrev O.lastStepBucket : Nat := 0x3A0901
abbrev O.lastStepK : Nat := 0x3A0903
abbrev O.dispatchTables : Nat := 0x3C0001
abbrev O.fillsCompleted : Nat := 0x3C0101
abbrev O.tokensDropped : Nat := 0x3C0201
abbrev O.candidatesOverflowed : Nat := 0x3C0301
abbrev O.recordErrors : Nat := 0x3C0401
abbrev O.dispatchHoldBeats : Nat := 0x3C0501
abbrev O.dispatchRingBase : Nat := 0x3C0801
abbrev O.dispatchRingRecords : Nat := 0x3C0803
abbrev O.dispatchWriteIndex : Nat := 0x3C0804
abbrev O.dispatchReadIndex : Nat := 0x3C0805
abbrev O.dispatchRecordsDropped : Nat := 0x3C0806
abbrev O.placementGroups : Nat := 0x3C1001
abbrev O.placementBudgetBytes : Nat := 0x3C1002
abbrev O.placementSwapCount : Nat := 0x3C1101
abbrev O.placementSwaps : Nat := 0x3C1201
abbrev O.placementQuery : Nat := 0x3C1301
abbrev O.placementPosition : Nat := 0x3C1302
abbrev O.stageLateEntries : Nat := 0x3C1401
abbrev O.placementSwapsApplied : Nat := 0x3C1501
abbrev O.placementLastRefusal : Nat := 0x3C1502
abbrev O.hbmStacks : Nat := 0x400001
abbrev O.lpddrDevices : Nat := 0x400002
abbrev O.hbmCorrected : Nat := 0x400101
abbrev O.hbmUncorrectable : Nat := 0x400201
abbrev O.lpddrCorrected : Nat := 0x400301
abbrev O.lpddrUncorrectable : Nat := 0x400401
abbrev O.poisonReads : Nat := 0x400501
abbrev O.poisonWrites : Nat := 0x400601
abbrev O.sidebandCorrected : Nat := 0x400701
abbrev O.scrubPeriodHours : Nat := 0x400801
abbrev O.scrubEnable : Nat := 0x400802
abbrev O.sidebandThreshold : Nat := 0x400803
abbrev O.scrubPasses : Nat := 0x400901
abbrev O.repairThreshold : Nat := 0x400A01
abbrev O.hbmRepairsLeft : Nat := 0x400B01
abbrev O.lpddrRepairsLeft : Nat := 0x400B0D
abbrev O.repairCandidates : Nat := 0x400C01
abbrev O.repairListFull : Nat := 0x400C05
abbrev O.rowsRepaired : Nat := 0x400D01
abbrev O.rowsRetired : Nat := 0x400D02
abbrev O.lastUncorrectableAddr : Nat := 0x400E01
abbrev O.lastUncorrectableSyndrome : Nat := 0x400E03
abbrev O.memTestOwner : Nat := 0x400F01
abbrev O.decodeQuery : Nat := 0x401001
abbrev O.decodeResult : Nat := 0x401003
abbrev O.dirEntries : Nat := 0x420001
abbrev O.dirSpareWay : Nat := 0x420101
abbrev O.homeTimeoutUs : Nat := 0x420201
abbrev O.dirRecalls : Nat := 0x420301
abbrev O.homeTimeouts : Nat := 0x420401
abbrev O.dirCorrected : Nat := 0x420501
abbrev O.dirUncorrectable : Nat := 0x420601
abbrev O.linesReclaimedPoisoned : Nat := 0x420701
abbrev O.reclaimOwner : Nat := 0x420801
abbrev O.reclaimMask : Nat := 0x420901
abbrev O.reclaimStart : Nat := 0x420A01
abbrev O.reclaimState : Nat := 0x420A02
abbrev O.arbiterSameCycleConflicts : Nat := 0x420B01
abbrev O.arbiterPointer : Nat := 0x420C01
abbrev O.spareCore : Nat := 0x430001
abbrev O.coreState : Nat := 0x430101
abbrev O.coreHart : Nat := 0x430201
abbrev O.l2Corrected : Nat := 0x430301
abbrev O.l2Uncorrectable : Nat := 0x430345
abbrev O.portState : Nat := 0x440001
abbrev O.spareInUse : Nat := 0x440101
abbrev O.laneEyeMargin : Nat := 0x440201
abbrev O.spareThresholdMv : Nat := 0x440301
abbrev O.linkRetrainLimitUs : Nat := 0x440302
abbrev O.fecCorrectedSymbols : Nat := 0x440401
abbrev O.fecUncorrectable : Nat := 0x440501
abbrev O.retries : Nat := 0x440601
abbrev O.class0Late : Nat := 0x440701
abbrev O.linkNeighbour : Nat := 0x440801
abbrev O.creditStallBeats : Nat := 0x440901
abbrev O.partnersActive : Nat := 0x440A01
abbrev O.e2eSeqErrors : Nat := 0x440A02
abbrev O.routeRows : Nat := 0x440B01
abbrev O.linkTestOwner : Nat := 0x440C01
abbrev O.linkTestRequest : Nat := 0x440C03
abbrev O.silzinReplays : Nat := 0x440D01
abbrev O.pcieLinkState : Nat := 0x460001
abbrev O.pcieLinkRate : Nat := 0x460101
abbrev O.pcieLinkWidth : Nat := 0x460103
abbrev O.pcieLinkDowns : Nat := 0x460201
abbrev O.cmdWindowBase : Nat := 0x460301
abbrev O.ingestWindowBase : Nat := 0x460303
abbrev O.ingestEnable : Nat := 0x460305
abbrev O.ingestBytes : Nat := 0x460401
abbrev O.ingestRejectedReads : Nat := 0x460403
abbrev O.ingestWritesDropped : Nat := 0x460404
abbrev O.notifications : Nat := 0x460405
abbrev O.sessionState : Nat := 0x461001
abbrev O.sessionId : Nat := 0x461002
abbrev O.sessionToken : Nat := 0x461003
abbrev O.sessionIssuedToken : Nat := 0x461005
abbrev O.sessionAttach : Nat := 0x461007
abbrev O.sessionHoldS : Nat := 0x461008
abbrev O.hostoutBytes : Nat := 0x461101
abbrev O.hostoutDroppedWrites : Nat := 0x461102
abbrev O.hostoutDroppedBytes : Nat := 0x461103
abbrev O.hostoutOverflowed : Nat := 0x461105
abbrev O.descNotVisible : Nat := 0x461201
abbrev O.queueOwner : Nat := 0x464001
abbrev O.queueConsumer : Nat := 0x464002
abbrev O.queueEnable : Nat := 0x464003
abbrev O.sqOffset : Nat := 0x464004
abbrev O.sqEntries : Nat := 0x464005
abbrev O.cqAddr : Nat := 0x464006
abbrev O.cqEntries : Nat := 0x464008
abbrev O.cqHead : Nat := 0x464009
abbrev O.sqHead : Nat := 0x46400A
abbrev O.sqChecked : Nat := 0x46400B
abbrev O.expectedSeq : Nat := 0x46400C
abbrev O.msixVector : Nat := 0x46400D
abbrev O.cqTail : Nat := 0x46400E
abbrev O.queueStatus : Nat := 0x46400F
abbrev O.securingState : Nat := 0x480001
abbrev O.lossBoundSteps : Nat := 0x480101
abbrev O.failureWindowH : Nat := 0x480102
abbrev O.gatherMs : Nat := 0x480103
abbrev O.deadDetectUs : Nat := 0x480104
abbrev O.saveStallS : Nat := 0x480105
abbrev O.securingIntervalSteps : Nat := 0x480201
abbrev O.lastSaveStep : Nat := 0x480202
abbrev O.saveSeq : Nat := 0x480204
abbrev O.confirmedSeq : Nat := 0x480205
abbrev O.lastHoldBeats : Nat := 0x480206
abbrev O.failuresInWindow : Nat := 0x480207
abbrev O.saveRequest : Nat := 0x480301
abbrev O.rollbackRequest : Nat := 0x480302
abbrev O.saveOutOffset : Nat := 0x480401
abbrev O.saveOutBytes : Nat := 0x480403
abbrev O.ellipsisRemaps : Nat := 0x480501
abbrev O.rollbacks : Nat := 0x480502
abbrev O.lastStepsLost : Nat := 0x480503
abbrev O.digestMismatches : Nat := 0x480504
abbrev O.rebuildPoisonedWords : Nat := 0x480505
abbrev O.regionQuery : Nat := 0x480601
abbrev O.regionMethod : Nat := 0x480602
abbrev O.psCurrent : Nat := 0x220001
abbrev O.psTarget : Nat := 0x220002
abbrev O.psPhase : Nat := 0x220003
abbrev O.psOwner : Nat := 0x220101
abbrev O.psRequest : Nat := 0x220102
abbrev O.psRefused : Nat := 0x220201
abbrev O.psAborted : Nat := 0x220206
abbrev O.lastRefuser : Nat := 0x220301
abbrev O.lastRefuserName : Nat := 0x220302
abbrev O.lastAborter : Nat := 0x220303
abbrev O.lastAborterName : Nat := 0x220304
abbrev O.padHeld : Nat := 0x220401
abbrev O.padRelease : Nat := 0x220402
abbrev O.aclkDivisor : Nat := 0x220501
abbrev O.aclkDivisorActive : Nat := 0x220502
abbrev O.opHoldBeats : Nat := 0x220503
abbrev O.vddOpMv : Nat := 0x220601
abbrev O.interlockHolds : Nat := 0x220701
abbrev O.wakeSlewAPerUs : Nat := 0x220801
abbrev O.wakeStepMaxA : Nat := 0x220901
abbrev O.aonRestoreStatus : Nat := 0x220A01
abbrev O.powerAvg10msW : Nat := 0x220B01
abbrev O.powerAvg100msW : Nat := 0x220B02
abbrev O.powerExcessCount : Nat := 0x220B03
abbrev O.wakeSourceEnable : Nat := 0x220C01
abbrev O.errorRegister : Nat := 0x100100
abbrev O.producerHeartbeatMs : Nat := 0x101700
abbrev O.canNodeId : Nat := 0x1E0001
abbrev O.canBitrate : Nat := 0x1E0002
abbrev O.gliwaebVersion : Nat := 0x1E0003
abbrev O.canBusOffs : Nat := 0x1E0101
abbrev O.cfgActiveGen : Nat := 0x264001
abbrev O.cfgArmGen : Nat := 0x264002
abbrev O.cfgArmState : Nat := 0x264003
abbrev O.cfgSwapGen : Nat := 0x264004
abbrev O.cfgSwapLocal : Nat := 0x264005
abbrev O.cfgLastRefusal : Nat := 0x264006
abbrev O.cfgSwaps : Nat := 0x264007
abbrev O.cfgSwapsCancelled : Nat := 0x264008
abbrev O.dictView : Nat := 0x264101
abbrev O.dictLastError : Nat := 0x264201
abbrev O.dictLastAbort : Nat := 0x264202
abbrev O.periodSeq : Nat := 0x268001
abbrev O.periodBeat : Nat := 0x268003
abbrev O.periodSchedBeat : Nat := 0x268005
abbrev O.periodKind : Nat := 0x268007
abbrev O.periodRequest : Nat := 0x268008
abbrev O.periodTimerOwner : Nat := 0x268101
abbrev O.periodIntervalMs : Nat := 0x268102
abbrev O.prdOutOwner : Nat := 0x268201
abbrev O.prdOutSelect : Nat := 0x268202
abbrev O.wearEnable : Nat := 0x260001
abbrev O.wearStepDays : Nat := 0x260002
abbrev O.spareLeadDays : Nat := 0x260003
abbrev O.wearAuto : Nat := 0x260004
abbrev O.packageEolDays : Nat := 0x260101
abbrev O.packageEolSource : Nat := 0x260102
abbrev O.kindEolDays : Nat := 0x260201
abbrev O.wearQuery : Nat := 0x260301
abbrev O.wearValue : Nat := 0x260302
abbrev O.wearLimit : Nat := 0x260303
abbrev O.wearSlope : Nat := 0x260304
abbrev O.wearEolDays : Nat := 0x260305
abbrev O.wearCheckpoints : Nat := 0x260306
abbrev O.substitutionsStarted : Nat := 0x260401
abbrev O.substitutionsNoSpare : Nat := 0x260402
abbrev O.rootPllSelect : Nat := 0x260501
abbrev O.rootPllInUse : Nat := 0x260502
abbrev O.bootState : Nat := 0x240001
abbrev O.bootSource : Nat := 0x240002
abbrev O.bootFailStep : Nat := 0x240003
abbrev O.bootCount : Nat := 0x240004
abbrev O.bootWatchdogS : Nat := 0x240005
abbrev O.recoveryRequest : Nat := 0x240006
abbrev O.ownerSeq : Nat := 0x240101
abbrev O.ownerKeys : Nat := 0x240103
abbrev O.identityState : Nat := 0x240104
abbrev O.rngState : Nat := 0x240105
abbrev O.floors : Nat := 0x240201
abbrev O.floorRecSeq : Nat := 0x240204
abbrev O.floorRaise : Nat := 0x240206
abbrev O.fwSecurityVersion : Nat := 0x240301
abbrev O.fwImageId : Nat := 0x240302
abbrev O.osPayloadAddr : Nat := 0x240401
abbrev O.osPayloadLen : Nat := 0x240403
abbrev O.osVerify : Nat := 0x240404
abbrev O.osBoot : Nat := 0x240405
abbrev O.measureCount : Nat := 0x240501
abbrev O.measureLogDropped : Nat := 0x240502
abbrev O.measureData : Nat := 0x240601
abbrev O.measureExtend : Nat := 0x240609
abbrev O.quoteState : Nat := 0x241001
abbrev O.quoteRequest : Nat := 0x241004
abbrev O.quoteNonce : Nat := 0x241101
abbrev O.attestSelect : Nat := 0x241401
abbrev O.attestChunk : Nat := 0x241501
abbrev O.recoveryState : Nat := 0x242001
abbrev O.recoveryReason : Nat := 0x242002
abbrev O.recoveryKind : Nat := 0x242101
abbrev O.recoveryMode : Nat := 0x242102
abbrev O.recoveryLength : Nat := 0x242103
abbrev O.recoveryOffset : Nat := 0x242104
abbrev O.recoveryOp : Nat := 0x242105
abbrev O.recoveryData : Nat := 0x242106
abbrev O.recoveryLastRefusal : Nat := 0x242107
abbrev O.supplyState : Nat := 0x210001
abbrev O.supplyMv : Nat := 0x210101
abbrev O.supplyMa : Nat := 0x210201
abbrev O.resetCause : Nat := 0x210301
abbrev O.packageReset : Nat := 0x210302
abbrev O.coldResets : Nat := 0x210303
abbrev O.dieTempDc : Nat := 0x210401
abbrev O.stackTempDc : Nat := 0x21040B
abbrev O.thermalWarnC : Nat := 0x210501
abbrev O.thermalTripC : Nat := 0x210502
abbrev O.stackWarnC : Nat := 0x210503
abbrev O.stackTripC : Nat := 0x210504
abbrev O.refclkState : Nat := 0x210601
abbrev O.refclkLosses : Nat := 0x210602
abbrev O.pllUnlocks : Nat := 0x210603
abbrev O.pmbusRetries : Nat := 0x210701
abbrev O.telemetryStale : Nat := 0x210702
abbrev O.flashWpMode : Nat := 0x210801
abbrev O.eventLogNewest : Nat := 0x500001
abbrev O.eventLogCapacity : Nat := 0x500002
abbrev O.eventLogSuppressed : Nat := 0x500003
abbrev O.emcyDropped : Nat := 0x500004
abbrev O.eventLogSelect : Nat := 0x500101
abbrev O.eventLogRecord : Nat := 0x500201
abbrev O.escMask : Nat := 0x501001
abbrev O.eventMsixVector : Nat := 0x501101
abbrev O.eventIrqHarts : Nat := 0x501102

/-- The objects of R3. -/
def objsR3 : List Obj := [
  ⟨O.deviceType, 1, 1, 1, 4, .ro, 0, 0xFFFFFFFF, false⟩,
  ⟨O.deviceName, 1, 1, 1, 16, .ro, 0, 0, false⟩,
  ⟨O.identityCount, 1, 1, 1, 1, .ro, 0, 0xFF, false⟩,
  ⟨O.vendorId, 1, 1, 1, 4, .ro, 0, 0xFFFFFFFF, false⟩,
  ⟨O.productCode, 1, 1, 1, 4, .ro, 0, 0xFFFFFFFF, false⟩,
  ⟨O.revisionNumber, 1, 1, 1, 4, .ro, 0, 0xFFFFFFFF, false⟩,
  ⟨O.serialNumber, 1, 1, 1, 4, .ro, 0, 0xFFFFFFFF, false⟩]

/-- The objects of R58. -/
def objsR58 : List Obj := [
  ⟨O.spareMapCount, 1, 1, 1, 1, .ro, 0, 0xFF, false⟩,
  ⟨O.spareCol, 16, 1, 1, 1, .rws, 0, 12, false⟩,
  ⟨O.tileStateCount, 1, 1, 1, 1, .ro, 0, 0xFF, false⟩,
  ⟨O.tileState, 208, 1, 1, 1, .ro, 0, 0xFF, false⟩,
  ⟨O.tileLogical, 208, 1, 1, 1, .ro, 0, 0xFF, false⟩,
  ⟨O.bistOwner, 4, 1, 1, 1, .rw, 0, 3, false⟩,
  ⟨O.bistRequest, 4, 1, 1, 1, .wo, 0, 51, false⟩,
  ⟨O.dummyFloor, 1, 1, 1, 1, .rws, 0, 64, false⟩,
  ⟨O.rampStep, 1, 1, 1, 1, .rws, 1, 64, false⟩,
  ⟨O.rampInterval, 1, 1, 1, 2, .rws, 1, 0xFFFE, false⟩,
  ⟨O.gapThreshold, 1, 1, 1, 4, .rws, 1, 0xFFFE, false⟩,
  ⟨O.zeroGateEnable, 1, 1, 1, 1, .rws, 0, 1, false⟩,
  ⟨O.scrubCorrections, 208, 1, 1, 4, .ro, 0, 0xFFFFFFFF, true⟩,
  ⟨O.tileCounters, 52, 2, 16, 8, .ro, 0, 0xFFFFFFFFFFFFFFFF, true⟩]

/-- The objects of R82. -/
def objsR82 : List Obj := [
  ⟨O.scaleTableBase, 1, 1, 1, 8, .ro, 0, 0xFFFFFFFFFFFFFFFF, false⟩,
  ⟨O.scaleTableEntries, 1, 1, 1, 4, .ro, 0, 0xFFFFFFFF, false⟩,
  ⟨O.ledgerSlots, 1, 1, 1, 2, .ro, 0, 0xFFFF, false⟩,
  ⟨O.ledgerRingBase, 1, 1, 1, 8, .rws, 0, 0xFFFFFFFFFFFFFFFF, false⟩,
  ⟨O.ledgerRingRecords, 1, 1, 1, 4, .rws, 0, 0xFFFFFFFF, false⟩,
  ⟨O.ledgerWriteIndex, 1, 1, 1, 4, .ro, 0, 0xFFFFFFFF, false⟩,
  ⟨O.ledgerReadIndex, 1, 1, 1, 4, .rw, 0, 0xFFFFFFFF, false⟩,
  ⟨O.ledgerRecordsDropped, 1, 1, 1, 4, .ro, 0, 0xFFFFFFFF, false⟩,
  ⟨O.ledgerTotals, 7, 2, 1, 8, .ro, 0, 0xFFFFFFFFFFFFFFFF, true⟩,
  ⟨O.scaleQueryId, 1, 1, 1, 4, .rw, 0, 0xFFFFFFFF, false⟩,
  ⟨O.scaleQueryWord0, 1, 1, 1, 4, .ro, 0, 0xFFFFFFFF, false⟩,
  ⟨O.scaleQueryAmax, 1, 1, 1, 4, .ro, 0, 0xFFFFFFFF, false⟩]

/-- The objects of R103. -/
def objsR103 : List Obj := [
  ⟨O.domainSeed, 1, 1, 1, 8, .ro, 0, 0xFFFFFFFFFFFFFFFF, false⟩,
  ⟨O.generatorStep, 1, 1, 1, 8, .ro, 0, 0xFFFFFFFFFFFFFFFF, false⟩,
  ⟨O.probeStep, 1, 1, 1, 8, .rw, 0, 0xFFFFFFFFFF, false⟩,
  ⟨O.probeTensor, 1, 1, 1, 4, .rw, 0, 0xFFFFFF, false⟩,
  ⟨O.probeElem, 1, 1, 1, 8, .rw, 0, 0x3FFFFFFFFFFF, false⟩,
  ⟨O.probeDraw, 1, 1, 1, 2, .rw, 0, 0xFFFF, false⟩,
  ⟨O.probeSite, 1, 1, 1, 1, .rw, 0, 1, false⟩,
  ⟨O.probeResult, 1, 1, 1, 8, .ro, 0, 0xFFFFFFFFFFFFFFFF, false⟩,
  ⟨O.panelFlagSets, 192, 1, 1, 4, .ro, 0, 0xFFFFFFFF, true⟩,
  ⟨O.int32Saturations, 192, 1, 1, 4, .ro, 0, 0xFFFFFFFF, true⟩]

/-- The objects of R129. -/
def objsR129 : List Obj := [
  ⟨O.vectorFlagCount, 1, 1, 1, 1, .ro, 0, 0xFF, false⟩,
  ⟨O.vectorFlagSets, 192, 1, 1, 4, .ro, 0, 0xFFFFFFFF, true⟩,
  ⟨O.vdescEntries, 1, 1, 1, 1, .ro, 0, 0xFF, false⟩,
  ⟨O.phraseEntries, 1, 1, 1, 1, .ro, 0, 0xFF, false⟩,
  ⟨O.drainQueueRows, 1, 1, 1, 1, .ro, 0, 0xFF, false⟩,
  ⟨O.vectorCounters, 52, 2, 16, 8, .ro, 0, 0xFFFFFFFFFFFFFFFF, true⟩]

/-- The objects of R161. -/
def objsR161 : List Obj := [
  ⟨O.imageState, 1, 1, 1, 1, .ro, 0, 0xFF, false⟩,
  ⟨O.imageId, 1, 1, 1, 8, .ro, 0, 0xFFFFFFFFFFFFFFFF, false⟩,
  ⟨O.imageVariant, 1, 1, 1, 1, .ro, 0, 0xFF, false⟩,
  ⟨O.logicalPosition, 1, 1, 1, 2, .ro, 0, 0xFFFF, false⟩,
  ⟨O.domainPhysId, 1, 1, 1, 2, .rws, 0, 0xFFFF, false⟩,
  ⟨O.loaderOwner, 1, 1, 1, 1, .rw, 0, 0xFF, false⟩,
  ⟨O.domainBeat, 1, 1, 1, 8, .ro, 0, 0xFFFFFFFFFFFFFFFF, true⟩,
  ⟨O.slipTotal, 1, 1, 1, 8, .ro, 0, 0xFFFFFFFFFFFFFFFF, true⟩,
  ⟨O.timeOffset, 1, 1, 1, 4, .ro, 0, 0xFFFFFFFF, false⟩,
  ⟨O.timeParentPort, 1, 1, 1, 1, .ro, 0, 0xFF, false⟩,
  ⟨O.slipRequestsIssued, 1, 1, 1, 4, .ro, 0, 0xFFFFFFFF, true⟩,
  ⟨O.slipsApplied, 1, 1, 1, 4, .ro, 0, 0xFFFFFFFF, true⟩,
  ⟨O.lateEvents, 1, 1, 1, 4, .ro, 0, 0xFFFFFFFF, true⟩,
  ⟨O.maxLateness, 1, 1, 1, 4, .ro, 0, 0xFFFFFFFF, false⟩,
  ⟨O.loadRejects, 1, 1, 1, 4, .ro, 0, 0xFFFFFFFF, true⟩,
  ⟨O.lastRejectReason, 1, 1, 1, 1, .ro, 0, 0xFF, false⟩]

/-- The objects of R180. -/
def objsR180 : List Obj := [
  ⟨O.updateCount, 1, 1, 1, 8, .ro, 0, 0xFFFFFFFFFFFFFFFF, true⟩,
  ⟨O.accCount, 1, 1, 1, 2, .ro, 0, 0xFFFF, true⟩,
  ⟨O.voidCount, 1, 1, 1, 4, .ro, 0, 0xFFFFFFFF, true⟩,
  ⟨O.voidStreak, 1, 1, 1, 2, .ro, 0, 0xFFFF, true⟩,
  ⟨O.lastCommitKind, 1, 1, 1, 1, .ro, 0, 0xFF, false⟩,
  ⟨O.voidLimit, 1, 1, 1, 2, .rws, 0, 0xFFFE, false⟩,
  ⟨O.lastVoidRecord, 8, 1, 1, 4, .ro, 0, 0xFFFFFFFF, false⟩,
  ⟨O.stepBlockBase, 1, 1, 1, 8, .ro, 0, 0xFFFFFFFFFFFFFFFF, false⟩,
  ⟨O.lrRaised, 1, 1, 1, 4, .ro, 0, 0xFFFFFFFF, true⟩,
  ⟨O.lrLowered, 1, 1, 1, 4, .ro, 0, 0xFFFFFFFF, true⟩,
  ⟨O.lrClamped, 1, 1, 1, 4, .ro, 0, 0xFFFFFFFF, true⟩,
  ⟨O.savePointsConfirmed, 1, 1, 1, 4, .ro, 0, 0xFFFFFFFF, true⟩,
  ⟨O.lastConfirmedStep, 1, 1, 1, 8, .ro, 0, 0xFFFFFFFFFFFFFFFF, false⟩]

/-- The objects of R209. -/
def objsR209 : List Obj := [
  ⟨O.agreementScaleBase, 1, 1, 1, 8, .ro, 0, 0xFFFFFFFFFFFFFFFF, false⟩,
  ⟨O.agreementScaleEntries, 1, 1, 1, 4, .ro, 0, 0xFFFFFFFF, false⟩,
  ⟨O.stepOutcome, 1, 1, 1, 8, .ro, 0, 0xFFFFFFFFFFFFFFFF, false⟩,
  ⟨O.stepOutcomeHigh, 1, 1, 1, 8, .ro, 0, 0xFFFFFFFFFFFFFFFF, false⟩,
  ⟨O.scaleSteps, 2, 1, 1, 4, .ro, 0, 0xFFFFFFFF, true⟩,
  ⟨O.nfChunks, 2, 1, 1, 4, .ro, 0, 0xFFFFFFFF, true⟩,
  ⟨O.residueMismatches, 2, 1, 1, 4, .ro, 0, 0xFFFFFFFF, true⟩,
  ⟨O.poisonedChunks, 2, 1, 1, 4, .ro, 0, 0xFFFFFFFF, true⟩,
  ⟨O.holdStallBeats, 2, 1, 1, 4, .ro, 0, 0xFFFFFFFF, true⟩,
  ⟨O.recomputes, 2, 1, 1, 4, .ro, 0, 0xFFFFFFFF, true⟩,
  ⟨O.holdPeakBytes, 2, 1, 1, 4, .ro, 0, 0xFFFFFFFF, false⟩,
  ⟨O.holdCapacity, 2, 1, 1, 4, .ro, 0, 0xFFFFFFFF, false⟩,
  ⟨O.lastStepBucket, 2, 1, 1, 4, .ro, 0, 0xFFFFFFFF, false⟩,
  ⟨O.lastStepK, 2, 1, 1, 2, .ro, 0, 0xFFFF, false⟩]

/-- The objects of R232. -/
def objsR232 : List Obj := [
  ⟨O.dispatchTables, 4, 1, 1, 2, .ro, 0, 0xFFFF, false⟩,
  ⟨O.fillsCompleted, 4, 1, 1, 4, .ro, 0, 0xFFFFFFFF, true⟩,
  ⟨O.tokensDropped, 4, 1, 1, 4, .ro, 0, 0xFFFFFFFF, true⟩,
  ⟨O.candidatesOverflowed, 4, 1, 1, 4, .ro, 0, 0xFFFFFFFF, true⟩,
  ⟨O.recordErrors, 4, 1, 1, 4, .ro, 0, 0xFFFFFFFF, true⟩,
  ⟨O.dispatchHoldBeats, 4, 1, 1, 4, .ro, 0, 0xFFFFFFFF, true⟩,
  ⟨O.dispatchRingBase, 1, 1, 1, 8, .rws, 0, 0xFFFFFFFFFFFFFFFF, false⟩,
  ⟨O.dispatchRingRecords, 1, 1, 1, 4, .rws, 0, 0xFFFFFFFF, false⟩,
  ⟨O.dispatchWriteIndex, 1, 1, 1, 4, .ro, 0, 0xFFFFFFFF, false⟩,
  ⟨O.dispatchReadIndex, 1, 1, 1, 4, .rw, 0, 0xFFFFFFFF, false⟩,
  ⟨O.dispatchRecordsDropped, 1, 1, 1, 4, .ro, 0, 0xFFFFFFFF, true⟩,
  ⟨O.placementGroups, 1, 1, 1, 2, .ro, 0, 0xFFFF, false⟩,
  ⟨O.placementBudgetBytes, 1, 1, 1, 8, .ro, 0, 0xFFFFFFFFFFFFFFFF, false⟩,
  ⟨O.placementSwapCount, 1, 1, 1, 1, .rw, 0, 64, false⟩,
  ⟨O.placementSwaps, 64, 1, 1, 4, .rw, 0, 0xFFFFFFFF, false⟩,
  ⟨O.placementQuery, 1, 1, 1, 4, .rw, 0, 0xFFFFFFFF, false⟩,
  ⟨O.placementPosition, 1, 1, 1, 2, .ro, 0, 0xFFFF, false⟩,
  ⟨O.stageLateEntries, 4, 1, 1, 4, .ro, 0, 0xFFFFFFFF, true⟩,
  ⟨O.placementSwapsApplied, 1, 1, 1, 4, .ro, 0, 0xFFFFFFFF, true⟩,
  ⟨O.placementLastRefusal, 1, 1, 1, 1, .ro, 0, 0xFF, false⟩]

/-- The objects of R257. -/
def objsR257 : List Obj := [
  ⟨O.hbmStacks, 1, 1, 1, 1, .ro, 0, 0xFF, false⟩,
  ⟨O.lpddrDevices, 1, 1, 1, 1, .ro, 0, 0xFF, false⟩,
  ⟨O.hbmCorrected, 12, 1, 1, 4, .ro, 0, 0xFFFFFFFF, true⟩,
  ⟨O.hbmUncorrectable, 12, 1, 1, 4, .ro, 0, 0xFFFFFFFF, true⟩,
  ⟨O.lpddrCorrected, 24, 1, 1, 4, .ro, 0, 0xFFFFFFFF, true⟩,
  ⟨O.lpddrUncorrectable, 24, 1, 1, 4, .ro, 0, 0xFFFFFFFF, true⟩,
  ⟨O.poisonReads, 4, 1, 1, 4, .ro, 0, 0xFFFFFFFF, true⟩,
  ⟨O.poisonWrites, 4, 1, 1, 4, .ro, 0, 0xFFFFFFFF, true⟩,
  ⟨O.sidebandCorrected, 12, 1, 1, 4, .ro, 0, 0xFFFFFFFF, true⟩,
  ⟨O.scrubPeriodHours, 1, 1, 1, 1, .rws, 1, 0xA8, false⟩,
  ⟨O.scrubEnable, 1, 1, 1, 1, .rws, 0, 1, false⟩,
  ⟨O.sidebandThreshold, 1, 1, 1, 4, .rws, 1, 0xFFFFFFFE, false⟩,
  ⟨O.scrubPasses, 4, 1, 1, 4, .ro, 0, 0xFFFFFFFF, true⟩,
  ⟨O.repairThreshold, 1, 1, 1, 2, .rws, 1, 0xFFFE, false⟩,
  ⟨O.hbmRepairsLeft, 12, 1, 1, 2, .ro, 0, 0xFFFF, false⟩,
  ⟨O.lpddrRepairsLeft, 24, 1, 1, 2, .ro, 0, 0xFFFF, false⟩,
  ⟨O.repairCandidates, 4, 1, 1, 2, .ro, 0, 0xFFFF, false⟩,
  ⟨O.repairListFull, 4, 1, 1, 4, .ro, 0, 0xFFFFFFFF, true⟩,
  ⟨O.rowsRepaired, 1, 1, 1, 4, .ro, 0, 0xFFFFFFFF, true⟩,
  ⟨O.rowsRetired, 1, 1, 1, 2, .ro, 0, 0xFFFF, true⟩,
  ⟨O.lastUncorrectableAddr, 1, 1, 1, 8, .ro, 0, 0xFFFFFFFFFFFFFFFF, false⟩,
  ⟨O.lastUncorrectableSyndrome, 1, 1, 1, 2, .ro, 0, 0xFFFF, false⟩,
  ⟨O.memTestOwner, 4, 1, 1, 1, .rw, 0, 3, false⟩,
  ⟨O.decodeQuery, 1, 1, 1, 8, .rw, 0, 0xFFFFFFFFFFFFFFFF, false⟩,
  ⟨O.decodeResult, 1, 1, 1, 8, .ro, 0, 0xFFFFFFFFFFFFFFFF, false⟩]

/-- The objects of R282. -/
def objsR282 : List Obj := [
  ⟨O.dirEntries, 1, 1, 1, 4, .ro, 0, 0xFFFFFFFF, false⟩,
  ⟨O.dirSpareWay, 4, 1, 1, 1, .rws, 0, 16, false⟩,
  ⟨O.homeTimeoutUs, 1, 1, 1, 2, .rws, 1, 0x3E8, false⟩,
  ⟨O.dirRecalls, 4, 1, 1, 4, .ro, 0, 0xFFFFFFFF, true⟩,
  ⟨O.homeTimeouts, 68, 1, 1, 4, .ro, 0, 0xFFFFFFFF, true⟩,
  ⟨O.dirCorrected, 4, 1, 1, 4, .ro, 0, 0xFFFFFFFF, true⟩,
  ⟨O.dirUncorrectable, 4, 1, 1, 4, .ro, 0, 0xFFFFFFFF, true⟩,
  ⟨O.linesReclaimedPoisoned, 4, 1, 1, 4, .ro, 0, 0xFFFFFFFF, true⟩,
  ⟨O.reclaimOwner, 1, 1, 1, 1, .rw, 0, 0xFF, false⟩,
  ⟨O.reclaimMask, 2, 1, 1, 4, .rw, 0, 0xFFFFFFFF, false⟩,
  ⟨O.reclaimMask + 2, 1, 1, 1, 4, .rw, 0, 0xF, false⟩,
  ⟨O.reclaimStart, 1, 1, 1, 1, .wo, 1, 1, false⟩,
  ⟨O.reclaimState, 1, 1, 1, 1, .ro, 0, 0xFF, false⟩,
  ⟨O.arbiterSameCycleConflicts, 4, 1, 1, 4, .ro, 0, 0xFFFFFFFF, true⟩,
  ⟨O.arbiterPointer, 4, 1, 1, 1, .ro, 0, 0xFF, false⟩]

/-- The objects of R283. -/
def objsR283 : List Obj := [
  ⟨O.spareCore, 4, 1, 1, 1, .rws, 0, 16, false⟩,
  ⟨O.coreState, 68, 1, 1, 1, .ro, 0, 0xFF, false⟩,
  ⟨O.coreHart, 68, 1, 1, 1, .ro, 0, 0xFF, false⟩,
  ⟨O.l2Corrected, 68, 1, 1, 4, .ro, 0, 0xFFFFFFFF, true⟩,
  ⟨O.l2Uncorrectable, 68, 1, 1, 4, .ro, 0, 0xFFFFFFFF, false⟩]

/-- The objects of R307. -/
def objsR307 : List Obj := [
  ⟨O.portState, 12, 1, 1, 1, .ro, 0, 0xFF, false⟩,
  ⟨O.spareInUse, 12, 1, 1, 1, .ro, 0, 0xFF, false⟩,
  ⟨O.laneEyeMargin, 108, 1, 1, 2, .ro, 0, 0xFFFF, false⟩,
  ⟨O.spareThresholdMv, 1, 1, 1, 2, .rws, 1, 0xC8, false⟩,
  ⟨O.linkRetrainLimitUs, 1, 1, 1, 4, .rws, 0x64, 0xF4240, false⟩,
  ⟨O.fecCorrectedSymbols, 12, 2, 1, 8, .ro, 0, 0xFFFFFFFFFFFFFFFF, true⟩,
  ⟨O.fecUncorrectable, 12, 1, 1, 4, .ro, 0, 0xFFFFFFFF, true⟩,
  ⟨O.retries, 12, 1, 1, 4, .ro, 0, 0xFFFFFFFF, true⟩,
  ⟨O.class0Late, 12, 1, 1, 4, .ro, 0, 0xFFFFFFFF, true⟩,
  ⟨O.linkNeighbour, 12, 1, 1, 4, .ro, 0, 0xFFFFFFFF, false⟩,
  ⟨O.creditStallBeats, 12, 1, 1, 4, .ro, 0, 0xFFFFFFFF, true⟩,
  ⟨O.partnersActive, 1, 1, 1, 2, .ro, 0, 0xFFFF, false⟩,
  ⟨O.e2eSeqErrors, 1, 1, 1, 4, .ro, 0, 0xFFFFFFFF, true⟩,
  ⟨O.routeRows, 1, 1, 1, 2, .ro, 0, 0xFFFF, false⟩,
  ⟨O.linkTestOwner, 2, 1, 1, 1, .rw, 0, 0xFF, false⟩,
  ⟨O.linkTestRequest, 2, 1, 1, 1, .wo, 0, 11, false⟩,
  ⟨O.silzinReplays, 13, 1, 1, 4, .ro, 0, 0xFFFFFFFF, true⟩]

/-- The objects of R332. -/
def objsR332 : List Obj := [
  ⟨O.pcieLinkState, 2, 1, 1, 1, .ro, 0, 0xFF, false⟩,
  ⟨O.pcieLinkRate, 2, 1, 1, 1, .ro, 0, 0xFF, false⟩,
  ⟨O.pcieLinkWidth, 2, 1, 1, 1, .ro, 0, 0xFF, false⟩,
  ⟨O.pcieLinkDowns, 2, 1, 1, 4, .ro, 0, 0xFFFFFFFF, true⟩,
  ⟨O.cmdWindowBase, 1, 1, 1, 8, .rws, 0, 0xFFFFFFFFFFFFFFFF, false⟩,
  ⟨O.ingestWindowBase, 1, 1, 1, 8, .rws, 0, 0xFFFFFFFFFFFFFFFF, false⟩,
  ⟨O.ingestEnable, 1, 1, 1, 1, .rws, 0, 1, false⟩,
  ⟨O.ingestBytes, 1, 1, 1, 8, .ro, 0, 0xFFFFFFFFFFFFFFFF, true⟩,
  ⟨O.ingestRejectedReads, 1, 1, 1, 4, .ro, 0, 0xFFFFFFFF, true⟩,
  ⟨O.ingestWritesDropped, 1, 1, 1, 4, .ro, 0, 0xFFFFFFFF, true⟩,
  ⟨O.notifications, 1, 1, 1, 4, .ro, 0, 0xFFFFFFFF, true⟩,
  ⟨O.sessionState, 1, 1, 1, 1, .ro, 0, 0xFF, false⟩,
  ⟨O.sessionId, 1, 1, 1, 4, .ro, 0, 0xFFFFFFFF, false⟩,
  ⟨O.sessionToken, 1, 1, 1, 8, .wo, 0, 0xFFFFFFFFFFFFFFFF, false⟩,
  ⟨O.sessionIssuedToken, 1, 1, 1, 8, .ro, 0, 0xFFFFFFFFFFFFFFFF, false⟩,
  ⟨O.sessionAttach, 1, 1, 1, 1, .wo, 1, 4, false⟩,
  ⟨O.sessionHoldS, 1, 1, 1, 4, .rws, 1, 0xFFFFFFFE, false⟩,
  ⟨O.hostoutBytes, 1, 1, 1, 4, .ro, 0, 0xFFFFFFFF, false⟩,
  ⟨O.hostoutDroppedWrites, 1, 1, 1, 4, .ro, 0, 0xFFFFFFFF, true⟩,
  ⟨O.hostoutDroppedBytes, 1, 1, 1, 8, .ro, 0, 0xFFFFFFFFFFFFFFFF, true⟩,
  ⟨O.hostoutOverflowed, 1, 1, 1, 1, .ro, 0, 1, false⟩,
  ⟨O.descNotVisible, 1, 1, 1, 4, .ro, 0, 0xFFFFFFFF, true⟩,
  ⟨O.queueOwner, 1, 1, 64, 1, .rw, 0, 2, false⟩,
  ⟨O.queueConsumer, 1, 1, 64, 1, .rw, 0, 2, false⟩,
  ⟨O.queueEnable, 1, 1, 64, 1, .rw, 0, 1, false⟩,
  ⟨O.sqOffset, 1, 1, 64, 4, .rw, 0, 0xFFFFFFFF, false⟩,
  ⟨O.sqEntries, 1, 1, 64, 2, .rw, 2, 0x1000, false⟩,
  ⟨O.cqAddr, 1, 1, 64, 8, .rw, 0, 0xFFFFFFFFFFFFFFFF, false⟩,
  ⟨O.cqEntries, 1, 1, 64, 2, .rw, 2, 0x1000, false⟩,
  ⟨O.cqHead, 1, 1, 64, 2, .rw, 0, 0xFFFF, false⟩,
  ⟨O.sqHead, 1, 1, 64, 2, .ro, 0, 0xFFFF, false⟩,
  ⟨O.sqChecked, 1, 1, 64, 2, .ro, 0, 0xFFFF, false⟩,
  ⟨O.expectedSeq, 1, 1, 64, 4, .rw, 0, 0xFFFFFFFF, false⟩,
  ⟨O.msixVector, 1, 1, 64, 1, .rw, 0, 0xFF, false⟩,
  ⟨O.cqTail, 1, 1, 64, 2, .ro, 0, 0xFFFF, false⟩,
  ⟨O.queueStatus, 1, 1, 64, 1, .ro, 0, 0xFF, false⟩]

/-- The objects of R360. -/
def objsR360 : List Obj := [
  ⟨O.securingState, 1, 1, 1, 1, .ro, 0, 0xFF, false⟩,
  ⟨O.lossBoundSteps, 1, 1, 1, 4, .rws, 1, 0xFFFFFFFE, false⟩,
  ⟨O.failureWindowH, 1, 1, 1, 2, .rws, 1, 0x2238, false⟩,
  ⟨O.gatherMs, 1, 1, 1, 2, .rws, 1, 0x3E8, false⟩,
  ⟨O.deadDetectUs, 1, 1, 1, 2, .rws, 10, 0x2710, false⟩,
  ⟨O.saveStallS, 1, 1, 1, 2, .rws, 1, 0xE10, false⟩,
  ⟨O.securingIntervalSteps, 1, 1, 1, 4, .ro, 0, 0xFFFFFFFF, false⟩,
  ⟨O.lastSaveStep, 1, 1, 1, 8, .ro, 0, 0xFFFFFFFFFFFFFFFF, false⟩,
  ⟨O.saveSeq, 1, 1, 1, 4, .ro, 0, 0xFFFFFFFF, false⟩,
  ⟨O.confirmedSeq, 1, 1, 1, 4, .ro, 0, 0xFFFFFFFF, false⟩,
  ⟨O.lastHoldBeats, 1, 1, 1, 4, .ro, 0, 0xFFFFFFFF, false⟩,
  ⟨O.failuresInWindow, 1, 1, 1, 4, .ro, 0, 0xFFFFFFFF, false⟩,
  ⟨O.saveRequest, 1, 1, 1, 1, .wo, 1, 1, false⟩,
  ⟨O.rollbackRequest, 1, 1, 1, 1, .wo, 1, 1, false⟩,
  ⟨O.saveOutOffset, 1, 1, 1, 8, .rws, 0, 0xFFFFFFFFFFFFFFFF, false⟩,
  ⟨O.saveOutBytes, 1, 1, 1, 8, .rws, 0, 0xFFFFFFFFFFFFFFFF, false⟩,
  ⟨O.ellipsisRemaps, 1, 1, 1, 4, .ro, 0, 0xFFFFFFFF, true⟩,
  ⟨O.rollbacks, 1, 1, 1, 4, .ro, 0, 0xFFFFFFFF, true⟩,
  ⟨O.lastStepsLost, 1, 1, 1, 4, .ro, 0, 0xFFFFFFFF, false⟩,
  ⟨O.digestMismatches, 1, 1, 1, 4, .ro, 0, 0xFFFFFFFF, true⟩,
  ⟨O.rebuildPoisonedWords, 1, 1, 1, 4, .ro, 0, 0xFFFFFFFF, true⟩,
  ⟨O.regionQuery, 1, 1, 1, 4, .rw, 0, 0xFFFFFFFF, false⟩,
  ⟨O.regionMethod, 1, 1, 1, 1, .ro, 0, 0xFF, false⟩]

/-- The objects of R380. -/
def objsR380 : List Obj := [
  ⟨O.psCurrent, 1, 1, 1, 1, .ro, 0, 0xFF, false⟩,
  ⟨O.psTarget, 1, 1, 1, 1, .ro, 0, 0xFF, false⟩,
  ⟨O.psPhase, 1, 1, 1, 1, .ro, 0, 0xFF, false⟩,
  ⟨O.psOwner, 1, 1, 1, 1, .rw, 0, 3, false⟩,
  ⟨O.psRequest, 1, 1, 1, 1, .wo, 0, 4, false⟩,
  ⟨O.psRefused, 5, 1, 1, 4, .ro, 0, 0xFFFFFFFF, true⟩,
  ⟨O.psAborted, 5, 1, 1, 4, .ro, 0, 0xFFFFFFFF, true⟩,
  ⟨O.lastRefuser, 1, 1, 1, 1, .ro, 0, 0xFF, false⟩,
  ⟨O.lastRefuserName, 1, 1, 1, 8, .ro, 0, 0xFFFFFFFFFFFFFFFF, false⟩,
  ⟨O.lastAborter, 1, 1, 1, 1, .ro, 0, 0xFF, false⟩,
  ⟨O.lastAborterName, 1, 1, 1, 8, .ro, 0, 0xFFFFFFFFFFFFFFFF, false⟩,
  ⟨O.padHeld, 1, 1, 1, 1, .ro, 0, 0xFF, false⟩,
  ⟨O.padRelease, 1, 1, 1, 1, .wo, 0, 31, false⟩,
  ⟨O.aclkDivisor, 1, 1, 1, 1, .rws, 4, 6, false⟩,
  ⟨O.aclkDivisorActive, 1, 1, 1, 1, .ro, 0, 0xFF, false⟩,
  ⟨O.opHoldBeats, 1, 1, 1, 4, .ro, 0, 0xFFFFFFFF, false⟩,
  ⟨O.vddOpMv, 12, 1, 1, 2, .ro, 0, 0xFFFF, false⟩,
  ⟨O.interlockHolds, 4, 1, 1, 4, .ro, 0, 0xFFFFFFFF, true⟩,
  ⟨O.wakeSlewAPerUs, 9, 1, 1, 2, .rws, 0, 0xFFFF, false⟩,
  ⟨O.wakeStepMaxA, 9, 1, 1, 2, .rws, 0, 0xFFFF, false⟩,
  ⟨O.aonRestoreStatus, 1, 1, 1, 2, .ro, 0, 0xFFFF, false⟩,
  ⟨O.powerAvg10msW, 1, 1, 1, 2, .ro, 0, 0xFFFF, false⟩,
  ⟨O.powerAvg100msW, 1, 1, 1, 2, .ro, 0, 0xFFFF, false⟩,
  ⟨O.powerExcessCount, 1, 1, 1, 4, .ro, 0, 0xFFFFFFFF, true⟩,
  ⟨O.wakeSourceEnable, 1, 1, 1, 1, .rws, 0, 3, false⟩]

/-- The objects of R407. -/
def objsR407 : List Obj := [
  ⟨O.errorRegister, 1, 1, 1, 1, .ro, 0, 0xFF, false⟩,
  ⟨O.producerHeartbeatMs, 1, 1, 1, 2, .rws, 0, 0xFFFF, false⟩,
  ⟨O.canNodeId, 1, 1, 1, 1, .rws, 1, 0x7F, false⟩,
  ⟨O.canBitrate, 1, 1, 1, 1, .rws, 0, 0xFF, false⟩,
  ⟨O.gliwaebVersion, 1, 1, 1, 2, .ro, 0, 0xFFFF, false⟩,
  ⟨O.canBusOffs, 1, 1, 1, 4, .ro, 0, 0xFFFFFFFF, false⟩]

/-- The objects of R408. -/
def objsR408 : List Obj := [
  ⟨O.cfgActiveGen, 1, 1, 1, 4, .ro, 0, 0xFFFFFFFF, false⟩,
  ⟨O.cfgArmGen, 1, 1, 1, 4, .rw, 0, 0xFFFFFFFE, false⟩,
  ⟨O.cfgArmState, 1, 1, 1, 1, .ro, 0, 0xFF, false⟩,
  ⟨O.cfgSwapGen, 1, 1, 1, 4, .wo, 0, 0xFFFFFFFF, false⟩,
  ⟨O.cfgSwapLocal, 1, 1, 1, 1, .wo, 1, 1, false⟩,
  ⟨O.cfgLastRefusal, 1, 1, 1, 2, .ro, 0, 0xFFFF, false⟩,
  ⟨O.cfgSwaps, 1, 1, 1, 4, .ro, 0, 0xFFFFFFFF, false⟩,
  ⟨O.cfgSwapsCancelled, 1, 1, 1, 4, .ro, 0, 0xFFFFFFFF, false⟩,
  ⟨O.dictView, 3, 1, 1, 1, .rw, 0, 3, false⟩,
  ⟨O.dictLastError, 1, 1, 1, 4, .ro, 0, 0xFFFFFFFF, false⟩,
  ⟨O.dictLastAbort, 1, 1, 1, 4, .ro, 0, 0xFFFFFFFF, false⟩,
  ⟨O.periodSeq, 1, 1, 1, 8, .ro, 0, 0xFFFFFFFFFFFFFFFF, true⟩,
  ⟨O.periodBeat, 1, 1, 1, 8, .ro, 0, 0xFFFFFFFFFFFFFFFF, true⟩,
  ⟨O.periodSchedBeat, 1, 1, 1, 8, .ro, 0, 0xFFFFFFFFFFFFFFFF, true⟩,
  ⟨O.periodKind, 1, 1, 1, 1, .ro, 0, 0xFF, true⟩,
  ⟨O.periodRequest, 1, 1, 1, 1, .wo, 1, 1, false⟩,
  ⟨O.periodTimerOwner, 1, 1, 1, 1, .rw, 0, 3, false⟩,
  ⟨O.periodIntervalMs, 1, 1, 1, 4, .rw, 1, 0xFFFFFFFE, false⟩,
  ⟨O.prdOutOwner, 1, 1, 1, 1, .rw, 0, 2, false⟩,
  ⟨O.prdOutSelect, 1, 1, 1, 2, .rw, 0, 0x113, false⟩]

/-- The objects of R409. -/
def objsR409 : List Obj := [
  ⟨O.wearEnable, 1, 1, 1, 1, .rws, 0, 1, false⟩,
  ⟨O.wearStepDays, 1, 1, 1, 1, .rws, 1, 16, false⟩,
  ⟨O.spareLeadDays, 1, 1, 1, 2, .rws, 1, 0xE42, false⟩,
  ⟨O.wearAuto, 1, 1, 1, 1, .rws, 0, 1, false⟩,
  ⟨O.packageEolDays, 1, 1, 1, 2, .ro, 0, 0xFFFF, false⟩,
  ⟨O.packageEolSource, 1, 1, 1, 4, .ro, 0, 0xFFFFFFFF, false⟩,
  ⟨O.kindEolDays, 8, 1, 1, 2, .ro, 0, 0xFFFF, false⟩,
  ⟨O.wearQuery, 1, 1, 1, 4, .rw, 0, 0xFFFFFFFF, false⟩,
  ⟨O.wearValue, 1, 1, 1, 2, .ro, 0, 0xFFFF, false⟩,
  ⟨O.wearLimit, 1, 1, 1, 2, .ro, 0, 0xFFFF, false⟩,
  ⟨O.wearSlope, 1, 1, 1, 4, .ro, 0, 0xFFFFFFFF, false⟩,
  ⟨O.wearEolDays, 1, 1, 1, 2, .ro, 0, 0xFFFF, false⟩,
  ⟨O.wearCheckpoints, 1, 1, 1, 1, .ro, 0, 0xFF, false⟩,
  ⟨O.substitutionsStarted, 1, 1, 1, 4, .ro, 0, 0xFFFFFFFF, true⟩,
  ⟨O.substitutionsNoSpare, 1, 1, 1, 4, .ro, 0, 0xFFFFFFFF, true⟩,
  ⟨O.rootPllSelect, 1, 1, 1, 1, .rws, 0, 1, false⟩,
  ⟨O.rootPllInUse, 1, 1, 1, 1, .ro, 0, 0xFF, false⟩]

/-- The objects of R432. -/
def objsR432 : List Obj := [
  ⟨O.bootState, 1, 1, 1, 1, .ro, 0, 0xFF, false⟩,
  ⟨O.bootSource, 1, 1, 1, 1, .ro, 0, 0xFF, false⟩,
  ⟨O.bootFailStep, 1, 1, 1, 1, .ro, 0, 0xFF, false⟩,
  ⟨O.bootCount, 1, 1, 1, 4, .ro, 0, 0xFFFFFFFF, false⟩,
  ⟨O.bootWatchdogS, 1, 1, 1, 2, .rws, 5, 0x258, false⟩,
  ⟨O.recoveryRequest, 1, 1, 1, 1, .wo, 1, 1, false⟩,
  ⟨O.ownerSeq, 1, 1, 1, 8, .ro, 0, 0xFFFFFFFFFFFFFFFF, false⟩,
  ⟨O.ownerKeys, 1, 1, 1, 1, .ro, 0, 0xFF, false⟩,
  ⟨O.identityState, 1, 1, 1, 1, .ro, 0, 0xFF, false⟩,
  ⟨O.rngState, 1, 1, 1, 1, .ro, 0, 0xFF, false⟩,
  ⟨O.floors, 3, 1, 1, 4, .ro, 0, 0xFFFFFFFF, false⟩,
  ⟨O.floorRecSeq, 1, 1, 1, 8, .ro, 0, 0xFFFFFFFFFFFFFFFF, false⟩,
  ⟨O.floorRaise, 1, 1, 1, 1, .wo, 1, 3, false⟩,
  ⟨O.fwSecurityVersion, 1, 1, 1, 4, .ro, 0, 0xFFFFFFFF, false⟩,
  ⟨O.fwImageId, 1, 1, 1, 8, .ro, 0, 0xFFFFFFFFFFFFFFFF, false⟩,
  ⟨O.osPayloadAddr, 1, 1, 1, 8, .rw, 0, 0xFFFFFFFFFFFFFFFF, false⟩,
  ⟨O.osPayloadLen, 1, 1, 1, 4, .rw, 0, 0xFFFFFFFF, false⟩,
  ⟨O.osVerify, 1, 1, 1, 1, .rws, 0, 1, false⟩,
  ⟨O.osBoot, 1, 1, 1, 1, .wo, 1, 1, false⟩,
  ⟨O.measureCount, 1, 1, 1, 4, .ro, 0, 0xFFFFFFFF, false⟩,
  ⟨O.measureLogDropped, 1, 1, 1, 4, .ro, 0, 0xFFFFFFFF, false⟩,
  ⟨O.measureData, 8, 1, 1, 4, .rw, 0, 0xFFFFFFFF, false⟩,
  ⟨O.measureExtend, 1, 1, 1, 1, .wo, 1, 1, false⟩,
  ⟨O.quoteState, 3, 1, 1, 1, .ro, 0, 0xFF, false⟩,
  ⟨O.quoteRequest, 3, 1, 1, 1, .wo, 1, 1, false⟩,
  ⟨O.quoteNonce, 8, 1, 3, 4, .rw, 0, 0xFFFFFFFF, false⟩,
  ⟨O.attestSelect, 3, 1, 1, 4, .rw, 0, 0xFFFFFFFF, false⟩,
  ⟨O.attestChunk, 16, 1, 3, 4, .ro, 0, 0xFFFFFFFF, false⟩]

/-- The objects of R433. -/
def objsR433 : List Obj := [
  ⟨O.recoveryState, 1, 1, 1, 1, .ro, 0, 0xFF, false⟩,
  ⟨O.recoveryReason, 1, 1, 1, 1, .ro, 0, 0xFF, false⟩,
  ⟨O.recoveryKind, 1, 1, 1, 1, .rw, 1, 4, false⟩,
  ⟨O.recoveryMode, 1, 1, 1, 1, .rw, 1, 2, false⟩,
  ⟨O.recoveryLength, 1, 1, 1, 4, .rw, 0, 0xFFFFFFFF, false⟩,
  ⟨O.recoveryOffset, 1, 1, 1, 4, .ro, 0, 0xFFFFFFFF, false⟩,
  ⟨O.recoveryOp, 1, 1, 1, 1, .wo, 0, 0xFF, false⟩,
  ⟨O.recoveryData, 1, 1, 1, 0, .wo, 0, 0, false⟩,
  ⟨O.recoveryLastRefusal, 1, 1, 1, 1, .ro, 0, 0xFF, false⟩]

/-- The objects of R459. -/
def objsR459 : List Obj := [
  ⟨O.supplyState, 21, 1, 1, 1, .ro, 0, 0xFF, false⟩,
  ⟨O.supplyMv, 21, 1, 1, 2, .ro, 0, 0xFFFF, false⟩,
  ⟨O.supplyMa, 21, 1, 1, 4, .ro, 0, 0xFFFFFFFF, false⟩,
  ⟨O.resetCause, 1, 1, 1, 2, .ro, 0, 0xFFFF, false⟩,
  ⟨O.packageReset, 1, 1, 1, 2, .wo, 0xA55A, 0xA55A, false⟩,
  ⟨O.coldResets, 1, 1, 1, 4, .ro, 0, 0xFFFFFFFF, true⟩,
  ⟨O.dieTempDc, 10, 1, 1, 2, .ro, 0, 0xFFFF, false⟩,
  ⟨O.stackTempDc, 12, 1, 1, 2, .ro, 0, 0xFFFF, false⟩,
  ⟨O.thermalWarnC, 1, 1, 1, 1, .rws, 70, 0x6E, false⟩,
  ⟨O.thermalTripC, 1, 1, 1, 1, .ro, 0, 0xFF, false⟩,
  ⟨O.stackWarnC, 1, 1, 1, 1, .rws, 70, 95, false⟩,
  ⟨O.stackTripC, 1, 1, 1, 1, .ro, 0, 0xFF, false⟩,
  ⟨O.refclkState, 1, 1, 1, 1, .ro, 0, 0xFF, false⟩,
  ⟨O.refclkLosses, 1, 1, 1, 4, .ro, 0, 0xFFFFFFFF, true⟩,
  ⟨O.pllUnlocks, 1, 1, 1, 4, .ro, 0, 0xFFFFFFFF, true⟩,
  ⟨O.pmbusRetries, 1, 1, 1, 4, .ro, 0, 0xFFFFFFFF, true⟩,
  ⟨O.telemetryStale, 1, 1, 1, 4, .ro, 0, 0xFFFFFFFF, true⟩,
  ⟨O.flashWpMode, 1, 1, 1, 1, .rws, 0, 1, false⟩]

/-- The objects of R470. -/
def objsR470 : List Obj := [
  ⟨O.eventLogNewest, 1, 1, 1, 4, .ro, 0, 0xFFFFFFFF, false⟩,
  ⟨O.eventLogCapacity, 1, 1, 1, 2, .ro, 0, 0xFFFF, false⟩,
  ⟨O.eventLogSuppressed, 1, 1, 1, 4, .ro, 0, 0xFFFFFFFF, true⟩,
  ⟨O.emcyDropped, 1, 1, 1, 4, .ro, 0, 0xFFFFFFFF, true⟩,
  ⟨O.eventLogSelect, 3, 1, 1, 4, .rw, 0, 0xFFFFFFFF, false⟩,
  ⟨O.eventLogRecord, 4, 1, 3, 4, .ro, 0, 0xFFFFFFFF, false⟩,
  ⟨O.escMask, 6, 1, 1, 1, .rw, 0, 15, false⟩,
  ⟨O.eventMsixVector, 1, 1, 1, 1, .rw, 0, 0xFF, false⟩,
  ⟨O.eventIrqHarts, 1, 1, 1, 8, .rw, 0, 0xFFFFFFFFFFFFFFFF, false⟩]

/-- Every object of the dictionary. -/
def objects : List Obj :=
  objsR3 ++ objsR58 ++ objsR82 ++ objsR103 ++ objsR129 ++ objsR161 ++ objsR180 ++ objsR209 ++ objsR232 ++ objsR257 ++ objsR282 ++ objsR283 ++ objsR307 ++ objsR332 ++ objsR360 ++ objsR380 ++ objsR407 ++ objsR408 ++ objsR409 ++ objsR432 ++ objsR433 ++ objsR459 ++ objsR470

/-- Whether a key is an element of an object. -/
def Obj.covers (o : Obj) (key : Nat) : Bool :=
  decide (o.key ≤ key ∧ (key - o.key) / 256 < o.nIdx ∧ (key - o.key) % 256 < o.n * o.step ∧
    (key - o.key) % 256 % o.step = 0)

/-- The object that holds an element at a key. -/
def objAt (key : Nat) : Option Obj := objects.find? (fun o => o.covers key)

/-- Whether any object has this index. -/
def idxPresent (idx : Nat) : Bool :=
  objects.any (fun o => decide (o.key / 256 ≤ idx ∧ idx < o.key / 256 + o.nIdx))

end Sys2Proof.Machine
end

