-- ==== Sys2Proof/Machine/State.lean ====
section
/-! DEFINITION. Machine/State.lean: the state of one package, as plain data. Every register of the object
dictionary lives in `Dict`, keyed by index and sub-index (R13, R383); the fields below hold the rest: memories,
buffers, queues, engines, sequencers and pins. INVENTORY.md lists each with its rule and reset value. -/
namespace Sys2Proof.Machine

/-- Why a command stops the machine. -/
inductive Fault where
  /-- Raised by a slot command whose fields hold a reserved encoding. The loader rejects every image that
  holds one (R42, R98, R128, R136), so no tile ever issues it. Safe: the machine stops. -/
  | reservedEncoding (mnemonic : String)
  /-- Raised by a slot command whose count or address passes the limit that its descriptor sets, or whose descriptor
  breaks a check that the loader makes. The loader rejects every image that holds one, and nothing is truncated at
  run time (R10, R42, R128, R139). Safe: the machine stops. -/
  | rejectedAtLoad (mnemonic : String)
  deriving DecidableEq, Repr

/-- Why a command has no meaning. -/
inductive Refusal where
  /-- Answered only by an arm of `exec` whose command has no meaning yet. Safe: the machine stops. -/
  | notModelled (mnemonic : String)
  deriving DecidableEq, Repr

/-! ## Protected words and the tile (R34 to R59, R105 to R139) -/

/-- A stored word of the word code with its 16 check bits (R246). -/
structure PWord where
  data : W128
  chk : BitVec 16
  deriving DecidableEq, Repr

/-- An accumulator-store or drain-queue entry with its poison mark (R85, R117). -/
structure AccE where
  bits : W32
  poison : Bool
  deriving DecidableEq, Repr

/-- Four entries as the accumulator store and the drain queue hold them: a word of the word code (R250), and the entries' poison
marks, entry i's in bit i. -/
structure AccWord where
  word : PWord
  marks : BitVec 4
  deriving DecidableEq, Repr

/-- The type tag of an accumulator-store row (R89). -/
inductive AccTag where
  | untyped
  | float
  | int
  deriving DecidableEq, Repr

/-- Per-row state of the accumulator store: type tag (R89) and draw counter (R97). -/
structure AccRow where
  tag : AccTag
  draw : BitVec 16
  deriving DecidableEq, Repr

/-- A weight register of the array (R35): cells as word-code words of eight 16-bit cells (R36), fine scales by
group and column, and what the register records. -/
structure WReg where
  loaded : Bool
  fmt : Nat
  rows : Nat
  coarse : Int
  tensor : Nat
  part : BitVec 2
  passes : Nat
  hasFine : Bool
  poison : Bool
  cells : SMap PWord
  fine : SMap Nat
  deriving DecidableEq, Repr

/-- A streamed row as read at issue: element codes, fine codes, and whether a word was poisoned (R51). -/
structure SRow where
  codes : List Nat
  fine : List Nat
  poison : Bool
  deriving DecidableEq, Repr

/-- A stream in the array, from issue until its results land (R37, R46): `landed` counts the accumulator-store rows it
has written, `sat` says whether one of them saturated (R89). -/
structure Stream where
  trans : Bool
  wsel : Bool
  rows : List SRow
  w : WReg
  fmt : Nat
  mode : BitVec 2
  mp : BitVec 2
  part : BitVec 2
  sr : Bool
  acc : Bool
  hasFine : Bool
  coarse : Int
  wInt : Bool
  asBase : Nat
  nCols : Nat
  outTensor : Nat
  elemBase : Nat
  bad : Bool
  issue : Nat
  c : Nat
  lat : Nat
  landed : Nat
  sat : Bool
  deriving DecidableEq, Repr

/-- The opcodes of the matrix slot that an interlock can hold (R48). -/
inductive MOp where
  | mlw | mws | mwt | mdr | mdv | mclr
  deriving DecidableEq, Repr

/-- The panel record (R92). `pos` is row × 128 + entry. -/
structure PanelRec where
  nf : Bool
  nan : Bool
  sat : Bool
  count : Nat
  pos : Nat
  deriving DecidableEq, Repr

/-- The matrix array of a tile. -/
structure Matrix where
  w0 : WReg
  w1 : WReg
  acc : SMap AccWord
  rows : SMap AccRow
  inflight : List Stream
  clears : List (Nat × Nat × Nat)
  loadBusy : Nat
  pathBusy : Nat
  activeEnd : Nat
  held : Option (MOp × MSlot)
  panel : PanelRec
  scrub : Nat
  deriving DecidableEq, Repr

/-- Pointer advances of a vector memory descriptor since its base (R114). -/
structure VPtr where
  addr : Int
  scale : Int
  elem : Nat
  deriving DecidableEq, Repr

/-- A vector register's value as read: 64 lanes, and poison per four-lane word (R127). -/
structure VVal where
  lanes : List W32
  poison : List Bool
  deriving DecidableEq, Repr

/-- A reduction context (R124). -/
structure Ctx where
  rop : Option Nat
  lanes : SMap W32
  poison : Bool
  deriving DecidableEq, Repr

/-- A running phrase: what it read at t0, its next iteration, and the even iterations kept for narrow outputs. -/
structure PhraseRun where
  desc : Nat
  count : Nat
  iter : Nat
  regs : SMap VVal
  masks : SMap W64
  kept : SMap VVal
  bundle : Nat
  issue : Nat
  delay : Nat
  met : Bool
  waited : Bool
  deriving DecidableEq, Repr

/-- The non-finite vector record (R126). -/
structure VecRec where
  nf : Bool
  nan : Bool
  count : Nat
  lane : Nat
  bundle : Nat
  iter : Nat
  cyc : Nat
  deriving DecidableEq, Repr

/-- An MDV whose remaining rows are still to be pushed: the rows as drained, the cycle the next one wants, and whether a hold
was reported (R117). -/
structure MdvRun where
  rows : List (List AccWord)
  want : Nat
  held : Bool
  deriving DecidableEq, Repr

/-- A vector instruction that an interlock holds (R118). -/
inductive VHeld where
  | instr (i : Instr) (since : Nat)
  | drain (i : Instr) (since : Nat)
  deriving DecidableEq, Repr

/-- The vector engine of a tile (R105); `late` holds the record's share of writes that have yet to land, each with its landing
cycle (R126); `bundle` is the bundle whose wait has passed and whose vector slot is still to come. -/
structure VecEng where
  regs : SMap PWord
  masks : SMap W64
  ready : SMap Nat
  ctx : SMap Ctx
  foldEnd : Nat
  foldCtx : Nat
  ptrs : SMap VPtr
  phrase : Option PhraseRun
  held : Option VHeld
  record : VecRec
  late : List (Nat × VecRec)
  bundle : Option Nat
  queue : List (Nat × List AccWord)
  half : Bool
  mdv : List MdvRun
  deriving DecidableEq, Repr

/-- Pointer advances of a move descriptor since its base (R138). -/
structure XPtr where
  locl : Int
  remote : Int
  memory : Int
  deriving DecidableEq, Repr

/-- What holds a bundle (R133, R135, R275). `since` is the domain beat at which the hold began. -/
inductive BundleHold where
  | cwait (target since : Nat)
  | carr (win slack count since : Nat)
  | xpub
  deriving DecidableEq, Repr

/-- An open loop (R136). -/
structure LoopSt where
  lc : Nat
  body : Nat
  left : Nat
  deriving DecidableEq, Repr

/-- The clause sequencer of a tile (R131, R133). -/
structure Seqr where
  running : Bool
  sentence : Nat
  startBeat : Nat
  pc : Nat
  loops : List LoopSt
  hold : Option BundleHold
  refetch : Option Nat
  cwaitLate : Nat
  endCyc : Nat
  starts : List (Nat × Nat)
  scrub : Nat
  deriving DecidableEq, Repr

/-- One logical tile. `banks` holds the class of the access that each SRAM bank serves by cycle × 16 + bank (R52). -/
structure Tile where
  mx : Matrix
  vec : VecEng
  md : SMap W32
  vd : SMap W32
  pd : SMap W32
  xd : SMap W32
  xptr : SMap XPtr
  store : SMap PWord
  clauses : List (Nat × Nat)
  nBundles : Nat
  seq : Seqr
  win : SMap Nat
  stepPoison : Bool
  xputOut : Nat
  banks : SMap Nat
  deriving DecidableEq, Repr

/-- A flit on its way to a tile, or an acknowledgement on its way back (R134, R139). -/
inductive MeshFlit where
  | sram (tile offset win : Nat) (data : List PWord)
  | credit (tile win : Nat)
  | xputAck (tile win : Nat)
  deriving DecidableEq, Repr

/-! ## Scales, ledger and the training step (R69 to R82, R163 to R180) -/

/-- The counts of a ledger slot in the current step (R78); `cnv` and `amaxC` say whether a conversion has come since the
last opening of a commit phase, and the largest magnitude of those (R72). -/
structure SlotCnt where
  total : Nat
  saturated : Nat
  flushed : Nat
  subnormal : Nat
  belowFloor : Nat
  nonFinite : Nat
  changed : Nat
  amax : W32
  ceiling : Bool
  cnv : Bool
  amaxC : W32
  deriving DecidableEq, Repr

/-- A declared ledger slot: its tensor, its site number, and delta_track (R78). -/
structure SlotDecl where
  tensor : Nat
  site : Nat
  delta : Bool
  deriving DecidableEq, Repr

/-- The ledger collector and the scale unit. -/
structure Ledger where
  decl : List SlotDecl
  slots : SMap SlotCnt
  held : SMap SlotCnt
  sinceSave : SMap (Nat × Nat)
  deriving DecidableEq, Repr

/-- The step controller (R166 to R177); `discards` names the commit sentences whose XPUTs the memory-side dies discard, by sentence
and start beat: all of a voided step's, or only the accumulator's writes (R173, R174). -/
structure StepCtl where
  stepIndex : Nat
  cvotes : Nat
  bucketsDone : Nat
  own : Option VoteRec
  held : Option VoteRec
  sent : Option VoteRec
  localSent : Bool
  decided : Bool
  voided : Bool
  committing : Bool
  saveOpen : List Nat
  saveStep : List Nat
  haltNext : Bool
  commitSent : Nat
  discards : List (Nat × Nat × Bool)
  deriving DecidableEq, Repr

/-! ## The schedule and the loaded image (R140 to R161) -/

/-- Why schedule time is held (R147). -/
inductive HoldKind where
  | slip
  | save
  | opChange
  deriving DecidableEq, Repr

/-- A hold of schedule time, pending at a domain beat or in progress. -/
structure Slip where
  beat : Nat
  len : Nat
  kind : HoldKind
  deriving DecidableEq, Repr

/-- A late case in progress: beats late so far, and the domain beat of its last request (R146). -/
structure LateRec where
  case : LateCase
  late : Nat
  lastReq : Nat
  deriving DecidableEq, Repr

/-- The package's part in a START (R157): when the request was accepted, its sequence number, the answers. -/
structure StartRun where
  t0 : Nat
  seq : Nat
  answers : List (Nat × Nat × Nat × Nat)
  deriving DecidableEq, Repr

/-- Schedule time. -/
structure Sched where
  slips : List Slip
  hold : Option Slip
  late : List LateRec
  startRun : Option StartRun
  startBeat : Option Nat
  cycle0 : Nat
  haltAt : Option Nat
  offsetRuns : Nat
  originSeq : Nat
  filter : SMap Nat
  nextStart : Nat
  formed : Bool
  deriving DecidableEq, Repr

/-- A step-program entry (R152). -/
structure ProgEntry where
  offset : Nat
  sentence : Nat
  per : Bool
  sp : Bool
  sw : Bool
  st : Bool
  deriving DecidableEq, Repr

/-- A variant entry (R150). -/
structure Variant where
  timeMaster : Nat
  nSpare : Nat
  dimX : Nat
  dimY : Nat
  dimZ : Nat
  deriving DecidableEq, Repr

/-- A part-table entry (R151). -/
structure PartEnt where
  kind : Nat
  vmask : Nat
  pkg : Nat
  offset : Nat
  length : Nat
  digest : List Byte
  deriving DecidableEq, Repr

/-- A route-table row (R301). -/
structure RouteRow where
  partner : Nat
  port1 : Nat
  port3 : Nat
  hops : Nat
  deriving DecidableEq, Repr

/-- A channel entry of the agreement program (R207). -/
structure ChanEnt where
  engine : Bool
  channel : Nat
  op : Nat
  nMembers : Nat
  rank : Nat
  outPort : Nat
  inPort : Nat
  pipe : Nat
  nextPkg : Nat
  prevPkg : Nat
  holdBase : Nat
  holdBytes : Nat
  firstSeq : Nat
  nSeq : Nat
  deriving DecidableEq, Repr

/-- A bucket entry of the agreement program (R207). -/
structure BucketEnt where
  tensor : Nat
  elemFirst : Nat
  nElem : Nat
  cpp : Nat
  bucket : Nat
  scaleIndex : Nat
  upd : Bool
  fixedIn : Bool
  fixedOut : Bool
  resTile : Nat
  resWin : Nat
  srcTile : Nat
  resAddr : Nat
  deriving DecidableEq, Repr

/-- A region descriptor of a dispatch layout (R220). -/
structure RegionDesc where
  tileFirst : Nat
  nTiles : Nat
  offset : Nat
  rowsPerTile : Nat
  rowStride : Nat
  deriving DecidableEq, Repr

/-- A dispatch table entry (R225). -/
structure DispTable where
  op : Nat
  k : Nat
  mapDepth : Nat
  lag : Nat
  nExperts : Nat
  fillTable : Nat
  nTrig : Nat
  nTokens : Nat
  quotaFirst : Nat
  rowFlits : Nat
  win : Nat
  reportTile : Nat
  recBase : Nat
  reportAddr : Nat
  mapOffset : Nat
  src : RegionDesc
  dst : RegionDesc
  deriving DecidableEq, Repr

/-- A die section of the dispatch part (R225). -/
structure DieSection where
  tables : List DispTable
  seq : List (Nat × Nat)
  quotas : List Nat
  mapBase : Nat
  mapBytes : Nat
  deriving DecidableEq, Repr

/-- A placement group with its positions (R227): block size, and (tier, address) of each position. -/
structure PlaceGroup where
  blockBytes : Nat
  positions : List (Bool × Nat)
  deriving DecidableEq, Repr

/-- A stage entry (R227). -/
structure StageEnt where
  offset : Nat
  deadline : Nat
  engine : Nat
  dirIn : Bool
  group : Nat
  expert : Nat
  partOffset : Nat
  length : Nat
  frame : Nat
  deriving DecidableEq, Repr

/-- A remap entry (R159): for a package entry the failed position and the spare, for a link entry position and port; hops are the
added hops, largest. -/
structure RemapEnt where
  key : Nat
  value : Nat
  delta : List RouteRow
  hops : Nat
  usable : Bool
  deriving DecidableEq, Repr

/-- A region of the securing part (R335). -/
structure SecRegion where
  tensor : Nat
  kind : Nat
  mode : Nat
  addr : Nat
  bytes : Nat
  paritySlot : Option Nat
  copySlot : Option Nat
  deriving DecidableEq, Repr

/-- The securing part (R334, R335). -/
structure SecPart where
  protBase : Nat
  protBytes : Nat
  saveHoldBeats : Nat
  groups : List (List Nat)
  buddy : List Nat
  regions : List SecRegion
  deriving DecidableEq, Repr

/-- The parts of a loaded Syntax image that the package holds (R150 to R159). -/
structure Image where
  addr : Nat
  len : Nat
  imageId : Nat
  seed : Nat
  securityVersion : Nat
  aclkDiv : Nat
  cycleLen : Nat
  stepsPerCycle : Nat
  slipHorizon : Nat
  slipQuantum : Nat
  waitSlack : Nat
  holdLimit : Nat
  variant : Variant
  parts : List PartEnt
  prog : List ProgEntry
  cvotes : List Nat
  placement : List (Nat × Nat)
  timeParent : Nat
  wrapPorts : Nat
  routes : SMap RouteRow
  scaleBase : Nat
  scaleInit : List Byte
  decls : List SlotDecl
  aScaleBase : Nat
  aScaleInit : List Byte
  chans : List ChanEnt
  buckets : List BucketEnt
  bucketSteps : List Nat
  sections : List (Option DieSection)
  groups : List PlaceGroup
  initialPlace : List (List Nat)
  stages : List StageEnt
  moveBuffer : Nat
  placeBudget : Nat
  remapPkgs : List RemapEnt
  remapLinks : List RemapEnt
  remapGuard : Nat
  sec : Option SecPart
  deriving DecidableEq, Repr

/-- The operations of a schedule-load request (R155). -/
inductive LoadOp where
  | load | unload | start | halt
  deriving DecidableEq, Repr

/-- An accepted request to the schedule loader (R155). -/
structure LoadReq where
  seq : Nat
  op : LoadOp
  claimant : Nat
  addr : Nat
  len : Nat
  variant : Nat
  deriving DecidableEq, Repr

/-- An image that has passed its checks and is being loaded for a position (0xFFFF for a spare), with its tiles. -/
structure Loading where
  req : LoadReq
  img : Image
  pos : Nat
  tiles : List Tile
  deriving DecidableEq, Repr

/-- The schedule loader (R154 to R158). -/
structure Loader where
  reqs : List LoadReq
  loading : Option Loading
  image : Option Image
  deriving DecidableEq, Repr

/-! ## The Agreement engines and dispatch (R182 to R232) -/

/-- One channel of an engine: where it stands in its sequence (bucket, stage, chunk), where its ring input stands,
local input flits held, flits refused as (tile, offset, bucket, done_win + 1 or 0), chunks in the receive buffer, the link flits
of a chunk that is still arriving, those that wait in a port's buffer for room, and whether the beat saw a refusal. -/
structure ChanSt where
  pos : Nat
  stage : Nat
  chunk : Nat
  rxPos : Nat
  rxStage : Nat
  rxChunk : Nat
  input : List (Nat × List PWord)
  refused : List (Nat × Nat × Nat × Nat)
  rx : List Chunk
  asm : List LinkFlit
  wait : List (Nat × LinkFlit)
  held : Bool
  deriving DecidableEq, Repr

/-- An Agreement engine. -/
structure Engine where
  chans : SMap ChanSt
  once : List (Nat × Nat)
  deriving DecidableEq, Repr

/-- A finished fill of the current step, for its ledger record (R224). -/
structure FillRec where
  table : Nat
  ordinal : Nat
  poisoned : Bool
  counts : List Nat
  deriving DecidableEq, Repr

/-- The dispatch unit of a compute die (R211 to R224): its place in the sequence, whether the current activation has
run, the fills of each table, flits on their way (table, words), record regions, trigger counts, refused flits as
(tile, offset, table, done_win + 1 or 0), the fills of the step, the events raised once per table, and whether the beat saw a
refusal. -/
structure DispUnit where
  pos : Nat
  rep : Nat
  served : Bool
  ordinal : SMap Nat
  inbound : List (Nat × List PWord)
  records : SMap (List (List PWord))
  triggers : SMap Nat
  refused : List (Nat × Nat × Nat × Nat)
  fills : List FillRec
  once : List (Nat × Nat)
  held : Bool
  deriving DecidableEq, Repr

/-- A tier engine: its entries' position and the copy in progress (R228). -/
structure TierEng where
  next : Nat
  busy : Option Nat
  startBeat : Nat
  deriving DecidableEq, Repr

/-! ## Memory, coherence, cores (R234 to R283) -/

/-- Whom a memory or coherence reply belongs to. -/
inductive Tag where
  | core (c : Nat)
  | xget (tile offset win id : Nat)   -- id 0: the flit is one request; else its number in Coh.parts
  | xput (tile win id : Nat)
  | victim
  deriving DecidableEq, Repr

/-- The request types of R266. -/
inductive ReqKind where
  | rdShared | rdOwn | upgrade | wbDirty | evClean | rdSnoop | wrInv
  deriving DecidableEq, Repr

/-- A request (R266): requester number, type, line, byte mask and data of a WrInv or a WbDirty. -/
structure Req where
  requester : Nat
  kind : ReqKind
  line : Nat
  mask : List Bool
  data : List PWord
  tag : Tag
  discard : Bool
  arrival : Nat
  deriving DecidableEq, Repr

/-- An access in a set queue (R245). -/
inductive MemOp where
  | read (line : Nat) (mask : List Bool) (tag : Tag)
  | write (line : Nat) (mask : List Bool) (data : List PWord)
  | correct (word : Nat) (w : PWord)
  deriving DecidableEq, Repr

/-- The row or page that repair can act on: unit (stack, or 12 + device), lane, bank, row (R253). -/
structure RowId where
  unit : Nat
  lane : Nat
  bank : Nat
  row : Nat
  deriving DecidableEq, Repr

/-- The memory-side dies (R244 to R256): `poisonSeen` counts by die the poison words that the scrubber met, `window` holds by die when
its window without a scrubber began, while one runs (R252). -/
structure MemSys where
  queue : List MemOp
  rowCorr : SMap Nat
  sideband : SMap Nat
  sidebandHit : SMap Bool
  scrubPos : SMap Nat
  cands : SMap (List RowId)
  repairing : SMap RowId
  selfRefresh : SMap Bool
  corrSeen : SMap Bool
  poisonSeen : SMap Nat
  window : List (Nat × Nat)
  deriving DecidableEq, Repr

/-- The L2 states of R262. -/
inductive L2St where
  | m | e | s
  deriving DecidableEq, Repr

/-- A line held in an L2 or in an eviction buffer. -/
structure L2Line where
  st : L2St
  data : List PWord
  deriving DecidableEq, Repr

/-- The snoops of R271. -/
inductive SnoopKind where
  | fwdS | fwdM | inv | invD | snpRd
  deriving DecidableEq, Repr

/-- A snoop in flight, and its answer once the core has given it: data returned to the home. -/
structure Snoop where
  core : Nat
  line : Nat
  kind : SnoopKind
  answered : Bool
  answer : Option (List PWord)
  dirty : Bool
  stale : Bool
  deriving DecidableEq, Repr

/-- A line in service at its home (R268): the row of R271, the answers awaited, the data a holder returned, whether the requester has
what it asked for, and the mtime at which the snoops went out (R277). -/
structure Busy where
  line : Nat
  req : Req
  row : Nat
  waiting : Nat
  got : Option (List PWord)
  dirty : Bool
  filled : Bool
  sent : Nat
  deriving DecidableEq, Repr

/-- A reply on its way to a core: the data or grant and the state it brings (R272, R273). -/
structure Fill where
  core : Nat
  line : Nat
  st : L2St
  data : Option (List PWord)
  deriving DecidableEq, Repr

/-- A store or an atomic access a core has issued and not yet completed (R260). -/
structure PendStore where
  addr : Nat
  bytes : List Byte
  kind : CoreStoreKind
  deriving DecidableEq, Repr

/-- A flit of an XGET or an XPUT that crosses a line (R266): requests outstanding, its address, the bytes so far. -/
structure FlitPart where
  left : Nat
  addr : Nat
  words : List (Option W128)
  deriving DecidableEq, Repr

/-- The exceptions of R260 and R261. -/
inductive CoreTrap where
  | accessFault
  | hardwareError
  deriving DecidableEq, Repr

/-- Directory, home arbiters, and the cores' L2 caches; `reserved` holds by core the line of its load-reserved. -/
structure Coh where
  dir : SMap PWord
  victim : SMap Nat
  net : List Req
  arb : List Req
  busy : List Busy
  snoops : List Snoop
  fills : List Fill
  l2 : SMap L2Line
  evb : SMap L2Line
  stores : SMap PendStore
  loads : SMap (Nat × Nat × Bool)
  trap : SMap CoreTrap
  sweep : Bool
  fencing : SMap Bool
  reserved : SMap Nat
  heldWay : SMap Nat
  parts : SMap FlitPart
  nextPart : Nat
  wayCorr : SMap Nat
  deriving DecidableEq, Repr

/-! ## Links (R285 to R307) -/

/-- One neighbour port. -/
structure PortSt where
  tx0 : List LinkFlit
  tx1 : List LinkFlit
  tx3 : List LinkFlit
  second : List LinkFlit
  local0 : List (Nat × Nat × List Byte)
  replay : List (Nat × List LinkFlit)
  txPos : Nat
  rxPos : Nat
  ackPos : Nat
  resend : Option Nat
  nakPos : Option Nat
  nakRuns : Nat
  credits : List Nat
  freed : List Nat
  c0Tx : Nat
  c0Seen : List Nat
  turn : Nat
  spareAt : Option (Nat × Nat)
  spareRx : Option (Nat × Nat)
  retryFlag : Bool
  dead : Bool
  rxTop : Nat
  retrainAt : Nat
  stalled : Bool
  deriving DecidableEq, Repr

/-- A partner's end-to-end sequences (R299). -/
structure Partner where
  used : Bool
  tx1 : Nat
  rx1 : Nat
  tx3 : Nat
  rx3 : Nat
  deriving DecidableEq, Repr

/-- Ports and partners, and by source the address flit (region, kind, offset) of class-3 stream 1 whose data flit is still to
come (R340); the last 32 words of each bridge (R305). -/
structure Links where
  ports : SMap PortSt
  partners : SMap Partner
  asm3 : SMap (Nat × Nat × Nat)
  bridges : SMap (List PWord)
  deriving DecidableEq, Repr

/-! ## Host ports (R309 to R332) -/

/-- A host-bound write (R326, R329): data, a flush read, a tag, or an MSI-X message. -/
inductive HostTlp where
  | write (addr : Nat) (bytes : List Byte) (poison : Bool)
  | record (q : Nat) (addr : Nat) (body : List Byte) (tag : Nat)
  deriving DecidableEq, Repr

/-- A checked 64-byte descriptor of a DMA or runtime queue (R320). -/
structure Desc where
  seq : Nat
  op : Nat
  src : Nat
  dst : Nat
  length : Nat
  ok : Bool
  deriving DecidableEq, Repr

/-- A completion record that waits for its ring or for its flush read (R325, R326). -/
structure CplRec where
  seq : Nat
  status : Nat
  result : Nat
  body : List Byte
  deriving DecidableEq, Repr

/-- The working state of one command queue: the tail of its doorbells and who rang last, the fetch and its re-reads, the
commands fetched, the bytes moved by the first of them and the status it will have, the records that wait for their ring,
and the flags of R319, R322 and R327; `phase` is the phase of the next record's tag (R325). -/
structure QueueSt where
  tail : Nat
  fetching : Bool
  rereads : Nat
  cmds : List Desc
  moved : Nat
  status : Nat
  records : List CplRec
  enabled : Bool
  disabling : Bool
  notVisible : Bool
  full : Bool
  lost : Bool
  phase : Bool
  doorClaim : Nat
  post : List Byte
  deriving DecidableEq, Repr

/-- A record whose body is written and whose tag waits for a flush read (R326). -/
structure Unflushed where
  addr : Nat
  body : List Byte
  tag : Nat
  deriving DecidableEq, Repr

/-- What a PCIe port's configuration space holds that the host sets (R309, R310): the BAR registers, one value for each 64-bit BAR, Bus
Master Enable, and whether AER has logged a poisoned TLP. No command of the table writes the first two (log 83). -/
structure PciFn where
  bars : List Nat
  busMaster : Bool
  poisonedTlp : Bool
  deriving DecidableEq, Repr

/-- Port H, port D, the session and the queues. -/
structure HostUnit where
  queues : SMap QueueSt
  flushes : List (Nat × List Unflushed)
  hostOut : List HostTlp
  token : Nat
  tokenRead : Bool
  tokenHighRead : Bool
  lastDma : Nat
  detachedAt : Nat
  overflow : Bool
  msixPending : W64
  msixTable : SMap W32
  notify : SMap Bool
  ingestDropSeen : Bool
  linkUp : Bool
  pciH : PciFn
  pciD : PciFn
  deriving DecidableEq, Repr

/-! ## Securing and recovery (R334 to R360) -/

/-- A save hold (R346): its first domain beat, its budgeted length, the next record to be streamed, whether the
stream has ended (with its trailer) or stopped (R352), the beat an abandon takes effect, the new methods, and the tick of
the last record (R346). -/
structure SaveHold where
  d0 : Nat
  len : Nat
  next : Nat
  moved : Nat
  streamed : Bool
  stopped : Bool
  abandonAt : Option Nat
  changed : List (Nat × Bool)
  deriving DecidableEq, Repr

/-- A recovery in progress (R351 to R356). -/
structure Recov where
  failed : List Nat
  t0 : Nat
  reports : List RecReport
  plan : Option RecPlan
  resumeAt : Option (Nat × Nat)
  closed : Bool
  deriving DecidableEq, Repr

/-- The protection and recovery engines. -/
structure Secure where
  parity : SMap Bool
  forced : Option Nat
  plannedPos : Option Nat
  hold : Option SaveHold
  digestSeq : Option Nat
  recov : Option Recov
  lastOpen : Nat
  lastComplete : Nat
  stepAtHalt : Nat
  placement : SMap Nat
  swapsLeft : List (Nat × Nat × Nat)
  swapsDone : Nat
  spareDead : SMap Bool
  failTimes : List Nat
  ringWrite : Nat
  ringRead : Nat
  deriving DecidableEq, Repr

/-! ## Power, configuration, Period, wear (R362 to R409) -/

/-- A power-state transition in progress (R366, R372). -/
structure Transition where
  from0 : Nat
  target : Nat
  waking : Bool
  step : Nat
  wakeReq : Bool
  deriving DecidableEq, Repr

/-- The always-on save blocks of R367 that this model gives contents. -/
structure Aon where
  hdrValid : Bool
  saveCount : Nat
  savedFrom : Nat
  bootFails : Nat
  valid : SMap Bool
  cfgAct : SMap Nat
  cfgShadow : SMap Nat
  spares : SMap Nat
  scrub : SMap Nat
  cands : SMap (List RowId)
  rings : SMap (List Int)
  session : SMap Nat
  deriving DecidableEq, Repr

/-- The power-state controller and the operating-point interlock. -/
structure Power where
  trans : Option Transition
  bucket : SMap Nat
  wakeQueue : SMap (List Nat)
  dvfsHeld : SMap Nat
  vddTarget : SMap Nat
  opNext : Option (Nat × Nat)
  samples : List Nat
  excess : Bool
  aon : Aon
  deriving DecidableEq, Repr

/-- A segmented USDO write in progress (R385, R433). -/
structure Segment where
  idx : Nat
  sub : Nat
  len : Nat
  got : List Byte
  deriving DecidableEq, Repr

/-- The node states of R388. -/
inductive Nmt where
  | preOp | operational | stopped
  deriving DecidableEq, Repr

/-- The CAN FD controller and the CANopen node. -/
structure Can where
  nmt : Nmt
  busOff : Bool
  passive : Bool
  offSeen : Bool
  segment : Option Segment
  deriving DecidableEq, Repr

/-- A swap announcement that is pending (R392). -/
structure Announce where
  gen : Nat
  divisor : Nat
  beat : Nat
  refused : Bool
  deriving DecidableEq, Repr

/-- Configuration sets and the Period trigger. -/
structure Cfg where
  announce : Option Announce
  localSwap : Bool
  timerClaim : Nat
  timerFired : Nat
  pendTimer : Bool
  pendRequest : Bool
  lastLocal : Option Nat
  lastSched : Option Nat
  masterGen : Nat
  deriving DecidableEq, Repr

/-- The wear sampler (R404 to R406): sums and counts over the step, the rings of the last eight checkpoints. -/
structure Wear where
  sums : SMap Int
  counts : SMap Nat
  base : SMap Nat
  rings : SMap (List Int)
  eol : SMap Nat
  qual : SMap Nat
  deriving DecidableEq, Repr

/-! ## Boot, supplies, events -/

/-- An open recovery transfer (R425). -/
structure Xfer where
  src : XferSrc
  kind : Nat
  mode : Nat
  total : Nat
  got : List Byte
  deriving DecidableEq, Repr

/-- A queued flash write (R417): priority class, flash offset, bytes. -/
structure FlashJob where
  prio : Nat
  offset : Nat
  bytes : List Byte
  deriving DecidableEq, Repr

/-- A measurement log entry (R428). -/
structure MeasEnt where
  seq : Nat
  reg : Nat
  source : Nat
  type : Nat
  data : Nat
  digest : List Byte
  deriving DecidableEq, Repr

/-- Identity, boot and attestation (R411 to R434): the step of R421 in progress (0 none), whether the package holds after a failed
step or a lost REFCLK, recovery, the open transfer, the flash and its queue, the measurements, the quotes by path (8 and 9: the alias and
identity certificates, 10 + path: a quote being signed), the owner keys, what the boot stage holds, whether cold reset is asserted, the
dictionary image's security version, and the mailbox (R426): its status, last_seq, and the bytes of its record and data area. -/
structure Boot where
  step : Nat
  held : Bool
  inRecovery : Bool
  recoveryReq : Bool
  xfer : Option Xfer
  flash : List Host.Cell
  flashQ : List FlashJob
  meas : SMap (List Byte)
  measLog : List MeasEnt
  quotes : SMap (List Byte)
  owners : List (List Byte)
  fwFloorRaise : Bool
  osStarted : Bool
  coreHeld : SMap Bool
  resetWait : Bool
  dictVersion : Nat
  mailbox : Nat
  mboxSeq : Nat
  mbox : List Host.Cell
  deriving DecidableEq, Repr

/-- The instructions of the JTAG test logic (R455). -/
inductive TapInstr where
  | bypass
  | idcode
  | samplePreload
  | extest
  | extestPulse
  deriving DecidableEq, Repr

/-- Supplies, sequencing (step of R446, 8 when done), temperatures, PLLs without lock, whether the root PLL lost lock under a
running image and no standby is in yet (R25), pins driven from outside, and the instruction that the JTAG test logic holds (R455). -/
structure Supply where
  seqStep : Nat
  seqStopped : Bool
  supplyFault : Bool
  outCount : SMap Nat
  warned : SMap Bool
  tripped : Bool
  pwrOk : Bool
  resetLow : Bool
  refclkAbsent : Bool
  rootLost : Bool
  pllOff : SMap Bool
  tap : TapInstr
  deriving DecidableEq, Repr

/-- An event record (R461). -/
structure EvRec where
  code : Nat
  severity : Nat
  unit : Nat
  time : Nat
  arg : Nat
  deriving DecidableEq, Repr

/-- The event path, the log and its reports (R461 to R466); an EMCY frame carries error_register as it stood when the frame was made. -/
structure Events where
  inFlight : List EvRec
  log : List (Nat × EvRec)
  interval : Nat
  inInterval : Nat
  suppressed : Bool
  emcy : List (EvRec × Nat)
  latched : SMap (List W32)
  tail : List EvRec
  deriving DecidableEq, Repr

/-- What has left the package, oldest first. -/
inductive Out where
  | class0 (m : C0Msg)
  | emcy (r : EvRec) (errorRegister : Nat)
  | heartbeat (state : Nat)
  | usdoValue (bytes : List Byte)
  | usdoAck
  | usdoAbort (code : Nat)
  | hostWrite (t : HostTlp)
  | flushRead (addr : Nat)
  | hostTag (addr tag : Nat)
  | msix (vector : Nat)
  | irq (harts : W64)
  | runtimeIrq (source : Nat)
  | readData (words : List (Option W128))
  | ioRead (bytes : List Byte)
  | unsupported
  | value (v : Nat)
  | prdOut
  | codeword (port : Nat) (lanes : List (List Nat))
  | bridgeWord (bridge : Nat) (word : Option W128)
  | linkLocal (port type arg payload : Nat)
  | pmbus (supply command : Nat)
  | record (bytes : List Byte)
  | powerDown
  deriving DecidableEq, Repr

/-- The object dictionary: the active (or only) copies, the shadow copies, the snapshot set (R390, R402), and the
low words staged per path (R384). An entry that is not listed holds its object's default. -/
structure Dict where
  act : SMap Nat
  shadow : SMap Nat
  snap : SMap Nat
  staged : SMap (Nat × Nat)
  deriving DecidableEq, Repr

/-- Lands that the package drives as a function of its state: FAULT_N, THERMTRIP_N, TDO (none: high-impedance), XSPI_WP_N and the two
regulator control lands (R438, R440, R455, R459). -/
structure Lands where
  faultN : Bool
  thermTripN : Bool
  tdo : Option Bool
  xspiWpN : Bool
  vrCtlMain : Bool
  vrCtlMem : Bool
  deriving DecidableEq, Repr

/-- One package: everything but the queue of waiting commands and the lands it drives. Check bits of a memory word lie where R238
and R240 place them: `eccPins` holds what the ECC pins of an HBM3E word carry, by word; `checkBytes` the bytes of check lines and check
pages, by row and byte; `sramChk` the check bits beside a word of tile SRAM. -/
structure Pkg where
  mtime : Nat
  dict : Dict
  mem : List Host.Cell
  eccPins : SMap Byte
  checkBytes : List Host.Cell
  sramChk : SMap (BitVec 16)
  tiles : SMap Tile
  flits : List MeshFlit
  qualified : SMap Bool
  testFailed : SMap Bool
  retired : SMap Bool
  testPrev : SMap Nat
  ledger : Ledger
  stepc : StepCtl
  sched : Sched
  loader : Loader
  engines : SMap Engine
  disp : SMap DispUnit
  tiers : SMap TierEng
  place : List (List Nat)
  memsys : MemSys
  coh : Coh
  links : Links
  host : HostUnit
  secure : Secure
  power : Power
  can : Can
  cfg : Cfg
  wear : Wear
  boot : Boot
  supply : Supply
  ev : Events
  failed : Bool
  free : Nat
  out : List Out
  deriving DecidableEq, Repr

/-- The machine: the commands that wait, first in first out; the package; the lands it drives. -/
structure State where
  pending : List Instr
  pkg : Pkg
  lands : Lands
  deriving DecidableEq, Repr

/-! ## Reset: the power-on reset, with PWR_OK not yet risen (R386, R446, R451) -/

def WReg.reset : WReg := ⟨false, 0, 0, 0, 0, 0, 0, false, false, [], []⟩
def PanelRec.reset : PanelRec := ⟨false, false, false, 0, 0⟩
def Matrix.reset : Matrix := ⟨WReg.reset, WReg.reset, [], [], [], [], 0, 0, 0, none, PanelRec.reset, 0⟩
def VPtr.reset : VPtr := ⟨0, 0, 0⟩
def Ctx.reset : Ctx := ⟨none, [], false⟩
def VecRec.reset : VecRec := ⟨false, false, 0, 0, 0, 0, 0⟩
def VecEng.reset : VecEng := ⟨[], [], [], [], 0, 0, [], none, none, VecRec.reset, [], none, [], false, []⟩
def XPtr.reset : XPtr := ⟨0, 0, 0⟩
def Seqr.reset : Seqr := ⟨false, 0, 0, 0, [], none, none, 0, 0, [], 0⟩
def Tile.reset : Tile :=
  ⟨Matrix.reset, VecEng.reset, [], [], [], [], [], [], [], 0, Seqr.reset, [], false, 0, []⟩
def AccE.reset : AccE := ⟨0, false⟩
def AccWord.reset : AccWord := ⟨⟨0, 0⟩, 0⟩
def AccRow.reset : AccRow := ⟨.untyped, 0⟩
def SlotCnt.reset : SlotCnt := ⟨0, 0, 0, 0, 0, 0, 0, 0, false, false, 0⟩
def Ledger.reset : Ledger := ⟨[], [], [], []⟩
def StepCtl.reset : StepCtl :=
  ⟨0, 0, 0, none, none, none, false, false, false, false, [], [], false, 0, []⟩
def Sched.reset : Sched := ⟨[], none, [], none, none, 0, none, 0, 0, [], 0, false⟩
def Loader.reset : Loader := ⟨[], none, none⟩
def ChanSt.reset : ChanSt := ⟨0, 0, 0, 0, 0, 0, [], [], [], [], [], false⟩
def Engine.reset : Engine := ⟨[], []⟩
def DispUnit.reset : DispUnit := ⟨0, 0, false, [], [], [], [], [], [], [], false⟩
def TierEng.reset : TierEng := ⟨0, none, 0⟩
def MemSys.reset : MemSys := ⟨[], [], [], [], [], [], [], [], [], [], []⟩
def Coh.reset : Coh := ⟨[], [], [], [], [], [], [], [], [], [], [], [], false, [], [], [], [], 0, []⟩
def PortSt.reset : PortSt :=
  ⟨[], [], [], [], [], [], 0, 0, 0, none, none, 0, [], [], 0, [], 0, none, none, false, false, 0, 0, false⟩
def Partner.reset : Partner := ⟨false, 0, 0, 0, 0⟩
def Links.reset : Links := ⟨[], [], [], []⟩
def QueueSt.reset : QueueSt :=
  ⟨0, false, 0, [], 0, 0, [], false, false, false, false, false, false, 0, []⟩
def PciFn.reset : PciFn := ⟨[], false, false⟩
def HostUnit.reset : HostUnit :=
  ⟨[], [], [], 0, false, false, 63, 0, false, 0, [], [], false, false, PciFn.reset, PciFn.reset⟩
def Secure.reset : Secure := ⟨[], none, none, none, none, none, 0, 0, 0, [], [], 0, [], [], 0, 0⟩
def Aon.reset : Aon := ⟨false, 0, 0, 0, [], [], [], [], [], [], [], []⟩
def Power.reset : Power := ⟨none, [], [], [], [], none, [], false, Aon.reset⟩
def Can.reset : Can := ⟨.preOp, false, false, false, none⟩
def Cfg.reset : Cfg := ⟨none, false, 0, 0, false, false, none, none, 0⟩
def Wear.reset : Wear := ⟨[], [], [], [], [], []⟩
def Boot.reset : Boot :=
  ⟨0, false, false, false, none, [], [], [], [], [], [], false, false, [], false, 0, 0, 0, []⟩
def Supply.reset : Supply := ⟨0, false, false, [], [], false, false, false, false, false, [], .bypass⟩
def Events.reset : Events := ⟨[], [], 0, 0, false, [], [], []⟩

/-- n equal entries of an array, from its first key. -/
def arr (key n v : Nat) : SMap Nat := (List.range n).map fun i => (key + i, v)

/-- The objects whose value at power-up is not 0 (the Default columns; R386), in ascending key. -/
def dictReset : SMap Nat :=
  [(O.deviceName, 0x34324C32314834432D31414F54), (O.producerHeartbeatMs, 100), (O.identityCount, 0x4), (O.vendorId, 0x3C7)] ++
  [(O.productCode, 0x54A1), (O.revisionNumber, 0x20000), (O.serialNumber, 1), (O.canNodeId, 0x7F)] ++
  [(O.canBitrate, 0x11), (O.gliwaebVersion, 0x100)] ++
  arr (O.supplyState + 18) 3 4 ++
  [(O.thermalWarnC, 100), (O.thermalTripC, 115), (O.stackWarnC, 90), (O.stackTripC, 105)] ++
  [(O.aclkDivisor, 4), (O.aclkDivisorActive, 4), (O.opHoldBeats, 65536)] ++
  ((List.range 12).map fun i => (O.vddOpMv + i, if i % 3 = 0 then 800 else if i % 3 = 1 then 720 else 700)) ++
  arr O.wakeSlewAPerUs 9 50 ++
  arr O.wakeStepMaxA 9 100 ++
  [(O.wakeSourceEnable, 0x3), (O.bootWatchdogS, 30), (O.osVerify, 1), (O.wearEnable, 1)] ++
  [(O.wearStepDays, 4), (O.spareLeadDays, 90), (O.wearAuto, 1), (O.packageEolDays, 65535)] ++
  arr O.kindEolDays 8 65535 ++
  [(O.wearEolDays, 65535), (O.periodIntervalMs, 1000), (O.spareMapCount, 0x10)] ++
  arr O.spareCol 16 12 ++
  [(O.tileStateCount, 0xD0)] ++
  ((List.range 16).map fun i => (O.tileState + 13 * i + 12, 1)) ++
  [(O.dummyFloor, 24), (O.rampStep, 1), (O.rampInterval, 64), (O.gapThreshold, 4096)] ++
  [(O.zeroGateEnable, 1), (O.vectorFlagCount, 0xC0), (O.vdescEntries, 64), (O.phraseEntries, 32)] ++
  [(O.drainQueueRows, 32), (O.logicalPosition, 0xFFFF), (O.domainPhysId, 0xFFFF), (O.timeParentPort, 0xFF)] ++
  [(O.voidLimit, 16), (O.stepBlockBase, 0xE0FF000000)] ++
  arr O.holdCapacity 2 33554432 ++
  [(O.hbmStacks, 12), (O.lpddrDevices, 24), (O.scrubPeriodHours, 24), (O.scrubEnable, 1)] ++
  [(O.sidebandThreshold, 4096), (O.repairThreshold, 8), (O.dirEntries, 4194304)] ++
  arr O.dirSpareWay 4 16 ++
  [(O.homeTimeoutUs, 10)] ++
  arr O.spareCore 4 16 ++
  ((List.range 68).map fun i => (O.coreState + i, if i % 17 = 16 then 2 else 1)) ++
  arr O.spareInUse 12 0xFF ++
  [(O.spareThresholdMv, 12), (O.linkRetrainLimitUs, 2000)] ++
  arr O.linkNeighbour 12 0xFFFFFFFF ++
  [(O.cmdWindowBase, 0x10000000000), (O.ingestWindowBase, 0x10100000000), (O.sessionHoldS, 3600), (O.queueConsumer, 1)] ++
  ((List.range 64).map fun q => (O.msixVector + 256 * q, 0xFF)) ++
  [(O.lossBoundSteps, 2000), (O.failureWindowH, 168), (O.gatherMs, 50), (O.deadDetectUs, 50)] ++
  [(O.saveStallS, 60), (O.securingIntervalSteps, 1), (O.eventLogCapacity, 4096)] ++
  [(O.escMask + 2, 7), (O.escMask + 3, 7), (O.escMask + 4, 15), (O.escMask + 5, 15)] ++
  [(O.eventMsixVector, 0xFF)]

/-- The shadow copies at power-up: those of the RWS objects (R390). -/
def shadowReset : SMap Nat :=
  dictReset.filter fun e => match objAt e.1 with
    | some o => decide (o.acc = .rws)
    | none => false

def Dict.reset : Dict := ⟨dictReset, shadowReset, [], []⟩

def Pkg.reset : Pkg where
  mtime := 0
  dict := Dict.reset
  mem := []
  eccPins := []
  checkBytes := []
  sramChk := []
  tiles := []
  flits := []
  qualified := []
  testFailed := []
  retired := []
  testPrev := []
  ledger := Ledger.reset
  stepc := StepCtl.reset
  sched := Sched.reset
  loader := Loader.reset
  engines := []
  disp := []
  tiers := []
  place := []
  memsys := MemSys.reset
  coh := Coh.reset
  links := Links.reset
  host := HostUnit.reset
  secure := Secure.reset
  power := Power.reset
  can := Can.reset
  cfg := Cfg.reset
  wear := Wear.reset
  boot := Boot.reset
  supply := Supply.reset
  ev := Events.reset
  failed := false
  free := 0
  out := []

/-- The machine right after reset: nothing waits, every unit at its reset value, both fault lands high, the others as the state drives
them. -/
def State.reset : State := ⟨[], Pkg.reset, ⟨true, true, none, false, false, false⟩⟩

end Sys2Proof.Machine
end

