-- ==== Sys2Proof/Machine/WordCode.lean ====
section
/-! DEFINITION. Machine/WordCode.lean: the Toari word code, a (144,128) code over GF(16) (R246 to R248). -/
namespace Sys2Proof.Machine

/-- Multiplication by α in GF(16), α⁴ = α + 1. -/
def gfDouble (x : BitVec 4) : BitVec 4 := (x <<< 1) ^^^ (if x.msb then 3 else 0)

/-- The product in GF(16). -/
def gfMul (x y : BitVec 4) : BitVec 4 :=
  (if y.getLsbD 0 then x else 0) ^^^ (if y.getLsbD 1 then gfDouble x else 0) ^^^
  (if y.getLsbD 2 then gfDouble (gfDouble x) else 0) ^^^
  (if y.getLsbD 3 then gfDouble (gfDouble (gfDouble x)) else 0)

/-- f(x, y) = x² + x·y + α³·y² (R246). -/
def gfForm (x y : BitVec 4) : BitVec 4 := gfMul x x ^^^ gfMul x y ^^^ gfMul 8 (gfMul y y)

/-- A column or a syndrome: (s0, s1, s2, s3). -/
abbrev Synd := BitVec 4 × BitVec 4 × BitVec 4 × BitVec 4

/-- The column of symbol i: data 0 to 31, then c0 to c3. -/
def column (i : Nat) : Synd :=
  if i < 16 then (1, gfForm (BitVec.ofNat 4 i) 2, BitVec.ofNat 4 i, 2)
  else if i < 32 then (1, gfForm (BitVec.ofNat 4 i) 3, BitVec.ofNat 4 i, 3)
  else if i = 32 then (1, 0, 0, 0)
  else if i = 33 then (0, 1, 0, 0)
  else if i = 34 then (1, 1, 1, 0)
  else (1, 8, 0, 1)

def syndAdd (a b : Synd) : Synd := (a.1 ^^^ b.1, a.2.1 ^^^ b.2.1, a.2.2.1 ^^^ b.2.2.1, a.2.2.2 ^^^ b.2.2.2)
def syndScale (k : BitVec 4) (a : Synd) : Synd := (gfMul k a.1, gfMul k a.2.1, gfMul k a.2.2.1, gfMul k a.2.2.2)

/-- Data symbol i (R246). -/
def dataSym (d : W128) (i : Nat) : BitVec 4 := d.extractLsb' (4 * i) 4

/-- The sum over the data symbols. -/
def dataSynd (d : W128) : Synd :=
  (List.range 32).foldl (fun s i => syndAdd s (syndScale (dataSym d i) (column i))) (0, 0, 0, 0)

/-- The check bits that make S = 0: c3 from s3, c2 from s2, then c1 and c0. -/
def checkBits (d : W128) : BitVec 16 :=
  let s := dataSynd d
  let c3 := s.2.2.2
  let c2 := s.2.2.1
  let c1 := s.2.1 ^^^ c2 ^^^ gfMul 8 c3
  let c0 := s.1 ^^^ c2 ^^^ c3
  (c3 ++ c2 ++ c1 ++ c0 : BitVec 16)

/-- The syndrome of a stored word. -/
def syndrome (w : PWord) : Synd :=
  (List.range 4).foldl
    (fun s i => syndAdd s (syndScale (w.chk.extractLsb' (4 * i) 4) (column (32 + i)))) (dataSynd w.data)

/-- The syndrome as the 16 bits of last_uncorrectable_syndrome: s3 on top (R257). -/
def syndBits (s : Synd) : BitVec 16 := (s.2.2.2 ++ s.2.2.1 ++ s.2.1 ++ s.1 : BitVec 16)

/-- The outcome of a check (R247): clean, poison, corrected (with the symbol), or uncorrectable. -/
inductive Checked where
  | clean
  | poison
  | corrected (w : PWord) (sym : Nat)
  | bad
  deriving DecidableEq, Repr

/-- The word with e added to symbol i. -/
def addSym (w : PWord) (i : Nat) (e : BitVec 4) : PWord :=
  if i < 32 then { w with data := w.data ^^^ ((e.zeroExtend 128) <<< (4 * i)) }
  else { w with chk := w.chk ^^^ ((e.zeroExtend 16) <<< (4 * (i - 32))) }

/-- R247. -/
def checkWord (w : PWord) : Checked :=
  let s := syndrome w
  if s = (0, 0, 0, 0) then .clean
  else if s = (0, 0xE, 0xF, 0xF) then .poison
  else if s.1 ≠ 0 then
    match (List.range 36).find? (fun i => decide ((column i).1 = 1 ∧ syndScale s.1 (column i) = s)) with
    | some i => .corrected (addSym w i s.1) i
    | none => .bad
  else if s.2.2.1 = 0 ∧ s.2.2.2 = 0 then .corrected (addSym w 33 s.2.1) 33
  else .bad

/-- The poison pattern (R248). -/
def poisonWord : PWord := ⟨0, 0xFF00⟩

/-- A word with its check bits. -/
def goodWord (d : W128) : PWord := ⟨d, checkBits d⟩

/-- The zero codeword. -/
def zeroWord : PWord := ⟨0, 0⟩

/-- The word as a reader gets it: the corrected data, or none for poison (R249). -/
def readWord (w : PWord) : Option W128 :=
  match checkWord w with
  | .clean => some w.data
  | .corrected v _ => some v.data
  | _ => none

/-- The word a writer stores for data or for poison (R249). -/
def packWord : Option W128 → PWord
  | some d => goodWord d
  | none => poisonWord

end Sys2Proof.Machine
end

