-- ==== Sys2Proof/Machine/LinkBits.lean ====
section
/-! DEFINITION. Machine/LinkBits.lean: what goes over a lane: the payload records of class-0 messages (R170, R294, R349), the 80 bytes
of a link flit and its header (R288, R289), and the symbols of a codeword on the lanes (R286, R288, R297). -/
namespace Sys2Proof.Machine

/-! ## Payload records of class 0 (R170, R294, R349) -/

/-- The most failed positions, and remap entries, that a plan's 64 bytes hold (log 82). -/
abbrev planMax : Nat := 8

/-- The payload of a recovery plan: origin sequence, case, the two counts, positions, entries, and the last word (log 82). -/
def planBytes (seq : Nat) (l : List Nat) : List Byte :=
  let n := l.getD 1 0
  let m := l.getD (2 + n) 0
  toLe 4 seq ++ toLe 1 (l.getD 0 0) ++ toLe 1 (min n planMax) ++ toLe 1 (min m planMax) ++ toLe 1 0 ++
    ((List.range planMax).flatMap fun i => toLe 2 (if i < n then l.getD (2 + i) 0 else 0)) ++
    ((List.range (2 * planMax)).flatMap fun i => toLe 2 (if i < 2 * m then l.getD (3 + n + i) 0 else 0)) ++
    toLe 8 (l.getD (3 + n + 2 * m) 0)

/-- A little-endian number of k bytes at offset o. -/
def numAt (b : List Byte) (o k : Nat) : Nat := leNat ((b.drop o).take k)

def planFields (b : List Byte) : List Nat :=
  let n := min (numAt b 5 1) planMax
  let m := min (numAt b 6 1) planMax
  [numAt b 4 1, n] ++ ((List.range n).map fun i => numAt b (8 + 2 * i) 2) ++ [m] ++
    ((List.range (2 * m)).map fun i => numAt b (24 + 2 * i) 2) ++ [numAt b 56 8]

/-- The fields of a vote record: their offsets and sizes in its 32 bytes (R170). -/
def voteLayout : List (Nat × Nat) := [(0, 8), (8, 2), (10, 1), (11, 1), (12, 4), (16, 8), (24, 4)]

/-- The 64 payload bytes of a class-0 message: a vote record as R170 lays it out; any other type its origin sequence in bytes 0 to 3
(R294), then its fields (log 82). -/
def msgPayload (type seq : Nat) (l : List Nat) : List Byte :=
  if type = 0x02 then
    ((List.range 7).flatMap fun i => toLe ((voteLayout.getD i (0, 0)).2) (l.getD i 0)) ++ toLe 36 0
  else if type = 0x22 then planBytes seq l
  else toLe 4 seq ++ toLe 4 0 ++ (List.range 7).flatMap fun i => toLe 8 (l.getD i 0)

/-- The origin sequence and the fields that a payload holds. -/
def payloadSeq (type : Nat) (b : List Byte) : Nat := if type = 0x02 then 0 else numAt b 0 4

def payloadFields (type : Nat) (b : List Byte) : List Nat :=
  if type = 0x02 then voteLayout.map fun e => numAt b e.1 e.2
  else if type = 0x22 then planFields b
  else (List.range 7).map fun i => numAt b (8 + 8 * i) 8

/-! ## Link flits (R288, R289) -/

/-- The words of a payload: none where poisoned. -/
def flitWords (payload : List Byte) (poison : List Bool) : List (Option W128) :=
  (List.range 4).map fun i =>
    if poison.getD i false then none else some (BitVec.ofNat 128 (leNat ((payload.drop (16 * i)).take 16)))

/-- The payload bytes of four words. -/
def wordsPayload (ws : List (Option W128)) : List Byte := ws.flatMap fun w => toLe 16 (w.getD 0).toNat

/-- The 64 header bits of a flit (R289); an identifier stands by its low 12 bits, also the unassigned 0xFFFF (log 82). -/
def headerBits (f : LinkFlit) : Nat :=
  fld f.cls 62 + fld f.vc 61 + fld (b2n f.copy) 60 + fld (f.dst % 4096) 48 + fld (f.src % 4096) 36 + fld (f.seq % 1024) 26 +
    f.target % 2 ^ 26

/-- The 80 bytes of a flit (R288): header, four words, and their check bits, poison in its pattern. -/
def flitBytes (f : LinkFlit) : List Byte :=
  let ws := (flitWords f.payload f.poison).map packWord
  toLe 8 (headerBits f) ++ ws.flatMap (fun w => toLe 16 w.data.toNat) ++ ws.flatMap fun w => toLe 2 w.chk.toNat

/-- A flit read from its 80 bytes, its words through the word code; `win` is the window that goes beside it (log 20). -/
def readFlit (b : List Byte) (win : Nat) : LinkFlit :=
  let h := numAt b 0 8
  let ws := (List.range 4).map fun i =>
    readWord ⟨BitVec.ofNat 128 (numAt b (8 + 16 * i) 16), BitVec.ofNat 16 (numAt b (72 + 2 * i) 2)⟩
  ⟨bits h 63 62, bits h 61 61, bitOf h 60, bits h 59 48, bits h 47 36, bits h 35 26, bits h 25 0, wordsPayload ws,
    ws.map fun w => w.isNone, none, win⟩

/-- The eight flits of a codeword's 640 payload bytes. -/
def readFlits (b : List Byte) (wins : List Nat) : List LinkFlit :=
  (List.range 8).map fun i => readFlit ((b.drop (80 * i)).take 80) (wins.getD i 0)

/-- The flit of a class-0 message (R289, R294). -/
def c0Flit (m : C0Msg) (copy : Bool) (seq : Nat) : LinkFlit :=
  ⟨0, 0, copy, m.dst, m.src, seq % 1024, m.type * 2 ^ 18, msgPayload m.type m.originSeq m.payload, [], none, 0⟩

/-- The message that a class-0 flit carries: what its header names and what its payload holds. -/
def msgOf (f : LinkFlit) : C0Msg :=
  let t := bits f.target 25 18
  ⟨t, f.src, f.dst, payloadSeq t f.payload, payloadFields t f.payload⟩

/-! ## Codewords and lanes (R286, R288, R297) -/

/-- The 5,140 message bits of 640 payload bytes: 20 blocks of a 0 bit and 256 payload bits. The first bit is the lowest (log 82). -/
def messageBits (b : List Byte) : Nat :=
  (List.range 20).foldl (fun n k => n + 2 * numAt b (32 * k) 32 * 2 ^ (257 * k)) 0

/-- The 544 symbols: 514 of the message, 30 check symbols (log 82). -/
def codeSymbols (b : List Byte) : List Nat :=
  let m := messageBits b
  let d := (List.range 514).map fun i => bits m (10 * i + 9) (10 * i)
  d ++ (List.range 30).map fun i => (Config.rsCheck d i).toNat

/-- The symbols of lane l of the map: symbol i is on lane i mod 8. -/
def laneOf (syms : List Nat) (l : Nat) : List Nat := (List.range 68).map fun k => syms.getD (8 * k + l) 0

/-- The nine lanes of a codeword: with a lane replaced, lane 8 carries its symbols and it carries none; in training, lane 8 carries a
copy (R297). -/
def laneSymbols (use copy : Option Nat) (syms : List Nat) : List (List Nat) :=
  ((List.range 8).map fun l => if use = some l then [] else laneOf syms l) ++
    [match use, copy with
      | some l, _ => laneOf syms l
      | none, some l => laneOf syms l
      | none, none => []]

end Sys2Proof.Machine
end

