-- ==== Sys2Proof/Machine/Ops.lean ====
section
/-! DEFINITION. Machine/Ops.lean: the named operations every meaning uses: dictionary registers and counters,
raising an event (R461, R467), flooding a class-0 message (R294), declaring the package failed (R350), refusing a
dictionary write (R385), and running a command on the package (R438). A block has no exception entry: an event, a
refusal or a failed package is the command's effect on the state. -/
namespace Sys2Proof.Machine

/-! ## Registers and counters of the dictionary -/

/-- The active or only copy of an object (R390). -/
def Pkg.reg (p : Pkg) (k : Nat) : Nat := p.dict.act.at 0 k

/-- The shadow copy of an RWS object (R390). -/
def Pkg.shadowReg (p : Pkg) (k : Nat) : Nat := p.dict.shadow.at 0 k

/-- Write the active or only copy. -/
def Pkg.setReg (p : Pkg) (k v : Nat) : Pkg := { p with dict := { p.dict with act := p.dict.act.put 0 k v } }

/-- Write the shadow copy. -/
def Pkg.setShadow (p : Pkg) (k v : Nat) : Pkg :=
  { p with dict := { p.dict with shadow := p.dict.shadow.put 0 k v } }

/-- Advance a saturating 32-bit counter. -/
def Pkg.bump (p : Pkg) (k n : Nat) : Pkg := p.setReg k (satAdd 32 (p.reg k) n)

/-- Advance a saturating 16-bit counter. -/
def Pkg.bump16 (p : Pkg) (k n : Nat) : Pkg := p.setReg k (satAdd 16 (p.reg k) n)

/-- Advance a counter that wraps at 2^64. -/
def Pkg.bump64 (p : Pkg) (k n : Nat) : Pkg := p.setReg k (wrapAdd 64 (p.reg k) n)

/-- Advance an index that wraps at 2^32. -/
def Pkg.bump32w (p : Pkg) (k n : Nat) : Pkg := p.setReg k (wrapAdd 32 (p.reg k) n)

/-! ## Units of the package -/

def Pkg.tile (p : Pkg) (t : Nat) : Tile := p.tiles.at Tile.reset t
def Pkg.setTile (p : Pkg) (t : Nat) (x : Tile) : Pkg := { p with tiles := p.tiles.put Tile.reset t x }
def Pkg.emit (p : Pkg) (o : Out) : Pkg := { p with out := p.out ++ [o] }
def Pkg.port (p : Pkg) (i : Nat) : PortSt := p.links.ports.at PortSt.reset i
def Pkg.setPort (p : Pkg) (i : Nat) (x : PortSt) : Pkg :=
  { p with links := { p.links with ports := p.links.ports.put PortSt.reset i x } }
def Pkg.queue (p : Pkg) (q : Nat) : QueueSt := p.host.queues.at QueueSt.reset q
def Pkg.setQueue (p : Pkg) (q : Nat) (x : QueueSt) : Pkg :=
  { p with host := { p.host with queues := p.host.queues.put QueueSt.reset q x } }

/-- The next free value (log 3): the model's own counter advances. -/
def Pkg.fresh (p : Pkg) : W64 × Pkg := (Config.freeWord p.free, { p with free := p.free + 1 })

/-! ## The mapping of logical tiles and harts (R30, R259) -/

/-- The physical tile of logical tile n under the active spare_col. -/
def Pkg.physTile (p : Pkg) (n : Nat) : Nat :=
  let ly := n / 24
  let lxx := n % 24
  let d := lxx / 12 + 2 * (ly / 4)
  let y := ly % 4
  let lx := lxx % 12
  let sp := p.reg (O.spareCol + 4 * d + y)
  d * 52 + y * 13 + (if lx < sp then lx else lx + 1)

/-- The logical tile of physical tile q, or 0xFF for a held-out tile (R30, R58). -/
def Pkg.logicalTile (p : Pkg) (q : Nat) : Nat :=
  let d := q / 52
  let y := q % 52 / 13
  let x := q % 13
  let sp := p.reg (O.spareCol + 4 * d + y)
  if x = sp then 0xFF
  else (y + 4 * (d / 2)) * 24 + (if x < sp then x else x - 1) + 12 * (d % 2)

/-- The hart of physical core c, or 0xFF for a held-out core (R259). -/
def Pkg.hartOf (p : Pkg) (c : Nat) : Nat :=
  let sp := p.reg (O.spareCore + c / 17)
  if c % 17 = sp then 0xFF else c / 17 * 16 + (if c % 17 < sp then c % 17 else c % 17 - 1)

/-- The key of a per-tile 64-bit counter k at a base index (R58, R129) for logical tile n. -/
def Pkg.tileCounter (p : Pkg) (base k n : Nat) : Nat :=
  let q := p.physTile n
  base + 256 * (4 * k + q / 52) + 2 * (q % 52)

/-! ## Events -/

/-- The severity of an event code (R467). -/
def severity (c : Nat) : Nat :=
  if c ∈ [0x2204, 0x2205, 0x2207, 0x220D, 0x2401, 0x2408, 0x2604, 0x3003, 0x3601, 0x3602, 0x3801, 0x3803, 0x3804,
      0x3805, 0x380E, 0x3A01, 0x3A05, 0x3C03, 0x3C08, 0x4005, 0x4007, 0x4404, 0x4602, 0x460B, 0x4801, 0x4802,
      0x4804] then 0
  else if c ∈ [0x1001, 0x1002, 0x2108, 0x210B, 0x210C, 0x2208, 0x2209, 0x2404, 0x2405, 0x240A, 0x240C, 0x240D,
      0x240E, 0x2605, 0x2608, 0x2609, 0x3401, 0x3404, 0x3405, 0x3502, 0x3809, 0x3905, 0x3906, 0x3907, 0x3A03,
      0x3A08, 0x3C05, 0x4008, 0x400C, 0x4208, 0x4402, 0x4406, 0x4408, 0x440A, 0x440C, 0x4601, 0x4603, 0x4605,
      0x4607, 0x4608, 0x460A, 0x460C, 0x460F, 0x4803, 0x480A, 0x480C, 0x480E, 0x480F, 0x5001] then 2
  else if c ∈ [0x3004, 0x3005, 0x3008, 0x3605, 0x3901, 0x3A04, 0x3C01, 0x3C0A, 0x4002, 0x4003, 0x4201, 0x4203,
      0x4204, 0x4303, 0x4403, 0x460E, 0x4805, 0x4807, 0x4808, 0x480B] then 3
  else if c ∈ [0x2101, 0x2102, 0x2103, 0x2104, 0x2106, 0x2107, 0x2109, 0x220B, 0x2402, 0x2403, 0x2407, 0x240B,
      0x2606, 0x3807, 0x3808, 0x380D, 0x3A07, 0x400A, 0x4407] then 4
  else if c ∈ [0x3902, 0x3904, 0x4809] then 5
  else 1

/-- Raise an event: its record starts on its way to the management core, timed when raised (R461, R462). -/
def Pkg.raise (p : Pkg) (code unit arg : Nat) : Pkg :=
  let r : EvRec := ⟨code, severity code, unit, p.mtime / 128 % 2 ^ 48, arg % 2 ^ 48⟩
  { p with ev := { p.ev with inFlight := p.ev.inFlight ++ [r] } }

/-- No unit (R461). -/
abbrev noUnit : Nat := 0xFF

/-! ## Class-0 messages (R289, R293, R294) -/

/-- Queue a class-0 message at every up port but `skip` (R294). -/
def Pkg.c0Send (p : Pkg) (m : C0Msg) (skip : Nat) : Pkg :=
  (List.range 12).foldl (fun q i =>
    if i ≠ skip ∧ q.reg (O.portState + i) = 2 then
      let x := q.port i
      q.setPort i { x with tx0 := x.tx0 ++ [c0Flit m false x.c0Tx], c0Tx := (x.c0Tx + 1) % 1024 }
    else q) p

/-- Originate a flood, or a directed message where dst is a physical identifier: the next origin sequence (R294). -/
def Pkg.flood (p : Pkg) (type dst : Nat) (payload : List Nat) : Pkg :=
  let n := (p.sched.originSeq + 1) % 2 ^ 32
  let m : C0Msg := ⟨type, p.reg O.domainPhysId, dst, n, payload⟩
  (({ p with sched := { p.sched with originSeq := n } }).emit (.class0 m)).c0Send m 12

/-- R171: a record of this package goes to every neighbour: no flood, so it takes no origin sequence. -/
def Pkg.sendVote (p : Pkg) (payload : List Nat) : Pkg :=
  let m : C0Msg := ⟨0x02, p.reg O.domainPhysId, 0, 0, payload⟩
  (p.emit (.class0 m)).c0Send m 12

/-- Stop every clause sequencer. -/
def Pkg.stopTiles (p : Pkg) : Pkg :=
  { p with tiles := p.tiles.mapVals Tile.reset fun x => { x with seq := { x.seq with running := false, hold := none } } }

/-- Set or clear a bit of error_register (R407). -/
def Pkg.setErrBit (p : Pkg) (i : Nat) (b : Bool) : Pkg :=
  let v := p.reg O.errorRegister
  if bitOf v i = b then p else p.setReg O.errorRegister (if b then v + 2 ^ i else v - 2 ^ i)

/-- R350, R468: the package declares itself failed: failure notice type 0x21 naming itself with event 0x4805,
error_register bit 0, and it stops. A package already failed does nothing more. -/
def Pkg.declareFailed (p : Pkg) : Pkg :=
  if p.failed then p
  else
    let pos := p.reg O.logicalPosition
    ((((p.flood 0x21 0 [pos, pos, p.reg O.domainBeat]).raise 0x4805 noUnit 0).setErrBit 0 true).stopTiles
      |> fun q => { q with failed := true })

/-! ## Refusals of dictionary writes (R385, R397) -/

/-- Abort codes of R385. -/
abbrev abAbsent : Nat := 0x06020000
abbrev abSub : Nat := 0x06090011
abbrev abRo : Nat := 0x06010002
abbrev abLen : Nat := 0x06070010
abbrev abRange : Nat := 0x06090030
abbrev abOwner : Nat := 0x08000020
abbrev abState : Nat := 0x08000022
abbrev abSegment : Nat := 0x05040000

/-- The BAR0 offset of a key (R13). -/
def barOffset (k : Nat) : Nat := k / 256 * 0x400 + k % 256 * 4

/-- R385: a refused write changes nothing but dict_last_error and dict_last_abort, and raises 0x4609 on path 1 and
0x2601 on paths 2 and 3; on path 3 the USDO transfer aborts with the code. -/
def Pkg.refuse (p : Pkg) (path : Path) (k abort : Nat) : Pkg :=
  let q := (p.setReg O.dictLastError (path.num * 2 ^ 30 + k)).setReg O.dictLastAbort abort
  match path with
  | .hostBar => q.raise 0x4609 noUnit (barOffset k)
  | .core => q.raise 0x2601 noUnit 0
  | .canFd => (q.raise 0x2601 noUnit 0).emit (.usdoAbort abort)

/-- R383, R385: a write of v to object k on a path: refused where no object is there or v leaves its range. -/
def Pkg.objWrite (p : Pkg) (pt : Path) (k v : Nat) (f : Pkg → Pkg) : Pkg :=
  match objAt k with
  | none => p.refuse pt k abAbsent
  | some o => if v < o.lo ∨ o.hi < v then p.refuse pt k abRange else f p

/-- What R397 makes of a write of v to an owner field that holds `cur`. -/
inductive Claim where
  | take
  | keep
  | release
  | refuse
  deriving DecidableEq, Repr

def claimOf (cur v : Nat) : Claim :=
  if v = 0 then .release else if cur = 0 then .take else if cur = v then .keep else .refuse

/-- A write to an owner field by a path or by a unit (R397): a claim, a release, or a refusal with the resource's
own event. -/
def Pkg.ownerWrite (p : Pkg) (w : Writer) (k v event unit : Nat) : Pkg :=
  match claimOf (p.reg k) v with
  | .take => p.setReg k v
  | .keep => p
  | .release => p.setReg k 0
  | .refuse =>
    match w with
    | .path pt => (p.refuse pt k abOwner).raise event unit v
    | .unit => p.raise event unit v

/-! ## Running a command on the package -/

/-- A regulator control land is high while a supply that it controls is commanded on (R440, R446, log 85). -/
def Pkg.vrCtl (p : Pkg) (l : List Nat) : Bool :=
  l.any fun s => decide (p.reg (O.supplyState + s) = 1 ∨ p.reg (O.supplyState + s) = 2)

/-- The lands the package drives: FAULT_N is low exactly while bit 0 of error_register is 1 (R438), THERMTRIP_N
while a trip stands (R458). TDO drives nothing: RESET_N is high, or no shift is under way (R455). XSPI_WP_N is high where
flash_wp_mode holds it so (R459). -/
def landsOf (p : Pkg) : Lands :=
  ⟨!bitOf (p.reg O.errorRegister) 0, !p.supply.tripped, none, decide (p.reg O.flashWpMode = 1),
    p.vrCtl [0, 1, 2, 3, 4, 5, 6, 14, 15, 16, 17], p.vrCtl [7, 8, 9, 10, 11, 12, 13]⟩

/-- The state with package p: the queue untouched, the lands driven anew. -/
def State.settle (s : State) (p : Pkg) : State := { s with pkg := p, lands := landsOf p }

/-- A command whose effect is f on the package. -/
def State.go (s : State) (f : Pkg → Pkg) : Host.Outcome State Fault Refusal := .next (s.settle (f s.pkg))

/-! ## The planes (R20, R22, R25) -/

/-- The planes of R20, the neighbour links of the data plane, whose last flits a failed package still sends, and the always-on part
of the management plane. -/
inductive Plane where
  | data | link | control | management | always
  deriving DecidableEq, Repr

/-- R20, R22, R25, R362, R450: whether a plane runs: the data plane in PS0 only, the control plane in PS0 to PS2, the
management plane in PS0 to PS3 and its always-on part in PS4; none while REFCLK is absent; the data plane not while the package is failed (R350), and
neither it nor its links without the root PLL. -/
def Pkg.runs (p : Pkg) (pl : Plane) : Bool :=
  !p.supply.refclkAbsent &&
  match pl with
  | .data => decide (p.reg O.psCurrent = 0) && !p.supply.rootLost && !p.failed
  | .link => decide (p.reg O.psCurrent = 0) && !p.supply.rootLost
  | .control => decide (p.reg O.psCurrent ≤ 2)
  | .management => decide (p.reg O.psCurrent ≤ 3)
  | .always => true

/-- The plane over which a dictionary path reaches the package: ports and cores are of the control plane, CAN FD of the
management plane (R20, R382). -/
def pathPlane : Path → Plane
  | .canFd => .management
  | _ => .control

/-- The plane of an owner field's writer: a unit claims from the management plane. -/
def writerPlane : Writer → Plane
  | .path pt => pathPlane pt
  | .unit => .management

/-- A command of a plane: it has its effect where the plane runs, and none where it does not. -/
def State.on (s : State) (pl : Plane) (f : Pkg → Pkg) : Host.Outcome State Fault Refusal :=
  s.go fun p => if p.runs pl then f p else p

/-- R463: the management core is stopped: in PS4, or in a power-on sequence before boot step 7. -/
def Pkg.coreStopped (p : Pkg) : Bool :=
  decide (p.reg O.psCurrent = 4 ∨
    (bitOf (p.reg O.resetCause) 0 ∧ (p.reg O.bootState = 0 ∨ p.reg O.bootState = 4) ∧ p.boot.step < 7))

/-- R463: the management core starts: the records of the always-on tail block go on to it, ahead of those on their way (log 86). -/
def Pkg.takeTail (p : Pkg) : Pkg :=
  { p with ev := { p.ev with tail := [], inFlight := p.ev.tail ++ p.ev.inFlight } }

/-- The step of an empty queue: one tick of the 100 MHz reference passes (log 2). -/
def idle (s : State) : State := { s with pkg := { s.pkg with mtime := (s.pkg.mtime + 1) % 2 ^ 64 } }

/-- A slot command m: its effect where its fields hold no reserved encoding (R42, R98, R128, R136) and break no limit
or check of its descriptor (R42, R128, R139). The loader rejects every image that breaks either. -/
def State.slot (s : State) (m : String) (ok lim : Bool) (f : Pkg → Pkg) : Host.Outcome State Fault Refusal :=
  if ok then if lim then s.on .data f else .fault (.rejectedAtLoad m) else .fault (.reservedEncoding m)

/-- Whether tile t's bundle may issue: no wait, no refetch and no held slot of the bundle holds it (R132, R133). -/
def Tile.free (ti : Tile) : Bool :=
  ti.seq.hold.isNone && ti.seq.refetch.isNone && ti.mx.held.isNone && ti.vec.held.isNone

end Sys2Proof.Machine
end

