-- ==== Sys2Proof/Machine/Memory.lean ====
section
/-! DEFINITION. Machine/Memory.lean: the address map (R234 to R240), protected words in memory and tile SRAM, and
reads and writes through the word code with their counts (R247 to R253). -/
namespace Sys2Proof.Machine

/-- Memory in canonical form: addresses strictly rising, no entry equal to the 0 that an unlisted address reads as
(log 4). -/
def Memory.wf (m : List Host.Cell) : Bool := SMap.wf (0 : Byte) m

/-- One byte of memory or tile SRAM. -/
def Pkg.byte (p : Pkg) (a : Nat) : Byte := SMap.at 0 a p.mem

/-- Store one byte, keeping the canonical form. -/
def Memory.put (m : List Host.Cell) (a : Nat) (b : Byte) : List Host.Cell := SMap.put 0 a b m

/-- n bytes from address a. -/
def Pkg.bytes (p : Pkg) (a n : Nat) : List Byte := (List.range n).map fun i => p.byte (a + i)

/-- Store bytes from address a upward. -/
def Memory.putAll (m : List Host.Cell) (a : Nat) : List Byte → List Host.Cell
  | [] => m
  | b :: r => Memory.putAll (Memory.put m a b) (a + 1) r

/-! ## The address map -/

/-- What R234 and R34 place at an address. -/
inductive Region where
  | hbm
  | lpddr
  | tileSram
  | tileReserved
  | control
  | reserved
  deriving DecidableEq, Repr

abbrev lpddrBase : Nat := 0x010000000000
abbrev tileBase : Nat := 0x0E0000000000
abbrev tileSize : Nat := 0x00800000
abbrev controlBase : Nat := 0x0F0000000000

/-- R234, R34. -/
def regionOf (a : Nat) : Region :=
  if a < 0x00E100000000 then .hbm
  else if a < lpddrBase then .reserved
  else if a < 0x040000000000 then .lpddr
  else if a < tileBase then .reserved
  else if a < tileBase + 192 * tileSize then .tileSram
  else if a < controlBase then .tileReserved
  else if a < 0x100000000000 then .control
  else .reserved

/-- Whether an address is memory of the memory-side dies. -/
def isMem (a : Nat) : Bool := decide (regionOf a = .hbm ∨ regionOf a = .lpddr)

/-- Whether a range of bytes lies within HBM3E, or within LPDDR5X. -/
def inMem (a n : Nat) : Bool :=
  isMem a && (n == 0 || (isMem (a + n - 1) && decide (regionOf a = regionOf (a + n - 1))))

/-- The tile SRAM address of byte offset off of logical tile n (R34). -/
def sramAddr (n off : Nat) : Nat := tileBase + n * tileSize + off

/-- Where an address lies in its stack or device (R237, R239). -/
structure Place where
  lpddr : Bool
  unit : Nat
  lane : Nat
  bank : Nat
  row : Nat
  byte : Nat
  deriving DecidableEq, Repr

/-- R237 and R239. -/
def placeOf (a : Nat) : Place :=
  if a < lpddrBase then
    let l := a / 64
    let s := l / 15
    let r := s / 384
    ⟨false, s % 12, s / 12 % 32, r % 64, r / 64, l % 15 * 64 + a % 64⟩
  else
    let b := a - lpddrBase
    let u := b / 512
    let q := u / 96
    let g := q / 32
    let t := q % 32
    ⟨true, u % 24, u / 24 % 4, g % 16, g / 16 * 9 + t / 4, t % 4 * 512 + b % 512⟩

/-- The set that an address belongs to (R237, R239), as one number over both tiers: its queue (R245). -/
def setOf (a : Nat) : Nat :=
  if a < lpddrBase then 2 * (a / 64 / 15) else 2 * ((a - lpddrBase) / 512) + 1

/-- The memory unit's event number: stack s, or 12 + device v (R461). -/
def Place.unitNo (q : Place) : Nat := if q.lpddr then 12 + q.unit else q.unit

/-- The memory-side die that owns the unit (R236). -/
def Place.die (q : Place) : Nat := if q.lpddr then q.unit / 6 else q.unit / 3

/-- The memory-side die that owns an address. -/
def dieOf (a : Nat) : Nat := (placeOf a).die

/-- The row or page that repair acts on. -/
def Place.rowId (q : Place) : RowId := ⟨q.unitNo, q.lane, q.bank, q.row⟩

/-- One number for a row or page. -/
def RowId.key (r : RowId) : Nat := ((r.unit * 32 + r.lane) * 64 + r.bank) * 2 ^ 21 + r.row

/-! ## Words and their check bits (R238 to R240, R250) -/

/-- R238: the check-line byte of the HBM3E word at a, with its place in the row, as one number: bits [15:8] of word w of data line j at
byte 4j + w of line 15. Bytes 60 to 63 of a check line are never written, so they hold 0. -/
def hbmCheckByte (a : Nat) : Nat := (placeOf a).rowId.key * 2048 + 960 + 4 * (a / 64 % 15) + a % 64 / 16

/-- R239, R240: the first check byte of the LPDDR5X word at a: check page (g ÷ 16) × 9 + 8, byte 64t + 8m + 2w. -/
def lpddrCheckByte (a : Nat) : Nat :=
  let q := placeOf a
  let b := a - lpddrBase
  let checkPage := q.row / 9 * 9 + 8
  { q.rowId with row := checkPage }.key * 2048 + 64 * (b / 512 / 96 % 32) + 8 * (b % 512 / 64) + 2 * (b % 64 / 16)

/-- The check bits of the word at a. -/
def Pkg.checkOf (p : Pkg) (a : Nat) : BitVec 16 :=
  match regionOf a with
  | .hbm => (SMap.at 0 (hbmCheckByte a) p.checkBytes) ++ (p.eccPins.at 0 (a / 16))
  | .lpddr => (SMap.at 0 (lpddrCheckByte a + 1) p.checkBytes) ++ (SMap.at 0 (lpddrCheckByte a) p.checkBytes)
  | _ => p.sramChk.at 0 (a / 16)

/-- Store check bits for the word at a. -/
def Pkg.setCheck (p : Pkg) (a : Nat) (c : BitVec 16) : Pkg :=
  let lo : Byte := c.setWidth 8
  let hi : Byte := (c >>> 8).setWidth 8
  match regionOf a with
  | .hbm => { p with eccPins := p.eccPins.put 0 (a / 16) lo, checkBytes := SMap.put 0 (hbmCheckByte a) hi p.checkBytes }
  | .lpddr => { p with checkBytes := SMap.put 0 (lpddrCheckByte a + 1) hi (SMap.put 0 (lpddrCheckByte a) lo p.checkBytes) }
  | _ => { p with sramChk := p.sramChk.put 0 (a / 16) c }

/-- The 128-bit word at address a, a multiple of 16, with its check bits. -/
def Pkg.word (p : Pkg) (a : Nat) : PWord := ⟨BitVec.ofNat 128 (leNat (p.bytes a 16)), p.checkOf a⟩

/-- Store a word with its check bits. -/
def Pkg.setWord (p : Pkg) (a : Nat) (w : PWord) : Pkg :=
  ({ p with mem := Memory.putAll p.mem a (toLe 16 w.data.toNat) }).setCheck a w.chk

def corrKey (q : Place) : Nat := if q.lpddr then O.lpddrCorrected + q.unit else O.hbmCorrected + q.unit
def uncorrKey (q : Place) : Nat := if q.lpddr then O.lpddrUncorrectable + q.unit else O.hbmUncorrectable + q.unit

/-! ## Counts of corrections and repair candidates (R251, R253) -/

/-- R253: list a row or page as a repair candidate, unless it is listed or the list of 256 is full. -/
def Pkg.addCandidate (p : Pkg) (q : Place) : Pkg :=
  let d := q.die
  let l := p.memsys.cands.at [] d
  if q.rowId ∈ l ∨ p.memsys.repairing.find d = some q.rowId then p
  else if l.length ≥ 256 then p.bump (O.repairListFull + d) 1
  else
    (({ p with memsys := { p.memsys with cands := p.memsys.cands.put [] d (l ++ [q.rowId]) } }).setReg
      (O.repairCandidates + d) (l.length + 1)).raise 0x4006 q.unitNo 0

/-- A pseudo-channel's number over the package. -/
def Place.pc (q : Place) : Nat := q.unit * 32 + q.lane

/-- R251, R253: one corrected word at a place, its symbol naming the sideband where it is c0 or c1 of HBM3E. -/
def Pkg.countCorrection (p : Pkg) (q : Place) (sym : Nat) : Pkg :=
  let p := p.bump (corrKey q) 1
  let p := if p.memsys.corrSeen.at false q.unitNo then p
    else ({ p with memsys := { p.memsys with corrSeen := p.memsys.corrSeen.put false q.unitNo true } }).raise
      0x4001 q.unitNo 0
  let p :=
    if q.lpddr || decide (sym ≠ 32 ∧ sym ≠ 33) then p
    else
      let n := p.memsys.sideband.at 0 q.pc + 1
      let p := (p.bump (O.sidebandCorrected + q.unit) 1)
      let p := { p with memsys := { p.memsys with sideband := p.memsys.sideband.put 0 q.pc n } }
      if n ≥ p.reg O.sidebandThreshold ∧ p.memsys.sidebandHit.at false q.pc = false then
        ({ p with memsys := { p.memsys with sidebandHit := p.memsys.sidebandHit.put false q.pc true } }).raise
          0x400C q.unitNo 0
      else p
  let n := p.memsys.rowCorr.at 0 q.rowId.key + 1
  let p := { p with memsys := { p.memsys with rowCorr := p.memsys.rowCorr.put 0 q.rowId.key n } }
  if p.reg O.repairThreshold ≤ n then p.addCandidate q else p

/-- R252, R253, R257: one uncorrectable word found at address a. -/
def Pkg.countUncorrectable (p : Pkg) (a : Nat) (w : PWord) : Pkg :=
  let q := placeOf a
  ((((p.bump (uncorrKey q) 1).setReg O.lastUncorrectableAddr a).setReg O.lastUncorrectableSyndrome
    (syndBits (syndrome w)).toNat).raise 0x4002 q.unitNo a).addCandidate q

/-! ## Reads and writes through the word code -/

/-- Whether a queued access writes a word (R251). -/
def writeQueued (word : Nat) : MemOp → Bool
  | .write line mask _ => line == word / 4 && ((mask.drop (16 * (word % 4))).take 16).any fun b => b
  | .correct w _ => w == word
  | .read _ _ _ => false

/-- R251: the corrected word joins its set's queue, unless a write to that word is already queued. -/
def Pkg.queueCorrection (p : Pkg) (a : Nat) (w : PWord) : Pkg :=
  if p.memsys.queue.any (writeQueued (a / 16)) then p
  else { p with memsys := { p.memsys with queue := p.memsys.queue ++ [.correct (a / 16) w] } }

/-- A read of the memory word at a with its counts (R247, R249, R251): the value, or none for poison. -/
def Pkg.memCheck (p : Pkg) (a : Nat) : Option W128 × Pkg :=
  let w := p.word a
  match checkWord w with
  | .clean => (some w.data, p)
  | .poison => (none, p.bump (O.poisonReads + dieOf a) 1)
  | .corrected v sym => (some v.data, p.countCorrection (placeOf a) sym)
  | .bad => (none, p.countUncorrectable a w)

/-- A demand read of the memory word at a: a corrected word is to be written back. -/
def Pkg.memRead (p : Pkg) (a : Nat) : Option W128 × Pkg :=
  let r := p.memCheck a
  match checkWord (p.word a) with
  | .corrected v _ => (r.1, r.2.queueCorrection a v)
  | _ => r

/-- A whole-word write to memory, of data or of poison (R249). -/
def Pkg.memWrite (p : Pkg) (a : Nat) (v : Option W128) : Pkg :=
  match v with
  | some d => p.setWord a (goodWord d)
  | none => (p.setWord a poisonWord).bump (O.poisonWrites + dieOf a) 1

/-- The word v with the bytes that a mask selects taken from n. -/
def mergeBytes (mask : List Bool) (v n : W128) : W128 :=
  BitVec.ofNat 128 (leNat ((List.range 16).map fun i =>
    if mask.getD i false then n.extractLsb' (8 * i) 8 else v.extractLsb' (8 * i) 8))

/-- A write of the bytes that a mask selects in the word at a: whole, none, or a read-modify-write, whose own write is the write-back of
a corrected word (R245, R249, R251). -/
def Pkg.memMerge (p : Pkg) (a : Nat) (mask : List Bool) (v : Option W128) : Pkg :=
  if mask.all (fun b => b) then p.memWrite a v
  else if mask.any (fun b => b) then
    match v with
    | none => p.memWrite a none
    | some n =>
      match p.memCheck a with
      | (some o, q) => q.memWrite a (some (mergeBytes mask o n))
      | (none, q) => (q.memWrite a none).raise 0x4003 (placeOf a).unitNo 0
  else p

/-- A read of a tile SRAM word: corrected on read, poison where it cannot be (R51, R250). -/
def Pkg.sramRead (p : Pkg) (a : Nat) : Option W128 := readWord (p.word a)

/-- A write of a tile SRAM word. -/
def Pkg.sramWrite (p : Pkg) (a : Nat) (v : Option W128) : Pkg := p.setWord a (packWord v)

/-- A masked write of a tile SRAM word; a partial write into poison leaves poison (R249). -/
def Pkg.sramMerge (p : Pkg) (a : Nat) (mask : List Bool) (v : Option W128) : Pkg :=
  if mask.all (fun b => b) then p.sramWrite a v
  else if mask.any (fun b => b) then
    match v, p.sramRead a with
    | some n, some o => p.sramWrite a (some (mergeBytes mask o n))
    | _, _ => p.sramWrite a none
  else p

/-- R249, R385: poison written into the control window is refused as an access error (log 79). -/
def Pkg.refusePoison (p : Pkg) (a : Nat) : Pkg :=
  let off := a - controlBase
  p.refuse .core (off / 0x400 * 256 + off % 0x400 / 4) abRange

/-- A word read by an agent anywhere in the package address space: reserved ranges return poison, with event 0x4004 (R34, R235); the
control window holds no word (R249). -/
def Pkg.anyRead (p : Pkg) (a : Nat) : Option W128 × Pkg :=
  match regionOf a with
  | .hbm => p.memRead a
  | .lpddr => p.memRead a
  | .tileSram => (p.sramRead a, p)
  | .tileReserved => (none, p)
  | .control => (none, p)
  | .reserved => (none, p.raise 0x4004 noUnit a)

/-- A masked word write by an agent: dropped in reserved ranges, with event 0x3009 or 0x4004 (R34, R235). -/
def Pkg.anyMerge (p : Pkg) (a : Nat) (mask : List Bool) (v : Option W128) : Pkg :=
  match regionOf a with
  | .hbm => p.memMerge a mask v
  | .lpddr => p.memMerge a mask v
  | .tileSram => p.sramMerge a mask v
  | .tileReserved => p.raise 0x3009 noUnit 0
  | .control => if v.isNone then p.refusePoison a else p
  | .reserved => p.raise 0x4004 noUnit a

/-- Words from address a (a multiple of 16) upward. -/
def Pkg.anyReads (p : Pkg) (a : Nat) : Nat → List (Option W128) × Pkg
  | 0 => ([], p)
  | n + 1 =>
    let r := p.anyRead a
    let s := r.2.anyReads (a + 16) n
    (r.1 :: s.1, s.2)

/-- The byte mask that bytes [a, a + n) put on the word at w. -/
def maskOf (w a n : Nat) : List Bool := (List.range 16).map fun i => decide (a ≤ w + i ∧ w + i < a + n)

/-- The data that bytes from address a put on the word at w. -/
def dataOf (w a : Nat) (l : List Byte) : W128 :=
  BitVec.ofNat 128 (leNat ((List.range 16).map fun i => if a ≤ w + i then l.getD (w + i - a) 0 else 0))

/-- Store bytes by an agent from address a, word by word in ascending order. -/
def Pkg.anyWriteBytes (p : Pkg) (a : Nat) (l : List Byte) : Pkg :=
  (List.range (ceilDiv (a % 16 + l.length) 16)).foldl (fun q i =>
    let w := a / 16 * 16 + 16 * i
    q.anyMerge w (maskOf w a l.length) (some (dataOf w a l))) p

/-- The bytes of words, none where a word is poison. -/
def wordsBytes (l : List (Option W128)) : Option (List Byte) :=
  l.foldr (fun w acc => match w, acc with
    | some d, some r => some (toLe 16 d.toNat ++ r)
    | _, _ => none) (some [])

/-- n bytes read by an agent from address a: none where a word is poison. -/
def Pkg.anyBytes (p : Pkg) (a n : Nat) : Option (List Byte) × Pkg :=
  let r := p.anyReads (a / 16 * 16) (ceilDiv (a % 16 + n) 16)
  ((wordsBytes r.1).map fun l => (l.drop (a % 16)).take n, r.2)

end Sys2Proof.Machine
end

