-- ==== Sys2Proof/Machine/LinkOps.lean ====
section
/-! DEFINITION. Machine/LinkOps.lean: originating class-1 and class-3 flits (R289, R299 to R303), the placement of
logical positions (R159), and the live protection of the lines of a region (R339 to R341). -/
namespace Sys2Proof.Machine

/-! ## Positions and routes -/

/-- The physical identifier of a logical position: after a remap, the spare that took it (R159, R354). -/
def Pkg.physOf (p : Pkg) (pos : Nat) : Option Nat :=
  match p.secure.placement.find pos with
  | some x => some x
  | none => p.loader.image.bind fun i => (i.placement.find? fun e => e.2 == pos).map (·.1)

/-- The route-table row of a partner (R301). -/
def Pkg.routeRow (p : Pkg) (dst : Nat) : Option RouteRow := p.loader.image.bind fun i => i.routes.find dst

def Pkg.partner (p : Pkg) (id : Nat) : Partner := p.links.partners.at Partner.reset id

/-- Change a partner's entry; a new one counts in partners_active (R299, R307). -/
def Pkg.setPartner (p : Pkg) (id : Nat) (x : Partner) : Pkg :=
  let q := { p with links := { p.links with partners := p.links.partners.put Partner.reset id { x with used := true } } }
  if (p.partner id).used then q else q.bump16 O.partnersActive 1

/-- The axis of a port: 0 X, 1 Y, 2 Z (R285). -/
def axisOf (port : Nat) : Nat := port / 4

/-- Whether a port crosses the wrap of its ring (R301). -/
def Pkg.wraps (p : Pkg) (port : Nat) : Bool :=
  match p.loader.image with
  | some i => bitOf i.wrapPorts port
  | none => false

/-- R303: the virtual channel of a flit that leaves by a port; `came` is the port it arrived on. -/
def Pkg.outVc (p : Pkg) (port : Nat) (came : Option Nat) (vc : Nat) : Nat :=
  let base := match came with
    | some i => if axisOf i = axisOf port then vc else 0
    | none => 0
  if p.wraps port then 1 else base

/-- Buffers of R302 by number: class 0; class 1 vc 0 and 1; class 3 vc 0 and 1. -/
def bufferOf (f : LinkFlit) : Nat := if f.cls = 0 then 0 else if f.cls = 1 then 1 + f.vc else 3 + f.vc

/-- Add n to entry i of a credit list. -/
def addAt (l : List Nat) (i n : Nat) : List Nat := (List.range 5).map fun k => l.getD k 0 + if k = i then n else 0

/-- R302: a flit has left buffer b of port i's receiver: its credit goes back with the next ack. -/
def Pkg.freeCredit (p : Pkg) (i b : Nat) : Pkg := p.setPort i { p.port i with freed := addAt (p.port i).freed b 1 }

/-- Queue a flit of class 1 or 3 at a port. -/
def Pkg.queueFlit (p : Pkg) (port : Nat) (f : LinkFlit) : Pkg :=
  let x := p.port port
  p.setPort port (if f.cls = 1 then { x with tx1 := x.tx1 ++ [f] } else { x with tx3 := x.tx3 ++ [f] })

/-- R299 to R301: originate a flit of class 1 or 3 for physical identifier dst; without a row it is discarded with event
0x440A. -/
def Pkg.originate (p : Pkg) (cls dst target : Nat) (payload : List Byte) (poison : List Bool) (win : Nat) : Pkg :=
  match p.routeRow dst with
  | none => p.raise 0x440A noUnit 0
  | some r =>
    let port := if cls = 1 then r.port1 else r.port3
    let x := p.partner dst
    let seq := if cls = 1 then x.tx1 else x.tx3
    let f : LinkFlit :=
      ⟨cls, p.outVc port none 0, false, dst, p.reg O.domainPhysId, seq, target, payload, poison, none, win⟩
    (p.setPartner dst (if cls = 1 then { x with tx1 := (seq + 1) % 1024 } else { x with tx3 := (seq + 1) % 1024 })).queueFlit
      port f

/-! ## Live protection (R339 to R341) -/

/-- The securing part in force, where the package holds a logical position. -/
def Pkg.securing (p : Pkg) : Option SecPart :=
  if p.reg O.logicalPosition = 0xFFFF then none else p.loader.image.bind (·.sec)

/-- The region that holds an address: number and entry. -/
def SecPart.regionAt (x : SecPart) (a : Nat) : Option (Nat × SecRegion) :=
  ((List.range x.regions.length).zip x.regions).find? fun e => decide (e.2.addr ≤ a ∧ a < e.2.addr + e.2.bytes)

/-- The protection group of a position, and its rank in it (R335). -/
def SecPart.groupOf (x : SecPart) (pos : Nat) : Option (List Nat × Nat) :=
  (x.groups.find? fun g => decide (pos ∈ g)).map fun g => (g, g.idxOf pos)

/-- U_r in bytes (R339), for a group of n members. -/
def partBytes (r : SecRegion) (n : Nat) : Nat := ceilDiv (ceilDiv r.bytes (2 ^ 20)) (n - 1) * 2 ^ 20

/-- One line of class-3 stream 1: an address flit and a data flit (R340). -/
def Pkg.sendLine (p : Pkg) (pos region kind offset : Nat) (ws : List (Option W128)) : Pkg :=
  match p.physOf pos with
  | none => p
  | some dst =>
    let head := toLe 8 (region + 2 ^ 16 * kind) ++ toLe 8 offset ++ List.replicate 48 0
    (p.originate 3 dst (1 * 2 ^ 12) head [false, false, false, false] 0).originate 3 dst (1 * 2 ^ 12) (wordsPayload ws)
      (ws.map (·.isNone)) 0

/-- R340, R341: the protection traffic of a write that changed a line from `old` to what it now holds. -/
def Pkg.track (p : Pkg) (line : Nat) (old : List PWord) : Pkg :=
  match p.securing with
  | none => p
  | some x =>
    let pos := p.reg O.logicalPosition
    match x.regionAt (line * 64), x.groupOf pos with
    | some (k, r), some (g, i) =>
      let off := line * 64 - r.addr
      let new := (List.range 4).map fun w => p.word (line * 64 + 16 * w)
      if p.secure.parity.at false k then
        let u := partBytes r g.length
        p.sendLine (g.getD ((i + off / u + 1) % g.length) 0) k 0 (off % u) ((old.zip new).map fun e =>
          match readWord e.1, readWord e.2 with
          | some a, some b => some (a ^^^ b)
          | _, _ => none)
      else p.sendLine (x.buddy.getD pos 0) k 1 off (new.map readWord)
    | _, _ => p

/-- A served write of the bytes that a mask selects in a line, tracked where a region holds it. -/
def Pkg.writeLine (p : Pkg) (line : Nat) (mask : List Bool) (data : List (Option W128)) : Pkg :=
  let old := (List.range 4).map fun w => p.word (line * 64 + 16 * w)
  ((List.range 4).foldl (fun p w =>
    p.memMerge (line * 64 + 16 * w) ((mask.drop (16 * w)).take 16) (data.getD w none)) p).track line old

/-- All 64 bytes. -/
def fullMask : List Bool := List.replicate 64 true

/-- A line of poison. -/
def poisonLine : List (Option W128) := [none, none, none, none]

end Sys2Proof.Machine
end

