-- ==== Sys2Proof/Machine/Coherence.lean ====
section
/-! DEFINITION. Machine/Coherence.lean: the directory (R263 to R265), the set queues (R245), requests and the home
arbiter (R266 to R270), the transition tables (R271, R272), and reads and writes by the agents without caches. -/
namespace Sys2Proof.Machine

/-! ## Directory entries (R263, R264) -/

/-- A directory entry as looked up: way, state 0 I, 1 S, 2 E, 3 M, and sharers. -/
structure DirEnt where
  way : Option Nat
  st : Nat
  sharers : Nat
  deriving DecidableEq, Repr

/-- The agents of a sharer vector, in ascending order. -/
def agents (m : Nat) : List Nat := (List.range 68).filter (bitOf m)

/-- The sharer vector with an agent added or removed. -/
def addAgent (m c : Nat) : Nat := if bitOf m c then m else m + 2 ^ c
def delAgent (m c : Nat) : Nat := if bitOf m c then m - 2 ^ c else m

/-- die_mask of a sharer vector (R264). -/
def dieMask (m : Nat) : Nat := (List.range 4).foldl (fun d i => if m / 2 ^ (17 * i) % 2 ^ 17 = 0 then d else d + 2 ^ i) 0

/-- An entry's word (R264). -/
def dirWord (tag st sharers : Nat) : PWord :=
  if st = 0 then zeroWord
  else goodWord (BitVec.ofNat 128 (fld (dieMask sharers) 111 + fld tag 71 + fld st 68 + sharers))

/-- The set of a line, with its slice (R236, R263). -/
def dirSet (line : Nat) : Nat := dieOf (line * 64) * 65536 + (line % 65536 ^^^ line / 65536 % 65536)

/-- The key of a way of a set. -/
def dirKey (set way : Nat) : Nat := set * 17 + way

/-- The held-out way of a slice (R263, R280): 16 at reset. -/
def Pkg.heldWay (p : Pkg) (slice : Nat) : Nat := p.coh.heldWay.at 16 slice

/-- The active ways of a slice. -/
def Pkg.ways (p : Pkg) (slice : Nat) : List Nat := (List.range 17).filter fun w => decide (w ≠ p.heldWay slice)

/-- What a stored entry reads as: its word, or none where it is uncorrectable (R264, R278). -/
def dirRead (w : PWord) : Option Nat :=
  match readWord w with
  | none => none
  | some d =>
    let v := d.toNat
    if bits v 70 68 ≥ 4 ∨ bits v 114 111 ≠ dieMask (v % 2 ^ 68) then none else some v

/-- Write the entry of a way. -/
def Pkg.setDir (p : Pkg) (key : Nat) (w : PWord) : Pkg :=
  { p with coh := { p.coh with dir := p.coh.dir.put zeroWord key w } }

/-- The key of a core's line. -/
def l2Key (c line : Nat) : Nat := c * 2 ^ 40 + line

def Pkg.l2 (p : Pkg) (c line : Nat) : Option L2Line := p.coh.l2.find (l2Key c line)
def Pkg.evb (p : Pkg) (c line : Nat) : Option L2Line := p.coh.evb.find (l2Key c line)

/-- Set or remove a core's line; a line that goes takes the core's reservation on it along. -/
def Pkg.setL2 (p : Pkg) (c line : Nat) (x : Option L2Line) : Pkg :=
  let m := p.coh.l2.del (l2Key c line)
  match x with
  | some v => { p with coh := { p.coh with l2 := m.ins (l2Key c line) v } }
  | none =>
    let r := if p.coh.reserved.find c = some line then p.coh.reserved.del c else p.coh.reserved
    { p with coh := { p.coh with l2 := m, reserved := r } }

def Pkg.setEvb (p : Pkg) (c line : Nat) (x : Option L2Line) : Pkg :=
  let m := p.coh.evb.del (l2Key c line)
  { p with coh := { p.coh with evb := match x with | some v => m.ins (l2Key c line) v | none => m } }

/-- The entry of a line, read from a set that has been checked. -/
def Pkg.dirFind (p : Pkg) (line : Nat) : DirEnt :=
  let set := dirSet line
  match (p.ways (set / 65536)).find? fun w =>
      match dirRead (p.coh.dir.at zeroWord (dirKey set w)) with
      | some v => decide (bits v 70 68 ≠ 0 ∧ bits v 110 71 = line)
      | none => false with
  | none => ⟨none, 0, 0⟩
  | some w =>
    let v := (p.coh.dir.at zeroWord (dirKey set w)).data.toNat
    ⟨some w, bits v 70 68, v % 2 ^ 68⟩

/-- The lowest free active way of a line's set. -/
def Pkg.freeWay (p : Pkg) (line : Nat) : Option Nat :=
  let set := dirSet line
  (p.ways (set / 65536)).find? fun w =>
    match dirRead (p.coh.dir.at zeroWord (dirKey set w)) with
    | some v => decide (bits v 70 68 = 0)
    | none => false

/-- Set a line's entry; state I, or no sharer, frees it. A line without an entry takes the lowest free way. -/
def Pkg.setEntry (p : Pkg) (line st sharers : Nat) : Pkg :=
  let w := match (p.dirFind line).way with
    | some w => some w
    | none => p.freeWay line
  match w with
  | none => p
  | some w => p.setDir (dirKey (dirSet line) w) (dirWord line (if sharers = 0 then 0 else st) sharers)

/-! ## Replies to requesters -/

def Pkg.busyAt (p : Pkg) (line : Nat) : Option Busy := p.coh.busy.find? fun b => decide (b.line = line)

def Pkg.setBusy (p : Pkg) (b : Busy) : Pkg :=
  { p with coh := { p.coh with busy := (p.coh.busy.filter fun x => decide (x.line ≠ b.line)) ++ [b] } }

def Pkg.freeLine (p : Pkg) (line : Nat) : Pkg :=
  { p with coh := { p.coh with busy := p.coh.busy.filter fun x => decide (x.line ≠ line) } }

/-- Mark the requester of the request in service as served; a bypassing request of another agent serves nobody else (R268). -/
def Pkg.markFilled (p : Pkg) (tag : Tag) (line : Nat) : Pkg :=
  match p.busyAt line with
  | some b => if b.req.tag = tag then p.setBusy { b with filled := true } else p
  | none => p

/-- The 64 bytes of a flit whose address is a, after one of its lines has arrived: word k takes its bytes from the two
words it meets; either one's poison poisons it. -/
def mergeFlit (a line : Nat) (data : List (Option W128)) (acc : List (Option W128)) : List (Option W128) :=
  (List.range 4).map fun k =>
    let old := acc.getD k (some 0)
    let hits := (List.range 16).filter fun i => decide ((a + 16 * k + i) / 64 = line)
    if hits.isEmpty then old
    else if hits.any fun i => (data.getD ((a + 16 * k + i) % 64 / 16) none).isNone then none
    else old.map fun o => BitVec.ofNat 128 (leNat ((List.range 16).map fun i =>
      if i ∈ hits then ((data.getD ((a + 16 * k + i) % 64 / 16) none).getD 0).extractLsb' (8 * ((a + i) % 16)) 8
      else o.extractLsb' (8 * i) 8))

/-- Send a flit towards a tile. -/
def Pkg.pushFlit (p : Pkg) (f : MeshFlit) : Pkg := { p with flits := p.flits ++ [f] }

/-- What a requester of a tile gets: data of an XGET, or the acknowledgement of an XPUT (R139, R275). -/
def Pkg.tileReply (p : Pkg) (tag : Tag) (line : Nat) (data : List (Option W128)) : Pkg :=
  match tag with
  | .xget t off win id =>
    if id = 0 then p.pushFlit (.sram t off win (data.map packWord))
    else
      let x := p.coh.parts.at ⟨0, 0, []⟩ id
      let ws := mergeFlit x.addr line data x.words
      if x.left ≤ 1 then
        ({ p with coh := { p.coh with parts := p.coh.parts.del id } }).pushFlit (.sram t off win (ws.map packWord))
      else { p with coh := { p.coh with parts := p.coh.parts.put ⟨0, 0, []⟩ id { x with left := x.left - 1, words := ws } } }
  | .xput t win id =>
    if id = 0 then p.pushFlit (.xputAck t win)
    else
      let x := p.coh.parts.at ⟨0, 0, []⟩ id
      if x.left ≤ 1 then ({ p with coh := { p.coh with parts := p.coh.parts.del id } }).pushFlit (.xputAck t win)
      else { p with coh := { p.coh with parts := p.coh.parts.put ⟨0, 0, []⟩ id { x with left := x.left - 1 } } }
  | _ => p

/-- The state that a fill brings: E or S to a load, by the row of R271 that served it, and M to a store (R272). -/
def fillState (row : Nat) (load : Bool) : L2St := if row ∈ [5, 6, 7] then .s else if load then .e else .m

/-- Deliver data, or with none the grant, to the requester of a request. -/
def Pkg.deliver (p : Pkg) (tag : Tag) (line : Nat) (data : Option (List (Option W128))) : Pkg :=
  match tag with
  | .core c =>
    let st : L2St := match p.busyAt line with
      | some b => fillState b.row (decide (b.req.kind = .rdShared))
      | none => .e
    { p with coh := { p.coh with fills := p.coh.fills ++ [⟨c, line, st, data.map fun l => l.map packWord⟩] } }
  | t => (p.tileReply t line (data.getD poisonLine)).markFilled t line

/-! ## The set queues (R245, R249, R251) -/

/-- The set of a queued access. -/
def MemOp.set : MemOp → Nat
  | .read line _ _ => setOf (line * 64)
  | .write line _ _ => setOf (line * 64)
  | .correct word _ => setOf (word * 16)

def Pkg.enqueue (p : Pkg) (o : MemOp) : Pkg := { p with memsys := { p.memsys with queue := p.memsys.queue ++ [o] } }

/-- The words of a line that a byte mask meets, read through the word code. -/
def Pkg.readLine (p : Pkg) (line : Nat) (mask : List Bool) : List (Option W128) × Pkg :=
  (List.range 4).foldl (fun acc w =>
    if ((mask.drop (16 * w)).take 16).any (fun b => b) then
      let r := acc.2.memRead (line * 64 + 16 * w)
      (acc.1 ++ [r.1], r.2)
    else (acc.1 ++ [some 0], acc.2)) ([], p)

/-- Serve one access of a set queue. -/
def Pkg.serveOp (p : Pkg) : MemOp → Pkg
  | .read line mask tag =>
    let r := p.readLine line mask
    r.2.deliver tag line (some r.1)
  | .write line mask data => p.writeLine line mask (data.map readWord)
  | .correct word w => p.setWord (word * 16) w

/-- Whether entry i of the queue is the first of its set. -/
def Pkg.firstOfSet (p : Pkg) (i : Nat) : Bool :=
  match p.memsys.queue[i]? with
  | none => false
  | some o => !(p.memsys.queue.take i).any fun x => decide (x.set = o.set)

/-- Serve entry i. -/
def Pkg.serveAt (p : Pkg) (i : Nat) : Pkg :=
  match p.memsys.queue[i]? with
  | none => p
  | some o => ({ p with memsys := { p.memsys with queue := dropAt p.memsys.queue i } }).serveOp o

/-- Serve every access of a set that waits, in queue order, n at most. -/
def Pkg.drainSet : Nat → Nat → Pkg → Pkg
  | 0, _, p => p
  | n + 1, set, p =>
    match p.memsys.queue.findIdx? fun o => decide (o.set = set) with
    | none => p
    | some i => Pkg.drainSet n set (p.serveAt i)

/-- All that waits for a line's set. -/
def Pkg.drainLine (p : Pkg) (line : Nat) : Pkg := Pkg.drainSet (2 * p.memsys.queue.length + 8) (setOf (line * 64)) p

/-- A write of a word of memory by a unit of the memory-side die: it enters its set's queue, and what waits there goes first
(R245). -/
def Pkg.memPut (p : Pkg) (a : Nat) (v : Option W128) : Pkg := (p.drainLine (a / 64)).memWrite a v

/-- Write poison over a line of memory: it enters the line's set queue, and what waits there goes first (R245). -/
def Pkg.poisonMem (p : Pkg) (line : Nat) : Pkg := (p.drainLine line).writeLine line fullMask poisonLine

/-- R278: an uncorrectable entry: every core gives up its copy of the tag's line (an eviction buffer stays held until its notice is
answered, R272), the line is poisoned, the entry is free. -/
def Pkg.dirFail (p : Pkg) (key : Nat) : Pkg :=
  let tag := bits (p.coh.dir.at zeroWord key).data.toNat 110 71
  let slice := key / 17 / 65536
  let p := (List.range 68).foldl (fun p c => p.setL2 c tag none) p
  (((p.poisonMem tag).setDir key zeroWord).bump (O.dirUncorrectable + slice) 1).raise 0x4203 slice 0

/-- Check the entries of a set: correct in place, or handle as uncorrectable (R278). -/
def Pkg.dirCheck (p : Pkg) (set : Nat) : Pkg :=
  (p.ways (set / 65536)).foldl (fun p w =>
    let key := dirKey set w
    let x := p.coh.dir.at zeroWord key
    match dirRead x with
    | none => p.dirFail key
    | some _ =>
      match checkWord x with
      | .corrected v _ =>
        let p := (p.setDir key v).bump (O.dirCorrected + set / 65536) 1
        let way := set / 65536 * 17 + w
        { p with coh := { p.coh with wayCorr := p.coh.wayCorr.put 0 way (p.coh.wayCorr.at 0 way + 1) } }
      | _ => p) p

/-! ## The image region (R156) -/

/-- The bytes of a line that a mask selects meet the loaded image's region. -/
def Pkg.hitsImage (p : Pkg) (line : Nat) (mask : List Bool) : Bool :=
  match p.loader.image with
  | none => false
  | some i => decide (2 ≤ p.reg O.imageState) && (List.range 64).any fun b =>
      mask.getD b false && decide (i.addr ≤ line * 64 + b ∧ line * 64 + b < i.addr + i.len)

/-! ## Snoops at the cores (R272) -/

/-- A line's words as a holder gives them; what cannot be read is poison (R261). -/
def L2Line.words (x : L2Line) : List (Option W128) := x.data.map readWord

/-- R261, R283: core c reads its line: a correctable word is corrected, an uncorrectable one becomes poison in place. -/
def Pkg.l2Check (p : Pkg) (c line : Nat) : Pkg :=
  (List.range 4).foldl (fun p w =>
    match p.l2 c line with
    | none => p
    | some x =>
      match checkWord (x.data.getD w zeroWord) with
      | .clean => p
      | .poison => p
      | .corrected v _ => (p.setL2 c line (some { x with data := setAt x.data w v })).bump (O.l2Corrected + c % 68) 1
      | .bad =>
        ((p.setL2 c line (some { x with data := setAt x.data w poisonWord })).bump (O.l2Uncorrectable + c % 68) 1).raise 0x4303 c 0) p

/-- R272: what a core does with a snoop: its next line, and the data and whether it is dirty. A snoop that reads the line checks it. -/
def snoopCore (p : Pkg) (c line : Nat) (k : SnoopKind) : Pkg × Option (List PWord) × Bool :=
  let p := if k = .inv then p else p.l2Check c line
  match p.l2 c line with
  | some x =>
    match k with
    | .fwdS =>
      (p.setL2 c line (some { x with st := .s }), some x.data, decide (x.st = .m))
    | .fwdM => (p.setL2 c line none, some x.data, decide (x.st = .m))
    | .inv => (p.setL2 c line none, none, false)
    | .invD => (p.setL2 c line none, if x.st = .m then some x.data else none, decide (x.st = .m))
    | .snpRd => (p, some x.data, decide (x.st = .m))
  | none =>
    match p.evb c line with
    | none => (p, none, false)
    | some x =>
      match k with
      | .inv => (p, none, false)
      | .invD => (p, if x.st = .m then some x.data else none, decide (x.st = .m))
      | _ => (p, some x.data, decide (x.st = .m))

/-- The snoop on its way to a core for a line, of one kind, that the core has not answered. -/
def Snoop.open (s : Snoop) (c line : Nat) : Bool := decide (s.core = c ∧ s.line = line ∧ s.answered = false)

/-- A core answers its snoop for a line. -/
def Pkg.coreAnswer (p : Pkg) (c line : Nat) (k : SnoopKind) : Pkg :=
  match p.coh.snoops.findIdx? fun s => s.open c line && decide (s.kind = k) with
  | none => p
  | some i =>
    match p.coh.snoops[i]? with
    | none => p
    | some s =>
      let r := snoopCore p c line k
      { r.1 with coh := { r.1.coh with
          snoops := setAt r.1.coh.snoops i { s with answered := true, answer := r.2.1, dirty := r.2.2 } } }

/-- Write bytes over a line: whole words replace poison, partial writes of a poisoned word leave it (R249, R261). -/
def mergeLine (old : List (Option W128)) (mask : List Bool) (new : List (Option W128)) : List (Option W128) :=
  (List.range 4).map fun w =>
    let m := (mask.drop (16 * w)).take 16
    if m.all (fun b => b) then new.getD w none
    else if m.any (fun b => b) then
      match old.getD w none, new.getD w none with
      | some o, some n => some (mergeBytes m o n)
      | _, _ => none
    else old.getD w none

/-! ## Cores (R260 to R262, R272, R273, R276) -/

/-- A request enters the network. -/
def Pkg.request (p : Pkg) (q : Req) : Pkg := { p with coh := { p.coh with net := p.coh.net ++ [q] } }

/-- Write bytes from address a into a line's words. -/
def lineStore (ws : List (Option W128)) (line a : Nat) (l : List Byte) : List (Option W128) :=
  let mask := (List.range 64).map fun i => decide (a ≤ line * 64 + i ∧ line * 64 + i < a + l.length)
  mergeLine ws mask ((List.range 4).map fun w => some (dataOf (line * 64 + 16 * w) a l))

/-- R272: the bytes of a store from address a that lie in one line, written to a line the core owns; the words it merges into are
checked (R261). -/
def Pkg.storePiece (p : Pkg) (c line a : Nat) (l : List Byte) : Pkg :=
  let p := p.l2Check c line
  match p.l2 c line with
  | some x => p.setL2 c line (some ⟨.m, (lineStore x.words line a l).map packWord⟩)
  | none => p

/-- The first piece of an access, up to its line's end. -/
def pieceLen (a n : Nat) : Nat := min n (64 - a % 64)

/-- Whether core c has a request for a line outstanding: none other goes out for it until its fill or its notice is answered (R272). -/
def Pkg.asked (p : Pkg) (c line : Nat) : Bool :=
  let mine (q : Req) : Bool := decide (q.requester = c ∧ q.line = line)
  p.coh.net.any mine || p.coh.arb.any mine || p.coh.busy.any (fun b => mine b.req) ||
    p.coh.fills.any (fun f => decide (f.core = c ∧ f.line = line)) || (p.evb c line).isSome

/-- A core's request for a line, where it may send one now. -/
def Pkg.askLine (p : Pkg) (c line : Nat) (kind : ReqKind) : Pkg :=
  if p.asked c line then p else p.request ⟨c, kind, line, fullMask, [], .core c, false, 0⟩

/-- A core takes an exception (R260, R261). -/
def Pkg.trapCore (p : Pkg) (c : Nat) (x : CoreTrap) : Pkg :=
  { p with coh := { p.coh with
      trap := (p.coh.trap.del c).ins c x
      loads := p.coh.loads.del c } }

/-- The store of core c is done. -/
def Pkg.endStore (p : Pkg) (c : Nat) : Pkg :=
  { p with coh := { p.coh with stores := p.coh.stores.del c, fencing := p.coh.fencing.del c } }

/-- The result of an atomic access on n bytes, from the old value and the operand (R260). -/
def amoValue (k : CoreStoreKind) (n old x : Nat) : Nat :=
  let m := 2 ^ (8 * n)
  let s (v : Nat) : Int := if v < m / 2 then v else (v : Int) - m
  match k with
  | .plain => x
  | .swap => x
  | .add => (old + x) % m
  | .xor => old ^^^ x
  | .and => old &&& x
  | .or => old ||| x
  | .min => if s old ≤ s x then old else x
  | .max => if s x ≤ s old then old else x
  | .minu => min old x
  | .maxu => max old x
  | .sc => x

/-- R260: an atomic access of core c on bytes of a line that it owns. The old value is read, which poison does not allow (R261); a
store-conditional writes only under the core's reservation of the line. -/
def Pkg.runAmo (p : Pkg) (c a : Nat) (l : List Byte) (k : CoreStoreKind) : Pkg :=
  let line := a / 64
  let p := p.l2Check c line
  let drop (p : Pkg) : Pkg := { p with coh := { p.coh with reserved := p.coh.reserved.del c } }
  match k with
  | .sc =>
    if p.coh.reserved.find c = some line then (((drop p).storePiece c line a l).endStore c).emit (.value 0)
    else ((drop p).endStore c).emit (.value 1)
  | k =>
    let word := (List.range 4).map fun i => match p.l2 c line with
      | some x => x.words.getD i none
      | none => none
    match wordsBytes ((List.range (ceilDiv (a % 16 + l.length) 16)).map fun i => word.getD (a % 64 / 16 + i) none) with
    | none => (p.trapCore c .hardwareError).endStore c
    | some b =>
      let old := leNat ((b.drop (a % 16)).take l.length)
      ((p.storePiece c line a (toLe l.length (amoValue k l.length old (leNat l)))).endStore c).emit (.value old)

/-- Go on with a core's store: write the pieces it owns, and ask for the line of the first it does not (R272). A store
of n bytes meets at most n lines. -/
def Pkg.runStore : Nat → Nat → Nat → List Byte → CoreStoreKind → Pkg → Pkg
  | 0, _, _, _, _, p => p
  | n + 1, c, a, l, kind, p =>
    if l.isEmpty then p.endStore c
    else
      let line := a / 64
      let k := pieceLen a l.length
      let wait (r : ReqKind) : Pkg :=
        ({ p with coh := { p.coh with stores := p.coh.stores.put ⟨0, [], .plain⟩ c ⟨a, l, kind⟩ } }).askLine c line r
      match p.l2 c line with
      | some ⟨.s, _⟩ => wait .upgrade
      | some _ =>
        if kind = .plain then Pkg.runStore n c (a + k) (l.drop k) kind (p.storePiece c line a (l.take k)) else p.runAmo c a l kind
      | none => wait .rdOwn

/-- Go on with a core's load of n bytes from a: once it holds every line the load completes, and poison gives the
hardware-error exception; else it asks for the first line it lacks. A load-reserved keeps its line reserved (R260). -/
def Pkg.runLoad (p : Pkg) (c a n : Nat) (lr : Bool) : Pkg :=
  let lines := (List.range (ceilDiv (a % 64 + n) 64)).map fun i => a / 64 + i
  match lines.find? fun l => (p.l2 c l).isNone with
  | some l => ({ p with coh := { p.coh with loads := p.coh.loads.put (0, 0, false) c (a, n, lr) } }).askLine c l .rdShared
  | none =>
    let p := lines.foldl (fun p l => p.l2Check c l) p
    let ws := (List.range (ceilDiv (a % 16 + n) 16)).map fun i =>
      let w := a / 16 + i
      match p.l2 c (w / 4) with
      | some x => x.words.getD (w % 4) none
      | none => none
    if ws.any (·.isNone) then p.trapCore c .hardwareError
    else
      let r := if lr then (p.coh.reserved.del c).ins c (a / 64) else p.coh.reserved
      ({ p with coh := { p.coh with loads := p.coh.loads.del c, reserved := r } }).emit (.readData ws)

/-- The store, then the load, of core c that waits for a line goes on. -/
def Pkg.resumeCore (p : Pkg) (c line : Nat) : Pkg :=
  let p := match p.coh.stores.find c with
    | some s => if s.addr / 64 = line then Pkg.runStore (s.bytes.length + 1) c s.addr s.bytes s.kind p else p
    | none => p
  match p.coh.loads.find c with
  | some l => if decide (l.1 / 64 ≤ line ∧ line ≤ (l.1 + l.2.1) / 64) then p.runLoad c l.1 l.2.1 l.2.2 else p
  | none => p

/-- The home has acknowledged a core's WbDirty or EvClean: the buffer is free, and what waited for the line goes on (R272). -/
def Pkg.freeEvb (p : Pkg) (c line : Nat) : Pkg := (p.setEvb c line none).resumeCore c line

/-- R272: core c gives a line up: it is held in the eviction buffer, and its notice goes out. -/
def Pkg.replaceLine (p : Pkg) (c line : Nat) : Pkg :=
  let p := p.l2Check c line
  match p.l2 c line with
  | none => p
  | some x =>
    let dirty := decide (x.st = .m)
    ((p.setL2 c line none).setEvb c line (some x)).request
      ⟨c, if dirty then .wbDirty else .evClean, line, fullMask, if dirty then x.data else [], .core c, false, 0⟩

/-- R260: the lines that core c holds in the set of a line: an L2 of 2 MiB has 2,048 sets of 16 ways (log 80). -/
def Pkg.l2Set (p : Pkg) (c line : Nat) : List Nat :=
  (p.coh.l2.filter fun e => decide (e.1 / 2 ^ 40 = c ∧ e.1 % 2048 = line % 2048)).map (·.1 % 2 ^ 40)

/-- R260: a full set gives up a line for a new one; which one is open (log 80). -/
def Pkg.makeRoom (p : Pkg) (c line : Nat) : Pkg :=
  let l := (p.l2Set c line).filter fun x => decide (x ≠ line)
  let free := l.filter fun x => !p.asked c x
  if l.length < 16 ∨ free.isEmpty then p
  else ({ p with free := p.free + 1 }).replaceLine c (free.getD (Config.choice free.length p.free % free.length) 0)

/-! ## The home (R268 to R271) -/

/-- A write of a request enters its set queue. -/
def Pkg.queueWrite (p : Pkg) (q : Req) (mask : List Bool) (data : List PWord) : Pkg :=
  p.enqueue (.write q.line mask data)

/-- A holder's dirty data is written to memory, but not into the image region (R156). -/
def Pkg.writeBack (p : Pkg) (line : Nat) (d : List PWord) : Pkg :=
  if p.hitsImage line fullMask then p.raise 0x380B noUnit 0 else p.enqueue (.write line fullMask d)

/-- What a home does once every answer for a busy line is in (R271). -/
def Pkg.homeFinish (p : Pkg) (b : Busy) : Pkg :=
  let q := b.req
  let p := p.setBusy b
  let fromMem := p.enqueue (.read q.line fullMask q.tag)
  match b.row with
  | 7 =>
    match b.got with
    | some d =>
      let p := if b.dirty then p.writeBack q.line d else p
      p.deliver q.tag q.line (some (d.map readWord))
    | none => fromMem
  | 8 => fromMem
  | 11 => p.deliver q.tag q.line none
  | 13 =>
    match b.got with
    | some d => p.deliver q.tag q.line (some (d.map readWord))
    | none => p.enqueue (.read q.line q.mask q.tag)
  | 14 => if q.tag = .victim then p.freeLine q.line else (p.queueWrite q q.mask q.data).deliver q.tag q.line none
  | 15 =>
    if q.tag = .victim then
      ((match b.got with
        | some d => if b.dirty then p.writeBack q.line d else p
        | none => p).freeLine q.line)
    else (p.queueWrite q q.mask q.data).deliver q.tag q.line none
  | 16 =>
    let p := match b.got with
      | some d =>
        if b.dirty then p.writeBack q.line ((mergeLine (d.map readWord) q.mask (q.data.map readWord)).map packWord)
        else p.queueWrite q q.mask q.data
      | none => p.queueWrite q q.mask q.data
    p.deliver q.tag q.line none
  | _ =>
    match b.got with
    | some d => p.deliver q.tag q.line (some (d.map readWord))
    | none => fromMem

/-- The home receives a core's answer; one that comes after a timeout is dropped with event 0x4206 (R274). -/
def Pkg.homeAnswer (p : Pkg) (c line : Nat) : Pkg :=
  match p.coh.snoops.findIdx? fun s => decide (s.core = c ∧ s.line = line) && s.answered with
  | none => p
  | some i =>
    match p.coh.snoops[i]? with
    | none => p
    | some s =>
      let p := { p with coh := { p.coh with snoops := dropAt p.coh.snoops i } }
      match p.busyAt line with
      | none => p.raise 0x4206 c 0
      | some b =>
        if s.stale ∨ b.waiting = 0 then p.raise 0x4206 c 0
        else
          let data := decide (s.kind ≠ .inv)
          let b := { b with
            waiting := b.waiting - 1
            got := if data ∧ s.answer.isSome then s.answer else b.got
            dirty := b.dirty || (data && s.dirty) }
          if b.waiting = 0 then p.homeFinish b else p.setBusy b

/-- The lowest-numbered sharer other than r on r's compute die (R271). -/
def nearSharer (m r : Nat) : Option Nat := (agents m).find? fun c => decide (c ≠ r ∧ c / 17 = r / 17)

/-- The row of R271 for a request; r's own number where it is no core is at least 68. -/
def dirRow (e : DirEnt) (q : Req) : Nat :=
  let r := q.requester
  let o := ((agents e.sharers)[0]?).getD 68
  let mine := decide (r < 68) && bitOf e.sharers r
  match q.kind with
  | .rdShared => if e.st = 0 then 1 else if e.st = 1 then (if (nearSharer e.sharers r).isSome then 6 else 5)
      else if o = r then 21 else 7
  | .rdOwn => if e.st = 0 then 2 else if e.st = 1 then (if (nearSharer e.sharers r).isSome then 9 else 8)
      else if o = r then 21 else 10
  | .upgrade => if e.st = 0 then 2
      else if e.st = 1 then (if mine then 11 else if (nearSharer e.sharers r).isSome then 9 else 8)
      else if o = r then 21 else 10
  | .rdSnoop => if e.st = 0 then 3 else if e.st = 1 then 12 else 13
  | .wrInv => if e.st = 0 then 4 else if e.st = 1 then 14
      else if q.tag = .victim ∨ q.mask.all (fun b => b) then 15 else 16
  | .wbDirty => if e.st ≥ 2 ∧ o = r then 17 else 18
  | .evClean => if e.st ≠ 0 ∧ mine then 19 else 20

/-- The snoops of a row, with the agents they go to; never to the requester (R268, R271). -/
def rowSnoops (row : Nat) (e : DirEnt) (r : Nat) : List (Nat × SnoopKind) :=
  let all := agents e.sharers
  let o := all[0]?
  let l := nearSharer e.sharers r
  let one (c : Option Nat) (k : SnoopKind) : List (Nat × SnoopKind) := match c with
    | some c => [(c, k)]
    | none => []
  let inv (skip : Option Nat) : List (Nat × SnoopKind) :=
    (all.filter fun c => decide (c ≠ r ∧ some c ≠ skip)).map fun c => (c, .inv)
  match row with
  | 6 => one l .fwdS
  | 7 => one o .fwdS
  | 8 => inv none
  | 9 => one l .fwdM ++ inv l
  | 10 => one o .fwdM
  | 11 => inv none
  | 13 => one o .snpRd
  | 14 => inv none
  | 15 => one o .invD
  | 16 => one o .invD
  | _ => []

/-- The next state and sharers of a row (R271). -/
def rowNext (row : Nat) (e : DirEnt) (r : Nat) : Nat × Nat :=
  match row with
  | 1 => (2, 2 ^ r)
  | 2 => (3, 2 ^ r)
  | 5 => (1, addAgent e.sharers r)
  | 6 => (1, addAgent e.sharers r)
  | 7 => (1, addAgent e.sharers r)
  | 8 => (3, 2 ^ r)
  | 9 => (3, 2 ^ r)
  | 10 => (3, 2 ^ r)
  | 11 => (3, 2 ^ r)
  | 21 => (3, 2 ^ r)
  | 19 => (e.st, delAgent e.sharers r)
  | 4 => (0, 0)
  | 14 => (0, 0)
  | 15 => (0, 0)
  | 16 => (0, 0)
  | 17 => (0, 0)
  | _ => (e.st, e.sharers)

/-- A request whose row R271 has chosen is served: the entry, the snoops, and what needs no answer. -/
def Pkg.homeServe (p : Pkg) (q : Req) (e : DirEnt) (row : Nat) : Pkg :=
  let n := rowNext row e q.requester
  let p := if row ∈ [3, 12, 13, 18, 20] then p else p.setEntry q.line n.1 n.2
  match row with
  | 17 =>
    (p.freeEvb q.requester q.line).writeBack q.line q.data
  | 18 => p.freeEvb q.requester q.line
  | 19 => p.freeEvb q.requester q.line
  | 20 => p.freeEvb q.requester q.line
  | 4 =>
    if q.tag = .victim then p else (p.queueWrite q q.mask q.data).deliver q.tag q.line none
  | _ =>
    let s := rowSnoops row e q.requester
    let p := { p with coh := { p.coh with
      snoops := p.coh.snoops ++ s.map fun (x : Nat × SnoopKind) => (⟨x.1, q.line, x.2, false, none, false, false⟩ : Snoop) } }
    let b : Busy := ⟨q.line, q, row, s.length, none, false, false, p.mtime⟩
    let p := if row = 21 then p.raise 0x4208 noUnit 0 else p
    if s.isEmpty then
      match row with
      | 21 => if q.kind = .upgrade then (p.setBusy b).deliver q.tag q.line none
          else (p.setBusy b).enqueue (.read q.line fullMask q.tag)
      | 3 => (p.setBusy b).enqueue (.read q.line q.mask q.tag)
      | 12 => (p.setBusy b).enqueue (.read q.line q.mask q.tag)
      | 11 => p.homeFinish b
      | 14 => p.homeFinish b
      | 15 => p.homeFinish b
      | 16 => p.homeFinish b
      | _ => (p.setBusy b).enqueue (.read q.line fullMask q.tag)
    else p.setBusy b

/-! ## Selection (R265, R269) -/

/-- The requester number of a home-internal recall. -/
abbrev homeSelf : Nat := 80

/-- The requests of the arbiter for a line. -/
def Pkg.waiting (p : Pkg) (line : Nat) : List Req := p.coh.arb.filter fun q => decide (q.line = line)

/-- The lowest entry of a list by a measure. -/
def leastBy {α : Type} (f : α → Nat) : List α → Option α
  | [] => none
  | a :: r => match leastBy f r with
    | none => some a
    | some b => some (if f b < f a then b else a)

/-- R269 for a line: the request, whether step 2 chose it, and how many candidates that step had. A recall goes first
(R265). -/
def Pkg.select (p : Pkg) (line : Nat) : Option (Req × Bool × Nat) :=
  let w := p.waiting line
  match w.find? fun q => decide (q.tag = .victim) with
  | some q => some (q, false, 0)
  | none =>
    let wb := w.filter fun q => decide (q.kind = .wbDirty ∨ q.kind = .evClean)
    match leastBy (fun q : Req => q.arrival * 128 + q.requester) wb with
    | some q => some (q, false, 0)
    | none =>
      match leastBy (·.arrival) w with
      | none => none
      | some a =>
        let cands := w.filter fun q => decide (q.arrival = a.arrival)
        let ptr := p.reg (O.arbiterPointer + dieOf (line * 64))
        (leastBy (fun q : Req => (q.requester + 80 - ptr) % 80) cands).map fun q => (q, true, cands.length)

/-- A request leaves the arbiter. -/
def Pkg.unqueue (p : Pkg) (q : Req) : Pkg := { p with coh := { p.coh with arb := p.coh.arb.erase q } }

/-- Whether a row needs an entry that the line may not have. -/
def allocates (row : Nat) : Bool := decide (row = 1 ∨ row = 2)

/-- R265: the victim of a full set: the way its pointer names among the 16 active ones. -/
def Pkg.victimLine (p : Pkg) (line : Nat) : Nat :=
  let set := dirSet line
  let w := (p.ways (set / 65536)).getD (p.coh.victim.at 0 set) 0
  bits (p.coh.dir.at zeroWord (dirKey set w)).data.toNat 110 71

/-- Whether a recall of the line's set is already on its way. -/
def Pkg.recalling (p : Pkg) (line : Nat) : Bool :=
  let same (l : Nat) : Bool := decide (dirSet l = dirSet line)
  (p.coh.arb.any fun q => decide (q.tag = .victim) && same q.line) ||
    p.coh.busy.any fun b => decide (b.req.tag = .victim) && same b.line

/-- R265: ask for the recall of the victim of a line's set, and step the pointer. -/
def Pkg.askRecall (p : Pkg) (line : Nat) : Pkg :=
  if p.recalling line then p
  else
    let set := dirSet line
    let q : Req := ⟨homeSelf, .wrInv, p.victimLine line, fullMask, [], .victim, false, 0⟩
    ({ p with coh := { p.coh with
        arb := p.coh.arb ++ [q]
        victim := p.coh.victim.put 0 set ((p.coh.victim.at 0 set + 1) % 16) } }).bump (O.dirRecalls + set / 65536) 1

/-- R269, R271: the arbiter selects the next request of a free line, if it is of the kind the command names. -/
def Pkg.arbitrate (p : Pkg) (line : Nat) (k : ReqKind) (victim : Bool) : Pkg :=
  if (p.busyAt line).isSome ∨ p.coh.sweep then p
  else
    match p.select line with
    | none => p
    | some (q, step2, n) =>
      if q.kind ≠ k ∨ decide (q.tag = .victim) ≠ victim then p
      else
        let p := p.dirCheck (dirSet line)
        let e := p.dirFind line
        let row := dirRow e q
        if allocates row ∧ p.recalling line then p
        else if allocates row ∧ (p.freeWay line).isNone then p.askRecall line
        else
          let slice := dieOf (line * 64)
          let p := p.unqueue q
          let p := if step2 then p.setReg (O.arbiterPointer + slice) ((q.requester + 1) % 80) else p
          let p := if step2 ∧ n ≥ 2 then p.bump (O.arbiterSameCycleConflicts + slice) 1 else p
          p.homeServe q e row

/-! ## Arrival (R267, R270) -/

/-- The order in which the bypassing requests of a cycle enter their queues: class 2, then class 3 (R245). -/
def bypassOrder (q : Req) : Nat := (if q.requester = 76 ∨ q.requester = 77 then 128 else 0) + q.requester

/-- A request of the network arrives at its home in cycle `cyc`, alone for its line in that cycle or not. A write into
the image region, and a write that R173 discards, is dropped whole and acknowledged (R156, R173). -/
def Pkg.arrive (p : Pkg) (cyc : Nat) (alone : Bool) (q : Req) : Pkg :=
  let line := q.line
  let p' := { p with coh := { p.coh with net := p.coh.net.erase q } }
  if q.kind = .wrInv ∧ q.discard then p'.tileReply q.tag line poisonLine
  else if q.kind = .wrInv ∧ p.hitsImage line q.mask then (p'.tileReply q.tag line poisonLine).raise 0x380B noUnit 0
  else
    let p' := p'.dirCheck (dirSet line)
    if q.requester ≥ 68 ∧ (p'.dirFind line).st = 0 ∧ (p.busyAt line).isNone ∧ alone ∧ p.coh.sweep = false then
      match q.kind with
      | .wrInv => (p'.queueWrite q q.mask q.data).tileReply q.tag line poisonLine
      | _ => p'.enqueue (.read line q.mask q.tag)
    else if (p.coh.arb.filter fun x => decide (dieOf (x.line * 64) = dieOf (line * 64))).length ≥ 512 then p
    else { p' with coh := { p'.coh with arb := p'.coh.arb ++ [{ q with arrival := cyc }] } }

/-- The requests at the named places of the network, which arrive in one cycle. -/
def Pkg.arriveAll (p : Pkg) (idx : List Nat) (cyc : Nat) : Pkg :=
  let qs := (idx.eraseDups.filterMap fun i => p.coh.net[i]?)
  let lines := qs.map (·.line)
  (qs.mergeSort fun a b => bypassOrder a ≤ bypassOrder b).foldl
    (fun p q => p.arrive cyc (decide (lines.count q.line ≤ 1)) q) p

/-- A fill reaches its core (R272, R273): the line enters the L2, and the store or load that waits goes on. -/
def Pkg.fillCore (p : Pkg) (c line : Nat) : Pkg :=
  match p.coh.fills.findIdx? fun f => decide (f.core = c ∧ f.line = line) with
  | none => p
  | some i =>
    match p.coh.fills[i]? with
    | none => p
    | some f =>
      let p := ({ p with coh := { p.coh with fills := dropAt p.coh.fills i } }).makeRoom c line
      let data := match f.data with
        | some d => d
        | none => match p.l2 c line with
          | some x => x.data
          | none => poisonLine.map packWord
      ((p.setL2 c line (some ⟨f.st, data⟩)).markFilled (.core c) line).resumeCore c line

/-- R268: the requester's acknowledgement reaches the home. -/
def Pkg.ackLine (p : Pkg) (r line : Nat) : Pkg :=
  match p.busyAt line with
  | some b => if b.req.requester = r ∧ b.filled then p.freeLine line else p
  | none => p

/-- The request in service on a line runs to its end, n moves at most: the order that puts it before what follows. -/
def Pkg.finishLine : Nat → Nat → Pkg → Pkg
  | 0, _, p => p
  | n + 1, line, p =>
    match p.busyAt line with
    | none => p
    | some b =>
      let p := p.coh.snoops.foldl (fun p s =>
        if s.line = line then (if s.answered then p else p.coreAnswer s.core line s.kind).homeAnswer s.core line else p) p
      let p := p.drainLine line
      let p := match b.req.tag with
        | .core c => p.fillCore c line
        | _ => p
      Pkg.finishLine n line (p.ackLine b.req.requester line)

/-! ## A sweep (R280) -/

/-- The 68 agents of reclaim_mask. -/
def Pkg.reclaimAgents (p : Pkg) : Nat :=
  p.reg O.reclaimMask + 2 ^ 32 * p.reg (O.reclaimMask + 1) + 2 ^ 64 * (p.reg (O.reclaimMask + 2) % 16)

/-- R280: what a sweep does to one entry. -/
def Pkg.sweepEntry (p : Pkg) (mask key : Nat) : Pkg :=
  let slice := key / 17 / 65536
  let x := p.coh.dir.at zeroWord key
  match dirRead x with
  | none => p.dirFail key
  | some v =>
    let st := bits v 70 68
    let tag := bits v 110 71
    let sh := v % 2 ^ 68
    if st = 0 ∨ sh &&& mask = 0 then p
    else if st ≥ 2 then
      (((p.poisonMem tag).setDir key zeroWord).bump (O.linesReclaimedPoisoned + slice) 1).raise 0x4204 slice 0
    else
      let left := sh - (sh &&& mask)
      p.setDir key (dirWord tag (if left = 0 then 0 else st) left)

/-- R280: the entries of the outgoing way of a slice move to the incoming one. -/
def Pkg.moveWay (p : Pkg) (slice : Nat) : Pkg :=
  let old := p.heldWay slice
  let new := p.reg (O.dirSpareWay + slice)
  if old = new then p
  else
    let dir := (p.coh.dir.filter fun e => decide (e.1 / 17 / 65536 = slice ∧ e.1 % 17 = new)).foldl
      (fun m e => (m.del e.1).put zeroWord (e.1 / 17 * 17 + old) e.2) p.coh.dir
    ({ p with coh := { p.coh with dir := dir, heldWay := p.coh.heldWay.put 16 slice new } }).raise 0x4207 slice 0

/-- R280: the sweep that runs ends. -/
def Pkg.endSweep (p : Pkg) : Pkg :=
  if !p.coh.sweep then p
  else
    let m := p.reclaimAgents
    let p := p.coh.dir.foldl (fun p e => p.sweepEntry m e.1) p
    let p := (List.range 4).foldl Pkg.moveWay p
    ({ p with coh := { p.coh with sweep := false } }).setReg O.reclaimState 2

/-! ## Reads and writes by the agents without caches (requesters 68 to 79) -/

/-- The recall that a line's set waits for runs to its end (R265). -/
def Pkg.runRecall (p : Pkg) (line : Nat) : Pkg :=
  let same (l : Nat) : Bool := decide (dirSet l = dirSet line)
  match p.coh.arb.find? fun q => decide (q.tag = .victim) && same q.line with
  | some q => Pkg.finishLine 4 q.line ((Pkg.finishLine 4 q.line p).arbitrate q.line .wrInv true)
  | none =>
    match p.coh.busy.find? fun b => decide (b.req.tag = .victim) && same b.line with
    | some b => Pkg.finishLine 4 b.line p
    | none => p

/-- The requests that wait for a line at its arbiter run to their ends, in its order, n moves at most (R269). -/
def Pkg.serveWaiting : Nat → Nat → Pkg → Pkg
  | 0, _, p => p
  | n + 1, line, p =>
    let p := Pkg.finishLine 4 line p
    match p.select line with
    | none => p
    | some (q, _) =>
      let p := p.arbitrate line q.kind (decide (q.tag = .victim))
      Pkg.serveWaiting n line (if q ∈ p.waiting line then p.runRecall line else p)

/-- R267, R269, R280: the turn of a request of agent r for a line. While a sweep runs it is held, so the sweep ends first. With no
entry and no request in service it bypasses the arbiter; else it is selected after every request that arrived before it, and the
pointer moves. -/
def Pkg.agentTurn (p : Pkg) (r line : Nat) : Pkg :=
  let p := p.endSweep.dirCheck (dirSet line)
  if (p.dirFind line).st = 0 ∧ (p.busyAt line).isNone then p
  else
    let p := (Pkg.serveWaiting (4 * p.coh.arb.length + 4) line p).dirCheck (dirSet line)
    p.setReg (O.arbiterPointer + dieOf (line * 64)) ((r + 1) % 80)

/-- A RdSnoop of agent r for the bytes that a mask selects in a line, run to its end (R266, R271): it sees a holder's data. -/
def Pkg.cohRead (p : Pkg) (r line : Nat) (mask : List Bool) : List (Option W128) × Pkg :=
  let p := p.agentTurn r line
  let e := p.dirFind line
  let held := match (agents e.sharers)[0]? with
    | some o => if e.st ≥ 2 then some (snoopCore p o line .snpRd) else none
    | none => none
  match held with
  | some (q, some d, _) => (d.map readWord, q)
  | _ => (p.drainLine line).readLine line mask

/-- A WrInv of agent r for the bytes that a mask selects in a line, run to its end (R266, R271): every cached copy goes, dirty
data is merged. Writes into the image region are dropped (R156). -/
def Pkg.cohWrite (p : Pkg) (r line : Nat) (mask : List Bool) (data : List (Option W128)) : Pkg :=
  if p.hitsImage line mask then p.raise 0x380B noUnit 0
  else
    let p := p.agentTurn r line
    let e := p.dirFind line
    let g := (agents e.sharers).foldl (fun (acc : Pkg × Option (List PWord)) c =>
      let s := snoopCore acc.1 c line (if e.st ≥ 2 then .invD else .inv)
      (s.1, if s.2.2 then s.2.1 else acc.2)) (p, none)
    let p := if e.st = 0 then g.1 else g.1.setEntry line 0 0
    let p := p.drainLine line
    match g.2 with
    | some d => if p.hitsImage line fullMask then p.raise 0x380B noUnit 0
      else p.writeLine line fullMask (mergeLine (d.map readWord) mask data)
    | none => p.writeLine line mask data

/-- The agents of I/O die A and of I/O die B (R266). -/
abbrev ioA : Nat := 78
abbrev ioB : Nat := 79

/-- The requester number of an Agreement engine, A or B. -/
def ioOf (e : Bool) : Nat := if e then ioB else ioA

/-- The PCIe ports (R266). -/
abbrev portH : Nat := 76
abbrev portD : Nat := 77

/-- n bytes from address a of memory or tile SRAM, read by an agent: the words that hold them. -/
def Pkg.agentRead (p : Pkg) (r a n : Nat) : List (Option W128) × Pkg :=
  (List.range (if n = 0 then 0 else ceilDiv (a % 16 + n) 16)).foldl (fun acc i =>
    let w := a / 16 * 16 + 16 * i
    let d :=
      if isMem w then
        let u := acc.2.cohRead r (w / 64) ((List.range 64).map fun b => decide (b / 16 = w / 16 % 4))
        (u.1.getD (w / 16 % 4) none, u.2)
      else acc.2.anyRead w
    (acc.1 ++ [d.1], d.2)) ([], p)

/-- The bytes of agentRead; none where a word is poison. -/
def Pkg.agentBytes (p : Pkg) (r a n : Nat) : Option (List Byte) × Pkg :=
  let d := p.agentRead r a n
  ((wordsBytes d.1).map fun l => (l.drop (a % 16)).take n, d.2)

/-- Bytes written by an agent from address a, line by line in ascending order. -/
def Pkg.agentWrite (p : Pkg) (r a : Nat) (l : List Byte) : Pkg :=
  (List.range (if l.isEmpty then 0 else ceilDiv (a % 64 + l.length) 64)).foldl (fun p i =>
    let line := a / 64 + i
    let mask := (List.range 64).map fun b => decide (a ≤ line * 64 + b ∧ line * 64 + b < a + l.length)
    let data := (List.range 4).map fun w => some (dataOf (line * 64 + 16 * w) a l)
    if isMem (line * 64) then p.cohWrite r line mask data
    else (List.range 4).foldl (fun p w =>
      p.anyMerge (line * 64 + 16 * w) ((mask.drop (16 * w)).take 16) (data.getD w none)) p) p

/-- Whole words written by an agent from address a, a multiple of 16, poison included: line by line. -/
def Pkg.agentWriteWords (p : Pkg) (r a : Nat) (l : List (Option W128)) : Pkg :=
  (List.range (if l.isEmpty then 0 else ceilDiv (a % 64 + 16 * l.length) 64)).foldl (fun p i =>
    let line := a / 64 + i
    let at' (w : Nat) : Option (Option W128) :=
      if a ≤ line * 64 + 16 * w then l[(line * 64 + 16 * w - a) / 16]? else none
    let mask := (List.range 64).map fun b => (at' (b / 16)).isSome
    let data := (List.range 4).map fun w => (at' w).getD none
    if isMem (line * 64) then p.cohWrite r line mask data
    else (List.range 4).foldl (fun p w =>
      if (at' w).isSome then p.anyMerge (line * 64 + 16 * w) (List.replicate 16 true) (data.getD w none) else p) p) p

end Sys2Proof.Machine
end

