-- ==== Sys2Proof/Machine/SchedOps.lean ====
section
/-! DEFINITION. Machine/SchedOps.lean: schedule time (R140, R145, R147), slip requests (R146), floods received (R294),
the step program (R152, R163) and the void reports of a step (R168 to R171). -/
namespace Sys2Proof.Machine

/-! ## Schedule time -/

/-- R145. -/
def Pkg.schedBeat (p : Pkg) : Nat := (p.reg O.domainBeat + 2 ^ 64 - p.reg O.slipTotal) % 2 ^ 64

def Pkg.setSched (p : Pkg) (x : Sched) : Pkg := { p with sched := x }
def Pkg.setSeq (p : Pkg) (t : Nat) (x : Seqr) : Pkg := p.setTile t { p.tile t with seq := x }
def Pkg.setStepc (p : Pkg) (x : StepCtl) : Pkg := { p with stepc := x }

/-- The loaded image, where the package holds a logical position and has not declared itself failed (R350: it stops). -/
def Pkg.posImage (p : Pkg) : Option Image :=
  if p.failed ∨ p.reg O.logicalPosition = 0xFFFF then none else p.loader.image

/-- A hold is in progress, or a slip takes effect at this beat: it comes before the events of the beat (R147). -/
def Pkg.heldBack (p : Pkg) : Bool :=
  p.sched.hold.isSome || p.sched.slips.any fun x => decide (x.beat ≤ p.reg O.domainBeat)

/-- Whether the schedule runs and no hold keeps its events back (R147). -/
def Pkg.evaluates (p : Pkg) : Bool := decide (p.reg O.imageState = 4) && !p.heldBack

/-- Beats of the slips requested or received and not yet in effect (R146). -/
def Pkg.slipAhead (p : Pkg) : Nat :=
  ((p.sched.slips.filter fun x => decide (x.kind = .slip)).map (·.len)).sum +
    (match p.sched.hold with
      | some h => if h.kind = .slip then h.beat + h.len - p.reg O.domainBeat else 0
      | none => 0)

/-- A slip of the named kind joins those that wait; a request with the B of another is applied once (R147). -/
def Pkg.addSlip (p : Pkg) (x : Slip) : Pkg :=
  if x ∈ p.sched.slips then p else p.setSched { p.sched with slips := p.sched.slips ++ [x] }

/-- R146, R147: the package issues a slip request. -/
def Pkg.requestSlip (p : Pkg) : Pkg :=
  match p.loader.image with
  | none => p
  | some i =>
    let b := p.reg O.domainBeat + i.slipHorizon
    ((((p.flood 0x01 0 [p.reg O.logicalPosition, b]).raise 0x3804 noUnit 0).bump O.slipRequestsIssued 1).addSlip
      ⟨b, i.slipQuantum, .slip⟩)

/-! ## Floods received (R294) -/

/-- Origin sequence a is later than b. -/
def laterSeq (a b : Nat) : Bool :=
  let d := (a + 2 ^ 32 - b) % 2 ^ 32
  decide (1 ≤ d ∧ d < 2 ^ 31)

/-- R294: a flood is remembered, forwarded on every other up port, and acted on, when its origin sequence is later than
the one remembered for its source; else nothing happens. -/
def Pkg.floodIn (p : Pkg) (x : C0In) (type : Nat) (payload : List Nat) (act : Pkg → Pkg) : Pkg :=
  let fresh := match p.sched.filter.find x.src with
    | none => true
    | some n => laterSeq x.originSeq n
  if !fresh then p
  else
    let p := p.setSched { p.sched with filter := (p.sched.filter.del x.src).ins x.src x.originSeq }
    act (p.c0Send ⟨type, x.src, 0, x.originSeq, payload⟩ x.port.val)

/-! ## The step program (R152, R163) -/

/-- The offsets of the entries with st = 1. -/
def stepOffsets (i : Image) : List Nat := (i.prog.filter (·.st)).map (·.offset)

/-- The entries of step k of the cycle. -/
def stepEntries (i : Image) (k : Nat) : List ProgEntry :=
  let o := stepOffsets i
  let lo := o.getD k 0
  let hi := o.getD (k + 1) i.cycleLen
  i.prog.filter fun e => decide (lo ≤ e.offset ∧ e.offset < hi)

/-- R163: the commit entry of step k. -/
def commitEntry (i : Image) (k : Nat) : Option ProgEntry := ((stepEntries i k).filter fun e => !e.per).getLast?

/-- The schedule beat at which the n-th step since cycle 0 begins. -/
def Pkg.stepBeat (p : Pkg) (i : Image) (n : Nat) : Nat :=
  p.sched.cycle0 + n / i.stepsPerCycle * i.cycleLen + (stepOffsets i).getD (n % i.stepsPerCycle) 0

/-- C of the current step, in schedule beats. -/
def Pkg.commitBeat (p : Pkg) (i : Image) : Option Nat :=
  if p.sched.nextStart = 0 then none
  else
    (commitEntry i p.stepc.stepIndex).map fun e =>
      p.sched.cycle0 + (p.sched.nextStart - 1) / i.stepsPerCycle * i.cycleLen + e.offset

/-- The entries whose beat schedule time has reached now. -/
def Pkg.entriesNow (p : Pkg) (i : Image) : List ProgEntry :=
  let b := p.schedBeat
  if b < p.sched.cycle0 ∨ i.cycleLen = 0 then []
  else i.prog.filter fun e => decide (e.offset = (b - p.sched.cycle0) % i.cycleLen)

/-- R163: the last step of a cycle is its agreement step. -/
def isAgreementStep (i : Image) (k : Nat) : Bool := decide (k + 1 = i.stepsPerCycle)

/-! ## Void reports (R168, R170) -/

/-- R170: the order of records. -/
def votePrecedes (a b : VoteRec) : Bool :=
  decide (a.source < b.source) || (decide (a.source = b.source) &&
    (decide (a.package < b.package) || (decide (a.package = b.package) &&
      (decide (a.tile < b.tile) || (decide (a.tile = b.tile) && decide (a.position < b.position))))))

/-- The first of two records, where there is one. -/
def firstRec (a : Option VoteRec) (b : VoteRec) : Option VoteRec :=
  match a with
  | none => some b
  | some x => if votePrecedes b x then some b else some x

/-- The payload of a vote record (R170). -/
def votePayload (r : VoteRec) : List Nat := [r.step, r.package, r.source, r.tile, r.tensor, r.position, r.nfCount]

/-- A void report of this package. -/
def Pkg.voidReport (p : Pkg) (r : VoteRec) : Pkg :=
  p.setStepc { p.stepc with own := firstRec p.stepc.own r, held := firstRec p.stepc.held r }

/-- A result flit of a bucket is still on its way to its tile. -/
def landing (i : Image) : MeshFlit → Bool
  | .sram t _ w _ => i.buckets.any fun b => decide (b.resTile = t ∧ b.resWin = w)
  | _ => false

/-- The buckets with elements that steps 0 to k of a cycle run, by the sequences of the channels. -/
def bucketsUpTo (i : Image) (k : Nat) : Nat :=
  (i.chans.flatMap fun c => (List.range c.nSeq).filter fun j =>
    match i.buckets[c.firstSeq + j]? with
    | some b => decide (b.nElem ≠ 0 ∧ i.bucketSteps.getD (c.firstSeq + j) 0 ≤ k)
    | none => false).length

/-- R169, R200: the agreement program's part in the step is complete: every bucket of the steps of the cycle so far is done, and
its results have landed. -/
def Pkg.bucketsComplete (p : Pkg) (i : Image) : Bool :=
  decide (bucketsUpTo i p.stepc.stepIndex ≤ p.stepc.bucketsDone) && !p.flits.any (landing i)

/-- R169: every counted report of the step and its agreement program are in. -/
def Pkg.voteComplete (p : Pkg) (i : Image) : Bool :=
  decide (i.cvotes.getD p.stepc.stepIndex 0 ≤ p.stepc.cvotes) && p.bucketsComplete i

end Sys2Proof.Machine
end

