-- ==== Sys2Proof/Machine/Operands.lean ====
section
/-! DEFINITION. Machine/Operands.lean: the operand forms of the slots: matrix descriptors (R43), format classes and
stream timing (R44 to R46), scale-table entries (R69), and rows of elements and fine codes in tile SRAM (R63, R67). -/
namespace Sys2Proof.Machine

/-- Word w of entry d of a descriptor table of 16-word entries. -/
def descWord (m : SMap W32) (d w : Nat) : Nat := (SMap.at 0 (d * 16 + w) m).toNat

/-- A matrix descriptor (R43). -/
structure MDesc where
  src : Nat
  scale : Nat
  stride : Nat
  asBase : Nat
  nCols : Nat
  sr : Bool
  mode : Nat
  mp : Nat
  fmt : Nat
  tensor : Nat
  outTensor : Nat
  elemBase : Nat
  deriving DecidableEq, Repr

/-- The fields of matrix descriptor d (R43). -/
def mdesc (m : SMap W32) (d : Nat) : MDesc where
  src := bits (descWord m d 0) 22 0
  scale := bits (descWord m d 1) 22 0
  stride := bits (descWord m d 2) 15 0
  asBase := bits (descWord m d 3) 25 16
  nCols := bits (descWord m d 3) 7 0
  sr := bitOf (descWord m d 4) 16
  mode := bits (descWord m d 4) 15 14
  mp := bits (descWord m d 4) 13 12
  fmt := bits (descWord m d 4) 11 8
  tensor := bits (descWord m d 5) 23 0
  outTensor := bits (descWord m d 6) 23 0
  elemBase := descWord m d 7 + bits (descWord m d 8) 13 0 * 2 ^ 32

/-- No reserved bit of the descriptor's words 0 to 14 is set, and no field holds a reserved encoding (R43, R44). -/
def mdescOk (m : SMap W32) (d : Nat) : Bool :=
  let w := descWord m d
  let x := mdesc m d
  decide (w 0 < 2 ^ 23 ∧ w 1 < 2 ^ 23 ∧ w 2 < 2 ^ 16 ∧ bits (w 3) 31 26 = 0 ∧ bits (w 3) 15 8 = 0 ∧ w 4 < 2 ^ 17 ∧
    bits (w 4) 7 0 = 0 ∧ w 5 < 2 ^ 24 ∧ w 6 < 2 ^ 24 ∧ w 8 < 2 ^ 14 ∧ x.src % 64 = 0 ∧ x.scale % 64 = 0 ∧
    x.stride % 64 = 0 ∧ x.nCols ≤ 128 ∧ x.mode ≠ 3 ∧ x.mp ≠ 3 ∧ x.fmt ≤ 8) &&
  (List.range 6).all fun i => decide (w (9 + i) = 0)

/-- R98: strict and M2 replica mode with neither stochastic rounding nor multi-pass. -/
def modeOk (x : MDesc) : Bool := !(decide (x.mode = 1 ∨ x.mode = 2) && (x.sr || decide (x.mp ≠ 0)))

/-- No reserved combination of R98 in a stream's descriptor and its slot's part, and none of mode with sr or mp. -/
def comboOk (x : MDesc) (part : Nat) : Bool :=
  modeOk x && !(decide (x.mp = 0) && decide (part ≠ 0)) && !(decide (part = 2) && decide (x.mp ≠ 2))

/-- As comboOk, for an MLW: P = 2 has no mid part (R98, R90), and out_tensor_id must be 0 (R43). A P = 2 load takes
its lo part under code 0b10. -/
def loadComboOk (x : MDesc) (part : Nat) : Bool :=
  modeOk x && !(decide (x.mp = 0) && decide (part ≠ 0)) && !(decide (part = 1) && decide (x.mp = 1)) &&
  decide (x.outTensor = 0)

/-- Products per row of a multi-pass phase (R49): P, phase. -/
def phaseProducts (mp part : Nat) : Nat :=
  if mp = 1 then (if part = 0 then 2 else 1) else if part = 0 then 3 else if part = 1 then 2 else 1

/-- c, the stream cycles per row (R45, R46). -/
def streamC (x : MDesc) (part : Nat) : Nat :=
  if x.mode = 1 then 128 else if x.mode = 2 then 4
  else if x.mp ≠ 0 then 2 * phaseProducts x.mp part
  else if fmtClass x.fmt ≤ 1 then 1 else 2

/-- F, the cycles from a row's entry to its result (R45, R46). -/
def streamF (x : MDesc) : Nat :=
  if x.mode = 1 then 656 else if x.mode = 2 then 528
  else if x.mp ≠ 0 then 528
  else if fmtClass x.fmt ≤ 1 then 272 else 528

/-! ## Scale-table entries (R65, R69) -/

/-- The 64 bytes of scale-table entry t: word 0, or none where its word is poisoned. -/
def Pkg.scaleWord0 (p : Pkg) (t : Nat) : Option Nat :=
  (readWord (p.word (p.reg O.scaleTableBase + 64 * t))).map fun d => d.toNat % 2 ^ 32

/-- The coarse exponent k of word 0 (R65). -/
def coarseOf (w : Nat) : Int := (bits w 31 24 : Int) - 127

/-- fine_present of word 0 (R69). -/
def finePresent (w : Nat) : Bool := bitOf w 18

/-- Whether a tensor of format f whose entry's word 0 is w carries fine scales (R68). -/
def carriesFine (f w : Nat) : Bool :=
  if fmtClass f = 1 then true else if fmtClass f = 0 then finePresent w else false

/-! ## Banks of tile SRAM (R52) -/

/-- The priority classes of R52 whose accesses come at a known cycle. -/
abbrev bankStream : Nat := 2
abbrev bankLoad : Nat := 3
abbrev bankVector : Nat := 4
abbrev bankDrain : Nat := 5

/-- R52: an access of class cls wants `bank` at a cycle: the bank serves the lower class, and the loser retries in the
next cycle. The accesses served, the cycles that losers wait, and those that this access waits (`mine` while it has lost). -/
def grantBank (bank cls : Nat) (mine : Bool) : Nat → Nat → SMap Nat → SMap Nat × Nat × Nat
  | 0, _, m => (m, 0, 0)
  | n + 1, cyc, m =>
    match m.find (cyc * 16 + bank) with
    | none => (m.put 0 (cyc * 16 + bank) cls, 0, 0)
    | some o =>
      let lost := mine && decide (o ≤ cls)
      let r := grantBank bank (max o cls) lost n (cyc + 1) (m.put 0 (cyc * 16 + bank) (min o cls))
      (r.1, r.2.1 + 1, r.2.2 + b2n lost)

/-- R51, R52: n bytes of tile t's SRAM from offset off, one access to each 64-byte line, all at one cycle; and the cycles
that the access waits. -/
def Pkg.bankUse (p : Pkg) (t cls cyc off n : Nat) : Pkg × Nat :=
  if n = 0 then (p, 0)
  else
    let ti := p.tile t
    let r := (List.range ((off + n - 1) / 64 + 1 - off / 64)).foldl (fun (acc : SMap Nat × Nat × Nat) i =>
      let u := grantBank ((off / 64 + i) % 16) cls true (acc.1.length + 1) cyc acc.1
      (u.1, acc.2.1 + u.2.1, max acc.2.2 u.2.2)) (ti.banks, 0, 0)
    let q := p.setTile t { ti with banks := r.1 }
    (if r.2.1 = 0 then q else q.bump64 (q.tileCounter O.tileCounters 2 t) r.2.1, r.2.2)

/-- The accesses of `rows` rows of n bytes, `stride` bytes and `c` cycles apart, from cycle cyc; the accesses of the
cycles before it are past. -/
def Pkg.bankRows (p : Pkg) (t cls cyc c off stride n rows : Nat) : Pkg :=
  let ti := p.tile t
  (List.range rows).foldl (fun q m => (q.bankUse t cls (cyc + m * c) (off + m * stride) n).1)
    (p.setTile t { ti with banks := ti.banks.filter fun e => decide (cyc ≤ e.1 / 16) })

/-! ## Elements in tile SRAM -/

/-- n bytes of tile t's SRAM at offset off, as a number, and whether a word of them is poisoned. -/
def Pkg.sramNat (p : Pkg) (t off n : Nat) : Nat × Bool :=
  let ws := (List.range (ceilDiv (off % 16 + n) 16)).map fun i => p.sramRead (sramAddr t (off / 16 * 16 + 16 * i))
  let v := ws.foldr (fun w acc => (w.getD 0).toNat + 2 ^ 128 * acc) 0
  (v / 2 ^ (8 * (off % 16)) % 2 ^ (8 * n), ws.any (·.isNone))

/-- n elements of format f at byte offset off of tile t's SRAM (R63), and whether a word of them is poisoned. -/
def Pkg.elemRow (p : Pkg) (t off f n : Nat) : List Nat × Bool :=
  let r := p.sramNat t off (packedBytes f n)
  ((List.range n).map (unpackElem f r.1), r.2)

/-- Fine codes of blocks 0 to n − 1 of a scale row at offset off (R67). -/
def Pkg.fineRow (p : Pkg) (t off n : Nat) : List Nat × Bool :=
  if n = 0 then ([], false)
  else
    let r := p.sramNat t off (ceilDiv n 4 * 3)
    ((List.range n).map fun g => bits r.1 (6 * g + 5) (6 * g), r.2)

/-- The byte stride of a scale row of n_blk blocks (R67). -/
def scaleStride (nblk : Nat) : Nat := 64 * ((((nblk + 3) / 4) * 3 + 63) / 64)

end Sys2Proof.Machine
end

