-- ==== Sys2Proof/Machine/Convert.lean ====
section
/-! DEFINITION. Machine/Convert.lean: conversion at a conversion site: the fine scale of a block (R71), the encode
(R75, R76) and the counts of the range ledger (R78). -/
namespace Sys2Proof.Machine

/-- |v|, exactly. -/
def FVal.mag : FVal → FVal
  | .nan => .nan
  | .inf _ => .inf false
  | .fin _ m e => .fin false m e

/-- The largest finite magnitude of a list of values (R71, R78). -/
def maxMag (l : List FVal) : FVal :=
  l.foldl (fun b v => if v.isFin ∧ b.cmp v.mag < 0 then v.mag else b) (.fin false 0 0)

/-- What R71 chooses for a block: the code, whether the ceiling code was forced by b > 2^7 × X, and whether
b < 2^−24 × X. -/
structure BlockScale where
  code : Nat
  ceiling : Bool
  below : Bool
  deriving DecidableEq, Repr

/-- R71: the lowest code whose value f satisfies f × X ≥ b. -/
def blockScale (f : Nat) (k : Int) (vs : List FVal) : BlockScale :=
  if vs.any (fun v => !v.isFin) then ⟨0x3F, false, false⟩
  else
    let b := (maxMag vs).scale (-k)
    let x := maxFinite f
    if b.isZero then ⟨0, false, false⟩
    else
      let below := decide (b.cmp (x.scale (-24)) < 0)
      match firstBelow 0x3F fun c => decide (((fineVal c).mul x).cmp b ≥ 0) with
      | some c => ⟨c, false, below⟩
      | none => ⟨0x3E, true, below⟩

/-- t = v ÷ (2^k × f) of R75 for a finite v: exact, or with an odd last bit far below every rounding. -/
def unscale (v : FVal) (k : Int) (fine : Nat) : FVal :=
  match v with
  | .fin s m e =>
    let e' := e - k - ((fine / 2 : Nat) - 25)
    if fine % 2 = 0 then .fin s m (e' - 1)
    else
      let n := m * 2 ^ 200
      .fin s (2 * (n / 3) + (if n % 3 = 0 then 0 else 1)) (e' - 201)
  | u => u

/-- R75, R76: the code of one element of format f with coarse exponent k and fine code `fine`; f = 1 is 0x30. In a block with a fine
scale whose marker is 0x3F every code is 0 (R71), also where R76's table for E4M3 and E5M2 has NaN or infinity (DESIGN CHOICE, log 74). -/
def encodeElem (f : Nat) (k : Int) (fine : Nat) (hasFine : Bool) (rnd : Rnd) (v : FVal) : Enc :=
  if hasFine && decide (fine = 0x3F) then ⟨0, false, false, false⟩
  else
    match v with
    | .nan => ⟨if f = 2 then 0 else (fmtOf f).nanCode.getD 0, false, false, false⟩
    | .inf s =>
      if f = 2 then ⟨0, false, false, false⟩
      else
        match (fmtOf f).infCode with
        | some c => ⟨c + (if s then 2 ^ ((fmtOf f).width - 1) else 0), false, false, false⟩
        | none => ⟨(fmtOf f).nanCode.getD 0, false, false, false⟩
    | w =>
      match unscale w k fine with
      | .fin s m e => encodeFin f rnd s m e
      | _ => ⟨0, false, false, false⟩

/-- Where a conversion counts (R78): the old code when delta_track is on. -/
def SlotCnt.count (c : SlotCnt) (v : FVal) (e : Enc) (below : Bool) (lane : W32) (old : Option Nat) : SlotCnt :=
  let fin := v.isFin
  { c with
    total := c.total + 1
    saturated := c.saturated + b2n e.sat
    flushed := c.flushed + b2n (fin && e.flushed)
    subnormal := c.subnormal + b2n (fin && e.sub)
    belowFloor := c.belowFloor + b2n (below && fin && !v.isZero)
    nonFinite := c.nonFinite + b2n (!fin)
    changed := c.changed + (match old with
      | some o => b2n (decide (o ≠ e.code))
      | none => 0)
    amax := if fin ∧ c.amax.toNat < lane.toNat % 2 ^ 31 then lane &&& 0x7FFFFFFF else c.amax
    cnv := true
    amaxC := if fin ∧ c.amaxC.toNat < lane.toNat % 2 ^ 31 then lane &&& 0x7FFFFFFF else c.amaxC }

/-- The counts of a ledger slot in the current step. -/
def Pkg.slotCnt (p : Pkg) (n : Nat) : SlotCnt := p.ledger.slots.at SlotCnt.reset n

def Pkg.setSlotCnt (p : Pkg) (n : Nat) (c : SlotCnt) : Pkg :=
  { p with ledger := { p.ledger with slots := p.ledger.slots.put SlotCnt.reset n c } }

/-- The site number of a slot, the draw key of its conversions (R78, R94). -/
def Pkg.siteOf (p : Pkg) (slot : Nat) : Nat :=
  if slot = 0xFFFF then 0xFFFF else
    match p.ledger.decl[slot]? with
    | some d => d.site
    | none => 0xFFFF

end Sys2Proof.Machine
end

