-- ==== Sys2Proof/Machine/Flags.lean ====
section
/-! DEFINITION. Machine/Flags.lean: the non-finite panel record of a tile (R92, R93) and the step poison bit of a
tile (R168). -/
namespace Sys2Proof.Machine

/-- R92: a non-finite value written to entry e of row r. -/
def PanelRec.write (f : PanelRec) (r e : Nat) (isNan : Bool) : PanelRec :=
  { f with
    nf := true
    nan := f.nan || isNan
    count := min (f.count + 1) 0xFFF
    pos := if f.nf then min f.pos (r * 128 + e) else r * 128 + e }

/-- R92: the record after the write of an entry; a poisoned write and a finite write do not touch it. -/
def PanelRec.note (f : PanelRec) (r e : Nat) (v : AccE) : PanelRec :=
  if v.poison || !nonFin32 v.bits then f else f.write r e (isNan32 v.bits)

/-- Word 15 of a descriptor as MFLG writes it (R92). -/
def PanelRec.toWord (f : PanelRec) : W32 :=
  BitVec.ofNat 32 (fld (b2n f.nf) 31 + fld (b2n f.nan) 30 + fld (b2n f.sat) 29 + fld f.count 17 +
    (if f.nf then fld (f.pos / 128) 7 + f.pos % 128 else 0))

/-- R168: set tile t's step poison bit. -/
def Pkg.setStepPoison (p : Pkg) (t : Nat) : Pkg := p.setTile t { p.tile t with stepPoison := true }

/-- R51, R59, R168: a load or stream of tile t read a poisoned word. -/
def Pkg.poisonedOperand (p : Pkg) (t : Nat) : Pkg := (p.raise 0x3005 t 0).setStepPoison t

end Sys2Proof.Machine
end

