-- ==== Sys2Proof/Machine/Matrix.lean ====
section
/-! DEFINITION. Machine/Matrix.lean: the matrix slot (R37 to R56, R85 to R102), the weight registers' scrubber
(R36), tile self-test (R57) and the tile SRAM windows (R34). -/
namespace Sys2Proof.Machine

/-- Change the matrix array of tile t. -/
def Pkg.setMx (p : Pkg) (t : Nat) (m : Matrix) : Pkg := p.setTile t { p.tile t with mx := m }

/-! ## Weight registers (R35, R36) -/

/-- The 16 bits of cell (i, j): word i·16 + j/8, lane j mod 8. Plane 1 holds bits [31:16] of an FP32 element of a
plain load (log 14). -/
def WReg.cell (w : WReg) (plane i j : Nat) : Nat :=
  let d := (w.cells.at zeroWord (plane * 2048 + i * 16 + j / 8)).data.toNat
  bits d (16 * (j % 8) + 15) (16 * (j % 8))

/-- The element code at reduction row r and column j (R35). -/
def WReg.code (w : WReg) (r j : Nat) : Nat :=
  if w.passes ≠ 0 then w.cell 0 r j
  else if fmtClass w.fmt = 1 then bits (w.cell 0 (r / 2) j) (if r % 2 = 0 then 5 else 13) (if r % 2 = 0 then 0 else 8)
  else if w.fmt = 8 then w.cell 0 r j + 2 ^ 16 * w.cell 1 r j
  else w.cell 0 r j

/-- The fine code of the stored element at (r, j): 1 where the register carries none (R35, R66). -/
def WReg.fineAt (w : WReg) (r j : Nat) : Nat := if w.hasFine then w.fine.at 0 (r / 32 * 128 + j) else 0x30

/-- The stored element's exact value through its scales (R64, R85). -/
def WReg.val (w : WReg) (r j : Nat) : FVal :=
  if w.passes ≠ 0 then decodeElem 6 (w.code r j)
  else scaled w.fmt (w.code r j) w.coarse (w.fineAt r j)

/-- K of the register, 128 where it records the state unloaded (R45). -/
def WReg.k (w : WReg) : Nat := if w.loaded then w.rows else 128

/-- The reduction rows that one cell row holds (R35, R37). -/
def rowsPerCell (f : Nat) : Nat := if fmtClass f = 1 then 2 else 1

/-- The BF16 part of an FP32 element that a load or a stream splits off (R90): hi, mid, lo as 0, 1, 2. Under P = 2
the second part is lo. A mid or lo part equal to zero is +0 (R91). -/
def splitPart (passes part : Nat) (x : FVal) : FVal :=
  match x with
  | .fin s m e =>
    let hi := truncBf16 x
    let low (v : FVal) : FVal := if (truncBf16 v).isZero then .fin false 0 0 else truncBf16 v
    if part = 0 then hi
    else
      let r1 := (FVal.fin s m e).add hi.opp
      let mid := low r1
      if part = 1 ∨ passes = 2 then mid else low (r1.add mid.opp)
  | v => if part = 0 then v else .fin false 0 0

/-- The BF16 code of a part. -/
def bf16Code (v : FVal) : Nat :=
  match v with
  | .nan => 0x7FC0
  | .inf s => if s then 0xFF80 else 0x7F80
  | .fin s m e => (roundMag 7 127 .rtz s m e).1 + (if s then 0x8000 else 0)

/-- Write the code of the element at (r, j) into cells held as numbers. -/
def cellBits (f r code : Nat) : Nat :=
  if fmtClass f = 1 then (if r % 2 = 0 then code else code * 256) else code

/-- The cells of plane `plane` of a panel: code r j gives the elements (R35, R36). -/
def packCells (f k n plane : Nat) (code : Nat → Nat → Nat) : SMap PWord :=
  let rpc := rowsPerCell f
  let cell (i j : Nat) : Nat :=
    if j < n then
      (List.range rpc).foldl (fun acc o =>
        let r := rpc * i + o
        if r < k then acc + cellBits f r (code r j / 2 ^ (16 * plane) % 2 ^ 16) else acc) 0
    else 0
  (List.range (ceilDiv k rpc * 16)).foldl (fun m wi =>
    let d := (List.range 8).foldr (fun l acc => cell (wi / 16) (wi % 16 * 8 + l) + 2 ^ 16 * acc) 0
    m.put zeroWord (plane * 2048 + wi) (goodWord (BitVec.ofNat 128 d))) []

/-- What an MLW loads (R35, R41, R43, R51, R90): the register, and whether a word it read was poisoned. -/
def Pkg.loadPanel (p : Pkg) (a : MSlot) : WReg :=
  let t := a.t.val
  let x := mdesc (p.tile t).md a.desc.val
  let k := a.count.toNat
  let nRows := if a.tr then x.nCols else k
  let nElem := if a.tr then k else x.nCols
  let rows := (List.range nRows).map fun m => p.elemRow t (x.src + m * x.stride) x.fmt nElem
  let w0 := p.scaleWord0 x.tensor
  let hasFine := carriesFine x.fmt (w0.getD 0)
  let nBlk := ceilDiv k 32
  let fines := if hasFine then (List.range x.nCols).map fun j => p.fineRow t (x.scale + j * scaleStride nBlk) nBlk
    else []
  let code (r j : Nat) : Nat := if a.tr then ((rows.getD j ([], false)).1.getD r 0) else ((rows.getD r ([], false)).1.getD j 0)
  let multi := decide (x.mp ≠ 0 ∧ x.fmt = 8)
  let part (r j : Nat) : Nat :=
    if multi then bf16Code (splitPart (x.mp + 1) a.part.toNat (decodeElem 8 (code r j))) else code r j
  { loaded := true
    fmt := x.fmt
    rows := k
    coarse := coarseOf (w0.getD (127 * 2 ^ 24))
    tensor := x.tensor
    part := a.part
    passes := if x.mp = 0 then 0 else x.mp + 1
    hasFine := hasFine
    poison := rows.any (·.2) || fines.any (·.2) || w0.isNone
    cells := packCells x.fmt k x.nCols 0 part ++
      (if x.fmt = 8 ∧ x.mp = 0 then packCells x.fmt k x.nCols 1 part else [])
    fine := (List.range nBlk).foldl (fun m g => (List.range x.nCols).foldl (fun m j =>
      m.put 0 (g * 128 + j) ((fines.getD j ([], false)).1.getD g 0)) m) [] }

/-! ## Streams: issue (R41 to R47, R85, R89, R101) -/

/-- Whether an MWT writes two accumulator-store rows per streamed row (R39, R85). For 128 < K < 256, of which the spec does not
speak, this is the model's reading (DEDUCED, log 91): results 128 to K − 1 need the second row. -/
def wideT (w : WReg) : Bool := decide (fmtClass w.fmt = 1 ∧ w.loaded ∧ w.rows > 128)

/-- R45, R101: the streamed format and the register do not pair. -/
def mismatch (x : MDesc) (part : Nat) (xFine : Bool) (w : WReg) : Bool :=
  if !w.loaded then true
  else if decide (w.passes ≠ 0) != decide (x.mp ≠ 0) then true
  else if decide (x.mp ≠ 0) &&
      (decide (w.passes ≠ x.mp + 1) ||
        decide (w.part.toNat ≠ if part = 0 then 0 else if x.mp = 1 then 2 else part)) then true
  else if x.mode = 2 then
    xFine || w.hasFine ||
      !(decide (x.fmt ≤ 1 ∧ w.fmt ≤ 1) || decide (x.fmt = 6 ∧ w.fmt = 6) || decide (x.fmt = 7 ∧ w.fmt = 7))
  else if x.mode = 1 ∨ x.mp ≠ 0 then decide (x.fmt ≠ 8 ∨ w.fmt ≠ 8)
  else if x.fmt = 8 ∨ w.fmt = 8 then true
  else decide (fmtClass x.fmt ≠ fmtClass w.fmt) || (decide (x.fmt = 2) != decide (w.fmt = 2))

/-- The accumulator-store row of a stream that result row q (0 upward) of its rows goes to: streamed row, and the
offset of its first result (R39). -/
def Stream.rowAt (s : Stream) (r : Nat) : Option (Nat × Nat) :=
  let per := if s.trans && wideT s.w then 2 else 1
  if s.asBase ≤ r ∧ r < s.asBase + per * s.rows.length then
    some ((r - s.asBase) / per, (r - s.asBase) % per * 128)
  else none

/-- The number of accumulator-store rows that a stream writes (R39). -/
def Stream.accRows (s : Stream) : Nat := (if s.trans && wideT s.w then 2 else 1) * s.rows.length

/-- The cycle at which streamed row m has entered the array: the last of its c cycles (R46, R47). -/
def Stream.entered (s : Stream) (m : Nat) : Nat := s.issue + (m + 1) * s.c - 1

/-- The cycle at which a stream's last result is written (R46). -/
def Stream.lastLand (s : Stream) : Nat := s.entered (s.rows.length - 1) + s.lat

/-- The accumulator-store rows, from its first, that a stream has written by cycle c (R46). -/
def Stream.dueRows (s : Stream) (c : Nat) : Nat :=
  (if s.trans && wideT s.w then 2 else 1) * min s.rows.length ((c + 1 - (s.issue + s.lat)) / s.c)

/-- The tag that accumulator-store row r has once the streams in flight have landed (R89). -/
def Matrix.tagAt (m : Matrix) (r : Nat) : AccTag :=
  m.inflight.foldl (fun g s =>
    if (s.rowAt r).isSome && (!s.acc || decide (g = .untyped)) then (if s.wInt then .int else .float) else g)
    (m.rows.at AccRow.reset r).tag

/-- The register of a slot. -/
def Matrix.wreg (m : Matrix) (sel : Bool) : WReg := if sel then m.w1 else m.w0

/-- The stream that an MWS or MWT makes at its issue: rows and weights as read then. It is bad where R45 or R101 refuses its
pair, or where it accumulates into a row of the other path (R89). -/
def Pkg.makeStream (p : Pkg) (trans : Bool) (a : MSlot) : Stream :=
  let t := a.t.val
  let x := mdesc (p.tile t).md a.desc.val
  let w := (p.tile t).mx.wreg a.wsel
  let w0 := p.scaleWord0 x.tensor
  let fine := carriesFine x.fmt (w0.getD 0)
  let n := if trans then x.nCols else w.k
  let int := decide (x.fmt = 2 ∧ w.fmt = 2 ∧ w.loaded) && !fine && !w.hasFine
  let nAcc := (if trans && wideT w then 2 else 1) * a.count.toNat
  let clash := a.acc && (List.range nAcc).any fun i =>
    let g := (p.tile t).mx.tagAt (x.asBase + i)
    decide (g ≠ .untyped) && decide (g ≠ if int then .int else .float)
  let rows := (List.range a.count.toNat).map fun m =>
    let e := p.elemRow t (x.src + m * x.stride) x.fmt n
    let fc := if fine then p.fineRow t (x.scale + (if x.stride = 0 then 0 else m * 64)) (ceilDiv n 32) else ([], false)
    (⟨e.1, fc.1, e.2 || fc.2 || w0.isNone⟩ : SRow)
  { trans := trans
    wsel := a.wsel
    rows := rows
    w := w
    fmt := x.fmt
    mode := BitVec.ofNat 2 x.mode
    mp := BitVec.ofNat 2 x.mp
    part := a.part
    sr := x.sr
    acc := a.acc
    hasFine := fine
    coarse := coarseOf (w0.getD (127 * 2 ^ 24))
    wInt := int
    asBase := x.asBase
    nCols := x.nCols
    outTensor := x.outTensor
    elemBase := x.elemBase
    bad := mismatch x a.part.toNat fine w || clash
    issue := a.cyc
    c := streamC x a.part.toNat
    lat := streamF x
    landed := 0
    sat := false }

/-- The accumulator-store rows that a slot reads or writes, each with the cycle of its access after issue: a stream's when the
row has entered (R46, R48). -/
def accessRows (m : Matrix) (op : MOp) (a : MSlot) (x : MDesc) : List (Nat × Nat) :=
  let n := a.count.toNat
  match op with
  | .mlw => []
  | .mws => (List.range n).map fun i => (x.asBase + i, (i + 1) * streamC x a.part.toNat - 1)
  | .mwt =>
    let per := if wideT (m.wreg a.wsel) then 2 else 1
    (List.range (per * n)).map fun i => (x.asBase + i, (i / per + 1) * streamC x a.part.toNat - 1)
  | _ => (List.range n).map fun i => (x.asBase + i, i)

/-- Row r has a write in flight that does not land before cycle c (R46, R48). -/
def rowBusy (m : Matrix) (r c : Nat) : Bool :=
  m.inflight.any (fun s => match s.rowAt r with
    | some (q, _) => decide (c < s.entered q + s.lat)
    | none => false) ||
  m.clears.any fun e => decide (e.1 ≤ r ∧ r < e.1 + e.2.1 ∧ c ≤ e.2.2 + (r - e.1))

/-- The five interlocks of R48: whether instruction `op` of slot a must be held at its cycle. -/
def interlocked (m : Matrix) (op : MOp) (a : MSlot) (x : MDesc) : Bool :=
  let rows := accessRows m op a x
  let third := rows.any fun e => rowBusy m e.1 (a.cyc + e.2)
  let flying (s : Stream) := decide (a.cyc < s.lastLand)
  match op with
  | .mlw =>
    decide (a.cyc < m.loadBusy) ||
      m.inflight.any fun s => decide (s.wsel = a.wsel ∧ a.cyc < s.entered (s.rows.length - 1) + (s.lat - 16) / 2)
  | .mws => decide (a.cyc < m.pathBusy) || m.inflight.any (fun s => s.trans && flying s) || third
  | .mwt => decide (a.cyc < m.pathBusy) || m.inflight.any (fun s => !s.trans && flying s) || third
  | _ => third

/-! ## Current shaping (R55) -/

/-- The dummy cycles of an MNOP of `n` cycles (R55): all of a short one; of a long one the cycles of its two ramps, all of them
(the spec does not say how many cycles of a ramp count: DESIGN CHOICE, log 73). -/
def mnopDummy (p : Pkg) (n : Nat) : Nat :=
  if p.reg O.dummyFloor = 0 then 0
  else if n ≤ p.reg O.gapThreshold then n
  else min n (2 * (ceilDiv (p.reg O.dummyFloor) (p.reg O.rampStep) * p.reg O.rampInterval))

/-- Count n dummy cycles for tile t. -/
def Pkg.addDummy (p : Pkg) (t n : Nat) : Pkg := p.bump64 (p.tileCounter O.tileCounters 1 t) n

/-- R55: the idle time since the array was last active, up to cycle c, is an unmarked gap at the floor. -/
def Pkg.settleGap (p : Pkg) (t c : Nat) : Pkg :=
  let m := (p.tile t).mx
  if m.activeEnd < c ∧ p.reg O.dummyFloor ≠ 0 then p.addDummy t (c - m.activeEnd) else p

/-- Entry i of a stored word as a read gives it: checked (R250), and poison where the check fails or the entry is marked. -/
def AccWord.entry (w : AccWord) (i : Nat) : AccE :=
  match readWord w.word with
  | some d => ⟨d.extractLsb' (32 * i) 32, w.marks.getLsbD i⟩
  | none => ⟨0, true⟩

/-- Four entries as a stored word with its check bits. -/
def packAcc (l : List AccE) : AccWord :=
  ⟨goodWord (BitVec.ofNat 128 (l.foldr (fun v n => v.bits.toNat + 2 ^ 32 * n) 0)),
    BitVec.ofNat 4 (l.foldr (fun v n => b2n v.poison + 2 * n) 0)⟩

/-- The stored word as one protected word of another store; a marked entry poisons it (R85, R117). -/
def AccWord.packed (w : AccWord) : Option W128 := if w.marks = 0 then readWord w.word else none

/-- Word k of row r. -/
def Matrix.word (m : Matrix) (r k : Nat) : AccWord := m.acc.at AccWord.reset (r * 32 + k)

/-- An accumulator-store entry. -/
def Matrix.entry (m : Matrix) (r e : Nat) : AccE := (m.word r (e / 4)).entry (e % 4)

/-- Row r with its first entries replaced by those of l. -/
def Matrix.putRow (m : Matrix) (r : Nat) (l : List AccE) : SMap AccWord :=
  (List.range (ceilDiv l.length 4)).foldl (fun acc k =>
    acc.put AccWord.reset (r * 32 + k) (packAcc ((List.range 4).map fun i => l.getD (4 * k + i) (m.entry r (4 * k + i)))))
    m.acc

/-! ## Results (R85 to R102) -/

/-- A subnormal binary32 or element reads as zero of its sign (R102). -/
def flushElem (f code : Nat) (v : FVal) : FVal :=
  match v with
  | .fin s m e =>
    let w := fmtOf f
    if m ≠ 0 ∧ code % 2 ^ (w.width - 1) < 2 ^ w.man then .fin s 0 e else .fin s m e
  | u => u

/-- R86, R87: the group sum of exact products on the grid 2^(E_g − g). -/
def groupSum (g : Int) (ps : List FVal) : FVal :=
  if ps.any (·.isNan) then .nan
  else if ps.any (fun q => q.isInf && !q.neg) && ps.any (fun q => q.isInf && q.neg) then .nan
  else if ps.any (·.isInf) then .inf (ps.any fun q => q.isInf && q.neg)
  else
    let nz := ps.filter fun q => !q.isZero
    match nz.map (·.expo) |>.max? with
    | none => .fin (ps.all (·.neg)) 0 0
    | some eg =>
      let q := eg - g
      let s := ps.foldl (fun acc v => acc + v.onGrid q) 0
      if s = 0 then .fin (ps.all fun v => v.neg && v.isZero) 0 0 else FVal.ofInt s q

/-- R86: s + 3 of the streamed class. -/
def gridBits (f : Nat) : Int :=
  if f = 2 then 17 else if fmtClass f ≤ 1 then 11 else 25

/-- The streamed element's value of reduction position i of row r (R64, R85). -/
def Stream.xval (s : Stream) (r : SRow) (i : Nat) : FVal :=
  scaled s.fmt (r.codes.getD i 0) s.coarse (if s.hasFine then r.fine.getD (i / 32) 0x30 else 0x30)

/-- The stored element opposite reduction position i for output o (R37). -/
def Stream.wpos (s : Stream) (i o : Nat) : Nat × Nat := if s.trans then (o, i) else (i, o)

/-- The reduction positions that exist (R85). -/
def Stream.nRed (s : Stream) : Nat := if s.trans then s.nCols else s.w.k

/-- The results per streamed row (R85). -/
def Stream.nOut (s : Stream) : Nat := if s.trans then s.w.k else s.nCols

/-- A product of a multi-pass phase (R91): a mid or lo part equal to zero makes an exact zero. -/
def partProduct (x w : FVal) (xLow wLow : Bool) : FVal :=
  if (xLow && x.isZero) || (wLow && w.isZero) then .fin (x.neg != w.neg) 0 0 else x.mul w

/-- The streamed parts that a phase multiplies (R49, R91). -/
def phaseParts (mp part : Nat) : List Nat := List.range (phaseProducts mp part)

/-- The products that the cells at reduction position i form for output o (R85, R91, R102). -/
def Stream.products (s : Stream) (r : SRow) (o i : Nat) : List FVal :=
  let (wr, wj) := s.wpos i o
  if s.mp ≠ 0 then
    let x := decodeElem 8 (r.codes.getD i 0)
    (phaseParts s.mp.toNat s.part.toNat).map fun q =>
      partProduct (splitPart (s.mp.toNat + 1) q x) (s.w.val wr wj) (decide (q ≠ 0)) (decide (s.w.part ≠ 0))
  else if s.mode = 2 then
    [((flushElem s.fmt (r.codes.getD i 0) (decodeElem s.fmt (r.codes.getD i 0))).scale s.coarse).mul
      ((flushElem s.w.fmt (s.w.code wr wj) (decodeElem s.w.fmt (s.w.code wr wj))).scale s.w.coarse)]
  else [(s.xval r i).mul (s.w.val wr wj)]

/-- The reduction positions of group g (R38, R86, R102). -/
def Stream.group (s : Stream) (g : Nat) : List Nat :=
  let n := if s.mode = 2 then 16 else if s.trans then 32 else 32 * rowsPerCell s.w.fmt
  (List.range n).filterMap fun i => if g * n + i < s.nRed then some (g * n + i) else none

/-- The groups of a stream: four, or eight in M2 replica mode (R38, R102). -/
def Stream.nGroups (s : Stream) : Nat := if s.mode = 2 then 8 else 4

/-- R88: A ← round(A + G). -/
def accUpdate (rnd : Rnd) (a : W32) (g : FVal) : W32 := toF32 rnd ((f32 a).add g)

/-- R102: A ← A + G toward zero; a result below 2^−126 is zero of its sign. -/
def m2Update (a : W32) (g : FVal) : W32 :=
  let r := toF32 .rtz ((f32 a).add g)
  if r.toNat % 2 ^ 31 < 2 ^ 23 then r &&& 0x80000000 else r

/-- R99, R100: fused multiply-adds in ascending order. -/
def refDot (xs ws : List W32) (acc : W32) : W32 := (xs.zip ws).foldl (fun a e => fFma e.1 e.2 a) acc

/-- R89: an INT32 accumulator update, saturating; and whether it saturated. -/
def intUpdate (a : W32) (g : Int) : W32 × Bool :=
  let v := a.toInt + g
  if v < -(2 ^ 31) then (0x80000000, true)
  else if v > 2 ^ 31 - 1 then (0x7FFFFFFF, true)
  else (BitVec.ofInt 32 v, false)

/-- The signed value of an INT8 code (R62). -/
def int8 (c : Nat) : Int := if c % 256 < 128 then (c % 256 : Nat) else ((c % 256 : Nat) : Int) - 256

/-- One result: entry o of streamed row r, from start value a, with the row's draw counter and the entry's element
index (R84 to R102). -/
def Stream.result (s : Stream) (seed step : Nat) (r : SRow) (o : Nat) (a : W32) (draw elem : Nat) : W32 × Bool :=
  if s.mode = 1 then
    (refDot ((List.range s.nRed).map fun i => BitVec.ofNat 32 (r.codes.getD i 0))
      ((List.range s.nRed).map fun i => BitVec.ofNat 32 (s.w.code (s.wpos i o).1 (s.wpos i o).2)) a, false)
  else
    (List.range s.nGroups).foldl (fun acc g =>
      let ps := s.group g
      if ps.isEmpty then acc
      else if s.wInt then
        let u := intUpdate acc.1 (ps.foldl (fun z i =>
          z + int8 (r.codes.getD i 0) * int8 (s.w.code (s.wpos i o).1 (s.wpos i o).2)) 0)
        (u.1, acc.2 || u.2)
      else
        let prods := ps.flatMap (s.products r o)
        if s.mode = 2 then
          (m2Update acc.1 (groupSum ((fmtOf s.fmt).man + (fmtOf s.w.fmt).man + 2) prods), acc.2)
        else
          let rnd := if s.sr then Rnd.stoch (drawU seed step s.outTensor elem (draw + g) 0) else .rne
          (accUpdate rnd acc.1 (groupSum (if s.mp ≠ 0 then 25 else gridBits s.fmt) prods), acc.2))
      (a, false)

/-- The row tag that a stream's path gives (R89). -/
def Stream.tag (s : Stream) : AccTag := if s.wInt then .int else .float

/-- The write of one row of results (R85, R88, R89, R92, R97): the array, and whether an entry saturated. An untyped row takes the tag of the
stream's path with acc = 1 too (DESIGN CHOICE, log 73). -/
def Stream.landRow (s : Stream) (seed step : Nat) (bad : Bool) (m : Matrix) (i : Nat) : Matrix × Bool :=
  let r := s.asBase + i
  match s.rowAt r with
  | none => (m, false)
  | some (q, off) =>
    let row := s.rows.getD q ⟨[], [], true⟩
    let poison := bad || s.w.poison || row.poison
    let st := m.rows.at AccRow.reset r
    let draw := if s.acc then st.draw.toNat else 0
    let out := (List.range (min 128 (s.nOut - off))).foldl (fun (acc : List AccE × PanelRec × Bool) e =>
      let old := m.entry r e
      let st0 : W32 := if s.acc && decide (st.tag ≠ .untyped) then old.bits else 0
      let start : W32 := if s.mode = 2 ∧ st0.toNat % 2 ^ 31 < 2 ^ 23 then st0 &&& 0x80000000 else st0
      let v : AccE × Bool :=
        if poison || (s.acc && old.poison) then (⟨0, true⟩, false)
        else
          let u := s.result seed step row (off + e) start draw ((s.elemBase + i * 128 + e) % 2 ^ 46)
          (⟨u.1, false⟩, u.2)
      (acc.1 ++ [v.1], if s.wInt then acc.2.1 else acc.2.1.note r e v.1, acc.2.2 || v.2))
      ([], m.panel, false)
    let tag := if s.acc && decide (st.tag ≠ .untyped) then st.tag else s.tag
    ({ m with
        acc := m.putRow r out.1
        panel := out.2.1
        rows := m.rows.put AccRow.reset r ⟨tag, BitVec.ofNat 16 (draw + s.nGroups)⟩ }, out.2.2)

/-- Stream s of tile t lands its accumulator-store rows up to the n-th (R46, R92). It stays in flight, behind the streams of the
list, while rows of it are left; a saturated row raises event 0x3502 once per stream (R89). -/
def Pkg.landRows (p : Pkg) (t : Nat) (s : Stream) (n : Nat) : Pkg :=
  let m := (p.tile t).mx
  let out := (List.range (n - s.landed)).foldl (fun (acc : Matrix × Bool) i =>
    let u := s.landRow (p.reg O.domainSeed) (p.reg O.generatorStep) s.bad acc.1 (s.landed + i)
    (u.1, acc.2 || u.2)) (m, false)
  let left := if n < s.accRows then [{ s with landed := max s.landed n, sat := s.sat || out.2 }] else []
  let m := { out.1 with
    inflight := m.inflight ++ left
    panel := if out.2 then { out.1.panel with sat := true } else out.1.panel }
  if out.2 && !s.sat then ((p.setMx t m).bump (O.int32Saturations + t) 1).raise 0x3502 t 0 else p.setMx t m

/-- R46: the results of tile t that are due by cycle c land, the oldest stream first. -/
def Pkg.landDue (p : Pkg) (t c : Nat) : Pkg :=
  let m := (p.tile t).mx
  if m.inflight = [] then p
  else m.inflight.foldl (fun q s => q.landRows t s (s.dueRows c)) (p.setMx t { m with inflight := [] })

/-- R46: what is left of the oldest stream's results lands. -/
def landStream (p : Pkg) (t : Nat) : Pkg :=
  let m := (p.tile t).mx
  match m.inflight with
  | [] => p
  | s :: rest =>
    let q := (p.setMx t { m with inflight := [] }).landRows t s s.accRows
    q.setMx t { (q.tile t).mx with inflight := (q.tile t).mx.inflight ++ rest }

/-! ## The meanings of the slot's instructions, once they are free to issue -/

/-- R41, R55: idle for count cycles. Where a stream is still entering, the gap is what is left of the count after it, and that length
classes it as short or long (DESIGN CHOICE, log 73). -/
def issueMnop (p : Pkg) (a : MSlot) : Pkg :=
  let t := a.t.val
  let n := a.count.toNat
  if n = 0 then p
  else
    let q := p.settleGap t a.cyc
    let m := (q.tile t).mx
    let s := max m.activeEnd a.cyc
    (q.addDummy t (mnopDummy q (a.cyc + n - s))).setMx t { m with activeEnd := max m.activeEnd (a.cyc + n) }

/-- R35, R46, R51: a panel is loaded over 136 cycles. No interlock of R48 holds a stream on the register during them, so such a stream
takes the new panel (DESIGN CHOICE, log 73). -/
def issueMlw (p : Pkg) (a : MSlot) : Pkg :=
  let t := a.t.val
  let w := p.loadPanel a
  let m := (p.tile t).mx
  let m := if a.wsel then { m with w1 := w } else { m with w0 := w }
  let x := mdesc (p.tile t).md a.desc.val
  let n := a.count.toNat
  let q := p.setMx t { m with loadBusy := a.cyc + 136 }
  let q := q.bankRows t bankLoad a.cyc 1 x.src x.stride (packedBytes x.fmt (if a.tr then n else x.nCols))
    (if a.tr then x.nCols else n)
  if w.poison then q.poisonedOperand t else q

/-- R46, R47: a stream enters; its results land later. -/
def issueStream (p : Pkg) (trans : Bool) (a : MSlot) : Pkg :=
  let t := a.t.val
  let s := p.makeStream trans a
  let q := p.settleGap t a.cyc
  let m := (q.tile t).mx
  let n := s.rows.length * s.c
  let q := q.bump64 (q.tileCounter O.tileCounters 0 t) n
  let q := q.setMx t { m with inflight := m.inflight ++ [s], pathBusy := a.cyc + n, activeEnd := a.cyc + n }
  let x := mdesc (p.tile t).md a.desc.val
  let q := q.bankRows t bankStream a.cyc s.c x.src x.stride (packedBytes x.fmt (if trans then x.nCols else s.w.k))
    s.rows.length
  let q := if s.rows.any (·.poison) then q.poisonedOperand t else q
  if s.bad then q.raise 0x3008 t 0 else q

/-- A row of the store as a drain reads it, word by word. -/
def Matrix.row (m : Matrix) (r : Nat) : List AccWord := (List.range 32).map (m.word r)

/-- R41: MDR writes row i to SRAM at src_addr + i × row_stride, 512 bytes per row, each as it stands in its own cycle. -/
def issueMdr (p : Pkg) (a : MSlot) : Pkg :=
  let t := a.t.val
  let x := mdesc (p.tile t).md a.desc.val
  let n := a.count.toNat
  let m := ((p.landDue t (a.cyc + n - 1)).tile t).mx
  (List.range n).foldl (fun q i =>
    let row := m.row (x.asBase + i)
    (List.range 32).foldl (fun q k =>
      q.sramWrite (sramAddr t (x.src + i * x.stride + 16 * k)) (row.getD k AccWord.reset).packed) q)
    (p.bankRows t bankDrain a.cyc 1 x.src x.stride 512 n)

/-- Push the rows of the waiting MDVs, oldest first, while the queue holds fewer than 32 (R117): each row arrives one
cycle after the one before at the earliest, and not before cycle `now`. Returns the cycles held as well, and whether a row of
an MDV was held for the first time, once for each such MDV. -/
def mdvPush (now : Nat) : Nat → VecEng → VecEng × Nat × Nat
  | 0, v => (v, 0, 0)
  | n + 1, v =>
    match v.mdv with
    | [] => (v, 0, 0)
    | d :: r =>
      match d.rows with
      | [] => mdvPush now n { v with mdv := r }
      | row :: rest =>
        if v.queue.length ≥ 32 then
          if d.want ≤ now ∧ d.held = false then ({ v with mdv := { d with held := true } :: r }, 0, 1) else (v, 0, 0)
        else
          let at' := max d.want now
          let late := decide (d.want < at')
          let u := mdvPush now n { v with
            queue := v.queue ++ [(at', row)]
            mdv := { d with rows := rest, want := at' + 1, held := d.held || late } ::
              r.map fun e => { e with want := max e.want (at' + 1 + rest.length) } }
          (u.1, u.2.1 + (at' - d.want), u.2.2 + b2n (late && !d.held))

/-- Steps that suffice for mdvPush: each pushes a row or drops a finished MDV. -/
def mdvFuel (v : VecEng) : Nat := 40 + v.mdv.length

/-- R117: the rows of tile t's MDVs that find room by cycle c are pushed; the cycles held are counted, and each MDV that a full
queue holds raises event 0x3602 once. -/
def Pkg.drainRows (p : Pkg) (t c : Nat) : Pkg :=
  let ti := p.tile t
  let u := mdvPush c (mdvFuel ti.vec) ti.vec
  let q := p.setTile t { ti with vec := u.1 }
  let q := if u.2.1 = 0 then q else q.bump64 (q.tileCounter O.vectorCounters 3 t) u.2.1
  (List.range u.2.2).foldl (fun q _ => q.raise 0x3602 t 0) q

/-- R117: a row of an MDV is held at cycle c: the matrix slot's next instruction waits behind it. -/
def VecEng.mdvHeld (v : VecEng) (c : Nat) : Bool := v.mdv.any fun d => !d.rows.isEmpty && decide (d.want ≤ c)

/-- R41, R46, R117: MDV drains rows into the vector engine's queue, one row per cycle; a row that finds the queue
full is held. -/
def issueMdv (p : Pkg) (a : MSlot) : Pkg :=
  let t := a.t.val
  let x := mdesc (p.tile t).md a.desc.val
  let ti := p.tile t
  let n := a.count.toNat
  let m := ((p.landDue t (a.cyc + n - 1)).tile t).mx
  let start := ti.vec.mdv.foldl (fun c d => max c (d.want + d.rows.length)) a.cyc
  let v := { ti.vec with mdv := ti.vec.mdv ++ [⟨(List.range n).map fun i => m.row (x.asBase + i), start, false⟩] }
  (p.setTile t { ti with vec := v }).drainRows t a.cyc

/-- R41, R46, R89, R97: rows to +0, marks and draw counters cleared, rows untyped. -/
def issueMclr (p : Pkg) (a : MSlot) : Pkg :=
  let t := a.t.val
  let m := (p.tile t).mx
  let x := mdesc (p.tile t).md a.desc.val
  let n := a.count.toNat
  let inRows (r : Nat) : Bool := decide (x.asBase ≤ r ∧ r < x.asBase + n)
  p.setMx t { m with
    acc := m.acc.filter fun e => !inRows (e.1 / 32)
    rows := m.rows.filter fun e => !inRows e.1
    clears := (m.clears.filter fun e => decide (a.cyc < e.2.2 + e.2.1)) ++ [(x.asBase, n, a.cyc)] }

/-- R92, R93: word 15 of the descriptor takes the record, which is cleared. -/
def issueMflg (p : Pkg) (a : MSlot) : Pkg :=
  let t := a.t.val
  let ti := p.tile t
  let r := ti.mx.panel
  let q := p.setTile t { ti with md := ti.md.put 0 (a.desc.val * 16 + 15) r.toWord, mx := { ti.mx with panel := PanelRec.reset } }
  if r.nf then (q.bump (O.panelFlagSets + t) 1).raise 0x3501 t 0 else q

/-- Issue an instruction that no interlock holds. -/
def issueM (p : Pkg) (op : MOp) (a : MSlot) : Pkg :=
  match op with
  | .mlw => issueMlw p a
  | .mws => issueStream p false a
  | .mwt => issueStream p true a
  | .mdr => issueMdr p a
  | .mdv => issueMdv p a
  | .mclr => issueMclr p a

/-- R10, R43, R46, R48: the results due by the slot's cycle land; a slot of count 0 or n_cols 0 does nothing; an interlocked one is
held with event 0x3003; another issues. While the bundle is held (R133), or a row of an earlier MDV (R117), nothing issues. -/
def slotM (p : Pkg) (op : MOp) (a : MSlot) : Pkg :=
  let p := (p.landDue a.t.val a.cyc).drainRows a.t.val a.cyc
  let m := (p.tile a.t.val).mx
  let x := mdesc (p.tile a.t.val).md a.desc.val
  if (p.tile a.t.val).free = false ∨ (p.tile a.t.val).vec.mdvHeld a.cyc ∨ a.count = 0 ∨ x.nCols = 0 then p
  else if interlocked m op a x then (p.setMx a.t.val { m with held := some (op, a) }).raise 0x3003 a.t.val 0
  else issueM p op a

/-- Whether a row lies wholly in tile SRAM. -/
def inSram (off n : Nat) : Bool := decide (off + n ≤ tileSize)

/-- The limits of R42 on a slot: its count against as_base, K against its class, and every byte it touches. A slot of count 0 or
n_cols 0 touches none (DEDUCED, log 91). -/
def limitsM (p : Pkg) (op : MOp) (a : MSlot) : Bool :=
  let t := p.tile a.t.val
  let x := mdesc t.md a.desc.val
  let n := a.count.toNat
  let w := t.mx.wreg a.wsel
  let fine := match p.scaleWord0 x.tensor with
    | some w => carriesFine x.fmt w
    | none => false
  let none := decide (n = 0 ∨ x.nCols = 0)
  let scales (k : Nat) := none || !fine || decide (k = 0) || inSram x.scale (64 * k)
  let rows (k e : Nat) := none || decide (k = 0) || inSram (x.src + (k - 1) * x.stride) (packedBytes x.fmt e)
  match op with
  | .mlw =>
    decide (n ≤ if fmtClass x.fmt = 1 then 256 else 128) &&
      (if a.tr then rows x.nCols n else rows n x.nCols) && scales x.nCols
  | .mws => decide (x.asBase + n ≤ 1024) && rows n w.k && scales (if x.stride = 0 then 1 else n)
  | .mwt =>
    decide (x.asBase + (if wideT w then 2 else 1) * n ≤ 1024) && rows n x.nCols &&
      scales (if x.stride = 0 then 1 else n)
  | .mdr => decide (x.asBase + n ≤ 1024) && (none || inSram (x.src + (n - 1) * x.stride) 512)
  | _ => decide (x.asBase + n ≤ 1024)

/-- No reserved encoding in a slot's own fields or its descriptor (R40 to R43, R98). -/
def encodingM (p : Pkg) (op : MOp) (a : MSlot) : Bool :=
  let md := (p.tile a.t.val).md
  let x := mdesc md a.desc.val
  decide (a.count ≠ 0xFFFF) && mdescOk md a.desc.val &&
  (match op with
    | .mlw => !a.acc && decide (a.part ≠ 3) && loadComboOk x a.part.toNat
    | .mws => !a.tr && decide (a.part ≠ 3) && comboOk x a.part.toNat
    | .mwt => !a.tr && decide (a.part ≠ 3) && comboOk x a.part.toNat
    | _ => !a.acc && !a.tr && decide (a.part = 0) && modeOk x)

/-! ## The commands of the matrix slot -/

def execMnop (a : MSlot) (s : State) : Host.Outcome State Fault Refusal :=
  s.slot "MNOP" (decide (a.count ≠ 0xFFFF) && !a.acc && !a.tr && decide (a.part = 0)) true fun p =>
    if (p.tile a.t.val).free then issueMnop (p.landDue a.t.val a.cyc) a else p

def execMlw (a : MSlot) (s : State) : Host.Outcome State Fault Refusal :=
  s.slot "MLW" (encodingM s.pkg .mlw a) (limitsM s.pkg .mlw a) fun p => slotM p .mlw a

def execMws (a : MSlot) (s : State) : Host.Outcome State Fault Refusal :=
  s.slot "MWS" (encodingM s.pkg .mws a) (limitsM s.pkg .mws a) fun p => slotM p .mws a

def execMwt (a : MSlot) (s : State) : Host.Outcome State Fault Refusal :=
  s.slot "MWT" (encodingM s.pkg .mwt a) (limitsM s.pkg .mwt a) fun p => slotM p .mwt a

def execMdr (a : MSlot) (s : State) : Host.Outcome State Fault Refusal :=
  s.slot "MDR" (encodingM s.pkg .mdr a) (limitsM s.pkg .mdr a) fun p => slotM p .mdr a

def execMdv (a : MSlot) (s : State) : Host.Outcome State Fault Refusal :=
  s.slot "MDV" (encodingM s.pkg .mdv a) (limitsM s.pkg .mdv a) fun p => slotM p .mdv a

def execMclr (a : MSlot) (s : State) : Host.Outcome State Fault Refusal :=
  s.slot "MCLR" (encodingM s.pkg .mclr a) (limitsM s.pkg .mclr a) fun p => slotM p .mclr a

def execMflg (a : MSlot) (s : State) : Host.Outcome State Fault Refusal :=
  s.slot "MFLG" (decide (a.count = 0) && !a.acc && !a.tr && decide (a.part = 0) &&
    mdescOk (s.pkg.tile a.t.val).md a.desc.val && modeOk (mdesc (s.pkg.tile a.t.val).md a.desc.val)) true fun p =>
    if (p.tile a.t.val).free then issueMflg (p.landDue a.t.val (a.cyc - 1)) a else p

def execStreamResultWrite (t : TileNo) (s : State) : Host.Outcome State Fault Refusal :=
  s.on .data fun p => landStream p t.val

/-- R48: a held instruction whose interlock has ended issues; the cycles it was held are counted. -/
def execMatrixInterlockRelease (t : TileNo) (cyc : Nat) (s : State) : Host.Outcome State Fault Refusal :=
  s.on .data fun p =>
    let p := p.landDue t.val cyc
    let m := (p.tile t.val).mx
    match m.held with
    | none => p
    | some (op, a) =>
      let b := { a with cyc := cyc }
      if cyc < a.cyc ∨ interlocked m op b (mdesc (p.tile t.val).md a.desc.val) then p
      else
        let q := p.bump64 (p.tileCounter O.tileCounters 3 t.val) (cyc - a.cyc)
        issueM (q.setMx t.val { m with held := none }) op b

/-- R36: the scrubber reads word k of register sel: a correctable word is rewritten in place, an uncorrectable one poisons the
register. -/
def Pkg.scrubCells (p : Pkg) (t : Nat) (sel : Bool) (k : Nat) : Pkg :=
  let m := (p.tile t).mx
  let w := m.wreg sel
  let put (w : WReg) : Matrix := if sel then { m with w1 := w } else { m with w0 := w }
  match checkWord (w.cells.at zeroWord k) with
  | .clean => p
  | .corrected v _ =>
    (p.setMx t (put { w with cells := w.cells.put zeroWord k v })).bump (O.scrubCorrections + p.physTile t) 1
  | _ => ((p.setMx t (put { w with poison := true })).raise 0x3004 t 0).setStepPoison t

/-- R36: the scrubber reads the next of the 4,096 words of both registers, with the upper half of its FP32 elements (log 14). -/
def execWeightRegisterScrub (t : TileNo) (s : State) : Host.Outcome State Fault Refusal :=
  s.on .data fun p =>
    let m := (p.tile t.val).mx
    let i := m.scrub % 4096
    let sel := decide (i ≥ 2048)
    let q := p.setMx t.val { m with scrub := (i + 1) % 4096 }
    [i % 2048, 2048 + i % 2048].foldl (fun q k => q.scrubCells t.val sel k) q

/-! ## Tile self-test (R33, R57) -/

def execBistOwnerWrite (w : Writer) (d : DieNo) (v : Nat) (s : State) : Host.Outcome State Fault Refusal :=
  s.on (writerPlane w) fun p =>
    if v > 3 then
      match w with
      | .path pt => p.refuse pt (O.bistOwner + d.val) abRange
      | .unit => p
    else p.ownerWrite w (O.bistOwner + d.val) v 0x3006 d.val

/-- R57: a diagnostic request for tile v of die d while bist_owner is 3 and the tile is standby or retired. -/
def execBistRequest (pt : Path) (d : DieNo) (v : Nat) (s : State) : Host.Outcome State Fault Refusal :=
  s.on (pathPlane pt) fun p =>
    let k := O.bistRequest + d.val
    let st := p.reg (O.tileState + d.val * 52 + v)
    if v > 51 then p.refuse pt k abRange
    else if p.reg (O.bistOwner + d.val) ≠ 3 then p.refuse pt k abOwner
    else if st ≠ 1 ∧ st ≠ 3 then p.refuse pt k abState
    else ({ p with testPrev := p.testPrev.put 0 (d.val * 52 + v) st }).setReg (O.tileState + d.val * 52 + v) 2

/-- Whether a tile is past its wear limit: a prediction of 0 days (R406). -/
def Pkg.tileWears (p : Pkg) (q : Nat) : Bool :=
  (List.range 2).any fun ind => decide (p.wear.eol.at 65535 (fld 1 24 + fld ind 16 + q) = 0)

/-- R33: tile q of its die row is retired for good; a second retired tile of the row fails the package. -/
def retireTile (p : Pkg) (q : Nat) : Pkg :=
  let p := { p.setReg (O.tileState + q) 3 with retired := p.retired.put false q true }
  let row := q / 13 * 13
  if ((List.range 13).filter fun x => p.reg (O.tileState + row + x) = 3).length ≥ 2 then p.declareFailed else p

/-- R32, R33, R57: the end of a run for one tile. -/
def tileTested (owner : Nat) (failed : Bool) (p : Pkg) (q : Nat) : Pkg :=
  let under := decide (p.reg (O.tileState + q) = 2)
  if owner = 1 ∨ under then
    let prev := if under then p.testPrev.at 0 q else p.reg (O.tileState + q)
    let p := { p with testPrev := p.testPrev.del q, testFailed := p.testFailed.put false q failed }
    let p := p.setReg (O.tileState + q) prev
    if failed then retireTile p q
    else if owner = 2 then
      let p := { p with qualified := p.qualified.put false q true }
      match p.wear.qual.find (q / 13) with
      | some x => ({ p with wear := { p.wear with qual := p.wear.qual.del (q / 13) } }).setShadow (O.spareCol + q / 13) x
      | none => p
    else p
  else p

/-- R57: a run of die d ends with the failed tiles named; a start-up or qualification claim is released. -/
def execBistComplete (d : DieNo) (failed : List (Fin 52)) (s : State) : Host.Outcome State Fault Refusal :=
  s.on .control fun p =>
    let owner := p.reg (O.bistOwner + d.val)
    if owner = 0 then p
    else
      let q := (List.range 52).foldl (fun q i =>
        tileTested owner (failed.any fun f => f.val == i) q (d.val * 52 + i)) p
      if owner = 3 then q else q.setReg (O.bistOwner + d.val) 0

/-- Whether n bytes from a lie in the range of the tile SRAM windows (R34, R234). -/
def inWindows (a n : Nat) : Bool := decide (tileBase ≤ a ∧ a + n ≤ controlBase)

/-- R34: an agent reads or writes the tile SRAM windows. -/
def execTileSramWindowAccess (a : MemAccess) (s : State) : Host.Outcome State Fault Refusal :=
  s.on .control fun p =>
    match a with
    | .read addr len =>
      if !inWindows addr len then p
      else
        let r := p.anyReads (addr / 16 * 16) (if len = 0 then 0 else ceilDiv (addr % 16 + len) 16)
        r.2.emit (.readData r.1)
    | .write addr l => if inWindows addr l.length then p.anyWriteBytes addr l else p

end Sys2Proof.Machine
end

