-- ==== Sys2Proof/Machine/Special.lean ====
section
/-! DEFINITION. Machine/Special.lean: the special functions of the vector engine (R112): the exact value, enclosed in
256-bit fixed point far below half an ulp and rounded once; a lane whose enclosure meets a rounding boundary takes
Config.specialLane (log 9). Reciprocal and roots are computed exactly. -/
namespace Sys2Proof.Machine

/-- ln 2 and π, as integers over 2^256. -/
def ln2Fix : Nat := 0xB17217F7D1CF79ABC9E3B39803F2F6AF40F343267298B62D8A0D175B8BAAFA2B
def piFix : Nat := 0x3243F6A8885A308D313198A2E03707344A4093822299F31D0082EFA98EC4E6C89

/-- Fraction bits of the fixed point. -/
abbrev fixBits : Nat := 256

/-- The value ±v·2^e, known to within d units of v: its rounding, or the free lane where both ends differ. -/
def enclosed (op : Nat) (x : W32) (neg : Bool) (v d : Nat) (e : Int) : W32 :=
  let a := toF32 .rne (.fin neg (v - d) e)
  if a = toF32 .rne (.fin neg (v + d) e) then a else Config.specialLane op x

/-- The half-width of an enclosure whose value is near 2^256: 2^−180 of it. -/
abbrev fixSlack : Nat := 2 ^ 76

/-- ⌊n·2^k ÷ d⌋ with an odd last bit where the quotient is not exact: enough for one correct rounding. -/
def stickyDiv (n d : Nat) : Nat := 2 * (n / d) + (if n % d = 0 then 0 else 1)

def rcpFin (s : Bool) (m : Nat) (e : Int) : W32 := toF32 .rne (.fin s (stickyDiv (2 ^ 100) m) (-e - 101))

def sqrtFin (m : Nat) (e : Int) : W32 :=
  let m' := if e % 2 = 0 then m * 2 ^ 100 else 2 * m * 2 ^ 100
  let r := Nat.sqrt m'
  toF32 .rne (.fin false (2 * r + (if r * r = m' then 0 else 1)) ((if e % 2 = 0 then e else e - 1) / 2 - 51))

def rsqFin (m : Nat) (e : Int) : W32 :=
  let m' := if e % 2 = 0 then m else 2 * m
  let q := 2 ^ 200 / m'
  let r := Nat.sqrt q
  toF32 .rne (.fin false (2 * r + (if r * r * m' = 2 ^ 200 then 0 else 1)) (-((if e % 2 = 0 then e else e - 1) / 2) - 101))

/-- 2^f for a fraction f over 2^256: the Taylor series of e^(f ln 2). -/
def exp2Frac (f : Nat) : Nat :=
  let y := f * ln2Fix / 2 ^ fixBits
  ((List.range 64).foldl (fun (acc : Nat × Nat) k =>
    (acc.1 + acc.2, acc.2 * y / ((k + 1) * 2 ^ fixBits))) (0, 2 ^ fixBits)).1

/-- 2^y for y over 2^256: mantissa over 2^256 and exponent. -/
def exp2Fix (y : Int) : Nat × Int := (exp2Frac (y % 2 ^ fixBits).toNat, y / 2 ^ fixBits)

/-- ±m·2^e over 2^256, for e ≥ −256. -/
def toFix (s : Bool) (m : Nat) (e : Int) : Int :=
  let n : Int := (m * 2 ^ (e + fixBits).toNat : Nat)
  if s then -n else n

/-- e^x as mantissa and exponent, for x over 2^256. -/
def expFix (x : Int) : Nat × Int := exp2Fix (x * 2 ^ fixBits / (ln2Fix : Int))

/-- |x| ≥ 2^k for a finite non-zero magnitude. -/
def atLeast (m : Nat) (e : Int) (k : Int) : Bool := decide (k ≤ (m.log2 : Int) + e)

def exp2Fin (x : W32) (s : Bool) (m : Nat) (e : Int) : W32 :=
  if atLeast m e 9 then (if s then 0 else 0x7F800000)
  else
    let y := toFix s m e
    if y % 2 ^ fixBits = 0 then toF32 .rne (.fin false 1 (y / 2 ^ fixBits))
    else
      let r := exp2Fix y
      enclosed 3 x false r.1 fixSlack (r.2 - fixBits)

def expFin (x : W32) (s : Bool) (m : Nat) (e : Int) : W32 :=
  if atLeast m e 9 then (if s then 0 else 0x7F800000)
  else
    let r := expFix (toFix s m e)
    enclosed 5 x false r.1 fixSlack (r.2 - fixBits)

/-- log2 of m·2^e > 0, over 2^256. -/
def log2Fix (m : Nat) (e : Int) : Int :=
  let l := m.log2
  let up := decide (m * m > 2 ^ (2 * l + 1))
  let h := if up then l + 1 else l
  let z : Int := (((m : Int) - 2 ^ h) * 2 ^ fixBits).tdiv ((m : Int) + 2 ^ h)
  let s := ((List.range 56).foldl (fun (acc : Int × Int) k =>
    (acc.1 + acc.2.tdiv (2 * k + 1), ((acc.2 * z).tdiv (2 ^ fixBits) * z).tdiv (2 ^ fixBits))) (0, z)).1
  (e + h) * 2 ^ fixBits + (2 * s * 2 ^ fixBits).tdiv (ln2Fix : Int)

def log2Fin (x : W32) (m : Nat) (e : Int) : W32 :=
  let r := log2Fix m e
  if r = 0 then 0 else enclosed 4 x (decide (r < 0)) r.natAbs (2 ^ 40) (-fixBits)

def tanhFin (x : W32) (s : Bool) (m : Nat) (e : Int) : W32 :=
  if atLeast m e 5 then (if s then 0xBF800000 else 0x3F800000)
  else if atLeast m e (-13) then
    let r := expFix (2 * toFix false m e)
    let t := r.1 * 2 ^ r.2.toNat
    enclosed 6 x s ((t - 2 ^ fixBits) * 2 ^ fixBits / (t + 2 ^ fixBits)) (2 ^ 40) (-fixBits)
  else
    let v := m * 2 ^ 100
    let d := v / 2 ^ 28
    enclosed 6 x s (v - d) d (e - 100)

def sigmFin (x : W32) (s : Bool) (m : Nat) (e : Int) : W32 :=
  if atLeast m e 8 then (if s then 0 else 0x3F800000)
  else
    let r := expFix (toFix true m e)
    let den := 2 ^ fixBits + r.1 / 2 ^ (-r.2).toNat
    if s then enclosed 7 x false (r.1 * 2 ^ fixBits / den) fixSlack (r.2 - fixBits)
    else enclosed 7 x false (2 ^ (2 * fixBits) / den) fixSlack (-fixBits)

/-- sin(πk/D) for 0 < k/D ≤ 1/2, D = 2^q: the mantissa that goes with exponent −256 − q. -/
def sinFix (k q : Nat) : Nat :=
  let y := piFix * k / 2 ^ q
  let t := y * y / 2 ^ fixBits
  let s := ((List.range 40).foldl (fun (acc : Int × Nat) j =>
    (if j % 2 = 0 then acc.1 + acc.2 else acc.1 - acc.2, acc.2 * t / ((2 * j + 2) * (2 * j + 3) * 2 ^ fixBits)))
    (0, 2 ^ fixBits)).1
  piFix * s.toNat / 2 ^ fixBits * k

def sinpFin (x : W32) (s : Bool) (m : Nat) (e : Int) : W32 :=
  let zero : W32 := if s then 0x80000000 else 0
  if 0 ≤ e then zero
  else
    let q := (-e).toNat
    let d := 2 ^ q
    let k := m % (2 * d)
    if k % d = 0 then zero
    else
      let neg := decide (k > d)
      let k := k % d
      let k := if 2 * k > d then d - k else k
      enclosed 8 x (s != neg) (sinFix k q) (2 ^ 80 * k) (-fixBits - q)

def cospFin (x : W32) (m : Nat) (e : Int) : W32 :=
  if 0 ≤ e then (if 1 ≤ e ∨ m % 2 = 0 then 0x3F800000 else 0xBF800000)
  else
    let q := (-e).toNat
    let d := 2 ^ q
    let k := m % (2 * d)
    let k := if k > d then 2 * d - k else k
    if 2 * k = d then 0
    else
      let neg := decide (2 * k > d)
      let k := if neg then d - k else k
      enclosed 9 x neg (sinFix (d - 2 * k) (q + 1)) (2 ^ 80 * (d - 2 * k)) (-fixBits - (q + 1))

/-- R112: function n of the opcodes 0x0B + n on one lane. -/
def special (n : Nat) (x : W32) : W32 :=
  let nan : W32 := 0x7FC00000
  let inf : W32 := 0x7F800000
  let one : W32 := 0x3F800000
  match f32 x with
  | .nan => nan
  | .inf s =>
    match n with
    | 0 => if s then 0x80000000 else 0
    | 1 => if s then nan else inf
    | 2 => if s then nan else 0
    | 3 => if s then 0 else inf
    | 4 => if s then nan else inf
    | 5 => if s then 0 else inf
    | 6 => if s then 0xBF800000 else one
    | 7 => if s then 0 else one
    | _ => nan
  | .fin s 0 _ =>
    match n with
    | 0 => if s then 0xFF800000 else inf
    | 1 => x
    | 2 => if s then 0xFF800000 else inf
    | 3 => one
    | 4 => 0xFF800000
    | 5 => one
    | 6 => x
    | 7 => 0x3F000000
    | 8 => x
    | _ => one
  | .fin s m e =>
    match n with
    | 0 => rcpFin s m e
    | 1 => if s then nan else sqrtFin m e
    | 2 => if s then nan else rsqFin m e
    | 3 => exp2Fin x s m e
    | 4 => if s then nan else log2Fin x m e
    | 5 => expFin x s m e
    | 6 => tanhFin x s m e
    | 7 => sigmFin x s m e
    | 8 => sinpFin x s m e
    | _ => cospFin x m e

end Sys2Proof.Machine
end

