-- ==== Sys2Proof/Machine/Vector.lean ====
section
/-! DEFINITION. Machine/Vector.lean: the vector engine's registers, memory forms and reduction unit (R105 to R118,
R123 to R127). -/
namespace Sys2Proof.Machine

/-- Change the vector engine of tile t. -/
def Pkg.setVec (p : Pkg) (t : Nat) (v : VecEng) : Pkg := p.setTile t { p.tile t with vec := v }

/-! ## Registers and masks (R105, R107) -/

/-- Word q of register r. -/
def VecEng.word (v : VecEng) (r q : Nat) : PWord := v.regs.at zeroWord (r * 16 + q)

/-- The value of register r as read: corrected words, poison where a word cannot be read (R105, R127). -/
def VecEng.read (v : VecEng) (r : Nat) : VVal :=
  let ws := (List.range 16).map fun q => readWord (v.word r q)
  ⟨(List.range 64).map fun l => ((ws.getD (l / 4) none).getD 0).extractLsb' (32 * (l % 4)) 32, ws.map (·.isNone)⟩

/-- R105: a correctable word is written back as it is read. -/
def VecEng.fixWord (v : VecEng) (r q : Nat) : VecEng :=
  match checkWord (v.word r q) with
  | .corrected w _ => { v with regs := v.regs.put zeroWord (r * 16 + q) w }
  | _ => v

/-- R105: every word of a register that is read. -/
def VecEng.fix (v : VecEng) (r : Nat) : VecEng := (List.range 16).foldl (fun v q => v.fixWord r q) v

/-- Word q of a value, as stored: the poison pattern where it is poisoned. -/
def VVal.word (x : VVal) (q : Nat) : Option W128 :=
  if x.poison.getD q false then none
  else some (BitVec.ofNat 128 ((List.range 4).foldr (fun i acc => (x.lanes.getD (4 * q + i) 0).toNat + 2 ^ 32 * acc) 0))

/-- Write register r. -/
def VecEng.write (v : VecEng) (r : Nat) (x : VVal) : VecEng :=
  { v with regs := (List.range 16).foldl (fun m q => m.put zeroWord (r * 16 + q) (packWord (x.word q))) v.regs }

/-- Mask register k; m0 reads as all ones (R105). -/
def VecEng.mask (v : VecEng) (k : Nat) : W64 := if k = 0 then BitVec.allOnes 64 else v.masks.at 0 k

/-- Write mask register k; no instruction writes m0. -/
def VecEng.setMask (v : VecEng) (k : Nat) (m : W64) : VecEng :=
  if k = 0 then v else { v with masks := v.masks.put 0 k m }

/-- Lane l of a mask. -/
def laneOn (m : W64) (l : Nat) : Bool := m.getLsbD l

/-- Whether word q has an active lane. -/
def wordActive (m : W64) (q : Nat) : Bool := (List.range 4).any fun i => laneOn m (4 * q + i)

/-- R107, R127: the old value with the active lanes of m taken from x; inactive lanes kept, or +0 where mz is set.
A word is poisoned by an active lane's poison, or by kept lanes of a poisoned word. -/
def VVal.merge (old x : VVal) (m : W64) (mz : Bool) : VVal where
  lanes := (List.range 64).map fun l =>
    if laneOn m l then x.lanes.getD l 0 else if mz then 0 else old.lanes.getD l 0
  poison := (List.range 16).map fun q =>
    (wordActive m q && x.poison.getD q false) ||
      (!mz && old.poison.getD q false && !((List.range 4).all fun i => laneOn m (4 * q + i)))

/-- R127: the instruction met poison in a word with an active lane. -/
def metPoison (m : W64) (srcs : List VVal) : Bool :=
  srcs.any fun s => (List.range 16).any fun q => wordActive m q && s.poison.getD q false

/-- R127, R168: event 0x3605 once, and the step poison bit. -/
def Pkg.vecPoison (p : Pkg) (t : Nat) (met : Bool) : Pkg := if met then (p.raise 0x3605 t 0).setStepPoison t else p

/-! ## The non-finite vector record (R126) -/

/-- R126: lane l of a result written at cycle c by the bundle b and iteration i. -/
def VecRec.note (r : VecRec) (w : W32) (l c b i : Nat) : VecRec :=
  if !nonFin32 w then r
  else
    let first := decide (¬ r.nf ∨ c < r.cyc ∨ (c = r.cyc ∧ l < r.lane))
    { nf := true
      nan := r.nan || isNan32 w
      count := min (r.count + 1) 0xFFF
      lane := if first then l else r.lane
      bundle := if first then b else r.bundle
      iter := if first then i else r.iter
      cyc := if first then c else r.cyc }

/-- R126: the record of two sets of writes: the first position is that of the earliest issue cycle, and of the lowest lane in
it. -/
def VecRec.join (a b : VecRec) : VecRec :=
  if !b.nf then a
  else if !a.nf then b
  else
    let first := decide (b.cyc < a.cyc ∨ (b.cyc = a.cyc ∧ b.lane < a.lane))
    let w := if first then b else a
    { w with nan := a.nan || b.nan, count := min (a.count + b.count) 0xFFF }

/-- R126: the writes that have landed before cycle c reach the record. -/
def VecEng.settleRec (v : VecEng) (c : Nat) : VecEng :=
  { v with
    record := v.late.foldl (fun r e => if e.1 < c then r.join e.2 else r) v.record
    late := v.late.filter fun e => decide (c ≤ e.1) }

/-- R126: the share r of a write that lands at cycle c. -/
def VecEng.noteLate (v : VecEng) (c : Nat) (r : VecRec) : VecEng :=
  if r.nf then { v with late := v.late ++ [(c, r)] } else v

/-- R126: the index within its clause of the bundle whose vector slot issues: the one at pc, or the one before it whose wait has just
passed. -/
def Tile.bundleIndex (ti : Tile) : Nat :=
  ti.vec.bundle.getD ti.seq.pc - ((ti.clauses.find? fun e => decide (e.1 = ti.seq.sentence)).map (·.2)).getD 0

/-- R126: every active lane of a result whose word is not poisoned. -/
def VecRec.noteAll (r : VecRec) (x : VVal) (m : W64) (c b i : Nat) : VecRec :=
  (List.range 64).foldl (fun r l =>
    if laneOn m l && !(x.poison.getD (l / 4) false) then r.note (x.lanes.getD l 0) l c b i else r) r

/-! ## Lane operations (R106, R110, R111) -/

def vMax (a b : W32) : W32 :=
  if isNan32 a || isNan32 b then 0x7FC00000
  else if (f32 a).cmp (f32 b) = 0 then (if (f32 a).neg then b else a)
  else if (f32 a).cmp (f32 b) > 0 then a else b

def vMin (a b : W32) : W32 :=
  if isNan32 a || isNan32 b then 0x7FC00000
  else if (f32 a).cmp (f32 b) = 0 then (if (f32 a).neg then a else b)
  else if (f32 a).cmp (f32 b) < 0 then a else b

def vAbs (a : W32) : W32 := if isNan32 a then 0x7FC00000 else a &&& 0x7FFFFFFF
def vNeg (a : W32) : W32 := if isNan32 a then 0x7FC00000 else a ^^^ 0x80000000

/-- R111. -/
def vCond (c : Nat) (a b : W32) : Bool :=
  let nan := isNan32 a || isNan32 b
  let o := (f32 a).cmp (f32 b)
  match c with
  | 0 => !nan && decide (o = 0)
  | 1 => !nan && decide (o < 0)
  | 2 => !nan && decide (o ≤ 0)
  | 3 => nan || decide (o ≠ 0)
  | _ => nan

/-- FP32 to INT32, nearest even, saturating; NaN gives 0. -/
def vCvtI (a : W32) : W32 :=
  match f32 a with
  | .nan => 0
  | .inf s => if s then 0x80000000 else 0x7FFFFFFF
  | .fin s m e =>
    let n : Nat :=
      if 0 ≤ e then m * 2 ^ e.toNat
      else
        let d := 2 ^ (-e).toNat
        let r := m % d
        m / d + (if 2 * r > d ∨ (2 * r = d ∧ m / d % 2 = 1) then 1 else 0)
    if s then (if n ≥ 2 ^ 31 then 0x80000000 else -(BitVec.ofNat 32 n))
    else if n ≥ 2 ^ 31 then 0x7FFFFFFF else BitVec.ofNat 32 n

/-- INT32 to FP32, nearest even. -/
def vCvtF (a : W32) : W32 := toF32 .rne (FVal.ofInt a.toInt 0)

/-! ## Vector memory descriptors (R113, R114) -/

structure VDesc where
  base : Nat
  scaleBase : Nat
  stride : Int
  scaleStep : Int
  dt : Bool
  fmt : Nat
  tensor : Nat
  slot : Nat
  elemBase : Nat
  elemStep : Nat
  deriving DecidableEq, Repr

def vdesc (m : SMap W32) (d : Nat) : VDesc where
  base := bits (descWord m d 0) 22 0
  scaleBase := bits (descWord m d 1) 22 0
  stride := sbits (descWord m d 2) 23 0
  scaleStep := sbits (descWord m d 3) 15 0
  dt := bitOf (descWord m d 4) 16
  fmt := bits (descWord m d 4) 11 8
  tensor := bits (descWord m d 5) 23 0
  slot := bits (descWord m d 6) 15 0
  elemBase := descWord m d 7 + bits (descWord m d 8) 13 0 * 2 ^ 32
  elemStep := descWord m d 9

/-- No reserved bit or encoding in a vector memory descriptor (R113). -/
def vdescOk (m : SMap W32) (d : Nat) : Bool :=
  let w := descWord m d
  decide (w 0 < 2 ^ 23 ∧ w 1 < 2 ^ 23 ∧ w 2 < 2 ^ 24 ∧ w 3 < 2 ^ 16 ∧ w 4 < 2 ^ 17 ∧ bits (w 4) 15 12 = 0 ∧
    bits (w 4) 7 0 = 0 ∧ bits (w 4) 11 8 ≤ 8 ∧ w 5 < 2 ^ 24 ∧ w 6 < 2 ^ 16 ∧ w 8 < 2 ^ 14 ∧ w 0 % 16 = 0 ∧
    w 2 % 16 = 0) &&
  (List.range 6).all fun i => decide (w (10 + i) = 0)

/-- Descriptor d's pointers. -/
def VecEng.ptr (v : VecEng) (d : Nat) : VPtr := v.ptrs.at VPtr.reset d

/-- R114: after an access the three pointers advance. -/
def VecEng.advance (v : VecEng) (d : Nat) (x : VDesc) : VecEng :=
  let q := v.ptr d
  { v with ptrs := v.ptrs.put VPtr.reset d ⟨q.addr + x.stride, q.scale + x.scaleStep, (q.elem + x.elemStep) % 2 ^ 46⟩ }

/-- The address of the n-th access from now. -/
def ptrAddr (x : VDesc) (q : VPtr) (n : Nat) : Int := x.base + q.addr + n * x.stride
def ptrScale (x : VDesc) (q : VPtr) (n : Nat) : Int := q.scale + n * x.scaleStep

/-- Whether bytes at a signed address lie in tile SRAM (R128). -/
def inSramI (a : Int) (n : Nat) : Bool := decide (0 ≤ a) && inSram a.toNat n

/-- The 3 bytes that hold scale indices from g lie in tile SRAM. -/
def scaleIn (x : VDesc) (g : Int) : Bool := decide (0 ≤ g) && inSram (x.scaleBase + g.toNat / 4 * 3) 3

/-- The fine code at scale index g from scale_base of tile t (R67, R115), and whether its word is poisoned. -/
def Pkg.fineCode (p : Pkg) (t : Nat) (base g : Nat) : Nat × Bool :=
  let r := p.sramNat t (base + g / 4 * 3) 3
  (bits r.1 (6 * (g % 4) + 5) (6 * (g % 4)), r.2)

/-- R70: the descriptor's tensor has an entry, of its format (an entry that is poisoned shows none), and a conversion site's slot
exists. -/
def Pkg.siteFits (p : Pkg) (x : VDesc) (site : Bool) : Bool :=
  decide (x.tensor < p.reg O.scaleTableEntries) &&
    (!site || decide (x.slot = 0xFFFF ∨ x.slot < p.reg O.ledgerSlots)) &&
    (match p.scaleWord0 x.tensor with
      | none => true
      | some w => decide (bits w 23 20 = x.fmt))

/-- R128: the entry's format, group axis and slot fit the descriptor. -/
def Pkg.descFits (p : Pkg) (x : VDesc) (site : Bool) : Bool :=
  p.siteFits x site &&
    (match p.scaleWord0 x.tensor with
      | none => true
      | some w => !(carriesFine x.fmt w && bitOf w 19))

/-! ## Loads and stores (R108, R115, R116) -/

/-- R108, R115: 64 elements at address a with the fine codes at scale indices g and g + 1, widened to lanes. -/
def Pkg.vLoad (p : Pkg) (t : Nat) (x : VDesc) (a g : Nat) : VVal :=
  let w := fmtWidth x.fmt
  let n := 8 * w
  let ws := (List.range (n / 16)).map fun i => p.sramRead (sramAddr t (a + 16 * i))
  let v := ws.foldr (fun d acc => (d.getD 0).toNat + 2 ^ 128 * acc) 0
  let bad (l : Nat) : Bool := (ws.getD (w * l / 128) none).isNone || (ws.getD ((w * l + w - 1) / 128) none).isNone
  let w0 := p.scaleWord0 x.tensor
  let fine := carriesFine x.fmt (w0.getD 0)
  let f0 := if fine then p.fineCode t x.scaleBase g else (0x30, false)
  let f1 := if fine then p.fineCode t x.scaleBase (g + 1) else (0x30, false)
  let k := coarseOf (w0.getD (127 * 2 ^ 24))
  let bit (l : Nat) : Bool :=
    bad l || (if l < 32 then f0.2 else f1.2) || (decide (x.fmt ≠ 8) && w0.isNone)
  { lanes := (List.range 64).map fun l =>
      let c := unpackElem x.fmt v l
      if x.fmt = 8 then BitVec.ofNat 32 c
      else toF32 .rne (scaled x.fmt c k (if l < 32 then f0.1 else f1.1))
    poison := (List.range 16).map fun q => (List.range 4).any fun i => bit (4 * q + i) }

/-- R107, R108: 64 lanes as 256 bytes; inactive lanes leave their bytes, or write +0 where mz is set. -/
def Pkg.vStore (p : Pkg) (t a : Nat) (x : VVal) (m : W64) (mz : Bool) : Pkg :=
  (List.range 16).foldl (fun p q =>
    let act := (List.range 16).map fun b => laneOn m (4 * q + b / 4)
    let zeroed : VVal := { x with lanes := (List.range 64).map fun l => if laneOn m l then x.lanes.getD l 0 else 0 }
    let poisoned := x.poison.getD q false && wordActive m q
    if mz then p.sramWrite (sramAddr t (a + 16 * q)) (if poisoned then none else { zeroed with poison := [] }.word q)
    else if wordActive m q then
      p.sramMerge (sramAddr t (a + 16 * q)) act (if poisoned then none else x.word q)
    else p) p

/-- The 128 elements of a narrowing store: lanes, activity and poisoned blocks (R108, R116, R127). -/
structure Narrow where
  lanes : List W32
  active : List Bool
  bad : List Bool
  deriving DecidableEq, Repr

/-- The pair lo, hi under a mask. -/
def narrowOf (lo hi : VVal) (m : W64) : Narrow where
  lanes := (lo.lanes.take 64) ++ (hi.lanes.take 64)
  active := (List.range 128).map fun j => laneOn m (j % 64)
  bad := (List.range 4).map fun b =>
    (List.range 32).any fun i =>
      laneOn m ((32 * b + i) % 64) && (if b < 2 then lo else hi).poison.getD ((32 * b + i) % 64 / 4) false

/-- R116, R127: convert, store and count 128 elements at address a with the scale group at index g, from element
index e. A ceiling event comes once per slot per step (R83); at a site without a slot, to which that limit does not apply, every such
store raises it (DESIGN CHOICE, log 74). -/
def Pkg.vNarrow (p : Pkg) (t : Nat) (x : VDesc) (a g e : Nat) (stoch : Bool) (n : Narrow) : Pkg :=
  let w0 := p.scaleWord0 x.tensor
  let k := if x.fmt = 8 then 0 else coarseOf (w0.getD (127 * 2 ^ 24))
  let fine := carriesFine x.fmt (w0.getD 0)
  let n : Narrow := if w0.isNone then { n with bad := [true, true, true, true] } else n
  let vals := n.lanes.map f32
  let block (b : Nat) : List FVal :=
    (List.range 32).filterMap fun i => if n.active.getD (32 * b + i) false then vals[32 * b + i]? else none
  let scales := (List.range 4).map fun b => if fine then blockScale x.fmt k (block b) else ⟨0x30, false, false⟩
  let site := p.siteOf x.slot
  let rnd (j : Nat) : Rnd :=
    if stoch then .stoch (drawU (p.reg O.domainSeed) (p.reg O.generatorStep) x.tensor ((e + j) % 2 ^ 46) site 1) else .rne
  let encs := (List.range 128).map fun j =>
    if n.active.getD j false then
      encodeElem x.fmt k (scales.getD (j / 32) ⟨0x30, false, false⟩).code fine (rnd j) (vals.getD j .nan)
    else ⟨0, false, false, false⟩
  let bytes := packedBytes x.fmt 128
  let old := if x.dt then (p.sramNat t a bytes).1 else 0
  let data := packElems x.fmt (encs.map (·.code))
  let wb := 4 * fmtWidth x.fmt
  -- the 128-bit words of codes, a word that a poisoned block meets as poison
  let q := (List.range (bytes / 16)).foldl (fun q i =>
    let bad := (List.range 4).any fun b => n.bad.getD b false && decide (b * wb < 16 * i + 16 ∧ 16 * i < (b + 1) * wb)
    q.sramWrite (sramAddr t (a + 16 * i)) (if bad then none else some (BitVec.ofNat 128 (data / 2 ^ (128 * i))))) p
  let q :=
    if fine then
      let ad := sramAddr t (x.scaleBase + g / 4 * 3)
      let grp := (List.range 4).foldr (fun b acc => (scales.getD b ⟨0, false, false⟩).code + 64 * acc) 0
      (List.range 2).foldl (fun q i =>
        let w := ad / 16 * 16 + 16 * i
        q.sramMerge w (maskOf w ad 3)
          (if n.bad.any (fun b => b) then none else some (dataOf w ad (toLe 3 grp)))) q
    else q
  let counted (j : Nat) : Bool := n.active.getD j false && !(n.bad.getD (j / 32) false)
  let q :=
    if x.slot = 0xFFFF then q
    else
      q.setSlotCnt x.slot ((List.range 128).foldl (fun c j =>
        if counted j then
          c.count (vals.getD j .nan) (encs.getD j ⟨0, false, false, false⟩)
            (scales.getD (j / 32) ⟨0, false, false⟩).below (n.lanes.getD j 0)
            (if x.dt then some (unpackElem x.fmt old j) else none)
        else c) (q.slotCnt x.slot))
  let ceil := (List.range 4).any fun b => (scales.getD b ⟨0, false, false⟩).ceiling && !(n.bad.getD b false)
  let q :=
    if ceil then
      if x.slot = 0xFFFF then q.raise 0x3403 t 0
      else if (q.slotCnt x.slot).ceiling then q
      else (q.setSlotCnt x.slot { q.slotCnt x.slot with ceiling := true }).raise 0x3403 t 0
    else q
  if x.fmt = 2 ∧ ¬ fine ∧ (List.range 128).any (fun j => counted j && !(vals.getD j .nan).isFin) then
    q.raise 0x3404 t 0
  else q

/-! ## The drain queue (R117) -/

/-- Pop half a row that has arrived by cycle c. -/
def VecEng.pop (v : VecEng) (c : Nat) : Option (List AccWord × VecEng) :=
  match v.queue with
  | [] => none
  | (arr, row) :: r =>
    if c < arr then none
    else if v.half then some (row.drop 16, { v with queue := r, half := false })
    else some (row.take 16, { v with half := true })

/-- Sixteen drain-queue words, each checked as it is read (R250), as a register value; a marked entry poisons its word. -/
def entriesVal (l : List AccWord) : VVal :=
  ⟨(List.range 64).map fun i => ((l.getD (i / 4) AccWord.reset).entry (i % 4)).bits,
    (List.range 16).map fun q => (l.getD q AccWord.reset).packed.isNone⟩

/-! ## The reduction unit (R123 to R125) -/

def VecEng.context (v : VecEng) (c : Nat) : Ctx := v.ctx.at Ctx.reset c

/-- R124: one accumulation into a context under a mask: rop 0 SUM, 1 DOT, 2 SSQ, 3 AMAX. -/
def Ctx.accumulate (c : Ctx) (rop : Nat) (x y : VVal) (m : W64) : Ctx where
  rop := some rop
  lanes := (List.range 64).foldl (fun acc l =>
    if laneOn m l then
      let a := x.lanes.getD l 0
      let o := acc.at 0 l
      acc.put 0 l (match rop with
        | 0 => fFma a 0x3F800000 o
        | 1 => fFma a (y.lanes.getD l 0) o
        | 2 => fFma a a o
        | _ => vMax o (vAbs a))
    else acc) c.lanes
  poison := c.poison || metPoison m (if rop = 1 then [x, y] else [x])

/-- R125: the fold, in ascending lane order. -/
def Ctx.fold (c : Ctx) : W32 :=
  (List.range 64).foldl (fun r l =>
    if c.rop = some 3 then vMax r (c.lanes.at 0 l) else fFma (c.lanes.at 0 l) 0x3F800000 r) 0

/-! ## What each instruction reads and writes, for R118: registers 0 to 31, masks 32 + k -/

def regKeys (a : VRegForm) (n : Nat) : List Nat :=
  (32 + a.msk.val) :: [a.va.val, a.vb.val, a.vc.val].take n

/-- The registers and masks that a vector instruction reads. -/
def vReads : Instr → List Nat
  | .vabs a => regKeys a 1
  | .vneg a => regKeys a 1
  | .vrcp a => regKeys a 1
  | .vsqrt a => regKeys a 1
  | .vrsq a => regKeys a 1
  | .vexp2 a => regKeys a 1
  | .vlog2 a => regKeys a 1
  | .vexp a => regKeys a 1
  | .vtanh a => regKeys a 1
  | .vsigm a => regKeys a 1
  | .vsinp a => regKeys a 1
  | .vcosp a => regKeys a 1
  | .vcvti a => regKeys a 1
  | .vcvtf a => regKeys a 1
  | .vadd a => regKeys a 2
  | .vsub a => regKeys a 2
  | .vmul a => regKeys a 2
  | .vmax a => regKeys a 2
  | .vmin a => regKeys a 2
  | .viadd a => regKeys a 2
  | .vand a => regKeys a 2
  | .vor a => regKeys a 2
  | .vxor a => regKeys a 2
  | .vshl a => regKeys a 2
  | .vshr a => regKeys a 2
  | .vsel a => regKeys a 2
  | .vperm a => regKeys a 2
  | .vfma a => regKeys a 3
  | .vcmp a => [32 + a.msk.val, a.va.val, a.vb.val]
  | .vmand a => [32 + a.msk.val, 32 + a.ma.val, 32 + a.mb.val]
  | .vmor a => [32 + a.msk.val, 32 + a.ma.val, 32 + a.mb.val]
  | .vmnot a => [32 + a.msk.val, 32 + a.ma.val]
  | .vld a => [32 + a.msk.val]
  | .vst a => [32 + a.msk.val, a.v.val]
  | .vnst a => [32 + a.msk.val, a.v.val, a.v.val + 1]
  | .vldq a => [32 + a.msk.val]
  | .vred a => [32 + a.msk.val, a.va.val] ++ (if a.rop = 1 then [a.vb.val] else [])
  | .vflg a => [32 + a.msk.val]
  | _ => []

/-- The register or mask that a vector instruction writes. -/
def vWrites : Instr → List Nat
  | .vabs a => [a.vd.val]
  | .vneg a => [a.vd.val]
  | .vrcp a => [a.vd.val]
  | .vsqrt a => [a.vd.val]
  | .vrsq a => [a.vd.val]
  | .vexp2 a => [a.vd.val]
  | .vlog2 a => [a.vd.val]
  | .vexp a => [a.vd.val]
  | .vtanh a => [a.vd.val]
  | .vsigm a => [a.vd.val]
  | .vsinp a => [a.vd.val]
  | .vcosp a => [a.vd.val]
  | .vcvti a => [a.vd.val]
  | .vcvtf a => [a.vd.val]
  | .vadd a => [a.vd.val]
  | .vsub a => [a.vd.val]
  | .vmul a => [a.vd.val]
  | .vmax a => [a.vd.val]
  | .vmin a => [a.vd.val]
  | .viadd a => [a.vd.val]
  | .vand a => [a.vd.val]
  | .vor a => [a.vd.val]
  | .vxor a => [a.vd.val]
  | .vshl a => [a.vd.val]
  | .vshr a => [a.vd.val]
  | .vsel a => [a.vd.val]
  | .vperm a => [a.vd.val]
  | .vfma a => [a.vd.val]
  | .vcmp a => [32 + a.md.val]
  | .vmand a => [32 + a.md.val]
  | .vmor a => [32 + a.md.val]
  | .vmnot a => [32 + a.md.val]
  | .vld a => [a.v.val]
  | .vldq a => [a.v.val]
  | .vrget a => [a.vd.val]
  | .vflg a => [a.vd.val]
  | _ => []

/-- The reduction context and fold that R118 looks at. -/
def foldBusy (v : VecEng) (c : Nat) : Instr → Bool
  | .vred a => decide (v.foldCtx = a.rc.val ∧ c < v.foldEnd)
  | .vrget _ => decide (c < v.foldEnd)
  | _ => false

/-- R118: whether an instruction must be held at cycle c, but for what a phrase reads. -/
def vInterlocked (v : VecEng) (c : Nat) (i : Instr) : Bool :=
  v.phrase.isSome || foldBusy v c i ||
    (vReads i ++ vWrites i).any fun k => decide (c < v.ready.at 0 k)

/-! ## Issue -/

/-- What an instruction needs to run: the package, its tile, and its issue cycle. Results are readable lat cycles
after issue (R118). -/
def VecEng.setReady (v : VecEng) (k c : Nat) : VecEng := { v with ready := v.ready.put 0 k c }

/-- A lane-wise instruction: f on the lanes of its sources, latency lat, and whether R126 watches its result. -/
def vLanes (p : Pkg) (a : VRegForm) (c : Nat) (n : Nat) (f : W32 → W32 → W32 → W32) (lat : Nat) (watch : Bool) : Pkg :=
  let t := a.t.val
  let v := (p.tile t).vec
  let m := v.mask a.msk.val
  let x := v.read a.va.val
  let y := if n ≥ 2 then v.read a.vb.val else ⟨[], []⟩
  let z := if n ≥ 3 then v.read a.vc.val else ⟨[], []⟩
  let srcs := [x, y, z].take n
  let r : VVal :=
    ⟨(List.range 64).map fun l => f (x.lanes.getD l 0) (y.lanes.getD l 0) (z.lanes.getD l 0),
      (List.range 16).map fun q => srcs.any fun s => s.poison.getD q false⟩
  let v := ([a.va.val, a.vb.val, a.vc.val].take n).foldl VecEng.fix v
  let v := (v.write a.vd.val ((v.read a.vd.val).merge r m a.mz)).setReady a.vd.val (c + lat)
  let v := if watch then v.noteLate (c + lat) (VecRec.reset.noteAll r m c (p.tile t).bundleIndex 0) else v
  (p.setVec t v).vecPoison t (metPoison m srcs)

def runVcmp (p : Pkg) (a : VCmpForm) (c : Nat) : Pkg :=
  let t := a.t.val
  let v := (p.tile t).vec
  let m := v.mask a.msk.val
  let x := v.read a.va.val
  let y := v.read a.vb.val
  let bad (l : Nat) : Bool := x.poison.getD (l / 4) false || y.poison.getD (l / 4) false
  let r := (List.range 64).foldl (fun (acc : W64) l =>
    if laneOn m l && !bad l && vCond a.cond.toNat (x.lanes.getD l 0) (y.lanes.getD l 0) then acc ||| (1 <<< l) else acc) 0
  let v := ((v.fix a.va.val).fix a.vb.val).setMask a.md.val r
  (p.setVec t (v.setReady (32 + a.md.val) (c + 4))).vecPoison t (metPoison m [x, y])

/-- R110: mask ? va : vb; every lane is written. -/
def runVsel (p : Pkg) (a : VRegForm) (c : Nat) : Pkg :=
  let t := a.t.val
  let v := (p.tile t).vec
  let m := v.mask a.msk.val
  let x := v.read a.va.val
  let y := v.read a.vb.val
  let r : VVal :=
    ⟨(List.range 64).map fun l => if laneOn m l then x.lanes.getD l 0 else y.lanes.getD l 0,
      (List.range 16).map fun q => x.poison.getD q false || y.poison.getD q false⟩
  let v := (((v.fix a.va.val).fix a.vb.val).write a.vd.val r).setReady a.vd.val (c + 4)
  (p.setVec t v).vecPoison t (metPoison (BitVec.allOnes 64) [x, y])

/-- R110, R127: vd[L] = va[vb[L] mod 64]; poison in any source word read poisons the whole result. -/
def runVperm (p : Pkg) (a : VRegForm) (c : Nat) : Pkg :=
  let t := a.t.val
  let v := (p.tile t).vec
  let m := v.mask a.msk.val
  let x := v.read a.va.val
  let y := v.read a.vb.val
  let idx (l : Nat) : Nat := (y.lanes.getD l 0).toNat % 64
  let met := (List.range 64).any fun l =>
    laneOn m l && (y.poison.getD (l / 4) false || x.poison.getD (idx l / 4) false)
  let r : VVal := ⟨(List.range 64).map fun l => x.lanes.getD (idx l) 0, List.replicate 16 met⟩
  let v := (v.fix a.va.val).fix a.vb.val
  let d := (v.read a.vd.val).merge r m a.mz
  let d := if met then { d with poison := List.replicate 16 true } else d
  (p.setVec t ((v.write a.vd.val d).setReady a.vd.val (c + 4))).vecPoison t met

/-- R107, R110: a mask instruction; 0 in inactive lanes. -/
def vMasks (p : Pkg) (a : VMaskForm) (c : Nat) (f : W64 → W64 → W64) : Pkg :=
  let t := a.t.val
  let v := (p.tile t).vec
  let r := f (v.mask a.ma.val) (v.mask a.mb.val) &&& v.mask a.msk.val
  p.setVec t ((v.setMask a.md.val r).setReady (32 + a.md.val) (c + 2))

def runVld (p : Pkg) (a : VMemForm) (c : Nat) : Pkg :=
  let t := a.t.val
  let ti := p.tile t
  let v := ti.vec
  let x := vdesc ti.vd a.vdesc.val
  let q := v.ptr a.vdesc.val
  let r := p.vLoad t x (ptrAddr x q 0).toNat (ptrScale x q 0).toNat
  let m := v.mask a.msk.val
  let v := ((v.write a.v.val ((v.read a.v.val).merge r m a.mz)).setReady a.v.val (c + 8)).advance a.vdesc.val x
  ((p.setVec t v).bankRows t bankVector c 1 (ptrAddr x q 0).toNat 0 (8 * fmtWidth x.fmt) 1).vecPoison t (metPoison m [r])

/-- R52, R107: the bank accesses of a store of 256 bytes that lands at cycle c: one, or two for a partial-word write. -/
def Pkg.storeBanks (p : Pkg) (t a c : Nat) (m : W64) (mz : Bool) : Pkg :=
  let part := !mz && (List.range 16).any fun q => wordActive m q && !((List.range 4).all fun i => laneOn m (4 * q + i))
  if part then p.bankRows t bankVector (c - 1) 1 a 0 256 2 else p.bankRows t bankVector c 1 a 0 256 1

/-- R52, R116: those of a narrowing store that lands at cycle c: the codes, and the scale group as a read-modify-write. -/
def Pkg.narrowBanks (p : Pkg) (t : Nat) (x : VDesc) (a g c : Nat) : Pkg :=
  let p := p.bankRows t bankVector c 1 a 0 (packedBytes x.fmt 128) 1
  if carriesFine x.fmt ((p.scaleWord0 x.tensor).getD 0) then
    p.bankRows t bankVector (c - 1) 1 (x.scaleBase + g / 4 * 3) 0 3 2
  else p

def runVst (p : Pkg) (a : VMemForm) (c : Nat) : Pkg :=
  let t := a.t.val
  let ti := p.tile t
  let v := ti.vec
  let x := vdesc ti.vd a.vdesc.val
  let r := v.read a.v.val
  let m := v.mask a.msk.val
  let p := (p.setVec t ((v.fix a.v.val).advance a.vdesc.val x)).storeBanks t (ptrAddr x (v.ptr a.vdesc.val) 0).toNat (c + 6) m a.mz
  (p.vStore t (ptrAddr x (v.ptr a.vdesc.val) 0).toNat r m a.mz).vecPoison t (metPoison m [r])

def runVnst (p : Pkg) (a : VMemForm) (c : Nat) : Pkg :=
  let t := a.t.val
  let ti := p.tile t
  let v := ti.vec
  let x := vdesc ti.vd a.vdesc.val
  let q := v.ptr a.vdesc.val
  let lo := v.read a.v.val
  let hi := v.read (a.v.val + 1)
  let m := v.mask a.msk.val
  let p := (p.setVec t (((v.fix a.v.val).fix (a.v.val + 1)).advance a.vdesc.val x)).narrowBanks t x (ptrAddr x q 0).toNat
    (ptrScale x q 0).toNat (c + if x.dt then 14 else 10)
  (p.vNarrow t x (ptrAddr x q 0).toNat (ptrScale x q 0).toNat ((x.elemBase + q.elem) % 2 ^ 46) (decide (a.rm = 1))
    (narrowOf lo hi m)).vecPoison t (metPoison m [lo, hi])

/-- R117: half a row of the drain queue; an empty queue holds the instruction with event 0x3602. -/
def runVldq (p : Pkg) (a : VMemForm) (c : Nat) : Pkg :=
  let t := a.t.val
  let v := (p.tile t).vec
  match v.pop c with
  | none => (p.setVec t { v with held := some (.drain (.vldq a) c) }).raise 0x3602 t 0
  | some (l, v) =>
    let r := entriesVal l
    let m := v.mask a.msk.val
    ((p.setVec t ((v.write a.v.val ((v.read a.v.val).merge r m a.mz)).setReady a.v.val (c + 2))).vecPoison t
      (metPoison m [r])).drainRows t c

def runVrst (p : Pkg) (a : VMemForm) (_ : Nat) : Pkg :=
  let v := (p.tile a.t.val).vec
  p.setVec a.t.val { v with ptrs := v.ptrs.put VPtr.reset a.vdesc.val VPtr.reset }

def runVred (p : Pkg) (a : VRedForm) (_ : Nat) : Pkg :=
  let t := a.t.val
  let v := (p.tile t).vec
  let x := v.read a.va.val
  let y := if a.rop = 1 then v.read a.vb.val else ⟨[], []⟩
  let m := v.mask a.msk.val
  let v := if a.rop = 1 then (v.fix a.va.val).fix a.vb.val else v.fix a.va.val
  (p.setVec t { v with ctx := v.ctx.put Ctx.reset a.rc.val ((v.context a.rc.val).accumulate a.rop.toNat x y m) }).vecPoison t
    (metPoison m (if a.rop = 1 then [x, y] else [x]))

/-- R125: the context is copied and cleared; the fold goes to every lane of vd, and reaches the record as it lands (R126). -/
def runVrget (p : Pkg) (a : VFoldForm) (c : Nat) : Pkg :=
  let t := a.t.val
  let v := (p.tile t).vec
  let k := v.context a.rc.val
  let r : VVal := ⟨List.replicate 64 k.fold, List.replicate 16 k.poison⟩
  let v := { v with ctx := v.ctx.put Ctx.reset a.rc.val Ctx.reset, foldEnd := c + 68, foldCtx := a.rc.val }
  let v := (v.write a.vd.val r).setReady a.vd.val (c + 68)
  (p.setVec t (v.noteLate (c + 68) (VecRec.reset.noteAll r (BitVec.allOnes 64) c (p.tile t).bundleIndex 0))).vecPoison t k.poison

/-- R126: the lanes that VFLG writes. -/
def VecRec.lanes (r : VecRec) : List W32 :=
  [BitVec.ofNat 32 (fld (b2n r.nf) 31 + fld (b2n r.nan) 30 + fld r.count 18 + (if r.nf then r.lane else 0)),
    BitVec.ofNat 32 r.bundle, BitVec.ofNat 32 r.iter] ++ List.replicate 61 0

def runVflg (p : Pkg) (a : VFlgForm) (c : Nat) : Pkg :=
  let t := a.t.val
  let v := (p.tile t).vec.settleRec c
  let r : VVal := ⟨v.record.lanes, []⟩
  let d := (v.read a.vd.val).merge r (v.mask a.msk.val) true
  let q := p.setVec t (({ v with record := VecRec.reset }.write a.vd.val d).setReady a.vd.val (c + 2))
  if bitOf (d.lanes.getD 0 0).toNat 31 then (q.bump (O.vectorFlagSets + t) 1).raise 0x3603 t 0 else q

end Sys2Proof.Machine
end

