-- ==== Sys2Proof/Machine/Sequencer.lean ====
section
/-! DEFINITION. Machine/Sequencer.lean: the clause sequencer of a tile: the commands of the control slot, holds, the
start and end of a clause, the clause store (R131 to R136, R168). -/
namespace Sys2Proof.Machine

/-! ## The clause store -/

/-- R132: a fetch of the bundle at the tile's pc checks its word: corrected in place, or refetched with event 0x380A. -/
def Pkg.fetch (p : Pkg) (t : Nat) : Pkg :=
  let ti := p.tile t
  if !ti.seq.running ∨ ti.nBundles ≤ ti.seq.pc then p
  else
    match checkWord (ti.store.at zeroWord ti.seq.pc) with
    | .clean => p
    | .corrected v _ => p.setTile t { ti with store := ti.store.put zeroWord ti.seq.pc v }
    | _ => (p.setSeq t { ti.seq with refetch := some ti.seq.pc }).raise 0x380A t 0

/-- Control slot of bundle b: bits [127:96] (R135). -/
def Tile.control (ti : Tile) (b : Nat) : Nat := bits ((readWord (ti.store.at zeroWord b)).getD 0).toNat 127 96

/-- The matching CNEXT of loop lc, at or after bundle b, within n bundles. -/
def Tile.matchingNext (ti : Tile) (lc : Nat) : Nat → Nat → Nat
  | 0, b => b
  | n + 1, b =>
    let w := ti.control b
    if bits w 31 27 = 4 ∧ bits w 26 25 = lc then b else ti.matchingNext lc n (b + 1)

/-- The bundle of tile t issues: the next bundle is at pc. -/
def Pkg.goto (p : Pkg) (t pc : Nat) : Pkg :=
  let x := (p.tile t).seq
  if x.running then (p.setSeq t { x with pc := pc }).fetch t else p

/-- The next bundle in order. -/
def Pkg.advance (p : Pkg) (t : Nat) : Pkg := p.goto t ((p.tile t).seq.pc + 1)

/-- The bundle of a wait that has passed issues: its vector slot is still to come (R126), and the next bundle is at pc. -/
def Pkg.passWait (p : Pkg) (t : Nat) : Pkg :=
  let ti := p.tile t
  (p.setTile t { ti with vec := { ti.vec with bundle := some ti.seq.pc } }).advance t

/-- A control command of tile t that is free to issue. -/
def State.control (s : State) (t : TileNo) (f : Pkg → Pkg) : Host.Outcome State Fault Refusal :=
  s.on .data fun p => if (p.tile t.val).free then f p else p

/-! ## Waits (R135). CWAIT and CARR come before the other slots of their bundle, every other control command after them
(log 13) -/

/-- Schedule time has reached beat b, and no hold keeps back the events of b (R147). -/
def Pkg.reached (p : Pkg) (b : Nat) : Bool :=
  decide (b < p.schedBeat) || (decide (b = p.schedBeat) && !p.heldBack)

/-- R146: by how many beats a CWAIT reached now is late against its target. -/
def Pkg.cwaitLateness (p : Pkg) (target : Nat) : Nat :=
  match p.loader.image with
  | none => 0
  | some i => p.schedBeat - (target + i.waitSlack + p.slipAhead)

/-- R139: take credits from a window, if they are there. -/
def Tile.takeCredits (ti : Tile) (win n : Nat) : Option Tile :=
  let v := ti.win.at 0 win
  if n ≤ v then some { ti with win := ti.win.put 0 win (v - n) } else none

def execCnop (t : TileNo) (s : State) : Host.Outcome State Fault Refusal := s.control t fun p => p.advance t.val

def execCwait (t : TileNo) (target : BitVec 27) (s : State) : Host.Outcome State Fault Refusal :=
  s.control t fun p =>
    let x := (p.tile t.val).seq
    let b := x.startBeat + target.toNat
    if p.reached b then (p.setSeq t.val { x with cwaitLate := p.cwaitLateness b }).passWait t.val
    else p.setSeq t.val { x with hold := some (.cwait b (p.reg O.domainBeat)) }

/-- R135: a count of 0 does nothing, 0xFFFF is invalid. -/
def execCarr (t : TileNo) (win : Fin 16) (slack : BitVec 7) (count : BitVec 16) (s : State) :
    Host.Outcome State Fault Refusal :=
  if count = 0xFFFF then .fault (.reservedEncoding "CARR")
  else
    s.control t fun p =>
      let ti := p.tile t.val
      match ti.takeCredits win.val count.toNat with
      | some u => (p.setTile t.val u).passWait t.val
      | none =>
        p.setSeq t.val { ti.seq with
          hold := some (.carr win.val slack.toNat count.toNat (p.reg O.domainBeat)) }

/-- R133: a held bundle issues once its beat, its credits or its acknowledgements are there. -/
def execHeldBundleRelease (t : TileNo) (s : State) : Host.Outcome State Fault Refusal :=
  s.on .data fun p =>
    let ti := p.tile t.val
    let go (u : Tile) : Pkg := (p.setTile t.val { u with seq := { u.seq with hold := none } }).passWait t.val
    match ti.seq.hold with
    | none => p
    | some (.cwait b _) => if p.reached b then go ti else p
    | some (.carr w _ n _) =>
      match ti.takeCredits w n with
      | some u => go u
      | none => p
    | some .xpub =>
      if ti.xputOut = 0 then p.setTile t.val { ti with seq := { ti.seq with hold := none } } else p

/-! ## Loops (R135, R136) -/

def execCloop (t : TileNo) (lc : Fin 4) (iterations : BitVec 16) (s : State) : Host.Outcome State Fault Refusal :=
  if iterations = 0xFFFF then .fault (.reservedEncoding "CLOOP")
  else if (s.pkg.tile t.val).seq.loops.any fun l => decide (l.lc = lc.val) then .fault (.rejectedAtLoad "CLOOP")
  else
    s.control t fun p =>
      let ti := p.tile t.val
      let x := ti.seq
      if iterations = 0 then p.goto t.val (ti.matchingNext lc.val (ti.nBundles - x.pc - 1) (x.pc + 1) + 1)
      else (p.setSeq t.val { x with loops := ⟨lc.val, x.pc + 1, iterations.toNat⟩ :: x.loops }).advance t.val

/-- R136: the loop that closes is the one opened last. -/
def execCnext (t : TileNo) (lc : Fin 4) (s : State) : Host.Outcome State Fault Refusal :=
  match (s.pkg.tile t.val).seq.loops with
  | [] => .fault (.rejectedAtLoad "CNEXT")
  | l :: rest =>
    if l.lc ≠ lc.val then .fault (.rejectedAtLoad "CNEXT")
    else
      s.control t fun p =>
        let x := (p.tile t.val).seq
        if 1 < l.left then (p.setSeq t.val { x with loops := { l with left := l.left - 1 } :: rest }).goto t.val l.body
        else (p.setSeq t.val { x with loops := rest }).advance t.val

/-! ## CVOTE (R168, R170) -/

/-- The report of a panel record word (R92): its position and count. -/
def panelReport (p : Pkg) (t : Nat) (w : Nat) : VoteRec :=
  ⟨p.reg O.generatorStep, p.reg O.logicalPosition, 2, t, 0, w % 2 ^ 17, bits w 28 17⟩

/-- The report of a vector record (R126). -/
def vectorReport (p : Pkg) (t : Nat) (l0 l1 l2 : Nat) : VoteRec :=
  ⟨p.reg O.generatorStep, p.reg O.logicalPosition, 3, t, 0, l1 * 2 ^ 38 + l2 * 2 ^ 6 + bits l0 5 0, bits l0 29 18⟩

/-- R105: word 0 of the vector register that a CVOTE reads is written back where it is corrected. -/
def Pkg.fixVoteWord (p : Pkg) (t v : Nat) : Pkg :=
  let ti := p.tile t
  match checkWord (ti.vec.word v 0) with
  | .corrected _ _ => p.setTile t { ti with vec := ti.vec.fixWord v 0 }
  | _ => p

/-- R168: what a CVOTE of tile t reports. A poisoned record word of vreg holds no value: a free one (log 3). -/
def Pkg.cvote (p : Pkg) (t d v : Nat) (panel vector : Bool) : Pkg :=
  let ti := p.tile t
  let p := p.setStepc { p.stepc with cvotes := p.stepc.cvotes + 1 }
  let w := descWord ti.md d 15
  let p := if panel ∧ bitOf w 31 then p.voidReport (panelReport p t w) else p
  let p := if vector then p.fixVoteWord t v else p
  let p :=
    if !vector then p
    else
      match readWord (ti.vec.word v 0) with
      | some x =>
        let l (k : Nat) : Nat := bits x.toNat (32 * k + 31) (32 * k)
        if bitOf (l 0) 31 then p.voidReport (vectorReport p t (l 0) (l 1) (l 2)) else p
      | none =>
        let a := p.fresh
        let b := a.2.fresh
        let l0 := a.1.toNat % 2 ^ 32
        if bitOf l0 31 then b.2.voidReport (vectorReport p t l0 (a.1.toNat / 2 ^ 32) (b.1.toNat % 2 ^ 32)) else b.2
  if ti.stepPoison then
    p.voidReport ⟨p.reg O.generatorStep, p.reg O.logicalPosition, 4, t, 0, 0, 0⟩
  else p

def execCvote (t : TileNo) (desc : Fin 64) (vreg : Fin 32) (src : BitVec 2) (s : State) :
    Host.Outcome State Fault Refusal :=
  if src = 0 then .fault (.reservedEncoding "CVOTE")
  else
    s.control t fun p =>
      (p.cvote t.val desc.val vreg.val (src.getLsbD 0) (src.getLsbD 1)).advance t.val

/-! ## The start and the end of a clause (R133) -/

/-- The clause of tile ti for sentence s starts at cycle c for schedule beat b: the gap since CEND is an MNOP's. -/
def Pkg.startClause (p : Pkg) (t s b c : Nat) : Pkg :=
  let ti := p.tile t
  match ti.clauses.find? fun e => decide (e.1 = s) with
  | none => p
  | some e =>
    let p :=
      if ti.seq.endCyc = 0 then p
      else
        let p := p.settleGap t ti.seq.endCyc
        let m := (p.tile t).mx
        (p.addDummy t (mnopDummy p (c - max m.activeEnd ti.seq.endCyc))).setMx t { m with activeEnd := max m.activeEnd c }
    (p.setSeq t { ti.seq with
      running := true, sentence := s, startBeat := b, pc := e.2, loops := [], hold := none, refetch := none,
      cwaitLate := 0, endCyc := 0 }).fetch t

/-- The oldest late record of a case ends with what it was late for. -/
def Pkg.dropLate (p : Pkg) (c : LateCase) : Pkg :=
  match p.sched.late.find? fun r => decide (r.case = c) with
  | none => p
  | some r => p.setSched { p.sched with late := p.sched.late.erase r }

/-- R133: CEND; the first start that waits for it follows in the next cycle. -/
def execCend (t : TileNo) (cyc : Nat) (s : State) : Host.Outcome State Fault Refusal :=
  s.control t fun p =>
    let x := (p.tile t.val).seq
    if !x.running then p
    else
      let p := p.setSeq t.val { x with running := false, loops := [], endCyc := cyc + 1, starts := x.starts.drop 1 }
      match x.starts with
      | [] => p
      | (n, b) :: _ => (p.dropLate (.start t)).startClause t.val n b (cyc + 1)

/-- R133, R152: the sentence is due at this beat and the tile has a clause for it; while the tile's previous clause
runs, the start waits, behind those that wait already. -/
def execClauseStart (t : TileNo) (sentence : Fin 64) (cyc : Nat) (s : State) : Host.Outcome State Fault Refusal :=
  s.on .data fun p =>
    match p.posImage with
    | none => p
    | some i =>
      let x := (p.tile t.val).seq
      if !p.evaluates ∨ !(p.entriesNow i).any (fun e => decide (e.sentence = sentence.val)) ∨
          !(p.tile t.val).clauses.any (fun e => decide (e.1 = sentence.val)) then p
      else if x.startBeat = p.schedBeat ∨ x.starts.any (fun e => decide (e.2 = p.schedBeat)) then p
      else if x.running then p.setSeq t.val { x with starts := x.starts ++ [(sentence.val, p.schedBeat)] }
      else p.startClause t.val sentence.val p.schedBeat cyc

/-! ## Scrub and refetch (R132) -/

def execClauseStoreScrub (t : TileNo) (s : State) : Host.Outcome State Fault Refusal :=
  s.on .data fun p =>
    let ti := p.tile t.val
    let n := ti.seq.scrub % 16384
    let q := p.setSeq t.val { ti.seq with scrub := (n + 1) % 16384 }
    match checkWord (ti.store.at zeroWord n) with
    | .clean => q
    | .corrected v _ => q.setTile t.val { (q.tile t.val) with store := ti.store.put zeroWord n v }
    | _ =>
      if ti.seq.refetch.isSome then p
      else (q.setSeq t.val { (q.tile t.val).seq with refetch := some n }).raise 0x380A t.val 0

/-- The bytes of tile record k of a tile section that begins at address a (R153), and what follows it. -/
def Pkg.tileRecord (p : Pkg) : Nat → Nat → Nat
  | 0, a => a
  | k + 1, a =>
    let n := (p.byte a).toNat
    let m := leNat (p.bytes (a + 4) 2)
    p.tileRecord k (a + ceilDiv (16 + 4 * n) 64 * 64 + 16 * m + 64 * 64 * 3 + 32 * 64)

/-- The address of the first bundle of tile t in the resident image (R153). -/
def Pkg.bundleAddr (p : Pkg) (t : Nat) : Option Nat :=
  match p.posImage with
  | none => none
  | some i =>
    (i.parts.find? fun e =>
      decide (e.kind = 2 ∧ e.pkg = p.reg O.logicalPosition) && bitOf e.vmask (p.reg O.imageVariant)).map fun e =>
        let a := p.tileRecord t (i.addr + e.offset)
        a + ceilDiv (16 + 4 * (p.byte a).toNat) 64 * 64

/-- R132: the bundle comes back from the resident image, read as the loader reads it; the hold ends. -/
def execClauseStoreRefetch (t : TileNo) (s : State) : Host.Outcome State Fault Refusal :=
  s.on .data fun p =>
    let ti := p.tile t.val
    match ti.seq.refetch, p.bundleAddr t.val with
    | some n, some a =>
      match p.agentRead ioA (a + 16 * n) 16 with
      | (some d :: _, q) =>
        let u := q.tile t.val
        q.setTile t.val { u with
          store := u.store.put zeroWord n (goodWord d)
          seq := { u.seq with refetch := none } }
      | (_, q) => q
    | _, _ => p

end Sys2Proof.Machine
end

