-- ==== Sys2Proof/Machine/Move.lean ====
section
/-! DEFINITION. Machine/Move.lean: the move slot: transfers between tile SRAM, other packages and package memory, and
the receive windows (R134, R137 to R139, R275). XAGR and XDSP stand with the engines that take their flits. -/
namespace Sys2Proof.Machine

/-! ## Move descriptors (R138) -/

structure XDesc where
  locl : Nat
  remote : Nat
  memory : Nat
  rwin : Nat
  doneEn : Bool
  doneWin : Nat
  peerPkg : Nat
  peerTile : Nat
  localStride : Int
  remoteStride : Int
  memStride : Int
  bucket : Nat
  deriving DecidableEq, Repr

def xdesc (m : SMap W32) (d : Nat) : XDesc where
  locl := bits (descWord m d 0) 22 0
  remote := bits (descWord m d 1) 22 0
  memory := descWord m d 2 + bits (descWord m d 3) 13 0 * 2 ^ 32
  rwin := bits (descWord m d 4) 31 28
  doneEn := bitOf (descWord m d 4) 27
  doneWin := bits (descWord m d 4) 26 23
  peerPkg := bits (descWord m d 4) 21 11
  peerTile := bits (descWord m d 4) 7 0
  localStride := sbits (descWord m d 5) 23 0
  remoteStride := sbits (descWord m d 6) 23 0
  memStride := sbits (descWord m d 7) 31 0
  bucket := bits (descWord m d 8) 15 0

/-- R138: no reserved bit is set, the offsets are multiples of 64 and so are the strides. -/
def xdescOk (m : SMap W32) (d : Nat) : Bool :=
  let w := descWord m d
  let x := xdesc m d
  decide (w 0 < 2 ^ 23 ∧ w 1 < 2 ^ 23 ∧ w 3 < 2 ^ 14 ∧ bits (w 4) 22 22 = 0 ∧ bits (w 4) 10 8 = 0 ∧ w 5 < 2 ^ 24 ∧
    w 6 < 2 ^ 24 ∧ w 8 < 2 ^ 16 ∧ x.locl % 64 = 0 ∧ x.remote % 64 = 0 ∧ x.localStride % 64 = 0 ∧
    x.remoteStride % 64 = 0 ∧ x.memStride % 64 = 0) &&
  (List.range 7).all fun i => decide (w (9 + i) = 0)

/-- The fields that an opcode does not use are 0 (R138, R204). -/
def xfieldsOk (x : XDesc) (send bucket : Bool) : Bool :=
  (send || decide (x.remote = 0)) && (bucket || decide (x.bucket = 0))

def Tile.xptrOf (ti : Tile) (d : Nat) : XPtr := ti.xptr.at XPtr.reset d

/-- Where the next access of a descriptor goes: local, remote, memory (R114, R138). -/
def Tile.xlocal (ti : Tile) (d : Nat) : Int := (xdesc ti.xd d).locl + (ti.xptrOf d).locl
def Tile.xremote (ti : Tile) (d : Nat) : Int := (xdesc ti.xd d).remote + (ti.xptrOf d).remote
def Tile.xmemory (ti : Tile) (d : Nat) : Int := (xdesc ti.xd d).memory + (ti.xptrOf d).memory

/-- R114: after an access the pointers take their strides. -/
def Pkg.xadvance (p : Pkg) (t d : Nat) : Pkg :=
  let ti := p.tile t
  let x := xdesc ti.xd d
  let q := ti.xptrOf d
  let q := { q with
    locl := q.locl + x.localStride, remote := q.remote + x.remoteStride, memory := q.memory + x.memStride }
  p.setTile t { ti with xptr := ti.xptr.put XPtr.reset d q }

/-- Bytes of package memory from a, n of them, lie in one range. -/
def inMemI (a : Int) (n : Nat) : Bool := decide (0 ≤ a) && inMem a.toNat n

/-! ## Windows (R139) -/

/-- A credit to window w of tile t; at the top the counter stays, with event 0x380D, and the package has failed. -/
def Pkg.credit (p : Pkg) (t w : Nat) : Pkg :=
  let ti := p.tile t
  let v := ti.win.at 0 w
  if v + 1 < 2 ^ 32 then p.setTile t { ti with win := ti.win.put 0 w (v + 1) }
  else (p.raise 0x380D t 0).declareFailed

/-- The flit's 64 bytes at an offset of tile t's SRAM. -/
def Pkg.landWords (p : Pkg) (t off : Nat) (ws : List (Option W128)) : Pkg :=
  (List.range 4).foldl (fun p k => p.sramWrite (sramAddr t (off + 16 * k)) (ws.getD k none)) p

/-- A flit lands on tile t: poison marks the step (R139, R168). -/
def Pkg.landFlit (p : Pkg) (t off win : Nat) (ws : List (Option W128)) : Pkg :=
  let p := p.landWords t off ws
  (if ws.any (·.isNone) then p.setStepPoison t else p).credit t win

/-- R139: flit i of those under way lands, or its acknowledgement arrives. -/
def execFlitCredit (i : Nat) (s : State) : Host.Outcome State Fault Refusal :=
  s.on .data fun p =>
    match p.flits[i]? with
    | none => p
    | some f =>
      let p := { p with flits := dropAt p.flits i }
      match f with
      | .sram t off win data => p.landFlit t off win (data.map readWord)
      | .credit t win => p.credit t win
      | .xputAck t win =>
        let ti := p.tile t
        (p.setTile t { ti with xputOut := ti.xputOut - 1 }).credit t win

/-! ## The commands of the move slot -/

/-- The four words of flit k of an access from a local offset. -/
def Pkg.localFlit (p : Pkg) (t off k : Nat) : List (Option W128) :=
  (List.range 4).map fun w => p.sramRead (sramAddr t (off + 64 * k + 16 * w))

/-- The credit of a flit read out (R138). -/
def Pkg.doneCredit (p : Pkg) (t : Nat) (x : XDesc) : Pkg := if x.doneEn then p.pushFlit (.credit t x.doneWin) else p

/-- The die of a logical tile (R30). -/
def tileDie (t : Nat) : Nat := t % 24 / 12 + 2 * (t / 24 / 4)

/-- A move command that moves n flits with descriptor d: its checks, and its effect once the bundle is free. -/
def State.move (s : State) (m : String) (a : XSlot) (send bucket : Bool) (lim : XDesc → Tile → Nat → Bool)
    (f : Pkg → XDesc → Tile → Nat → Pkg) : Host.Outcome State Fault Refusal :=
  let t := a.t.val
  let d := a.mdesc.val
  let ti := s.pkg.tile t
  let x := xdesc ti.xd d
  let n := a.count.toNat
  s.slot m (decide (a.count ≠ 0xFFFF) && xdescOk ti.xd d && xfieldsOk x send bucket)
    (decide (n = 0) || (inSramI (ti.xlocal d) (64 * n) && lim x ti n)) fun p =>
      if !ti.free ∨ n = 0 then p else (f p x ti n).xadvance t d

def execXnop (_t : TileNo) (s : State) : Host.Outcome State Fault Refusal := s.on .data fun p => p

/-- R134, R137: flits for a tile of this package go onto the mesh, those for another leave as class 1. -/
def execXsend (a : XSlot) (s : State) : Host.Outcome State Fault Refusal :=
  s.move "XSEND" a true false
    (fun x ti n => decide (x.peerTile < 192) && inSramI (ti.xremote a.mdesc.val) (64 * n)) fun p x ti n =>
      let t := a.t.val
      let src := (ti.xlocal a.mdesc.val).toNat
      let dst := (ti.xremote a.mdesc.val).toNat
      (List.range n).foldl (fun p k =>
        let ws := p.localFlit t src k
        let p :=
          if x.peerPkg = p.reg O.logicalPosition then p.pushFlit (.sram x.peerTile (dst + 64 * k) x.rwin (ws.map packWord))
          else
            match p.physOf x.peerPkg with
            | none => p.raise 0x440A noUnit 0
            | some id =>
              p.originate 1 id (x.peerTile * 2 ^ 17 + (dst + 64 * k) / 64) (wordsPayload ws) (ws.map (·.isNone)) x.rwin
        p.doneCredit t x) p

/-- The lines that 64 bytes from a meet, with the byte mask of each. -/
def flitLines (a : Nat) : List (Nat × List Bool) :=
  (if a % 64 = 0 then [a / 64] else [a / 64, a / 64 + 1]).map fun l =>
    (l, (List.range 64).map fun b => decide (a ≤ l * 64 + b ∧ l * 64 + b < a + 64))

/-- The words of line l as a flit at address a fills them: a word that meets a poisoned one is poisoned. -/
def flitToLine (a l : Nat) (ws : List (Option W128)) : List PWord :=
  (List.range 4).map fun w =>
    let base := l * 64 + 16 * w
    let hits := (List.range 16).filter fun i => decide (a ≤ base + i ∧ base + i < a + 64)
    if hits.any fun i => (ws.getD ((base + i - a) / 16) none).isNone then poisonWord
    else goodWord (BitVec.ofNat 128 (leNat ((List.range 16).map fun i =>
      if i ∈ hits then ((ws.getD ((base + i - a) / 16) none).getD 0).extractLsb' (8 * ((base + i - a) % 16)) 8 else 0)))

/-- The requests of one flit at memory address a; a flit that crosses a line has one for each line it meets. -/
def Pkg.flitRequests (p : Pkg) (a die : Nat) (kind : ReqKind) (data : Nat → List PWord) (tag : Nat → Tag)
    (discard : Bool) : Pkg :=
  let ls := flitLines a
  let id := if ls.length ≤ 1 then 0 else p.coh.nextPart + 1
  let p := if id = 0 then p else
    { p with coh := { p.coh with
        nextPart := id
        parts := p.coh.parts.put ⟨0, 0, []⟩ id ⟨ls.length, a, [some 0, some 0, some 0, some 0]⟩ } }
  ls.foldl (fun p l => p.request ⟨68 + die, kind, l.1, l.2, data l.1, tag id, discard, 0⟩) p

def execXget (a : XSlot) (s : State) : Host.Outcome State Fault Refusal :=
  s.move "XGET" a false false (fun _ ti n => inMemI (ti.xmemory a.mdesc.val) (64 * n)) fun p x ti n =>
    let t := a.t.val
    (List.range n).foldl (fun p k =>
      p.flitRequests ((ti.xmemory a.mdesc.val).toNat + 64 * k) (tileDie t) .rdSnoop (fun _ => [])
        (.xget t ((ti.xlocal a.mdesc.val).toNat + 64 * k) x.rwin) false) p

/-- R174: an address at which a commit sentence of an accumulating step writes the N-step accumulator: one of a region whose tensor
is FP32, the accumulator's format; every address where the image has no securing part (DEDUCED, log 75). -/
def Pkg.inAccumulator (p : Pkg) (a : Nat) : Bool :=
  match p.loader.image.bind (·.sec) with
  | none => true
  | some x => x.regions.any fun r => decide (r.addr ≤ a ∧ a < r.addr + r.bytes ∧ r.kind = 0) &&
      decide ((p.scaleWord0 r.tensor).map (fun w => bits w 23 20) = some 8)

/-- R173, R174: whether tile ti's XPUT at address a is discarded: its clause is that of a voided step's commit sentence, or it writes
the accumulator of a commit that finds acc_count full. -/
def Pkg.discards (p : Pkg) (ti : Tile) (a : Nat) : Bool :=
  p.stepc.discards.any fun e => decide (e.1 = ti.seq.sentence ∧ e.2.1 = ti.seq.startBeat) && (!e.2.2 || p.inAccumulator a)

/-- R137, R275: each flit is a WrInv; a discarded one is acknowledged as a written one would be (R173). -/
def execXput (a : XSlot) (s : State) : Host.Outcome State Fault Refusal :=
  s.move "XPUT" a false false (fun _ ti n => inMemI (ti.xmemory a.mdesc.val) (64 * n)) fun p x ti n =>
    let t := a.t.val
    let src := (ti.xlocal a.mdesc.val).toNat
    (List.range n).foldl (fun p k =>
      let ws := p.localFlit t src k
      let m := (ti.xmemory a.mdesc.val).toNat + 64 * k
      let p := p.flitRequests m (tileDie t) .wrInv (fun l => flitToLine m l ws) (.xput t x.rwin) (p.discards ti m)
      let u := p.tile t
      (p.setTile t { u with xputOut := u.xputOut + 1 }).doneCredit t x) p

/-- R275: holds the bundle until every earlier XPUT of the tile has been credited. -/
def execXpub (t : TileNo) (s : State) : Host.Outcome State Fault Refusal :=
  s.control t fun p =>
    let ti := p.tile t.val
    if ti.xputOut = 0 then p else p.setSeq t.val { ti.seq with hold := some .xpub }

end Sys2Proof.Machine
end

