-- ==== Sys2Proof/Machine/Schedule.lean ====
section
/-! DEFINITION. Machine/Schedule.lean: lateness and slip requests, the holds of schedule time (R146, R147, R149,
R169, R229). -/
namespace Sys2Proof.Machine

/-! ## The late cases (R146, R169, R229, R346) -/

/-- The entries of tier engine e, in ascending offset, and the beat at which its n-th since cycle 0 falls due (R228). -/
def engineStages (i : Image) (e : Nat) : List StageEnt := i.stages.filter fun x => decide (x.engine = e)

def Pkg.stageDue (p : Pkg) (i : Image) (e n : Nat) : Option (StageEnt × Nat) :=
  let l := engineStages i e
  (l[n % l.length]?).map fun x => (x, p.sched.cycle0 + n / l.length * i.cycleLen + x.offset)

def Pkg.tier (p : Pkg) (e : Nat) : TierEng := p.tiers.at TierEng.reset e

/-- R346, log 25: the save hold's stream has not ended slip_horizon beats before the hold would. -/
def Pkg.saveLate (p : Pkg) (i : Image) : Bool :=
  match p.secure.hold with
  | none => false
  | some h => !h.streamed && !h.stopped && decide (h.d0 + h.len ≤ p.reg O.domainBeat + i.slipHorizon)

/-- The entries of tier engine e that have fallen due by now, since cycle 0 (R228). -/
def Pkg.stagesDue (p : Pkg) (i : Image) (e : Nat) : Nat :=
  let l := engineStages i e
  if p.schedBeat < p.sched.cycle0 ∨ i.cycleLen = 0 then 0
  else
    let n := p.schedBeat - p.sched.cycle0
    n / i.cycleLen * l.length + (l.filter fun x => decide (x.offset ≤ n % i.cycleLen)).length

/-- R229: the entries of engine e, in progress or queued, whose deadline has come. -/
def Pkg.stagesLate (p : Pkg) (i : Image) (e : Nat) : Nat :=
  let from0 := (p.tier e).next
  ((List.range (p.stagesDue i e - from0)).filter fun k =>
    match p.stageDue i e (from0 + k) with
    | some (x, b) => decide (b + x.deadline ≤ p.schedBeat)
    | none => false).length

/-- How often the condition of a late case holds in this beat: once for each start or stage entry that is late (R146, R229). That
of a CWAIT is met once, when it is reached. -/
def Pkg.lateCount (p : Pkg) (c : LateCase) : Nat :=
  match p.posImage with
  | none => 0
  | some i =>
    match c with
    | .carr t =>
      match (p.tile t.val).seq.hold with
      | some (.carr _ slack _ since) => b2n (decide (since + slack < p.reg O.domainBeat))
      | _ => 0
    | .cwait t => b2n (decide (0 < (p.tile t.val).seq.cwaitLate))
    | .start t =>
      ((p.tile t.val).seq.starts.filter fun e => decide (e.2 + i.waitSlack + p.slipAhead < p.schedBeat)).length
    | .vote =>
      match p.commitBeat i with
      | some c => b2n (!p.stepc.decided && decide (c ≤ p.schedBeat + i.slipHorizon) && !p.voteComplete i &&
          decide (p.reg O.imageState = 4))
      | none => 0
    | .stage e => if p.reg O.imageState = 4 then p.stagesLate i e.val else 0
    | .saveHold => b2n (p.saveLate i)

/-- Whether the condition of a late case holds in this beat. -/
def Pkg.isLate (p : Pkg) (c : LateCase) : Bool := decide (0 < p.lateCount c)

/-- The late records of a case. -/
def Sched.lateOf (x : Sched) (c : LateCase) : List LateRec := x.late.filter fun r => decide (r.case = c)

/-- The unit of a late case's event (R461). -/
def lateUnit : LateCase → Nat
  | .carr t => t.val
  | .cwait t => t.val
  | .start t => t.val
  | .stage e => e.val
  | _ => noUnit

/-- By how much a case is late in the beat in which it is first met (R146). -/
def Pkg.firstLateness (p : Pkg) (c : LateCase) : Nat :=
  match c with
  | .cwait t => (p.tile t.val).seq.cwaitLate
  | _ => 1

/-- R146: a case that is met is noted once, and each start and each stage entry is a case of its own: event 0x3806 (and 0x3903 of a
vote, R169; 0x3C07 of a stage entry, R229), the counters, a request. -/
def Pkg.noteLate (p : Pkg) (c : LateCase) : Pkg :=
  if p.lateCount c ≤ (p.sched.lateOf c).length then p
  else
    let n := p.firstLateness c
    let p := (p.raise 0x3806 (lateUnit c) 0).bump O.lateEvents 1
    let p := match c with
      | .vote => p.raise 0x3903 noUnit 0
      | .stage e => (p.raise 0x3C07 e.val 0).bump (O.stageLateEntries + e.val) 1
      | _ => p
    let p := p.setReg O.maxLateness (max (p.reg O.maxLateness) (min n (2 ^ 32 - 1)))
    let p := match c with
      | .cwait t => p.setSeq t.val { (p.tile t.val).seq with cwaitLate := 0 }
      | _ => p.setSched { p.sched with late := p.sched.late ++ [(⟨c, n, p.reg O.domainBeat⟩ : LateRec)] }
    p.requestSlip

def execLateCase (c : LateCase) (s : State) : Host.Outcome State Fault Refusal :=
  s.on .data fun p => p.noteLate c

/-- A list with g applied to its first entry that meets f. -/
def mapFirst {α : Type} (f : α → Bool) (g : α → α) : List α → List α
  | [] => []
  | a :: r => if f a then g a :: r else a :: mapFirst f g r

/-- R146: a further request, slip_quantum beats after the last one. -/
def execSlipRequestRepeat (c : LateCase) (s : State) : Host.Outcome State Fault Refusal :=
  s.on .data fun p =>
    match p.loader.image with
    | none => p
    | some i =>
      let now := p.reg O.domainBeat
      let due (r : LateRec) : Bool := decide (r.case = c ∧ r.lastReq + i.slipQuantum ≤ now)
      if p.isLate c ∧ p.sched.late.any due then
        (p.setSched { p.sched with late := mapFirst due (fun r => { r with lastReq := now }) p.sched.late }).requestSlip
      else p

/-- The cases to which R149 applies: those of a tile, and stage entries (R229). -/
def limitApplies : LateCase → Bool
  | .vote => false
  | .saveHold => false
  | _ => true

/-- R149; not during a save hold (R346). -/
def execHoldLimitExpiry (c : LateCase) (s : State) : Host.Outcome State Fault Refusal :=
  s.on .data fun p =>
    match p.loader.image with
    | none => p
    | some i =>
      if limitApplies c ∧ p.isLate c ∧ p.secure.hold.isNone ∧
          p.sched.late.any (fun r => decide (r.case = c ∧ i.holdLimit < r.late)) then
        (p.raise 0x3807 (lateUnit c) 0).declareFailed
      else p

/-! ## Slips (R147) -/

/-- R147: a request from another package is forwarded, and its slip waits for its beat. -/
def execSlipRequest (x : C0In) (requester beat : Nat) (s : State) : Host.Outcome State Fault Refusal :=
  s.on .data fun p => p.floodIn x 0x01 [requester, beat] fun p =>
    match p.loader.image with
    | none => p
    | some i => p.addSlip ⟨beat, i.slipQuantum, .slip⟩

/-- The slip that is due first. -/
def Pkg.dueSlip (p : Pkg) : Option Slip :=
  leastBy (·.beat) (p.sched.slips.filter fun x => decide (x.beat ≤ p.reg O.domainBeat))

/-- A due slip begins to hold schedule time. One that a request asked for raises 0x3805 and counts. -/
def Pkg.startSlip (p : Pkg) (x : Slip) : Pkg :=
  let p := p.setSched { p.sched with
    slips := p.sched.slips.erase x, hold := some { x with beat := p.reg O.domainBeat } }
  if x.kind = .slip then (p.raise 0x3805 noUnit 0).bump O.slipsApplied 1 else p

def execSlipHoldStart (s : State) : Host.Outcome State Fault Refusal :=
  s.on .data fun p =>
    match p.sched.hold, p.dueSlip with
    | none, some x => p.startSlip x
    | _, _ => p

/-- A save hold is over once its stream has ended and schedule time runs on: its length is C (R344, R346). -/
def Pkg.closeSave (p : Pkg) : Pkg :=
  match p.secure.hold with
  | none => p
  | some h =>
    if (h.streamed ∨ h.stopped) ∧ p.sched.hold.isNone then
      (({ p with secure := { p.secure with hold := none } }).setReg O.lastHoldBeats
        (min (p.reg O.domainBeat - h.d0) (2 ^ 32 - 1))).setReg O.securingState
          (if p.reg O.securingState = 1 then 0 else p.reg O.securingState)
    else p

/-- A hold ends; a slip that is due then follows at once (R147). -/
def Pkg.endHold (p : Pkg) : Pkg :=
  let p := p.setSched { p.sched with hold := none }
  match p.dueSlip with
  | some x => p.startSlip x
  | none => p.closeSave

/-- R147: the hold has lasted its beats. A save hold ends under SAVE_HOLD_END. -/
def execSlipHoldEnd (s : State) : Host.Outcome State Fault Refusal :=
  s.on .data fun p =>
    match p.sched.hold with
    | none => p
    | some h => if h.kind ≠ .save ∧ h.beat + h.len ≤ p.reg O.domainBeat then p.endHold else p

/-- R140, R147: one beat: domain_beat rises, and slip_total with it while a hold has beats left. -/
def Pkg.tickBeat (p : Pkg) : Pkg :=
  let b := (p.reg O.domainBeat + 1) % 2 ^ 64
  let p := p.setReg O.domainBeat b
  match p.sched.hold with
  | none => p
  | some h =>
    if b ≤ h.beat + h.len ∨ h.kind = .save then p.setReg O.slipTotal ((p.reg O.slipTotal + 1) % 2 ^ 64) else p

/-- R146: in each beat the cases that persist grow by one; the others end. -/
def Pkg.growLate (p : Pkg) : Pkg :=
  let l := p.sched.late.foldl (fun (acc : List LateRec) r =>
    if (acc.filter fun x => decide (x.case = r.case)).length < p.lateCount r.case then acc ++ [{ r with late := r.late + 1 }]
    else acc) []
  (p.setSched { p.sched with late := l }).setReg O.maxLateness
    (l.foldl (fun m r => max m (min r.late (2 ^ 32 - 1))) (p.reg O.maxLateness))

end Sys2Proof.Machine
end

