-- ==== Sys2Proof/Machine/Agreement.lean ====
section
/-! DEFINITION. Machine/Agreement.lean: the Agreement engines: the arithmetic of a hop (R188 to R197), the order of a
channel (R182 to R186, R198), results and agreed scales (R199 to R203), local input (R204, R205). -/
namespace Sys2Proof.Machine

/-! ## Integers (R188 to R193) -/

/-- v ÷ d to the nearest integer, ties to even, for d > 0. -/
def rneDiv (v : Int) (d : Nat) : Int :=
  let q := v / d
  let r := v - q * d
  if 2 * r > d ∨ (2 * r = d ∧ q % 2 = 1) then q + 1 else q

/-- bitlen of the chapter. -/
def bitlen (v : Int) : Nat := if v = 0 then 0 else v.natAbs.log2 + 1

/-- R189: a finite binary32 value at scale a; 0 for one that is not. -/
def quantise (w : W32) (a : Int) : Int :=
  match f32 w with
  | .fin s m e =>
    let n : Int := if s then -(m : Int) else m
    if a ≤ e then n * 2 ^ (e - a).toNat else rneDiv n (2 ^ (a - e).toNat)
  | _ => 0

/-- R190: the residue of a group. -/
def residue (x : List Int) : Nat := (x.sum % 65535).toNat

/-- The residues of the 32 groups of 1,024 values. -/
def residues (x : List Int) : List Nat := (List.range 32).map fun g => residue ((x.drop (32 * g)).take 32)

/-- The largest magnitude of a value (R188). -/
abbrev maxValue : Int := 2 ^ 31 - 1

/-- R191: the least k that makes every value fit. -/
def leastShift (x : List Int) : Nat → Nat → Nat
  | 0, k => k
  | n + 1, k => if x.all fun v => decide ((rneDiv v (2 ^ k)).natAbs ≤ maxValue.toNat) then k else leastShift x n (k + 1)

/-! ## The header flit (R187) -/

def hdrNat (h : ChunkHdr) : Nat :=
  h.kind + fld h.hop 8 + fld (b2n h.poison) 23 + fld (b2n h.nf) 22 + fld (b2n h.nan) 21 + fld (b2n h.stepped) 20 +
    fld h.lmax 24 + fld (b2n h.engine) 36 + fld h.channel 32 + fld h.bucket 48 + fld h.chunk 64 + fld h.nValid 80 +
    fld (toBits 16 h.scale) 96 + fld h.nsteps 112 + fld h.tensor 128 + fld h.elemFirst 160 + fld h.step 224 +
    fld h.nfPkg 288 + fld h.nfElem 304 + fld h.stepPkg 368 + fld h.stepK 384

def hdrOf (v : Nat) : ChunkHdr where
  kind := bits v 7 0
  hop := bits v 15 8
  poison := bitOf v 23
  nf := bitOf v 22
  nan := bitOf v 21
  stepped := bitOf v 20
  lmax := bits v 31 24
  engine := bitOf v 36
  channel := bits v 35 32
  bucket := bits v 63 48
  chunk := bits v 79 64
  nValid := bits v 95 80
  scale := sbits v 111 96
  nsteps := bits v 119 112
  tensor := bits v 151 128
  elemFirst := bits v 205 160
  step := bits v 263 224
  nfPkg := bits v 298 288
  nfElem := bits v 349 304
  stepPkg := bits v 378 368
  stepK := bits v 399 384
  reserved := bits v 19 16 + bits v 47 37 + bits v 127 120 + bits v 159 152 + bits v 223 206 + bits v 287 264 +
    bits v 303 299 + bits v 367 350 + bits v 383 379 + bits v 511 400

/-- The 66 flits of a chunk, or the one of kind 0x04, as payload bytes (R186). -/
def chunkFlits (c : Chunk) : List (List Byte) :=
  let head := toLe 64 (hdrNat c.hdr)
  if c.hdr.kind = 4 then [head]
  else
    head :: ((List.range 64).map fun f => ((c.words.drop (16 * f)).take 16).flatMap fun w => toLe 4 w.toNat) ++
      [c.residues.flatMap (toLe 2)]

/-- A chunk from the bytes of its 66 flits (R186). -/
def wireImage (b : List Byte) (flitError : Bool) : Chunk :=
  ⟨hdrOf (leNat (b.take 64)), (List.range 1024).map (fun i => BitVec.ofNat 32 (leNat ((b.drop (64 + 4 * i)).take 4))),
    (List.range 32).map (fun g => leNat ((b.drop (4160 + 2 * g)).take 2)), flitError⟩

/-- A chunk from its flits' bytes: one of kind 0x04 is its header flit alone (R186). -/
def chunkOf (b : List Byte) (flitError : Bool) : Chunk :=
  let h := hdrOf (leNat (b.take 64))
  if h.kind = 4 then ⟨h, [], [], flitError⟩ else wireImage b flitError

/-- The values of a chunk. -/
def Chunk.values (c : Chunk) : List Int := c.words.map (·.toInt)

/-- R197: the groups whose residue does not fit their values, is 0xFFFF, or that hold 0x8000_0000. A raw chunk holds
32-bit words of any value (log 27). -/
def badGroups (c : Chunk) : Nat :=
  let v := c.words.map (fun (w : W32) => w.toInt)
  ((List.range 32).filter fun g =>
    let ws := (v.drop (32 * g)).take 32
    let r := c.residues.getD g 0xFFFF
    decide (r ≠ residue ws) || (decide (c.hdr.kind ≠ 3) && ws.any fun x => decide (x = -(2 ^ 31)))).length

/-! ## One hop (R191, R194, R196) -/

/-- A chunk inside the engine: exact values at its scale. -/
structure Work where
  hdr : ChunkHdr
  vals : List Int
  deriving DecidableEq, Repr

/-- A shift by d (R191). -/
def Work.shift (w : Work) (d : Nat) : Work where
  hdr := { w.hdr with scale := w.hdr.scale + d, lmax := w.hdr.lmax - d }
  vals := w.vals.map fun v => rneDiv v (2 ^ d)

/-- R196: the first of two non-finite occurrences. -/
def firstNf (c l : ChunkHdr) : Nat × Nat :=
  if !c.nf then (l.nfPkg, l.nfElem)
  else if !l.nf then (c.nfPkg, c.nfElem)
  else if l.nfPkg < c.nfPkg ∨ (l.nfPkg = c.nfPkg ∧ l.nfElem < c.nfElem) then (l.nfPkg, l.nfElem)
  else (c.nfPkg, c.nfElem)

/-- R194: the step record of the lower package. -/
def firstStep (a b : Option (Nat × Nat)) : Option (Nat × Nat) :=
  match a, b with
  | none, y => y
  | x, none => x
  | some x, some y => if y.1 < x.1 then some y else some x

def stepRec (h : ChunkHdr) : Option (Nat × Nat) := if h.stepped then some (h.stepPkg, h.stepK) else none

/-- R191: combine a chunk with a contribution at package `me`; the shift of the scale step too. -/
def hopWork (me : Nat) (c l : Work) : Work × Nat :=
  let l' := if l.hdr.scale < c.hdr.scale then l.shift (c.hdr.scale - l.hdr.scale).toNat else l
  let c' := if c.hdr.scale < l.hdr.scale then c.shift (l.hdr.scale - c.hdr.scale).toNat else c
  let sum := (c'.vals.zip l'.vals).map fun e => e.1 + e.2
  let k := leastShift sum 400 0
  let nf := firstNf c.hdr l.hdr
  let st := firstStep (firstStep (stepRec c.hdr) (stepRec l.hdr)) (if k = 0 then none else some (me, k))
  let h : ChunkHdr := { c'.hdr with
    poison := c.hdr.poison || l.hdr.poison
    nf := c.hdr.nf || l.hdr.nf
    nan := c.hdr.nan || l.hdr.nan
    nfPkg := nf.1
    nfElem := nf.2
    lmax := max c'.hdr.lmax l'.hdr.lmax
    nsteps := min 255 (c.hdr.nsteps + l.hdr.nsteps + (if k = 0 then 0 else 1))
    stepped := st.isSome
    stepPkg := (st.getD (0, 0)).1
    stepK := (st.getD (0, 0)).2 }
  ((if k = 0 then ⟨h, sum⟩ else (⟨h, sum⟩ : Work).shift k), k)

/-- The chunk of a work, with its residues (R190, R192). -/
def Work.chunk (w : Work) : Chunk := ⟨w.hdr, w.vals.map (BitVec.ofInt 32), residues w.vals, false⟩

/-! ## Engines, channels and buckets (R182 to R185, R207) -/

def Pkg.engine (p : Pkg) (e : Bool) : Engine := p.engines.at Engine.reset (b2n e)
def Pkg.setEngine (p : Pkg) (e : Bool) (x : Engine) : Pkg := { p with engines := p.engines.put Engine.reset (b2n e) x }
def Pkg.chan (p : Pkg) (e : Bool) (ch : Nat) : ChanSt := (p.engine e).chans.at ChanSt.reset ch
def Pkg.setChan (p : Pkg) (e : Bool) (ch : Nat) (c : ChanSt) : Pkg :=
  p.setEngine e { p.engine e with chans := (p.engine e).chans.put ChanSt.reset ch c }

/-- Raise an event once per bucket per step. -/
def Pkg.raiseOnce (p : Pkg) (e : Bool) (code bucket : Nat) : Pkg :=
  if (code, bucket) ∈ (p.engine e).once then p
  else (p.setEngine e { p.engine e with once := (code, bucket) :: (p.engine e).once }).raise code (b2n e) 0

/-- The channel entry of channel ch of engine e. -/
def chanEntry (i : Image) (e : Bool) (ch : Nat) : Option ChanEnt :=
  i.chans.find? fun c => decide (c.engine = e ∧ c.channel = ch)

/-- The bucket at place n of a channel's sequence. -/
def chanBucket (i : Image) (c : ChanEnt) (n : Nat) : Option BucketEnt := i.buckets[c.firstSeq + n]?

/-- The stages of an op at a member of P (R185): reduce-scatter hops 0 to P − 1, then all-gather or header hops. -/
def stages (c : ChanEnt) : Nat := if c.op = 1 ∨ c.op = 3 then 2 * c.nMembers - 1 else c.nMembers

/-- Whether stage s adds a contribution (reduce-scatter). -/
def reduces (c : ChanEnt) (s : Nat) : Bool := decide ((c.op = 1 ∨ c.op = 3) ∧ s < c.nMembers)

/-- The all-gather hop of a stage. -/
def gatherHop (c : ChanEnt) (s : Nat) : Nat := if c.op = 1 ∨ c.op = 3 then s + 1 - c.nMembers else s

/-- The part that stage s handles at this member (R185). -/
def stagePart (c : ChanEnt) (s : Nat) : Nat :=
  let n := c.nMembers
  if reduces c s then (c.rank + 2 * n - 1 - s) % n else (c.rank + n - gatherHop c s) % n

/-- The next place of the sequence whose bucket is not empty; after the last one the sequence starts again. -/
def nextBucket (i : Image) (c : ChanEnt) (n : Nat) : Nat :=
  let order := (List.range c.nSeq).map fun k => (n + 1 + k) % c.nSeq
  (order.find? fun k => match chanBucket i c k with
    | some b => decide (b.nElem ≠ 0)
    | none => false).getD n

/-- The place at which a channel stands: an empty bucket at the head completes at once (R207). -/
def headBucket (i : Image) (c : ChanEnt) (n : Nat) : Nat :=
  match chanBucket i c n with
  | some b => if b.nElem = 0 then nextBucket i c n else n
  | none => n

/-- The kind that a stage's input carries (R187). -/
def stageKind (c : ChanEnt) (s : Nat) : Nat :=
  if reduces c s then 1 else if c.op = 4 then 3 else if c.op = 1 then 4 else 2

/-- The hop field that a stage's input carries. -/
def stageHop (c : ChanEnt) (s : Nat) : Nat := if reduces c s then s - 1 else gatherHop c s - 1

/-- Valid elements of a chunk of a bucket (R184). -/
def validOf (b : BucketEnt) (chunk : Nat) : Nat := min 1024 (b.nElem - 1024 * chunk)

/-! ## Agreed scales (R201 to R203) -/

structure ScaleEnt where
  scale : Int
  margin : Nat
  quiet : Nat
  pScale : Int
  pMargin : Nat
  pQuiet : Nat
  pend : Nat
  deriving DecidableEq, Repr

def scaleEntOf (v : Nat) : ScaleEnt :=
  ⟨sbits v 15 0, bits v 23 16, bits v 31 24, sbits v 47 32, bits v 55 48, bits v 63 56, bits v 127 64⟩

def ScaleEnt.bytes (x : ScaleEnt) : List Byte :=
  toLe 16 (toBits 16 x.scale + fld x.margin 16 + fld x.quiet 24 + fld (toBits 16 x.pScale) 32 + fld x.pMargin 48 +
    fld x.pQuiet 56 + fld x.pend 64)

/-- Whether step n committed, as step_outcome and step_outcome_high hold it (R209). -/
def Pkg.committed (p : Pkg) (n : Nat) : Bool :=
  if n % 128 < 64 then bitOf (p.reg O.stepOutcome) (n % 128) else bitOf (p.reg O.stepOutcomeHigh) (n % 128 - 64)

/-- R203: settle the pending fields. -/
def Pkg.settleScale (p : Pkg) (x : ScaleEnt) : ScaleEnt :=
  if bitOf x.pend 63 then
    if p.committed (x.pend % 2 ^ 40) then
      { x with scale := x.pScale, margin := x.pMargin, quiet := x.pQuiet, pend := x.pend - 2 ^ 63 }
    else { x with pend := x.pend - 2 ^ 63 }
  else x

/-- The entry of a scale index, settled and written back; none where memory gives poison. -/
def Pkg.scaleEnt (p : Pkg) (i : Image) (e : Bool) (n : Nat) : Option ScaleEnt × Pkg :=
  let a := i.aScaleBase + 16 * n
  match p.agentBytes (ioOf e) a 16 with
  | (none, p) => (none, p)
  | (some b, p) =>
    let x := scaleEntOf (leNat b)
    let y := p.settleScale x
    (some y, if y = x then p else p.agentWrite (ioOf e) a y.bytes)

/-- R202: a final header of a bucket with upd = 1 sets the pending fields. -/
def Pkg.pendScale (p : Pkg) (i : Image) (e : Bool) (b : BucketEnt) (h : ChunkHdr) : Pkg :=
  if !b.upd then p
  else
    match p.scaleEnt i e (b.scaleIndex + h.chunk) with
    | (none, p) => p
    | (some x, p) =>
      let m := if 0 < h.nsteps then min (x.margin + 1) 4 else if x.quiet + 1 = 64 then x.margin - 1 else x.margin
      let q := if 0 < h.nsteps ∨ x.quiet + 1 = 64 then 0 else x.quiet + 1
      let v := h.scale + h.lmax - 20 + m
      let ps := if h.lmax = 0 then x.scale else max (-200) (min v 140)
      let y : ScaleEnt := { x with
        pScale := ps, pMargin := m, pQuiet := q, pend := 2 ^ 63 + p.reg O.generatorStep % 2 ^ 40 }
      let p := p.agentWrite (ioOf e) (i.aScaleBase + 16 * (b.scaleIndex + h.chunk)) y.bytes
      if h.lmax ≠ 0 ∧ ps ≠ v then p.raise 0x3A08 (b2n e) 0 else p

/-! ## Local input (R204, R205) -/

/-- The bytes of local input of chunk `chunk` of bucket b, and whether a word of them is poisoned; none while a flit
of them is still to come. AG and AGR give the own part only. -/
def localBytes (c : ChanEnt) (b : BucketEnt) (st : ChanSt) (chunk : Nat) : Option (List Byte × Bool) :=
  let fs := (st.input.filter fun f => decide (f.1 = b.bucket)).map (·.2)
  let k := if c.op = 2 ∨ c.op = 4 then chunk - c.rank * b.cpp else chunk
  let per := if b.fixedIn then 66 else 64
  let n := if b.fixedIn then 66 else ceilDiv (validOf b chunk * 4) 64
  let mine := (fs.drop (k * per)).take n
  if mine.length < n then none
  else
    let ws := (mine.flatMap fun f => f).map readWord
    some (ws.flatMap (fun w => toLe 16 (w.getD 0).toNat), ws.any (·.isNone))

/-- The header that a chunk of bucket b has at this member before anything is added. -/
def baseHdr (p : Pkg) (c : ChanEnt) (b : BucketEnt) (chunk kind : Nat) (scale : Int) : ChunkHdr where
  kind := kind
  hop := 0
  poison := false
  nf := false
  nan := false
  stepped := false
  lmax := 0
  engine := c.engine
  channel := c.channel
  bucket := b.bucket
  chunk := chunk
  nValid := validOf b chunk
  scale := scale
  nsteps := 0
  tensor := b.tensor
  elemFirst := b.elemFirst + 1024 * chunk
  step := p.reg O.generatorStep
  nfPkg := 0
  nfElem := 0
  stepPkg := 0
  stepK := 0
  reserved := 0

/-- The contribution that local bytes make at a scale (R189, R193, R196), for FP32 input; for a wire image as it is, its elements
at and above n_valid as 0 (R186). -/
def contribution (p : Pkg) (c : ChanEnt) (b : BucketEnt) (chunk : Nat) (scale : Int) (x : List Byte) (bad : Bool) :
    Work × Nat :=
  let h := baseHdr p c b chunk 1 scale
  if b.fixedIn then
    let w := wireImage x false
    let n := badGroups w
    (⟨{ h with
        scale := w.hdr.scale, lmax := w.hdr.lmax, nsteps := w.hdr.nsteps, nf := w.hdr.nf, nan := w.hdr.nan
        nfPkg := w.hdr.nfPkg, nfElem := w.hdr.nfElem, stepped := w.hdr.stepped, stepPkg := w.hdr.stepPkg
        stepK := w.hdr.stepK, poison := w.hdr.poison || bad || decide (n ≠ 0) },
      (w.words.take h.nValid).map (fun (v : W32) => v.toInt) ++ List.replicate (1024 - h.nValid) 0⟩, n)
  else
    let g : List W32 := (List.range 1024).map fun i =>
      if i < h.nValid then BitVec.ofNat 32 (leNat ((x.drop (4 * i)).take 4)) else 0
    let q := g.map fun w => quantise w scale
    let first := g.findIdx? nonFin32
    (⟨{ h with
        poison := bad
        nf := first.isSome
        nan := g.any isNan32
        nfPkg := if first.isSome then p.reg O.logicalPosition else 0
        nfElem := match first with
          | some i => h.elemFirst + i
          | none => 0
        lmax := q.foldl (fun m v => max m (bitlen v)) 0 }, q⟩, 0)

/-! ## Sending and delivering (R186, R199, R200) -/

/-- Send a chunk to the next member. -/
def Pkg.sendChunk (p : Pkg) (c : ChanEnt) (x : Chunk) : Pkg :=
  match p.physOf c.nextPkg with
  | none => p.raise 0x440A noUnit 0
  | some id =>
    (chunkFlits x).foldl (fun p f =>
      p.originate 1 id (2 ^ 25 + fld (b2n c.engine) 24 + fld c.channel 20) f [false, false, false, false] 0) p

/-- Whether a member keeps the data of a part (R185). -/
def keeps (c : ChanEnt) (part : Nat) : Bool := decide (c.op ≠ 1 ∨ part = c.rank)

/-- The result words of a chunk (R199). -/
def resultWords (b : BucketEnt) (raw : Bool) (x : Chunk) : List W32 :=
  if raw ∨ b.fixedOut then x.words
  else if x.hdr.nf then List.replicate 1024 0x7FC00000
  else x.words.map fun (w : W32) => toF32 .rne (FVal.ofInt w.toInt x.hdr.scale)

/-- The words of 64 bytes, poison where marked. -/
def flitOf (l : List Byte) (poison : Bool) : List PWord :=
  (List.range 4).map fun k =>
    if poison then poisonWord else goodWord (BitVec.ofNat 128 (leNat ((l.drop (16 * k)).take 16)))

/-- R199, R200: a result chunk goes to its tile, one flit at a time. -/
def Pkg.deliverChunk (p : Pkg) (c : ChanEnt) (b : BucketEnt) (x : Chunk) : Pkg :=
  let first := if c.op = 1 then c.rank * b.cpp else 0
  let k := x.hdr.chunk - first
  if b.fixedOut then
    let fs := chunkFlits { x with hdr := { x.hdr with kind := 2 } }
    (List.range fs.length).foldl (fun p f =>
      p.pushFlit (.sram b.resTile (b.resAddr + 4224 * k + 64 * f) b.resWin
        (flitOf (fs.getD f []) (x.hdr.poison && decide (1 ≤ f ∧ f ≤ 64))))) p
  else
    let ws := resultWords b (decide (c.op = 4)) x
    (List.range (ceilDiv (x.hdr.nValid * 4) 64)).foldl (fun p f =>
      p.pushFlit (.sram b.resTile (b.resAddr + 4096 * k + 64 * f) b.resWin
        (flitOf (((ws.drop (16 * f)).take 16).flatMap fun w => toLe 4 w.toNat) x.hdr.poison))) p

/-- R196: a result with nf = 1 is a void report of source 1. -/
def Pkg.reportNf (p : Pkg) (h : ChunkHdr) : Pkg :=
  if h.nf then p.voidReport ⟨p.reg O.generatorStep, h.nfPkg, 1, 0xFF, h.tensor, h.nfElem, 0⟩ else p

/-- What arrives at this member as final: its report, its data where the member keeps it, its pending scale. -/
def Pkg.finalChunk (p : Pkg) (i : Image) (c : ChanEnt) (b : BucketEnt) (x : Chunk) (part : Nat) : Pkg :=
  let e := c.engine
  let p := if c.op = 4 then p else (p.reportNf x.hdr).pendScale i e b x.hdr
  if x.hdr.kind = 4 ∨ !keeps c part then p
  else
    let p := if c.op ≠ 4 ∧ x.hdr.nf then (p.bump (O.nfChunks + b2n e) 1).raiseOnce e 0x3A02 b.bucket else p
    p.deliverChunk c b x

/-! ## The commands -/

/-- n mismatches: counted, with an event each (R197). -/
def Pkg.mismatches (p : Pkg) (e : Bool) (n : Nat) : Pkg :=
  (List.range n).foldl (fun p _ => p.raise 0x3A03 (b2n e) 0) (p.bump (O.residueMismatches + b2n e) n)

/-- Poison set at this engine (R197). -/
def Pkg.poisonSet (p : Pkg) (e : Bool) : Pkg :=
  (p.bump (O.poisonedChunks + b2n e) 1).raise 0x3A04 (b2n e) 0

/-- R198: what the ring input of a channel expects next, against a chunk. -/
def expectedChunk (p : Pkg) (c : ChanEnt) (b : BucketEnt) (st : ChanSt) (h : ChunkHdr) : Bool :=
  let s := st.rxStage + 1
  decide (h.step = p.reg O.generatorStep ∧ h.engine = c.engine ∧ h.channel = c.channel ∧ h.bucket = b.bucket ∧
    h.chunk = stagePart c s * b.cpp + st.rxChunk ∧ h.hop = stageHop c s ∧ h.kind = stageKind c s ∧ 1 ≤ h.nValid ∧
    h.nValid ≤ 1024 ∧ -200 ≤ h.scale ∧ h.scale ≤ 160 ∧ h.reserved = 0)

/-- The ring input moves past a chunk. -/
def ChanSt.rxNext (st : ChanSt) (i : Image) (c : ChanEnt) (b : BucketEnt) : ChanSt :=
  if st.rxChunk + 1 < b.cpp then { st with rxChunk := st.rxChunk + 1 }
  else if st.rxStage + 2 < stages c then { st with rxChunk := 0, rxStage := st.rxStage + 1 }
  else { st with rxChunk := 0, rxStage := 0, rxPos := nextBucket i c (headBucket i c st.rxPos) }

/-- R197, R198: a chunk arrives at channel ch of engine e; while the receive buffer of 4 is full it waits in the link, whose credit
stops (R204). An uncorrectable flit sets poison and is no mismatch. -/
def Pkg.receiveChunk (p : Pkg) (e : Bool) (ch : Nat) (x : Chunk) : Pkg :=
  match p.posImage with
  | none => p
  | some i =>
    match chanEntry i e ch with
    | none => (p.raise 0x3A07 (b2n e) 0).declareFailed
    | some c =>
      let st := p.chan e ch
      match chanBucket i c (headBucket i c st.rxPos) with
      | none => (p.raise 0x3A07 (b2n e) 0).declareFailed
      | some b =>
        if st.rx.length ≥ 4 then p
        else if !expectedChunk p c b st x.hdr then (p.raise 0x3A07 (b2n e) 0).declareFailed
        else
          let n := if x.hdr.kind = 4 then 0 else badGroups x
          let bad := x.flitError || decide (n ≠ 0)
          let p := if n = 0 then p else p.mismatches e n
          let p := if bad && !x.hdr.poison then p.poisonSet e else p
          let h := { x.hdr with poison := x.hdr.poison || bad }
          p.setChan e ch ({ st with rx := st.rx ++ [{ x with hdr := h }] }.rxNext i c b)

/-- R186: the link flits of a chunk: 66, or the header alone of kind 4. -/
def chunkLen (fs : List LinkFlit) : Nat := if (hdrOf (leNat ((fs.flatMap (·.payload)).take 64))).kind = 4 then 1 else 66

/-- R204: flits that wait in a port's buffer enter the channel while it has room for their chunk; each gives its credit back, and the
last of a chunk brings the chunk. -/
def Pkg.takeWaiting (e : Bool) (ch : Nat) : Nat → Pkg → Pkg
  | 0, p => p
  | n + 1, p =>
    let st := p.chan e ch
    match st.wait with
    | [] => p
    | (i, f) :: r =>
      if st.rx.length ≥ 4 then p
      else
        let fs := st.asm ++ [f]
        let p := p.freeCredit i (bufferOf f)
        Pkg.takeWaiting e ch n
          (if fs.length < chunkLen fs then p.setChan e ch { st with asm := fs, wait := r }
          else (p.setChan e ch { st with asm := [], wait := r }).receiveChunk e ch
            (chunkOf (fs.flatMap (·.payload)) (fs.any fun g => g.poison.any id)))

/-- What waits at a channel, as far as there is room. -/
def Pkg.drainChan (p : Pkg) (e : Bool) (ch : Nat) : Pkg := Pkg.takeWaiting e ch (p.chan e ch).wait.length p

def execAgreementChunkReceive (e : Bool) (ch : Fin 16) (c : Chunk) (s : State) : Host.Outcome State Fault Refusal :=
  s.on .data fun p => p.receiveChunk e ch.val c

/-- A channel's processing moves past a chunk; past its last one the bucket is done and its input is used up. -/
def Pkg.chanNext (p : Pkg) (i : Image) (c : ChanEnt) (b : BucketEnt) : Pkg :=
  let st := p.chan c.engine c.channel
  if st.chunk + 1 < b.cpp then p.setChan c.engine c.channel { st with chunk := st.chunk + 1 }
  else if st.stage + 1 < stages c then p.setChan c.engine c.channel { st with chunk := 0, stage := st.stage + 1 }
  else
    (p.setChan c.engine c.channel { st with
      chunk := 0, stage := 0, pos := nextBucket i c (headBucket i c st.pos)
      input := st.input.filter fun f => decide (f.1 ≠ b.bucket) }).setStepc
      { p.stepc with bucketsDone := p.stepc.bucketsDone + 1 }

/-- R202, R203: the agreed scale at which this origin quantises a chunk. A poisoned entry gives none: the chunk is
poisoned and its scale is free (log 3). -/
def Pkg.originScale (p : Pkg) (i : Image) (e : Bool) (b : BucketEnt) (chunk : Nat) : Int × Bool × Pkg :=
  match p.scaleEnt i e (b.scaleIndex + chunk) with
  | (some x, p) => (x.scale, false, p)
  | (none, p) => (((p.fresh.1.toNat % 361 : Nat) : Int) - 200, true, p.fresh.2)

/-- R191 at this member: chunk C (zero at the origin) and the local bytes; the events of a scale step (R194), of the
adder's mismatches (R197) and of poison. -/
def Pkg.combine (p : Pkg) (i : Image) (c : ChanEnt) (b : BucketEnt) (chunk : Nat) (inc : Option Chunk) (x : List Byte)
    (bad : Bool) (mism : Nat) : Work × Pkg :=
  let e := c.engine
  let r : Work × Pkg := match inc with
    | some y => (⟨y.hdr, y.words.map (fun (w : W32) => w.toInt)⟩, p)
    | none =>
      let o := p.originScale i e b chunk
      (⟨{ baseHdr p c b chunk 1 o.1 with poison := o.2.1 }, List.replicate 1024 0⟩, o.2.2)
  let p := r.2
  let l := contribution p c b chunk r.1.hdr.scale x bad
  let p := if l.2 = 0 then p else p.mismatches e l.2
  let s := hopWork (p.reg O.logicalPosition) r.1 l.1
  let p := if s.2 = 0 then p
    else (((p.bump (O.scaleSteps + b2n e) 1).raiseOnce e 0x3A01 b.bucket).setReg (O.lastStepBucket + b2n e)
      (chunk * 2 ^ 16 + b.bucket)).setReg (O.lastStepK + b2n e) s.2
  let p := if mism = 0 then p else
    let p := (p.mismatches e (min mism 2)).raise 0x3A09 (b2n e) 0
    if mism = 1 then p.bump (O.recomputes + b2n e) 1 else p
  let poison := s.1.hdr.poison || decide (mism ≥ 2)
  let p := if poison && !(inc.any fun y => y.hdr.poison) then p.poisonSet e else p
  (⟨{ s.1.hdr with poison := poison }, s.1.vals⟩, p)

/-- One chunk of the current stage of a channel, where its inputs are there (R185, R191, R200). -/
def Pkg.agreementStep (p : Pkg) (i : Image) (c : ChanEnt) (b : BucketEnt) (mism : Nat) : Pkg :=
  let e := c.engine
  let st := p.chan e c.channel
  let s := st.stage
  let part := stagePart c s
  let chunk := part * b.cpp + st.chunk
  let last := decide (s + 1 = stages c)
  let pop (p : Pkg) : Pkg := p.setChan e c.channel { p.chan e c.channel with rx := (p.chan e c.channel).rx.drop 1 }
  if reduces c s then
    match localBytes c b st chunk, st.rx.head?, decide (s = 0) with
    | some x, inc, origin =>
      if !origin && inc.isNone then p
      else
        let r := p.combine i c b chunk (if origin then none else inc) x.1 x.2 mism
        let p := if origin then r.2 else pop r.2
        let w := r.1
        let p :=
          if s + 1 < c.nMembers then p.sendChunk c { w.chunk with hdr := { w.hdr with kind := 1, hop := s } }
          else
            let y := { w.chunk with hdr := { w.hdr with kind := 2, hop := 0 } }
            let p := p.finalChunk i c b y part
            p.sendChunk c (if c.op = 1 then ⟨{ y.hdr with kind := 4 }, [], [], false⟩ else y)
        p.chanNext i c b
    | _, _, _ => p
  else if gatherHop c s = 0 then
    match localBytes c b st chunk with
    | none => p
    | some x =>
      let r : Chunk × Pkg :=
        if c.op = 4 then
          let h := { baseHdr p c b chunk 3 0 with poison := x.2 }
          let ws : List W32 := (List.range 1024).map fun k =>
            if k < h.nValid then BitVec.ofNat 32 (leNat ((x.1.drop (4 * k)).take 4)) else 0
          (⟨h, ws, residues (ws.map fun (w : W32) => w.toInt), false⟩, if x.2 then p.poisonSet e else p)
        else
          let r := p.combine i c b chunk none x.1 x.2 mism
          ({ r.1.chunk with hdr := { r.1.hdr with kind := 2, hop := 0 } }, r.2)
      ((r.2.finalChunk i c b r.1 part).sendChunk c r.1).chanNext i c b
  else
    match st.rx.head? with
    | none => p
    | some y =>
      let p := (pop p).finalChunk i c b y part
      let p := if last then p else p.sendChunk c { y with hdr := { y.hdr with hop := y.hdr.hop + 1 } }
      p.chanNext i c b

def execAgreementHop (e : Bool) (ch : Fin 16) (mismatches : Nat) (s : State) : Host.Outcome State Fault Refusal :=
  s.on .data fun p =>
    match p.posImage with
    | none => p
    | some i =>
      match chanEntry i e ch.val with
      | none => p
      | some c =>
        let st := p.chan e ch.val
        match chanBucket i c (headBucket i c st.pos) with
        | none => p
        | some b => if b.nElem = 0 then p else (p.agreementStep i c b mismatches).drainChan e ch.val

/-! ## XAGR (R204) -/

/-- The channel and the sequence place of a bucket number. -/
def bucketChannel (i : Image) (n : Nat) : Option (ChanEnt × Nat) :=
  match i.buckets.findIdx? fun b => decide (b.bucket = n) with
  | none => none
  | some k => (i.chans.find? fun c => decide (c.firstSeq ≤ k ∧ k < c.firstSeq + c.nSeq)).map fun c => (c, k - c.firstSeq)

/-- Bytes that a channel's hold region holds: flits of buckets that are not current (log 26). -/
def heldBytes (cur : Nat) (st : ChanSt) : Nat := 64 * (st.input.filter fun f => decide (f.1 ≠ cur)).length

/-- The number of the bucket at which a channel stands. -/
def currentBucket (i : Image) (c : ChanEnt) (st : ChanSt) : Nat :=
  ((chanBucket i c (headBucket i c st.pos)).map (·.bucket)).getD 65536

/-- A flit of tile t at offset off enters a channel's input; its read-out credits done_win. -/
def Pkg.takeInput (p : Pkg) (i : Image) (c : ChanEnt) (bucket t off done : Nat) : Pkg :=
  let st := p.chan c.engine c.channel
  let ws := (p.localFlit t off 0).map packWord
  let p := p.setChan c.engine c.channel { st with input := st.input ++ [(bucket, ws)] }
  let occ := ((i.chans.filter fun x => decide (x.engine = c.engine)).map fun x =>
    heldBytes (currentBucket i x (p.chan x.engine x.channel)) (p.chan x.engine x.channel)).sum
  let k := O.holdPeakBytes + b2n c.engine
  let p := p.setReg k (max (p.reg k) occ)
  if done = 0 then p else p.pushFlit (.credit t (done - 1))

/-- Whether a channel has room for a flit of a bucket. -/
def Pkg.hasRoom (p : Pkg) (i : Image) (c : ChanEnt) (bucket : Nat) : Bool :=
  let st := p.chan c.engine c.channel
  let cur := currentBucket i c st
  decide (bucket = cur) || decide (heldBytes cur st + 64 ≤ c.holdBytes)

/-- One flit of an XAGR: accepted, or refused until the region has room, behind those refused before it. -/
def Pkg.offerInput (p : Pkg) (i : Image) (bucket t off done : Nat) : Pkg :=
  match bucketChannel i bucket with
  | none => p
  | some (c, _) =>
    let st := p.chan c.engine c.channel
    if p.hasRoom i c bucket ∧ !st.refused.any (fun r => decide (r.2.2.1 = bucket)) then p.takeInput i c bucket t off done
    else (p.setChan c.engine c.channel { st with refused := st.refused ++ [(t, off, bucket, done)], held := true }).raiseOnce
      c.engine 0x3A05 bucket

def execXagr (a : XSlot) (s : State) : Host.Outcome State Fault Refusal :=
  s.move "XAGR" a false true (fun x _ _ => decide (x.rwin = 0)) fun p x ti n =>
    match p.posImage with
    | none => p
    | some i =>
      (List.range n).foldl (fun p k =>
        p.offerInput i x.bucket a.t.val ((ti.xlocal a.mdesc.val).toNat + 64 * k) (if x.doneEn then x.doneWin + 1 else 0)) p

/-- R204: the first refused flit of a channel for which there is room now. -/
def execXagrFlitAccept (e : Bool) (ch : Fin 16) (s : State) : Host.Outcome State Fault Refusal :=
  s.on .data fun p =>
    match p.posImage with
    | none => p
    | some i =>
      match chanEntry i e ch.val with
      | none => p
      | some c =>
        let st := p.chan e ch.val
        match st.refused.findIdx? fun r => p.hasRoom i c r.2.2.1 with
        | none => p
        | some k =>
          match st.refused[k]? with
          | none => p
          | some r =>
            (p.setChan e ch.val { st with refused := dropAt st.refused k }).takeInput i c r.2.2.1 r.1 r.2.1 r.2.2.2

/-- R204: the beats in which a region has refused a flit, one accepted later in the beat too. -/
def Pkg.countStalls (p : Pkg) : Pkg :=
  [false, true].foldl (fun p e =>
    let n := ((p.engine e).chans.filter fun c => !c.2.refused.isEmpty || c.2.held).length
    let p := p.bump (O.holdStallBeats + b2n e) n
    (p.engine e).chans.foldl (fun p (c : Nat × ChanSt) => p.setChan e c.1 { c.2 with held := false }) p) p

end Sys2Proof.Machine
end

