-- ==== Sys2Proof/Machine/MemCmd.lean ====
section
/-! DEFINITION. Machine/MemCmd.lean: the commands of package memory: line reads and writes, correction, the patrol
scrubber, repair and the test port, decode (R245 to R257). -/
namespace Sys2Proof.Machine

/-! ## The set queues -/

def MemOp.isRead : MemOp → Bool
  | .read _ _ _ => true
  | _ => false

def MemOp.isWrite : MemOp → Bool
  | .write _ _ _ => true
  | _ => false

def MemOp.isCorrect : MemOp → Bool
  | .correct _ _ => true
  | _ => false

/-- The address of an access. -/
def MemOp.addr : MemOp → Nat
  | .read l _ _ => 64 * l
  | .write l _ _ => 64 * l
  | .correct w _ => 16 * w

/-- R362: a stack or device leaves self-refresh at a request. -/
def Pkg.exitRefresh (p : Pkg) (a : Nat) : Pkg :=
  { p with memsys := { p.memsys with selfRefresh := p.memsys.selfRefresh.put false (placeOf a).unitNo false } }

/-- Serve entry i of the queue where it is of the named kind and the first of its set. Nothing is served while the memory pads
are held (R371), nor by a unit whose PHY has lost its clock (R450). -/
def Pkg.serveIf (p : Pkg) (i : Nat) (kind : MemOp → Bool) : Pkg :=
  match p.memsys.queue[i]? with
  | none => p
  | some o =>
    if kind o && p.firstOfSet i && !bitOf (p.reg O.padHeld) 0 && !p.supply.pllOff.at false (12 + (placeOf o.addr).unitNo) then (p.exitRefresh o.addr).serveAt i else p

def execMemoryLineRead (i : Nat) (s : State) : Host.Outcome State Fault Refusal := s.on .control fun p => p.serveIf i MemOp.isRead

def execMemoryLineWrite (i : Nat) (s : State) : Host.Outcome State Fault Refusal := s.on .control fun p => p.serveIf i MemOp.isWrite

def execCorrectionWriteback (i : Nat) (s : State) : Host.Outcome State Fault Refusal :=
  s.on .control fun p => p.serveIf i MemOp.isCorrect

/-! ## Patrol scrub (R252) -/

/-- HBM3E sets, and all sets, of one memory-side die (R237, R239). -/
abbrev hbmSetsPerDie : Nat := 251658240
abbrev setsPerDie : Nat := 251658240 + 1610612736

/-- The address and the words of the j-th set that the scrubber of die n reads (log 21). -/
def scrubSet (n j : Nat) : Nat × Nat :=
  if j < hbmSetsPerDie then ((j / 3 * 12 + 3 * n + j % 3) * 960, 60)
  else
    let k := j - hbmSetsPerDie
    (lpddrBase + (k / 6 * 24 + 6 * n + k % 6) * 512, 32)

/-- The memory-side die of a memory unit number. -/
def unitDie (u : Nat) : Nat := if u < 12 then u / 3 else (u - 12) / 6

/-- One word as the scrubber treats it. -/
def Pkg.scrubWord (p : Pkg) (a : Nat) : Pkg :=
  let w := p.word a
  match checkWord w with
  | .clean => p
  | .poison =>
    let d := dieOf a
    { p with memsys := { p.memsys with poisonSeen := p.memsys.poisonSeen.put 0 d (p.memsys.poisonSeen.at 0 d + 1) } }
  | .corrected v sym => (p.setWord a v).countCorrection (placeOf a) sym
  | .bad => (p.setWord a poisonWord).countUncorrectable a w

/-- The sideband and per-row counts of die n restart (R252). -/
def Pkg.restartCounts (p : Pkg) (n : Nat) : Pkg :=
  let m := p.memsys
  { p with memsys := { m with
      rowCorr := m.rowCorr.filter fun e => decide (unitDie (e.1 / 2 ^ 21 / 64 / 32) ≠ n)
      sideband := m.sideband.filter fun e => decide (unitDie (e.1 / 32) ≠ n)
      sidebandHit := m.sidebandHit.filter fun e => decide (unitDie (e.1 / 32) ≠ n) } }

/-- R252: the scrubbers stop, and the windows that take their place begin; or they go on, and the windows in progress end. -/
def Pkg.noteScrub (p : Pkg) (old : Nat) : Pkg :=
  let m := p.memsys
  if p.reg O.scrubEnable = old then p
  else if old = 1 then { p with memsys := { m with window := (List.range 4).map fun n => (n, p.mtime) } }
  else (List.range 4).foldl Pkg.restartCounts { p with memsys := { m with window := [] } }

/-- R252: the next set of die n, when nothing waits for it; the last one completes a pass. -/
def execPatrolScrubRead (n : DieNo) (s : State) : Host.Outcome State Fault Refusal :=
  s.on .control fun p =>
    let j := p.memsys.scrubPos.at 0 n.val
    let st := scrubSet n.val j
    if p.reg O.scrubEnable = 0 ∨ p.reg O.psCurrent ≥ 2 ∨
        p.memsys.queue.any (fun o => decide (o.set = setOf st.1)) then p
    else
      let p := (List.range st.2).foldl (fun p i => p.scrubWord (st.1 + 16 * i)) p
      let last := decide (j + 1 = setsPerDie)
      let p := { p with memsys := { p.memsys with scrubPos := p.memsys.scrubPos.put 0 n.val (if last then 0 else j + 1) } }
      if last then ((p.restartCounts n.val).bump (O.scrubPasses + n.val) 1).raise 0x4005 n.val 0 else p

/-- The ticks of mtime of scrub_period_hours. -/
def Pkg.scrubPeriod (p : Pkg) : Nat := p.reg O.scrubPeriodHours * 3600 * 100000000

/-- R252: while scrub_enable = 0, die n's window closes once its hours have passed, and the next one begins. -/
def execScrubWindowClose (n : DieNo) (s : State) : Host.Outcome State Fault Refusal :=
  s.on .control fun p =>
    match p.memsys.window.find? fun e => decide (e.1 = n.val) with
    | none => p
    | some w =>
      if p.mtime < w.2 + p.scrubPeriod then p
      else
        let p := p.restartCounts n.val
        { p with memsys := { p.memsys with
            window := p.memsys.window.map fun (e : Nat × Nat) => if e.1 = n.val then (e.1, w.2 + p.scrubPeriod) else e } }

/-! ## The test port and repair (R254 to R256) -/

def execMemTestOwnerWrite (w : Writer) (n : DieNo) (v : Nat) (s : State) : Host.Outcome State Fault Refusal :=
  s.on (writerPlane w) fun p =>
    if v > 3 then
      match w with
      | .path pt => p.refuse pt (O.memTestOwner + n.val) abRange
      | .unit => p
    else p.ownerWrite w (O.memTestOwner + n.val) v 0x4009 n.val

/-- The words of a row or page: addresses (R237, R239). -/
def rowWords (r : RowId) : List Nat :=
  if r.unit < 12 then
    let base := (r.unit + 12 * r.lane + 384 * (r.row * 64 + r.bank)) * 960
    (List.range 60).map fun i => base + 16 * i
  else
    let g := r.row / 9 * 16 + r.bank
    (List.range 4).flatMap fun k =>
      let u := (r.unit - 12) + 24 * r.lane + 96 * (g * 32 + 4 * (r.row % 9) + k)
      (List.range 32).map fun i => lpddrBase + u * 512 + 16 * i

/-- R255: the image states in which repair runs. -/
def repairRuns (st : Nat) : Bool := decide (st = 0 ∨ st = 2 ∨ st = 3 ∨ st = 5)

/-- R255: repair claims the test port of die n and takes its first candidate, while the image does not run. -/
def execRepairStart (n : DieNo) (s : State) : Host.Outcome State Fault Refusal :=
  s.on .control fun p =>
    let st := p.reg O.imageState
    match p.memsys.cands.at [] n.val with
    | [] => p
    | r :: rest =>
      if !repairRuns st ∨ (p.memsys.repairing.find n.val).isSome then p
      else
        let p := p.ownerWrite .unit (O.memTestOwner + n.val) 2 0x4009 n.val
        if p.reg (O.memTestOwner + n.val) ≠ 2 then p
        else
          { p with memsys := { p.memsys with
              repairing := (p.memsys.repairing.del n.val).ins n.val r
              cands := p.memsys.cands.put [] n.val rest } }.setReg (O.repairCandidates + n.val) rest.length

/-- R255: the row is written back as read through the word code. -/
def Pkg.rewriteRow (p : Pkg) (r : RowId) : Pkg :=
  (rowWords r).foldl (fun p a =>
    let w := p.word a
    match checkWord w with
    | .clean => p
    | .poison => p
    | .corrected v _ => p.setWord a v
    | .bad => (p.setWord a poisonWord).countUncorrectable a w) p

/-- The port is released when the list of die n is done. -/
def Pkg.releaseRepair (p : Pkg) (n : Nat) : Pkg :=
  if (p.memsys.cands.at [] n).isEmpty then p.setReg (O.memTestOwner + n) 0 else p

/-! ## Decode and self-refresh -/

/-- The decode_result of an address (R257). -/
def decodeWord (a : Nat) : Nat :=
  let q := placeOf a
  fld (b2n q.lpddr) 63 + fld q.unit 58 + fld q.lane 53 + fld q.bank 47 + fld q.row 26 + q.byte

def execDecodeQuery (pt : Path) (v : Nat) (s : State) : Host.Outcome State Fault Refusal :=
  s.on (pathPlane pt) fun p => if isMem v then p.setReg O.decodeQuery v else p.refuse pt O.decodeQuery abRange

/-- R362: in PS2 an idle stack or device enters self-refresh. -/
def execSelfRefreshIdleEntry (unit : Fin 36) (s : State) : Host.Outcome State Fault Refusal :=
  s.on .control fun p =>
    if p.reg O.psCurrent = 2 then
      { p with memsys := { p.memsys with selfRefresh := p.memsys.selfRefresh.put false unit.val true } }
    else p

end Sys2Proof.Machine
end

