-- ==== Sys2Proof/Machine/CohCmd.lean ====
section
/-! DEFINITION. Machine/CohCmd.lean: the commands of coherence and of the server cores (R259 to R283). -/
namespace Sys2Proof.Machine

/-- R267: the requests at the named places of the network reach their homes in one MCLK cycle. -/
def execCoherentRequestArrival (idx : List Nat) (cyc : Nat) (s : State) : Host.Outcome State Fault Refusal :=
  s.on .control fun p => p.arriveAll idx cyc

def execRdShared (line : Nat) (s : State) : Host.Outcome State Fault Refusal :=
  s.on .control fun p => p.arbitrate line .rdShared false
def execRdOwn (line : Nat) (s : State) : Host.Outcome State Fault Refusal := s.on .control fun p => p.arbitrate line .rdOwn false
def execUpgrade (line : Nat) (s : State) : Host.Outcome State Fault Refusal :=
  s.on .control fun p => p.arbitrate line .upgrade false
def execWbDirty (line : Nat) (s : State) : Host.Outcome State Fault Refusal :=
  s.on .control fun p => p.arbitrate line .wbDirty false
def execEvClean (line : Nat) (s : State) : Host.Outcome State Fault Refusal :=
  s.on .control fun p => p.arbitrate line .evClean false
def execRdSnoop (line : Nat) (s : State) : Host.Outcome State Fault Refusal :=
  s.on .control fun p => p.arbitrate line .rdSnoop false
def execWrInv (line : Nat) (s : State) : Host.Outcome State Fault Refusal := s.on .control fun p => p.arbitrate line .wrInv false
def execDirectoryRecall (line : Nat) (s : State) : Host.Outcome State Fault Refusal :=
  s.on .control fun p => p.arbitrate line .wrInv true

def execFwdS (c : CoreNo) (line : Nat) (s : State) : Host.Outcome State Fault Refusal :=
  s.on .control fun p => p.coreAnswer c.val line .fwdS
def execFwdM (c : CoreNo) (line : Nat) (s : State) : Host.Outcome State Fault Refusal :=
  s.on .control fun p => p.coreAnswer c.val line .fwdM
def execInv (c : CoreNo) (line : Nat) (s : State) : Host.Outcome State Fault Refusal :=
  s.on .control fun p => p.coreAnswer c.val line .inv
def execInvD (c : CoreNo) (line : Nat) (s : State) : Host.Outcome State Fault Refusal :=
  s.on .control fun p => p.coreAnswer c.val line .invD
def execSnpRd (c : CoreNo) (line : Nat) (s : State) : Host.Outcome State Fault Refusal :=
  s.on .control fun p => p.coreAnswer c.val line .snpRd
def execSnoopAnswer (c : CoreNo) (line : Nat) (s : State) : Host.Outcome State Fault Refusal :=
  s.on .control fun p => p.homeAnswer c.val line
def execCompletionAck (r : Fin 80) (line : Nat) (s : State) : Host.Outcome State Fault Refusal :=
  s.on .control fun p => p.ackLine r.val line

/-- R277: home_timeout_us after its snoop the home gives up on core c's answer: poison to the requester and to the line, the entry freed. -/
def execHomeTimeout (c : CoreNo) (line : Nat) (s : State) : Host.Outcome State Fault Refusal :=
  s.on .control fun p =>
    match p.busyAt line with
    | none => p
    | some b =>
      if !p.coh.snoops.any (fun x => decide (x.core = c.val ∧ x.line = line) && !x.stale) ∨
          p.mtime < b.sent + 100 * p.reg O.homeTimeoutUs then p
      else
        let q := b.req
        let p := { p with coh := { p.coh with
            snoops := p.coh.snoops.map fun (x : Snoop) => if x.line = line then { x with stale := true } else x } }
        let mem := if q.kind = .wrInv ∧ q.tag ≠ .victim then
            (List.range 4).map fun w =>
              if ((q.mask.drop (16 * w)).take 16).all (fun m => m) then readWord (q.data.getD w poisonWord) else none
          else poisonLine
        let p := (p.enqueue (.write line fullMask (mem.map packWord))).setEntry line 0 0
        let p := if q.tag = .victim then p.freeLine line
          else (p.setBusy { b with waiting := 0 }).deliver q.tag line (some poisonLine)
        (p.bump (O.homeTimeouts + c.val) 1).raise 0x4201 c.val 0

/-- Whether core c runs: it is online. -/
def Pkg.coreOn (p : Pkg) (c : Nat) : Bool := decide (p.reg (O.coreState + c) = 0)

/-- R272: a line leaves the L2 for the eviction buffer, with its notice; not while a request of the core for it, or a
fill, is under way. -/
def execCoreReplacement (c : CoreNo) (line : Nat) (s : State) : Host.Outcome State Fault Refusal :=
  s.on .control fun p => if p.asked c.val line then p else p.replaceLine c.val line

def execCoreFill (c : CoreNo) (line : Nat) (s : State) : Host.Outcome State Fault Refusal :=
  s.on .control fun p => p.fillCore c.val line

/-- R276: the fence completes once no earlier store of the core waits; until then the core issues no access. -/
def execFence (c : CoreNo) (s : State) : Host.Outcome State Fault Refusal :=
  s.on .control fun p =>
    if (p.coh.stores.find c.val).isSome then
      { p with coh := { p.coh with fencing := p.coh.fencing.put false c.val true } }
    else p

/-! ## Reclamation (R279, R280) -/

/-- R279: whether a sweep may start. -/
def Pkg.sweepMay (p : Pkg) : Bool :=
  decide (p.reg O.imageState ≠ 4) && !p.coh.sweep &&
    !(agents p.reclaimAgents).any fun c => decide (p.reg (O.coreState + c) ≠ 1 ∧ p.reg (O.coreState + c) ≠ 3)

def Pkg.startSweep (p : Pkg) : Pkg := ({ p with coh := { p.coh with sweep := true } }).setReg O.reclaimState 1

/-- The agents that a directory entry names. -/
def Pkg.namedAgents (p : Pkg) : Nat :=
  p.coh.dir.foldl (fun m e => match dirRead e.2 with
    | some v => if bits v 70 68 = 0 then m else m ||| v % 2 ^ 68
    | none => m) 0

/-- R279, R281: recovery, as claimant 2, reclaims the lines of the cores that are out of service: it masks them and starts a sweep
(log 81). -/
def Pkg.reclaimDead (p : Pkg) : Pkg :=
  let m := (agents p.namedAgents).foldl (fun m c =>
    if p.reg (O.coreState + c) = 1 ∨ p.reg (O.coreState + c) = 3 then m + 2 ^ c else m) 0
  let p := ((p.setReg O.reclaimMask (m % 2 ^ 32)).setReg (O.reclaimMask + 1) (m / 2 ^ 32 % 2 ^ 32)).setReg (O.reclaimMask + 2) (m / 2 ^ 64)
  if m = 0 then p else if p.sweepMay then p.startSweep else p.raise 0x4205 noUnit 0

def execReclaimOwnerWrite (w : Writer) (v : Nat) (s : State) : Host.Outcome State Fault Refusal :=
  s.on (writerPlane w) fun p =>
    if v > 3 then
      match w with
      | .path pt => p.refuse pt O.reclaimOwner abRange
      | .unit => p
    else
      let q := p.ownerWrite w O.reclaimOwner v 0x4205 noUnit
      match w with
      | .path _ => q
      | .unit => if v = 2 ∧ q.reg O.reclaimOwner = 2 then q.reclaimDead else q

/-- R279: a sweep starts, or is refused with event 0x4205: the controller's owner on a path is the diagnostic request. A mask of zero
completes at once (R10). -/
def execReclaimStart (pt : Path) (v : Nat) (s : State) : Host.Outcome State Fault Refusal :=
  s.on (pathPlane pt) fun p =>
    if v ≠ 1 then p.refuse pt O.reclaimStart abRange
    else if p.reg O.reclaimOwner ≠ 3 then (p.refuse pt O.reclaimStart abOwner).raise 0x4205 noUnit 0
    else if p.reclaimAgents = 0 then p
    else if !p.sweepMay then (p.refuse pt O.reclaimStart abState).raise 0x4205 noUnit 0
    else p.startSweep

def execReclaimSweepComplete (s : State) : Host.Outcome State Fault Refusal := s.on .control Pkg.endSweep

/-! ## Cores taken offline and started (R281, R283, R419) -/

/-- A core gives up one line: dirty data is written, where the entry still names the core as its holder (row 18 discards it else), and
the entry loses the core. -/
def Pkg.releaseLine (p : Pkg) (c line : Nat) : Pkg :=
  let p := ((Pkg.finishLine 4 line p).dirCheck (dirSet line)).l2Check c line
  match p.l2 c line with
  | none => p
  | some x =>
    let e := p.dirFind line
    let p := p.setL2 c line none
    let p := if x.st = .m ∧ 2 ≤ e.st ∧ bitOf e.sharers c then
        (if p.hitsImage line fullMask then p.raise 0x380B noUnit 0 else (p.drainLine line).writeLine line fullMask x.words)
      else p
    if bitOf e.sharers c then p.setEntry line e.st (delAgent e.sharers c) else p

/-- R259: no request of a core that is out of service is left: those in service run to their ends, those that wait go, but for the
notices of its eviction buffer. -/
def Pkg.quietCore (p : Pkg) (c : Nat) : Pkg :=
  let p := (p.coh.busy.filter fun b => decide (b.req.requester = c)).foldl (fun p b => Pkg.finishLine 4 b.line p) p
  let keep (q : Req) : Bool := decide (q.requester ≠ c ∨ q.kind = .wbDirty ∨ q.kind = .evClean)
  { p with coh := { p.coh with
      net := p.coh.net.filter keep
      arb := p.coh.arb.filter keep
      fills := p.coh.fills.filter fun f => decide (f.core ≠ c) } }

/-- R406: a core that wear asked to be taken offline is offline: the shadow spare_core names it. -/
def Pkg.spareWanted (p : Pkg) (c : Nat) : Pkg :=
  if p.wear.qual.find (64 + c / 17) = some c then
    let p := ({ p with wear := { p.wear with qual := p.wear.qual.del (64 + c / 17) } }).setShadow (O.spareCore + c / 17) (c % 17)
    (p.raise 0x2607 c 0).bump O.substitutionsStarted 1
  else p

/-- R281: software takes a core offline: it stops and releases its lines. -/
def execCoreTakenOffline (c : CoreNo) (s : State) : Host.Outcome State Fault Refusal :=
  s.on .control fun p =>
    if !p.coreOn c.val then p
    else
      let p := { p with coh := { p.coh with
        stores := p.coh.stores.del c.val
        loads := p.coh.loads.del c.val
        fencing := p.coh.fencing.del c.val
        reserved := p.coh.reserved.del c.val } }
      let p := p.quietCore c.val
      let lines := (p.coh.l2.filter fun e => decide (e.1 / 2 ^ 40 = c.val)).map (·.1 % 2 ^ 40)
      ((lines.foldl (fun p l => p.releaseLine c.val l) p).setReg (O.coreState + c.val) 1).spareWanted c.val

end Sys2Proof.Machine
end

