-- ==== Sys2Proof/Machine/Crypto.lean ====
section
/-! DEFINITION. Machine/Crypto.lean: SHAKE256 and its digests (FIPS 202; R150, R346, R411), KMAC256 (SP 800-185;
R411), and CRC-32C (R320). -/
namespace Sys2Proof.Machine

/-! ## Keccak -/

/-- The 24 round constants. -/
def keccakRc : List W64 :=
  [0x0000000000000001, 0x0000000000008082, 0x800000000000808A, 0x8000000080008000, 0x000000000000808B,
   0x0000000080000001, 0x8000000080008081, 0x8000000000008009, 0x000000000000008A, 0x0000000000000088,
   0x0000000080008009, 0x000000008000000A] ++
  [0x000000008000808B, 0x800000000000008B, 0x8000000000008089, 0x8000000000008003, 0x8000000000008002,
   0x8000000000000080, 0x000000000000800A, 0x800000008000000A, 0x8000000080008081, 0x8000000000008080,
   0x0000000080000001, 0x8000000080008008]

/-- The rotation of lane x + 5 y. -/
def keccakRot : List Nat :=
  [0, 1, 62, 28, 27, 36, 44, 6, 55, 20, 3, 10, 43] ++ [25, 39, 41, 45, 15, 21, 8, 18, 2, 61, 56, 14]

/-- Lane i of a state of 25 lanes. -/
def lane (a : List W64) (i : Nat) : W64 := a.getD i 0

/-- One round. -/
def keccakRound (a : List W64) (rc : W64) : List W64 :=
  let c := (List.range 5).map fun x => lane a x ^^^ lane a (x + 5) ^^^ lane a (x + 10) ^^^ lane a (x + 15) ^^^ lane a (x + 20)
  let d := (List.range 5).map fun x => lane c ((x + 4) % 5) ^^^ (lane c ((x + 1) % 5)).rotateLeft 1
  -- b at (x', y') takes the lane whose place π moves there
  let b := (List.range 25).map fun i =>
    let x' := i % 5
    let y' := i / 5
    let x := (x' + 3 * y') % 5
    let j := x + 5 * x'
    (lane a j ^^^ lane d x).rotateLeft (keccakRot.getD j 0)
  (List.range 25).map fun i =>
    let y5 := i / 5 * 5
    let v := lane b i ^^^ (~~~(lane b (y5 + (i + 1) % 5)) &&& lane b (y5 + (i + 2) % 5))
    if i = 0 then v ^^^ rc else v

def keccakF (a : List W64) : List W64 := keccakRc.foldl keccakRound a

/-- Bytes per block of the rate of SHAKE256 and KMAC256. -/
abbrev shakeRate : Nat := 136

/-- Absorb one block. -/
def absorb (a : List W64) (blk : List Byte) : List W64 :=
  keccakF ((List.range 25).map fun i => lane a i ^^^ BitVec.ofNat 64 (leNat ((blk.drop (8 * i)).take 8)))

/-- The message padded to whole blocks with a domain suffix. -/
def keccakPad (suffix : Nat) (m : List Byte) : List Byte :=
  let n := shakeRate - m.length % shakeRate
  if n = 1 then m ++ [BitVec.ofNat 8 (suffix + 0x80)]
  else m ++ [BitVec.ofNat 8 suffix] ++ List.replicate (n - 2) 0 ++ [0x80]

/-- The first n ≤ 136 bytes of the sponge's output. -/
def sponge (suffix : Nat) (m : List Byte) (n : Nat) : List Byte :=
  let a := (chunksOf shakeRate (keccakPad suffix m)).foldl absorb (List.replicate 25 0)
  (a.flatMap fun w => toLe 8 w.toNat).take n

/-- The first 256 bits of SHAKE256 (FIPS 202). -/
def digest256 (m : List Byte) : List Byte := sponge 0x1F m 32

/-! ## KMAC256 (SP 800-185) -/

/-- Big-endian bytes of a number, at least one. -/
def beBytes (n : Nat) : List Byte :=
  let k := if n < 256 then 1 else if n < 65536 then 2 else if n < 2 ^ 24 then 3 else if n < 2 ^ 32 then 4 else 8
  (toLe k n).reverse

def leftEncode (n : Nat) : List Byte := BitVec.ofNat 8 (beBytes n).length :: beBytes n
def rightEncode (n : Nat) : List Byte := beBytes n ++ [BitVec.ofNat 8 (beBytes n).length]
def encodeString (s : List Byte) : List Byte := leftEncode (8 * s.length) ++ s

def bytepad (s : List Byte) : List Byte :=
  let x := leftEncode shakeRate ++ s
  x ++ List.replicate ((shakeRate - x.length % shakeRate) % shakeRate) 0

/-- ASCII bytes of a label. -/
def ascii (s : String) : List Byte := s.toList.map fun c => BitVec.ofNat 8 c.toNat

/-- A 256-bit KMAC256 tag with a customisation string. -/
def kmac256 (key m custom : List Byte) : List Byte :=
  sponge 0x04 (bytepad (encodeString (ascii "KMAC") ++ encodeString custom) ++ bytepad (encodeString key) ++ m ++
    rightEncode 256) 32

/-! ## CRC-32C (R320) -/

/-- One bit of the reflected division. -/
def crcBit (c : W32) : W32 := if c.getLsbD 0 then (c >>> 1) ^^^ 0x82F63B78 else c >>> 1

def crcByte (c : W32) (b : Byte) : W32 :=
  (List.range 8).foldl (fun c _ => crcBit c) (c ^^^ b.zeroExtend 32)

/-- CRC-32C of bytes. -/
def crc32c (l : List Byte) : Nat := (l.foldl crcByte 0xFFFFFFFF ^^^ 0xFFFFFFFF).toNat

end Sys2Proof.Machine
end

