-- ==== Sys2Proof/Machine/DispatchUnit.lean ====
section
/-! DEFINITION. Machine/DispatchUnit.lean: the dispatch units: routing records, fills, maps and copies (R211 to R223),
and the tier engines' stage entries (R227 to R229). -/
namespace Sys2Proof.Machine

/-! ## The unit and its tables -/

def Pkg.unit (p : Pkg) (d : Nat) : DispUnit := p.disp.at DispUnit.reset d
def Pkg.setUnit (p : Pkg) (d : Nat) (u : DispUnit) : Pkg := { p with disp := p.disp.put DispUnit.reset d u }

/-- The section of die d in the loaded image. -/
def Pkg.section (p : Pkg) (d : Nat) : Option DieSection := p.posImage.bind fun i => (i.sections.getD d none)

/-- R212: the logical tile of die ordinal o of die d. -/
def ordinalTile (d o : Nat) : Nat := (4 * (d / 2) + o / 12) * 24 + 12 * (d % 2) + o % 12

/-- The table that is current, with its number. -/
def currentTable (x : DieSection) (u : DispUnit) : Option (Nat × DispTable) :=
  match x.seq[u.pos]? with
  | none => none
  | some e => (x.tables[e.1]?).map fun t => (e.1, t)

/-- The quotas of a FILL table, in expert order, and Q. -/
def quotasOf (x : DieSection) (t : DispTable) : List Nat := (x.quotas.drop t.quotaFirst).take t.nExperts
def slotsOf (x : DieSection) (t : DispTable) : Nat := (quotasOf x t).sum

/-- Record flits of a fill (R213). -/
def fillFlits (t : DispTable) : Nat := ceilDiv t.nTokens 2

/-- R218: the bytes of a map instance, and the address of the instance of ordinal f. -/
def mapBytes (x : DieSection) (t : DispTable) : Nat := 64 * ceilDiv (4 * (slotsOf x t + t.nTokens * t.k)) 64
def mapAddr (x : DieSection) (t : DispTable) (f : Nat) : Nat := x.mapBase + t.mapOffset + f % t.mapDepth * mapBytes x t

/-- Raise an event once per table per step. -/
def Pkg.raiseTable (p : Pkg) (d code table : Nat) : Pkg :=
  let u := p.unit d
  if (code, table) ∈ u.once then p else (p.setUnit d { u with once := (code, table) :: u.once }).raise code d 0

/-! ## Flits into the unit (R213, R214, R221) -/

/-- Flits of a table that its record region holds or that are on their way to it. -/
def regionFlits (u : DispUnit) (table : Nat) : Nat :=
  (u.records.at [] table).length + (u.inbound.filter fun f => decide (f.1 = table)).length

/-- R221: whether the unit takes a flit for a table: a trigger always, a record while its region holds no whole fill. -/
def takesFlit (x : DieSection) (u : DispUnit) (table : Nat) : Bool :=
  match x.tables[table]? with
  | none => false
  | some t => decide (t.op ≠ 1 ∨ regionFlits u table < fillFlits t)

/-- A flit of tile t at offset off is on its way to the unit. -/
def Pkg.sendToUnit (p : Pkg) (d table t off done : Nat) : Pkg :=
  let u := p.unit d
  let p := p.setUnit d { u with inbound := u.inbound ++ [(table, (p.localFlit t off 0).map packWord)] }
  if done = 0 then p else p.pushFlit (.credit t (done - 1))

def execXdsp (a : XSlot) (s : State) : Host.Outcome State Fault Refusal :=
  s.move "XDSP" a false true
    (fun x _ _ => match s.pkg.section (tileDie a.t.val) with
      | none => false
      | some y => decide (x.bucket < y.tables.length)) fun p x ti n =>
      let d := tileDie a.t.val
      match p.section d with
      | none => p
      | some y =>
        (List.range n).foldl (fun p k =>
          let off := (ti.xlocal a.mdesc.val).toNat + 64 * k
          let done := if x.doneEn then x.doneWin + 1 else 0
          let u := p.unit d
          if takesFlit y u x.bucket && !u.refused.any (fun r => decide (r.2.2.1 = x.bucket)) then
            p.sendToUnit d x.bucket a.t.val off done
          else (p.setUnit d { u with refused := u.refused ++ [(a.t.val, off, x.bucket, done)], held := true }).raiseTable d 0x3C03
            x.bucket) p

/-- The first flit on its way to a table, and the unit without it. -/
def takeInbound (u : DispUnit) (table : Nat) : Option (List PWord × DispUnit) :=
  match u.inbound.findIdx? fun f => decide (f.1 = table) with
  | none => none
  | some k => (u.inbound[k]?).map fun f => (f.2, { u with inbound := dropAt u.inbound k })

/-- R214: two routing records land in a fill's record region. -/
def execRoutingRecordFlit (d : DieNo) (table : Nat) (s : State) : Host.Outcome State Fault Refusal :=
  s.on .data fun p =>
    match (p.section d.val).bind fun x => x.tables[table]?, takeInbound (p.unit d.val) table with
    | some t, some (f, u) =>
      if t.op ≠ 1 then p
      else p.setUnit d.val { u with records := u.records.put [] table (u.records.at [] table ++ [f]) }
    | _, _ => p

/-- R221: a trigger is counted for a copy table. -/
def execDispatchTrigger (d : DieNo) (table : Nat) (s : State) : Host.Outcome State Fault Refusal :=
  s.on .data fun p =>
    match (p.section d.val).bind fun x => x.tables[table]?, takeInbound (p.unit d.val) table with
    | some t, some (_, u) =>
      if t.op = 1 then p else p.setUnit d.val { u with triggers := u.triggers.put 0 table (u.triggers.at 0 table + 1) }
    | _, _ => p

/-- R221: the first refused flit of a table goes to the unit once its region has room. -/
def execDispatchFlitAccept (d : DieNo) (table : Nat) (s : State) : Host.Outcome State Fault Refusal :=
  s.on .data fun p =>
    let u := p.unit d.val
    match p.section d.val, u.refused.findIdx? fun r => decide (r.2.2.1 = table) with
    | some x, some k =>
      match u.refused[k]? with
      | none => p
      | some r =>
        if takesFlit x u table then
          (p.setUnit d.val { u with refused := dropAt u.refused k }).sendToUnit d.val table r.1 r.2.1 r.2.2.2
        else p
    | _, _ => p

/-- The beats in which a unit refuses a flit, one accepted later in the beat too (R221). -/
def Pkg.countHolds (p : Pkg) : Pkg :=
  (List.range 4).foldl (fun p d =>
    let u := p.unit d
    if u.refused.isEmpty && !u.held then p else (p.setUnit d { u with held := false }).bump (O.dispatchHoldBeats + d) 1) p

/-! ## The fill (R214 to R218) -/

/-- A routing record (R214). -/
structure RouteRec where
  token : Nat
  nCand : Nat
  reserved : Bool
  experts : List Nat
  weights : List W32
  padding : Bool
  deriving DecidableEq, Repr

def routeRec (b : List Byte) : RouteRec :=
  let n (o k : Nat) : Nat := leNat ((b.drop o).take k)
  ⟨n 0 4, n 4 1, decide (n 5 3 ≠ 0), (List.range 4).map fun i => n (8 + 2 * i) 2,
    (List.range 4).map fun i => BitVec.ofNat 32 (n (16 + 4 * i) 4), b.all fun x => decide (x = 0xFF)⟩

/-- The two records of a flit; none where a word is poisoned. -/
def flitRecords (f : List PWord) : Option (List RouteRec) :=
  (wordsBytes (f.map readWord)).map fun b => [routeRec (b.take 32), routeRec ((b.drop 32).take 32)]

/-- R215, for one record that is no padding. -/
def recordOk (t : DispTable) (r : RouteRec) : Bool :=
  decide (r.token < t.nTokens ∧ r.nCand ≤ 4) && !r.reserved &&
  (List.range 4).all fun i =>
    if i < r.nCand then
      decide (r.experts.getD i 0 < t.nExperts) && !(r.experts.take i).any fun e => decide (e = r.experts.getD i 0)
    else decide (r.experts.getD i 0 = 0 ∧ r.weights.getD i 0 = 0)

/-- R215: the records of a fill, in token order; none on a record error. -/
def fillRecords (t : DispTable) (fs : List (List PWord)) : Option (List RouteRec) :=
  let rs := fs.map flitRecords
  if rs.any (·.isNone) then none
  else
    let all := rs.flatMap fun r => r.getD []
    let recs := all.filter fun r => !r.padding
    let toks := (List.range t.nTokens).map fun k => recs.filter fun r => decide (r.token = k)
    if recs.length = t.nTokens ∧ recs.all (recordOk t) ∧ toks.all (fun l => decide (l.length = 1)) then
      some (toks.flatMap fun l => l)
    else none

/-- What a fill builds (R216). -/
structure FillOut where
  used : List Nat
  slotMap : SMap Nat
  combMap : SMap Nat
  weights : SMap W32
  assigned : Nat
  overflows : Nat
  masked : Nat
  unfilled : Nat
  dropped : Nat
  deriving DecidableEq, Repr

/-- One token: its candidates, best first; `a` assignments so far. -/
def fillToken (t : DispTable) (quotas : List Nat) (r : RouteRec) : List Nat → Nat → FillOut → FillOut × Nat
  | [], a, o => (o, a)
  | i :: rest, a, o =>
    if a ≥ t.k then (o, a)
    else
      let e := r.experts.getD i 0
      let u := o.used.getD e 0
      if u < quotas.getD e 0 then
        let s := (quotas.take e).sum + u
        fillToken t quotas r rest (a + 1) { o with
          used := setAt o.used e (u + 1)
          slotMap := o.slotMap.put 0 s (2 ^ 31 + fld r.token 2 + a)
          combMap := o.combMap.put 0 (r.token * t.k + a) (2 ^ 31 + s)
          weights := o.weights.put 0 (r.token * t.k + a) (r.weights.getD i 0)
          assigned := o.assigned + 1 }
      else fillToken t quotas r rest a { o with overflows := o.overflows + 1 }

/-- R216. -/
def fillRun (t : DispTable) (quotas : List Nat) (recs : List RouteRec) : FillOut :=
  recs.foldl (fun o r =>
    let x := fillToken t quotas r (List.range r.nCand) 0 o
    if r.nCand = 0 then { x.1 with masked := x.1.masked + 1 }
    else { x.1 with unfilled := x.1.unfilled + (t.k - x.2), dropped := x.1.dropped + (if x.2 = 0 then 1 else 0) })
    ⟨List.replicate t.nExperts 0, [], [], [], 0, 0, 0, 0, 0⟩

/-- Bytes padded with zeros to whole flits. -/
def padFlits (b : List Byte) : List Byte := b ++ List.replicate ((64 - b.length % 64) % 64) 0

/-- R217: the report's bytes, a multiple of 64. -/
def reportBytes (t : DispTable) (counts : List Nat) (o : FillOut) : List Byte :=
  padFlits (counts.flatMap (toLe 4)) ++
    padFlits ((List.range (t.nTokens * t.k)).flatMap fun i => toLe 4 (o.weights.at 0 i).toNat) ++
    padFlits (o.used.flatMap (toLe 2))

/-- R218: the bytes of a map. -/
def mapContent (x : DieSection) (t : DispTable) (o : FillOut) : List Byte :=
  padFlits ((List.range (slotsOf x t)).flatMap (fun s => toLe 4 (o.slotMap.at 0 s)) ++
    (List.range (t.nTokens * t.k)).flatMap fun j => toLe 4 (o.combMap.at 0 j))

/-- The flits of bytes on their way to a tile, poison or not. -/
def Pkg.sendBytes (p : Pkg) (t off win : Nat) (b : List Byte) (poison : Bool) : Pkg :=
  (List.range (b.length / 64)).foldl (fun p k =>
    p.pushFlit (.sram t (off + 64 * k) win (flitOf ((b.drop (64 * k)).take 64) poison))) p

/-- The counts of a fill in R217's order. -/
def fillCounts (x : DieSection) (t : DispTable) (o : FillOut) : List Nat :=
  [t.nTokens, o.masked, o.assigned, o.overflows, o.unfilled, o.dropped, slotsOf x t - o.assigned]

def execFill (d : DieNo) (s : State) : Host.Outcome State Fault Refusal :=
  s.on .data fun p =>
    match p.section d.val with
    | none => p
    | some x =>
      let u := p.unit d.val
      match currentTable x u with
      | none => p
      | some (n, t) =>
        let fs := u.records.at [] n
        if t.op ≠ 1 ∨ u.served ∨ fs.length < fillFlits t then p
        else
          let f := u.ordinal.at 0 n
          let addr := mapAddr x t f
          let tile := ordinalTile d.val t.reportTile
          let done (p : Pkg) (bad : Bool) (counts : List Nat) : Pkg :=
            let u := p.unit d.val
            (p.setUnit d.val { u with
              served := true, ordinal := u.ordinal.put 0 n (f + 1), records := u.records.put [] n []
              fills := u.fills ++ [⟨n, f, bad, counts⟩] }).bump (O.fillsCompleted + d.val) 1
          match fillRecords t fs with
          | none =>
            let p := p.agentWriteWords (68 + d) addr (List.replicate (mapBytes x t / 16) none)
            let p := p.sendBytes tile t.reportAddr t.win
              (reportBytes t [] ⟨List.replicate t.nExperts 0, [], [], [], 0, 0, 0, 0, 0⟩ ++
                List.replicate 64 0) true
            done ((p.bump (O.recordErrors + d.val) 1).raise 0x3C01 d.val 0) true (t.nTokens :: List.replicate 6 0)
          | some recs =>
            let o := fillRun t (quotasOf x t) recs
            let counts := fillCounts x t o
            let p := p.agentWrite (68 + d) addr (mapContent x t o)
            let p := p.sendBytes tile t.reportAddr t.win (reportBytes t counts o) false
            let p := (p.bump (O.tokensDropped + d.val) o.dropped).bump (O.candidatesOverflowed + d.val) o.overflows
            let p := if 0 < o.dropped then p.raiseTable d.val 0x3C02 n else p
            done p false counts

/-! ## Copies (R219, R220, R223) -/

/-- R220: the tile and the offset of row r of a region of die d. -/
def rowPlace (d : Nat) (g : RegionDesc) (r : Nat) : Nat × Nat :=
  (ordinalTile d (g.tileFirst + r / g.rowsPerTile), g.offset + r % g.rowsPerTile * g.rowStride)

/-- The source row of destination row r: none for an empty one, from the map word (R219). -/
def sourceRow (op k w : Nat) : Option Nat :=
  if !bitOf w 31 then none
  else if op = 2 then some (bits w 18 2)
  else if op = 3 then some (bits w 19 0)
  else some (bits w 18 2 * k + bits w 1 0)

/-- One row is copied; whether it was poison. -/
def Pkg.copyRow (p : Pkg) (d : Nat) (t : DispTable) (r : Nat) (src : Option (Option Nat)) : Pkg × Bool :=
  let dstp := rowPlace d t.dst r
  (List.range t.rowFlits).foldl (fun (acc : Pkg × Bool) k =>
    let ws : List (Option W128) := match src with
      | none => [none, none, none, none]
      | some none => [some 0, some 0, some 0, some 0]
      | some (some q) =>
        let from0 := rowPlace d t.src q
        acc.1.localFlit from0.1 (from0.2 + 64 * k) 0
    (acc.1.pushFlit (.sram dstp.1 (dstp.2 + 64 * k) t.win (ws.map packWord)), acc.2 || ws.any (·.isNone))) (p, false)

/-- A copy of the current table, where it is of the named op and its triggers are counted. -/
def Pkg.copyTable (p : Pkg) (d op : Nat) : Pkg :=
  match p.section d with
  | none => p
  | some x =>
    let u := p.unit d
    match currentTable x u with
    | none => p
    | some (n, t) =>
      match x.tables[t.fillTable]? with
      | none => p
      | some f =>
        let done := u.ordinal.at 0 t.fillTable
        if t.op ≠ op ∨ u.served ∨ u.triggers.at 0 n < t.nTrig ∨ done < t.lag + 1 then p
        else
          let p := p.setUnit d { u with served := true, triggers := u.triggers.put 0 n (u.triggers.at 0 n - t.nTrig) }
          let a := mapAddr x f (done - 1 - t.lag)
          let q := slotsOf x f
          let rows := if op = 3 then f.nTokens * f.k else q
          let base := if op = 3 then a + 4 * q else a
          let r := (List.range rows).foldl (fun (acc : Pkg × Bool) r =>
            let m := acc.1.agentBytes (68 + d) (base + 4 * r) 4
            let o := m.2.copyRow d t r (m.1.map fun b => sourceRow op f.k (leNat b))
            (o.1, acc.2 || o.2)) (p, false)
          if r.2 then r.1.raise 0x3C0A d 0 else r.1

def execGather (d : DieNo) (s : State) : Host.Outcome State Fault Refusal := s.on .data fun p => p.copyTable d.val 2
def execScatter (d : DieNo) (s : State) : Host.Outcome State Fault Refusal := s.on .data fun p => p.copyTable d.val 3
def execCollect (d : DieNo) (s : State) : Host.Outcome State Fault Refusal := s.on .data fun p => p.copyTable d.val 4

/-- R221: the sequence moves on once the current activation has run; at its end every fill ordinal resets. -/
def execDispatchTableAdvance (d : DieNo) (s : State) : Host.Outcome State Fault Refusal :=
  s.on .data fun p =>
    match p.section d.val with
    | none => p
    | some x =>
      let u := p.unit d.val
      if !u.served then p
      else
        match x.seq[u.pos]? with
        | none => p
        | some e =>
          if u.rep + 1 < e.2 then p.setUnit d.val { u with served := false, rep := u.rep + 1 }
          else if u.pos + 1 < x.seq.length then p.setUnit d.val { u with served := false, rep := 0, pos := u.pos + 1 }
          else p.setUnit d.val { u with served := false, rep := 0, pos := 0, ordinal := [] }

/-! ## Stage entries (R227 to R229) -/

/-- The address of expert e's block in group g, by the active placement. -/
def Pkg.blockAddr (p : Pkg) (i : Image) (g e : Nat) : Nat :=
  let pos := (p.place.getD g []).getD e 0
  (((i.groups.getD g ⟨0, []⟩).positions).getD pos (false, 0)).2

/-- R228: agent r copies n bytes word for word, poison included. -/
def Pkg.copyBlock (p : Pkg) (r src dst n : Nat) : Pkg :=
  let d := p.agentRead r src n
  d.2.agentWriteWords r dst d.1

/-- The placement moves of R230 run, or wait to. -/
def Pkg.movesRun (p : Pkg) : Bool := !p.secure.swapsLeft.isEmpty

/-- R228: the engine's next entry starts, at its beat once the events of that beat are evaluated, or at the end of the engine's
previous entry; an empty one completes at once. -/
def execStageEntryStart (e : DieNo) (s : State) : Host.Outcome State Fault Refusal :=
  s.on .data fun p =>
    match p.posImage with
    | none => p
    | some i =>
      let x := p.tier e.val
      match p.stageDue i e.val x.next with
      | none => p
      | some (ent, due) =>
        if p.reg O.imageState ≠ 4 ∨ p.schedBeat < due ∨ (p.schedBeat = due ∧ !p.evaluates) ∨ x.busy.isSome ∨ p.movesRun then p
        else
          let y := if ent.length = 0 then { x with next := x.next + 1 }
            else { x with busy := some x.next, startBeat := p.schedBeat }
          { p with tiers := p.tiers.put TierEng.reset e.val y }

/-- R228: the entry's copy has ended, and with it its late case (R229). -/
def execStageEntryComplete (e : DieNo) (s : State) : Host.Outcome State Fault Refusal :=
  s.on .data fun p =>
    match p.posImage with
    | none => p
    | some i =>
      let x := p.tier e.val
      match x.busy, p.stageDue i e.val x.next with
      | some _, some (ent, due) =>
        let p := if due + ent.deadline ≤ p.schedBeat then p.dropLate (.stage e) else p
        let blk := p.blockAddr i ent.group ent.expert + ent.partOffset
        let p := if ent.dirIn then p.copyBlock (72 + e.val) blk ent.frame ent.length else p.copyBlock (72 + e.val) ent.frame blk ent.length
        { p with tiers := p.tiers.put TierEng.reset e.val { x with next := x.next + 1, busy := none } }
      | _, _ => p

/-- R229: an entry not complete at its deadline is a late case. -/
def execStageEntryDeadline (e : DieNo) (s : State) : Host.Outcome State Fault Refusal :=
  s.on .data fun p => p.noteLate (.stage e)

end Sys2Proof.Machine
end

