-- ==== Sys2Proof/Machine/TrainStep.lean ====
section
/-! DEFINITION. Machine/TrainStep.lean: the training step: its start and its end, the vote, the decision at C, the step
block, the scale unit and the ledgers (R72, R79, R80, R163 to R177, R224), and the system record (R338). -/
namespace Sys2Proof.Machine

/-! ## The system record (R337, R338) -/

/-- Bytes of the protection area, with their copy to the buddy: region n_regions of the copy traffic is the system record,
n_regions + 1 the digest table (log 30). -/
def Pkg.protWrite (p : Pkg) (x : SecPart) (which base off : Nat) (b : List Byte) : Pkg :=
  let a := x.protBase + base + off
  let p := p.agentWrite ioA a b
  let buddy := x.buddy.getD (p.reg O.logicalPosition) 0
  (List.range (if b.isEmpty then 0 else (a + b.length - 1) / 64 + 1 - a / 64)).foldl (fun p i =>
    let l := a / 64 + i
    p.sendLine buddy (x.regions.length + which) 1 (l * 64 - x.protBase - base)
      ((List.range 4).map fun w => readWord (p.word (l * 64 + 16 * w)))) p

/-- The 64-byte header of the system record. -/
def Pkg.sysHeader (p : Pkg) : List Byte :=
  toLe 8 p.secure.lastOpen ++ toLe 8 p.secure.lastComplete ++ toLe 8 (p.reg O.generatorStep) ++
    toLe 8 (p.reg O.stepOutcome) ++ toLe 4 (p.reg O.saveSeq) ++ toLe 4 (p.reg O.confirmedSeq) ++
    toLe 8 (p.reg O.stepOutcomeHigh) ++ List.replicate 16 0

/-- The header is written as it now stands. -/
def Pkg.writeSysHeader (p : Pkg) : Pkg :=
  match p.securing with
  | none => p
  | some x => p.protWrite x 0 0 0 p.sysHeader

/-! ## Rings of records (R80) -/

/-- The objects of a ring: base, length, write and read index, dropped records, record size, and the event of a drop. -/
structure Ring where
  base : Nat
  size : Nat
  wr : Nat
  rd : Nat
  dropped : Nat
  bytes : Nat
  event : Nat
  deriving DecidableEq, Repr

/-- The range ledger's ring (R80). -/
def ledgerRing : Ring :=
  ⟨O.ledgerRingBase, O.ledgerRingRecords, O.ledgerWriteIndex, O.ledgerReadIndex, O.ledgerRecordsDropped, 128, 0x3401⟩

/-- The dispatch ledger's ring (R224). -/
def dispatchRing : Ring :=
  ⟨O.dispatchRingBase, O.dispatchRingRecords, O.dispatchWriteIndex, O.dispatchReadIndex, O.dispatchRecordsDropped, 64,
    0x3C05⟩

/-- R80: a record is written, or dropped where the ring is full; a ring of no records takes and drops nothing (R81). -/
def Pkg.ringRecord (p : Pkg) (r : Ring) (b : List Byte) : Pkg :=
  let n := p.reg r.size
  if n = 0 then p
  else
    let w := p.reg r.wr
    if n ≤ (w + 2 ^ 32 - p.reg r.rd) % 2 ^ 32 then (p.bump r.dropped 1).raise r.event noUnit 0
    else (p.agentWrite ioA (p.reg r.base + w % n * r.bytes) b).bump32w r.wr 1

/-- R80: a read index that passes the write index is refused. -/
def Pkg.readIndexWrite (p : Pkg) (pt : Path) (r : Ring) (v : Nat) : Pkg :=
  p.objWrite pt r.rd v fun p =>
    let rd := p.reg r.rd
    if (p.reg r.wr + 2 ^ 32 - rd) % 2 ^ 32 < (v + 2 ^ 32 - rd) % 2 ^ 32 then p.refuse pt r.rd abRange else p.setReg r.rd v

def execLedgerReadIndexWrite (pt : Path) (v : Nat) (s : State) : Host.Outcome State Fault Refusal :=
  s.on (pathPlane pt) fun p => p.readIndexWrite pt ledgerRing v

def execDispatchReadIndexWrite (pt : Path) (v : Nat) (s : State) : Host.Outcome State Fault Refusal :=
  s.on (pathPlane pt) fun p => p.readIndexWrite pt dispatchRing v

/-- R82: the query's entry; an identifier at or above scale_table_entries is refused. -/
def Pkg.scaleQueryWrite (p : Pkg) (pt : Path) (v : Nat) : Pkg :=
  p.objWrite pt O.scaleQueryId v fun p =>
    if p.reg O.scaleTableEntries ≤ v then p.refuse pt O.scaleQueryId abRange else p.setReg O.scaleQueryId v

def execScaleQuery (pt : Path) (v : Nat) (s : State) : Host.Outcome State Fault Refusal :=
  s.on (pathPlane pt) fun p => p.scaleQueryWrite pt v

/-- R232: the queried expert of a group; [31:24] group, [23:12] expert, [11:0] reserved. -/
def Pkg.placementQueryWrite (p : Pkg) (pt : Path) (v : Nat) : Pkg :=
  p.objWrite pt O.placementQuery v fun p =>
    if v % 2 ^ 12 = 0 ∧ bits v 31 24 < p.place.length ∧ bits v 23 12 < (p.place.getD (bits v 31 24) []).length then
      p.setReg O.placementQuery v
    else p.refuse pt O.placementQuery abRange

def execPlacementQuery (pt : Path) (v : Nat) (s : State) : Host.Outcome State Fault Refusal :=
  s.on (pathPlane pt) fun p => p.placementQueryWrite pt v

/-! ## The range ledger (R78, R79, R82) -/

/-- The seven counts of R78 in table order. -/
def SlotCnt.counts (c : SlotCnt) : List Nat :=
  [c.total, c.saturated, c.flushed, c.subnormal, c.belowFloor, c.nonFinite, c.changed]

/-- The record of slot n (R79). -/
def slotRecord (d : SlotDecl) (n step : Nat) (void : Bool) (c : SlotCnt) : List Byte :=
  toLe 8 (fld d.tensor 40 + step % 2 ^ 40) ++ toLe 4 (fld (b2n void) 16 + n) ++ toLe 4 c.amax.toNat ++
    c.counts.flatMap (toLe 8) ++ List.replicate 56 0

/-- R79, R82, R342: the records of the slots used in the step, the totals of the step, and the sums since the last save
point; the counts of the step then begin again. -/
def Pkg.closeLedger (p : Pkg) (void : Bool) : Pkg :=
  let used := p.ledger.slots.filter fun e => decide (e.2.total ≠ 0)
  let p := used.foldl (fun p e =>
    match p.ledger.decl[e.1]? with
    | none => p
    | some d => p.ringRecord ledgerRing (slotRecord d e.1 (p.reg O.generatorStep) void e.2)) p
  let p := (List.range 7).foldl (fun p j =>
    p.setReg (O.ledgerTotals + 2 * j) ((used.map fun e => e.2.counts.getD j 0).sum % 2 ^ 64)) p
  let p := used.foldl (fun p e =>
    match p.ledger.decl[e.1]? with
    | none => p
    | some d =>
      if d.delta then
        let o := p.ledger.sinceSave.at (0, 0) d.tensor
        { p with ledger := { p.ledger with
            sinceSave := p.ledger.sinceSave.put (0, 0) d.tensor (o.1 + e.2.changed, o.2 + e.2.total) } }
      else p) p
  { p with ledger := { p.ledger with
      slots := p.ledger.slots.mapVals SlotCnt.reset fun c => { SlotCnt.reset with cnv := c.cnv, amaxC := c.amaxC } } }

/-! ## The scale unit (R72) -/

/-- emax_log2 of a format (R72). -/
def emaxLog2 (f : Nat) : Int :=
  match f with
  | 0 => 8
  | 1 => 15
  | 2 => 6
  | 3 => 2
  | 4 => 4
  | 5 => 2
  | 7 => 15
  | _ => 127

/-- floor_log2 of a history slot that counts in the maximum: none for zero, a NaN, or a set sign bit; 128 for +∞. -/
def histLog2 (h : Nat) : Option Int :=
  match decodeElem 6 h with
  | .nan => none
  | .inf s => if s then none else some 128
  | .fin s m e => if s ∨ m = 0 then none else some (FVal.fin s m e).expo

/-- The greatest of optional integers. -/
def maxOpt (a b : Option Int) : Option Int :=
  match a, b with
  | none, y => y
  | x, none => x
  | some x, some y => some (max x y)

/-- R72 on the bytes of one entry, with the amax of the step: the new bytes, and whether k was clamped. -/
def scaleEntry (b : List Byte) (amax : W32) : List Byte × Bool :=
  let w := leNat (b.take 4)
  let f := bits w 23 20
  let n := bits w 17 13
  let h := bits w 8 5
  let up := toBf16Up (f32 amax)
  let h1 := (h + 1) % 16
  let at' (i : Nat) : Nat := if i = h then up else leNat ((b.drop (16 + 2 * i)).take 2)
  let m := (List.range n).foldl (fun acc i => maxOpt acc (histLog2 (at' ((h1 + 15 - i) % 16)))) none
  let w := w - fld h 5 + fld h1 5
  let r : Nat × Bool :=
    match m with
    | none => (w, false)
    | some v =>
      if f = 8 then (w, false)
      else
        let k := v - emaxLog2 f + bits w 12 9
        let c := max (-127) (min 127 k)
        (w % 2 ^ 24 + fld (c + 127).toNat 24, decide (c ≠ k))
  (toLe 4 r.1 ++ toLe 4 amax.toNat ++ (b.drop 8).take 8 ++ (List.range 16).flatMap (fun i => toLe 2 (at' i)) ++
    (b.drop 48).take 16, r.2)

/-- The tensors that a slot's conversions named since the last commit opening, each with its amax. -/
def Pkg.convertedTensors (p : Pkg) : List (Nat × W32) :=
  (p.ledger.slots.filter fun e => e.2.cnv).foldl (fun (acc : List (Nat × W32)) e =>
    match p.ledger.decl[e.1]? with
    | none => acc
    | some d =>
      let o := SMap.at 0 d.tensor acc
      (SMap.del d.tensor acc).ins d.tensor (if o.toNat < e.2.amaxC.toNat then e.2.amaxC else o)) []

/-- R72: the scale unit at the opening of a commit phase. An entry that memory gives as poison is left as it is. -/
def Pkg.scaleUnit (p : Pkg) : Pkg :=
  p.convertedTensors.foldl (fun p e =>
    let a := p.reg O.scaleTableBase + 64 * e.1
    if p.reg O.scaleTableEntries ≤ e.1 then p
    else
      match p.agentBytes ioA a 64 with
      | (none, p) => p
      | (some b, p) =>
        if bits (leNat (b.take 4)) 17 13 = 0 then p
        else
          let r := scaleEntry b e.2
          let p := p.agentWrite ioA a r.1
          if r.2 then p.raise 0x3405 noUnit 0 else p) p

/-- The conversions that the next opening counts begin again. -/
def Pkg.openWindow (p : Pkg) : Pkg :=
  { p with ledger := { p.ledger with
      slots := p.ledger.slots.mapVals SlotCnt.reset fun c => { c with cnv := false, amaxC := 0 } } }

/-! ## The step block (R166, R167, R177) -/

abbrev stepBlock : Nat := 0x00E0FF000000

/-- The header: update_count, acc_count, and n_lr, with whether it is valid. A poisoned header is not valid and its
counts are free values (log 31). -/
structure BlockHdr where
  update : Nat
  acc : Nat
  nLr : Nat
  ok : Bool
  deriving DecidableEq, Repr

def Pkg.blockHdr (p : Pkg) : BlockHdr × Pkg :=
  match p.agentBytes ioA stepBlock 64 with
  | (none, p) =>
    let f := p.fresh
    let g := f.2.fresh
    (⟨f.1.toNat, g.1.toNat % 2 ^ 16, 0, false⟩, g.2)
  | (some b, p) =>
    let n := leNat ((b.drop 10).take 2)
    let ok := decide (n ≤ 16384) && (b.drop 24).all fun x => decide (x = 0)
    (⟨leNat (b.take 8), leNat ((b.drop 8).take 2), if ok then n else 0, ok⟩, p)

/-- A learning-rate entry (R167). -/
structure LrEntry where
  slot : Nat
  s : Nat
  sMax : Nat
  lowShift : Nat
  headroom : Nat
  reserved : Nat
  deriving DecidableEq, Repr

def lrEntry (b : List Byte) : LrEntry :=
  let n (o k : Nat) : Nat := leNat ((b.drop o).take k)
  ⟨n 0 2, n 2 1, n 3 1, n 4 1, n 5 1, n 6 2⟩

/-- R167. -/
def LrEntry.valid (e : LrEntry) (slots : Nat) : Bool :=
  decide (e.s ≤ e.sMax ∧ e.sMax ≤ 126 ∧ 1 ≤ e.lowShift ∧ e.lowShift ≤ 16 ∧ e.headroom ≤ 15 ∧ e.reserved = 0 ∧
    (e.slot = 0xFFFF ∨ e.slot < slots))

/-- binary32 2^s and 2^−s, for s ≤ 126. -/
def powPos (s : Nat) : Nat := fld (127 + s) 23
def powNeg (s : Nat) : Nat := fld (127 - s) 23

/-- The address of entry i. -/
def lrAddr (i : Nat) : Nat := stepBlock + 64 + 16 * i

/-- The entries, each with its number; none where the entry is poison, which is not valid. -/
def Pkg.lrEntries (p : Pkg) (n : Nat) : List (Nat × Option LrEntry) × Pkg :=
  (List.range n).foldl (fun (acc : List (Nat × Option LrEntry) × Pkg) i =>
    let r := acc.2.agentBytes ioA (lrAddr i) 16
    (acc.1 ++ [(i, r.1.map lrEntry)], r.2)) ([], p)

/-- An entry that may be used. -/
def Pkg.lrValid (p : Pkg) (e : Option LrEntry) : Option LrEntry :=
  match e with
  | none => none
  | some x => if x.valid (p.reg O.ledgerSlots) then some x else none

/-- R167: pow_pos and pow_neg of an entry. -/
def Pkg.writePow (p : Pkg) (i s : Nat) : Pkg := p.agentWrite ioA (lrAddr i + 8) (toLe 4 (powPos s) ++ toLe 4 (powNeg s))

/-- R167, R344: at domain start and after a restore: pow_pos and pow_neg of every valid entry; the header's event. -/
def Pkg.openBlock (p : Pkg) : Pkg :=
  let h := p.blockHdr
  let p := if h.1.ok then h.2 else h.2.raise 0x3905 noUnit 0
  let l := p.lrEntries h.1.nLr
  l.1.foldl (fun p e =>
    match p.lrValid e.2 with
    | none => p
    | some x => p.writePow e.1 x.s) l.2

/-- The format of a slot's tensor (R69, R177). -/
def Pkg.slotFormat (p : Pkg) (slot : Nat) : Nat :=
  match p.ledger.decl[slot]? with
  | none => 8
  | some d => ((p.scaleWord0 d.tensor).map fun w => bits w 23 20).getD 8

/-- R177: the exponent of an entry after the counts its slot latched. -/
inductive Steer where
  | keep
  | up
  | down
  | clamp
  deriving DecidableEq, Repr

def steer (e : LrEntry) (h : SlotCnt) (emax : Int) : Steer :=
  let lo := h.subnormal + h.flushed
  if 0 < h.saturated ∨ 0 ≤ (f32 h.amax).cmp (.fin false 1 (emax - e.headroom)) then
    if 0 < e.s then .down else .clamp
  else if h.total < lo * 2 ^ e.lowShift then
    if e.s < e.sMax then .up else .clamp
  else .keep

/-- R177 for one entry. -/
def Pkg.steerEntry (p : Pkg) (i : Nat) (o : Option LrEntry) : Pkg :=
  match p.lrValid o with
  | none => p.raise 0x3905 noUnit 0
  | some e =>
    match (if e.slot = 0xFFFF then none else p.ledger.held.find e.slot) with
    | none => p.writePow i e.s
    | some h =>
      let p := { p with ledger := { p.ledger with held := p.ledger.held.del e.slot } }
      let put (p : Pkg) (s : Nat) : Pkg := (p.agentWrite ioA (lrAddr i + 2) (toLe 1 s)).writePow i s
      match steer e h (emaxLog2 (p.slotFormat e.slot)) with
      | .keep => p.writePow i e.s
      | .clamp => ((p.bump O.lrClamped 1).raise 0x3906 noUnit 0).writePow i e.s
      | .up => put (p.bump O.lrRaised 1) (e.s + 1)
      | .down => put (p.bump O.lrLowered 1) (e.s - 1)

def Pkg.steerAll (p : Pkg) (n : Nat) : Pkg :=
  let l := p.lrEntries n
  l.1.foldl (fun p e => p.steerEntry e.1 e.2) l.2

/-- R176: at the end of a committed step the counts of each slot that a valid entry names are latched, where its total is
not 0. -/
def Pkg.latchSlots (p : Pkg) : Pkg :=
  let h := p.blockHdr
  let l := h.2.lrEntries h.1.nLr
  l.1.foldl (fun p e =>
    match p.lrValid e.2 with
    | none => p
    | some x =>
      let c := p.slotCnt x.slot
      if x.slot = 0xFFFF ∨ c.total = 0 then p
      else { p with ledger := { p.ledger with held := (p.ledger.held.del x.slot).ins x.slot c } }) l.2

/-! ## The start and the end of a step -/

/-- The end of a committed step: its slots are latched (R176) and its ledger records are written (R79). -/
def Pkg.endStep (p : Pkg) : Pkg :=
  if p.stepc.committing then
    let p := p.latchSlots.closeLedger false
    p.setStepc { p.stepc with committing := false }
  else p

/-- The schedule has reached the next step's first beat, and the step before has been decided. -/
def Pkg.stepDue (p : Pkg) (i : Image) : Bool :=
  p.evaluates && decide (p.stepBeat i p.sched.nextStart ≤ p.schedBeat) &&
    (decide (p.sched.nextStart = 0) || p.stepc.decided)

/-- R157, R174: the package halts at the next step start. -/
def Pkg.haltDue (p : Pkg) : Bool :=
  p.stepc.haltNext || (match p.sched.haltAt with
    | some b => decide (b ≤ p.reg O.domainBeat)
    | none => false)

/-- The commit sentence of the step before still runs, or waits to start, on some tile. -/
def Pkg.commitRuns (p : Pkg) : Bool :=
  p.tiles.any fun e => (e.2.seq.running && decide (e.2.seq.sentence = p.stepc.commitSent)) ||
    e.2.seq.starts.any fun x => decide (x.1 = p.stepc.commitSent)

/-- Sentence n, started at beat b, still runs, or waits to start, on some tile. -/
def Pkg.sentenceRuns (p : Pkg) (n b : Nat) : Bool :=
  p.tiles.any fun e => (e.2.seq.running && decide (e.2.seq.sentence = n ∧ e.2.seq.startBeat = b)) ||
    e.2.seq.starts.any fun x => decide (x.1 = n ∧ x.2 = b)

/-- R164, R168, R338: a step begins. -/
def Pkg.beginStep (p : Pkg) (i : Image) : Pkg :=
  let k := p.sched.nextStart % i.stepsPerCycle
  let p := p.endStep
  let p := if p.sched.nextStart = 0 ∨ p.commitRuns then p
    else { p with secure := { p.secure with lastComplete := p.reg O.generatorStep } }
  let p := p.setReg O.generatorStep ((p.reg O.generatorStep + 1) % 2 ^ 40)
  let p := { p with
    tiles := p.tiles.mapVals Tile.reset fun x => { x with stepPoison := false }
    engines := p.engines.mapVals Engine.reset fun x => { x with once := [] }
    disp := p.disp.mapVals DispUnit.reset fun x => { x with once := [] }
    ledger := { p.ledger with
      slots := p.ledger.slots.mapVals SlotCnt.reset fun c => { SlotCnt.reset with cnv := c.cnv, amaxC := c.amaxC } }
    stepc := { StepCtl.reset with
      stepIndex := k
      bucketsDone := if k = 0 then 0 else p.stepc.bucketsDone
      saveStep := p.stepc.saveOpen
      saveOpen := []
      commitSent := ((commitEntry i k).map fun (e : ProgEntry) => e.sentence).getD 64
      discards := p.stepc.discards.filter fun e => p.sentenceRuns e.1 e.2.1 } }
  let p := p.setSched { p.sched with nextStart := p.sched.nextStart + 1 }
  p.writeSysHeader

def execStepStart (s : State) : Host.Outcome State Fault Refusal :=
  s.on .data fun p =>
    match p.posImage with
    | none => p
    | some i => if p.stepDue i ∧ !p.haltDue then p.beginStep i else p

/-! ## The vote (R168 to R171) -/

def execLocalVoteDeadline (s : State) : Host.Outcome State Fault Refusal := s.on .data fun p => p.noteLate .vote

/-- R171: a complete local vote that holds a record goes to every neighbour at once. -/
def execLocalVoteComplete (s : State) : Host.Outcome State Fault Refusal :=
  s.on .data fun p =>
    match p.posImage with
    | none => p
    | some i =>
      if p.reg O.imageState ≠ 4 ∨ p.sched.nextStart = 0 ∨ p.stepc.decided ∨ p.stepc.localSent ∨ !p.voteComplete i then p
      else
        let p := p.setStepc { p.stepc with localSent := true }
        match p.stepc.own with
        | none => p
        | some r => (p.sendVote (votePayload r)).setStepc { p.stepc with sent := firstRec p.stepc.sent r }

/-! ## The decision at C (R172 to R177) -/

/-- The eight words of a vote record (R170). -/
def voteWords (r : VoteRec) : List Nat :=
  let v := r.step % 2 ^ 40 + fld r.package 64 + fld r.source 80 + fld r.tile 88 + fld r.tensor 96 + fld r.position 128 +
    fld r.nfCount 192
  (List.range 8).map fun i => bits v (32 * i + 31) (32 * i)

/-- R224: the dispatch ledger's records of the step. -/
def Pkg.closeDispatch (p : Pkg) (void : Bool) : Pkg :=
  (List.range 4).foldl (fun p d =>
    let u := p.unit d
    let p := u.fills.foldl (fun p (f : FillRec) =>
      p.ringRecord dispatchRing (toLe 8 (fld (b2n void) 50 + fld d 48 + fld f.table 40 + p.reg O.generatorStep % 2 ^ 40) ++
        toLe 2 f.ordinal ++ toLe 1 (b2n f.poisoned) ++ toLe 1 0 ++ f.counts.flatMap (toLe 4) ++ List.replicate 24 0)) p
    p.setUnit d { p.unit d with fills := [] }) p

/-- R174: the package will halt at the next step start. -/
def Pkg.haltSoon (p : Pkg) : Pkg :=
  (p.raise 0x3904 noUnit 0).setStepc { p.stepc with haltNext := true }

/-- R173, R174: the step whose commit sentence starts at beat c is voided. -/
def Pkg.voidStep (p : Pkg) (r : VoteRec) (c : Nat) : Pkg :=
  let p := ((p.bump O.voidCount 1).bump16 O.voidStreak 1).setReg O.lastCommitKind 3
  let p := (List.range 8).foldl (fun p j => p.setReg (O.lastVoidRecord + j) ((voteWords r).getD j 0)) p
  let p := (p.raise 0x3901 noUnit 0).setStepc { p.stepc with
    decided := true, voided := true, committing := false, discards := p.stepc.discards ++ [(p.stepc.commitSent, c, false)] }
  let p := if p.reg O.voidLimit ≠ 0 ∧ p.reg O.voidLimit ≤ p.reg O.voidStreak then p.haltSoon else p
  p.closeLedger true

/-- 1 ÷ n as binary32, rounded to nearest even (R166): the quotient to 40 more bits, its last bit sticky. -/
def recipF32 (n : Nat) : W32 :=
  let q := 2 ^ 80 / n
  toF32 .rne (.fin false (2 * q + (if 2 ^ 80 % n = 0 then 0 else 1)) (-81))

/-- R174, R176: the writes of a commit opening at beat c; one that would overflow acc_count discards its accumulator writes. -/
def Pkg.commitStep (p : Pkg) (i : Image) (c : Nat) : Pkg :=
  let agree := isAgreementStep i p.stepc.stepIndex
  let h := p.blockHdr
  let p := h.2.agentWrite ioA (stepBlock + 16) (toLe 8 (p.reg O.generatorStep))
  let up := (h.1.update + 1) % 2 ^ 64
  let full := !agree && decide (65535 ≤ h.1.acc)
  let acc := if agree then 0 else if full then h.1.acc else h.1.acc + 1
  let p := if agree then
      (p.agentWrite ioA stepBlock (toLe 8 up)).agentWrite ioA (stepBlock + 12) (toLe 4 (recipF32 (h.1.acc + 1)).toNat)
    else p
  let p := p.scaleUnit
  let p := if agree then p.steerAll h.1.nLr else p
  let p := p.agentWrite ioA (stepBlock + 8) (toLe 2 acc)
  let p := ((p.setReg O.updateCount (if agree then up else h.1.update)).setReg O.accCount acc).setReg O.lastCommitKind
    (if agree then 2 else 1)
  let p := if agree then p.setReg O.voidStreak 0 else p
  let p := p.setStepc { p.stepc with
    decided := true, committing := true
    discards := p.stepc.discards ++ (if full then [(p.stepc.commitSent, c, true)] else []) }
  if full then p.haltSoon else p

/-- R209: the outcome of the step, and its place in the system record (R338). -/
def Pkg.noteOutcome (p : Pkg) (ok : Bool) : Pkg :=
  let g := p.reg O.generatorStep
  let put (p : Pkg) (k j : Nat) : Pkg :=
    let v := p.reg k
    p.setReg k (if bitOf v j = ok then v else if ok then v + 2 ^ j else v - 2 ^ j)
  let p := if g % 128 < 64 then put p O.stepOutcome (g % 128) else put p O.stepOutcomeHigh (g % 128 - 64)
  { p with secure := { p.secure with lastOpen := g } }

/-- R175, R345: each save point that waits for this step is confirmed, or never will be. -/
def Pkg.confirmSave (p : Pkg) (ok : Bool) : Pkg :=
  let l := p.stepc.saveStep
  let p := p.setStepc { p.stepc with saveStep := [] }
  l.foldl (fun p q =>
    if ok then
      ((p.bump O.savePointsConfirmed 1).setReg O.lastConfirmedStep (p.reg O.generatorStep)).setReg O.confirmedSeq q
    else { p with secure := { p.secure with forced := some (p.reg O.domainBeat) } }.raise 0x3907 noUnit 0) p

def execStepDecision (s : State) : Host.Outcome State Fault Refusal :=
  s.on .data fun p =>
    match p.posImage with
    | none => p
    | some i =>
      match p.commitBeat i with
      | none => p
      | some c =>
        if p.reg O.imageState ≠ 4 ∨ p.stepc.decided ∨ !p.reached c then p
        else
          let p := match p.stepc.held with
            | some r => p.voidStep r c
            | none => p.commitStep i c
          let ok := p.stepc.committing
          ((((p.openWindow.closeDispatch (!ok)).noteOutcome ok).confirmSave ok).writeSysHeader)

end Sys2Proof.Machine
end

