-- ==== Sys2Proof/Machine/HostPort.lean ====
section
/-! DEFINITION. Machine/HostPort.lean: port H and port D, host-bound writes and the host-out buffer, the session, and the
command queues with their DMA commands and completion records (R309 to R332). -/
namespace Sys2Proof.Machine

def Pkg.setHost (p : Pkg) (x : HostUnit) : Pkg := { p with host := x }

/-! ## Host-bound writes (R326, R328, R329) -/

/-- Port H is detached, or its link is down: nothing can leave. -/
def Pkg.hostAway (p : Pkg) : Bool := decide (p.reg O.sessionState = 2) || !p.host.linkUp

/-- Payload bytes of a host-bound write. -/
def HostTlp.size : HostTlp → Nat
  | .write _ b _ => b.length
  | .record _ _ b _ => b.length + 4

/-- The size of the host-out buffer: 64 MiB. -/
abbrev hostOutSize : Nat := 2 ^ 26

/-- R329: a write joins the buffer, or is dropped whole once one has not fitted. -/
def Pkg.bufferTlp (p : Pkg) (t : HostTlp) : Pkg :=
  let n := p.reg O.hostoutBytes
  if p.host.overflow ∨ hostOutSize < n + t.size then
    let p := if p.host.overflow then p else
      ((p.setHost { p.host with overflow := true }).setReg O.hostoutOverflowed 1).raise 0x4608 noUnit 0
    let p := match t with
      | .record q _ _ _ => p.setQueue q { p.queue q with lost := true }
      | _ => p
    (p.bump O.hostoutDroppedWrites 1).setReg O.hostoutDroppedBytes
      (satAdd 32 (p.reg O.hostoutDroppedBytes) t.size)
  else (p.setHost { p.host with hostOut := p.host.hostOut ++ [t] }).setReg O.hostoutBytes (n + t.size)

/-- A data write to host memory: sent, or buffered. -/
def Pkg.hostWrite (p : Pkg) (addr : Nat) (b : List Byte) (poison : Bool) : Pkg :=
  if p.hostAway then p.bufferTlp (.write addr b poison) else p.emit (.hostWrite (.write addr b poison))

/-- R328: an MSI-X message, or its pending bit while port H is away. -/
def Pkg.sendMsix (p : Pkg) (v : Nat) : Pkg :=
  if v = 0xFF then p
  else if p.hostAway then p.setHost { p.host with msixPending := p.host.msixPending ||| (1#64 <<< v) }
  else p.emit (.msix v)

/-- What a buffered write sends: a record goes out as body, flush read and tag (R329). -/
def HostTlp.send (t : HostTlp) : List Out :=
  match t with
  | .write _ _ _ => [.hostWrite t]
  | .record _ a _ tag => [.hostWrite t, .flushRead a, .hostTag (a + 28) tag]

/-- The buffer goes out in order, then the pending MSI-X vectors once each (R330). -/
def Pkg.drainHost (p : Pkg) : Pkg :=
  let p := { p with out := p.out ++ p.host.hostOut.flatMap HostTlp.send }
  let p := (p.setHost { p.host with hostOut := [] }).setReg O.hostoutBytes 0
  let vs := (List.range 64).filter fun v => p.host.msixPending.getLsbD v
  let p := p.setHost { p.host with msixPending := 0 }
  { p with out := p.out ++ vs.map Out.msix }

/-! ## Queues -/

/-- An object of queue q. -/
def qKey (base q : Nat) : Nat := base + 256 * q
def Pkg.qReg (p : Pkg) (base q : Nat) : Nat := p.reg (qKey base q)

/-- queue_consumer: fixed at 1 on queue 0 (R317, R332). -/
def Pkg.consumer (p : Pkg) (q : Nat) : Nat := if q = 0 then 1 else p.qReg O.queueConsumer q

/-- R332: queue_status of queue q. -/
def Pkg.showQueue (p : Pkg) (q : Nat) : Pkg :=
  let x := p.queue q
  let v :=
    if x.disabling then 5
    else if x.lost then 4
    else if x.full then 3
    else if x.notVisible then 2
    else if x.enabled ∧ (x.fetching ∨ !x.cmds.isEmpty ∨ !x.records.isEmpty) then 1
    else 0
  p.setReg (qKey O.queueStatus q) v

/-- The body of a record: bytes 0 to 27 (R325). -/
def cplBody (q seq status result : Nat) : List Byte :=
  toLe 4 seq ++ toLe 2 q ++ toLe 2 status ++ toLe 8 result ++ List.replicate 12 0

/-- A command of queue q completes: its record waits to be written. -/
def Pkg.complete (p : Pkg) (q seq status result : Nat) : Pkg :=
  let x := p.queue q
  if !x.enabled ∧ !x.disabling then p
  else (p.setQueue q { x with records := x.records ++ [⟨seq, status, result, cplBody q seq status result⟩] }).showQueue q

/-- Rejected descriptors that have come to the head complete with status 1 (R320). -/
def Pkg.dropRejected : Nat → Nat → Pkg → Pkg
  | 0, _, p => p
  | n + 1, q, p =>
    let x := p.queue q
    match x.cmds with
    | [] => p
    | d :: rest =>
      if d.ok then p
      else Pkg.dropRejected n q ((p.setQueue q { x with cmds := rest }).complete q d.seq 1 0)

def Pkg.skipRejected (p : Pkg) (q : Nat) : Pkg := (Pkg.dropRejected ((p.queue q).cmds.length + 1) q p).showQueue q

/-- The first command of a queue ends. -/
def Pkg.endCommand (p : Pkg) (q status result : Nat) : Pkg :=
  let x := p.queue q
  match x.cmds with
  | [] => p
  | d :: rest =>
    ((p.setQueue q { x with cmds := rest, moved := 0, status := 0 }).complete q d.seq status result).skipRejected q

/-- The completion ring of queue q has no room (R327). -/
def Pkg.ringFull (p : Pkg) (q : Nat) : Bool :=
  decide ((p.qReg O.cqTail q + 1) % p.qReg O.cqEntries q = p.qReg O.cqHead q)

/-- The claimant of a path on the doorbell page (R317): port H 1, cores 2. -/
def doorClaimant : Path → Nat
  | .hostBar => 1
  | .core => 2
  | .canFd => 0

/-! ## Configuration, enable and disable (R317 to R319) -/

/-- R318, R319: a queue's configuration objects are written only while it is disabled. -/
def Pkg.queueObject (p : Pkg) (pt : Path) (q key v : Nat) : Pkg :=
  p.objWrite pt key v fun p =>
    let x := p.queue q
    if x.enabled ∨ x.disabling then p.refuse pt key abState else p.setReg key v

/-- R317, R332, R397: the owner of a queue; that of queue 0 is fixed at 0. -/
def Pkg.queueOwnerWrite (p : Pkg) (pt : Path) (q v : Nat) : Pkg :=
  let k := qKey O.queueOwner q
  p.objWrite pt k v fun p =>
    let x := p.queue q
    if q = 0 ∧ v ≠ 0 then p.refuse pt k abRange
    else if x.enabled ∨ x.disabling then p.refuse pt k abState
    else
      match claimOf (p.reg k) v with
      | .refuse => p.refuse pt k abOwner
      | .keep => p
      | _ => p.setReg k v

def execQueueOwnerWrite (pt : Path) (q : QueueNo) (v : Nat) (s : State) : Host.Outcome State Fault Refusal :=
  s.on (pathPlane pt) fun p => p.queueOwnerWrite pt q.val v

/-- R317, R332: queue_consumer is 0 or 2, and fixed at 1 on queue 0. -/
def Pkg.queueConsumerWrite (p : Pkg) (pt : Path) (q v : Nat) : Pkg :=
  let k := qKey O.queueConsumer q
  if (if q = 0 then decide (v ≠ 1) else decide (v ≠ 0 ∧ v ≠ 2)) then p.refuse pt k abRange
  else if q = 0 then p
  else p.queueObject pt q k v

/-- R318: the configuration allows queue q to be enabled. -/
def Pkg.queueReady (p : Pkg) (q : Nat) : Bool :=
  let sq := p.qReg O.sqEntries q
  let cq := p.qReg O.cqEntries q
  decide (2 ≤ sq ∧ sq ≤ 4096 ∧ 2 ≤ cq ∧ cq ≤ 4096 ∧ p.qReg O.sqOffset q + 64 * sq ≤ 2 ^ 32 ∧
    p.qReg O.cqAddr q % 32 = 0 ∧ (q = 0 ∨ p.qReg O.queueOwner q ≠ 0))

/-- R318: queue q is enabled. -/
def Pkg.queueEnable (p : Pkg) (pt : Path) (q : Nat) : Pkg :=
  let x := p.queue q
  let k := qKey O.queueEnable q
  if x.disabling then p.refuse pt k abState
  else if x.enabled then p
  else if !p.queueReady q then p.refuse pt k abState
  else
    (((((p.setQueue q { QueueSt.reset with enabled := true, phase := true }).setReg k 1).setReg (qKey O.sqHead q) 0).setReg
      (qKey O.sqChecked q) 0).setReg (qKey O.cqTail q) 0).showQueue q

def execQueueEnable (pt : Path) (q : QueueNo) (s : State) : Host.Outcome State Fault Refusal :=
  s.on (pathPlane pt) fun p => p.queueEnable pt q.val

/-- R319: an enabled queue begins to be disabled; what it has not started completes with status 6. -/
def Pkg.beginDisable (p : Pkg) (q : Nat) : Pkg :=
  let x := p.queue q
  if !x.enabled then p
  else
    let p := (p.setQueue q { x with
      enabled := false, disabling := true, fetching := false, rereads := 0, notVisible := false }).setReg
        (qKey O.queueEnable q) 0
    let p :=
      if q = 0 then
        let l := p.loader.reqs
        l.foldl (fun p (r : LoadReq) => p.complete 0 r.seq 6 0) { p with loader := { p.loader with reqs := [] } }
      else if p.consumer q = 2 then
        let y := p.queue q
        (p.setQueue q { y with records := [], lost := y.lost || !y.records.isEmpty }).emit (.runtimeIrq q)
      else
        let y := p.queue q
        (y.cmds.foldl (fun (acc : Pkg × Nat) d => (acc.1.complete q d.seq (if d.ok then 6 else 1) acc.2, 0))
          (p.setQueue q { y with cmds := [], moved := 0, status := 0 }, y.moved)).1
    p.showQueue q

/-- R319: a write of 0: while the queue is being disabled it is refused, on a disabled queue it does nothing. -/
def Pkg.queueDisable (p : Pkg) (pt : Path) (q : Nat) : Pkg :=
  if (p.queue q).disabling then p.refuse pt (qKey O.queueEnable q) abState else p.beginDisable q

def execQueueDisable (pt : Path) (q : QueueNo) (s : State) : Host.Outcome State Fault Refusal :=
  s.on (pathPlane pt) fun p => p.queueDisable pt q.val

/-- A request of queue 0 that the schedule loader has accepted and not completed (R319). -/
def Pkg.loaderBusy (p : Pkg) : Bool :=
  match p.loader.loading with
  | some x => decide (x.req.claimant ≠ 3)
  | none => p.sched.startRun.isSome

/-- R319: every record is written or discarded. -/
def execQueueDisableComplete (q : QueueNo) (s : State) : Host.Outcome State Fault Refusal :=
  s.on .control fun p =>
    let x := p.queue q.val
    if x.disabling ∧ x.records.isEmpty ∧ p.host.flushes.all (fun f => decide (f.1 ≠ q.val)) ∧
        (q.val ≠ 0 ∨ !p.loaderBusy) then
      (p.setQueue q.val { x with disabling := false }).showQueue q.val
    else p

/-! ## Doorbells and the fetch unit (R320 to R322) -/

def Pkg.sqDoorbell (p : Pkg) (pt : Path) (q v : Nat) : Pkg :=
  let x := p.queue q
  if 2 ^ 16 ≤ v ∨ p.qReg O.sqEntries q ≤ v ∨ !x.enabled ∨
      (if q = 0 then decide (doorClaimant pt = 0) else decide (doorClaimant pt ≠ p.qReg O.queueOwner q)) then
    p.raise 0x4604 q 0
  else if v = x.tail ∧ !x.notVisible then p
  else
    (p.setQueue q { x with
      tail := v, fetching := true, rereads := 0, notVisible := false, doorClaim := doorClaimant pt }).showQueue q

def execSqDoorbell (pt : Path) (q : QueueNo) (v : Nat) (s : State) : Host.Outcome State Fault Refusal :=
  s.on (pathPlane pt) fun p => p.sqDoorbell pt q.val v

/-- The package range [a, a + n) of a DMA command lies in HBM3E or in LPDDR5X, the host range below 2^64 (R320). -/
def dmaRanges (op src dst n : Nat) : Bool :=
  let pk := if op = 1 then src else dst
  let h := if op = 1 then dst else src
  inMem pk n && decide (h + n ≤ 2 ^ 64)

/-- R320: a descriptor of a DMA queue. -/
def dmaDesc (b : List Byte) : Desc :=
  let n (o k : Nat) : Nat := leNat ((b.drop o).take k)
  let op := n 4 4
  let len := n 24 8
  ⟨n 0 4, op, n 8 8, n 16 8, len, decide (op ≤ 2 ∧ len ≠ 2 ^ 64 - 1) && ((b.drop 32).take 28).all (fun x => decide (x = 0)) &&
    (decide (op = 0 ∨ len = 0) || dmaRanges op (n 8 8) (n 16 8) len)⟩

/-- The operation of a schedule-load request (R155). -/
def loadOp : Nat → Option LoadOp
  | 1 => some .load
  | 2 => some .unload
  | 3 => some .start
  | 4 => some .halt
  | _ => none

/-- R154, R155: a request reaches the schedule loader; one that it refuses completes with status 5 (R158). -/
def Pkg.loadRequest (p : Pkg) (b : List Byte) (claimant : Nat) : Pkg :=
  let n (o k : Nat) : Nat := leNat ((b.drop o).take k)
  if ((b.drop 26).take 34).any fun x => decide (x ≠ 0) then (p.raise 0x4606 0 0).complete 0 (n 0 4) 1 0
  else
    let ow := p.reg O.loaderOwner
    match loadOp (n 4 4) with
    | none => (p.raise 0x380C noUnit 0).complete 0 (n 0 4) 5 0
    | some op =>
      if ow ≠ 0 ∧ ow ≠ claimant then (p.raise 0x380C noUnit 0).complete 0 (n 0 4) 5 0
      else { p with loader := { p.loader with
          reqs := p.loader.reqs ++ [⟨n 0 4, op, claimant, n 8 8, n 16 8, n 24 2⟩] } }

/-- R322: a descriptor passes to its consumer. -/
def Pkg.acceptDesc (p : Pkg) (q : Nat) (b : List Byte) : Pkg :=
  let x := p.queue q
  let n := p.qReg O.sqEntries q
  let h := (p.qReg O.sqHead q + 1) % n
  let p := (p.setReg (qKey O.expectedSeq q) ((p.qReg O.expectedSeq q + 1) % 2 ^ 32)).setReg (qKey O.sqHead q) h
  let p := p.setQueue q { x with rereads := 0, fetching := decide (h ≠ x.tail) }
  if q = 0 then p.loadRequest b x.doorClaim
  else if p.consumer q = 2 then (p.setReg (qKey O.sqChecked q) h).emit (.runtimeIrq q)
  else
    let d := dmaDesc b
    let y := p.queue q
    let p := p.setQueue q { y with cmds := y.cmds ++ [d] }
    (if d.ok then p else p.raise 0x4606 q 0).skipRejected q

/-- R322: the descriptor at sq_head is read and checked; one that fails will be read again, up to eight times. -/
def Pkg.readDesc (p : Pkg) (q : Nat) : Pkg :=
  let x := p.queue q
  match p.agentBytes portH (p.reg O.cmdWindowBase + p.qReg O.sqOffset q + 64 * p.qReg O.sqHead q) 64 with
  | (r, p) =>
    let b := r.getD []
    if r.isSome ∧ crc32c (b.take 60) = leNat (b.drop 60) ∧ leNat (b.take 4) = p.qReg O.expectedSeq q then p.acceptDesc q b
    else if x.rereads < 8 then p.setQueue q { x with rereads := x.rereads + 1 }
    else ((p.setQueue q { x with rereads := 0, fetching := false, notVisible := true }).bump O.descNotVisible 1).raise
      0x4605 q 0

/-- The fetch unit may read a descriptor of queue q: a doorbell asks for it and no full ring holds the queue. -/
def Pkg.mayFetch (p : Pkg) (q : Nat) : Bool :=
  let x := p.queue q
  x.enabled && x.fetching && !x.full && decide (p.qReg O.sqHead q ≠ x.tail)

def execDescriptorFetch (q : QueueNo) (s : State) : Host.Outcome State Fault Refusal :=
  s.on .control fun p => if p.mayFetch q.val ∧ (p.queue q.val).rereads = 0 then (p.readDesc q.val).showQueue q.val else p

def execDescriptorReread (q : QueueNo) (s : State) : Host.Outcome State Fault Refusal :=
  s.on .control fun p => if p.mayFetch q.val ∧ (p.queue q.val).rereads ≠ 0 then (p.readDesc q.val).showQueue q.val else p

/-! ## Configuration space (R309, R310) -/

/-- The values of R309 that a port's configuration space shows: Vendor ID, Device ID, class code. -/
structure PciIds where
  vendor : Nat
  device : Nat
  classCode : Nat
  deriving DecidableEq, Repr

def pciIds : HostPort → PciIds
  | .h => ⟨0x1D7A, 0x54A1, 0x120000⟩
  | .d => ⟨0x1D7A, 0x54A2, 0x120000⟩

/-- A BAR of R310: its number, log2 of its size, whether it is prefetchable. -/
structure PciBar where
  number : Nat
  log2Size : Nat
  prefetchable : Bool
  deriving DecidableEq, Repr

def pciBars : HostPort → List PciBar
  | .h => [⟨0, 26, false⟩, ⟨2, 32, true⟩]
  | .d => [⟨0, 16, false⟩, ⟨2, 16, false⟩, ⟨4, 38, true⟩]

/-- The function of a port. -/
def HostUnit.pci (x : HostUnit) : HostPort → PciFn
  | .h => x.pciH
  | .d => x.pciD

def Pkg.setPci (p : Pkg) (pt : HostPort) (f : PciFn) : Pkg :=
  match pt with
  | .h => p.setHost { p.host with pciH := f }
  | .d => p.setHost { p.host with pciD := f }

/-- R309: AER logs a poisoned TLP that a port has received. -/
def Pkg.logPoisoned (p : Pkg) (pt : HostPort) : Pkg := p.setPci pt { p.host.pci pt with poisonedTlp := true }

/-- R328, R331: a port's logic is reset: its configuration space, BARs and, on port H, the MSI-X table. -/
def Pkg.resetPci (p : Pkg) (pt : HostPort) : Pkg :=
  let p := p.setPci pt PciFn.reset
  match pt with
  | .h => p.setHost { p.host with msixTable := [], msixPending := 0 }
  | .d => p

/-! ## DMA commands (R323) -/

/-- The head of a DMA queue that may run, of the named op. -/
def Pkg.headCommand (p : Pkg) (q op : Nat) : Option Desc :=
  let x := p.queue q
  if q = 0 ∨ x.full ∨ p.consumer q = 2 then none
  else
    match x.cmds with
    | d :: _ => if d.op = op then some d else none
    | [] => none

def execDmaNop (q : QueueNo) (s : State) : Host.Outcome State Fault Refusal :=
  s.on .control fun p => if (p.headCommand q.val 0).isSome then p.endCommand q.val 0 0 else p

/-- The 64-byte lines that [a, a + n) meets: (address, length) of each part. -/
def lineParts (a n : Nat) : List (Nat × Nat) :=
  (List.range (if n = 0 then 0 else (a + n - 1) / 64 + 1 - a / 64)).map fun i =>
    let lo := max a ((a / 64 + i) * 64)
    (lo, min (a + n) ((a / 64 + i) * 64 + 64) - lo)

/-- The bytes of words from an offset in the first, poison as zeros. -/
def partBytesOf (ws : List (Option W128)) (off n : Nat) : List Byte :=
  ((ws.flatMap fun w => toLe 16 (w.getD 0).toNat).drop off).take n

/-- One piece of at most 4,096 bytes goes to the host, line by line. -/
def Pkg.pieceOut (p : Pkg) (src dst n : Nat) : Pkg × Bool :=
  (lineParts src n).foldl (fun (acc : Pkg × Bool) e =>
    let r := acc.1.agentRead portH e.1 e.2
    let bad := r.1.any (·.isNone)
    (r.2.hostWrite (dst + (e.1 - src)) (partBytesOf r.1 (e.1 % 16) e.2) bad, acc.2 || bad)) (p, false)

/-- A command has moved n more bytes; at its length it ends. -/
def Pkg.moveOn (p : Pkg) (q : Nat) (d : Desc) (n status : Nat) : Pkg :=
  let x := p.queue q
  let st := if status = 0 then x.status else status
  if d.length ≤ x.moved + n then p.endCommand q st d.length
  else p.setQueue q { x with moved := x.moved + n, status := st }

/-- Whether a queue's next command is a copy that the engine may move a piece of. -/
def Pkg.copyReady (p : Pkg) (q : Nat) : Bool := (p.headCommand q 1).isSome || (p.headCommand q 2).isSome

/-- R323: the rotation: no queue between the one that moved last and q has a piece to move. -/
def Pkg.dmaTurn (p : Pkg) (q : Nat) : Bool :=
  let gap := (q + 63 - p.host.lastDma) % 64
  (List.range gap).all fun i => !p.copyReady ((p.host.lastDma + 1 + i) % 64)

/-- The turn passes to the queues after q. -/
def Pkg.tookTurn (p : Pkg) (q : Nat) : Pkg := p.setHost { p.host with lastDma := q }

def execCopyToHost (q : QueueNo) (s : State) : Host.Outcome State Fault Refusal :=
  s.on .control fun p =>
    match p.headCommand q.val 1 with
    | none => p
    | some d =>
      if !p.dmaTurn q.val then p
      else
        let m := (p.queue q.val).moved
        let n := min 4096 (d.length - m)
        let r := p.pieceOut (d.src + m) (d.dst + m) n
        (r.1.moveOn q.val d n (if r.2 then 3 else 0)).tookTurn q.val

/-- R323: poison over every word that [a, a + n) meets. -/
def Pkg.poisonRange (p : Pkg) (a n : Nat) : Pkg :=
  if n = 0 then p
  else p.agentWriteWords portH (a / 16 * 16) (List.replicate ((a + n - 1) / 16 + 1 - a / 16) none)

/-- R309, R323: a piece whose completion failed is poison; the command's event is raised once, and a poisoned TLP is logged. -/
def Pkg.badPiece (p : Pkg) (q : Nat) (cpl : HostCpl) (a n : Nat) : Pkg :=
  let p := p.poisonRange a n
  let p := if (p.queue q).status = 4 then p else p.raise 0x460E q 0
  if cpl.status = 3 then p.logPoisoned .h else p

def execCopyFromHost (q : QueueNo) (cpl : HostCpl) (s : State) : Host.Outcome State Fault Refusal :=
  s.on .control fun p =>
    match p.headCommand q.val 2 with
    | none => p
    | some d =>
      if !p.dmaTurn q.val then p
      else
        let m := (p.queue q.val).moved
        let n := min 4096 (d.length - m)
        let p := p.tookTurn q.val
        if n = 0 then p.endCommand q.val 0 0
        else if p.hostAway then p.endCommand q.val 2 m
        else if cpl.status = 0 then (p.agentWrite portH (d.dst + m) (cpl.bytes.take n)).moveOn q.val d n 0
        else (p.badPiece q.val cpl (d.dst + m) n).moveOn q.val d n 4

/-! ## Completion records (R324 to R327) -/

/-- R324: bytes that the runtime writes into a queue's post area: those of the record, 0 to 27, are kept; a 1 in byte 60 posts them. -/
def Pkg.postWrite (p : Pkg) (q off : Nat) (b : List Byte) (f : Pkg → Pkg) : Option Pkg :=
  let x := p.queue q
  if off + b.length ≤ 28 then
    some (p.setQueue q { x with post := (List.range 28).map fun i =>
      if off ≤ i ∧ i < off + b.length then b.getD (i - off) 0 else x.post.getD i 0 })
  else if off = 60 ∧ leNat b = 1 then some (f p)
  else none

/-- R324: the runtime posts a record on a runtime queue; on any other the post is dropped. -/
def Pkg.completionPost (p : Pkg) (q : Nat) (b : List Byte) : Pkg :=
  let x := p.queue q
  if p.consumer q ≠ 2 ∨ !x.enabled then p
  else
    let body := (b ++ List.replicate 28 0).take 28
    (p.setQueue q { x with records := x.records ++
      [(⟨leNat (body.take 4), leNat ((body.drop 6).take 2), leNat ((body.drop 8).take 8), body⟩ : CplRec)] }).showQueue q

def execCompletionPost (q : QueueNo) (bytes : List Byte) (s : State) : Host.Outcome State Fault Refusal :=
  s.on .control fun p => p.completionPost q.val bytes

/-- R325, R326: one record takes its place in the ring: a body in host memory that waits for its flush read, a body in
package memory with its tag at once (R326), or a unit of the host-out buffer (R329). -/
def Pkg.placeRecord (p : Pkg) (q : Nat) (r : CplRec) (rest : List CplRec) : Pkg × Option Unflushed :=
  let x := p.queue q
  let n := p.qReg O.cqEntries q
  let t := p.qReg O.cqTail q
  let addr := p.qReg O.cqAddr q + 32 * t
  let tag := fld (b2n x.phase) 31 + r.seq % 2 ^ 31
  let wrap := decide (t + 1 = n)
  let p := (p.setQueue q { x with records := rest, phase := if wrap then !x.phase else x.phase }).setReg (qKey O.cqTail q)
    (if wrap then 0 else t + 1)
  if p.consumer q = 2 then
    (((p.agentWrite portH addr r.body).agentWrite portH (addr + 28) (toLe 4 tag)).sendMsix (p.qReg O.msixVector q), none)
  else if p.hostAway then ((p.bufferTlp (.record q addr r.body tag)).sendMsix (p.qReg O.msixVector q), none)
  else (p.emit (.hostWrite (.record q addr r.body tag)), some ⟨addr, r.body, tag⟩)

/-- R326, R327: the records of a queue are written while their ring has room; while the queue is being disabled, those
without room are discarded (R319). -/
def Pkg.writeRecords : Nat → Nat → Pkg → List Unflushed → Pkg × List Unflushed
  | 0, _, p, acc => (p, acc)
  | n + 1, q, p, acc =>
    let x := p.queue q
    match x.records with
    | [] => (p, acc)
    | r :: rest =>
      if p.ringFull q then
        if x.disabling then (p.setQueue q { x with records := [], lost := true }, acc)
        else if x.full then (p, acc)
        else ((p.setQueue q { x with full := true }).raise 0x4607 q 0, acc)
      else
        let w := p.placeRecord q r rest
        Pkg.writeRecords n q w.1 (acc ++ w.2.toList)

def execCompletionRecordWrite (q : QueueNo) (s : State) : Host.Outcome State Fault Refusal :=
  s.on .control fun p =>
    let r := Pkg.writeRecords ((p.queue q.val).records.length + 1) q.val p []
    let p := match r.2.getLast? with
      | none => r.1
      | some u =>
        let p := r.1.setHost { r.1.host with flushes := r.1.host.flushes ++ [(q.val, r.2)] }
        p.emit (.flushRead u.addr)
    p.showQueue q.val

/-- R326: a flush read returns: the tags of the records it covers, then the queue's MSI-X message. -/
def execFlushReadComplete (s : State) : Host.Outcome State Fault Refusal :=
  s.on .control fun p =>
    match p.host.flushes with
    | [] => p
    | (q, l) :: rest =>
      let p := p.setHost { p.host with flushes := rest }
      let p := l.foldl (fun p (u : Unflushed) => p.emit (.hostTag (u.addr + 28) u.tag)) p
      p.sendMsix (p.qReg O.msixVector q)

/-- R327, R332: the consumer of the records frees room. -/
def Pkg.cqHeadWrite (p : Pkg) (pt : Path) (q v : Nat) : Pkg :=
  let k := qKey O.cqHead q
  if p.qReg O.cqEntries q ≤ v then p.refuse pt k abRange
  else
    let p := p.setReg k v
    let x := p.queue q
    (p.setQueue q { x with full := x.full && p.ringFull q }).showQueue q

def execCompletionRingRoom (pt : Path) (q : QueueNo) (v : Nat) (s : State) : Host.Outcome State Fault Refusal :=
  s.on (pathPlane pt) fun p => p.cqHeadWrite pt q.val v

/-! ## The link and the session (R328 to R331) -/

/-- Host-bound writes sent, oldest first. -/
def sentTlp : Out → Option HostTlp
  | .hostWrite (.write a b x) => some (.write a b x)
  | .hostTag a t => some (.write a (toLe 4 t) false)
  | _ => none

/-- R328, R329: port H detaches: the last `unacked` writes go back to the head of the buffer, records whose tag had not been
sent after them. -/
def Pkg.detach (p : Pkg) (unacked : Nat) : Pkg :=
  if p.reg O.sessionState = 2 then p
  else
    let sent := p.out.filterMap sentTlp
    let p := ((p.setReg O.sessionState 2).setHost { p.host with detachedAt := p.mtime }).raise 0x460A noUnit 0
    let p := (sent.drop (sent.length - unacked)).foldl Pkg.bufferTlp p
    let l := p.host.flushes
    let p := p.setHost { p.host with flushes := [] }
    l.foldl (fun p e =>
      ((e.2.foldl (fun p (u : Unflushed) => p.bufferTlp (.record e.1 u.addr u.body u.tag)) p).sendMsix
        (p.qReg O.msixVector e.1)).showQueue e.1) p

/-- R328: what the cause does to port H, and the detach. PERST and a lost link have commands of their own, for the link's state. -/
def Pkg.detachFor (p : Pkg) (c : DetachCause) (unacked : Nat) : Pkg :=
  let p := p.detach unacked
  match c with
  | .functionReset => p.resetPci .h
  | .busMasterClear => p.setPci .h { p.host.pciH with busMaster := false }
  | .linkDown => p
  | .perst => p
  | .powerState => p

def execPortHDetach (x : Detach) (s : State) : Host.Outcome State Fault Refusal :=
  s.on .control fun p => p.detachFor x.cause x.unacked

def portNo : HostPort → Nat
  | .h => 0
  | .d => 1

/-- R309: a link comes up; below 64 GT/s or x16 with event 0x4603. Without a held session, what waits is sent. A link whose
pads are held stays down (R371). -/
def Pkg.linkUp (p : Pkg) (i rate width : Nat) : Pkg :=
  if bitOf (p.reg O.padHeld) 2 then p
  else
    let p := (((p.setReg (O.pcieLinkState + i) 2).setReg (O.pcieLinkRate + i) rate).setReg (O.pcieLinkWidth + i) width).raise
      0x4602 i 0
    let p := if rate < 6 ∨ width < 16 then p.raise 0x4603 i 0 else p
    if i = 0 then
      let p := p.setHost { p.host with linkUp := true }
      if p.reg O.sessionState = 2 then p else p.drainHost
    else p

def execPcieLinkUp (pt : HostPort) (rate width : Nat) (s : State) : Host.Outcome State Fault Refusal :=
  s.go fun p => if p.reg O.psCurrent ≤ 2 then p.linkUp (portNo pt) rate width else p

/-- A link's data link goes down, to the named state. -/
def Pkg.linkDown (p : Pkg) (i st unacked : Nat) : Pkg :=
  let was := p.reg (O.pcieLinkState + i)
  let p := ((p.setReg (O.pcieLinkState + i) st).setReg (O.pcieLinkRate + i) 0).setReg (O.pcieLinkWidth + i) 0
  let p := if was = 2 then (p.bump (O.pcieLinkDowns + i) 1).raise 0x4601 i 0 else p
  if i = 0 then
    let p := if was = 2 then p.detach unacked else p
    p.setHost { p.host with linkUp := false }
  else p

def execPcieLinkDown (pt : HostPort) (unacked : Nat) (s : State) : Host.Outcome State Fault Refusal :=
  s.go fun p => p.linkDown (portNo pt) 0 unacked

/-- R331. -/
def execPerst (pt : HostPort) (unacked : Nat) (s : State) : Host.Outcome State Fault Refusal :=
  s.go fun p =>
    let p := p.linkDown (portNo pt) 3 unacked
    match pt with
    | .h => (p.detach unacked).resetPci .h
    | .d => p.resetPci .d

/-- A refusal of R330. -/
def Pkg.sessionRefused (p : Pkg) (pt : Path) : Pkg := (p.refuse pt O.sessionAttach abState).raise 0x460D noUnit 0

/-- R330, R431: a new session with the token that the random source gives. -/
def Pkg.sessionAttach (p : Pkg) (pt : Path) (token : W64) : Pkg :=
  if p.reg O.sessionState ≠ 0 then p.sessionRefused pt
  else if p.reg O.rngState ≠ 0 then p.refuse pt O.sessionAttach abState
  else
    ((p.setReg O.sessionState 1).setReg O.sessionId ((p.reg O.sessionId + 1) % 2 ^ 32)).setHost
      { p.host with token := token.toNat, tokenRead := false, tokenHighRead := false }

def execSessionAttach (pt : Path) (token : W64) (s : State) : Host.Outcome State Fault Refusal :=
  s.on (pathPlane pt) fun p => p.sessionAttach pt token

/-- The overflow of the buffer is over. -/
def Pkg.clearOverflow (p : Pkg) : Pkg := (p.setHost { p.host with overflow := false }).setReg O.hostoutOverflowed 0

/-- R330: a resume with a matching token. -/
def Pkg.sessionResume (p : Pkg) (pt : Path) (drain : Bool) : Pkg :=
  if p.reg O.sessionState ≠ 2 ∨ p.reg O.sessionToken ≠ p.host.token then p.sessionRefused pt
  else
    let p := (p.setReg O.sessionState 1).clearOverflow
    let p :=
      if drain then (if p.hostAway then p else p.drainHost)
      else (p.setHost { p.host with hostOut := [] }).setReg O.hostoutBytes 0
    p.raise 0x460B noUnit 0

def execSessionResumeDrain (pt : Path) (s : State) : Host.Outcome State Fault Refusal :=
  s.on (pathPlane pt) fun p => p.sessionResume pt true
def execSessionResumeDiscard (pt : Path) (s : State) : Host.Outcome State Fault Refusal :=
  s.on (pathPlane pt) fun p => p.sessionResume pt false

/-- The session ends and the buffer is discarded. -/
def Pkg.endSession (p : Pkg) : Pkg :=
  let p := p.clearOverflow
  ((p.setHost { p.host with hostOut := [], token := 0, tokenRead := true, tokenHighRead := true }).setReg O.hostoutBytes 0).setReg O.sessionState 0

/-- R330: over CAN FD a release needs no token. -/
def Pkg.sessionRelease (p : Pkg) (pt : Path) : Pkg :=
  if p.reg O.sessionState = 0 then p
  else if pt ≠ .canFd ∧ p.reg O.sessionToken ≠ p.host.token then p.sessionRefused pt
  else p.endSession

def execSessionRelease (pt : Path) (s : State) : Host.Outcome State Fault Refusal := s.on (pathPlane pt) fun p => p.sessionRelease pt

/-- R330: a session detached for session_hold_s ends. -/
def execSessionExpiry (s : State) : Host.Outcome State Fault Refusal :=
  s.on .control fun p =>
    if p.reg O.sessionState ≠ 2 ∨ p.mtime < p.host.detachedAt + p.reg O.sessionHoldS * 100000000 then p
    else
      let p := p.endSession
      let p := (List.range 64).foldl (fun p q => if p.qReg O.queueOwner q = 1 then p.beginDisable q else p) p
      let p := if p.reg O.loaderOwner = 1 then p.setReg O.loaderOwner 0 else p
      p.raise 0x460C noUnit 0

/-- R330: the first read over port H BAR0 of the token's low half returns it. -/
def Pkg.tokenLow (p : Pkg) (pt : Path) : Nat × Pkg :=
  if pt = .hostBar ∧ p.reg O.sessionState ≠ 0 ∧ !p.host.tokenRead then
    (p.host.token % 2 ^ 32, p.setHost { p.host with tokenRead := true })
  else (0, p)

/-- The same of its high half, which a read of the low half leaves unread (R8). -/
def Pkg.tokenHigh (p : Pkg) (pt : Path) : Nat × Pkg :=
  if pt = .hostBar ∧ p.reg O.sessionState ≠ 0 ∧ !p.host.tokenHighRead then
    (p.host.token / 2 ^ 32, p.setHost { p.host with tokenHighRead := true })
  else (0, p)

/-- R330: the first read over port H BAR0 returns the token. -/
def Pkg.tokenRead (p : Pkg) (pt : Path) : Nat × Pkg :=
  let a := p.tokenLow pt
  let b := a.2.tokenHigh pt
  (a.1 + b.1 * 2 ^ 32, b.2)

def execSessionTokenRead (pt : Path) (s : State) : Host.Outcome State Fault Refusal :=
  s.on (pathPlane pt) fun p => (p.tokenRead pt).2.emit (.value (p.tokenRead pt).1)

/-! ## The windows and the notification page (R312 to R316) -/

/-- R249, R309: a write of a TLP's bytes by requester r; one with EP = 1 leaves poison in every word that it meets. -/
def Pkg.tlpWrite (p : Pkg) (pt : HostPort) (r a : Nat) (b : List Byte) (ep : Bool) : Pkg :=
  if ep then
    if b.isEmpty then p
    else (p.agentWriteWords r (a / 16 * 16) (List.replicate ((a + b.length - 1) / 16 + 1 - a / 16) none)).logPoisoned pt
  else p.agentWrite r a b

/-- R312, R316: writes through port H BAR2 are committed in arrival order. -/
def execCommandWindowWrite (offset : Nat) (x : TlpData) (s : State) : Host.Outcome State Fault Refusal :=
  s.on .control fun p =>
    if offset + x.bytes.length ≤ 2 ^ 32 then p.tlpWrite .h portH (p.reg O.cmdWindowBase + offset) x.bytes x.ep else p

/-- R310, R312: what a host read of port H BAR2 returns. -/
def Pkg.commandWindowRead (p : Pkg) (offset len : Nat) : List (Option W128) × Pkg :=
  p.agentRead portH (p.reg O.cmdWindowBase + offset) len

/-- R312, R316: a write through port D BAR4. -/
def execIngestWrite (offset : Nat) (x : TlpData) (s : State) : Host.Outcome State Fault Refusal :=
  s.on .control fun p =>
    if 2 ^ 38 < offset + x.bytes.length then p
    else if p.reg O.ingestEnable = 0 then
      let p := p.bump O.ingestWritesDropped 1
      if p.host.ingestDropSeen then p else (p.setHost { p.host with ingestDropSeen := true }).raise 0x460F noUnit 0
    else (p.tlpWrite .d portD (p.reg O.ingestWindowBase + offset) x.bytes x.ep).bump64 O.ingestBytes x.bytes.length

/-- R314. -/
def execIngestRead (offset len : Nat) (s : State) : Host.Outcome State Fault Refusal :=
  s.on .control fun p =>
    if 64 < len ∨ 2 ^ 38 < offset + len then
      ((p.bump O.ingestRejectedReads 1).raise 0x4609 noUnit offset).emit .unsupported
    else
      let r := p.agentRead portD (p.reg O.ingestWindowBase + offset) len
      r.2.emit (.readData r.1)

/-- R311: what a read of port D BAR0 returns at an offset: the words of the objects 0x4603 and 0x4604 in table order. -/
def Pkg.statusWord (p : Pkg) (offset : Nat) : Nat :=
  let wide (k : Nat) : List Nat := [p.reg k % 2 ^ 32, p.reg k / 2 ^ 32]
  if offset % 4 ≠ 0 then 0
  else
    (wide O.cmdWindowBase ++ wide O.ingestWindowBase ++ [p.reg O.ingestEnable] ++ wide O.ingestBytes ++
      [p.reg O.ingestRejectedReads, p.reg O.ingestWritesDropped, p.reg O.notifications]).getD (offset / 4) 0

/-- The source number of the notification interrupt among the platform interrupts of the runtime. -/
abbrev notifySource : Nat := 64

/-- R315. -/
def execNotificationWrite (w : Nat) (s : State) : Host.Outcome State Fault Refusal :=
  s.on .control fun p =>
    if 1023 < w then p
    else
      ((p.setHost { p.host with notify := p.host.notify.put false w true }).bump O.notifications 1).emit
        (.runtimeIrq notifySource)

end Sys2Proof.Machine
end

