-- ==== Sys2Proof/Machine/ImageParse.lean ====
section
/-! DEFINITION. Machine/ImageParse.lean: the Syntax image as bytes: header, part table, step program, tile section, route,
agreement, dispatch, staging, remap and securing parts (R150 to R153, R159, R207, R225, R227, R301, R334, R335). A part
that breaks its layout parses to none. -/
namespace Sys2Proof.Machine

/-- k bytes at offset o, as a number. -/
def fieldAt (b : List Byte) (o k : Nat) : Nat := leNat ((b.drop o).take k)
/-- k bytes at offset o. -/
def bytesAt (b : List Byte) (o k : Nat) : List Byte := (b.drop o).take k
/-- k bytes at offset o are 0. -/
def zeroAt (b : List Byte) (o k : Nat) : Bool := (bytesAt b o k).all fun x => decide (x = 0)

/-- n records of k bytes from offset o. -/
def recordsAt (b : List Byte) (o k n : Nat) : List (List Byte) := (List.range n).map fun i => bytesAt b (o + k * i) k

/-- All of a list, where each is there. -/
def allSome {α : Type} (l : List (Option α)) : Option (List α) :=
  l.foldr (fun x acc => match x, acc with
    | some a, some r => some (a :: r)
    | _, _ => none) (some [])

/-- A store of the entries of a list that are not the default. -/
def denseMap {α : Type} [DecidableEq α] (d : α) (l : List α) : SMap α :=
  ((List.range l.length).zip l).filter fun e => decide (e.2 ≠ d)

/-! ## The header and the part table (R150, R151) -/

/-- The header's fields that the package uses (R150). -/
structure ImgHdr where
  len : Nat
  product : Nat
  revision : Nat
  seed : Nat
  imageId : Nat
  security : Nat
  nVariants : Nat
  aclkDiv : Nat
  cycleLen : Nat
  steps : Nat
  horizon : Nat
  quantum : Nat
  waitSlack : Nat
  holdLimit : Nat
  variants : List Nat
  nParts : Nat
  partOff : Nat
  partDigest : List Byte
  sigLen : Nat
  sig : List Byte
  reserved : Bool
  deriving DecidableEq, Repr

/-- R150. `reserved` holds where every reserved byte is 0. -/
def imgHdr (b : List Byte) : ImgHdr :=
  let n := fieldAt b
  { len := n 8 8, product := n 16 4, revision := n 20 4, seed := n 24 8, imageId := n 32 8, security := n 40 4
    nVariants := n 44 2, aclkDiv := n 46 2, cycleLen := n 48 4, steps := n 52 2, horizon := n 54 2, quantum := n 56 2
    waitSlack := n 58 2, holdLimit := n 60 4, variants := (List.range 8).map fun i => n (64 + 8 * i) 8
    nParts := n 128 4, partOff := n 136 8, partDigest := bytesAt b 144 32, sigLen := n 2048 2
    sig := bytesAt b 2050 (n 2048 2)
    reserved := zeroAt b 132 4 && zeroAt b 176 1872 && zeroAt b 3512 584 && zeroAt b (2050 + n 2048 2) (1462 - n 2048 2) }

/-- R150: magic, format_version and header_len. -/
def hdrMagic (b : List Byte) : Bool :=
  decide (fieldAt b 0 4 = 0x4E595354 ∧ fieldAt b 4 2 = 1 ∧ fieldAt b 6 2 = 4096)

/-- A variant entry, with its reserved bits and ranges (R150). -/
def variantOf (v : Nat) : Variant := ⟨bits v 54 44, bits v 43 32, bits v 7 0, bits v 15 8, bits v 23 16⟩

def Variant.positions (x : Variant) : Nat := x.dimX * x.dimY * x.dimZ

def variantOk (v : Nat) : Bool :=
  let x := variantOf v
  decide (v < 2 ^ 55 ∧ bits v 31 24 = 0 ∧ x.nSpare ≤ 2048 ∧ 1 ≤ x.dimX ∧ x.dimX ≤ 32 ∧ 1 ≤ x.dimY ∧ x.dimY ≤ 32 ∧
    1 ≤ x.dimZ ∧ x.dimZ ≤ 32 ∧ x.positions ≤ 2048 ∧ x.timeMaster < x.positions)

/-- R150, check 7: the ranges of the header's fields. -/
def ImgHdr.rangesOk (h : ImgHdr) : Bool :=
  h.reserved && decide (1 ≤ h.nVariants ∧ h.nVariants ≤ 8 ∧ 4 ≤ h.aclkDiv ∧ h.aclkDiv ≤ 6 ∧ 1 ≤ h.cycleLen ∧ 1 ≤ h.steps ∧
    h.steps ≤ 64 ∧ 1 ≤ h.quantum ∧ h.quantum ≤ 65534 ∧ 1 ≤ h.holdLimit ∧ h.holdLimit ≤ 2 ^ 32 - 2 ∧ h.partOff % 64 = 0 ∧
    h.partOff + 64 * h.nParts ≤ h.len ∧ 1 ≤ h.sigLen ∧ h.sigLen ≤ 1462) &&
  (h.variants.take h.nVariants).all variantOk && (h.variants.drop h.nVariants).all fun v => decide (v = 0)

/-- A part-table entry (R151). -/
def partEnt (b : List Byte) : PartEnt :=
  ⟨fieldAt b 0 2, fieldAt b 2 2, fieldAt b 4 2, fieldAt b 8 8, fieldAt b 16 8, bytesAt b 24 32⟩

/-- R151, check 7: kind, scope, place in the image, reserved bytes. -/
def partOk (b : List Byte) (len : Nat) : Bool :=
  let x := partEnt b
  zeroAt b 6 2 && zeroAt b 56 8 && decide (1 ≤ x.kind ∧ x.kind ≤ 9 ∧ x.offset % 64 = 0 ∧ x.offset + x.length ≤ len) &&
    (if x.kind = 1 ∨ 7 ≤ x.kind then decide (x.pkg = 0xFFFF) else decide (x.pkg < 2048))

/-! ## The step program (R152, R163) -/

/-- An entry, and whether its reserved bits are 0 and its flags go together. -/
def progEntry (v : Nat) : ProgEntry × Bool :=
  let e : ProgEntry := ⟨v % 2 ^ 32, bits v 63 58, bitOf v 55, bitOf v 54, bitOf v 53, bitOf v 52⟩
  (e, decide (bits v 57 56 = 0 ∧ bits v 51 32 = 0) && (e.per || (!e.sp && !e.sw)))

/-- The step program, where R152 and R163 allow it. -/
def progPart (b : List Byte) (cycleLen steps : Nat) : Option (List ProgEntry) :=
  let ns := fieldAt b 0 4
  let n := fieldAt b 4 4
  let l := (recordsAt b 8 8 n).map fun r => progEntry (leNat r)
  let es : List ProgEntry := l.map (·.1)
  let offs : List Nat := es.map (·.offset)
  let o : List Nat := (es.filter (·.st)).map (·.offset)
  if 1 ≤ ns ∧ ns ≤ 64 ∧ 1 ≤ n ∧ n ≤ 4096 ∧ 8 + 8 * n ≤ b.length ∧ l.all (·.2) ∧
      es.all (fun e => decide (e.sentence < ns ∧ e.offset < cycleLen)) ∧
      (offs.zip (offs.drop 1)).all (fun e => decide (e.1 ≤ e.2)) ∧
      (es.take 1).any (fun e => e.st && decide (e.offset = 0)) ∧ o.length = steps ∧
      ((List.range steps).all fun k =>
        decide (1 ≤ (((es.filter fun e => decide (o.getD k 0 ≤ e.offset ∧ e.offset < o.getD (k + 1) cycleLen)).drop 1).filter
          fun e => !e.per).length)) then some es
  else none

/-! ## The tile section (R153) -/

/-- A table of 64-byte descriptors as words. -/
def descTable (b : List Byte) (n : Nat) : SMap W32 :=
  denseMap 0 ((List.range (16 * n)).map fun i => BitVec.ofNat 32 (fieldAt b (4 * i) 4))

/-- The offset of what follows the clause entries of a record. -/
def bundleOff (n : Nat) : Nat := ceilDiv (16 + 4 * n) 64 * 64

/-- A tile record's length in bytes. -/
def recordLen (b : List Byte) : Nat := bundleOff (fieldAt b 0 1) + 16 * fieldAt b 4 2 + 64 * 64 + 64 * 64 + 32 * 64 + 64 * 64

/-- A tile record, where R131 and R153 allow it: the tile with its clauses, bundles and tables. -/
def tileRec (b : List Byte) (nSent : Nat) : Option Tile :=
  let nc := fieldAt b 0 1
  let nb := fieldAt b 4 2
  let ents := (recordsAt b 16 4 nc).map leNat
  let clauses := ents.map fun e => (bits e 31 26, e % 2 ^ 14)
  let o := bundleOff nc
  let m := o + 16 * nb
  if nc ≤ 64 ∧ nb ≤ 16384 ∧ (nc = 0 → nb = 0) ∧ (nc ≠ 0 → 1 ≤ nb) ∧ zeroAt b 1 3 ∧ zeroAt b 6 10 ∧ recordLen b ≤ b.length ∧
      ents.all (fun e => decide (bits e 25 14 = 0 ∧ bits e 31 26 < nSent ∧ e % 2 ^ 14 < nb)) ∧
      (clauses.map (·.1)).Nodup ∧ zeroAt b (16 + 4 * nc) (o - 16 - 4 * nc) then
    some { Tile.reset with
      clauses := clauses, nBundles := nb
      store := denseMap zeroWord ((recordsAt b o 16 nb).map fun w => goodWord (BitVec.ofNat 128 (leNat w)))
      md := descTable (bytesAt b m 4096) 64, vd := descTable (bytesAt b (m + 4096) 4096) 64
      pd := descTable (bytesAt b (m + 8192) 2048) 32, xd := descTable (bytesAt b (m + 10240) 4096) 64 }
  else none

/-- The tile records of a section, one after another. -/
def tileRecs : Nat → Nat → List Byte → Option (List Tile)
  | 0, _, _ => some []
  | n + 1, nSent, b =>
    match tileRec b nSent with
    | none => none
    | some t => (tileRecs n nSent (b.drop (recordLen b))).map fun r => t :: r

/-- The tiles of a section; an empty part holds no clause. -/
def tilePart (b : List Byte) (nSent : Nat) : Option (List Tile) :=
  if b.isEmpty then some (List.replicate 192 Tile.reset) else tileRecs 192 nSent b

/-! ## Routes and remap (R159, R301) -/

/-- A route-table row as (partner, row), where its fields are in range. -/
def routeRowOf (v : Nat) : Option (Nat × RouteRow) :=
  let r : RouteRow := ⟨bits v 63 52, bits v 51 48, bits v 47 44, bits v 43 36⟩
  if r.port1 < 12 ∧ r.port3 < 12 ∧ bits v 35 0 = 0 then some (r.partner, r) else none

/-- What a route part holds: time parent port, wrap ports, own_id, rows. -/
structure RoutePart where
  parent : Nat
  wraps : Nat
  own : Nat
  rows : SMap RouteRow
  deriving DecidableEq, Repr

def routePart (b : List Byte) : Option RoutePart :=
  let n := fieldAt b 0 2
  let p := fieldAt b 2 1
  match allSome ((recordsAt b 16 8 n).map fun r => routeRowOf (leNat r)) with
  | none => none
  | some l =>
    let ks := l.map (·.1)
    if n ≤ 4096 ∧ 16 + 8 * n ≤ b.length ∧ (p < 12 ∨ p = 0xFF) ∧ zeroAt b 3 1 ∧ zeroAt b 8 8 ∧ fieldAt b 4 2 < 4096 ∧
        (ks.zip (ks.drop 1)).all (fun e => decide (e.1 < e.2)) then some ⟨p, fieldAt b 4 2, fieldAt b 6 2, l⟩
    else none

/-- The rows of a route delta at an offset of the remap part. -/
def deltaRows (b : List Byte) (off len : Nat) : Option (List RouteRow) :=
  if len % 8 = 0 ∧ off + len ≤ b.length then
    (allSome ((recordsAt b off 8 (len / 8)).map fun r => routeRowOf (leNat r))).map fun l => l.map (·.2)
  else none

/-- An entry of the remap part: for a link entry the key is 16 × position + port. -/
def remapEnt (b r : List Byte) (link : Bool) : Option RemapEnt :=
  let v := fieldAt r 2 2
  match deltaRows b (fieldAt r 4 4) (fieldAt r 8 4) with
  | none => none
  | some d =>
    if zeroAt r 14 2 ∧ fieldAt r 0 2 < 2048 ∧ v < (if link then 12 else 4096) then
      some ⟨if link then 16 * fieldAt r 0 2 + v else fieldAt r 0 2, v, d, fieldAt r 12 2, true⟩
    else none

/-- R159: the package entries, the link entries, and the guard in beats. -/
structure RemapTabs where
  pkgs : List RemapEnt
  links : List RemapEnt
  guard : Nat
  deriving DecidableEq, Repr

def remapPart (b : List Byte) : Option RemapTabs :=
  if b.isEmpty then some ⟨[], [], 0⟩
  else
    let n := fieldAt b 0 4
    let m := fieldAt b 4 4
    match allSome ((recordsAt b 64 16 n).map fun r => remapEnt b r false),
        allSome ((recordsAt b (64 + 16 * n) 16 m).map fun r => remapEnt b r true) with
    | some x, some y =>
      if n ≤ 2048 ∧ m ≤ 24576 ∧ 64 + 16 * (n + m) ≤ b.length ∧ zeroAt b 12 52 then some ⟨x, y, fieldAt b 8 4⟩ else none
    | _, _ => none

/-! ## The agreement program (R207) -/

def chanOf (b : List Byte) : Option ChanEnt :=
  let n := fieldAt b
  let x : ChanEnt :=
    ⟨bitOf (n 0 1) 4, n 0 1 % 16, n 1 1, n 2 1, n 3 1, n 4 1, n 5 1, n 6 1, n 8 2, n 10 2, n 12 4, n 16 4, n 20 4, n 24 4⟩
  if n 0 1 < 32 ∧ 1 ≤ x.op ∧ x.op ≤ 4 ∧ 2 ≤ x.nMembers ∧ x.nMembers ≤ 32 ∧ x.rank < x.nMembers ∧ x.pipe ≤ 3 ∧
      x.nextPkg < 2048 ∧ x.prevPkg < 2048 ∧ x.holdBase % 4224 = 0 ∧ x.holdBytes % 4224 = 0 ∧ zeroAt b 7 1 ∧ zeroAt b 28 36
  then some x else none

def bucketOf (b : List Byte) : Option BucketEnt :=
  let n := fieldAt b
  let f := n 24 1
  let x : BucketEnt :=
    ⟨n 0 4, n 4 8, n 12 4, n 16 2, n 18 2, n 20 4, bitOf f 7, bitOf f 6, bitOf f 5, n 25 1, n 26 1, n 27 1, n 28 4⟩
  if x.tensor < 2 ^ 24 ∧ x.elemFirst < 2 ^ 46 ∧ x.elemFirst % 1024 = 0 ∧ 1 ≤ x.cpp ∧ x.cpp ≤ 4096 ∧ f % 32 = 0 ∧
      x.resTile < 192 ∧ x.resWin < 16 ∧ x.srcTile < 192 ∧ x.resAddr < 2 ^ 23 ∧ x.resAddr % 64 = 0 then some x else none

/-- Channels, buckets, agreement_scale_base and the initial scale entries. -/
structure AgreePart where
  chans : List ChanEnt
  buckets : List BucketEnt
  scaleBase : Nat
  scales : List Byte
  deriving DecidableEq, Repr

def agreePart (b : List Byte) : Option AgreePart :=
  if b.isEmpty then some ⟨[], [], 0, []⟩
  else
    let nc := fieldAt b 0 4
    let nb := fieldAt b 4 4
    let ns := fieldAt b 16 4
    let o := 64 + 64 * nc
    match allSome ((recordsAt b 64 64 nc).map chanOf), allSome ((recordsAt b o 32 nb).map bucketOf) with
    | some cs, some bs =>
      if nc ≤ 32 ∧ nb ≤ 65536 ∧ ns ≤ 2 ^ 28 ∧ fieldAt b 8 8 % 16 = 0 ∧ zeroAt b 20 44 ∧ o + 32 * nb + 16 * ns ≤ b.length then
        some ⟨cs, bs, fieldAt b 8 8, bytesAt b (o + 32 * nb) (16 * ns)⟩
      else none
    | _, _ => none

/-! ## Dispatch and staging (R220, R225, R227) -/

def regionDesc (b : List Byte) : RegionDesc := ⟨fieldAt b 0 1, fieldAt b 1 1, fieldAt b 4 4, fieldAt b 8 4, fieldAt b 12 4⟩

/-- R220: the ranges of a region's fields. -/
def regionDescOk (b : List Byte) : Bool :=
  let x := regionDesc b
  decide (x.tileFirst ≤ 47 ∧ 1 ≤ x.nTiles ∧ x.nTiles ≤ 48 - x.tileFirst ∧ x.offset < 2 ^ 23 ∧ x.offset % 64 = 0 ∧
    1 ≤ x.rowsPerTile ∧ x.rowsPerTile ≤ 131072 ∧ x.rowStride % 64 = 0) && zeroAt b 2 2

/-- A table entry, where its fields are in range for its op. -/
def dispTableOf (b : List Byte) : Option DispTable :=
  let n := fieldAt b
  let op := n 0 1
  if op = 1 then
    let x : DispTable := ⟨1, n 1 1, n 2 1, 0, n 4 2, 0, 0, n 8 4, n 12 4, 0, n 18 1, n 19 1, n 20 4, n 24 4, n 28 4,
      ⟨0, 0, 0, 0, 0⟩, ⟨0, 0, 0, 0, 0⟩⟩
    if 1 ≤ x.k ∧ x.k ≤ 4 ∧ 1 ≤ x.mapDepth ∧ x.mapDepth ≤ 16 ∧ zeroAt b 3 1 ∧ 1 ≤ x.nExperts ∧ x.nExperts ≤ 4096 ∧
        zeroAt b 6 2 ∧ 1 ≤ x.nTokens ∧ x.nTokens ≤ 131072 ∧ zeroAt b 16 2 ∧ x.win < 16 ∧ x.reportTile ≤ 47 ∧
        x.recBase % 64 = 0 ∧ x.reportAddr < 2 ^ 23 ∧ x.reportAddr % 64 = 0 ∧ x.mapOffset % 64 = 0 ∧ zeroAt b 32 32 then some x
    else none
  else
    let x : DispTable := ⟨op, 0, 0, n 3 1, 0, n 4 2, n 6 2, 0, 0, n 16 2, n 18 1, 0, 0, 0, 0, regionDesc (bytesAt b 32 16),
      regionDesc (bytesAt b 48 16)⟩
    if 2 ≤ op ∧ op ≤ 4 ∧ zeroAt b 1 2 ∧ 1 ≤ x.nTrig ∧ x.nTrig ≤ 48 ∧ zeroAt b 8 8 ∧ 1 ≤ x.rowFlits ∧ x.rowFlits ≤ 1024 ∧
        x.win < 16 ∧ zeroAt b 19 13 ∧ regionDescOk (bytesAt b 32 16) ∧ regionDescOk (bytesAt b 48 16) ∧
        64 * x.rowFlits ≤ x.src.rowStride ∧ 64 * x.rowFlits ≤ x.dst.rowStride then some x
    else none

/-- A die section. -/
def sectionOf (b : List Byte) : Option DieSection :=
  let nt := fieldAt b 0 2
  let ns := fieldAt b 2 2
  let nq := fieldAt b 4 4
  let so := 64 + 64 * nt
  let qo := so + 4 * ns
  let seq := (recordsAt b so 4 ns).map leNat
  let qs := (recordsAt b qo 4 nq).map leNat
  match allSome ((recordsAt b 64 64 nt).map dispTableOf) with
  | none => none
  | some ts =>
    if nt ≤ 256 ∧ 1 ≤ ns ∧ ns ≤ 1024 ∧ nq ≤ 65536 ∧ fieldAt b 8 8 % 64 = 0 ∧ zeroAt b 24 40 ∧ qo + 4 * nq ≤ b.length ∧
        seq.all (fun v => decide (v % 256 < nt ∧ bits v 15 8 = 0 ∧ 1 ≤ bits v 31 16 ∧ bits v 31 16 ≤ 65535)) ∧
        qs.all (fun v => decide (v < 2 ^ 16)) then
      some ⟨ts, seq.map fun v => (v % 256, bits v 31 16), qs, fieldAt b 8 8, fieldAt b 16 8⟩
    else none

/-- Groups, initial placement, stage entries, move buffer and budget (R227). -/
structure StagePart where
  groups : List PlaceGroup
  place : List (List Nat)
  stages : List StageEnt
  buffer : Nat
  bufferBytes : Nat
  budget : Nat
  deriving DecidableEq, Repr

def stageOf (b : List Byte) : StageEnt × Bool :=
  let n := fieldAt b
  (⟨n 0 4, n 4 4, n 8 1, decide (n 9 1 = 1), n 10 2, n 12 2, n 16 4, n 20 4, n 24 8⟩,
    decide (n 8 1 ≤ 3 ∧ (n 9 1 = 1 ∨ n 9 1 = 2) ∧ 1 ≤ n 4 4 ∧ n 4 4 ≤ 2 ^ 32 - 2 ∧ n 16 4 % 64 = 0 ∧ n 20 4 % 64 = 0 ∧
      n 24 8 % 64 = 0) && zeroAt b 14 2)

/-- A position entry: tier and address, in range. -/
def positionOf (v : Nat) : (Bool × Nat) × Bool :=
  let a := v % 2 ^ 46
  ((bitOf v 63, a), decide (bits v 62 46 = 0 ∧ a % 64 = 0) &&
    decide (regionOf a = if bitOf v 63 then Region.lpddr else Region.hbm))

def stagingPart (b : List Byte) : Option StagePart :=
  let ng := fieldAt b 0 4
  let nst := fieldAt b 4 4
  let ents := recordsAt b 64 16 ng
  let sizes := ents.map fun e => fieldAt e 0 2
  let nPos := sizes.sum
  let po := 64 + 16 * ng
  let pl := po + 8 * nPos
  let st := pl + 2 * nPos
  let poss := (recordsAt b po 8 nPos).map fun r => positionOf (leNat r)
  let starts := (List.range ng).map fun i => (sizes.take i).sum
  let groups := ((List.range ng).zip ents).map fun e =>
    (⟨fieldAt e.2 4 4, ((poss.drop (fieldAt e.2 8 4)).take (fieldAt e.2 0 2)).map (·.1)⟩ : PlaceGroup)
  let place := (List.range ng).map fun i =>
    (recordsAt b (pl + 2 * starts.getD i 0) 2 (sizes.getD i 0)).map leNat
  let stages := (recordsAt b st 32 nst).map stageOf
  if ng ≤ 256 ∧ nst ≤ 2 ^ 20 ∧ zeroAt b 32 32 ∧ fieldAt b 8 8 % 64 = 0 ∧ st + 32 * nst ≤ b.length ∧
      ents.all (fun e => decide (1 ≤ fieldAt e 0 2 ∧ fieldAt e 0 2 ≤ 4096 ∧ fieldAt e 4 4 % 64 = 0) && decide (fieldAt e 8 4 + fieldAt e 0 2 ≤ nPos) &&
        zeroAt e 2 2 && zeroAt e 12 4) ∧ poss.all (·.2) ∧
      ((place.zip sizes).all fun e => e.1.all (fun q => decide (q < e.2)) && decide e.1.Nodup) ∧ stages.all (·.2) then
    some ⟨groups, place, stages.map (·.1), fieldAt b 8 8, fieldAt b 16 8, fieldAt b 24 8⟩
  else none

/-- The dispatch and staging part: the sections of the four dies, and the staging section. -/
def dispPart (b : List Byte) : Option (List (Option DieSection) × StagePart) :=
  let none' : StagePart := ⟨[], [], [], 0, 0, 0⟩
  if b.isEmpty then some ([none, none, none, none], none')
  else
    let offs := (List.range 4).map fun i => fieldAt b (4 * i) 4
    let so := fieldAt b 16 4
    let secs := offs.map fun o => if o = 0 then some none else (sectionOf (b.drop o)).map some
    let stg := if so = 0 then some none' else stagingPart (b.drop so)
    match allSome secs, stg with
    | some s, some g => if offs.all (fun o => decide (o % 64 = 0)) ∧ zeroAt b 20 44 then some (s, g) else none
    | _, _ => none

/-! ## The securing part (R334, R335) -/

def secRegion (b : List Byte) : Option SecRegion :=
  let n := fieldAt b
  let slot (v : Nat) : Option Nat := if v = 0xFFFFFFFF then none else some v
  if n 0 4 < 2 ^ 24 ∧ n 4 1 ≤ 1 ∧ n 5 1 ≤ 2 ∧ zeroAt b 6 2 ∧ n 8 8 % 64 = 0 ∧ 1 ≤ n 16 8 ∧ n 16 8 ≤ 2 ^ 40 then
    some ⟨n 0 4, n 4 1, n 5 1, n 8 8, n 16 8, slot (n 24 4), slot (n 28 4)⟩
  else none

/-- A group entry: the positions of its members. -/
def secGroup (b : List Byte) : Option (List Nat) :=
  let n := fieldAt b 0 1
  let ms := (List.range 8).map fun i => fieldAt b (2 + 2 * i) 2
  if 2 ≤ n ∧ n ≤ 8 ∧ zeroAt b 1 1 ∧ zeroAt b 18 14 ∧ (ms.drop n).all (fun m => decide (m = 0xFFFF)) then some (ms.take n)
  else none

/-- The securing part for a variant of n positions. -/
def secPart (b : List Byte) (n : Nat) : Option SecPart :=
  let f := fieldAt b
  let nr := f 0 4
  let ng := f 4 2
  match allSome ((recordsAt b (f 28 4) 32 ng).map secGroup), allSome ((recordsAt b (f 36 4) 32 nr).map secRegion) with
  | some gs, some rs =>
    if 1 ≤ nr ∧ nr ≤ 65536 ∧ 1 ≤ ng ∧ ng ≤ 256 ∧ zeroAt b 6 2 ∧ f 8 8 % 2 ^ 20 = 0 ∧ f 16 8 % 2 ^ 20 = 0 ∧ 1 ≤ f 24 4 ∧
        f 24 4 ≤ 2 ^ 32 - 2 ∧ f 28 4 % 64 = 0 ∧ f 32 4 % 64 = 0 ∧ f 36 4 % 64 = 0 ∧ zeroAt b 40 24 ∧
        f 28 4 + 32 * ng ≤ b.length ∧ f 32 4 + 2 * n ≤ b.length ∧ f 36 4 + 32 * nr ≤ b.length then
      some ⟨f 8 8, f 16 8, f 24 4, gs, (recordsAt b (f 32 4) 2 n).map leNat, rs⟩
    else none
  | _, _ => none

end Sys2Proof.Machine
end

