-- ==== Sys2Proof/Machine/Phrase.lean ====
section
/-! DEFINITION. Machine/Phrase.lean: phrase descriptors and stage words (R119, R120), the stage operations (R121), and
running a phrase iteration by iteration while its drain-queue inputs have arrived (R122). -/
namespace Sys2Proof.Machine

/-- An input of a phrase descriptor (R119). -/
structure PIn where
  on : Bool
  dq : Bool
  desc : Nat
  deriving DecidableEq, Repr

/-- An output of a phrase descriptor (R119). -/
structure POut where
  on : Bool
  narrow : Bool
  desc : Nat
  src : Nat
  msk : Nat
  rm : Nat
  deriving DecidableEq, Repr

/-- A stage word (R120). -/
structure PStage where
  op : Nat
  a : Nat
  b : Nat
  c : Nat
  reg : Nat
  tap : Bool
  rc : Nat
  trop : Nat
  tmsk : Nat
  deriving DecidableEq, Repr

def phraseStages (m : SMap W32) (d : Nat) : Nat := bits (descWord m d 0) 3 0

def phraseIn (m : SMap W32) (d i : Nat) : PIn :=
  let b := bits (descWord m d 1) (8 * i + 7) (8 * i)
  ⟨bitOf b 7, bitOf b 6, b % 64⟩

def phraseOut (m : SMap W32) (d o : Nat) : POut :=
  let w := descWord m d (10 + o)
  ⟨bitOf w 31, bitOf w 30, bits w 29 24, bits w 23 21, bits w 19 17, bits w 15 14⟩

def phraseStage (m : SMap W32) (d s : Nat) : PStage :=
  let w := descWord m d (2 + s)
  ⟨bits w 31 26, bits w 25 22, bits w 21 18, bits w 17 14, bits w 13 9, bitOf w 8, bits w 7 6, bits w 5 4, bits w 3 1⟩

def phraseIns (m : SMap W32) (d : Nat) : List PIn := (List.range 4).map (phraseIn m d)
def phraseOuts (m : SMap W32) (d : Nat) : List POut := (List.range 2).map (phraseOut m d)
def phraseStageList (m : SMap W32) (d : Nat) : List PStage := (List.range (phraseStages m d)).map (phraseStage m d)

/-- The latency of a stage operation (R110). -/
def stageLat (op : Nat) : Nat := if op ≤ 0x0F then (if op ≤ 0x0A then 4 else 12) else 16

/-- How many operands a stage operation takes (R110, R121). -/
def stageArity (op : Nat) : Nat :=
  if op = 4 ∨ op = 0x0A then 3 else if op = 7 ∨ op = 8 ∨ op ≥ 0x0B then 1 else 2

/-- R121: one lane of a stage. -/
def stageLane (op cond : Nat) (a b c : W32) : W32 :=
  match op with
  | 1 => fAdd a b
  | 2 => fSub a b
  | 3 => fMul a b
  | 4 => fFma a b c
  | 5 => vMax a b
  | 6 => vMin a b
  | 7 => vAbs a
  | 8 => vNeg a
  | 9 => if vCond cond a b then 0x3F800000 else 0
  | 10 => if a.toNat % 2 ^ 31 = 0 then c else b
  | _ => special (op - 11) a

/-- R119, R120, R128: no reserved bit, field value or combination in a phrase descriptor. -/
def phraseOk (m : SMap W32) (d : Nat) : Bool :=
  let w := descWord m d
  let n := phraseStages m d
  let ins := phraseIns m d
  let source (s : Nat) (code : Nat) : Bool :=
    decide (code ≤ 7 ∧ code < s) || (decide (8 ≤ code ∧ code ≤ 11) && (ins.getD (code - 8) ⟨false, false, 0⟩).on) ||
      decide (12 ≤ code ∧ code ≤ 14)
  decide (w 0 < 16 ∧ n ≤ 8) && (List.range 4).all (fun i => decide (w (12 + i) = 0)) &&
  ins.all (fun i => !i.dq || decide (i.desc = 0)) &&
  (List.range 8).all (fun s =>
    let x := phraseStage m d s
    if s ≥ n then decide (w (2 + s) = 0)
    else
      decide (1 ≤ x.op ∧ x.op ≤ 0x14 ∧ x.trop ≠ 1 ∧ w (2 + s) % 2 = 0) && source s x.a &&
        (if stageArity x.op ≥ 2 then source s x.b else decide (x.b = 13)) &&
        (if stageArity x.op = 3 then source s x.c else decide (x.c = 13)) &&
        (!decide (x.op = 9) || decide (x.reg / 8 = 0 ∧ x.reg ≤ 4))) &&
  (phraseOuts m d).all (fun o => decide (o.rm ≤ 1) && (o.narrow || decide (o.rm = 0)) &&
    (decide (o.src < n) || (decide (n = 0) && !o.on))) &&
  (List.range 2).all (fun o =>
    decide (bits (w (10 + o)) 13 0 = 0) && !bitOf (w (10 + o)) 16 && !bitOf (w (10 + o)) 20) &&
  (List.range n).all fun s => (List.range s).all fun r =>
    !((phraseStage m d s).tap && (phraseStage m d r).tap && decide ((phraseStage m d s).rc = (phraseStage m d r).rc))

/-- An address range of a phrase, as its lowest and its highest byte. -/
def spanOf (a b : Int) (n : Nat) : Int × Int := (min a b, max a b + n - 1)

/-- The descriptors that a phrase's conversion sites and its SRAM inputs name, each with whether it is a conversion site. -/
def phraseTensors (ti : Tile) (d : Nat) : List (Nat × Bool) :=
  ((phraseIns ti.pd d).filterMap fun i => if i.on && !i.dq then some (i.desc, false) else none) ++
    (phraseOuts ti.pd d).filterMap fun o => if o.on && o.narrow then some (o.desc, true) else none

/-- R128: the descriptors of a phrase fit their tensors, whatever its count. -/
def phraseFits (p : Pkg) (t d : Nat) : Bool :=
  let ti := p.tile t
  (phraseTensors ti d).all (fun e => vdescOk ti.vd e.1 && p.descFits (vdesc ti.vd e.1) e.2) &&
    (phraseOuts ti.pd d).all fun o => !o.on || vdescOk ti.vd o.desc

/-- R128: the limits of a phrase of `count` iterations that the loader checks: its accesses lie in tile SRAM, its
narrow outputs have an even count and multiples of 4 as scale indices, its taps keep each context's rop, and no output
meets an input. -/
def phraseRanges (p : Pkg) (t d count : Nat) : Bool :=
  let ti := p.tile t
  let v := ti.vec
  let used (e : Nat) : Nat :=
    ((phraseIns ti.pd d).filter fun i => i.on && !i.dq && decide (i.desc = e)).length * count +
      ((phraseOuts ti.pd d).map fun o =>
        if o.on && decide (o.desc = e) then (if o.narrow then count / 2 else count) else 0).sum
  let span (e bytes : Nat) : Int × Int :=
    let x := vdesc ti.vd e
    spanOf (ptrAddr x (v.ptr e) 0) (ptrAddr x (v.ptr e) (used e - 1)) bytes
  let inS (r : Int × Int) : Bool := decide (0 ≤ r.1 ∧ r.2 < tileSize)
  let inSpans := (phraseIns ti.pd d).filterMap fun i =>
    if i.on && !i.dq then some (span i.desc (8 * fmtWidth (vdesc ti.vd i.desc).fmt)) else none
  let outBytes (o : POut) : Nat := if o.narrow then packedBytes (vdesc ti.vd o.desc).fmt 128 else 256
  let outSpans := (phraseOuts ti.pd d).filterMap fun o => if o.on then some (span o.desc (outBytes o)) else none
  let fine (x : VDesc) : Bool := match p.scaleWord0 x.tensor with
    | some w => carriesFine x.fmt w
    | none => false
  let scaleEnds (x : VDesc) (e : Nat) : List Int := [ptrScale x (v.ptr e) 0, ptrScale x (v.ptr e) (used e - 1)]
  inSpans.all inS && outSpans.all inS &&
  (phraseIns ti.pd d).all (fun i => !i.on || i.dq ||
    (let x := vdesc ti.vd i.desc
     !fine x || (scaleEnds x i.desc).all fun g => scaleIn x g && scaleIn x (g + 1))) &&
  (phraseOuts ti.pd d).all (fun o => !o.on ||
    (let x := vdesc ti.vd o.desc
     !o.narrow ||
       (decide (count % 2 = 0) &&
         decide ((v.ptr o.desc).scale % 4 = 0 ∧ (used o.desc ≤ 1 ∨ x.scaleStep % 4 = 0)) &&
         (!fine x || (scaleEnds x o.desc).all (scaleIn x))))) &&
  outSpans.all (fun o => inSpans.all fun i => decide (o.2 < i.1 ∨ i.2 < o.1)) &&
  (phraseStageList ti.pd d).all fun s => !s.tap ||
    (match (v.context s.rc).rop with
      | none => true
      | some r => decide (r = s.trop))

/-- R128: what the loader checks of a phrase; one of count 0 makes no access. -/
def phraseLimits (p : Pkg) (t d count : Nat) : Bool :=
  phraseFits p t d && (decide (count = 0) || phraseRanges p t d count)

/-! ## Running a phrase (R122) -/

/-- A register value that is the same in every lane. -/
def VVal.const (w : W32) : VVal := ⟨List.replicate 64 w, List.replicate 16 false⟩

/-- The masks that R122 step 1 reads at t0: those of the outputs that are enabled, and of the taps. -/
def phraseMasks (m : SMap W32) (d : Nat) : List Nat :=
  (phraseOuts m d).filterMap (fun o => if o.on then some o.msk else none) ++
    (phraseStageList m d).filterMap fun s => if s.tap then some s.tmsk else none

/-- What R122 step 1 reads at t0: the registers that a source code 0xC names. -/
def phraseRegs (m : SMap W32) (d : Nat) : List Nat :=
  (phraseStageList m d).flatMap fun s =>
    if ([s.a, s.b, s.c].take (stageArity s.op)).any (fun q => decide (q = 12)) then [s.reg] else []

/-- The longest input latency, and store latency, of a phrase (R110, R122). -/
def phraseInLat (m : SMap W32) (d : Nat) : Nat :=
  (phraseIns m d).foldl (fun n i => if i.on then max n (if i.dq then 2 else 8) else n) 0

def phraseOutLat (ti : Tile) (d : Nat) : Nat :=
  (phraseOuts ti.pd d).foldl (fun n o =>
    if o.on then max n (if o.narrow then (if (vdesc ti.vd o.desc).dt then 14 else 10) else 6) else n) 0

/-- R122: the cycle at which the last store of a phrase lands. -/
def phraseEnd (ti : Tile) (r : PhraseRun) : Nat :=
  r.issue + r.delay + phraseStages ti.pd r.desc * (r.count - 1) + phraseInLat ti.pd r.desc +
    ((phraseStageList ti.pd r.desc).map fun s => stageLat s.op).sum + phraseOutLat ti r.desc

/-- The inputs of one iteration that wants them at cycle c: the values, the engine after the reads, and the cycle at
which the last drain-queue entry has arrived; none where the queue holds none. -/
def phraseInputs (p : Pkg) (t c : Nat) : List PIn → VecEng → Option (List VVal × VecEng × Nat)
  | [], v => some ([], v, c)
  | i :: r, v =>
    if !i.on then
      (phraseInputs p t c r v).map fun u => (VVal.const 0 :: u.1, u.2)
    else if i.dq then
      match v.queue with
      | [] => none
      | (arr, _) :: _ =>
        let c' := max c arr
        match v.pop c' with
        | none => none
        | some (l, v) => (phraseInputs p t c' r v).map fun u => (entriesVal l :: u.1, u.2)
    else
      let x := vdesc (p.tile t).vd i.desc
      let q := v.ptr i.desc
      let a := p.vLoad t x (ptrAddr x q 0).toNat (ptrScale x q 0).toNat
      (phraseInputs p t c r (v.advance i.desc x)).map fun u => (a :: u.1, u.2)

/-- What a stage of an iteration computed: its value and the cycle after which it is ready. -/
structure StageOut where
  val : VVal
  start : Nat
  ready : Nat
  deriving DecidableEq, Repr

/-- A source code's value and the cycle at which it is ready (R120), for an iteration that begins at cycle c. -/
def stageSource (r : PhraseRun) (ins : List VVal) (dq : List Bool) (outs : List StageOut) (c reg code : Nat) :
    VVal × Nat :=
  if code ≤ 7 then
    match outs[code]? with
    | some o => (o.val, o.ready)
    | none => (VVal.const 0, c)
  else if code ≤ 11 then (ins.getD (code - 8) (VVal.const 0), c + (if dq.getD (code - 8) false then 2 else 8))
  else if code = 12 then (r.regs.at (VVal.const 0) reg, c)
  else if code = 14 then (VVal.const 0x3F800000, c)
  else (VVal.const 0, c)

/-- The stages of one iteration in order (R121, R122), and whether one of them met poison (R127). -/
def phraseStagesRun (r : PhraseRun) (ins : List VVal) (dq : List Bool) (c : Nat) :
    List PStage → List StageOut → Bool → List StageOut × Bool
  | [], outs, met => (outs, met)
  | s :: rest, outs, met =>
    let src := ([s.a, s.b, s.c].take (stageArity s.op)).map (stageSource r ins dq outs c s.reg)
    let v (i : Nat) : VVal := (src.getD i (VVal.const 0, c)).1
    let start := src.foldl (fun m e => max m e.2) c
    let bad (q : Nat) : Bool := src.any fun e => e.1.poison.getD q false
    let x : VVal :=
      ⟨(List.range 64).map fun l => stageLane s.op s.reg ((v 0).lanes.getD l 0) ((v 1).lanes.getD l 0) ((v 2).lanes.getD l 0),
        (List.range 16).map bad⟩
    phraseStagesRun r ins dq c rest (outs ++ [⟨x, start, start + stageLat s.op⟩]) (met || (List.range 16).any bad)

/-- A mask read at phrase start. -/
def PhraseRun.mask (r : PhraseRun) (k : Nat) : W64 := if k = 0 then BitVec.allOnes 64 else r.masks.at 0 k

/-- R126: what stage s of iteration i adds to the record: its lanes under the masks of what stores or taps it. -/
def phraseNote (r : PhraseRun) (outs : List POut) (s : Nat) (x : PStage) (o : StageOut) (v : VecRec) : VecRec :=
  let ms := (outs.filterMap fun q => if q.on && decide (q.src = s) then some (r.mask q.msk) else none) ++
    (if x.tap then [r.mask x.tmsk] else [])
  if x.op = 10 then v
  else v.noteAll o.val (ms.foldl (fun a b => a ||| b) 0) o.start r.bundle r.iter

/-- One output of one iteration whose result is ready at a cycle (R122 steps 4 and 5): the stores, and the even iteration kept for a narrow one. -/
def phraseStore (p : Pkg) (t : Nat) (o : POut) (n : Nat) (x : VVal) (ready : Nat) (r : PhraseRun) : Pkg × PhraseRun :=
  if !o.on then (p, r)
  else if o.narrow && decide (r.iter % 2 = 0) then (p, { r with kept := r.kept.put (VVal.const 0) n x })
  else
    let ti := p.tile t
    let d := vdesc ti.vd o.desc
    let q := ti.vec.ptr o.desc
    let p := p.setVec t (ti.vec.advance o.desc d)
    let m := r.mask o.msk
    if o.narrow then
      ((p.narrowBanks t d (ptrAddr d q 0).toNat (ptrScale d q 0).toNat (ready + if d.dt then 14 else 10)).vNarrow t d (ptrAddr d q 0).toNat (ptrScale d q 0).toNat ((d.elemBase + q.elem) % 2 ^ 46) (decide (o.rm = 1))
        (narrowOf (r.kept.at (VVal.const 0) n) x m), r)
    else ((p.storeBanks t (ptrAddr d q 0).toNat (ready + 6) m false).vStore t (ptrAddr d q 0).toNat x m false, r)

/-- One iteration whose inputs have been read at cycle c. -/
def phraseIteration (p : Pkg) (t : Nat) (r : PhraseRun) (ins : List VVal) (c : Nat) : Pkg × PhraseRun :=
  let pd := (p.tile t).pd
  let outsD := phraseOuts pd r.desc
  let stages := phraseStageList pd r.desc
  let u := phraseStagesRun r ins ((phraseIns pd r.desc).map (·.dq)) c stages [] false
  let loadBad := ((phraseIns pd r.desc).zip ins).any fun e => e.1.on && (List.range 16).any fun q => e.2.poison.getD q false
  let met := u.2 || loadBad
  let v := (p.tile t).vec
  let v := ((List.range stages.length).zip (stages.zip u.1)).foldl (fun (v : VecEng) e =>
    let v := v.noteLate e.2.2.ready (phraseNote r outsD e.1 e.2.1 e.2.2 VecRec.reset)
    if e.2.1.tap then
      let k := (v.context e.2.1.rc).accumulate e.2.1.trop e.2.2.val ⟨[], []⟩ (r.mask e.2.1.tmsk)
      { v with ctx := v.ctx.put Ctx.reset e.2.1.rc k }
    else v) v
  let p := p.setVec t v
  let p := p.vecPoison t (met && !r.met)
  let r := { r with met := r.met || met }
  let w := ((List.range 2).zip outsD).foldl (fun (acc : Pkg × PhraseRun) e =>
    phraseStore acc.1 t e.2 e.1 ((u.1[e.2.src]?).map (·.val) |>.getD (VVal.const 0))
      ((u.1[e.2.src]?).map (·.ready) |>.getD c) acc.2) (p, r)
  (w.1, { w.2 with iter := r.iter + 1 })

/-- R52, R122: the bank accesses of an iteration's SRAM inputs at cycle c, and the cycles that the iteration waits for them. -/
def phraseBanks (p : Pkg) (t c : Nat) : Pkg × Nat :=
  let ti := p.tile t
  match ti.vec.phrase with
  | none => (p, 0)
  | some r =>
    (phraseIns ti.pd r.desc).foldl (fun (acc : Pkg × Nat) i =>
      if i.on && !i.dq then
        let x := vdesc ti.vd i.desc
        let u := acc.1.bankUse t bankVector c (ptrAddr x (ti.vec.ptr i.desc) 0).toNat (8 * fmtWidth x.fmt)
        (u.1, max acc.2 u.2)
      else acc) (p, 0)

/-- Run iterations while their inputs have arrived, n at most. A wait on the drain queue is reported once and its
cycles are counted (R117, R122); a bank conflict delays the iterations as well. -/
def phraseAdvance (t : Nat) : Nat → Pkg → Pkg
  | 0, p => p
  | n + 1, p =>
    match (p.tile t).vec.phrase with
    | none => p
    | some r =>
      if r.iter ≥ r.count then p
      else
        let s := phraseStages (p.tile t).pd r.desc
        let c := r.issue + r.delay + s * r.iter
        let report (r : PhraseRun) (p : Pkg) : Pkg × PhraseRun :=
          if r.waited then (p, r) else (p.raise 0x3602 t 0, { r with waited := true })
        match phraseInputs p t c (phraseIns (p.tile t).pd r.desc) (p.tile t).vec with
        | none =>
          let u := report r p
          u.1.setVec t { (p.tile t).vec with phrase := some u.2 }
        | some (ins, v, c') =>
          let u := if c < c' then report r p else (p, r)
          let q := (u.1.bump64 (p.tileCounter O.vectorCounters 3 t) (c' - c)).bump64 (p.tileCounter O.vectorCounters 0 t) s
          let b := phraseBanks q t c'
          let q := b.1.setVec t v
          let w := phraseIteration q t { u.2 with delay := r.delay + (c' + b.2 - c) } ins (c' + b.2)
          phraseAdvance t n ((w.1.setVec t { (w.1.tile t).vec with phrase := some w.2 }).drainRows t c')

/-- Advance tile t's phrase as far as it can go. -/
def Pkg.runPhrase (p : Pkg) (t : Nat) : Pkg :=
  match (p.tile t).vec.phrase with
  | none => p
  | some r => phraseAdvance t (r.count - r.iter) p

/-- R122 step 1: a phrase starts at cycle c. 0 stages or 0 iterations do nothing (R109, R119). -/
def runVphr (p : Pkg) (a : VPhrForm) (c : Nat) : Pkg :=
  let t := a.t.val
  let ti := p.tile t
  let d := a.phrase.val
  if a.count = 0 ∨ phraseStages ti.pd d = 0 then p
  else
    let regs := phraseRegs ti.pd d
    let masks := phraseMasks ti.pd d
    let run : PhraseRun :=
      { desc := d
        count := a.count.toNat
        iter := 0
        regs := regs.foldl (fun m r => m.put (VVal.const 0) r (ti.vec.read r)) []
        masks := masks.foldl (fun m k => m.put 0 k (ti.vec.mask k)) []
        kept := []
        bundle := ti.bundleIndex
        issue := c
        delay := 0
        met := false
        waited := false }
    let v := regs.foldl VecEng.fix ti.vec
    (p.setVec t { v with phrase := some run }).runPhrase t

end Sys2Proof.Machine
end

