-- ==== Sys2Proof/Machine/VectorSlot.lean ====
section
/-! DEFINITION. Machine/VectorSlot.lean: the commands of the vector slot: issue and interlocks (R118), the load-time
checks of each form (R109, R128), and the events that release a held instruction or end a phrase. -/
namespace Sys2Proof.Machine

/-- What each vector instruction does once it issues, at cycle c (R110). -/
def vRun (p : Pkg) (c : Nat) : Instr → Pkg
  | .vadd a => vLanes p a c 2 (fun x y _ => fAdd x y) 4 true
  | .vsub a => vLanes p a c 2 (fun x y _ => fSub x y) 4 true
  | .vmul a => vLanes p a c 2 (fun x y _ => fMul x y) 4 true
  | .vfma a => vLanes p a c 3 fFma 4 true
  | .vmax a => vLanes p a c 2 (fun x y _ => vMax x y) 4 true
  | .vmin a => vLanes p a c 2 (fun x y _ => vMin x y) 4 true
  | .vabs a => vLanes p a c 1 (fun x _ _ => vAbs x) 4 true
  | .vneg a => vLanes p a c 1 (fun x _ _ => vNeg x) 4 true
  | .vcmp a => runVcmp p a c
  | .vsel a => runVsel p a c
  | .vrcp a => vLanes p a c 1 (fun x _ _ => special 0 x) 12 true
  | .vsqrt a => vLanes p a c 1 (fun x _ _ => special 1 x) 12 true
  | .vrsq a => vLanes p a c 1 (fun x _ _ => special 2 x) 12 true
  | .vexp2 a => vLanes p a c 1 (fun x _ _ => special 3 x) 12 true
  | .vlog2 a => vLanes p a c 1 (fun x _ _ => special 4 x) 12 true
  | .vexp a => vLanes p a c 1 (fun x _ _ => special 5 x) 16 true
  | .vtanh a => vLanes p a c 1 (fun x _ _ => special 6 x) 16 true
  | .vsigm a => vLanes p a c 1 (fun x _ _ => special 7 x) 16 true
  | .vsinp a => vLanes p a c 1 (fun x _ _ => special 8 x) 16 true
  | .vcosp a => vLanes p a c 1 (fun x _ _ => special 9 x) 16 true
  | .viadd a => vLanes p a c 2 (fun x y _ => x + y) 2 false
  | .vand a => vLanes p a c 2 (fun x y _ => x &&& y) 2 false
  | .vor a => vLanes p a c 2 (fun x y _ => x ||| y) 2 false
  | .vxor a => vLanes p a c 2 (fun x y _ => x ^^^ y) 2 false
  | .vshl a => vLanes p a c 2 (fun x y _ => x <<< (y.toNat % 32)) 2 false
  | .vshr a => vLanes p a c 2 (fun x y _ => x >>> (y.toNat % 32)) 2 false
  | .vcvti a => vLanes p a c 1 (fun x _ _ => vCvtI x) 4 false
  | .vcvtf a => vLanes p a c 1 (fun x _ _ => vCvtF x) 4 true
  | .vperm a => runVperm p a c
  | .vmand a => vMasks p a c fun x y => x &&& y
  | .vmor a => vMasks p a c fun x y => x ||| y
  | .vmnot a => vMasks p a c fun x _ => ~~~x
  | .vld a => runVld p a c
  | .vst a => runVst p a c
  | .vnst a => runVnst p a c
  | .vldq a => runVldq p a c
  | .vrst a => runVrst p a c
  | .vred a => runVred p a c
  | .vrget a => runVrget p a c
  | .vphr a => runVphr p a c
  | .vflg a => runVflg p a c
  | _ => p

/-- An instruction of tile t issues at cycle c: a busy cycle of the vector slot, and its effect. -/
def issueV (p : Pkg) (i : Instr) (t c : Nat) : Pkg :=
  let q := vRun (p.bump64 (p.tileCounter O.vectorCounters 0 t) 1) c i
  if (q.tile t).vec.bundle.isSome then q.setVec t { (q.tile t).vec with bundle := none } else q

/-- What a VPHR reads at its issue (R118, R122): the registers and masks that its descriptor names; nothing where it is a no-op. -/
def vphrReads (ti : Tile) : Instr → List Nat
  | .vphr a =>
    if a.count = 0 ∨ phraseStages ti.pd a.phrase.val = 0 then []
    else phraseRegs ti.pd a.phrase.val ++ (phraseMasks ti.pd a.phrase.val).map fun k => 32 + k
  | _ => []

/-- R118: whether an instruction of tile ti must be held at cycle c. -/
def vMustHold (ti : Tile) (c : Nat) (i : Instr) : Bool :=
  vInterlocked ti.vec c i || (vphrReads ti i).any fun k => decide (c < ti.vec.ready.at 0 k)

/-- R118: an instruction that an interlock meets is held with event 0x3601; another issues. While the bundle is held, no slot of
it issues (R133). -/
def slotV (p : Pkg) (i : Instr) (t c : Nat) : Pkg :=
  let p := p.drainRows t c
  let v := (p.tile t).vec
  if (p.tile t).free = false then p
  else if vMustHold (p.tile t) c i then (p.setVec t { v with held := some (.instr i c) }).raise 0x3601 t 0
  else issueV p i t c

/-! ## Load-time checks (R109, R128) -/

/-- The register form: the special functions name va only (R110), so their vb and vc are 0; every other opcode of the form names
vb and vc, used or not (R109). -/
def regFormOk (a : VRegForm) (vaOnly : Bool) : Bool := !vaOnly || decide (a.vb = 0 ∧ a.vc = 0)

/-- The memory form: rm is 0, or for VNST 0 or 1. -/
def memFormOk (a : VMemForm) (narrow : Bool) : Bool := decide (a.rm.toNat ≤ if narrow then 1 else 0)

/-- The limits of a VLD, VST or VNST (R128). -/
def memLimits (p : Pkg) (a : VMemForm) (bytes : VDesc → Nat) (narrow load : Bool) : Bool :=
  let ti := p.tile a.t.val
  let x := vdesc ti.vd a.vdesc.val
  let q := ti.vec.ptr a.vdesc.val
  let g := ptrScale x q 0
  let fine := match p.scaleWord0 x.tensor with
    | some w => carriesFine x.fmt w
    | none => false
  vdescOk ti.vd a.vdesc.val && inSramI (ptrAddr x q 0) (bytes x) &&
    (!(narrow || load) || p.descFits x narrow) &&
    (!load || !fine || (scaleIn x g && scaleIn x (g + 1))) &&
    (!narrow || (decide (g % 4 = 0 ∧ a.v.val % 2 = 0) && (!fine || scaleIn x g)))

def execV2 (m : String) (a : VRegForm) (i : Instr) (vaOnly : Bool) (s : State) : Host.Outcome State Fault Refusal :=
  s.slot m (regFormOk a vaOnly) true fun p => slotV p i a.t.val a.cyc

/-! ## The commands of the vector slot -/

/-- R110: nothing. The vector slot of the bundle has passed. -/
def execVnop (t : TileNo) (s : State) : Host.Outcome State Fault Refusal :=
  s.on .data fun p =>
    if (p.tile t.val).free && (p.tile t.val).vec.bundle.isSome then p.setVec t.val { (p.tile t.val).vec with bundle := none } else p

def execVadd (a : VRegForm) (s : State) : Host.Outcome State Fault Refusal := execV2 "VADD" a (.vadd a) false s
def execVsub (a : VRegForm) (s : State) : Host.Outcome State Fault Refusal := execV2 "VSUB" a (.vsub a) false s
def execVmul (a : VRegForm) (s : State) : Host.Outcome State Fault Refusal := execV2 "VMUL" a (.vmul a) false s
def execVfma (a : VRegForm) (s : State) : Host.Outcome State Fault Refusal := execV2 "VFMA" a (.vfma a) false s
def execVmax (a : VRegForm) (s : State) : Host.Outcome State Fault Refusal := execV2 "VMAX" a (.vmax a) false s
def execVmin (a : VRegForm) (s : State) : Host.Outcome State Fault Refusal := execV2 "VMIN" a (.vmin a) false s
def execVabs (a : VRegForm) (s : State) : Host.Outcome State Fault Refusal := execV2 "VABS" a (.vabs a) false s
def execVneg (a : VRegForm) (s : State) : Host.Outcome State Fault Refusal := execV2 "VNEG" a (.vneg a) false s

/-- R109, R111: cond 5 to 7 and md = 0 are reserved. -/
def execVcmp (a : VCmpForm) (s : State) : Host.Outcome State Fault Refusal :=
  s.slot "VCMP" (decide (a.cond.toNat ≤ 4 ∧ a.md ≠ 0)) true fun p => slotV p (.vcmp a) a.t.val a.cyc

/-- R110: mz must be 0. -/
def execVsel (a : VRegForm) (s : State) : Host.Outcome State Fault Refusal :=
  s.slot "VSEL" (!a.mz) true fun p => slotV p (.vsel a) a.t.val a.cyc

def execVrcp (a : VRegForm) (s : State) : Host.Outcome State Fault Refusal := execV2 "VRCP" a (.vrcp a) true s
def execVsqrt (a : VRegForm) (s : State) : Host.Outcome State Fault Refusal := execV2 "VSQRT" a (.vsqrt a) true s
def execVrsq (a : VRegForm) (s : State) : Host.Outcome State Fault Refusal := execV2 "VRSQ" a (.vrsq a) true s
def execVexp2 (a : VRegForm) (s : State) : Host.Outcome State Fault Refusal := execV2 "VEXP2" a (.vexp2 a) true s
def execVlog2 (a : VRegForm) (s : State) : Host.Outcome State Fault Refusal := execV2 "VLOG2" a (.vlog2 a) true s
def execVexp (a : VRegForm) (s : State) : Host.Outcome State Fault Refusal := execV2 "VEXP" a (.vexp a) true s
def execVtanh (a : VRegForm) (s : State) : Host.Outcome State Fault Refusal := execV2 "VTANH" a (.vtanh a) true s
def execVsigm (a : VRegForm) (s : State) : Host.Outcome State Fault Refusal := execV2 "VSIGM" a (.vsigm a) true s
def execVsinp (a : VRegForm) (s : State) : Host.Outcome State Fault Refusal := execV2 "VSINP" a (.vsinp a) true s
def execVcosp (a : VRegForm) (s : State) : Host.Outcome State Fault Refusal := execV2 "VCOSP" a (.vcosp a) true s
def execViadd (a : VRegForm) (s : State) : Host.Outcome State Fault Refusal := execV2 "VIADD" a (.viadd a) false s
def execVand (a : VRegForm) (s : State) : Host.Outcome State Fault Refusal := execV2 "VAND" a (.vand a) false s
def execVor (a : VRegForm) (s : State) : Host.Outcome State Fault Refusal := execV2 "VOR" a (.vor a) false s
def execVxor (a : VRegForm) (s : State) : Host.Outcome State Fault Refusal := execV2 "VXOR" a (.vxor a) false s
def execVshl (a : VRegForm) (s : State) : Host.Outcome State Fault Refusal := execV2 "VSHL" a (.vshl a) false s
def execVshr (a : VRegForm) (s : State) : Host.Outcome State Fault Refusal := execV2 "VSHR" a (.vshr a) false s
def execVcvti (a : VRegForm) (s : State) : Host.Outcome State Fault Refusal := execV2 "VCVTI" a (.vcvti a) false s
def execVcvtf (a : VRegForm) (s : State) : Host.Outcome State Fault Refusal := execV2 "VCVTF" a (.vcvtf a) false s
def execVperm (a : VRegForm) (s : State) : Host.Outcome State Fault Refusal := execV2 "VPERM" a (.vperm a) false s

/-- R109: md must name m1 to m7. -/
def execVmand (a : VMaskForm) (s : State) : Host.Outcome State Fault Refusal :=
  s.slot "VMAND" (decide (a.md ≠ 0)) true fun p => slotV p (.vmand a) a.t.val a.cyc

def execVmor (a : VMaskForm) (s : State) : Host.Outcome State Fault Refusal :=
  s.slot "VMOR" (decide (a.md ≠ 0)) true fun p => slotV p (.vmor a) a.t.val a.cyc

def execVmnot (a : VMaskForm) (s : State) : Host.Outcome State Fault Refusal :=
  s.slot "VMNOT" (decide (a.md ≠ 0)) true fun p => slotV p (.vmnot a) a.t.val a.cyc

def execVld (a : VMemForm) (s : State) : Host.Outcome State Fault Refusal :=
  s.slot "VLD" (memFormOk a false) (memLimits s.pkg a (fun x => 8 * fmtWidth x.fmt) false true) fun p =>
    slotV p (.vld a) a.t.val a.cyc

def execVst (a : VMemForm) (s : State) : Host.Outcome State Fault Refusal :=
  s.slot "VST" (memFormOk a false) (memLimits s.pkg a (fun _ => 256) false false) fun p => slotV p (.vst a) a.t.val a.cyc

def execVnst (a : VMemForm) (s : State) : Host.Outcome State Fault Refusal :=
  s.slot "VNST" (memFormOk a true) (memLimits s.pkg a (fun x => packedBytes x.fmt 128) true false) fun p =>
    slotV p (.vnst a) a.t.val a.cyc

/-- R109, R110: VLDQ names vd, msk and mz only. -/
def execVldq (a : VMemForm) (s : State) : Host.Outcome State Fault Refusal :=
  s.slot "VLDQ" (memFormOk a false && decide (a.vdesc = 0)) true fun p => slotV p (.vldq a) a.t.val a.cyc

/-- R109, R110: VRST names vdesc only. -/
def execVrst (a : VMemForm) (s : State) : Host.Outcome State Fault Refusal :=
  s.slot "VRST" (memFormOk a false && decide (a.v = 0 ∧ a.msk = 0) && !a.mz) true fun p =>
    slotV p (.vrst a) a.t.val a.cyc

/-- R124, R128: a context keeps its rop until a VRGET. -/
def execVred (a : VRedForm) (s : State) : Host.Outcome State Fault Refusal :=
  s.slot "VRED" true
    (match ((s.pkg.tile a.t.val).vec.context a.rc.val).rop with
      | none => true
      | some r => decide (r = a.rop.toNat)) fun p => slotV p (.vred a) a.t.val a.cyc

def execVrget (a : VFoldForm) (s : State) : Host.Outcome State Fault Refusal :=
  s.on .data fun p => slotV p (.vrget a) a.t.val a.cyc

/-- R109, R119, R128: the count 0xFFFF and a phrase that breaks a check are rejected. -/
def execVphr (a : VPhrForm) (s : State) : Host.Outcome State Fault Refusal :=
  s.slot "VPHR" (decide (a.count ≠ 0xFFFF) && phraseOk (s.pkg.tile a.t.val).pd a.phrase.val)
    (phraseLimits s.pkg a.t.val a.phrase.val a.count.toNat) fun p =>
      slotV p (.vphr a) a.t.val a.cyc

/-- R122: the phrase's last store has landed. -/
def execPhraseEnd (t : TileNo) (cyc : Nat) (s : State) : Host.Outcome State Fault Refusal :=
  s.on .data fun p =>
    let ti := p.tile t.val
    match ti.vec.phrase with
    | none => p
    | some r =>
      if r.iter < r.count ∨ cyc < phraseEnd ti r then p
      else
        (p.setVec t.val { ti.vec with phrase := none }).bump64 (p.tileCounter O.vectorCounters 1 t.val)
          (phraseEnd ti r - r.issue)

def execVflg (a : VFlgForm) (s : State) : Host.Outcome State Fault Refusal :=
  s.on .data fun p => slotV p (.vflg a) a.t.val a.cyc

/-- R118: a held instruction whose interlock has ended issues; the cycles it was held are counted. -/
def execVectorInterlockRelease (t : TileNo) (cyc : Nat) (s : State) : Host.Outcome State Fault Refusal :=
  s.on .data fun p =>
    let v := (p.tile t.val).vec
    match v.held with
    | some (.instr i since) =>
      if cyc < since ∨ vMustHold (p.tile t.val) cyc i then p
      else
        issueV ((p.setVec t.val { v with held := none }).bump64 (p.tileCounter O.vectorCounters 2 t.val) (cyc - since))
          i t.val cyc
    | _ => p

/-- R117: rows of a held MDV that find room are pushed; then a held VLDQ, or a waiting phrase, takes what has
arrived. The cycles held are counted. -/
def execDrainQueueHoldRelease (t : TileNo) (cyc : Nat) (s : State) : Host.Outcome State Fault Refusal :=
  s.on .data fun p =>
    let p := p.drainRows t.val cyc
    let v := (p.tile t.val).vec
    let p :=
      match v.held with
      | some (.drain i since) =>
        if cyc < since ∨ (v.pop cyc).isNone then p
        else vRun ((p.setVec t.val { v with held := none }).bump64 (p.tileCounter O.vectorCounters 3 t.val) (cyc - since)) cyc i
      | _ => p
    p.runPhrase t.val

end Sys2Proof.Machine
end

