-- ==== Sys2Proof/Machine/ImageSlots.lean ====
section
/-! DEFINITION. Machine/ImageSlots.lean: what the loader finds in the slots of a tile's clauses (R42, R70, R98, R128, R136 to
R138, R163): each bundle's own fields, and the clauses followed in issue order with their pointers, registers and contexts. -/
namespace Sys2Proof.Machine

/-! ## The order in which bundles issue (R136) -/

/-- An open loop while a clause is followed: its counter, its iterations, the bundles issued before its body. -/
structure OpenLoop where
  lc : Nat
  iterations : Nat
  before : List Nat
  deriving DecidableEq, Repr

/-- The bundles of the clause from bundle b in issue order, each loop with `times` of its iterations; none where R136 is
broken or no CEND is found. -/
def clauseTrace (ti : Tile) (times : Nat → Nat) : Nat → Nat → List OpenLoop → List Nat → Option (List Nat)
  | 0, _, _, _ => none
  | fuel + 1, b, open', cur =>
    if ti.nBundles ≤ b then none
    else
      let w := ti.control b
      let here := cur ++ [b]
      if bits w 31 27 = 6 then (if open'.isEmpty then some here else none)
      else if bits w 31 27 = 3 then
        let lc := bits w 26 25
        if open'.any fun l => decide (l.lc = lc) then none
        else clauseTrace ti times fuel (b + 1) (⟨lc, bits w 15 0, here⟩ :: open') []
      else if bits w 31 27 = 4 then
        match open' with
        | [] => none
        | l :: rest =>
          if l.lc ≠ bits w 26 25 then none
          else clauseTrace ti times fuel (b + 1) rest (l.before ++ (List.replicate (times l.iterations) here).flatten)
      else clauseTrace ti times fuel (b + 1) open' here

/-- The issue order of the clause from bundle b. -/
def issueOrder (ti : Tile) (b : Nat) : Option (List Nat) := clauseTrace ti (fun n => n) (ti.nBundles + 1) b [] []

/-- R136: the CWAIT targets of a clause, each loop once, do not fall. -/
def cwaitsOk (ti : Tile) (b : Nat) : Bool :=
  match clauseTrace ti (fun n => min n 1) (ti.nBundles + 1) b [] [] with
  | none => false
  | some l =>
    let ts := (l.filter fun i => decide (bits (ti.control i) 31 27 = 1)).map fun i => bits (ti.control i) 26 0
    (ts.zip (ts.drop 1)).all fun e => decide (e.1 ≤ e.2)

/-! ## Slots as fields (R40, R109, R135, R137) -/

/-- Slot k of bundle b: 0 matrix, 1 vector, 2 move, 3 control. -/
def Tile.slotWord (ti : Tile) (b k : Nat) : Nat :=
  bits ((readWord (ti.store.at zeroWord b)).getD 0).toNat (32 * k + 31) (32 * k)

/-- R131, R133: the four instructions of bundle b of tile t's clause store, as issued at cycle c: what the issued slots of that bundle
are (log 13). -/
def Pkg.bundleAt (p : Pkg) (t : TileNo) (b c : Nat) : Option (List Instr) :=
  (readWord ((p.tile t.val).store.at zeroWord b)).bind (decodeBundle t c)

/-- The matrix instructions that access the array. -/
def mopOf : Option Instr → Option (MOp × MSlot)
  | some (.mlw a) => some (.mlw, a)
  | some (.mws a) => some (.mws, a)
  | some (.mwt a) => some (.mwt, a)
  | some (.mdr a) => some (.mdr, a)
  | some (.mdv a) => some (.mdv, a)
  | some (.mclr a) => some (.mclr, a)
  | _ => none

/-! ## A bundle's own fields -/

/-- A reason, where a check fails. -/
def failing (ok : Bool) (r : Nat) : List Nat := if ok then [] else [r]

/-- R70: the tensor that a matrix descriptor names is in the scale table, in the descriptor's format. -/
def tensorFits (p : Pkg) (x : MDesc) : Bool :=
  decide (x.tensor < p.reg O.scaleTableEntries) && decide ((p.scaleWord0 x.tensor).map (fun v => bits v 23 20) = some x.fmt)

/-- R42: reserved encodings, but those of R98 (reason 0x08); R98 (reason 0x0A); R70 for the descriptor that the slot names (reason
0x09). -/
def matrixFields (p : Pkg) (t w : Nat) : List Nat :=
  let ti := p.tile t
  let op := bits w 31 27
  let a := mslotOf (Fin.ofNat 192 t) 0 w
  let x := mdesc ti.md a.desc.val
  let plain := !a.acc && !a.tr && decide (a.part = 0)
  if 7 < op then [8]
  else if op = 0 then failing (plain && decide (a.count ≠ 0xFFFF)) 8
  else
    failing (decide (if op = 7 then a.count = 0 else a.count ≠ 0xFFFF) &&
      (if op = 1 then !a.acc && decide (a.part ≠ 3 ∧ x.outTensor = 0)
       else if op ≤ 3 then !a.tr && decide (a.part ≠ 3) else plain)) 8 ++
    (if op = 1 then failing (loadComboOk { x with outTensor := 0 } a.part.toNat) 10
     else if op ≤ 3 then failing (comboOk x a.part.toNat) 10 else []) ++
    failing (tensorFits p x) 9

/-- The values that a vector slot's fields must have: md names m1 to m7, cond is 0 to 4, VSEL has mz = 0, rm is 0 but in a VNST, whose
pair of registers is even, and a count is not 0xFFFF (R109 to R111, R116). -/
def vectorValues : Instr → Bool
  | .vcmp a => decide (a.md ≠ 0 ∧ a.cond.toNat ≤ 4)
  | .vsel a => !a.mz
  | .vmand a => decide (a.md ≠ 0)
  | .vmor a => decide (a.md ≠ 0)
  | .vmnot a => decide (a.md ≠ 0)
  | .vld a => decide (a.rm = 0)
  | .vst a => decide (a.rm = 0)
  | .vnst a => decide (a.rm.toNat ≤ 1 ∧ a.v.val % 2 = 0)
  | .vldq a => decide (a.rm = 0)
  | .vrst a => decide (a.rm = 0)
  | .vphr a => decide (a.count ≠ 0xFFFF)
  | _ => true

/-- R109, R110, R128: a vector slot spells an instruction, with values that it may have (reason 0x0B). -/
def vectorFields (w : Nat) : Bool := (decodeVectorSlot 0 0 w).any vectorValues

/-- R70 for the conversion sites of a vector slot, a VNST or the narrow outputs of a phrase (reason 0x09). -/
def siteFields (p : Pkg) (t w : Nat) : Bool :=
  let ti := p.tile t
  let op := bits w 31 26
  let sites := if op = 0x23 then [bits w 20 15]
    else if op = 0x28 then ((phraseTensors ti (bits w 25 21)).filter (·.2)).map (·.1) else []
  sites.all fun d => p.siteFits (vdesc ti.vd d) true

/-- R135, R137, R138, R163: the fields of the control and move slots (reason 0x0C). -/
def controlFields (w : Nat) : Bool :=
  match decodeControlSlot 0 0 w with
  | some (.carr _ _ _ n) => decide (n ≠ 0xFFFF)
  | some (.cloop _ _ n) => decide (n ≠ 0xFFFF)
  | some (.cvote _ _ _ src) => decide (src ≠ 0)
  | some _ => true
  | none => false

def moveFields (ti : Tile) (w : Nat) : Bool :=
  let ok (a : XSlot) (send bucket : Bool) : Bool := decide (a.count ≠ 0xFFFF) && xfieldsOk (xdesc ti.xd a.mdesc.val) send bucket
  match decodeMoveSlot 0 w with
  | some (.xsend a) => ok a true false
  | some (.xget a) => ok a false false
  | some (.xput a) => ok a false false
  | some (.xagr a) => ok a false true && decide ((xdesc ti.xd a.mdesc.val).rwin = 0)
  | some (.xdsp a) => ok a false true
  | some _ => true
  | none => false

/-- The reasons that the fields of bundle b of tile t give. -/
def bundleFields (p : Pkg) (t b : Nat) : List Nat :=
  let ti := p.tile t
  matrixFields p t (ti.slotWord b 0) ++ failing (siteFields p t (ti.slotWord b 1)) 9 ++
    failing (vectorFields (ti.slotWord b 1)) 11 ++
    failing (moveFields ti (ti.slotWord b 2) && controlFields (ti.slotWord b 3)) 12

/-- The reasons that the entries of a tile's four descriptor tables give, named by a slot or not (R42, R43, R98, R113, R119,
R128, R138). -/
def tableFields (ti : Tile) : List Nat :=
  let r := List.range 64
  failing (r.all (mdescOk ti.md)) 8 ++ failing (r.all fun d => modeOk (mdesc ti.md d)) 10 ++
    failing (r.all (vdescOk ti.vd) && (List.range 32).all (phraseOk ti.pd)) 11 ++ failing (r.all (xdescOk ti.xd)) 12

/-! ## The clauses in issue order -/

/-- The flits that an XAGR sends to a bucket, or an XDSP to a table: its number, the tile, the step, and how many. -/
structure Sent where
  num : Nat
  tile : Nat
  step : Nat
  flits : Nat
  deriving DecidableEq, Repr

/-- The flits of a list. -/
def flitSum (l : List Sent) : Nat := (l.map fun e => e.flits).sum

/-- What following a tile's clauses has found: the package with the pointers, registers and contexts so far; the reasons
met; what XAGRs and XDSPs send; the (die, table) that any XDSP slot names; commit-sentence XPUTs as (address, bytes); and the
steps whose CVOTEs were met. -/
structure Walk where
  pkg : Pkg
  fails : List Nat
  xagr : List Sent
  xdsp : List Sent
  tables : List (Nat × Nat)
  puts : List (Nat × Nat)
  votes : List Nat
  deriving DecidableEq, Repr

def Walk.fail (w : Walk) (ok : Bool) (r : Nat) : Walk := if ok then w else { w with fails := r :: w.fails }

/-- R42: a matrix slot's limits, and what an MLW leaves in its register. -/
def Walk.matrix (x : Walk) (t w : Nat) : Walk :=
  match mopOf (decodeMatrixSlot (Fin.ofNat 192 t) 0 w) with
  | none => x
  | some (op, a) =>
    let d := mdesc (x.pkg.tile t).md a.desc.val
    let y := x.fail (limitsM x.pkg op a) 8
    if op = .mlw ∧ a.count ≠ 0 ∧ d.nCols ≠ 0 then
      let m := (x.pkg.tile t).mx
      let r : WReg := { WReg.reset with
        loaded := true, fmt := d.fmt, rows := a.count.toNat, tensor := d.tensor, part := a.part
        passes := if d.mp = 0 then 0 else d.mp + 1 }
      { y with pkg := x.pkg.setMx t (if a.wsel then { m with w1 := r } else { m with w0 := r }) }
    else y

/-- The pointers of vector memory descriptor d after n accesses. -/
def advanceBy (v : VecEng) (d : Nat) (x : VDesc) (n : Nat) : VecEng :=
  let q := v.ptr d
  let r : VPtr := ⟨q.addr + n * x.stride, q.scale + n * x.scaleStep, (q.elem + n * x.elemStep) % 2 ^ 46⟩
  { v with ptrs := v.ptrs.put VPtr.reset d r }

/-- The engine after a phrase of `count` iterations: its pointers, and the rop of each context it taps. -/
def afterPhrase (ti : Tile) (d count : Nat) : VecEng :=
  let v := (phraseIns ti.pd d).foldl (fun v i =>
    if i.on && !i.dq then advanceBy v i.desc (vdesc ti.vd i.desc) count else v) ti.vec
  let v := (phraseOuts ti.pd d).foldl (fun v o =>
    if o.on then advanceBy v o.desc (vdesc ti.vd o.desc) (if o.narrow then count / 2 else count) else v) v
  (phraseStageList ti.pd d).foldl (fun v s =>
    if s.tap then { v with ctx := v.ctx.put Ctx.reset s.rc { v.context s.rc with rop := some s.trop } } else v) v

/-- R128: a vector slot's limits, and what it leaves in pointers and contexts. -/
def Walk.vector (x : Walk) (t w : Nat) : Walk :=
  let p := x.pkg
  let ti := p.tile t
  let v := ti.vec
  let op := bits w 31 26
  let a := vmemOf (Fin.ofNat 192 t) 0 w
  let d := a.vdesc.val
  let next (x : Walk) (v : VecEng) : Walk := { x with pkg := x.pkg.setVec t v }
  if op = 0x21 then
    next (x.fail (memLimits p a (fun x => 8 * fmtWidth x.fmt) false true) 11) (v.advance d (vdesc ti.vd d))
  else if op = 0x22 then next (x.fail (memLimits p a (fun _ => 256) false false) 11) (v.advance d (vdesc ti.vd d))
  else if op = 0x23 then
    next (x.fail (memLimits p a (fun x => packedBytes x.fmt 128) true false) 11) (v.advance d (vdesc ti.vd d))
  else if op = 0x25 then next x { v with ptrs := v.ptrs.put VPtr.reset d VPtr.reset }
  else if op = 0x26 then
    let rc := bits w 25 24
    let rop := bits w 23 22
    next (x.fail (match (v.context rc).rop with
      | none => true
      | some r => decide (r = rop)) 11) { v with ctx := v.ctx.put Ctx.reset rc { v.context rc with rop := some rop } }
  else if op = 0x27 then next x { v with ctx := v.ctx.put Ctx.reset (bits w 20 19) Ctx.reset }
  else if op = 0x28 then
    let f := bits w 25 21
    let n := bits w 20 5
    let x := x.fail (phraseLimits p t f n) 11
    if n = 0 then x else next x (afterPhrase ti f n)
  else x

/-- The ranges of a move slot, and what it leaves (R138). -/
def Walk.move (x : Walk) (t k w : Nat) (commit : Bool) : Walk :=
  let p := x.pkg
  let ti := p.tile t
  let op := bits w 31 27
  let d := bits w 26 21
  let n := bits w 15 0
  let q := xdesc ti.xd d
  if op = 0 ∨ op = 4 ∨ n = 0 then x
  else
    let x := x.fail (inSramI (ti.xlocal d) (64 * n) &&
      (if op = 1 then decide (q.peerTile < 192) && inSramI (ti.xremote d) (64 * n)
       else if op ≤ 3 then inMemI (ti.xmemory d) (64 * n) else true)) 12
    let x := if op = 3 ∧ commit then { x with puts := ((ti.xmemory d).toNat, 64 * n) :: x.puts } else x
    let x := if op = 5 then { x with xagr := ⟨q.bucket, t, k, n⟩ :: x.xagr }
      else if op = 6 then { x with xdsp := ⟨q.bucket, t, k, n⟩ :: x.xdsp } else x
    { x with pkg := p.xadvance t d }

/-- One bundle that issues in step k, in its commit sentence or not. -/
def Walk.bundle (x : Walk) (t k : Nat) (commit : Bool) (b : Nat) : Walk :=
  let ti := x.pkg.tile t
  let x := ((x.matrix t (ti.slotWord b 0)).vector t (ti.slotWord b 1)).move t k (ti.slotWord b 2) commit
  if bits (ti.slotWord b 3) 31 27 = 5 then { x.fail (!commit) 12 with votes := k :: x.votes } else x

/-- The clause of tile t for an entry of the step program. -/
def Walk.entry (x : Walk) (t k : Nat) (commit : Bool) (sentence : Nat) : Walk :=
  let ti := x.pkg.tile t
  match ti.clauses.find? fun e => decide (e.1 = sentence) with
  | none => x
  | some e => ((issueOrder ti e.2).getD []).foldl (fun x b => x.bundle t k commit b) x

/-- The entries of one cycle in order: step, whether the entry is its step's commit entry, sentence (R163). -/
def cycleEntries (prog : List ProgEntry) (steps : Nat) : List (Nat × Bool × Nat) :=
  let i : List Nat := (prog.filter (·.st)).map (·.offset)
  let stepOf (o : Nat) : Nat := (i.filter fun s => decide (s ≤ o)).length - 1
  let numbered : List (Nat × ProgEntry) := (List.range prog.length).zip prog
  (List.range steps).flatMap fun k =>
    let es := numbered.filter fun e => decide (stepOf e.2.offset = k)
    let last : Option Nat := ((es.filter fun e => !e.2.per).getLast?).map (·.1)
    es.map fun e => (k, decide (some e.1 = last), e.2.sentence)

/-- Tile t through one cycle of the step program. -/
def Walk.cycle (x : Walk) (t : Nat) (es : List (Nat × Bool × Nat)) : Walk :=
  es.foldl (fun x e => x.entry t e.1 e.2.1 e.2.2) x

/-- A slot of the tile with a move opcode from lo to hi names descriptor d. -/
def Tile.moveNames (ti : Tile) (d lo hi : Nat) : Bool :=
  (List.range ti.nBundles).any fun b =>
    let w := ti.slotWord b 2
    decide (lo ≤ bits w 31 27 ∧ bits w 31 27 ≤ hi ∧ bits w 26 21 = d)

/-- Descriptor d's fine codes are read or written by a slot of tile t: a VLD, a VNST, a phrase input or a narrow output names it and
its tensor carries fine scales. -/
def readsCodes (p : Pkg) (t d : Nat) : Bool :=
  let ti := p.tile t
  let x := vdesc ti.vd d
  ((p.scaleWord0 x.tensor).map (carriesFine x.fmt)).getD false && (List.range ti.nBundles).any fun b =>
    let w := ti.slotWord b 1
    let op := bits w 31 26
    (decide (op = 0x21 ∨ op = 0x23) && decide (bits w 20 15 = d)) ||
      (decide (op = 0x28) && (phraseTensors ti (bits w 25 21)).any fun e => decide (e.1 = d))

/-- R114, R128, R138: the pointers that the accesses of a cycle use stand after a second cycle as after the first: else some later cycle
leaves tile SRAM or package memory (log 32). -/
def steady (p q : Pkg) (t : Nat) : Bool × Bool :=
  let a := p.tile t
  let b := q.tile t
  ((List.range 64).all (fun d => decide ((a.vec.ptr d).addr = (b.vec.ptr d).addr) &&
      (!readsCodes p t d || decide ((a.vec.ptr d).scale = (b.vec.ptr d).scale))),
   (List.range 64).all fun d => decide (a.xlocal d = b.xlocal d) &&
      (!a.moveNames d 1 1 || decide (a.xremote d = b.xremote d)) && (!a.moveNames d 2 3 || decide (a.xmemory d = b.xmemory d)))

/-- R163: no bundle of the clause from bundle b holds a CVOTE, issued or not. -/
def noVotes (ti : Tile) (b : Nat) : Bool :=
  ((clauseTrace ti (fun _ => 1) (ti.nBundles + 1) b [] []).getD []).all fun n => decide (bits (ti.slotWord n 3) 31 27 ≠ 5)

/-- R211: the (die, table) that the XDSP slots of tile t name. -/
def tablesNamed (ti : Tile) (t : Nat) : List (Nat × Nat) :=
  (List.range ti.nBundles).filterMap fun b =>
    let w := ti.slotWord b 2
    if bits w 31 27 = 6 then some (tileDie t, (xdesc ti.xd (bits w 26 21)).bucket) else none

/-- R42, R128, R136, R153: one tile: the fields of every bundle and of the descriptor tables, the shape of every clause, distinct
starts, and its clauses followed through two cycles (log 32); what it sends is that of the second. -/
def Walk.tile (x : Walk) (t : Nat) (prog : List ProgEntry) (steps : Nat) : Walk :=
  let ti := x.pkg.tile t
  let es := cycleEntries prog steps
  let fails := (List.range ti.nBundles).flatMap (bundleFields x.pkg t) ++ tableFields ti
  let shapes := ti.clauses.all fun c => (issueOrder ti c.2).isSome && cwaitsOk ti c.2
  let starts := (prog.filter fun e => ti.clauses.any fun c => decide (c.1 = e.sentence)).map fun (e : ProgEntry) => e.offset
  let last : List Nat := (es.filter (·.2.1)).map (·.2.2)
  let quiet := ti.clauses.all fun c => decide (c.1 ∉ last) || noVotes ti c.2
  let x := { x with tables := tablesNamed ti t ++ x.tables }
  let y := { x with fails := failing (shapes && quiet && decide starts.Nodup) 12 ++ fails ++ x.fails }
  let first := y.cycle t es
  let second := { first with xagr := x.xagr, xdsp := x.xdsp, puts := x.puts, votes := x.votes }.cycle t es
  let drift := steady first.pkg second.pkg t
  let second := (second.fail drift.1 11).fail drift.2 12
  let used : List Nat := es.map (·.2.2)
  (ti.clauses.filter fun c => decide (c.1 ∉ used)).foldl (fun z c =>
    let u := ((issueOrder ti c.2).getD []).foldl (fun z b => z.bundle t 0 false b) z
    { z with fails := u.fails }) { second with puts := first.puts ++ second.puts }

/-- Every tile of a section, on a package that holds it. -/
def walkTiles (p : Pkg) (prog : List ProgEntry) (steps : Nat) : Walk :=
  (List.range 192).foldl (fun x t => x.tile t prog steps) ⟨p, [], [], [], [], [], []⟩

end Sys2Proof.Machine
end

