-- ==== Sys2Proof/Machine/ImageCheck.lean ====
section
/-! DEFINITION. Machine/ImageCheck.lean: the checks of a LOAD in their fixed order (R156): tables and parts of a Syntax image
against one another and against the package (R65, R68 to R70, R144, R208, R226, R227, R296, R301, R336, R337). -/
namespace Sys2Proof.Machine

/-- Two ranges (start, length) have no byte in common. -/
def apart (a b : Nat × Nat) : Bool := decide (a.2 = 0 ∨ b.2 = 0 ∨ a.1 + a.2 ≤ b.1 ∨ b.1 + b.2 ≤ a.1)

/-- No two ranges of a list meet. -/
def allApart : List (Nat × Nat) → Bool
  | [] => true
  | a :: r => r.all (apart a) && allApart r

/-! ## The scale table (R65, R68 to R70) -/

def scaleEntryOk (b : List Byte) : Bool :=
  let w := fieldAt b 0 4
  let f := bits w 23 20
  decide (bits w 31 24 ≠ 0xFF ∧ f ≤ 8 ∧ bits w 17 13 ≤ 16 ∧ bits w 4 0 = 0) && (decide (f ≠ 8) || decide (bits w 31 24 = 0x7F)) &&
    (decide (f ≤ 5) || !bitOf w 18) && zeroAt b 8 8 && zeroAt b 48 16

def scaleTableOk (base : Nat) (b : List Byte) : Bool :=
  decide (b.length % 64 = 0 ∧ b.length / 64 ≤ 2 ^ 24 ∧ base % 64 = 0 ∧ regionOf base = .hbm) && inMem base b.length &&
    (recordsAt b 0 64 (b.length / 64)).all scaleEntryOk

/-! ## The agreement program (R184, R204, R205, R207, R208) -/

/-- The chunks of a bucket that its local input gives, or that its results bring: all, or the own part. -/
def ownChunks (c : ChanEnt) (b : BucketEnt) : List Nat := (List.range b.cpp).map fun i => c.rank * b.cpp + i
def allChunks (c : ChanEnt) (b : BucketEnt) : List Nat := List.range (c.nMembers * b.cpp)

/-- R205: the flits of a bucket's local input. -/
def inputFlits (c : ChanEnt) (b : BucketEnt) : Nat :=
  let cs := if c.op = 2 ∨ c.op = 4 then ownChunks c b else allChunks c b
  if b.nElem = 0 then 0
  else if b.fixedIn then 66 * cs.length
  else if c.op = 2 ∨ c.op = 4 then (cs.map fun k => ceilDiv (validOf b k * 4) 64).sum
  else ceilDiv (b.nElem * 4) 64

/-- The bytes from res_addr that a bucket's results take. -/
def resultBytes (c : ChanEnt) (b : BucketEnt) : Nat :=
  let cs := if c.op = 1 then ownChunks c b else allChunks c b
  if b.nElem = 0 then 0
  else if b.fixedOut then 4224 * cs.length
  else 4096 * (cs.length - 1) + 64 * ceilDiv (validOf b (cs.getLastD 0) * 4) 64

/-- What the XAGRs of a cycle send to bucket n. -/
def sentTo (x : List Sent) (n : Nat) : List Sent := x.filter fun e => decide (e.num = n)

/-- R184, R207, R208 for one bucket of a channel. -/
def bucketFits (c : ChanEnt) (b : BucketEnt) (nScale : Nat) (x : List Sent) : Bool :=
  let size := c.nMembers * b.cpp
  let mine := sentTo x b.bucket
  decide (b.bucket / 32768 = b2n c.engine ∧ b.scaleIndex + size ≤ nScale) &&
    (decide (b.nElem = 0) || decide ((size - 1) * 1024 < b.nElem ∧ b.nElem ≤ size * 1024)) &&
    !(decide (c.op = 4) && (b.upd || b.fixedIn || b.fixedOut)) && decide (b.resAddr + resultBytes c b ≤ tileSize) &&
    mine.all (fun e => decide (e.tile = b.srcTile)) && decide (flitSum mine = inputFlits c b)

/-- The die of a port is its engine's, and the ports of a channel are the two ends of one axis (R207, R208). -/
def channelPorts (c : ChanEnt) : Bool :=
  let on (p : Nat) : Bool := decide (p < 12) && decide (decide (8 ≤ p) = c.engine)
  on c.outPort && on c.inPort && decide (axisOf c.outPort = axisOf c.inPort ∧ c.outPort / 2 ≠ c.inPort / 2)

/-- R201, R208: an initial scale entry in range, its reserved bits 0. -/
def initialScaleOk (b : List Byte) : Bool :=
  let x := scaleEntOf (leNat b)
  decide (-200 ≤ x.scale ∧ x.scale ≤ 160 ∧ x.margin ≤ 4 ∧ x.quiet ≤ 63 ∧ -200 ≤ x.pScale ∧ x.pScale ≤ 160 ∧ x.pMargin ≤ 4 ∧
    x.pQuiet ≤ 63 ∧ bits x.pend 62 40 = 0)

/-- The step of a cycle in which a bucket runs: that of its XAGRs, or the last step where it has none (R169). -/
def bucketStep (x : List Sent) (steps n : Nat) : Nat :=
  match sentTo x n with
  | [] => steps - 1
  | l => l.foldl (fun m e => max m e.step) 0

/-- The bounds of a bucket that no sequence names: those of a channel of two members (R207, R208, log 78). -/
def orphanFits (b : BucketEnt) (nScale : Nat) : Bool := decide (b.scaleIndex + 2 * b.cpp ≤ nScale ∧ b.nElem ≤ 32 * b.cpp * 1024)

/-- R208. -/
def agreeOk (a : AgreePart) (x : List Sent) (steps : Nat) : Bool :=
  let n := a.scales.length / 16
  let of (c : ChanEnt) : List BucketEnt := (a.buckets.drop c.firstSeq).take c.nSeq
  let named := a.chans.flatMap fun c => (of c).map fun (b : BucketEnt) => b.bucket
  let scaled := a.chans.flatMap fun c =>
    if c.op = 4 then []
    else ((of c).filter fun b => decide (b.nElem ≠ 0)).map fun b =>
      (bucketStep x steps b.bucket, b.scaleIndex, c.nMembers * b.cpp)
  let engines := a.chans.map fun (c : ChanEnt) => b2n c.engine
  a.chans.all (fun c => channelPorts c && decide (c.firstSeq + c.nSeq ≤ a.buckets.length)) &&
    (engines.zip (engines.drop 1)).all (fun e => decide (e.1 ≤ e.2)) &&
    decide (a.chans.map fun (c : ChanEnt) => (c.engine, c.channel)).Nodup &&
    [false, true].all (fun e =>
      let hs := (a.chans.filter fun c => decide (c.engine = e)).map fun (c : ChanEnt) => (c.holdBase, c.holdBytes)
      allApart hs && hs.all fun h => decide (h.1 + h.2 ≤ 33554432)) &&
    decide (a.buckets.map fun (b : BucketEnt) => b.bucket).Nodup && decide named.Nodup &&
    a.chans.all (fun c => (of c).all fun b => bucketFits c b n x) &&
    a.buckets.all (fun b => decide (b.bucket ∈ named) || orphanFits b n) &&
    x.all (fun e => decide (e.num ∈ named)) &&
    (List.range steps).all (fun k => allApart ((scaled.filter fun s => decide (s.1 = k)).map (·.2))) &&
    (List.range n).all (fun k => scaled.any fun s => decide (s.2.1 ≤ k ∧ k < s.2.1 + s.2.2)) &&
    (recordsAt a.scales 0 16 n).all initialScaleOk && inMem a.scaleBase (16 * n)

/-! ## Dispatch and staging (R213, R218 to R220, R225 to R227) -/

/-- The rows of a copy's source and destination layouts (R219). -/
def layoutRows (x : DieSection) (t f : DispTable) : Nat × Nat :=
  let q := slotsOf x f
  let c := f.nTokens * f.k
  if t.op = 2 then (f.nTokens, q) else if t.op = 3 then (q, c) else (c, q)

/-- R220. -/
def holdsRows (g : RegionDesc) (rows : Nat) : Bool :=
  decide (rows ≤ g.nTiles * g.rowsPerTile ∧ g.offset + g.rowsPerTile * g.rowStride ≤ tileSize)

/-- R225, R226 for one table of a section. -/
def tableFits (x : DieSection) (t : DispTable) : Bool :=
  if t.op = 1 then
    decide (t.quotaFirst + t.nExperts ≤ x.quotas.length ∧ 1 ≤ slotsOf x t ∧ slotsOf x t ≤ 1048576 ∧
      t.reportAddr + 64 * (1 + ceilDiv (4 * t.nTokens * t.k) 64 + ceilDiv (2 * t.nExperts) 64) ≤ tileSize)
  else
    match x.tables[t.fillTable]? with
    | none => false
    | some f =>
      let r := layoutRows x t f
      decide (f.op = 1 ∧ t.lag < f.mapDepth) && holdsRows t.src r.1 && holdsRows t.dst r.2

/-- R226: in the sequence every copy has the fill that its lag reaches. -/
def lagsReach (x : DieSection) : Bool :=
  let run := x.seq.flatMap fun e => List.replicate e.2 e.1
  ((List.range run.length).all fun k =>
    match x.tables[run.getD k 0]? with
    | none => false
    | some t => decide (t.op = 1) || decide (t.lag < ((run.take k).filter fun n => decide (n = t.fillTable)).length))

/-- R213: the flits of one activation of a table. -/
def activationFlits (t : DispTable) : Nat := if t.op = 1 then fillFlits t else t.nTrig

/-- R213, R226: what the XDSPs of one pass, a step, send to a table for its n activations: the record flits of a FILL, one trigger
flit from each of n_trig tiles for a copy. -/
def passFits (t : DispTable) (m : List Sent) (n : Nat) : Bool :=
  decide (flitSum m = n * activationFlits t) &&
    (decide (t.op = 1) || m.all fun e => decide (flitSum (m.filter fun o => decide (o.tile = e.tile)) = n))

/-- R226 for the section of die d. -/
def sectionFits (x : DieSection) (d steps : Nat) (sent : List Sent) : Bool :=
  let fills := x.tables.filter fun t => decide (t.op = 1)
  let mine := sent.filter fun e => decide (tileDie e.tile = d)
  x.tables.all (tableFits x) && lagsReach x &&
    allApart (fills.map fun t => (t.recBase, 64 * fillFlits t)) &&
    fills.all (fun t => decide (t.recBase + 64 * fillFlits t ≤ 4 * 2 ^ 20)) &&
    allApart (fills.map fun t => (t.mapOffset, t.mapDepth * mapBytes x t)) &&
    fills.all (fun t => decide (t.mapOffset + t.mapDepth * mapBytes x t ≤ x.mapBytes)) &&
    decide (regionOf x.mapBase = .hbm) && inMem x.mapBase x.mapBytes &&
    (List.range steps).all fun k => ((List.range x.tables.length).zip x.tables).all fun e =>
      passFits e.2 (mine.filter fun m => decide (m.num = e.1 ∧ m.step = k))
        ((x.seq.filter fun q => decide (q.1 = e.1)).map (·.2)).sum

/-- Two stage entries name one frame: the same address, or the same bytes of one expert's frame (log 78); else their frames must
not meet (R227). -/
def framesApart (s u : StageEnt) : Bool :=
  decide (s.frame = u.frame) ||
    decide (s.group = u.group ∧ s.expert = u.expert ∧ s.frame + u.partOffset = u.frame + s.partOffset) ||
    apart (s.frame, s.length) (u.frame, u.length)

/-- No two of the entries have frames that meet. -/
def allFramesApart : List StageEnt → Bool
  | [] => true
  | s :: r => r.all (framesApart s) && allFramesApart r

/-- R227. -/
def stagingFits (g : StagePart) (cycleLen : Nat) : Bool :=
  let blocks := g.groups.flatMap fun q => q.positions.map fun (a : Bool × Nat) => (a.2, q.blockBytes)
  let frames := g.stages.map fun (s : StageEnt) => (s.frame, s.length)
  let hbm (a n : Nat) : Bool := decide (regionOf a = .hbm) && inMem a n
  hbm g.buffer g.bufferBytes && g.groups.all (fun q => decide (q.blockBytes ≤ g.bufferBytes)) &&
    blocks.all (fun b => inMem b.1 b.2) &&
    g.stages.all (fun s =>
      match g.groups[s.group]? with
      | none => false
      | some q => decide (s.expert < q.positions.length ∧ s.offset < cycleLen ∧ s.partOffset + s.length ≤ q.blockBytes) &&
          hbm s.frame s.length) &&
    allApart ((g.buffer, g.bufferBytes) :: blocks) && allFramesApart g.stages &&
    frames.all fun f => ((g.buffer, g.bufferBytes) :: blocks).all (apart f)

/-- R211, R226, R227: `named` are the tables that XDSP slots name. -/
def dispatchFits (s : List (Option DieSection)) (g : StagePart) (steps cycleLen : Nat) (sent : List Sent)
    (named : List (Nat × Nat)) : Bool :=
  ((List.range 4).all fun d =>
    match s.getD d none with
    | none => !named.any fun e => decide (e.1 = d)
    | some x => named.all (fun e => decide (e.1 ≠ d ∨ e.2 < x.tables.length)) && sectionFits x d steps sent) &&
    stagingFits g cycleLen

/-! ## Route, placement and remap (R159, R285, R296, R301) -/

/-- The coordinates of a position, x fastest (log 33), and the position that a port's neighbour has (R285). -/
def neighbourOf (v : Variant) (pos port : Nat) : Nat :=
  let x := pos % v.dimX
  let y := pos / v.dimX % v.dimY
  let z := pos / v.dimX / v.dimY
  let mv (c n : Nat) : Nat := if port / 2 % 2 = 0 then (c + 1) % n else (c + n - 1) % n
  let x := if axisOf port = 0 then mv x v.dimX else x
  let y := if axisOf port = 1 then mv y v.dimY else y
  let z := if axisOf port = 2 then mv z v.dimZ else z
  x + v.dimX * (y + v.dimY * z)

/-- R300: the port by which the package at position `me` sends to position `dest`, whose physical identifier is `dst`: the first axis, X, then
Y, then Z, on which the two differ; the shorter way round its ring, plus on a tie; the twin by the parity of dst. None for its own
position. The rows of a route table are written by the Porren Parser, and no rule has the package check them against this. -/
def dimPort (v : Variant) (me dest dst : Nat) : Option Nat :=
  let axes : List (Nat × Nat × Nat × Nat) :=
    [(0, me % v.dimX, dest % v.dimX, v.dimX), (1, me / v.dimX % v.dimY, dest / v.dimX % v.dimY, v.dimY),
      (2, me / v.dimX / v.dimY, dest / v.dimX / v.dimY, v.dimZ)]
  (axes.find? fun e => decide (e.2.1 ≠ e.2.2.1)).map fun e =>
    let d := (e.2.2.1 + e.2.2.2 - e.2.1) % e.2.2.2
    4 * e.1 + (if 2 * d ≤ e.2.2.2 then 0 else 2) + dst % 2

/-- Each position is taken once, and the rest are the variant's spares. -/
def placementOk (pl : List (Nat × Nat)) (v : Variant) : Bool :=
  let ps := (pl.map (·.2)).filter fun x => decide (x ≠ 0xFFFF)
  decide (pl.map (·.1)).Nodup && pl.all (fun e => decide (e.1 < 4096)) && decide ps.Nodup && decide (ps.length = v.positions) &&
    ps.all (fun x => decide (x < v.positions)) && decide (pl.length = v.positions + v.nSpare)

def Pkg.portUp (p : Pkg) (i : Nat) : Bool := decide (p.reg (O.portState + i) = 2)

/-- R301; the time master, and it alone, has no parent (R141). own is the package that the placement gives for the position: this
one, or in a recovery the one whose parts the spare takes (log 77). -/
def Pkg.routeOk (p : Pkg) (r : RoutePart) (own : Nat) (master : Bool) : Bool :=
  decide (r.own = own) && r.rows.all (fun e => p.portUp e.2.port1 && p.portUp e.2.port3) &&
    decide ((r.parent = 0xFF) = (master = true))

/-- R296: every up port has the neighbour that the placement gives. -/
def Pkg.neighboursOk (p : Pkg) (v : Variant) (pl : List (Nat × Nat)) (pos : Nat) : Bool :=
  (List.range 12).all fun i => !p.portUp i ||
    match pl.find? fun e => decide (e.2 = neighbourOf v pos i) with
    | none => false
    | some e => decide (p.reg (O.linkNeighbour + i) = fld e.1 16 + (if i / 2 % 2 = 0 then i + 2 else i - 2))

def remapOk (a b : List RemapEnt) (pl : List (Nat × Nat)) (n : Nat) : Bool :=
  a.all (fun e => decide (e.key < n) && pl.any fun x => decide (x = (e.value, 0xFFFF))) &&
    b.all fun e => decide (e.key / 16 < n)

/-! ## The securing part (R336, R337) -/

/-- Whole MiB of a region. -/
def regionMib (r : SecRegion) : Nat := ceilDiv r.bytes (2 ^ 20)

/-- The slots that a region's parity block and copy take, as (first MiB, MiB); g is the size of the group (R337, R339). -/
def regionSlots (r : SecRegion) (g : Nat) : List (Nat × Nat) :=
  (match r.paritySlot with
    | some s => [(s, partBytes r g / 2 ^ 20)]
    | none => []) ++ (match r.copySlot with
    | some s => [(s, regionMib r)]
    | none => [])

/-- R336, R337; `puts` are the commit-sentence writes. -/
def Pkg.securingOk (p : Pkg) (x : SecPart) (n pos : Nat) (puts : List (Nat × Nat)) : Bool :=
  let windows := [(p.reg O.cmdWindowBase, 2 ^ 32), (p.reg O.ingestWindowBase, 2 ^ 38)]
  let area := (x.protBase, x.protBytes)
  let rs := x.regions.map fun (r : SecRegion) => (r.addr, r.bytes)
  let mine := ((x.groups.find? fun g => decide (pos ∈ g)).map (·.length)).getD 2
  let d := ceilDiv (32 * (x.regions.map regionMib).sum) (2 ^ 20)
  let slots := x.regions.flatMap fun r => regionSlots r mine
  (List.range n).all (fun k => decide ((x.groups.filter fun g => decide (k ∈ g)).length = 1)) &&
    x.groups.all (fun g => decide g.Nodup && g.all fun k => decide (k < n)) &&
    decide (x.buddy.length = n ∧ x.buddy.Nodup) &&
    ((List.range n).zip x.buddy).all (fun e => decide (e.2 < n ∧ e.1 ≠ e.2) &&
      !x.groups.any fun g => decide (e.1 ∈ g ∧ e.2 ∈ g)) &&
    rs.all (fun r => inMem r.1 r.2) && allApart (area :: rs ++ windows) &&
    puts.all (fun w => rs.any fun r => decide (r.1 ≤ w.1 ∧ w.1 + w.2 ≤ r.1 + r.2)) &&
    x.regions.all (fun r => (decide (r.kind ≠ 1) || decide (r.mode = 2)) && (decide (r.mode ≠ 1) || r.paritySlot.isSome) &&
      (decide (r.mode ≠ 2) || r.copySlot.isSome) && (r.paritySlot.isSome || r.copySlot.isSome)) &&
    decide (regionOf x.protBase = .lpddr) && inMem x.protBase x.protBytes && allApart slots &&
    slots.all fun s => decide (8 + 2 * d ≤ s.1 ∧ (s.1 + s.2) * 2 ^ 20 ≤ x.protBytes)

/-! ## The whole image (R150, R151, R156) -/

/-- A reason code, with the event of its own that the check raises. -/
structure Reject where
  reason : Nat
  event : Option Nat
  deriving DecidableEq, Repr

/-- Bytes off to off + n of an image read as words; none where one is poison. -/
def imageBytes (ws : List (Option W128)) (off n : Nat) : Option (List Byte) :=
  (wordsBytes ((ws.drop (off / 16)).take (ceilDiv (off % 16 + n) 16))).map fun l => (l.drop (off % 16)).take n

/-- The part of a kind that variant v and a package load: pkg is 0xFFFF for a common part. -/
def partFor (ps : List PartEnt) (kind v pkg : Nat) : Option PartEnt :=
  ps.find? fun e => decide (e.kind = kind ∧ e.pkg = pkg) && bitOf e.vmask v

/-- The package with the tables of an image in place, on which its slots are followed: memory holds the scale table. -/
def Pkg.withTables (p : Pkg) (tiles : List Tile) (base : Nat) (scales : List Byte) (slots : Nat) : Pkg :=
  let p := { p with tiles := denseMap Tile.reset tiles }
  let p := ((p.setReg O.scaleTableBase base).setReg O.scaleTableEntries (scales.length / 64)).setReg O.ledgerSlots slots
  (List.range (scales.length / 16)).foldl (fun p i =>
    p.setWord (base + 16 * i) (goodWord (BitVec.ofNat 128 (leNat (bytesAt scales (16 * i) 16))))) p

/-- Stage entries in ascending offset (R228). -/
def insertStage (s : StageEnt) : List StageEnt → List StageEnt
  | [] => [s]
  | x :: r => if s.offset < x.offset then s :: x :: r else x :: insertStage s r

def sortStages (l : List StageEnt) : List StageEnt := l.foldl (fun acc s => insertStage s acc) []

/-- What a LOAD finds: a rejection, or the image with the position and the tiles that the package is to hold. -/
def Pkg.checkImage (p : Pkg) (req : LoadReq) (given : Option Nat) (ws : List (Option W128)) :
    Except Reject (Image × Nat × List Tile) :=
  let no (ok : Bool) (r : Nat) (e : Option Nat := none) : Except Reject Unit := if ok then .ok () else .error ⟨r, e⟩
  do
    -- 1
    no (decide (req.addr % 4096 = 0 ∧ regionOf req.addr = .lpddr ∧ 4096 ≤ req.len) && inMem req.addr req.len) 1
    let hb ← match imageBytes ws 0 4096 with
      | some b => .ok b
      | none => .error (⟨1, none⟩ : Reject)
    let h := imgHdr hb
    no (hdrMagic hb && decide (h.len = req.len)) 1
    -- 2
    no (p.boot.owners.any fun k => Config.falconVerify k (hb.take 2048) h.sig) 2
    -- 3
    no (decide (p.reg (O.floors + 2) ≤ h.security)) 3
    -- 4
    no (decide (h.product = p.reg O.productCode ∧ h.revision = p.reg O.revisionNumber)) 4
    -- 5
    let v := req.variant
    let var := variantOf (h.variants.getD v 0)
    let table := imageBytes ws h.partOff (64 * h.nParts)
    let raw := recordsAt (table.getD []) 0 64 h.nParts
    let ps := raw.map partEnt
    let bytesOf (e : PartEnt) : Option (List Byte) :=
      if e.offset + e.length ≤ req.len then imageBytes ws e.offset e.length else none
    let common (k : Nat) : Option PartEnt := partFor ps k v 0xFFFF
    let place := ((common 7).bind bytesOf).bind fun b => Config.placementPart b v
    let pl := place.getD []
    let id := p.reg O.domainPhysId
    let here := (pl.find? fun e => decide (e.1 = id)).map (·.2)
    no (decide (v < h.nVariants ∧ id ≠ 0xFFFF) && here.isSome) 5
    let pos := given.getD (here.getD 0xFFFF)
    let own (k : Nat) : Option PartEnt := if pos = 0xFFFF then none else partFor ps k v pos
    -- 6
    let mine := ([1, 7, 8, 9].filterMap common) ++ ([2, 3, 4, 5, 6].filterMap own)
    no (table.any (fun b => decide (digest256 b = h.partDigest)) &&
      mine.all fun e => (bytesOf e).any fun b => decide (digest256 b = e.digest)) 6
    let data (e : Option PartEnt) : List Byte := (e.bind bytesOf).getD []
    -- 7
    let tiles := tilePart (data (own 2)) (fieldAt (data (common 1)) 0 4)
    no (h.rangesOk && raw.all (fun b => partOk b req.len) && (common 1).isSome && tiles.isSome &&
      decide (h.aclkDiv ≤ p.reg O.aclkDivisorActive)) 7
    -- what checks 8, 10, 11 and 12 follow
    let scale := if (data (own 3)).isEmpty then some (0, [], []) else Config.scalePart (data (own 3))
    let sc : Nat × List Byte × List (Nat × Nat × Bool) := scale.getD (0, [], [])
    let prog := progPart (data (common 1)) h.cycleLen h.steps
    let q := p.withTables (tiles.getD []) sc.1 sc.2.1 sc.2.2.length
    let w := walkTiles q (prog.getD []) h.steps
    no (decide (8 ∉ w.fails)) 8
    no (scale.isSome && (sc.2.1.isEmpty || scaleTableOk sc.1 sc.2.1) && decide (sc.2.2.length ≤ 65535) &&
      sc.2.2.all (fun d => decide (d.1 < sc.2.1.length / 64 ∧ d.2.1 < 2 ^ 16)) && decide (9 ∉ w.fails)) 9 (some 0x3402)
    no (decide (10 ∉ w.fails)) 10 (some 0x3503)
    no (decide (11 ∉ w.fails)) 11 (some 0x3604)
    no (prog.isSome && decide (12 ∉ w.fails)) 12
    -- 13
    let ag := agreePart (data (own 5))
    let a : AgreePart := ag.getD ⟨[], [], 0, []⟩
    no (ag.isSome && agreeOk a w.xagr h.steps) 13 (some 0x3A06)
    -- 14
    let dp := dispPart (data (own 6))
    let dg : List (Option DieSection) × StagePart := dp.getD ([], ⟨[], [], [], 0, 0, 0⟩)
    no (dp.isSome && dispatchFits dg.1 dg.2 h.steps h.cycleLen w.xdsp w.tables) 14 (some 0x3C04)
    -- 15
    let rt := if pos = 0xFFFF then some (⟨0xFF, 0, 0, []⟩ : RoutePart) else routePart (data (own 4))
    let r : RoutePart := rt.getD ⟨0xFF, 0, 0, []⟩
    let rm := remapPart (data (common 8))
    let m : RemapTabs := rm.getD ⟨[], [], 0⟩
    let placed := ((pl.find? fun e => decide (e.2 = pos)).map (·.1)).getD 0xFFFF
    no (rt.isSome && rm.isSome && placementOk pl var && remapOk m.pkgs m.links pl var.positions &&
      (decide (pos = 0xFFFF) || (decide (pos < var.positions) && p.routeOk r placed (decide (pos = var.timeMaster))))) 15
    no (decide (pos = 0xFFFF) || p.neighboursOk var pl pos) 15 (some 0x4408)
    let sb := data (common 9)
    let sp := if sb.isEmpty then some none else (secPart sb var.positions).map some
    let sec : Option SecPart := sp.getD none
    no (sp.isSome && (match sec with
      | none => true
      | some x => decide (pos = 0xFFFF) || p.securingOk x var.positions pos w.puts)) 15 (some 0x480D)
    let img : Image :=
      { addr := req.addr, len := req.len, imageId := h.imageId, seed := h.seed, securityVersion := h.security
        aclkDiv := h.aclkDiv, cycleLen := h.cycleLen, stepsPerCycle := h.steps, slipHorizon := h.horizon
        slipQuantum := h.quantum, waitSlack := h.waitSlack, holdLimit := h.holdLimit, variant := var, parts := ps
        prog := prog.getD []
        cvotes := (List.range h.steps).map fun k => (w.votes.filter fun n => decide (n = k)).length
        placement := pl, timeParent := r.parent, wrapPorts := r.wraps, routes := r.rows
        scaleBase := sc.1, scaleInit := sc.2.1, decls := sc.2.2.map fun d => ⟨d.1, d.2.1, d.2.2⟩
        aScaleBase := a.scaleBase, aScaleInit := a.scales, chans := a.chans, buckets := a.buckets
        bucketSteps := a.buckets.map fun (b : BucketEnt) => bucketStep w.xagr h.steps b.bucket
        sections := dg.1, groups := dg.2.groups, initialPlace := dg.2.place, stages := sortStages dg.2.stages
        moveBuffer := dg.2.buffer, placeBudget := dg.2.budget, remapPkgs := m.pkgs, remapLinks := m.links, remapGuard := m.guard, sec := sec }
    .ok (img, pos, tiles.getD [])

/-- A LOAD's checks on the image as the loader reads it: once, through the word code. -/
def Pkg.loadCheck (p : Pkg) (req : LoadReq) (given : Option Nat) : Except Reject (Image × Nat × List Tile) × Pkg :=
  if regionOf req.addr = .lpddr ∧ inMem req.addr req.len ∧ req.addr % 4096 = 0 then
    let r := p.agentRead ioA req.addr req.len
    (p.checkImage req given r.1, r.2)
  else (.error ⟨1, none⟩, p)

end Sys2Proof.Machine
end

