-- ==== Sys2Proof/Machine/LoaderCmd.lean ====
section
/-! DEFINITION. Machine/LoaderCmd.lean: the schedule loader: LOAD, UNLOAD, START and HALT, the messages of a start and
their effects (R154 to R158, R358), measurements (R427, R428). -/
namespace Sys2Proof.Machine

/-! ## Measurements (R427, R428) -/

/-- Register r is extended with digest d. -/
def Pkg.extend (p : Pkg) (r source type data : Nat) (d : List Byte) : Pkg :=
  let old := p.boot.meas.at (List.replicate 32 0) r
  let n := p.reg O.measureCount
  let p := { p with boot := { p.boot with meas := p.boot.meas.put (List.replicate 32 0) r (digest256 (old ++ d)) } }
  let p := p.bump O.measureCount 1
  if p.boot.measLog.length < 4096 then
    { p with boot := { p.boot with measLog := p.boot.measLog ++ [(⟨n, r, source, type, data, d⟩ : MeasEnt)] } }
  else
    let q := p.bump O.measureLogDropped 1
    if p.reg O.measureLogDropped = 0 then q.raise 0x240A noUnit 0 else q

/-! ## Owner and requests (R154, R155) -/

def execLoaderOwnerWrite (w : Writer) (v : Nat) (s : State) : Host.Outcome State Fault Refusal :=
  s.on (writerPlane w) fun p =>
    if 3 < v then
      match w with
      | .path pt => p.refuse pt O.loaderOwner abRange
      | .unit => p
    else p.ownerWrite w O.loaderOwner v 0x380C noUnit

/-- The request at the head, with the rest. One that would leave image_state 5 waits for a repair in progress (R255). -/
def Pkg.headRequest (p : Pkg) (op : LoadOp) : Option (LoadReq × Pkg) :=
  match p.loader.reqs with
  | [] => none
  | r :: rest =>
    if r.op = op ∧ ¬(p.reg O.imageState = 5 ∧ op ≠ .halt ∧ !p.memsys.repairing.isEmpty) then
      some (r, { p with loader := { p.loader with reqs := rest } })
    else none

/-- A request ends: those of recovery have no queue to answer to. -/
def Pkg.endRequest (p : Pkg) (r : LoadReq) (status result : Nat) : Pkg :=
  if r.claimant = 3 then p else p.complete 0 r.seq status result

/-- R158: a refused request completes with status 5 and result 0. -/
def Pkg.refuseRequest (p : Pkg) (r : LoadReq) : Pkg := (p.raise 0x380C noUnit 0).endRequest r 5 0

/-- R407: bit 0 of error_register follows a failed or halted package, a supply or thermal stop (R446, R458), and an asserted cold
reset (R452). -/
def Pkg.fixFault (p : Pkg) : Pkg :=
  p.setErrBit 0 (p.failed || decide (p.reg O.imageState = 5) || p.supply.supplyFault || p.supply.tripped ||
    (p.boot.resetWait && decide (p.reg O.resetCause % 64 / 2 ≠ 0)))

/-- A state of the image; a halted package drives FAULT_N (R407, R438). -/
def Pkg.setImageState (p : Pkg) (n : Nat) : Pkg := (p.setReg O.imageState n).fixFault

/-! ## Unloading (R158) -/

/-- The registers that an image gives. -/
def imageRegs : List Nat :=
  [O.scaleTableBase, O.scaleTableEntries, O.ledgerSlots, O.agreementScaleBase, O.agreementScaleEntries, O.dispatchTables,
    O.dispatchTables + 1, O.dispatchTables + 2, O.dispatchTables + 3, O.placementGroups, O.placementBudgetBytes, O.imageId, O.routeRows,
    O.imageVariant, O.scaleQueryId, O.placementQuery]

/-- R158: clause stores, descriptor tables and windows are cleared, every loaded part is discarded, the region is released. -/
def Pkg.unloadImage (p : Pkg) : Pkg :=
  let p := { p with
    tiles := p.tiles.mapVals Tile.reset fun x => { x with
      md := [], vd := [], pd := [], xd := [], xptr := [], store := [], clauses := [], nBundles := 0, win := [], seq := Seqr.reset }
    loader := { p.loader with image := none, loading := none }
    engines := []
    disp := []
    tiers := []
    place := []
    ledger := Ledger.reset
    stepc := StepCtl.reset
    secure := { p.secure with recov := none, parity := [], placement := [], hold := none, forced := none, plannedPos := none, swapsLeft := [], swapsDone := 0 }
    sched := { p.sched with
      slips := [], hold := none, late := [], startRun := none, startBeat := none, haltAt := none, nextStart := 0 } }
  let p := imageRegs.foldl (fun p k => p.setReg k 0) p
  ((p.setReg O.logicalPosition 0xFFFF).setReg O.timeParentPort 0xFF).setImageState 0

def execUnload (s : State) : Host.Outcome State Fault Refusal :=
  s.on .control fun p =>
    match p.headRequest .unload with
    | none => p
    | some (r, p) =>
      let st := p.reg O.imageState
      if st = 1 ∨ st = 4 then p.refuseRequest r
      else if st = 0 then p.endRequest r 0 0
      else (p.unloadImage.raise 0x380E noUnit 0).endRequest r 0 0

/-! ## Loading (R156, R158) -/

/-- R156: a rejection, with its reason. -/
def Pkg.rejectImage (p : Pkg) (e : Reject) : Pkg :=
  let p := ((p.bump O.loadRejects 1).setReg O.lastRejectReason e.reason).raise 0x3802 noUnit e.reason
  match e.event with
  | none => p
  | some c => p.raise c noUnit 0

/-- An image that passed its checks begins to load: the previous one goes, its header is measured into M4. -/
def Pkg.beginLoad (p : Pkg) (r : LoadReq) (x : Image × Nat × List Tile) : Pkg :=
  let h := p.agentBytes ioA r.addr 2048
  let p := h.2.extend 4 1 3 x.1.imageId (digest256 (h.1.getD []))
  let p := if p.reg O.imageState = 0 then p else p.unloadImage
  ({ p with loader := { p.loader with loading := some ⟨r, x.1, x.2.1, x.2.2⟩ } }).setImageState 1

def execLoad (s : State) : Host.Outcome State Fault Refusal :=
  s.on .control fun p =>
    match p.headRequest .load with
    | none => p
    | some (r, p) =>
      if p.reg O.imageState = 1 ∨ p.reg O.imageState = 4 then p.refuseRequest r
      else
        match p.loadCheck r none with
        | (.error e, p) => (p.rejectImage e).endRequest r 5 e.reason
        | (.ok x, p) => p.beginLoad r x

/-- R92, R158: a loaded tile in place of tile n: registers unloaded, the panel record cleared, vector state +0, pointers at their
base, windows 0; its SRAM, its accumulator store and its counters stay. -/
def loadTile (old new : Tile) : Tile :=
  { new with mx := { Matrix.reset with acc := old.mx.acc, rows := old.mx.rows, scrub := old.mx.scrub } }

/-- R285: the ports of an axis of extent 1 are unused. -/
def unusedPorts (i : Image) : List (Nat × Nat) :=
  ((List.range 12).filter fun k =>
    decide ((if axisOf k = 0 then i.variant.dimX else if axisOf k = 1 then i.variant.dimY else i.variant.dimZ) = 1)).map fun k =>
      (O.portState + k, 5)

/-- The tables that the image gives memory, and the registers that show it. -/
def Pkg.placeImage (p : Pkg) (i : Image) (pos : Nat) : Pkg :=
  let p := p.agentWrite ioA i.scaleBase i.scaleInit
  let p := p.agentWrite ioA i.aScaleBase i.aScaleInit
  let set (p : Pkg) (e : Nat × Nat) : Pkg := p.setReg e.1 e.2
  let tables : List (Nat × Nat) := (List.range 4).map fun d =>
    (O.dispatchTables + d, ((i.sections.getD d none).map fun x => x.tables.length).getD 0)
  (tables ++ [(O.scaleTableBase, i.scaleBase), (O.scaleTableEntries, i.scaleInit.length / 64),
    (O.ledgerSlots, i.decls.length), (O.agreementScaleBase, i.aScaleBase),
    (O.agreementScaleEntries, i.aScaleInit.length / 16), (O.placementGroups, i.groups.length),
    (O.placementBudgetBytes, i.placeBudget), (O.domainSeed, i.seed), (O.imageId, i.imageId), (O.logicalPosition, pos),
    (O.timeParentPort, i.timeParent), (O.routeRows, i.routes.length), (O.voidCount, 0), (O.holdPeakBytes, 0), (O.holdPeakBytes + 1, 0),
    (O.partnersActive, 0)] ++ unusedPorts i).foldl set p

/-- The package holds an image for position pos, or as a spare. -/
def Pkg.installImage (p : Pkg) (x : Loading) : Pkg :=
  let i := x.img
  let ts := (List.range 192).map fun n => loadTile (p.tile n) (x.tiles.getD n Tile.reset)
  let p := { p with
    tiles := denseMap Tile.reset ts
    loader := { p.loader with image := some i, loading := none }
    place := i.initialPlace
    ledger := { Ledger.reset with decl := i.decls }
    links := { p.links with partners := [] }
    sched := { p.sched with filter := [] } }
  (p.placeImage i x.pos).setReg O.imageVariant x.req.variant

def execLoadComplete (s : State) : Host.Outcome State Fault Refusal :=
  s.on .control fun p =>
    match p.loader.loading with
    | none => p
    | some x =>
      (((p.installImage x).setImageState (if x.pos = 0xFFFF then 3 else 2)).raise 0x3801 noUnit 0).endRequest x.req 0 0

/-! ## Directed messages (R294) -/

/-- A directed message that reached its destination: remembered as a flood is, acted on, and not forwarded. -/
def Pkg.directedIn (p : Pkg) (x : C0In) (act : Pkg → Pkg) : Pkg :=
  let fresh := match p.sched.filter.find x.src with
    | none => true
    | some n => laterSeq x.originSeq n
  if !fresh then p
  else act (p.setSched { p.sched with filter := (p.sched.filter.del x.src).ins x.src x.originSeq })

/-! ## START (R157, R358) -/

/-- Whether this package is the variant's time master. -/
def Pkg.isMaster (p : Pkg) : Bool :=
  match p.posImage with
  | none => false
  | some i => decide (p.reg O.logicalPosition = i.variant.timeMaster)

def execStart (s : State) : Host.Outcome State Fault Refusal :=
  s.on .control fun p =>
    match p.headRequest .start with
    | none => p
    | some (r, p) =>
      match p.posImage with
      | none => p.refuseRequest r
      | some i =>
        let st := p.reg O.imageState
        if !p.isMaster ∨ (st ≠ 2 ∧ st ≠ 5) ∨ p.sched.startRun.isSome ∨ p.sched.startBeat.isSome then p.refuseRequest r
        else if p.reg O.aclkDivisorActive < i.aclkDiv then (p.rejectImage ⟨7, none⟩).endRequest r 5 7
        else
          let others := i.placement.filter fun e => decide (e.1 ≠ p.reg O.domainPhysId)
          let p := others.foldl (fun p e => p.flood 0x03 e.1 []) p
          p.setSched { p.sched with startRun := some ⟨p.mtime, r.seq, []⟩ }

/-- A package answers with its state, image and variant. -/
def execStartQuery (x : C0In) (s : State) : Host.Outcome State Fault Refusal :=
  s.on .link fun p => p.directedIn x fun p =>
    p.flood 0x04 x.src [p.reg O.imageState, p.reg O.imageId, p.reg O.imageVariant]

def execStartAnswer (x : C0In) (state imageId variant : Nat) (s : State) : Host.Outcome State Fault Refusal :=
  s.on .link fun p => p.directedIn x fun p =>
    match p.sched.startRun with
    | none => p
    | some r => p.setSched { p.sched with startRun := some { r with answers := r.answers ++ [(x.src, state, imageId, variant)] } }

/-- Every package of the variant answered as R157 (or, for a halted domain, R358) asks. -/
def Pkg.allAnswered (p : Pkg) (i : Image) (r : StartRun) : Bool :=
  i.placement.all fun e =>
    decide (e.1 = p.reg O.domainPhysId) ||
      decide ((e.1, (if e.2 = 0xFFFF then 3 else p.reg O.imageState), p.reg O.imageId, p.reg O.imageVariant) ∈ r.answers)

/-- The next multiple of 65,536 at least n beats ahead (R157). -/
def Pkg.beatAhead (p : Pkg) (n : Nat) : Nat := ceilDiv (p.reg O.domainBeat + n) 65536 * 65536

/-- R157: 10 ms after t0 (1,000,000 ticks of the 100 MHz reference). -/
def execStartAnswerDeadline (s : State) : Host.Outcome State Fault Refusal :=
  s.on .control fun p =>
    match p.sched.startRun, p.posImage with
    | some r, some i =>
      if p.mtime < r.t0 + 1000000 then p
      else
        let q := p.setSched { p.sched with startRun := none }
        if p.allAnswered i r then
          let b := q.beatAhead (2 * i.slipHorizon)
          let q := q.flood 0x05 0 [b]
          (q.setSched { q.sched with startBeat := some b }).complete 0 r.seq 0 0
        else (q.raise 0x380C noUnit 0).complete 0 r.seq 5 0
    | _, _ => p

def execStartBeatMessage (x : C0In) (beat : Nat) (s : State) : Host.Outcome State Fault Refusal :=
  s.on .link fun p => p.floodIn x 0x05 [beat] fun p =>
    if p.reg O.imageState = 2 ∨ p.reg O.imageState = 5 then p.setSched { p.sched with startBeat := some beat }
    else if p.reg O.imageState = 3 then p.setSched { p.sched with cycle0 := beat } else p

/-- R342: the method of a region at image start: true for parity. -/
def startMethod (r : SecRegion) : Bool :=
  if r.kind = 1 ∨ r.mode = 2 then false
  else if r.mode = 1 then true
  else if r.paritySlot.isNone then false
  else if r.copySlot.isNone then true
  else decide (64 * 2 ^ 20 ≤ r.bytes)

/-- The methods of every region at image start. -/
def Pkg.startMethods (p : Pkg) : Pkg :=
  match p.securing with
  | none => p
  | some x => { p with secure := { p.secure with parity := denseMap false (x.regions.map startMethod) } }

/-- R157: at start_beat the package runs, and cycle 0 begins; R358: a halted domain goes on at the step start it halted at,
and schedule time with it (log 34). -/
def execDomainStart (s : State) : Host.Outcome State Fault Refusal :=
  s.on .control fun p =>
    match p.sched.startBeat, p.posImage with
    | some b, some i =>
      let st := p.reg O.imageState
      if st = 2 ∧ b ≤ p.schedBeat then
        let p := (p.setSched { p.sched with startBeat := none, cycle0 := b, nextStart := 0, late := [] }).setStepc StepCtl.reset
        ((p.setImageState 4).raise 0x3803 noUnit 0).startMethods.openBlock
      else if st = 5 ∧ b ≤ p.reg O.domainBeat ∧ p.memsys.repairing.isEmpty then
        let p := p.setSched { p.sched with startBeat := none, filter := [], late := [], slips := [] }
        let p := p.setReg O.slipTotal ((b + 2 ^ 64 - p.stepBeat i p.sched.nextStart) % 2 ^ 64)
        (p.setReg O.securingState 0).setImageState 4
      else p
    | _, _ => p

/-! ## HALT (R157) -/

/-- A HALT is known: the package halts at the first step start at or after beat b. -/
def Pkg.haltFrom (p : Pkg) (b : Nat) : Pkg := p.setSched { p.sched with haltAt := some b }

/-- R157: the package floods the beat from which every package halts. -/
def execHalt (s : State) : Host.Outcome State Fault Refusal :=
  s.on .control fun p =>
    match p.headRequest .halt with
    | none => p
    | some (r, p) =>
      match p.posImage with
      | none => p.refuseRequest r
      | some i =>
        if p.reg O.imageState ≠ 4 then p.refuseRequest r
        else
          let b := p.reg O.domainBeat + i.slipHorizon
          ((p.flood 0x06 0 [b]).haltFrom b).endRequest r 0 0

def execHaltMessage (x : C0In) (beat : Nat) (s : State) : Host.Outcome State Fault Refusal :=
  s.on .link fun p => p.floodIn x 0x06 [beat] fun p => if p.reg O.imageState = 4 then p.haltFrom beat else p

/-- R157, R174: at a step start the package halts in place of beginning the step; what runs goes on to its CEND (log 35). -/
def Pkg.haltNow (p : Pkg) : Pkg :=
  let p := p.endStep
  let p := { p with secure := { p.secure with stepAtHalt := p.reg O.generatorStep } }
  let p := (p.setSched { p.sched with haltAt := none, late := [] }).setStepc { p.stepc with haltNext := false }
  (p.setReg O.securingState 4).setImageState 5

def execHaltTakeEffect (s : State) : Host.Outcome State Fault Refusal :=
  s.on .control fun p =>
    match p.posImage with
    | none => p
    | some i => if p.stepDue i ∧ p.haltDue then p.haltNow else p

end Sys2Proof.Machine
end

