-- ==== Sys2Proof/Machine/Securing.lean ====
section
/-! DEFINITION. Machine/Securing.lean: live protection as received (R340, R341), the choice of method (R342), save points:
when one is taken, its hold, its stream and its end (R343 to R347, R352), the placement swaps that go with it (R230), and
the records of a restore (R348). -/
namespace Sys2Proof.Machine

/-! ## Live protection (R337, R340, R341) -/

abbrev mib : Nat := 2 ^ 20

/-- Whole segments of 1 MiB of a region. -/
def segments (r : SecRegion) : Nat := ceilDiv r.bytes mib

/-- d of R337. -/
def digestMib (x : SecPart) : Nat := ceilDiv (32 * (x.regions.map segments).sum) mib

/-- The address of a hosted line: a copy slot, or for the two regions past the table (log 30) the hosted system record and the
hosted digest table. -/
def SecPart.hostedAddr (x : SecPart) (region : Nat) : Option Nat :=
  match x.regions[region]? with
  | some r => r.copySlot.map fun s => x.protBase + s * mib
  | none =>
    if region = x.regions.length then some (x.protBase + 4 * mib)
    else if region = x.regions.length + 1 then some (x.protBase + (8 + digestMib x) * mib)
    else none

/-- The words of a line as they came. -/
def ProtLine_words (l : ProtLine) : List (Option W128) := l.words.map fun w => readWord ⟨w.1, w.2⟩

/-- R340, R341: a delta goes into its parity block by a read-modify-write after what waits for its set (R245); a word that is
poison on either side becomes poison and stays it. -/
def Pkg.protDelta (p : Pkg) (l : ProtLine) : Pkg :=
  match p.securing with
  | none => p
  | some x =>
    match (x.regions[l.region]?).bind (·.paritySlot) with
    | none => p
    | some s =>
      let ws := ProtLine_words l
      (List.range 4).foldl (fun p k =>
        let a := x.protBase + s * mib + l.offset / 64 * 64 + 16 * k
        let r := (p.drainLine (a / 64)).memCheck a
        match r.1, ws.getD k none with
        | some o, some d => r.2.memWrite a (some (o ^^^ d))
        | _, _ => r.2.memWrite a none) p

def execProtectionDelta (l : ProtLine) (s : State) : Host.Outcome State Fault Refusal := s.on .link fun p => p.protDelta l

/-- R340, R341: a buddy stores a line in its hosted copy, poison as it comes. -/
def Pkg.protCopy (p : Pkg) (l : ProtLine) : Pkg :=
  match p.securing.bind fun x => x.hostedAddr l.region with
  | none => p
  | some base =>
    let ws := ProtLine_words l
    (List.range 4).foldl (fun p k => p.memPut (base + l.offset / 64 * 64 + 16 * k) (ws.getD k none)) p

def execProtectionCopy (l : ProtLine) (s : State) : Host.Outcome State Fault Refusal := s.on .link fun p => p.protCopy l

/-- R340: an agent's write to lines of a region; the memory-side die sends what its protection needs. -/
def execTrackedWrite (addr : Nat) (bytes : List Byte) (s : State) : Host.Outcome State Fault Refusal :=
  s.on .control fun p =>
    match p.securing.bind fun x => x.regionAt addr with
    | none => p
    | some (_, r) => if addr + bytes.length ≤ r.addr + r.bytes then p.agentWrite ioA addr bytes else p

def execRegionQuery (pt : Path) (v : Nat) (s : State) : Host.Outcome State Fault Refusal :=
  s.on (pathPlane pt) fun p => p.objWrite pt O.regionQuery v fun p =>
    match p.securing with
    | none => p.refuse pt O.regionQuery abRange
    | some x => if v < x.regions.length then p.setReg O.regionQuery v else p.refuse pt O.regionQuery abRange

/-! ## The securing interval (R343, R344) -/

/-- The whole square root of n, found from the top bit down. -/
def isqrt (n : Nat) : Nat :=
  (List.range 65).foldl (fun r k =>
    let c := r + 2 ^ (64 - k)
    if c * c ≤ n then c else r) 0

/-- K: the largest number of steps between consecutive candidates (R344). -/
def candidateGap (i : Image) : Nat :=
  let o := stepOffsets i
  let at' : List Nat := (i.prog.filter (·.sp)).map fun e => (o.filter fun s => decide (s ≤ e.offset)).length
  match at' with
  | [] => 0
  | f :: _ => (at'.zip (at'.drop 1 ++ [f + i.stepsPerCycle])).foldl (fun m e => max m (e.2 - e.1)) 0

/-- W in domain beats: ACLK at the compiled point is 10.8 GHz over the divisor, a beat 16 of its cycles (R23, R140). -/
def Pkg.windowBeats (p : Pkg) (i : Image) : Nat := p.reg O.failureWindowH * 3600 * (675000000 / i.aclkDiv)

/-- R344: recoveries begun in the last W beats, as the register shows them. -/
def Pkg.countFailures (p : Pkg) (i : Image) : Pkg :=
  let now := p.reg O.domainBeat
  let l := p.secure.failTimes.filter fun t => decide (now ≤ t + p.windowBeats i)
  ({ p with secure := { p.secure with failTimes := l } }).setReg O.failuresInWindow (min l.length (2 ^ 32 - 1))

/-- R344: S is computed anew. -/
def Pkg.secureInterval (p : Pkg) (i : Image) (x : SecPart) : Pkg :=
  let p := p.countFailures i
  let c := if p.reg O.lastHoldBeats = 0 then x.saveHoldBeats else p.reg O.lastHoldBeats
  let f := max (p.reg O.failuresInWindow) 1
  let sOpt := isqrt (2 * c * p.windowBeats i / f) / max 1 (i.cycleLen / i.stepsPerCycle)
  let l := p.reg O.lossBoundSteps
  let k := candidateGap i
  if l ≤ k then (p.setReg O.securingIntervalSteps 1).raise 0x480F noUnit 0
  else p.setReg O.securingIntervalSteps (max 1 (min sOpt (l - k)))

/-- R343: whether the candidate at this beat is a save point. -/
def Pkg.savePointDue (p : Pkg) : Bool :=
  (match p.secure.forced with
    | some b => decide (b ≤ p.reg O.domainBeat)
    | none => false) ||
  decide (p.reg O.lastSaveStep + p.reg O.securingIntervalSteps ≤ p.reg O.generatorStep)

/-! ## The choice of method (R342) -/

/-- The method that a region wants, parity or not, from the group's sums; none where nothing was counted. -/
def wantedMethod (r : SecRegion) (changed total : Nat) : Option Bool :=
  if r.kind ≠ 0 ∨ r.mode ≠ 0 ∨ total = 0 then none
  else
    let w := decide (64 * mib ≤ r.bytes ∧ total ≤ 20 * changed)
    some (if w ∧ r.paritySlot.isNone then false else if !w ∧ r.copySlot.isNone then true else w)

/-- R342: every region's new method, where it changes. The sums of the other members come from outside and are free
(log 37). -/
def Pkg.chooseMethods (p : Pkg) (x : SecPart) : List (Nat × Bool) × Pkg :=
  ((List.range x.regions.length).zip x.regions).foldl (fun (acc : List (Nat × Bool) × Pkg) e =>
    let p := acc.2
    let o := p.ledger.sinceSave.at (0, 0) e.2.tensor
    let a := p.fresh
    let b := a.2.fresh
    match wantedMethod e.2 (o.1 + a.1.toNat) (o.2 + a.1.toNat + b.1.toNat) with
    | none => acc
    | some m => (if m = p.secure.parity.at false e.1 then acc.1 else acc.1 ++ [(e.1, m)], b.2)) ([], p)

/-- R346 step 3: the new protection of region k: a line copy to the buddy, or the own parity block, built from the other
members' parts and so of free values (log 37). -/
def Pkg.buildProtection (p : Pkg) (x : SecPart) (k : Nat) (parity : Bool) : Pkg :=
  match x.regions[k]? with
  | none => p
  | some r =>
    let pos := p.reg O.logicalPosition
    if parity then
      match r.paritySlot, x.groupOf pos with
      | some s, some (g, _) =>
        (List.range (partBytes r g.length / 16)).foldl (fun p w =>
          let a := p.fresh
          let b := a.2.fresh
          b.2.memPut (x.protBase + s * mib + 16 * w) (some (a.1 ++ b.1))) p
      | _, _ => p
    else
      (List.range (ceilDiv r.bytes 64)).foldl (fun p l =>
        p.sendLine (x.buddy.getD pos 0) k 1 (64 * l)
          ((List.range 4).map fun w => readWord (p.word (r.addr + 64 * l + 16 * w)))) p

/-- The regions whose method changes take the new one (R342, R346). -/
def Pkg.commitMethods (p : Pkg) (x : SecPart) (l : List (Nat × Bool)) : Pkg :=
  l.foldl (fun p e =>
    let p := p.buildProtection x e.1 e.2
    ({ p with secure := { p.secure with parity := p.secure.parity.put false e.1 e.2 } }).raise 0x4804 noUnit 0) p

/-! ## The save-out ring (R347) -/

abbrev recordBytes : Nat := 4096 + mib

/-- Base of the ring, and the records it has room for. -/
def Pkg.ringBase (p : Pkg) : Nat := p.reg O.ingestWindowBase + p.reg O.saveOutOffset
def Pkg.ringSlots (p : Pkg) : Nat := (p.reg O.saveOutBytes - 4096) / recordBytes

/-- The address of the record with a running number. -/
def Pkg.ringRecordAddr (p : Pkg) (n : Nat) : Nat := p.ringBase + 4096 + n % p.ringSlots * recordBytes

/-- R347: the header of the ring: indices, mode, position. -/
def Pkg.ringMode (p : Pkg) (mode : Nat) : Pkg :=
  p.agentWrite ioA (p.ringBase + 16) (toLe 4 mode ++ toLe 4 (p.reg O.logicalPosition))

/-- Whether a record may be written: the reader's index is as memory gives it; an index that is poison leaves no room. -/
def Pkg.ringRoom (p : Pkg) : Bool × Pkg :=
  let r := p.agentBytes ioA (p.ringBase + 8) 8
  match r.1 with
  | none => (false, r.2)
  | some b => (decide ((p.secure.ringWrite + 2 ^ 64 - leNat b) % 2 ^ 64 < p.ringSlots), r.2)

/-- The header of a record (R347). -/
def recordHeader (saveSeq pos region seg len flags imageId step : Nat) (digest : List Byte) : List Byte :=
  toLe 4 saveSeq ++ toLe 2 pos ++ toLe 2 region ++ toLe 4 seg ++ toLe 4 len ++ toLe 8 flags ++ toLe 8 imageId ++ toLe 8 step ++
    List.replicate 24 0 ++ digest ++ List.replicate 4000 0

/-- A record goes out and write_index advances. -/
def Pkg.putRecord (p : Pkg) (h payload : List Byte) : Pkg :=
  let a := p.ringRecordAddr p.secure.ringWrite
  let p := (p.agentWrite ioA a h).agentWrite ioA (a + 4096) payload
  let n := (p.secure.ringWrite + 1) % 2 ^ 64
  ({ p with secure := { p.secure with ringWrite := n } }).agentWrite ioA p.ringBase (toLe 8 n)

/-- A segment's bytes for its digest and its record: poisoned words as zeros, and whether there was one (R346, log 36). -/
def Pkg.segmentBytes (p : Pkg) (a n : Nat) : List Byte × Bool × Pkg :=
  let r := p.agentRead ioA a n
  (((r.1.flatMap fun w => toLe 16 (w.getD 0).toNat).drop (a % 16)).take n, r.1.any (·.isNone), r.2)

/-- What a save point streams, in order: position, region, segment, address (none: bytes that other packages hold), length,
flags. -/
structure SaveSeg where
  pos : Nat
  region : Nat
  seg : Nat
  addr : Option Nat
  len : Nat
  flags : Nat
  deriving DecidableEq, Repr

/-- The package's own segments; the system record follows the regions. -/
def saveSegments (x : SecPart) (pos : Nat) : List SaveSeg :=
  ((List.range x.regions.length).zip x.regions).flatMap (fun e =>
    (List.range (segments e.2)).map fun s =>
      (⟨pos, e.1, s, some (e.2.addr + s * mib), min mib (e.2.bytes - s * mib), 0⟩ : SaveSeg)) ++
  (List.range 4).map fun s => (⟨pos, 0, s, some (x.protBase + s * mib), mib, 2⟩ : SaveSeg)

/-- R357: what this package streams of failed position f: as its buddy the hosted copies and the hosted system record, as a
holder of parity its part of every parity region, whose other terms the other members hold (log 37). -/
def Pkg.failedSegments (p : Pkg) (x : SecPart) (f : Nat) : List SaveSeg :=
  let own := p.reg O.logicalPosition
  let rs := (List.range x.regions.length).zip x.regions
  let copies : List SaveSeg :=
    if x.buddy.getD f own ≠ own then []
    else
      (rs.filter fun e => !p.secure.parity.at false e.1).flatMap (fun e => match e.2.copySlot with
        | none => []
        | some c => (List.range (segments e.2)).map fun s =>
          (⟨f, e.1, s, some (x.protBase + (c + s) * mib), min mib (e.2.bytes - s * mib), 0⟩ : SaveSeg)) ++
      (List.range 4).map fun s => (⟨f, 0, s, some (x.protBase + (4 + s) * mib), mib, 2⟩ : SaveSeg)
  match x.groupOf f with
  | none => copies
  | some (g, i) =>
    if own ∉ g then copies
    else
      copies ++ (rs.filter fun e => p.secure.parity.at false e.1).flatMap fun e =>
        let u := partBytes e.2 g.length / mib
        let j := (g.idxOf own + g.length - i - 1) % g.length
        (List.range u).filterMap fun s =>
          let k := j * u + s
          if segments e.2 ≤ k then none
          else some (⟨f, e.1, k, none, min mib (e.2.bytes - k * mib), 0⟩ : SaveSeg)

/-- Everything the package streams: in an uncovered recovery the failed positions' segments follow its own. -/
def Pkg.streamList (p : Pkg) (x : SecPart) : List SaveSeg :=
  saveSegments x (p.reg O.logicalPosition) ++
    (match p.secure.recov with
      | none => []
      | some r => r.failed.flatMap (p.failedSegments x))

/-- n free bytes (log 37). -/
def Pkg.freeBytes (p : Pkg) (n : Nat) : List Byte × Pkg :=
  (((List.range n).map fun i => BitVec.ofNat 8 (Config.freeWord (p.free + i)).toNat), { p with free := p.free + n })

/-- The bytes of a segment, and whether a word of it is poison. -/
def Pkg.saveBytes (p : Pkg) (g : SaveSeg) : List Byte × Bool × Pkg :=
  match g.addr with
  | some a => p.segmentBytes a g.len
  | none =>
    let r := p.freeBytes g.len
    (r.1, false, r.2)

/-! ## Placement swaps (R230) -/

/-- A swap: group, expert a, expert b. -/
def Pkg.swapList (p : Pkg) : List (Nat × Nat × Nat) :=
  (List.range (p.reg O.placementSwapCount)).map fun k =>
    let v := p.reg (O.placementSwaps + k)
    (bits v 31 24, bits v 23 12, bits v 11 0)

/-- The first reason to refuse a list, in the order of R230. -/
def swapReason (i : Image) (l : List (Nat × Nat × Nat)) : Option Nat :=
  let grp (g : Nat) : PlaceGroup := i.groups.getD g ⟨0, []⟩
  if l.any fun e => decide (i.groups.length ≤ e.1) then some 1
  else if l.any fun e => decide ((grp e.1).positions.length ≤ e.2.1 ∨ (grp e.1).positions.length ≤ e.2.2) then some 2
  else if l.any fun e => decide (e.2.1 = e.2.2) then some 3
  else if i.placeBudget < (l.map fun e => 3 * (grp e.1).blockBytes).sum then some 4
  else none

/-- R230: at a Period that marks a save point the list is sampled once. -/
def Pkg.sampleSwaps (p : Pkg) (i : Image) : Pkg :=
  let l := p.swapList
  if l.isEmpty then p
  else
    match swapReason i l with
    | some r => ((p.setReg O.placementLastRefusal r).setReg O.placementSwapCount 0).raise 0x3C09 noUnit 0
    | none => { p with secure := { p.secure with swapsLeft := l, swapsDone := 0 } }

/-- One swap: three copies, and the two entries exchanged (R230). -/
def Pkg.applySwap (p : Pkg) (i : Image) (e : Nat × Nat × Nat) : Pkg :=
  let n := (i.groups.getD e.1 ⟨0, []⟩).blockBytes
  let a := p.blockAddr i e.1 e.2.1
  let b := p.blockAddr i e.1 e.2.2
  let r := 72 + dieOf a
  let p := ((p.copyBlock r a i.moveBuffer n).copyBlock r b a n).copyBlock r i.moveBuffer b n
  let g := p.place.getD e.1 []
  { p with place := setAt p.place e.1 (setAt (setAt g e.2.1 (g.getD e.2.2 0)) e.2.2 (g.getD e.2.1 0)) }

/-- The swap in progress, the first of those left, is complete; with the last one the list is done (R230). -/
def Pkg.finishSwap (p : Pkg) (i : Image) : Pkg :=
  match p.secure.swapsLeft with
  | [] => p
  | e :: r =>
    let n := p.secure.swapsDone + 1
    let p := p.applySwap i e
    let p := { p with secure := { p.secure with swapsLeft := r, swapsDone := n } }
    if r.isEmpty then ((p.setReg O.placementSwapCount 0).bump O.placementSwapsApplied n).raise 0x3C08 noUnit 0 else p

/-- R346 step 5: no segment still to be streamed holds a byte of the range. -/
def streamPassed (l : List SaveSeg) (a n : Nat) : Bool :=
  l.all fun g => match g.addr with
    | none => true
    | some b => decide (b + g.len ≤ a ∨ a + n ≤ b)

/-- R230, R346 step 5: the accepted swaps run in list order from the Period beat, each as the stream (`l` still to come) has
passed its blocks (log 76). -/
def Pkg.runSwaps (p : Pkg) (i : Image) (l : List SaveSeg) : Nat → Pkg
  | 0 => p
  | fuel + 1 =>
    match p.secure.swapsLeft with
    | [] => p
    | e :: _ =>
      let n := (i.groups.getD e.1 ⟨0, []⟩).blockBytes
      if streamPassed l (p.blockAddr i e.1 e.2.1) n && streamPassed l (p.blockAddr i e.1 e.2.2) n then
        Pkg.runSwaps (p.finishSwap i) i l fuel
      else p

/-- The swaps that may run now, at most the 64 of a list. -/
def Pkg.advanceSwaps (p : Pkg) (i : Image) (l : List SaveSeg) : Pkg := p.runSwaps i l 64

/-! ## The save hold (R346, R352) -/

/-- The placement goes into the system record (R231, R338). -/
def Pkg.writeSysPlace (p : Pkg) (x : SecPart) : Pkg :=
  p.protWrite x 0 0 64 (p.place.flatMap fun g => g.flatMap (toLe 2))

/-- The placement and the configuration set go into the system record (R338). -/
def Pkg.writeSysBody (p : Pkg) (x : SecPart) (cfg : List Byte) : Pkg := (p.writeSysPlace x).protWrite x 0 0 2097216 cfg

/-- R343 to R346: a save point is taken at this Period; its hold begins. -/
def Pkg.beginSave (p : Pkg) (i : Image) (x : SecPart) (cfg : List Byte) : Pkg :=
  let p := (p.secureInterval i x).raise 0x4801 noUnit 0
  let p := p.sampleSwaps i
  let m := p.chooseMethods x
  let p := m.2.writeSysBody x cfg
  let d0 := p.reg O.domainBeat
  let p := { p with
    ledger := { p.ledger with sinceSave := [] }
    stepc := { p.stepc with saveOpen := p.stepc.saveOpen ++ [(p.reg O.saveSeq + 1) % 2 ^ 32] }
    secure := { p.secure with
      forced := none, digestSeq := none
      hold := some ⟨d0, x.saveHoldBeats, 0, p.mtime, false, false, none, m.1⟩ } }
  let p := p.setSched { p.sched with hold := some ⟨d0, x.saveHoldBeats, .save⟩ }
  let p := (p.setReg O.securingState 1).ringMode 0
  if p.reg O.saveOutBytes = 0 then
    let b := d0 + i.slipHorizon
    let q := p.flood 0x23 0 [b]
    { q with secure := { q.secure with hold := q.secure.hold.map fun (h : SaveHold) => { h with abandonAt := some b } } }
  else p

/-- R346 step 6: the trailer, and what it completes. -/
def Pkg.writeTrailer (p : Pkg) (i : Image) (x : SecPart) (h : SaveHold) : Pkg :=
  let q := (p.reg O.saveSeq + 1) % 2 ^ 32
  let p := p.putRecord (recordHeader q (p.reg O.logicalPosition) 0 0 0 4 i.imageId (p.reg O.generatorStep)
    (List.replicate 32 0)) []
  let p := ((p.setReg O.saveSeq q).setReg O.lastSaveStep (p.reg O.generatorStep)).raise 0x4802 noUnit 0
  let p := p.commitMethods x h.changed
  let p := { p with secure := { p.secure with digestSeq := some q, hold := some { h with streamed := true, moved := p.mtime } } }
  ((p.writeSysHeader).advanceSwaps i []).writeSysPlace x

/-- R346 step 4: one record of the stream, where the ring has room; the records after the last segment is the trailer. -/
def Pkg.streamSave (p : Pkg) : Pkg :=
  match p.secure.hold, p.loader.image, p.securing with
  | some h, some i, some x =>
    if h.streamed ∨ h.stopped then p
    else
      let r := p.ringRoom
      let p := r.2
      if !r.1 then p
      else
        match (p.streamList x)[h.next]? with
        | none => p.writeTrailer i x h
        | some g =>
          let d := p.saveBytes g
          let p := d.2.2
          let dg := digest256 d.1
          let p := if g.flags = 0 ∧ g.pos = p.reg O.logicalPosition then p.protWrite x 1 (8 * mib) (32 * h.next) dg else p
          let p := p.putRecord (recordHeader ((p.reg O.saveSeq + 1) % 2 ^ 32) g.pos g.region g.seg g.len
            (g.flags + b2n d.2.1) i.imageId (p.reg O.generatorStep) dg) d.1
          let p := { p with secure := { p.secure with hold := some { h with next := h.next + 1, moved := p.mtime } } }
          p.advanceSwaps i ((p.streamList x).drop (h.next + 1))
  | _, _, _ => p

/-- R352 step 4: the swap in progress completes, and the record's placement follows it; the swaps after it are discarded. -/
def Pkg.cutSwaps (p : Pkg) (i : Image) : Pkg :=
  if p.secure.swapsLeft.isEmpty then p
  else
    let p := p.finishSwap i
    let p := match p.securing with
      | none => p
      | some x => p.writeSysPlace x
    ({ p with secure := { p.secure with swapsLeft := [] } }.setReg O.placementSwapCount 0).setReg O.placementLastRefusal 5

/-- R352: the hold ends without a trailer. -/
def Pkg.abandonSave (p : Pkg) : Pkg :=
  match p.secure.hold, p.loader.image with
  | some h, some i =>
    if h.streamed ∨ h.stopped then p
    else
      let r := p.ringRoom
      let p := r.2
      let p := if r.1 then p.putRecord (recordHeader ((p.reg O.saveSeq + 1) % 2 ^ 32) (p.reg O.logicalPosition) 0 0 0 8 i.imageId
        (p.reg O.generatorStep) (List.replicate 32 0)) [] else p
      let p := p.cutSwaps i
      let mine (q : Nat) : Bool := decide (q ≠ (p.reg O.saveSeq + 1) % 2 ^ 32)
      ({ p with
        stepc := { p.stepc with saveOpen := p.stepc.saveOpen.filter mine, saveStep := p.stepc.saveStep.filter mine }
        secure := { p.secure with
          forced := some (p.reg O.domainBeat)
          hold := some { h with stopped := true, changed := [], abandonAt := none } } }).raise 0x4803 noUnit 0
  | _, _ => p

/-- R346, R352: the hold has its beats behind it and every stream has ended, or an abandon takes effect. A package whose stream
has not ended has asked for slips, which follow the hold's last beat (R147). -/
def execSaveHoldEnd (s : State) : Host.Outcome State Fault Refusal :=
  s.on .data fun p =>
    match p.secure.hold, p.sched.hold with
    | some h, some y =>
      if y.kind ≠ .save then p
      else
        let now := p.reg O.domainBeat
        if h.abandonAt.any fun b => decide (b ≤ now) then p.abandonSave.endHold
        else if h.d0 + h.len ≤ now ∧ (h.streamed ∨ h.stopped ∨ p.dueSlip.isSome) then p.endHold
        else p
    | _, _ => p

/-- An abandon takes effect at a beat. -/
def Pkg.abandonFrom (p : Pkg) (b : Nat) : Pkg :=
  { p with secure := { p.secure with hold := p.secure.hold.map fun (h : SaveHold) =>
      if h.streamed ∨ h.stopped then h else { h with abandonAt := some b } } }

/-- R346: no record for save_stall_s. -/
def execSaveStallTimeout (s : State) : Host.Outcome State Fault Refusal :=
  s.on .data fun p =>
    match p.secure.hold, p.loader.image with
    | some h, some i =>
      if h.streamed ∨ h.stopped ∨ h.abandonAt.isSome ∨ p.mtime < h.moved + p.reg O.saveStallS * 100000000 then p
      else
        let b := p.reg O.domainBeat + i.slipHorizon
        (p.flood 0x23 0 [b]).abandonFrom b
    | _, _ => p

def execSaveAbandoned (x : C0In) (beat : Nat) (s : State) : Host.Outcome State Fault Refusal :=
  s.on .link fun p => p.floodIn x 0x23 [beat] fun p => p.abandonFrom beat

/-! ## Forced requests (R345) -/

/-- A forced request with its effective beat; a position other than 0xFFFF marks a planned remap of it. -/
def Pkg.forceSave (p : Pkg) (beat pos : Nat) : Pkg :=
  { p with secure := { p.secure with
      forced := some (match p.secure.forced with
        | some b => min b beat
        | none => beat)
      plannedPos := if pos = 0xFFFF then p.secure.plannedPos else some pos } }

/-- A forced request of this package is flooded (R345). -/
def Pkg.askSave (p : Pkg) (pos : Nat) : Pkg :=
  match p.posImage with
  | none => p
  | some i =>
    let b := p.reg O.domainBeat + i.slipHorizon
    (p.flood 0x20 0 [b, pos]).forceSave b pos

def Pkg.saveRequestWrite (p : Pkg) (pt : Path) (v : Nat) : Pkg :=
  p.objWrite pt O.saveRequest v fun p => if v = 1 then p.askSave 0xFFFF else p.refuse pt O.saveRequest abRange

def execSaveRequest (pt : Path) (v : Nat) (s : State) : Host.Outcome State Fault Refusal := s.on (pathPlane pt) fun p => p.saveRequestWrite pt v

def execSaveRequestMessage (x : C0In) (beat position : Nat) (s : State) : Host.Outcome State Fault Refusal :=
  s.on .link fun p => p.floodIn x 0x20 [beat, position] fun p => p.forceSave beat position

/-! ## Restore (R348) -/

/-- The digest that a table holds for segment n of a position: the own table, or the hosted one of the position whose buddy this
package is; none where a word is poison (R337, R348). -/
def Pkg.tableDigest (p : Pkg) (x : SecPart) (pos n : Nat) : Option (List Byte) × Pkg :=
  let d := if pos = p.reg O.logicalPosition then 0 else digestMib x
  p.agentBytes ioA (x.protBase + (8 + d) * mib + 32 * n) 32

/-- The position's digests stand in a table of this package. -/
def Pkg.hasTable (p : Pkg) (x : SecPart) (pos : Nat) : Bool :=
  decide (pos = p.reg O.logicalPosition ∨ x.buddy.getD pos 0xFFFF = p.reg O.logicalPosition)

/-- The running number of segment sg of region k in the digest table. -/
def segmentIndex (x : SecPart) (k sg : Nat) : Nat := ((x.regions.take k).map segments).sum + sg

/-- A record whose digest does not fit stays (R348). -/
def Pkg.restoreMismatch (p : Pkg) : Pkg := (p.bump O.digestMismatches 1).raise 0x480C noUnit 0

/-- The record is consumed: read_index advances. -/
def Pkg.consumeRecord (p : Pkg) : Pkg :=
  let n := (p.secure.ringRead + 1) % 2 ^ 64
  ({ p with secure := { p.secure with ringRead := n } }).agentWrite ioA (p.ringBase + 8) (toLe 8 n)

/-- R348: the next record of a restore, where the external device has written one. -/
def execRestoreRecord (s : State) : Host.Outcome State Fault Refusal :=
  s.on .data fun p =>
    match p.securing with
    | none => p
    | some x =>
      if p.reg O.securingState ≠ 3 ∨ p.ringSlots = 0 then p
      else
        match p.agentBytes ioA p.ringBase 8 with
        | (none, p) => p
        | (some wi, p) =>
          if leNat wi = p.secure.ringRead then p
          else
            let a := p.ringRecordAddr p.secure.ringRead
            match p.agentBytes ioA a 128 with
            | (none, p) => p.restoreMismatch
            | (some h, p) =>
              let n (o k : Nat) : Nat := leNat ((h.drop o).take k)
              let len := n 12 4
              let fl := n 16 1
              if bitOf fl 2 ∨ bitOf fl 3 then p.consumeRecord
              else
                match p.agentBytes ioA (a + 4096) len with
                | (none, p) => p.restoreMismatch
                | (some d, p) =>
                  let dg := digest256 d
                  let own := if p.secure.digestSeq = some (n 0 4) ∧ bitOf fl 1 = false ∧ p.hasTable x (n 4 2) then
                      p.tableDigest x (n 4 2) (segmentIndex x (n 6 2) (n 8 4))
                    else (some dg, p)
                  let p := own.2
                  if dg ≠ (h.drop 64).take 32 ∨ own.1 ≠ some dg then p.restoreMismatch
                  else
                    let p := if bitOf fl 1 then p.agentWrite ioA (x.protBase + n 8 4 * mib) d
                      else
                        match x.regions[n 6 2]? with
                        | none => p
                        | some r => p.agentWrite ioA (r.addr + n 8 4 * mib) d
                    p.consumeRecord

end Sys2Proof.Machine
end

