-- ==== Sys2Proof/Machine/ConfigImage.lean ====
section
/-! DEFINITION. Machine/ConfigImage.lean: the configuration set image (R396): written from a set of copies, and applied to the
dictionary (R386). -/
namespace Sys2Proof.Machine

/-- The keys of an object's elements. -/
def Obj.keys (o : Obj) : List Nat :=
  (List.range o.nIdx).flatMap fun j => (List.range o.n).map fun i => o.key + 256 * j + o.step * i

/-- Every element of the objects that f picks, with its size, in ascending index and sub-index. -/
def elements (f : Obj → Bool) : SMap Nat :=
  (objects.filter f).foldl (fun (m : SMap Nat) o => o.keys.foldl (fun (m : SMap Nat) k => (m.del k).ins k o.size) m) []

/-- The elements of the shadowed objects. -/
def rwsElements : SMap Nat := elements fun o => decide (o.acc = .rws)

/-- The 12 bytes of an entry. -/
def cfgEntry (k size v : Nat) : List Byte := toLe 4 (k / 256 + fld (k % 256) 16 + fld size 24) ++ toLe 8 (v % 2 ^ 64)

/-- A configuration set image: set number, generation, and the copy it shows. -/
def cfgImage (set gen : Nat) (els : SMap Nat) (read : Nat → Nat) : List Byte :=
  toLe 4 0x47464343 ++ toLe 4 gen ++ toLe 4 (List.length els) ++ toLe 4 set ++ List.flatMap (fun (e : Nat × Nat) => cfgEntry e.1 e.2 (read e.1)) els

/-- The active set of a package. -/
def Pkg.activeImage (p : Pkg) : List Byte := cfgImage 0 (p.reg O.cfgActiveGen) rwsElements p.reg

/-- An entry read: key, size, value. -/
def cfgEntryOf (b : List Byte) : Nat × Nat × Nat :=
  let h := leNat (b.take 4)
  (h % 2 ^ 16 * 256 + bits h 23 16, bits h 31 24, leNat ((b.drop 4).take 8))

/-- A value that an object takes: in its range, no reserved field or encoding set, no length of all ones (R9, R10, R383). -/
def valueOk (o : Obj) (v : Nat) : Bool :=
  decide (o.lo ≤ v ∧ v ≤ o.hi) &&
    (if o.key = O.canBitrate then decide (v % 16 ≤ 1 ∧ v / 16 ≤ 1)
    else if o.key = O.domainPhysId then decide (v ≤ 4095)
    else if o.key = O.attestSelect then decide (bits v 23 16 = 0)
    else if o.key = O.osPayloadLen then decide (v < 2 ^ 32 - 1)
    else if o.key = O.saveOutOffset ∨ o.key = O.saveOutBytes then decide (v % 2 ^ 20 = 0)
    else if O.sqOffset ≤ o.key ∧ o.key % 256 = O.sqOffset % 256 ∧ o.key ≤ O.sqOffset + 256 * 63 then decide (v % 64 = 0)
    else if o.key = O.queueConsumer then decide (v ≠ 1)
    else if o.key = O.msixVector ∨ o.key = O.eventMsixVector then decide (v < 64 ∨ v = 0xFF)
    else true)

/-- R386: one entry is written into both copies, or skipped with event 0x2601. -/
def Pkg.applyCfgEntry (p : Pkg) (e : Nat × Nat × Nat) : Pkg :=
  match objAt e.1 with
  | none => p.raise 0x2601 noUnit 0
  | some o =>
    if o.acc = .ro ∨ e.2.1 ≠ o.size ∨ !valueOk o e.2.2 then p.raise 0x2601 noUnit 0
    else
      let p := p.setReg e.1 e.2.2
      if o.acc = .rws then p.setShadow e.1 e.2.2 else p

/-- An image's header: generation and number of entries, where its magic is right, its reserved bytes are 0 and its entries lie in
the bytes there are (R9, R10). -/
def cfgHeader (b : List Byte) : Option (Nat × Nat) :=
  if leNat (b.take 4) = 0x47464343 ∧ leNat ((b.drop 12).take 1) ≤ 2 ∧ leNat ((b.drop 13).take 3) = 0 ∧
      16 + 12 * leNat ((b.drop 8).take 4) ≤ b.length then some (leNat ((b.drop 4).take 4), leNat ((b.drop 8).take 4)) else none

/-- The entries of an image. -/
def Pkg.applyCfgImage (p : Pkg) (b : List Byte) : Pkg :=
  match cfgHeader b with
  | none => p
  | some (_, n) => (List.range n).foldl (fun p i => p.applyCfgEntry (cfgEntryOf ((b.drop (16 + 12 * i)).take 12))) p

/-- R396: a restore writes the active image into both copies, and takes its generation. -/
def Pkg.restoreCfg (p : Pkg) (b : List Byte) : Pkg :=
  match cfgHeader b with
  | none => p
  | some (g, _) => ((p.applyCfgImage b).setReg O.cfgActiveGen g).noteScrub (p.reg O.scrubEnable)

end Sys2Proof.Machine
end

