-- ==== Sys2Proof/Machine/Recovery.lean ====
section
/-! DEFINITION. Machine/Recovery.lean: failures and the recovery from them (R350 to R358): the notice, the halt, the plan, the
rebuild and the restore, the resumption; vote records from other packages (R171, R172); planned remaps. -/
namespace Sys2Proof.Machine

/-! ## The coordinator (R351) -/

/-- The logical positions of the variant that have not failed. -/
def survivors (i : Image) (failed : List Nat) : List Nat :=
  (List.range i.variant.positions).filter fun k => decide (k ∉ failed)

/-- The position of the coordinator: the time master, or the lowest position that survives. -/
def coordinatorPos (i : Image) (failed : List Nat) : Nat :=
  if i.variant.timeMaster ∉ failed then i.variant.timeMaster else (survivors i failed).headD 0

def Pkg.isCoordinator (p : Pkg) (i : Image) (failed : List Nat) : Bool :=
  decide (p.reg O.logicalPosition = coordinatorPos i failed)

/-- A package's own report (R349). -/
def Pkg.ownReport (p : Pkg) : RecReport :=
  ⟨p.reg O.logicalPosition, p.secure.lastOpen, p.secure.lastComplete, p.reg O.saveSeq, p.reg O.confirmedSeq⟩

def Pkg.setRecov (p : Pkg) (r : Option Recov) : Pkg := { p with secure := { p.secure with recov := r } }

/-! ## The halt for a recovery (R351, R352) -/

/-- R351: no bundle issues, transient state goes, the package is halted; a save hold in progress is abandoned (R352). -/
def Pkg.stopForRecovery (p : Pkg) : Pkg :=
  let p := p.stopTiles.abandonSave
  let p := { p with
    engines := []
    disp := []
    tiers := p.tiers.mapVals TierEng.reset fun x => { x with busy := none }
    secure := { p.secure with
      hold := none
      stepAtHalt := if p.reg O.imageState = 4 then p.reg O.generatorStep else p.secure.stepAtHalt } }
  let p := p.setSched { p.sched with slips := [], hold := none, late := [], startRun := none, startBeat := none, haltAt := none }
  if p.reg O.imageState = 4 then (p.setReg O.securingState 4).setImageState 5 else p

/-- A recovery begins with its first notice; the report goes to the coordinator. -/
def Pkg.beginRecovery (p : Pkg) (i : Image) (failed : List Nat) : Pkg :=
  let p := p.stopForRecovery
  let r := p.ownReport
  let me := p.isCoordinator i failed
  let p := p.setRecov (some ⟨failed, p.mtime, if me then [r] else [], none, none, false⟩)
  if me then p
  else
    match p.physOf (coordinatorPos i failed) with
    | none => p
    | some d => p.flood 0x25 d [r.reporter, r.lastOpen, r.lastComplete, r.saveSeq, r.confirmedSeq]

/-! ## Classification (R353) -/

/-- What a failed position's hosted system record says of its last complete and last opened step: read where this package
hosts it, free values elsewhere (log 38). -/
def Pkg.failedSteps (p : Pkg) (x : SecPart) (f : Nat) : (Nat × Nat) × Pkg :=
  let free (p : Pkg) : (Nat × Nat) × Pkg :=
    let a := p.fresh
    let b := a.2.fresh
    ((a.1.toNat % 2 ^ 40, b.1.toNat % 2 ^ 40), b.2)
  if x.buddy.getD f 0xFFFF = p.reg O.logicalPosition then
    match p.agentBytes ioA (x.protBase + 4 * mib) 16 with
    | (some b, p) => ((leNat (b.drop 8) % 2 ^ 40, leNat (b.take 8) % 2 ^ 40), p)
    | (none, p) => free p
  else free p

/-- R353: every step named equals the coordinator's last complete step. -/
def Pkg.consistent (p : Pkg) (x : SecPart) (r : Recov) : Bool × Pkg :=
  let s := p.secure.lastComplete
  let ok := r.reports.all fun q => decide (q.lastComplete = s ∧ q.lastOpen = s)
  r.failed.foldl (fun (acc : Bool × Pkg) f =>
    let v := acc.2.failedSteps x f
    (acc.1 && decide (v.1 = (s, s)), v.2)) (ok, p)

/-- Two of the failed positions share a group, or one is the buddy of another. -/
def sharedProtection (x : SecPart) (failed : List Nat) : Bool :=
  failed.any fun a => failed.any fun b =>
    decide (a ≠ b) && (x.groups.any (fun g => decide (a ∈ g ∧ b ∈ g)) || decide (x.buddy.getD a 0xFFFF = b))

/-- R159: the entries of a failed position that are unused and whose spare is alive. -/
def Pkg.usableEntries (p : Pkg) (i : Image) (f : Nat) : List RemapEnt :=
  i.remapPkgs.filter fun e => decide (e.key = f) && e.usable && !p.secure.spareDead.at false e.value

/-- R159: two entries compose. -/
def composes (a b : RemapEnt) : Bool :=
  decide (a.value ≠ b.value) && !a.delta.any fun r => b.delta.any fun s => decide (r.partner = s.partner)

/-- The first usable entry of each failed position; none where one has none or they do not compose. -/
def Pkg.chooseEntries (p : Pkg) (i : Image) : List Nat → Option (List RemapEnt)
  | [] => some []
  | f :: fs =>
    match p.usableEntries i f, p.chooseEntries i fs with
    | e :: _, some l => if l.all (composes e) then some (e :: l) else none
    | _, _ => none

/-- R353, R356: the plan. -/
def Pkg.planOf (p : Pkg) (i : Image) (x : SecPart) (r : Recov) : RecPlan × Pkg :=
  let c := p.consistent x r
  let entries := p.chooseEntries i r.failed
  let back := !c.1 || sharedProtection x r.failed
  let pairs := (entries.getD []).map fun e => (e.key, e.value)
  (match back, entries with
    | false, some _ => ⟨.remap, r.failed, pairs, c.2.secure.lastComplete + 1⟩
    | true, some _ => ⟨.rollback, r.failed, pairs, p.reg O.confirmedSeq⟩
    | false, none => ⟨.uncovered, r.failed, [], 0⟩
    | true, none => ⟨.halt, r.failed, [], 0⟩, c.2)

/-- The number of a case on the wire. -/
def caseNum : RecCase → Nat
  | .remap => 0
  | .rollback => 1
  | .uncovered => 2
  | .halt => 3

def planPayload (a : RecPlan) : List Nat :=
  [caseNum a.case, a.failed.length] ++ a.failed ++ [a.entries.length] ++ a.entries.flatMap (fun e => [e.1, e.2]) ++ [a.value]

/-! ## What a plan does (R354, R355, R357) -/

/-- R159, R301: a delta replaces the rows of its partners, and adds new ones. -/
def withDelta (rows : SMap RouteRow) (d : List RouteRow) : SMap RouteRow :=
  d.foldl (fun m r => (m.del r.partner).ins r.partner r) rows

/-- An entry is applied: its delta, its spare at the position, and it is used up. -/
def Pkg.applyEntry (p : Pkg) (e : Nat × Nat) : Pkg :=
  match p.loader.image with
  | none => p
  | some i =>
    let mine (m : RemapEnt) : Bool := decide (m.key = e.1 ∧ m.value = e.2)
    let d := ((i.remapPkgs.find? mine).map (·.delta)).getD []
    let i2 : Image := { i with
      routes := withDelta i.routes d
      remapPkgs := i.remapPkgs.map fun (m : RemapEnt) => if m.value = e.2 then { m with usable := false } else m }
    ({ p with
      loader := { p.loader with image := some i2 }
      links := { p.links with partners := [], asm3 := [] }
      secure := { p.secure with placement := (p.secure.placement.del e.1).ins e.1 e.2 } }.setReg O.routeRows
        i2.routes.length).setReg O.partnersActive 0

/-- R354 step 2: a named spare loads its position's parts from the image it holds (R156). -/
def Pkg.takePosition (p : Pkg) (pos : Nat) : Pkg :=
  match p.loader.image with
  | none => p
  | some i =>
    let req : LoadReq := ⟨0, .load, 3, i.addr, i.len, p.reg O.imageVariant⟩
    match p.loadCheck req (some pos) with
    | (.error e, p) => p.rejectImage e
    | (.ok x, p) => ((p.installImage ⟨req, x.1, pos, x.2.2⟩).setImageState 2).startMethods

/-- Anything the failed package hosted for this one is copied again (R354 step 3): region copies, system record, digests. -/
def Pkg.recopy (p : Pkg) (x : SecPart) (failed : List Nat) : Pkg :=
  if x.buddy.getD (p.reg O.logicalPosition) 0xFFFF ∉ failed then p
  else
    let p := (List.range x.regions.length).foldl (fun p k =>
      if p.secure.parity.at false k then p else p.buildProtection x k false) p
    let copyArea (p : Pkg) (which base n : Nat) : Pkg :=
      (List.range (n / 64)).foldl (fun p l =>
        p.sendLine (x.buddy.getD (p.reg O.logicalPosition) 0) (x.regions.length + which) 1 (64 * l)
          ((List.range 4).map fun w => readWord (p.word (x.protBase + base + 64 * l + 16 * w)))) p
    copyArea (copyArea p 0 0 (4 * mib)) 1 (8 * mib) (digestMib x * mib)

/-- Every entry of a plan, and the spare that this package may be. -/
def Pkg.applyEntries (p : Pkg) (a : RecPlan) : Pkg :=
  let me := p.reg O.domainPhysId
  let p := match a.entries.find? fun e => decide (e.2 = me) with
    | some e => if p.reg O.imageState = 3 then p.takePosition e.1 else p
    | none => p
  a.entries.foldl (fun p e => p.applyEntry e) p

/-- R355 step 3: the ring in restore-in, its indices at 0 (log 38). -/
def Pkg.beginRestore (p : Pkg) : Pkg :=
  let p := { p with secure := { p.secure with ringWrite := 0, ringRead := 0 } }
  (p.agentWrite ioA p.ringBase (List.replicate 16 0)).ringMode 1

/-- R357: the save hold's stream outside the schedule. -/
def Pkg.beginUncovered (p : Pkg) : Pkg :=
  let p := p.ringMode 0
  { p with secure := { p.secure with
      digestSeq := none
      hold := some ⟨p.reg O.domainBeat, 0, 0, p.mtime, false, false, none, []⟩ } }

/-- R357, R353: the package halts for recompilation. -/
def Pkg.haltUncovered (p : Pkg) : Pkg :=
  ({ p with secure := { p.secure with hold := none } }.setReg O.securingState 4).raise 0x4809 noUnit 0

/-- The state of a package that a plan's recovery brings back. -/
def Pkg.inRecovery (p : Pkg) : Bool := decide (p.reg O.imageState = 5) || decide (p.reg O.imageState = 2)

/-- A recovery plan takes effect on this package. -/
def Pkg.applyPlan (p : Pkg) (a : RecPlan) : Pkg :=
  match p.loader.image with
  | none => p
  | some i =>
    let p := if p.reg O.imageState = 4 then p.beginRecovery i a.failed else p
    let r : Recov := p.secure.recov.getD ⟨a.failed, p.mtime, [], none, none, true⟩
    let p := p.setRecov (some { r with failed := a.failed, plan := some a, closed := true, resumeAt := none })
    let p := { p with secure := { p.secure with failTimes := p.secure.failTimes ++ [p.reg O.domainBeat] } }
    let p := match i.sec with
      | some x => p.secureInterval i x
      | none => p
    match a.case with
    | .remap =>
      let p := p.applyEntries a
      if p.reg O.imageState = 3 then p
      else
        match p.securing with
        | none => p
        | some x => (p.setReg O.securingState 2).recopy x a.failed
    | .rollback =>
      let p := p.applyEntries a
      if p.reg O.imageState = 3 then p
      else (({ p with secure := { p.secure with swapsLeft := [] } }.setReg O.placementSwapCount 0).setReg O.securingState
        3).beginRestore
    | .uncovered => if p.inRecovery then p.beginUncovered else p
    | .halt => if p.inRecovery then p.haltUncovered else p

/-- The coordinator floods a plan and acts on it. -/
def Pkg.floodPlan (p : Pkg) (a : RecPlan) : Pkg := (p.flood 0x22 0 (planPayload a)).applyPlan a

/-- The coordinator classifies the recovery as it stands. -/
def Pkg.planNow (p : Pkg) (i : Image) (r : Recov) : Pkg :=
  match i.sec with
  | none => p.floodPlan ⟨.halt, r.failed, [], 0⟩
  | some x =>
    let a := p.planOf i x r
    a.2.floodPlan a.1

/-- R351, R353: the gather window ends gather_ms after the first notice (100,000 ticks a millisecond). -/
def execGatherWindowEnd (s : State) : Host.Outcome State Fault Refusal :=
  s.on .data fun p =>
    match p.secure.recov, p.posImage with
    | some r, some i =>
      if r.closed ∨ p.mtime < r.t0 + p.reg O.gatherMs * 100000 then p
      else
        let p := p.setRecov (some { r with closed := true })
        if p.isCoordinator i r.failed then p.planNow i r else p
    | _, _ => p

def execRecoveryPlan (x : C0In) (pl : RecPlan) (s : State) : Host.Outcome State Fault Refusal :=
  s.on .link fun p => p.floodIn x 0x22 (planPayload pl) fun p => p.applyPlan pl

/-! ## Notices and reports (R350, R351, R356, R358) -/

/-- R356, R358: the entries that name a spare that failed become unusable; of an idle one the event tells. -/
def Pkg.dropSpare (p : Pkg) (phys : Nat) : Pkg :=
  let p := { p with secure := { p.secure with spareDead := p.secure.spareDead.put false phys true } }
  match p.loader.image with
  | none => p
  | some i =>
    let i2 : Image := { i with remapPkgs := i.remapPkgs.map fun (m : RemapEnt) =>
      if m.value = phys then { m with usable := false } else m }
    { p with loader := { p.loader with image := some i2 } }

def Pkg.loseSpare (p : Pkg) (phys : Nat) : Pkg := (p.dropSpare phys).raise 0x480A noUnit 0

/-- A failure notice reaches this package; src is the package it names where it names no position. -/
def Pkg.noticeIn (p : Pkg) (src pos : Nat) : Pkg :=
  let p := p.raise 0x4805 noUnit 0
  if pos = 0xFFFF then p.loseSpare src
  else
    match p.posImage with
    | none => p
    | some i =>
      match p.secure.recov with
      | none => if p.reg O.imageState = 4 ∨ p.reg O.imageState = 5 then p.beginRecovery i [pos] else p
      | some r =>
        let again := decide (pos ∈ r.failed)
        let f := if again then r.failed else r.failed ++ [pos]
        let r2 : Recov := { r with failed := f }
        if !r.closed then p.setRecov (some r2)
        else
          let p := if again then
              match p.secure.placement.find pos with
              | some spare => p.dropSpare spare
              | none => p
            else p
          let p := p.setRecov (some r2)
          if p.isCoordinator i f then p.planNow ((p.loader.image).getD i) r2 else p

def execFailureNotice (x : C0In) (position reporter beat : Nat) (s : State) : Host.Outcome State Fault Refusal :=
  s.on .link fun p => p.floodIn x 0x21 [position, reporter, beat] fun p => p.noticeIn x.src position

/-- R350: every port towards one neighbour has been out of lock for dead_detect_us. The ports towards a neighbour are those
of one direction; in a ring of two positions both directions lead to it. -/
def Pkg.portsTo (p : Pkg) (i : Image) (pos : Nat) : List Nat :=
  (List.range 12).filter fun k => decide (neighbourOf i.variant (p.reg O.logicalPosition) k = pos)

/-- A port that was up retrains, and each that does has been out of lock for dead_detect_us. -/
def Pkg.outOfLock (p : Pkg) (l : List Nat) : Bool :=
  let r := l.filter fun k => decide (p.reg (O.portState + k) = 3)
  !r.isEmpty && r.all fun k => decide ((p.port k).retrainAt + 100 * p.reg O.deadDetectUs ≤ p.mtime)

def execDeadDetectExpiry (port : PortNo) (s : State) : Host.Outcome State Fault Refusal :=
  s.on .data fun p =>
    match p.posImage with
    | none => p
    | some i =>
      let me := p.reg O.logicalPosition
      let n := neighbourOf i.variant me port.val
      if n = me ∨ (p.portsTo i n).any p.portUp ∨ !p.outOfLock (p.portsTo i n) then p
      else (p.flood 0x21 0 [n, me, p.reg O.domainBeat]).noticeIn (p.reg O.domainPhysId) n

def execRecoveryReport (x : C0In) (r : RecReport) (s : State) : Host.Outcome State Fault Refusal :=
  s.on .link fun p => p.directedIn x fun p =>
    match p.secure.recov with
    | none => p
    | some v => p.setRecov (some { v with reports := v.reports ++ [r] })

/-- R358. -/
def execIdleSpareFailure (phys : Nat) (s : State) : Host.Outcome State Fault Refusal := s.on .link fun p => p.loseSpare phys

/-! ## Rebuild (R354) and the end of a restore (R355) -/

/-- The words of a region of the spare, rebuilt from what the other packages hold and so free; a word that cannot be corrected
is poison, counted (log 38). -/
def Pkg.rebuildWord (p : Pkg) (a : Nat) : Pkg :=
  let f := p.fresh
  let g := f.2.fresh
  let h := g.2.fresh
  if h.1.getLsbD 0 then ((h.2.memPut a none).bump O.rebuildPoisonedWords 1).raise 0x480B noUnit 0
  else h.2.memPut a (some (f.1 ++ g.1))

def Pkg.rebuildRange (p : Pkg) (a n : Nat) : Pkg :=
  (List.range (ceilDiv n 16)).foldl (fun p w => p.rebuildWord (a + 16 * w)) p

/-- R354 step 3 on the spare: regions, own parity blocks, hosted copies, system record, digest tables. -/
def Pkg.rebuildSpare (p : Pkg) (x : SecPart) : Pkg :=
  let p := x.regions.foldl (fun p (r : SecRegion) => p.rebuildRange r.addr r.bytes) p
  p.rebuildRange x.protBase x.protBytes

/-- R355 step 4: protection of every region from the restored data. -/
def Pkg.rebuildProtection (p : Pkg) (x : SecPart) : Pkg :=
  (List.range x.regions.length).foldl (fun p k => p.buildProtection x k (p.secure.parity.at false k)) p

/-- The generator step of the own system record. -/
def Pkg.recordStep (p : Pkg) (x : SecPart) : Option Nat × Pkg :=
  let r := p.agentBytes ioA (x.protBase + 16) 8
  (r.1.map fun b => leNat b % 2 ^ 40, r.2)

/-- A resume is known (R354 step 4). -/
def Pkg.resumeKnown (p : Pkg) (beat step : Nat) : Pkg :=
  match p.secure.recov with
  | none => p
  | some r => p.setRecov (some { r with resumeAt := some (beat, step) })

/-- R354, R355: the rebuild or the restore is complete; the coordinator floods the resume. -/
def execRebuildComplete (s : State) : Host.Outcome State Fault Refusal :=
  s.on .data fun p =>
    match p.secure.recov, p.posImage, p.securing with
    | some r, some i, some x =>
      match r.plan with
      | none => p
      | some a =>
        if r.resumeAt.isSome ∨ (a.case ≠ .remap ∧ a.case ≠ .rollback) then p
        else
          let spare := decide (p.reg O.imageState = 2)
          let p := if a.case = .rollback then p.rebuildProtection x else if spare then p.rebuildSpare x else p
          if !p.isCoordinator i (if spare then [] else a.failed) then p
          else
            let v := p.recordStep x
            let p := v.2
            let step := if a.case = .remap then a.value else (v.1.getD 0) + 1
            let b := p.beatAhead (2 * i.slipHorizon)
            (p.flood 0x24 0 [b, step]).resumeKnown b step
    | _, _, _ => p

def execResume (x : C0In) (beat step : Nat) (s : State) : Host.Outcome State Fault Refusal :=
  s.on .link fun p => p.floodIn x 0x24 [beat, step] fun p => p.resumeKnown beat step

/-! ## The resumption (R354 step 5, R355 step 5) -/

/-- The tile section reloaded from the resident image, for the tiles that f picks. -/
def Pkg.reloadTiles (p : Pkg) (i : Image) (f : Nat → Bool) : Option Pkg :=
  let v := p.reg O.imageVariant
  let part (k pos : Nat) : Option PartEnt := partFor i.parts k v pos
  let get (p : Pkg) (e : Option PartEnt) : Option (List Byte) × Pkg :=
    match e with
    | none => (some [], p)
    | some e => p.agentBytes ioA (i.addr + e.offset) e.length
  let c := get p (part 1 0xFFFF)
  let t := get c.2 (part 2 (p.reg O.logicalPosition))
  match c.1, t.1 with
  | some cb, some tb =>
    (tilePart tb (fieldAt cb 0 4)).map fun ts =>
      { t.2 with tiles := denseMap Tile.reset ((List.range 192).map fun n =>
          if f n then loadTile (p.tile n) (ts.getD n Tile.reset) else p.tile n) }
  | _, _ => none

/-- The number since cycle 0 of the step whose generator step is r: a spare counts from step 1 at cycle 0 (log 38). -/
def Pkg.stepNumber (p : Pkg) (r : Nat) : Nat :=
  if p.sched.nextStart = 0 then r - 1 else p.sched.nextStart + r - 1 - p.reg O.generatorStep

/-- The first stage entry of each engine that falls due at or after schedule beat b. -/
def nextStage (p : Pkg) (i : Image) (e b : Nat) : Nat :=
  let l := engineStages i e
  let c := if i.cycleLen = 0 then 0 else (b - p.sched.cycle0) / i.cycleLen
  c * l.length + (l.filter fun x => decide (p.sched.cycle0 + c * i.cycleLen + x.offset < b)).length

/-- A rollback, and a spare in a remap, take the outcomes, the placement and the configuration set of the system record (R210,
R231, R338, R396). -/
def Pkg.restoreRecordState (p : Pkg) (x : SecPart) : Pkg :=
  let h := p.agentBytes ioA x.protBase 64
  let p := match h.1 with
    | none => h.2
    | some b => (h.2.setReg O.stepOutcome (fieldAt b 24 8)).setReg O.stepOutcomeHigh (fieldAt b 40 8)
  let n := (p.place.map (·.length)).sum
  let g := p.agentBytes ioA (x.protBase + 64) (2 * n)
  let p := match g.1 with
    | none => g.2
    | some b =>
      let l := p.place.foldl (fun (acc : List (List Nat) × Nat) (q : List Nat) =>
        (acc.1 ++ [(List.range q.length).map fun k => fieldAt b (2 * (acc.2 + k)) 2], acc.2 + q.length)) ([], 0)
      { g.2 with place := l.1 }
  let c := p.agentBytes ioA (x.protBase + 2097216) 16
  match c.1.bind cfgHeader with
  | none => c.2
  | some (_, n) =>
    let d := c.2.agentBytes ioA (x.protBase + 2097216) (16 + 12 * min n 65536)
    match d.1 with
    | none => d.2
    | some b => d.2.restoreCfg b

/-- A spare takes the save sequence and the last steps of the record it received (R338, R354): in a rollback the record is of the
target generation, which the plan names (log 77). -/
def Pkg.restoreRecordSeqs (p : Pkg) (x : SecPart) (a : RecPlan) : Pkg :=
  let h := p.agentBytes ioA x.protBase 64
  let p := match h.1 with
    | none => h.2
    | some b => { (h.2.setReg O.saveSeq (fieldAt b 32 4)).setReg O.confirmedSeq (fieldAt b 36 4) with
        secure := { h.2.secure with lastOpen := fieldAt b 0 8 % 2 ^ 40, lastComplete := fieldAt b 8 8 % 2 ^ 40 } }
  if a.case = .rollback then (p.setReg O.saveSeq a.value).setReg O.confirmedSeq a.value else p

/-- R175, R345, R354: the save points that still wait for a step: after a remap they wait for the replay step; after a rollback they
are never confirmed, and a request takes their place (log 77). -/
def Pkg.keepSaves (p : Pkg) (a : RecPlan) (l : List Nat) : Pkg :=
  if a.case = .rollback then
    if l.isEmpty then p else { p with secure := { p.secure with forced := some (p.reg O.domainBeat) } }
  else p.setStepc { p.stepc with saveOpen := l }

/-- The counters and events of a resumption. -/
def Pkg.noteResume (p : Pkg) (r : Recov) (a : RecPlan) (step : Nat) : Pkg :=
  match a.case with
  | .rollback =>
    let lost := p.secure.stepAtHalt + 1 - step
    let p := ((p.bump O.rollbacks 1).setReg O.lastStepsLost (min lost (2 ^ 32 - 1))).raise 0x4807 noUnit 0
    if p.reg O.lossBoundSteps < lost then p.raise 0x4808 noUnit 0 else p
  | _ =>
    let p := (p.bump O.ellipsisRemaps 1).raise 0x4806 noUnit 0
    if r.t0 + 30 * 100000000 < p.mtime then p.raise 0x480E noUnit 0 else p

/-- The engines with every channel at its first bucket of step k of a cycle, or at its first where no later one is (R204, R354). -/
def enginesAt (i : Image) (k : Nat) : SMap Engine :=
  i.chans.foldl (fun es c =>
    let e := es.at Engine.reset (b2n c.engine)
    let n := ((List.range c.nSeq).find? fun j => decide (k ≤ i.bucketSteps.getD (c.firstSeq + j) 0)).getD 0
    let st : ChanSt := { ChanSt.reset with pos := n, rxPos := n }
    es.put Engine.reset (b2n c.engine) { e with chans := e.chans.put ChanSt.reset c.channel st }) []

/-- R354 step 5: the domain resumes at the replay step. -/
def Pkg.resumeNow (p : Pkg) (i : Image) (x : SecPart) (r : Recov) (a : RecPlan) (step : Nat) : Pkg :=
  let n := p.stepNumber step
  let b := p.stepBeat i n
  let saves := p.stepc.saveStep ++ p.stepc.saveOpen
  let spare := a.entries.any fun e => decide (e.2 = p.reg O.domainPhysId)
  let p := p.setReg O.generatorStep ((step + 2 ^ 40 - 1) % 2 ^ 40)
  let p := p.setReg O.slipTotal ((p.reg O.domainBeat + 2 ^ 64 - b) % 2 ^ 64)
  let k := n % i.stepsPerCycle
  let p := { p with
    flits := []
    engines := enginesAt i k
    disp := []
    tiers := denseMap TierEng.reset ((List.range 4).map fun e => ⟨nextStage p i e b, none, 0⟩)
    stepc := { StepCtl.reset with decided := true, bucketsDone := if k = 0 then 0 else bucketsUpTo i (k - 1) }
    secure := { p.secure with recov := none, hold := none } }
  let p := p.setSched { p.sched with
    nextStart := n, filter := [], slips := [], hold := none, late := [], haltAt := none, startBeat := none }
  let p := (p.setReg O.securingState 0).setImageState 4
  let p := if spare then p.restoreRecordSeqs x a else p
  let p := if spare ∨ a.case = .rollback then p.restoreRecordState x else p
  let p := if a.case = .rollback then p.openBlock else p
  (p.keepSaves a saves).noteResume r a step

def execResumeBeat (s : State) : Host.Outcome State Fault Refusal :=
  s.on .data fun p =>
    match p.secure.recov, p.posImage, p.securing with
    | some r, some i, some x =>
      match r.resumeAt, r.plan with
      | some (beat, step), some a =>
        if !p.inRecovery ∨ p.reg O.domainBeat < beat ∨ (p.reg O.logicalPosition ∈ a.failed ∧ p.reg O.imageState = 5) then p
        else
          match p.reloadTiles i fun _ => true with
          | none => p.rejectImage ⟨6, none⟩
          | some q => q.resumeNow i x r a step
      | _, _ => p
    | _, _, _ => p

/-! ## Rollback on request (R172, R355) -/

/-- A rollback to the last confirmed save point is asked for; the package floods its plan (log 39). -/
def Pkg.askRollback (p : Pkg) : Pkg :=
  let f := (p.secure.recov.map (·.failed)).getD []
  let es := (p.secure.recov.bind (·.plan)).map (·.entries)
  p.floodPlan ⟨.rollback, f, es.getD [], p.reg O.confirmedSeq⟩

def Pkg.rollbackWrite (p : Pkg) (pt : Path) (v : Nat) : Pkg :=
  p.objWrite pt O.rollbackRequest v fun p =>
    if v ≠ 1 then p.refuse pt O.rollbackRequest abRange
    else if p.posImage.isNone ∨ (p.reg O.imageState ≠ 4 ∧ p.reg O.imageState ≠ 5) then p.refuse pt O.rollbackRequest abState
    else p.askRollback

def execRollbackRequest (pt : Path) (v : Nat) (s : State) : Host.Outcome State Fault Refusal := s.on (pathPlane pt) fun p => p.rollbackWrite pt v

/-! ## Vote records from other packages (R171, R172) -/

/-- A record is kept; it goes on to the other neighbours where it precedes every record sent for the step. -/
def Pkg.voteIn (p : Pkg) (x : C0In) (r : VoteRec) : Pkg :=
  let first := match p.stepc.sent with
    | none => true
    | some o => votePrecedes r o
  let p := p.setStepc { p.stepc with held := firstRec p.stepc.held r }
  if first then
    (p.c0Send ⟨0x02, x.src, 0, x.originSeq, votePayload r⟩ x.port.val).setStepc { p.stepc with sent := some r }
  else p

/-- Whether the step of a record is one whose C has passed. -/
def Pkg.votePast (p : Pkg) (r : VoteRec) : Bool :=
  decide (r.step < p.reg O.generatorStep) || (decide (r.step = p.reg O.generatorStep) && p.stepc.decided)

/-- R171, R172: a record of the current step is kept before C; one of a step whose C has passed asks for a rollback. -/
def execVoteRecord (x : C0In) (r : VoteRec) (s : State) : Host.Outcome State Fault Refusal :=
  s.on .link fun p =>
    match p.posImage with
    | none => p
    | some _ =>
      if p.votePast r then (p.raise 0x3902 noUnit 0).askRollback
      else if r.step = p.reg O.generatorStep then p.voteIn x r else p

/-! ## Planned remaps (R358) and the end of an uncovered recovery (R357) -/

/-- R358: the trailer of a planned remap's save point is written: the time master floods the remap, with s* as the step before
the Period. -/
def Pkg.plannedRemap (p : Pkg) : Pkg :=
  match p.posImage, p.secure.plannedPos, p.secure.hold with
  | some i, some q, some h =>
    if !h.streamed ∨ !p.isMaster then p
    else
      let p := { p with secure := { p.secure with plannedPos := none } }
      match p.usableEntries i q with
      | [] => p
      | e :: _ => p.floodPlan ⟨.remap, [q], [(q, e.value)], p.reg O.generatorStep + 1⟩
  | _, _, _ => p

/-- R357: the stream of an uncovered recovery has ended. -/
def Pkg.endUncovered (p : Pkg) : Pkg :=
  match p.secure.recov.bind (·.plan), p.secure.hold with
  | some a, some h => if a.case = .uncovered ∧ h.streamed then p.haltUncovered else p
  | _, _ => p

end Sys2Proof.Machine
end

