-- ==== Sys2Proof/Machine/Power.lean ====
section
/-! DEFINITION. Machine/Power.lean: power states and their controller (R362 to R374), latched pads (R370, R371), operating
points and the interlock (R375 to R378), power limits (R379). -/
namespace Sys2Proof.Machine

def Pkg.setPower (p : Pkg) (x : Power) : Pkg := { p with power := x }

/-- A name of eight bytes, padded with NUL (R365, R366). -/
def nameOf (s : String) : Nat := leNat ((ascii s).take 8)

/-- The refuser names of R365 and R366, by code. -/
def refuserName : Nat → String
  | 0x01 => "SCHEDULE"
  | 0x02 => "PSCTL"
  | 0x03 => "OWNER"
  | 0x04 => "MEMTEST"
  | 0x05 => "BIST"
  | 0x06 => "RECLAIM"
  | 0x07 => "LINKTEST"
  | 0x08 => "CORES"
  | 0x09 => "DMAQUEUE"
  | 0x0A => "REGULATR"
  | 0x0B => "PADS"
  | 0x0C => "WAKEBUDG"
  | 0x0D => "RETAIN"
  | 0x0E => "MEMSR"
  | 0x0F => "AONSAVE"
  | 0x10 => "WAKE"
  | _ => ""

/-! ## Pads (R370, R371) -/

/-- The groups that latch on entry into a state. -/
def padsOf : Nat → List Nat
  | 1 => [1]
  | 3 => [0, 2, 3]
  | 4 => [4]
  | _ => []

/-- Whether R371 accepts the release of a group in this cycle: the domains on both sides are powered, and the neighbour ports
only where the package is, and stays, in PS0. -/
def Pkg.padFree (p : Pkg) (i : Nat) : Bool :=
  let cur := p.reg O.psCurrent
  if i = 1 then decide (cur = 0 ∧ p.reg O.psTarget = 0) else if i = 4 then decide (cur ≤ 3) else decide (cur ≤ 2)

/-- A held group that R371 would now accept. -/
def Pkg.padsWait (p : Pkg) : Bool := (List.range 5).any fun i => bitOf (p.reg O.padHeld) i && p.padFree i

def Pkg.latchPads (p : Pkg) (st : Nat) : Pkg :=
  (padsOf st).foldl (fun p i =>
    let v := p.reg O.padHeld
    if bitOf v i then p else p.setReg O.padHeld (v + 2 ^ i)) p

/-- R371: one group. Releasing MEM queues the exits from self-refresh (R373). -/
def Pkg.releasePad (p : Pkg) (i : Nat) : Pkg :=
  let v := p.reg O.padHeld
  if !bitOf v i then p
  else
    let p := p.setReg O.padHeld (v - 2 ^ i)
    if i = 0 then
      p.setPower { p.power with
        wakeQueue := (p.power.wakeQueue.put [] 7 (List.replicate 12 800)).put [] 8 (List.replicate 24 200) }
    else p

/-- R371: the groups of a write; one that names a group it may not release releases nothing. -/
def Pkg.padReleaseWrite (p : Pkg) (pt : Path) (v : Nat) : Pkg :=
  p.objWrite pt O.padRelease v fun p =>
    if 32 ≤ v then p.refuse pt O.padRelease abRange
    else if (List.range 5).any fun i => bitOf v i && !p.padFree i then (p.refuse pt O.padRelease abState).raise 0x220A noUnit 0
    else
      let p := (List.range 5).foldl (fun p i => if bitOf v i then p.releasePad i else p) p
      if p.reg O.psPhase = 3 ∧ !p.padsWait then p.setReg O.psPhase 0 else p

def execPadRelease (pt : Path) (v : Nat) (s : State) : Host.Outcome State Fault Refusal := s.on (pathPlane pt) fun p => p.padReleaseWrite pt v

/-! ## The controller's requests (R364, R365) -/

/-- A refusal by the controller: the refuser is recorded. -/
def Pkg.psRefuse (p : Pkg) (code : Nat) : Pkg :=
  ((p.setReg O.lastRefuser code).setReg O.lastRefuserName (nameOf (refuserName code))).raise 0x2202 noUnit code

/-- R364. -/
def Pkg.psOwnerWrite (p : Pkg) (pt : Path) (v : Nat) : Pkg :=
  if 3 < v then p.refuse pt O.psOwner abRange
  else
    match claimOf (p.reg O.psOwner) v with
    | .take => p.setReg O.psOwner v
    | .keep => p
    | .release => p.setReg O.psOwner 0
    | .refuse => (p.refuse pt O.psOwner abOwner).psRefuse 3

def execPsOwnerWrite (pt : Path) (v : Nat) (s : State) : Host.Outcome State Fault Refusal := s.on (pathPlane pt) fun p => p.psOwnerWrite pt v

/-- The claimant that a path is (R364). -/
def psClaimant : Path → Nat
  | .hostBar => 1
  | .core => 2
  | .canFd => 3

/-- R373: the largest step of a rail, in units of 0.1 A. -/
def railStep (r : Nat) : Nat :=
  if r < 4 then 300 else if r = 4 then 400 else if r = 5 then 200 else if r = 6 then 250 else if r = 7 then 80 else 20

/-- R374: a wake budget that a rail breaks. -/
def budgetBroken (slew maxA : Nat → Nat) : Bool :=
  (List.range 9).any fun r => decide (10 * maxA r < railStep r ∨ slew r = 0)

/-- Any of n registers from a key holds a value that f picks. -/
def Pkg.anyReg (p : Pkg) (k n : Nat) (f : Nat → Bool) : Bool := (List.range n).any fun i => f (p.reg (k + i))

/-- Whether condition `code` of R365 refuses the entry into a state. -/
def Pkg.refuses (p : Pkg) (pt : Path) (target st code : Nat) : Bool :=
  match code with
  | 0x01 => decide (1 ≤ st ∧ p.reg O.imageState ≠ 0)
  | 0x02 => decide (p.reg O.psPhase ≠ 0 ∨ target = p.reg O.psCurrent)
  | 0x03 => decide (p.reg O.psOwner ≠ psClaimant pt)
  | 0x04 => decide (2 ≤ st) && p.anyReg O.memTestOwner 4 fun v => decide (v ≠ 0)
  | 0x05 => decide (1 ≤ st) && p.anyReg O.bistOwner 4 fun v => decide (v ≠ 0)
  | 0x06 => decide (2 ≤ st ∧ p.reg O.reclaimOwner ≠ 0)
  | 0x07 => decide (1 ≤ st) && p.anyReg O.linkTestOwner 2 fun v => decide (v ≠ 0)
  | 0x08 => decide (3 ≤ st) && p.anyReg O.coreState 68 fun v => decide (v = 0)
  | 0x09 => decide (3 ≤ st) && (List.range 64).any fun q => decide (p.qReg O.queueStatus q = 1 ∨ p.qReg O.queueStatus q = 5)
  | 0x0A => p.anyReg O.supplyState 18 fun v => decide (v = 3)
  | 0x0B => p.padsWait
  | 0x0C => decide (2 ≤ st) && budgetBroken (fun r => p.reg (O.wakeSlewAPerUs + r)) (fun r => p.reg (O.wakeStepMaxA + r))
  | _ => false

/-- The states that a request passes through, in order. -/
def statesPassed (cur target : Nat) : List Nat :=
  if cur < target then (List.range (target - cur)).map (· + cur + 1)
  else (List.range (cur - target)).map fun k => cur - 1 - k

/-- The first condition of R365, in table order, that refuses a state passed through. -/
def Pkg.refuser (p : Pkg) (pt : Path) (target : Nat) : Option Nat :=
  let l := statesPassed (p.reg O.psCurrent) target
  let l := if l.isEmpty then [target] else l
  ((List.range 12).map (· + 1)).find? fun c => l.any fun st => p.refuses pt target st c

/-! ## Entry (R366 to R369) -/

/-- The steps of R366 for the entry into a state. -/
def entrySteps : Nat → List Nat
  | 1 => [1]
  | 2 => [2]
  | 3 => [3, 4, 5]
  | 4 => [4, 5]
  | _ => []

/-- The steps from one state to a deeper one: (state entered, step). -/
def entryPlan (from0 target : Nat) : List (Nat × Nat) :=
  (statesPassed from0 target).flatMap fun st => (entrySteps st).map fun k => (st, k)

/-- The supplies that a state keeps off, of those that the state above keeps on (R439). -/
def suppliesOff : Nat → List Nat
  | 3 => [0, 1, 2, 3, 4, 6, 14, 15]
  | 4 => [5, 16]
  | _ => []

/-- PMBus OPERATION of a supply: on or off. -/
def operationCommand (on : Bool) : Nat := if on then 0x0180 else 0x0100

def Pkg.switchSupplies (p : Pkg) (l : List Nat) (on : Bool) : Pkg :=
  l.foldl (fun p s => (p.setReg (O.supplyState + s) (if on then 2 else 0)).emit (.pmbus s (operationCommand on))) p

/-- The objects of R367's block of spare maps and unit states. -/
def spareKeys : List Nat :=
  (List.range 16).map (O.spareCol + ·) ++ (List.range 208).map (O.tileState + ·) ++ (List.range 4).map (O.spareCore + ·) ++
    (List.range 68).map (O.coreState + ·) ++ (List.range 4).map (O.dirSpareWay + ·) ++ (List.range 12).map (O.spareInUse + ·) ++
    [O.domainPhysId]

def sessionKeys : List Nat := [O.rootPllInUse, O.sessionState, O.sessionId, O.hostoutBytes, O.hostoutOverflowed]

/-- The copies of the objects that software writes (R367). -/
def writable (e : Nat × Nat) : Bool :=
  match objAt e.1 with
  | some o => decide (o.acc = .rw ∨ o.acc = .rws)
  | none => false

def Pkg.regsAt (p : Pkg) (l : List Nat) : SMap Nat := l.map fun k => (k, p.reg k)

/-- R366 step 4: the blocks of R367 that the state saves, and those of PS3 not yet saved. -/
def Pkg.saveAon (p : Pkg) (st : Nat) : Pkg :=
  let a := p.power.aon
  let a := if st = 3 ∨ !a.valid.at false 2 then
      { a with
        spares := p.regsAt spareKeys
        scrub := p.memsys.scrubPos
        cands := p.memsys.cands
        rings := p.wear.rings
        session := p.regsAt sessionKeys
        valid := [2, 3, 4, 5, 7].foldl (fun v k => v.put false k true) a.valid }
    else a
  let a := if st = 4 then
      { a with
        cfgAct := p.dict.act.filter writable
        cfgShadow := p.dict.shadow.filter writable
        valid := [1, 6].foldl (fun v k => v.put false k true) a.valid }
    else a
  p.setPower { p.power with aon := { a with
    hdrValid := true, saveCount := a.saveCount + 1, savedFrom := st, valid := a.valid.put false 0 true } }

/-- The voltage of VDD_Cd in PS2, while no core of die d is online (R439), in mV. -/
abbrev retentionMv : Nat := 620

/-- R362, R369: what a step of R366 does. Without power a tile and its stores hold what they hold after power-up (log 87). -/
def Pkg.entryAction (p : Pkg) (st k : Nat) : Pkg :=
  match k with
  | 1 => (List.range 12).foldl (fun p i =>
      (p.setReg (O.portState + i) (if (p.port i).dead then 4 else 0)).setReg (O.linkNeighbour + i) 0xFFFFFFFF) p
  | 2 =>
    let p := { p with tiles := p.tiles.mapVals Tile.reset fun x => { x with win := [] } }
    (List.range 4).foldl (fun p d =>
      if (List.range 17).any fun c => decide (p.reg (O.coreState + 17 * d + c) = 0) then p
      else
        (p.setPower { p.power with vddTarget := p.power.vddTarget.put 0 d retentionMv }).emit (.pmbus d retentionMv)) p
  | 3 => { p with memsys := { p.memsys with selfRefresh := denseMap false (List.replicate 36 true) } }
  | 4 => p.saveAon st
  | 5 =>
    let p := if st = 3 then
        let p := (p.linkDown 0 0 0).linkDown 1 0 0
        { p with coh := Coh.reset, tiles := [], sramChk := [] }
      else p
    p.switchSupplies (suppliesOff st) false
  | _ => p

/-- The state st has been entered. In PS4 the log is what its tail block holds (R367). -/
def Pkg.entered (p : Pkg) (st : Nat) : Pkg :=
  let p := (p.latchPads st).setReg O.psCurrent st
  let p := if 3 ≤ st ∧ (p.reg O.psOwner = 1 ∨ p.reg O.psOwner = 2) then p.setReg O.psOwner 0 else p
  let p := if st = 4 then { p with ev := { p.ev with log := p.ev.log.drop (p.ev.log.length - 1023) } } else p
  p.raise 0x2204 noUnit 0

/-! ## Wake (R368, R372, R373) -/

/-- The powering steps of R373 that a wake out of a state takes on a rail, in units of 0.01 A. -/
def poweringSteps (st rail : Nat) : List Nat :=
  match st with
  | 3 =>
    if rail < 4 then [3000, 1200] else if rail = 4 then List.replicate 4 4000 else if rail = 5 then [2000]
    else if rail = 6 then [2500] else []
  | 2 => if rail < 4 then List.replicate 48 400 else []
  | 1 => if rail < 4 then List.replicate 48 120 else []
  | _ => []

/-- A wake out of state st fills the queues of the rails and, where it begins, the buckets. -/
def Pkg.queuePowering (p : Pkg) (st : Nat) : Pkg :=
  (List.range 7).foldl (fun p r =>
    let l := poweringSteps st r
    if l.isEmpty then p
    else p.setPower { p.power with wakeQueue := p.power.wakeQueue.put [] r (p.power.wakeQueue.at [] r ++ l) }) p

/-- The buckets are full when a wake begins: key r holds the level in units of 0.01 A, key 16 + r the mtime of it. -/
def Pkg.fillBuckets (p : Pkg) : Pkg :=
  (List.range 9).foldl (fun p r =>
    p.setPower { p.power with
      bucket := (p.power.bucket.put 0 r (100 * p.reg (O.wakeStepMaxA + r))).put 0 (16 + r) p.mtime }) p

/-- A wake towards a target begins. -/
def Pkg.beginWake (p : Pkg) (target : Nat) : Pkg :=
  let cur := p.reg O.psCurrent
  let p := p.setPower { p.power with trans := some ⟨cur, target, true, 0, false⟩, wakeQueue := [] }
  let p := (p.setReg O.psTarget target).setReg O.psPhase 2
  let p := if 3 ≤ cur then p.switchSupplies (suppliesOff cur) true else p
  (p.fillBuckets).queuePowering cur

/-- R368: block i of R367 is restored, or its unit takes its start-up defaults. -/
def Pkg.restoreBlock (p : Pkg) (i : Nat) : Pkg :=
  let a := p.power.aon
  if !a.valid.at false i then
    let v := p.reg O.aonRestoreStatus
    let p := (if bitOf v i then p else p.setReg O.aonRestoreStatus (v + 2 ^ i)).raise 0x2209 noUnit 0
    if i = 4 then { p with memsys := { p.memsys with scrubPos := [], cands := [] } } else p
  else
    let back (p : Pkg) (l : SMap Nat) : Pkg := l.foldl (fun p e => p.setReg e.1 e.2) p
    match i with
    | 1 =>
      let p := back p a.cfgAct
      a.cfgShadow.foldl (fun p e => p.setShadow e.1 e.2) p
    | 2 => back p a.spares
    | 4 => { p with memsys := { p.memsys with scrubPos := a.scrub, cands := a.cands } }
    | 5 => { p with wear := { p.wear with rings := a.rings } }
    | 7 => back p a.session
    | _ => p

/-- A wake has undone state st. -/
def Pkg.leftState (p : Pkg) (st : Nat) : Pkg :=
  let p := p.setReg O.psCurrent (st - 1)
  match st with
  | 4 => (([1, 6].foldl (fun p i => p.restoreBlock i) (p.setReg O.aonRestoreStatus 0)).setReg O.psOwner 0).takeTail
  | 3 =>
    let p := if p.power.trans.any fun t => decide (t.from0 = 3) then p.setReg O.aonRestoreStatus 0 else p
    [2, 3, 4, 5, 7].foldl (fun p i => p.restoreBlock i) p
  | 2 =>
    let n := p.reg O.aclkDivisorActive - 4
    (List.range 4).foldl (fun p d =>
      p.setPower { p.power with vddTarget := p.power.vddTarget.put 0 d (p.reg (O.vddOpMv + 3 * d + n)) }) p
  | _ => p

/-- R372: the target is reached. -/
def Pkg.woken (p : Pkg) : Pkg :=
  let p := p.setPower { p.power with trans := none }
  (p.setReg O.psPhase (if p.padsWait then 3 else 0)).raise 0x2205 noUnit 0

/-- The rails that power islands and dies still have steps to start. -/
def Pkg.powering (p : Pkg) : Bool := (List.range 7).any fun r => !(p.power.wakeQueue.at [] r).isEmpty

/-- A wake's regulators: one that reports a fault aborts it, and the package stays where it is (R372). -/
def Pkg.wakeFault (p : Pkg) : Bool := p.anyReg O.supplyState 18 fun v => decide (v = 3)

/-- R366: an abort's records. -/
def Pkg.noteAbort (p : Pkg) (target code : Nat) : Pkg :=
  (((p.bump (O.psAborted + target) 1).setReg O.lastAborter code).setReg O.lastAborterName (nameOf (refuserName code))).raise
    0x2203 noUnit code

def execWakeStepDone (s : State) : Host.Outcome State Fault Refusal :=
  s.on .always fun p =>
    match p.power.trans with
    | none => p
    | some t =>
      if !t.waking then p
      else if p.wakeFault then
        let p := (p.noteAbort t.target 0x0A).setPower { p.power with trans := none, wakeQueue := [] }
        (p.setReg O.psTarget (p.reg O.psCurrent)).setReg O.psPhase 0
      else if p.powering then p
      else
        let st := p.reg O.psCurrent
        let p := if t.target < st then p.leftState st else p
        let cur := p.reg O.psCurrent
        if cur = t.target then p.woken
        else
          let p := if 3 ≤ cur then p.switchSupplies (suppliesOff cur) true else p
          p.queuePowering cur

/-- R373: the head of a rail's queue starts where the bucket, refilled, holds its current. A self-refresh exit lets its stack or
device serve again. -/
def execWakeBudgetStep (rail : Fin 9) (s : State) : Host.Outcome State Fault Refusal :=
  s.on .always fun p =>
    let r := rail.val
    match p.power.wakeQueue.at [] r with
    | [] => p
    | x :: rest =>
      let top := 100 * p.reg (O.wakeStepMaxA + r)
      let lv := min top (p.power.bucket.at 0 r + p.reg (O.wakeSlewAPerUs + r) * (p.mtime - p.power.bucket.at 0 (16 + r)))
      if lv < x then p
      else
        let p := p.setPower { p.power with
          wakeQueue := p.power.wakeQueue.put [] r rest
          bucket := (p.power.bucket.put 0 r (lv - x)).put 0 (16 + r) p.mtime }
        let exitOf (n : Nat) : Pkg := { p with memsys := { p.memsys with selfRefresh := p.memsys.selfRefresh.put false n false } }
        if r = 7 then exitOf (11 - rest.length) else if r = 8 then exitOf (12 + (23 - rest.length)) else p

/-! ## The controller's commands (R365, R366, R372) -/

/-- A wake source has arrived during an entry: it aborts at the end of the step in progress. -/
def Pkg.wakeDuringEntry (p : Pkg) : Option Pkg :=
  match p.power.trans with
  | some t => if t.waking then none else some (p.setPower { p.power with trans := some { t with wakeReq := true } })
  | none => none

/-- R365. -/
def Pkg.psRequestWrite (p : Pkg) (pt : Path) (v : Nat) : Pkg :=
  p.objWrite pt O.psRequest v fun p =>
    if 4 < v then p.refuse pt O.psRequest abRange
    else
      match (if p.reg O.psOwner = psClaimant pt then p.wakeDuringEntry else none) with
      | some q => q
      | none =>
        match p.refuser pt v with
        | some c =>
          ((p.refuse pt O.psRequest (if c = 3 then abOwner else abState)).bump (O.psRefused + v) 1).psRefuse c
        | none =>
          let cur := p.reg O.psCurrent
          if cur < v then
            ((p.setPower { p.power with trans := some ⟨cur, v, false, 0, false⟩ }).setReg O.psTarget v).setReg O.psPhase 1
          else p.beginWake v

def execPsRequest (pt : Path) (v : Nat) (s : State) : Host.Outcome State Fault Refusal := s.on (pathPlane pt) fun p => p.psRequestWrite pt v

/-- R366: an entry ends without its target: the wake sequence runs back to the state it started from. -/
def Pkg.abortEntry (p : Pkg) (t : Transition) (code : Nat) : Pkg :=
  let p := p.noteAbort t.target code
  let p := { p with memsys := { p.memsys with selfRefresh := [] } }
  if p.reg O.psCurrent = t.from0 then
    let p := p.setPower { p.power with trans := none }
    ((p.setReg O.psTarget t.from0).setReg O.psPhase (if p.padsWait then 3 else 0)).raise 0x2205 noUnit 0
  else p.beginWake t.from0

/-- R366: the step in progress is done. -/
def execPsEntryStepDone (s : State) : Host.Outcome State Fault Refusal :=
  s.on .always fun p =>
    match p.power.trans with
    | none => p
    | some t =>
      if t.waking then p
      else
        let plan := entryPlan t.from0 t.target
        match plan[t.step]? with
        | none => p
        | some (st, k) =>
          let p := p.entryAction st k
          let last := match plan[t.step + 1]? with
            | some (s2, _) => decide (s2 ≠ st)
            | none => true
          let p := if last then p.entered st else p
          if p.reg O.psCurrent = t.target then
            (p.setPower { p.power with trans := none }).setReg O.psPhase 0
          else if t.wakeReq then p.abortEntry t 0x10
          else p.setPower { p.power with trans := some { t with step := t.step + 1 } }

/-- R366: the refuser of a step that times out. -/
def stepRefuser : Nat → Nat
  | 1 => 0x0D
  | 2 => 0x0D
  | 3 => 0x0E
  | 4 => 0x0F
  | _ => 0x0A

def execPsEntryStepTimeout (s : State) : Host.Outcome State Fault Refusal :=
  s.on .always fun p =>
    match p.power.trans with
    | none => p
    | some t =>
      if t.waking then p
      else
        match (entryPlan t.from0 t.target)[t.step]? with
        | none => p
        | some (_, k) => p.abortEntry t (stepRefuser k)

/-- A wake source other than a request (R372): from PS4 to PS3, and from PS3 to PS0 (log 41); during an entry it aborts it. -/
def Pkg.wakeSource (p : Pkg) (bit : Nat) : Pkg :=
  match p.wakeDuringEntry with
  | some q => q
  | none =>
    if p.reg O.psPhase ≠ 0 then p
    else if p.reg O.psCurrent = 4 then if bitOf (p.reg O.wakeSourceEnable) bit then p.beginWake 3 else p
    else if p.reg O.psCurrent = 3 ∧ bit = 1 then p.beginWake 0
    else p

/-- R372: WAKE_N low for 10 µs: a wake source from PS4. With RESET_N low it is not counted (R454). -/
def execWakeN (s : State) : Host.Outcome State Fault Refusal :=
  s.on .always fun p => if p.reg O.psCurrent = 4 ∧ !p.supply.resetLow then p.wakeSource 0 else p

/-! ## Operating points (R375 to R378) -/

/-- The VDD_Cd target of a die at a divisor, in mV (R375). -/
def Pkg.vddOf (p : Pkg) (d div : Nat) : Nat := p.reg (O.vddOpMv + 3 * d + (div - 4))

/-- The voltage command in force on a die: the last one given, or the target of the active divisor. -/
def Pkg.vddNow (p : Pkg) (d : Nat) : Nat :=
  let v := p.power.vddTarget.at 0 d
  if v = 0 then p.vddOf d (p.reg O.aclkDivisorActive) else v

/-- VDD_Cd of a die is commanded over AVSBus. -/
def Pkg.commandVdd (p : Pkg) (d mv : Nat) : Pkg :=
  (p.setPower { p.power with vddTarget := p.power.vddTarget.put 0 d mv }).emit (.pmbus d mv)

/-- R377: a refused write of the divisor. -/
def Pkg.aclkRefuse (p : Pkg) (pt : Path) (ab : Nat) : Pkg := (p.refuse pt O.aclkDivisor ab).raise 0x2201 noUnit 0

/-- R377. -/
def Pkg.aclkDivisorWrite (p : Pkg) (pt : Path) (v : Nat) : Pkg :=
  let floor := (p.loader.image.map (·.aclkDiv)).getD 4
  if v < 4 ∨ 6 < v ∨ v < floor then p.aclkRefuse pt abRange
  else if p.reg O.imageState = 4 ∧ !p.isMaster then p.aclkRefuse pt abState
  else if 1 ≤ p.reg O.cfgArmState then p.refuse pt O.aclkDivisor abState
  else p.setShadow O.aclkDivisor v

def execAclkDivisorWrite (pt : Path) (v : Nat) (s : State) : Host.Outcome State Fault Refusal :=
  s.on (pathPlane pt) fun p => p.aclkDivisorWrite pt v

/-- R378, R376: a change of the operating point begins at this beat. Towards a higher frequency VDD_Cd is commanded, and a die
whose voltage has to rise holds the change. -/
def Pkg.beginOpChange (p : Pkg) (div : Nat) : Pkg :=
  let act := p.reg O.aclkDivisorActive
  if div = act then p
  else
    let p := p.setPower { p.power with opNext := some (div, p.reg O.domainBeat) }
    if act < div then p
    else
      (List.range 4).foldl (fun p d =>
        let rise := decide (p.vddNow d + 10 < p.vddOf d div)
        let p := p.commandVdd d (p.vddOf d div)
        if rise then
          ((p.setPower { p.power with dvfsHeld := p.power.dvfsHeld.put 0 d 1 }).bump (O.interlockHolds + d) 1).raise 0x2207 d 0
        else p) p

/-- R377, R378: the announced divisor takes effect at a Period: a differing shadow value is reported, and the schedule holds. -/
def Pkg.takeDivisor (p : Pkg) (div : Nat) : Pkg :=
  let p := if p.shadowReg O.aclkDivisor ≠ div then p.raise 0x2206 noUnit 0 else p
  if div = p.reg O.aclkDivisorActive then p
  else (p.beginOpChange div).addSlip ⟨p.reg O.domainBeat, p.reg O.opHoldBeats, .opChange⟩

/-- R378: at its beat within the hold the divisor changes. Lowered, VDD_Cd is then commanded; raised, a die that is not
satisfied fails the package, whose beats would part from the domain's. -/
def execDivisorChange (s : State) : Host.Outcome State Fault Refusal :=
  s.on .management fun p =>
    match p.power.opNext with
    | none => p
    | some (div, d0) =>
      let act := p.reg O.aclkDivisorActive
      let at' := if act < div then d0 + 16 else d0 + p.reg O.opHoldBeats - 4096
      let held := (List.range 4).any fun d => decide (p.power.dvfsHeld.at 0 d ≠ 0)
      let run := decide (p.reg O.imageState = 4)
      if p.reg O.domainBeat < at' ∧ run then p
      else if held then
        if run then
          let q := (p.raise 0x220B noUnit 0).declareFailed
          q.setPower { q.power with opNext := none }
        else p
      else
        let p := (p.setPower { p.power with opNext := none }).setReg O.aclkDivisorActive div
        let p := if act < div then (List.range 4).foldl (fun p d => p.commandVdd d (p.vddOf d div)) p else p
        p.raise 0x220D noUnit 0

/-- R376: the die's VDD_Cd has read within 10 mV of its target for 10 µs: what it held is released. -/
def execDvfsInterlockRelease (d : DieNo) (s : State) : Host.Outcome State Fault Refusal :=
  s.on .management fun p => p.setPower { p.power with dvfsHeld := p.power.dvfsHeld.put 0 d.val 0 }

/-! ## Power limits (R28, R379) -/

/-- The last n samples held, in mW. -/
def lastSamples (l : List Nat) (n : Nat) : List Nat := l.drop (l.length - n)

/-- The mean of samples, in whole watts. -/
def meanWatts (l : List Nat) : Nat := if l.isEmpty then 0 else min (l.sum / l.length / 1000) 65535

/-- The mean of samples is above a limit in watts. -/
def aboveLimit (l : List Nat) (watts : Nat) : Bool := decide (watts * 1000 * l.length < l.sum)

/-- R28: one sample of the package's power. Before 10, or 100, are held the mean is that of the samples there are, and stands against the
limit (DESIGN CHOICE, log 89). -/
def execPowerSample (milliwatts : Nat) (s : State) : Host.Outcome State Fault Refusal :=
  s.on .management fun p =>
    let l := lastSamples (p.power.samples ++ [milliwatts]) 100
    let a := lastSamples l 10
    let excess := aboveLimit a 3300 || aboveLimit l 2800
    let was := p.power.excess
    let p := p.setPower { p.power with samples := l, excess := excess }
    let p := (p.setReg O.powerAvg10msW (meanWatts a)).setReg O.powerAvg100msW (meanWatts l)
    if excess ∧ !was then (p.raise 0x2208 noUnit 0).bump O.powerExcessCount 1 else p

end Sys2Proof.Machine
end

