-- ==== Sys2Proof/Machine/CfgSwap.lean ====
section
/-! DEFINITION. Machine/CfgSwap.lean: configuration sets and their swaps (R390 to R394, R399), spares (R32, R281, R395),
the Period trigger (R398, R400 to R402). -/
namespace Sys2Proof.Machine

def Pkg.setCfg (p : Pkg) (x : Cfg) : Pkg := { p with cfg := x }

/-! ## Arming (R391) -/

/-- R81, R224: a ledger ring of records of n bytes each. -/
def ringOk (base n records : Nat) : Bool :=
  decide (records = 0) ||
    decide (records ≤ 2 ^ 24 ∧ base % n = 0 ∧ regionOf base = .lpddr) && inMem base (n * records)

/-- R316: a window of n bytes at a base. -/
def windowOk (base n : Nat) : Bool := decide (base % 2 ^ 30 = 0 ∧ regionOf base = .lpddr) && inMem base n

/-- The swap checks of the shadow set, each with the event of its refusal. -/
def Pkg.swapChecks (p : Pkg) : List (Nat × Bool) :=
  let sh := p.shadowReg
  let cmd := sh O.cmdWindowBase
  let ing := sh O.ingestWindowBase
  let ramp := 2 * ceilDiv (sh O.dummyFloor) (max 1 (sh O.rampStep)) * sh O.rampInterval
  let ringLen := sh O.saveOutBytes
  [(0x3007, decide (ramp ≤ sh O.gapThreshold)),
    (0x3407, ringOk (sh O.ledgerRingBase) 128 (sh O.ledgerRingRecords)),
    (0x3C06, ringOk (sh O.dispatchRingBase) 64 (sh O.dispatchRingRecords)),
    (0x4609, windowOk cmd (2 ^ 32) && windowOk ing (2 ^ 38) && decide (cmd + 2 ^ 32 ≤ ing ∨ ing + 2 ^ 38 ≤ cmd)),
    (0x4810, decide (ringLen = 0 ∨ (4 * mib ≤ ringLen ∧ sh O.saveOutOffset + ringLen ≤ 2 ^ 38))),
    (0x220C, !budgetBroken (fun r => sh (O.wakeSlewAPerUs + r)) (fun r => sh (O.wakeStepMaxA + r)))]

/-- A write refused in the present state (R385). -/
def Pkg.cfgArmWrite (p : Pkg) (pt : Path) (v : Nat) : Pkg :=
  p.objWrite pt O.cfgArmGen v fun p =>
    let st := p.reg O.cfgArmState
    if v = 0xFFFFFFFF then p.refuse pt O.cfgArmGen abRange
    else if v = 0 then
      if st = 3 then p.refuse pt O.cfgArmGen abState
      else ((p.setReg O.cfgArmGen 0).setReg O.cfgArmState 0).setCfg { p.cfg with localSwap := false }
    else if st ≠ 0 then p.refuse pt O.cfgArmGen abState
    else (p.setReg O.cfgArmGen v).setReg O.cfgArmState 1

def execCfgArm (pt : Path) (v : Nat) (s : State) : Host.Outcome State Fault Refusal := s.on (pathPlane pt) fun p => p.cfgArmWrite pt v

def execCfgDisarm (pt : Path) (s : State) : Host.Outcome State Fault Refusal := s.on (pathPlane pt) fun p => p.cfgArmWrite pt 0

/-- R392: a package armed with the generation of an announcement locks, until the cut-off. -/
def Pkg.tryLock (p : Pkg) : Pkg :=
  match p.cfg.announce, p.posImage with
  | some a, some i =>
    if p.reg O.cfgArmState = 2 ∧ p.reg O.cfgArmGen = a.gen ∧ p.schedBeat + i.slipHorizon < a.beat then
      p.setReg O.cfgArmState 3
    else p
  | _, _ => p

/-- R391: validation ends. Of several checks that fail the first in the order of swapChecks gives the event (DESIGN CHOICE, log 90). -/
def execCfgArmValidated (s : State) : Host.Outcome State Fault Refusal :=
  s.on .management fun p =>
    if p.reg O.cfgArmState ≠ 1 then p
    else
      match p.swapChecks.find? fun c => !c.2 with
      | none => (p.setReg O.cfgArmState 2).tryLock
      | some c =>
        (((p.setReg O.cfgArmState 0).raise c.1 noUnit 0).setReg O.cfgLastRefusal c.1).raise 0x2603 noUnit c.1

/-! ## Domain swaps (R392) -/

/-- The first schedule beat at or after b at which an entry with sw = 1 falls. -/
def nextSwapBeat (p : Pkg) (i : Image) (b : Nat) : Option Nat :=
  let l := (i.prog.filter (·.sw)).map (·.offset)
  if i.cycleLen = 0 then none
  else
    let b := max b p.sched.cycle0
    let c := p.sched.cycle0 + (b - p.sched.cycle0) / i.cycleLen * i.cycleLen
    ((l.map (c + ·)) ++ l.map (c + i.cycleLen + ·)).find? fun x => decide (b ≤ x)

/-- An announcement is pending on this package. -/
def Pkg.takeAnnouncement (p : Pkg) (gen divisor beat : Nat) : Pkg :=
  (p.setCfg { p.cfg with announce := some ⟨gen, divisor, beat, false⟩ }).tryLock

def Pkg.cfgSwapWrite (p : Pkg) (pt : Path) (v : Nat) : Pkg :=
  p.objWrite pt O.cfgSwapGen v fun p =>
    let no := p.refuse pt O.cfgSwapGen abState
    match p.posImage with
    | none => no
    | some i =>
      if p.reg O.imageState ≠ 4 ∨ !p.isMaster ∨ p.cfg.announce.isSome then no
      else
        match nextSwapBeat p i (p.schedBeat + 2 * i.slipHorizon) with
        | none => no
        | some b =>
          let d := p.shadowReg O.aclkDivisor
          (p.flood 0x40 0 [v, d, b]).takeAnnouncement v d b

def execCfgSwapGen (pt : Path) (v : Nat) (s : State) : Host.Outcome State Fault Refusal := s.on (pathPlane pt) fun p => p.cfgSwapWrite pt v

def execSwapAnnouncement (x : C0In) (gen divisor beat : Nat) (s : State) : Host.Outcome State Fault Refusal :=
  s.on .link fun p => p.floodIn x 0x40 [gen, divisor, beat] fun p =>
    if p.reg O.imageState = 4 then p.takeAnnouncement gen divisor beat else p

/-- The pending announcement is refused. -/
def Pkg.markRefused (p : Pkg) : Pkg :=
  p.setCfg { p.cfg with announce := p.cfg.announce.map fun (a : Announce) => { a with refused := true } }

/-- R392: at P − slip_horizon a package that is not locked floods its refusal. -/
def execSwapCutoff (s : State) : Host.Outcome State Fault Refusal :=
  s.on .management fun p =>
    match p.cfg.announce, p.posImage with
    | some a, some i =>
      if p.schedBeat + i.slipHorizon < a.beat ∨ p.reg O.cfgArmState = 3 ∨ a.refused then p
      else (p.flood 0x41 0 [p.reg O.logicalPosition]).markRefused
    | _, _ => p

def execSwapRefusal (x : RefusalIn) (s : State) : Host.Outcome State Fault Refusal :=
  s.on .link fun p => p.floodIn x.msg 0x41 [x.position] fun p => p.markRefused

/-! ## Local swaps (R393) -/

def Pkg.cfgLocalWrite (p : Pkg) (pt : Path) (v : Nat) : Pkg :=
  p.objWrite pt O.cfgSwapLocal v fun p =>
    if v ≠ 1 then p.refuse pt O.cfgSwapLocal abRange
    else if p.reg O.cfgArmState ≠ 2 ∨ p.reg O.imageState = 4 then p.refuse pt O.cfgSwapLocal abState
    else p.setCfg { p.cfg with localSwap := true }

def execCfgSwapLocal (pt : Path) (v : Nat) (s : State) : Host.Outcome State Fault Refusal := s.on (pathPlane pt) fun p => p.cfgLocalWrite pt v

/-! ## A swap is applied (R392, R393, R399) -/

/-- The objects of the spare subset: they follow rules of their own (R395). -/
def spareSubset : List Nat :=
  (List.range 16).map (O.spareCol + ·) ++ (List.range 4).map (O.spareCore + ·) ++ (List.range 4).map (O.dirSpareWay + ·)

/-- A ring's indices restart where its base or its size changes (R81, R224). -/
def Pkg.ringRestart (p : Pkg) (old : Pkg) (r : Ring) : Pkg :=
  if p.reg r.base = old.reg r.base ∧ p.reg r.size = old.reg r.size then p else (p.setReg r.wr 0).setReg r.rd 0

/-- Every active copy takes its shadow value, but for those that the list keeps. -/
def Pkg.takeShadows (p : Pkg) (keep : List Nat) : Pkg :=
  rwsElements.foldl (fun p e => if e.1 ∈ keep then p else p.setReg e.1 (p.shadowReg e.1)) p

/-- A swap: `div` is the announced divisor of a domain swap. -/
def Pkg.applySet (p : Pkg) (gen : Nat) (div : Option Nat) : Pkg :=
  let held := div.isSome && decide (p.shadowReg O.rootPllSelect ≠ p.reg O.rootPllSelect)
  let q := p.takeShadows (spareSubset ++ if div.isSome then [O.rootPllSelect] else [])
  let q := ((q.ringRestart p ledgerRing).ringRestart p dispatchRing).noteScrub (p.reg O.scrubEnable)
  let q := match div with
    | some d => (q.setReg O.aclkDivisor d).takeDivisor d
    | none => (q.setReg O.rootPllInUse (q.reg O.rootPllSelect)).beginOpChange (q.reg O.aclkDivisor)
  let q := ((q.setReg O.cfgActiveGen gen).setReg O.cfgArmState 0).bump O.cfgSwaps 1
  let q := (q.extend 3 1 2 gen (digest256 q.activeImage)).raise 0x2604 noUnit 0
  if held then q.raise 0x2605 noUnit 0 else q

/-- The end of an announcement at its Period. -/
def Pkg.domainSwap (p : Pkg) (a : Announce) : Pkg :=
  let p := p.setCfg { p.cfg with announce := none }
  if a.refused ∨ p.reg O.cfgArmState ≠ 3 then
    ((if p.reg O.cfgArmState = 3 then p.setReg O.cfgArmState 2 else p).bump O.cfgSwapsCancelled 1).raise 0x2605 noUnit 0
  else p.applySet a.gen (some a.divisor)

/-! ## The spare subset (R32, R281, R395) -/

/-- R32: whether a change of the spare column of row r is accepted. -/
def Pkg.colOk (p : Pkg) (r : Nat) : Bool :=
  let q := 13 * r + p.reg (O.spareCol + r)
  decide (p.reg (O.tileState + q) = 1) && p.qualified.at false q

/-- n words of a range take free values (log 44). -/
def Pkg.freeRange (p : Pkg) (a n : Nat) : Pkg :=
  (List.range n).foldl (fun p k =>
    let f := p.fresh
    let g := f.2.fresh
    g.2.setWord (a + 16 * k) (goodWord (f.1 ++ g.1))) p

/-- The logical tiles of (die, row) r. -/
def rowTiles (r : Nat) : List Nat :=
  let d := r / 4
  (List.range 12).map fun k => (r % 4 + 4 * (d / 2)) * 24 + k + 12 * (d % 2)

/-- An accumulator store takes free values (log 44). -/
def Pkg.freeStore (p : Pkg) (n : Nat) : Pkg :=
  (List.range (1024 * 32)).foldl (fun p k =>
    let f := p.fresh
    let g := f.2.fresh
    let t := g.2.tile n
    g.2.setTile n { t with mx := { t.mx with acc := t.mx.acc.put AccWord.reset k ⟨goodWord (f.1 ++ g.1), 0⟩ } }) p

/-- R32: nothing comes from the old physical tile n: its SRAM and its accumulator store start anew. -/
def Pkg.freshTile (p : Pkg) (n : Nat) : Pkg :=
  let p := (p.freeStore n).freeRange (sramAddr n 0) (tileSize / 16)
  let t := p.tile n
  p.setTile n { t with mx := { t.mx with rows := [], scrub := 0 } }

/-- R32: the row's records come from the resident image; its SRAM starts anew. -/
def Pkg.rewriteTiles (p : Pkg) (r : Nat) : Pkg :=
  let st := p.reg O.imageState
  if st = 0 ∨ st = 3 ∨ st = 1 then p
  else
    match p.loader.image with
    | none => p
    | some i => (rowTiles r).foldl Pkg.freshTile ((p.reloadTiles i fun n => decide (n ∈ rowTiles r)).getD p)

/-- R32, R59: a change of the spare column of (die, row) r; the tile that leaves is the unit of the event (log 23). -/
def Pkg.swapCol (p : Pkg) (r : Nat) : Pkg :=
  let new := p.shadowReg (O.spareCol + r)
  let old := p.reg (O.spareCol + r)
  if new = old then p
  else if !p.colOk r then p.raise 0x3002 noUnit 0
  else
    let out := 13 * r + new
    let p := (p.setReg (O.spareCol + r) new).setReg (O.tileState + 13 * r + old) 0
    let p := if p.reg (O.tileState + out) = 3 then p
      else if p.testFailed.at false out ∨ p.tileWears out then retireTile p out
      else p.setReg (O.tileState + out) 1
    (p.rewriteTiles r).raise 0x3001 out 0

/-- R281: whether a change of the spare core of die d is accepted. -/
def Pkg.coreOk (p : Pkg) (d : Nat) : Bool :=
  let c := 17 * d + p.shadowReg (O.spareCore + d)
  decide (p.reg (O.coreState + c) = 1) && !p.coh.dir.any fun e => match dirRead e.2 with
    | some v => decide (bits v 70 68 ≠ 0) && bitOf (v % 2 ^ 68) c
    | none => false

/-- R281: a change of the spare core of die d; the incoming core starts from reset and waits in the boot stage (R423). -/
def Pkg.swapCore (p : Pkg) (d : Nat) : Pkg :=
  let new := p.shadowReg (O.spareCore + d)
  let old := p.reg (O.spareCore + d)
  if new = old then p
  else if !p.coreOk d then p.raise 0x4302 d 0
  else
    let p := ((p.setReg (O.spareCore + d) new).setReg (O.coreState + 17 * d + new) 2).setReg (O.coreState + 17 * d + old) 1
    ({ p with boot := { p.boot with coreHeld := p.boot.coreHeld.put false (17 * d + old) true } }).raise 0x4301 d 0

/-- The elements of the spare subset whose change takes effect. -/
def Pkg.subsetApplies (p : Pkg) : Bool :=
  ((List.range 16).any fun r => decide (p.shadowReg (O.spareCol + r) ≠ p.reg (O.spareCol + r)) && p.colOk r) ||
  ((List.range 4).any fun d => decide (p.shadowReg (O.spareCore + d) ≠ p.reg (O.spareCore + d)) && p.coreOk d) ||
  (List.range 4).any fun n => decide (p.shadowReg (O.dirSpareWay + n) ≠ p.reg (O.dirSpareWay + n))

/-- R395: the whole subset. A change of dir_spare_way waits further for the next sweep (R280). -/
def Pkg.applySubset (p : Pkg) : Pkg :=
  let p := (List.range 16).foldl Pkg.swapCol p
  let p := (List.range 4).foldl Pkg.swapCore p
  (List.range 4).foldl (fun p n => p.setReg (O.dirSpareWay + n) (p.shadowReg (O.dirSpareWay + n))) p

/-- R32: at any other Period a spare column stays, with event 0x3002 once. -/
def Pkg.keepSubset (p : Pkg) : Pkg :=
  if (List.range 16).any fun r => decide (p.shadowReg (O.spareCol + r) ≠ p.reg (O.spareCol + r)) then p.raise 0x3002 noUnit 0
  else p

/-! ## The Period (R400 to R402) -/

/-- Whether a key is in the snapshot set. -/
def latchedKey (e : Nat × Nat) : Bool :=
  decide (e.1 ∈ [O.periodSeq, O.periodBeat, O.periodSchedBeat, O.periodKind]) ||
    (match objAt e.1 with
      | some o => o.latched
      | none => false)

/-- The snapshot set is latched. -/
def Pkg.latchSnapshot (p : Pkg) : Pkg := { p with dict := { p.dict with snap := p.dict.act.filter latchedKey } }

/-- The step-program entry with per = 1 that schedule time has reached, not taken yet. -/
def Pkg.periodEntry (p : Pkg) : Option ProgEntry :=
  match p.posImage with
  | none => none
  | some i =>
    if p.evaluates ∧ p.cfg.lastSched ≠ some p.schedBeat then (p.entriesNow i).find? (·.per) else none

/-- A local Period may fire: 1,024 beats after the last one, or outside PS0 (R400). -/
def Pkg.localFree (p : Pkg) : Bool :=
  decide (p.reg O.psCurrent ≠ 0) || (match p.cfg.lastLocal with
    | none => true
    | some b => decide (b + 1024 ≤ p.reg O.domainBeat))

def Pkg.localDue (p : Pkg) : Bool := (p.cfg.pendTimer || p.cfg.pendRequest) && p.localFree

/-- R401: a Period with its sources: a scheduled entry, and a local one. -/
def Pkg.takePeriod (p : Pkg) (e : Option ProgEntry) (loc : Bool) : Pkg :=
  let runs := decide (p.reg O.imageState = 4)
  let point := e.any (·.sp) && p.securing.isSome && p.savePointDue && p.secure.hold.isNone
  let subset := point || (loc && !runs)
  let ann := match e, p.cfg.announce with
    | some x, some a => if x.sw ∧ a.beat ≤ p.schedBeat then some a else none
    | _, _ => none
  let lswap := loc && !runs && p.cfg.localSwap && decide (p.reg O.cfgArmState = 2)
  let swaps := lswap || (ann.any fun a => !a.refused && decide (p.reg O.cfgArmState = 3))
  let kind := b2n e.isSome + 2 * b2n (loc && p.cfg.pendTimer) + 4 * b2n (loc && p.cfg.pendRequest) + 8 * b2n point +
    16 * b2n swaps + 32 * b2n (subset && p.subsetApplies)
  let p := (((p.setReg O.periodSeq ((p.reg O.periodSeq + 1) % 2 ^ 64)).setReg O.periodBeat (p.reg O.domainBeat)).setReg
    O.periodSchedBeat p.schedBeat).setReg O.periodKind kind
  let p := p.latchSnapshot
  let p := { p.setHost { p.host with ingestDropSeen := false } with memsys := { p.memsys with corrSeen := [] } }
  let p := { p with links := { p.links with
    ports := p.links.ports.mapVals PortSt.reset fun x => { x with retryFlag := false } } }
  let p := if e.isSome then p.setCfg { p.cfg with lastSched := some p.schedBeat } else p
  let p := if loc then
      p.setCfg { p.cfg with pendTimer := false, pendRequest := false, lastLocal := some (p.reg O.domainBeat) }
    else p
  let p := if subset then p.applySubset else p.keepSubset
  let p : Pkg := match ann with
    | some a => p.domainSwap a
    | none => if lswap then (p.setCfg { p.cfg with localSwap := false }).applySet (p.reg O.cfgArmGen) none else p
  let p : Pkg := match point, p.posImage, p.securing with
    | true, some i, some x => p.beginSave i x p.activeImage
    | _, _, _ => p
  if p.reg O.prdOutOwner = 1 then p.emit .prdOut else p

/-- The Period of this beat, where a source fires. -/
def Pkg.firePeriod (p : Pkg) : Pkg :=
  let e := p.periodEntry
  let loc := p.localDue
  if e.isSome ∨ loc then p.takePeriod e loc else p

def execPeriod (s : State) : Host.Outcome State Fault Refusal := s.on .management fun p => p.firePeriod

/-- R400: a local Period at a beat boundary; one that meets a scheduled Period is left to it. -/
def Pkg.localPeriod (p : Pkg) : Pkg := if p.localDue ∧ p.periodEntry.isNone then p.takePeriod none true else p

/-- Outside PS0 a local Period fires at once (R400). -/
def Pkg.localNow (p : Pkg) : Pkg := if p.reg O.psCurrent ≠ 0 then p.localPeriod else p

/-- R400: the claimed timer fires at t_c + k × period_interval_ms; several instants passed make one firing. -/
def execPeriodTimerFire (s : State) : Host.Outcome State Fault Refusal :=
  s.on .management fun p =>
    let step := p.reg O.periodIntervalMs * 100000
    let k := if step = 0 then 0 else (p.mtime - p.cfg.timerClaim) / step
    if p.reg O.periodTimerOwner = 0 ∨ k ≤ p.cfg.timerFired then p
    else (p.setCfg { p.cfg with timerFired := k, pendTimer := true }).localNow

/-- A request of a local Period (R400, R466). -/
def Pkg.askPeriod (p : Pkg) : Pkg := (p.setCfg { p.cfg with pendRequest := true }).localNow

def Pkg.periodRequestWrite (p : Pkg) (pt : Path) (v : Nat) : Pkg :=
  p.objWrite pt O.periodRequest v fun p => if v = 1 then p.askPeriod else p.refuse pt O.periodRequest abRange

def execPeriodRequest (pt : Path) (v : Nat) (s : State) : Host.Outcome State Fault Refusal := s.on (pathPlane pt) fun p => p.periodRequestWrite pt v

/-! ## The timer and the land (R398) -/

/-- A claim of the timer begins its phase; a release ends it. -/
def Pkg.timerOwnerWrite (p : Pkg) (pt : Path) (v : Nat) : Pkg :=
  if 3 < v then p.refuse pt O.periodTimerOwner abRange
  else
    let was := p.reg O.periodTimerOwner
    let q := p.ownerWrite (.path pt) O.periodTimerOwner v 0x2602 noUnit
    if was = 0 ∧ v ≠ 0 then q.setCfg { q.cfg with timerClaim := q.mtime, timerFired := 0 } else q

def execPeriodTimerOwnerWrite (pt : Path) (v : Nat) (s : State) : Host.Outcome State Fault Refusal :=
  s.on (pathPlane pt) fun p => p.timerOwnerWrite pt v

def Pkg.prdOutOwnerWrite (p : Pkg) (pt : Path) (v : Nat) : Pkg :=
  if 2 < v then p.refuse pt O.prdOutOwner abRange else p.ownerWrite (.path pt) O.prdOutOwner v 0x2602 noUnit

def execPrdOutOwnerWrite (pt : Path) (v : Nat) (s : State) : Host.Outcome State Fault Refusal :=
  s.on (pathPlane pt) fun p => p.prdOutOwnerWrite pt v

/-! ## The time exchange (R141, R143, R394) -/

/-- R140, R141, R143, R394: a package that the chain of time parents has not reached takes its parent's count; every exchange, that
one too, is followed by the checks of R143. The comparisons use the values at the exchange's beat. -/
def Pkg.timeExchange (p : Pkg) (x : TimeExchange) : Pkg :=
  if p.isMaster ∨ p.reg O.timeParentPort = 0xFF then p
  else
    let p := if p.sched.formed then p
      else ((p.setReg O.domainBeat x.parentBeat).setReg O.slipTotal x.parentSlip).setSched
        { p.sched with formed := true, offsetRuns := 0 }
    let p := (p.setReg O.timeOffset (toBits 32 x.residualPs)).setCfg { p.cfg with masterGen := x.masterGen }
    let far := decide (24000 < x.residualPs.natAbs)
    let runs := if far then p.sched.offsetRuns + 1 else 0
    let p := p.setSched { p.sched with offsetRuns := runs }
    let p := if far then p.raise 0x3809 noUnit 0 else p
    let p := if 3 ≤ runs then p.declareFailed else p
    if x.parentBeat ≠ p.reg O.domainBeat then p
    else
      let p := if x.parentSlip ≠ p.reg O.slipTotal then (p.raise 0x3808 noUnit 0).declareFailed else p
      if p.reg O.imageState = 4 ∧ x.masterGen ≠ p.reg O.cfgActiveGen then (p.raise 0x2606 noUnit 0).declareFailed else p

def execTimeExchange (x : TimeExchange) (s : State) : Host.Outcome State Fault Refusal := s.on .link fun p => p.timeExchange x

end Sys2Proof.Machine
end

