-- ==== Sys2Proof/Machine/LinkPort.lean ====
section
/-! DEFINITION. Machine/LinkPort.lean: the neighbour ports: codewords, acknowledgement and retry (R288 to R292), class 0 (R293,
R294), training, spares and retrain (R296 to R298), partners and routing (R299 to R303), bridges and the test engines (R305,
R306). What goes over the lanes is in LinkBits.lean. -/
namespace Sys2Proof.Machine

/-! ## Flits and buffers -/

def fullCredits : List Nat := [32, 512, 512, 128, 128]

/-- A link-local flit (R289, R290). -/
def Pkg.localFlit0 (p : Pkg) (type arg : Nat) (payload : List Byte) : LinkFlit :=
  ⟨0, 1, false, 0, p.reg O.domainPhysId, 0, type * 2 ^ 18 + arg, payload ++ List.replicate (64 - payload.length) 0, [], none, 0⟩

/-- The idle flit. -/
def Pkg.idleFlit (p : Pkg) : LinkFlit := p.localFlit0 0 0 []

/-- The payload of an ack: position, and the freed credits of the five buffers (log 45). -/
def ackPayload (position : Nat) (freed : List Nat) : List Byte :=
  toLe 4 position ++ (List.range 5).flatMap fun i => toLe 2 (freed.getD i 0)

/-- A credit for the flit's buffer is held. -/
def PortSt.hasCredit (x : PortSt) (f : LinkFlit) : Bool := decide (0 < x.credits.getD (bufferOf f) 0)

/-- A credit is spent. -/
def PortSt.spend (x : PortSt) (f : LinkFlit) : PortSt :=
  { x with credits := (List.range 5).map fun k => x.credits.getD k 0 - if k = bufferOf f then 1 else 0 }

/-- Position a is at or below b, of positions modulo 2^32. -/
def atOrBelow (a b : Nat) : Bool := decide ((b + 2 ^ 32 - a) % 2 ^ 32 < 2 ^ 31)

/-- R292: a port that is up. -/
def Pkg.up (p : Pkg) (i : Nat) : Bool := decide (p.reg (O.portState + i) = 2)

/-! ## Sending a codeword (R288, R291, R293, R302) -/

/-- The first flit of a queue, where a credit for it is held: the flit, the port without the credit, and what is left. -/
def PortSt.head (x : PortSt) : List LinkFlit → Option (LinkFlit × PortSt × List LinkFlit)
  | f :: r => if x.hasCredit f then some (f, x.spend f, r) else none
  | [] => none

/-- The next flit of a slot: link-local, then a second copy, then class 0, then classes 1 and 3 in rotation 7 to 1 (R293, R302). -/
def Pkg.nextFlit (p : Pkg) (x : PortSt) : LinkFlit × PortSt :=
  match x.local0 with
  | (t, a, v) :: r => (p.localFlit0 t a v, { x with local0 := r })
  | [] =>
    let turn (y : PortSt) : PortSt := { y with turn := (x.turn + 1) % 8 }
    match x.head x.second, x.head x.tx0, x.head x.tx1, x.head x.tx3 with
    | some (f, y, r), _, _, _ => (f, { y with second := r })
    | none, some (f, y, r), _, _ => (f, { y with tx0 := r })
    | none, none, some (f, y, r), some (g, z, t) =>
      if x.turn < 7 then (f, turn { y with tx1 := r }) else (g, turn { z with tx3 := t })
    | none, none, some (f, y, r), none => (f, turn { y with tx1 := r })
    | none, none, none, some (g, z, t) => (g, turn { z with tx3 := t })
    | none, none, none, none => (p.idleFlit, x)

/-- n slots. -/
def Pkg.fillSlots (p : Pkg) : Nat → PortSt → List LinkFlit × PortSt
  | 0, x => ([], x)
  | n + 1, x =>
    let a := p.nextFlit x
    let r := p.fillSlots n a.2
    (a.1 :: r.1, r.2)

/-- A routed class-0 flit, sent for the first time. -/
def firstCopy (f : LinkFlit) : Bool := decide (f.cls = 0 ∧ f.vc = 0) && !f.copy

/-- A ready flit that waits for a credit. -/
def PortSt.stuck (x : PortSt) : Bool :=
  [x.second, x.tx0, x.tx1, x.tx3].any fun l => !l.isEmpty && (x.head l).isNone

/-- The lane that lane 8 carries at a stream position (R297). -/
def PortSt.laneUse (x : PortSt) (pos : Nat) : Option Nat :=
  x.spareAt.bind fun e => if atOrBelow e.2 pos then some e.1 else none

/-- A codeword on the lanes of a port, by the map of its position (R288, R297). -/
def Pkg.sendCodeword (p : Pkg) (i pos : Nat) (fs : List LinkFlit) : Pkg :=
  let x := p.port i
  p.emit (.codeword i (laneSymbols (x.laneUse pos) (x.spareAt.map (·.1)) (codeSymbols (fs.flatMap flitBytes))))

/-- R288, R290, R293, R302: a new codeword: an ack in slot 0 of every sixteenth; the second copies of its class-0 flits go into the
next one; a transit flit leaves the buffer it took. -/
def Pkg.newCodeword (p : Pkg) (i : Nat) : Pkg :=
  let x := p.port i
  let acks := decide (x.txPos % 16 = 0)
  let head : List LinkFlit :=
    if acks then [p.localFlit0 1 0 (ackPayload ((x.rxPos + 2 ^ 32 - 1) % 2 ^ 32) x.freed)] else []
  let r := p.fillSlots (8 - head.length) (if acks then { x with freed := [] } else x)
  let fs := head ++ r.1
  let y := { r.2 with
    second := r.2.second ++ (fs.filter firstCopy).map fun (f : LinkFlit) => { f with copy := true }
    replay := r.2.replay ++ [(x.txPos, fs)]
    txPos := (x.txPos + 1) % 2 ^ 32
    stalled := x.stalled || r.2.stuck }
  let p := (p.setPort i y).sendCodeword i x.txPos fs
  (fs.filterMap (·.held)).foldl (fun p e => p.freeCredit e.1 e.2) p

/-- R291: a codeword of idle flits, which takes no position (log 45). -/
def Pkg.idleCodeword (p : Pkg) (i : Nat) : Pkg :=
  let x := p.port i
  let waits := !x.second.isEmpty || !x.tx0.isEmpty || !x.tx1.isEmpty || !x.tx3.isEmpty
  (p.setPort i { x with stalled := x.stalled || waits }).sendCodeword i x.txPos (List.replicate 8 p.idleFlit)

/-- R288, R291: the next codeword of an up port: one of a replay, or a new one, or idle flits while the replay buffer of 512 is
full. -/
def Pkg.transmit (p : Pkg) (i : Nat) : Pkg :=
  let x := p.port i
  if !p.up i then p
  else
    match x.resend with
    | some pos =>
      match x.replay.dropWhile fun e => decide (e.1 ≠ pos) with
      | [] => p.setPort i { x with resend := none }
      | e :: r => (p.setPort i { x with resend := r.head?.map (·.1) }).sendCodeword i e.1 e.2
    | none => if 512 ≤ x.replay.length then p.idleCodeword i else p.newCodeword i

def execCodewordTransmit (port : PortNo) (s : State) : Host.Outcome State Fault Refusal := s.on .link fun p => p.transmit port.val

/-- A ready flit that waits: for a credit, or for room in the replay buffer. -/
def PortSt.waits (x : PortSt) : Bool :=
  x.stuck || (decide (512 ≤ x.replay.length) && (!x.second.isEmpty || !x.tx0.isEmpty || !x.tx1.isEmpty || !x.tx3.isEmpty))

/-- R291, R302: the beats in which a flit waits, or waited. -/
def Pkg.countCredit (p : Pkg) : Pkg :=
  (List.range 12).foldl (fun p i =>
    let x := p.port i
    if p.up i ∧ (x.waits || x.stalled) then (p.setPort i { x with stalled := false }).bump (O.creditStallBeats + i) 1 else p) p

/-! ## Acknowledgement and retry (R291, R292) -/

/-- An ack releases what is at or below its position, and returns credits. -/
def Pkg.ackIn (p : Pkg) (i position : Nat) (credits : List Nat) : Pkg :=
  let x := p.port i
  let rest := x.replay.filter fun e => !atOrBelow e.1 position
  p.setPort i { x with
    replay := rest
    ackPos := (position + 1) % 2 ^ 32
    resend := x.resend.bind fun r => if atOrBelow r position then rest.head?.map (·.1) else some r
    credits := (List.range 5).map fun k => x.credits.getD k 0 + credits.getD k 0 }

def execAckFlit (port : PortNo) (position : Nat) (credits : List Nat) (s : State) : Host.Outcome State Fault Refusal :=
  s.on .link fun p => p.ackIn port.val position credits

/-- A nak starts a replay from its position; one at or below an acknowledged position is ignored. -/
def Pkg.nakIn (p : Pkg) (i position : Nat) : Pkg :=
  let x := p.port i
  if atOrBelow (position + 1) x.ackPos ∨ !x.replay.any (fun e => decide (e.1 = position)) then p
  else
    let p := (p.setPort i { x with resend := some position, retryFlag := true }).bump (O.retries + i) 1
    if x.retryFlag then p else p.raise 0x4405 i 0

def execNakFlit (port : PortNo) (position : Nat) (s : State) : Host.Outcome State Fault Refusal :=
  s.on .link fun p => p.nakIn port.val position

/-! ## Retrain (R298) -/

/-- R159, R298: the link entry for this position and port, where there is one: its route delta, once (log 67). -/
def Pkg.applyLink (p : Pkg) (i : Nat) : Pkg :=
  match p.loader.image with
  | none => p
  | some m =>
    let mine (e : RemapEnt) : Bool := decide (e.key = 16 * p.reg O.logicalPosition + i) && e.usable
    match m.remapLinks.find? mine with
    | none => p
    | some e =>
      let m2 : Image := { m with
        routes := withDelta m.routes e.delta
        remapLinks := m.remapLinks.map fun (x : RemapEnt) => if mine x then { x with usable := false } else x }
      { p with loader := { p.loader with image := some m2 } }.setReg O.routeRows m2.routes.length

/-- R298: a port fails, until the next power-up, and its link entry is applied. -/
def Pkg.failPort (p : Pkg) (i : Nat) : Pkg :=
  (((p.setPort i { p.port i with dead := true }).setReg (O.portState + i) 4).raise 0x4403 i 0).applyLink i

/-- R298: a port that was up retrains, and has link_retrain_limit_us for it; a lost lane takes lane 8, in every codeword from now on,
and a second spare fails the port. -/
def Pkg.retrain (p : Pkg) (i : Nat) (lane : Option Nat) : Pkg :=
  let st := p.reg (O.portState + i)
  if st ≠ 2 ∧ st ≠ 3 then p
  else
    let p := if st = 2 then
        (((p.setPort i { p.port i with retrainAt := p.mtime }).setReg (O.portState + i) 3).setReg (O.linkNeighbour + i)
          0xFFFFFFFF).raise 0x4402 i 0
      else p
    match lane with
    | none => p
    | some l =>
      if p.reg (O.spareInUse + i) = 0xFF then
        let x := p.port i
        (p.setPort i { x with spareAt := some (l, x.ackPos), spareRx := some (l, x.rxPos) }).setReg (O.spareInUse + i) l
      else p.failPort i

def execLaneLockLoss (port : PortNo) (lane : Option (Fin 8)) (s : State) : Host.Outcome State Fault Refusal :=
  s.on .link fun p => p.retrain port.val (lane.map (·.val))

/-- The mtime at which a retrain's limit passes: 100 ticks a microsecond. -/
def Pkg.retrainEnd (p : Pkg) (i : Nat) : Nat := (p.port i).retrainAt + 100 * p.reg O.linkRetrainLimitUs

/-- R296: the neighbour's identity takes effect: a wrong revision does not come up. -/
def Pkg.comeUp (p : Pkg) (i id port revision : Nat) : Pkg :=
  if revision ≠ p.reg O.revisionNumber then p.raise 0x4408 i 0
  else ((p.setReg (O.linkNeighbour + i) (fld (id % 4096) 16 + port % 16)).setReg (O.portState + i) 2).raise 0x4404 i 0

/-- The payload of an identity flit: domain_phys_id, the port, revision_number (log 45). -/
def Pkg.identityWord (p : Pkg) (i : Nat) : Nat := p.reg O.domainPhysId + fld i 16 + fld (p.reg O.revisionNumber) 24

/-- R296, R298: both ends have trained, and exchange identity again; what the replay buffer holds is resent first. -/
def execRetrainComplete (w : PortIdentity) (s : State) : Host.Outcome State Fault Refusal :=
  s.on .link fun p =>
    let i := w.own.val
    if p.reg (O.portState + i) ≠ 3 then p
    else
      let x := p.port i
      let p := p.emit (.linkLocal i 3 0 (p.identityWord i))
      (p.setPort i { x with resend := x.replay.head?.map (·.1), nakPos := none, nakRuns := 0 }).comeUp i w.id w.port w.revision

/-- R298: a port that is not up again when its limit has passed fails. -/
def execRetrainLimitExpiry (port : PortNo) (s : State) : Host.Outcome State Fault Refusal :=
  s.on .link fun p =>
    if p.reg (O.portState + port.val) = 3 ∧ p.retrainEnd port.val ≤ p.mtime then p.failPort port.val else p

/-! ## Training and identity (R296) -/

/-- R296: in PS0, with its pads released, a port that is down trains and sends its identity. A failed one does not. -/
def execPortTraining (port : PortNo) (s : State) : Host.Outcome State Fault Refusal :=
  s.on .link fun p =>
    let i := port.val
    let st := p.reg (O.portState + i)
    if p.reg O.psCurrent ≠ 0 ∨ bitOf (p.reg O.padHeld) 1 ∨ (st ≠ 0 ∧ st ≠ 1) ∨ (p.port i).dead then p
    else
      let p := p.setPort i { PortSt.reset with credits := fullCredits }
      (p.setReg (O.portState + i) 1).emit (.linkLocal i 3 0 (p.identityWord i))

/-- R296: the neighbour's identity, at training. -/
def Pkg.identityIn (p : Pkg) (i id port revision : Nat) : Pkg :=
  if p.reg (O.portState + i) ≠ 1 then p else p.comeUp i id port revision

def execIdentityFlit (p0 : PortNo) (id port revision : Nat) (s : State) : Host.Outcome State Fault Refusal :=
  s.on .link fun p => p.identityIn p0.val id port revision

/-! ## The spare lane (R297) -/

/-- R297: this end names a lane and a position of its own stream, 4,096 positions ahead (log 45). -/
def Pkg.nameSpare (p : Pkg) (i lane : Nat) : Pkg :=
  let x := p.port i
  let pos := (x.txPos + 4096) % 2 ^ 32
  p.setPort i { x with local0 := x.local0 ++ [(4, lane, toLe 8 pos)], spareAt := some (lane, pos) }

/-- R297: a substitution starts, where lane 8 is free. -/
def Pkg.startSubstitution (p : Pkg) (i lane : Nat) : Pkg :=
  let x := p.port i
  if p.reg (O.spareInUse + i) ≠ 0xFF ∨ x.spareAt.any fun e => decide (e.1 ≠ lane) then p.raise 0x440C i 0
  else if x.spareAt.isSome then p
  else p.nameSpare i lane

/-- R297: the far end names the lane and a position of its stream; this end answers with one of its own. -/
def Pkg.spareNamed (p : Pkg) (i lane position : Nat) : Pkg :=
  if p.reg (O.spareInUse + i) ≠ 0xFF then p
  else
    let p := p.setPort i { p.port i with spareRx := some (lane, position) }
    if (p.port i).spareAt.isSome then p else p.nameSpare i lane

/-- R297: a scan finds a lane's eye margin. A low one of a lane in use starts a substitution; one of lane 8 has no spare. -/
def Pkg.laneMargin (p : Pkg) (i lane : Nat) (mv : Int) : Pkg :=
  let p := p.setReg (O.laneEyeMargin + 9 * i + lane) (toBits 16 mv)
  let sp := p.reg (O.spareInUse + i)
  if (p.reg O.spareThresholdMv : Int) ≤ mv ∨ sp = lane ∨ (lane = 8 ∧ sp = 0xFF) then p
  else p.startSubstitution i lane

def execLaneMarginLow (port : PortNo) (lane : Fin 9) (mv : Nat) (s : State) : Host.Outcome State Fault Refusal :=
  s.on .link fun p => p.laneMargin port.val lane.val mv

def execSubstitutionFlit (port : PortNo) (lane : Fin 8) (position : Nat) (s : State) : Host.Outcome State Fault Refusal :=
  s.on .link fun p => p.spareNamed port.val lane.val position

/-- R297: the lane whose position its stream has reached: that of the codewords it sends, or of those it receives. -/
def PortSt.reached (x : PortSt) : Option Nat :=
  match x.spareAt.filter fun e => atOrBelow e.2 x.txPos, x.spareRx.filter fun e => atOrBelow e.2 x.rxPos with
  | some e, _ => some e.1
  | none, some e => some e.1
  | none, none => none

/-- R297: the position is reached: lane 8 carries the lane. -/
def execSubstitutionPosition (port : PortNo) (s : State) : Host.Outcome State Fault Refusal :=
  s.on .link fun p =>
    let i := port.val
    match (p.port i).reached with
    | some lane => if p.reg (O.spareInUse + i) = 0xFF then (p.setReg (O.spareInUse + i) lane).raise 0x4401 i 0 else p
    | none => p

/-! ## Class-0 messages (R293, R294) -/

/-- The effect of another command's meaning on the package. -/
def Pkg.via (p : Pkg) (f : State → Host.Outcome State Fault Refusal) : Pkg :=
  match f ⟨[], p, landsOf p⟩ with
  | .next s => s.pkg
  | _ => p

/-- The vote record of a message (R170). -/
def voteOf (l : List Nat) : VoteRec := ⟨l.getD 0 0, l.getD 1 0, l.getD 2 0, l.getD 3 0, l.getD 4 0, l.getD 5 0, l.getD 6 0⟩

/-- The pairs of a list of numbers. -/
def pairsOf : List Nat → List (Nat × Nat)
  | a :: b :: r => (a, b) :: pairsOf r
  | _ => []

def caseOf : Nat → RecCase
  | 0 => .remap
  | 1 => .rollback
  | 2 => .uncovered
  | _ => .halt

/-- The plan of a message of type 0x22. -/
def planOfPayload (l : List Nat) : RecPlan :=
  let n := l.getD 1 0
  let m := l.getD (2 + n) 0
  ⟨caseOf (l.getD 0 0), (l.drop 2).take n, pairsOf ((l.drop (3 + n)).take (2 * m)), l.getD (3 + n + 2 * m) 0⟩

/-- What a type of R294, R349 or R392 does on this package, and how it goes on: none for a reserved type. -/
def messageMeaning (x : C0In) (m : C0Msg) : Option (State → Host.Outcome State Fault Refusal) :=
  let v (i : Nat) : Nat := m.payload.getD i 0
  match m.type with
  | 0x01 => some (execSlipRequest x (v 0) (v 1))
  | 0x02 => some (execVoteRecord x (voteOf m.payload))
  | 0x03 => some (execStartQuery x)
  | 0x04 => some (execStartAnswer x (v 0) (v 1) (v 2))
  | 0x05 => some (execStartBeatMessage x (v 0))
  | 0x06 => some (execHaltMessage x (v 0))
  | 0x20 => some (execSaveRequestMessage x (v 0) (v 1))
  | 0x21 => some (execFailureNotice x (v 0) (v 1) (v 2))
  | 0x22 => some (execRecoveryPlan x (planOfPayload m.payload))
  | 0x23 => some (execSaveAbandoned x (v 0))
  | 0x24 => some (execResume x (v 0) (v 1))
  | 0x25 => some (execRecoveryReport x ⟨v 0, v 1, v 2, v 3, v 4⟩)
  | 0x40 => some (execSwapAnnouncement x (v 0) (v 1) (v 2))
  | 0x41 => some (execSwapRefusal ⟨x, v 0⟩)
  | _ => none

/-- R294: the types that name one destination. -/
def directedType (t : Nat) : Bool := decide (t = 0x03 ∨ t = 0x04 ∨ t = 0x25)

/-- A message accepted at a port: acted on, forwarded, or discarded with event 0x440A. A directed message for another package goes
on as a flood does. -/
def Pkg.messageIn (p : Pkg) (port : PortNo) (m : C0Msg) : Pkg :=
  let x : C0In := ⟨port, m.src, m.originSeq⟩
  match messageMeaning x m with
  | none => p.raise 0x440A port.val 0
  | some f =>
    if directedType m.type ∧ m.dst ≠ p.reg O.domainPhysId then
      let new := match p.sched.filter.find m.src with
        | none => true
        | some n => laterSeq m.originSeq n
      if !new then p
      else
        (p.setSched { p.sched with filter := (p.sched.filter.del m.src).ins m.src m.originSeq }).c0Send m port.val
    else p.via f

/-- R293: the first good copy of each per-port sequence number is accepted; one that only a replay brings is late. A number is
remembered for 512 flits (log 45). -/
def Pkg.class0In (p : Pkg) (port : PortNo) (m : C0Msg) (seq : Nat) (replayed : Bool) : Pkg :=
  let i := port.val
  let x := p.port i
  if seq ∈ x.c0Seen then p
  else
    let p := p.setPort i { x with c0Seen := (seq :: x.c0Seen).take 512 }
    let p := if replayed then (p.bump (O.class0Late + i) 1).raise 0x4406 i 0 else p
    p.messageIn port m

def execClass0Flit (port : PortNo) (m : C0Msg) (_copy : Bool) (seq : Nat) (replayed : Bool) (s : State) :
    Host.Outcome State Fault Refusal :=
  s.on .link fun p => (p.freeCredit port.val 0).class0In port m seq replayed

/-! ## Classes 1 and 3 (R299 to R303) -/

/-- R299: the end-to-end sequence of a flit for this package; one out of order fails the package. -/
def Pkg.inOrder (p : Pkg) (f : LinkFlit) : Bool × Pkg :=
  let x := p.partner f.src
  let want := if f.cls = 1 then x.rx1 else x.rx3
  if f.seq = want then
    (true, p.setPartner f.src (if f.cls = 1 then { x with rx1 := (want + 1) % 1024 } else { x with rx3 := (want + 1) % 1024 }))
  else (false, ((p.setPartner f.src x).bump O.e2eSeqErrors 1).raise 0x4407 noUnit 0 |>.declareFailed)

/-- R204: a flit of an Agreement engine's chunk, from the buffer of port i: it waits there while its channel has no room. -/
def Pkg.chunkFlitIn (p : Pkg) (i : Nat) (f : LinkFlit) : Pkg :=
  let e := bitOf f.target 24
  let ch := bits f.target 23 20
  let st := p.chan e ch
  (p.setChan e ch { st with wait := st.wait ++ [(i, f)] }).drainChan e ch

/-- R340: the flits of stream 1: an address flit, then a data flit. The traffic of streams 2 and 3 has no layout (log 38). -/
def Pkg.streamFlitIn (p : Pkg) (f : LinkFlit) : Pkg :=
  let n := fld f.src 14 + bits f.target 25 12
  if bits f.target 25 12 ≠ 1 then p
  else
    match p.links.asm3.find n with
    | none =>
      let v := (fieldAt f.payload 0 2, fieldAt f.payload 2 1, fieldAt f.payload 8 8)
      { p with links := { p.links with asm3 := (p.links.asm3.del n).ins n v } }
    | some (region, kind, off) =>
      let p := { p with links := { p.links with asm3 := p.links.asm3.del n } }
      let l : ProtLine := ⟨region, off, (flitWords f.payload f.poison).map fun w => ((packWord w).data, (packWord w).chk)⟩
      if kind = 0 then p.protDelta l else p.protCopy l

/-- A flit of class 1 or 3 that has reached its package by port i, where it leaves its buffer. -/
def Pkg.linkDeliver (p : Pkg) (i : Nat) (f : LinkFlit) : Pkg :=
  let r := p.inOrder f
  if !r.1 then r.2.freeCredit i (bufferOf f)
  else if f.cls = 1 ∧ bitOf f.target 25 then r.2.chunkFlitIn i f
  else
    let p := r.2.freeCredit i (bufferOf f)
    if f.cls = 3 then p.streamFlitIn f
    else p.pushFlit (.sram (bits f.target 24 17) (64 * bits f.target 16 0) f.win ((flitWords f.payload f.poison).map packWord))

/-- R300 to R303: a transit flit leaves by the port that the route table gives, and keeps its place in its buffer until then. -/
def Pkg.forward (p : Pkg) (came : Nat) (f : LinkFlit) : Pkg :=
  match p.routeRow f.dst with
  | none => (p.freeCredit came (bufferOf f)).raise 0x440A noUnit 0
  | some r =>
    let port := if f.cls = 1 then r.port1 else r.port3
    p.queueFlit port { f with vc := p.outVc port (some came) f.vc, held := some (came, bufferOf f) }

/-! ## Receiving a codeword (R288 to R293) -/

/-- R289, R290: a header that breaks the layout: class 2, a set bit of a field that must be 0, a reserved link-local type. -/
def headerError (f : LinkFlit) : Bool :=
  decide (f.cls = 2) ||
  (if f.cls = 0 then
    if f.vc = 0 then decide (f.target % 2 ^ 18 ≠ 0)
    else f.copy || decide (f.dst ≠ 0) || decide (6 ≤ bits f.target 25 18) ||
      (if bits f.target 25 18 = 4 then decide (8 ≤ f.target % 2 ^ 18) else decide (f.target % 2 ^ 18 ≠ 0))
  else f.copy || (decide (f.cls = 1) && bitOf f.target 25 && decide (f.target % 2 ^ 20 ≠ 0)) ||
    (decide (f.cls = 3) && decide (f.target % 2 ^ 12 ≠ 0)))

/-- The payload of a time flit: a request, or the answer with beat, slip total and the time master's generation (log 45). -/
def timePayload (answer : Bool) (beat slip gen : Nat) : List Byte := toLe 8 (b2n answer) ++ toLe 8 beat ++ toLe 8 slip ++ toLe 4 gen

/-- R141, R290, R394: a child's request is answered with this package's values, and with the generation that came from the time master; the
parent's answer is an exchange, whose residual offset the clocks give and no rule (log 45). -/
def Pkg.timeFlitIn (p : Pkg) (i : Nat) (b : List Byte) : Pkg :=
  if b.head? = some 0 then
    let x := p.port i
    let gen := if p.isMaster then p.reg O.cfgActiveGen else p.cfg.masterGen
    p.setPort i { x with local0 := x.local0 ++ [(5, 0, timePayload true (p.reg O.domainBeat) (p.reg O.slipTotal) gen)] }
  else if p.reg O.timeParentPort = i then
    let f := p.fresh
    f.2.timeExchange ⟨numAt b 8 8, numAt b 16 8, (f.1.extractLsb' 0 32).toInt, numAt b 24 4⟩
  else p

/-- R141: every 1,024 beats the time parent is asked. -/
def Pkg.askTime (p : Pkg) : Pkg :=
  let i := p.reg O.timeParentPort
  if p.reg O.domainBeat % 1024 ≠ 0 ∨ p.isMaster ∨ 12 ≤ i ∨ !p.up i then p
  else
    let x := p.port i
    p.setPort i { x with local0 := x.local0 ++ [(5, 0, timePayload false 0 0 0)] }

/-- A link-local flit (R290). -/
def Pkg.localIn (p : Pkg) (i : Nat) (f : LinkFlit) : Pkg :=
  let v := numAt f.payload 0 8
  match bits f.target 25 18 with
  | 1 => p.ackIn i (v % 2 ^ 32) ((List.range 5).map fun k => numAt f.payload (4 + 2 * k) 2)
  | 2 => p.nakIn i (v % 2 ^ 32)
  | 3 => p.identityIn i (v % 2 ^ 16) (bits v 23 16) (bits v 55 24)
  | 4 => p.spareNamed i (f.target % 8) (v % 2 ^ 32)
  | 5 => p.timeFlitIn i f.payload
  | _ => p

/-- A class-0 flit with vc 0: its message is what its header and payload say. One with a word that cannot be read is no good copy
(R293). -/
def Pkg.class0FlitIn (p : Pkg) (port : PortNo) (replayed : Bool) (f : LinkFlit) : Pkg :=
  if f.poison.any id then p else p.class0In port (msgOf f) f.seq replayed

/-- One flit of a codeword in order. -/
def Pkg.flitIn (p : Pkg) (port : PortNo) (replayed : Bool) (f : LinkFlit) : Pkg :=
  let i := port.val
  if f.cls = 0 then if f.vc = 1 then p.localIn i f else (p.freeCredit i 0).class0FlitIn port replayed f
  else if f.dst = p.reg O.domainPhysId then p.linkDeliver i f
  else p.forward i f

/-- R291, R292: the codeword at the position in turn fails: a nak goes out; the fourth failed replay of one position makes the port
retrain. -/
def Pkg.badCodeword (p : Pkg) (i : Nat) : Pkg :=
  let p := p.bump (O.fecUncorrectable + i) 1
  let x := p.port i
  let runs := if x.nakPos = some x.rxPos then x.nakRuns + 1 else 0
  let p := p.setPort i { x with
    nakPos := some x.rxPos, nakRuns := runs, local0 := x.local0 ++ [(2, 0, toLe 8 x.rxPos)] }
  if 4 ≤ runs then p.retrain i none else p

/-- The flits of a codeword whose headers are in order; none for one that fails. -/
def goodFlits (w : RxCodeword) : Option (List LinkFlit) :=
  w.body.bind fun b => let fs := readFlits b w.wins; if fs.any headerError then none else some fs

/-- R291, R293: a codeword after a failed one is discarded, but for its good class-0 copies. -/
def Pkg.discardCodeword (p : Pkg) (port : PortNo) (fs : List LinkFlit) (replayed : Bool) : Pkg :=
  (fs.filter fun f => decide (f.cls = 0 ∧ f.vc = 0)).foldl (fun p f => p.class0FlitIn port replayed f)
    (p.bump (O.fecUncorrectable + port.val) 1)

/-- R291 to R293: a received codeword: the one in turn is taken or fails; one from further on is discarded until the replay comes; one that
was taken before is nothing new (log 45). A replay is a codeword at a position that has been on the wire. -/
def Pkg.receive (p : Pkg) (port : PortNo) (w : RxCodeword) : Pkg :=
  let i := port.val
  if !p.up i then p
  else
    let x := p.port i
    let replayed := !atOrBelow x.rxTop w.pos
    let p := if w.body.isSome then p.bump64 (O.fecCorrectedSymbols + 2 * i) w.corrected else p
    let p := p.setPort i { x with rxTop := if replayed then x.rxTop else (w.pos + 1) % 2 ^ 32 }
    if w.pos = x.rxPos then
      match goodFlits w with
      | none => p.badCodeword i
      | some fs =>
        let p := p.setPort i { p.port i with rxPos := (x.rxPos + 1) % 2 ^ 32, nakPos := none, nakRuns := 0 }
        fs.foldl (fun p f => p.flitIn port replayed f) p
    else if atOrBelow x.rxPos w.pos then p.discardCodeword port ((goodFlits w).getD []) replayed
    else p

def execCodewordReceive (port : PortNo) (cw : RxCodeword) (s : State) : Host.Outcome State Fault Refusal :=
  s.on .link fun p => p.receive port cw

/-! ## Bridges and the lane test engines (R305, R306) -/

/-- The bits of a word that a crossing turns over. -/
def PWord.flip (w : PWord) (e : BitVec 128 × BitVec 16) : PWord := ⟨w.data ^^^ e.1, w.chk ^^^ e.2⟩

/-- R304, R305: a word crosses a bridge, which keeps its last 32. A correctable one is corrected; an uncorrectable one is replayed once,
and a second failure delivers poison. -/
def Pkg.crossBridge (p : Pkg) (b : Nat) (w : SilzinWord) : Pkg :=
  let x := packWord w.data
  let kept := p.links.bridges.at [] b ++ [x]
  let p := { p with links := { p.links with bridges := p.links.bridges.put [] b (kept.drop (kept.length - 32)) } }
  match checkWord (x.flip w.first) with
  | .clean => p.emit (.bridgeWord b (some (x.flip w.first).data))
  | .corrected v _ => p.emit (.bridgeWord b (some v.data))
  | .poison => p.emit (.bridgeWord b none)
  | .bad => ((p.bump (O.silzinReplays + b) 1).raise 0x440B b 0).emit (.bridgeWord b (readWord (x.flip w.again)))

def execSilzinWordReceive (b : Fin 13) (w : SilzinWord) (s : State) : Host.Outcome State Fault Refusal :=
  s.on .link fun p => p.crossBridge b.val w

def Pkg.linkTestOwnerWrite (p : Pkg) (w : Writer) (d v : Nat) : Pkg :=
  if 3 < v then
    match w with
    | .path pt => p.refuse pt (O.linkTestOwner + d) abRange
    | .unit => p
  else p.ownerWrite w (O.linkTestOwner + d) v 0x4409 d

def execLinkTestOwnerWrite (w : Writer) (d : Fin 2) (v : Nat) (s : State) : Host.Outcome State Fault Refusal :=
  s.on (writerPlane w) fun p => p.linkTestOwnerWrite w d.val v

/-- R306: a diagnostic request for a port of the die, in state 0 or 4. The test's findings change no state of the package. -/
def Pkg.linkTestRequest (p : Pkg) (pt : Path) (d v : Nat) : Pkg :=
  let k := O.linkTestRequest + d
  p.objWrite pt k v fun p =>
    if 12 ≤ v ∨ (v < 8) ≠ (d = 0) then p.refuse pt k abRange
    else if p.reg (O.linkTestOwner + d) ≠ 3 then p.refuse pt k abOwner
    else if p.reg (O.portState + v) ≠ 0 ∧ p.reg (O.portState + v) ≠ 4 then p.refuse pt k abState
    else p

def execLinkTestRequest (pt : Path) (d : Fin 2) (v : Nat) (s : State) : Host.Outcome State Fault Refusal :=
  s.on (pathPlane pt) fun p => p.linkTestRequest pt d.val v

end Sys2Proof.Machine
end

