-- ==== Sys2Proof/Machine/Wear.lean ====
section
/-! DEFINITION. Machine/Wear.lean: wear sampling, checkpoints, predictions and substitutions (R404 to R406, R409), and the end of
a repair (R255, R256). -/
namespace Sys2Proof.Machine

def Pkg.setWear (p : Pkg) (x : Wear) : Pkg := { p with wear := x }

/-! ## Unit-indicators (R404) -/

/-- The kinds: number of units, and of indicators of each. -/
def wearKinds : List (Nat × Nat × Nat) :=
  [(1, 208, 2), (2, 68, 2), (3, 108, 1), (4, 12, 1), (5, 36, 1), (6, 4, 1), (7, 1, 1), (8, 22, 1)]

/-- A unit-indicator's number: [31:24] kind, [23:16] indicator, [15:0] unit. -/
def wearKey (kind ind unit : Nat) : Nat := fld kind 24 + fld ind 16 + unit

/-- Every unit: kind, number of indicators, unit. -/
def wearUnits : List (Nat × Nat × Nat) := wearKinds.flatMap fun k => (List.range k.2.1).map fun u => (k.1, k.2.2, u)

/-- The 735 unit-indicators. -/
def wearKeys : List Nat := wearUnits.flatMap fun x => (List.range x.2.1).map fun i => wearKey x.1 i x.2.2

/-- Whether a number names a unit-indicator. -/
def isWearKey (v : Nat) : Bool :=
  wearKinds.any fun k => decide (v / 2 ^ 24 = k.1 ∧ bits v 23 16 < k.2.2 ∧ v % 2 ^ 16 < k.2.1)

/-- The counter that a correction indicator counts. -/
def correctionsOf (key : Nat) : Option Nat :=
  let u := key % 2 ^ 16
  match key / 2 ^ 16 with
  | 0x101 => some (O.scrubCorrections + u)
  | 0x201 => some (O.l2Corrected + u)
  | 0x400 => some (O.fecCorrectedSymbols + 2 * u)
  | 0x500 => some (if u < 12 then O.hbmCorrected + u else O.lpddrCorrected + (u - 12))
  | 0x600 => some (O.dirCorrected + u)
  | _ => none

/-- A mean over the step is stored: ring oscillators, eyes, the PLL. -/
def isMeanKey (key : Nat) : Bool :=
  decide (key / 2 ^ 16 = 0x100 ∨ key / 2 ^ 16 = 0x200 ∨ key / 2 ^ 16 = 0x300 ∨ key / 2 ^ 16 = 0x700)

/-! ## Samples -/

/-- The largest n with n^100 at most m, of b bits. -/
def root100 (m : Nat) : Nat → Nat → Nat
  | 0, n => n
  | b + 1, n => root100 m b (if (n + 2 ^ b) ^ 100 ≤ m then n + 2 ^ b else n)

/-- floor(2^(16 + x ÷ 100)). -/
def exp2Centi (x : Int) : Nat :=
  let e := 1600 + x
  if e < 0 then 0 else root100 (2 ^ e.toNat) (e.toNat / 100 + 1) 0

/-- The hottest junction, in 0.1 °C, of the die that a rail or a bridge is on: a compute die for rails 0 to 3, else the hottest of
all (log 46). -/
def Pkg.stressTemp (p : Pkg) (unit : Nat) : Int :=
  let t (i : Nat) : Int := sbits (p.reg (O.dieTempDc + i)) 15 0
  if unit < 4 then t unit else (List.range 10).foldl (fun m i => max m (t i)) (t 0)

/-- One reading of an hour: a mean's sum, a scanned eye, or a stress (log 42). -/
def Pkg.wearReading (p : Pkg) (r : Nat × Int) : Pkg :=
  let key := r.1
  let u := key % 2 ^ 16
  if !isWearKey key then p
  else if isMeanKey key then
    let p := if key / 2 ^ 24 ≠ 3 then p
      else if p.reg (O.portState + u / 9) = 2 then p.laneMargin (u / 9) (u % 9) r.2
      else p.setReg (O.laneEyeMargin + u) (toBits 16 r.2)
    let w := p.wear
    p.setWear { w with sums := w.sums.put 0 key (w.sums.at 0 key + r.2), counts := w.counts.put 0 key (w.counts.at 0 key + 1) }
  else if key / 2 ^ 24 = 8 then
    let i := Config.wearRefCurrent u
    let add := r.2.natAbs ^ 2 * exp2Centi (p.stressTemp u - 850) / i ^ 2
    let w := p.wear
    p.setWear { w with sums := w.sums.put 0 key (w.sums.at 0 key + add) }
  else p

/-- The I/O die of a lane's unit-indicator. -/
def laneDie (key : Nat) : Option Nat :=
  if isWearKey key ∧ key / 2 ^ 24 = 3 then some (if key % 2 ^ 16 / 9 < 8 then 0 else 1) else none

/-- R306: the scan of I/O die d's lanes claims its test engine, as claimant 2. -/
def Pkg.claimScan (p : Pkg) (d : Nat) : Pkg := p.ownerWrite .unit (O.linkTestOwner + d) 2 0x4409 d

/-- R306: the scan is done. -/
def Pkg.endScan (p : Pkg) (d : Nat) : Pkg :=
  if p.reg (O.linkTestOwner + d) = 2 then p.setReg (O.linkTestOwner + d) 0 else p

/-- The readings that the hour gives: those of a die's lanes only where the scan holds the die's engine. -/
def Pkg.wearScan (p : Pkg) (readings : List (Nat × Int)) : Pkg :=
  let dies := (List.range 2).filter fun d => readings.any fun r => decide (laneDie r.1 = some d)
  let p := dies.foldl Pkg.claimScan p
  let held := readings.filter fun r => (laneDie r.1).all fun d => decide (p.reg (O.linkTestOwner + d) = 2)
  dies.foldl Pkg.endScan (held.foldl Pkg.wearReading p)

def execWearSample (readings : List (Nat × Int)) (s : State) : Host.Outcome State Fault Refusal :=
  s.on .management fun p => if p.reg O.wearEnable = 0 then p else p.wearScan readings

/-! ## Checkpoints (R404) -/

/-- floor(256 × log2(1 + n ÷ d)). -/
def corrValue (n d : Nat) : Nat := Nat.log2 ((d + n) ^ 256 / d ^ 256)

/-- A value as a 16-bit word; one outside the word is free (log 46). -/
def Pkg.wearWord (p : Pkg) (v : Int) : Int × Pkg :=
  if 0 ≤ v ∧ v < 65536 then (v, p)
  else
    let f := p.fresh
    ((f.1.toNat % 65536 : Nat), f.2)

/-- The value that a checkpoint stores for a unit-indicator; none where no reading came in the step (log 46). -/
def Pkg.stepValue (p : Pkg) (key : Nat) : Option Int :=
  match correctionsOf key with
  | some c => some (corrValue (p.reg c - p.wear.base.at 0 c) (p.reg O.wearStepDays))
  | none =>
    if isMeanKey key then
      let n := p.wear.counts.at 0 key
      if n = 0 then none else some (p.wear.sums.at 0 key / n)
    else some (p.wear.sums.at 0 key / 2 ^ 20)

/-- The last eight values of a ring. -/
def pushRing (l : List Int) (v : Int) : List Int :=
  let m := l ++ [v]
  m.drop (m.length - 8)

/-- One unit-indicator's value is stored and its step restarts. -/
def Pkg.storeValue (p : Pkg) (key : Nat) : Pkg :=
  match p.stepValue key with
  | none => p
  | some v =>
    let r := p.wearWord v
    let p := r.2
    let w := p.wear
    let base := match correctionsOf key with
      | some c => w.base.put 0 c (p.reg c)
      | none => w.base
    let sums := if isMeanKey key then w.sums.put 0 key 0 else w.sums
    p.setWear { w with
      rings := w.rings.put [] key (pushRing (w.rings.at [] key) r.1)
      base := base
      sums := sums
      counts := w.counts.put 0 key 0 }

/-! ## Predictions (R405) -/

/-- L of R405. -/
def Pkg.wearLimitOf (p : Pkg) (key : Nat) : Nat :=
  if key / 2 ^ 24 = 3 then p.reg O.spareThresholdMv
  else Config.wearLimit (key / 2 ^ 24) (bits key 23 16) (key % 2 ^ 16) % 65536

/-- The ring as R405 takes it: a falling indicator's values are negated. -/
def Pkg.ringOf (p : Pkg) (key : Nat) : List Int :=
  let l := p.wear.rings.at [] key
  if key / 2 ^ 24 = 3 then l.map fun v => -v else l

def ringSxy (v : List Int) : Int := ((List.range 8).map fun (i : Nat) => (2 * (i : Int) - 7) * v.getD i 0).sum

/-- R405: days to the limit; 65535 is no prediction. -/
def predict (v : List Int) (lim : Int) (st : Nat) : Nat :=
  if v.length < 8 then (match v.getLast? with
    | some x => if lim ≤ x then 0 else 65535
    | none => 65535)
  else
    let sxy := ringSxy v
    let num := 24 * lim - 3 * v.sum - sxy
    if num ≤ 0 then 0
    else if sxy ≤ 0 then 65535
    else min (num.toNat * 7 * st / (2 * sxy.toNat)) 65534

/-- The prediction of a unit-indicator; that of a memory unit whose bank has no repair left is 0 (R256). -/
def Pkg.predicted (p : Pkg) (key : Nat) : Nat :=
  if key / 2 ^ 24 = 5 ∧ (p.wear.qual.find (128 + key % 2 ^ 16)).isSome then 0
  else
    let l : Int := p.wearLimitOf key
    predict (p.ringOf key) (if key / 2 ^ 24 = 3 then -l else l) (p.reg O.wearStepDays)

/-- Every prediction anew, and the least of each kind. -/
def Pkg.predictAll (p : Pkg) : Pkg :=
  let eol := wearKeys.foldl (fun m k => m.put 65535 k (p.predicted k)) p.wear.eol
  let p := p.setWear { p.wear with eol := eol }
  wearKinds.foldl (fun p k =>
    let least := (wearKeys.filter fun x => decide (x / 2 ^ 24 = k.1)).foldl (fun m x => min m (eol.at 65535 x)) 65535
    p.setReg (O.kindEolDays + (k.1 - 1)) least) p

/-! ## Substitutions (R406) -/

/-- What is left for a unit: nothing to do, a spare, or none. -/
inductive SpareLeft where
  | nothing
  | spare
  | none
  deriving DecidableEq, Repr

/-- R33: tiles past their wear limit are retired, in service or not. -/
def Pkg.retireWorn (p : Pkg) : Pkg :=
  (List.range 208).foldl (fun p q => if p.tileWears q ∧ p.reg (O.tileState + q) ≠ 3 then retireTile p q else p) p

/-- The spare of a unit. A unit out of service and one already being replaced need none. -/
def Pkg.spareLeft (p : Pkg) (kind u : Nat) : SpareLeft :=
  let shadowed (k v : Nat) : SpareLeft :=
    if p.shadowReg k = p.reg k then .spare else if p.shadowReg k = v then .nothing else .none
  let port (i : Nat) : SpareLeft :=
    if (p.port i).spareAt.isSome && p.reg (O.spareInUse + i) = 0xFF then .nothing else if p.reg (O.spareInUse + i) = 0xFF then .spare else .none
  match kind with
  | 1 =>
    let r := u / 13
    let k := O.spareCol + r
    if p.reg k = u % 13 ∨ p.wear.qual.find r = some (u % 13) then .nothing
    else if p.shadowReg k = p.reg k ∧ (p.reg (O.tileState + 13 * r + p.reg k) ≠ 1 ∨ (p.wear.qual.find r).isSome) then .none
    else shadowed k (u % 13)
  | 2 =>
    let d := u / 17
    let k := O.spareCore + d
    if 2 ≤ p.reg (O.coreState + u) then .nothing
    else if p.shadowReg k = p.reg k ∧ p.reg (O.coreState + 17 * d + p.reg k) ≠ 2 then .none
    else shadowed k (u % 17)
  | 3 =>
    let i := u / 9
    let l := u % 9
    let sp := p.reg (O.spareInUse + i)
    if sp = l ∨ (l = 8 ∧ sp = 0xFF) then .nothing else if l = 8 then .none else port i
  | 4 => port u
  | 5 =>
    let left := if u < 12 then p.reg (O.hbmRepairsLeft + u) else p.reg (O.lpddrRepairsLeft + (u - 12))
    if 0 < left ∧ (p.wear.qual.find (128 + u)).isNone then .nothing else .none
  | 6 =>
    let k := O.dirSpareWay + u
    if p.shadowReg k ≠ p.reg k then .nothing else if p.reg k = 16 then .spare else .none
  | 7 => if p.reg O.rootPllInUse = 1 then .none else if p.shadowReg O.rootPllSelect = 1 then .nothing else .spare
  | _ => .none

/-- The lane of a port with the lowest margin. -/
def Pkg.lowestLane (p : Pkg) (i : Nat) : Nat :=
  (List.range 8).foldl (fun m l =>
    if p.reg (O.laneEyeMargin + 9 * i + l) < p.reg (O.laneEyeMargin + 9 * i + m) then l else m) 0

/-- R57, R406: qualification of a row's spare for tile u: false where the claim is refused. -/
def Pkg.qualifySpare (p : Pkg) (u : Nat) : Bool × Pkg :=
  let d := u / 52
  let r := u / 13
  let sp := 13 * r + p.reg (O.spareCol + r)
  let p := p.ownerWrite .unit (O.bistOwner + d) 2 0x3006 d
  if p.reg (O.bistOwner + d) ≠ 2 then (false, p)
  else
    let p := { p with testPrev := p.testPrev.put 0 sp (p.reg (O.tileState + sp)) }
    (true, (p.setReg (O.tileState + sp) 2).setWear { p.wear with qual := (p.wear.qual.del r).ins r (u % 13) })

/-- R406: the active way of a directory slice with the most corrections, the lowest of equals (log 88). -/
def Pkg.worstWay (p : Pkg) (slice : Nat) : Nat :=
  let n (w : Nat) : Nat := p.coh.wayCorr.at 0 (slice * 17 + w)
  let l := p.ways slice
  (l.find? fun w => l.all fun v => decide (n v ≤ n w)).getD 0

/-- The use of a spare: whether it was taken. -/
def Pkg.useSpare (p : Pkg) (kind u : Nat) : Bool × Pkg :=
  match kind with
  | 1 => p.qualifySpare u
  | 2 =>
    if p.reg (O.coreState + u) = 0 then
      (false, (p.raise 0x260D u 0).setWear { p.wear with qual := (p.wear.qual.del (64 + u / 17)).ins (64 + u / 17) u })
    else (true, p.setShadow (O.spareCore + u / 17) (u % 17))
  | 3 => (true, p.startSubstitution (u / 9) (u % 9))
  | 4 => (true, p.startSubstitution u (p.lowestLane u))
  | 6 => (true, p.setShadow (O.dirSpareWay + u) (p.worstWay u))
  | 7 => (true, p.setShadow O.rootPllSelect 1)
  | _ => (false, p)

/-- One unit at a checkpoint, with the unit-indicators that contribute to the package's end of life. -/
def Pkg.wearUnit (p : Pkg) (x : Nat × Nat × Nat) : List Nat × Pkg :=
  let near := (List.range x.2.1).filter fun i => decide (p.wear.eol.at 65535 (wearKey x.1 i x.2.2) ≤ p.reg O.spareLeadDays)
  if near.isEmpty then ([], p)
  else
    match p.spareLeft x.1 x.2.2 with
    | .nothing => ([], p)
    | .spare =>
      if p.reg O.wearAuto = 0 then ([], p.raise 0x2607 x.2.2 0)
      else
        let r := p.useSpare x.1 x.2.2
        ([], if r.1 then (r.2.raise 0x2607 x.2.2 0).bump O.substitutionsStarted 1 else r.2)
    | .none => (near.map fun i => wearKey x.1 i x.2.2, (p.raise 0x2608 x.2.2 0).bump O.substitutionsNoSpare 1)

/-- R406: the end of life of the package; one that reaches 0 asks for a planned remap of the position it holds (R345). -/
def Pkg.setPackageEol (p : Pkg) (days source : Nat) : Pkg :=
  let was := p.reg O.packageEolDays
  let p := (p.setReg O.packageEolDays days).setReg O.packageEolSource source
  if days = 0 ∧ was ≠ 0 ∧ p.reg O.logicalPosition ≠ 0xFFFF then (p.raise 0x2609 noUnit 0).askSave (p.reg O.logicalPosition) else p

/-- R406: every unit. -/
def Pkg.wearActions (p : Pkg) : Pkg :=
  let r := wearUnits.foldl (fun (a : List Nat × Pkg) x =>
    let b := a.2.wearUnit x
    (a.1 ++ b.1, b.2)) ([], p)
  let least := r.1.foldl (fun (m : Nat × Nat) k => let v := r.2.wear.eol.at 65535 k; if v < m.1 then (v, k) else m) (65535, 0)
  r.2.setPackageEol least.1 least.2

/-! ## The wear area of the flash (R404, R416) -/

/-- The storage key KS (R411). -/
def storageKey : List Byte := sponge 0x1F (ascii "TOA1 KS" ++ Config.pufSeed) 32

/-- A flash write is queued (R417). -/
def Pkg.queueFlash (p : Pkg) (prio offset : Nat) (bytes : List Byte) : Pkg :=
  { p with boot := { p.boot with flashQ := p.boot.flashQ ++ [(⟨prio, offset, bytes⟩ : FlashJob)] } }

/-- The bytes of a copy of the wear area (log 43): boot_count, how many values each ring holds, the rings, and the tag. -/
def Pkg.wearArea (p : Pkg) : List Byte :=
  let ring (k : Nat) : List Byte :=
    let l := p.wear.rings.at [] k
    (List.range 8).flatMap fun i => toLe 2 ((l.getD i 0).toNat)
  let held (k : Nat) : List Byte := toLe 1 (p.wear.rings.at [] k).length
  let body := toLe 4 (p.reg O.bootCount) ++ wearKeys.flatMap held ++ wearKeys.flatMap ring
  body ++ kmac256 storageKey body []

/-- Both copies are written. -/
def Pkg.queueWearArea (p : Pkg) : Pkg := (p.queueFlash 2 0x18000 p.wearArea).queueFlash 2 0x1C000 p.wearArea

def execWearCheckpoint (s : State) : Host.Outcome State Fault Refusal :=
  s.on .management fun p =>
    if p.reg O.wearEnable = 0 then p else (((wearKeys.foldl Pkg.storeValue p).predictAll).wearActions).retireWorn.queueWearArea

/-! ## The wear query (R409) -/

def Pkg.wearQueryWrite (p : Pkg) (pt : Path) (v : Nat) : Pkg :=
  p.objWrite pt O.wearQuery v fun p => if isWearKey v then p.setReg O.wearQuery v else p.refuse pt O.wearQuery abRange

def execWearQuery (pt : Path) (v : Nat) (s : State) : Host.Outcome State Fault Refusal := s.on (pathPlane pt) fun p => p.wearQueryWrite pt v

/-- The objects that report the selected unit-indicator. -/
def Pkg.wearReport (p : Pkg) (key : Nat) : Nat :=
  let q := p.reg O.wearQuery
  let l := p.wear.rings.at [] q
  if key = O.wearValue then ((l.getLast?).getD 0).toNat
  else if key = O.wearLimit then p.wearLimitOf q
  else if key = O.wearSlope then
    if l.length < 8 then 0 else toBits 32 ((ringSxy (p.ringOf q) * 1000).tdiv (84 * p.reg O.wearStepDays))
  else if key = O.wearEolDays then p.wear.eol.at 65535 q
  else l.length

/-! ## The end of a repair (R255, R256) -/

/-- R255, R256: the candidate in repair is done, or retired where its bank has no resource left; the unit's resources are read
again, and the row's corrections count from 0. While an image loads or runs, repair stands still. -/
def Pkg.repairDone (p : Pkg) (n : Nat) (exhausted : Bool) (left : Nat) : Pkg :=
  match p.memsys.repairing.find n with
  | none => p
  | some r =>
    if !repairRuns (p.reg O.imageState) then p
    else
    let p := { p with memsys := { p.memsys with
      repairing := p.memsys.repairing.del n, rowCorr := p.memsys.rowCorr.put 0 r.key 0 } }
    let p := p.setReg (if r.unit < 12 then O.hbmRepairsLeft + r.unit else O.lpddrRepairsLeft + (r.unit - 12)) (left % 65536)
    let p := if exhausted then
        let p := (p.bump16 O.rowsRetired 1).raise 0x4008 r.unit 0
        let w := p.wear
        let key := wearKey 5 0 r.unit
        let p := p.setWear { w with qual := (w.qual.del (128 + r.unit)).ins (128 + r.unit) 0, eol := w.eol.put 65535 key 0 }
        (p.setReg (O.kindEolDays + 4) 0).setPackageEol 0 key
      else ((p.rewriteRow r).bump O.rowsRepaired 1).raise 0x4007 r.unit 0
    p.releaseRepair n

def execRepairDone (n : DieNo) (bankExhausted : Bool) (leftAfter : Nat) (s : State) : Host.Outcome State Fault Refusal :=
  s.on .control fun p => p.repairDone n.val bankExhausted leftAfter

end Sys2Proof.Machine
end

