-- ==== Sys2Proof/Machine/Supply.lean ====
section
/-! DEFINITION. Machine/Supply.lean: supplies, PMBus and telemetry (R439 to R444), power-up and power-down (R445 to R448), the
reference clock and the PLLs (R450), the cold reset (R451 to R454), temperatures (R458). -/
namespace Sys2Proof.Machine

def Pkg.setSupply (p : Pkg) (x : Supply) : Pkg := { p with supply := x }
def Pkg.setBoot (p : Pkg) (x : Boot) : Pkg := { p with boot := x }

/-! ## Reset (R451 to R454) -/

/-- R452: as a reset is recognised, FAULT_N is asserted, and a package whose image runs floods the failure notice of R350. -/
def Pkg.noticeOfReset (p : Pkg) : Pkg :=
  if p.reg O.imageState = 4 ∧ !p.failed then
    let pos := p.reg O.logicalPosition
    (p.flood 0x21 0 [pos, pos, p.reg O.domainBeat]).raise 0x4805 noUnit 0
  else p

/-- The cells of main memory. -/
def mainCells (m : List Host.Cell) : List Host.Cell := m.filter fun e => isMem e.1

/-- R451, R453: everything outside the always-on domain at its reset value. What stays: the flash, the always-on SRAM and the event
log, the supplies and the pins, a recovery request, which tiles are retired (R33), and main memory where `kept`. A root PLL that lost
lock under a running image is replaced by the standby before the package rejoins (R25). -/
def Pkg.resetAll (p : Pkg) (kept : Bool) : Pkg :=
  let q := Pkg.reset
  let q : Pkg := { q with
    mem := if kept then mainCells p.mem else []
    eccPins := if kept then p.eccPins else []
    checkBytes := if kept then p.checkBytes else []
    power := { q.power with aon := p.power.aon }
    boot := { q.boot with flash := p.boot.flash, recoveryReq := p.boot.recoveryReq }
    retired := p.retired
    supply := { p.supply with outCount := [], warned := [], pllOff := [], rootLost := false }
    ev := { q.ev with inFlight := p.ev.inFlight, log := p.ev.log, tail := p.ev.tail }
    sched := { q.sched with originSeq := p.sched.originSeq, filter := p.sched.filter }
    free := p.free
    out := p.out }
  let q := (List.range 21).foldl (fun q s => q.setReg (O.supplyState + s) (p.reg (O.supplyState + s))) q
  let q := (List.range 12).foldl (fun q i =>
    if (p.port i).dead then (q.setPort i { PortSt.reset with dead := true }).setReg (O.portState + i) 4 else q) q
  let q := if p.supply.rootLost then q.setReg O.rootPllInUse 1 else q
  (((q.setReg O.resetCause (p.reg O.resetCause)).setReg O.coldResets (p.reg O.coldResets)).setReg O.refclkState
    (p.reg O.refclkState)).setReg O.eventLogNewest (p.reg O.eventLogNewest)

/-- The bits of a set of causes. -/
def orCause (a b : Nat) : Nat := a ||| b

/-- R452, R454: a cold reset by the sources in `cause`; one during a cold reset is the same one. It is asserted until
COLD_RESET_RELEASE. A reset in PS3 or PS4 first brings the supplies up (R448), so `wake` adds its cause. -/
def Pkg.coldReset (p : Pkg) (cause : Nat) (kept : Bool) : Pkg :=
  if p.boot.resetWait then p.setReg O.resetCause (orCause (p.reg O.resetCause) cause)
  else
    let p := p.noticeOfReset
    let p := ((p.resetAll kept).bump O.coldResets 1).setReg O.resetCause (cause + if kept then 64 else 0)
    (p.setBoot { p.boot with resetWait := true }).fixFault

/-! ## The supply sequence (R446, R448) -/

/-- The supplies of a step of R446, in their order. -/
def stepSupplies : Nat → List Nat
  | 2 => [16, 5]
  | 3 => [10, 12]
  | 4 => [7, 8, 9]
  | 5 => [11, 13]
  | 6 => [4, 6, 14, 15]
  | 7 => [0, 1, 2, 3]
  | _ => []

/-- Step 7's voltage of VDD_Cd: 850 mV, or the trimmed OP0 target where the always-on block of the trims is valid. -/
def Pkg.startVdd (p : Pkg) (d : Nat) : Nat := if p.power.aon.valid.at false 7 then p.reg (O.vddOpMv + 3 * d) else 850

/-- A supply is commanded on: it ramps until it reads power-good. -/
def Pkg.commandOn (p : Pkg) (s : Nat) : Pkg :=
  if p.reg (O.supplyState + s) = 2 then p
  else
    let p := if s < 4 then p.commandVdd s (p.startVdd s) else p
    (p.setReg (O.supplyState + s) 1).emit (.pmbus s (operationCommand true))

/-- The sequence from step k: a step starts when every supply of the one before reads power-good; after step 7 cold reset waits for
its release. -/
def Pkg.sequenceFrom : Nat → Nat → Pkg → Pkg
  | 0, _, p => (p.setSupply { p.supply with seqStep := 8 }).setBoot { p.boot with resetWait := true }
  | n + 1, k, p =>
    let p := (stepSupplies k).foldl Pkg.commandOn (p.setSupply { p.supply with seqStep := k })
    if (stepSupplies k).all fun s => decide (p.reg (O.supplyState + s) = 2) then Pkg.sequenceFrom n (k + 1) p else p

/-- The sequence from step k to step 7. -/
def Pkg.runSequence (p : Pkg) (k : Nat) : Pkg := Pkg.sequenceFrom (8 - k) k p

/-- R444, R446: the sequence stops at a supply that fails: event 0x2101 and FAULT_N; the supplies that are on stay on. -/
def Pkg.stopSequence (p : Pkg) (s : Nat) : Pkg :=
  let p := (p.setReg (O.supplyState + s) 3).raise 0x2101 s 0
  (p.setSupply { p.supply with seqStopped := true, supplyFault := true }).fixFault

/-- A regulator that gives no answer, and none to its retry (R444). -/
def Pkg.noAnswer (p : Pkg) (s : Nat) : Pkg := (p.bump O.pmbusRetries 1).raise 0x2102 s 0

/-- R446: power-on reset, then step 1: REFCLK and every regulator's STATUS_WORD. -/
def execPwrOkRise (silentRegulators : List Nat) (s : State) : Host.Outcome State Fault Refusal :=
  s.go fun p =>
    if p.supply.pwrOk then p
    else
      let q := Pkg.reset
      let q : Pkg := { q with
        boot := { q.boot with flash := p.boot.flash }
        retired := p.retired
        supply := { q.supply with pwrOk := true, resetLow := p.supply.resetLow, seqStep := 1 }
        free := p.free
        out := p.out }
      let q := q.setReg O.resetCause 1
      match silentRegulators.filter fun r => decide (r < 18) with
      | [] => q.runSequence 2
      | l => l.foldl (fun q r => (q.noAnswer r).stopSequence r) q

def execSupplyPowerGood (sup : Fin 21) (s : State) : Host.Outcome State Fault Refusal :=
  s.go fun p =>
    if p.reg (O.supplyState + sup.val) ≠ 1 then p
    else
      let p := p.setReg (O.supplyState + sup.val) 2
      let k := p.supply.seqStep
      if 2 ≤ k ∧ k ≤ 7 ∧ !p.supply.seqStopped then p.runSequence k else p

def execPowerGoodTimeout (sup : Fin 21) (s : State) : Host.Outcome State Fault Refusal :=
  s.go fun p => if p.reg (O.supplyState + sup.val) = 1 then p.stopSequence sup.val else p

/-- The supplies that the package switches, in the reverse of R446. -/
def downOrder : List Nat := [17] ++ ([7, 6, 5, 4, 3, 2].flatMap fun k => (stepSupplies k).reverse)

/-- R447, R448: PWR_OK falls: what a cold reset does at its start, then supplies 0 to 17 off. -/
def execPwrOkFall (s : State) : Host.Outcome State Fault Refusal :=
  s.go fun p =>
    if !p.supply.pwrOk then p
    else
      let p := ((p.raise 0x2103 noUnit 0).noticeOfReset).resetAll false
      let p := (p.switchSupplies downOrder false).emit .powerDown
      p.setSupply { p.supply with pwrOk := false, seqStep := 0, seqStopped := false, supplyFault := false }

/-! ## JTAG (R455) -/

/-- IDCODE: stepping B, part 0x54A1, manufacturer 0x3C7, and the 1 of the standard (R455). -/
abbrev jtagIdcode : BitVec 32 := (0x2 : BitVec 4) ++ (0x54A1 : BitVec 16) ++ (0x3C7 : BitVec 11) ++ (1 : BitVec 1)

/-- R455: the instruction in force: the one that the test logic holds while RESET_N is low, else BYPASS. -/
def Pkg.tapInstr (p : Pkg) : TapInstr := if p.supply.resetLow then p.supply.tap else .bypass

/-- What the register between TDI and TDO captures: IDCODE, or the one bit of BYPASS. The boundary registers of the other instructions
hold the lands' levels and no state of the package (log 85). -/
def tapCapture : TapInstr → Option (List Bool)
  | .bypass => some [false]
  | .idcode => some ((List.range 32).map fun i => jtagIdcode.getLsbD i)
  | _ => none

/-! ## Sources of a cold reset (R448, R451, R452) -/

/-- R448, R455: RESET_N low: the test logic responds, with IDCODE in force (log 85). During power-up the package stays in cold reset until it rises; in PS3 and PS4 the supplies come up first. -/
def execResetNAssert (memoryConfirmed : Bool) (s : State) : Host.Outcome State Fault Refusal :=
  s.go fun p =>
    let st := p.reg O.psCurrent
    let up := decide (p.supply.seqStep = 8)
    let p := p.setSupply { p.supply with resetLow := true, tap := .idcode }
    if !up then p.setReg O.resetCause (orCause (p.reg O.resetCause) 2)
    else if 3 ≤ st then
      let p := p.coldReset (2 + 32) memoryConfirmed
      (p.setBoot { p.boot with resetWait := false }).runSequence 2
    else p.coldReset 2 memoryConfirmed

/-- R452: package_reset. An xSPI write is one command, so none is in progress; the queued ones are discarded. -/
def Pkg.packageResetWrite (p : Pkg) (pt : Path) (v : Nat) (kept : Bool) : Pkg :=
  p.objWrite pt O.packageReset v fun p => p.coldReset 4 kept

def execPackageReset (pt : Path) (v : Nat) (memoryConfirmed : Bool) (s : State) : Host.Outcome State Fault Refusal :=
  s.on (pathPlane pt) fun p => p.packageResetWrite pt v memoryConfirmed

/-- R421, R424, R438, R452: reset is released, where the sequence is done: TEST_MODE high keeps the package in cold reset, RECOVERY_N low
asks for recovery, and boot starts. -/
def execColdResetRelease (recoveryN testMode : Bool) (s : State) : Host.Outcome State Fault Refusal :=
  s.on .always fun p =>
    if !p.boot.resetWait ∨ p.supply.seqStep ≠ 8 then p
    else if testMode then p.setReg O.resetCause (orCause (p.reg O.resetCause) 128)
    else
      let p := p.setSupply { p.supply with resetLow := false, tap := .bypass }
      (p.setBoot { p.boot with resetWait := false, step := 1, inRecovery := !recoveryN }).fixFault

/-! ## The reference clock and the PLLs (R25, R450) -/

/-- R450: REFCLK is absent: every plane but the always-on domain stops. -/
def execRefclkLoss (s : State) : Host.Outcome State Fault Refusal :=
  s.go fun p =>
    if p.supply.refclkAbsent then p
    else
      let p := ((p.raise 0x2104 noUnit 0).declareFailed).bump O.refclkLosses 1
      let p := (p.setReg O.refclkState 1).setSupply { p.supply with refclkAbsent := true }
      p.setBoot { p.boot with held := true }

def execRefclkRestored (memoryConfirmed : Bool) (s : State) : Host.Outcome State Fault Refusal :=
  s.go fun p =>
    if !p.supply.refclkAbsent then p
    else
      let p := (p.raise 0x2105 noUnit 0).setReg O.refclkState 0
      (p.setSupply { p.supply with refclkAbsent := false }).coldReset 16 memoryConfirmed

/-- The unit of a PLL stops: 0 to 11 neighbour ports, 12 to 47 memory units, 48 and 49 the PCIe ports (log 57). -/
def Pkg.stopPllUnit (p : Pkg) (u : Nat) : Pkg :=
  let p := p.setSupply { p.supply with pllOff := p.supply.pllOff.put false u true }
  if u < 12 then p.setReg (O.portState + u) 4
  else if u = 48 then p.linkDown 0 0 0
  else if u = 49 then p.linkDown 1 0 0
  else p

def pllUnit : Pll → Nat
  | .root => noUnit
  | .other u => u % 256

/-- R25: without the root PLL: a running image, or the loss of the standby itself, stops the data plane until the package starts
again; else the standby takes over. -/
def Pkg.loseRoot (p : Pkg) : Pkg :=
  if p.reg O.imageState = 4 ∨ p.reg O.rootPllInUse = 1 then p.setSupply { p.supply with rootLost := true }
  else p.setReg O.rootPllInUse 1

/-- R450, R468: the root PLL's loss fails the package; another's stops its unit. -/
def execPllUnlock (u : Pll) (s : State) : Host.Outcome State Fault Refusal :=
  s.go fun p =>
    let p := (p.bump O.pllUnlocks 1).raise 0x2106 (pllUnit u) 0
    match u with
    | .root => p.declareFailed.loseRoot
    | .other n => p.stopPllUnit n

/-- R421: the step in progress cannot complete: the package holds. -/
def Pkg.failBoot (p : Pkg) : Pkg :=
  let p := ((p.setReg O.bootState 5).setReg O.bootFailStep p.boot.step).raise 0x2402 noUnit 0
  p.setBoot { p.boot with step := 0, held := true }

/-- R450: a PLL not locked in time fails its unit's start-up: the root's, the boot step in progress. -/
def execPllLockTimeout (u : Pll) (s : State) : Host.Outcome State Fault Refusal :=
  s.go fun p =>
    let p := p.raise 0x2107 (pllUnit u) 0
    match u with
    | .root => if p.boot.step = 0 then p else p.failBoot
    | .other n => p.stopPllUnit n

/-! ## Regulators and telemetry (R442 to R444) -/

/-- PMBus STATUS_WORD, READ_POUT. -/
abbrev statusWordCommand : Nat := 0x79
abbrev readPoutCommand : Nat := 0x96

/-- R444: a fault of a supply: the package declares itself failed. -/
def Pkg.supplyFaultAt (p : Pkg) (s : Nat) : Pkg := ((p.setReg (O.supplyState + s) 3).raise 0x2101 s 0).declareFailed

/-- The recommended range of a supply, in mV (R439). -/
def supplyRange : Nat → Nat × Nat
  | 4 => (728, 773)
  | 5 => (728, 773)
  | 6 => (728, 773)
  | 7 => (1067, 1133)
  | 8 => (1010, 1120)
  | 9 => (870, 970)
  | 10 => (1710, 1890)
  | 11 => (380, 420)
  | 12 => (1700, 1950)
  | 13 => (470, 570)
  | 14 => (825, 875)
  | 15 => (1164, 1236)
  | 16 => (833, 867)
  | 17 => (784, 816)
  | 18 => (1746, 1854)
  | 19 => (3201, 3399)
  | 20 => (728, 773)
  | _ => (600, 900)

/-- R444: a reading, with the tenth consecutive one out of range reported once per episode. An integrator's supply shows its range. -/
def Pkg.supplyReading (p : Pkg) (s mv ma : Nat) : Pkg :=
  let p := (p.setReg (O.supplyMv + s) (mv % 2 ^ 16)).setReg (O.supplyMa + s) (ma % 2 ^ 32)
  let r := supplyRange s
  let bad := decide (mv < r.1 ∨ r.2 < mv)
  let p := if 18 ≤ s then p.setReg (O.supplyState + s) (if bad then 5 else 4) else p
  let n := if bad then min (p.supply.outCount.at 0 s + 1) 11 else 0
  let p := p.setSupply { p.supply with outCount := p.supply.outCount.put 0 s n }
  if n = 10 then p.raise 0x210B s 0 else p

/-- R444: what a transaction with the regulator of s found. Supplies 18 to 20 have none. -/
def Pkg.telemetry (p : Pkg) (s : Nat) (x : Telemetry) : Pkg :=
  match x with
  | .reading mv ma => p.supplyReading s mv ma
  | .stale => p.bump O.telemetryStale 1
  | .noAnswer again =>
    if 18 ≤ s then p
    else if again then p.bump O.pmbusRetries 1
    else (p.noAnswer s).supplyFaultAt s
  | .fault => if 18 ≤ s then p else p.supplyFaultAt s
  | .warning => if 18 ≤ s then p else p.raise 0x210C s 0

/-- R443: a STATUS_WORD read, before anything else on the bus. -/
def execPmbAlert (sup : Fin 18) (x : Telemetry) (s : State) : Host.Outcome State Fault Refusal :=
  s.on .management fun p =>
    let p := p.emit (.pmbus sup.val statusWordCommand)
    match x with
    | .reading _ _ => p
    | .stale => p
    | y => p.telemetry sup.val y

def execTelemetryPoll (sup : Fin 21) (x : Telemetry) (s : State) : Host.Outcome State Fault Refusal :=
  s.on .management fun p => (if sup.val < 18 then p.emit (.pmbus sup.val readPoutCommand) else p).telemetry sup.val x

/-! ## Temperatures (R458) -/

/-- R458: one reading, in 0.1 °C: a warning once per crossing, which clears 5 °C below its threshold. -/
def Pkg.temperature (p : Pkg) (k unit key limit : Nat) (t : Int) : Pkg :=
  let p := p.setReg k (toBits 16 t)
  let was := p.supply.warned.at false key
  let set (b : Bool) : Pkg := p.setSupply { p.supply with warned := p.supply.warned.put false key b }
  if 10 * (limit : Int) ≤ t then (if was then p else (set true).raise 0x2108 unit 0)
  else if was ∧ t ≤ 10 * (limit : Int) - 50 then set false
  else p

/-- Readings of dies 0 to 9 and of stacks 0 to 11. -/
def execThermalSample (dieTemps stackTemps : List Int) (s : State) : Host.Outcome State Fault Refusal :=
  s.on .management fun p =>
    let p := ((dieTemps.take 10).zip (List.range 10)).foldl (fun p (e : Int × Nat) =>
      p.temperature (O.dieTempDc + e.2) e.2 e.2 (p.reg O.thermalWarnC) e.1) p
    ((stackTemps.take 12).zip (List.range 12)).foldl (fun p (e : Int × Nat) =>
      p.temperature (O.stackTempDc + e.2) e.2 (10 + e.2) (p.reg O.stackWarnC) e.1) p

/-- R448, R458: a die (0 to 9) or stack (10 to 21) at its trip temperature: the lands go low, the notice is flooded if a port is up,
and supplies 0 to 17 fall. Sequences are abandoned, and memory is lost. -/
def execThermalTrip (unit : Fin 22) (s : State) : Host.Outcome State Fault Refusal :=
  s.go fun p =>
    if p.supply.tripped then p
    else
      let p := p.raise 0x2109 (if unit.val < 10 then unit.val else unit.val - 10) 0
      let p := if (List.range 12).any p.up then p.declareFailed else { p.stopTiles with failed := true }
      let p := p.setSupply { p.supply with tripped := true, seqStep := 0, seqStopped := true }
      let p := (p.setPower { p.power with trans := none, wakeQueue := [] }).fixFault
      let p := (List.range 18).foldl (fun p s => p.setReg (O.supplyState + s) 0) p
      ({ p with mem := [], eccPins := [], checkBytes := [], sramChk := [] }).emit .powerDown

end Sys2Proof.Machine
end

