-- ==== Sys2Proof/Machine/Boot.lean ====
section
/-! DEFINITION. Machine/Boot.lean: keys and signed objects (R411 to R415), the flash (R416, R417), owners and floors (R418 to R420),
boot (R421 to R423), recovery and transfers (R424 to R426), measurements and quotes (R427 to R431). -/
namespace Sys2Proof.Machine

/-! ## The flash (R416, R417) -/

/-- A byte of the flash; an erased one reads 0xFF (log 48). -/
def Pkg.flashByte (p : Pkg) (a : Nat) : Byte := SMap.at 0xFF a p.boot.flash
def Pkg.flashBytes (p : Pkg) (a n : Nat) : List Byte := (List.range n).map fun i => p.flashByte (a + i)

/-- Bytes written from an address on. -/
def flashPut (m : List Host.Cell) (a : Nat) : List Byte → List Host.Cell
  | [] => m
  | b :: r => flashPut (SMap.put 0xFF a b m) (a + 1) r

/-- A range erased. -/
def flashErase (m : List Host.Cell) (a n : Nat) : List Host.Cell := m.filter fun e => decide (e.1 < a ∨ a + n ≤ e.1)

abbrev ownerSlot : Nat := 0x5000
abbrev floorLog : Nat := 0x8000
abbrev dictSlot : Nat := 0x20000
abbrev firmwareSlot : Nat := 0x200000
abbrev certificateSlot : Nat := 0x3000

/-- A signed object of the flash: its header, and as much as its image_len says within the slot. -/
def Pkg.flashObject (p : Pkg) (a size : Nat) : List Byte :=
  let n := leNat (p.flashBytes (a + 8) 8)
  p.flashBytes a (if 4096 ≤ n ∧ n ≤ size then n else 4096)

/-! ## Envelopes (R413, R414) -/

/-- The fields of an envelope's header that are used. -/
structure Env where
  len : Nat
  product : Nat
  revision : Nat
  imageId : Nat
  security : Nat
  signer : Nat
  nParts : Nat
  raiseFloor : Nat
  partOff : Nat
  digest : List Byte
  sigLen : Nat
  sig : List Byte
  deriving DecidableEq, Repr

def envOf (b : List Byte) : Env :=
  let n := fieldAt b
  { len := n 8 8, product := n 16 4, revision := n 20 4, imageId := n 32 8, security := n 40 4, signer := n 44 4, nParts := n 48 4
    raiseFloor := n 52 4, partOff := n 56 8, digest := bytesAt b 64 32, sigLen := n 2048 2, sig := bytesAt b 2050 (n 2048 2) }

/-- The header is correct, its reserved bytes are 0, and its length is the object's. -/
def envShape (b : List Byte) (max : Nat) : Bool :=
  let e := envOf b
  decide (fieldAt b 4 2 = 1 ∧ fieldAt b 6 2 = 4096 ∧ 4096 ≤ e.len ∧ e.len ≤ max ∧ b.length = e.len ∧ e.raiseFloor ≤ 1 ∧ 1 ≤ e.sigLen ∧
    e.sigLen ≤ 1462) && zeroAt b 24 8 && zeroAt b 96 1952 && zeroAt b (2050 + e.sigLen) (2046 - e.sigLen)

/-- The vendor root key of a vendor-signed object, where its digest is the ROM's (R411). -/
def vendorRoot (b : List Byte) : Option (List Byte) :=
  if digest256 (Config.vendorKey b) = Config.vendorRootDigest then some (Config.vendorKey b) else none

/-- The key that a signer field names. -/
def signerKey (b : List Byte) (owners : List (List Byte)) (signer : Nat) : Option (List Byte) :=
  if signer = 0 then vendorRoot b else owners[signer - 1]?

/-- The digest that byte 64 holds: of the part table, or of the body. -/
def envDigest (b : List Byte) : List Byte :=
  let e := envOf b
  digest256 (if e.nParts = 0 then b.drop 4096 else bytesAt b e.partOff (64 * e.nParts))

/-- R413: the first check that fails, by the reasons of R425 in the order of R413 (log 49); `shape` is what the object's kind adds to
the header's layout, `digests` to its digests. -/
def Pkg.envReason (p : Pkg) (b : List Byte) (magic max floor : Nat) (owners : List (List Byte)) (shape signerOk digests : Bool) :
    Option Nat :=
  let e := envOf b
  if fieldAt b 0 4 ≠ magic then some 1
  else if !envShape b max ∨ !shape then some 1
  else if e.product ≠ p.reg O.productCode ∨ e.revision ≠ p.reg O.revisionNumber then some 4
  else if !signerOk then some 2
  else
    match signerKey b owners e.signer with
    | none => some 2
    | some k =>
      if !Config.falconVerify k (b.take 2048) e.sig then some 2
      else if e.digest ≠ envDigest b ∨ !digests then some 5
      else if e.security < floor then some 3
      else none

/-- R414: the part table of a firmware image. -/
def firmwareParts (b : List Byte) : List PartEnt :=
  (recordsAt b (envOf b).partOff 64 4).map partEnt

def firmwareShape (b : List Byte) : Bool :=
  let e := envOf b
  let l := firmwareParts b
  decide (e.nParts = 4 ∧ e.partOff % 64 = 0 ∧ e.partOff + 256 ≤ e.len) &&
    ((recordsAt b e.partOff 64 4).all fun x => zeroAt x 6 2 && zeroAt x 56 8) &&
    (l.all fun x => decide (x.vmask = 0 ∧ x.pkg = 0xFFFF ∧ x.offset + x.length ≤ e.len)) &&
    [0x0101, 0x0102, 0x0103, 0x0104].all fun k => decide ((l.filter fun x => decide (x.kind = k)).length = 1)

def firmwareDigests (b : List Byte) : Bool :=
  (firmwareParts b).all fun x => decide (x.digest = digest256 (bytesAt b x.offset x.length))

abbrev firmwareMax : Nat := 8388608
abbrev dictMax : Nat := 1048576
abbrev ownerMax : Nat := 12288

def Pkg.firmwareReason (p : Pkg) (b : List Byte) (floor : Nat) : Option Nat :=
  p.envReason b 0x49574654 firmwareMax floor [] (firmwareShape b) (decide ((envOf b).signer = 0)) (firmwareDigests b)

/-- R414: a dictionary image: an owner's signature, and one active configuration set image. -/
def Pkg.dictReason (p : Pkg) (b : List Byte) (floor : Nat) : Option Nat :=
  let e := envOf b
  p.envReason b 0x43494454 dictMax floor p.boot.owners
    (decide (e.nParts = 0 ∧ e.partOff = 0) && (cfgHeader (b.drop 4096)).isSome && decide (fieldAt b 4108 1 = 0))
    (decide (1 ≤ e.signer ∧ e.signer ≤ 4)) true

/-! ## The owner record (R418) -/

/-- owner_seq and the keys. -/
def ownerBody (b : List Byte) : Nat × List (List Byte) :=
  (fieldAt b 4096 8, (List.range (fieldAt b 4104 1)).map fun k => bytesAt b (4096 + 64 + 1856 * k) 1793)

def ownerShape (b : List Byte) : Bool :=
  let e := envOf b
  let n := fieldAt b 4104 1
  decide (e.nParts = 0 ∧ e.partOff = 0 ∧ e.security = 0 ∧ 1 ≤ n ∧ n ≤ 4 ∧ 4096 + 64 + 1856 * n ≤ e.len) && zeroAt b 4105 55

/-- R413, R418: an owner record whose signer's keys are `owners`. -/
def Pkg.ownerReason (p : Pkg) (b : List Byte) (owners : List (List Byte)) : Option Nat :=
  p.envReason b 0x4E574F54 ownerMax 0 owners (ownerShape b) (decide ((envOf b).signer ≤ 4)) true

/-- A new owner record: its signer is the vendor root or a current owner, and its owner_seq is higher. -/
def Pkg.newOwnerReason (p : Pkg) (b : List Byte) : Option Nat :=
  match p.ownerReason b p.boot.owners with
  | some r => some r
  | none => if (ownerBody b).1 ≤ p.reg O.ownerSeq ∧ p.boot.owners ≠ [] then some 3 else none

/-- R418: the record of the flash, checked with its own keys (log 50), is taken or not. -/
def Pkg.loadOwners (p : Pkg) : Bool × List Byte × Pkg :=
  let b := p.flashObject ownerSlot ownerMax
  match p.ownerReason b (ownerBody b).2 with
  | some _ => (false, b, ((p.setReg O.ownerSeq 0).setReg O.ownerKeys 0).setBoot { p.boot with owners := [] })
  | none =>
    let o := ownerBody b
    (true, b, ((p.setReg O.ownerSeq o.1).setReg O.ownerKeys o.2.length).setBoot { p.boot with owners := o.2 })

/-! ## Floors (R419, R420) -/

/-- Bytes 0 to 31 of a floor record. -/
def floorHead (seq fw dict syntaxFloor : Nat) : List Byte :=
  toLe 4 0x524C4654 ++ toLe 4 0 ++ toLe 8 seq ++ toLe 4 fw ++ toLe 4 dict ++ toLe 4 syntaxFloor ++ toLe 4 0

def floorRecord (seq fw dict syntaxFloor : Nat) : List Byte :=
  let h := floorHead seq fw dict syntaxFloor
  h ++ kmac256 storageKey h (ascii "TOA1 FLOOR")

/-- A valid record of the log: rec_seq and the three floors. -/
def floorOf (b : List Byte) : Option (Nat × List Nat) :=
  if fieldAt b 0 4 ≠ 0x524C4654 then none
  else if bytesAt b 32 32 ≠ kmac256 storageKey (b.take 32) (ascii "TOA1 FLOOR") then none
  else some (fieldAt b 8 8, [fieldAt b 16 4, fieldAt b 20 4, fieldAt b 24 4])

/-- The valid record with the highest rec_seq, with its slot of 1,024. -/
def Pkg.floorInForce (p : Pkg) : Option (Nat × Nat × List Nat) :=
  (List.range 1024).foldl (fun (m : Option (Nat × Nat × List Nat)) i =>
    match floorOf (p.flashBytes (floorLog + 64 * i) 64), m with
    | some r, some a => if a.2.1 < r.1 then some (i, r) else some a
    | some r, none => some (i, r)
    | none, a => a) none

def Pkg.loadFloors (p : Pkg) : Pkg :=
  let r := (p.floorInForce.map (·.2)).getD (0, [])
  (List.range 3).foldl (fun p i => p.setReg (O.floors + i) (r.2.getD i 0)) (p.setReg O.floorRecSeq r.1)

/-- R420: floor i is raised to a version, and a record is queued. -/
def Pkg.raiseFloor (p : Pkg) (i v : Nat) : Pkg :=
  if v ≤ p.reg (O.floors + i) then p
  else
    let p := (p.setReg (O.floors + i) v).setReg O.floorRecSeq (p.reg O.floorRecSeq + 1)
    (p.queueFlash 1 floorLog (floorRecord (p.reg O.floorRecSeq) (p.reg O.floors) (p.reg (O.floors + 1)) (p.reg (O.floors + 2)))).raise
      0x2408 noUnit 0

def Pkg.floorRaiseWrite (p : Pkg) (pt : Path) (v : Nat) : Pkg :=
  p.objWrite pt O.floorRaise v fun p =>
    if v = 1 then p.raiseFloor 0 (p.reg O.fwSecurityVersion)
    else if v = 2 then p.raiseFloor 1 p.boot.dictVersion
    else p.raiseFloor 2 ((p.loader.image.map (·.securityVersion)).getD 0)

def execFloorRaise (pt : Path) (v : Nat) (s : State) : Host.Outcome State Fault Refusal := s.on (pathPlane pt) fun p => p.floorRaiseWrite pt v

/-- R419: where the next record goes, and whether its half is erased first. -/
def Pkg.nextFloorSlot (p : Pkg) : Nat × Bool :=
  match p.floorInForce with
  | none => (0, true)
  | some (i, _) =>
    let half := i / 512
    let used := (List.range 512).filter fun k => (p.flashBytes (floorLog + 64 * (512 * half + k)) 64).any fun b => decide (b ≠ 0xFF)
    let k := (used.getLast?.getD 0) + 1
    if k < 512 then (512 * half + k, false) else (512 * (1 - half), true)

/-! ## Wear area and identity at boot (R404, R411, R412, R429) -/

/-- A valid copy of the wear area (log 43): boot_count and the rings. -/
def wearAreaOf (b : List Byte) : Option (Nat × SMap (List Int)) :=
  let n := 4 + 735 * 17
  if bytesAt b n 32 ≠ kmac256 storageKey (b.take n) [] then none
  else
    let ring (i : Nat) : List Int := (List.range (fieldAt b (4 + i) 1)).map fun k => (fieldAt b (739 + 16 * i + 2 * k) 2 : Int)
    some (fieldAt b 0 4, ((wearKeys.zip (List.range 735)).map fun e => (e.1, ring e.2)).filter fun e => decide (e.2 ≠ []))

/-- R421 step 3: the first valid copy is read, boot_count increments, and the area is written. -/
def Pkg.countBoot (p : Pkg) : Pkg :=
  let n := 4 + 735 * 17 + 32
  let x := match wearAreaOf (p.flashBytes 0x18000 n) with
    | some a => some a
    | none => wearAreaOf (p.flashBytes 0x1C000 n)
  let a := x.getD (0, [])
  let sums : SMap Int := (a.2.filter fun e => decide (e.1 / 2 ^ 24 = 8)).map fun e => (e.1, ((e.2.getLast?).getD 0) * 2 ^ 20)
  let p := p.setWear { p.wear with rings := a.2, sums := sums.filter fun e => decide (e.2 ≠ 0) }
  (p.setReg O.bootCount (wrapAdd 32 a.1 1)).queueWearArea

/-- Bytes padded with 0, or cut, to a length. -/
def padTo (n : Nat) (l : List Byte) : List Byte := (l ++ List.replicate (n - l.length) 0).take n

/-- The identity key's public half (R411). -/
def ikPublic : List Byte := padTo 1793 (Config.falconPublic (ascii "TOA1 IK" ++ Config.pufSeed))

/-- M0 to M7. -/
def Pkg.measure (p : Pkg) (i : Nat) : List Byte := p.boot.meas.at (List.replicate 32 0) i

/-- The alias key's public half. -/
def Pkg.akPublic (p : Pkg) : List Byte :=
  padTo 1793 (Config.falconPublic (ascii "TOA1 AK" ++ Config.pufSeed ++ p.measure 0 ++ p.measure 1))

/-- A signature, and the signings counted. -/
def Pkg.sign (p : Pkg) (signer : Nat) (m : List Byte) : List Byte × Pkg :=
  ((Config.falconSign signer m p.free).take 1462, { p with free := p.free + 1 })

/-- R412, R429: why an identity certificate is refused, if it is. -/
def Pkg.certReason (p : Pkg) (b : List Byte) : Option Nat :=
  let sl := fieldAt b 2048 2
  if fieldAt b 0 4 ≠ 0x43444954 then some 1
  else if b.length ≠ 8192 ∨ sl = 0 ∨ 1462 < sl then some 1
  else if fieldAt b 4 4 ≠ p.reg O.productCode ∨ fieldAt b 8 4 ≠ p.reg O.revisionNumber then some 4
  else
    match vendorRoot b with
    | none => some 2
    | some k =>
      if !Config.falconVerify k (b.take 2048) (bytesAt b 2050 sl) then some 2
      else if bytesAt b 16 32 ≠ digest256 (bytesAt b 4096 4096) then some 5
      else if bytesAt b 76 1793 ≠ ikPublic then some 6
      else none

/-- The keys under which `quotes` keeps the certificates, and path n's quote being signed. -/
abbrev aliasKey : Nat := 8
abbrev identityKey : Nat := 9

/-- A verified identity certificate is in force. -/
def Pkg.takeCertificate (p : Pkg) (b : List Byte) : Pkg :=
  ((p.setReg O.serialNumber (fieldAt b 12 4)).setReg O.identityState 1).setBoot { p.boot with
    quotes := p.boot.quotes.put [] identityKey b }

/-- R429: a signed object: its region, and the signature after it. -/
def Pkg.signed (p : Pkg) (signer region total : Nat) (l : List Byte) : List Byte × Pkg :=
  let m := padTo region l
  let g := p.sign signer m
  (padTo total (m ++ toLe 2 g.1.length ++ g.1), g.2)

/-- R421 step 6: IK signs the alias certificate. -/
def Pkg.makeAlias (p : Pkg) : Pkg :=
  let g := p.signed 0 2048 4096 (toLe 4 0x434C4154 ++ toLe 4 (p.reg O.bootCount) ++ toLe 4 (p.reg O.serialNumber) ++ p.measure 0 ++
    p.measure 1 ++ p.akPublic)
  g.2.setBoot { g.2.boot with quotes := g.2.boot.quotes.put [] aliasKey g.1 }

/-! ## Boot (R421, R422) -/

/-- R424: the package enters recovery. The ROM reads the owners and floors that its transfers are checked against. -/
def Pkg.enterRecovery (p : Pkg) (reason : Nat) : Pkg :=
  let p := if p.boot.owners = [] then p.loadOwners.2.2.loadFloors else p
  let p := ((p.setReg O.bootState 4).setReg O.recoveryReason reason).setReg O.recoveryState (if reason = 5 then 6 else 1)
  (p.raise 0x2407 noUnit 0).setBoot { p.boot with step := 0, inRecovery := true, recoveryReq := false }

/-- R367: the ROM finds the always-on header invalid: it writes a fresh one. After any reset but a power-on one its bit of
aon_restore_status is set. -/
def Pkg.checkHeader (p : Pkg) : Pkg :=
  let a := p.power.aon
  if a.hdrValid then p
  else
    let p := p.setPower { p.power with aon := { a with hdrValid := true, saveCount := 0, savedFrom := 0, bootFails := 0 } }
    if bitOf (p.reg O.resetCause) 0 ∨ bitOf (p.reg O.aonRestoreStatus) 0 then p
    else p.setReg O.aonRestoreStatus (p.reg O.aonRestoreStatus + 1)

def Pkg.setBootFails (p : Pkg) (n : Nat) : Pkg := p.setPower { p.power with aon := { p.power.aon with bootFails := n } }

/-- Elements of an array from a key take a value. -/
def Pkg.setRegs (p : Pkg) (k n v : Nat) : Pkg := (List.range n).foldl (fun p i => p.setReg (k + i) v) p

/-- R57, R254, R306: a step of the boot claims each of n test controllers as claimant 1, or is refused; it then releases those that
it holds. -/
def Pkg.claimTest (p : Pkg) (k n event : Nat) : Pkg :=
  (List.range n).foldl (fun p i => p.ownerWrite .unit (k + i) 1 event i) p

def Pkg.releaseTest (p : Pkg) (k n : Nat) : Pkg :=
  (List.range n).foldl (fun p i => if p.reg (k + i) = 1 then p.setReg (k + i) 0 else p) p

/-- A step begins: what it claims and switches on. -/
def Pkg.beginBootStep (p : Pkg) (k : Nat) : Pkg :=
  let p := p.setBoot { p.boot with step := k }
  match k with
  | 3 => p.switchSupplies [17] true
  | 8 => p.claimTest O.bistOwner 4 0x3006
  | 9 => p.claimTest O.memTestOwner 4 0x4009
  | 10 =>
    let p := (((p.setReg O.reclaimOwner 1).setRegs O.reclaimMask 2 0xFFFFFFFF).setReg (O.reclaimMask + 2) 0xF).setReg O.reclaimState 1
    { p with coh := { p.coh with sweep := true } }
  | 11 => p.claimTest O.linkTestOwner 2 0x4409
  | _ => p

/-- Step 7: the spares that the dictionary image names are the held-out units; a retired tile stays so (R33). -/
def Pkg.placeSpares (p : Pkg) : Pkg :=
  let p := (List.range 208).foldl (fun p q =>
    p.setReg (O.tileState + q) (if q % 13 = p.reg (O.spareCol + q / 13) then 1 else 0)) p
  let p := (List.range 208).foldl (fun p q => if p.retired.at false q then retireTile p q else p) p
  (List.range 68).foldl (fun p c => p.setReg (O.coreState + c) (if c % 17 = p.reg (O.spareCore + c / 17) then 2 else 1)) p

/-- R386, R420, R421 step 7: the dictionary image is applied, or skipped with event 0x2405. -/
def Pkg.applyDictionary (p : Pkg) : Pkg :=
  let b := p.flashObject dictSlot dictMax
  match p.dictReason b (p.reg (O.floors + 1)) with
  | some _ => p.raise 0x2405 noUnit 0
  | none =>
    let e := envOf b
    let p := ((p.applyCfgImage (b.drop 4096)).noteScrub (p.reg O.scrubEnable)).extend 2 1 2 e.imageId (digest256 (b.take 2048))
    let p := p.setBoot { p.boot with dictVersion := e.security }
    if e.raiseFloor = 1 then p.raiseFloor 1 e.security else p

/-- A verified firmware image is the running one: M1 is extended with its header. -/
def Pkg.stageFirmware (p : Pkg) (b : List Byte) : Pkg :=
  let e := envOf b
  let p := (p.setReg O.fwSecurityVersion e.security).setReg O.fwImageId e.imageId
  (p.setBoot { p.boot with fwFloorRaise := decide (e.raiseFloor = 1) }).extend 1 0 1 e.imageId (digest256 (b.take 2048))

/-- Step 8: the start-up test ends on every die that it still holds (R33, R57). -/
def Pkg.endTest (p : Pkg) (failed : List PhysTile) : Pkg :=
  (List.range 4).foldl (fun p d =>
    if p.reg (O.bistOwner + d) ≠ 1 then p
    else
      ((List.range 52).foldl (fun p i => tileTested 1 (failed.any fun f => f.val == 52 * d + i) p (52 * d + i)) p).setReg
        (O.bistOwner + d) 0) p

/-- Step 9: every unit's repair resources are read (log 52); contents not kept are written with the zero codeword (R453). -/
def Pkg.endTraining (p : Pkg) : Pkg :=
  let left (p : Pkg) (k : Nat) : Pkg :=
    let f := p.fresh
    f.2.setReg k (f.1.toNat % 65536)
  let p := (List.range 12).foldl (fun p i => left p (O.hbmRepairsLeft + i)) (p.releaseTest O.memTestOwner 4)
  let p := (List.range 24).foldl (fun p i => left p (O.lpddrRepairsLeft + i)) p
  let p := { p with memsys := { p.memsys with selfRefresh := [] } }
  if bitOf (p.reg O.resetCause) 6 then p
  else { p with mem := p.mem.filter fun e => !isMem e.1, eccPins := [], checkBytes := [] }

/-- Step 11: the boot is complete. -/
def Pkg.completeBoot (p : Pkg) : Pkg :=
  let p := (p.releaseTest O.linkTestOwner 2).setBootFails 0
  let held := denseMap false ((List.range 68).map fun c => decide (p.hartOf c ≠ 0xFF ∧ p.hartOf c ≠ 0))
  let p := p.setBoot { p.boot with step := 0, inRecovery := false, coreHeld := held }
  let p := ((p.setReg O.bootState 3).setReg O.recoveryState 0).raise 0x2401 noUnit 0
  if p.boot.fwFloorRaise then p.raiseFloor 0 (p.reg O.fwSecurityVersion) else p

/-- R412: the identity fails. -/
def Pkg.failIdentity (p : Pkg) (st reason : Nat) : Pkg := ((p.setReg O.identityState st).raise 0x2403 noUnit 0).enterRecovery reason

/-- The end of step k, with what it found: how the boot goes on. -/
def Pkg.endBootStep (p : Pkg) (k : Nat) (f : BootFinding) : Pkg :=
  let next (p : Pkg) : Pkg := p.beginBootStep (k + 1)
  match k with
  | 1 =>
    if !f.ok then p.failBoot
    else
      let p := (p.checkHeader).extend 0 0 1 0 Config.romDigest
      if p.boot.inRecovery then p.enterRecovery 1
      else if p.boot.recoveryReq then p.enterRecovery 3
      else if p.power.aon.bootFails = 3 then p.enterRecovery 4
      else next p
  | 2 =>
    if !f.ok ∨ leNat (p.flashBytes 0 4) ≠ 0x534C4654 ∨ leNat (p.flashBytes 4 2) ≠ 1 then p.enterRecovery 2 else next p
  | 3 =>
    let p := p.switchSupplies [17] false
    if !f.ok then p.failIdentity 2 5
    else
      let p := p.countBoot
      let b := p.flashBytes certificateSlot 8192
      match p.certReason b with
      | some _ => p.failIdentity 3 6
      | none => next (p.takeCertificate b)
  | 4 =>
    let r := p.loadOwners
    if f.ok ∧ r.1 then next (r.2.2.extend 0 0 2 (fieldAt r.2.1 32 8) (digest256 r.2.1))
    else next (((r.2.2.setReg O.ownerSeq 0).setReg O.ownerKeys 0).setBoot { r.2.2.boot with owners := [] } |>.raise 0x2404 noUnit 0)
  | 5 =>
    let p := p.loadFloors
    let b := p.flashObject firmwareSlot firmwareMax
    if !f.ok then p.enterRecovery 2
    else
      match p.firmwareReason b (p.reg O.floors) with
      | some _ => p.enterRecovery 2
      | none => next (p.stageFirmware b)
  | 6 => if f.ok then next p.makeAlias.takeTail else p.failBoot
  | 7 =>
    if !f.ok then p.failBoot
    else
      let p := p.setReg O.bootState 1
      let p := if p.reg O.resetCause % 64 / 2 ≠ 0 then p.raise 0x210A noUnit (p.reg O.resetCause) else p
      let p := p.applyDictionary.placeSpares
      next (p.extend 3 1 2 (p.reg O.cfgActiveGen) (digest256 p.activeImage))
  | 8 => if f.ok then next (p.endTest f.failedTiles) else p.failBoot
  | 9 => if f.ok then next p.endTraining else (p.releaseTest O.memTestOwner 4 |>.raise 0x400A (f.reason % 256) 0).failBoot
  | 10 =>
    if !f.ok then p.failBoot
    else
      let p := (List.range 4).foldl Pkg.moveWay { p with coh := { p.coh with sweep := false } }
      next ((p.setReg O.reclaimState 2).setReg O.reclaimOwner 0)
  | _ => if f.ok then p.completeBoot else p.failBoot

def execBootStepDone (f : BootFinding) (s : State) : Host.Outcome State Fault Refusal :=
  s.on .management fun p => if p.boot.step = 0 then p else p.endBootStep p.boot.step f

/-- R422: the watchdog: from step 7 on, boot_state has not reached 3. -/
def execBootWatchdogExpiry (memoryConfirmed : Bool) (s : State) : Host.Outcome State Fault Refusal :=
  s.on .management fun p =>
    let st := p.reg O.bootState
    if p.boot.step = 7 ∨ st = 1 ∨ (st = 5 ∧ 7 ≤ p.reg O.bootFailStep) then
      ((p.setBootFails (min (p.power.aon.bootFails + 1) 255)).coldReset 8 memoryConfirmed).raise 0x240B noUnit 0
    else p

/-! ## The operating system and the cores (R281, R423) -/

/-- R423: whether an OS payload passes: an envelope signed by an owner key. No magic is given for one (log 55). -/
def Pkg.payloadOk (p : Pkg) (b : List Byte) : Bool :=
  (p.envReason b (fieldAt b 0 4) (2 ^ 32) 0 p.boot.owners true (decide (1 ≤ (envOf b).signer ∧ (envOf b).signer ≤ 4)) true).isNone

/-- The core of hart 0. -/
def Pkg.hart0 (p : Pkg) : Nat := (firstBelow 68 fun c => decide (p.hartOf c = 0)).getD 0

def Pkg.osBootWrite (p : Pkg) (pt : Path) (v : Nat) : Pkg :=
  p.objWrite pt O.osBoot v fun p =>
    let a := p.reg O.osPayloadAddr
    let n := p.reg O.osPayloadLen
    let base := p.reg O.cmdWindowBase
    if p.reg O.bootState ≠ 3 ∨ p.boot.osStarted ∨ n = 0 then p
    else if a < base ∨ base + 2 ^ 32 < a + n ∨ n = 2 ^ 32 - 1 then p.raise 0x240E noUnit 0
    else
      match p.agentBytes ioA a n with
      | (none, p) => p.raise 0x240E noUnit 0
      | (some b, p) =>
        let p := p.extend 5 2 1 0 (digest256 b)
        if p.reg O.osVerify = 1 ∧ !p.payloadOk b then p.raise 0x240E noUnit 0
        else (p.setBoot { p.boot with osStarted := true }).setReg (O.coreState + p.hart0) 0

def execOsBoot (pt : Path) (v : Nat) (s : State) : Host.Outcome State Fault Refusal := s.on (pathPlane pt) fun p => p.osBootWrite pt v

/-- R439: VDD_C of a die leaves the retention voltage as a core of it comes online. -/
def Pkg.leaveRetention (p : Pkg) (d : Nat) : Pkg :=
  if p.power.vddTarget.at 0 d = retentionMv then p.commandVdd d (p.vddOf d (p.reg O.aclkDivisorActive)) else p

/-- R281, R423: the runtime starts a core that the boot stage holds. -/
def execCoreStarted (c : CoreNo) (s : State) : Host.Outcome State Fault Refusal :=
  s.on .control fun p =>
    if p.boot.osStarted ∧ p.boot.coreHeld.at false c.val ∧ p.reg (O.coreState + c.val) = 1 then
      ((p.setBoot { p.boot with coreHeld := p.boot.coreHeld.put false c.val false }).setReg (O.coreState + c.val) 0).leaveRetention
        (c.val / 17)
    else p

/-! ## Recovery and transfers (R424 to R426) -/

/-- The plane of a transfer's source: the mailbox lies in port H's window. -/
def xferPlane : XferSrc → Plane
  | .mailbox => .control
  | .canFd => .management

def Pkg.recoveryRequestWrite (p : Pkg) (pt : Path) (v : Nat) : Pkg :=
  p.objWrite pt O.recoveryRequest v fun p => p.setBoot { p.boot with recoveryReq := true }

def execRecoveryRequest (pt : Path) (v : Nat) (s : State) : Host.Outcome State Fault Refusal :=
  s.on (pathPlane pt) fun p => p.recoveryRequestWrite pt v

/-- The maximum length of a kind. -/
def xferMax : Nat → Nat
  | 1 => firmwareMax
  | 2 => dictMax
  | 3 => ownerMax
  | 4 => 8192
  | _ => 0

/-- R425: a refusal with its reason. The mailbox shows status 1, or 3 for a failed verification; CAN FD aborts. -/
def Pkg.refuseXfer (p : Pkg) (src : XferSrc) (reason : Nat) (verify : Bool) : Pkg :=
  let p := (p.setReg O.recoveryLastRefusal reason).raise 0x2406 noUnit reason
  match src with
  | .mailbox => p.setBoot { p.boot with mailbox := if verify then 3 else 1 }
  | .canFd => p.refuse .canFd O.recoveryOp abState

/-- A command of the mailbox is accepted. -/
def Pkg.acceptXfer (p : Pkg) (src : XferSrc) : Pkg :=
  match src with
  | .mailbox => p.setBoot { p.boot with mailbox := 0 }
  | .canFd => p

/-- R425: whether transfers are served, and in recovery. -/
def Pkg.romServes (p : Pkg) : Bool := decide (p.reg O.bootState = 4 ∧ p.reg O.recoveryState ≠ 6)
def Pkg.firmwareServes (p : Pkg) : Bool := decide (p.reg O.bootState = 3 ∧ p.reg O.imageState = 0)

/-- R425: the mode is allowed. Kinds 2 to 4 are only written (log 54). -/
def Pkg.modeAllowed (p : Pkg) (kind mode : Nat) : Bool :=
  if p.romServes then decide (mode = 2 ∨ (kind = 1 ∧ mode = 1)) else p.firmwareServes && decide (mode = 2 ∧ kind ≠ 4)

/-- The state of recovery while nothing is under way. -/
def Pkg.idleRecovery (p : Pkg) : Pkg := p.setReg O.recoveryState (if p.reg O.bootState = 4 then 1 else 0)

def Pkg.xferBegin (p : Pkg) (src : XferSrc) (kind mode total : Nat) : Pkg :=
  if p.boot.xfer.isSome ∨ total = 0 ∨ xferMax kind < total ∨ !p.modeAllowed kind mode then p.refuseXfer src 1 false
  else
    let p := (p.setBoot { p.boot with xfer := some ⟨src, kind, mode, total, []⟩ }).setReg O.recoveryState 2
    (p.setReg O.recoveryOffset 0).acceptXfer src

def execBeginTransfer (src : XferSrc) (kind mode totalLen : Nat) (s : State) : Host.Outcome State Fault Refusal :=
  s.on (xferPlane src) fun p => p.xferBegin src kind mode totalLen

/-- The most that one DATA carries. -/
def dataMax : XferSrc → Nat
  | .mailbox => 1044480
  | .canFd => 65536

def Pkg.xferData (p : Pkg) (src : XferSrc) (offset : Nat) (bytes : List Byte) : Pkg :=
  match p.boot.xfer with
  | none => p.refuseXfer src 1 false
  | some x =>
    let n := x.got.length
    if x.src ≠ src ∨ p.reg O.recoveryState ≠ 2 ∨ offset ≠ n ∨ bytes.isEmpty ∨ dataMax src < bytes.length ∨ x.total < n + bytes.length then
      p.refuseXfer src 1 false
    else
      let p := p.setBoot { p.boot with xfer := some { x with got := x.got ++ bytes } }
      (p.setReg O.recoveryOffset (n + bytes.length)).acceptXfer src

def execDataTransfer (src : XferSrc) (offset : Nat) (bytes : List Byte) (s : State) : Host.Outcome State Fault Refusal :=
  s.on (xferPlane src) fun p => p.xferData src offset bytes

/-- R425: why a whole object is refused, if it is. -/
def Pkg.xferReason (p : Pkg) (kind : Nat) (b : List Byte) : Option Nat :=
  match kind with
  | 1 => p.firmwareReason b (p.reg O.floors)
  | 2 => p.dictReason b (p.reg (O.floors + 1))
  | 3 => p.newOwnerReason b
  | _ => p.certReason b

/-- The flash slot of a kind. -/
def xferSlot : Nat → Nat
  | 1 => firmwareSlot
  | 2 => dictSlot
  | 3 => ownerSlot
  | _ => certificateSlot

/-- A firmware image of a transfer runs: boot resumes at step 6 (R426). -/
def Pkg.runTransferred (p : Pkg) (x : Xfer) : Pkg :=
  let p := (p.stageFirmware x.got).setReg O.bootSource (if x.src = .mailbox then 1 else 2)
  let p := (p.setReg O.bootState 0).setReg O.recoveryState 4
  (p.setBoot { p.boot with xfer := none, inRecovery := false }).beginBootStep 6

/-- R425: an accepted object: M6 is extended, and it is run or its write is queued; it stays open until it is written. -/
def Pkg.takeObject (p : Pkg) (x : Xfer) : Pkg :=
  let rom := p.romServes
  let id := if x.kind = 4 then 0 else fieldAt x.got 32 8
  let p := p.extend 6 (if rom then 0 else 1) 4 id (digest256 (if x.kind ≤ 2 then x.got.take 2048 else x.got))
  let p := if rom ∧ p.reg O.recoveryReason = 4 then p.setBootFails 0 else p
  if x.kind = 1 ∧ x.mode = 1 then p.runTransferred x
  else (p.queueFlash (if x.kind = 1 then 4 else 3) (xferSlot x.kind) x.got).setReg O.recoveryState 5

def Pkg.xferEnd (p : Pkg) (src : XferSrc) : Pkg :=
  match p.boot.xfer with
  | none => p.refuseXfer src 1 false
  | some x =>
    if x.src ≠ src ∨ p.reg O.recoveryState ≠ 2 then p.refuseXfer src 1 false
    else
      match (if x.got.length ≠ x.total then some 1 else p.xferReason x.kind x.got) with
      | some r => ((p.setBoot { p.boot with xfer := none }).idleRecovery).refuseXfer src r true
      | none => (p.takeObject x).acceptXfer src

def execEndTransfer (src : XferSrc) (s : State) : Host.Outcome State Fault Refusal := s.on (xferPlane src) fun p => p.xferEnd src

def Pkg.xferAbort (p : Pkg) (src : XferSrc) : Pkg :=
  match p.boot.xfer with
  | none => p.refuseXfer src 1 false
  | some x =>
    if x.src ≠ src ∨ p.reg O.recoveryState ≠ 2 then p.refuseXfer src 1 false
    else (((p.setBoot { p.boot with xfer := none }).idleRecovery).setReg O.recoveryOffset 0).acceptXfer src

def execAbortTransfer (src : XferSrc) (s : State) : Host.Outcome State Fault Refusal := s.on (xferPlane src) fun p => p.xferAbort src

/-! ## The mailbox (R426) -/

/-- The bytes of the mailbox that the host has written. -/
def Pkg.mboxBytes (p : Pkg) (o n : Nat) : List Byte := (List.range n).map fun i => SMap.at 0 (o + i) p.boot.mbox

/-- The command of a control record. -/
def Pkg.runRecord (p : Pkg) (b : List Byte) : Pkg :=
  let n := fieldAt b 16 4
  if !zeroAt b 10 2 || !zeroAt b 24 36 then p.refuseXfer .mailbox 1 false
  else
    match fieldAt b 4 4 with
    | 1 => p.xferBegin .mailbox (fieldAt b 8 1) (fieldAt b 9 1) (fieldAt b 20 4)
    | 2 => if n = 0 ∨ 1044480 < n then p.refuseXfer .mailbox 1 false else p.xferData .mailbox (fieldAt b 12 4) (p.mboxBytes 0x1000 n)
    | 3 => p.xferEnd .mailbox
    | 4 => p.xferAbort .mailbox
    | _ => p.refuseXfer .mailbox 1 false

/-- R322, R426: a doorbell: a record with the right crc and seq runs; any other is not visible (log 84). -/
def Pkg.mailboxBell (p : Pkg) (seq : Nat) : Pkg :=
  let b := p.mboxBytes 0 64
  let p := p.setBoot { p.boot with mboxSeq := seq }
  if crc32c (b.take 60) = fieldAt b 60 4 ∧ fieldAt b 0 4 = seq then p.runRecord b
  else (p.setBoot { p.boot with mailbox := 2 }).raise 0x2409 noUnit 0

/-- A write into the mailbox; none where the offset takes none. -/
def Pkg.mailboxWrite (p : Pkg) (o : Nat) (b : List Byte) : Option Pkg :=
  if o = 0x40 ∧ b.length = 4 then some (p.mailboxBell (leNat b))
  else if o + b.length ≤ 0x40 ∨ (0x1000 ≤ o ∧ o + b.length ≤ 0x100000) then
    some (p.setBoot { p.boot with mbox := (b.zip (List.range b.length)).foldl (fun m e => SMap.put 0 (o + e.2) e.1 m) p.boot.mbox })
  else none

/-- A 32-bit word of the mailbox: what was written, and the status. -/
def Pkg.mailboxWord (p : Pkg) (o : Nat) : Nat :=
  if o = 0x40 ∨ o = 0x80 then p.boot.mboxSeq
  else if o = 0x84 then
    p.boot.mailbox % 256 + fld (p.reg O.recoveryState % 256) 8 + fld (p.reg O.recoveryReason % 256) 16
  else if o = 0x88 then p.reg O.recoveryOffset
  else if o < 0x40 ∨ 0x1000 ≤ o then leNat (p.mboxBytes o 4)
  else 0

/-! ## Flash writes (R417) -/

/-- The first job of the highest priority, by its place in the queue. -/
def nextJob (l : List FlashJob) : Option Nat :=
  let best := l.foldl (fun m j => min m j.prio) 5
  l.findIdx? fun j => decide (j.prio = best)

/-- n bytes that a failed write leaves, from an address on. -/
def Pkg.freeFlash (p : Pkg) (a n : Nat) : Pkg :=
  (List.range n).foldl (fun p i =>
    let f := p.fresh
    f.2.setBoot { f.2.boot with flash := flashPut f.2.boot.flash (a + i) [BitVec.ofNat 8 f.1.toNat] }) p

/-- What follows the write of a transferred object. -/
def Pkg.written (p : Pkg) : Pkg :=
  match p.boot.xfer with
  | none => p
  | some x =>
    let rom := p.romServes
    if rom ∧ x.kind = 1 then p.runTransferred x
    else
      let p := (p.setBoot { p.boot with xfer := none }).idleRecovery
      if !rom then p
      else if x.kind = 3 then p.loadOwners.2.2
      else if x.kind = 4 then p.takeCertificate x.got
      else p

/-- R417: the next queued write is performed and read back, and retried once; a second mismatch raises event 0x240C. -/
def Pkg.performWrite (p : Pkg) (good again : Bool) : Pkg :=
  match nextJob p.boot.flashQ with
  | none => p
  | some n =>
    match p.boot.flashQ[n]? with
    | none => p
    | some j =>
      let p := p.setBoot { p.boot with flashQ := dropAt p.boot.flashQ n }
      let slot := p.nextFloorSlot
      let a := if j.prio = 1 then floorLog + 64 * slot.1 else j.offset
      let erased := if j.prio = 1 then (if slot.2 then flashErase p.boot.flash (floorLog + 32768 * (slot.1 / 512)) 32768 else p.boot.flash)
        else if j.prio = 4 then flashErase p.boot.flash firmwareSlot firmwareMax else p.boot.flash
      let p := p.setBoot { p.boot with flash := erased }
      let p := if good || again then p.setBoot { p.boot with flash := flashPut p.boot.flash a j.bytes }
        else (p.freeFlash a j.bytes.length).raise 0x240C noUnit 0
      if p.reg O.recoveryState = 5 ∧ 3 ≤ j.prio then p.written else p

def execFlashWrite (good goodOnRetry : Bool) (s : State) : Host.Outcome State Fault Refusal :=
  s.on .management fun p => p.performWrite good goodOnRetry

/-! ## Quotes (R429, R430), M7 and the random source (R427, R431) -/

/-- A path's nonce. -/
def Pkg.nonce (p : Pkg) (n : Nat) : List Byte := (List.range 8).flatMap fun i => toLe 4 (p.reg (O.quoteNonce + 256 * (n - 1) + i))

/-- Word `w` of path n's nonce is written. -/
def Pkg.nonceWrite (p : Pkg) (pt : Path) (n w v : Nat) : Pkg :=
  let k := O.quoteNonce + 256 * (n - 1) + w
  if p.reg (O.quoteState + (n - 1)) = 1 then p.refuse pt k abState
  else (p.setReg k v).setReg (O.quoteState + (n - 1)) 0

def execQuoteNonceWrite (pt : Path) (word : Fin 8) (v : W32) (s : State) : Host.Outcome State Fault Refusal :=
  s.on (pathPlane pt) fun p => p.nonceWrite pt pt.num word.val v.toNat

/-- The signed region of a quote for path n (R429). -/
def Pkg.quoteBody (p : Pkg) (n : Nat) : List Byte :=
  let r (k : Nat) (b : Nat) : List Byte := toLe b (p.reg k)
  toLe 4 0x4F555154 ++ toLe 4 1 ++ r O.productCode 4 ++ r O.revisionNumber 4 ++ r O.serialNumber 4 ++ r O.bootCount 4 ++ p.nonce n ++
    digest256 ikPublic ++ digest256 p.akPublic ++ ((List.range 8).flatMap p.measure) ++ r O.measureCount 8 ++ r O.floorRecSeq 8 ++
    r O.floors 4 ++ r (O.floors + 1) 4 ++ r (O.floors + 2) 4 ++ r O.cfgActiveGen 4 ++ r O.imageId 8 ++ r O.domainBeat 8 ++
    r O.logicalPosition 2 ++ r O.domainPhysId 2 ++ r O.ownerSeq 8

/-- R430: a request for path n's quote. -/
def Pkg.quoteRequestWrite (p : Pkg) (pt : Path) (n v : Nat) : Pkg :=
  let k := O.quoteRequest + (n - 1)
  p.objWrite pt k v fun p =>
    if p.reg (O.quoteState + (n - 1)) = 1 ∨ p.reg O.identityState ≠ 1 ∨ p.reg O.rngState = 1 then p.refuse pt k abState
    else
      let g := p.signed 1 512 2048 (p.quoteBody n)
      (g.2.setBoot { g.2.boot with quotes := g.2.boot.quotes.put [] (10 + n) g.1 }).setReg (O.quoteState + (n - 1)) 1

def execQuoteRequest (pt : Path) (v : Nat) (s : State) : Host.Outcome State Fault Refusal :=
  s.on (pathPlane pt) fun p => p.quoteRequestWrite pt pt.num v

def execQuoteReady (pt : Path) (s : State) : Host.Outcome State Fault Refusal :=
  s.on (pathPlane pt) fun p =>
    let n := pt.num
    if p.reg (O.quoteState + (n - 1)) ≠ 1 then p
    else
      let q := p.boot.quotes
      (p.setBoot { p.boot with quotes := (q.put [] n (q.at [] (10 + n))).put [] (10 + n) [] }).setReg (O.quoteState + (n - 1)) 2

/-- The bytes of a measurement log entry (R428). -/
def measBytes (e : MeasEnt) : List Byte :=
  toLe 4 e.seq ++ toLe 1 e.reg ++ toLe 1 e.source ++ toLe 2 e.type ++ toLe 8 e.data ++ List.replicate 16 0 ++ padTo 32 e.digest

/-- The chunks of a buffer of R430. -/
def Pkg.attestChunks (p : Pkg) (buffer : Nat) : Nat :=
  match buffer with
  | 0 => 32
  | 1 => 128
  | 2 => 64
  | 3 => p.boot.measLog.length
  | _ => 0

/-- The selected 64 bytes of path n. -/
def Pkg.attestChunk (p : Pkg) (n : Nat) : List Byte :=
  let v := p.reg (O.attestSelect + (n - 1))
  let c := v % 65536
  let part (l : List Byte) : List Byte := padTo 64 (bytesAt l (64 * c) 64)
  match v / 2 ^ 24 with
  | 0 => part (p.boot.quotes.at [] n)
  | 1 => part (p.boot.quotes.at [] identityKey)
  | 2 => part (p.boot.quotes.at [] aliasKey)
  | _ => match p.boot.measLog[c]? with
    | some e => measBytes e
    | none => List.replicate 64 0

def Pkg.attestSelectWrite (p : Pkg) (pt : Path) (n v : Nat) : Pkg :=
  let k := O.attestSelect + (n - 1)
  if bits v 23 16 ≠ 0 ∨ p.attestChunks (v / 2 ^ 24) ≤ v % 65536 then p.refuse pt k abRange else p.setReg k v

/-- R427: M7 is extended with measure_data, on path 2 only. -/
def Pkg.measureExtendWrite (p : Pkg) (pt : Path) (v : Nat) : Pkg :=
  p.objWrite pt O.measureExtend v fun p =>
    if pt ≠ .core then p.refuse pt O.measureExtend abOwner
    else p.extend 7 3 5 0 ((List.range 8).flatMap fun i => toLe 4 (p.reg (O.measureData + i)))

def execMeasureExtend (pt : Path) (v : Nat) (s : State) : Host.Outcome State Fault Refusal :=
  s.on (pathPlane pt) fun p => p.measureExtendWrite pt v

def execRngHealthFail (s : State) : Host.Outcome State Fault Refusal := s.on .management fun p => (p.setReg O.rngState 1).raise 0x240D noUnit 0

end Sys2Proof.Machine
end

