-- ==== Sys2Proof/Machine/EventsCmd.lean ====
section
/-! DEFINITION. Machine/EventsCmd.lean: the event path, the log and the reports (R461 to R466). -/
namespace Sys2Proof.Machine

def Pkg.setEv (p : Pkg) (x : Events) : Pkg := { p with ev := x }

/-! ## Arrival (R462, R463) -/

/-- The order in which events of one cycle are logged. -/
def evBefore (a b : EvRec) : Bool := decide (a.code < b.code ∨ (a.code = b.code ∧ a.unit < b.unit))

/-- A record put in its place, or made one with the record of the same code and unit: the earliest timestamp, and of those the lowest
argument. -/
def evInsert (r : EvRec) : List EvRec → List EvRec
  | [] => [r]
  | x :: l =>
    if r.code = x.code ∧ r.unit = x.unit then
      (if r.time < x.time ∨ (r.time = x.time ∧ r.arg < x.arg) then r else x) :: l
    else if evBefore r x then r :: x :: l
    else x :: evInsert r l

/-- The records of one cycle. -/
def cycleRecords (l : List EvRec) : List EvRec := l.foldl (fun a r => evInsert r a) []

/-! ## Reports (R466) -/

/-- R466: a frame joins the queue of 32; when it is full, it takes the place of the oldest of a lower severity, or is dropped. -/
def Pkg.queueEmcy (p : Pkg) (r : EvRec) : Pkg :=
  let l := p.ev.emcy
  let f := (r, p.reg O.errorRegister)
  if l.length < 32 then p.setEv { p.ev with emcy := l ++ [f] }
  else
    let p := p.bump O.emcyDropped 1
    match l.findIdx? fun x => decide (x.1.severity < r.severity) with
    | some i => p.setEv { p.ev with emcy := dropAt l i ++ [f] }
    | none => p

/-- The reports that the mask of a stored record's severity selects. -/
def Pkg.report (p : Pkg) (r : EvRec) : Pkg :=
  let m := p.reg (O.escMask + r.severity)
  let p := if bitOf m 0 then p.queueEmcy r else p
  let p := if bitOf m 1 then p.sendMsix (p.reg O.eventMsixVector) else p
  let p := if bitOf m 2 ∧ p.reg O.eventIrqHarts ≠ 0 then p.emit (.irq (BitVec.ofNat 64 (p.reg O.eventIrqHarts))) else p
  if bitOf m 3 then p.askPeriod else p

/-- R463: a record is stored with the next sequence number; the log keeps 4,096. -/
def Pkg.store (p : Pkg) (r : EvRec) : Pkg :=
  let n := wrapAdd 32 (p.reg O.eventLogNewest) 1
  let l := p.ev.log ++ [(n, r)]
  ((p.setEv { p.ev with log := l.drop (l.length - 4096) }).setReg O.eventLogNewest n).report r

/-- R463: the interval of 1 ms of mtime that runs. -/
def Pkg.intervalNow (p : Pkg) : Pkg :=
  let i := p.mtime / 100000
  if p.ev.interval = i then p else p.setEv { p.ev with interval := i, inInterval := 0, suppressed := false }

/-- R463: a record arrives at the management core: it is stored, or suppressed past 256 in an interval. -/
def Pkg.arriveEvent (p : Pkg) (r : EvRec) : Pkg :=
  let p := p.intervalNow
  let p := p.setEv { p.ev with inInterval := p.ev.inInterval + 1 }
  if 256 < p.ev.inInterval ∧ r.severity ≤ 1 then
    let first := !p.ev.suppressed
    let p := (p.bump O.eventLogSuppressed 1).setEv { p.ev with suppressed := true }
    if first then p.store ⟨0x5001, severity 0x5001, noUnit, p.mtime / 128 % 2 ^ 48, r.code⟩ else p
  else p.store r

/-- The last 1,023 records: what the tail block of R367 holds. -/
def lastRecords {α : Type} (l : List α) : List α := l.drop (l.length - 1023)

/-- The first n records on their way arrive in one cycle: at the management core or, while it is stopped, in the tail block of the
always-on domain (R463). -/
def Pkg.eventArrival (p : Pkg) (n : Nat) : Pkg :=
  let l := p.ev.inFlight
  let q := p.setEv { p.ev with inFlight := l.drop n }
  if p.coreStopped then q.setEv { q.ev with tail := lastRecords (q.ev.tail ++ cycleRecords (l.take n)) }
  else (cycleRecords (l.take n)).foldl Pkg.arriveEvent q

def execEventRaise (n : Nat) (s : State) : Host.Outcome State Fault Refusal := s.go fun p => p.eventArrival n

/-! ## The log's read service (R461, R464) -/

/-- The four words of a record. -/
def recordWords (r : EvRec) : List W32 :=
  let v := r.code + fld (r.severity % 8) 16 + fld (r.unit % 256) 24 + fld (r.time % 2 ^ 48) 32 + fld (r.arg % 2 ^ 48) 80
  (List.range 4).map fun i => BitVec.ofNat 32 (v / 2 ^ (32 * i))

/-- The record of a sequence number, where the log holds it. -/
def Pkg.logRecord (p : Pkg) (n : Nat) : List W32 :=
  match p.ev.log.find? fun e => decide (e.1 = n) with
  | some e => if n = 0 then List.replicate 4 0 else recordWords e.2
  | none => List.replicate 4 0

/-- A read of word 0 by path n's service: the whole record is latched. -/
def Pkg.latchRecord (p : Pkg) (n : Nat) : Nat × Pkg :=
  let w := p.logRecord (p.reg (O.eventLogSelect + (n - 1)))
  ((w.getD 0 0).toNat, p.setEv { p.ev with latched := (p.ev.latched.del n).ins n w })

def execEventLogRecordLatch (pt : Path) (s : State) : Host.Outcome State Fault Refusal :=
  s.on (pathPlane pt) fun p => (p.latchRecord pt.num).2.emit (.value (p.latchRecord pt.num).1)

/-! ## Masks and vectors (R466) -/

/-- For severities 4 and 5 bits 0 and 1 stay set. -/
def Pkg.escMaskSet (p : Pkg) (pt : Path) (sev v : Nat) : Pkg :=
  let k := O.escMask + sev
  p.objWrite pt k v fun p => if 4 ≤ sev ∧ v % 4 ≠ 3 then p.refuse pt k abRange else p.setReg k v

def execEscMaskWrite (pt : Path) (sev : Fin 6) (v : Nat) (s : State) : Host.Outcome State Fault Refusal :=
  s.on (pathPlane pt) fun p => p.escMaskSet pt sev.val v

/-- A vector that a queue other than q names. -/
def Pkg.queueNames (p : Pkg) (q v : Nat) : Bool := (List.range 64).any fun i => decide (i ≠ q ∧ p.qReg O.msixVector i = v)

/-- R466: the vector of the event log (none) or of a queue: refused where it has a user. -/
def Pkg.msixVectorSet (p : Pkg) (pt : Path) (q : Option Nat) (v : Nat) : Pkg :=
  let k := match q with
    | none => O.eventMsixVector
    | some i => qKey O.msixVector i
  if 64 ≤ v ∧ v ≠ 0xFF then p.refuse pt k abRange
  else
    match q with
    | none => if v ≠ 0xFF ∧ p.queueNames 64 v then (p.refuse pt k abState).raise 0x5002 noUnit 0 else p.setReg k v
    | some i =>
      if v ≠ 0xFF ∧ (p.reg O.eventMsixVector = v ∨ p.queueNames i v) then (p.refuse pt k abState).raise 0x5002 i 0
      else p.queueObject pt i k v

def execMsixVectorWrite (pt : Path) (q : Option QueueNo) (v : Nat) (s : State) : Host.Outcome State Fault Refusal :=
  s.on (pathPlane pt) fun p => p.msixVectorSet pt (q.map (·.val)) v

end Sys2Proof.Machine
end

