-- ==== Sys2Proof/Machine/Dict.lean ====
section
/-! DEFINITION. Machine/Dict.lean: reads and writes of the dictionary on its three paths (R382 to R385, R390, R402), CAN FD and the
CANopen node (R387, R388), USDO transfers, EMCY frames (R466) and error_register (R407). -/
namespace Sys2Proof.Machine

/-! ## Reads (R382, R385, R390, R402) -/

/-- The 64-bit word of a scale-table entry's first two fields; a poisoned one reads as a free value, since no object returns poison. -/
def Pkg.scaleEntryWord (p : Pkg) : Nat × Pkg :=
  match readWord (p.word (p.reg O.scaleTableBase + 64 * p.reg O.scaleQueryId)) with
  | some d => (d.toNat % 2 ^ 64, p)
  | none =>
    let f := p.fresh
    (f.1.toNat, f.2)

/-- toari_gen for the probe fields as they stand (R103). -/
def Pkg.probe (p : Pkg) : Nat :=
  (toariGen (p.reg O.domainSeed) (p.reg O.probeStep) (p.reg O.probeTensor) (p.reg O.probeElem) (p.reg O.probeDraw)
    (p.reg O.probeSite)).toNat

/-- The method of the queried region: 1 parity, 2 copy (R360). -/
def Pkg.queriedMethod (p : Pkg) : Nat :=
  match p.securing with
  | none => 0
  | some x => if p.reg O.regionQuery < x.regions.length then (if p.secure.parity.at false (p.reg O.regionQuery) then 1 else 2) else 0

/-- Bit 4 of error_register: error passive, or bus-off since the last read (R407). -/
def Pkg.fixCanBit (p : Pkg) : Pkg := p.setErrBit 4 (p.can.passive || p.can.offSeen)

/-- A read of error_register ends the bus-off indication (R407). -/
def Pkg.readErrorRegister (p : Pkg) : Nat × Pkg :=
  (p.reg O.errorRegister, ({ p with can := { p.can with offSeen := false } }).fixCanBit)

/-- Element i of an array of n from key k. -/
def element (key k n : Nat) : Option Nat := if k ≤ key ∧ key < k + n then some (key - k) else none

/-- The objects whose value is computed, or whose read has an effect. -/
def Pkg.derived (p : Pkg) (pt : Path) (key : Nat) : Option (Nat × Pkg) :=
  if key = O.errorRegister then some p.readErrorRegister
  else if key = O.scaleQueryWord0 then
    some (if p.reg O.scaleTableEntries = 0 then (0, p) else (p.scaleEntryWord.1 % 2 ^ 32, p.scaleEntryWord.2))
  else if key = O.scaleQueryAmax then
    some (if p.reg O.scaleTableEntries = 0 then (0, p) else (p.scaleEntryWord.1 / 2 ^ 32, p.scaleEntryWord.2))
  else if key = O.probeResult then some (p.probe, p)
  else if key = O.placementPosition then
    let v := p.reg O.placementQuery
    some ((p.place.getD (bits v 31 24) []).getD (bits v 23 12) 0, p)
  else if key = O.decodeResult then some (decodeWord (p.reg O.decodeQuery), p)
  else if key = O.regionMethod then some (p.queriedMethod, p)
  else if key = O.sessionIssuedToken then some (p.tokenRead pt)
  else if O.wearValue ≤ key ∧ key ≤ O.wearCheckpoints then some (p.wearReport key, p)
  else
    match element key O.tileLogical 208, element key O.coreHart 68, element key O.linkNeighbour 12 with
    | some q, _, _ => some (p.logicalTile q, p)
    | _, some c, _ => some (p.hartOf c, p)
    | _, _, some i => some (if p.reg (O.portState + i) = 2 then p.reg key else 0xFFFFFFFF, p)
    | _, _, _ =>
      let n := key / 256 - O.attestChunk / 256 + 1
      let w := key % 256 - 1
      let m := key / 256 - O.eventLogRecord / 256 + 1
      if O.attestChunk ≤ key ∧ n ≤ 3 ∧ w < 16 then some (fieldAt (p.attestChunk n) (4 * w) 4, p)
      else if O.eventLogRecord ≤ key ∧ m ≤ 3 ∧ w < 4 then
        if w = 0 then some (p.latchRecord m)
        else some (((p.ev.latched.at [] m).getD w 0).toNat, p)
      else none

/-- The value of an object's element on a path, and the package after the read. -/
def Pkg.readObject (p : Pkg) (pt : Path) (o : Obj) (key : Nat) : Nat × Pkg :=
  let view := p.reg (O.dictView + (pt.num - 1))
  if o.acc = .wo ∨ o.size = 0 then (0, p)
  else if latchedKey (key, 0) ∧ bitOf view 1 then (p.dict.snap.at 0 key, p)
  else if o.acc = .rws ∧ bitOf view 0 then (p.shadowReg key, p)
  else (p.derived pt key).getD (p.reg key, p)

/-- The key of the low word of the 64-bit object whose high word lies at a key. -/
def highOf (key : Nat) : Option Obj :=
  match objAt (key - 1) with
  | some o => if o.size = 8 then some o else none
  | none => none

/-- A string's word: of the object that begins up to three words before. -/
def stringWord (key : Nat) : Option Nat :=
  ([1, 2, 3].find? fun d => match objAt (key - d) with
    | some o => decide (o.size = 16)
    | none => false)

/-- R384, R385: one word of the mirror, on path 1 or 2. -/
def Pkg.readWord32 (p : Pkg) (pt : Path) (key : Nat) : Nat × Pkg :=
  if key = O.sessionIssuedToken then p.tokenLow pt
  else if key = O.sessionIssuedToken + 1 then p.tokenHigh pt
  else match objAt key with
  | some o =>
    let r := p.readObject pt o key
    (r.1 % 2 ^ 32, r.2)
  | none =>
    match highOf key with
    | some o =>
      let r := p.readObject pt o (key - 1)
      (r.1 / 2 ^ 32, r.2)
    | none =>
      match stringWord key with
      | some d => (p.reg (key - d) / 2 ^ (32 * d) % 2 ^ 32, p)
      | none => (0, p)

/-- R384: a read of 4 or 8 bytes, naturally aligned; any other reads 0. -/
def Pkg.mirrorRead (p : Pkg) (pt : Path) (off size : Nat) : Nat × Pkg :=
  if (size ≠ 4 ∧ size ≠ 8) ∨ off % size ≠ 0 then (0, p)
  else
    let key := off / 0x400 * 256 + off % 0x400 / 4
    let a := p.readWord32 pt key
    if size = 4 then a
    else
      let b := a.2.readWord32 pt (key + 1)
      (a.1 + b.1 * 2 ^ 32, b.2)

/-! ## Objects with a rule of their own -/

/-- R398: writable only while the timer is unclaimed. -/
def Pkg.intervalWrite (p : Pkg) (pt : Path) (v : Nat) : Pkg :=
  p.objWrite pt O.periodIntervalMs v fun p =>
    if p.reg O.periodTimerOwner ≠ 0 then p.refuse pt O.periodIntervalMs abState else p.setReg O.periodIntervalMs v

/-- R282: the mask is written by the controller's owner, on these paths the diagnostic request; recovery writes its own (R279). -/
def Pkg.reclaimMaskWrite (p : Pkg) (pt : Path) (k v : Nat) : Pkg :=
  if k = O.reclaimMask + 2 ∧ 16 ≤ v then p.refuse pt k abRange
  else if p.reg O.reclaimOwner ≠ 3 then p.refuse pt k abOwner
  else p.setReg k v

/-- R427: measure_data is written on path 2 only. -/
def Pkg.measureDataWrite (p : Pkg) (pt : Path) (k v : Nat) : Pkg :=
  if pt ≠ .core then p.refuse pt k abOwner else p.setReg k v

/-- R330: session_attach. -/
def Pkg.sessionWrite (p : Pkg) (pt : Path) (v : Nat) : Pkg :=
  p.objWrite pt O.sessionAttach v fun p =>
    if v = 1 then
      let f := p.fresh
      f.2.sessionAttach pt f.1
    else if v = 2 then p.sessionResume pt true
    else if v = 3 then p.sessionResume pt false
    else p.sessionRelease pt

/-- R433: recovery_op. -/
def Pkg.recoveryOpWrite (p : Pkg) (pt : Path) (v : Nat) : Pkg :=
  if v = 1 then p.xferBegin .canFd (p.reg O.recoveryKind) (p.reg O.recoveryMode) (p.reg O.recoveryLength)
  else if v = 3 then p.xferEnd .canFd
  else if v = 4 then p.xferAbort .canFd
  else p.refuse pt O.recoveryOp abRange

/-- A cold reset asked for by a dictionary write: whether the memories confirm self-refresh is not known here, so it is free. -/
def Pkg.packageResetAny (p : Pkg) (pt : Path) (v : Nat) : Pkg :=
  let f := p.fresh
  f.2.packageResetWrite pt v (f.1.getLsbD 0)

/-- The single objects. -/
def Pkg.single (p : Pkg) (pt : Path) (k v : Nat) : Option Pkg :=
  if k = O.ledgerReadIndex then some (p.readIndexWrite pt ledgerRing v)
  else if k = O.dispatchReadIndex then some (p.readIndexWrite pt dispatchRing v)
  else if k = O.scaleQueryId then some (p.scaleQueryWrite pt v)
  else if k = O.placementQuery then some (p.placementQueryWrite pt v)
  else if k = O.loaderOwner then some (p.via (execLoaderOwnerWrite (.path pt) v))
  else if k = O.decodeQuery then some (p.via (execDecodeQuery pt v))
  else if k = O.reclaimOwner then some (p.via (execReclaimOwnerWrite (.path pt) v))
  else if k = O.reclaimStart then some (p.via (execReclaimStart pt v))
  else if k = O.regionQuery then some (p.via (execRegionQuery pt v))
  else if k = O.saveRequest then some (p.saveRequestWrite pt v)
  else if k = O.rollbackRequest then some (p.rollbackWrite pt v)
  else if k = O.sessionAttach then some (p.sessionWrite pt v)
  else if k = O.psOwner then some (p.psOwnerWrite pt v)
  else if k = O.psRequest then some (p.psRequestWrite pt v)
  else if k = O.padRelease then some (p.padReleaseWrite pt v)
  else if k = O.aclkDivisor then some (p.aclkDivisorWrite pt v)
  else if k = O.cfgArmGen then some (p.cfgArmWrite pt v)
  else if k = O.cfgSwapGen then some (p.cfgSwapWrite pt v)
  else if k = O.cfgSwapLocal then some (p.cfgLocalWrite pt v)
  else if k = O.periodRequest then some (p.periodRequestWrite pt v)
  else if k = O.periodTimerOwner then some (p.timerOwnerWrite pt v)
  else if k = O.periodIntervalMs then some (p.intervalWrite pt v)
  else if k = O.prdOutOwner then some (p.prdOutOwnerWrite pt v)
  else if k = O.wearQuery then some (p.wearQueryWrite pt v)
  else if k = O.recoveryRequest then some (p.recoveryRequestWrite pt v)
  else if k = O.floorRaise then some (p.floorRaiseWrite pt v)
  else if k = O.osBoot then some (p.osBootWrite pt v)
  else if k = O.measureExtend then some (p.measureExtendWrite pt v)
  else if k = O.recoveryOp then some (p.recoveryOpWrite pt v)
  else if k = O.packageReset then some (p.packageResetAny pt v)
  else if k = O.eventMsixVector then some (p.msixVectorSet pt none v)
  else none

/-- The objects of the queues (R318, R332). -/
def Pkg.queueObjects (p : Pkg) (pt : Path) (k v : Nat) : Option Pkg :=
  if k / 256 < 0x4640 ∨ 0x467F < k / 256 then none
  else
    let q := k / 256 - 0x4640
    let base := k - 256 * q
    if base = O.queueOwner then some (p.queueOwnerWrite pt q v)
    else if base = O.queueConsumer then some (p.queueConsumerWrite pt q v)
    else if base = O.queueEnable then
      some (if v = 1 then p.queueEnable pt q else if v = 0 then p.queueDisable pt q else p.refuse pt k abRange)
    else if base = O.cqHead then some (p.cqHeadWrite pt q v)
    else if base = O.msixVector then some (p.msixVectorSet pt (some q) v)
    else some (p.queueObject pt q k v)

/-- The arrays of objects. -/
def Pkg.arrayWrite (p : Pkg) (pt : Path) (k v : Nat) : Option Pkg :=
  match element k O.bistOwner 4, element k O.bistRequest 4, element k O.memTestOwner 4, element k O.reclaimMask 3 with
  | some d, _, _, _ => some (p.via (execBistOwnerWrite (.path pt) (Fin.ofNat 4 d) v))
  | _, some d, _, _ => some (p.via (execBistRequest pt (Fin.ofNat 4 d) v))
  | _, _, some d, _ => some (p.via (execMemTestOwnerWrite (.path pt) (Fin.ofNat 4 d) v))
  | _, _, _, some _ => some (p.reclaimMaskWrite pt k v)
  | _, _, _, _ =>
    match element k O.linkTestOwner 2, element k O.linkTestRequest 2, element k O.measureData 8, element k O.escMask 6 with
    | some d, _, _, _ => some (p.linkTestOwnerWrite (.path pt) d v)
    | _, some d, _, _ => some (p.linkTestRequest pt d v)
    | _, _, some _, _ => some (p.measureDataWrite pt k v)
    | _, _, _, some s => some (p.escMaskSet pt s v)
    | _, _, _, _ =>
      match element k O.quoteRequest 3, element k O.attestSelect 3 with
      | some n, _ => some (p.quoteRequestWrite pt (n + 1) v)
      | _, some n => some (p.attestSelectWrite pt (n + 1) v)
      | _, _ =>
        let n := k / 256 - O.quoteNonce / 256
        if O.quoteNonce ≤ k ∧ n < 3 ∧ k % 256 - 1 < 8 then some (p.nonceWrite pt (n + 1) (k % 256 - 1) v) else none

/-- A write of v to an element of object o: its own rule, or the rule of its access code (R9, R12, R390, R391). -/
def Pkg.writeObject (p : Pkg) (pt : Path) (o : Obj) (k v : Nat) : Pkg :=
  if o.acc = .ro then p.refuse pt k abRo
  else if !valueOk o v then p.refuse pt k abRange
  else
    match p.single pt k v, p.queueObjects pt k v, p.arrayWrite pt k v with
    | some q, _, _ => q
    | _, some q, _ => q
    | _, _, some q => q
    | none, none, none =>
      if o.acc = .rws then (if p.reg O.cfgArmState ≠ 0 then p.refuse pt k abState else p.setShadow k v) else p.setReg k v

/-! ## Writes by path (R383 to R385) -/

def Pkg.setStaged (p : Pkg) (m : SMap (Nat × Nat)) : Pkg := { p with dict := { p.dict with staged := m } }

/-- The abort of a write to an element that is not there. -/
def absentCode (idx : Nat) : Nat := if idxPresent idx then abSub else abAbsent

/-- R384: one word written on path 1 or 2. The low word of a 64-bit object is staged, its high word applies both. -/
def Pkg.writeWord32 (p : Pkg) (pt : Path) (key v : Nat) : Pkg :=
  match objAt key with
  | some o =>
    if o.acc = .ro then p.refuse pt key abRo
    else if o.size = 8 then p.setStaged ((p.dict.staged.del pt.num).ins pt.num (key, v))
    else if o.size = 0 then p.refuse pt key abLen
    else p.writeObject pt o key v
  | none =>
    match highOf key with
    | some o =>
      if o.acc = .ro then p.refuse pt (key - 1) abRo
      else
        let cur := (if o.acc = .rws then p.shadowReg (key - 1) else p.reg (key - 1)) % 2 ^ 32
        let low := match p.dict.staged.find pt.num with
          | some (k, l) => if k = key - 1 then l else cur
          | none => cur
        (p.setStaged (p.dict.staged.del pt.num)).writeObject pt o (key - 1) (low + v * 2 ^ 32)
    | none =>
      match stringWord key with
      | some d => p.refuse pt (key - d) abRo
      | none => p.refuse pt key (absentCode (key / 256))

/-- R384, R385: a write of 4 or 8 bytes at its natural alignment. -/
def Pkg.mirrorWrite (p : Pkg) (pt : Path) (key size v : Nat) : Pkg :=
  if (size ≠ 4 ∧ size ≠ 8) ∨ (size = 8 ∧ key % 2 ≠ 0) then p.refuse pt key abLen
  else if size = 4 then p.writeWord32 pt key (v % 2 ^ 32)
  else
    match objAt key with
    | some o => if o.size = 8 then p.writeObject pt o key (v % 2 ^ 64)
      else (p.writeWord32 pt key (v % 2 ^ 32)).writeWord32 pt (key + 1) (v / 2 ^ 32 % 2 ^ 32)
    | none => (p.writeWord32 pt key (v % 2 ^ 32)).writeWord32 pt (key + 1) (v / 2 ^ 32 % 2 ^ 32)

/-- R385, R388: a write over CAN FD: the whole object in its type's size. recovery_data takes any length as one DATA (R433). -/
def Pkg.usdoWrite (p : Pkg) (key : Nat) (bytes : List Byte) : Pkg :=
  match objAt key with
  | none => p.refuse .canFd key (absentCode (key / 256))
  | some o =>
    if o.acc = .ro then p.refuse .canFd key abRo
    else if o.size = 0 then
      if bytes.isEmpty ∨ 65536 < bytes.length then p.refuse .canFd key abLen else p.xferData .canFd (p.reg O.recoveryOffset) bytes
    else if bytes.length ≠ o.size then p.refuse .canFd key abLen
    else p.writeObject .canFd o key (leNat bytes)

/-- R424: in recovery only the recovery objects are served. -/
def Pkg.servesKey (p : Pkg) (key : Nat) : Bool := decide (p.reg O.bootState ≠ 4 ∨ key / 256 = 0x2420 ∨ key / 256 = 0x2421)

/-- A write to the dictionary on a path. -/
def Pkg.dictWrite (p : Pkg) (pt : Path) (key size v : Nat) : Pkg :=
  if !p.servesKey key then p.refuse pt key abState
  else
    match pt with
    | .canFd => p.usdoWrite key (toLe size v)
    | _ => p.mirrorWrite pt key size v

/-! ## The control window (R311) -/

/-- The key that the mirror gives an offset (R13). -/
def mirrorKey (off : Nat) : Nat := off / 0x400 * 256 + off % 0x400 / 4

/-- One word of the control registers below the mirror; every other offset reads 0. -/
def Pkg.controlWord (p : Pkg) (off : Nat) : Nat :=
  if off < 0x200 then (if off % 8 = 0 then (p.queue (off / 8)).tail else 0)
  else if 0x1000 ≤ off ∧ off < 0x2000 ∧ off % 64 < 28 then leNat (((p.queue ((off - 0x1000) / 64)).post.drop (off % 64)).take 4)
  else if 0x10000 ≤ off ∧ off < 0x10400 then (p.host.msixTable.at 0 ((off - 0x10000) / 4)).toNat
  else if off = 0x18000 then p.host.msixPending.toNat % 2 ^ 32
  else if off = 0x18004 then p.host.msixPending.toNat / 2 ^ 32
  else if 0x100000 ≤ off ∧ off < 0x200000 then p.mailboxWord (off - 0x100000)
  else 0

/-- A read of 4 or 8 aligned bytes of the control window, by a core or over port H BAR0; any other access reads 0. -/
def Pkg.controlRead (p : Pkg) (pt : Path) (off n : Nat) : Nat × Pkg :=
  if 0x400000 ≤ off then p.mirrorRead pt off n
  else if (n ≠ 4 ∧ n ≠ 8) ∨ off % n ≠ 0 then (0, p)
  else (p.controlWord off + (if n = 8 then p.controlWord (off + 4) * 2 ^ 32 else 0), p)

/-- R311: a write to a control register: a doorbell, a post area, the MSI-X table, the mailbox. None where the offset takes none. -/
def Pkg.registerWrite (p : Pkg) (pt : Path) (off : Nat) (b : List Byte) : Option Pkg :=
  let n := b.length
  if off < 0x200 ∧ off % 8 = 0 ∧ n = 4 then some (p.sqDoorbell pt (off / 8) (leNat b))
  else if 0x1000 ≤ off ∧ off < 0x2000 then
    let q := (off - 0x1000) / 64
    p.postWrite q (off % 64) b fun p => p.completionPost q ((List.range 28).map fun i => (p.queue q).post.getD i 0)
  else if 0x10000 ≤ off ∧ off < 0x10400 ∧ off % 4 = 0 ∧ n = 4 then
    some (p.setHost { p.host with msixTable := p.host.msixTable.put 0 ((off - 0x10000) / 4) (BitVec.ofNat 32 (leNat b)) })
  else if 0x100000 ≤ off ∧ off < 0x200000 then p.mailboxWrite (off - 0x100000) b
  else none

/-- A write to the control window: a control register, or an object. Every other write is refused. -/
def Pkg.controlWrite (p : Pkg) (pt : Path) (off : Nat) (b : List Byte) : Pkg :=
  let n := b.length
  if 0x400000 ≤ off then
    if off % n = 0 then p.dictWrite pt (mirrorKey off) n (leNat b) else p.refuse pt (mirrorKey off) abLen
  else
    match p.registerWrite pt off b with
    | some q => q
    | none => p.refuse pt (mirrorKey off) (if n ≠ 4 ∧ n ≠ 8 ∨ off % n ≠ 0 then abLen else abAbsent)

/-- R311: a write TLP with EP = 1 to port H BAR0, or a write to port D BAR0: dropped whole, with the offset in event 0x4609. -/
def Pkg.dropWrite (p : Pkg) (off : Nat) : Pkg := p.raise 0x4609 noUnit off

/-- R311, R384, R385: a write as its path and form bring it; index and sub-index below 0x1000 of a window are its control registers. -/
def Pkg.dictWriteAs (p : Pkg) (pt : Path) (idx sub size value : Nat) (form : WriteForm) : Pkg :=
  let key := idx % 2 ^ 16 * 256 + sub % 256
  match form with
  | .statusPage => p.dropWrite (barOffset key)
  | .poisoned => if pt = .hostBar then (p.dropWrite (barOffset key)).logPoisoned .h else p.refuse pt key abRange
  | .plain =>
    if pt ≠ .canFd ∧ idx % 2 ^ 16 < 0x1000 then p.controlWrite pt (barOffset key) (toLe size value) else p.dictWrite pt key size value

def execDictionaryWrite (pt : Path) (idx sub size : Nat) (x : DictValue) (s : State) : Host.Outcome State Fault Refusal :=
  s.on (match x.form with | .statusPage => .control | _ => pathPlane pt) fun p => p.dictWriteAs pt idx sub size x.value x.form

def execErrorRegisterRead (pt : Path) (s : State) : Host.Outcome State Fault Refusal :=
  s.on (pathPlane pt) fun p => p.readErrorRegister.2.emit (.value p.readErrorRegister.1)

/-! ## The CAN FD controller and the node (R387, R388) -/

def Pkg.setCan (p : Pkg) (x : Can) : Pkg := { p with can := x }

/-- The controller takes and sends frames: not bus-off, and with its reference clock (R450). -/
def Pkg.onBus (p : Pkg) : Bool := !p.can.busOff && !p.supply.refclkAbsent

def execCanBusOff (s : State) : Host.Outcome State Fault Refusal :=
  s.on .management fun p =>
    if p.can.busOff then p
    else (((p.setCan { p.can with busOff := true, offSeen := true }).bump O.canBusOffs 1).raise 0x1001 noUnit 0).fixCanBit

def execCanBusOffRecovery (s : State) : Host.Outcome State Fault Refusal :=
  s.on .management fun p => if p.can.busOff then (p.setCan { p.can with busOff := false, passive := false }).fixCanBit else p

def execCanErrorPassive (s : State) : Host.Outcome State Fault Refusal :=
  s.on .management fun p => if p.can.passive then p else ((p.setCan { p.can with passive := true }).raise 0x1002 noUnit 0).fixCanBit

def execCanErrorActive (s : State) : Host.Outcome State Fault Refusal :=
  s.on .management fun p => (p.setCan { p.can with passive := false }).fixCanBit

/-- An NMT command names this node, or every node. -/
def Pkg.nmtNames (p : Pkg) (node : Nat) : Bool := p.onBus && decide (node = 0 ∨ node = p.reg O.canNodeId)

def Pkg.setNmt (p : Pkg) (n : Nmt) : Pkg := p.setCan { p.can with nmt := n }

/-- R372, R388: start makes the node operational, and is a wake source; in PS4 only the wake filter of the always-on domain takes it. -/
def execNmtStart (node : Nat) (s : State) : Host.Outcome State Fault Refusal :=
  s.on .always fun p =>
    if !p.nmtNames node then p else if p.runs .management then (p.setNmt .operational).wakeSource 1 else p.wakeSource 1

def execNmtStop (node : Nat) (s : State) : Host.Outcome State Fault Refusal :=
  s.on .management fun p => if p.nmtNames node then p.setNmt .stopped else p

def execNmtPreOperational (node : Nat) (s : State) : Host.Outcome State Fault Refusal :=
  s.on .management fun p => if p.nmtNames node then p.setNmt .preOp else p

/-- R388, R451: the communication state only: the node is pre-operational, and no transfer is open. -/
def Pkg.resetCommunication (p : Pkg) : Pkg := p.setCan { p.can with nmt := .preOp, segment := none }

def execNmtResetNode (node : Nat) (s : State) : Host.Outcome State Fault Refusal :=
  s.on .management fun p => if p.nmtNames node then p.resetCommunication else p

def execNmtResetCommunication (node : Nat) (s : State) : Host.Outcome State Fault Refusal :=
  s.on .management fun p => if p.nmtNames node then p.resetCommunication else p

/-- The state byte of a heartbeat (CiA 301; log 58). -/
def nmtCode : Nmt → Nat
  | .stopped => 0x04
  | .operational => 0x05
  | .preOp => 0x7F

/-- R388, R407: 0 disables the heartbeat. -/
def execHeartbeat (s : State) : Host.Outcome State Fault Refusal :=
  s.on .management fun p => if p.onBus ∧ p.reg O.producerHeartbeatMs ≠ 0 then p.emit (.heartbeat (nmtCode p.can.nmt)) else p

/-- R388, R466: the oldest frame goes out when the bus allows. -/
def execEmcyTransmit (s : State) : Host.Outcome State Fault Refusal :=
  s.on .management fun p =>
    match p.ev.emcy with
    | [] => p
    | f :: r =>
      if !p.onBus ∨ p.can.passive ∨ p.can.nmt = .stopped then p
      else (p.setEv { p.ev with emcy := r }).emit (.emcy f.1 f.2)

/-! ## USDO (R385, R388) -/

/-- An abort left the package since `n` outputs. -/
def aborted (n : Nat) (p : Pkg) : Bool := (p.out.drop n).any fun
  | .usdoAbort _ => true
  | _ => false

/-- A write's answer: an acknowledgement, unless it aborted. -/
def Pkg.answerWrite (p : Pkg) (f : Pkg → Pkg) : Pkg :=
  let q := f p
  if aborted p.out.length q then q else q.emit .usdoAck

/-- A write to a key that is served. -/
def Pkg.usdoSet (p : Pkg) (key : Nat) (bytes : List Byte) : Pkg :=
  if p.servesKey key then p.usdoWrite key bytes else p.refuse .canFd key abState

def Pkg.usdoRead (p : Pkg) (key : Nat) : Pkg :=
  if !p.servesKey key then p.emit (.usdoAbort abState)
  else
    match objAt key with
    | none => p.emit (.usdoAbort (absentCode (key / 256)))
    | some o =>
      let r := p.readObject .canFd o key
      r.2.emit (.usdoValue (toLe o.size r.1))

/-- The next bytes of the segmented transfer; the last ones write the object. -/
def Pkg.segment (p : Pkg) (bytes : List Byte) : Pkg :=
  match p.can.segment with
  | none => p
  | some g =>
    let got := g.got ++ bytes
    let key := g.idx * 256 + g.sub
    if g.len < got.length then (p.setCan { p.can with segment := none }).refuse .canFd key abLen
    else if got.length < g.len then (p.setCan { p.can with segment := some { g with got := got } }).emit .usdoAck
    else (p.setCan { p.can with segment := none }).answerWrite fun p => p.usdoSet key got

def Pkg.usdo (p : Pkg) (f : UsdoFrame) : Pkg :=
  let keyOf (idx sub : Nat) : Nat := idx % 2 ^ 16 * 256 + sub % 256
  if !p.onBus ∨ p.can.nmt = .stopped then p
  else
    match f with
    | .read idx sub => p.usdoRead (keyOf idx sub)
    | .write idx sub bytes => p.answerWrite fun p => p.usdoSet (keyOf idx sub) bytes
    | .segStart idx sub len => (p.setCan { p.can with segment := some ⟨idx % 2 ^ 16, sub % 256, len, []⟩ }).emit .usdoAck
    | .segData bytes => p.segment bytes

def execUsdoRequest (f : UsdoFrame) (s : State) : Host.Outcome State Fault Refusal := s.on .management fun p => p.usdo f

/-- R385: a segmented transfer idle for 1 s aborts. -/
def execUsdoSegmentTimeout (s : State) : Host.Outcome State Fault Refusal :=
  s.on .management fun p =>
    match p.can.segment with
    | none => p
    | some g => (p.setCan { p.can with segment := none }).refuse .canFd (g.idx * 256 + g.sub) abSegment

end Sys2Proof.Machine
end

