-- ==== Sys2Proof/Machine/CoreAccess.lean ====
section
/-! DEFINITION. Machine/CoreAccess.lean: loads and stores of the server cores (R260, R261, R272), in memory, in tile SRAM and
in the control window (R234). -/
namespace Sys2Proof.Machine

/-- The range that an access of n bytes lies in; one that leaves its range is an access to a reserved address. -/
def accessIn (a n : Nat) : Region := if regionOf a = regionOf (a + n - 1) then regionOf a else .reserved

/-- Whether a store of a core that waits meets the bytes of an access. -/
def Pkg.overlaps (p : Pkg) (c a n : Nat) : Bool :=
  match p.coh.stores.find c with
  | some s => decide (a < s.addr + s.bytes.length ∧ s.addr < a + n)
  | none => false

/-- Whether a line of an access waits in the core's eviction buffer. -/
def Pkg.evicting (p : Pkg) (c a n : Nat) : Bool :=
  (List.range (ceilDiv (a % 64 + n) 64)).any fun i => (p.evb c (a / 64 + i)).isSome

/-! ## Loads and stores -/

/-- Whether an atomic access, or a load-reserved, of n bytes has a form that memory supports (R260): 4 or 8 bytes within 16. -/
def atomicOk (a n : Nat) : Bool := decide ((n = 4 ∨ n = 8) ∧ a % 16 + n ≤ 16)

/-- R260, R261, R272: a load or fetch of n bytes; a load-reserved works on memory only. One load and one store of a core are
outstanding at most (log 22). -/
def Pkg.coreLoad (p : Pkg) (c addr len : Nat) (lr : Bool) : Pkg :=
  let mem : Pkg := if lr && !atomicOk addr len then p.trapCore c .accessFault else p.runLoad c addr len lr
  if !p.coreOn c ∨ len = 0 ∨ p.coh.fencing.at false c ∨ (p.coh.loads.find c).isSome ∨ p.overlaps c addr len then p
  else
    match accessIn addr len with
    | .hbm => if p.evicting c addr len then p else mem
    | .lpddr => if p.evicting c addr len then p else mem
    | .reserved => p.trapCore c .accessFault
    | r =>
    if lr then p.trapCore c .accessFault
    else
    match r with
    | .tileSram =>
      let r := p.anyReads (addr / 16 * 16) (ceilDiv (addr % 16 + len) 16)
      if r.1.any (·.isNone) then r.2.trapCore c .hardwareError else r.2.emit (.readData r.1)
    | .tileReserved => p.trapCore c .hardwareError
    | _ => (p.controlRead .core (addr - controlBase) len).2.emit (.value (p.controlRead .core (addr - controlBase) len).1)

def execCoreLoad (c : CoreNo) (addr : Nat) (x : CoreRead) (s : State) : Host.Outcome State Fault Refusal :=
  s.on .control fun p => p.coreLoad c.val addr x.len x.reserve

/-- R260: an I/O range supports an atomic swap and an atomic add of 8 bytes, and no other atomic access. -/
def ioAtomic (kind : CoreStoreKind) (a n : Nat) : Bool := decide ((kind = .swap ∨ kind = .add) ∧ n = 8 ∧ a % 8 = 0)

/-- R260, R261: an atomic access of 8 bytes to an I/O range. -/
def Pkg.ioAmo (p : Pkg) (c addr : Nat) (b : List Byte) (kind : CoreStoreKind) : Pkg :=
  let new (old : Nat) : List Byte := toLe 8 (amoValue kind 8 old (leNat b))
  match regionOf addr with
  | .control =>
    let r := p.controlRead .core (addr - controlBase) 8
    (r.2.controlWrite .core (addr - controlBase) (new r.1)).emit (.value r.1)
  | _ =>
    match p.anyBytes addr 8 with
    | (none, p) => p.trapCore c .hardwareError
    | (some o, p) => (p.anyWriteBytes addr (new (leNat o))).emit (.value (leNat o))

/-- R260, R261, R272: a store or an atomic access. Main memory needs ownership; an I/O range takes it at once. -/
def Pkg.coreStore (p : Pkg) (c addr : Nat) (b : List Byte) (kind : CoreStoreKind) : Pkg :=
  let n := b.length
  let mem : Pkg := if decide (kind ≠ .plain) && !atomicOk addr n then p.trapCore c .accessFault
    else if kind = .sc ∧ p.coh.reserved.find c ≠ some (addr / 64) then p.emit (.value 1)
    else Pkg.runStore (n + 1) c addr b kind p
  if !p.coreOn c ∨ b.isEmpty ∨ p.coh.fencing.at false c ∨ (p.coh.stores.find c).isSome then p
  else
    match accessIn addr n with
    | .hbm => if p.evicting c addr n then p else mem
    | .lpddr => if p.evicting c addr n then p else mem
    | .reserved => p.trapCore c .accessFault
    | r =>
      if kind ≠ .plain then (if ioAtomic kind addr n then p.ioAmo c addr b kind else p.trapCore c .accessFault)
      else if r = .control then p.controlWrite .core (addr - controlBase) b
      else p.anyWriteBytes addr b

def execCoreStore (c : CoreNo) (addr : Nat) (x : CoreWrite) (s : State) : Host.Outcome State Fault Refusal :=
  s.on .control fun p => p.coreStore c.val addr x.bytes x.kind

end Sys2Proof.Machine
end

