-- ==== Sys2Proof/Machine/Beat.lean ====
section
/-! DEFINITION. Machine/Beat.lean: the beat boundary (R140), and what the spec ties to it: lateness (R146), counts of waiting beats
(R204, R221, R291), a local Period (R400), the save stream (R346), and what follows its end (R344, R357, R358). -/
namespace Sys2Proof.Machine

/-- The counters of beats in which a unit waited. -/
def Pkg.countBeats (p : Pkg) : Pkg := p.countStalls.countHolds.countCredit

/-- A save hold in this beat: one record streamed, a planned remap, the end of an uncovered recovery, the end of the hold. -/
def Pkg.beatSave (p : Pkg) : Pkg := p.streamSave.plannedRemap.endUncovered.closeSave

/-- R20, R22, R140: beats are counted on ACLK, so only in PS0 and with the root PLL; a failed package counts on. -/
def execBeatBoundary (s : State) : Host.Outcome State Fault Refusal :=
  s.on .link fun p => p.countBeats.tickBeat.growLate.localPeriod.beatSave.askTime

end Sys2Proof.Machine
end

