-- ==== Sys2Proof/Machine/Dispatch.lean ====
section
/-! DEFINITION. Machine/Dispatch.lean: one arm per command, each a direct call of its meaning. -/
namespace Sys2Proof.Machine

/-- The command's effect on everything but the queue of waiting commands. -/
def exec (i : Instr) (s : State) : Host.Outcome State Fault Refusal :=
  match i with
  | .mnop a => Sys2Proof.Machine.execMnop a s
  | .mlw a => Sys2Proof.Machine.execMlw a s
  | .mws a => Sys2Proof.Machine.execMws a s
  | .mwt a => Sys2Proof.Machine.execMwt a s
  | .mdr a => Sys2Proof.Machine.execMdr a s
  | .mdv a => Sys2Proof.Machine.execMdv a s
  | .mclr a => Sys2Proof.Machine.execMclr a s
  | .mflg a => Sys2Proof.Machine.execMflg a s
  | .streamResultWrite t => Sys2Proof.Machine.execStreamResultWrite t s
  | .matrixInterlockRelease t cyc => Sys2Proof.Machine.execMatrixInterlockRelease t cyc s
  | .weightRegisterScrub t => Sys2Proof.Machine.execWeightRegisterScrub t s
  | .bistOwnerWrite w d v => Sys2Proof.Machine.execBistOwnerWrite w d v s
  | .bistRequest p d v => Sys2Proof.Machine.execBistRequest p d v s
  | .bistComplete d failed => Sys2Proof.Machine.execBistComplete d failed s
  | .tileSramWindowAccess a => Sys2Proof.Machine.execTileSramWindowAccess a s
  | .vnop t => Sys2Proof.Machine.execVnop t s
  | .vadd a => Sys2Proof.Machine.execVadd a s
  | .vsub a => Sys2Proof.Machine.execVsub a s
  | .vmul a => Sys2Proof.Machine.execVmul a s
  | .vfma a => Sys2Proof.Machine.execVfma a s
  | .vmax a => Sys2Proof.Machine.execVmax a s
  | .vmin a => Sys2Proof.Machine.execVmin a s
  | .vabs a => Sys2Proof.Machine.execVabs a s
  | .vneg a => Sys2Proof.Machine.execVneg a s
  | .vcmp a => Sys2Proof.Machine.execVcmp a s
  | .vsel a => Sys2Proof.Machine.execVsel a s
  | .vrcp a => Sys2Proof.Machine.execVrcp a s
  | .vsqrt a => Sys2Proof.Machine.execVsqrt a s
  | .vrsq a => Sys2Proof.Machine.execVrsq a s
  | .vexp2 a => Sys2Proof.Machine.execVexp2 a s
  | .vlog2 a => Sys2Proof.Machine.execVlog2 a s
  | .vexp a => Sys2Proof.Machine.execVexp a s
  | .vtanh a => Sys2Proof.Machine.execVtanh a s
  | .vsigm a => Sys2Proof.Machine.execVsigm a s
  | .vsinp a => Sys2Proof.Machine.execVsinp a s
  | .vcosp a => Sys2Proof.Machine.execVcosp a s
  | .viadd a => Sys2Proof.Machine.execViadd a s
  | .vand a => Sys2Proof.Machine.execVand a s
  | .vor a => Sys2Proof.Machine.execVor a s
  | .vxor a => Sys2Proof.Machine.execVxor a s
  | .vshl a => Sys2Proof.Machine.execVshl a s
  | .vshr a => Sys2Proof.Machine.execVshr a s
  | .vcvti a => Sys2Proof.Machine.execVcvti a s
  | .vcvtf a => Sys2Proof.Machine.execVcvtf a s
  | .vperm a => Sys2Proof.Machine.execVperm a s
  | .vmand a => Sys2Proof.Machine.execVmand a s
  | .vmor a => Sys2Proof.Machine.execVmor a s
  | .vmnot a => Sys2Proof.Machine.execVmnot a s
  | .vld a => Sys2Proof.Machine.execVld a s
  | .vst a => Sys2Proof.Machine.execVst a s
  | .vnst a => Sys2Proof.Machine.execVnst a s
  | .vldq a => Sys2Proof.Machine.execVldq a s
  | .vrst a => Sys2Proof.Machine.execVrst a s
  | .vred a => Sys2Proof.Machine.execVred a s
  | .vrget a => Sys2Proof.Machine.execVrget a s
  | .vphr a => Sys2Proof.Machine.execVphr a s
  | .phraseEnd t cyc => Sys2Proof.Machine.execPhraseEnd t cyc s
  | .vflg a => Sys2Proof.Machine.execVflg a s
  | .vectorInterlockRelease t cyc => Sys2Proof.Machine.execVectorInterlockRelease t cyc s
  | .drainQueueHoldRelease t cyc => Sys2Proof.Machine.execDrainQueueHoldRelease t cyc s
  | .cnop t => Sys2Proof.Machine.execCnop t s
  | .cwait t target => Sys2Proof.Machine.execCwait t target s
  | .carr t win slack count => Sys2Proof.Machine.execCarr t win slack count s
  | .cloop t lc iterations => Sys2Proof.Machine.execCloop t lc iterations s
  | .cnext t lc => Sys2Proof.Machine.execCnext t lc s
  | .cvote t desc vreg src => Sys2Proof.Machine.execCvote t desc vreg src s
  | .cend t cyc => Sys2Proof.Machine.execCend t cyc s
  | .heldBundleRelease t => Sys2Proof.Machine.execHeldBundleRelease t s
  | .clauseStart t sentence cyc => Sys2Proof.Machine.execClauseStart t sentence cyc s
  | .clauseStoreScrub t => Sys2Proof.Machine.execClauseStoreScrub t s
  | .clauseStoreRefetch t => Sys2Proof.Machine.execClauseStoreRefetch t s
  | .xnop t => Sys2Proof.Machine.execXnop t s
  | .xsend a => Sys2Proof.Machine.execXsend a s
  | .xget a => Sys2Proof.Machine.execXget a s
  | .xput a => Sys2Proof.Machine.execXput a s
  | .xpub t => Sys2Proof.Machine.execXpub t s
  | .xagr a => Sys2Proof.Machine.execXagr a s
  | .xdsp a => Sys2Proof.Machine.execXdsp a s
  | .flitCredit u => Sys2Proof.Machine.execFlitCredit u s
  | .beatBoundary => Sys2Proof.Machine.execBeatBoundary s
  | .timeExchange x => Sys2Proof.Machine.execTimeExchange x s
  | .lateCase c => Sys2Proof.Machine.execLateCase c s
  | .slipRequestRepeat c => Sys2Proof.Machine.execSlipRequestRepeat c s
  | .slipRequest x requester beat => Sys2Proof.Machine.execSlipRequest x requester beat s
  | .slipHoldStart => Sys2Proof.Machine.execSlipHoldStart s
  | .slipHoldEnd => Sys2Proof.Machine.execSlipHoldEnd s
  | .holdLimitExpiry c => Sys2Proof.Machine.execHoldLimitExpiry c s
  | .loaderOwnerWrite w v => Sys2Proof.Machine.execLoaderOwnerWrite w v s
  | .load => Sys2Proof.Machine.execLoad s
  | .unload => Sys2Proof.Machine.execUnload s
  | .start => Sys2Proof.Machine.execStart s
  | .halt => Sys2Proof.Machine.execHalt s
  | .startQuery x => Sys2Proof.Machine.execStartQuery x s
  | .startAnswer x state imageId variant => Sys2Proof.Machine.execStartAnswer x state imageId variant s
  | .startAnswerDeadline => Sys2Proof.Machine.execStartAnswerDeadline s
  | .startBeatMessage x beat => Sys2Proof.Machine.execStartBeatMessage x beat s
  | .domainStart => Sys2Proof.Machine.execDomainStart s
  | .haltMessage x beat => Sys2Proof.Machine.execHaltMessage x beat s
  | .haltTakeEffect => Sys2Proof.Machine.execHaltTakeEffect s
  | .stepStart => Sys2Proof.Machine.execStepStart s
  | .localVoteDeadline => Sys2Proof.Machine.execLocalVoteDeadline s
  | .localVoteComplete => Sys2Proof.Machine.execLocalVoteComplete s
  | .voteRecord x r => Sys2Proof.Machine.execVoteRecord x r s
  | .stepDecision => Sys2Proof.Machine.execStepDecision s
  | .ledgerReadIndexWrite p v => Sys2Proof.Machine.execLedgerReadIndexWrite p v s
  | .scaleQuery p v => Sys2Proof.Machine.execScaleQuery p v s
  | .agreementChunkReceive e ch c => Sys2Proof.Machine.execAgreementChunkReceive e ch c s
  | .agreementHop e ch mismatches => Sys2Proof.Machine.execAgreementHop e ch mismatches s
  | .xagrFlitAccept e ch => Sys2Proof.Machine.execXagrFlitAccept e ch s
  | .fill d => Sys2Proof.Machine.execFill d s
  | .gather d => Sys2Proof.Machine.execGather d s
  | .scatter d => Sys2Proof.Machine.execScatter d s
  | .collect d => Sys2Proof.Machine.execCollect d s
  | .routingRecordFlit d table => Sys2Proof.Machine.execRoutingRecordFlit d table s
  | .dispatchTrigger d table => Sys2Proof.Machine.execDispatchTrigger d table s
  | .dispatchFlitAccept d table => Sys2Proof.Machine.execDispatchFlitAccept d table s
  | .dispatchTableAdvance d => Sys2Proof.Machine.execDispatchTableAdvance d s
  | .dispatchReadIndexWrite p v => Sys2Proof.Machine.execDispatchReadIndexWrite p v s
  | .stageEntryStart e => Sys2Proof.Machine.execStageEntryStart e s
  | .stageEntryComplete e => Sys2Proof.Machine.execStageEntryComplete e s
  | .stageEntryDeadline e => Sys2Proof.Machine.execStageEntryDeadline e s
  | .placementQuery p v => Sys2Proof.Machine.execPlacementQuery p v s
  | .memoryLineRead u => Sys2Proof.Machine.execMemoryLineRead u s
  | .memoryLineWrite u => Sys2Proof.Machine.execMemoryLineWrite u s
  | .correctionWriteback u => Sys2Proof.Machine.execCorrectionWriteback u s
  | .patrolScrubRead n => Sys2Proof.Machine.execPatrolScrubRead n s
  | .scrubWindowClose n => Sys2Proof.Machine.execScrubWindowClose n s
  | .memTestOwnerWrite w n v => Sys2Proof.Machine.execMemTestOwnerWrite w n v s
  | .repairStart n => Sys2Proof.Machine.execRepairStart n s
  | .repairDone n bankExhausted leftAfter => Sys2Proof.Machine.execRepairDone n bankExhausted leftAfter s
  | .decodeQuery p v => Sys2Proof.Machine.execDecodeQuery p v s
  | .selfRefreshIdleEntry unit => Sys2Proof.Machine.execSelfRefreshIdleEntry unit s
  | .coherentRequestArrival idx cyc => Sys2Proof.Machine.execCoherentRequestArrival idx cyc s
  | .rdShared line => Sys2Proof.Machine.execRdShared line s
  | .rdOwn line => Sys2Proof.Machine.execRdOwn line s
  | .upgrade line => Sys2Proof.Machine.execUpgrade line s
  | .wbDirty line => Sys2Proof.Machine.execWbDirty line s
  | .evClean line => Sys2Proof.Machine.execEvClean line s
  | .rdSnoop line => Sys2Proof.Machine.execRdSnoop line s
  | .wrInv line => Sys2Proof.Machine.execWrInv line s
  | .directoryRecall line => Sys2Proof.Machine.execDirectoryRecall line s
  | .fwdS c line => Sys2Proof.Machine.execFwdS c line s
  | .fwdM c line => Sys2Proof.Machine.execFwdM c line s
  | .inv c line => Sys2Proof.Machine.execInv c line s
  | .invD c line => Sys2Proof.Machine.execInvD c line s
  | .snpRd c line => Sys2Proof.Machine.execSnpRd c line s
  | .snoopAnswer c line => Sys2Proof.Machine.execSnoopAnswer c line s
  | .completionAck r line => Sys2Proof.Machine.execCompletionAck r line s
  | .homeTimeout c line => Sys2Proof.Machine.execHomeTimeout c line s
  | .coreLoad c addr x => Sys2Proof.Machine.execCoreLoad c addr x s
  | .coreStore c addr x => Sys2Proof.Machine.execCoreStore c addr x s
  | .coreReplacement c line => Sys2Proof.Machine.execCoreReplacement c line s
  | .coreFill c line => Sys2Proof.Machine.execCoreFill c line s
  | .fence c => Sys2Proof.Machine.execFence c s
  | .reclaimOwnerWrite w v => Sys2Proof.Machine.execReclaimOwnerWrite w v s
  | .reclaimStart p v => Sys2Proof.Machine.execReclaimStart p v s
  | .reclaimSweepComplete => Sys2Proof.Machine.execReclaimSweepComplete s
  | .coreTakenOffline c => Sys2Proof.Machine.execCoreTakenOffline c s
  | .coreStarted c => Sys2Proof.Machine.execCoreStarted c s
  | .codewordTransmit p => Sys2Proof.Machine.execCodewordTransmit p s
  | .codewordReceive p cw => Sys2Proof.Machine.execCodewordReceive p cw s
  | .ackFlit p position credits => Sys2Proof.Machine.execAckFlit p position credits s
  | .nakFlit p position => Sys2Proof.Machine.execNakFlit p position s
  | .class0Flit p m copy seq replayed => Sys2Proof.Machine.execClass0Flit p m copy seq replayed s
  | .portTraining p => Sys2Proof.Machine.execPortTraining p s
  | .identityFlit p id port revision => Sys2Proof.Machine.execIdentityFlit p id port revision s
  | .laneMarginLow p lane mv => Sys2Proof.Machine.execLaneMarginLow p lane mv s
  | .substitutionFlit p lane position => Sys2Proof.Machine.execSubstitutionFlit p lane position s
  | .substitutionPosition p => Sys2Proof.Machine.execSubstitutionPosition p s
  | .laneLockLoss p lane => Sys2Proof.Machine.execLaneLockLoss p lane s
  | .retrainComplete x => Sys2Proof.Machine.execRetrainComplete x s
  | .retrainLimitExpiry p => Sys2Proof.Machine.execRetrainLimitExpiry p s
  | .silzinWordReceive b w => Sys2Proof.Machine.execSilzinWordReceive b w s
  | .linkTestOwnerWrite w d v => Sys2Proof.Machine.execLinkTestOwnerWrite w d v s
  | .linkTestRequest p d v => Sys2Proof.Machine.execLinkTestRequest p d v s
  | .pcieLinkUp p rate width => Sys2Proof.Machine.execPcieLinkUp p rate width s
  | .pcieLinkDown p unacked => Sys2Proof.Machine.execPcieLinkDown p unacked s
  | .perst p unacked => Sys2Proof.Machine.execPerst p unacked s
  | .commandWindowWrite offset x => Sys2Proof.Machine.execCommandWindowWrite offset x s
  | .ingestWrite offset x => Sys2Proof.Machine.execIngestWrite offset x s
  | .ingestRead offset len => Sys2Proof.Machine.execIngestRead offset len s
  | .notificationWrite w => Sys2Proof.Machine.execNotificationWrite w s
  | .queueOwnerWrite p q v => Sys2Proof.Machine.execQueueOwnerWrite p q v s
  | .queueEnable p q => Sys2Proof.Machine.execQueueEnable p q s
  | .queueDisable p q => Sys2Proof.Machine.execQueueDisable p q s
  | .queueDisableComplete q => Sys2Proof.Machine.execQueueDisableComplete q s
  | .sqDoorbell p q v => Sys2Proof.Machine.execSqDoorbell p q v s
  | .descriptorFetch q => Sys2Proof.Machine.execDescriptorFetch q s
  | .descriptorReread q => Sys2Proof.Machine.execDescriptorReread q s
  | .dmaNop q => Sys2Proof.Machine.execDmaNop q s
  | .copyToHost q => Sys2Proof.Machine.execCopyToHost q s
  | .copyFromHost q cpl => Sys2Proof.Machine.execCopyFromHost q cpl s
  | .completionPost q bytes => Sys2Proof.Machine.execCompletionPost q bytes s
  | .completionRecordWrite q => Sys2Proof.Machine.execCompletionRecordWrite q s
  | .flushReadComplete => Sys2Proof.Machine.execFlushReadComplete s
  | .completionRingRoom p q v => Sys2Proof.Machine.execCompletionRingRoom p q v s
  | .portHDetach x => Sys2Proof.Machine.execPortHDetach x s
  | .sessionAttach p token => Sys2Proof.Machine.execSessionAttach p token s
  | .sessionResumeDrain p => Sys2Proof.Machine.execSessionResumeDrain p s
  | .sessionResumeDiscard p => Sys2Proof.Machine.execSessionResumeDiscard p s
  | .sessionRelease p => Sys2Proof.Machine.execSessionRelease p s
  | .sessionExpiry => Sys2Proof.Machine.execSessionExpiry s
  | .sessionTokenRead p => Sys2Proof.Machine.execSessionTokenRead p s
  | .trackedWrite addr bytes => Sys2Proof.Machine.execTrackedWrite addr bytes s
  | .protectionDelta l => Sys2Proof.Machine.execProtectionDelta l s
  | .protectionCopy l => Sys2Proof.Machine.execProtectionCopy l s
  | .saveHoldEnd => Sys2Proof.Machine.execSaveHoldEnd s
  | .saveStallTimeout => Sys2Proof.Machine.execSaveStallTimeout s
  | .saveAbandoned x beat => Sys2Proof.Machine.execSaveAbandoned x beat s
  | .saveRequest p v => Sys2Proof.Machine.execSaveRequest p v s
  | .saveRequestMessage x beat position => Sys2Proof.Machine.execSaveRequestMessage x beat position s
  | .restoreRecord => Sys2Proof.Machine.execRestoreRecord s
  | .failureNotice x position reporter beat => Sys2Proof.Machine.execFailureNotice x position reporter beat s
  | .deadDetectExpiry p => Sys2Proof.Machine.execDeadDetectExpiry p s
  | .recoveryReport x r => Sys2Proof.Machine.execRecoveryReport x r s
  | .gatherWindowEnd => Sys2Proof.Machine.execGatherWindowEnd s
  | .recoveryPlan x pl => Sys2Proof.Machine.execRecoveryPlan x pl s
  | .rebuildComplete => Sys2Proof.Machine.execRebuildComplete s
  | .resume x beat step => Sys2Proof.Machine.execResume x beat step s
  | .resumeBeat => Sys2Proof.Machine.execResumeBeat s
  | .rollbackRequest p v => Sys2Proof.Machine.execRollbackRequest p v s
  | .idleSpareFailure phys => Sys2Proof.Machine.execIdleSpareFailure phys s
  | .regionQuery p v => Sys2Proof.Machine.execRegionQuery p v s
  | .psOwnerWrite p v => Sys2Proof.Machine.execPsOwnerWrite p v s
  | .psRequest p v => Sys2Proof.Machine.execPsRequest p v s
  | .psEntryStepDone => Sys2Proof.Machine.execPsEntryStepDone s
  | .psEntryStepTimeout => Sys2Proof.Machine.execPsEntryStepTimeout s
  | .wakeN => Sys2Proof.Machine.execWakeN s
  | .wakeStepDone => Sys2Proof.Machine.execWakeStepDone s
  | .wakeBudgetStep rail => Sys2Proof.Machine.execWakeBudgetStep rail s
  | .padRelease p v => Sys2Proof.Machine.execPadRelease p v s
  | .aclkDivisorWrite p v => Sys2Proof.Machine.execAclkDivisorWrite p v s
  | .divisorChange => Sys2Proof.Machine.execDivisorChange s
  | .dvfsInterlockRelease d => Sys2Proof.Machine.execDvfsInterlockRelease d s
  | .powerSample milliwatts => Sys2Proof.Machine.execPowerSample milliwatts s
  | .dictionaryWrite p idx sub size x => Sys2Proof.Machine.execDictionaryWrite p idx sub size x s
  | .usdoRequest f => Sys2Proof.Machine.execUsdoRequest f s
  | .usdoSegmentTimeout => Sys2Proof.Machine.execUsdoSegmentTimeout s
  | .nmtStart node => Sys2Proof.Machine.execNmtStart node s
  | .nmtStop node => Sys2Proof.Machine.execNmtStop node s
  | .nmtPreOperational node => Sys2Proof.Machine.execNmtPreOperational node s
  | .nmtResetNode node => Sys2Proof.Machine.execNmtResetNode node s
  | .nmtResetCommunication node => Sys2Proof.Machine.execNmtResetCommunication node s
  | .heartbeat => Sys2Proof.Machine.execHeartbeat s
  | .emcyTransmit => Sys2Proof.Machine.execEmcyTransmit s
  | .canBusOff => Sys2Proof.Machine.execCanBusOff s
  | .canBusOffRecovery => Sys2Proof.Machine.execCanBusOffRecovery s
  | .canErrorPassive => Sys2Proof.Machine.execCanErrorPassive s
  | .canErrorActive => Sys2Proof.Machine.execCanErrorActive s
  | .cfgArm p v => Sys2Proof.Machine.execCfgArm p v s
  | .cfgDisarm p => Sys2Proof.Machine.execCfgDisarm p s
  | .cfgArmValidated => Sys2Proof.Machine.execCfgArmValidated s
  | .cfgSwapGen p v => Sys2Proof.Machine.execCfgSwapGen p v s
  | .swapAnnouncement x gen divisor beat => Sys2Proof.Machine.execSwapAnnouncement x gen divisor beat s
  | .swapCutoff => Sys2Proof.Machine.execSwapCutoff s
  | .swapRefusal x => Sys2Proof.Machine.execSwapRefusal x s
  | .cfgSwapLocal p v => Sys2Proof.Machine.execCfgSwapLocal p v s
  | .period => Sys2Proof.Machine.execPeriod s
  | .periodTimerFire => Sys2Proof.Machine.execPeriodTimerFire s
  | .periodRequest p v => Sys2Proof.Machine.execPeriodRequest p v s
  | .periodTimerOwnerWrite p v => Sys2Proof.Machine.execPeriodTimerOwnerWrite p v s
  | .prdOutOwnerWrite p v => Sys2Proof.Machine.execPrdOutOwnerWrite p v s
  | .wearSample readings => Sys2Proof.Machine.execWearSample readings s
  | .wearCheckpoint => Sys2Proof.Machine.execWearCheckpoint s
  | .wearQuery p v => Sys2Proof.Machine.execWearQuery p v s
  | .errorRegisterRead p => Sys2Proof.Machine.execErrorRegisterRead p s
  | .pwrOkRise silentRegulators => Sys2Proof.Machine.execPwrOkRise silentRegulators s
  | .supplyPowerGood u => Sys2Proof.Machine.execSupplyPowerGood u s
  | .powerGoodTimeout u => Sys2Proof.Machine.execPowerGoodTimeout u s
  | .pwrOkFall => Sys2Proof.Machine.execPwrOkFall s
  | .resetNAssert memoryConfirmed => Sys2Proof.Machine.execResetNAssert memoryConfirmed s
  | .packageReset p v memoryConfirmed => Sys2Proof.Machine.execPackageReset p v memoryConfirmed s
  | .coldResetRelease recoveryN testMode => Sys2Proof.Machine.execColdResetRelease recoveryN testMode s
  | .bootStepDone f => Sys2Proof.Machine.execBootStepDone f s
  | .bootWatchdogExpiry memoryConfirmed => Sys2Proof.Machine.execBootWatchdogExpiry memoryConfirmed s
  | .osBoot p v => Sys2Proof.Machine.execOsBoot p v s
  | .recoveryRequest p v => Sys2Proof.Machine.execRecoveryRequest p v s
  | .beginTransfer x kind mode totalLen => Sys2Proof.Machine.execBeginTransfer x kind mode totalLen s
  | .dataTransfer x offset bytes => Sys2Proof.Machine.execDataTransfer x offset bytes s
  | .endTransfer x => Sys2Proof.Machine.execEndTransfer x s
  | .abortTransfer x => Sys2Proof.Machine.execAbortTransfer x s
  | .flashWrite good goodOnRetry => Sys2Proof.Machine.execFlashWrite good goodOnRetry s
  | .floorRaise p v => Sys2Proof.Machine.execFloorRaise p v s
  | .quoteNonceWrite p word v => Sys2Proof.Machine.execQuoteNonceWrite p word v s
  | .quoteRequest p v => Sys2Proof.Machine.execQuoteRequest p v s
  | .quoteReady p => Sys2Proof.Machine.execQuoteReady p s
  | .measureExtend p v => Sys2Proof.Machine.execMeasureExtend p v s
  | .rngHealthFail => Sys2Proof.Machine.execRngHealthFail s
  | .refclkLoss => Sys2Proof.Machine.execRefclkLoss s
  | .refclkRestored memoryConfirmed => Sys2Proof.Machine.execRefclkRestored memoryConfirmed s
  | .pllUnlock u => Sys2Proof.Machine.execPllUnlock u s
  | .pllLockTimeout u => Sys2Proof.Machine.execPllLockTimeout u s
  | .thermalSample dieTemps stackTemps => Sys2Proof.Machine.execThermalSample dieTemps stackTemps s
  | .thermalTrip unit => Sys2Proof.Machine.execThermalTrip unit s
  | .pmbAlert u x => Sys2Proof.Machine.execPmbAlert u x s
  | .telemetryPoll u x => Sys2Proof.Machine.execTelemetryPoll u x s
  | .eventRaise n => Sys2Proof.Machine.execEventRaise n s
  | .eventLogRecordLatch p => Sys2Proof.Machine.execEventLogRecordLatch p s
  | .escMaskWrite p sev v => Sys2Proof.Machine.execEscMaskWrite p sev v s
  | .msixVectorWrite p q v => Sys2Proof.Machine.execMsixVectorWrite p q v s
  | .loadComplete => Sys2Proof.Machine.execLoadComplete s

end Sys2Proof.Machine
end

