-- ==== Sys2Proof/WellFormed.lean ====
section
/-! DEFINITION. WellFormed.lean: the values that the operands of a command can take: no reserved encoding in a slot (R40, R109,
R135, R137), and every number within the width of the field that carries it. -/
namespace Sys2Proof

/-- A value of n bits. -/
def fits (n v : Nat) : Bool := decide (v < 2 ^ n)

/-- An access lies within the 46-bit address space of the package (R234). -/
def rangeOk (addr len : Nat) : Bool := decide (addr + len ≤ 2 ^ 46)

/-! ## Slots -/

/-- Fields that the matrix opcodes but MLW, MWS and MWT leave 0, and a count that is not 0xFFFF (R40). -/
def MSlot.plain (a : MSlot) : Bool := decide (a.count ≠ 0xFFFF) && !a.acc && !a.tr && decide (a.part = 0)

/-- The register form of an opcode with n sources (R109). -/
def VRegForm.sources (a : VRegForm) (n : Nat) : Bool :=
  (decide (2 ≤ n) || decide (a.vb = 0)) && (decide (3 ≤ n) || decide (a.vc = 0))

/-- The move form (R137). -/
def XSlot.plain (a : XSlot) : Bool := decide (a.count ≠ 0xFFFF)

/-! ## Records and messages -/

/-- The widths of R289 and R294. -/
def C0In.wf (x : C0In) : Bool := fits 12 x.src && fits 32 x.originSeq

def C0Msg.wf (m : C0Msg) : Bool :=
  fits 8 m.type && fits 12 m.src && fits 12 m.dst && fits 32 m.originSeq && m.payload.all (fits 64)

/-- R170. -/
def VoteRec.wf (r : VoteRec) : Bool :=
  fits 40 r.step && fits 11 r.package && decide (1 ≤ r.source ∧ r.source ≤ 4) && fits 8 r.tile && fits 24 r.tensor &&
    fits 64 r.position && fits 32 r.nfCount

/-- R288, R289: a class that a port carries, and fields in their widths. -/
def LinkFlit.wf (f : LinkFlit) : Bool :=
  decide (f.cls = 0 ∨ f.cls = 1 ∨ f.cls = 3) && fits 1 f.vc && fits 12 f.dst && fits 12 f.src && fits 10 f.seq &&
    fits 26 f.target && decide (f.payload.length ≤ 64 ∧ f.poison.length ≤ 4)

/-- R187: fields in their widths. -/
def ChunkHdr.wf (h : ChunkHdr) : Bool :=
  fits 8 h.kind && fits 8 h.hop && fits 8 h.lmax && fits 4 h.channel && fits 16 h.bucket && fits 16 h.chunk && fits 16 h.nValid &&
    fits 8 h.nsteps && fits 24 h.tensor && fits 46 h.elemFirst && fits 40 h.step && fits 11 h.nfPkg && fits 46 h.nfElem &&
    fits 11 h.stepPkg && fits 16 h.stepK

/-- R186: 1,024 words with their residues, or a header alone (kind 4). -/
def Chunk.wf (c : Chunk) : Bool :=
  c.hdr.wf && (decide (c.hdr.kind = 4) || decide (c.words.length = 1024 ∧ c.residues.length = 32))

/-- R288: a position, 640 bytes, a window beside each slot. -/
def RxCodeword.wf (w : RxCodeword) : Bool :=
  fits 32 w.pos && (w.body.all fun b => decide (b.length = 640)) && fits 16 w.corrected && w.wins.all (fits 4)

/-- A USDO frame: an object, and the bytes of one transfer (R385). -/
def UsdoFrame.wf : UsdoFrame → Bool
  | .read i s => fits 16 i && fits 8 s
  | .write i s b => fits 16 i && fits 8 s && decide (b.length ≤ 65536)
  | .segStart i s n => fits 16 i && fits 8 s && decide (1 ≤ n ∧ n ≤ 65536)
  | .segData b => decide (b.length ≤ 65536)

def MemAccess.wf : MemAccess → Bool
  | .read a n => decide (1 ≤ n) && rangeOk a n
  | .write a b => !b.isEmpty && rangeOk a b.length

/-- R349: the fields of a recovery report. -/
def RecReport.wf (r : RecReport) : Bool :=
  fits 12 r.reporter && fits 40 r.lastOpen && fits 40 r.lastComplete && fits 32 r.saveSeq && fits 32 r.confirmedSeq

/-- A line of protection traffic: four words (R340). -/
def ProtLine.wf (l : ProtLine) : Bool := decide (l.words.length = 4 ∧ l.offset % 64 = 0)

/-- A line address (R263). -/
def lineOk (line : Nat) : Bool := fits 40 line

/-! ## Commands -/

/-- The operands of a command are values that its fields can carry, with no reserved encoding among them. -/
def Instr.wf : Instr → Bool
  | .mnop a => a.plain
  | .mlw a => decide (a.count ≠ 0xFFFF ∧ a.part ≠ 3) && !a.acc
  | .mws a => decide (a.count ≠ 0xFFFF ∧ a.part ≠ 3) && !a.tr
  | .mwt a => decide (a.count ≠ 0xFFFF ∧ a.part ≠ 3) && !a.tr
  | .mdr a => a.plain
  | .mdv a => a.plain
  | .mclr a => a.plain
  | .mflg a => a.plain && decide (a.count = 0)
  | .streamResultWrite _ => true
  | .matrixInterlockRelease _ _ => true
  | .weightRegisterScrub _ => true
  | .bistOwnerWrite _ _ v => fits 64 v
  | .bistRequest _ _ v => fits 64 v
  | .bistComplete _ l => decide l.Nodup
  | .tileSramWindowAccess a => a.wf
  | .vnop _ => true
  | .vadd a => a.sources 2
  | .vsub a => a.sources 2
  | .vmul a => a.sources 2
  | .vfma a => a.sources 3
  | .vmax a => a.sources 2
  | .vmin a => a.sources 2
  | .vabs a => a.sources 1
  | .vneg a => a.sources 1
  | .vcmp a => decide (a.cond.toNat ≤ 4 ∧ a.md ≠ 0)
  | .vsel a => a.sources 2 && !a.mz
  | .vrcp a => a.sources 1
  | .vsqrt a => a.sources 1
  | .vrsq a => a.sources 1
  | .vexp2 a => a.sources 1
  | .vlog2 a => a.sources 1
  | .vexp a => a.sources 1
  | .vtanh a => a.sources 1
  | .vsigm a => a.sources 1
  | .vsinp a => a.sources 1
  | .vcosp a => a.sources 1
  | .viadd a => a.sources 2
  | .vand a => a.sources 2
  | .vor a => a.sources 2
  | .vxor a => a.sources 2
  | .vshl a => a.sources 2
  | .vshr a => a.sources 2
  | .vcvti a => a.sources 1
  | .vcvtf a => a.sources 1
  | .vperm a => a.sources 2
  | .vmand a => decide (a.md ≠ 0)
  | .vmor a => decide (a.md ≠ 0)
  | .vmnot a => decide (a.md ≠ 0 ∧ a.mb = 0)
  | .vld a => decide (a.rm = 0)
  | .vst a => decide (a.rm = 0)
  | .vnst a => decide (a.rm.toNat ≤ 1)
  | .vldq a => decide (a.rm = 0 ∧ a.vdesc = 0)
  | .vrst a => decide (a.rm = 0 ∧ a.v = 0 ∧ a.msk = 0) && !a.mz
  | .vred a => decide (a.rop = 1 ∨ a.vb = 0)
  | .vrget _ => true
  | .vphr a => decide (a.count ≠ 0xFFFF)
  | .phraseEnd _ _ => true
  | .vflg _ => true
  | .vectorInterlockRelease _ _ => true
  | .drainQueueHoldRelease _ _ => true
  | .cnop _ => true
  | .cwait _ _ => true
  | .carr _ _ _ n => decide (n ≠ 0xFFFF)
  | .cloop _ _ n => decide (n ≠ 0xFFFF)
  | .cnext _ _ => true
  | .cvote _ _ _ src => decide (src ≠ 0)
  | .cend _ _ => true
  | .heldBundleRelease _ => true
  | .clauseStart _ _ _ => true
  | .clauseStoreScrub _ => true
  | .clauseStoreRefetch _ => true
  | .xnop _ => true
  | .xsend a => a.plain
  | .xget a => a.plain
  | .xput a => a.plain
  | .xpub _ => true
  | .xagr a => a.plain
  | .xdsp a => a.plain
  | .flitCredit _ => true
  | .beatBoundary => true
  | .timeExchange x => fits 64 x.parentBeat && fits 64 x.parentSlip && fits 32 x.masterGen
  | .lateCase _ => true
  | .slipRequestRepeat _ => true
  | .slipRequest x r b => x.wf && fits 12 r && fits 64 b
  | .slipHoldStart => true
  | .slipHoldEnd => true
  | .holdLimitExpiry _ => true
  | .loaderOwnerWrite _ v => fits 64 v
  | .load => true
  | .unload => true
  | .start => true
  | .halt => true
  | .startQuery x => x.wf
  | .startAnswer x st id v => x.wf && fits 8 st && fits 64 id && fits 16 v
  | .startAnswerDeadline => true
  | .startBeatMessage x b => x.wf && fits 64 b
  | .domainStart => true
  | .haltMessage x b => x.wf && fits 64 b
  | .haltTakeEffect => true
  | .stepStart => true
  | .localVoteDeadline => true
  | .localVoteComplete => true
  | .voteRecord x r => x.wf && r.wf
  | .stepDecision => true
  | .ledgerReadIndexWrite _ v => fits 64 v
  | .scaleQuery _ v => fits 64 v
  | .agreementChunkReceive _ _ c => c.wf
  | .agreementHop _ _ _ => true
  | .xagrFlitAccept _ _ => true
  | .fill _ => true
  | .gather _ => true
  | .scatter _ => true
  | .collect _ => true
  | .routingRecordFlit _ _ => true
  | .dispatchTrigger _ _ => true
  | .dispatchFlitAccept _ _ => true
  | .dispatchTableAdvance _ => true
  | .dispatchReadIndexWrite _ v => fits 64 v
  | .stageEntryStart _ => true
  | .stageEntryComplete _ => true
  | .stageEntryDeadline _ => true
  | .placementQuery _ v => fits 64 v
  | .memoryLineRead _ => true
  | .memoryLineWrite _ => true
  | .correctionWriteback _ => true
  | .patrolScrubRead _ => true
  | .scrubWindowClose _ => true
  | .memTestOwnerWrite _ _ v => fits 64 v
  | .repairStart _ => true
  | .repairDone _ _ n => fits 32 n
  | .decodeQuery _ v => fits 64 v
  | .selfRefreshIdleEntry _ => true
  | .coherentRequestArrival l _ => decide l.Nodup
  | .rdShared l => lineOk l
  | .rdOwn l => lineOk l
  | .upgrade l => lineOk l
  | .wbDirty l => lineOk l
  | .evClean l => lineOk l
  | .rdSnoop l => lineOk l
  | .wrInv l => lineOk l
  | .directoryRecall l => lineOk l
  | .fwdS _ l => lineOk l
  | .fwdM _ l => lineOk l
  | .inv _ l => lineOk l
  | .invD _ l => lineOk l
  | .snpRd _ l => lineOk l
  | .snoopAnswer _ l => lineOk l
  | .completionAck _ l => lineOk l
  | .homeTimeout _ l => lineOk l
  | .coreLoad _ a x => decide (1 ≤ x.len) && rangeOk a x.len
  | .coreStore _ a x => !x.bytes.isEmpty && rangeOk a x.bytes.length
  | .coreReplacement _ l => lineOk l
  | .coreFill _ l => lineOk l
  | .fence _ => true
  | .reclaimOwnerWrite _ v => fits 64 v
  | .reclaimStart _ v => fits 64 v
  | .reclaimSweepComplete => true
  | .coreTakenOffline _ => true
  | .coreStarted _ => true
  | .codewordTransmit _ => true
  | .codewordReceive _ w => w.wf
  | .ackFlit _ n _ => fits 32 n
  | .nakFlit _ n => fits 32 n
  | .class0Flit _ m _ n _ => m.wf && fits 10 n
  | .portTraining _ => true
  | .identityFlit _ i q r => fits 12 i && decide (q < 12) && fits 32 r
  | .laneMarginLow _ _ mv => fits 16 mv
  | .substitutionFlit _ _ n => fits 32 n
  | .substitutionPosition _ => true
  | .laneLockLoss _ _ => true
  | .retrainComplete x => fits 12 x.id && decide (x.port < 12) && fits 32 x.revision
  | .retrainLimitExpiry _ => true
  | .silzinWordReceive _ _ => true
  | .linkTestOwnerWrite _ _ v => fits 64 v
  | .linkTestRequest _ _ v => fits 64 v
  | .pcieLinkUp _ r w => fits 8 r && fits 8 w
  | .pcieLinkDown _ _ => true
  | .perst _ _ => true
  | .commandWindowWrite _ x => !x.bytes.isEmpty
  | .ingestWrite _ x => !x.bytes.isEmpty
  | .ingestRead _ _ => true
  | .notificationWrite w => decide (w < 1024)
  | .queueOwnerWrite _ _ v => fits 64 v
  | .queueEnable _ _ => true
  | .queueDisable _ _ => true
  | .queueDisableComplete _ => true
  | .sqDoorbell _ _ v => fits 32 v
  | .descriptorFetch _ => true
  | .descriptorReread _ => true
  | .dmaNop _ => true
  | .copyToHost _ => true
  | .copyFromHost _ c => decide (c.status ≤ 3)
  | .completionPost _ b => decide (b.length ≤ 64)
  | .completionRecordWrite _ => true
  | .flushReadComplete => true
  | .completionRingRoom _ _ v => fits 64 v
  | .portHDetach _ => true
  | .sessionAttach _ _ => true
  | .sessionResumeDrain _ => true
  | .sessionResumeDiscard _ => true
  | .sessionRelease _ => true
  | .sessionExpiry => true
  | .sessionTokenRead _ => true
  | .trackedWrite a b => !b.isEmpty && rangeOk a b.length
  | .protectionDelta l => l.wf
  | .protectionCopy l => l.wf
  | .saveHoldEnd => true
  | .saveStallTimeout => true
  | .saveAbandoned x b => x.wf && fits 64 b
  | .saveRequest _ v => fits 64 v
  | .saveRequestMessage x b q => x.wf && fits 64 b && fits 16 q
  | .restoreRecord => true
  | .failureNotice x q r b => x.wf && fits 16 q && fits 16 r && fits 64 b
  | .deadDetectExpiry _ => true
  | .recoveryReport x r => x.wf && r.wf
  | .gatherWindowEnd => true
  | .recoveryPlan x _ => x.wf
  | .rebuildComplete => true
  | .resume x b st => x.wf && fits 64 b && fits 40 st
  | .resumeBeat => true
  | .rollbackRequest _ v => fits 64 v
  | .idleSpareFailure q => fits 12 q
  | .regionQuery _ v => fits 64 v
  | .psOwnerWrite _ v => fits 64 v
  | .psRequest _ v => fits 64 v
  | .psEntryStepDone => true
  | .psEntryStepTimeout => true
  | .wakeN => true
  | .wakeStepDone => true
  | .wakeBudgetStep _ => true
  | .padRelease _ v => fits 64 v
  | .aclkDivisorWrite _ v => fits 64 v
  | .divisorChange => true
  | .dvfsInterlockRelease _ => true
  | .powerSample n => fits 32 n
  | .dictionaryWrite _ i s n x => fits 16 i && fits 8 s && fits 64 x.value && decide (n ≤ 8)
  | .usdoRequest f => f.wf
  | .usdoSegmentTimeout => true
  | .nmtStart n => fits 7 n
  | .nmtStop n => fits 7 n
  | .nmtPreOperational n => fits 7 n
  | .nmtResetNode n => fits 7 n
  | .nmtResetCommunication n => fits 7 n
  | .heartbeat => true
  | .emcyTransmit => true
  | .canBusOff => true
  | .canBusOffRecovery => true
  | .canErrorPassive => true
  | .canErrorActive => true
  | .cfgArm _ v => fits 64 v
  | .cfgDisarm _ => true
  | .cfgArmValidated => true
  | .cfgSwapGen _ v => fits 64 v
  | .swapAnnouncement x g d b => x.wf && fits 32 g && fits 8 d && fits 64 b
  | .swapCutoff => true
  | .swapRefusal x => x.msg.wf && fits 16 x.position
  | .cfgSwapLocal _ v => fits 64 v
  | .period => true
  | .periodTimerFire => true
  | .periodRequest _ v => fits 64 v
  | .periodTimerOwnerWrite _ v => fits 64 v
  | .prdOutOwnerWrite _ v => fits 64 v
  | .wearSample _ => true
  | .wearCheckpoint => true
  | .wearQuery _ v => fits 64 v
  | .errorRegisterRead _ => true
  | .pwrOkRise l => l.all fun n => decide (n < 21)
  | .supplyPowerGood _ => true
  | .powerGoodTimeout _ => true
  | .pwrOkFall => true
  | .resetNAssert _ => true
  | .packageReset _ v _ => fits 64 v
  | .coldResetRelease _ _ => true
  | .bootStepDone _ => true
  | .bootWatchdogExpiry _ => true
  | .osBoot _ v => fits 64 v
  | .recoveryRequest _ v => fits 64 v
  | .beginTransfer _ k m n => fits 8 k && fits 8 m && fits 32 n
  | .dataTransfer _ o b => fits 32 o && decide (b.length ≤ 1044480)
  | .endTransfer _ => true
  | .abortTransfer _ => true
  | .flashWrite _ _ => true
  | .floorRaise _ v => fits 64 v
  | .quoteNonceWrite _ _ _ => true
  | .quoteRequest _ v => fits 64 v
  | .quoteReady _ => true
  | .measureExtend _ v => fits 64 v
  | .rngHealthFail => true
  | .refclkLoss => true
  | .refclkRestored _ => true
  | .pllUnlock u => match u with
    | .root => true
    | .other n => decide (n < 50)
  | .pllLockTimeout u => match u with
    | .root => true
    | .other n => decide (n < 50)
  | .thermalSample d s => decide (d.length = 10 ∧ s.length = 12)
  | .thermalTrip _ => true
  | .pmbAlert _ _ => true
  | .telemetryPoll _ _ => true
  | .eventRaise n => decide (1 ≤ n)
  | .eventLogRecordLatch _ => true
  | .escMaskWrite _ _ v => fits 64 v
  | .msixVectorWrite _ _ v => fits 64 v
  | .loadComplete => true

end Sys2Proof
end

