-- ==== Sys2Proof/Safety.lean ====
section
/-! DEFINITION. Safety.lean: the terms in which claims are stated: what a command leaves alone, and what every state is meant to keep. -/
namespace Sys2Proof.Machine

/-! ## What stays -/

/-- Every byte of memory and tile SRAM reads as before. -/
def SameMemory (s t : State) : Prop := ∀ a, t.pkg.byte a = s.pkg.byte a

/-- Every byte but those that `out` names reads as before. -/
def SameMemoryBut (out : Nat → Prop) (s t : State) : Prop := ∀ a, ¬ out a → t.pkg.byte a = s.pkg.byte a

/-- Every object of the dictionary holds what it held. -/
def SameRegs (s t : State) : Prop := ∀ k, t.pkg.reg k = s.pkg.reg k

/-- Every object but those that `out` names holds what it held. -/
def SameRegsBut (out : Nat → Prop) (s t : State) : Prop := ∀ k, ¬ out k → t.pkg.reg k = s.pkg.reg k

/-- Every tile but n is as it was. -/
def SameTilesBut (n : Nat) (s t : State) : Prop := ∀ u, u ≠ n → t.pkg.tile u = s.pkg.tile u

/-- Every shadow copy holds what it held. -/
def SameShadow (s t : State) : Prop := ∀ k, t.pkg.shadowReg k = s.pkg.shadowReg k

/-- The event with this code was raised last. -/
def RaisedLast (t : State) (code : Nat) : Prop := (t.pkg.ev.inFlight.getLast?.map (·.code)) = some code

/-- An event with this code is on its way. -/
def RaisedEver (t : State) (code : Nat) : Prop := ∃ r ∈ t.pkg.ev.inFlight, r.code = code

/-- Command i answers the next state in which the package is p: the queue as it was, the lands driven by p. -/
def Does (i : Instr) (s : State) (p : Pkg) : Prop := exec i s = .next (s.settle p)

/-- A plane of the package runs (R20, R22, R25). -/
abbrev State.Runs (s : State) (pl : Plane) : Prop := s.pkg.runs pl = true

/-! ## Parts of a state, and when a slot command issues at once -/

/-- The matrix array of a tile. -/
abbrev State.mx (s : State) (t : TileNo) : Matrix := (s.pkg.tile t.val).mx

/-- The vector engine of a tile. -/
abbrev State.vec (s : State) (t : TileNo) : VecEng := (s.pkg.tile t.val).vec

/-- The clause sequencer of a tile. -/
abbrev State.seqr (s : State) (t : TileNo) : Seqr := (s.pkg.tile t.val).seq

/-- The descriptor that a matrix slot names. -/
abbrev State.mdesc (s : State) (a : MSlot) : MDesc := Sys2Proof.Machine.mdesc (s.pkg.tile a.t.val).md a.desc.val

/-- The state once the results of tile n that are due by cycle c have landed (R46). -/
def State.landed (s : State) (n : TileNo) (c : Nat) : State := s.settle (s.pkg.landDue n.val c)

/-- The state that a matrix slot meets: the results due by its cycle have landed, and the drained rows that find room are in the queue
(R46, R117). -/
def State.atSlot (s : State) (a : MSlot) : State := s.settle ((s.pkg.landDue a.t.val a.cyc).drainRows a.t.val a.cyc)

/-- A matrix slot that the loader accepts (R42), in PS0. -/
def MatrixAccepted (op : MOp) (a : MSlot) (s : State) : Prop :=
  s.Runs .data ∧ encodingM s.pkg op a = true ∧ limitsM s.pkg op a = true

/-- It names rows and columns, and nothing holds its bundle or its slot (R48, R117, R133). -/
def MatrixFree (a : MSlot) (s : State) : Prop :=
  (s.pkg.tile a.t.val).free = true ∧ (s.vec a.t).mdvHeld a.cyc = false ∧ a.count ≠ 0 ∧ (s.mdesc a).nCols ≠ 0

/-- A matrix slot that the loader accepts, that nothing holds and that no interlock meets. -/
def MatrixIssues (op : MOp) (a : MSlot) (s : State) : Prop :=
  MatrixAccepted op a s ∧ MatrixFree a (s.atSlot a) ∧ interlocked ((s.atSlot a).mx a.t) op a (s.mdesc a) = false

/-- The counters of R58 that a matrix slot may advance. -/
def MatrixCounter (s : State) (n : TileNo) (k : Nat) : Prop :=
  ∃ j < 3, k = s.pkg.tileCounter O.tileCounters j n.val

/-- The state that a vector slot meets at cycle c: the drained rows that find room are in the queue (R117). -/
def State.atVec (s : State) (t : TileNo) (c : Nat) : State := s.settle (s.pkg.drainRows t.val c)

/-- A vector command in PS0 that nothing holds: neither its bundle nor an interlock of R118. -/
def VectorIssues (i : Instr) (t : TileNo) (c : Nat) (s : State) : Prop :=
  s.Runs .data ∧ ((s.atVec t c).pkg.tile t.val).free = true ∧ vMustHold ((s.atVec t c).pkg.tile t.val) c i = false

/-- The lane-wise commands of R110 and R112: form, number of sources, the operation on one lane, latency. -/
def laneForm : Instr → Option (VRegForm × Nat × (W32 → W32 → W32 → W32) × Nat)
  | .vadd a => some (a, 2, fun x y _ => fAdd x y, 4)
  | .vsub a => some (a, 2, fun x y _ => fSub x y, 4)
  | .vmul a => some (a, 2, fun x y _ => fMul x y, 4)
  | .vfma a => some (a, 3, fun x y z => fFma x y z, 4)
  | .vmax a => some (a, 2, fun x y _ => vMax x y, 4)
  | .vmin a => some (a, 2, fun x y _ => vMin x y, 4)
  | .vabs a => some (a, 1, fun x _ _ => if isNan32 x then 0x7FC00000 else x &&& 0x7FFFFFFF, 4)
  | .vneg a => some (a, 1, fun x _ _ => if isNan32 x then 0x7FC00000 else x ^^^ 0x80000000, 4)
  | .vrcp a => some (a, 1, fun x _ _ => special 0 x, 12)
  | .vsqrt a => some (a, 1, fun x _ _ => special 1 x, 12)
  | .vrsq a => some (a, 1, fun x _ _ => special 2 x, 12)
  | .vexp2 a => some (a, 1, fun x _ _ => special 3 x, 12)
  | .vlog2 a => some (a, 1, fun x _ _ => special 4 x, 12)
  | .vexp a => some (a, 1, fun x _ _ => special 5 x, 16)
  | .vtanh a => some (a, 1, fun x _ _ => special 6 x, 16)
  | .vsigm a => some (a, 1, fun x _ _ => special 7 x, 16)
  | .vsinp a => some (a, 1, fun x _ _ => special 8 x, 16)
  | .vcosp a => some (a, 1, fun x _ _ => special 9 x, 16)
  | .viadd a => some (a, 2, fun x y _ => x + y, 2)
  | .vand a => some (a, 2, fun x y _ => x &&& y, 2)
  | .vor a => some (a, 2, fun x y _ => x ||| y, 2)
  | .vxor a => some (a, 2, fun x y _ => x ^^^ y, 2)
  | .vshl a => some (a, 2, fun x y _ => x <<< (y.toNat % 32), 2)
  | .vshr a => some (a, 2, fun x y _ => x >>> (y.toNat % 32), 2)
  | .vcvti a => some (a, 1, fun x _ _ => vCvtI x, 4)
  | .vcvtf a => some (a, 1, fun x _ _ => vCvtF x, 4)
  | _ => none

/-- The program counter of a tile's sequencer after its bundle: the next one while a clause runs. -/
def nextPc (x : Seqr) : Nat := if x.running then x.pc + 1 else x.pc

/-- A move slot in PS0 that the loader accepts (R42, R128, R137, R138), with a count, in a bundle that nothing holds. -/
def MoveIssues (a : XSlot) (send bucket : Bool) (s : State) : Prop :=
  s.Runs .data ∧ (s.pkg.tile a.t.val).free = true ∧ a.count ≠ 0 ∧ a.count ≠ 0xFFFF ∧ xdescOk (s.pkg.tile a.t.val).xd a.mdesc.val = true ∧
    xfieldsOk (xdesc (s.pkg.tile a.t.val).xd a.mdesc.val) send bucket = true ∧
    inSramI ((s.pkg.tile a.t.val).xlocal a.mdesc.val) (64 * a.count.toNat) = true

/-- Every active way of a line's directory set reads without an error. -/
def State.SetClean (s : State) (line : Nat) : Prop :=
  ∀ w ∈ s.pkg.ways (dirSet line / 65536), checkWord (s.pkg.coh.dir.at zeroWord (dirKey (dirSet line) w)) = .clean ∧
    (dirRead (s.pkg.coh.dir.at zeroWord (dirKey (dirSet line) w))).isSome

/-! ## Class-0 messages -/

/-- R294: a flood or directed message that the package has not acted on: its origin sequence is later than the one remembered for its
source. -/
def IsNew (x : C0In) (p : Pkg) : Prop :=
  match p.sched.filter.find x.src with
  | none => True
  | some n => laterSeq x.originSeq n = true

/-- The package as it stands when it acts on a new flood of this type: the sequence remembered, the message forwarded (R294). -/
def forwarded (x : C0In) (type : Nat) (payload : List Nat) (p : Pkg) : Pkg :=
  (p.setSched { p.sched with filter := (p.sched.filter.del x.src).ins x.src x.originSeq }).c0Send
    ⟨type, x.src, 0, x.originSeq, payload⟩ x.port.val

/-- The package as it stands when it acts on a new directed message. -/
def remembered (x : C0In) (p : Pkg) : Pkg :=
  p.setSched { p.sched with filter := (p.sched.filter.del x.src).ins x.src x.originSeq }

/-- R300: the rows of an image's route table for a package at position `me` name, for both classes, the port of the dimension order; `pl`
gives the position of each physical identifier. -/
def DimensionRouted (i : Image) (me : Nat) (pl : List (Nat × Nat)) : Prop :=
  ∀ r ∈ i.routes, ∀ e ∈ pl, e.1 = r.1 → dimPort i.variant me e.2 r.1 = some r.2.port1 ∧ r.2.port3 = r.2.port1

/-! ## What every state is meant to keep -/

/-- The lands show what the package's state says: FAULT_N is low exactly while bit 0 of error_register is 1 (R438), THERMTRIP_N while
a trip stands (R458). -/
def State.LandsHold (s : State) : Prop :=
  s.lands.faultN = !bitOf (s.pkg.reg O.errorRegister) 0 ∧ s.lands.thermTripN = !s.pkg.supply.tripped

/-- Memory lists rising addresses and no byte that reads as an unlisted one. -/
def State.MemoryCanonical (s : State) : Prop := Memory.wf s.pkg.mem = true

/-- A step is safe where it ends in a next state. -/
def State.Safe (s : State) : Prop := ∃ t, step s = .next t

end Sys2Proof.Machine
end

