-- ==== Sys2Proof/Certificates/Slice0/Obligations.lean ====
section
/-! DEFINITION. Certificates/Slice0/Obligations.lean: the statements about the model. -/

open Sys2Proof Sys2Proof.Machine

/-! ## The queue, the lands, reset -/

/-- The command at the front of the queue runs, with the rest of the queue behind it. (The queue is the model's.) -/
def Obligations.StepRunsFrontCommand : Prop :=
  ∀ (c : Instr) (q : List Instr) (s : State), step { s with pending := c :: q } = exec c { s with pending := q }

/-- The model's choice (log 2): with nothing waiting, one tick of the reference passes and nothing else changes. First in, first out: whatever command
runs, the queue that a step leaves is the queue without its front. -/
def Obligations.QueueIsFirstInFirstOut : Prop :=
  (∀ s : State, s.pending = [] →
     step s = .next { s with pkg := { s.pkg with mtime := (s.pkg.mtime + 1) % 2 ^ 64 } }) ∧
  (∀ s t : State, step s = .next t → t.pending = s.pending.tail)

/-- Every step keeps the two lands showing what the package's state says. -/
def Obligations.LandsFollowStateAtEveryStep : Prop :=
  ∀ s t : State, s.LandsHold → step s = .next t → t.LandsHold

/-- Every step keeps memory in its canonical form: rising addresses, and no byte listed that an unlisted address reads as. (The form is the model's,
log 4.) -/
def Obligations.MemoryStaysCanonical : Prop :=
  ∀ s t : State, s.MemoryCanonical → step s = .next t → t.MemoryCanonical

/-- At reset the lands hold with FAULT_N high, memory is canonical, nothing waits, and the objects named hold the reset values of their tables. -/
def Obligations.ResetState : Prop :=
  State.reset.LandsHold ∧ State.reset.MemoryCanonical ∧ State.reset.pending = [] ∧ State.reset.lands.faultN = true ∧
    State.reset.pkg.reg O.canNodeId = 0x7F ∧ State.reset.pkg.reg O.aclkDivisor = 4 ∧
    State.reset.pkg.reg O.logicalPosition = 0xFFFF ∧ State.reset.pkg.reg O.imageState = 0 ∧
    State.reset.pkg.reg (O.spareCol + 5) = 12 ∧ State.reset.pkg.reg (O.escMask + 4) = 15 ∧
    State.reset.pkg.reg O.voidLimit = 16

/-! ## The word code -/

/-- The check bits that the writer chooses are the unique ones that make the syndrome 0, so a word written is read back. An error in any one symbol of
a good word is corrected to that word, at that symbol. An error in any two symbols is detected: no such word reads as clean or as correctable; a
double error of value 0xF in both c2 and c3 reads as poison. -/
def Obligations.WordCodeCorrectsAndDetects : Prop :=
  (∀ d : W128, (∀ c : BitVec 16, syndrome ⟨d, c⟩ = (0, 0, 0, 0) ↔ c = checkBits d) ∧ readWord (goodWord d) = some d) ∧
  (∀ (d : W128) (i : Nat) (e : BitVec 4), i < 36 → e ≠ 0 →
     checkWord (addSym (goodWord d) i e) = .corrected (goodWord d) i) ∧
  ((∀ (d : W128) (i j : Nat) (e f : BitVec 4), i < j → j < 36 → e ≠ 0 → f ≠ 0 →
     checkWord (addSym (addSym (goodWord d) i e) j f) = .bad ∨ checkWord (addSym (addSym (goodWord d) i e) j f) = .poison) ∧
   ∀ d : W128, checkWord (addSym (addSym (goodWord d) 34 0xF) 35 0xF) = .poison)

/-- The poison pattern reads as poison, a poisoned whole-word write stores it, and a whole-word write clears it; no byte outside the word changes. -/
def Obligations.PoisonPassesThroughMemory : Prop :=
  (∀ (p : Pkg) (a : Nat), a % 16 = 0 → ((p.sramWrite a none).word a = poisonWord ∧ (p.sramWrite a none).sramRead a = none)) ∧
  (∀ (p : Pkg) (a : Nat) (d : W128), a % 16 = 0 → (p.sramWrite a (some d)).sramRead a = some d) ∧
  ∀ (p : Pkg) (a b : Nat) (v : Option W128), (b < a ∨ a + 16 ≤ b) → (p.sramWrite a v).byte b = p.byte b

/-! ## The matrix slot -/

/-- An MLW that issues (MatrixIssues: in PS0, a slot that the loader accepts and that nothing holds): register wsel takes the panel, and the register
is busy loading until 136 cycles later. The other register, the accumulator store, the streams in flight, the vector engine, the sequencer, the other
tiles and memory are those of the state that the slot meets, and of the dictionary only the tile's own counters may differ. An MWS, and an MWT, that
issues appends one stream to those in flight: count rows as read at its issue, from accumulator row as_base, c cycles a row and F cycles to a result
as the descriptor and part give them; the path is busy count × c cycles. Accumulator store, weight registers, vector engine, memory and the other
tiles are those of the state that the slot meets. An MDR that issues stores to no byte but the 512 of each of its rows at src_addr + i × row_stride,
and where the rows lie apart at multiples of 16 each word stored is the row's as it stands in the last of its cycles; matrix array and vector engine
stay. An MDV that issues appends to the drain queue, all its rows where no MDV waits and there is room. An MCLR that issues sets the entries of its
rows to +0 without a mark and its rows to untyped with no draws, and leaves the other rows. -/
def Obligations.MatrixTransfersIssue : Prop :=
  (∀ (s : State) (a : MSlot), MatrixIssues .mlw a s →
     ∃ t, exec (.mlw a) s = .next t ∧ (t.mx a.t).wreg a.wsel = (s.atSlot a).pkg.loadPanel a ∧
       (t.mx a.t).wreg (!a.wsel) = ((s.atSlot a).mx a.t).wreg (!a.wsel) ∧ (t.mx a.t).loadBusy = a.cyc + 136 ∧
       (t.mx a.t).acc = ((s.atSlot a).mx a.t).acc ∧ (t.mx a.t).inflight = ((s.atSlot a).mx a.t).inflight ∧
       t.vec a.t = (s.atSlot a).vec a.t ∧ t.seqr a.t = (s.atSlot a).seqr a.t ∧ SameMemory (s.atSlot a) t ∧
       SameRegsBut (MatrixCounter (s.atSlot a) a.t) (s.atSlot a) t ∧ SameTilesBut a.t.val (s.atSlot a) t) ∧
  (∀ (s : State) (a : MSlot),
     (MatrixIssues .mws a s →
       ∃ t st, exec (.mws a) s = .next t ∧ (t.mx a.t).inflight = ((s.atSlot a).mx a.t).inflight ++ [st] ∧
         st = (s.atSlot a).pkg.makeStream false a ∧ st.rows.length = a.count.toNat ∧ st.issue = a.cyc ∧
         st.asBase = (s.mdesc a).asBase ∧ st.c = streamC (s.mdesc a) a.part.toNat ∧ st.lat = streamF (s.mdesc a) ∧
         (t.mx a.t).pathBusy = a.cyc + a.count.toNat * st.c ∧ (t.mx a.t).acc = ((s.atSlot a).mx a.t).acc ∧
         (t.mx a.t).w0 = ((s.atSlot a).mx a.t).w0 ∧ (t.mx a.t).w1 = ((s.atSlot a).mx a.t).w1 ∧
         t.vec a.t = (s.atSlot a).vec a.t ∧ SameMemory (s.atSlot a) t ∧
         SameRegsBut (MatrixCounter (s.atSlot a) a.t) (s.atSlot a) t ∧ SameTilesBut a.t.val (s.atSlot a) t) ∧
     (MatrixIssues .mwt a s →
       ∃ t st, exec (.mwt a) s = .next t ∧ (t.mx a.t).inflight = ((s.atSlot a).mx a.t).inflight ++ [st] ∧
         st = (s.atSlot a).pkg.makeStream true a ∧ st.rows.length = a.count.toNat ∧ st.issue = a.cyc ∧
         st.asBase = (s.mdesc a).asBase ∧ st.c = streamC (s.mdesc a) a.part.toNat ∧ st.lat = streamF (s.mdesc a) ∧
         (t.mx a.t).pathBusy = a.cyc + a.count.toNat * st.c ∧ (t.mx a.t).acc = ((s.atSlot a).mx a.t).acc ∧
         (t.mx a.t).w0 = ((s.atSlot a).mx a.t).w0 ∧ (t.mx a.t).w1 = ((s.atSlot a).mx a.t).w1 ∧
         t.vec a.t = (s.atSlot a).vec a.t ∧ SameMemory (s.atSlot a) t ∧
         SameRegsBut (MatrixCounter (s.atSlot a) a.t) (s.atSlot a) t ∧ SameTilesBut a.t.val (s.atSlot a) t)) ∧
  (∀ (s : State) (a : MSlot),
     (MatrixIssues .mdr a s →
       ∃ t, exec (.mdr a) s = .next t ∧ t.mx a.t = (s.atSlot a).mx a.t ∧ t.vec a.t = (s.atSlot a).vec a.t ∧
         (512 ≤ (s.mdesc a).stride → (s.mdesc a).src % 16 = 0 → (s.mdesc a).stride % 16 = 0 →
           ∀ i < a.count.toNat, ∀ k < 32,
             t.pkg.sramRead (sramAddr a.t.val ((s.mdesc a).src + i * (s.mdesc a).stride + 16 * k)) =
               ((((s.atSlot a).landed a.t (a.cyc + a.count.toNat - 1)).mx a.t).word ((s.mdesc a).asBase + i) k).packed) ∧
         SameRegsBut (MatrixCounter (s.atSlot a) a.t) (s.atSlot a) t ∧ SameTilesBut a.t.val (s.atSlot a) t ∧
         SameMemoryBut (fun b => ∃ i < a.count.toNat,
           sramAddr a.t.val ((s.mdesc a).src + i * (s.mdesc a).stride) ≤ b ∧
           b < sramAddr a.t.val ((s.mdesc a).src + i * (s.mdesc a).stride) + 512) s t) ∧
     (MatrixIssues .mdv a s →
       ∃ t, exec (.mdv a) s = .next t ∧ ((s.atSlot a).vec a.t).queue <+: (t.vec a.t).queue ∧
         (((s.atSlot a).vec a.t).mdv = [] → ((s.atSlot a).vec a.t).queue.length + a.count.toNat ≤ 32 →
           (t.vec a.t).queue.length = ((s.atSlot a).vec a.t).queue.length + a.count.toNat) ∧
         (t.vec a.t).regs = ((s.atSlot a).vec a.t).regs ∧ t.mx a.t = (s.atSlot a).mx a.t ∧ SameMemory (s.atSlot a) t ∧
         SameRegsBut (fun k => k = (s.atSlot a).pkg.tileCounter O.vectorCounters 3 a.t.val) (s.atSlot a) t ∧
         SameTilesBut a.t.val (s.atSlot a) t) ∧
     (MatrixIssues .mclr a s →
       ∃ t, exec (.mclr a) s = .next t ∧ SameMemory (s.atSlot a) t ∧ SameRegs (s.atSlot a) t ∧
         SameTilesBut a.t.val (s.atSlot a) t ∧ t.vec a.t = (s.atSlot a).vec a.t ∧
         (∀ r e, e < 128 → (t.mx a.t).entry r e =
           if (s.mdesc a).asBase ≤ r ∧ r < (s.mdesc a).asBase + a.count.toNat then AccE.reset
           else ((s.atSlot a).mx a.t).entry r e) ∧
         ∀ r, (t.mx a.t).rows.at AccRow.reset r =
           if (s.mdesc a).asBase ≤ r ∧ r < (s.mdesc a).asBase + a.count.toNat then AccRow.reset
           else ((s.atSlot a).mx a.t).rows.at AccRow.reset r))

/-- In PS0, with nothing holding the bundle: an MNOP with a count makes the array active until its count has passed; an MFLG copies the panel record
into word 15 of its descriptor and clears it. An MWS that an interlock meets is held with event 0x3003. An MDR of count 0 leaves the state that the
slot meets. In PS0: what is left of the oldest stream's results lands, in its own accumulator rows only; a held matrix instruction whose interlock has
ended issues, and the cycles it was held are counted; the scrubber moves to the next word of the weight registers, rewrites a correctable word in
place, and an uncorrectable one poisons its register with event 0x3004. -/
def Obligations.MatrixOtherSlotsAndEvents : Prop :=
  (∀ (s : State) (a : MSlot), s.Runs .data →
     (((s.landed a.t a.cyc).pkg.tile a.t.val).free = true → Instr.wf (.mnop a) = true → a.count ≠ 0 →
       ∃ t, exec (.mnop a) s = .next t ∧
         (t.mx a.t).activeEnd = max ((s.landed a.t a.cyc).mx a.t).activeEnd (a.cyc + a.count.toNat) ∧
         (t.mx a.t).acc = ((s.landed a.t a.cyc).mx a.t).acc ∧ t.vec a.t = s.vec a.t ∧ SameMemory s t ∧
         SameRegsBut (MatrixCounter (s.landed a.t a.cyc) a.t) (s.landed a.t a.cyc) t ∧ SameTilesBut a.t.val s t) ∧
     ((s.pkg.tile a.t.val).free = true → Instr.wf (.mflg a) = true → mdescOk (s.pkg.tile a.t.val).md a.desc.val = true →
       modeOk (s.mdesc a) = true →
       ∃ t, exec (.mflg a) s = .next t ∧
         SMap.at 0 (a.desc.val * 16 + 15) (t.pkg.tile a.t.val).md = ((s.landed a.t (a.cyc - 1)).mx a.t).panel.toWord ∧
         (∀ w, w ≠ a.desc.val * 16 + 15 → SMap.at 0 w (t.pkg.tile a.t.val).md = SMap.at 0 w (s.pkg.tile a.t.val).md) ∧
         (t.mx a.t).panel = PanelRec.reset ∧ (t.mx a.t).acc = ((s.landed a.t (a.cyc - 1)).mx a.t).acc ∧ t.vec a.t = s.vec a.t ∧
         SameMemory s t ∧ SameRegsBut (fun k => k = O.panelFlagSets + a.t.val) (s.landed a.t (a.cyc - 1)) t ∧
         SameTilesBut a.t.val s t) ∧
     (MatrixAccepted .mws a s → MatrixFree a (s.atSlot a) → interlocked ((s.atSlot a).mx a.t) .mws a (s.mdesc a) = true →
       ∃ t, exec (.mws a) s = .next t ∧ (t.mx a.t).held = some (.mws, a) ∧ RaisedLast t 0x3003 ∧
         (t.mx a.t).inflight = ((s.atSlot a).mx a.t).inflight ∧ SameMemory (s.atSlot a) t ∧ SameRegs (s.atSlot a) t) ∧
     (MatrixAccepted .mdr a s → a.count = 0 → Does (.mdr a) s (s.atSlot a).pkg)) ∧
  ((∀ (s : State) (n : TileNo) (st : Stream) (rest : List Stream), s.Runs .data → (s.mx n).inflight = st :: rest →
     ∃ t, exec (.streamResultWrite n) s = .next t ∧ (t.mx n).inflight = rest ∧ (t.mx n).w0 = (s.mx n).w0 ∧ (t.mx n).w1 = (s.mx n).w1 ∧
       (∀ r e, e < 128 → (r < st.asBase ∨ st.asBase + st.accRows ≤ r) → (t.mx n).entry r e = (s.mx n).entry r e) ∧
       t.vec n = s.vec n ∧ SameMemory s t ∧ SameRegsBut (fun k => k = O.int32Saturations + n.val) s t ∧ SameTilesBut n.val s t) ∧
   (∀ (s : State) (n : TileNo) (cyc : Nat) (op : MOp) (a : MSlot), s.Runs .data →
     ((s.landed n cyc).mx n).held = some (op, a) → a.cyc ≤ cyc →
     interlocked ((s.landed n cyc).mx n) op { a with cyc := cyc } (Sys2Proof.Machine.mdesc (s.pkg.tile n.val).md a.desc.val) = false →
     Does (.matrixInterlockRelease n cyc) s
       (issueM (((s.landed n cyc).pkg.bump64 ((s.landed n cyc).pkg.tileCounter O.tileCounters 3 n.val) (cyc - a.cyc)).setMx n.val
         { (s.landed n cyc).mx n with held := none }) op { a with cyc := cyc })) ∧
   ∀ (s : State) (n : TileNo), s.Runs .data →
     ∃ t, exec (.weightRegisterScrub n) s = .next t ∧ (t.mx n).scrub = ((s.mx n).scrub % 4096 + 1) % 4096 ∧
       (t.mx n).acc = (s.mx n).acc ∧ (t.mx n).inflight = (s.mx n).inflight ∧ t.vec n = s.vec n ∧ SameMemory s t ∧
       SameRegsBut (fun k => k = O.scrubCorrections + s.pkg.physTile n.val) s t ∧ SameTilesBut n.val s t ∧
       (t.mx n).wreg (!decide (2048 ≤ (s.mx n).scrub % 4096)) = (s.mx n).wreg (!decide (2048 ≤ (s.mx n).scrub % 4096)) ∧
       ∀ k ∈ [(s.mx n).scrub % 4096 % 2048, 2048 + (s.mx n).scrub % 4096 % 2048],
         (∀ w y, checkWord (((s.mx n).wreg (decide (2048 ≤ (s.mx n).scrub % 4096))).cells.at zeroWord k) = .corrected w y →
           ((t.mx n).wreg (decide (2048 ≤ (s.mx n).scrub % 4096))).cells.at zeroWord k = w) ∧
         (checkWord (((s.mx n).wreg (decide (2048 ≤ (s.mx n).scrub % 4096))).cells.at zeroWord k) = .bad →
           ((t.mx n).wreg (decide (2048 ≤ (s.mx n).scrub % 4096))).poison = true ∧ RaisedEver t 0x3004 ∧
             (t.pkg.tile n.val).stepPoison = true))

/-- While the writer's plane runs, bist_owner of a die takes a claim where it holds 0, takes 0, and refuses another claim by a path with the owner
abort and event 0x3006. A diagnostic request for a standby or retired tile while it holds 3 sets the tile under test. The end of a run sets each
failed tile that was under test, or that ran at start-up, to retired; one under test that passed goes back to the state it had; owners 1 and 2 give
way to 0, and 3 stays. While the control plane runs, a read inside the windows of the 192 tiles delivers the words that hold its bytes and changes
nothing else; a write there leaves every byte outside the words it meets, and a whole aligned word reads back; a write inside the reserved windows
changes no byte and no object. -/
def Obligations.SelfTestAndTileWindow : Prop :=
  ((∀ (s : State) (w : Writer) (d : DieNo) (v : Nat), s.Runs (writerPlane w) → v ≤ 3 →
     (s.pkg.reg (O.bistOwner + d.val) = 0 ∨ v = 0) →
     Does (.bistOwnerWrite w d v) s (s.pkg.setReg (O.bistOwner + d.val) v)) ∧
   (∀ (s : State) (pt : Path) (d : DieNo) (v : Nat), s.Runs (pathPlane pt) → v ≤ 3 → v ≠ 0 →
     s.pkg.reg (O.bistOwner + d.val) ≠ 0 → s.pkg.reg (O.bistOwner + d.val) ≠ v →
     Does (.bistOwnerWrite (.path pt) d v) s ((s.pkg.refuse pt (O.bistOwner + d.val) abOwner).raise 0x3006 d.val v)) ∧
   (∀ (s : State) (pt : Path) (d : DieNo) (v : Nat), s.Runs (pathPlane pt) → v ≤ 51 → s.pkg.reg (O.bistOwner + d.val) = 3 →
     (s.pkg.reg (O.tileState + (d.val * 52 + v)) = 1 ∨ s.pkg.reg (O.tileState + (d.val * 52 + v)) = 3) →
     ∃ t, exec (.bistRequest pt d v) s = .next t ∧ t.pkg.reg (O.tileState + (d.val * 52 + v)) = 2 ∧
       t.pkg.testPrev.at 0 (d.val * 52 + v) = s.pkg.reg (O.tileState + (d.val * 52 + v)) ∧ SameMemory s t ∧
       SameRegsBut (fun k => k = O.tileState + (d.val * 52 + v)) s t ∧ t.pkg.tiles = s.pkg.tiles) ∧
   ∀ (s : State) (d : DieNo) (failed : List (Fin 52)), s.Runs .control → s.pkg.reg (O.bistOwner + d.val) ≠ 0 →
     ∃ t, exec (.bistComplete d failed) s = .next t ∧
       t.pkg.reg (O.bistOwner + d.val) =
         (if s.pkg.reg (O.bistOwner + d.val) = 3 then 3 else 0) ∧ SameMemory s t ∧
       ∀ q : Fin 52,
         (q ∈ failed → s.pkg.reg (O.bistOwner + d.val) = 1 ∨ s.pkg.reg (O.tileState + (d.val * 52 + q.val)) = 2 →
           t.pkg.reg (O.tileState + (d.val * 52 + q.val)) = 3) ∧
         (q ∉ failed → s.pkg.reg (O.tileState + (d.val * 52 + q.val)) = 2 →
           t.pkg.reg (O.tileState + (d.val * 52 + q.val)) = s.pkg.testPrev.at 0 (d.val * 52 + q.val))) ∧
  ((∀ (s : State) (a n : Nat), s.Runs .control → 1 ≤ n → tileBase ≤ a → a + n ≤ tileBase + 192 * tileSize →
     ∃ t ws, exec (.tileSramWindowAccess (.read a n)) s = .next t ∧ ws.length = ceilDiv (a % 16 + n) 16 ∧
       t.pkg = s.pkg.emit (.readData ws) ∧ ∀ i < ws.length, ws[i]? = some (s.pkg.sramRead (a / 16 * 16 + 16 * i))) ∧
   (∀ (s : State) (a : Nat) (l : List Byte), s.Runs .control → tileBase ≤ a → a + l.length ≤ tileBase + 192 * tileSize →
     ∃ t, exec (.tileSramWindowAccess (.write a l)) s = .next t ∧ (s.MemoryCanonical → t.MemoryCanonical) ∧ SameRegs s t ∧
       t.pkg.tiles = s.pkg.tiles ∧ (a % 16 = 0 → l.length = 16 → t.pkg.sramRead a = some (BitVec.ofNat 128 (leNat l))) ∧
       SameMemoryBut (fun b => a / 16 * 16 ≤ b ∧ b < a / 16 * 16 + 16 * ceilDiv (a % 16 + l.length) 16) s t) ∧
   ∀ (s : State) (a : Nat) (l : List Byte), s.Runs .control → tileBase + 192 * tileSize ≤ a → a + l.length ≤ controlBase →
     ∃ t, exec (.tileSramWindowAccess (.write a l)) s = .next t ∧ SameMemory s t ∧ SameRegs s t ∧ t.pkg.tiles = s.pkg.tiles)

/-! ## The vector engine -/

/-- A vector register that has been written reads back: its poisoned words as poison, each lane of its other words as written; every other register
reads as before. VADD, VSUB, VMUL, VFMA, VMAX, VMIN, VABS, VNEG, VRCP, VSQRT, VRSQ, VEXP2, VLOG2, VEXP, VTANH, VSIGM, VSINP, VCOSP, VIADD, VAND, VOR,
VXOR, VSHL, VSHR, VCVTI and VCVTF, the forms of laneForm: such a command that issues, on registers without poison, writes f of its sources' lanes to
the active lanes of vd; an inactive lane keeps its value, or takes +0 with mz; vd can be read the latency later. The other registers as read, masks,
contexts, pointers, drain queue and record, the matrix array, the sequencer, the other tiles and memory are those of the state that the slot meets,
and so is every object but the busy counter. The forms, operations and latencies are those of laneForm. -/
def Obligations.VectorLanes : Prop :=
  (∀ (v : VecEng) (r : Nat) (x : VVal), r < 32 → x.lanes.length = 64 → x.poison.length = 16 →
     ((v.write r x).read r).poison = x.poison ∧
       (∀ l < 64, x.poison.getD (l / 4) false = false → ((v.write r x).read r).lanes.getD l 0 = x.lanes.getD l 0) ∧
       ∀ k, k ≠ r → (v.write r x).read k = v.read k) ∧
  (∀ (s : State) (i : Instr) (a : VRegForm) (n : Nat) (f : W32 → W32 → W32 → W32) (lat : Nat),
     laneForm i = some (a, n, f, lat) → i.wf = true → VectorIssues i a.t a.cyc s →
     (∀ r : Fin 32, ((s.vec a.t).read r.val).poison = List.replicate 16 false) →
     ∃ t, exec i s = .next t ∧
       (∀ l < 64, ((t.vec a.t).read a.vd.val).lanes.getD l 0 =
         if laneOn ((s.vec a.t).mask a.msk.val) l then
           f (((s.vec a.t).read a.va.val).lanes.getD l 0) (if 2 ≤ n then ((s.vec a.t).read a.vb.val).lanes.getD l 0 else 0)
             (if 3 ≤ n then ((s.vec a.t).read a.vc.val).lanes.getD l 0 else 0)
         else if a.mz then 0 else ((s.vec a.t).read a.vd.val).lanes.getD l 0) ∧
       (∀ r : Fin 32, r ≠ a.vd → (t.vec a.t).read r.val = (s.vec a.t).read r.val) ∧
       (t.vec a.t).ready.at 0 a.vd.val = a.cyc + lat ∧ (t.vec a.t).masks = (s.vec a.t).masks ∧ (t.vec a.t).ctx = (s.vec a.t).ctx ∧
       (t.vec a.t).ptrs = (s.vec a.t).ptrs ∧ (t.vec a.t).queue = ((s.atVec a.t a.cyc).vec a.t).queue ∧
       (t.vec a.t).record = (s.vec a.t).record ∧ t.mx a.t = s.mx a.t ∧ t.seqr a.t = s.seqr a.t ∧
       SameMemory s t ∧ SameTilesBut a.t.val s t ∧
       SameRegsBut (fun k => k = s.pkg.tileCounter O.vectorCounters 0 a.t.val) (s.atVec a.t a.cyc) t)

/-- VSEL, VPERM, VCMP, VMAND, VMOR and VMNOT that issue, on registers without poison: VSEL writes every lane, an active lane of VPERM takes the lane
of va that its lane of vb names, and VCMP and the mask commands write their mask, 0 in inactive lanes. Other masks or registers, memory and the other
tiles stay. -/
def Obligations.VectorSelectAndMaskCommands : Prop :=
  (∀ (s : State) (a : VRegForm), Instr.wf (.vsel a) = true → VectorIssues (.vsel a) a.t a.cyc s →
    (∀ r : Fin 32, ((s.vec a.t).read r.val).poison = List.replicate 16 false) →
    ∃ t, exec (.vsel a) s = .next t ∧ (∀ l < 64, ((t.vec a.t).read a.vd.val).lanes.getD l 0 =
        if laneOn ((s.vec a.t).mask a.msk.val) l then ((s.vec a.t).read a.va.val).lanes.getD l 0
        else ((s.vec a.t).read a.vb.val).lanes.getD l 0) ∧
      (∀ r : Fin 32, r ≠ a.vd → (t.vec a.t).read r.val = (s.vec a.t).read r.val) ∧
      (t.vec a.t).masks = (s.vec a.t).masks ∧ SameMemory s t ∧ SameTilesBut a.t.val s t) ∧
  (∀ (s : State) (a : VRegForm), Instr.wf (.vperm a) = true → VectorIssues (.vperm a) a.t a.cyc s →
    (∀ r : Fin 32, ((s.vec a.t).read r.val).poison = List.replicate 16 false) →
    ∃ t, exec (.vperm a) s = .next t ∧ (∀ l < 64, laneOn ((s.vec a.t).mask a.msk.val) l = true →
        ((t.vec a.t).read a.vd.val).lanes.getD l 0 =
          ((s.vec a.t).read a.va.val).lanes.getD ((((s.vec a.t).read a.vb.val).lanes.getD l 0).toNat % 64) 0) ∧
      (∀ r : Fin 32, r ≠ a.vd → (t.vec a.t).read r.val = (s.vec a.t).read r.val) ∧
      (t.vec a.t).masks = (s.vec a.t).masks ∧ SameMemory s t ∧ SameTilesBut a.t.val s t) ∧
  (∀ (s : State) (a : VCmpForm), Instr.wf (.vcmp a) = true → VectorIssues (.vcmp a) a.t a.cyc s →
    (∀ r : Fin 32, ((s.vec a.t).read r.val).poison = List.replicate 16 false) →
    ∃ t, exec (.vcmp a) s = .next t ∧ (∀ l < 64, laneOn ((t.vec a.t).mask a.md.val) l =
        (laneOn ((s.vec a.t).mask a.msk.val) l && vCond a.cond.toNat (((s.vec a.t).read a.va.val).lanes.getD l 0)
          (((s.vec a.t).read a.vb.val).lanes.getD l 0))) ∧
      (∀ k : Fin 8, k ≠ a.md → (t.vec a.t).mask k.val = (s.vec a.t).mask k.val) ∧
      (∀ r : Fin 32, (t.vec a.t).read r.val = (s.vec a.t).read r.val) ∧ SameMemory s t ∧ SameTilesBut a.t.val s t) ∧
  ∀ (s : State) (a : VMaskForm),
    (Instr.wf (.vmand a) = true → VectorIssues (.vmand a) a.t a.cyc s →
      ∃ t, exec (.vmand a) s = .next t ∧ (t.vec a.t).mask a.md.val =
        ((s.vec a.t).mask a.ma.val &&& (s.vec a.t).mask a.mb.val) &&& (s.vec a.t).mask a.msk.val ∧
        (t.vec a.t).regs = (s.vec a.t).regs ∧ SameMemory s t ∧ SameTilesBut a.t.val s t) ∧
    (Instr.wf (.vmor a) = true → VectorIssues (.vmor a) a.t a.cyc s →
      ∃ t, exec (.vmor a) s = .next t ∧ (t.vec a.t).mask a.md.val =
        ((s.vec a.t).mask a.ma.val ||| (s.vec a.t).mask a.mb.val) &&& (s.vec a.t).mask a.msk.val ∧
        (t.vec a.t).regs = (s.vec a.t).regs ∧ SameMemory s t ∧ SameTilesBut a.t.val s t) ∧
    (Instr.wf (.vmnot a) = true → VectorIssues (.vmnot a) a.t a.cyc s →
      ∃ t, exec (.vmnot a) s = .next t ∧ (t.vec a.t).mask a.md.val =
        ~~~((s.vec a.t).mask a.ma.val) &&& (s.vec a.t).mask a.msk.val ∧
        (t.vec a.t).regs = (s.vec a.t).regs ∧ SameMemory s t ∧ SameTilesBut a.t.val s t)

/-- The memory forms that issue within their limits. VLD: an active lane takes its element where neither the elements read nor the old value hold
poison, and the pointers advance. VST: no byte changes but the 256 from its address; with every lane active, no poison and an aligned address they
hold the register. VNST: no byte changes but its codes and the two words around its scale group. VLDQ: half a row leaves the drain queue, and an empty
queue holds the command with event 0x3602. VRST: the pointers go back to the base. -/
def Obligations.VectorMemoryCommands : Prop :=
  ∀ (s : State) (a : VMemForm),
    (Instr.wf (.vld a) = true → VectorIssues (.vld a) a.t a.cyc s →
      memLimits s.pkg a (fun x => 8 * fmtWidth x.fmt) false true = true →
      ∃ t, exec (.vld a) s = .next t ∧ SameMemory s t ∧ SameTilesBut a.t.val s t ∧
        (((s.vec a.t).read a.v.val).poison = List.replicate 16 false →
          (s.pkg.vLoad a.t.val (vdesc (s.pkg.tile a.t.val).vd a.vdesc.val)
            (ptrAddr (vdesc (s.pkg.tile a.t.val).vd a.vdesc.val) ((s.vec a.t).ptr a.vdesc.val) 0).toNat
            (ptrScale (vdesc (s.pkg.tile a.t.val).vd a.vdesc.val) ((s.vec a.t).ptr a.vdesc.val) 0).toNat).poison =
            List.replicate 16 false →
          ∀ l < 64, laneOn ((s.vec a.t).mask a.msk.val) l = true → ((t.vec a.t).read a.v.val).lanes.getD l 0 =
            (s.pkg.vLoad a.t.val (vdesc (s.pkg.tile a.t.val).vd a.vdesc.val)
              (ptrAddr (vdesc (s.pkg.tile a.t.val).vd a.vdesc.val) ((s.vec a.t).ptr a.vdesc.val) 0).toNat
              (ptrScale (vdesc (s.pkg.tile a.t.val).vd a.vdesc.val) ((s.vec a.t).ptr a.vdesc.val) 0).toNat).lanes.getD l 0) ∧
        (t.vec a.t).ptrs = ((s.vec a.t).advance a.vdesc.val (vdesc (s.pkg.tile a.t.val).vd a.vdesc.val)).ptrs ∧
        (t.vec a.t).ready.at 0 a.v.val = a.cyc + 8 ∧ (∀ r : Fin 32, r ≠ a.v → (t.vec a.t).read r.val = (s.vec a.t).read r.val)) ∧
    (Instr.wf (.vst a) = true → VectorIssues (.vst a) a.t a.cyc s → memLimits s.pkg a (fun _ => 256) false false = true →
      ∃ t, exec (.vst a) s = .next t ∧ SameTilesBut a.t.val s t ∧
        (t.vec a.t).ptrs = ((s.vec a.t).advance a.vdesc.val (vdesc (s.pkg.tile a.t.val).vd a.vdesc.val)).ptrs ∧
        ((s.vec a.t).mask a.msk.val = BitVec.allOnes 64 → ((s.vec a.t).read a.v.val).poison = List.replicate 16 false →
          (ptrAddr (vdesc (s.pkg.tile a.t.val).vd a.vdesc.val) ((s.vec a.t).ptr a.vdesc.val) 0).toNat % 16 = 0 →
          ∀ q < 16, t.pkg.sramRead (sramAddr a.t.val
            ((ptrAddr (vdesc (s.pkg.tile a.t.val).vd a.vdesc.val) ((s.vec a.t).ptr a.vdesc.val) 0).toNat + 16 * q)) =
            ((s.vec a.t).read a.v.val).word q) ∧
        SameMemoryBut (fun b =>
          sramAddr a.t.val (ptrAddr (vdesc (s.pkg.tile a.t.val).vd a.vdesc.val) ((s.vec a.t).ptr a.vdesc.val) 0).toNat ≤ b ∧
          b < sramAddr a.t.val (ptrAddr (vdesc (s.pkg.tile a.t.val).vd a.vdesc.val) ((s.vec a.t).ptr a.vdesc.val) 0).toNat + 256) s t) ∧
    (Instr.wf (.vnst a) = true → VectorIssues (.vnst a) a.t a.cyc s →
      memLimits s.pkg a (fun x => packedBytes x.fmt 128) true false = true →
      ∃ t, exec (.vnst a) s = .next t ∧ SameTilesBut a.t.val s t ∧
        (t.vec a.t).ptrs = ((s.vec a.t).advance a.vdesc.val (vdesc (s.pkg.tile a.t.val).vd a.vdesc.val)).ptrs ∧
        SameMemoryBut (fun b =>
          (sramAddr a.t.val (ptrAddr (vdesc (s.pkg.tile a.t.val).vd a.vdesc.val) ((s.vec a.t).ptr a.vdesc.val) 0).toNat ≤ b ∧
            b < sramAddr a.t.val (ptrAddr (vdesc (s.pkg.tile a.t.val).vd a.vdesc.val) ((s.vec a.t).ptr a.vdesc.val) 0).toNat +
              packedBytes (vdesc (s.pkg.tile a.t.val).vd a.vdesc.val).fmt 128) ∨
          (sramAddr a.t.val ((vdesc (s.pkg.tile a.t.val).vd a.vdesc.val).scaleBase +
              (ptrScale (vdesc (s.pkg.tile a.t.val).vd a.vdesc.val) ((s.vec a.t).ptr a.vdesc.val) 0).toNat / 4 * 3) / 16 * 16 ≤ b ∧
            b < sramAddr a.t.val ((vdesc (s.pkg.tile a.t.val).vd a.vdesc.val).scaleBase +
              (ptrScale (vdesc (s.pkg.tile a.t.val).vd a.vdesc.val) ((s.vec a.t).ptr a.vdesc.val) 0).toNat / 4 * 3) / 16 * 16 + 32)) s t) ∧
    (Instr.wf (.vldq a) = true → VectorIssues (.vldq a) a.t a.cyc s → (s.vec a.t).mdv = [] →
      ∀ l v, (s.vec a.t).pop a.cyc = some (l, v) →
      ∃ t, exec (.vldq a) s = .next t ∧ (t.vec a.t).queue = v.queue ∧ (t.vec a.t).half = v.half ∧
        (t.vec a.t).ready.at 0 a.v.val = a.cyc + 2 ∧
        (∀ r : Fin 32, r ≠ a.v → (t.vec a.t).read r.val = (s.vec a.t).read r.val) ∧ SameMemory s t ∧ SameTilesBut a.t.val s t) ∧
    (Instr.wf (.vldq a) = true → VectorIssues (.vldq a) a.t a.cyc s → ((s.atVec a.t a.cyc).vec a.t).pop a.cyc = none →
      ∃ t, exec (.vldq a) s = .next t ∧ RaisedLast t 0x3602 ∧ (t.vec a.t).held = some (.drain (.vldq a) a.cyc) ∧
        (t.vec a.t).regs = (s.vec a.t).regs ∧ SameMemory s t) ∧
    (Instr.wf (.vrst a) = true → VectorIssues (.vrst a) a.t a.cyc s →
      ∃ t, exec (.vrst a) s = .next t ∧ (t.vec a.t).ptr a.vdesc.val = VPtr.reset ∧
        (∀ d, d ≠ a.vdesc.val → (t.vec a.t).ptr d = (s.vec a.t).ptr d) ∧ (t.vec a.t).regs = (s.vec a.t).regs ∧ SameMemory s t ∧
        SameTilesBut a.t.val s t)

/-- VRED, VRGET and VFLG that issue. VRED accumulates into its own context only. VRGET, of a context without poison, writes the context's fold to
every lane of vd, readable 68 cycles later, and clears the context. VFLG puts the record of the writes that landed before its cycle into lane 0 where
lane 0 is active, and clears the record. Memory and the other tiles stay. -/
def Obligations.VectorReductionCommands : Prop :=
  (∀ (s : State) (a : VRedForm), Instr.wf (.vred a) = true → VectorIssues (.vred a) a.t a.cyc s →
    ((s.vec a.t).context a.rc.val).rop = none ∨ ((s.vec a.t).context a.rc.val).rop = some a.rop.toNat →
    ∃ t, exec (.vred a) s = .next t ∧ (t.vec a.t).context a.rc.val =
        ((s.vec a.t).context a.rc.val).accumulate a.rop.toNat ((s.vec a.t).read a.va.val)
          (if a.rop = 1 then (s.vec a.t).read a.vb.val else ⟨[], []⟩) ((s.vec a.t).mask a.msk.val) ∧
      (∀ c : Fin 4, c ≠ a.rc → (t.vec a.t).context c.val = (s.vec a.t).context c.val) ∧
      (∀ r : Fin 32, (t.vec a.t).read r.val = (s.vec a.t).read r.val) ∧ SameMemory s t ∧ SameTilesBut a.t.val s t) ∧
  (∀ (s : State) (a : VFoldForm), VectorIssues (.vrget a) a.t a.cyc s → ((s.vec a.t).context a.rc.val).poison = false →
    ∃ t, exec (.vrget a) s = .next t ∧ (t.vec a.t).context a.rc.val = Ctx.reset ∧
      (∀ l < 64, ((t.vec a.t).read a.vd.val).lanes.getD l 0 = ((s.vec a.t).context a.rc.val).fold) ∧
      (t.vec a.t).foldEnd = a.cyc + 68 ∧ (t.vec a.t).ready.at 0 a.vd.val = a.cyc + 68 ∧
      (∀ r : Fin 32, r ≠ a.vd → (t.vec a.t).read r.val = (s.vec a.t).read r.val) ∧ SameMemory s t ∧ SameTilesBut a.t.val s t) ∧
  ∀ (s : State) (a : VFlgForm), VectorIssues (.vflg a) a.t a.cyc s →
    ∃ t, exec (.vflg a) s = .next t ∧ (t.vec a.t).record = VecRec.reset ∧ (t.vec a.t).ready.at 0 a.vd.val = a.cyc + 2 ∧
      (laneOn ((s.vec a.t).mask a.msk.val) 0 = true →
        ((t.vec a.t).read a.vd.val).lanes.getD 0 0 = ((s.vec a.t).settleRec a.cyc).record.lanes.getD 0 0) ∧
      (∀ r : Fin 32, r ≠ a.vd → (t.vec a.t).read r.val = (s.vec a.t).read r.val) ∧ SameMemory s t ∧ SameTilesBut a.t.val s t

/-- In PS0: a VNOP of a bundle that nothing holds ends its bundle's vector slot. A VADD that an interlock meets is held with event 0x3601, and a held
vector command whose interlock has ended issues, its held cycles counted. A VPHR that issues with a count and stages puts its phrase in the engine. A
phrase ends once its last store has landed, its cycles counted. A VLDQ held on an empty drain queue takes half a row that has arrived. -/
def Obligations.VectorIssueAndRelease : Prop :=
  (∀ (s : State) (n : TileNo), s.Runs .data → (s.pkg.tile n.val).free = true →
    ∃ t, exec (.vnop n) s = .next t ∧ t.vec n = { s.vec n with bundle := none } ∧ t.mx n = s.mx n ∧ t.seqr n = s.seqr n ∧
      SameMemory s t ∧ SameRegs s t ∧ SameTilesBut n.val s t) ∧
  (∀ (s : State) (a : VRegForm), s.Runs .data → Instr.wf (.vadd a) = true → ((s.atVec a.t a.cyc).pkg.tile a.t.val).free = true →
    vMustHold ((s.atVec a.t a.cyc).pkg.tile a.t.val) a.cyc (.vadd a) = true →
    Does (.vadd a) s (((s.atVec a.t a.cyc).pkg.setVec a.t.val
      { (s.atVec a.t a.cyc).vec a.t with held := some (.instr (.vadd a) a.cyc) }).raise 0x3601 a.t.val 0)) ∧
  (∀ (s : State) (n : TileNo) (cyc since : Nat) (i : Instr), s.Runs .data → (s.vec n).held = some (.instr i since) → since ≤ cyc →
    vMustHold (s.pkg.tile n.val) cyc i = false →
    Does (.vectorInterlockRelease n cyc) s
      (issueV ((s.pkg.setVec n.val { s.vec n with held := none }).bump64 (s.pkg.tileCounter O.vectorCounters 2 n.val) (cyc - since))
        i n.val cyc)) ∧
  (∀ (s : State) (a : VPhrForm), Instr.wf (.vphr a) = true → phraseOk (s.pkg.tile a.t.val).pd a.phrase.val = true → a.count ≠ 0 →
    phraseStages (s.pkg.tile a.t.val).pd a.phrase.val ≠ 0 →
    phraseLimits s.pkg a.t.val a.phrase.val a.count.toNat = true → VectorIssues (.vphr a) a.t a.cyc s →
    ∃ t r, exec (.vphr a) s = .next t ∧ (t.vec a.t).phrase = some r ∧ r.desc = a.phrase.val ∧ r.count = a.count.toNat ∧
      r.issue = a.cyc ∧ t.mx a.t = s.mx a.t ∧ t.seqr a.t = s.seqr a.t ∧ SameTilesBut a.t.val s t) ∧
  (∀ (s : State) (n : TileNo) (cyc : Nat) (r : PhraseRun), s.Runs .data → (s.vec n).phrase = some r → r.count ≤ r.iter →
    phraseEnd (s.pkg.tile n.val) r ≤ cyc →
    ∃ t, exec (.phraseEnd n cyc) s = .next t ∧ (t.vec n).phrase = none ∧ (t.vec n).regs = (s.vec n).regs ∧ SameMemory s t ∧
      t.pkg.reg (s.pkg.tileCounter O.vectorCounters 1 n.val) =
        (s.pkg.reg (s.pkg.tileCounter O.vectorCounters 1 n.val) + (phraseEnd (s.pkg.tile n.val) r - r.issue)) % 2 ^ 64 ∧
      SameTilesBut n.val s t ∧ SameRegsBut (fun k => k = s.pkg.tileCounter O.vectorCounters 1 n.val) s t) ∧
  ∀ (s : State) (n : TileNo) (cyc since : Nat) (a : VMemForm) (l : List AccWord) (v : VecEng), s.Runs .data → a.t = n →
    (s.vec n).mdv = [] → (s.vec n).phrase = none → (s.vec n).held = some (.drain (.vldq a) since) → since ≤ cyc →
    (s.vec n).pop cyc = some (l, v) →
    ∃ t, exec (.drainQueueHoldRelease n cyc) s = .next t ∧ (t.vec n).held = none ∧ (t.vec n).queue = v.queue ∧
      (t.vec n).ready.at 0 a.v.val = cyc + 2 ∧ SameMemory s t ∧ SameTilesBut n.val s t

/-! ## The control slot, the sequencer and the move slot -/

/-- A control command in PS0, of a bundle that nothing holds: CNOP and a CWAIT whose beat is reached go on to the next bundle; another CWAIT holds; a
CARR takes its credits or holds; a CLOOP opens its loop, or with no iterations goes past the matching CNEXT; a CNEXT of the loop opened last goes back
to its body or closes it. Memory, the dictionary and the other tiles stay. -/
def Obligations.ControlSlotCommands : Prop :=
  ∀ (s : State) (n : TileNo), s.Runs .data → (s.pkg.tile n.val).free = true →
    (∃ t, exec (.cnop n) s = .next t ∧ (t.seqr n).pc = nextPc (s.seqr n) ∧ (t.seqr n).hold = none ∧
      (t.seqr n).loops = (s.seqr n).loops ∧ SameMemory s t ∧ SameRegs s t ∧ SameTilesBut n.val s t) ∧
    (∀ target, s.pkg.reached ((s.seqr n).startBeat + target.toNat) = true →
      ∃ t, exec (.cwait n target) s = .next t ∧ (t.seqr n).pc = nextPc (s.seqr n) ∧ (t.seqr n).hold = none ∧ SameMemory s t ∧
        SameRegs s t ∧ SameTilesBut n.val s t) ∧
    (∀ target, s.pkg.reached ((s.seqr n).startBeat + target.toNat) = false →
      ∃ t, exec (.cwait n target) s = .next t ∧ (t.seqr n).pc = (s.seqr n).pc ∧
        (t.seqr n).hold = some (.cwait ((s.seqr n).startBeat + target.toNat) (s.pkg.reg O.domainBeat)) ∧ SameMemory s t ∧
        SameRegs s t ∧ SameTilesBut n.val s t) ∧
    (∀ (w : Fin 16) slack count, count ≠ 0xFFFF → count.toNat ≤ (s.pkg.tile n.val).win.at 0 w.val →
      ∃ t, exec (.carr n w slack count) s = .next t ∧ (t.seqr n).pc = nextPc (s.seqr n) ∧ (t.seqr n).hold = none ∧
        (t.pkg.tile n.val).win.at 0 w.val = (s.pkg.tile n.val).win.at 0 w.val - count.toNat ∧
        (∀ v, v ≠ w.val → (t.pkg.tile n.val).win.at 0 v = (s.pkg.tile n.val).win.at 0 v) ∧ SameMemory s t ∧ SameRegs s t ∧
        SameTilesBut n.val s t) ∧
    (∀ (w : Fin 16) slack count, count ≠ 0xFFFF → (s.pkg.tile n.val).win.at 0 w.val < count.toNat →
      ∃ t, exec (.carr n w slack count) s = .next t ∧ (t.seqr n).pc = (s.seqr n).pc ∧
        (t.seqr n).hold = some (.carr w.val slack.toNat count.toNat (s.pkg.reg O.domainBeat)) ∧
        (t.pkg.tile n.val).win = (s.pkg.tile n.val).win ∧ SameMemory s t ∧ SameRegs s t ∧ SameTilesBut n.val s t) ∧
    (∀ (lc : Fin 4) (k : BitVec 16), k ≠ 0xFFFF → k ≠ 0 → (s.seqr n).loops.any (fun l => decide (l.lc = lc.val)) = false →
      ∃ t, exec (.cloop n lc k) s = .next t ∧ (t.seqr n).loops = ⟨lc.val, (s.seqr n).pc + 1, k.toNat⟩ :: (s.seqr n).loops ∧
        (t.seqr n).pc = nextPc (s.seqr n) ∧ SameMemory s t ∧ SameRegs s t ∧ SameTilesBut n.val s t) ∧
    (∀ (lc : Fin 4), (s.seqr n).loops.any (fun l => decide (l.lc = lc.val)) = false → (s.seqr n).running = true →
      ∃ t, exec (.cloop n lc 0) s = .next t ∧ (t.seqr n).loops = (s.seqr n).loops ∧
        (t.seqr n).pc = (s.pkg.tile n.val).matchingNext lc.val ((s.pkg.tile n.val).nBundles - (s.seqr n).pc - 1) ((s.seqr n).pc + 1) + 1 ∧
        SameMemory s t ∧ SameRegs s t ∧ SameTilesBut n.val s t) ∧
    (∀ (lc : Fin 4) (l : LoopSt) (r : List LoopSt), (s.seqr n).loops = l :: r → l.lc = lc.val → (s.seqr n).running = true →
      ∃ t, exec (.cnext n lc) s = .next t ∧
        (t.seqr n).loops = (if 1 < l.left then { l with left := l.left - 1 } :: r else r) ∧
        (t.seqr n).pc = (if 1 < l.left then l.body else (s.seqr n).pc + 1) ∧ SameMemory s t ∧ SameRegs s t ∧ SameTilesBut n.val s t)

/-- In PS0, with nothing holding the bundle: a CVOTE counts one vote of the step and goes on, and where the tile met poison, or the panel record it
reads has its flag, the package has a report of its own; a CEND ends the clause, its loops and its waits for a start, and the first start that waits
follows in the next cycle. In PS0: a bundle held by a CWAIT, a CARR or an XPUB goes on once its beat, its credits or its acknowledgements are there; a
sentence due at this beat starts its clause on a tile that runs none, and joins the starts that wait where one runs; the scrubber rewrites a
correctable bundle, and a refetch whose read gives a word puts that word back and ends its hold. -/
def Obligations.SequencerAndVotes : Prop :=
  (∀ (s : State) (n : TileNo), s.Runs .data → (s.pkg.tile n.val).free = true →
     (∀ (d : Fin 64) (v : Fin 32) (src : BitVec 2), src ≠ 0 →
       ∃ t, exec (.cvote n d v src) s = .next t ∧ t.pkg.stepc.cvotes = s.pkg.stepc.cvotes + 1 ∧ (t.seqr n).pc = nextPc (s.seqr n) ∧
         ((s.pkg.tile n.val).stepPoison = true → t.pkg.stepc.own.isSome) ∧
         (src.getLsbD 0 = true → bitOf (descWord (s.pkg.tile n.val).md d.val 15) 31 = true → t.pkg.stepc.own.isSome) ∧
         SameMemory s t ∧ SameRegs s t ∧ SameTilesBut n.val s t) ∧
     (∀ cyc, (s.seqr n).running = true → (s.seqr n).starts = [] →
       ∃ t, exec (.cend n cyc) s = .next t ∧ (t.seqr n).running = false ∧ (t.seqr n).loops = [] ∧ (t.seqr n).endCyc = cyc + 1 ∧
         SameMemory s t ∧ SameRegs s t ∧ SameTilesBut n.val s t) ∧
     (∀ cyc k b r, (s.seqr n).running = true → (s.seqr n).starts = (k, b) :: r →
       Does (.cend n cyc) s (((s.pkg.setSeq n.val
         { s.seqr n with running := false, loops := [], endCyc := cyc + 1, starts := r }).dropLate (.start n)).startClause
           n.val k b (cyc + 1)))) ∧
  (∀ (s : State) (n : TileNo), s.Runs .data →
     (∀ b since, (s.seqr n).hold = some (.cwait b since) → s.pkg.reached b = true →
       ∃ t, exec (.heldBundleRelease n) s = .next t ∧ (t.seqr n).hold = none ∧ (t.seqr n).pc = nextPc (s.seqr n) ∧ SameMemory s t ∧
         SameRegs s t ∧ SameTilesBut n.val s t) ∧
     (∀ w slack k since, (s.seqr n).hold = some (.carr w slack k since) → k ≤ (s.pkg.tile n.val).win.at 0 w →
       ∃ t, exec (.heldBundleRelease n) s = .next t ∧ (t.seqr n).hold = none ∧ (t.seqr n).pc = nextPc (s.seqr n) ∧
         (t.pkg.tile n.val).win.at 0 w = (s.pkg.tile n.val).win.at 0 w - k ∧ SameMemory s t ∧ SameRegs s t ∧ SameTilesBut n.val s t) ∧
     ((s.seqr n).hold = some .xpub → (s.pkg.tile n.val).xputOut = 0 →
       ∃ t, exec (.heldBundleRelease n) s = .next t ∧ (t.seqr n).hold = none ∧ (t.seqr n).pc = (s.seqr n).pc ∧ SameMemory s t ∧
         SameRegs s t ∧ SameTilesBut n.val s t) ∧
     (∀ (k : Fin 64) (cyc : Nat) (i : Image) (e : Nat × Nat), s.pkg.posImage = some i → s.pkg.evaluates = true →
       (s.pkg.entriesNow i).any (fun e => decide (e.sentence = k.val)) = true →
       (s.pkg.tile n.val).clauses.find? (fun e => decide (e.1 = k.val)) = some e → (s.seqr n).startBeat ≠ s.pkg.schedBeat →
       (s.seqr n).starts.any (fun e => decide (e.2 = s.pkg.schedBeat)) = false → (s.seqr n).running = false →
       ∃ t, exec (.clauseStart n k cyc) s = .next t ∧ (t.seqr n).running = true ∧ (t.seqr n).sentence = k.val ∧
         (t.seqr n).startBeat = s.pkg.schedBeat ∧ (t.seqr n).pc = e.2 ∧ (t.seqr n).loops = [] ∧ SameMemory s t ∧ SameTilesBut n.val s t) ∧
     (∀ (k : Fin 64) (cyc : Nat) (i : Image) (e : Nat × Nat), s.pkg.posImage = some i → s.pkg.evaluates = true →
       (s.pkg.entriesNow i).any (fun e => decide (e.sentence = k.val)) = true →
       (s.pkg.tile n.val).clauses.find? (fun e => decide (e.1 = k.val)) = some e → (s.seqr n).startBeat ≠ s.pkg.schedBeat →
       (s.seqr n).starts.any (fun e => decide (e.2 = s.pkg.schedBeat)) = false → (s.seqr n).running = true →
       Does (.clauseStart n k cyc) s
         (s.pkg.setSeq n.val { s.seqr n with starts := (s.seqr n).starts ++ [(k.val, s.pkg.schedBeat)] })) ∧
     (∀ w sym, checkWord ((s.pkg.tile n.val).store.at zeroWord ((s.seqr n).scrub % 16384)) = .corrected w sym →
       ∃ t, exec (.clauseStoreScrub n) s = .next t ∧ (t.seqr n).scrub = ((s.seqr n).scrub % 16384 + 1) % 16384 ∧
         (t.pkg.tile n.val).store.at zeroWord ((s.seqr n).scrub % 16384) = w ∧ SameMemory s t ∧ SameRegs s t ∧ SameTilesBut n.val s t) ∧
     (∀ k a d l q, (s.seqr n).refetch = some k → s.pkg.bundleAddr n.val = some a → s.pkg.agentRead ioA (a + 16 * k) 16 = (some d :: l, q) →
       ∃ t, exec (.clauseStoreRefetch n) s = .next t ∧ (t.pkg.tile n.val).store.at zeroWord k = goodWord d ∧ (t.seqr n).refetch = none))

/-- XNOP changes nothing. In PS0, with nothing holding the bundle, and within the limits of its descriptor: an XSEND to a tile of its own package puts
one flit a count on the mesh, with its words; an XSEND in general adds its flits behind those under way; an XGET sends a RdSnoop for each line its
flits meet, and an XPUT a WrInv for each, as its quadrant's requester, and counts its flits as out; the pointers of the descriptor advance once. An
XPUB holds its bundle while a flit is out. -/
def Obligations.MoveSlotCommands : Prop :=
  (∀ (s : State) (n : TileNo), Does (.xnop n) s s.pkg) ∧
  (∀ (s : State) (a : XSlot), MoveIssues a true false s → (xdesc (s.pkg.tile a.t.val).xd a.mdesc.val).peerTile < 192 →
    inSramI ((s.pkg.tile a.t.val).xremote a.mdesc.val) (64 * a.count.toNat) = true →
    (xdesc (s.pkg.tile a.t.val).xd a.mdesc.val).peerPkg = s.pkg.reg O.logicalPosition →
    (xdesc (s.pkg.tile a.t.val).xd a.mdesc.val).doneEn = false →
    ∃ t, exec (.xsend a) s = .next t ∧
      t.pkg.flits = s.pkg.flits ++ (List.range a.count.toNat).map (fun k =>
        MeshFlit.sram (xdesc (s.pkg.tile a.t.val).xd a.mdesc.val).peerTile
          (((s.pkg.tile a.t.val).xremote a.mdesc.val).toNat + 64 * k) (xdesc (s.pkg.tile a.t.val).xd a.mdesc.val).rwin
          ((s.pkg.localFlit a.t.val ((s.pkg.tile a.t.val).xlocal a.mdesc.val).toNat k).map packWord)) ∧
      (t.pkg.tile a.t.val).xptr = ((s.pkg.xadvance a.t.val a.mdesc.val).tile a.t.val).xptr ∧ SameMemory s t ∧ SameRegs s t ∧
      SameTilesBut a.t.val s t) ∧
  (∀ (s : State) (a : XSlot), MoveIssues a true false s → (xdesc (s.pkg.tile a.t.val).xd a.mdesc.val).peerTile < 192 →
    inSramI ((s.pkg.tile a.t.val).xremote a.mdesc.val) (64 * a.count.toNat) = true →
    ∃ t, exec (.xsend a) s = .next t ∧ s.pkg.flits <+: t.pkg.flits ∧
      (t.pkg.tile a.t.val).xptr = ((s.pkg.xadvance a.t.val a.mdesc.val).tile a.t.val).xptr ∧ SameMemory s t ∧ SameTilesBut a.t.val s t) ∧
  (∀ (s : State) (a : XSlot), MoveIssues a false false s →
    inMemI ((s.pkg.tile a.t.val).xmemory a.mdesc.val) (64 * a.count.toNat) = true →
    ∃ t l, exec (.xget a) s = .next t ∧ t.pkg.coh.net = s.pkg.coh.net ++ l ∧
      (∀ q ∈ l, q.requester = 68 + tileDie a.t.val ∧ q.kind = .rdSnoop) ∧
      l.map (·.line) = (List.range a.count.toNat).flatMap (fun k =>
        (flitLines (((s.pkg.tile a.t.val).xmemory a.mdesc.val).toNat + 64 * k)).map (·.1)) ∧
      (t.pkg.tile a.t.val).xptr = ((s.pkg.xadvance a.t.val a.mdesc.val).tile a.t.val).xptr ∧ SameMemory s t ∧ SameRegs s t ∧
      SameTilesBut a.t.val s t) ∧
  (∀ (s : State) (a : XSlot), MoveIssues a false false s →
    inMemI ((s.pkg.tile a.t.val).xmemory a.mdesc.val) (64 * a.count.toNat) = true →
    ∃ t l, exec (.xput a) s = .next t ∧ t.pkg.coh.net = s.pkg.coh.net ++ l ∧
      (∀ q ∈ l, q.requester = 68 + tileDie a.t.val ∧ q.kind = .wrInv) ∧ (s.pkg.stepc.discards = [] → ∀ q ∈ l, q.discard = false) ∧
      l.map (·.line) = (List.range a.count.toNat).flatMap (fun k =>
        (flitLines (((s.pkg.tile a.t.val).xmemory a.mdesc.val).toNat + 64 * k)).map (·.1)) ∧
      (t.pkg.tile a.t.val).xptr = ((s.pkg.xadvance a.t.val a.mdesc.val).tile a.t.val).xptr ∧
      (t.pkg.tile a.t.val).xputOut = (s.pkg.tile a.t.val).xputOut + a.count.toNat ∧ SameMemory s t ∧ SameRegs s t ∧
      SameTilesBut a.t.val s t) ∧
  ∀ (s : State) (n : TileNo), s.Runs .data → (s.pkg.tile n.val).free = true →
    Does (.xpub n) s (if (s.pkg.tile n.val).xputOut = 0 then s.pkg else s.pkg.setSeq n.val { s.seqr n with hold := some .xpub })

/-- In PS0: a flit that lands writes its four words and no other byte, and credits its window; a poisoned word marks the tile's step; a credit credits
its window; an acknowledgement counts an XPUT as done and credits its window. A credit to a window at its top raises event 0x380D, and the package has
failed. -/
def Obligations.FlitsLandAndCredit : Prop :=
  (∀ (s : State) (i : Nat) (n : TileNo) (off win : Nat) (data : List PWord), s.Runs .data → s.pkg.flits[i]? = some (.sram n.val off win data) →
    off % 16 = 0 → (s.pkg.tile n.val).win.at 0 win + 1 < 2 ^ 32 →
    ∃ t, exec (.flitCredit i) s = .next t ∧ t.pkg.flits = dropAt s.pkg.flits i ∧
      (t.pkg.tile n.val).win.at 0 win = (s.pkg.tile n.val).win.at 0 win + 1 ∧
      (∀ k < 4, t.pkg.sramRead (sramAddr n.val (off + 16 * k)) = (data.map readWord).getD k none) ∧
      ((data.any fun w => (readWord w).isNone) = true → (t.pkg.tile n.val).stepPoison = true) ∧
      SameMemoryBut (fun b => sramAddr n.val off ≤ b ∧ b < sramAddr n.val off + 64) s t ∧ SameRegs s t ∧ SameTilesBut n.val s t) ∧
  (∀ (s : State) (i : Nat) (n : TileNo) (win : Nat), s.Runs .data → s.pkg.flits[i]? = some (.credit n.val win) →
    (s.pkg.tile n.val).win.at 0 win + 1 < 2 ^ 32 →
    ∃ t, exec (.flitCredit i) s = .next t ∧ t.pkg.flits = dropAt s.pkg.flits i ∧
      (t.pkg.tile n.val).win.at 0 win = (s.pkg.tile n.val).win.at 0 win + 1 ∧ SameMemory s t ∧ SameRegs s t ∧ SameTilesBut n.val s t) ∧
  (∀ (s : State) (i : Nat) (n : TileNo) (win : Nat), s.Runs .data → s.pkg.flits[i]? = some (.xputAck n.val win) →
    (s.pkg.tile n.val).win.at 0 win + 1 < 2 ^ 32 →
    ∃ t, exec (.flitCredit i) s = .next t ∧ (t.pkg.tile n.val).xputOut = (s.pkg.tile n.val).xputOut - 1 ∧
      (t.pkg.tile n.val).win.at 0 win = (s.pkg.tile n.val).win.at 0 win + 1 ∧ SameMemory s t ∧ SameRegs s t ∧ SameTilesBut n.val s t) ∧
  ∀ (s : State) (i : Nat) (n : TileNo) (win : Nat), s.Runs .data → s.pkg.flits[i]? = some (.credit n.val win) → s.pkg.failed = false →
    2 ^ 32 ≤ (s.pkg.tile n.val).win.at 0 win + 1 →
    ∃ t, exec (.flitCredit i) s = .next t ∧ t.pkg.failed = true ∧ RaisedEver t 0x380D ∧
      bitOf (t.pkg.reg O.errorRegister) 0 = true ∧ t.lands.faultN = false

/-! ## Schedule time and the loader -/

/-- A package checks its time base after each exchange with its time parent. If the residual offset from the parent exceeds 24 ns, event 0x3809 is
raised; three consecutive such exchanges make the package declare itself failed. If its slip_total differs from the parent's at the same domain_beat,
event 0x3808 is raised and the package declares itself failed at once, with FAULT_N low. A package that joins takes its parent's counts; an exchange
that finds no fault records the offset and ends a run of excess offsets. -/
def Obligations.TimeExchangeOutcomes : Prop :=
  ∀ (s : State) (x : TimeExchange), s.Runs .link → s.pkg.isMaster = false → s.pkg.reg O.timeParentPort ≠ 0xFF →
    (24000 < x.residualPs.natAbs → ∃ t, exec (.timeExchange x) s = .next t ∧ RaisedEver t 0x3809) ∧
    (∀ y z : TimeExchange, 24000 < x.residualPs.natAbs → 24000 < y.residualPs.natAbs → 24000 < z.residualPs.natAbs →
      ∃ t u v, exec (.timeExchange x) s = .next t ∧ exec (.timeExchange y) t = .next u ∧ exec (.timeExchange z) u = .next v ∧
        v.pkg.failed = true) ∧
    (s.pkg.sched.formed = true → x.parentBeat = s.pkg.reg O.domainBeat → x.parentSlip ≠ s.pkg.reg O.slipTotal →
      ∃ t, exec (.timeExchange x) s = .next t ∧ RaisedEver t 0x3808 ∧ t.pkg.failed = true ∧
        (s.pkg.failed = false → t.lands.faultN = false)) ∧
    (s.pkg.sched.formed = false → x.residualPs.natAbs ≤ 24000 → (s.pkg.reg O.imageState = 4 → x.masterGen = s.pkg.reg O.cfgActiveGen) →
      ∃ t, exec (.timeExchange x) s = .next t ∧ t.pkg.reg O.domainBeat = x.parentBeat ∧ t.pkg.reg O.slipTotal = x.parentSlip ∧
        t.pkg.sched.formed = true ∧ t.pkg.failed = s.pkg.failed ∧ t.pkg.ev = s.pkg.ev ∧ SameMemory s t ∧ t.pkg.tiles = s.pkg.tiles) ∧
    (s.pkg.sched.formed = true → x.residualPs.natAbs ≤ 24000 → x.parentBeat = s.pkg.reg O.domainBeat →
      x.parentSlip = s.pkg.reg O.slipTotal → x.masterGen = s.pkg.reg O.cfgActiveGen →
      ∃ t, exec (.timeExchange x) s = .next t ∧ t.pkg.reg O.timeOffset = toBits 32 x.residualPs ∧ t.pkg.sched.offsetRuns = 0 ∧
        t.pkg.failed = s.pkg.failed ∧ t.pkg.ev = s.pkg.ev ∧ SameMemory s t ∧ t.pkg.tiles = s.pkg.tiles ∧
        SameRegsBut (fun k => k = O.timeOffset) s t)

/-- At a beat boundary in PS0, with no save hold and no local Period pending, domain_beat rises by one, and slip_total with it exactly while a hold of
schedule time has beats left; the tiles and memory stay. sched_beat is domain_beat less slip_total. In PS0: a late case that is not on record is
counted in late_events with events 0x3806 and 0x3804, and asks for a slip at domain_beat + slip_horizon; one whose last request is slip_quantum beats
old asks again; the slip of a request received joins those that wait; a case to which hold_limit applies that exceeds it raises event 0x3807 and fails
the package. In PS0: the first due slip holds schedule time from the present beat and leaves the list; when its beats are over the hold ends, or the
next due slip follows at once. -/
def Obligations.BeatsHoldsAndLateness : Prop :=
  ((∀ s : State, s.Runs .link → s.pkg.secure.hold = none → s.pkg.cfg.pendTimer = false → s.pkg.cfg.pendRequest = false →
     ∃ t, exec .beatBoundary s = .next t ∧ t.pkg.reg O.domainBeat = (s.pkg.reg O.domainBeat + 1) % 2 ^ 64 ∧
       t.pkg.reg O.slipTotal = (match s.pkg.sched.hold with
         | none => s.pkg.reg O.slipTotal
         | some h => if (s.pkg.reg O.domainBeat + 1) % 2 ^ 64 ≤ h.beat + h.len ∨ h.kind = .save then
             (s.pkg.reg O.slipTotal + 1) % 2 ^ 64 else s.pkg.reg O.slipTotal) ∧
       t.pkg.sched.hold = s.pkg.sched.hold ∧ t.pkg.tiles = s.pkg.tiles ∧ SameMemory s t) ∧
   ∀ p : Pkg, p.reg O.slipTotal ≤ p.reg O.domainBeat → p.reg O.domainBeat < 2 ^ 64 →
     p.schedBeat = p.reg O.domainBeat - p.reg O.slipTotal) ∧
  ((∀ (s : State) (c : LateCase) (i : Image), s.Runs .data → s.pkg.loader.image = some i → s.pkg.isLate c = true →
     s.pkg.sched.lateOf c = [] →
     ∃ t, exec (.lateCase c) s = .next t ∧ t.pkg.reg O.lateEvents = min (s.pkg.reg O.lateEvents + 1) (2 ^ 32 - 1) ∧
       (⟨s.pkg.reg O.domainBeat + i.slipHorizon, i.slipQuantum, .slip⟩ : Slip) ∈ t.pkg.sched.slips ∧ RaisedEver t 0x3806 ∧
       RaisedEver t 0x3804 ∧ SameMemory s t) ∧
   (∀ (s : State) (c : LateCase) (i : Image), s.Runs .data → s.pkg.loader.image = some i → s.pkg.isLate c = true →
     s.pkg.sched.late.any (fun r => decide (r.case = c ∧ r.lastReq + i.slipQuantum ≤ s.pkg.reg O.domainBeat)) = true →
     ∃ t, exec (.slipRequestRepeat c) s = .next t ∧
       (⟨s.pkg.reg O.domainBeat + i.slipHorizon, i.slipQuantum, .slip⟩ : Slip) ∈ t.pkg.sched.slips ∧
       t.pkg.sched.late = mapFirst (fun r => decide (r.case = c ∧ r.lastReq + i.slipQuantum ≤ s.pkg.reg O.domainBeat))
         (fun r => { r with lastReq := s.pkg.reg O.domainBeat }) s.pkg.sched.late ∧
       RaisedEver t 0x3804 ∧ SameMemory s t) ∧
   (∀ (s : State) (x : C0In) (who beat : Nat) (i : Image), s.Runs .data → IsNew x s.pkg → s.pkg.loader.image = some i →
     ∃ t, exec (.slipRequest x who beat) s = .next t ∧ (⟨beat, i.slipQuantum, .slip⟩ : Slip) ∈ t.pkg.sched.slips ∧
       t.pkg.sched.filter.find x.src = some x.originSeq ∧ SameMemory s t ∧ SameRegs s t ∧ t.pkg.tiles = s.pkg.tiles) ∧
   ∀ (s : State) (c : LateCase) (i : Image), s.Runs .data → s.pkg.loader.image = some i → limitApplies c = true → s.pkg.isLate c = true →
     s.pkg.secure.hold = none →
     s.pkg.sched.late.any (fun r => decide (r.case = c ∧ i.holdLimit < r.late)) = true →
     ∃ t, exec (.holdLimitExpiry c) s = .next t ∧ t.pkg.failed = true ∧ RaisedEver t 0x3807 ∧ t.lands.faultN = false) ∧
  ((∀ (s : State) (x : Slip), s.Runs .data → s.pkg.sched.hold = none → s.pkg.dueSlip = some x →
     ∃ t, exec .slipHoldStart s = .next t ∧ t.pkg.sched.hold = some { x with beat := s.pkg.reg O.domainBeat } ∧
       t.pkg.sched.slips = s.pkg.sched.slips.erase x ∧
       t.pkg.reg O.slipsApplied = (if x.kind = .slip then min (s.pkg.reg O.slipsApplied + 1) (2 ^ 32 - 1) else s.pkg.reg O.slipsApplied) ∧
       SameMemory s t ∧ t.pkg.tiles = s.pkg.tiles) ∧
   (∀ (s : State) (h : Slip), s.Runs .data → s.pkg.sched.hold = some h → h.kind ≠ .save → h.beat + h.len ≤ s.pkg.reg O.domainBeat →
     s.pkg.dueSlip = none → s.pkg.secure.hold = none →
     Does .slipHoldEnd s (s.pkg.setSched { s.pkg.sched with hold := none })) ∧
   ∀ (s : State) (h x : Slip), s.Runs .data → s.pkg.sched.hold = some h → h.kind ≠ .save → h.beat + h.len ≤ s.pkg.reg O.domainBeat →
     s.pkg.dueSlip = some x →
     ∃ t, exec .slipHoldEnd s = .next t ∧ t.pkg.sched.hold = some { x with beat := s.pkg.reg O.domainBeat } ∧
       t.pkg.sched.slips = s.pkg.sched.slips.erase x)

/-- loader_owner takes a claim where it holds 0, and takes 0, while the writer's plane runs. While the control plane runs: a LOAD at the head that
passes its checks enters image_state 1, and one that does not ends with status 5, its reason and one more load_rejects; the completion of a load
enters 2, or 3 on a spare, with the image; an UNLOAD in state 2, 3 or 5 enters 0 and discards image, position, clause stores, matrix descriptors and
windows. -/
def Obligations.LoaderCommands : Prop :=
  (∀ (s : State) (w : Writer) (v : Nat), s.Runs (writerPlane w) → v ≤ 3 → (s.pkg.reg O.loaderOwner = 0 ∨ v = 0) →
    Does (.loaderOwnerWrite w v) s (s.pkg.setReg O.loaderOwner v)) ∧
  (∀ (s : State) (r : LoadReq) (p : Pkg), s.Runs .control → s.pkg.headRequest .load = some (r, p) → p.reg O.imageState ≠ 1 → p.reg O.imageState ≠ 4 →
    ∃ t, exec .load s = .next t ∧
      (∀ x q, p.loadCheck r none = (.ok x, q) → t = s.settle (q.beginLoad r x) ∧ t.pkg.reg O.imageState = 1 ∧
        t.pkg.loader.loading = some ⟨r, x.1, x.2.1, x.2.2⟩) ∧
      (∀ e q, p.loadCheck r none = (.error e, q) → t = s.settle ((q.rejectImage e).endRequest r 5 e.reason) ∧
        (q.rejectImage e).reg O.lastRejectReason = e.reason ∧
        (q.rejectImage e).reg O.loadRejects = min (q.reg O.loadRejects + 1) (2 ^ 32 - 1))) ∧
  (∀ (s : State) (x : Loading), s.Runs .control → s.pkg.loader.loading = some x →
    Does .loadComplete s ((((s.pkg.installImage x).setImageState (if x.pos = 0xFFFF then 3 else 2)).raise 0x3801 noUnit 0).endRequest x.req 0 0) ∧
      ((s.pkg.installImage x).setImageState (if x.pos = 0xFFFF then 3 else 2)).reg O.imageState = (if x.pos = 0xFFFF then 3 else 2) ∧
      ((s.pkg.installImage x).setImageState (if x.pos = 0xFFFF then 3 else 2)).loader.image = some x.img) ∧
  ∀ (s : State) (r : LoadReq) (p : Pkg), s.Runs .control → s.pkg.headRequest .unload = some (r, p) →
    (p.reg O.imageState = 2 ∨ p.reg O.imageState = 3 ∨ p.reg O.imageState = 5) →
    Does .unload s ((p.unloadImage.raise 0x380E noUnit 0).endRequest r 0 0) ∧ p.unloadImage.reg O.imageState = 0 ∧
      p.unloadImage.reg O.logicalPosition = 0xFFFF ∧ p.unloadImage.loader.image = none ∧
      (∀ n, SMap.wf Tile.reset p.tiles = true → (p.unloadImage.tile n).store = [] ∧ (p.unloadImage.tile n).md = [] ∧
        (p.unloadImage.tile n).win = [])

/-- A START that is accepted opens a start run; a package asked answers with its state, image and variant; an answer joins the run; 10 ms after its
start, with every package's answer as asked, the run ends with the start beat: the first multiple of 65,536 at least 2 × slip_horizon ahead. A package
loaded or halted takes the start beat flooded, and at that beat a loaded one enters image_state 4 with cycle 0, and a halted one without a repair in
progress goes back to 4. Each while its plane runs. A HALT in image_state 4 floods domain_beat + slip_horizon, from which the package then halts; a
package that runs takes the beat flooded; at a due step start with a halt due, and no commit in progress, image_state becomes 5 and FAULT_N is low,
and generator_step stays. Each while its plane runs. -/
def Obligations.StartAndHalt : Prop :=
  ((∀ (s : State) (r : LoadReq) (p : Pkg) (i : Image), s.Runs .control → s.pkg.headRequest .start = some (r, p) → p.posImage = some i → p.isMaster = true →
     (p.reg O.imageState = 2 ∨ p.reg O.imageState = 5) → p.sched.startRun = none → p.sched.startBeat = none →
     i.aclkDiv ≤ p.reg O.aclkDivisorActive →
     ∃ t, exec .start s = .next t ∧ t.pkg.sched.startRun = some ⟨p.mtime, r.seq, []⟩ ∧ SameMemory s t ∧ SameRegs s t) ∧
   (∀ (s : State) (x : C0In), s.Runs .link → IsNew x s.pkg →
     ∃ t, exec (.startQuery x) s = .next t ∧
       t.pkg.out = s.pkg.out ++ [.class0 ⟨0x04, s.pkg.reg O.domainPhysId, x.src, (s.pkg.sched.originSeq + 1) % 2 ^ 32,
         [s.pkg.reg O.imageState, s.pkg.reg O.imageId, s.pkg.reg O.imageVariant]⟩] ∧ SameMemory s t ∧ SameRegs s t) ∧
   (∀ (s : State) (x : C0In) (st id v : Nat) (r : StartRun), s.Runs .link → IsNew x s.pkg → s.pkg.sched.startRun = some r →
     ∃ t, exec (.startAnswer x st id v) s = .next t ∧
       t.pkg.sched.startRun = some { r with answers := r.answers ++ [(x.src, st, id, v)] } ∧ SameMemory s t ∧ SameRegs s t) ∧
   (∀ (s : State) (r : StartRun) (i : Image), s.Runs .control → s.pkg.sched.startRun = some r → s.pkg.posImage = some i → r.t0 + 1000000 ≤ s.pkg.mtime →
     s.pkg.allAnswered i r = true →
     ∃ q b, Does .startAnswerDeadline s (Pkg.complete q 0 r.seq 0 0) ∧ q.sched.startBeat = some b ∧ q.sched.startRun = none ∧
       b % 65536 = 0 ∧ s.pkg.reg O.domainBeat + 2 * i.slipHorizon ≤ b ∧ b < s.pkg.reg O.domainBeat + 2 * i.slipHorizon + 65536) ∧
   (∀ (s : State) (x : C0In) (beat : Nat), s.Runs .link → IsNew x s.pkg → (s.pkg.reg O.imageState = 2 ∨ s.pkg.reg O.imageState = 5) →
     ∃ t, exec (.startBeatMessage x beat) s = .next t ∧ t.pkg.sched.startBeat = some beat ∧ SameMemory s t ∧ SameRegs s t) ∧
   (∀ (s : State) (b : Nat) (i : Image), s.Runs .control → s.pkg.sched.startBeat = some b → s.pkg.posImage = some i → s.pkg.reg O.imageState = 2 →
     b ≤ s.pkg.schedBeat →
     ∃ q, Does .domainStart s (Pkg.openBlock (Pkg.startMethods q)) ∧ q.reg O.imageState = 4 ∧ q.sched.cycle0 = b ∧
       q.sched.nextStart = 0 ∧ q.sched.startBeat = none ∧ q.stepc = StepCtl.reset) ∧
   ∀ (s : State) (b : Nat) (i : Image), s.Runs .control → s.pkg.memsys.repairing = [] → s.pkg.sched.startBeat = some b → s.pkg.posImage = some i → s.pkg.reg O.imageState = 5 →
     b ≤ s.pkg.reg O.domainBeat →
     ∃ t, exec .domainStart s = .next t ∧ t.pkg.reg O.imageState = 4 ∧ t.pkg.sched.startBeat = none ∧ SameMemory s t) ∧
  ((∀ (s : State) (r : LoadReq) (p : Pkg) (i : Image), s.Runs .control → s.pkg.headRequest .halt = some (r, p) → p.posImage = some i →
     p.reg O.imageState = 4 →
     Does .halt s (((p.flood 0x06 0 [p.reg O.domainBeat + i.slipHorizon]).haltFrom (p.reg O.domainBeat + i.slipHorizon)).endRequest r 0 0)) ∧
   (∀ (s : State) (x : C0In) (beat : Nat), s.Runs .link → IsNew x s.pkg → s.pkg.reg O.imageState = 4 →
     ∃ t, exec (.haltMessage x beat) s = .next t ∧ t.pkg.sched.haltAt = some beat ∧ SameMemory s t ∧ SameRegs s t) ∧
   ∀ (s : State) (i : Image), s.Runs .control → s.pkg.posImage = some i → s.pkg.stepDue i = true → s.pkg.haltDue = true → s.pkg.stepc.committing = false →
     ∃ t, exec .haltTakeEffect s = .next t ∧ t.pkg.reg O.imageState = 5 ∧ t.pkg.sched.haltAt = none ∧ t.lands.faultN = false ∧
       t.pkg.reg O.generatorStep = s.pkg.reg O.generatorStep ∧ SameMemory s t ∧ t.pkg.tiles = s.pkg.tiles)

/-! ## The training step -/

/-- In PS0, with an image at a position: a step that is due and not to halt starts with the next generator step, no votes, no reports and nothing
decided. The vote of a package that is late, and not on record, raises events 0x3806, 0x3903 and 0x3804, counts, and asks for a slip. A complete local
vote of a step not yet decided is sent: nothing goes out without a report, and a report goes out at once. A record of the present step before its
decision is kept, and sent on where it precedes the record sent. -/
def Obligations.StepStartAndVote : Prop :=
  (∀ (s : State) (i : Image), s.Runs .data → s.pkg.posImage = some i → s.pkg.stepDue i = true → s.pkg.haltDue = false →
    ∃ q, Does .stepStart s (Pkg.writeSysHeader q) ∧
      Pkg.reg q O.generatorStep = (s.pkg.reg O.generatorStep + 1) % 2 ^ 40 ∧ q.sched.nextStart = s.pkg.sched.nextStart + 1 ∧
      q.stepc.stepIndex = s.pkg.sched.nextStart % i.stepsPerCycle ∧ q.stepc.cvotes = 0 ∧ q.stepc.own = none ∧ q.stepc.held = none ∧
      q.stepc.sent = none ∧ q.stepc.decided = false ∧ q.stepc.committing = false) ∧
  (∀ (s : State) (i : Image), s.Runs .data → s.pkg.loader.image = some i → s.pkg.isLate .vote = true →
    s.pkg.sched.lateOf .vote = [] →
    ∃ t, exec .localVoteDeadline s = .next t ∧ RaisedEver t 0x3806 ∧ RaisedEver t 0x3903 ∧ RaisedEver t 0x3804 ∧
      t.pkg.reg O.lateEvents = min (s.pkg.reg O.lateEvents + 1) (2 ^ 32 - 1) ∧
      (⟨s.pkg.reg O.domainBeat + i.slipHorizon, i.slipQuantum, .slip⟩ : Slip) ∈ t.pkg.sched.slips ∧ SameMemory s t) ∧
  (∀ (s : State) (i : Image), s.Runs .data → s.pkg.posImage = some i → s.pkg.reg O.imageState = 4 → s.pkg.sched.nextStart ≠ 0 →
    s.pkg.stepc.decided = false → s.pkg.stepc.localSent = false → s.pkg.voteComplete i = true →
    (s.pkg.stepc.own = none → Does .localVoteComplete s (s.pkg.setStepc { s.pkg.stepc with localSent := true })) ∧
    ∀ r, s.pkg.stepc.own = some r →
      ∃ t, exec .localVoteComplete s = .next t ∧ t.pkg.stepc.localSent = true ∧ t.pkg.stepc.sent = firstRec s.pkg.stepc.sent r ∧
        t.pkg.out = s.pkg.out ++ [.class0 ⟨0x02, s.pkg.reg O.domainPhysId, 0, 0, votePayload r⟩] ∧
        SameMemory s t ∧ SameRegs s t) ∧
  ∀ (s : State) (x : C0In) (r : VoteRec) (i : Image), s.Runs .link → s.pkg.posImage = some i →
    r.step = s.pkg.reg O.generatorStep → s.pkg.stepc.decided = false →
    ∃ t, exec (.voteRecord x r) s = .next t ∧ t.pkg.stepc.held = firstRec s.pkg.stepc.held r ∧
      t.pkg.stepc.sent = (match s.pkg.stepc.sent with
        | none => some r
        | some o => if votePrecedes r o then some r else some o) ∧ SameMemory s t ∧ SameRegs s t ∧ t.pkg.tiles = s.pkg.tiles

/-- The order of vote records has no two records that precede each other, and it is transitive; so of records that are ordered, the one that is kept
does not depend on the order in which two of them arrive. At C of a step not yet decided, in PS0 with the schedule running. Where a void record is
held the step is void: void_count and void_streak rise, last_commit_kind is 3, last_void_record holds the record, update_count stays, no commit opens,
the package is to halt where void_limit is reached, and the outcome bit of the step is 0. Where none is held the commit opens: last_commit_kind 2 at
an agreement step and 1 elsewhere, void_streak, update_count and acc_count as the step block's header gives them, and outcome bit 1. The bit is named
where it is in the low half of step_outcome. While the path's plane runs: a write of a ledger's or the dispatch ledger's read index up to its write
index is taken, and one past it refused; a scale query below scale_table_entries is taken, and another refused; a placement query that names an expert
of a group is taken, and another refused. -/
def Obligations.VoteOrderAndDecision : Prop :=
  ((∀ a b : VoteRec, votePrecedes a b = true → votePrecedes b a = false) ∧
   (∀ a b c : VoteRec, votePrecedes a b = true → votePrecedes b c = true → votePrecedes a c = true) ∧
   ∀ (o : Option VoteRec) (a b : VoteRec), (votePrecedes a b = true ∨ votePrecedes b a = true) →
     (∀ r, o = some r → (votePrecedes r a = true ∨ votePrecedes a r = true) ∧ (votePrecedes r b = true ∨ votePrecedes b r = true)) →
     firstRec (firstRec o a) b = firstRec (firstRec o b) a) ∧
  (∀ (s : State) (i : Image) (c : Nat), s.Runs .data → s.pkg.posImage = some i → s.pkg.commitBeat i = some c → s.pkg.reg O.imageState = 4 →
     s.pkg.stepc.decided = false → s.pkg.reached c = true →
     (∀ r, s.pkg.stepc.held = some r →
       ∃ q, Does .stepDecision s (Pkg.writeSysHeader q) ∧ Pkg.reg q O.voidCount = min (s.pkg.reg O.voidCount + 1) (2 ^ 32 - 1) ∧
         Pkg.reg q O.voidStreak = min (s.pkg.reg O.voidStreak + 1) (2 ^ 16 - 1) ∧ Pkg.reg q O.lastCommitKind = 3 ∧
         (∀ j < 8, Pkg.reg q (O.lastVoidRecord + j) = (voteWords r).getD j 0) ∧ q.stepc.decided = true ∧ q.stepc.committing = false ∧
         Pkg.reg q O.updateCount = s.pkg.reg O.updateCount ∧
         (s.pkg.reg O.voidLimit ≠ 0 → s.pkg.reg O.voidLimit ≤ min (s.pkg.reg O.voidStreak + 1) (2 ^ 16 - 1) →
           q.stepc.haltNext = true) ∧
         (s.pkg.reg O.generatorStep % 128 < 64 → bitOf (Pkg.reg q O.stepOutcome) (s.pkg.reg O.generatorStep % 128) = false)) ∧
     (s.pkg.stepc.held = none →
       ∃ q, Does .stepDecision s (Pkg.writeSysHeader q) ∧ q.stepc.decided = true ∧ q.stepc.committing = true ∧
         Pkg.reg q O.lastCommitKind = (if isAgreementStep i s.pkg.stepc.stepIndex then 2 else 1) ∧
         Pkg.reg q O.voidCount = s.pkg.reg O.voidCount ∧
         Pkg.reg q O.voidStreak = (if isAgreementStep i s.pkg.stepc.stepIndex then 0 else s.pkg.reg O.voidStreak) ∧
         Pkg.reg q O.updateCount = (if isAgreementStep i s.pkg.stepc.stepIndex then (s.pkg.blockHdr.1.update + 1) % 2 ^ 64
           else s.pkg.blockHdr.1.update) ∧
         Pkg.reg q O.accCount = (if isAgreementStep i s.pkg.stepc.stepIndex then 0
           else if 65535 ≤ s.pkg.blockHdr.1.acc then s.pkg.blockHdr.1.acc else s.pkg.blockHdr.1.acc + 1) ∧
         (s.pkg.reg O.generatorStep % 128 < 64 → bitOf (Pkg.reg q O.stepOutcome) (s.pkg.reg O.generatorStep % 128) = true))) ∧
  (∀ (s : State) (pt : Path) (v : Nat), s.Runs (pathPlane pt) → v < 2 ^ 32 →
     ((v + 2 ^ 32 - s.pkg.reg O.ledgerReadIndex) % 2 ^ 32 ≤
         (s.pkg.reg O.ledgerWriteIndex + 2 ^ 32 - s.pkg.reg O.ledgerReadIndex) % 2 ^ 32 →
       Does (.ledgerReadIndexWrite pt v) s (s.pkg.setReg O.ledgerReadIndex v)) ∧
     ((s.pkg.reg O.ledgerWriteIndex + 2 ^ 32 - s.pkg.reg O.ledgerReadIndex) % 2 ^ 32 <
         (v + 2 ^ 32 - s.pkg.reg O.ledgerReadIndex) % 2 ^ 32 →
       Does (.ledgerReadIndexWrite pt v) s (s.pkg.refuse pt O.ledgerReadIndex abRange)) ∧
     ((v + 2 ^ 32 - s.pkg.reg O.dispatchReadIndex) % 2 ^ 32 ≤
         (s.pkg.reg O.dispatchWriteIndex + 2 ^ 32 - s.pkg.reg O.dispatchReadIndex) % 2 ^ 32 →
       Does (.dispatchReadIndexWrite pt v) s (s.pkg.setReg O.dispatchReadIndex v)) ∧
     ((s.pkg.reg O.dispatchWriteIndex + 2 ^ 32 - s.pkg.reg O.dispatchReadIndex) % 2 ^ 32 <
         (v + 2 ^ 32 - s.pkg.reg O.dispatchReadIndex) % 2 ^ 32 →
       Does (.dispatchReadIndexWrite pt v) s (s.pkg.refuse pt O.dispatchReadIndex abRange)) ∧
     (v < s.pkg.reg O.scaleTableEntries → Does (.scaleQuery pt v) s (s.pkg.setReg O.scaleQueryId v)) ∧
     (s.pkg.reg O.scaleTableEntries ≤ v → Does (.scaleQuery pt v) s (s.pkg.refuse pt O.scaleQueryId abRange)) ∧
     (v % 2 ^ 12 = 0 → bits v 31 24 < s.pkg.place.length → bits v 23 12 < (s.pkg.place.getD (bits v 31 24) []).length →
       Does (.placementQuery pt v) s (s.pkg.setReg O.placementQuery v)) ∧
     (¬(v % 2 ^ 12 = 0 ∧ bits v 31 24 < s.pkg.place.length ∧ bits v 23 12 < (s.pkg.place.getD (bits v 31 24) []).length) →
       Does (.placementQuery pt v) s (s.pkg.refuse pt O.placementQuery abRange)))

/-! ## Agreement -/

/-- The values of a hop's sum and its scale step do not depend on which of the two chunks came in, and each of its values fits in 32 bits with the
most negative one unused. Stated for values below 2^300, far above any that a chunk holds. In PS0, with an image at a position: a chunk that is the
one expected, without a mismatch or a flit error, joins the receive buffer and the ring input moves on; one that is not expected, or is for a channel
that no entry names, raises event 0x3A07 and the package has failed; a buffer of four takes none. In PS0, with an image at a position: a hop does one
step of the channel's bucket, then takes the flits that wait for room; a gather step at an inner member delivers its head chunk and sends it on with
one hop more; an XAGR offers each of its flits to its bucket; a single flit that finds room and none waiting joins the channel's input; the first
waiting flit for which there is room is taken. -/
def Obligations.AgreementEngine : Prop :=
  ((∀ (me : Nat) (c l : Work), (hopWork me c l).1.vals = (hopWork me l c).1.vals ∧ (hopWork me c l).2 = (hopWork me l c).2) ∧
   ∀ (me : Nat) (c l : Work), (∀ v ∈ c.vals, v.natAbs < 2 ^ 300) → (∀ v ∈ l.vals, v.natAbs < 2 ^ 300) →
     ∀ v ∈ (hopWork me c l).1.vals, v.natAbs ≤ 2 ^ 31 - 1) ∧
  (∀ (s : State) (e : Bool) (ch : Fin 16) (x : Chunk) (i : Image), s.Runs .data → s.pkg.posImage = some i →
     (∀ c b, chanEntry i e ch.val = some c → chanBucket i c (headBucket i c (s.pkg.chan e ch.val).rxPos) = some b →
       (s.pkg.chan e ch.val).rx.length < 4 → expectedChunk s.pkg c b (s.pkg.chan e ch.val) x.hdr = true →
       (x.hdr.kind = 4 ∨ badGroups x = 0) → x.flitError = false →
       Does (.agreementChunkReceive e ch x) s (s.pkg.setChan e ch.val
         ({ s.pkg.chan e ch.val with rx := (s.pkg.chan e ch.val).rx ++ [x] }.rxNext i c b))) ∧
     (∀ c b, chanEntry i e ch.val = some c → chanBucket i c (headBucket i c (s.pkg.chan e ch.val).rxPos) = some b →
       (s.pkg.chan e ch.val).rx.length < 4 → expectedChunk s.pkg c b (s.pkg.chan e ch.val) x.hdr = false →
       ∃ t, exec (.agreementChunkReceive e ch x) s = .next t ∧ t.pkg.failed = true ∧ RaisedEver t 0x3A07 ∧ SameMemory s t) ∧
     (∀ c b, chanEntry i e ch.val = some c → chanBucket i c (headBucket i c (s.pkg.chan e ch.val).rxPos) = some b →
       4 ≤ (s.pkg.chan e ch.val).rx.length → Does (.agreementChunkReceive e ch x) s s.pkg) ∧
     (chanEntry i e ch.val = none →
       ∃ t, exec (.agreementChunkReceive e ch x) s = .next t ∧ t.pkg.failed = true ∧ RaisedEver t 0x3A07 ∧ SameMemory s t)) ∧
  ((∀ (s : State) (e : Bool) (ch : Fin 16) (m : Nat) (i : Image) (c : ChanEnt) (b : BucketEnt), s.Runs .data → s.pkg.posImage = some i →
     chanEntry i e ch.val = some c → chanBucket i c (headBucket i c (s.pkg.chan e ch.val).pos) = some b → b.nElem ≠ 0 →
     Does (.agreementHop e ch m) s ((s.pkg.agreementStep i c b m).drainChan e ch.val)) ∧
   (∀ (p : Pkg) (i : Image) (c : ChanEnt) (b : BucketEnt) (m : Nat) (y : Chunk) (r : List Chunk),
     (p.chan c.engine c.channel).rx = y :: r → reduces c (p.chan c.engine c.channel).stage = false →
     gatherHop c (p.chan c.engine c.channel).stage ≠ 0 → (p.chan c.engine c.channel).stage + 1 < stages c →
     p.agreementStep i c b m =
       ((((p.setChan c.engine c.channel { p.chan c.engine c.channel with rx := r }).finalChunk i c b y
         (stagePart c (p.chan c.engine c.channel).stage)).sendChunk c { y with hdr := { y.hdr with hop := y.hdr.hop + 1 } }).chanNext
           i c b)) ∧
   (∀ (s : State) (a : XSlot) (i : Image), MoveIssues a false true s → s.pkg.posImage = some i →
     (xdesc (s.pkg.tile a.t.val).xd a.mdesc.val).rwin = 0 →
     Does (.xagr a) s (((List.range a.count.toNat).foldl (fun p k =>
       p.offerInput i (xdesc (s.pkg.tile a.t.val).xd a.mdesc.val).bucket a.t.val
         (((s.pkg.tile a.t.val).xlocal a.mdesc.val).toNat + 64 * k)
         (if (xdesc (s.pkg.tile a.t.val).xd a.mdesc.val).doneEn then (xdesc (s.pkg.tile a.t.val).xd a.mdesc.val).doneWin + 1 else 0))
       s.pkg).xadvance a.t.val a.mdesc.val)) ∧
   (∀ (s : State) (a : XSlot) (i : Image) (c : ChanEnt) (k : Nat), MoveIssues a false true s → s.pkg.posImage = some i → a.count = 1 →
     (xdesc (s.pkg.tile a.t.val).xd a.mdesc.val).rwin = 0 →
     bucketChannel i (xdesc (s.pkg.tile a.t.val).xd a.mdesc.val).bucket = some (c, k) →
     s.pkg.hasRoom i c (xdesc (s.pkg.tile a.t.val).xd a.mdesc.val).bucket = true → (s.pkg.chan c.engine c.channel).refused = [] →
     ∃ t, exec (.xagr a) s = .next t ∧ (t.pkg.chan c.engine c.channel).input = (s.pkg.chan c.engine c.channel).input ++
         [((xdesc (s.pkg.tile a.t.val).xd a.mdesc.val).bucket,
           (s.pkg.localFlit a.t.val ((s.pkg.tile a.t.val).xlocal a.mdesc.val).toNat 0).map packWord)] ∧ SameMemory s t) ∧
   ∀ (s : State) (e : Bool) (ch : Fin 16) (i : Image) (c : ChanEnt) (k : Nat) (r : Nat × Nat × Nat × Nat), s.Runs .data → s.pkg.posImage = some i →
     chanEntry i e ch.val = some c → (s.pkg.chan e ch.val).refused.findIdx? (fun r => s.pkg.hasRoom i c r.2.2.1) = some k →
     (s.pkg.chan e ch.val).refused[k]? = some r →
     Does (.xagrFlitAccept e ch) s
       ((s.pkg.setChan e ch.val { s.pkg.chan e ch.val with refused := dropAt (s.pkg.chan e ch.val).refused k }).takeInput i c r.2.2.1 r.1
         r.2.1 r.2.2.2))

/-! ## Dispatch and stages -/

/-- Whatever the records, no expert gets more tokens than its quota, and the tokens assigned are those the experts hold. The die ordinal of the tile
at (LX, LY) is (LY mod 4) × 12 + (LX mod 12), from 0 to 47: the tile that an ordinal of a die names is the one with that ordinal, and each of the 48
names one tile of the die. In PS0: a single XDSP flit joins those on their way to its unit where its table takes it and none is refused, and is
refused where the table does not take it; a routing record on its way to a FILL table joins its record region; a trigger on its way to a copy table is
counted; the first refused flit of a table goes once the table takes it. In PS0: a current fill whose records are all there runs once: its ordinal
rises, its region empties and the fill is counted; where the records break a rule, record_errors rises with event 0x3C01. A current GATHER, SCATTER or
COLLECT whose triggers are counted and whose fill is there takes its triggers and adds its flits behind those under way. After an activation has run,
the sequence moves on to the next, and at its end begins again with the fill ordinals reset. -/
def Obligations.DispatchUnits : Prop :=
  (∀ (t : DispTable) (quotas : List Nat) (recs : List RouteRec), quotas.length = t.nExperts →
     (∀ e, (fillRun t quotas recs).used.getD e 0 ≤ quotas.getD e 0) ∧ (fillRun t quotas recs).used.length = t.nExperts ∧
       (fillRun t quotas recs).used.sum = (fillRun t quotas recs).assigned) ∧
  ((∀ ly lx : Nat, ly < 8 → lx < 24 → ly % 4 * 12 + lx % 12 ≤ 47 ∧ tileDie (ly * 24 + lx) = ly / 4 * 2 + lx / 12 ∧
     ordinalTile (tileDie (ly * 24 + lx)) (ly % 4 * 12 + lx % 12) = ly * 24 + lx) ∧
   (∀ d o : Nat, d < 4 → o < 48 → ordinalTile d o < 192 ∧ tileDie (ordinalTile d o) = d ∧
     ordinalTile d o / 24 % 4 * 12 + ordinalTile d o % 24 % 12 = o) ∧
   (∀ (s : State) (a : XSlot) (y : DieSection), MoveIssues a false true s → s.pkg.section (tileDie a.t.val) = some y → a.count = 1 →
     (xdesc (s.pkg.tile a.t.val).xd a.mdesc.val).bucket < y.tables.length →
     (takesFlit y (s.pkg.unit (tileDie a.t.val)) (xdesc (s.pkg.tile a.t.val).xd a.mdesc.val).bucket = true →
       (s.pkg.unit (tileDie a.t.val)).refused = [] →
       ∃ t, exec (.xdsp a) s = .next t ∧ (t.pkg.unit (tileDie a.t.val)).inbound = (s.pkg.unit (tileDie a.t.val)).inbound ++
         [((xdesc (s.pkg.tile a.t.val).xd a.mdesc.val).bucket,
           (s.pkg.localFlit a.t.val ((s.pkg.tile a.t.val).xlocal a.mdesc.val).toNat 0).map packWord)] ∧ SameMemory s t ∧ SameRegs s t) ∧
     (takesFlit y (s.pkg.unit (tileDie a.t.val)) (xdesc (s.pkg.tile a.t.val).xd a.mdesc.val).bucket = false →
       ∃ t r, exec (.xdsp a) s = .next t ∧ (t.pkg.unit (tileDie a.t.val)).refused = (s.pkg.unit (tileDie a.t.val)).refused ++ [r] ∧
         r.1 = a.t.val ∧ (t.pkg.unit (tileDie a.t.val)).inbound = (s.pkg.unit (tileDie a.t.val)).inbound ∧ SameMemory s t ∧
         SameRegs s t)) ∧
   (∀ (s : State) (d : DieNo) (x : DieSection) (n : Nat) (t : DispTable) (f : List PWord) (u : DispUnit), s.Runs .data → s.pkg.section d.val = some x →
     x.tables[n]? = some t → takeInbound (s.pkg.unit d.val) n = some (f, u) →
     (t.op = 1 → Does (.routingRecordFlit d n) s
       (s.pkg.setUnit d.val { u with records := u.records.put [] n (u.records.at [] n ++ [f]) })) ∧
     (t.op ≠ 1 → Does (.dispatchTrigger d n) s
       (s.pkg.setUnit d.val { u with triggers := u.triggers.put 0 n (u.triggers.at 0 n + 1) }))) ∧
   ∀ (s : State) (d : DieNo) (x : DieSection) (n k : Nat) (r : Nat × Nat × Nat × Nat), s.Runs .data → s.pkg.section d.val = some x →
     (s.pkg.unit d.val).refused.findIdx? (fun r => decide (r.2.2.1 = n)) = some k → (s.pkg.unit d.val).refused[k]? = some r →
     takesFlit x (s.pkg.unit d.val) n = true →
     Does (.dispatchFlitAccept d n) s ((s.pkg.setUnit d.val { s.pkg.unit d.val with
       refused := dropAt (s.pkg.unit d.val).refused k }).sendToUnit d.val n r.1 r.2.1 r.2.2.2)) ∧
  ((∀ (s : State) (d : DieNo) (x : DieSection) (n : Nat) (t : DispTable), s.Runs .data → s.pkg.section d.val = some x →
     currentTable x (s.pkg.unit d.val) = some (n, t) → t.op = 1 → (s.pkg.unit d.val).served = false →
     fillFlits t ≤ ((s.pkg.unit d.val).records.at [] n).length →
     ∃ u, exec (.fill d) s = .next u ∧ (u.pkg.unit d.val).served = true ∧
       (u.pkg.unit d.val).ordinal.at 0 n = (s.pkg.unit d.val).ordinal.at 0 n + 1 ∧ (u.pkg.unit d.val).records.at [] n = [] ∧
       u.pkg.reg (O.fillsCompleted + d.val) = min (s.pkg.reg (O.fillsCompleted + d.val) + 1) (2 ^ 32 - 1) ∧
       (fillRecords t ((s.pkg.unit d.val).records.at [] n) = none →
         u.pkg.reg (O.recordErrors + d.val) = min (s.pkg.reg (O.recordErrors + d.val) + 1) (2 ^ 32 - 1) ∧ RaisedEver u 0x3C01)) ∧
   (∀ (s : State) (d : DieNo) (x : DieSection) (n : Nat) (t f : DispTable) (c : Instr), s.Runs .data → s.pkg.section d.val = some x →
     currentTable x (s.pkg.unit d.val) = some (n, t) → x.tables[t.fillTable]? = some f → (s.pkg.unit d.val).served = false →
     t.nTrig ≤ (s.pkg.unit d.val).triggers.at 0 n → t.lag + 1 ≤ (s.pkg.unit d.val).ordinal.at 0 t.fillTable →
     (t.op = 2 ∧ c = .gather d ∨ t.op = 3 ∧ c = .scatter d ∨ t.op = 4 ∧ c = .collect d) →
     ∃ u, exec c s = .next u ∧ (u.pkg.unit d.val).served = true ∧
       (u.pkg.unit d.val).triggers.at 0 n = (s.pkg.unit d.val).triggers.at 0 n - t.nTrig ∧ s.pkg.flits <+: u.pkg.flits ∧
       u.pkg.tiles = s.pkg.tiles) ∧
   ∀ (s : State) (d : DieNo) (x : DieSection) (e : Nat × Nat), s.Runs .data → s.pkg.section d.val = some x → (s.pkg.unit d.val).served = true →
     x.seq[(s.pkg.unit d.val).pos]? = some e →
     Does (.dispatchTableAdvance d) s (s.pkg.setUnit d.val
       (if (s.pkg.unit d.val).rep + 1 < e.2 then { s.pkg.unit d.val with served := false, rep := (s.pkg.unit d.val).rep + 1 }
        else if (s.pkg.unit d.val).pos + 1 < x.seq.length then
          { s.pkg.unit d.val with served := false, rep := 0, pos := (s.pkg.unit d.val).pos + 1 }
        else { s.pkg.unit d.val with served := false, rep := 0, pos := 0, ordinal := [] })))

/-- In PS0, with an image at a position: the next entry of an idle tier engine starts once its beat has passed, or has come with the events of the
beat evaluated, while no placement move runs, and an empty one is done at once. The end of an entry frees its engine for the next one, and before its
deadline memory is as its copy leaves it. An entry that is late, and not on record, raises events 0x3C07 and 0x3806 and is counted. -/
def Obligations.StageEntries : Prop :=
  (∀ (s : State) (e : DieNo) (i : Image) (ent : StageEnt) (due : Nat), s.Runs .data → s.pkg.posImage = some i →
    s.pkg.stageDue i e.val (s.pkg.tier e.val).next = some (ent, due) → s.pkg.reg O.imageState = 4 →
    (due < s.pkg.schedBeat ∨ due = s.pkg.schedBeat ∧ s.pkg.evaluates = true) →
    (s.pkg.tier e.val).busy = none → s.pkg.movesRun = false →
    ∃ t, exec (.stageEntryStart e) s = .next t ∧
      (ent.length = 0 → t.pkg.tier e.val = { s.pkg.tier e.val with next := (s.pkg.tier e.val).next + 1 }) ∧
      (ent.length ≠ 0 → t.pkg.tier e.val = { s.pkg.tier e.val with
        busy := some (s.pkg.tier e.val).next, startBeat := s.pkg.schedBeat }) ∧
      (∀ f, f ≠ e.val → t.pkg.tier f = s.pkg.tier f) ∧ SameMemory s t ∧ SameRegs s t ∧ t.pkg.tiles = s.pkg.tiles) ∧
  (∀ (s : State) (e : DieNo) (i : Image) (ent : StageEnt) (k due : Nat), s.Runs .data → s.pkg.posImage = some i →
    (s.pkg.tier e.val).busy = some k → s.pkg.stageDue i e.val (s.pkg.tier e.val).next = some (ent, due) →
    ∃ t, exec (.stageEntryComplete e) s = .next t ∧ t.pkg.tier e.val = { s.pkg.tier e.val with
        next := (s.pkg.tier e.val).next + 1, busy := none } ∧ (∀ f, f ≠ e.val → t.pkg.tier f = s.pkg.tier f) ∧
      (s.pkg.schedBeat < due + ent.deadline → t.pkg.mem =
        (if ent.dirIn then
          s.pkg.copyBlock (72 + e.val) (s.pkg.blockAddr i ent.group ent.expert + ent.partOffset) ent.frame ent.length
        else s.pkg.copyBlock (72 + e.val) ent.frame (s.pkg.blockAddr i ent.group ent.expert + ent.partOffset) ent.length).mem)) ∧
  ∀ (s : State) (e : DieNo) (i : Image), s.Runs .data → s.pkg.loader.image = some i → s.pkg.isLate (.stage e) = true →
    s.pkg.sched.lateOf (.stage e) = [] →
    ∃ t, exec (.stageEntryDeadline e) s = .next t ∧ RaisedEver t 0x3C07 ∧ RaisedEver t 0x3806 ∧
      t.pkg.reg (O.stageLateEntries + e.val) = min (s.pkg.reg (O.stageLateEntries + e.val) + 1) (2 ^ 32 - 1) ∧ SameMemory s t

/-! ## Package memory -/

/-- With every spare_col and spare_core in its range: every logical tile has a physical tile and every physical tile but the held-out ones a logical
one, each the inverse of the other; a core has no hart exactly where it is the held-out one, and no two cores share a hart. No two addresses of memory
have one place, and the words of a place's row hold every address of it. -/
def Obligations.MappingsAreOneToOne : Prop :=
  (∀ (p : Pkg) (n : Nat), (∀ k < 16, p.reg (O.spareCol + k) ≤ 12) → n < 192 → p.physTile n < 208 ∧ p.logicalTile (p.physTile n) = n) ∧
  (∀ (p : Pkg) (q : Nat), (∀ k < 16, p.reg (O.spareCol + k) ≤ 12) → q < 208 →
    (p.logicalTile q = 0xFF ↔ q % 13 = p.reg (O.spareCol + q / 13)) ∧
    (p.logicalTile q ≠ 0xFF → p.logicalTile q < 192 ∧ p.physTile (p.logicalTile q) = q)) ∧
  (∀ (p : Pkg) (c e : Nat), (∀ k < 4, p.reg (O.spareCore + k) ≤ 16) → c < 68 → e < 68 →
    (p.hartOf c = 0xFF ↔ c % 17 = p.reg (O.spareCore + c / 17)) ∧
    (p.hartOf c ≠ 0xFF → p.hartOf c < 64 ∧ (p.hartOf e = p.hartOf c → e = c))) ∧
  (∀ a b : Nat, isMem a = true → isMem b = true → placeOf a = placeOf b → a = b) ∧
  ∀ a : Nat, isMem a = true → (placeOf a).die < 4 ∧ (placeOf a).unitNo < 36 ∧
    a / 16 * 16 ∈ rowWords (placeOf a).rowId

/-- While the control plane runs, the pads are free and the unit's clock is there, the first access of its set that waits is served: a core's read of
a line of clean words gives it their words and leaves memory alone; a whole-line write stores its words, poison included, and touches no other byte; a
correction stores its word. While the control plane runs below PS2 with scrub_enable set, and nothing waits for its next set, the scrubber of a die
reads that set, leaves each word of it clean or poison, and goes on to the next one; no byte outside the set changes. With a window open whose hours
have passed, a window close restarts the die's counts and moves the window on. mem_test_owner of a die takes a claim where it holds 0, and takes 0. In
the image states in which repair runs, with the port free, repair takes the die's first candidate and claims the port as 2; its end removes the
candidate, sets the unit's resources left, and counts the row as repaired with event 0x4007, or as retired with event 0x4008 and 0 days of package
life. A decode query takes an address of memory and refuses another. In PS2 an idle unit enters self-refresh. Each while its plane runs. -/
def Obligations.MemoryUnits : Prop :=
  (∀ (s : State) (u : Nat), s.Runs .control → s.pkg.firstOfSet u = true → bitOf (s.pkg.reg O.padHeld) 0 = false →
     (∀ line c, s.pkg.memsys.queue[u]? = some (.read line fullMask (.core c)) →
       s.pkg.supply.pllOff.at false (12 + (placeOf (64 * line)).unitNo) = false →
       (∀ w < 4, checkWord (s.pkg.word (line * 64 + 16 * w)) = .clean) →
       ∃ t f, exec (.memoryLineRead u) s = .next t ∧ t.pkg.memsys.queue = dropAt s.pkg.memsys.queue u ∧
         t.pkg.coh.fills = s.pkg.coh.fills ++ [f] ∧ f.core = c ∧ f.line = line ∧
         f.data = some ((List.range 4).map fun w => goodWord (s.pkg.word (line * 64 + 16 * w)).data) ∧ SameMemory s t ∧ SameRegs s t ∧
         t.pkg.tiles = s.pkg.tiles) ∧
     (∀ line data, s.pkg.memsys.queue[u]? = some (.write line fullMask data) → data.length = 4 →
       s.pkg.supply.pllOff.at false (12 + (placeOf (64 * line)).unitNo) = false →
       ∃ t, exec (.memoryLineWrite u) s = .next t ∧ t.pkg.memsys.queue = dropAt s.pkg.memsys.queue u ∧
         (∀ w < 4, readWord (t.pkg.word (line * 64 + 16 * w)) = readWord (data.getD w zeroWord)) ∧
         SameMemoryBut (fun b => line * 64 ≤ b ∧ b < line * 64 + 64) s t ∧ t.pkg.tiles = s.pkg.tiles) ∧
     (∀ word w, s.pkg.memsys.queue[u]? = some (.correct word w) →
       s.pkg.supply.pllOff.at false (12 + (placeOf (16 * word)).unitNo) = false →
       ∃ t, exec (.correctionWriteback u) s = .next t ∧ t.pkg.memsys.queue = dropAt s.pkg.memsys.queue u ∧
         t.pkg.word (word * 16) = w ∧ SameMemoryBut (fun b => word * 16 ≤ b ∧ b < word * 16 + 16) s t ∧ SameRegs s t ∧
         t.pkg.tiles = s.pkg.tiles)) ∧
  ((∀ (s : State) (n : DieNo), s.Runs .control → s.pkg.reg O.scrubEnable ≠ 0 → s.pkg.reg O.psCurrent < 2 →
     s.pkg.memsys.queue.any (fun o => decide (o.set = setOf (scrubSet n.val (s.pkg.memsys.scrubPos.at 0 n.val)).1)) = false →
     ∃ t, exec (.patrolScrubRead n) s = .next t ∧
       t.pkg.memsys.scrubPos.at 0 n.val =
         (if s.pkg.memsys.scrubPos.at 0 n.val + 1 = setsPerDie then 0 else s.pkg.memsys.scrubPos.at 0 n.val + 1) ∧
       (∀ k < (scrubSet n.val (s.pkg.memsys.scrubPos.at 0 n.val)).2,
         checkWord (t.pkg.word ((scrubSet n.val (s.pkg.memsys.scrubPos.at 0 n.val)).1 + 16 * k)) = .clean ∨
         checkWord (t.pkg.word ((scrubSet n.val (s.pkg.memsys.scrubPos.at 0 n.val)).1 + 16 * k)) = .poison) ∧
       SameMemoryBut (fun b => (scrubSet n.val (s.pkg.memsys.scrubPos.at 0 n.val)).1 ≤ b ∧
         b < (scrubSet n.val (s.pkg.memsys.scrubPos.at 0 n.val)).1 + 16 * (scrubSet n.val (s.pkg.memsys.scrubPos.at 0 n.val)).2) s t ∧
       t.pkg.tiles = s.pkg.tiles) ∧
   ∀ (s : State) (n : DieNo) (w : Nat × Nat), s.Runs .control →
     (s.pkg.memsys.window.find? fun e => decide (e.1 = n.val)) = some w → w.2 + s.pkg.scrubPeriod ≤ s.pkg.mtime →
     ∃ t, exec (.scrubWindowClose n) s = .next t ∧ t.pkg.memsys.rowCorr = (s.pkg.restartCounts n.val).memsys.rowCorr ∧
       t.pkg.memsys.sideband = (s.pkg.restartCounts n.val).memsys.sideband ∧
       t.pkg.memsys.window = s.pkg.memsys.window.map (fun e => if e.1 = n.val then (e.1, w.2 + s.pkg.scrubPeriod) else e) ∧
       SameMemory s t ∧ SameRegs s t ∧ t.pkg.tiles = s.pkg.tiles) ∧
  ((∀ (s : State) (w : Writer) (n : DieNo) (v : Nat), s.Runs (writerPlane w) → v ≤ 3 → (s.pkg.reg (O.memTestOwner + n.val) = 0 ∨ v = 0) →
     Does (.memTestOwnerWrite w n v) s (s.pkg.setReg (O.memTestOwner + n.val) v)) ∧
   (∀ (s : State) (n : DieNo) (r : RowId) (rest : List RowId), s.Runs .control → s.pkg.memsys.cands.at [] n.val = r :: rest →
     repairRuns (s.pkg.reg O.imageState) = true → s.pkg.memsys.repairing.find n.val = none →
     s.pkg.reg (O.memTestOwner + n.val) = 0 →
     ∃ t, exec (.repairStart n) s = .next t ∧ t.pkg.memsys.repairing.find n.val = some r ∧ t.pkg.memsys.cands.at [] n.val = rest ∧
       t.pkg.reg (O.memTestOwner + n.val) = 2 ∧ t.pkg.reg (O.repairCandidates + n.val) = rest.length ∧ SameMemory s t ∧
       SameRegsBut (fun k => k = O.memTestOwner + n.val ∨ k = O.repairCandidates + n.val) s t ∧ t.pkg.tiles = s.pkg.tiles) ∧
   (∀ (s : State) (n : DieNo) (r : RowId) (x : Bool) (left : Nat), s.Runs .control →
     repairRuns (s.pkg.reg O.imageState) = true → s.pkg.memsys.repairing.find n.val = some r → r.unit < 36 →
     ∃ t, exec (.repairDone n x left) s = .next t ∧ t.pkg.memsys.repairing.find n.val = none ∧
       t.pkg.reg (if r.unit < 12 then O.hbmRepairsLeft + r.unit else O.lpddrRepairsLeft + (r.unit - 12)) = left % 65536 ∧
       (x = false → t.pkg.reg O.rowsRepaired = min (s.pkg.reg O.rowsRepaired + 1) (2 ^ 32 - 1) ∧ RaisedLast t 0x4007) ∧
       (x = true → t.pkg.reg O.rowsRetired = min (s.pkg.reg O.rowsRetired + 1) (2 ^ 16 - 1) ∧ RaisedEver t 0x4008 ∧
         t.pkg.reg O.packageEolDays = 0 ∧ SameMemory s t)) ∧
   (∀ (s : State) (pt : Path) (v : Nat), s.Runs (pathPlane pt) → (isMem v = true → Does (.decodeQuery pt v) s (s.pkg.setReg O.decodeQuery v)) ∧
     (isMem v = false → Does (.decodeQuery pt v) s (s.pkg.refuse pt O.decodeQuery abRange))) ∧
   ∀ (s : State) (u : Fin 36), s.Runs .control → s.pkg.reg O.psCurrent = 2 →
     ∃ t, exec (.selfRefreshIdleEntry u) s = .next t ∧ t.pkg.memsys.selfRefresh.at false u.val = true ∧ SameMemory s t ∧ SameRegs s t ∧
       t.pkg.tiles = s.pkg.tiles)

/-! ## Coherence -/

/-- Whatever the request, an entry of the directory that names an owner after it names exactly one agent; and no snoop of a request of a core for a
line, or of an agent without a cache, goes to the requester or to anything but a core. -/
def Obligations.DirectoryKeepsOneOwner : Prop :=
  (∀ (e : DirEnt) (q : Req), (2 ≤ e.st → ∃ o < 68, e.sharers = 2 ^ o) →
    (rowNext (dirRow e q) e q.requester).2 ≠ 0 → 2 ≤ (rowNext (dirRow e q) e q.requester).1 →
    ∃ o, (rowNext (dirRow e q) e q.requester).2 = 2 ^ o) ∧
  ∀ (e : DirEnt) (q : Req) (c : Nat) (k : SnoopKind), (c, k) ∈ rowSnoops (dirRow e q) e q.requester →
    (q.kind = .rdShared ∨ q.kind = .rdOwn ∨ q.kind = .upgrade ∨ 68 ≤ q.requester) → c ≠ q.requester ∧ c < 68

/-- While the control plane runs and no sweep does, the home serves the request that its arbiter selects for a free line whose set reads without an
error, where the row needs no entry, or finds a free way with no recall under way: the request leaves the arbiter, the pointer moves past a requester
that the second step chose, and the row's effect follows. What a served request leaves: a line without an entry that finds a free way becomes E for a
RdShared and M for a RdOwn, with the requester as its one holder, and for the RdShared a read of the line is queued and the line is busy; a dirty
write-back by the owner queues its data, outside the image, and frees the eviction buffer; a notice that comes too late changes no entry. -/
def Obligations.HomesServe : Prop :=
  (∀ (s : State) (line : Nat) (c : Instr) (k : ReqKind) (v : Bool) (q : Req) (step2 : Bool) (n : Nat),
     (c = .rdShared line ∧ k = .rdShared ∧ v = false ∨ c = .rdOwn line ∧ k = .rdOwn ∧ v = false ∨
       c = .upgrade line ∧ k = .upgrade ∧ v = false ∨ c = .wbDirty line ∧ k = .wbDirty ∧ v = false ∨
       c = .evClean line ∧ k = .evClean ∧ v = false ∨ c = .rdSnoop line ∧ k = .rdSnoop ∧ v = false ∨
       c = .wrInv line ∧ k = .wrInv ∧ v = false ∨ c = .directoryRecall line ∧ k = .wrInv ∧ v = true) →
     s.Runs .control → s.pkg.busyAt line = none → s.pkg.coh.sweep = false → s.pkg.select line = some (q, step2, n) → q.kind = k →
     decide (q.tag = .victim) = v → s.SetClean line →
     (allocates (dirRow (s.pkg.dirFind line) q) = false ∨ ((s.pkg.freeWay line).isSome ∧ s.pkg.recalling line = false)) →
     ∃ p, Does c s (Pkg.homeServe p q (s.pkg.dirFind line) (dirRow (s.pkg.dirFind line) q)) ∧
       p.coh = { s.pkg.coh with arb := s.pkg.coh.arb.erase q } ∧ p.memsys = s.pkg.memsys ∧ p.mem = s.pkg.mem ∧
       Pkg.reg p (O.arbiterPointer + dieOf (line * 64)) =
         (if step2 then (q.requester + 1) % 80 else s.pkg.reg (O.arbiterPointer + dieOf (line * 64)))) ∧
  ((∀ (p : Pkg) (q : Req), q.requester < 68 → q.line < 2 ^ 40 → (p.dirFind q.line).way = none → (p.freeWay q.line).isSome →
     ((p.homeServe q ⟨none, 0, 0⟩ 1).dirFind q.line).st = 2 ∧ ((p.homeServe q ⟨none, 0, 0⟩ 1).dirFind q.line).sharers = 2 ^ q.requester ∧
     ((p.homeServe q ⟨none, 0, 0⟩ 2).dirFind q.line).st = 3 ∧ ((p.homeServe q ⟨none, 0, 0⟩ 2).dirFind q.line).sharers = 2 ^ q.requester ∧
     (p.homeServe q ⟨none, 0, 0⟩ 1).memsys.queue = p.memsys.queue ++ [.read q.line fullMask q.tag] ∧
     (p.homeServe q ⟨none, 0, 0⟩ 1).busyAt q.line = some ⟨q.line, q, 1, 0, none, false, false, p.mtime⟩) ∧
   (∀ (p : Pkg) (q : Req) (e : DirEnt), p.hitsImage q.line fullMask = false →
     (p.homeServe q e 17).memsys.queue = p.memsys.queue ++ [.write q.line fullMask q.data] ∧
     (p.homeServe q e 17).evb q.requester q.line = none) ∧
   ∀ (p : Pkg) (q : Req) (e : DirEnt), (p.homeServe q e 18).coh.dir = p.coh.dir ∧ (p.homeServe q e 18).memsys = p.memsys ∧
     (p.homeServe q e 20).coh.dir = p.coh.dir ∧ (p.homeServe q e 18).evb q.requester q.line = none)

/-- While the control plane runs, a core that holds a line without an error answers the snoop on its way to it: FwdS leaves the line shared, SnpRd as
it is, the others take it away; the answer carries the data with all but Inv, and with InvD only where the line is dirty. While the control plane
runs: a core's request that arrives at a home with room joins its arbiter with its cycle; an answer that a home awaits is taken off its count, and one
for a line not in service is dropped with event 0x4206; the acknowledgement of a requester that has been served frees the line; a home whose snoop is
home_timeout_us old gives up: it counts, raises event 0x4201 and queues poison for the line. -/
def Obligations.SnoopsAndHomeEvents : Prop :=
  (∀ (s : State) (c : CoreNo) (line i : Nat) (x : L2Line) (sn : Snoop) (k : SnoopKind) (cmd : Instr),
     (cmd = .fwdS c line ∧ k = .fwdS ∨ cmd = .fwdM c line ∧ k = .fwdM ∨ cmd = .inv c line ∧ k = .inv ∨
       cmd = .invD c line ∧ k = .invD ∨ cmd = .snpRd c line ∧ k = .snpRd) →
     s.Runs .control → s.pkg.l2 c.val line = some x → (∀ w < 4, checkWord (x.data.getD w zeroWord) = .clean) →
     s.pkg.coh.snoops.findIdx? (fun y => y.open c.val line && decide (y.kind = k)) = some i →
     s.pkg.coh.snoops[i]? = some sn →
     ∃ t, exec cmd s = .next t ∧
       t.pkg.l2 c.val line = (if k = .fwdS then some { x with st := .s } else if k = .snpRd then some x else none) ∧
       t.pkg.coh.snoops[i]? = some { sn with
         answered := true
         answer := if k = .inv ∨ (k = .invD ∧ x.st ≠ .m) then none else some x.data
         dirty := decide (k ≠ .inv ∧ x.st = .m) } ∧
       t.pkg.coh.dir = s.pkg.coh.dir ∧ SameMemory s t ∧ SameRegs s t ∧ t.pkg.tiles = s.pkg.tiles) ∧
  ((∀ (s : State) (cyc k : Nat) (q : Req), s.Runs .control → s.pkg.coh.net[k]? = some q → q.kind ≠ .wrInv → q.requester < 68 →
     s.SetClean q.line →
     (s.pkg.coh.arb.filter fun x => decide (dieOf (x.line * 64) = dieOf (q.line * 64))).length < 512 →
     ∃ t, exec (.coherentRequestArrival [k] cyc) s = .next t ∧ t.pkg.coh.net = s.pkg.coh.net.erase q ∧
       t.pkg.coh.arb = s.pkg.coh.arb ++ [{ q with arrival := cyc }] ∧ t.pkg.coh.dir = s.pkg.coh.dir ∧ SameMemory s t ∧ SameRegs s t) ∧
   (∀ (s : State) (c : CoreNo) (line i : Nat) (sn : Snoop), s.Runs .control →
     s.pkg.coh.snoops.findIdx? (fun y => decide (y.core = c.val ∧ y.line = line) && y.answered) = some i → s.pkg.coh.snoops[i]? = some sn →
     (s.pkg.busyAt line = none →
       ∃ t, exec (.snoopAnswer c line) s = .next t ∧ t.pkg.coh.snoops = dropAt s.pkg.coh.snoops i ∧ RaisedLast t 0x4206 ∧ SameMemory s t ∧
         SameRegs s t) ∧
     ∀ b, s.pkg.busyAt line = some b → sn.stale = false → 2 ≤ b.waiting →
       ∃ t, exec (.snoopAnswer c line) s = .next t ∧ t.pkg.coh.snoops = dropAt s.pkg.coh.snoops i ∧
         (t.pkg.busyAt line).map (·.waiting) = some (b.waiting - 1) ∧ t.pkg.memsys = s.pkg.memsys ∧ SameMemory s t ∧ SameRegs s t) ∧
   (∀ (s : State) (r : Fin 80) (line : Nat) (b : Busy), s.Runs .control → s.pkg.busyAt line = some b → b.req.requester = r.val → b.filled = true →
     ∃ t, exec (.completionAck r line) s = .next t ∧ t.pkg.busyAt line = none ∧ t.pkg.coh.dir = s.pkg.coh.dir ∧ SameMemory s t ∧
       SameRegs s t) ∧
   ∀ (s : State) (c : CoreNo) (line : Nat) (b : Busy), s.Runs .control → s.pkg.busyAt line = some b →
     b.sent + 100 * s.pkg.reg O.homeTimeoutUs ≤ s.pkg.mtime → b.req.kind ≠ .wrInv →
     s.pkg.coh.snoops.any (fun x => decide (x.core = c.val ∧ x.line = line) && !x.stale) = true →
     ∃ t, exec (.homeTimeout c line) s = .next t ∧ RaisedLast t 0x4201 ∧
       t.pkg.reg (O.homeTimeouts + c.val) = min (s.pkg.reg (O.homeTimeouts + c.val) + 1) (2 ^ 32 - 1) ∧
       t.pkg.memsys.queue = s.pkg.memsys.queue ++ [.write line fullMask (poisonLine.map packWord)] ∧ SameMemory s t)

/-- A core that is online and waits at no fence, while the control plane runs. A load, or a load-reserved of a form that memory has, within a line it
holds without error completes with its words; one of a line it lacks and has not asked for sends RdShared. A store to a line it owns is done at once
and makes it M; to a shared one it asks for an upgrade, to one it lacks for ownership. An atomic access on a line it owns gives the old value and
stores the new one; a store-conditional without its reservation gives 1 and stores nothing. A load of a reserved address traps; a store to tile SRAM
changes no byte outside the words it meets. -/
def Obligations.CoreAccesses : Prop :=
  ∀ (s : State) (c : CoreNo) (a : Nat), s.Runs .control → s.pkg.coreOn c.val = true → s.pkg.coh.fencing.at false c.val = false →
    (∀ len lr, len ≠ 0 → s.pkg.coh.loads.find c.val = none → s.pkg.coh.stores.find c.val = none → accessIn a len = .hbm →
      a % 64 + len ≤ 64 → s.pkg.evicting c.val a len = false → (lr = true → atomicOk a len = true) →
      (∀ x, s.pkg.l2 c.val (a / 64) = some x → x.data.length = 4 → (∀ w ∈ x.data, checkWord w = .clean) →
        ∃ t ws, exec (.coreLoad c a ⟨len, lr⟩) s = .next t ∧ t.pkg.out = s.pkg.out ++ [.readData ws] ∧
          ws = ((x.data.map readWord).drop (a % 64 / 16)).take (ceilDiv (a % 16 + len) 16) ∧ t.pkg.l2 c.val (a / 64) = some x ∧
          (lr = true → t.pkg.coh.reserved.find c.val = some (a / 64)) ∧ SameMemory s t ∧ SameRegs s t) ∧
      (s.pkg.l2 c.val (a / 64) = none → s.pkg.asked c.val (a / 64) = false →
        ∃ t, exec (.coreLoad c a ⟨len, lr⟩) s = .next t ∧
          t.pkg.coh.net = s.pkg.coh.net ++ [⟨c.val, .rdShared, a / 64, fullMask, [], .core c.val, false, 0⟩] ∧
          t.pkg.coh.loads.at (0, 0, false) c.val = (a, len, lr) ∧ SameMemory s t ∧ SameRegs s t)) ∧
    (∀ l : List Byte, l ≠ [] → s.pkg.coh.stores.find c.val = none → accessIn a l.length = .hbm → a % 64 + l.length ≤ 64 →
      s.pkg.evicting c.val a l.length = false →
      (∀ x, s.pkg.l2 c.val (a / 64) = some x → x.st ≠ .s → (∀ w < 4, checkWord (x.data.getD w zeroWord) = .clean) →
        (∃ t, exec (.coreStore c a ⟨l, .plain⟩) s = .next t ∧
          t.pkg.l2 c.val (a / 64) = some ⟨.m, (lineStore x.words (a / 64) a l).map packWord⟩ ∧ t.pkg.coh.net = s.pkg.coh.net ∧
          SameMemory s t ∧ SameRegs s t) ∧
        ∀ kind b, kind ≠ .plain → kind ≠ .sc → atomicOk a l.length = true →
          wordsBytes [x.words.getD (a % 64 / 16) none] = some b →
          ∃ t, exec (.coreStore c a ⟨l, kind⟩) s = .next t ∧
            t.pkg.out = s.pkg.out ++ [.value (leNat ((b.drop (a % 16)).take l.length))] ∧
            t.pkg.l2 c.val (a / 64) = some ⟨.m, (lineStore x.words (a / 64) a (toLe l.length
              (amoValue kind l.length (leNat ((b.drop (a % 16)).take l.length)) (leNat l)))).map packWord⟩ ∧
            SameMemory s t ∧ SameRegs s t) ∧
      (∀ x, s.pkg.l2 c.val (a / 64) = some x → x.st = .s → s.pkg.asked c.val (a / 64) = false →
        ∃ t, exec (.coreStore c a ⟨l, .plain⟩) s = .next t ∧
          t.pkg.coh.net = s.pkg.coh.net ++ [⟨c.val, .upgrade, a / 64, fullMask, [], .core c.val, false, 0⟩] ∧
          t.pkg.coh.stores.at ⟨0, [], .plain⟩ c.val = ⟨a, l, .plain⟩ ∧ SameMemory s t ∧ SameRegs s t) ∧
      (s.pkg.l2 c.val (a / 64) = none → s.pkg.asked c.val (a / 64) = false →
        ∃ t, exec (.coreStore c a ⟨l, .plain⟩) s = .next t ∧
          t.pkg.coh.net = s.pkg.coh.net ++ [⟨c.val, .rdOwn, a / 64, fullMask, [], .core c.val, false, 0⟩] ∧
          t.pkg.coh.stores.at ⟨0, [], .plain⟩ c.val = ⟨a, l, .plain⟩ ∧ SameMemory s t ∧ SameRegs s t) ∧
      (atomicOk a l.length = true → s.pkg.coh.reserved.find c.val ≠ some (a / 64) →
        Does (.coreStore c a ⟨l, .sc⟩) s (s.pkg.emit (.value 1)))) ∧
    (∀ len lr, len ≠ 0 → s.pkg.coh.loads.find c.val = none → s.pkg.coh.stores.find c.val = none → accessIn a len = .reserved →
      ∃ t, exec (.coreLoad c a ⟨len, lr⟩) s = .next t ∧ t.pkg.coh.trap.find c.val = some .accessFault ∧ t.pkg.out = s.pkg.out ∧
        SameMemory s t ∧ SameRegs s t) ∧
    ∀ l : List Byte, l ≠ [] → s.pkg.coh.stores.find c.val = none → accessIn a l.length = .tileSram →
      ∃ t, exec (.coreStore c a ⟨l, .plain⟩) s = .next t ∧
        SameMemoryBut (fun b => a / 16 * 16 ≤ b ∧ b < (a + l.length + 15) / 16 * 16) s t ∧ SameRegs s t

/-- While its plane runs: a line that a core replaces, without an error and with no request of the core for it outstanding, moves to its eviction
buffer and its notice goes out, dirty as a write-back and clean as EvClean; a fill with its data puts its line in the cache where its set has room and
nothing of the core waits; a fence does nothing where no store waits, and waits otherwise. reclaim_owner takes a claim where it holds 0, and takes 0;
a sweep that claimant 3 asks for starts while the image does not run and every agent named is offline or retired, and ends in state 2; a core that is
online can be taken offline, and one that the boot stage holds can be started. -/
def Obligations.CoreAndReclaimCommands : Prop :=
  (∀ (s : State) (c : CoreNo) (line : Nat) (x : L2Line), s.Runs .control → s.pkg.l2 c.val line = some x →
    (∀ w < 4, checkWord (x.data.getD w zeroWord) = .clean) → s.pkg.asked c.val line = false →
    ∃ t, exec (.coreReplacement c line) s = .next t ∧ t.pkg.l2 c.val line = none ∧ t.pkg.evb c.val line = some x ∧
      t.pkg.coh.net = s.pkg.coh.net ++ [⟨c.val, if x.st = .m then .wbDirty else .evClean, line, fullMask,
        if x.st = .m then x.data else [], .core c.val, false, 0⟩] ∧ SameMemory s t ∧ SameRegs s t) ∧
  (∀ (s : State) (c : CoreNo) (line i : Nat) (f : Fill) (d : List PWord), s.Runs .control →
    s.pkg.coh.fills.findIdx? (fun f => decide (f.core = c.val ∧ f.line = line)) = some i → s.pkg.coh.fills[i]? = some f →
    f.data = some d → s.pkg.coh.stores.find c.val = none → s.pkg.coh.loads.find c.val = none →
    ((s.pkg.l2Set c.val line).filter (fun x => decide (x ≠ line))).length < 16 →
    ∃ t, exec (.coreFill c line) s = .next t ∧ t.pkg.l2 c.val line = some ⟨f.st, d⟩ ∧ t.pkg.coh.fills = dropAt s.pkg.coh.fills i ∧
      SameMemory s t ∧ SameRegs s t) ∧
  (∀ (s : State) (c : CoreNo), s.Runs .control → (s.pkg.coh.stores.find c.val = none → Does (.fence c) s s.pkg) ∧
    ((s.pkg.coh.stores.find c.val).isSome → ∃ t, exec (.fence c) s = .next t ∧ t.pkg.coh.fencing.at false c.val = true ∧ SameMemory s t ∧
      SameRegs s t)) ∧
  (∀ (s : State) (w : Writer) (v : Nat), s.Runs (writerPlane w) → v ≤ 3 → (s.pkg.reg O.reclaimOwner = 0 ∨ v = 0) →
    ∃ t, exec (.reclaimOwnerWrite w v) s = .next t ∧ t.pkg.reg O.reclaimOwner = v ∧ SameMemory s t ∧ t.pkg.tiles = s.pkg.tiles ∧
      (w ≠ .unit → SameRegsBut (fun k => k = O.reclaimOwner) s t)) ∧
  (∀ (s : State) (pt : Path), s.Runs (pathPlane pt) → s.pkg.reg O.reclaimOwner = 3 → s.pkg.reclaimAgents ≠ 0 →
    s.pkg.reg O.imageState ≠ 4 → s.pkg.coh.sweep = false →
    (∀ c ∈ agents s.pkg.reclaimAgents, s.pkg.reg (O.coreState + c) = 1 ∨ s.pkg.reg (O.coreState + c) = 3) →
    ∃ t, exec (.reclaimStart pt 1) s = .next t ∧ t.pkg.coh.sweep = true ∧ t.pkg.reg O.reclaimState = 1 ∧ SameMemory s t ∧
      SameRegsBut (fun k => k = O.reclaimState) s t) ∧
  (∀ s : State, s.Runs .control → s.pkg.coh.sweep = true →
    ∃ t, exec .reclaimSweepComplete s = .next t ∧ t.pkg.coh.sweep = false ∧ t.pkg.reg O.reclaimState = 2 ∧ t.pkg.tiles = s.pkg.tiles) ∧
  (∀ (s : State) (c : CoreNo), s.Runs .control → s.pkg.coreOn c.val = true →
    ∃ t, exec (.coreTakenOffline c) s = .next t ∧ t.pkg.reg (O.coreState + c.val) = 1 ∧ t.pkg.tiles = s.pkg.tiles) ∧
  ∀ (s : State) (c : CoreNo), s.Runs .control → s.pkg.boot.osStarted = true → s.pkg.boot.coreHeld.at false c.val = true →
    s.pkg.reg (O.coreState + c.val) = 1 →
    ∃ t, exec (.coreStarted c) s = .next t ∧ t.pkg.reg (O.coreState + c.val) = 0 ∧ t.pkg.boot.coreHeld.at false c.val = false ∧
      SameMemory s t ∧ SameRegsBut (fun k => k = O.coreState + c.val) s t

/-! ## Links -/

/-- While links run, an up port sends one codeword. With no replay under way and fewer than 512 codewords kept, it is a new one: eight flits, the
first an acknowledgement where the position is a multiple of 16, on the lanes of that position's map; it is kept, the position moves on, and no other
port changes but in the credits it owes. In a replay it is the codeword kept at the position in turn, and nothing else moves. With 512 kept it is
eight idle flits, which take no position (log 45). While links run: an acknowledgement releases the codewords at or below its position and returns its
credits; a nak of a codeword that is kept and not acknowledged starts a replay from it, and is counted. At an up port, a codeword at the position in
turn that cannot be read is counted and asks for that position again; one that can be read is taken, flit by flit; an unreadable one from further on
is counted and leaves the position; one from before changes nothing but the count of corrected symbols. -/
def Obligations.CodewordsAndRetry : Prop :=
  (∀ (s : State) (i : PortNo), s.Runs .link → s.pkg.reg (O.portState + i.val) = 2 →
     ((s.pkg.port i.val).resend = none → (s.pkg.port i.val).replay.length < 512 →
       ∃ t fs, exec (.codewordTransmit i) s = .next t ∧ fs.length = 8 ∧
         t.pkg.out = s.pkg.out ++ [.codeword i.val (laneSymbols ((s.pkg.port i.val).laneUse (s.pkg.port i.val).txPos)
           ((s.pkg.port i.val).spareAt.map (·.1)) (codeSymbols (fs.flatMap flitBytes)))] ∧
         ((s.pkg.port i.val).txPos % 16 = 0 → fs.head? = some (s.pkg.localFlit0 1 0
           (ackPayload (((s.pkg.port i.val).rxPos + 2 ^ 32 - 1) % 2 ^ 32) (s.pkg.port i.val).freed))) ∧
         (t.pkg.port i.val).replay = (s.pkg.port i.val).replay ++ [((s.pkg.port i.val).txPos, fs)] ∧
         (t.pkg.port i.val).txPos = ((s.pkg.port i.val).txPos + 1) % 2 ^ 32 ∧
         (∀ k : Nat, k ≠ i.val → { t.pkg.port k with freed := [] } = { s.pkg.port k with freed := [] }) ∧
         SameMemory s t ∧ SameRegs s t ∧ t.pkg.tiles = s.pkg.tiles) ∧
     (∀ pos e r, (s.pkg.port i.val).resend = some pos → (s.pkg.port i.val).replay.dropWhile (fun e => decide (e.1 ≠ pos)) = e :: r →
       ∃ t, exec (.codewordTransmit i) s = .next t ∧
         t.pkg.out = s.pkg.out ++ [.codeword i.val (laneSymbols ((s.pkg.port i.val).laneUse e.1)
           ((s.pkg.port i.val).spareAt.map (·.1)) (codeSymbols (e.2.flatMap flitBytes)))] ∧
         (t.pkg.port i.val).resend = r.head?.map (·.1) ∧ (t.pkg.port i.val).replay = (s.pkg.port i.val).replay ∧
         (t.pkg.port i.val).txPos = (s.pkg.port i.val).txPos ∧ SameMemory s t ∧ SameRegs s t) ∧
     ((s.pkg.port i.val).resend = none → 512 ≤ (s.pkg.port i.val).replay.length →
       ∃ t, exec (.codewordTransmit i) s = .next t ∧
         t.pkg.out = s.pkg.out ++ [.codeword i.val (laneSymbols ((s.pkg.port i.val).laneUse (s.pkg.port i.val).txPos)
           ((s.pkg.port i.val).spareAt.map (·.1)) (codeSymbols ((List.replicate 8 s.pkg.idleFlit).flatMap flitBytes)))] ∧
         (t.pkg.port i.val).replay = (s.pkg.port i.val).replay ∧ (t.pkg.port i.val).txPos = (s.pkg.port i.val).txPos ∧
         SameMemory s t ∧ SameRegs s t)) ∧
  (∀ (s : State) (i : PortNo), s.Runs .link →
     (∀ position credits,
       ∃ t, exec (.ackFlit i position credits) s = .next t ∧
         (t.pkg.port i.val).replay = (s.pkg.port i.val).replay.filter (fun e => !atOrBelow e.1 position) ∧
         (t.pkg.port i.val).ackPos = (position + 1) % 2 ^ 32 ∧
         (∀ k < 5, (t.pkg.port i.val).credits.getD k 0 = (s.pkg.port i.val).credits.getD k 0 + credits.getD k 0) ∧
         SameMemory s t ∧ SameRegs s t ∧ t.pkg.tiles = s.pkg.tiles) ∧
     (∀ position, atOrBelow (position + 1) (s.pkg.port i.val).ackPos = false →
       (s.pkg.port i.val).replay.any (fun e => decide (e.1 = position)) = true →
       ∃ t, exec (.nakFlit i position) s = .next t ∧ (t.pkg.port i.val).resend = some position ∧
         t.pkg.reg (O.retries + i.val) = min (s.pkg.reg (O.retries + i.val) + 1) (2 ^ 32 - 1) ∧
         ((s.pkg.port i.val).retryFlag = false → RaisedLast t 0x4405) ∧ SameMemory s t ∧
         SameRegsBut (fun k => k = O.retries + i.val) s t) ∧
     (∀ w : RxCodeword, s.pkg.reg (O.portState + i.val) = 2 → goodFlits w = none →
       (w.pos = (s.pkg.port i.val).rxPos → (s.pkg.port i.val).nakPos = none →
         ∃ t, exec (.codewordReceive i w) s = .next t ∧
           t.pkg.reg (O.fecUncorrectable + i.val) = min (s.pkg.reg (O.fecUncorrectable + i.val) + 1) (2 ^ 32 - 1) ∧
           (t.pkg.port i.val).nakPos = some w.pos ∧ (t.pkg.port i.val).rxPos = w.pos ∧
           (t.pkg.port i.val).local0 = (s.pkg.port i.val).local0 ++ [(2, 0, toLe 8 w.pos)] ∧ SameMemory s t) ∧
       (w.pos ≠ (s.pkg.port i.val).rxPos → atOrBelow (s.pkg.port i.val).rxPos w.pos = true →
         ∃ t, exec (.codewordReceive i w) s = .next t ∧
           t.pkg.reg (O.fecUncorrectable + i.val) = min (s.pkg.reg (O.fecUncorrectable + i.val) + 1) (2 ^ 32 - 1) ∧
           (t.pkg.port i.val).rxPos = (s.pkg.port i.val).rxPos ∧ (t.pkg.port i.val).nakPos = (s.pkg.port i.val).nakPos ∧ SameMemory s t)) ∧
     (∀ w : RxCodeword, s.pkg.reg (O.portState + i.val) = 2 → atOrBelow (s.pkg.port i.val).rxPos w.pos = false →
       atOrBelow (s.pkg.port i.val).rxTop w.pos = false → w.pos ≠ (s.pkg.port i.val).rxPos →
       ∃ t, exec (.codewordReceive i w) s = .next t ∧ t.pkg.port i.val = s.pkg.port i.val ∧ SameMemory s t ∧
         SameRegsBut (fun k => k = O.fecCorrectedSymbols + 2 * i.val) s t) ∧
     ∀ (w : RxCodeword) fs, s.pkg.reg (O.portState + i.val) = 2 → goodFlits w = some fs → w.pos = (s.pkg.port i.val).rxPos →
       ∀ replayed, replayed = !atOrBelow (s.pkg.port i.val).rxTop w.pos →
       ∀ p, p = (s.pkg.bump64 (O.fecCorrectedSymbols + 2 * i.val) w.corrected).setPort i.val { s.pkg.port i.val with
           rxTop := if replayed then (s.pkg.port i.val).rxTop else (w.pos + 1) % 2 ^ 32 } →
       Does (.codewordReceive i w) s (fs.foldl (fun p f => p.flitIn i replayed f)
         (p.setPort i.val { p.port i.val with rxPos := (w.pos + 1) % 2 ^ 32, nakPos := none, nakRuns := 0 })))

/-- While links run: a port that is down and has not failed trains in PS0 with its pads released, and sends its identity; the neighbour's identity
brings it up, or its revision keeps it down, with event 0x4408; a lost lane makes it retrain, on the spare if that is free, and fails it otherwise; a
retrain ends with the port up, what its replay buffer holds to be sent first, or, once its limit has passed, with the port failed. While links run: a
margin that is not low is only kept; a low one of a lane, with the spare free, names the lane and a position 4,096 ahead; the far end's name is
answered with one of this end's own stream; at its position lane 8 carries the lane, with event 0x4401. A word that crosses a bridge is kept with its
last 32; what arrives whole is delivered, what cannot be corrected is replayed once, counted and reported, and a second failure delivers poison. While
its plane runs, link_test_owner takes a claim where it holds 0, refuses another's with event 0x4409, and takes 0; a diagnostic request of the claimant
for a port in state 0 or 4 changes nothing of the package. -/
def Obligations.PortsAndLanes : Prop :=
  (∀ (s : State) (i : PortNo), s.Runs .link →
     (s.pkg.reg O.psCurrent = 0 → bitOf (s.pkg.reg O.padHeld) 1 = false → (s.pkg.port i.val).dead = false →
       (s.pkg.reg (O.portState + i.val) = 0 ∨ s.pkg.reg (O.portState + i.val) = 1) →
       ∃ t, exec (.portTraining i) s = .next t ∧ t.pkg.reg (O.portState + i.val) = 1 ∧ (t.pkg.port i.val).credits = fullCredits ∧
         t.pkg.out = s.pkg.out ++ [.linkLocal i.val 3 0 (s.pkg.identityWord i.val)] ∧ SameMemory s t ∧
         SameRegsBut (fun k => k = O.portState + i.val) s t) ∧
     (∀ id port, s.pkg.reg (O.portState + i.val) = 1 →
       ∃ t, exec (.identityFlit i id port (s.pkg.reg O.revisionNumber)) s = .next t ∧ t.pkg.reg (O.portState + i.val) = 2 ∧
         t.pkg.reg (O.linkNeighbour + i.val) = fld (id % 4096) 16 + port % 16 ∧ RaisedLast t 0x4404 ∧ SameMemory s t ∧
         SameRegsBut (fun k => k = O.portState + i.val ∨ k = O.linkNeighbour + i.val) s t) ∧
     (∀ id port rev, s.pkg.reg (O.portState + i.val) = 1 → rev ≠ s.pkg.reg O.revisionNumber →
       Does (.identityFlit i id port rev) s (s.pkg.raise 0x4408 i.val 0)) ∧
     (s.pkg.reg (O.portState + i.val) = 2 →
       ∃ t, exec (.laneLockLoss i none) s = .next t ∧ t.pkg.reg (O.portState + i.val) = 3 ∧
         t.pkg.reg (O.linkNeighbour + i.val) = 0xFFFFFFFF ∧ RaisedLast t 0x4402 ∧ SameMemory s t ∧
         SameRegsBut (fun k => k = O.portState + i.val ∨ k = O.linkNeighbour + i.val) s t) ∧
     (∀ l : Fin 8, s.pkg.reg (O.portState + i.val) = 2 →
       (s.pkg.reg (O.spareInUse + i.val) = 0xFF →
         ∃ t, exec (.laneLockLoss i (some l)) s = .next t ∧ t.pkg.reg (O.portState + i.val) = 3 ∧
           t.pkg.reg (O.spareInUse + i.val) = l.val ∧ (t.pkg.port i.val).spareAt = some (l.val, (s.pkg.port i.val).ackPos) ∧
           SameMemory s t) ∧
       (s.pkg.reg (O.spareInUse + i.val) ≠ 0xFF →
         ∃ t, exec (.laneLockLoss i (some l)) s = .next t ∧ t.pkg.reg (O.portState + i.val) = 4 ∧ (t.pkg.port i.val).dead = true ∧
           RaisedLast t 0x4403 ∧ SameMemory s t)) ∧
     (s.pkg.reg (O.portState + i.val) = 3 →
       (∀ id port,
         ∃ t, exec (.retrainComplete ⟨i, id, port, s.pkg.reg O.revisionNumber⟩) s = .next t ∧ t.pkg.reg (O.portState + i.val) = 2 ∧
           t.pkg.reg (O.linkNeighbour + i.val) = fld (id % 4096) 16 + port % 16 ∧
           (t.pkg.port i.val).resend = (s.pkg.port i.val).replay.head?.map (·.1) ∧ RaisedLast t 0x4404 ∧ SameMemory s t) ∧
       (∀ id port rev, rev ≠ s.pkg.reg O.revisionNumber →
         ∃ t, exec (.retrainComplete ⟨i, id, port, rev⟩) s = .next t ∧ t.pkg.reg (O.portState + i.val) = 3 ∧ RaisedLast t 0x4408 ∧
           SameMemory s t ∧ SameRegs s t) ∧
       (s.pkg.retrainEnd i.val ≤ s.pkg.mtime →
         ∃ t, exec (.retrainLimitExpiry i) s = .next t ∧ t.pkg.reg (O.portState + i.val) = 4 ∧ (t.pkg.port i.val).dead = true ∧
           RaisedLast t 0x4403 ∧ SameMemory s t) ∧
       (s.pkg.mtime < s.pkg.retrainEnd i.val → Does (.retrainLimitExpiry i) s s.pkg))) ∧
  ((∀ (s : State) (i : PortNo), s.Runs .link →
     (∀ (lane : Fin 9) mv, s.pkg.reg O.spareThresholdMv ≤ mv →
       Does (.laneMarginLow i lane mv) s (s.pkg.setReg (O.laneEyeMargin + 9 * i.val + lane.val) (toBits 16 mv))) ∧
     (∀ (lane : Fin 9) mv, mv < s.pkg.reg O.spareThresholdMv → lane.val ≠ 8 → s.pkg.reg (O.spareInUse + i.val) = 0xFF →
       (s.pkg.port i.val).spareAt = none →
       ∃ t, exec (.laneMarginLow i lane mv) s = .next t ∧
         (t.pkg.port i.val).spareAt = some (lane.val, ((s.pkg.port i.val).txPos + 4096) % 2 ^ 32) ∧
         (t.pkg.port i.val).local0 = (s.pkg.port i.val).local0 ++
           [(4, lane.val, toLe 8 (((s.pkg.port i.val).txPos + 4096) % 2 ^ 32))] ∧
         SameMemory s t ∧ SameRegsBut (fun k => k = O.laneEyeMargin + 9 * i.val + lane.val) s t) ∧
     (∀ (lane : Fin 8) position, s.pkg.reg (O.spareInUse + i.val) = 0xFF → (s.pkg.port i.val).spareAt = none →
       ∃ t, exec (.substitutionFlit i lane position) s = .next t ∧ (t.pkg.port i.val).spareRx = some (lane.val, position) ∧
         (t.pkg.port i.val).spareAt = some (lane.val, ((s.pkg.port i.val).txPos + 4096) % 2 ^ 32) ∧ SameMemory s t ∧ SameRegs s t) ∧
     (∀ lane, (s.pkg.port i.val).reached = some lane → s.pkg.reg (O.spareInUse + i.val) = 0xFF →
       ∃ t, exec (.substitutionPosition i) s = .next t ∧ t.pkg.reg (O.spareInUse + i.val) = lane ∧
         RaisedLast t 0x4401 ∧ SameMemory s t ∧ SameRegsBut (fun k => k = O.spareInUse + i.val) s t)) ∧
   (∀ (s : State) (b : Fin 13) (w : SilzinWord) (kept : List PWord), s.Runs .link →
     kept = s.pkg.links.bridges.at [] b.val ++ [packWord w.data] →
     ∃ t, exec (.silzinWordReceive b w) s = .next t ∧ t.pkg.links.bridges.at [] b.val = kept.drop (kept.length - 32) ∧
       (w.first = (0, 0) → t.pkg.out = s.pkg.out ++ [.bridgeWord b.val w.data] ∧ SameRegs s t) ∧
       (checkWord ((packWord w.data).flip w.first) = .bad →
         t.pkg.reg (O.silzinReplays + b.val) = min (s.pkg.reg (O.silzinReplays + b.val) + 1) (2 ^ 32 - 1) ∧ RaisedLast t 0x440B ∧
         (w.again = (0, 0) → t.pkg.out = s.pkg.out ++ [.bridgeWord b.val w.data]) ∧
         (checkWord ((packWord w.data).flip w.again) = .bad → t.pkg.out = s.pkg.out ++ [.bridgeWord b.val none])) ∧
       SameMemory s t ∧ SameRegsBut (fun k => k = O.silzinReplays + b.val) s t ∧ t.pkg.tiles = s.pkg.tiles) ∧
   (∀ (s : State) (w : Writer) (d : Fin 2) v, s.Runs (writerPlane w) → v ≤ 3 →
     ((s.pkg.reg (O.linkTestOwner + d.val) = 0 ∨ v = 0) →
       Does (.linkTestOwnerWrite w d v) s (s.pkg.setReg (O.linkTestOwner + d.val) v)) ∧
     (v ≠ 0 → s.pkg.reg (O.linkTestOwner + d.val) ≠ 0 → s.pkg.reg (O.linkTestOwner + d.val) ≠ v →
       ∃ t, exec (.linkTestOwnerWrite w d v) s = .next t ∧ RaisedLast t 0x4409 ∧
         t.pkg.reg (O.linkTestOwner + d.val) = s.pkg.reg (O.linkTestOwner + d.val) ∧ SameMemory s t)) ∧
   ∀ (s : State) (pt : Path) (d : Fin 2) v, s.Runs (pathPlane pt) → v < 12 → (v < 8 ↔ d.val = 0) →
     s.pkg.reg (O.linkTestOwner + d.val) = 3 → (s.pkg.reg (O.portState + v) = 0 ∨ s.pkg.reg (O.portState + v) = 4) →
     Does (.linkTestRequest pt d v) s s.pkg)

/-! ## Configuration sets and Periods -/

/-- While the path's plane runs: a write of cfg_arm_gen that names a generation, in state 0, is kept and awaits validation; in any other state it is
refused with abort 0x0800_0022; a disarm clears generation, state and a pending local swap, unless the package is locked, when it is refused. A
validation arms where every swap check holds, and otherwise refuses with the check's event. A write of cfg_swap_local while the set is not armed, or
while image_state is 4, is refused with abort 0x0800_0022; in any other case it is kept. At the next local Period every active copy of an RWS object
takes its shadow value, but those of the spare subset, whose own rules defer them; the generation becomes the one armed, cfg_arm_state 0, cfg_swaps
increments, event 0x2604 is raised, and the shadow copies keep their values. -/
def Obligations.ConfigurationArming : Prop :=
  ∀ (s : State) (pt : Path), s.Runs (pathPlane pt) → s.Runs .management →
    (∀ v, v ≠ 0 → v < 0xFFFFFFFF → s.pkg.reg O.cfgArmState = 0 →
      Does (.cfgArm pt v) s ((s.pkg.setReg O.cfgArmGen v).setReg O.cfgArmState 1)) ∧
    (∀ v, v ≠ 0 → v < 0xFFFFFFFF → s.pkg.reg O.cfgArmState ≠ 0 → Does (.cfgArm pt v) s (s.pkg.refuse pt O.cfgArmGen abState)) ∧
    (s.pkg.reg O.cfgArmState ≠ 3 → Does (.cfgDisarm pt) s
      (((s.pkg.setReg O.cfgArmGen 0).setReg O.cfgArmState 0).setCfg { s.pkg.cfg with localSwap := false })) ∧
    (s.pkg.reg O.cfgArmState = 3 → Does (.cfgDisarm pt) s (s.pkg.refuse pt O.cfgArmGen abState)) ∧
    (s.pkg.reg O.cfgArmState = 1 → (∀ c ∈ s.pkg.swapChecks, c.2 = true) → s.pkg.cfg.announce = none →
      Does .cfgArmValidated s (s.pkg.setReg O.cfgArmState 2)) ∧
    (∀ c, s.pkg.reg O.cfgArmState = 1 → s.pkg.swapChecks.find? (fun c => !c.2) = some c →
      ∃ t, exec .cfgArmValidated s = .next t ∧ t.pkg.reg O.cfgArmState = 0 ∧ t.pkg.reg O.cfgLastRefusal = c.1 ∧ RaisedEver t c.1 ∧
        RaisedLast t 0x2603 ∧ SameMemory s t ∧ SameShadow s t) ∧
    (s.pkg.reg O.cfgArmState = 2 → s.pkg.reg O.imageState ≠ 4 →
      Does (.cfgSwapLocal pt 1) s (s.pkg.setCfg { s.pkg.cfg with localSwap := true })) ∧
    ((s.pkg.reg O.cfgArmState ≠ 2 ∨ s.pkg.reg O.imageState = 4) →
      Does (.cfgSwapLocal pt 1) s (s.pkg.refuse pt O.cfgSwapLocal abState)) ∧
    (s.pkg.reg O.imageState ≠ 4 → s.pkg.reg O.cfgArmState = 2 → s.pkg.cfg.localSwap = true → s.pkg.localDue = true →
      ∃ t, exec .period s = .next t ∧ t.pkg.reg O.cfgActiveGen = s.pkg.reg O.cfgArmGen ∧ t.pkg.reg O.cfgArmState = 0 ∧
        t.pkg.reg O.cfgSwaps = min (s.pkg.reg O.cfgSwaps + 1) (2 ^ 32 - 1) ∧ t.pkg.cfg.localSwap = false ∧ RaisedEver t 0x2604 ∧
        (∀ e ∈ rwsElements, e.1 ∉ spareSubset → t.pkg.reg e.1 = s.pkg.shadowReg e.1) ∧ SameShadow s t)

/-- While the path's plane runs, a write of cfg_swap_gen at the time master of a running domain floods an announcement whose beat is that of the first
entry with sw = 1 at least 2 × slip_horizon ahead, where there is one. A package that hears of it, while links run, keeps it and locks when it is
armed with that generation before the cut-off; one not locked at the cut-off marks it refused; so does a package that hears a refusal. While the
management plane runs: a Period takes the next number, notes its beats and latches the snapshot set; in PS0, a firing of the claimed timer waits for
the local Period. While the path's plane runs: a request waits for it too; period_timer_owner takes a claim where it holds 0, which begins the timer's
phase; prd_out_owner takes a claim where it holds 0, and takes 0. -/
def Obligations.SwapsAndPeriods : Prop :=
  ((∀ (s : State) (pt : Path) (v b : Nat) (i : Image), s.Runs (pathPlane pt) → v < 2 ^ 32 → s.pkg.posImage = some i → s.pkg.reg O.imageState = 4 →
     s.pkg.isMaster = true → s.pkg.cfg.announce = none → nextSwapBeat s.pkg i (s.pkg.schedBeat + 2 * i.slipHorizon) = some b →
     ∃ t, exec (.cfgSwapGen pt v) s = .next t ∧ t.pkg.cfg.announce = some ⟨v, s.pkg.shadowReg O.aclkDivisor, b, false⟩ ∧
       s.pkg.schedBeat + 2 * i.slipHorizon ≤ b ∧
       t.pkg.out = s.pkg.out ++ [.class0 ⟨0x40, s.pkg.reg O.domainPhysId, 0, (s.pkg.sched.originSeq + 1) % 2 ^ 32,
         [v, s.pkg.shadowReg O.aclkDivisor, b]⟩] ∧ SameMemory s t ∧ SameRegsBut (fun k => k = O.cfgArmState) s t) ∧
   (∀ (s : State) (x : C0In) (gen d b : Nat) (i : Image), s.Runs .link → IsNew x s.pkg → s.pkg.posImage = some i → s.pkg.reg O.imageState = 4 →
     ∃ t, exec (.swapAnnouncement x gen d b) s = .next t ∧ t.pkg.cfg.announce = some ⟨gen, d, b, false⟩ ∧
       t.pkg.reg O.cfgArmState = (if s.pkg.reg O.cfgArmState = 2 ∧ s.pkg.reg O.cfgArmGen = gen ∧ s.pkg.schedBeat + i.slipHorizon < b
         then 3 else s.pkg.reg O.cfgArmState) ∧ SameMemory s t ∧ SameRegsBut (fun k => k = O.cfgArmState) s t) ∧
   (∀ (s : State) (a : Announce) (i : Image), s.Runs .management → s.pkg.cfg.announce = some a → s.pkg.posImage = some i →
     a.beat ≤ s.pkg.schedBeat + i.slipHorizon → s.pkg.reg O.cfgArmState ≠ 3 → a.refused = false →
     ∃ t, exec .swapCutoff s = .next t ∧ t.pkg.cfg.announce = some { a with refused := true } ∧ SameMemory s t ∧ SameRegs s t) ∧
   ∀ (s : State) (x : C0In) (position : Nat) (a : Announce), s.Runs .link → IsNew x s.pkg → s.pkg.cfg.announce = some a →
     ∃ t, exec (.swapRefusal ⟨x, position⟩) s = .next t ∧ t.pkg.cfg.announce = some { a with refused := true } ∧ SameMemory s t ∧ SameRegs s t) ∧
  ((∀ s : State, s.Runs .management → (s.pkg.periodEntry.isSome ∨ s.pkg.localDue = true) →
     ∃ t, exec .period s = .next t ∧ t.pkg.reg O.periodSeq = (s.pkg.reg O.periodSeq + 1) % 2 ^ 64 ∧
       t.pkg.reg O.periodBeat = s.pkg.reg O.domainBeat ∧ t.pkg.reg O.periodSchedBeat = s.pkg.schedBeat ∧
       t.pkg.dict.snap.at 0 O.periodSeq = (s.pkg.reg O.periodSeq + 1) % 2 ^ 64) ∧
   (∀ (s : State) (k : Nat), s.Runs .management → s.pkg.reg O.psCurrent = 0 → s.pkg.reg O.periodTimerOwner ≠ 0 → s.pkg.reg O.periodIntervalMs ≠ 0 →
     k = (s.pkg.mtime - s.pkg.cfg.timerClaim) / (s.pkg.reg O.periodIntervalMs * 100000) → s.pkg.cfg.timerFired < k →
     Does .periodTimerFire s (s.pkg.setCfg { s.pkg.cfg with timerFired := k, pendTimer := true })) ∧
   (∀ (s : State) (pt : Path), s.Runs (pathPlane pt) → s.pkg.reg O.psCurrent = 0 →
     Does (.periodRequest pt 1) s (s.pkg.setCfg { s.pkg.cfg with pendRequest := true })) ∧
   (∀ (s : State) (pt : Path) (v : Nat), s.Runs (pathPlane pt) → s.pkg.reg O.periodTimerOwner = 0 → v ≠ 0 → v ≤ 3 →
     Does (.periodTimerOwnerWrite pt v) s ((s.pkg.setReg O.periodTimerOwner v).setCfg
       { s.pkg.cfg with timerClaim := s.pkg.mtime, timerFired := 0 })) ∧
   ∀ (s : State) (pt : Path) (v : Nat), s.Runs (pathPlane pt) → v ≤ 2 → (s.pkg.reg O.prdOutOwner = 0 ∨ v = 0) →
     Does (.prdOutOwnerWrite pt v) s (s.pkg.setReg O.prdOutOwner v))

/-! ## Host and ingest ports -/

/-- A PCI Express link comes up in PS0 to PS2 with its pads released, at its rate and width, with event 0x4603 below 64 GT/s or x16; with no session
held, what port H has buffered goes out. Port H's link going down, or PERST on it, detaches the session; PERST also clears the MSI-X table and the
configuration space of its port; PERST on port D leaves the session alone. While the control plane runs, a function reset or a cleared bus master
enable of port H detaches it too. While the path's plane runs: a session begins with a token that is read once over port H BAR0, and as 0 in every
other way; a matching token resumes a detached one, with its buffer sent or discarded; without a match, or in another state, a resume is refused; a
release ends the session, over CAN FD without a token. While the control plane runs, a session that has been detached for session_hold_s ends. -/
def Obligations.HostLinksAndSessions : Prop :=
  ((∀ (s : State) (pt : HostPort) (rate width : Nat), s.pkg.reg O.psCurrent ≤ 2 → bitOf (s.pkg.reg O.padHeld) 2 = false →
     ∃ t, exec (.pcieLinkUp pt rate width) s = .next t ∧ t.pkg.reg (O.pcieLinkState + portNo pt) = 2 ∧
       t.pkg.reg (O.pcieLinkRate + portNo pt) = rate ∧ t.pkg.reg (O.pcieLinkWidth + portNo pt) = width ∧ RaisedEver t 0x4602 ∧
       ((rate < 6 ∨ width < 16) → RaisedEver t 0x4603) ∧ (pt = .h → t.pkg.host.linkUp = true) ∧
       (pt = .h → s.pkg.reg O.sessionState ≠ 2 → t.pkg.host.hostOut = [] ∧ t.pkg.reg O.hostoutBytes = 0 ∧ t.pkg.host.msixPending = 0 ∧
         s.pkg.out ++ s.pkg.host.hostOut.flatMap HostTlp.send <+: t.pkg.out) ∧ SameMemory s t ∧ t.pkg.tiles = s.pkg.tiles) ∧
   (∀ (s : State) (u : Nat), s.pkg.reg O.pcieLinkState = 2 → s.pkg.reg O.sessionState ≠ 2 →
     ∃ t, exec (.pcieLinkDown .h u) s = .next t ∧ t.pkg.reg O.pcieLinkState = 0 ∧ t.pkg.reg O.sessionState = 2 ∧
       t.pkg.host.linkUp = false ∧ t.pkg.host.detachedAt = s.pkg.mtime ∧
       t.pkg.reg O.pcieLinkDowns = min (s.pkg.reg O.pcieLinkDowns + 1) (2 ^ 32 - 1) ∧ RaisedEver t 0x4601 ∧ RaisedEver t 0x460A ∧
       t.pkg.host.flushes = [] ∧ SameMemory s t ∧ t.pkg.tiles = s.pkg.tiles) ∧
   (∀ (s : State) (u : Nat),
     ∃ t, exec (.perst .h u) s = .next t ∧ t.pkg.reg O.pcieLinkState = 3 ∧ t.pkg.reg O.sessionState = 2 ∧ t.pkg.host.msixTable = [] ∧
       t.pkg.host.linkUp = false ∧ SameMemory s t ∧ t.pkg.tiles = s.pkg.tiles) ∧
   (∀ (s : State) (u : Nat),
     ∃ t, exec (.perst .d u) s = .next t ∧ t.pkg.reg (O.pcieLinkState + 1) = 3 ∧ t.pkg.reg O.sessionState = s.pkg.reg O.sessionState ∧
       { t.pkg.host with pciD := s.pkg.host.pciD } = s.pkg.host ∧
       t.pkg.host.pciD = PciFn.reset ∧ SameMemory s t) ∧
   ∀ (s : State) (c : DetachCause) (u : Nat), s.Runs .control → s.pkg.reg O.sessionState ≠ 2 →
     ∃ t, exec (.portHDetach ⟨c, u⟩) s = .next t ∧ t.pkg.reg O.sessionState = 2 ∧ t.pkg.host.detachedAt = s.pkg.mtime ∧ RaisedEver t 0x460A ∧
       t.pkg.host.flushes = [] ∧ (c = .functionReset → t.pkg.host.msixTable = [] ∧ t.pkg.host.pciH = PciFn.reset) ∧
       (c = .busMasterClear → t.pkg.host.pciH.busMaster = false) ∧ SameMemory s t ∧ t.pkg.tiles = s.pkg.tiles) ∧
  ((∀ (s : State) (pt : Path) (k : W64), s.Runs (pathPlane pt) → s.pkg.reg O.sessionState = 0 → s.pkg.reg O.rngState = 0 →
     ∃ t, exec (.sessionAttach pt k) s = .next t ∧ t.pkg.reg O.sessionState = 1 ∧
       t.pkg.reg O.sessionId = (s.pkg.reg O.sessionId + 1) % 2 ^ 32 ∧ t.pkg.host.token = k.toNat ∧ t.pkg.host.tokenRead = false ∧ t.pkg.host.tokenHighRead = false ∧
       SameMemory s t ∧ SameRegsBut (fun k => k = O.sessionState ∨ k = O.sessionId) s t) ∧
   (∀ (s : State) (pt : Path) (k : W64), s.Runs (pathPlane pt) → s.pkg.reg O.sessionState ≠ 0 → Does (.sessionAttach pt k) s (s.pkg.sessionRefused pt)) ∧
   (∀ s : State, s.Runs .control → s.pkg.reg O.sessionState ≠ 0 → s.pkg.host.tokenRead = false → s.pkg.host.tokenHighRead = false →
     ∃ t, exec (.sessionTokenRead .hostBar) s = .next t ∧ t.pkg.out = s.pkg.out ++ [.value s.pkg.host.token] ∧
       t.pkg.host.tokenRead = true ∧ t.pkg.host.tokenHighRead = true ∧ SameMemory s t ∧ SameRegs s t) ∧
   (∀ (s : State) (pt : Path), s.Runs (pathPlane pt) →
     pt ≠ .hostBar ∨ (s.pkg.host.tokenRead = true ∧ s.pkg.host.tokenHighRead = true) →
     Does (.sessionTokenRead pt) s (s.pkg.emit (.value 0))) ∧
   (∀ (s : State) (pt : Path), s.Runs (pathPlane pt) → s.pkg.reg O.sessionState = 2 → s.pkg.reg O.sessionToken = s.pkg.host.token →
     (s.pkg.host.linkUp = true →
       ∃ t, exec (.sessionResumeDrain pt) s = .next t ∧ t.pkg.reg O.sessionState = 1 ∧ t.pkg.host.hostOut = [] ∧
         s.pkg.out ++ s.pkg.host.hostOut.flatMap HostTlp.send <+: t.pkg.out ∧ RaisedLast t 0x460B ∧ SameMemory s t) ∧
     ∃ t, exec (.sessionResumeDiscard pt) s = .next t ∧ t.pkg.reg O.sessionState = 1 ∧ t.pkg.host.hostOut = [] ∧ t.pkg.out = s.pkg.out ∧
       RaisedLast t 0x460B ∧ SameMemory s t) ∧
   (∀ (s : State) (pt : Path), s.Runs (pathPlane pt) → s.pkg.reg O.sessionState ≠ 2 ∨ s.pkg.reg O.sessionToken ≠ s.pkg.host.token →
     Does (.sessionResumeDrain pt) s (s.pkg.sessionRefused pt) ∧ Does (.sessionResumeDiscard pt) s (s.pkg.sessionRefused pt)) ∧
   (∀ (s : State) (pt : Path), s.Runs (pathPlane pt) → s.pkg.reg O.sessionState ≠ 0 → (pt = .canFd ∨ s.pkg.reg O.sessionToken = s.pkg.host.token) →
     ∃ t, exec (.sessionRelease pt) s = .next t ∧ t.pkg.reg O.sessionState = 0 ∧ t.pkg.host.hostOut = [] ∧ t.pkg.out = s.pkg.out ∧
       SameMemory s t) ∧
   ∀ s : State, s.Runs .control → s.pkg.reg O.sessionState = 2 → s.pkg.host.detachedAt + s.pkg.reg O.sessionHoldS * 100000000 ≤ s.pkg.mtime →
     ∃ t, exec .sessionExpiry s = .next t ∧ t.pkg.reg O.sessionState = 0 ∧ t.pkg.host.hostOut = [] ∧ RaisedLast t 0x460C ∧
       t.pkg.reg O.loaderOwner ≠ 1 ∧ SameMemory s t)

/-- While the control plane runs: writes through port H BAR2 and, with ingest enabled, through port D BAR4 are stored at their window's base; one with
EP = 1 leaves poison in every word it meets; with ingest disabled a write is dropped and counted; a read of more than 64 bytes is not served; a
notification sets its word and interrupts the runtime. While the path's plane runs, a disabled queue is claimed, enabled from a configuration that
allows it, and disabled; a doorbell of its claimant moves its tail and starts fetching, and one outside the queue or on a disabled one raises event
0x4604. While the control plane runs, a queue whose records are written ends its disabling; a descriptor that checks passes to its consumer, one that
does not is read again, eight times, and then is reported as not visible. -/
def Obligations.WindowsAndQueues : Prop :=
  ((∀ (s : State) (o : Nat) (l : List Byte), s.Runs .control → o + l.length ≤ 2 ^ 32 →
     Does (.commandWindowWrite o ⟨l, false⟩) s (s.pkg.agentWrite portH (s.pkg.reg O.cmdWindowBase + o) l) ∧
     ∀ a, a = s.pkg.reg O.cmdWindowBase + o → l ≠ [] → Does (.commandWindowWrite o ⟨l, true⟩) s
       ((s.pkg.agentWriteWords portH (a / 16 * 16) (List.replicate ((a + l.length - 1) / 16 + 1 - a / 16) none)).logPoisoned .h)) ∧
   (∀ (s : State) (o : Nat) (l : List Byte), s.Runs .control → o + l.length ≤ 2 ^ 38 → s.pkg.reg O.ingestEnable ≠ 0 →
     Does (.ingestWrite o ⟨l, false⟩) s ((s.pkg.agentWrite portD (s.pkg.reg O.ingestWindowBase + o) l).bump64 O.ingestBytes l.length) ∧
     ∀ a, a = s.pkg.reg O.ingestWindowBase + o → l ≠ [] → Does (.ingestWrite o ⟨l, true⟩) s
       (((s.pkg.agentWriteWords portD (a / 16 * 16) (List.replicate ((a + l.length - 1) / 16 + 1 - a / 16) none)).logPoisoned .d).bump64
         O.ingestBytes l.length)) ∧
   (∀ (s : State) (o : Nat) (l : List Byte) (ep : Bool), s.Runs .control → o + l.length ≤ 2 ^ 38 → s.pkg.reg O.ingestEnable = 0 →
     ∃ t, exec (.ingestWrite o ⟨l, ep⟩) s = .next t ∧
       t.pkg.reg O.ingestWritesDropped = min (s.pkg.reg O.ingestWritesDropped + 1) (2 ^ 32 - 1) ∧
       (s.pkg.host.ingestDropSeen = false → RaisedLast t 0x460F) ∧ SameMemory s t ∧
       SameRegsBut (fun k => k = O.ingestWritesDropped) s t) ∧
   (∀ (s : State) (o n : Nat), s.Runs .control → n ≤ 64 → o + n ≤ 2 ^ 38 →
     Does (.ingestRead o n) s ((s.pkg.agentRead portD (s.pkg.reg O.ingestWindowBase + o) n).2.emit
       (.readData (s.pkg.agentRead portD (s.pkg.reg O.ingestWindowBase + o) n).1))) ∧
   (∀ (s : State) (o n : Nat), s.Runs .control → 64 < n →
     Does (.ingestRead o n) s (((s.pkg.bump O.ingestRejectedReads 1).raise 0x4609 noUnit o).emit .unsupported)) ∧
   ∀ (s : State) (w : Nat), s.Runs .control → w ≤ 1023 →
     ∃ t, exec (.notificationWrite w) s = .next t ∧ t.pkg.host.notify.at false w = true ∧
       t.pkg.reg O.notifications = min (s.pkg.reg O.notifications + 1) (2 ^ 32 - 1) ∧ t.pkg.out = s.pkg.out ++ [.runtimeIrq notifySource] ∧
       SameMemory s t ∧ SameRegsBut (fun k => k = O.notifications) s t) ∧
  ((∀ (s : State) (pt : Path) (q : QueueNo) (v : Nat), s.Runs (pathPlane pt) → q.val ≠ 0 → (s.pkg.queue q.val).enabled = false →
     (s.pkg.queue q.val).disabling = false → s.pkg.reg (qKey O.queueOwner q.val) = 0 → v ≠ 0 → v ≤ 2 →
     Does (.queueOwnerWrite pt q v) s (s.pkg.setReg (qKey O.queueOwner q.val) v)) ∧
   (∀ (s : State) (pt : Path) (q : QueueNo), s.Runs (pathPlane pt) → (s.pkg.queue q.val).enabled = false → (s.pkg.queue q.val).disabling = false →
     s.pkg.queueReady q.val = true →
     ∃ t, exec (.queueEnable pt q) s = .next t ∧ t.pkg.queue q.val = { QueueSt.reset with enabled := true, phase := true } ∧
       t.pkg.qReg O.queueEnable q.val = 1 ∧ t.pkg.qReg O.sqHead q.val = 0 ∧ t.pkg.qReg O.cqTail q.val = 0 ∧
       t.pkg.qReg O.queueStatus q.val = 0 ∧ (∀ r, r ≠ q.val → t.pkg.queue r = s.pkg.queue r) ∧ SameMemory s t) ∧
   (∀ (s : State) (pt : Path) (q : QueueNo), s.Runs (pathPlane pt) → (s.pkg.queue q.val).enabled = true → (s.pkg.queue q.val).disabling = false →
     ∃ t, exec (.queueDisable pt q) s = .next t ∧ (t.pkg.queue q.val).enabled = false ∧ (t.pkg.queue q.val).disabling = true ∧
       t.pkg.qReg O.queueEnable q.val = 0 ∧ t.pkg.qReg O.queueStatus q.val = 5 ∧ SameMemory s t) ∧
   (∀ (s : State) (q : QueueNo), s.Runs .control → (s.pkg.queue q.val).disabling = true → (s.pkg.queue q.val).records = [] →
     (∀ f ∈ s.pkg.host.flushes, f.1 ≠ q.val) → (q.val ≠ 0 ∨ s.pkg.loaderBusy = false) →
     ∃ t, exec (.queueDisableComplete q) s = .next t ∧ (t.pkg.queue q.val).disabling = false ∧ SameMemory s t ∧
       SameRegsBut (fun k => k = qKey O.queueStatus q.val) s t) ∧
   (∀ (s : State) (pt : Path) (q : QueueNo) (v : Nat), s.Runs (pathPlane pt) → v < 2 ^ 16 → v < s.pkg.qReg O.sqEntries q.val → (s.pkg.queue q.val).enabled = true →
     (if q.val = 0 then doorClaimant pt ≠ 0 else doorClaimant pt = s.pkg.qReg O.queueOwner q.val) → v ≠ (s.pkg.queue q.val).tail →
     ∃ t, exec (.sqDoorbell pt q v) s = .next t ∧ (t.pkg.queue q.val).tail = v ∧ (t.pkg.queue q.val).fetching = true ∧ SameMemory s t ∧
       SameRegsBut (fun k => k = qKey O.queueStatus q.val) s t) ∧
   (∀ (s : State) (pt : Path) (q : QueueNo) (v : Nat), s.Runs (pathPlane pt) → (s.pkg.queue q.val).enabled = false ∨ s.pkg.qReg O.sqEntries q.val ≤ v →
     Does (.sqDoorbell pt q v) s (s.pkg.raise 0x4604 q.val 0)) ∧
   ∀ (s : State) (q : QueueNo) (r : Option (List Byte)) (p : Pkg), s.Runs .control → s.pkg.mayFetch q.val = true →
     s.pkg.agentBytes portH (s.pkg.reg O.cmdWindowBase + s.pkg.qReg O.sqOffset q.val + 64 * s.pkg.qReg O.sqHead q.val) 64 = (r, p) →
     (∀ b, (s.pkg.queue q.val).rereads = 0 → r = some b → crc32c (b.take 60) = leNat (b.drop 60) →
       leNat (b.take 4) = p.qReg O.expectedSeq q.val → Does (.descriptorFetch q) s ((p.acceptDesc q.val b).showQueue q.val)) ∧
     ((s.pkg.queue q.val).rereads = 0 → r = none →
       ∃ t, exec (.descriptorFetch q) s = .next t ∧ (t.pkg.queue q.val).rereads = 1) ∧
     (∀ b, (s.pkg.queue q.val).rereads ≠ 0 → r = some b → crc32c (b.take 60) = leNat (b.drop 60) →
       leNat (b.take 4) = p.qReg O.expectedSeq q.val → Does (.descriptorReread q) s ((p.acceptDesc q.val b).showQueue q.val)) ∧
     ((s.pkg.queue q.val).rereads = 8 → r = none →
       ∃ t, exec (.descriptorReread q) s = .next t ∧ (t.pkg.queue q.val).rereads = 0 ∧ (t.pkg.queue q.val).notVisible = true ∧
         (t.pkg.queue q.val).fetching = false ∧ RaisedLast t 0x4605))

/-- While the control plane runs: the command at the head of a DMA queue ends at once where it is a NOP; a copy whose queue has the engine's turn
moves the next piece of at most 4,096 bytes and passes the turn on, and ends with status 2 while port H is away; a piece from the host that fails is
poison. A post of a runtime queue is kept; a completion record takes its place in the ring while it has room, and a full ring holds the queue with
event 0x4607; the flush read releases the tags. A ring index that the path writes is kept. -/
def Obligations.QueueWork : Prop :=
  (∀ (s : State) (q : QueueNo) (d : Desc), s.Runs .control → s.pkg.headCommand q.val 0 = some d → (s.pkg.queue q.val).cmds = [d] →
    (s.pkg.queue q.val).enabled = true →
    ∃ t, exec (.dmaNop q) s = .next t ∧ (t.pkg.queue q.val).cmds = [] ∧
      (t.pkg.queue q.val).records = (s.pkg.queue q.val).records ++ [⟨d.seq, 0, 0, cplBody q.val d.seq 0 0⟩] ∧ SameMemory s t) ∧
  (∀ (s : State) (q : QueueNo) (d : Desc) (m n : Nat) (r : Pkg × Bool), s.Runs .control → s.pkg.dmaTurn q.val = true →
    s.pkg.headCommand q.val 1 = some d → m = (s.pkg.queue q.val).moved → n = min 4096 (d.length - m) →
    r = s.pkg.pieceOut (d.src + m) (d.dst + m) n →
    Does (.copyToHost q) s ((r.1.moveOn q.val d n (if r.2 then 3 else 0)).tookTurn q.val)) ∧
  (∀ (s : State) (q : QueueNo) (c : HostCpl) (d : Desc) (m n : Nat), s.Runs .control → s.pkg.dmaTurn q.val = true →
    s.pkg.headCommand q.val 2 = some d → m = (s.pkg.queue q.val).moved → m < d.length → n = min 4096 (d.length - m) →
    (s.pkg.hostAway = true → Does (.copyFromHost q c) s ((s.pkg.tookTurn q.val).endCommand q.val 2 m)) ∧
    (s.pkg.hostAway = false → c.status = 0 → Does (.copyFromHost q c) s
      (((s.pkg.tookTurn q.val).agentWrite portH (d.dst + m) (c.bytes.take n)).moveOn q.val d n 0)) ∧
    (s.pkg.hostAway = false → c.status ≠ 0 → Does (.copyFromHost q c) s
      (((s.pkg.tookTurn q.val).badPiece q.val c (d.dst + m) n).moveOn q.val d n 4))) ∧
  (∀ (s : State) (q : QueueNo) (l : List Byte), s.Runs .control → l.length = 28 → s.pkg.consumer q.val = 2 → (s.pkg.queue q.val).enabled = true →
    ∃ t, exec (.completionPost q l) s = .next t ∧ (t.pkg.queue q.val).records = (s.pkg.queue q.val).records ++
      [⟨leNat (l.take 4), leNat ((l.drop 6).take 2), leNat ((l.drop 8).take 8), l⟩] ∧ SameMemory s t) ∧
  (∀ (s : State) (q : QueueNo) (r : CplRec), s.Runs .control → (s.pkg.queue q.val).records = [r] → s.pkg.ringFull q.val = false →
    s.pkg.consumer q.val ≠ 2 → s.pkg.hostAway = false →
    ∃ t, exec (.completionRecordWrite q) s = .next t ∧ (t.pkg.queue q.val).records = [] ∧
      t.pkg.out = s.pkg.out ++ [.hostWrite (.record q.val (s.pkg.qReg O.cqAddr q.val + 32 * s.pkg.qReg O.cqTail q.val) r.body
        (fld (b2n (s.pkg.queue q.val).phase) 31 + r.seq % 2 ^ 31)),
        .flushRead (s.pkg.qReg O.cqAddr q.val + 32 * s.pkg.qReg O.cqTail q.val)] ∧
      t.pkg.qReg O.cqTail q.val =
        (if s.pkg.qReg O.cqTail q.val + 1 = s.pkg.qReg O.cqEntries q.val then 0 else s.pkg.qReg O.cqTail q.val + 1) ∧ SameMemory s t) ∧
  (∀ (s : State) (q : QueueNo) (r : CplRec) (l : List CplRec), s.Runs .control → (s.pkg.queue q.val).records = r :: l → s.pkg.ringFull q.val = true →
    (s.pkg.queue q.val).disabling = false → (s.pkg.queue q.val).full = false →
    ∃ t, exec (.completionRecordWrite q) s = .next t ∧ (t.pkg.queue q.val).records = r :: l ∧ (t.pkg.queue q.val).full = true ∧
      RaisedLast t 0x4607 ∧ t.pkg.out = s.pkg.out ∧ SameMemory s t) ∧
  (∀ (s : State) (q : Nat) (l : List Unflushed) (rest : List (Nat × List Unflushed)), s.Runs .control → s.pkg.host.flushes = (q, l) :: rest →
    ∃ t, exec .flushReadComplete s = .next t ∧ t.pkg.host.flushes = rest ∧
      s.pkg.out ++ l.map (fun u => Out.hostTag (u.addr + 28) u.tag) <+: t.pkg.out ∧ SameMemory s t ∧ SameRegs s t) ∧
  ∀ (s : State) (pt : Path) (q : QueueNo) (v : Nat), s.Runs (pathPlane pt) → v < s.pkg.qReg O.cqEntries q.val →
    ∃ t, exec (.completionRingRoom pt q v) s = .next t ∧ t.pkg.qReg O.cqHead q.val = v ∧ SameMemory s t ∧
      SameRegsBut (fun k => k = qKey O.cqHead q.val ∨ k = qKey O.queueStatus q.val) s t

/-! ## Securing -/

/-- While the path's plane runs, a save request of a package that holds a position is flooded and takes effect slip_horizon ahead; while links run,
one that is heard does at its beat, and a position other than 0xFFFF marks its planned remap; of several the earliest stands. A region query names a
region of the table, or is refused. While the data plane runs: a save hold whose stream has ended ends after its beats; one that stalls is abandoned
slip_horizon ahead, by a flood; an abandoned hold ends without a trailer: save_seq stays, event 0x4803 is raised, a save point is asked for again, and
the swaps left are dropped with refusal 5. While links run, a flood of an abandonment sets its beat. -/
def Obligations.SavePointRequests : Prop :=
  ((∀ (s : State) (pt : Path) (i : Image), s.Runs (pathPlane pt) → s.pkg.posImage = some i →
     ∃ t, exec (.saveRequest pt 1) s = .next t ∧
       t.pkg.secure.forced = some (match s.pkg.secure.forced with
         | some b => min b (s.pkg.reg O.domainBeat + i.slipHorizon)
         | none => s.pkg.reg O.domainBeat + i.slipHorizon) ∧
       t.pkg.secure.plannedPos = s.pkg.secure.plannedPos ∧
       t.pkg.out = s.pkg.out ++ [.class0 ⟨0x20, s.pkg.reg O.domainPhysId, 0, (s.pkg.sched.originSeq + 1) % 2 ^ 32,
         [s.pkg.reg O.domainBeat + i.slipHorizon, 0xFFFF]⟩] ∧ SameMemory s t ∧ SameRegs s t ∧ t.pkg.tiles = s.pkg.tiles) ∧
   (∀ (s : State) (x : C0In) (beat pos : Nat), s.Runs .link → IsNew x s.pkg →
     ∃ t, exec (.saveRequestMessage x beat pos) s = .next t ∧
       t.pkg.secure.forced = some (match s.pkg.secure.forced with
         | some b => min b beat
         | none => beat) ∧
       t.pkg.secure.plannedPos = (if pos = 0xFFFF then s.pkg.secure.plannedPos else some pos) ∧
       t.pkg.sched.filter.find x.src = some x.originSeq ∧ SameMemory s t ∧ SameRegs s t ∧ t.pkg.tiles = s.pkg.tiles) ∧
   ∀ (s : State) (pt : Path) (v : Nat) (x : SecPart), s.Runs (pathPlane pt) → v < 2 ^ 32 → s.pkg.securing = some x →
     (v < x.regions.length → Does (.regionQuery pt v) s (s.pkg.setReg O.regionQuery v)) ∧
     (x.regions.length ≤ v → Does (.regionQuery pt v) s (s.pkg.refuse pt O.regionQuery abRange))) ∧
  ((∀ (s : State) (h : SaveHold) (y : Slip), s.Runs .data → s.pkg.secure.hold = some h → s.pkg.sched.hold = some y → y.kind = .save → h.abandonAt = none →
     h.streamed = true → h.d0 + h.len ≤ s.pkg.reg O.domainBeat → Does .saveHoldEnd s s.pkg.endHold) ∧
   (∀ (s : State) (h : SaveHold) (y : Slip) (b : Nat) (i : Image), s.Runs .data → s.pkg.secure.hold = some h → s.pkg.sched.hold = some y → y.kind = .save →
     h.abandonAt = some b → b ≤ s.pkg.reg O.domainBeat → h.streamed = false → h.stopped = false → s.pkg.loader.image = some i →
     ∃ t, exec .saveHoldEnd s = .next t ∧ RaisedEver t 0x4803 ∧ t.pkg.reg O.saveSeq = s.pkg.reg O.saveSeq ∧
       t.pkg.reg O.lastSaveStep = s.pkg.reg O.lastSaveStep ∧ t.pkg.secure.forced = some (s.pkg.reg O.domainBeat) ∧
       (s.pkg.secure.swapsLeft ≠ [] → t.pkg.secure.swapsLeft = [] ∧ t.pkg.reg O.placementLastRefusal = 5)) ∧
   (∀ (s : State) (h : SaveHold) (i : Image), s.Runs .data → s.pkg.secure.hold = some h → s.pkg.loader.image = some i → h.streamed = false →
     h.stopped = false → h.abandonAt = none → h.moved + s.pkg.reg O.saveStallS * 100000000 ≤ s.pkg.mtime →
     ∃ t, exec .saveStallTimeout s = .next t ∧
       t.pkg.secure.hold = some { h with abandonAt := some (s.pkg.reg O.domainBeat + i.slipHorizon) } ∧
       t.pkg.out = s.pkg.out ++ [.class0 ⟨0x23, s.pkg.reg O.domainPhysId, 0, (s.pkg.sched.originSeq + 1) % 2 ^ 32,
         [s.pkg.reg O.domainBeat + i.slipHorizon]⟩] ∧ SameMemory s t ∧ SameRegs s t ∧ t.pkg.tiles = s.pkg.tiles) ∧
   ∀ (s : State) (x : C0In) (beat : Nat) (h : SaveHold), s.Runs .link → IsNew x s.pkg → s.pkg.secure.hold = some h → h.streamed = false → h.stopped = false →
     ∃ t, exec (.saveAbandoned x beat) s = .next t ∧ t.pkg.secure.hold = some { h with abandonAt := some beat } ∧ SameMemory s t ∧
       SameRegs s t ∧ t.pkg.tiles = s.pkg.tiles)

/-- While its plane runs, and with nothing waiting for the line's set: a write to a region is an agent's write; a parity block takes the exclusive-or
of each word with its delta, poison on either side making poison; a hosted copy takes each word as it comes. No byte outside the line changes. While
the data plane runs, in securing_state 3: with no new record nothing happens; a record of a region without flags, where no digest table is in force,
is written to its segment and consumed if its digest fits, and stays, counted with event 0x480C, if it does not, or if its header holds poison. -/
def Obligations.ProtectionAndRestore : Prop :=
  ((∀ (s : State) (addr : Nat) (l : List Byte) (x : SecPart) (k : Nat) (r : SecRegion), s.Runs .control → s.pkg.securing = some x →
     x.regionAt addr = some (k, r) → addr + l.length ≤ r.addr + r.bytes → Does (.trackedWrite addr l) s (s.pkg.agentWrite ioA addr l)) ∧
   (∀ (s : State) (l : ProtLine) (x : SecPart) (r : SecRegion) (slot a : Nat), s.Runs .link → s.pkg.securing = some x →
     x.regions[l.region]? = some r → r.paritySlot = some slot → x.protBase % 16 = 0 → a = x.protBase + slot * mib + l.offset / 64 * 64 →
     (∀ o ∈ s.pkg.memsys.queue, ∀ w < 4, o.set ≠ Machine.setOf ((a + 16 * w) / 64 * 64)) →
     ∃ t, exec (.protectionDelta l) s = .next t ∧
       (∀ w < 4, readWord (t.pkg.word (a + 16 * w)) =
         match readWord (s.pkg.word (a + 16 * w)), (ProtLine_words l).getD w none with
         | some o, some d => some (o ^^^ d)
         | _, _ => none) ∧
       SameMemoryBut (fun b => a ≤ b ∧ b < a + 64) s t ∧ t.pkg.tiles = s.pkg.tiles ∧ t.pkg.secure = s.pkg.secure) ∧
   ∀ (s : State) (l : ProtLine) (base a : Nat), s.Runs .link → s.pkg.securing.bind (fun x => x.hostedAddr l.region) = some base →
     base % 16 = 0 → a = base + l.offset / 64 * 64 → (∀ o ∈ s.pkg.memsys.queue, ∀ w < 4, o.set ≠ Machine.setOf ((a + 16 * w) / 64 * 64)) →
     ∃ t, exec (.protectionCopy l) s = .next t ∧
       (∀ w < 4, readWord (t.pkg.word (a + 16 * w)) = (ProtLine_words l).getD w none) ∧
       SameMemoryBut (fun b => a ≤ b ∧ b < a + 64) s t ∧ t.pkg.tiles = s.pkg.tiles ∧ t.pkg.secure = s.pkg.secure) ∧
  (∀ (s : State) (x : SecPart) (wi : List Byte) (p1 : Pkg), s.Runs .data → s.pkg.securing = some x → s.pkg.reg O.securingState = 3 →
     s.pkg.ringSlots ≠ 0 → s.pkg.agentBytes ioA s.pkg.ringBase 8 = (some wi, p1) →
     (leNat wi = p1.secure.ringRead → Does .restoreRecord s p1) ∧
     (leNat wi ≠ p1.secure.ringRead →
       (∀ p2, p1.agentBytes ioA (p1.ringRecordAddr p1.secure.ringRead) 128 = (none, p2) → Does .restoreRecord s p2.restoreMismatch) ∧
       ∀ h d p2 p3, p1.agentBytes ioA (p1.ringRecordAddr p1.secure.ringRead) 128 = (some h, p2) → fieldAt h 16 1 = 0 →
         p2.agentBytes ioA (p1.ringRecordAddr p1.secure.ringRead + 4096) (fieldAt h 12 4) = (some d, p3) → p3.secure.digestSeq = none →
         (∀ r, digest256 d = (h.drop 64).take 32 → x.regions[fieldAt h 6 2]? = some r →
           Does .restoreRecord s (p3.agentWrite ioA (r.addr + fieldAt h 8 4 * mib) d).consumeRecord) ∧
         (digest256 d ≠ (h.drop 64).take 32 → Does .restoreRecord s ((p3.bump O.digestMismatches 1).raise 0x480C noUnit 0))))

/-! ## Failures and recovery -/

/-- A package that declares itself failed floods type 0x21 naming itself, raises event 0x4805, and stops. While links run, a notice is such an event;
one that names a position halts a running package and begins a recovery; one that names none, or an idle spare's failure, makes the remap entries of
its source unusable, with event 0x480A; the coordinator keeps the reports. While the data plane runs, a neighbour none of whose ports is up and whose
retraining ports have been out of lock for dead_detect_us is reported. -/
def Obligations.FailureNotices : Prop :=
  (∀ p : Pkg, p.failed = false → p.declareFailed.failed = true ∧ p.declareFailed.posImage = none ∧
    p.declareFailed.out = p.out ++ [.class0 ⟨0x21, p.reg O.domainPhysId, 0, (p.sched.originSeq + 1) % 2 ^ 32,
      [p.reg O.logicalPosition, p.reg O.logicalPosition, p.reg O.domainBeat]⟩] ∧
    p.declareFailed.ev.inFlight.getLast?.map (·.code) = some 0x4805 ∧
    (SMap.wf Tile.reset p.tiles = true → ∀ n, (p.declareFailed.tile n).seq.running = false)) ∧
  (∀ (s : State) (x : C0In) (pos rep beat : Nat), s.Runs .link → IsNew x s.pkg →
    ∃ t, exec (.failureNotice x pos rep beat) s = .next t ∧ RaisedEver t 0x4805) ∧
  (∀ (s : State) (x : C0In) (pos rep beat : Nat) (i : Image), s.Runs .link → IsNew x s.pkg → pos ≠ 0xFFFF → s.pkg.posImage = some i →
    s.pkg.secure.recov = none → s.pkg.secure.hold = none → s.pkg.reg O.imageState = 4 →
    ∃ t r, exec (.failureNotice x pos rep beat) s = .next t ∧ t.pkg.reg O.imageState = 5 ∧ t.pkg.reg O.securingState = 4 ∧
      t.pkg.secure.recov = some r ∧ r.failed = [pos] ∧ r.closed = false ∧ RaisedLast t 0x4805 ∧ t.pkg.engines = [] ∧ t.pkg.disp = [] ∧
      t.pkg.sched.hold = none ∧ t.pkg.secure.stepAtHalt = s.pkg.reg O.generatorStep ∧ SameMemory s t) ∧
  (∀ (s : State) (x : C0In) (rep beat : Nat), s.Runs .link → IsNew x s.pkg →
    ∃ t, exec (.failureNotice x 0xFFFF rep beat) s = .next t ∧ t.pkg.secure.spareDead.at false x.src = true ∧ RaisedLast t 0x480A ∧
      t.pkg.reg O.imageState = s.pkg.reg O.imageState ∧ SameMemory s t ∧ SameRegs s t) ∧
  (∀ (s : State) (phys : Nat), s.Runs .link →
    ∃ t, exec (.idleSpareFailure phys) s = .next t ∧ t.pkg.secure.spareDead.at false phys = true ∧ RaisedLast t 0x480A ∧
      (∀ i, t.pkg.loader.image = some i → ∀ m ∈ i.remapPkgs, m.value = phys → m.usable = false) ∧ SameMemory s t ∧ SameRegs s t ∧
      t.pkg.tiles = s.pkg.tiles) ∧
  (∀ (s : State) (port : PortNo) (i : Image) (n : Nat), s.Runs .data → s.pkg.posImage = some i →
    n = neighbourOf i.variant (s.pkg.reg O.logicalPosition) port.val → n ≠ s.pkg.reg O.logicalPosition →
    (s.pkg.portsTo i n).any s.pkg.portUp = false → s.pkg.outOfLock (s.pkg.portsTo i n) = true →
    ∃ t, exec (.deadDetectExpiry port) s = .next t ∧ RaisedEver t 0x4805 ∧
      Out.class0 ⟨0x21, s.pkg.reg O.domainPhysId, 0, (s.pkg.sched.originSeq + 1) % 2 ^ 32,
        [n, s.pkg.reg O.logicalPosition, s.pkg.reg O.domainBeat]⟩ ∈ t.pkg.out) ∧
  ∀ (s : State) (x : C0In) (r : RecReport) (v : Recov), s.Runs .link → IsNew x s.pkg → s.pkg.secure.recov = some v →
    ∃ t, exec (.recoveryReport x r) s = .next t ∧ t.pkg.secure.recov = some { v with reports := v.reports ++ [r] } ∧ SameMemory s t ∧
      SameRegs s t ∧ t.pkg.tiles = s.pkg.tiles

/-- A plan that remaps or rolls back names for every failed position a usable remap entry whose spare has not failed, and no spare twice; it remaps
only where every report names the coordinator's last complete step, and no two failed positions share protection. While the data plane runs, the
gather window closes gather_ms after the first notice, and the coordinator plans. While links run, a plan puts a halted package into its recovery: a
halt for recompilation, the save stream of an uncovered case, a restore, or a rebuild. -/
def Obligations.RecoveryPlanning : Prop :=
  (∀ (p : Pkg) (i : Image) (x : SecPart) (r : Recov),
     (((p.planOf i x r).1.case = .remap ∨ (p.planOf i x r).1.case = .rollback) →
       (p.planOf i x r).1.entries.map (·.1) = r.failed ∧
       ∀ e ∈ (p.planOf i x r).1.entries, ∃ m ∈ i.remapPkgs, m.key = e.1 ∧ m.value = e.2 ∧ m.usable = true ∧
         p.secure.spareDead.at false e.2 = false) ∧
     ((p.planOf i x r).1.entries.map (·.2)).Nodup ∧ (p.planOf i x r).1.failed = r.failed ∧
     ((p.planOf i x r).1.case = .remap → sharedProtection x r.failed = false ∧
       ∀ q ∈ r.reports, q.lastComplete = p.secure.lastComplete ∧ q.lastOpen = p.secure.lastComplete)) ∧
  ((∀ (s : State) (r : Recov) (i : Image), s.Runs .data → s.pkg.secure.recov = some r → s.pkg.posImage = some i → r.closed = false →
     (s.pkg.mtime < r.t0 + s.pkg.reg O.gatherMs * 100000 → Does .gatherWindowEnd s s.pkg) ∧
     (r.t0 + s.pkg.reg O.gatherMs * 100000 ≤ s.pkg.mtime →
       (s.pkg.reg O.logicalPosition ≠ coordinatorPos i r.failed →
         Does .gatherWindowEnd s (s.pkg.setRecov (some { r with closed := true }))) ∧
       (s.pkg.reg O.logicalPosition = coordinatorPos i r.failed → i.sec = none → s.pkg.loader.image = some i →
         s.pkg.reg O.imageState = 5 →
         ∃ t, exec .gatherWindowEnd s = .next t ∧ RaisedLast t 0x4809 ∧ t.pkg.reg O.securingState = 4 ∧
           Out.class0 ⟨0x22, s.pkg.reg O.domainPhysId, 0, (s.pkg.sched.originSeq + 1) % 2 ^ 32, planPayload ⟨.halt, r.failed, [], 0⟩⟩ ∈
             t.pkg.out))) ∧
   ∀ (s : State) (x : C0In) (pl : RecPlan) (i : Image), s.Runs .link → IsNew x s.pkg → s.pkg.loader.image = some i → s.pkg.reg O.imageState = 5 →
     (pl.case = .halt → ∃ t, exec (.recoveryPlan x pl) s = .next t ∧ t.pkg.reg O.securingState = 4 ∧ t.pkg.secure.hold = none ∧
       t.pkg.secure.recov.bind (·.plan) = some pl ∧ RaisedLast t 0x4809 ∧ SameMemory s t) ∧
     (pl.case = .uncovered → ∃ t h, exec (.recoveryPlan x pl) s = .next t ∧ t.pkg.secure.hold = some h ∧ h.streamed = false ∧ h.next = 0 ∧
       t.pkg.secure.digestSeq = none ∧ t.pkg.secure.recov.bind (·.plan) = some pl) ∧
     (pl.case = .rollback → pl.entries = [] → ∃ t, exec (.recoveryPlan x pl) s = .next t ∧ t.pkg.reg O.securingState = 3 ∧
       t.pkg.reg O.placementSwapCount = 0 ∧ t.pkg.secure.swapsLeft = [] ∧ t.pkg.secure.ringRead = 0 ∧ t.pkg.secure.ringWrite = 0 ∧
       t.pkg.secure.recov.bind (·.plan) = some pl) ∧
     ∀ y, pl.case = .remap → pl.entries = [] → s.pkg.securing = some y → y.buddy.getD (s.pkg.reg O.logicalPosition) 0xFFFF ∉ pl.failed →
       ∃ t, exec (.recoveryPlan x pl) s = .next t ∧ t.pkg.reg O.securingState = 2 ∧ t.pkg.secure.recov.bind (·.plan) = some pl ∧
         SameMemory s t)

/-- While the data plane runs, the coordinator floods the resume of a remap's rebuild that is complete; at its beat, and not before, the package runs
again, its next step the plan's. While links run, a resume is known by its flood. While the path's plane runs, a rollback is asked for in a running or
halted package and refused in any other. -/
def Obligations.Resumption : Prop :=
  (∀ (s : State) (r : Recov) (i : Image) (x : SecPart) (a : RecPlan), s.Runs .data → s.pkg.secure.recov = some r → s.pkg.posImage = some i →
    s.pkg.securing = some x → r.plan = some a → r.resumeAt = none → a.case = .remap → s.pkg.reg O.imageState ≠ 2 →
    (s.pkg.reg O.logicalPosition = coordinatorPos i a.failed →
      ∃ t, exec .rebuildComplete s = .next t ∧
        t.pkg.secure.recov = some { r with resumeAt := some (s.pkg.beatAhead (2 * i.slipHorizon), a.value) } ∧
        Out.class0 ⟨0x24, s.pkg.reg O.domainPhysId, 0, (s.pkg.sched.originSeq + 1) % 2 ^ 32,
          [s.pkg.beatAhead (2 * i.slipHorizon), a.value]⟩ ∈ t.pkg.out ∧ t.pkg.tiles = s.pkg.tiles ∧ t.pkg.sched.hold = s.pkg.sched.hold) ∧
    (s.pkg.reg O.logicalPosition ≠ coordinatorPos i a.failed → Does .rebuildComplete s s.pkg)) ∧
  (∀ (s : State) (y : C0In) (beat step : Nat) (r : Recov), s.Runs .link → IsNew y s.pkg → s.pkg.secure.recov = some r →
    ∃ t, exec (.resume y beat step) s = .next t ∧ t.pkg.secure.recov = some { r with resumeAt := some (beat, step) } ∧ SameMemory s t ∧
      SameRegs s t ∧ t.pkg.tiles = s.pkg.tiles) ∧
  (∀ (s : State) (r : Recov) (i : Image) (x : SecPart) (a : RecPlan) (beat step : Nat) (q : Pkg), s.Runs .data → s.pkg.secure.recov = some r →
    s.pkg.posImage = some i → s.pkg.securing = some x → r.resumeAt = some (beat, step) → r.plan = some a → s.pkg.reg O.imageState = 5 →
    (s.pkg.reg O.domainBeat < beat → Does .resumeBeat s s.pkg) ∧
    (beat ≤ s.pkg.reg O.domainBeat → s.pkg.reg O.logicalPosition ∉ a.failed → s.pkg.reloadTiles i (fun _ => true) = some q → a.case = .remap →
      ∃ t, exec .resumeBeat s = .next t ∧ t.pkg.reg O.imageState = 4 ∧ t.pkg.reg O.securingState = 0 ∧ t.pkg.secure.recov = none ∧
        t.pkg.reg O.generatorStep = (step + 2 ^ 40 - 1) % 2 ^ 40 ∧ t.pkg.sched.hold = none ∧ t.pkg.sched.slips = [] ∧ t.pkg.flits = [] ∧
        RaisedEver t 0x4806)) ∧
  ∀ (s : State) (pt : Path), s.Runs (pathPlane pt) →
    (s.pkg.posImage.isSome = true → (s.pkg.reg O.imageState = 4 ∨ s.pkg.reg O.imageState = 5) →
      ∃ t m, exec (.rollbackRequest pt 1) s = .next t ∧ Out.class0 m ∈ t.pkg.out ∧ m.type = 0x22 ∧ m.payload.head? = some 1 ∧
        m.originSeq = (s.pkg.sched.originSeq + 1) % 2 ^ 32) ∧
    (s.pkg.reg O.imageState ≠ 4 → s.pkg.reg O.imageState ≠ 5 →
      Does (.rollbackRequest pt 1) s (s.pkg.refuse pt O.rollbackRequest abState))

/-- While links run: a class-0 flit whose number was seen has no further effect than the credit it frees; a new one is remembered; a reserved type is
discarded with event 0x440A; a slip request reaches the schedule, while the data plane runs; a directed message for another package goes on at every
up port but the one it came by. A flood or report whose origin sequence is no later than the one remembered for its source has no effect. -/
def Obligations.Class0Messages : Prop :=
  (∀ (s : State) (i : PortNo) (m : C0Msg) (copy : Bool) (seq : Nat), s.Runs .link →
     (∀ replayed, seq ∈ (s.pkg.port i.val).c0Seen →
       Does (.class0Flit i m copy seq replayed) s (s.pkg.freeCredit i.val 0)) ∧
     (seq ∉ (s.pkg.port i.val).c0Seen → messageMeaning ⟨i, m.src, m.originSeq⟩ m = none →
       ∃ t, exec (.class0Flit i m copy seq false) s = .next t ∧ RaisedLast t 0x440A ∧ seq ∈ (t.pkg.port i.val).c0Seen ∧ SameMemory s t ∧
         SameRegs s t) ∧
     (∀ img, s.Runs .data → seq ∉ (s.pkg.port i.val).c0Seen → m.type = 0x01 → IsNew ⟨i, m.src, m.originSeq⟩ s.pkg → s.pkg.loader.image = some img →
       ∃ t, exec (.class0Flit i m copy seq false) s = .next t ∧
         (⟨m.payload.getD 1 0, img.slipQuantum, .slip⟩ : Slip) ∈ t.pkg.sched.slips ∧ t.pkg.sched.filter.find m.src = some m.originSeq ∧
         SameMemory s t ∧ SameRegs s t) ∧
     (seq ∉ (s.pkg.port i.val).c0Seen → (m.type = 0x03 ∨ m.type = 0x04 ∨ m.type = 0x25) → m.dst ≠ s.pkg.reg O.domainPhysId →
       IsNew ⟨i, m.src, m.originSeq⟩ s.pkg →
       ∃ t, exec (.class0Flit i m copy seq false) s = .next t ∧ t.pkg.sched.filter.find m.src = some m.originSeq ∧
         (∀ k : PortNo, k ≠ i → s.pkg.reg (O.portState + k.val) = 2 →
           (t.pkg.port k.val).tx0 = (s.pkg.port k.val).tx0 ++ [c0Flit m false (s.pkg.port k.val).c0Tx]) ∧
         t.pkg.sched.startRun = s.pkg.sched.startRun ∧ SameMemory s t ∧ SameRegs s t)) ∧
  (∀ (s : State) (x : C0In), ¬ IsNew x s.pkg →
     (∀ a b, Does (.slipRequest x a b) s s.pkg) ∧ (∀ b, Does (.startBeatMessage x b) s s.pkg) ∧ (∀ b, Does (.haltMessage x b) s s.pkg) ∧
     (∀ b p, Does (.saveRequestMessage x b p) s s.pkg) ∧ (∀ b, Does (.saveAbandoned x b) s s.pkg) ∧
     (∀ p r b, Does (.failureNotice x p r b) s s.pkg) ∧ (∀ pl, Does (.recoveryPlan x pl) s s.pkg) ∧
     (∀ b n, Does (.resume x b n) s s.pkg) ∧ (∀ r, Does (.recoveryReport x r) s s.pkg) ∧
     (∀ g d b, Does (.swapAnnouncement x g d b) s s.pkg) ∧ (∀ n, Does (.swapRefusal ⟨x, n⟩) s s.pkg))

/-! ## Power -/

/-- While the path's plane runs: ps_owner takes a claim where it holds 0, and takes 0, and a second claimant is refused by OWNER; a request for a
deeper state that no condition refuses begins the entry, and one for a shallower state the wake; in PS0 a request for a deeper state is refused by
SCHEDULE while image_state is not 0, and begins nothing; one that any condition refuses records its refuser and counts, and begins nothing. The entry
into PS1 takes the neighbour ports down, but for failed ones, and latches their pads; a step within a state leads to the next one; the last step into
PS3 switches its supplies off, latches its pads and releases an owner on path 1 or 2; a step that times out in the first state ends the entry where it
began, with its refuser recorded. All while the reference clock is there. -/
def Obligations.PowerStates : Prop :=
  (∀ (s : State) (pt : Path) (v : Nat), s.Runs (pathPlane pt) →
     (v ≤ 3 → (s.pkg.reg O.psOwner = 0 ∨ v = 0) → Does (.psOwnerWrite pt v) s (s.pkg.setReg O.psOwner v)) ∧
     (v ≤ 3 → v ≠ 0 → s.pkg.reg O.psOwner ≠ 0 → s.pkg.reg O.psOwner ≠ v →
       ∃ t, exec (.psOwnerWrite pt v) s = .next t ∧ t.pkg.reg O.psOwner = s.pkg.reg O.psOwner ∧ t.pkg.reg O.lastRefuser = 3 ∧
         RaisedLast t 0x2202 ∧ SameMemory s t) ∧
     (v ≤ 4 → s.pkg.power.trans = none → s.pkg.refuser pt v = none → s.pkg.reg O.psCurrent < v →
       ∃ t, exec (.psRequest pt v) s = .next t ∧ t.pkg.power.trans = some ⟨s.pkg.reg O.psCurrent, v, false, 0, false⟩ ∧
         t.pkg.reg O.psTarget = v ∧ t.pkg.reg O.psPhase = 1 ∧ SameMemory s t ∧ SameRegsBut (fun k => k = O.psTarget ∨ k = O.psPhase) s t ∧
         t.pkg.tiles = s.pkg.tiles) ∧
     (v ≤ 4 → s.pkg.power.trans = none → s.pkg.refuser pt v = none → v < s.pkg.reg O.psCurrent →
       ∃ t, exec (.psRequest pt v) s = .next t ∧ t.pkg.power.trans = some ⟨s.pkg.reg O.psCurrent, v, true, 0, false⟩ ∧
         t.pkg.reg O.psTarget = v ∧ t.pkg.reg O.psPhase = 2 ∧ t.pkg.reg O.psCurrent = s.pkg.reg O.psCurrent ∧ SameMemory s t) ∧
     (v ≤ 4 → v ≠ 0 → s.pkg.power.trans = none → s.pkg.reg O.psCurrent = 0 → s.pkg.reg O.imageState ≠ 0 →
       ∃ t, exec (.psRequest pt v) s = .next t ∧ t.pkg.power.trans = none ∧ t.pkg.reg O.psCurrent = 0 ∧ t.pkg.reg O.lastRefuser = 1 ∧
         RaisedLast t 0x2202 ∧ SameMemory s t) ∧
     ∀ c, v ≤ 4 → s.pkg.power.trans = none → s.pkg.refuser pt v = some c →
       ∃ t, exec (.psRequest pt v) s = .next t ∧ t.pkg.power = s.pkg.power ∧
         t.pkg.reg (O.psRefused + v) = min (s.pkg.reg (O.psRefused + v) + 1) (2 ^ 32 - 1) ∧ t.pkg.reg O.lastRefuser = c ∧
         t.pkg.reg O.dictLastAbort = (if c = 3 then abOwner else abState) ∧ RaisedLast t 0x2202 ∧ SameMemory s t) ∧
  ((∀ (s : State) (w : Bool), s.Runs .always → s.pkg.power.trans = some ⟨0, 1, false, 0, w⟩ →
     ∃ t, exec .psEntryStepDone s = .next t ∧ t.pkg.reg O.psCurrent = 1 ∧ t.pkg.power.trans = none ∧ t.pkg.reg O.psPhase = 0 ∧
       (∀ i < 12, t.pkg.reg (O.portState + i) = if (s.pkg.port i).dead then 4 else 0) ∧ bitOf (t.pkg.reg O.padHeld) 1 = true ∧ RaisedLast t 0x2204 ∧ SameMemory s t ∧
       SameRegsBut (fun k => (O.portState ≤ k ∧ k < O.portState + 12) ∨ (O.linkNeighbour ≤ k ∧ k < O.linkNeighbour + 12) ∨
         k = O.padHeld ∨ k = O.psCurrent ∨ k = O.psPhase) s t) ∧
   (∀ (s : State) (u : Transition) (st k k2 : Nat), s.Runs .always → s.pkg.power.trans = some u → u.waking = false →
     (entryPlan u.from0 u.target)[u.step]? = some (st, k) → (entryPlan u.from0 u.target)[u.step + 1]? = some (st, k2) →
     s.pkg.reg O.psCurrent ≠ u.target → u.wakeReq = false →
     ∃ t, exec .psEntryStepDone s = .next t ∧ t.pkg.power.trans = some { u with step := u.step + 1 } ∧
       t.pkg.reg O.psCurrent = s.pkg.reg O.psCurrent ∧ SameMemory s t) ∧
   (∀ (s : State) (w : Bool), s.Runs .always → s.pkg.power.trans = some ⟨2, 3, false, 2, w⟩ →
     ∃ t, exec .psEntryStepDone s = .next t ∧ t.pkg.reg O.psCurrent = 3 ∧ t.pkg.power.trans = none ∧ t.pkg.reg O.psPhase = 0 ∧
       (∀ k ∈ suppliesOff 3, t.pkg.reg (O.supplyState + k) = 0) ∧ (∀ k ∈ padsOf 3, bitOf (t.pkg.reg O.padHeld) k = true) ∧
       ((s.pkg.reg O.psOwner = 1 ∨ s.pkg.reg O.psOwner = 2) → t.pkg.reg O.psOwner = 0) ∧ RaisedLast t 0x2204 ∧ SameMemory s t) ∧
   ∀ (s : State) (u : Transition) (st k : Nat), s.Runs .always → s.pkg.power.trans = some u → u.waking = false → u.target ≤ 4 →
     (entryPlan u.from0 u.target)[u.step]? = some (st, k) → s.pkg.reg O.psCurrent = u.from0 →
     ∃ t, exec .psEntryStepTimeout s = .next t ∧ t.pkg.power.trans = none ∧ t.pkg.reg O.psTarget = u.from0 ∧
       t.pkg.reg O.psCurrent = u.from0 ∧ t.pkg.reg (O.psAborted + u.target) = min (s.pkg.reg (O.psAborted + u.target) + 1) (2 ^ 32 - 1) ∧
       t.pkg.reg O.lastAborter = stepRefuser k ∧ RaisedEver t 0x2203 ∧ RaisedLast t 0x2205 ∧ SameMemory s t)

/-- WAKE_N begins a wake out of PS4, where it is enabled, and does nothing in another state; a wake ends in its target with event 0x2205; a
regulator's fault aborts it; out of PS3, where no block of the always-on memory is valid, every block is reported and aon_restore_status says so. All
while the reference clock is there. A wake step starts when its rail's bucket, refilled at its slew and no fuller than its largest step, holds its
current; at the memory rails it ends a stack's self-refresh. While the path's plane runs, a pad group is released where its domains are powered, and
else the write is refused with event 0x220A. -/
def Obligations.WakingUp : Prop :=
  ((∀ s : State, s.pkg.reg O.psCurrent ≠ 4 → Does .wakeN s s.pkg) ∧
   (∀ s : State, s.Runs .always → s.pkg.reg O.psCurrent = 4 → s.pkg.supply.resetLow = false → s.pkg.power.trans = none → s.pkg.reg O.psPhase = 0 →
     bitOf (s.pkg.reg O.wakeSourceEnable) 0 = true →
     ∃ t, exec .wakeN s = .next t ∧ t.pkg.power.trans = some ⟨4, 3, true, 0, false⟩ ∧ t.pkg.reg O.psTarget = 3 ∧ t.pkg.reg O.psPhase = 2 ∧
       t.pkg.reg (O.supplyState + 5) = 2 ∧ t.pkg.reg (O.supplyState + 16) = 2 ∧ SameMemory s t) ∧
   (∀ (s : State) (u : Transition), s.Runs .always → s.pkg.power.trans = some u → u.waking = true → s.pkg.wakeFault = false → s.pkg.powering = false →
     s.pkg.reg O.psCurrent = u.target + 1 → s.pkg.reg O.psCurrent ≤ 2 →
     ∃ t, exec .wakeStepDone s = .next t ∧ t.pkg.reg O.psCurrent = u.target ∧ t.pkg.power.trans = none ∧
       t.pkg.reg O.psPhase = (if t.pkg.padsWait then 3 else 0) ∧ RaisedLast t 0x2205 ∧ SameMemory s t ∧
       SameRegsBut (fun k => k = O.psCurrent ∨ k = O.psPhase) s t) ∧
   (∀ (s : State) (u : Transition), s.Runs .always → s.pkg.power.trans = some u → u.waking = true → u.target ≤ 4 → s.pkg.wakeFault = true →
     ∃ t, exec .wakeStepDone s = .next t ∧ t.pkg.power.trans = none ∧ t.pkg.reg O.psTarget = s.pkg.reg O.psCurrent ∧
       t.pkg.reg O.psPhase = 0 ∧ t.pkg.reg O.lastAborter = 0x0A ∧ RaisedLast t 0x2203 ∧ SameMemory s t) ∧
   ∀ s : State, s.Runs .always → s.pkg.power.trans = some ⟨3, 2, true, 0, false⟩ → s.pkg.wakeFault = false → s.pkg.powering = false →
     s.pkg.reg O.psCurrent = 3 → (∀ i, s.pkg.power.aon.valid.at false i = false) →
     ∃ t, exec .wakeStepDone s = .next t ∧ t.pkg.reg O.psCurrent = 2 ∧ t.pkg.reg O.aonRestoreStatus = 188 ∧ RaisedEver t 0x2209 ∧
       RaisedLast t 0x2205 ∧ SameMemory s t) ∧
  ((∀ (s : State) (r : Fin 9) (x : Nat) (rest : List Nat) (lv : Nat), s.Runs .always → s.pkg.power.wakeQueue.at [] r.val = x :: rest →
     lv = min (100 * s.pkg.reg (O.wakeStepMaxA + r.val)) (s.pkg.power.bucket.at 0 r.val +
       s.pkg.reg (O.wakeSlewAPerUs + r.val) * (s.pkg.mtime - s.pkg.power.bucket.at 0 (16 + r.val))) →
     (lv < x → Does (.wakeBudgetStep r) s s.pkg) ∧
     (x ≤ lv → ∃ t, exec (.wakeBudgetStep r) s = .next t ∧ t.pkg.power.wakeQueue.at [] r.val = rest ∧
       t.pkg.power.bucket.at 0 r.val = lv - x ∧ t.pkg.power.bucket.at 0 (16 + r.val) = s.pkg.mtime ∧
       (r.val = 7 → t.pkg.memsys.selfRefresh.at false (11 - rest.length) = false) ∧ SameMemory s t ∧ SameRegs s t)) ∧
   (∀ (s : State) (r : Fin 9), s.pkg.power.wakeQueue.at [] r.val = [] → Does (.wakeBudgetStep r) s s.pkg) ∧
   (∀ (s : State) (pt : Path) (i : Fin 5), s.Runs (pathPlane pt) → s.pkg.padFree i.val = true → bitOf (s.pkg.reg O.padHeld) i.val = true →
     ∃ t, exec (.padRelease pt (2 ^ i.val)) s = .next t ∧ t.pkg.reg O.padHeld = s.pkg.reg O.padHeld - 2 ^ i.val ∧
       (i.val = 0 → t.pkg.power.wakeQueue.at [] 7 = List.replicate 12 800 ∧ t.pkg.power.wakeQueue.at [] 8 = List.replicate 24 200) ∧
       SameMemory s t ∧ SameRegsBut (fun k => k = O.padHeld ∨ k = O.psPhase) s t) ∧
   ∀ (s : State) (pt : Path) (v : Nat) (i : Fin 5), s.Runs (pathPlane pt) → v < 32 → bitOf v i.val = true → s.pkg.padFree i.val = false →
     Does (.padRelease pt v) s ((s.pkg.refuse pt O.padRelease abState).raise 0x220A noUnit 0))

/-- While the path's plane runs, the divisor's shadow copy is written where the image and the armed state allow it, and a value out of range refused.
While the management plane runs, a change to a lower frequency takes effect at its beat within the hold, VDD following it; a die still held fails the
package; an interlock's release frees its die; the averages are those of the last 10 and 100 samples, or of as many as there are (log 89), and their
excess is counted and reported once. -/
def Obligations.OperatingPoints : Prop :=
  (∀ (s : State) (pt : Path) (v : Nat), s.Runs (pathPlane pt) → 4 ≤ v → v ≤ 6 → (∀ i, s.pkg.loader.image = some i → i.aclkDiv ≤ v) →
    (s.pkg.reg O.imageState ≠ 4 ∨ s.pkg.isMaster = true) → s.pkg.reg O.cfgArmState = 0 →
    Does (.aclkDivisorWrite pt v) s (s.pkg.setShadow O.aclkDivisor v)) ∧
  (∀ (s : State) (pt : Path) (v : Nat), s.Runs (pathPlane pt) → (v < 4 ∨ 6 < v) →
    Does (.aclkDivisorWrite pt v) s ((s.pkg.refuse pt O.aclkDivisor abRange).raise 0x2201 noUnit 0)) ∧
  (∀ (s : State) (div d0 : Nat), s.Runs .management → s.pkg.power.opNext = some (div, d0) → s.pkg.reg O.aclkDivisorActive < div → div ≤ 6 →
    4 ≤ s.pkg.reg O.aclkDivisorActive →
    (s.pkg.reg O.domainBeat < d0 + 16 → s.pkg.reg O.imageState = 4 → Does .divisorChange s s.pkg) ∧
    (d0 + 16 ≤ s.pkg.reg O.domainBeat → (∀ d < 4, s.pkg.power.dvfsHeld.at 0 d = 0) →
      ∃ t, exec .divisorChange s = .next t ∧ t.pkg.reg O.aclkDivisorActive = div ∧ t.pkg.power.opNext = none ∧
        (∀ d < 4, t.pkg.power.vddTarget.at 0 d = s.pkg.vddOf d div) ∧ RaisedLast t 0x220D ∧ SameMemory s t ∧
        SameRegsBut (fun k => k = O.aclkDivisorActive) s t) ∧
    (d0 + 16 ≤ s.pkg.reg O.domainBeat → s.pkg.reg O.imageState = 4 → (∃ d < 4, s.pkg.power.dvfsHeld.at 0 d ≠ 0) →
      ∃ t, exec .divisorChange s = .next t ∧ t.pkg.failed = true ∧ t.pkg.power.opNext = none ∧ RaisedEver t 0x220B ∧
        t.pkg.reg O.aclkDivisorActive = s.pkg.reg O.aclkDivisorActive ∧ SameMemory s t)) ∧
  (∀ (s : State) (d : DieNo), s.Runs .management →
    ∃ t, exec (.dvfsInterlockRelease d) s = .next t ∧ t.pkg.power.dvfsHeld.at 0 d.val = 0 ∧
      (∀ e, e ≠ d.val → t.pkg.power.dvfsHeld.at 0 e = s.pkg.power.dvfsHeld.at 0 e) ∧ SameMemory s t ∧ SameRegs s t) ∧
  ∀ (s : State) (mw : Nat) (l : List Nat), s.Runs .management → l = lastSamples (s.pkg.power.samples ++ [mw]) 100 →
    ∃ t, exec (.powerSample mw) s = .next t ∧ t.pkg.power.samples = l ∧ t.pkg.reg O.powerAvg10msW = meanWatts (lastSamples l 10) ∧
      t.pkg.reg O.powerAvg100msW = meanWatts l ∧
      (((aboveLimit (lastSamples l 10) 3300 = true ∨ aboveLimit l 2800 = true) ∧ s.pkg.power.excess = false) →
        RaisedLast t 0x2208 ∧ t.pkg.reg O.powerExcessCount = min (s.pkg.reg O.powerExcessCount + 1) (2 ^ 32 - 1)) ∧ SameMemory s t ∧
      SameRegsBut (fun k => k = O.powerAvg10msW ∨ k = O.powerAvg100msW ∨ k = O.powerExcessCount) s t

/-! ## The dictionary and CAN FD -/

/-- While the path's plane runs, on paths 1 and 2: a write of one word to an object without a rule of its own goes to its only copy, or to its shadow
copy where it is configuration; a read-only object, a value out of range, an armed package and an absent object refuse it; a word at the offset of a
doorbell rings it; a write with EP = 1, or to port D BAR0, is dropped with event 0x4609 and its offset. A refused write changes no object but
dict_last_error and dict_last_abort; it raises event 0x4609 over port H BAR0 and 0x2601 on the other paths, answers an abort over CAN FD, and changes
neither memory nor tiles. -/
def Obligations.DictionaryAccess : Prop :=
  ((∀ (s : State) (pt : Path) (idx sub v : Nat), s.Runs .control → pt ≠ .canFd → 0x1000 ≤ idx → idx < 2 ^ 16 → sub < 256 → v < 2 ^ 32 →
     s.pkg.servesKey (idx * 256 + sub) = true →
     (∀ o, objAt (idx * 256 + sub) = some o →
       (o.acc = .ro → Does (.dictionaryWrite pt idx sub 4 ⟨v, .plain⟩) s (s.pkg.refuse pt (idx * 256 + sub) abRo)) ∧
       (o.size ≠ 8 → o.size ≠ 0 → o.acc ≠ .ro → valueOk o v = false →
         Does (.dictionaryWrite pt idx sub 4 ⟨v, .plain⟩) s (s.pkg.refuse pt (idx * 256 + sub) abRange)) ∧
       (o.size ≠ 8 → o.size ≠ 0 → valueOk o v = true → s.pkg.single pt (idx * 256 + sub) v = none →
         s.pkg.queueObjects pt (idx * 256 + sub) v = none → s.pkg.arrayWrite pt (idx * 256 + sub) v = none →
         (o.acc = .rw → Does (.dictionaryWrite pt idx sub 4 ⟨v, .plain⟩) s (s.pkg.setReg (idx * 256 + sub) v)) ∧
         (o.acc = .rws → s.pkg.reg O.cfgArmState = 0 →
           Does (.dictionaryWrite pt idx sub 4 ⟨v, .plain⟩) s (s.pkg.setShadow (idx * 256 + sub) v)) ∧
         (o.acc = .rws → s.pkg.reg O.cfgArmState ≠ 0 →
           Does (.dictionaryWrite pt idx sub 4 ⟨v, .plain⟩) s (s.pkg.refuse pt (idx * 256 + sub) abState)))) ∧
     (objAt (idx * 256 + sub) = none → highOf (idx * 256 + sub) = none → stringWord (idx * 256 + sub) = none →
       Does (.dictionaryWrite pt idx sub 4 ⟨v, .plain⟩) s (s.pkg.refuse pt (idx * 256 + sub) (absentCode idx)))) ∧
   (∀ (s : State) (pt : Path) (q : QueueNo) (v : Nat), s.Runs .control → pt ≠ .canFd → v < 2 ^ 32 →
     Does (.dictionaryWrite pt 0 (2 * q.val) 4 ⟨v, .plain⟩) s (s.pkg.sqDoorbell pt q.val v)) ∧
   ∀ (s : State) (pt : Path) (idx sub size v : Nat), s.Runs .control → idx < 2 ^ 16 → sub < 256 →
     Does (.dictionaryWrite pt idx sub size ⟨v, .statusPage⟩) s (s.pkg.raise 0x4609 noUnit (barOffset (idx * 256 + sub))) ∧
     ∃ t, exec (.dictionaryWrite .hostBar idx sub size ⟨v, .poisoned⟩) s = .next t ∧ RaisedLast t 0x4609 ∧ t.pkg.host.pciH.poisonedTlp = true ∧
       SameMemory s t ∧ SameRegs s t ∧ SameShadow s t) ∧
  (∀ (p : Pkg) (pt : Path) (k abort : Nat),
     (p.refuse pt k abort).reg O.dictLastAbort = abort ∧ (p.refuse pt k abort).reg O.dictLastError = pt.num * 2 ^ 30 + k ∧
       (∀ j, j ≠ O.dictLastError → j ≠ O.dictLastAbort → (p.refuse pt k abort).reg j = p.reg j) ∧
       (p.refuse pt k abort).dict.shadow = p.dict.shadow ∧
       (p.refuse pt k abort).ev.inFlight.map (·.code) = p.ev.inFlight.map (·.code) ++ [if pt = .hostBar then 0x4609 else 0x2601] ∧
       (p.refuse pt k abort).out = p.out ++ (if pt = .canFd then [.usdoAbort abort] else []) ∧
       (p.refuse pt k abort).mem = p.mem ∧ (p.refuse pt k abort).tiles = p.tiles)

/-- While the management plane runs: bus-off, error passive and their ends show in bit 4 of error_register; NMT commands that name the node set its
state, and others do nothing; the heartbeat goes out while the controller is on the bus, and the oldest EMCY frame while it is neither off the bus nor
error passive and the node not stopped. While the management plane runs, on the bus and not stopped: a USDO read answers the object's bytes or aborts;
a write to an object without a rule of its own is acknowledged, or aborts and changes nothing; a segmented write is gathered until its length is in,
and aborts on its timeout. Off the bus, or stopped, the node answers nothing. -/
def Obligations.CanAndUsdo : Prop :=
  ((∀ s : State, s.Runs .management → s.pkg.can.busOff = false →
     ∃ t, exec .canBusOff s = .next t ∧ t.pkg.can.busOff = true ∧ bitOf (t.pkg.reg O.errorRegister) 4 = true ∧
       t.pkg.reg O.canBusOffs = min (s.pkg.reg O.canBusOffs + 1) (2 ^ 32 - 1) ∧ RaisedLast t 0x1001 ∧ SameMemory s t ∧
       SameRegsBut (fun k => k = O.errorRegister ∨ k = O.canBusOffs) s t) ∧
   (∀ s : State, s.Runs .management → s.pkg.can.busOff = true →
     ∃ t, exec .canBusOffRecovery s = .next t ∧ t.pkg.can.busOff = false ∧ t.pkg.can.passive = false ∧
       bitOf (t.pkg.reg O.errorRegister) 4 = s.pkg.can.offSeen ∧ SameMemory s t ∧ SameRegsBut (fun k => k = O.errorRegister) s t) ∧
   (∀ s : State, s.Runs .management → s.pkg.can.passive = false →
     ∃ t, exec .canErrorPassive s = .next t ∧ t.pkg.can.passive = true ∧ bitOf (t.pkg.reg O.errorRegister) 4 = true ∧ RaisedLast t 0x1002 ∧
       SameMemory s t ∧ SameRegsBut (fun k => k = O.errorRegister) s t) ∧
   (∀ s : State, s.Runs .management → ∃ t, exec .canErrorActive s = .next t ∧ t.pkg.can.passive = false ∧
     bitOf (t.pkg.reg O.errorRegister) 4 = s.pkg.can.offSeen ∧ SameMemory s t ∧ SameRegsBut (fun k => k = O.errorRegister) s t) ∧
   (∀ (s : State) (pt : Path), s.Runs (pathPlane pt) → ∃ t, exec (.errorRegisterRead pt) s = .next t ∧
     t.pkg.out = s.pkg.out ++ [.value (s.pkg.reg O.errorRegister)] ∧ t.pkg.can.offSeen = false ∧
     bitOf (t.pkg.reg O.errorRegister) 4 = s.pkg.can.passive ∧ SameMemory s t ∧ SameRegsBut (fun k => k = O.errorRegister) s t) ∧
   (∀ (s : State) (n : Nat), s.Runs .management → s.pkg.onBus = true → (n = 0 ∨ n = s.pkg.reg O.canNodeId) →
     (∃ t, exec (.nmtStart n) s = .next t ∧ t.pkg.can.nmt = .operational ∧ SameMemory s t) ∧
     Does (.nmtStop n) s (s.pkg.setNmt .stopped) ∧ Does (.nmtPreOperational n) s (s.pkg.setNmt .preOp) ∧
     Does (.nmtResetNode n) s s.pkg.resetCommunication ∧ Does (.nmtResetCommunication n) s s.pkg.resetCommunication) ∧
   (∀ (s : State) (n : Nat), (s.pkg.onBus = false ∨ (n ≠ 0 ∧ n ≠ s.pkg.reg O.canNodeId)) →
     Does (.nmtStart n) s s.pkg ∧ Does (.nmtStop n) s s.pkg ∧ Does (.nmtPreOperational n) s s.pkg ∧ Does (.nmtResetNode n) s s.pkg ∧
       Does (.nmtResetCommunication n) s s.pkg) ∧
   (∀ s : State, s.Runs .management → s.pkg.onBus = true → s.pkg.reg O.producerHeartbeatMs ≠ 0 →
     Does .heartbeat s (s.pkg.emit (.heartbeat (nmtCode s.pkg.can.nmt)))) ∧
   ∀ (s : State) (f : EvRec × Nat) (r : List (EvRec × Nat)), s.Runs .management → s.pkg.ev.emcy = f :: r → s.pkg.onBus = true → s.pkg.can.passive = false →
     s.pkg.can.nmt ≠ .stopped → Does .emcyTransmit s ((s.pkg.setEv { s.pkg.ev with emcy := r }).emit (.emcy f.1 f.2))) ∧
  ((∀ (s : State) (idx sub : Nat), s.Runs .management → idx < 2 ^ 16 → sub < 256 → s.pkg.onBus = true → s.pkg.can.nmt ≠ .stopped →
     s.pkg.servesKey (idx * 256 + sub) = true →
     (∀ o, objAt (idx * 256 + sub) = some o →
       Does (.usdoRequest (.read idx sub)) s ((s.pkg.readObject .canFd o (idx * 256 + sub)).2.emit
         (.usdoValue (toLe o.size (s.pkg.readObject .canFd o (idx * 256 + sub)).1))) ∧
       ∀ l : List Byte,
         (o.acc = .ro → Does (.usdoRequest (.write idx sub l)) s (s.pkg.refuse .canFd (idx * 256 + sub) abRo)) ∧
         (o.acc ≠ .ro → o.size ≠ 0 → l.length ≠ o.size →
           Does (.usdoRequest (.write idx sub l)) s (s.pkg.refuse .canFd (idx * 256 + sub) abLen)) ∧
         (o.acc = .rw → o.size ≠ 0 → l.length = o.size → valueOk o (leNat l) = true →
           s.pkg.single .canFd (idx * 256 + sub) (leNat l) = none → s.pkg.queueObjects .canFd (idx * 256 + sub) (leNat l) = none →
           s.pkg.arrayWrite .canFd (idx * 256 + sub) (leNat l) = none →
           Does (.usdoRequest (.write idx sub l)) s ((s.pkg.setReg (idx * 256 + sub) (leNat l)).emit .usdoAck))) ∧
     (objAt (idx * 256 + sub) = none →
       Does (.usdoRequest (.read idx sub)) s (s.pkg.emit (.usdoAbort (absentCode idx))) ∧
       ∀ l, Does (.usdoRequest (.write idx sub l)) s (s.pkg.refuse .canFd (idx * 256 + sub) (absentCode idx)))) ∧
   (∀ (s : State) (g : Segment) (l : List Byte), s.Runs .management → s.pkg.onBus = true → s.pkg.can.nmt ≠ .stopped → s.pkg.can.segment = some g →
     g.got.length + l.length < g.len →
     Does (.usdoRequest (.segData l)) s ((s.pkg.setCan { s.pkg.can with segment := some { g with got := g.got ++ l } }).emit .usdoAck)) ∧
   (∀ (s : State) (g : Segment), s.Runs .management → s.pkg.can.segment = some g →
     Does .usdoSegmentTimeout s ((s.pkg.setCan { s.pkg.can with segment := none }).refuse .canFd (g.idx * 256 + g.sub) abSegment)) ∧
   ∀ (s : State) (f : UsdoFrame), (s.pkg.onBus = false ∨ s.pkg.can.nmt = .stopped) → Does (.usdoRequest f) s s.pkg)

/-! ## Wear -/

/-- While the management plane runs: readings of means are summed, those of a lane while the scan can claim its die's test engine, and else event
0x4409 is raised and they are not taken; a checkpoint keeps at most eight values of every unit-indicator and queues the write of both copies of the
wear area; while sampling is disabled neither does anything. A query names a unit-indicator, or is refused. -/
def Obligations.WearCommands : Prop :=
  (∀ (s : State) (l : List (Nat × Int)), s.pkg.reg O.wearEnable = 0 → Does (.wearSample l) s s.pkg ∧ Does .wearCheckpoint s s.pkg) ∧
  (∀ (s : State) (k : Nat) (v : Int), s.Runs .management → s.pkg.reg O.wearEnable ≠ 0 → isWearKey k = true → isMeanKey k = true →
    (∀ d, laneDie k = some d → s.pkg.reg (O.linkTestOwner + d) ≠ 0 → s.pkg.reg (O.linkTestOwner + d) ≠ 2 →
      ∃ t, exec (.wearSample [(k, v)]) s = .next t ∧ RaisedLast t 0x4409 ∧ t.pkg.wear = s.pkg.wear ∧ SameMemory s t ∧ SameRegs s t) ∧
    ((∀ d, laneDie k = some d → s.pkg.reg (O.linkTestOwner + d) = 0) →
    ∃ t, exec (.wearSample [(k, v)]) s = .next t ∧ t.pkg.wear.sums.at 0 k = s.pkg.wear.sums.at 0 k + v ∧
      t.pkg.wear.counts.at 0 k = s.pkg.wear.counts.at 0 k + 1 ∧ t.pkg.wear.rings = s.pkg.wear.rings ∧ SameMemory s t ∧
      SameRegsBut (fun j => k / 2 ^ 24 = 3 ∧ j = O.laneEyeMargin + k % 2 ^ 16) s t)) ∧
  (∀ s : State, s.Runs .management → s.pkg.reg O.wearEnable ≠ 0 → (∀ k, (s.pkg.wear.rings.at [] k).length ≤ 8) →
    ∃ t b, exec .wearCheckpoint s = .next t ∧ (∀ k, (t.pkg.wear.rings.at [] k).length ≤ 8) ∧
      t.pkg.boot.flashQ = s.pkg.boot.flashQ ++ [⟨2, 0x18000, b⟩, ⟨2, 0x1C000, b⟩] ∧ SameMemory s t) ∧
  ∀ (s : State) (pt : Path) (v : Nat), s.Runs (pathPlane pt) → v < 2 ^ 32 →
    (isWearKey v = true → Does (.wearQuery pt v) s (s.pkg.setReg O.wearQuery v)) ∧
    (isWearKey v = false → Does (.wearQuery pt v) s (s.pkg.refuse pt O.wearQuery abRange))

/-! ## Supplies and resets -/

/-- package_reset takes its own value only, while its path's plane runs; a cold reset notes its cause, counts, drives FAULT_N, and keeps the flash,
the event log, the always-on memory and, where confirmed, main memory; one within a cold reset adds its cause; RESET_N is such a source, and in power-
up only a cause; the release starts boot, or recovery, or with TEST_MODE keeps the reset. A lost REFCLK fails the package and counts; its return asks
for a cold reset; the root PLL's loss fails the package, and the standby takes over unless an image runs or the standby was lost; another's stops its
unit; a root PLL that does not lock fails the boot step in progress; while the management plane runs, the boot watchdog counts and asks for a cold
reset in boot_state 1, and does nothing outside the boot stages it guards. -/
def Obligations.ResetsAndClocks : Prop :=
  ((∀ (s : State) (pt : Path) (m : Bool), s.Runs (pathPlane pt) → s.pkg.boot.resetWait = false →
     ∃ t, exec (.packageReset pt 42330 m) s = .next t ∧ t.pkg.reg O.resetCause = 4 + (if m then 64 else 0) ∧
       t.pkg.reg O.coldResets = min (s.pkg.reg O.coldResets + 1) (2 ^ 32 - 1) ∧ t.pkg.boot.resetWait = true ∧ t.lands.faultN = false ∧
       t.pkg.boot.flash = s.pkg.boot.flash ∧ t.pkg.ev.log = s.pkg.ev.log ∧ t.pkg.power.aon = s.pkg.power.aon ∧
       t.pkg.reg O.imageState = 0 ∧ (∀ a, t.pkg.byte a = if m ∧ isMem a then s.pkg.byte a else 0)) ∧
   (∀ (s : State) (pt : Path) (m : Bool), s.Runs (pathPlane pt) → s.pkg.boot.resetWait = true →
     Does (.packageReset pt 42330 m) s (s.pkg.setReg O.resetCause (s.pkg.reg O.resetCause ||| 4))) ∧
   (∀ (s : State) (pt : Path) (v : Nat) (m : Bool), s.Runs (pathPlane pt) → v ≠ 42330 →
     Does (.packageReset pt v m) s (s.pkg.refuse pt O.packageReset abRange)) ∧
   (∀ (s : State) (m : Bool), s.pkg.supply.seqStep ≠ 8 →
     Does (.resetNAssert m) s ((s.pkg.setSupply { s.pkg.supply with resetLow := true, tap := .idcode }).setReg
       O.resetCause (s.pkg.reg O.resetCause ||| 2))) ∧
   (∀ (s : State) (m : Bool), s.pkg.supply.seqStep = 8 → s.pkg.reg O.psCurrent < 3 → s.pkg.boot.resetWait = false →
     ∃ t, exec (.resetNAssert m) s = .next t ∧ t.pkg.reg O.resetCause = 2 + (if m then 64 else 0) ∧ t.pkg.boot.resetWait = true ∧
       t.pkg.supply.resetLow = true ∧ t.lands.faultN = false ∧ t.pkg.boot.flash = s.pkg.boot.flash) ∧
   (∀ (s : State) (rn : Bool), s.Runs .always → s.pkg.boot.resetWait = true → s.pkg.supply.seqStep = 8 →
     (∃ t, exec (.coldResetRelease rn false) s = .next t ∧ t.pkg.boot.step = 1 ∧ t.pkg.boot.resetWait = false ∧ t.pkg.boot.inRecovery = !rn ∧
       t.pkg.supply.resetLow = false ∧ SameMemory s t ∧ SameRegsBut (fun k => k = O.errorRegister) s t) ∧
     Does (.coldResetRelease rn true) s (s.pkg.setReg O.resetCause (s.pkg.reg O.resetCause ||| 128))) ∧
   ∀ (s : State) (rn tm : Bool), (s.pkg.boot.resetWait = false ∨ s.pkg.supply.seqStep ≠ 8) → Does (.coldResetRelease rn tm) s s.pkg) ∧
  ((∀ s : State, s.pkg.supply.refclkAbsent = false →
     ∃ t, exec .refclkLoss s = .next t ∧ t.pkg.failed = true ∧ t.pkg.supply.refclkAbsent = true ∧ t.pkg.reg O.refclkState = 1 ∧
       t.pkg.reg O.refclkLosses = min (s.pkg.reg O.refclkLosses + 1) (2 ^ 32 - 1) ∧ t.pkg.boot.held = true ∧ RaisedEver t 0x2104 ∧
       SameMemory s t) ∧
   (∀ (s : State) (m : Bool), s.pkg.supply.refclkAbsent = true → s.pkg.boot.resetWait = false →
     ∃ t, exec (.refclkRestored m) s = .next t ∧ t.pkg.supply.refclkAbsent = false ∧ t.pkg.reg O.refclkState = 0 ∧
       t.pkg.reg O.resetCause = 16 + (if m then 64 else 0) ∧ t.pkg.boot.resetWait = true ∧ RaisedEver t 0x2105) ∧
   (∀ s : State, ∃ t, exec (.pllUnlock .root) s = .next t ∧ t.pkg.failed = true ∧ RaisedEver t 0x2106 ∧
     t.pkg.reg O.pllUnlocks = min (s.pkg.reg O.pllUnlocks + 1) (2 ^ 32 - 1) ∧
     ((s.pkg.reg O.imageState = 4 ∨ s.pkg.reg O.rootPllInUse = 1) → t.pkg.supply.rootLost = true) ∧
     (s.pkg.reg O.imageState ≠ 4 → s.pkg.reg O.rootPllInUse ≠ 1 → t.pkg.reg O.rootPllInUse = 1) ∧ SameMemory s t) ∧
   (∀ (s : State) (u : Nat),
     (∃ t, exec (.pllUnlock (.other u)) s = .next t ∧ t.pkg.supply.pllOff.at false u = true ∧
       (u < 12 → t.pkg.reg (O.portState + u) = 4) ∧ RaisedEver t 0x2106 ∧ t.pkg.failed = s.pkg.failed ∧ SameMemory s t) ∧
     ∃ t, exec (.pllLockTimeout (.other u)) s = .next t ∧ t.pkg.supply.pllOff.at false u = true ∧
       (u < 12 → t.pkg.reg (O.portState + u) = 4) ∧ RaisedEver t 0x2107 ∧ t.pkg.failed = s.pkg.failed ∧ SameMemory s t) ∧
   (∀ s : State, s.pkg.boot.step ≠ 0 →
     ∃ t, exec (.pllLockTimeout .root) s = .next t ∧ t.pkg.reg O.bootState = 5 ∧ t.pkg.reg O.bootFailStep = s.pkg.boot.step ∧
       t.pkg.boot.held = true ∧ RaisedEver t 0x2107 ∧ RaisedLast t 0x2402 ∧ SameMemory s t ∧
       SameRegsBut (fun k => k = O.bootState ∨ k = O.bootFailStep) s t) ∧
   (∀ (s : State) (m : Bool), s.Runs .management → s.pkg.reg O.bootState = 1 → s.pkg.boot.resetWait = false →
     ∃ t, exec (.bootWatchdogExpiry m) s = .next t ∧ t.pkg.power.aon.bootFails = min (s.pkg.power.aon.bootFails + 1) 255 ∧
       t.pkg.reg O.resetCause = 8 + (if m then 64 else 0) ∧ t.pkg.boot.resetWait = true ∧ RaisedLast t 0x240B) ∧
   ∀ (s : State) (m : Bool), s.pkg.boot.step ≠ 7 → s.pkg.reg O.bootState ≠ 1 → s.pkg.reg O.bootState ≠ 5 →
     Does (.bootWatchdogExpiry m) s s.pkg)

/-- PWR_OK begins the sequence with its step 2, or stops it at a regulator that gives no answer, with events 0x2102 and 0x2101 and FAULT_N; a supply
that reads power-good lets the sequence go on, and the last one brings the package to its cold reset; one that does not stops it with event 0x2101 and
FAULT_N; PWR_OK's fall takes supplies 0 to 17 down, and memory is lost while flash and event log stay. While the management plane runs: a reading
shows its voltage and current; a regulator's fault fails the package, a warning is reported, a stale reading counted; the temperatures are shown, and
one of a die at its warning threshold reported. A trip drives both lands low, takes supplies 0 to 17 off and loses memory. -/
def Obligations.SuppliesAndTelemetry : Prop :=
  ((∀ s : State, s.pkg.supply.pwrOk = false →
     ∃ t, exec (.pwrOkRise []) s = .next t ∧ t.pkg.supply.pwrOk = true ∧ t.pkg.supply.seqStep = 2 ∧ t.pkg.reg (O.supplyState + 16) = 1 ∧
       t.pkg.reg (O.supplyState + 5) = 1 ∧ t.pkg.reg O.resetCause = 1 ∧ t.pkg.boot.flash = s.pkg.boot.flash ∧ t.pkg.mem = []) ∧
   (∀ (s : State) (r : Fin 18), s.pkg.supply.pwrOk = false →
     ∃ t, exec (.pwrOkRise [r.val]) s = .next t ∧ t.pkg.reg (O.supplyState + r.val) = 3 ∧ t.pkg.supply.seqStopped = true ∧
       t.lands.faultN = false ∧ RaisedEver t 0x2102 ∧ RaisedEver t 0x2101) ∧
   (∀ (s : State) (u : Fin 21), s.pkg.reg (O.supplyState + u.val) = 1 →
     ((s.pkg.supply.seqStep < 2 ∨ 7 < s.pkg.supply.seqStep ∨ s.pkg.supply.seqStopped = true) →
       Does (.supplyPowerGood u) s (s.pkg.setReg (O.supplyState + u.val) 2)) ∧
     (s.pkg.supply.seqStep = 7 → s.pkg.supply.seqStopped = false → u.val < 4 →
       (∀ k < 4, k ≠ u.val → s.pkg.reg (O.supplyState + k) = 2) →
       ∃ t, exec (.supplyPowerGood u) s = .next t ∧ t.pkg.reg (O.supplyState + u.val) = 2 ∧ t.pkg.supply.seqStep = 8 ∧
         t.pkg.boot.resetWait = true ∧ SameMemory s t ∧ SameRegsBut (fun k => k = O.supplyState + u.val) s t) ∧
     ∃ t, exec (.powerGoodTimeout u) s = .next t ∧ t.pkg.reg (O.supplyState + u.val) = 3 ∧ t.pkg.supply.seqStopped = true ∧
       t.lands.faultN = false ∧ RaisedLast t 0x2101 ∧ SameMemory s t) ∧
   (∀ (s : State) (u : Fin 21), s.pkg.reg (O.supplyState + u.val) ≠ 1 → Does (.supplyPowerGood u) s s.pkg ∧ Does (.powerGoodTimeout u) s s.pkg) ∧
   ∀ s : State, s.pkg.supply.pwrOk = true →
     ∃ t, exec .pwrOkFall s = .next t ∧ t.pkg.supply.pwrOk = false ∧ (∀ k < 18, t.pkg.reg (O.supplyState + k) = 0) ∧
       (∀ a, t.pkg.byte a = 0) ∧ t.pkg.boot.flash = s.pkg.boot.flash ∧ t.pkg.ev.log = s.pkg.ev.log ∧ RaisedEver t 0x2103) ∧
  ((∀ (s : State) (u : Fin 21) (mv ma : Nat), s.Runs .management →
     ∃ t, exec (.telemetryPoll u (.reading mv ma)) s = .next t ∧ t.pkg.reg (O.supplyMv + u.val) = mv % 2 ^ 16 ∧
       t.pkg.reg (O.supplyMa + u.val) = ma % 2 ^ 32 ∧ SameMemory s t ∧
       SameRegsBut (fun k => k = O.supplyMv + u.val ∨ k = O.supplyMa + u.val ∨ (18 ≤ u.val ∧ k = O.supplyState + u.val)) s t) ∧
   (∀ (s : State) (u : Fin 18), s.Runs .management →
     (∃ t, exec (.telemetryPoll ⟨u.val, by omega⟩ .fault) s = .next t ∧ t.pkg.reg (O.supplyState + u.val) = 3 ∧ t.pkg.failed = true ∧
       RaisedEver t 0x2101 ∧ SameMemory s t) ∧
     (∃ t, exec (.pmbAlert u .fault) s = .next t ∧ t.pkg.reg (O.supplyState + u.val) = 3 ∧ t.pkg.failed = true ∧ RaisedEver t 0x2101 ∧
       SameMemory s t) ∧
     (∃ t, exec (.pmbAlert u .warning) s = .next t ∧ RaisedLast t 0x210C ∧ SameMemory s t ∧ SameRegs s t) ∧
     ∀ mv ma, Does (.pmbAlert u (.reading mv ma)) s (s.pkg.emit (.pmbus u.val statusWordCommand))) ∧
   (∀ (s : State) (u : Fin 21), s.Runs .management → ∃ t, exec (.telemetryPoll u .stale) s = .next t ∧
     t.pkg.reg O.telemetryStale = min (s.pkg.reg O.telemetryStale + 1) (2 ^ 32 - 1) ∧ SameMemory s t ∧
     SameRegsBut (fun k => k = O.telemetryStale) s t) ∧
   (∀ (s : State) (d k : List Int), s.Runs .management →
     ∃ t, exec (.thermalSample d k) s = .next t ∧
       (∀ (i : Nat) (v : Int), i < 10 → d[i]? = some v → t.pkg.reg (O.dieTempDc + i) = toBits 16 v ∧
         (10 * (s.pkg.reg O.thermalWarnC : Int) ≤ v → s.pkg.supply.warned.at false i = false → RaisedEver t 0x2108)) ∧
       (∀ (i : Nat) (v : Int), i < 12 → k[i]? = some v → t.pkg.reg (O.stackTempDc + i) = toBits 16 v) ∧ SameMemory s t ∧
       SameRegsBut (fun j => (O.dieTempDc ≤ j ∧ j < O.dieTempDc + 10) ∨ (O.stackTempDc ≤ j ∧ j < O.stackTempDc + 12)) s t) ∧
   ∀ (s : State) (u : Fin 22), s.pkg.supply.tripped = false →
     ∃ t, exec (.thermalTrip u) s = .next t ∧ t.lands.thermTripN = false ∧ t.lands.faultN = false ∧ t.pkg.failed = true ∧
       (∀ k < 18, t.pkg.reg (O.supplyState + k) = 0) ∧ (∀ a, t.pkg.byte a = 0) ∧ RaisedEver t 0x2109)

/-! ## Boot, recovery transfers, attestation -/

/-- While the management plane runs, boot goes on at the ends of its steps: a step that cannot complete holds the package; a bad flash or identity and
three failed boots lead to recovery; step 10 completes the reclamation sweep and claims the link test engines that are free, and step 11 releases them
and completes the boot. While the path's plane runs, os_boot starts hart 0's core once after boot, from a payload in the command window; a recovery
request is kept for the next boot. -/
def Obligations.BootSteps : Prop :=
  (∀ (s : State) (f : BootFinding), s.pkg.boot.step = 0 → Does (.bootStepDone f) s s.pkg) ∧
  (∀ (s : State) (f : BootFinding), s.Runs .management → f.ok = false →
    ((s.pkg.boot.step = 1 ∨ s.pkg.boot.step = 6 ∨ s.pkg.boot.step = 7 ∨ s.pkg.boot.step = 8 ∨ s.pkg.boot.step = 10 ∨ 11 ≤ s.pkg.boot.step) →
      ∃ t, exec (.bootStepDone f) s = .next t ∧ t.pkg.reg O.bootState = 5 ∧ t.pkg.reg O.bootFailStep = s.pkg.boot.step ∧
        t.pkg.boot.held = true ∧ RaisedLast t 0x2402 ∧ SameMemory s t) ∧
    (s.pkg.boot.step = 2 → ∃ t, exec (.bootStepDone f) s = .next t ∧ t.pkg.reg O.bootState = 4 ∧ t.pkg.reg O.recoveryReason = 2 ∧
      t.pkg.reg O.recoveryState = 1 ∧ t.pkg.boot.inRecovery = true ∧ RaisedLast t 0x2407 ∧ SameMemory s t) ∧
    (s.pkg.boot.step = 3 → ∃ t, exec (.bootStepDone f) s = .next t ∧ t.pkg.reg O.bootState = 4 ∧ t.pkg.reg O.identityState = 2 ∧
      t.pkg.reg O.recoveryReason = 5 ∧ t.pkg.reg O.recoveryState = 6 ∧ RaisedEver t 0x2403 ∧ RaisedLast t 0x2407 ∧ SameMemory s t)) ∧
  (∀ (s : State) (f : BootFinding), s.Runs .management → f.ok = true →
    (s.pkg.boot.step = 1 → s.pkg.boot.inRecovery = false → s.pkg.boot.recoveryReq = false → s.pkg.power.aon.hdrValid = true →
      (s.pkg.power.aon.bootFails ≠ 3 → ∃ t, exec (.bootStepDone f) s = .next t ∧ t.pkg.boot.step = 2 ∧
        t.pkg.measure 0 = digest256 (s.pkg.measure 0 ++ Config.romDigest) ∧ SameMemory s t) ∧
      (s.pkg.power.aon.bootFails = 3 → ∃ t, exec (.bootStepDone f) s = .next t ∧ t.pkg.reg O.bootState = 4 ∧
        t.pkg.reg O.recoveryReason = 4 ∧ RaisedLast t 0x2407)) ∧
    (s.pkg.boot.step = 10 → (∀ d < 2, s.pkg.reg (O.linkTestOwner + d) = 0) → ∃ t, exec (.bootStepDone f) s = .next t ∧ t.pkg.boot.step = 11 ∧ t.pkg.reg O.reclaimState = 2 ∧
      t.pkg.reg O.reclaimOwner = 0 ∧ t.pkg.reg O.linkTestOwner = 1 ∧ t.pkg.reg (O.linkTestOwner + 1) = 1) ∧
    (s.pkg.boot.step = 11 → ∃ t, exec (.bootStepDone f) s = .next t ∧ t.pkg.reg O.bootState = 3 ∧ t.pkg.boot.step = 0 ∧
      t.pkg.power.aon.bootFails = 0 ∧ (∀ d < 2, s.pkg.reg (O.linkTestOwner + d) = 1 → t.pkg.reg (O.linkTestOwner + d) = 0) ∧ RaisedEver t 0x2401 ∧
      SameMemory s t)) ∧
  (∀ (s : State) (pt : Path), s.pkg.reg O.bootState ≠ 3 → Does (.osBoot pt 1) s s.pkg) ∧
  (∀ (s : State) (pt : Path) (b : List Byte) (p1 : Pkg), s.Runs (pathPlane pt) → s.pkg.reg O.bootState = 3 → s.pkg.boot.osStarted = false →
    s.pkg.reg O.osPayloadLen ≠ 0 → s.pkg.reg O.osPayloadLen ≠ 2 ^ 32 - 1 → s.pkg.reg O.cmdWindowBase ≤ s.pkg.reg O.osPayloadAddr →
    s.pkg.reg O.osPayloadAddr + s.pkg.reg O.osPayloadLen ≤ s.pkg.reg O.cmdWindowBase + 2 ^ 32 →
    s.pkg.agentBytes ioA (s.pkg.reg O.osPayloadAddr) (s.pkg.reg O.osPayloadLen) = (some b, p1) → p1.reg O.osVerify = 0 →
    ∃ t, exec (.osBoot pt 1) s = .next t ∧ t.pkg.boot.osStarted = true ∧ t.pkg.reg (O.coreState + p1.hart0) = 0 ∧
      t.pkg.measure 5 = digest256 (p1.measure 5 ++ digest256 b)) ∧
  ∀ (s : State) (pt : Path), s.Runs (pathPlane pt) → Does (.recoveryRequest pt 1) s (s.pkg.setBoot { s.pkg.boot with recoveryReq := true })

/-- While its source's plane runs: a transfer is begun where its kind, mode and length are allowed and none is open; its data come in order and within
its length; its end refuses an object that is short or does not check, and queues the write of one that does and is not run at once; an abort closes
it. The queued write of the highest priority, the oldest of them, is next; while the management plane runs it is performed: a good one of priority 2
or 3 leaves its bytes and no other byte changed; one bad twice raises event 0x240C. While the path's plane runs, the firmware floor is raised to the
version in force, with a record queued; a floor never falls. -/
def Obligations.TransfersAndFlash : Prop :=
  ((∀ (s : State) (c : XferSrc) (kind mode n : Nat), s.Runs (xferPlane c) →
     (s.pkg.boot.xfer = none → n ≠ 0 → n ≤ xferMax kind → s.pkg.modeAllowed kind mode = true →
       ∃ t, exec (.beginTransfer c kind mode n) s = .next t ∧ t.pkg.boot.xfer = some ⟨c, kind, mode, n, []⟩ ∧
         t.pkg.reg O.recoveryState = 2 ∧ t.pkg.reg O.recoveryOffset = 0 ∧ SameMemory s t ∧
         SameRegsBut (fun k => k = O.recoveryState ∨ k = O.recoveryOffset) s t) ∧
     ((s.pkg.boot.xfer.isSome = true ∨ n = 0 ∨ xferMax kind < n ∨ s.pkg.modeAllowed kind mode = false) →
       ∃ t, exec (.beginTransfer c kind mode n) s = .next t ∧ t.pkg.boot.xfer = s.pkg.boot.xfer ∧ t.pkg.reg O.recoveryLastRefusal = 1 ∧
         RaisedEver t 0x2406 ∧ SameMemory s t)) ∧
   (∀ (s : State) (x : Xfer) (l : List Byte), s.Runs (xferPlane x.src) → s.pkg.boot.xfer = some x → s.pkg.reg O.recoveryState = 2 → l ≠ [] →
     l.length ≤ dataMax x.src → x.got.length + l.length ≤ x.total →
     ∃ t, exec (.dataTransfer x.src x.got.length l) s = .next t ∧ t.pkg.boot.xfer = some { x with got := x.got ++ l } ∧
       t.pkg.reg O.recoveryOffset = x.got.length + l.length ∧ SameMemory s t ∧ SameRegsBut (fun k => k = O.recoveryOffset) s t) ∧
   (∀ (s : State) (c : XferSrc) (o : Nat) (l : List Byte) (x : Xfer), s.Runs (xferPlane c) → s.pkg.boot.xfer = some x → o ≠ x.got.length →
     ∃ t, exec (.dataTransfer c o l) s = .next t ∧ t.pkg.boot.xfer = some x ∧ t.pkg.reg O.recoveryLastRefusal = 1 ∧ RaisedEver t 0x2406 ∧
       SameMemory s t) ∧
   (∀ (s : State) (x : Xfer), s.Runs (xferPlane x.src) → s.pkg.boot.xfer = some x → s.pkg.reg O.recoveryState = 2 →
     (∃ t, exec (.endTransfer x.src) s = .next t ∧
       (∀ r, (if x.got.length ≠ x.total then some 1 else s.pkg.xferReason x.kind x.got) = some r →
         t.pkg.boot.xfer = none ∧ t.pkg.reg O.recoveryLastRefusal = r ∧ RaisedEver t 0x2406 ∧ t.pkg.boot.flashQ = s.pkg.boot.flashQ ∧
           SameMemory s t) ∧
       (x.got.length = x.total → s.pkg.xferReason x.kind x.got = none → (x.kind ≠ 1 ∨ x.mode ≠ 1) →
         t.pkg.boot.xfer = some x ∧ t.pkg.reg O.recoveryState = 5 ∧
           t.pkg.boot.flashQ = s.pkg.boot.flashQ ++ [⟨if x.kind = 1 then 4 else 3, xferSlot x.kind, x.got⟩] ∧ SameMemory s t)) ∧
     ∃ t, exec (.abortTransfer x.src) s = .next t ∧ t.pkg.boot.xfer = none ∧ t.pkg.reg O.recoveryOffset = 0 ∧
       t.pkg.reg O.recoveryState = (if s.pkg.reg O.bootState = 4 then 1 else 0) ∧ SameMemory s t ∧
       SameRegsBut (fun k => k = O.recoveryOffset ∨ k = O.recoveryState) s t)) ∧
  ((∀ q : List FlashJob, q ≠ [] → (∀ j ∈ q, j.prio ≤ 4) →
     ∃ n j, nextJob q = some n ∧ q[n]? = some j ∧ (∀ x ∈ q, j.prio ≤ x.prio) ∧ ∀ m x, m < n → q[m]? = some x → j.prio < x.prio) ∧
   (∀ (s : State) (g r : Bool), nextJob s.pkg.boot.flashQ = none → Does (.flashWrite g r) s s.pkg) ∧
   (∀ (s : State) (g r : Bool) (n : Nat) (j : FlashJob), s.Runs .management → nextJob s.pkg.boot.flashQ = some n → s.pkg.boot.flashQ[n]? = some j →
     (j.prio = 2 ∨ j.prio = 3) → s.pkg.reg O.recoveryState ≠ 5 →
     ∃ t, exec (.flashWrite g r) s = .next t ∧ t.pkg.boot.flashQ = dropAt s.pkg.boot.flashQ n ∧
       ((g = true ∨ r = true) → t.pkg.flashBytes j.offset j.bytes.length = j.bytes) ∧
       (∀ a, a < j.offset ∨ j.offset + j.bytes.length ≤ a → t.pkg.flashByte a = s.pkg.flashByte a) ∧
       ((g = false ∧ r = false) → RaisedLast t 0x240C) ∧ SameMemory s t ∧ SameRegs s t) ∧
   (∀ (s : State) (pt : Path), s.Runs (pathPlane pt) → s.pkg.reg O.floors < s.pkg.reg O.fwSecurityVersion →
     ∃ t j, exec (.floorRaise pt 1) s = .next t ∧ t.pkg.reg O.floors = s.pkg.reg O.fwSecurityVersion ∧
       t.pkg.reg O.floorRecSeq = s.pkg.reg O.floorRecSeq + 1 ∧ t.pkg.boot.flashQ = s.pkg.boot.flashQ ++ [j] ∧ j.prio = 1 ∧
       RaisedLast t 0x2408 ∧ SameMemory s t ∧ SameRegsBut (fun k => k = O.floors ∨ k = O.floorRecSeq) s t) ∧
   ∀ (s : State) (pt : Path) (v : Nat), ∃ t, exec (.floorRaise pt v) s = .next t ∧ ∀ i < 3, s.pkg.reg (O.floors + i) ≤ t.pkg.reg (O.floors + i))

/-- While the path's plane runs, each path has its nonce and its quote: a request signs with the nonce, and the quote is then ready; while one is
being signed, or without an identity or a random source, it is refused; M7 is extended on path 2 only. A failed random source is noted, while the
management plane runs. -/
def Obligations.Attestation : Prop :=
  (∀ (s : State) (pt : Path) (w : Fin 8) (v : W32), s.Runs (pathPlane pt) → s.pkg.reg (O.quoteState + (pt.num - 1)) ≠ 1 →
    ∃ t, exec (.quoteNonceWrite pt w v) s = .next t ∧ t.pkg.reg (O.quoteNonce + 256 * (pt.num - 1) + w.val) = v.toNat ∧
      t.pkg.reg (O.quoteState + (pt.num - 1)) = 0 ∧ SameMemory s t ∧
      SameRegsBut (fun k => k = O.quoteNonce + 256 * (pt.num - 1) + w.val ∨ k = O.quoteState + (pt.num - 1)) s t) ∧
  (∀ (s : State) (pt : Path) (w : Fin 8) (v : W32), s.Runs (pathPlane pt) → s.pkg.reg (O.quoteState + (pt.num - 1)) = 1 →
    Does (.quoteNonceWrite pt w v) s (s.pkg.refuse pt (O.quoteNonce + 256 * (pt.num - 1) + w.val) abState)) ∧
  (∀ (s : State) (pt : Path), s.Runs (pathPlane pt) → s.pkg.reg (O.quoteState + (pt.num - 1)) ≠ 1 → s.pkg.reg O.identityState = 1 → s.pkg.reg O.rngState ≠ 1 →
    ∃ t, exec (.quoteRequest pt 1) s = .next t ∧ t.pkg.reg (O.quoteState + (pt.num - 1)) = 1 ∧
      (t.pkg.boot.quotes.at [] (10 + pt.num)).take 512 = padTo 512 (s.pkg.quoteBody pt.num) ∧ SameMemory s t ∧
      SameRegsBut (fun k => k = O.quoteState + (pt.num - 1)) s t) ∧
  (∀ (s : State) (pt : Path), s.Runs (pathPlane pt) → s.pkg.reg (O.quoteState + (pt.num - 1)) = 1 ∨ s.pkg.reg O.identityState ≠ 1 ∨ s.pkg.reg O.rngState = 1 →
    Does (.quoteRequest pt 1) s (s.pkg.refuse pt (O.quoteRequest + (pt.num - 1)) abState)) ∧
  (∀ (s : State) (pt : Path), s.Runs (pathPlane pt) → s.pkg.reg (O.quoteState + (pt.num - 1)) = 1 →
    ∃ t, exec (.quoteReady pt) s = .next t ∧ t.pkg.reg (O.quoteState + (pt.num - 1)) = 2 ∧
      t.pkg.boot.quotes.at [] pt.num = s.pkg.boot.quotes.at [] (10 + pt.num) ∧ SameMemory s t ∧
      SameRegsBut (fun k => k = O.quoteState + (pt.num - 1)) s t) ∧
  (∀ s : State, s.Runs .control → ∃ t, exec (.measureExtend .core 1) s = .next t ∧
    t.pkg.measure 7 = digest256 (s.pkg.measure 7 ++ (List.range 8).flatMap fun i => toLe 4 (s.pkg.reg (O.measureData + i))) ∧
    t.pkg.reg O.measureCount = min (s.pkg.reg O.measureCount + 1) (2 ^ 32 - 1) ∧ SameMemory s t) ∧
  (∀ (s : State) (pt : Path), s.Runs (pathPlane pt) → pt ≠ .core → Does (.measureExtend pt 1) s (s.pkg.refuse pt O.measureExtend abOwner)) ∧
  ∀ s : State, s.Runs .management → Does .rngHealthFail s ((s.pkg.setReg O.rngState 1).raise 0x240D noUnit 0)

/-! ## Events -/

/-- An event that arrives at the management core is stored with the next sequence number, the log keeping 4,096; past 256 in a millisecond those of
severity 0 and 1 are counted and not stored; while the core is stopped, records go to the tail block. While the path's plane runs, a read of word 0
latches the record; masks of severities 4 and 5 keep their two bits, and a vector has one user. -/
def Obligations.EventPath : Prop :=
  (∀ (s : State) (r : EvRec) (l : List EvRec), s.pkg.coreStopped = false → s.pkg.ev.inFlight = r :: l → 2 ≤ r.severity → r.severity ≤ 5 →
    bitOf (s.pkg.reg (O.escMask + r.severity)) 3 = false →
    ∃ t, exec (.eventRaise 1) s = .next t ∧ t.pkg.reg O.eventLogNewest = (s.pkg.reg O.eventLogNewest + 1) % 2 ^ 32 ∧
      t.pkg.ev.log.getLast? = some ((s.pkg.reg O.eventLogNewest + 1) % 2 ^ 32, r) ∧ t.pkg.ev.log.length ≤ 4096 ∧
      t.pkg.ev.inFlight = l ∧ SameMemory s t) ∧
  (∀ (s : State) (r : EvRec) (l : List EvRec), s.pkg.coreStopped = false → s.pkg.ev.inFlight = r :: l → r.severity ≤ 1 → s.pkg.ev.interval = s.pkg.mtime / 100000 →
    256 ≤ s.pkg.ev.inInterval → s.pkg.ev.suppressed = true →
    ∃ t, exec (.eventRaise 1) s = .next t ∧ t.pkg.ev.log = s.pkg.ev.log ∧ t.pkg.ev.inFlight = l ∧
      t.pkg.reg O.eventLogSuppressed = min (s.pkg.reg O.eventLogSuppressed + 1) (2 ^ 32 - 1) ∧ SameMemory s t ∧
      SameRegsBut (fun k => k = O.eventLogSuppressed) s t) ∧
  (∀ (s : State) (r : EvRec) (l : List EvRec), s.pkg.coreStopped = true → s.pkg.ev.inFlight = r :: l →
    ∃ t, exec (.eventRaise 1) s = .next t ∧ t.pkg.ev.tail = lastRecords (s.pkg.ev.tail ++ [r]) ∧ t.pkg.ev.inFlight = l ∧
      t.pkg.ev.log = s.pkg.ev.log ∧ SameMemory s t ∧ SameRegs s t) ∧
  (∀ (s : State) (pt : Path) (n : Nat) (r : EvRec), s.Runs (pathPlane pt) → s.pkg.reg (O.eventLogSelect + (pt.num - 1)) = n → n ≠ 0 →
    s.pkg.ev.log.find? (fun e => decide (e.1 = n)) = some (n, r) →
    ∃ t, exec (.eventLogRecordLatch pt) s = .next t ∧ t.pkg.ev.latched.at [] pt.num = recordWords r ∧
      t.pkg.out = s.pkg.out ++ [.value ((recordWords r).getD 0 0).toNat] ∧ SameMemory s t ∧ SameRegs s t) ∧
  (∀ (s : State) (pt : Path) (v : Fin 6) (m : Nat), s.Runs (pathPlane pt) → m ≤ 15 →
    ((v.val < 4 ∨ m % 4 = 3) → Does (.escMaskWrite pt v m) s (s.pkg.setReg (O.escMask + v.val) m)) ∧
    (4 ≤ v.val → m % 4 ≠ 3 → Does (.escMaskWrite pt v m) s (s.pkg.refuse pt (O.escMask + v.val) abRange))) ∧
  ∀ (s : State) (pt : Path) (v : Nat), s.Runs (pathPlane pt) → v < 64 →
    (s.pkg.queueNames 64 v = false → Does (.msixVectorWrite pt none v) s (s.pkg.setReg O.eventMsixVector v)) ∧
    (s.pkg.queueNames 64 v = true → Does (.msixVectorWrite pt none v) s ((s.pkg.refuse pt O.eventMsixVector abState).raise 0x5002 noUnit 0)) ∧
    ∀ q : QueueNo, (s.pkg.queue q.val).enabled = false → (s.pkg.queue q.val).disabling = false →
      ((s.pkg.reg O.eventMsixVector ≠ v ∧ s.pkg.queueNames q.val v = false) →
        Does (.msixVectorWrite pt (some q) v) s (s.pkg.setReg (qKey O.msixVector q.val) v)) ∧
      (s.pkg.reg O.eventMsixVector = v →
        Does (.msixVectorWrite pt (some q) v) s ((s.pkg.refuse pt (qKey O.msixVector q.val) abState).raise 0x5002 q.val 0))
end

