-- ==== Sys2Proof/Laws/Agent.lean ====
section
/-! SUPPORT. Laws/Agent.lean: while no line is cached, busy or waiting in a set queue, an agent reads memory as its words stand, and
leaves the package as it is. -/
namespace Sys2Proof.Machine

/-- No directory entry, no busy line, nothing in the set queues, no sweep. -/
def Pkg.Quiet (p : Pkg) : Prop := p.coh.dir = [] ∧ p.coh.busy = [] ∧ p.memsys.queue = [] ∧ p.coh.sweep = false

theorem zeroWord_clean : checkWord zeroWord = .clean := by decide +kernel
theorem zeroWord_dirRead : dirRead zeroWord = some 0 := by decide +kernel

theorem quiet_finishLine (p : Pkg) (h : p.Quiet) (n line : Nat) : Pkg.finishLine n line p = p := by
  cases n with
  | zero => rfl
  | succ n => simp [Pkg.finishLine, Pkg.busyAt, h.2.1]

theorem quiet_dirCheck (p : Pkg) (h : p.Quiet) (set : Nat) : p.dirCheck set = p := by
  have step : ∀ l : List Nat, l.foldl (fun (p : Pkg) w =>
      let key := dirKey set w
      let x := p.coh.dir.at zeroWord key
      match dirRead x with
      | none => p.dirFail key
      | some _ =>
        match checkWord x with
        | .corrected v _ =>
          let p := (p.setDir key v).bump (O.dirCorrected + set / 65536) 1
          let way := set / 65536 * 17 + w
          { p with coh := { p.coh with wayCorr := p.coh.wayCorr.put 0 way (p.coh.wayCorr.at 0 way + 1) } }
        | _ => p) p = p := by
    intro l
    induction l with
    | nil => rfl
    | cons w r ih =>
      simp only [List.foldl_cons, h.1, SMap.at, zeroWord_dirRead, zeroWord_clean]
      simpa only [h.1, SMap.at, zeroWord_dirRead, zeroWord_clean] using ih
  exact step _

theorem quiet_dirFind (p : Pkg) (h : p.Quiet) (line : Nat) : p.dirFind line = ⟨none, 0, 0⟩ := by
  unfold Pkg.dirFind
  dsimp only
  split
  · rfl
  · rename_i w hw
    have := List.find?_some hw
    simp [h.1, SMap.at, zeroWord_dirRead, bits] at this

theorem quiet_drainLine (p : Pkg) (h : p.Quiet) (line : Nat) : p.drainLine line = p := by
  simp [Pkg.drainLine, h.2.2.1, Pkg.drainSet]

/-- An agent's turn comes at once. -/
theorem quiet_agentTurn (p : Pkg) (h : p.Quiet) (r line : Nat) : p.agentTurn r line = p := by
  have he : p.endSweep = p := by simp [Pkg.endSweep, h.2.2.2]
  simp [Pkg.agentTurn, he, quiet_dirCheck p h, quiet_dirFind p h, Pkg.busyAt, h.2.1]

theorem quiet_cohRead (p : Pkg) (h : p.Quiet) (r line : Nat) (mask : List Bool) :
    p.cohRead r line mask = p.readLine line mask := by
  have hn : (agents 0)[0]? = none := by decide +kernel
  simp [Pkg.cohRead, quiet_agentTurn p h, quiet_dirFind p h, quiet_drainLine p h, hn]

/-- One word, read by an agent as it stands. -/
theorem quiet_readWord (p : Pkg) (h : p.Quiet) (r w : Nat) (hw : w % 16 = 0) (hc : checkWord (p.word w) = .clean) :
    ((p.cohRead r (w / 64) ((List.range 64).map fun b => decide (b / 16 = w / 16 % 4))).1.getD (w / 16 % 4) none,
      (p.cohRead r (w / 64) ((List.range 64).map fun b => decide (b / 16 = w / 16 % 4))).2) = (some (p.word w).data, p) := by
  rw [quiet_cohRead p h]
  have hm : p.memRead w = (some (p.word w).data, p) := by simp [Pkg.memRead, Pkg.memCheck, hc]
  have e : w / 64 * 64 + 16 * (w / 16 % 4) = w := by omega
  have hk : w / 16 % 4 < 4 := Nat.mod_lt _ (by decide)
  generalize w / 64 = line at *
  generalize w / 16 % 4 = k at *
  subst e
  have o : k = 0 ∨ k = 1 ∨ k = 2 ∨ k = 3 := by omega
  obtain rfl | rfl | rfl | rfl := o <;>
    simp [Pkg.readLine, List.range, List.range.loop, hm] <;> simp_all

/-- An agent's read of clean words in memory gives them and leaves the package as it is. -/
theorem quiet_agentRead (p : Pkg) (h : p.Quiet) (r a n : Nat)
    (hc : ∀ i < (if n = 0 then 0 else ceilDiv (a % 16 + n) 16), isMem (a / 16 * 16 + 16 * i) = true ∧ checkWord (p.word (a / 16 * 16 + 16 * i)) = .clean) :
    p.agentRead r a n = ((List.range (if n = 0 then 0 else ceilDiv (a % 16 + n) 16)).map fun i => some (p.word (a / 16 * 16 + 16 * i)).data, p) := by
  unfold Pkg.agentRead
  generalize (if n = 0 then 0 else ceilDiv (a % 16 + n) 16) = m at *
  induction m with
  | zero => rfl
  | succ m ih =>
    have hm := hc m (Nat.lt_succ_self m)
    rw [List.range_succ (n := m), List.foldl_append, ih fun i hi => hc i (Nat.lt_succ_of_lt hi)]
    have e := quiet_readWord p h r (a / 16 * 16 + 16 * m) (by omega) hm.2
    simp only [Prod.mk.injEq] at e
    simp only [List.foldl_cons, List.foldl_nil, hm.1, if_true, e.1, e.2, List.map_append, List.map_cons, List.map_nil]

/-- The bytes of clean words in memory. -/
theorem quiet_agentBytes (p : Pkg) (h : p.Quiet) (r a n : Nat)
    (hc : ∀ i < (if n = 0 then 0 else ceilDiv (a % 16 + n) 16), isMem (a / 16 * 16 + 16 * i) = true ∧ checkWord (p.word (a / 16 * 16 + 16 * i)) = .clean) :
    p.agentBytes r a n =
      (((wordsBytes ((List.range (if n = 0 then 0 else ceilDiv (a % 16 + n) 16)).map fun i => some (p.word (a / 16 * 16 + 16 * i)).data)).map
        fun l => (l.drop (a % 16)).take n), p) := by
  simp [Pkg.agentBytes, quiet_agentRead p h r a n hc]

/-- As quiet_agentBytes, for bytes that are known. -/
theorem quiet_gives (p : Pkg) (h : p.Quiet) (r a n : Nat) (l : List Byte)
    (hc : ∀ i < (if n = 0 then 0 else ceilDiv (a % 16 + n) 16), isMem (a / 16 * 16 + 16 * i) = true ∧ checkWord (p.word (a / 16 * 16 + 16 * i)) = .clean)
    (hl : ((wordsBytes ((List.range (if n = 0 then 0 else ceilDiv (a % 16 + n) 16)).map fun i =>
      some (p.word (a / 16 * 16 + 16 * i)).data)).map fun b => (b.drop (a % 16)).take n) = some l) :
    p.agentBytes r a n = (some l, p) := by
  rw [quiet_agentBytes p h r a n hc, hl]

end Sys2Proof.Machine
end

