-- ==== Sys2Proof/Laws/Map.lean ====
section
/-! SUPPORT. Laws/Map.lean: a sparse store reads back what was written, a write leaves every other key alone, and every operation
keeps the canonical form. -/
namespace Sys2Proof

variable {α : Type}

/-! ## Reads -/

@[simp] theorem SMap.at_nil (d : α) (k : Nat) : SMap.at d k [] = d := rfl

theorem SMap.at_del_self (d : α) (k : Nat) (m : SMap α) : SMap.at d k (SMap.del k m) = d := by
  induction m with
  | nil => rfl
  | cons e r ih =>
    obtain ⟨i, v⟩ := e
    by_cases h : i = k
    · simp [SMap.del, h, ih]
    · simp [SMap.del, h, SMap.at, ih]

theorem SMap.at_del_other (d : α) (j k : Nat) (m : SMap α) (h : j ≠ k) : SMap.at d j (SMap.del k m) = SMap.at d j m := by
  induction m with
  | nil => rfl
  | cons e r ih =>
    obtain ⟨i, v⟩ := e
    by_cases h1 : i = k
    · subst h1
      simp [SMap.del, SMap.at, ih, Ne.symm h]
    · simp [SMap.del, h1, SMap.at, ih]

theorem SMap.at_ins_self (d : α) (k : Nat) (v : α) (m : SMap α) (h : SMap.find k m = none) :
    SMap.at d k (SMap.ins k v m) = v := by
  induction m with
  | nil => simp [SMap.ins, SMap.at]
  | cons e r ih =>
    obtain ⟨i, w⟩ := e
    by_cases h1 : i = k
    · simp [SMap.find, h1] at h
    · simp only [SMap.find, h1, if_false] at h
      by_cases h2 : k < i
      · simp [SMap.ins, h2, SMap.at]
      · simp [SMap.ins, h2, SMap.at, h1, ih h]

theorem SMap.at_ins_other (d : α) (j k : Nat) (v : α) (m : SMap α) (h : j ≠ k) :
    SMap.at d j (SMap.ins k v m) = SMap.at d j m := by
  induction m with
  | nil => simp [SMap.ins, SMap.at, Ne.symm h]
  | cons e r ih =>
    obtain ⟨i, w⟩ := e
    by_cases h2 : k < i
    · simp [SMap.ins, h2, SMap.at, Ne.symm h]
    · simp [SMap.ins, h2, SMap.at, ih]

theorem SMap.find_del_self (k : Nat) (m : SMap α) : SMap.find k (SMap.del k m) = none := by
  induction m with
  | nil => rfl
  | cons e r ih =>
    obtain ⟨i, v⟩ := e
    by_cases h : i = k
    · simp [SMap.del, h, ih]
    · simp [SMap.del, h, SMap.find, ih]

/-- A store reads back what was written. -/
@[simp] theorem SMap.at_put_self [DecidableEq α] (d : α) (k : Nat) (v : α) (m : SMap α) : SMap.at d k (SMap.put d k v m) = v := by
  by_cases h : v = d
  · simp [SMap.put, h, SMap.at_del_self]
  · simp [SMap.put, h, SMap.at_ins_self d k v _ (SMap.find_del_self k m)]

/-- A write leaves every other key alone. -/
theorem SMap.at_put_other [DecidableEq α] (d : α) (j k : Nat) (v : α) (m : SMap α) (h : j ≠ k) :
    SMap.at d j (SMap.put d k v m) = SMap.at d j m := by
  by_cases h1 : v = d
  · simp [SMap.put, h1, SMap.at_del_other d j k m h]
  · simp [SMap.put, h1, SMap.at_ins_other d j k v _ h, SMap.at_del_other d j k m h]

/-! ## The canonical form -/

theorem SMap.mem_del (k : Nat) (m : SMap α) (e : Nat × α) (h : e ∈ SMap.del k m) : e ∈ m ∧ e.1 ≠ k := by
  induction m with
  | nil => simp [SMap.del] at h
  | cons x r ih =>
    obtain ⟨i, v⟩ := x
    by_cases h1 : i = k
    · simp only [SMap.del, h1, if_true] at h
      exact ⟨List.mem_cons_of_mem _ (ih h).1, (ih h).2⟩
    · simp only [SMap.del, h1, if_false, List.mem_cons] at h
      rcases h with h | h
      · subst h
        exact ⟨List.mem_cons_self, h1⟩
      · exact ⟨List.mem_cons_of_mem _ (ih h).1, (ih h).2⟩

theorem SMap.mem_ins (k : Nat) (v : α) (m : SMap α) (e : Nat × α) (h : e ∈ SMap.ins k v m) : e = (k, v) ∨ e ∈ m := by
  induction m with
  | nil => simpa [SMap.ins] using h
  | cons x r ih =>
    obtain ⟨i, w⟩ := x
    by_cases h1 : k < i
    · simpa [SMap.ins, h1] using h
    · simp only [SMap.ins, h1, if_false, List.mem_cons] at h
      rcases h with h | h
      · exact .inr (h ▸ List.mem_cons_self)
      · rcases ih h with h | h
        · exact .inl h
        · exact .inr (List.mem_cons_of_mem _ h)

theorem SMap.wf_del [DecidableEq α] (d : α) (k : Nat) (m : SMap α) (h : SMap.wf d m = true) : SMap.wf d (SMap.del k m) = true := by
  induction m with
  | nil => rfl
  | cons x r ih =>
    obtain ⟨i, v⟩ := x
    simp only [SMap.wf, Bool.and_eq_true, List.all_eq_true, decide_eq_true_eq] at h
    by_cases h1 : i = k
    · simpa [SMap.del, h1] using ih h.2
    · simp only [SMap.del, h1, if_false, SMap.wf, Bool.and_eq_true, List.all_eq_true, decide_eq_true_eq]
      exact ⟨⟨h.1.1, fun e he => h.1.2 e (SMap.mem_del k r e he).1⟩, ih h.2⟩

theorem SMap.wf_ins [DecidableEq α] (d : α) (k : Nat) (v : α) (m : SMap α) (hv : v ≠ d) (hk : ∀ e ∈ m, e.1 ≠ k)
    (h : SMap.wf d m = true) : SMap.wf d (SMap.ins k v m) = true := by
  induction m with
  | nil => simp [SMap.ins, SMap.wf, hv]
  | cons x r ih =>
    obtain ⟨i, w⟩ := x
    have hw := h
    simp only [SMap.wf, Bool.and_eq_true, List.all_eq_true, decide_eq_true_eq] at h
    by_cases h1 : k < i
    · simp only [SMap.ins, h1, if_true, SMap.wf, Bool.and_eq_true, List.all_eq_true, decide_eq_true_eq, List.mem_cons]
      refine ⟨⟨hv, fun e he => ?_⟩, h⟩
      rcases he with he | he
      · exact he ▸ h1
      · exact lt_trans h1 (h.1.2 e he)
    · have hi : i ≠ k := hk (i, w) List.mem_cons_self
      simp only [SMap.ins, h1, if_false, SMap.wf, Bool.and_eq_true, List.all_eq_true, decide_eq_true_eq]
      refine ⟨⟨h.1.1, fun e he => ?_⟩, ih (fun e he => hk e (List.mem_cons_of_mem _ he)) h.2⟩
      rcases SMap.mem_ins k v r e he with he | he
      · subst he
        simp only
        omega
      · exact h.1.2 e he

/-- A write keeps the canonical form. -/
theorem SMap.wf_put [DecidableEq α] (d : α) (k : Nat) (v : α) (m : SMap α) (h : SMap.wf d m = true) :
    SMap.wf d (SMap.put d k v m) = true := by
  by_cases h1 : v = d
  · simpa [SMap.put, h1] using SMap.wf_del d k m h
  · simpa [SMap.put, h1] using SMap.wf_ins d k v _ h1 (fun e he => (SMap.mem_del k m e he).2) (SMap.wf_del d k m h)

/-! ## Memory -/

namespace Machine

theorem Memory.wf_put (m : List Host.Cell) (a : Nat) (b : Byte) (h : Memory.wf m = true) : Memory.wf (Memory.put m a b) = true :=
  SMap.wf_put (0 : Byte) a b m h

theorem Memory.wf_putAll (l : List Byte) : ∀ (m : List Host.Cell) (a : Nat), Memory.wf m = true →
    Memory.wf (Memory.putAll m a l) = true := by
  induction l with
  | nil => exact fun m a h => h
  | cons b r ih => exact fun m a h => ih _ _ (Memory.wf_put m a b h)

/-- Storing check bits leaves every byte of memory alone. -/
@[simp] theorem setCheck_mem (p : Pkg) (a : Nat) (c : BitVec 16) : (p.setCheck a c).mem = p.mem := by
  unfold Pkg.setCheck
  split <;> rfl

/-- What storing a word makes of memory. -/
theorem setWord_mem (p : Pkg) (a : Nat) (w : PWord) : (p.setWord a w).mem = Memory.putAll p.mem a (toLe 16 w.data.toNat) := by
  simp [Pkg.setWord]

/-- Storing a word keeps the canonical form of memory. -/
theorem setWord_wf (p : Pkg) (a : Nat) (w : PWord) (h : Memory.wf p.mem = true) : Memory.wf (p.setWord a w).mem = true := by
  rw [setWord_mem]
  exact Memory.wf_putAll _ _ _ h

/-- A byte that a run of writes does not reach reads as before. -/
theorem putAll_other (l : List Byte) : ∀ (m : List Host.Cell) (a c : Nat), (c < a ∨ a + l.length ≤ c) →
    SMap.at (0 : Byte) c (Memory.putAll m a l) = SMap.at (0 : Byte) c m := by
  induction l with
  | nil => exact fun m a c _ => rfl
  | cons b r ih =>
    intro m a c h
    simp only [List.length_cons] at h
    rw [Memory.putAll, ih _ _ _ (by omega)]
    exact SMap.at_put_other (0 : Byte) c a b m (by omega)

theorem toLe_length (n v : Nat) : (toLe n v).length = n := by
  induction n generalizing v with
  | zero => rfl
  | succ n ih => simp [toLe, ih]

/-- Storing a word leaves every byte outside it alone. -/
theorem setWord_byte_other (p : Pkg) (a c : Nat) (w : PWord) (h : c < a ∨ a + 16 ≤ c) : (p.setWord a w).byte c = p.byte c := by
  rw [Pkg.byte, setWord_mem]
  exact putAll_other _ _ _ _ (by rw [toLe_length]; exact h)

end Machine
end Sys2Proof
end

