-- ==== Sys2Proof/Laws/State.lean ====
section
/-! SUPPORT. Laws/State.lean: what the plain updates of a package leave, field by field, and what a command's frame of the queue and
the lands is. -/
namespace Sys2Proof.Machine

/-! ## Fields under the named updates -/

@[simp] theorem setReg_mtime (p : Pkg) (k v : Nat) : (p.setReg k v).mtime = p.mtime := rfl
@[simp] theorem setReg_mem (p : Pkg) (k v : Nat) : (p.setReg k v).mem = p.mem := rfl
@[simp] theorem setReg_eccPins (p : Pkg) (k v : Nat) : (p.setReg k v).eccPins = p.eccPins := rfl
@[simp] theorem setReg_checkBytes (p : Pkg) (k v : Nat) : (p.setReg k v).checkBytes = p.checkBytes := rfl
@[simp] theorem setReg_sramChk (p : Pkg) (k v : Nat) : (p.setReg k v).sramChk = p.sramChk := rfl
@[simp] theorem setReg_tiles (p : Pkg) (k v : Nat) : (p.setReg k v).tiles = p.tiles := rfl
@[simp] theorem setReg_flits (p : Pkg) (k v : Nat) : (p.setReg k v).flits = p.flits := rfl
@[simp] theorem setReg_qualified (p : Pkg) (k v : Nat) : (p.setReg k v).qualified = p.qualified := rfl
@[simp] theorem setReg_testFailed (p : Pkg) (k v : Nat) : (p.setReg k v).testFailed = p.testFailed := rfl
@[simp] theorem setReg_retired (p : Pkg) (k v : Nat) : (p.setReg k v).retired = p.retired := rfl
@[simp] theorem setReg_testPrev (p : Pkg) (k v : Nat) : (p.setReg k v).testPrev = p.testPrev := rfl
@[simp] theorem setReg_ledger (p : Pkg) (k v : Nat) : (p.setReg k v).ledger = p.ledger := rfl
@[simp] theorem setReg_stepc (p : Pkg) (k v : Nat) : (p.setReg k v).stepc = p.stepc := rfl
@[simp] theorem setReg_sched (p : Pkg) (k v : Nat) : (p.setReg k v).sched = p.sched := rfl
@[simp] theorem setReg_loader (p : Pkg) (k v : Nat) : (p.setReg k v).loader = p.loader := rfl
@[simp] theorem setReg_engines (p : Pkg) (k v : Nat) : (p.setReg k v).engines = p.engines := rfl
@[simp] theorem setReg_disp (p : Pkg) (k v : Nat) : (p.setReg k v).disp = p.disp := rfl
@[simp] theorem setReg_tiers (p : Pkg) (k v : Nat) : (p.setReg k v).tiers = p.tiers := rfl
@[simp] theorem setReg_place (p : Pkg) (k v : Nat) : (p.setReg k v).place = p.place := rfl
@[simp] theorem setReg_memsys (p : Pkg) (k v : Nat) : (p.setReg k v).memsys = p.memsys := rfl
@[simp] theorem setReg_coh (p : Pkg) (k v : Nat) : (p.setReg k v).coh = p.coh := rfl
@[simp] theorem setReg_links (p : Pkg) (k v : Nat) : (p.setReg k v).links = p.links := rfl
@[simp] theorem setReg_host (p : Pkg) (k v : Nat) : (p.setReg k v).host = p.host := rfl
@[simp] theorem setReg_secure (p : Pkg) (k v : Nat) : (p.setReg k v).secure = p.secure := rfl
@[simp] theorem setReg_power (p : Pkg) (k v : Nat) : (p.setReg k v).power = p.power := rfl
@[simp] theorem setReg_can (p : Pkg) (k v : Nat) : (p.setReg k v).can = p.can := rfl
@[simp] theorem setReg_cfg (p : Pkg) (k v : Nat) : (p.setReg k v).cfg = p.cfg := rfl
@[simp] theorem setReg_wear (p : Pkg) (k v : Nat) : (p.setReg k v).wear = p.wear := rfl
@[simp] theorem setReg_boot (p : Pkg) (k v : Nat) : (p.setReg k v).boot = p.boot := rfl
@[simp] theorem setReg_supply (p : Pkg) (k v : Nat) : (p.setReg k v).supply = p.supply := rfl
@[simp] theorem setReg_ev (p : Pkg) (k v : Nat) : (p.setReg k v).ev = p.ev := rfl
@[simp] theorem setReg_failed (p : Pkg) (k v : Nat) : (p.setReg k v).failed = p.failed := rfl
@[simp] theorem setReg_free (p : Pkg) (k v : Nat) : (p.setReg k v).free = p.free := rfl
@[simp] theorem setReg_out (p : Pkg) (k v : Nat) : (p.setReg k v).out = p.out := rfl

@[simp] theorem setShadow_mtime (p : Pkg) (k v : Nat) : (p.setShadow k v).mtime = p.mtime := rfl
@[simp] theorem setShadow_mem (p : Pkg) (k v : Nat) : (p.setShadow k v).mem = p.mem := rfl
@[simp] theorem setShadow_eccPins (p : Pkg) (k v : Nat) : (p.setShadow k v).eccPins = p.eccPins := rfl
@[simp] theorem setShadow_checkBytes (p : Pkg) (k v : Nat) : (p.setShadow k v).checkBytes = p.checkBytes := rfl
@[simp] theorem setShadow_sramChk (p : Pkg) (k v : Nat) : (p.setShadow k v).sramChk = p.sramChk := rfl
@[simp] theorem setShadow_tiles (p : Pkg) (k v : Nat) : (p.setShadow k v).tiles = p.tiles := rfl
@[simp] theorem setShadow_flits (p : Pkg) (k v : Nat) : (p.setShadow k v).flits = p.flits := rfl
@[simp] theorem setShadow_qualified (p : Pkg) (k v : Nat) : (p.setShadow k v).qualified = p.qualified := rfl
@[simp] theorem setShadow_testFailed (p : Pkg) (k v : Nat) : (p.setShadow k v).testFailed = p.testFailed := rfl
@[simp] theorem setShadow_retired (p : Pkg) (k v : Nat) : (p.setShadow k v).retired = p.retired := rfl
@[simp] theorem setShadow_testPrev (p : Pkg) (k v : Nat) : (p.setShadow k v).testPrev = p.testPrev := rfl
@[simp] theorem setShadow_ledger (p : Pkg) (k v : Nat) : (p.setShadow k v).ledger = p.ledger := rfl
@[simp] theorem setShadow_stepc (p : Pkg) (k v : Nat) : (p.setShadow k v).stepc = p.stepc := rfl
@[simp] theorem setShadow_sched (p : Pkg) (k v : Nat) : (p.setShadow k v).sched = p.sched := rfl
@[simp] theorem setShadow_loader (p : Pkg) (k v : Nat) : (p.setShadow k v).loader = p.loader := rfl
@[simp] theorem setShadow_engines (p : Pkg) (k v : Nat) : (p.setShadow k v).engines = p.engines := rfl
@[simp] theorem setShadow_disp (p : Pkg) (k v : Nat) : (p.setShadow k v).disp = p.disp := rfl
@[simp] theorem setShadow_tiers (p : Pkg) (k v : Nat) : (p.setShadow k v).tiers = p.tiers := rfl
@[simp] theorem setShadow_place (p : Pkg) (k v : Nat) : (p.setShadow k v).place = p.place := rfl
@[simp] theorem setShadow_memsys (p : Pkg) (k v : Nat) : (p.setShadow k v).memsys = p.memsys := rfl
@[simp] theorem setShadow_coh (p : Pkg) (k v : Nat) : (p.setShadow k v).coh = p.coh := rfl
@[simp] theorem setShadow_links (p : Pkg) (k v : Nat) : (p.setShadow k v).links = p.links := rfl
@[simp] theorem setShadow_host (p : Pkg) (k v : Nat) : (p.setShadow k v).host = p.host := rfl
@[simp] theorem setShadow_secure (p : Pkg) (k v : Nat) : (p.setShadow k v).secure = p.secure := rfl
@[simp] theorem setShadow_power (p : Pkg) (k v : Nat) : (p.setShadow k v).power = p.power := rfl
@[simp] theorem setShadow_can (p : Pkg) (k v : Nat) : (p.setShadow k v).can = p.can := rfl
@[simp] theorem setShadow_cfg (p : Pkg) (k v : Nat) : (p.setShadow k v).cfg = p.cfg := rfl
@[simp] theorem setShadow_wear (p : Pkg) (k v : Nat) : (p.setShadow k v).wear = p.wear := rfl
@[simp] theorem setShadow_boot (p : Pkg) (k v : Nat) : (p.setShadow k v).boot = p.boot := rfl
@[simp] theorem setShadow_supply (p : Pkg) (k v : Nat) : (p.setShadow k v).supply = p.supply := rfl
@[simp] theorem setShadow_ev (p : Pkg) (k v : Nat) : (p.setShadow k v).ev = p.ev := rfl
@[simp] theorem setShadow_failed (p : Pkg) (k v : Nat) : (p.setShadow k v).failed = p.failed := rfl
@[simp] theorem setShadow_free (p : Pkg) (k v : Nat) : (p.setShadow k v).free = p.free := rfl
@[simp] theorem setShadow_out (p : Pkg) (k v : Nat) : (p.setShadow k v).out = p.out := rfl

@[simp] theorem setTile_mtime (p : Pkg) (t : Nat) (x : Tile) : (p.setTile t x).mtime = p.mtime := rfl
@[simp] theorem setTile_dict (p : Pkg) (t : Nat) (x : Tile) : (p.setTile t x).dict = p.dict := rfl
@[simp] theorem setTile_mem (p : Pkg) (t : Nat) (x : Tile) : (p.setTile t x).mem = p.mem := rfl
@[simp] theorem setTile_eccPins (p : Pkg) (t : Nat) (x : Tile) : (p.setTile t x).eccPins = p.eccPins := rfl
@[simp] theorem setTile_checkBytes (p : Pkg) (t : Nat) (x : Tile) : (p.setTile t x).checkBytes = p.checkBytes := rfl
@[simp] theorem setTile_sramChk (p : Pkg) (t : Nat) (x : Tile) : (p.setTile t x).sramChk = p.sramChk := rfl
@[simp] theorem setTile_flits (p : Pkg) (t : Nat) (x : Tile) : (p.setTile t x).flits = p.flits := rfl
@[simp] theorem setTile_qualified (p : Pkg) (t : Nat) (x : Tile) : (p.setTile t x).qualified = p.qualified := rfl
@[simp] theorem setTile_testFailed (p : Pkg) (t : Nat) (x : Tile) : (p.setTile t x).testFailed = p.testFailed := rfl
@[simp] theorem setTile_retired (p : Pkg) (t : Nat) (x : Tile) : (p.setTile t x).retired = p.retired := rfl
@[simp] theorem setTile_testPrev (p : Pkg) (t : Nat) (x : Tile) : (p.setTile t x).testPrev = p.testPrev := rfl
@[simp] theorem setTile_ledger (p : Pkg) (t : Nat) (x : Tile) : (p.setTile t x).ledger = p.ledger := rfl
@[simp] theorem setTile_stepc (p : Pkg) (t : Nat) (x : Tile) : (p.setTile t x).stepc = p.stepc := rfl
@[simp] theorem setTile_sched (p : Pkg) (t : Nat) (x : Tile) : (p.setTile t x).sched = p.sched := rfl
@[simp] theorem setTile_loader (p : Pkg) (t : Nat) (x : Tile) : (p.setTile t x).loader = p.loader := rfl
@[simp] theorem setTile_engines (p : Pkg) (t : Nat) (x : Tile) : (p.setTile t x).engines = p.engines := rfl
@[simp] theorem setTile_disp (p : Pkg) (t : Nat) (x : Tile) : (p.setTile t x).disp = p.disp := rfl
@[simp] theorem setTile_tiers (p : Pkg) (t : Nat) (x : Tile) : (p.setTile t x).tiers = p.tiers := rfl
@[simp] theorem setTile_place (p : Pkg) (t : Nat) (x : Tile) : (p.setTile t x).place = p.place := rfl
@[simp] theorem setTile_memsys (p : Pkg) (t : Nat) (x : Tile) : (p.setTile t x).memsys = p.memsys := rfl
@[simp] theorem setTile_coh (p : Pkg) (t : Nat) (x : Tile) : (p.setTile t x).coh = p.coh := rfl
@[simp] theorem setTile_links (p : Pkg) (t : Nat) (x : Tile) : (p.setTile t x).links = p.links := rfl
@[simp] theorem setTile_host (p : Pkg) (t : Nat) (x : Tile) : (p.setTile t x).host = p.host := rfl
@[simp] theorem setTile_secure (p : Pkg) (t : Nat) (x : Tile) : (p.setTile t x).secure = p.secure := rfl
@[simp] theorem setTile_power (p : Pkg) (t : Nat) (x : Tile) : (p.setTile t x).power = p.power := rfl
@[simp] theorem setTile_can (p : Pkg) (t : Nat) (x : Tile) : (p.setTile t x).can = p.can := rfl
@[simp] theorem setTile_cfg (p : Pkg) (t : Nat) (x : Tile) : (p.setTile t x).cfg = p.cfg := rfl
@[simp] theorem setTile_wear (p : Pkg) (t : Nat) (x : Tile) : (p.setTile t x).wear = p.wear := rfl
@[simp] theorem setTile_boot (p : Pkg) (t : Nat) (x : Tile) : (p.setTile t x).boot = p.boot := rfl
@[simp] theorem setTile_supply (p : Pkg) (t : Nat) (x : Tile) : (p.setTile t x).supply = p.supply := rfl
@[simp] theorem setTile_ev (p : Pkg) (t : Nat) (x : Tile) : (p.setTile t x).ev = p.ev := rfl
@[simp] theorem setTile_failed (p : Pkg) (t : Nat) (x : Tile) : (p.setTile t x).failed = p.failed := rfl
@[simp] theorem setTile_free (p : Pkg) (t : Nat) (x : Tile) : (p.setTile t x).free = p.free := rfl
@[simp] theorem setTile_out (p : Pkg) (t : Nat) (x : Tile) : (p.setTile t x).out = p.out := rfl

@[simp] theorem emit_mtime (p : Pkg) (o : Out) : (p.emit o).mtime = p.mtime := rfl
@[simp] theorem emit_dict (p : Pkg) (o : Out) : (p.emit o).dict = p.dict := rfl
@[simp] theorem emit_mem (p : Pkg) (o : Out) : (p.emit o).mem = p.mem := rfl
@[simp] theorem emit_eccPins (p : Pkg) (o : Out) : (p.emit o).eccPins = p.eccPins := rfl
@[simp] theorem emit_checkBytes (p : Pkg) (o : Out) : (p.emit o).checkBytes = p.checkBytes := rfl
@[simp] theorem emit_sramChk (p : Pkg) (o : Out) : (p.emit o).sramChk = p.sramChk := rfl
@[simp] theorem emit_tiles (p : Pkg) (o : Out) : (p.emit o).tiles = p.tiles := rfl
@[simp] theorem emit_flits (p : Pkg) (o : Out) : (p.emit o).flits = p.flits := rfl
@[simp] theorem emit_qualified (p : Pkg) (o : Out) : (p.emit o).qualified = p.qualified := rfl
@[simp] theorem emit_testFailed (p : Pkg) (o : Out) : (p.emit o).testFailed = p.testFailed := rfl
@[simp] theorem emit_retired (p : Pkg) (o : Out) : (p.emit o).retired = p.retired := rfl
@[simp] theorem emit_testPrev (p : Pkg) (o : Out) : (p.emit o).testPrev = p.testPrev := rfl
@[simp] theorem emit_ledger (p : Pkg) (o : Out) : (p.emit o).ledger = p.ledger := rfl
@[simp] theorem emit_stepc (p : Pkg) (o : Out) : (p.emit o).stepc = p.stepc := rfl
@[simp] theorem emit_sched (p : Pkg) (o : Out) : (p.emit o).sched = p.sched := rfl
@[simp] theorem emit_loader (p : Pkg) (o : Out) : (p.emit o).loader = p.loader := rfl
@[simp] theorem emit_engines (p : Pkg) (o : Out) : (p.emit o).engines = p.engines := rfl
@[simp] theorem emit_disp (p : Pkg) (o : Out) : (p.emit o).disp = p.disp := rfl
@[simp] theorem emit_tiers (p : Pkg) (o : Out) : (p.emit o).tiers = p.tiers := rfl
@[simp] theorem emit_place (p : Pkg) (o : Out) : (p.emit o).place = p.place := rfl
@[simp] theorem emit_memsys (p : Pkg) (o : Out) : (p.emit o).memsys = p.memsys := rfl
@[simp] theorem emit_coh (p : Pkg) (o : Out) : (p.emit o).coh = p.coh := rfl
@[simp] theorem emit_links (p : Pkg) (o : Out) : (p.emit o).links = p.links := rfl
@[simp] theorem emit_host (p : Pkg) (o : Out) : (p.emit o).host = p.host := rfl
@[simp] theorem emit_secure (p : Pkg) (o : Out) : (p.emit o).secure = p.secure := rfl
@[simp] theorem emit_power (p : Pkg) (o : Out) : (p.emit o).power = p.power := rfl
@[simp] theorem emit_can (p : Pkg) (o : Out) : (p.emit o).can = p.can := rfl
@[simp] theorem emit_cfg (p : Pkg) (o : Out) : (p.emit o).cfg = p.cfg := rfl
@[simp] theorem emit_wear (p : Pkg) (o : Out) : (p.emit o).wear = p.wear := rfl
@[simp] theorem emit_boot (p : Pkg) (o : Out) : (p.emit o).boot = p.boot := rfl
@[simp] theorem emit_supply (p : Pkg) (o : Out) : (p.emit o).supply = p.supply := rfl
@[simp] theorem emit_ev (p : Pkg) (o : Out) : (p.emit o).ev = p.ev := rfl
@[simp] theorem emit_failed (p : Pkg) (o : Out) : (p.emit o).failed = p.failed := rfl
@[simp] theorem emit_free (p : Pkg) (o : Out) : (p.emit o).free = p.free := rfl

@[simp] theorem setPort_mtime (p : Pkg) (i : Nat) (x : PortSt) : (p.setPort i x).mtime = p.mtime := rfl
@[simp] theorem setPort_dict (p : Pkg) (i : Nat) (x : PortSt) : (p.setPort i x).dict = p.dict := rfl
@[simp] theorem setPort_mem (p : Pkg) (i : Nat) (x : PortSt) : (p.setPort i x).mem = p.mem := rfl
@[simp] theorem setPort_eccPins (p : Pkg) (i : Nat) (x : PortSt) : (p.setPort i x).eccPins = p.eccPins := rfl
@[simp] theorem setPort_checkBytes (p : Pkg) (i : Nat) (x : PortSt) : (p.setPort i x).checkBytes = p.checkBytes := rfl
@[simp] theorem setPort_sramChk (p : Pkg) (i : Nat) (x : PortSt) : (p.setPort i x).sramChk = p.sramChk := rfl
@[simp] theorem setPort_tiles (p : Pkg) (i : Nat) (x : PortSt) : (p.setPort i x).tiles = p.tiles := rfl
@[simp] theorem setPort_flits (p : Pkg) (i : Nat) (x : PortSt) : (p.setPort i x).flits = p.flits := rfl
@[simp] theorem setPort_qualified (p : Pkg) (i : Nat) (x : PortSt) : (p.setPort i x).qualified = p.qualified := rfl
@[simp] theorem setPort_testFailed (p : Pkg) (i : Nat) (x : PortSt) : (p.setPort i x).testFailed = p.testFailed := rfl
@[simp] theorem setPort_retired (p : Pkg) (i : Nat) (x : PortSt) : (p.setPort i x).retired = p.retired := rfl
@[simp] theorem setPort_testPrev (p : Pkg) (i : Nat) (x : PortSt) : (p.setPort i x).testPrev = p.testPrev := rfl
@[simp] theorem setPort_ledger (p : Pkg) (i : Nat) (x : PortSt) : (p.setPort i x).ledger = p.ledger := rfl
@[simp] theorem setPort_stepc (p : Pkg) (i : Nat) (x : PortSt) : (p.setPort i x).stepc = p.stepc := rfl
@[simp] theorem setPort_sched (p : Pkg) (i : Nat) (x : PortSt) : (p.setPort i x).sched = p.sched := rfl
@[simp] theorem setPort_loader (p : Pkg) (i : Nat) (x : PortSt) : (p.setPort i x).loader = p.loader := rfl
@[simp] theorem setPort_engines (p : Pkg) (i : Nat) (x : PortSt) : (p.setPort i x).engines = p.engines := rfl
@[simp] theorem setPort_disp (p : Pkg) (i : Nat) (x : PortSt) : (p.setPort i x).disp = p.disp := rfl
@[simp] theorem setPort_tiers (p : Pkg) (i : Nat) (x : PortSt) : (p.setPort i x).tiers = p.tiers := rfl
@[simp] theorem setPort_place (p : Pkg) (i : Nat) (x : PortSt) : (p.setPort i x).place = p.place := rfl
@[simp] theorem setPort_memsys (p : Pkg) (i : Nat) (x : PortSt) : (p.setPort i x).memsys = p.memsys := rfl
@[simp] theorem setPort_coh (p : Pkg) (i : Nat) (x : PortSt) : (p.setPort i x).coh = p.coh := rfl
@[simp] theorem setPort_host (p : Pkg) (i : Nat) (x : PortSt) : (p.setPort i x).host = p.host := rfl
@[simp] theorem setPort_secure (p : Pkg) (i : Nat) (x : PortSt) : (p.setPort i x).secure = p.secure := rfl
@[simp] theorem setPort_power (p : Pkg) (i : Nat) (x : PortSt) : (p.setPort i x).power = p.power := rfl
@[simp] theorem setPort_can (p : Pkg) (i : Nat) (x : PortSt) : (p.setPort i x).can = p.can := rfl
@[simp] theorem setPort_cfg (p : Pkg) (i : Nat) (x : PortSt) : (p.setPort i x).cfg = p.cfg := rfl
@[simp] theorem setPort_wear (p : Pkg) (i : Nat) (x : PortSt) : (p.setPort i x).wear = p.wear := rfl
@[simp] theorem setPort_boot (p : Pkg) (i : Nat) (x : PortSt) : (p.setPort i x).boot = p.boot := rfl
@[simp] theorem setPort_supply (p : Pkg) (i : Nat) (x : PortSt) : (p.setPort i x).supply = p.supply := rfl
@[simp] theorem setPort_ev (p : Pkg) (i : Nat) (x : PortSt) : (p.setPort i x).ev = p.ev := rfl
@[simp] theorem setPort_failed (p : Pkg) (i : Nat) (x : PortSt) : (p.setPort i x).failed = p.failed := rfl
@[simp] theorem setPort_free (p : Pkg) (i : Nat) (x : PortSt) : (p.setPort i x).free = p.free := rfl
@[simp] theorem setPort_out (p : Pkg) (i : Nat) (x : PortSt) : (p.setPort i x).out = p.out := rfl

@[simp] theorem setQueue_mtime (p : Pkg) (q : Nat) (x : QueueSt) : (p.setQueue q x).mtime = p.mtime := rfl
@[simp] theorem setQueue_dict (p : Pkg) (q : Nat) (x : QueueSt) : (p.setQueue q x).dict = p.dict := rfl
@[simp] theorem setQueue_mem (p : Pkg) (q : Nat) (x : QueueSt) : (p.setQueue q x).mem = p.mem := rfl
@[simp] theorem setQueue_eccPins (p : Pkg) (q : Nat) (x : QueueSt) : (p.setQueue q x).eccPins = p.eccPins := rfl
@[simp] theorem setQueue_checkBytes (p : Pkg) (q : Nat) (x : QueueSt) : (p.setQueue q x).checkBytes = p.checkBytes := rfl
@[simp] theorem setQueue_sramChk (p : Pkg) (q : Nat) (x : QueueSt) : (p.setQueue q x).sramChk = p.sramChk := rfl
@[simp] theorem setQueue_tiles (p : Pkg) (q : Nat) (x : QueueSt) : (p.setQueue q x).tiles = p.tiles := rfl
@[simp] theorem setQueue_flits (p : Pkg) (q : Nat) (x : QueueSt) : (p.setQueue q x).flits = p.flits := rfl
@[simp] theorem setQueue_qualified (p : Pkg) (q : Nat) (x : QueueSt) : (p.setQueue q x).qualified = p.qualified := rfl
@[simp] theorem setQueue_testFailed (p : Pkg) (q : Nat) (x : QueueSt) : (p.setQueue q x).testFailed = p.testFailed := rfl
@[simp] theorem setQueue_retired (p : Pkg) (q : Nat) (x : QueueSt) : (p.setQueue q x).retired = p.retired := rfl
@[simp] theorem setQueue_testPrev (p : Pkg) (q : Nat) (x : QueueSt) : (p.setQueue q x).testPrev = p.testPrev := rfl
@[simp] theorem setQueue_ledger (p : Pkg) (q : Nat) (x : QueueSt) : (p.setQueue q x).ledger = p.ledger := rfl
@[simp] theorem setQueue_stepc (p : Pkg) (q : Nat) (x : QueueSt) : (p.setQueue q x).stepc = p.stepc := rfl
@[simp] theorem setQueue_sched (p : Pkg) (q : Nat) (x : QueueSt) : (p.setQueue q x).sched = p.sched := rfl
@[simp] theorem setQueue_loader (p : Pkg) (q : Nat) (x : QueueSt) : (p.setQueue q x).loader = p.loader := rfl
@[simp] theorem setQueue_engines (p : Pkg) (q : Nat) (x : QueueSt) : (p.setQueue q x).engines = p.engines := rfl
@[simp] theorem setQueue_disp (p : Pkg) (q : Nat) (x : QueueSt) : (p.setQueue q x).disp = p.disp := rfl
@[simp] theorem setQueue_tiers (p : Pkg) (q : Nat) (x : QueueSt) : (p.setQueue q x).tiers = p.tiers := rfl
@[simp] theorem setQueue_place (p : Pkg) (q : Nat) (x : QueueSt) : (p.setQueue q x).place = p.place := rfl
@[simp] theorem setQueue_memsys (p : Pkg) (q : Nat) (x : QueueSt) : (p.setQueue q x).memsys = p.memsys := rfl
@[simp] theorem setQueue_coh (p : Pkg) (q : Nat) (x : QueueSt) : (p.setQueue q x).coh = p.coh := rfl
@[simp] theorem setQueue_links (p : Pkg) (q : Nat) (x : QueueSt) : (p.setQueue q x).links = p.links := rfl
@[simp] theorem setQueue_secure (p : Pkg) (q : Nat) (x : QueueSt) : (p.setQueue q x).secure = p.secure := rfl
@[simp] theorem setQueue_power (p : Pkg) (q : Nat) (x : QueueSt) : (p.setQueue q x).power = p.power := rfl
@[simp] theorem setQueue_can (p : Pkg) (q : Nat) (x : QueueSt) : (p.setQueue q x).can = p.can := rfl
@[simp] theorem setQueue_cfg (p : Pkg) (q : Nat) (x : QueueSt) : (p.setQueue q x).cfg = p.cfg := rfl
@[simp] theorem setQueue_wear (p : Pkg) (q : Nat) (x : QueueSt) : (p.setQueue q x).wear = p.wear := rfl
@[simp] theorem setQueue_boot (p : Pkg) (q : Nat) (x : QueueSt) : (p.setQueue q x).boot = p.boot := rfl
@[simp] theorem setQueue_supply (p : Pkg) (q : Nat) (x : QueueSt) : (p.setQueue q x).supply = p.supply := rfl
@[simp] theorem setQueue_ev (p : Pkg) (q : Nat) (x : QueueSt) : (p.setQueue q x).ev = p.ev := rfl
@[simp] theorem setQueue_failed (p : Pkg) (q : Nat) (x : QueueSt) : (p.setQueue q x).failed = p.failed := rfl
@[simp] theorem setQueue_free (p : Pkg) (q : Nat) (x : QueueSt) : (p.setQueue q x).free = p.free := rfl
@[simp] theorem setQueue_out (p : Pkg) (q : Nat) (x : QueueSt) : (p.setQueue q x).out = p.out := rfl

@[simp] theorem raise_mtime (p : Pkg) (c u a : Nat) : (p.raise c u a).mtime = p.mtime := rfl
@[simp] theorem raise_dict (p : Pkg) (c u a : Nat) : (p.raise c u a).dict = p.dict := rfl
@[simp] theorem raise_mem (p : Pkg) (c u a : Nat) : (p.raise c u a).mem = p.mem := rfl
@[simp] theorem raise_eccPins (p : Pkg) (c u a : Nat) : (p.raise c u a).eccPins = p.eccPins := rfl
@[simp] theorem raise_checkBytes (p : Pkg) (c u a : Nat) : (p.raise c u a).checkBytes = p.checkBytes := rfl
@[simp] theorem raise_sramChk (p : Pkg) (c u a : Nat) : (p.raise c u a).sramChk = p.sramChk := rfl
@[simp] theorem raise_tiles (p : Pkg) (c u a : Nat) : (p.raise c u a).tiles = p.tiles := rfl
@[simp] theorem raise_flits (p : Pkg) (c u a : Nat) : (p.raise c u a).flits = p.flits := rfl
@[simp] theorem raise_qualified (p : Pkg) (c u a : Nat) : (p.raise c u a).qualified = p.qualified := rfl
@[simp] theorem raise_testFailed (p : Pkg) (c u a : Nat) : (p.raise c u a).testFailed = p.testFailed := rfl
@[simp] theorem raise_retired (p : Pkg) (c u a : Nat) : (p.raise c u a).retired = p.retired := rfl
@[simp] theorem raise_testPrev (p : Pkg) (c u a : Nat) : (p.raise c u a).testPrev = p.testPrev := rfl
@[simp] theorem raise_ledger (p : Pkg) (c u a : Nat) : (p.raise c u a).ledger = p.ledger := rfl
@[simp] theorem raise_stepc (p : Pkg) (c u a : Nat) : (p.raise c u a).stepc = p.stepc := rfl
@[simp] theorem raise_sched (p : Pkg) (c u a : Nat) : (p.raise c u a).sched = p.sched := rfl
@[simp] theorem raise_loader (p : Pkg) (c u a : Nat) : (p.raise c u a).loader = p.loader := rfl
@[simp] theorem raise_engines (p : Pkg) (c u a : Nat) : (p.raise c u a).engines = p.engines := rfl
@[simp] theorem raise_disp (p : Pkg) (c u a : Nat) : (p.raise c u a).disp = p.disp := rfl
@[simp] theorem raise_tiers (p : Pkg) (c u a : Nat) : (p.raise c u a).tiers = p.tiers := rfl
@[simp] theorem raise_place (p : Pkg) (c u a : Nat) : (p.raise c u a).place = p.place := rfl
@[simp] theorem raise_memsys (p : Pkg) (c u a : Nat) : (p.raise c u a).memsys = p.memsys := rfl
@[simp] theorem raise_coh (p : Pkg) (c u a : Nat) : (p.raise c u a).coh = p.coh := rfl
@[simp] theorem raise_links (p : Pkg) (c u a : Nat) : (p.raise c u a).links = p.links := rfl
@[simp] theorem raise_host (p : Pkg) (c u a : Nat) : (p.raise c u a).host = p.host := rfl
@[simp] theorem raise_secure (p : Pkg) (c u a : Nat) : (p.raise c u a).secure = p.secure := rfl
@[simp] theorem raise_power (p : Pkg) (c u a : Nat) : (p.raise c u a).power = p.power := rfl
@[simp] theorem raise_can (p : Pkg) (c u a : Nat) : (p.raise c u a).can = p.can := rfl
@[simp] theorem raise_cfg (p : Pkg) (c u a : Nat) : (p.raise c u a).cfg = p.cfg := rfl
@[simp] theorem raise_wear (p : Pkg) (c u a : Nat) : (p.raise c u a).wear = p.wear := rfl
@[simp] theorem raise_boot (p : Pkg) (c u a : Nat) : (p.raise c u a).boot = p.boot := rfl
@[simp] theorem raise_supply (p : Pkg) (c u a : Nat) : (p.raise c u a).supply = p.supply := rfl
@[simp] theorem raise_failed (p : Pkg) (c u a : Nat) : (p.raise c u a).failed = p.failed := rfl
@[simp] theorem raise_free (p : Pkg) (c u a : Nat) : (p.raise c u a).free = p.free := rfl
@[simp] theorem raise_out (p : Pkg) (c u a : Nat) : (p.raise c u a).out = p.out := rfl

@[simp] theorem setHost_mtime (p : Pkg) (x : HostUnit) : (p.setHost x).mtime = p.mtime := rfl
@[simp] theorem setHost_dict (p : Pkg) (x : HostUnit) : (p.setHost x).dict = p.dict := rfl
@[simp] theorem setHost_mem (p : Pkg) (x : HostUnit) : (p.setHost x).mem = p.mem := rfl
@[simp] theorem setHost_eccPins (p : Pkg) (x : HostUnit) : (p.setHost x).eccPins = p.eccPins := rfl
@[simp] theorem setHost_checkBytes (p : Pkg) (x : HostUnit) : (p.setHost x).checkBytes = p.checkBytes := rfl
@[simp] theorem setHost_sramChk (p : Pkg) (x : HostUnit) : (p.setHost x).sramChk = p.sramChk := rfl
@[simp] theorem setHost_tiles (p : Pkg) (x : HostUnit) : (p.setHost x).tiles = p.tiles := rfl
@[simp] theorem setHost_flits (p : Pkg) (x : HostUnit) : (p.setHost x).flits = p.flits := rfl
@[simp] theorem setHost_qualified (p : Pkg) (x : HostUnit) : (p.setHost x).qualified = p.qualified := rfl
@[simp] theorem setHost_testFailed (p : Pkg) (x : HostUnit) : (p.setHost x).testFailed = p.testFailed := rfl
@[simp] theorem setHost_retired (p : Pkg) (x : HostUnit) : (p.setHost x).retired = p.retired := rfl
@[simp] theorem setHost_testPrev (p : Pkg) (x : HostUnit) : (p.setHost x).testPrev = p.testPrev := rfl
@[simp] theorem setHost_ledger (p : Pkg) (x : HostUnit) : (p.setHost x).ledger = p.ledger := rfl
@[simp] theorem setHost_stepc (p : Pkg) (x : HostUnit) : (p.setHost x).stepc = p.stepc := rfl
@[simp] theorem setHost_sched (p : Pkg) (x : HostUnit) : (p.setHost x).sched = p.sched := rfl
@[simp] theorem setHost_loader (p : Pkg) (x : HostUnit) : (p.setHost x).loader = p.loader := rfl
@[simp] theorem setHost_engines (p : Pkg) (x : HostUnit) : (p.setHost x).engines = p.engines := rfl
@[simp] theorem setHost_disp (p : Pkg) (x : HostUnit) : (p.setHost x).disp = p.disp := rfl
@[simp] theorem setHost_tiers (p : Pkg) (x : HostUnit) : (p.setHost x).tiers = p.tiers := rfl
@[simp] theorem setHost_place (p : Pkg) (x : HostUnit) : (p.setHost x).place = p.place := rfl
@[simp] theorem setHost_memsys (p : Pkg) (x : HostUnit) : (p.setHost x).memsys = p.memsys := rfl
@[simp] theorem setHost_coh (p : Pkg) (x : HostUnit) : (p.setHost x).coh = p.coh := rfl
@[simp] theorem setHost_links (p : Pkg) (x : HostUnit) : (p.setHost x).links = p.links := rfl
@[simp] theorem setHost_secure (p : Pkg) (x : HostUnit) : (p.setHost x).secure = p.secure := rfl
@[simp] theorem setHost_power (p : Pkg) (x : HostUnit) : (p.setHost x).power = p.power := rfl
@[simp] theorem setHost_can (p : Pkg) (x : HostUnit) : (p.setHost x).can = p.can := rfl
@[simp] theorem setHost_cfg (p : Pkg) (x : HostUnit) : (p.setHost x).cfg = p.cfg := rfl
@[simp] theorem setHost_wear (p : Pkg) (x : HostUnit) : (p.setHost x).wear = p.wear := rfl
@[simp] theorem setHost_boot (p : Pkg) (x : HostUnit) : (p.setHost x).boot = p.boot := rfl
@[simp] theorem setHost_supply (p : Pkg) (x : HostUnit) : (p.setHost x).supply = p.supply := rfl
@[simp] theorem setHost_ev (p : Pkg) (x : HostUnit) : (p.setHost x).ev = p.ev := rfl
@[simp] theorem setHost_failed (p : Pkg) (x : HostUnit) : (p.setHost x).failed = p.failed := rfl
@[simp] theorem setHost_free (p : Pkg) (x : HostUnit) : (p.setHost x).free = p.free := rfl
@[simp] theorem setHost_out (p : Pkg) (x : HostUnit) : (p.setHost x).out = p.out := rfl

@[simp] theorem setEv_mtime (p : Pkg) (x : Events) : (p.setEv x).mtime = p.mtime := rfl
@[simp] theorem setEv_dict (p : Pkg) (x : Events) : (p.setEv x).dict = p.dict := rfl
@[simp] theorem setEv_mem (p : Pkg) (x : Events) : (p.setEv x).mem = p.mem := rfl
@[simp] theorem setEv_eccPins (p : Pkg) (x : Events) : (p.setEv x).eccPins = p.eccPins := rfl
@[simp] theorem setEv_checkBytes (p : Pkg) (x : Events) : (p.setEv x).checkBytes = p.checkBytes := rfl
@[simp] theorem setEv_sramChk (p : Pkg) (x : Events) : (p.setEv x).sramChk = p.sramChk := rfl
@[simp] theorem setEv_tiles (p : Pkg) (x : Events) : (p.setEv x).tiles = p.tiles := rfl
@[simp] theorem setEv_flits (p : Pkg) (x : Events) : (p.setEv x).flits = p.flits := rfl
@[simp] theorem setEv_qualified (p : Pkg) (x : Events) : (p.setEv x).qualified = p.qualified := rfl
@[simp] theorem setEv_testFailed (p : Pkg) (x : Events) : (p.setEv x).testFailed = p.testFailed := rfl
@[simp] theorem setEv_retired (p : Pkg) (x : Events) : (p.setEv x).retired = p.retired := rfl
@[simp] theorem setEv_testPrev (p : Pkg) (x : Events) : (p.setEv x).testPrev = p.testPrev := rfl
@[simp] theorem setEv_ledger (p : Pkg) (x : Events) : (p.setEv x).ledger = p.ledger := rfl
@[simp] theorem setEv_stepc (p : Pkg) (x : Events) : (p.setEv x).stepc = p.stepc := rfl
@[simp] theorem setEv_sched (p : Pkg) (x : Events) : (p.setEv x).sched = p.sched := rfl
@[simp] theorem setEv_loader (p : Pkg) (x : Events) : (p.setEv x).loader = p.loader := rfl
@[simp] theorem setEv_engines (p : Pkg) (x : Events) : (p.setEv x).engines = p.engines := rfl
@[simp] theorem setEv_disp (p : Pkg) (x : Events) : (p.setEv x).disp = p.disp := rfl
@[simp] theorem setEv_tiers (p : Pkg) (x : Events) : (p.setEv x).tiers = p.tiers := rfl
@[simp] theorem setEv_place (p : Pkg) (x : Events) : (p.setEv x).place = p.place := rfl
@[simp] theorem setEv_memsys (p : Pkg) (x : Events) : (p.setEv x).memsys = p.memsys := rfl
@[simp] theorem setEv_coh (p : Pkg) (x : Events) : (p.setEv x).coh = p.coh := rfl
@[simp] theorem setEv_links (p : Pkg) (x : Events) : (p.setEv x).links = p.links := rfl
@[simp] theorem setEv_host (p : Pkg) (x : Events) : (p.setEv x).host = p.host := rfl
@[simp] theorem setEv_secure (p : Pkg) (x : Events) : (p.setEv x).secure = p.secure := rfl
@[simp] theorem setEv_power (p : Pkg) (x : Events) : (p.setEv x).power = p.power := rfl
@[simp] theorem setEv_can (p : Pkg) (x : Events) : (p.setEv x).can = p.can := rfl
@[simp] theorem setEv_cfg (p : Pkg) (x : Events) : (p.setEv x).cfg = p.cfg := rfl
@[simp] theorem setEv_wear (p : Pkg) (x : Events) : (p.setEv x).wear = p.wear := rfl
@[simp] theorem setEv_boot (p : Pkg) (x : Events) : (p.setEv x).boot = p.boot := rfl
@[simp] theorem setEv_supply (p : Pkg) (x : Events) : (p.setEv x).supply = p.supply := rfl
@[simp] theorem setEv_failed (p : Pkg) (x : Events) : (p.setEv x).failed = p.failed := rfl
@[simp] theorem setEv_free (p : Pkg) (x : Events) : (p.setEv x).free = p.free := rfl
@[simp] theorem setEv_out (p : Pkg) (x : Events) : (p.setEv x).out = p.out := rfl

@[simp] theorem setCan_mtime (p : Pkg) (x : Can) : (p.setCan x).mtime = p.mtime := rfl
@[simp] theorem setCan_dict (p : Pkg) (x : Can) : (p.setCan x).dict = p.dict := rfl
@[simp] theorem setCan_mem (p : Pkg) (x : Can) : (p.setCan x).mem = p.mem := rfl
@[simp] theorem setCan_eccPins (p : Pkg) (x : Can) : (p.setCan x).eccPins = p.eccPins := rfl
@[simp] theorem setCan_checkBytes (p : Pkg) (x : Can) : (p.setCan x).checkBytes = p.checkBytes := rfl
@[simp] theorem setCan_sramChk (p : Pkg) (x : Can) : (p.setCan x).sramChk = p.sramChk := rfl
@[simp] theorem setCan_tiles (p : Pkg) (x : Can) : (p.setCan x).tiles = p.tiles := rfl
@[simp] theorem setCan_flits (p : Pkg) (x : Can) : (p.setCan x).flits = p.flits := rfl
@[simp] theorem setCan_qualified (p : Pkg) (x : Can) : (p.setCan x).qualified = p.qualified := rfl
@[simp] theorem setCan_testFailed (p : Pkg) (x : Can) : (p.setCan x).testFailed = p.testFailed := rfl
@[simp] theorem setCan_retired (p : Pkg) (x : Can) : (p.setCan x).retired = p.retired := rfl
@[simp] theorem setCan_testPrev (p : Pkg) (x : Can) : (p.setCan x).testPrev = p.testPrev := rfl
@[simp] theorem setCan_ledger (p : Pkg) (x : Can) : (p.setCan x).ledger = p.ledger := rfl
@[simp] theorem setCan_stepc (p : Pkg) (x : Can) : (p.setCan x).stepc = p.stepc := rfl
@[simp] theorem setCan_sched (p : Pkg) (x : Can) : (p.setCan x).sched = p.sched := rfl
@[simp] theorem setCan_loader (p : Pkg) (x : Can) : (p.setCan x).loader = p.loader := rfl
@[simp] theorem setCan_engines (p : Pkg) (x : Can) : (p.setCan x).engines = p.engines := rfl
@[simp] theorem setCan_disp (p : Pkg) (x : Can) : (p.setCan x).disp = p.disp := rfl
@[simp] theorem setCan_tiers (p : Pkg) (x : Can) : (p.setCan x).tiers = p.tiers := rfl
@[simp] theorem setCan_place (p : Pkg) (x : Can) : (p.setCan x).place = p.place := rfl
@[simp] theorem setCan_memsys (p : Pkg) (x : Can) : (p.setCan x).memsys = p.memsys := rfl
@[simp] theorem setCan_coh (p : Pkg) (x : Can) : (p.setCan x).coh = p.coh := rfl
@[simp] theorem setCan_links (p : Pkg) (x : Can) : (p.setCan x).links = p.links := rfl
@[simp] theorem setCan_host (p : Pkg) (x : Can) : (p.setCan x).host = p.host := rfl
@[simp] theorem setCan_secure (p : Pkg) (x : Can) : (p.setCan x).secure = p.secure := rfl
@[simp] theorem setCan_power (p : Pkg) (x : Can) : (p.setCan x).power = p.power := rfl
@[simp] theorem setCan_cfg (p : Pkg) (x : Can) : (p.setCan x).cfg = p.cfg := rfl
@[simp] theorem setCan_wear (p : Pkg) (x : Can) : (p.setCan x).wear = p.wear := rfl
@[simp] theorem setCan_boot (p : Pkg) (x : Can) : (p.setCan x).boot = p.boot := rfl
@[simp] theorem setCan_supply (p : Pkg) (x : Can) : (p.setCan x).supply = p.supply := rfl
@[simp] theorem setCan_ev (p : Pkg) (x : Can) : (p.setCan x).ev = p.ev := rfl
@[simp] theorem setCan_failed (p : Pkg) (x : Can) : (p.setCan x).failed = p.failed := rfl
@[simp] theorem setCan_free (p : Pkg) (x : Can) : (p.setCan x).free = p.free := rfl
@[simp] theorem setCan_out (p : Pkg) (x : Can) : (p.setCan x).out = p.out := rfl

@[simp] theorem setCfg_mtime (p : Pkg) (x : Cfg) : (p.setCfg x).mtime = p.mtime := rfl
@[simp] theorem setCfg_dict (p : Pkg) (x : Cfg) : (p.setCfg x).dict = p.dict := rfl
@[simp] theorem setCfg_mem (p : Pkg) (x : Cfg) : (p.setCfg x).mem = p.mem := rfl
@[simp] theorem setCfg_eccPins (p : Pkg) (x : Cfg) : (p.setCfg x).eccPins = p.eccPins := rfl
@[simp] theorem setCfg_checkBytes (p : Pkg) (x : Cfg) : (p.setCfg x).checkBytes = p.checkBytes := rfl
@[simp] theorem setCfg_sramChk (p : Pkg) (x : Cfg) : (p.setCfg x).sramChk = p.sramChk := rfl
@[simp] theorem setCfg_tiles (p : Pkg) (x : Cfg) : (p.setCfg x).tiles = p.tiles := rfl
@[simp] theorem setCfg_flits (p : Pkg) (x : Cfg) : (p.setCfg x).flits = p.flits := rfl
@[simp] theorem setCfg_qualified (p : Pkg) (x : Cfg) : (p.setCfg x).qualified = p.qualified := rfl
@[simp] theorem setCfg_testFailed (p : Pkg) (x : Cfg) : (p.setCfg x).testFailed = p.testFailed := rfl
@[simp] theorem setCfg_retired (p : Pkg) (x : Cfg) : (p.setCfg x).retired = p.retired := rfl
@[simp] theorem setCfg_testPrev (p : Pkg) (x : Cfg) : (p.setCfg x).testPrev = p.testPrev := rfl
@[simp] theorem setCfg_ledger (p : Pkg) (x : Cfg) : (p.setCfg x).ledger = p.ledger := rfl
@[simp] theorem setCfg_stepc (p : Pkg) (x : Cfg) : (p.setCfg x).stepc = p.stepc := rfl
@[simp] theorem setCfg_sched (p : Pkg) (x : Cfg) : (p.setCfg x).sched = p.sched := rfl
@[simp] theorem setCfg_loader (p : Pkg) (x : Cfg) : (p.setCfg x).loader = p.loader := rfl
@[simp] theorem setCfg_engines (p : Pkg) (x : Cfg) : (p.setCfg x).engines = p.engines := rfl
@[simp] theorem setCfg_disp (p : Pkg) (x : Cfg) : (p.setCfg x).disp = p.disp := rfl
@[simp] theorem setCfg_tiers (p : Pkg) (x : Cfg) : (p.setCfg x).tiers = p.tiers := rfl
@[simp] theorem setCfg_place (p : Pkg) (x : Cfg) : (p.setCfg x).place = p.place := rfl
@[simp] theorem setCfg_memsys (p : Pkg) (x : Cfg) : (p.setCfg x).memsys = p.memsys := rfl
@[simp] theorem setCfg_coh (p : Pkg) (x : Cfg) : (p.setCfg x).coh = p.coh := rfl
@[simp] theorem setCfg_links (p : Pkg) (x : Cfg) : (p.setCfg x).links = p.links := rfl
@[simp] theorem setCfg_host (p : Pkg) (x : Cfg) : (p.setCfg x).host = p.host := rfl
@[simp] theorem setCfg_secure (p : Pkg) (x : Cfg) : (p.setCfg x).secure = p.secure := rfl
@[simp] theorem setCfg_power (p : Pkg) (x : Cfg) : (p.setCfg x).power = p.power := rfl
@[simp] theorem setCfg_can (p : Pkg) (x : Cfg) : (p.setCfg x).can = p.can := rfl
@[simp] theorem setCfg_wear (p : Pkg) (x : Cfg) : (p.setCfg x).wear = p.wear := rfl
@[simp] theorem setCfg_boot (p : Pkg) (x : Cfg) : (p.setCfg x).boot = p.boot := rfl
@[simp] theorem setCfg_supply (p : Pkg) (x : Cfg) : (p.setCfg x).supply = p.supply := rfl
@[simp] theorem setCfg_ev (p : Pkg) (x : Cfg) : (p.setCfg x).ev = p.ev := rfl
@[simp] theorem setCfg_failed (p : Pkg) (x : Cfg) : (p.setCfg x).failed = p.failed := rfl
@[simp] theorem setCfg_free (p : Pkg) (x : Cfg) : (p.setCfg x).free = p.free := rfl
@[simp] theorem setCfg_out (p : Pkg) (x : Cfg) : (p.setCfg x).out = p.out := rfl

@[simp] theorem setPower_mtime (p : Pkg) (x : Power) : (p.setPower x).mtime = p.mtime := rfl
@[simp] theorem setPower_dict (p : Pkg) (x : Power) : (p.setPower x).dict = p.dict := rfl
@[simp] theorem setPower_mem (p : Pkg) (x : Power) : (p.setPower x).mem = p.mem := rfl
@[simp] theorem setPower_eccPins (p : Pkg) (x : Power) : (p.setPower x).eccPins = p.eccPins := rfl
@[simp] theorem setPower_checkBytes (p : Pkg) (x : Power) : (p.setPower x).checkBytes = p.checkBytes := rfl
@[simp] theorem setPower_sramChk (p : Pkg) (x : Power) : (p.setPower x).sramChk = p.sramChk := rfl
@[simp] theorem setPower_tiles (p : Pkg) (x : Power) : (p.setPower x).tiles = p.tiles := rfl
@[simp] theorem setPower_flits (p : Pkg) (x : Power) : (p.setPower x).flits = p.flits := rfl
@[simp] theorem setPower_qualified (p : Pkg) (x : Power) : (p.setPower x).qualified = p.qualified := rfl
@[simp] theorem setPower_testFailed (p : Pkg) (x : Power) : (p.setPower x).testFailed = p.testFailed := rfl
@[simp] theorem setPower_retired (p : Pkg) (x : Power) : (p.setPower x).retired = p.retired := rfl
@[simp] theorem setPower_testPrev (p : Pkg) (x : Power) : (p.setPower x).testPrev = p.testPrev := rfl
@[simp] theorem setPower_ledger (p : Pkg) (x : Power) : (p.setPower x).ledger = p.ledger := rfl
@[simp] theorem setPower_stepc (p : Pkg) (x : Power) : (p.setPower x).stepc = p.stepc := rfl
@[simp] theorem setPower_sched (p : Pkg) (x : Power) : (p.setPower x).sched = p.sched := rfl
@[simp] theorem setPower_loader (p : Pkg) (x : Power) : (p.setPower x).loader = p.loader := rfl
@[simp] theorem setPower_engines (p : Pkg) (x : Power) : (p.setPower x).engines = p.engines := rfl
@[simp] theorem setPower_disp (p : Pkg) (x : Power) : (p.setPower x).disp = p.disp := rfl
@[simp] theorem setPower_tiers (p : Pkg) (x : Power) : (p.setPower x).tiers = p.tiers := rfl
@[simp] theorem setPower_place (p : Pkg) (x : Power) : (p.setPower x).place = p.place := rfl
@[simp] theorem setPower_memsys (p : Pkg) (x : Power) : (p.setPower x).memsys = p.memsys := rfl
@[simp] theorem setPower_coh (p : Pkg) (x : Power) : (p.setPower x).coh = p.coh := rfl
@[simp] theorem setPower_links (p : Pkg) (x : Power) : (p.setPower x).links = p.links := rfl
@[simp] theorem setPower_host (p : Pkg) (x : Power) : (p.setPower x).host = p.host := rfl
@[simp] theorem setPower_secure (p : Pkg) (x : Power) : (p.setPower x).secure = p.secure := rfl
@[simp] theorem setPower_can (p : Pkg) (x : Power) : (p.setPower x).can = p.can := rfl
@[simp] theorem setPower_cfg (p : Pkg) (x : Power) : (p.setPower x).cfg = p.cfg := rfl
@[simp] theorem setPower_wear (p : Pkg) (x : Power) : (p.setPower x).wear = p.wear := rfl
@[simp] theorem setPower_boot (p : Pkg) (x : Power) : (p.setPower x).boot = p.boot := rfl
@[simp] theorem setPower_supply (p : Pkg) (x : Power) : (p.setPower x).supply = p.supply := rfl
@[simp] theorem setPower_ev (p : Pkg) (x : Power) : (p.setPower x).ev = p.ev := rfl
@[simp] theorem setPower_failed (p : Pkg) (x : Power) : (p.setPower x).failed = p.failed := rfl
@[simp] theorem setPower_free (p : Pkg) (x : Power) : (p.setPower x).free = p.free := rfl
@[simp] theorem setPower_out (p : Pkg) (x : Power) : (p.setPower x).out = p.out := rfl

@[simp] theorem setSupply_mtime (p : Pkg) (x : Supply) : (p.setSupply x).mtime = p.mtime := rfl
@[simp] theorem setSupply_dict (p : Pkg) (x : Supply) : (p.setSupply x).dict = p.dict := rfl
@[simp] theorem setSupply_mem (p : Pkg) (x : Supply) : (p.setSupply x).mem = p.mem := rfl
@[simp] theorem setSupply_eccPins (p : Pkg) (x : Supply) : (p.setSupply x).eccPins = p.eccPins := rfl
@[simp] theorem setSupply_checkBytes (p : Pkg) (x : Supply) : (p.setSupply x).checkBytes = p.checkBytes := rfl
@[simp] theorem setSupply_sramChk (p : Pkg) (x : Supply) : (p.setSupply x).sramChk = p.sramChk := rfl
@[simp] theorem setSupply_tiles (p : Pkg) (x : Supply) : (p.setSupply x).tiles = p.tiles := rfl
@[simp] theorem setSupply_flits (p : Pkg) (x : Supply) : (p.setSupply x).flits = p.flits := rfl
@[simp] theorem setSupply_qualified (p : Pkg) (x : Supply) : (p.setSupply x).qualified = p.qualified := rfl
@[simp] theorem setSupply_testFailed (p : Pkg) (x : Supply) : (p.setSupply x).testFailed = p.testFailed := rfl
@[simp] theorem setSupply_retired (p : Pkg) (x : Supply) : (p.setSupply x).retired = p.retired := rfl
@[simp] theorem setSupply_testPrev (p : Pkg) (x : Supply) : (p.setSupply x).testPrev = p.testPrev := rfl
@[simp] theorem setSupply_ledger (p : Pkg) (x : Supply) : (p.setSupply x).ledger = p.ledger := rfl
@[simp] theorem setSupply_stepc (p : Pkg) (x : Supply) : (p.setSupply x).stepc = p.stepc := rfl
@[simp] theorem setSupply_sched (p : Pkg) (x : Supply) : (p.setSupply x).sched = p.sched := rfl
@[simp] theorem setSupply_loader (p : Pkg) (x : Supply) : (p.setSupply x).loader = p.loader := rfl
@[simp] theorem setSupply_engines (p : Pkg) (x : Supply) : (p.setSupply x).engines = p.engines := rfl
@[simp] theorem setSupply_disp (p : Pkg) (x : Supply) : (p.setSupply x).disp = p.disp := rfl
@[simp] theorem setSupply_tiers (p : Pkg) (x : Supply) : (p.setSupply x).tiers = p.tiers := rfl
@[simp] theorem setSupply_place (p : Pkg) (x : Supply) : (p.setSupply x).place = p.place := rfl
@[simp] theorem setSupply_memsys (p : Pkg) (x : Supply) : (p.setSupply x).memsys = p.memsys := rfl
@[simp] theorem setSupply_coh (p : Pkg) (x : Supply) : (p.setSupply x).coh = p.coh := rfl
@[simp] theorem setSupply_links (p : Pkg) (x : Supply) : (p.setSupply x).links = p.links := rfl
@[simp] theorem setSupply_host (p : Pkg) (x : Supply) : (p.setSupply x).host = p.host := rfl
@[simp] theorem setSupply_secure (p : Pkg) (x : Supply) : (p.setSupply x).secure = p.secure := rfl
@[simp] theorem setSupply_power (p : Pkg) (x : Supply) : (p.setSupply x).power = p.power := rfl
@[simp] theorem setSupply_can (p : Pkg) (x : Supply) : (p.setSupply x).can = p.can := rfl
@[simp] theorem setSupply_cfg (p : Pkg) (x : Supply) : (p.setSupply x).cfg = p.cfg := rfl
@[simp] theorem setSupply_wear (p : Pkg) (x : Supply) : (p.setSupply x).wear = p.wear := rfl
@[simp] theorem setSupply_boot (p : Pkg) (x : Supply) : (p.setSupply x).boot = p.boot := rfl
@[simp] theorem setSupply_ev (p : Pkg) (x : Supply) : (p.setSupply x).ev = p.ev := rfl
@[simp] theorem setSupply_failed (p : Pkg) (x : Supply) : (p.setSupply x).failed = p.failed := rfl
@[simp] theorem setSupply_free (p : Pkg) (x : Supply) : (p.setSupply x).free = p.free := rfl
@[simp] theorem setSupply_out (p : Pkg) (x : Supply) : (p.setSupply x).out = p.out := rfl

@[simp] theorem setBoot_mtime (p : Pkg) (x : Boot) : (p.setBoot x).mtime = p.mtime := rfl
@[simp] theorem setBoot_dict (p : Pkg) (x : Boot) : (p.setBoot x).dict = p.dict := rfl
@[simp] theorem setBoot_mem (p : Pkg) (x : Boot) : (p.setBoot x).mem = p.mem := rfl
@[simp] theorem setBoot_eccPins (p : Pkg) (x : Boot) : (p.setBoot x).eccPins = p.eccPins := rfl
@[simp] theorem setBoot_checkBytes (p : Pkg) (x : Boot) : (p.setBoot x).checkBytes = p.checkBytes := rfl
@[simp] theorem setBoot_sramChk (p : Pkg) (x : Boot) : (p.setBoot x).sramChk = p.sramChk := rfl
@[simp] theorem setBoot_tiles (p : Pkg) (x : Boot) : (p.setBoot x).tiles = p.tiles := rfl
@[simp] theorem setBoot_flits (p : Pkg) (x : Boot) : (p.setBoot x).flits = p.flits := rfl
@[simp] theorem setBoot_qualified (p : Pkg) (x : Boot) : (p.setBoot x).qualified = p.qualified := rfl
@[simp] theorem setBoot_testFailed (p : Pkg) (x : Boot) : (p.setBoot x).testFailed = p.testFailed := rfl
@[simp] theorem setBoot_retired (p : Pkg) (x : Boot) : (p.setBoot x).retired = p.retired := rfl
@[simp] theorem setBoot_testPrev (p : Pkg) (x : Boot) : (p.setBoot x).testPrev = p.testPrev := rfl
@[simp] theorem setBoot_ledger (p : Pkg) (x : Boot) : (p.setBoot x).ledger = p.ledger := rfl
@[simp] theorem setBoot_stepc (p : Pkg) (x : Boot) : (p.setBoot x).stepc = p.stepc := rfl
@[simp] theorem setBoot_sched (p : Pkg) (x : Boot) : (p.setBoot x).sched = p.sched := rfl
@[simp] theorem setBoot_loader (p : Pkg) (x : Boot) : (p.setBoot x).loader = p.loader := rfl
@[simp] theorem setBoot_engines (p : Pkg) (x : Boot) : (p.setBoot x).engines = p.engines := rfl
@[simp] theorem setBoot_disp (p : Pkg) (x : Boot) : (p.setBoot x).disp = p.disp := rfl
@[simp] theorem setBoot_tiers (p : Pkg) (x : Boot) : (p.setBoot x).tiers = p.tiers := rfl
@[simp] theorem setBoot_place (p : Pkg) (x : Boot) : (p.setBoot x).place = p.place := rfl
@[simp] theorem setBoot_memsys (p : Pkg) (x : Boot) : (p.setBoot x).memsys = p.memsys := rfl
@[simp] theorem setBoot_coh (p : Pkg) (x : Boot) : (p.setBoot x).coh = p.coh := rfl
@[simp] theorem setBoot_links (p : Pkg) (x : Boot) : (p.setBoot x).links = p.links := rfl
@[simp] theorem setBoot_host (p : Pkg) (x : Boot) : (p.setBoot x).host = p.host := rfl
@[simp] theorem setBoot_secure (p : Pkg) (x : Boot) : (p.setBoot x).secure = p.secure := rfl
@[simp] theorem setBoot_power (p : Pkg) (x : Boot) : (p.setBoot x).power = p.power := rfl
@[simp] theorem setBoot_can (p : Pkg) (x : Boot) : (p.setBoot x).can = p.can := rfl
@[simp] theorem setBoot_cfg (p : Pkg) (x : Boot) : (p.setBoot x).cfg = p.cfg := rfl
@[simp] theorem setBoot_wear (p : Pkg) (x : Boot) : (p.setBoot x).wear = p.wear := rfl
@[simp] theorem setBoot_supply (p : Pkg) (x : Boot) : (p.setBoot x).supply = p.supply := rfl
@[simp] theorem setBoot_ev (p : Pkg) (x : Boot) : (p.setBoot x).ev = p.ev := rfl
@[simp] theorem setBoot_failed (p : Pkg) (x : Boot) : (p.setBoot x).failed = p.failed := rfl
@[simp] theorem setBoot_free (p : Pkg) (x : Boot) : (p.setBoot x).free = p.free := rfl
@[simp] theorem setBoot_out (p : Pkg) (x : Boot) : (p.setBoot x).out = p.out := rfl

@[simp] theorem setSched_mtime (p : Pkg) (x : Sched) : (p.setSched x).mtime = p.mtime := rfl
@[simp] theorem setSched_dict (p : Pkg) (x : Sched) : (p.setSched x).dict = p.dict := rfl
@[simp] theorem setSched_mem (p : Pkg) (x : Sched) : (p.setSched x).mem = p.mem := rfl
@[simp] theorem setSched_eccPins (p : Pkg) (x : Sched) : (p.setSched x).eccPins = p.eccPins := rfl
@[simp] theorem setSched_checkBytes (p : Pkg) (x : Sched) : (p.setSched x).checkBytes = p.checkBytes := rfl
@[simp] theorem setSched_sramChk (p : Pkg) (x : Sched) : (p.setSched x).sramChk = p.sramChk := rfl
@[simp] theorem setSched_tiles (p : Pkg) (x : Sched) : (p.setSched x).tiles = p.tiles := rfl
@[simp] theorem setSched_flits (p : Pkg) (x : Sched) : (p.setSched x).flits = p.flits := rfl
@[simp] theorem setSched_qualified (p : Pkg) (x : Sched) : (p.setSched x).qualified = p.qualified := rfl
@[simp] theorem setSched_testFailed (p : Pkg) (x : Sched) : (p.setSched x).testFailed = p.testFailed := rfl
@[simp] theorem setSched_retired (p : Pkg) (x : Sched) : (p.setSched x).retired = p.retired := rfl
@[simp] theorem setSched_testPrev (p : Pkg) (x : Sched) : (p.setSched x).testPrev = p.testPrev := rfl
@[simp] theorem setSched_ledger (p : Pkg) (x : Sched) : (p.setSched x).ledger = p.ledger := rfl
@[simp] theorem setSched_stepc (p : Pkg) (x : Sched) : (p.setSched x).stepc = p.stepc := rfl
@[simp] theorem setSched_loader (p : Pkg) (x : Sched) : (p.setSched x).loader = p.loader := rfl
@[simp] theorem setSched_engines (p : Pkg) (x : Sched) : (p.setSched x).engines = p.engines := rfl
@[simp] theorem setSched_disp (p : Pkg) (x : Sched) : (p.setSched x).disp = p.disp := rfl
@[simp] theorem setSched_tiers (p : Pkg) (x : Sched) : (p.setSched x).tiers = p.tiers := rfl
@[simp] theorem setSched_place (p : Pkg) (x : Sched) : (p.setSched x).place = p.place := rfl
@[simp] theorem setSched_memsys (p : Pkg) (x : Sched) : (p.setSched x).memsys = p.memsys := rfl
@[simp] theorem setSched_coh (p : Pkg) (x : Sched) : (p.setSched x).coh = p.coh := rfl
@[simp] theorem setSched_links (p : Pkg) (x : Sched) : (p.setSched x).links = p.links := rfl
@[simp] theorem setSched_host (p : Pkg) (x : Sched) : (p.setSched x).host = p.host := rfl
@[simp] theorem setSched_secure (p : Pkg) (x : Sched) : (p.setSched x).secure = p.secure := rfl
@[simp] theorem setSched_power (p : Pkg) (x : Sched) : (p.setSched x).power = p.power := rfl
@[simp] theorem setSched_can (p : Pkg) (x : Sched) : (p.setSched x).can = p.can := rfl
@[simp] theorem setSched_cfg (p : Pkg) (x : Sched) : (p.setSched x).cfg = p.cfg := rfl
@[simp] theorem setSched_wear (p : Pkg) (x : Sched) : (p.setSched x).wear = p.wear := rfl
@[simp] theorem setSched_boot (p : Pkg) (x : Sched) : (p.setSched x).boot = p.boot := rfl
@[simp] theorem setSched_supply (p : Pkg) (x : Sched) : (p.setSched x).supply = p.supply := rfl
@[simp] theorem setSched_ev (p : Pkg) (x : Sched) : (p.setSched x).ev = p.ev := rfl
@[simp] theorem setSched_failed (p : Pkg) (x : Sched) : (p.setSched x).failed = p.failed := rfl
@[simp] theorem setSched_free (p : Pkg) (x : Sched) : (p.setSched x).free = p.free := rfl
@[simp] theorem setSched_out (p : Pkg) (x : Sched) : (p.setSched x).out = p.out := rfl

@[simp] theorem setStepc_mtime (p : Pkg) (x : StepCtl) : (p.setStepc x).mtime = p.mtime := rfl
@[simp] theorem setStepc_dict (p : Pkg) (x : StepCtl) : (p.setStepc x).dict = p.dict := rfl
@[simp] theorem setStepc_mem (p : Pkg) (x : StepCtl) : (p.setStepc x).mem = p.mem := rfl
@[simp] theorem setStepc_eccPins (p : Pkg) (x : StepCtl) : (p.setStepc x).eccPins = p.eccPins := rfl
@[simp] theorem setStepc_checkBytes (p : Pkg) (x : StepCtl) : (p.setStepc x).checkBytes = p.checkBytes := rfl
@[simp] theorem setStepc_sramChk (p : Pkg) (x : StepCtl) : (p.setStepc x).sramChk = p.sramChk := rfl
@[simp] theorem setStepc_tiles (p : Pkg) (x : StepCtl) : (p.setStepc x).tiles = p.tiles := rfl
@[simp] theorem setStepc_flits (p : Pkg) (x : StepCtl) : (p.setStepc x).flits = p.flits := rfl
@[simp] theorem setStepc_qualified (p : Pkg) (x : StepCtl) : (p.setStepc x).qualified = p.qualified := rfl
@[simp] theorem setStepc_testFailed (p : Pkg) (x : StepCtl) : (p.setStepc x).testFailed = p.testFailed := rfl
@[simp] theorem setStepc_retired (p : Pkg) (x : StepCtl) : (p.setStepc x).retired = p.retired := rfl
@[simp] theorem setStepc_testPrev (p : Pkg) (x : StepCtl) : (p.setStepc x).testPrev = p.testPrev := rfl
@[simp] theorem setStepc_ledger (p : Pkg) (x : StepCtl) : (p.setStepc x).ledger = p.ledger := rfl
@[simp] theorem setStepc_sched (p : Pkg) (x : StepCtl) : (p.setStepc x).sched = p.sched := rfl
@[simp] theorem setStepc_loader (p : Pkg) (x : StepCtl) : (p.setStepc x).loader = p.loader := rfl
@[simp] theorem setStepc_engines (p : Pkg) (x : StepCtl) : (p.setStepc x).engines = p.engines := rfl
@[simp] theorem setStepc_disp (p : Pkg) (x : StepCtl) : (p.setStepc x).disp = p.disp := rfl
@[simp] theorem setStepc_tiers (p : Pkg) (x : StepCtl) : (p.setStepc x).tiers = p.tiers := rfl
@[simp] theorem setStepc_place (p : Pkg) (x : StepCtl) : (p.setStepc x).place = p.place := rfl
@[simp] theorem setStepc_memsys (p : Pkg) (x : StepCtl) : (p.setStepc x).memsys = p.memsys := rfl
@[simp] theorem setStepc_coh (p : Pkg) (x : StepCtl) : (p.setStepc x).coh = p.coh := rfl
@[simp] theorem setStepc_links (p : Pkg) (x : StepCtl) : (p.setStepc x).links = p.links := rfl
@[simp] theorem setStepc_host (p : Pkg) (x : StepCtl) : (p.setStepc x).host = p.host := rfl
@[simp] theorem setStepc_secure (p : Pkg) (x : StepCtl) : (p.setStepc x).secure = p.secure := rfl
@[simp] theorem setStepc_power (p : Pkg) (x : StepCtl) : (p.setStepc x).power = p.power := rfl
@[simp] theorem setStepc_can (p : Pkg) (x : StepCtl) : (p.setStepc x).can = p.can := rfl
@[simp] theorem setStepc_cfg (p : Pkg) (x : StepCtl) : (p.setStepc x).cfg = p.cfg := rfl
@[simp] theorem setStepc_wear (p : Pkg) (x : StepCtl) : (p.setStepc x).wear = p.wear := rfl
@[simp] theorem setStepc_boot (p : Pkg) (x : StepCtl) : (p.setStepc x).boot = p.boot := rfl
@[simp] theorem setStepc_supply (p : Pkg) (x : StepCtl) : (p.setStepc x).supply = p.supply := rfl
@[simp] theorem setStepc_ev (p : Pkg) (x : StepCtl) : (p.setStepc x).ev = p.ev := rfl
@[simp] theorem setStepc_failed (p : Pkg) (x : StepCtl) : (p.setStepc x).failed = p.failed := rfl
@[simp] theorem setStepc_free (p : Pkg) (x : StepCtl) : (p.setStepc x).free = p.free := rfl
@[simp] theorem setStepc_out (p : Pkg) (x : StepCtl) : (p.setStepc x).out = p.out := rfl

@[simp] theorem setWear_mtime (p : Pkg) (x : Wear) : (p.setWear x).mtime = p.mtime := rfl
@[simp] theorem setWear_dict (p : Pkg) (x : Wear) : (p.setWear x).dict = p.dict := rfl
@[simp] theorem setWear_mem (p : Pkg) (x : Wear) : (p.setWear x).mem = p.mem := rfl
@[simp] theorem setWear_eccPins (p : Pkg) (x : Wear) : (p.setWear x).eccPins = p.eccPins := rfl
@[simp] theorem setWear_checkBytes (p : Pkg) (x : Wear) : (p.setWear x).checkBytes = p.checkBytes := rfl
@[simp] theorem setWear_sramChk (p : Pkg) (x : Wear) : (p.setWear x).sramChk = p.sramChk := rfl
@[simp] theorem setWear_tiles (p : Pkg) (x : Wear) : (p.setWear x).tiles = p.tiles := rfl
@[simp] theorem setWear_flits (p : Pkg) (x : Wear) : (p.setWear x).flits = p.flits := rfl
@[simp] theorem setWear_qualified (p : Pkg) (x : Wear) : (p.setWear x).qualified = p.qualified := rfl
@[simp] theorem setWear_testFailed (p : Pkg) (x : Wear) : (p.setWear x).testFailed = p.testFailed := rfl
@[simp] theorem setWear_retired (p : Pkg) (x : Wear) : (p.setWear x).retired = p.retired := rfl
@[simp] theorem setWear_testPrev (p : Pkg) (x : Wear) : (p.setWear x).testPrev = p.testPrev := rfl
@[simp] theorem setWear_ledger (p : Pkg) (x : Wear) : (p.setWear x).ledger = p.ledger := rfl
@[simp] theorem setWear_stepc (p : Pkg) (x : Wear) : (p.setWear x).stepc = p.stepc := rfl
@[simp] theorem setWear_sched (p : Pkg) (x : Wear) : (p.setWear x).sched = p.sched := rfl
@[simp] theorem setWear_loader (p : Pkg) (x : Wear) : (p.setWear x).loader = p.loader := rfl
@[simp] theorem setWear_engines (p : Pkg) (x : Wear) : (p.setWear x).engines = p.engines := rfl
@[simp] theorem setWear_disp (p : Pkg) (x : Wear) : (p.setWear x).disp = p.disp := rfl
@[simp] theorem setWear_tiers (p : Pkg) (x : Wear) : (p.setWear x).tiers = p.tiers := rfl
@[simp] theorem setWear_place (p : Pkg) (x : Wear) : (p.setWear x).place = p.place := rfl
@[simp] theorem setWear_memsys (p : Pkg) (x : Wear) : (p.setWear x).memsys = p.memsys := rfl
@[simp] theorem setWear_coh (p : Pkg) (x : Wear) : (p.setWear x).coh = p.coh := rfl
@[simp] theorem setWear_links (p : Pkg) (x : Wear) : (p.setWear x).links = p.links := rfl
@[simp] theorem setWear_host (p : Pkg) (x : Wear) : (p.setWear x).host = p.host := rfl
@[simp] theorem setWear_secure (p : Pkg) (x : Wear) : (p.setWear x).secure = p.secure := rfl
@[simp] theorem setWear_power (p : Pkg) (x : Wear) : (p.setWear x).power = p.power := rfl
@[simp] theorem setWear_can (p : Pkg) (x : Wear) : (p.setWear x).can = p.can := rfl
@[simp] theorem setWear_cfg (p : Pkg) (x : Wear) : (p.setWear x).cfg = p.cfg := rfl
@[simp] theorem setWear_boot (p : Pkg) (x : Wear) : (p.setWear x).boot = p.boot := rfl
@[simp] theorem setWear_supply (p : Pkg) (x : Wear) : (p.setWear x).supply = p.supply := rfl
@[simp] theorem setWear_ev (p : Pkg) (x : Wear) : (p.setWear x).ev = p.ev := rfl
@[simp] theorem setWear_failed (p : Pkg) (x : Wear) : (p.setWear x).failed = p.failed := rfl
@[simp] theorem setWear_free (p : Pkg) (x : Wear) : (p.setWear x).free = p.free := rfl
@[simp] theorem setWear_out (p : Pkg) (x : Wear) : (p.setWear x).out = p.out := rfl

@[simp] theorem setHost_host (p : Pkg) (x : HostUnit) : (p.setHost x).host = x := rfl
@[simp] theorem setEv_ev (p : Pkg) (x : Events) : (p.setEv x).ev = x := rfl
@[simp] theorem setCan_can (p : Pkg) (x : Can) : (p.setCan x).can = x := rfl
@[simp] theorem setCfg_cfg (p : Pkg) (x : Cfg) : (p.setCfg x).cfg = x := rfl
@[simp] theorem setPower_power (p : Pkg) (x : Power) : (p.setPower x).power = x := rfl
@[simp] theorem setSupply_supply (p : Pkg) (x : Supply) : (p.setSupply x).supply = x := rfl
@[simp] theorem setBoot_boot (p : Pkg) (x : Boot) : (p.setBoot x).boot = x := rfl
@[simp] theorem setSched_sched (p : Pkg) (x : Sched) : (p.setSched x).sched = x := rfl
@[simp] theorem setStepc_stepc (p : Pkg) (x : StepCtl) : (p.setStepc x).stepc = x := rfl
@[simp] theorem setWear_wear (p : Pkg) (x : Wear) : (p.setWear x).wear = x := rfl
@[simp] theorem emit_out (p : Pkg) (o : Out) : (p.emit o).out = p.out ++ [o] := rfl
@[simp] theorem raise_ev (p : Pkg) (c u a : Nat) : (p.raise c u a).ev =
    { p.ev with inFlight := p.ev.inFlight ++ [⟨c, severity c, u, p.mtime / 128 % 2 ^ 48, a % 2 ^ 48⟩] } := rfl
@[simp] theorem setReg_shadow (p : Pkg) (k v : Nat) : (p.setReg k v).dict.shadow = p.dict.shadow := rfl
@[simp] theorem setReg_snap (p : Pkg) (k v : Nat) : (p.setReg k v).dict.snap = p.dict.snap := rfl
@[simp] theorem setReg_staged (p : Pkg) (k v : Nat) : (p.setReg k v).dict.staged = p.dict.staged := rfl
@[simp] theorem setShadow_act (p : Pkg) (k v : Nat) : (p.setShadow k v).dict.act = p.dict.act := rfl

/-! ## The state around a package -/

@[simp] theorem settle_pkg (s : State) (p : Pkg) : (s.settle p).pkg = p := rfl
@[simp] theorem settle_pending (s : State) (p : Pkg) : (s.settle p).pending = s.pending := rfl
@[simp] theorem settle_lands (s : State) (p : Pkg) : (s.settle p).lands = landsOf p := rfl
@[simp] theorem idle_pending (s : State) : (idle s).pending = s.pending := rfl
@[simp] theorem idle_lands (s : State) : (idle s).lands = s.lands := rfl
@[simp] theorem go_eq (s : State) (f : Pkg → Pkg) : s.go f = .next (s.settle (f s.pkg)) := rfl

/-- A command of a plane answers a next state: with its effect where the plane runs, with none where it does not. -/
theorem on_next (s : State) (pl : Plane) (f : Pkg → Pkg) :
    s.on pl f = .next (s.settle (if s.pkg.runs pl then f s.pkg else s.pkg)) := rfl

theorem on_runs (s : State) (pl : Plane) (f : Pkg → Pkg) (h : s.pkg.runs pl = true) : s.on pl f = .next (s.settle (f s.pkg)) := by
  rw [on_next, if_pos h]

theorem on_stands (s : State) (pl : Plane) (f : Pkg → Pkg) (h : s.pkg.runs pl = false) : s.on pl f = .next (s.settle s.pkg) := by
  rw [on_next, h]; rfl

/-- A slot command answers a next state where its encoding and limits hold, and then only the package and the lands change. -/
theorem slot_next (s : State) (m : String) (f : Pkg → Pkg) : s.slot m true true f = s.on .data f := rfl

/-- What a slot command that answers a next state has done. -/
theorem slot_cases (s t : State) (m : String) (ok lim : Bool) (f : Pkg → Pkg) (h : s.slot m ok lim f = .next t) :
    ok = true ∧ lim = true ∧ t = s.settle (if s.pkg.runs .data then f s.pkg else s.pkg) := by
  unfold State.slot at h
  cases ok <;> cases lim <;> simp_all [on_next]

end Sys2Proof.Machine
end

