-- ==== Sys2Proof/Laws/Ops.lean ====
section
/-! SUPPORT. Laws/Ops.lean: everything that each shared operation of Machine/Ops.lean does. -/
namespace Sys2Proof.Machine

/-! ## Dictionary registers -/

@[simp] theorem reg_setReg_self (p : Pkg) (k v : Nat) : (p.setReg k v).reg k = v := SMap.at_put_self 0 k v p.dict.act

theorem reg_setReg_other (p : Pkg) (j k v : Nat) (h : j ≠ k) : (p.setReg k v).reg j = p.reg j :=
  SMap.at_put_other 0 j k v p.dict.act h

@[simp] theorem shadowReg_setShadow_self (p : Pkg) (k v : Nat) : (p.setShadow k v).shadowReg k = v :=
  SMap.at_put_self 0 k v p.dict.shadow

theorem shadowReg_setShadow_other (p : Pkg) (j k v : Nat) (h : j ≠ k) : (p.setShadow k v).shadowReg j = p.shadowReg j :=
  SMap.at_put_other 0 j k v p.dict.shadow h

@[simp] theorem reg_setShadow (p : Pkg) (j k v : Nat) : (p.setShadow k v).reg j = p.reg j := rfl
@[simp] theorem shadowReg_setReg (p : Pkg) (j k v : Nat) : (p.setReg k v).shadowReg j = p.shadowReg j := rfl
@[simp] theorem reg_raise (p : Pkg) (c u a k : Nat) : (p.raise c u a).reg k = p.reg k := rfl
@[simp] theorem reg_emit (p : Pkg) (o : Out) (k : Nat) : (p.emit o).reg k = p.reg k := rfl
@[simp] theorem reg_setTile (p : Pkg) (t : Nat) (x : Tile) (k : Nat) : (p.setTile t x).reg k = p.reg k := rfl
@[simp] theorem reg_setPort (p : Pkg) (i : Nat) (x : PortSt) (k : Nat) : (p.setPort i x).reg k = p.reg k := rfl
@[simp] theorem reg_setQueue (p : Pkg) (q : Nat) (x : QueueSt) (k : Nat) : (p.setQueue q x).reg k = p.reg k := rfl
@[simp] theorem reg_setHost (p : Pkg) (x : HostUnit) (k : Nat) : (p.setHost x).reg k = p.reg k := rfl
@[simp] theorem reg_setEv (p : Pkg) (x : Events) (k : Nat) : (p.setEv x).reg k = p.reg k := rfl
@[simp] theorem reg_setCan (p : Pkg) (x : Can) (k : Nat) : (p.setCan x).reg k = p.reg k := rfl
@[simp] theorem reg_setCfg (p : Pkg) (x : Cfg) (k : Nat) : (p.setCfg x).reg k = p.reg k := rfl
@[simp] theorem reg_setPower (p : Pkg) (x : Power) (k : Nat) : (p.setPower x).reg k = p.reg k := rfl
@[simp] theorem reg_setSupply (p : Pkg) (x : Supply) (k : Nat) : (p.setSupply x).reg k = p.reg k := rfl
@[simp] theorem reg_setBoot (p : Pkg) (x : Boot) (k : Nat) : (p.setBoot x).reg k = p.reg k := rfl
@[simp] theorem reg_setSched (p : Pkg) (x : Sched) (k : Nat) : (p.setSched x).reg k = p.reg k := rfl
@[simp] theorem reg_setStepc (p : Pkg) (x : StepCtl) (k : Nat) : (p.setStepc x).reg k = p.reg k := rfl

/-! ## Units -/

@[simp] theorem tile_setTile_self (p : Pkg) (t : Nat) (x : Tile) : (p.setTile t x).tile t = x :=
  SMap.at_put_self Tile.reset t x p.tiles

theorem tile_setTile_other (p : Pkg) (t u : Nat) (x : Tile) (h : u ≠ t) : (p.setTile t x).tile u = p.tile u :=
  SMap.at_put_other Tile.reset u t x p.tiles h

@[simp] theorem port_setPort_self (p : Pkg) (i : Nat) (x : PortSt) : (p.setPort i x).port i = x :=
  SMap.at_put_self PortSt.reset i x p.links.ports

theorem port_setPort_other (p : Pkg) (i j : Nat) (x : PortSt) (h : j ≠ i) : (p.setPort i x).port j = p.port j :=
  SMap.at_put_other PortSt.reset j i x p.links.ports h

@[simp] theorem queue_setQueue_self (p : Pkg) (q : Nat) (x : QueueSt) : (p.setQueue q x).queue q = x :=
  SMap.at_put_self QueueSt.reset q x p.host.queues

theorem queue_setQueue_other (p : Pkg) (q r : Nat) (x : QueueSt) (h : r ≠ q) : (p.setQueue q x).queue r = p.queue r :=
  SMap.at_put_other QueueSt.reset r q x p.host.queues h

@[simp] theorem tile_setReg (p : Pkg) (k v t : Nat) : (p.setReg k v).tile t = p.tile t := rfl
@[simp] theorem tile_raise (p : Pkg) (c u a t : Nat) : (p.raise c u a).tile t = p.tile t := rfl
@[simp] theorem port_setReg (p : Pkg) (k v i : Nat) : (p.setReg k v).port i = p.port i := rfl
@[simp] theorem port_raise (p : Pkg) (c u a i : Nat) : (p.raise c u a).port i = p.port i := rfl
@[simp] theorem queue_setReg (p : Pkg) (k v q : Nat) : (p.setReg k v).queue q = p.queue q := rfl
@[simp] theorem queue_raise (p : Pkg) (c u a q : Nat) : (p.raise c u a).queue q = p.queue q := rfl
@[simp] theorem byte_setReg (p : Pkg) (k v a : Nat) : (p.setReg k v).byte a = p.byte a := rfl
@[simp] theorem byte_raise (p : Pkg) (c u a b : Nat) : (p.raise c u a).byte b = p.byte b := rfl
@[simp] theorem byte_setTile (p : Pkg) (t : Nat) (x : Tile) (a : Nat) : (p.setTile t x).byte a = p.byte a := rfl

/-! ## Counters, refusals, owners -/

theorem bump_reg_self (p : Pkg) (k n : Nat) : (p.bump k n).reg k = min (p.reg k + n) (2 ^ 32 - 1) := reg_setReg_self p k _

theorem bump_reg_other (p : Pkg) (j k n : Nat) (h : j ≠ k) : (p.bump k n).reg j = p.reg j := reg_setReg_other p j k _ h

/-- A refusal writes no object but the two that record it. -/
theorem refuse_reg_other (p : Pkg) (pt : Path) (k a j : Nat) (h1 : j ≠ O.dictLastError) (h2 : j ≠ O.dictLastAbort) :
    (p.refuse pt k a).reg j = p.reg j := by
  have h : ((p.setReg O.dictLastError (pt.num * 2 ^ 30 + k)).setReg O.dictLastAbort a).reg j = p.reg j := by
    rw [reg_setReg_other _ _ _ _ h2, reg_setReg_other _ _ _ _ h1]
  cases pt <;> exact h

/-- What a refusal records. -/
theorem refuse_records (p : Pkg) (pt : Path) (k a : Nat) :
    (p.refuse pt k a).reg O.dictLastAbort = a ∧ (p.refuse pt k a).reg O.dictLastError = pt.num * 2 ^ 30 + k := by
  have h1 : ((p.setReg O.dictLastError (pt.num * 2 ^ 30 + k)).setReg O.dictLastAbort a).reg O.dictLastAbort = a :=
    reg_setReg_self _ _ _
  have h2 : ((p.setReg O.dictLastError (pt.num * 2 ^ 30 + k)).setReg O.dictLastAbort a).reg O.dictLastError = pt.num * 2 ^ 30 + k := by
    rw [reg_setReg_other _ _ _ _ (by decide), reg_setReg_self]
  cases pt <;> exact ⟨h1, h2⟩

/-- A claim of a free field, and its release, are the one change of an accepted owner write. -/
theorem ownerWrite_accepted (p : Pkg) (w : Writer) (k v e u : Nat) (h : p.reg k = 0 ∨ v = 0) :
    p.ownerWrite w k v e u = p.setReg k v := by
  by_cases hv : v = 0
  · subst hv
    simp [Pkg.ownerWrite, claimOf]
  · simp [Pkg.ownerWrite, claimOf, hv, h.resolve_right hv]

/-- A second claimant changes no owner field. -/
theorem ownerWrite_refused (p : Pkg) (pt : Path) (k v e u : Nat) (h1 : p.reg k ≠ 0) (h2 : v ≠ 0) (h3 : p.reg k ≠ v) :
    p.ownerWrite (.path pt) k v e u = (p.refuse pt k abOwner).raise e u v := by
  simp [Pkg.ownerWrite, claimOf, h1, h2, h3]

/-- A package that has failed stays as it is. -/
theorem declareFailed_again (p : Pkg) (h : p.failed = true) : p.declareFailed = p := by simp [Pkg.declareFailed, h]

end Sys2Proof.Machine
end

