-- ==== Sys2Proof/Laws/Memory.lean ====
section
/-! SUPPORT. Laws/Memory.lean: every memory operation keeps the canonical form, and a read through the word code changes no byte. -/
namespace Sys2Proof.Machine

/-! ## Reads change no byte -/

@[simp] theorem mem_setReg (p : Pkg) (k v : Nat) : (p.setReg k v).mem = p.mem := rfl
@[simp] theorem mem_raise (p : Pkg) (c u a : Nat) : (p.raise c u a).mem = p.mem := rfl
@[simp] theorem mem_bump (p : Pkg) (k n : Nat) : (p.bump k n).mem = p.mem := rfl

@[simp] theorem addCandidate_mem (p : Pkg) (q : Place) : (p.addCandidate q).mem = p.mem := by
  unfold Pkg.addCandidate
  dsimp only
  split
  · rfl
  · split <;> rfl

@[simp] theorem countCorrection_mem (p : Pkg) (q : Place) (n : Nat) : (p.countCorrection q n).mem = p.mem := by
  unfold Pkg.countCorrection
  dsimp only
  repeat' split
  all_goals simp

@[simp] theorem countUncorrectable_mem (p : Pkg) (a : Nat) (w : PWord) : (p.countUncorrectable a w).mem = p.mem := by
  simp [Pkg.countUncorrectable]

@[simp] theorem queueCorrection_mem (p : Pkg) (a : Nat) (w : PWord) : (p.queueCorrection a w).mem = p.mem := by
  unfold Pkg.queueCorrection
  split <;> rfl

@[simp] theorem memCheck_mem (p : Pkg) (a : Nat) : (p.memCheck a).2.mem = p.mem := by
  unfold Pkg.memCheck
  dsimp only
  split <;> simp

@[simp] theorem memRead_mem (p : Pkg) (a : Nat) : (p.memRead a).2.mem = p.mem := by
  unfold Pkg.memRead
  dsimp only
  split <;> simp

@[simp] theorem refuse_mem (p : Pkg) (pt : Path) (k a : Nat) : (p.refuse pt k a).mem = p.mem := by
  cases pt <;> rfl

@[simp] theorem anyRead_mem (p : Pkg) (a : Nat) : (p.anyRead a).2.mem = p.mem := by
  unfold Pkg.anyRead
  split <;> simp

theorem anyReads_mem (n : Nat) : ∀ (p : Pkg) (a : Nat), (p.anyReads a n).2.mem = p.mem := by
  induction n with
  | zero => exact fun _ _ => rfl
  | succ n ih => exact fun p a => (ih _ _).trans (anyRead_mem p a)

/-! ## Writes keep the form -/

theorem memWrite_wf (p : Pkg) (a : Nat) (v : Option W128) (h : Memory.wf p.mem = true) : Memory.wf (p.memWrite a v).mem = true := by
  unfold Pkg.memWrite
  split
  · exact setWord_wf p a _ h
  · rw [mem_bump]; exact setWord_wf p a _ h

theorem memMerge_wf (p : Pkg) (a : Nat) (m : List Bool) (v : Option W128) (h : Memory.wf p.mem = true) :
    Memory.wf (p.memMerge a m v).mem = true := by
  unfold Pkg.memMerge
  split
  · exact memWrite_wf p a v h
  · split
    · cases v with
      | none => exact memWrite_wf p a none h
      | some n =>
        have hr : Memory.wf (p.memCheck a).2.mem = true := by rw [memCheck_mem]; exact h
        generalize hm : p.memCheck a = r at hr
        obtain ⟨o, q⟩ := r
        cases o with
        | none => rw [mem_raise]; exact memWrite_wf q a none hr
        | some o => exact memWrite_wf q a _ hr
    · exact h

theorem sramMerge_wf (p : Pkg) (a : Nat) (m : List Bool) (v : Option W128) (h : Memory.wf p.mem = true) :
    Memory.wf (p.sramMerge a m v).mem = true := by
  unfold Pkg.sramMerge
  repeat' split
  all_goals first
    | exact setWord_wf p a _ h
    | exact h

theorem anyMerge_wf (p : Pkg) (a : Nat) (m : List Bool) (v : Option W128) (h : Memory.wf p.mem = true) :
    Memory.wf (p.anyMerge a m v).mem = true := by
  unfold Pkg.anyMerge
  split
  · exact memMerge_wf p a m v h
  · exact memMerge_wf p a m v h
  · exact sramMerge_wf p a m v h
  · exact h
  · split
    · rw [Pkg.refusePoison, refuse_mem]; exact h
    · exact h
  · exact h

theorem anyWriteBytes_wf (p : Pkg) (a : Nat) (l : List Byte) (h : Memory.wf p.mem = true) :
    Memory.wf (p.anyWriteBytes a l).mem = true := by
  unfold Pkg.anyWriteBytes
  generalize List.range _ = r
  induction r generalizing p with
  | nil => exact h
  | cons i r ih => exact ih _ (anyMerge_wf p _ _ _ h)

/-- A whole-word write is read back, and leaves every byte outside its word. -/
theorem memWrite_byte_other (p : Pkg) (a c : Nat) (v : Option W128) (h : c < a ∨ a + 16 ≤ c) : (p.memWrite a v).byte c = p.byte c := by
  unfold Pkg.memWrite
  split
  · exact setWord_byte_other p a c _ h
  · rw [Pkg.bump, byte_setReg]; exact setWord_byte_other p a c _ h

end Sys2Proof.Machine
end

