-- ==== Sys2Proof/Tests/Slice0.lean ====
section
/-! SUPPORT. Tests/Slice0.lean: ill-formed commands that the check refuses, the meanings of a few commands on small states, and for every
statement with hypotheses the states and operands that meet them. -/
namespace Sys2Proof.Tests

open Sys2Proof.Machine

set_option Elab.async false

/-! ## Small states -/

/-- A package at reset but for its dictionary, which lists only these objects, and what f changes. -/
def pk (regs : SMap Nat) (f : Pkg → Pkg := id) : Pkg := f { Pkg.reset with dict := ⟨regs, [], [], []⟩ }

/-- The machine with that package, and nothing waiting. -/
def st (regs : SMap Nat) (f : Pkg → Pkg := id) : State := ⟨[], pk regs f, ⟨true, true, none, false, false, false⟩⟩

/-- The machine with one tile that is not as at reset. -/
def onTile (n : Nat) (x : Tile) (regs : SMap Nat := []) : State := st regs fun p => { p with tiles := [(n, x)] }

/-- A tile whose matrix descriptor d holds these words. -/
def withMd (d : Nat) (l : List W32) (mx : Matrix := Matrix.reset) : Tile :=
  { Tile.reset with md := l.mapIdx fun k w => (16 * d + k, w), mx := mx }

/-- A matrix descriptor of 128 FP4 columns at address 0, with accumulator rows from r. -/
def rowsFrom (r : Nat) : List W32 := [0, 0, 512, BitVec.ofNat 32 (r * 65536 + 128), 0]

/-- An image of one cycle of 100 beats with one step, of one package that is its own time master. -/
def img : Image where
  addr := 0
  len := 0
  imageId := 7
  seed := 0
  securityVersion := 0
  aclkDiv := 4
  cycleLen := 100
  stepsPerCycle := 1
  slipHorizon := 1000
  slipQuantum := 10
  waitSlack := 0
  holdLimit := 50
  variant := ⟨0, 0, 1, 1, 1⟩
  parts := []
  prog := [⟨0, 0, false, false, false, true⟩, ⟨60, 1, false, false, false, false⟩]
  cvotes := [9]
  placement := []
  timeParent := 0xFF
  wrapPorts := 0
  routes := []
  scaleBase := 0
  scaleInit := []
  decls := []
  aScaleBase := 0
  aScaleInit := []
  chans := []
  buckets := []
  bucketSteps := []
  sections := []
  groups := []
  initialPlace := []
  stages := []
  moveBuffer := 0
  placeBudget := 0
  remapPkgs := []
  remapLinks := []
  remapGuard := 0
  sec := none

/-- A machine whose image is x, at position 0 and in this image state, with the objects of r besides. -/
def onImage (x : Image) (state : Nat) (f : Pkg → Pkg := id) (r : SMap Nat := []) : State :=
  st (((r.ins O.imageState state).ins O.logicalPosition 0)) fun p => f { p with loader := { p.loader with image := some x } }

/-- A pair whose first part is known. -/
theorem fst_eq {a b : Type} {x : a × b} {y : a} (h : x.1 = y) : x = (y, x.2) := by cases x; simp_all

/-! ## Ill-formed commands, one for each kind of check -/

def ms (acc tr : Bool) (part : BitVec 2) (count : BitVec 16) : MSlot := ⟨0, 0, false, acc, part, tr, count, 0⟩
def vf (vb vc : Fin 32) : VRegForm := ⟨0, 0, 0, vb, vc, 0, false, 0⟩

theorem test_matrix_slot_fields_refused :
    (Instr.mnop (ms true false 0 0)).wf = false ∧ (Instr.mdr (ms false true 0 1)).wf = false ∧ (Instr.mclr (ms false false 1 1)).wf = false ∧
      (Instr.mdv (ms false false 0 0xFFFF)).wf = false ∧ (Instr.mlw (ms false false 3 1)).wf = false ∧
      (Instr.mlw (ms true false 0 1)).wf = false ∧ (Instr.mws (ms false true 0 1)).wf = false ∧ (Instr.mwt (ms false true 0 1)).wf = false ∧
      (Instr.mflg (ms false false 0 1)).wf = false ∧ (Instr.mlw (ms false true 2 128)).wf = true := by decide

theorem test_vector_slot_fields_refused :
    (Instr.vadd (vf 1 1)).wf = false ∧ (Instr.vabs (vf 1 0)).wf = false ∧ (Instr.vcmp ⟨0, 1, 0, 0, 5, 0, 0⟩).wf = false ∧
      (Instr.vcmp ⟨0, 0, 0, 0, 1, 0, 0⟩).wf = false ∧ (Instr.vsel { vf 1 0 with mz := true }).wf = false ∧
      (Instr.vmand ⟨0, 0, 1, 1, 0, 0⟩).wf = false ∧ (Instr.vmnot ⟨0, 1, 1, 1, 0, 0⟩).wf = false ∧
      (Instr.vld ⟨0, 0, 0, 0, false, 1, 0⟩).wf = false ∧ (Instr.vnst ⟨0, 0, 0, 0, false, 2, 0⟩).wf = false ∧
      (Instr.vldq ⟨0, 0, 1, 0, false, 0, 0⟩).wf = false ∧ (Instr.vrst ⟨0, 1, 0, 0, false, 0, 0⟩).wf = false ∧
      (Instr.vred ⟨0, 0, 0, 0, 1, 0, 0⟩).wf = false ∧ (Instr.vphr ⟨0, 0, 0xFFFF, 0⟩).wf = false ∧
      (Instr.vfma (vf 31 31)).wf = true := by decide

theorem test_control_and_move_fields_refused :
    (Instr.carr 0 1 0 0xFFFF).wf = false ∧ (Instr.cloop 0 0 0xFFFF).wf = false ∧ (Instr.cvote 0 0 0 0).wf = false ∧
      (Instr.xsend ⟨0, 0, 0xFFFF⟩).wf = false ∧ (Instr.xdsp ⟨0, 0, 0xFFFF⟩).wf = false ∧ (Instr.xsend ⟨0, 63, 1⟩).wf = true := by
  decide

theorem test_numbers_beyond_their_field_refused :
    (Instr.scaleQuery .core (2 ^ 64)).wf = false ∧ (Instr.sqDoorbell .hostBar 0 (2 ^ 32)).wf = false ∧
      (Instr.rdOwn (2 ^ 40)).wf = false ∧ (Instr.nmtStart 128).wf = false ∧ (Instr.pllUnlock (.other 50)).wf = false ∧
      (Instr.notificationWrite 1024).wf = false ∧ (Instr.swapRefusal ⟨⟨0, 4096, 0⟩, 0⟩).wf = false ∧
      (Instr.voteRecord ⟨0, 0, 0⟩ ⟨0, 0, 5, 0, 0, 0, 0⟩).wf = false ∧ (Instr.usdoRequest (.read 65536 0)).wf = false ∧
      (Instr.failureNotice ⟨0, 0, 0⟩ 65536 0 0).wf = false ∧ (Instr.identityFlit 0 0 12 0).wf = false := by decide

theorem test_lengths_refused :
    (Instr.coreLoad 0 0 ⟨0, false⟩).wf = false ∧ (Instr.coreStore 0 (2 ^ 46 - 1) ⟨[0, 0], .plain⟩).wf = false ∧ (Instr.trackedWrite 0 []).wf = false ∧
      (Instr.ingestWrite 0 ⟨[], false⟩).wf = false ∧ (Instr.commandWindowWrite 0 ⟨[], false⟩).wf = false ∧
      (Instr.tileSramWindowAccess (.read 0 0)).wf = false ∧ (Instr.bistComplete 0 [1, 1]).wf = false ∧
      (Instr.coherentRequestArrival [0, 0] 0).wf = false ∧ (Instr.copyFromHost 0 ⟨4, []⟩).wf = false ∧
      (Instr.codewordReceive 0 ⟨0, some [], 0, []⟩).wf = false ∧ (Instr.protectionDelta ⟨0, 32, []⟩).wf = false ∧
      (Instr.thermalSample [] []).wf = false ∧ (Instr.pwrOkRise [21]).wf = false ∧ (Instr.eventRaise 0).wf = false := by decide

/-! ## The worked examples of the spec's chapters -/

/-- Chapter 2's physical tile (3, 2, 9), with spare_col 5 for its row: logical tile 164, and its window. -/
theorem test_tile_numbers :
    (pk [(O.spareCol + 14, 5)]).logicalTile 191 = 164 ∧ (pk [(O.spareCol + 14, 5)]).physTile 164 = 191 ∧
      sramAddr 164 0 = 0x0E0052000000 := by decide +kernel

/-- Chapter 3's block under k = −5: its fine code, and the codes of 0.09, −0.0004, 0.000003 and 0.0000002 in E4M3. -/
theorem test_store_of_a_block :
    (blockScale 0 (-5) [f32 0x3DB851EC, f32 0xB9D1B717, f32 0x3649539C, f32 0x3456BF95]).code = 0x22 ∧
      ([0x3DB851EC, 0xB9D1B717, 0x3649539C, 0x3456BF95].map fun w => (encodeElem 0 (-5) 0x22 true .rne (f32 w)).code) =
        [0x7C, 0xBD, 0x06, 0x00] := by decide +kernel

/-- Chapter 4's group of E4M3 codes: streamed, stored. -/
def fp8Group : List (Nat × Nat) := [(0x3F, 0x3F), (0x09, 0x21), (0x83, 0x38), (0x08, 0x08)]
def groupProducts (f : Nat → FVal → FVal) : List FVal := fp8Group.map fun e => (f e.1 (decodeElem 0 e.1)).mul (f e.2 (decodeElem 0 e.2))

/-- Chapter 4: the fast path at 2^20, to nearest, and stochastically from u = 0xE8000000 on. -/
theorem test_fast_group :
    accUpdate .rne 0x49800000 (groupSum (gridBits 0) (groupProducts fun _ v => v)) = 0x4980001C ∧
      accUpdate (.stoch 0xE8000000) 0x49800000 (groupSum (gridBits 0) (groupProducts fun _ v => v)) = 0x4980001D ∧
      accUpdate (.stoch 0xE7FFFFFF) 0x49800000 (groupSum (gridBits 0) (groupProducts fun _ v => v)) = 0x4980001C := by decide +kernel

/-- Chapter 4: the same group at 1000 in the fast, strict and M2 modes. -/
theorem test_group_in_every_mode :
    accUpdate .rne 0x447A0000 (groupSum (gridBits 0) (groupProducts fun _ v => v)) = 0x447AE0C0 ∧
      refDot (fp8Group.map fun e => toF32 .rne (decodeElem 0 e.1)) (fp8Group.map fun e => toF32 .rne (decodeElem 0 e.2)) 0x447A0000 =
        0x447AE0CC ∧
      m2Update 0x447A0000 (groupSum 8 (groupProducts (flushElem 0))) = 0x447AE100 := by decide +kernel

/-- Chapter 4: the parts of 0x3EAAAAAB under P = 3. -/
theorem test_split_of_a_third :
    [0, 1, 2].map (fun k => bf16Code (splitPart 3 k (f32 0x3EAAAAAB))) = [0x3EAA, 0x3AAA, 0x36AB] := by decide +kernel

/-- Chapter 5: three SUM accumulations into a cleared context, and their fold. -/
theorem test_sum_and_fold :
    let v (l : List W32) : VVal := ⟨l, []⟩
    (((Ctx.reset.accumulate 0 (v [0x4B800000, 0x40000000]) (v []) 3).accumulate 0 (v [0x3F800000]) (v []) 1).accumulate 0
      (v [0x3F800000]) (v []) 1).fold = 0x4B800001 := by decide +kernel

/-- Chapter 7: the narrowed update and the master addition, for s = 0 and s = 10. -/
theorem test_master_addition :
    (encodeElem 7 0 0x30 false .rne (f32 0x34A10FB0)).code = 5 ∧
      fFma (toF32 .rne (decodeElem 7 5)) 0x3F800000 0x3F800000 = 0x3F800002 ∧
      (encodeElem 7 0 0x30 false .rne (f32 (fMul 0x34A10FB0 0x44800000))).code = 0x0D08 ∧
      fFma (toF32 .rne (decodeElem 7 0x0D08)) 0x3A800000 0x3F800000 = 0x3F800003 := by decide +kernel

/-- Chapter 8's ring at element e: quantised values, the tie of the scale step, and a hop with its residues. -/
theorem test_ring_numbers :
    [0x3C23D70A, 0xBB449BA6, 0x3CA7EF9E].map (fun w => quantise w (-24)) = [167772, -50332, 343933] ∧
      quantise 0x3A83126F (-23) = 8389 ∧ rneDiv 461373 2 = 230686 ∧ leastShift [461373, 2826960896] 400 0 = 1 ∧
      residue [167772, 209715200] = 39902 ∧ residue [117440, 310378496] = 56641 ∧ residue [461373, 2826960896] = 45764 ∧
      residue [230686, 1413480448] = 55649 := by decide +kernel

/-- Chapter 9's fill of five tokens: the slots of the assignments, and the summary. -/
def fillTable : DispTable :=
  ⟨1, 2, 1, 0, 3, 0, 0, 5, 0, 1, 0, 0, 0, 0, 0, regionDesc [], regionDesc []⟩
def filled : FillOut :=
  let r (t : Nat) (e : List Nat) : RouteRec := ⟨t, e.length, false, e, [], false⟩
  fillRun fillTable [2, 1, 2] [r 0 [1, 0, 2], r 1 [1, 2, 0], r 2 [0, 1, 2], r 3 [0, 2, 1], r 4 []]
theorem test_fill_of_five_tokens :
    (List.range 10).map (fun i => filled.combMap.at 0 i) =
        [2 ^ 31 + 2, 2 ^ 31, 2 ^ 31 + 3, 2 ^ 31 + 1, 2 ^ 31 + 4, 0, 0, 0, 0, 0] ∧
      (filled.masked, filled.assigned, filled.overflows, filled.unfilled, filled.dropped) = (1, 5, 6, 3, 1) := by decide +kernel

/-- Chapter 10's two addresses. -/
theorem test_memory_places :
    placeOf 0x100000 = ⟨false, 0, 27, 2, 0, 256⟩ ∧ placeOf 0x10000100000 = ⟨true, 8, 1, 0, 5, 512⟩ := by decide +kernel

/-- Chapter 10: the syndrome of a flip of data bit 37, its repair, and the syndrome of the poison pattern. -/
theorem test_word_code_example :
    syndrome ⟨BitVec.ofNat 128 (2 ^ 37), 0⟩ = (2, 7, 1, 4) ∧ checkWord ⟨BitVec.ofNat 128 (2 ^ 37), 0⟩ = .corrected zeroWord 9 ∧
      syndrome poisonWord = (0, 0xE, 0xF, 0xF) ∧ checkWord poisonWord = .poison := by decide +kernel

/-- Chapter 16's tile: eight checkpoints, 52 days. -/
theorem test_wear_prediction : predict [10400, 10640, 10850, 11100, 11310, 11560, 11770, 12010] 15000 4 = 52 := by decide +kernel

/-- CRC-32C of "123456789", as R320 gives it; SHAKE256 of no bytes stands at `digest_of_nothing`. -/
theorem test_crc32c : crc32c (ascii "123456789") = 0xE3069283 := by decide +kernel

/-! ## One step -/

/-- What holds of the package after the command at the front of the queue. -/
def stepGives (c : Instr) (s : State) (f : Pkg → Bool) : Bool :=
  match step { s with pending := [c] } with
  | .next t => t.pending.isEmpty && f t.pkg
  | _ => false

/-- Tile 5 with 1.0 in lane 0 of v1, and 2.0 in lane 0 of v2. -/
def adding : State :=
  onTile 5 { Tile.reset with vec := (VecEng.reset.write 1 ⟨[0x3F800000], []⟩).write 2 ⟨[0x40000000], []⟩ }
theorem test_vadd : stepGives (.vadd ⟨5, 0, 1, 2, 0, 0, false, 0⟩) adding (fun p => ((p.tile 5).vec.read 0).lanes.getD 0 0 == 0x40400000) = true := by
  decide +kernel

theorem test_beat_advances_domain_beat :
    stepGives .beatBoundary (st [(O.domainBeat, 41)]) (fun p => p.reg O.domainBeat == 42) = true := by decide +kernel

/-- Chapter 0: revision_number (0x1018:03) stands at BAR0 offset 0x0040600C. -/
theorem test_mirror_offset : mirrorKey 0x40600C = 0x101803 := by decide

theorem test_core_store_to_tile_memory :
    stepGives (.coreStore 3 0x0E0052000003 ⟨[0xAB, 0xCD], .plain⟩) (st []) (fun p => (p.anyBytes 0x0E0052000003 2).1 == some [0xAB, 0xCD]) = true := by
  decide +kernel

/-- FAULT_N is low while error_register bit 0 is set. -/
theorem test_fault_land_follows : (match step { (st [(O.errorRegister, 1)]) with pending := [.heartbeat] } with
  | .next t => t.lands.faultN
  | _ => true) = false := by decide +kernel

/-! ## Words of the slots, written out from the encodings of the spec -/

/-- R40, R41: MWS of descriptor 63, register W1, acc, phase B, two rows; opcode 0x08 is reserved. -/
theorem test_matrix_words :
    decodeMatrixSlot 5 9 0b00010_111111_1_1_01_0_0000000000000010 = some (.mws ⟨5, 63, true, true, 1, false, 2, 9⟩) ∧
      decodeMatrixSlot 5 9 0b01000_000000_0_0_00_0_0000000000000000 = none := by decide +kernel

/-- R109, R110: a word of each form: VFMA, VNST, VRED, VPHR, VMAND, VCMP; bit 0 of the register form and opcode 0x2A are reserved. -/
theorem test_vector_words :
    decodeVectorSlot 5 9 0b000100_11111_00001_00010_00011_101_1_00 = some (.vfma ⟨5, 31, 1, 2, 3, 5, true, 9⟩) ∧
      decodeVectorSlot 5 9 0b100011_00111_111111_000000000_010_0_01 = some (.vnst ⟨5, 7, 63, 2, false, 1, 9⟩) ∧
      decodeVectorSlot 5 9 0b100110_11_01_0_11110_11101_00000_111_000 = some (.vred ⟨5, 3, 1, 30, 29, 7, 9⟩) ∧
      decodeVectorSlot 5 9 0b101000_11111_0000000000000010_00000 = some (.vphr ⟨5, 31, 2, 9⟩) ∧
      decodeVectorSlot 5 9 0b011110_00_111_00_110_00_101_00000_011_000 = some (.vmand ⟨5, 7, 6, 5, 3, 9⟩) ∧
      decodeVectorSlot 5 9 0b001001_00_001_11111_11110_00_101_111_000 = some (.vcmp ⟨5, 1, 31, 30, 5, 7, 9⟩) ∧
      decodeVectorSlot 5 9 0b000001_00000_00000_00000_00000_000_0_01 = none ∧
      decodeVectorSlot 5 9 0b101010_00000_00000_00000_00000_000_0_00 = none := by decide +kernel

/-- R135, R137: XSEND, CARR, CVOTE and CEND; and the bundle that holds a slot of each kind, control in its highest word. -/
theorem test_move_and_control_words :
    decodeMoveSlot 5 0b00001_111111_00000_0000000000000011 = some (.xsend ⟨5, 63, 3⟩) ∧
      decodeControlSlot 5 9 0b00010_1111_0000101_0000000000000100 = some (.carr 5 15 5 4) ∧
      decodeControlSlot 5 9 0b00101_111110_11111_11_00000000000000 = some (.cvote 5 62 31 3) ∧
      decodeBundle 5 9 (BitVec.ofNat 128 (0b00110 * 2 ^ 123 + 0b00011_000001_00000_0000000000000001 * 2 ^ 64 +
          0b000001_00010_00011_00100_00000_000_0_00 * 2 ^ 32 + 0b00110_000111_0_0_00_0_0000000000000100)) =
        some [.mclr ⟨5, 7, false, false, 0, false, 4, 9⟩, .vadd ⟨5, 2, 3, 4, 0, 0, false, 9⟩, .xput ⟨5, 1, 1⟩, .cend 5 9] := by
  decide +kernel

/-! ## States and operands that meet the hypotheses of the statements -/

/-! ## The queue and the memory -/

theorem witness_QueueIsFirstInFirstOut : State.reset.pending = [] ∧ ∃ t, step State.reset = .next t := ⟨rfl, _, rfl⟩

theorem witness_LandsFollowStateAtEveryStep : ∃ s t : State, s.LandsHold ∧ step s = .next t := ⟨st [], _, ⟨by decide, by decide⟩, rfl⟩

theorem witness_MemoryStaysCanonical : ∃ s t : State, s.MemoryCanonical ∧ step s = .next t := ⟨st [], _, rfl, rfl⟩

theorem witness_WordCodeCorrectsAndDetects :
    (∃ (i : Nat) (e : BitVec 4), i < 36 ∧ e ≠ 0) ∧
      ∃ (i j : Nat) (e f : BitVec 4), i < j ∧ j < 36 ∧ e ≠ 0 ∧ f ≠ 0 :=
  ⟨⟨35, 15, by decide⟩, ⟨34, 35, 15, 15, by decide⟩⟩

theorem witness_PoisonPassesThroughMemory : (∃ a : Nat, a % 16 = 0) ∧ ∃ a b : Nat, b < a ∨ a + 16 ≤ b :=
  ⟨⟨16, by decide⟩, ⟨16, 15, by decide⟩⟩

/-! ## The matrix slot -/

/-- A slot of tile 191 on descriptor 63. -/
def mslot (n : BitVec 16) : MSlot := ⟨191, 63, false, false, 0, false, n, 0⟩

/-- A stream of one row into row 5. -/
def oneStream : Stream :=
  ⟨false, false, [⟨[], [], false⟩], WReg.reset, 0, 0, 0, 0, false, false, false, 0, false, 5, 128, 0, 0, false, 0, 1, 137, 0, false⟩

theorem witness_MatrixTransfersIssue :
    (∃ (s : State) (a : MSlot), MatrixIssues .mlw a s) ∧
    (∃ (s : State) (a : MSlot), MatrixIssues .mws a s) ∧
    (∃ (s : State) (a : MSlot), MatrixIssues .mwt a s) ∧
    (∃ (s : State) (a : MSlot), MatrixIssues .mdr a s) ∧
    (∃ (s : State) (a : MSlot), MatrixIssues .mdv a s) ∧
    (∃ (s : State) (a : MSlot), MatrixIssues .mclr a s) :=
  ⟨⟨onTile 191 (withMd 63 (rowsFrom 0)), mslot 128, by unfold MatrixIssues MatrixAccepted MatrixFree; decide +kernel⟩,
    ⟨onTile 191 (withMd 63 (rowsFrom 1022)), mslot 2, by unfold MatrixIssues MatrixAccepted MatrixFree; decide +kernel⟩,
    ⟨onTile 191 (withMd 63 (rowsFrom 1022)), mslot 2, by unfold MatrixIssues MatrixAccepted MatrixFree; decide +kernel⟩,
    ⟨onTile 191 (withMd 63 (rowsFrom 1023)), mslot 1, by unfold MatrixIssues MatrixAccepted MatrixFree; decide +kernel⟩,
    ⟨onTile 191 (withMd 63 (rowsFrom 1023)), mslot 1, by unfold MatrixIssues MatrixAccepted MatrixFree; decide +kernel⟩,
    ⟨onTile 191 (withMd 63 (rowsFrom 0)), mslot 1024, by unfold MatrixIssues MatrixAccepted MatrixFree; decide +kernel⟩⟩

theorem witness_MatrixOtherSlotsAndEvents :
    (∃ (s : State) (a : MSlot), s.Runs .data ∧ ((s.landed a.t a.cyc).pkg.tile a.t.val).free = true ∧ Instr.wf (.mnop a) = true ∧ a.count ≠
      0) ∧
    (∃ (s : State) (a : MSlot), s.Runs .data ∧ (s.pkg.tile a.t.val).free = true ∧ Instr.wf (.mflg a) = true ∧ mdescOk (s.pkg.tile
      a.t.val).md a.desc.val = true ∧ modeOk (s.mdesc a) = true) ∧
    (∃ (s : State) (a : MSlot), s.Runs .data ∧ MatrixAccepted .mws a s ∧ MatrixFree a (s.atSlot a) ∧ interlocked ((s.atSlot a).mx a.t) .mws
      a (s.mdesc a) = true) ∧
    (∃ (s : State) (a : MSlot), s.Runs .data ∧ MatrixAccepted .mdr a s ∧ a.count = 0) ∧
    (∃ (s : State) (n : TileNo) (st : Stream) (rest : List Stream), s.Runs .data ∧ (s.mx n).inflight = st :: rest) ∧
    (∃ (s : State) (n : TileNo) (cyc : Nat) (op : MOp) (a : MSlot), s.Runs .data ∧ ((s.landed n cyc).mx n).held = some (op, a) ∧ a.cyc ≤
      cyc ∧ interlocked ((s.landed n cyc).mx n) op { a with cyc := cyc } (Sys2Proof.Machine.mdesc (s.pkg.tile n.val).md a.desc.val) =
      false) ∧
    (∃ (s : State), s.Runs .data) :=
  ⟨⟨st [], mslot 1, by decide +kernel⟩,
    ⟨st [], mslot 0, by decide +kernel⟩,
    ⟨onTile 191 (withMd 63 (rowsFrom 0) { Matrix.reset with pathBusy := 1 }), mslot 1, by unfold MatrixAccepted MatrixFree; decide +kernel⟩,
    ⟨st [], mslot 0, by unfold MatrixAccepted; decide +kernel⟩,
    ⟨onTile 191 { Tile.reset with mx := { Matrix.reset with inflight := [oneStream] } }, 191, _, _, by decide, rfl⟩,
    ⟨onTile 191 (withMd 63 (rowsFrom 0) { Matrix.reset with held := some (.mws, mslot 1), pathBusy := 7 }), 191, 7, .mws, mslot 1,
      by decide, rfl, by decide, by decide +kernel⟩,
    ⟨st [], by decide⟩⟩

theorem witness_SelfTestAndTileWindow :
    (∃ (s : State) (w : Writer) (d : DieNo) (v : Nat), s.Runs (writerPlane w) ∧ v ≤ 3 ∧ (s.pkg.reg (O.bistOwner + d.val) = 0 ∨ v = 0)) ∧
    (∃ (s : State) (pt : Path) (d : DieNo) (v : Nat), s.Runs (pathPlane pt) ∧ v ≤ 3 ∧ v ≠ 0 ∧ s.pkg.reg (O.bistOwner + d.val) ≠ 0 ∧
      s.pkg.reg (O.bistOwner + d.val) ≠ v) ∧
    (∃ (s : State) (pt : Path) (d : DieNo) (v : Nat), s.Runs (pathPlane pt) ∧ v ≤ 51 ∧ s.pkg.reg (O.bistOwner + d.val) = 3 ∧ (s.pkg.reg
      (O.tileState + (d.val * 52 + v)) = 1 ∨ s.pkg.reg (O.tileState + (d.val * 52 + v)) = 3)) ∧
    (∃ (s : State) (d : DieNo), s.Runs .control ∧ s.pkg.reg (O.bistOwner + d.val) ≠ 0) ∧
    (∃ (s : State) (a n : Nat), s.Runs .control ∧ 1 ≤ n ∧ tileBase ≤ a ∧ a + n ≤ tileBase + 192 * tileSize) ∧
    (∃ (s : State) (a : Nat) (l : List Byte), s.Runs .control ∧ tileBase ≤ a ∧ a + l.length ≤ tileBase + 192 * tileSize) ∧
    (∃ (s : State) (a : Nat) (l : List Byte), s.Runs .control ∧ tileBase + 192 * tileSize ≤ a ∧ a + l.length ≤ controlBase) :=
  ⟨⟨st [], .unit, 3, 3, by decide +kernel⟩,
    ⟨st [(O.bistOwner + 3, 1)], .canFd, 3, 3, by decide +kernel⟩,
    ⟨st [(O.bistOwner + 3, 3), (O.tileState + 207, 3)], .core, 3, 51, by decide +kernel⟩,
    ⟨st [(O.bistOwner + 3, 2)], 3, by decide +kernel⟩,
    ⟨st [], sramAddr 191 8388592, 16, by decide +kernel⟩,
    ⟨st [], sramAddr 191 15, [0, 0], by decide +kernel⟩,
    ⟨st [], sramAddr 192 0, [0], by decide +kernel⟩⟩

/-- A register form on the last registers. -/
def vreg : VRegForm := ⟨191, 31, 30, 29, 28, 7, false, 0⟩

def vdrain : VMemForm := ⟨191, 31, 0, 0, false, 0, 3⟩

/-- A tile with one phrase of one stage: VADD of input 0 and register 12. -/
def onePhrase : Tile :=
  { Tile.reset with pd := [(31 * 16, 1), (31 * 16 + 1, 0x80), (31 * 16 + 2, 0x0633_4000)] }

/-- That phrase after its one iteration. -/
def runOver : PhraseRun := ⟨31, 1, 1, [], [], [], 0, 0, 0, false, false⟩

theorem zero_read : readWord zeroWord = some 0 := by decide +kernel

/-- The registers of an engine at reset hold no poison. -/
theorem reset_clean (r : Nat) : (VecEng.reset.read r).poison = List.replicate 16 false := by
  have h : ∀ q, VecEng.reset.word r q = zeroWord := fun _ => rfl
  simp only [VecEng.read, h, zero_read]
  rfl

/-- Tile 191 of the package at position 0 waits for a bundle of the resident image. -/
def refetching : State :=
  onImage { img with parts := [⟨2, 1, 0, 0, 0, []⟩] } 4 fun p =>
    { p with tiles := [(191, { Tile.reset with seq := { Seqr.reset with refetch := some 5 } })] }

theorem witness_VectorLanes :
    (∃ (r : Nat) (x : VVal) (l : _), r < 32 ∧ x.lanes.length = 64 ∧ x.poison.length = 16 ∧ l < 64 ∧ x.poison.getD (l / 4) false = false) ∧
    (∃ (r : Nat) (x : VVal) (k : _), r < 32 ∧ x.lanes.length = 64 ∧ x.poison.length = 16 ∧ k ≠ r) ∧
    (∃ (s : State) (i : Instr) (a : VRegForm) (n : Nat) (f : W32 → W32 → W32 → W32) (lat : Nat), laneForm i = some (a, n, f, lat) ∧ i.wf =
      true ∧ VectorIssues i a.t a.cyc s ∧ (∀ r : Fin 32, ((s.vec a.t).read r.val).poison = List.replicate 16 false)) :=
  ⟨⟨31, VVal.const 0, 63, by decide +kernel⟩,
    ⟨31, VVal.const 0, 30, by decide +kernel⟩,
    ⟨st [], .vfma vreg, vreg, 3, _, 4, rfl, rfl, by unfold VectorIssues; decide +kernel, fun r => reset_clean r.val⟩⟩

theorem witness_VectorSelectAndMaskCommands :
    (∃ (s : State) (a : VRegForm), Instr.wf (.vsel a) = true ∧ VectorIssues (.vsel a) a.t a.cyc s ∧ (∀ r : Fin 32, ((s.vec a.t).read
      r.val).poison = List.replicate 16 false)) ∧
    (∃ (s : State) (a : VRegForm), Instr.wf (.vperm a) = true ∧ VectorIssues (.vperm a) a.t a.cyc s ∧ (∀ r : Fin 32, ((s.vec a.t).read
      r.val).poison = List.replicate 16 false)) ∧
    (∃ (s : State) (a : VCmpForm), Instr.wf (.vcmp a) = true ∧ VectorIssues (.vcmp a) a.t a.cyc s ∧ (∀ r : Fin 32, ((s.vec a.t).read
      r.val).poison = List.replicate 16 false)) ∧
    (∃ (s : State) (a : VMaskForm), Instr.wf (.vmand a) = true ∧ VectorIssues (.vmand a) a.t a.cyc s) ∧
    (∃ (s : State) (a : VMaskForm), Instr.wf (.vmor a) = true ∧ VectorIssues (.vmor a) a.t a.cyc s) ∧
    (∃ (s : State) (a : VMaskForm), Instr.wf (.vmnot a) = true ∧ VectorIssues (.vmnot a) a.t a.cyc s) :=
  ⟨⟨st [], { vreg with vc := 0 }, rfl, by unfold VectorIssues; decide +kernel, fun r => reset_clean r.val⟩,
    ⟨st [], { vreg with vc := 0 }, rfl, by unfold VectorIssues; decide +kernel, fun r => reset_clean r.val⟩,
    ⟨st [], ⟨191, 7, 31, 30, 4, 7, 0⟩, rfl, by unfold VectorIssues; decide +kernel, fun r => reset_clean r.val⟩,
    ⟨st [], ⟨191, 7, 6, 5, 7, 0⟩, by unfold VectorIssues; decide +kernel⟩,
    ⟨st [], ⟨191, 7, 6, 5, 7, 0⟩, by unfold VectorIssues; decide +kernel⟩,
    ⟨st [], ⟨191, 7, 6, 0, 7, 0⟩, by unfold VectorIssues; decide +kernel⟩⟩

theorem witness_VectorMemoryCommands :
    (∃ (s : State) (a : VMemForm), Instr.wf (.vld a) = true ∧ VectorIssues (.vld a) a.t a.cyc s ∧ (memLimits s.pkg a (fun x => 8 * fmtWidth
      x.fmt) false true = true)) ∧
    (∃ (s : State) (a : VMemForm), Instr.wf (.vst a) = true ∧ VectorIssues (.vst a) a.t a.cyc s ∧ (memLimits s.pkg a (fun _ => 256) false
      false = true)) ∧
    (∃ (s : State) (a : VMemForm), Instr.wf (.vnst a) = true ∧ VectorIssues (.vnst a) a.t a.cyc s ∧ (memLimits s.pkg a (fun x =>
      packedBytes x.fmt 128) true false = true)) ∧
    (∃ (s : State) (a : VMemForm) (l v : _), Instr.wf (.vldq a) = true ∧ VectorIssues (.vldq a) a.t a.cyc s ∧ (s.vec a.t).mdv = [] ∧ (s.vec
      a.t).pop a.cyc = some (l, v)) ∧
    (∃ (s : State) (a : VMemForm), Instr.wf (.vldq a) = true ∧ VectorIssues (.vldq a) a.t a.cyc s ∧ ((s.atVec a.t a.cyc).vec a.t).pop a.cyc
      = none) ∧
    (∃ (s : State) (a : VMemForm), Instr.wf (.vrst a) = true ∧ VectorIssues (.vrst a) a.t a.cyc s) :=
  ⟨⟨st [(O.scaleTableEntries, 1)], ⟨191, 31, 63, 7, false, 0, 0⟩, by unfold VectorIssues; decide +kernel⟩,
    ⟨st [(O.scaleTableEntries, 1)], ⟨191, 31, 63, 7, false, 0, 0⟩, by unfold VectorIssues; decide +kernel⟩,
    ⟨onTile 191 { Tile.reset with vd := [(63 * 16 + 6, 0xFFFF)] } [(O.scaleTableEntries, 1)], ⟨191, 30, 63, 0, false, 1, 0⟩,
      by unfold VectorIssues; decide +kernel⟩,
    ⟨onTile 191 { Tile.reset with vec := { VecEng.reset with queue := [(5, List.replicate 32 AccWord.reset)] } }, ⟨191, 31, 0, 0, false, 0,
      5⟩, _, _, by decide, by unfold VectorIssues; decide +kernel, rfl, rfl⟩,
    ⟨onTile 191 { Tile.reset with vec := { VecEng.reset with queue := [(5, List.replicate 32 AccWord.reset)] } }, ⟨191, 31, 0, 0, false, 0,
      4⟩, by unfold VectorIssues; decide +kernel⟩,
    ⟨st [], ⟨191, 0, 63, 0, false, 0, 0⟩, by unfold VectorIssues; decide +kernel⟩⟩

theorem witness_VectorReductionCommands :
    (∃ (s : State) (a : VRedForm), Instr.wf (.vred a) = true ∧ VectorIssues (.vred a) a.t a.cyc s ∧ (((s.vec a.t).context a.rc.val).rop =
      none ∨ ((s.vec a.t).context a.rc.val).rop = some a.rop.toNat)) ∧
    (∃ (s : State) (a : VFoldForm), VectorIssues (.vrget a) a.t a.cyc s ∧ ((s.vec a.t).context a.rc.val).poison = false) ∧
    (∃ (s : State) (a : VFlgForm), VectorIssues (.vflg a) a.t a.cyc s) :=
  ⟨⟨st [], ⟨191, 3, 1, 31, 30, 7, 0⟩, by unfold VectorIssues; decide +kernel⟩,
    ⟨st [], ⟨191, 31, 3, 0⟩, by unfold VectorIssues; decide +kernel⟩,
    ⟨st [], ⟨191, 31, 7, 0⟩, by unfold VectorIssues; decide +kernel⟩⟩

theorem witness_VectorIssueAndRelease :
    (∃ (s : State) (n : TileNo), s.Runs .data ∧ (s.pkg.tile n.val).free = true) ∧
    (∃ (s : State) (a : VRegForm), s.Runs .data ∧ Instr.wf (.vadd a) = true ∧ ((s.atVec a.t a.cyc).pkg.tile a.t.val).free = true ∧
      vMustHold ((s.atVec a.t a.cyc).pkg.tile a.t.val) a.cyc (.vadd a) = true) ∧
    (∃ (s : State) (n : TileNo) (cyc since : Nat) (i : Instr), s.Runs .data ∧ (s.vec n).held = some (.instr i since) ∧ since ≤ cyc ∧
      vMustHold (s.pkg.tile n.val) cyc i = false) ∧
    (∃ (s : State) (a : VPhrForm), Instr.wf (.vphr a) = true ∧ phraseOk (s.pkg.tile a.t.val).pd a.phrase.val = true ∧ a.count ≠ 0 ∧
      phraseStages (s.pkg.tile a.t.val).pd a.phrase.val ≠ 0 ∧ phraseLimits s.pkg a.t.val a.phrase.val a.count.toNat = true ∧ VectorIssues
      (.vphr a) a.t a.cyc s) ∧
    (∃ (s : State) (n : TileNo) (cyc : Nat) (r : PhraseRun), s.Runs .data ∧ (s.vec n).phrase = some r ∧ r.count ≤ r.iter ∧ phraseEnd
      (s.pkg.tile n.val) r ≤ cyc) ∧
    (∃ (s : State) (n : TileNo) (cyc since : Nat) (a : VMemForm) (l : List AccWord) (v : VecEng), s.Runs .data ∧ a.t = n ∧ (s.vec n).mdv =
      [] ∧ (s.vec n).phrase = none ∧ (s.vec n).held = some (.drain (.vldq a) since) ∧ since ≤ cyc ∧ (s.vec n).pop cyc = some (l, v)) :=
  ⟨⟨st [], 191, by decide +kernel⟩,
    ⟨onTile 191 { Tile.reset with vec := { VecEng.reset with ready := [(31, 5)] } }, { vreg with vc := 0, cyc := 4 }, by decide +kernel⟩,
    ⟨onTile 191 { Tile.reset with vec := { VecEng.reset with ready := [(31, 5)], held := some (.instr (.vadd vreg) 5) } }, 191, 5, 5, .vadd
      vreg, by decide, rfl, by decide, by decide +kernel⟩,
    ⟨onTile 191 onePhrase [(O.scaleTableEntries, 1)], ⟨191, 31, 2, 0⟩, by unfold VectorIssues; decide +kernel⟩,
    ⟨onTile 191 { onePhrase with vec := { VecEng.reset with phrase := some runOver } }, 191, 30, runOver, by decide, rfl, by decide,
      by decide +kernel⟩,
    ⟨onTile 191
      { Tile.reset with vec := { VecEng.reset with queue := [(5, List.replicate 32 AccWord.reset)], held := some (.drain (.vldq vdrain) 3) } },
      191, 5, 3, vdrain, _, _, by decide, rfl, rfl, rfl, rfl, by decide, rfl⟩⟩

theorem witness_ControlSlotCommands :
    (∃ (s : State) (n : TileNo) (target : BitVec 27), s.Runs .data ∧ (s.pkg.tile n.val).free = true ∧ s.pkg.reached ((s.seqr n).startBeat +
      target.toNat) = true) ∧
    (∃ (s : State) (n : TileNo) (target : BitVec 27), s.Runs .data ∧ (s.pkg.tile n.val).free = true ∧ s.pkg.reached ((s.seqr n).startBeat +
      target.toNat) = false) ∧
    (∃ (s : State) (n : TileNo) (w : Fin 16) (count : BitVec 16), s.Runs .data ∧ (s.pkg.tile n.val).free = true ∧ count ≠ 0xFFFF ∧
      count.toNat ≤ (s.pkg.tile n.val).win.at 0 w.val) ∧
    (∃ (s : State) (n : TileNo) (w : Fin 16) (count : BitVec 16), s.Runs .data ∧ (s.pkg.tile n.val).free = true ∧ count ≠ 0xFFFF ∧
      (s.pkg.tile n.val).win.at 0 w.val < count.toNat) ∧
    (∃ (s : State) (n : TileNo) (lc : Fin 4) (k : BitVec 16), s.Runs .data ∧ (s.pkg.tile n.val).free = true ∧ k ≠ 0xFFFF ∧ k ≠ 0 ∧ ((s.seqr
      n).loops.any (fun l => decide (l.lc = lc.val)) = false)) ∧
    (∃ (s : State) (n : TileNo) (lc : Fin 4), s.Runs .data ∧ (s.pkg.tile n.val).free = true ∧ ((s.seqr n).loops.any (fun l => decide (l.lc
      = lc.val)) = false) ∧ (s.seqr n).running = true) ∧
    (∃ (s : State) (n : TileNo) (lc : Fin 4) (l : LoopSt) (r : List LoopSt), s.Runs .data ∧ (s.pkg.tile n.val).free = true ∧ (s.seqr
      n).loops = l :: r ∧ l.lc = lc.val ∧ (s.seqr n).running = true) :=
  ⟨⟨st [], 191, 0, by decide +kernel⟩,
    ⟨st [], 191, 1, by decide +kernel⟩,
    ⟨onTile 191 { Tile.reset with win := [(15, 3)] }, 191, 15, 3, by decide +kernel⟩,
    ⟨onTile 191 { Tile.reset with win := [(15, 2)] }, 191, 15, 3, by decide +kernel⟩,
    ⟨st [], 191, 3, 0xFFFE, by decide +kernel⟩,
    ⟨onTile 191 { Tile.reset with seq := { Seqr.reset with running := true } }, 191, 3, by decide +kernel⟩,
    ⟨onTile 191 { Tile.reset with seq := { Seqr.reset with running := true, loops := [⟨3, 1, 2⟩] } }, 191, 3, ⟨3, 1, 2⟩, [],
      by decide +kernel⟩⟩

theorem witness_SequencerAndVotes :
    (∃ (s : State) (n : TileNo) (src : BitVec 2), s.Runs .data ∧ (s.pkg.tile n.val).free = true ∧ src ≠ 0) ∧
    (∃ (s : State) (n : TileNo), s.Runs .data ∧ (s.pkg.tile n.val).free = true ∧ (s.seqr n).running = true ∧ (s.seqr n).starts = []) ∧
    (∃ (s : State) (n : TileNo) (k b r : _), s.Runs .data ∧ (s.pkg.tile n.val).free = true ∧ (s.seqr n).running = true ∧ (s.seqr n).starts
      = (k, b) :: r) ∧
    (∃ (s : State) (n : TileNo) (b since : _), s.Runs .data ∧ (s.seqr n).hold = some (.cwait b since) ∧ s.pkg.reached b = true) ∧
    (∃ (s : State) (n : TileNo) (w slack k since : _), s.Runs .data ∧ (s.seqr n).hold = some (.carr w slack k since) ∧ k ≤ (s.pkg.tile
      n.val).win.at 0 w) ∧
    (∃ (s : State) (n : TileNo), s.Runs .data ∧ (s.seqr n).hold = some .xpub ∧ (s.pkg.tile n.val).xputOut = 0) ∧
    (∃ (s : State) (n : TileNo) (k : Fin 64) (i : Image) (e : Nat × Nat), s.Runs .data ∧ s.pkg.posImage = some i ∧ s.pkg.evaluates = true ∧
      ((s.pkg.entriesNow i).any (fun e => decide (e.sentence = k.val)) = true) ∧ ((s.pkg.tile n.val).clauses.find? (fun e => decide (e.1 =
      k.val)) = some e) ∧ (s.seqr n).startBeat ≠ s.pkg.schedBeat ∧ ((s.seqr n).starts.any (fun e => decide (e.2 = s.pkg.schedBeat)) =
      false) ∧ (s.seqr n).running = false) ∧
    (∃ (s : State) (n : TileNo) (k : Fin 64) (i : Image) (e : Nat × Nat), s.Runs .data ∧ s.pkg.posImage = some i ∧ s.pkg.evaluates = true ∧
      ((s.pkg.entriesNow i).any (fun e => decide (e.sentence = k.val)) = true) ∧ ((s.pkg.tile n.val).clauses.find? (fun e => decide (e.1 =
      k.val)) = some e) ∧ (s.seqr n).startBeat ≠ s.pkg.schedBeat ∧ ((s.seqr n).starts.any (fun e => decide (e.2 = s.pkg.schedBeat)) =
      false) ∧ (s.seqr n).running = true) ∧
    (∃ (s : State) (n : TileNo) (w sym : _), s.Runs .data ∧ checkWord ((s.pkg.tile n.val).store.at zeroWord ((s.seqr n).scrub % 16384)) =
      .corrected w sym) ∧
    (∃ (s : State) (n : TileNo) (k a d l q : _), s.Runs .data ∧ (s.seqr n).refetch = some k ∧ s.pkg.bundleAddr n.val = some a ∧
      s.pkg.agentRead ioA (a + 16 * k) 16 = (some d :: l, q)) :=
  ⟨⟨st [], 191, 3, by decide +kernel⟩,
    ⟨onTile 191 { Tile.reset with seq := { Seqr.reset with running := true } }, 191, by decide +kernel⟩,
    ⟨onTile 191 { Tile.reset with seq := { Seqr.reset with running := true, starts := [(63, 9)] } }, 191, 63, 9, [], by decide +kernel⟩,
    ⟨onTile 191 { Tile.reset with seq := { Seqr.reset with hold := some (.cwait 0 0) } }, 191, 0, 0, by decide +kernel⟩,
    ⟨onTile 191 { Tile.reset with win := [(15, 4)], seq := { Seqr.reset with hold := some (.carr 15 0 4 0) } }, 191, 15, 0, 4, 0,
      by decide +kernel⟩,
    ⟨onTile 191 { Tile.reset with seq := { Seqr.reset with hold := some .xpub } }, 191, by decide +kernel⟩,
    ⟨onImage img 4 (fun p =>
      { p with tiles := [(191, { Tile.reset with clauses := [(0, 2)], seq := { Seqr.reset with startBeat := 1 } })] }), 191, 0, img, (0,
      2), by decide +kernel⟩,
    ⟨onImage img 4 (fun p =>
      { p with tiles := [(191, { Tile.reset with clauses := [(0, 2)], seq := { Seqr.reset with startBeat := 1, running := true } })] }),
      191, 0, img, (0, 2), by decide +kernel⟩,
    ⟨onTile 191 { Tile.reset with store := [(16383, addSym (goodWord 0) 3 1)], seq := { Seqr.reset with scrub := 16383 } }, 191, goodWord
      0, 3, by decide +kernel⟩,
    ⟨refetching, 191, 5, 2750464, 0, [], _, by decide, rfl, by decide +kernel, fst_eq (by decide +kernel)⟩⟩

theorem witness_MoveSlotCommands :
    (∃ (s : State) (a : XSlot), MoveIssues a true false s ∧ (xdesc (s.pkg.tile a.t.val).xd a.mdesc.val).peerTile < 192 ∧ inSramI
      ((s.pkg.tile a.t.val).xremote a.mdesc.val) (64 * a.count.toNat) = true ∧ (xdesc (s.pkg.tile a.t.val).xd a.mdesc.val).peerPkg =
      s.pkg.reg O.logicalPosition ∧ (xdesc (s.pkg.tile a.t.val).xd a.mdesc.val).doneEn = false) ∧
    (∃ (s : State) (a : XSlot), MoveIssues a false false s ∧ inMemI ((s.pkg.tile a.t.val).xmemory a.mdesc.val) (64 * a.count.toNat) = true) ∧
    (∃ (s : State) (n : TileNo), s.Runs .data ∧ (s.pkg.tile n.val).free = true) :=
  ⟨⟨onTile 191 { Tile.reset with xd := [(1012, 0x7F8BF)] } [(O.logicalPosition, 255)], ⟨191, 63, 2⟩, by unfold MoveIssues; decide +kernel⟩,
    ⟨onTile 191 { Tile.reset with xd := [(1010, 64)] }, ⟨191, 63, 2⟩, by unfold MoveIssues; decide +kernel⟩,
    ⟨st [], 191, by decide +kernel⟩⟩

theorem witness_FlitsLandAndCredit :
    (∃ (s : State) (i : Nat) (n : TileNo) (off win : Nat) (data : List PWord), s.Runs .data ∧ s.pkg.flits[i]? = some (.sram n.val off win
      data) ∧ off % 16 = 0 ∧ (s.pkg.tile n.val).win.at 0 win + 1 < 2 ^ 32) ∧
    (∃ (s : State) (i : Nat) (n : TileNo) (win : Nat), s.Runs .data ∧ s.pkg.flits[i]? = some (.credit n.val win) ∧ (s.pkg.tile
      n.val).win.at 0 win + 1 < 2 ^ 32) ∧
    (∃ (s : State) (i : Nat) (n : TileNo) (win : Nat), s.Runs .data ∧ s.pkg.flits[i]? = some (.xputAck n.val win) ∧ (s.pkg.tile
      n.val).win.at 0 win + 1 < 2 ^ 32) ∧
    (∃ (s : State) (i : Nat) (n : TileNo) (win : Nat), s.Runs .data ∧ s.pkg.flits[i]? = some (.credit n.val win) ∧ s.pkg.failed = false ∧ 2
      ^ 32 ≤ (s.pkg.tile n.val).win.at 0 win + 1) :=
  ⟨⟨st [] (fun p => { p with flits := [.sram 191 64 15 []] }), 0, 191, 64, 15, [], by decide +kernel⟩,
    ⟨st [] (fun p => { p with flits := [.credit 191 15] }), 0, 191, 15, by decide +kernel⟩,
    ⟨st [] (fun p => { p with flits := [.xputAck 191 15] }), 0, 191, 15, by decide +kernel⟩,
    ⟨st [] (fun p => { p with flits := [.credit 191 15], tiles := [(191, { Tile.reset with win := [(15, 2 ^ 32 - 1)] })] }), 0, 191, 15,
      by decide +kernel⟩⟩

/-- A package of a running domain with a parent, at domain_beat 100 and slip_total 3, after this many exchanges beyond 24 ns in a row. -/
def joined (runs : Nat) : State :=
  onImage { img with variant := ⟨5, 0, 8, 1, 1⟩ } 4 (fun p => { p with sched := { Sched.reset with formed := true, offsetRuns := runs } })
    [(O.domainBeat, 100), (O.slipTotal, 3)]

/-- Tile 191 waits for credits from beat 0 with 99 beats of slack, at beat 100. -/
def waits (late : List LateRec) : State :=
  onImage img 4 (fun p =>
    { p with
      sched := { Sched.reset with late := late }
      tiles := [(191, { Tile.reset with seq := { Seqr.reset with hold := some (.carr 15 99 1 0) } })] }) [(O.domainBeat, 100)]

/-- A request to the loader waits. -/
def asked (op : LoadOp) (state : Nat) : State :=
  onImage img state (fun p => { p with loader := { p.loader with reqs := [⟨1, op, 1, 0x20000000000, 4096, 0⟩] } }) [(O.aclkDivisorActive, 4)]

/-- A step that has started, at schedule beat 60, with n counted votes, a record of the package's own and one kept. -/
def stepping (n : Nat) (own held : Option VoteRec) : State :=
  onImage img 4 (fun p =>
    { p with
      sched := { Sched.reset with nextStart := 1 }
      stepc := { StepCtl.reset with cvotes := n, own := own, held := held } }) [(O.domainBeat, 60)]

theorem witness_TimeExchangeOutcomes :
    (∃ (s : State) (x y z : TimeExchange), s.Runs .link ∧ s.pkg.isMaster = false ∧ s.pkg.reg O.timeParentPort ≠ 0xFF ∧ 24000 <
      x.residualPs.natAbs ∧ 24000 < y.residualPs.natAbs ∧ 24000 < z.residualPs.natAbs) ∧
    (∃ (s : State) (x : TimeExchange), s.Runs .link ∧ s.pkg.isMaster = false ∧ s.pkg.reg O.timeParentPort ≠ 0xFF ∧ s.pkg.sched.formed =
      true ∧ x.parentBeat = s.pkg.reg O.domainBeat ∧ x.parentSlip ≠ s.pkg.reg O.slipTotal) ∧
    (∃ (s : State) (x : TimeExchange), s.Runs .link ∧ s.pkg.isMaster = false ∧ s.pkg.reg O.timeParentPort ≠ 0xFF ∧ s.pkg.sched.formed =
      false ∧ x.residualPs.natAbs ≤ 24000 ∧ (s.pkg.reg O.imageState = 4 → x.masterGen = s.pkg.reg O.cfgActiveGen)) ∧
    (∃ (s : State) (x : TimeExchange), s.Runs .link ∧ s.pkg.isMaster = false ∧ s.pkg.reg O.timeParentPort ≠ 0xFF ∧ s.pkg.sched.formed =
      true ∧ x.residualPs.natAbs ≤ 24000 ∧ x.parentBeat = s.pkg.reg O.domainBeat ∧ x.parentSlip = s.pkg.reg O.slipTotal ∧ x.masterGen =
      s.pkg.reg O.cfgActiveGen) :=
  ⟨⟨joined 0, ⟨100, 3, 24001, 0⟩, ⟨100, 3, -24001, 0⟩, ⟨100, 3, 24001, 0⟩, by decide +kernel⟩,
    ⟨joined 0, ⟨100, 4, 24000, 0⟩, by decide +kernel⟩,
    ⟨onImage { img with variant := ⟨5, 0, 8, 1, 1⟩ } 2, ⟨100, 3, -24000, 0⟩, by decide +kernel⟩,
    ⟨joined 2, ⟨100, 3, -24000, 0⟩, by decide +kernel⟩⟩

theorem witness_BeatsHoldsAndLateness :
    (∃ (s : State), s.Runs .link ∧ s.pkg.secure.hold = none ∧ s.pkg.cfg.pendTimer = false ∧ s.pkg.cfg.pendRequest = false) ∧
    (∃ (p : Pkg), p.reg O.slipTotal ≤ p.reg O.domainBeat ∧ p.reg O.domainBeat < 2 ^ 64) ∧
    (∃ (s : State) (c : LateCase) (i : Image), s.Runs .data ∧ s.pkg.loader.image = some i ∧ s.pkg.isLate c = true ∧ s.pkg.sched.lateOf c =
      []) ∧
    (∃ (s : State) (c : LateCase) (i : Image), s.Runs .data ∧ s.pkg.loader.image = some i ∧ s.pkg.isLate c = true ∧ (s.pkg.sched.late.any
      (fun r => decide (r.case = c ∧ r.lastReq + i.slipQuantum ≤ s.pkg.reg O.domainBeat)) = true)) ∧
    (∃ (s : State) (x : C0In) (i : Image), s.Runs .data ∧ IsNew x s.pkg ∧ s.pkg.loader.image = some i) ∧
    (∃ (s : State) (c : LateCase) (i : Image), s.Runs .data ∧ s.pkg.loader.image = some i ∧ limitApplies c = true ∧ s.pkg.isLate c = true ∧
      s.pkg.secure.hold = none ∧ (s.pkg.sched.late.any (fun r => decide (r.case = c ∧ i.holdLimit < r.late)) = true)) ∧
    (∃ (s : State) (x : Slip), s.Runs .data ∧ s.pkg.sched.hold = none ∧ s.pkg.dueSlip = some x) ∧
    (∃ (s : State) (h : Slip), s.Runs .data ∧ s.pkg.sched.hold = some h ∧ h.kind ≠ .save ∧ h.beat + h.len ≤ s.pkg.reg O.domainBeat ∧
      s.pkg.dueSlip = none ∧ s.pkg.secure.hold = none) ∧
    (∃ (s : State) (h x : Slip), s.Runs .data ∧ s.pkg.sched.hold = some h ∧ h.kind ≠ .save ∧ h.beat + h.len ≤ s.pkg.reg O.domainBeat ∧
      s.pkg.dueSlip = some x) :=
  ⟨⟨st [], by decide +kernel⟩,
    ⟨pk [(O.domainBeat, 2 ^ 64 - 1), (O.slipTotal, 2 ^ 64 - 1)], by decide +kernel⟩,
    ⟨waits [], .carr 191, img, by decide, rfl, by decide +kernel⟩,
    ⟨waits [⟨.carr 191, 90, 10⟩], .carr 191, img, by decide, rfl, by decide +kernel⟩,
    ⟨waits [], ⟨0, 1, 1⟩, img, by decide, trivial, rfl⟩,
    ⟨waits [⟨.carr 191, 51, 10⟩], .carr 191, img, by decide, rfl, by decide +kernel⟩,
    ⟨st [(O.domainBeat, 9)] (fun p => { p with sched := { Sched.reset with slips := [⟨9, 4, .slip⟩] } }), ⟨9, 4, .slip⟩, by decide +kernel⟩,
    ⟨st [(O.domainBeat, 13)] (fun p => { p with sched := { Sched.reset with hold := some ⟨9, 4, .slip⟩ } }), ⟨9, 4, .slip⟩,
      by decide +kernel⟩,
    ⟨st [(O.domainBeat, 13)] (fun p => { p with sched := { Sched.reset with hold := some ⟨9, 4, .slip⟩, slips := [⟨13, 2, .slip⟩] } }), ⟨9,
      4, .slip⟩, ⟨13, 2, .slip⟩, by decide +kernel⟩⟩

theorem witness_LoaderCommands :
    (∃ (s : State) (w : Writer) (v : Nat), s.Runs (writerPlane w) ∧ v ≤ 3 ∧ (s.pkg.reg O.loaderOwner = 0 ∨ v = 0)) ∧
    (∃ (s : State) (r : LoadReq) (p : Pkg), s.Runs .control ∧ s.pkg.headRequest .load = some (r, p) ∧ p.reg O.imageState ≠ 1 ∧ p.reg
      O.imageState ≠ 4) ∧
    (∃ (s : State) (x : Loading), s.Runs .control ∧ s.pkg.loader.loading = some x) ∧
    (∃ (s : State) (r : LoadReq) (p : Pkg), s.Runs .control ∧ s.pkg.headRequest .unload = some (r, p) ∧ (p.reg O.imageState = 2 ∨ p.reg
      O.imageState = 3 ∨ p.reg O.imageState = 5) ∧ SMap.wf Tile.reset p.tiles = true) :=
  ⟨⟨st [], .path .hostBar, 3, by decide +kernel⟩,
    ⟨asked .load 5, _, _, by decide, rfl, by decide +kernel⟩,
    ⟨st [] (fun p => { p with loader := { p.loader with loading := some ⟨⟨1, .load, 1, 0, 0, 0⟩, img, 0, []⟩ } }), _, by decide, rfl⟩,
    ⟨asked .unload 5, _, _, by decide, rfl, by decide +kernel⟩⟩

theorem witness_StartAndHalt :
    (∃ (s : State) (r : LoadReq) (p : Pkg) (i : Image), s.Runs .control ∧ s.pkg.headRequest .start = some (r, p) ∧ p.posImage = some i ∧
      p.isMaster = true ∧ (p.reg O.imageState = 2 ∨ p.reg O.imageState = 5) ∧ p.sched.startRun = none ∧ p.sched.startBeat = none ∧
      i.aclkDiv ≤ p.reg O.aclkDivisorActive) ∧
    (∃ (s : State) (x : C0In), s.Runs .link ∧ IsNew x s.pkg) ∧
    (∃ (s : State) (x : C0In) (r : StartRun), s.Runs .link ∧ IsNew x s.pkg ∧ s.pkg.sched.startRun = some r) ∧
    (∃ (s : State) (r : StartRun) (i : Image), s.Runs .control ∧ s.pkg.sched.startRun = some r ∧ s.pkg.posImage = some i ∧ r.t0 + 1000000 ≤
      s.pkg.mtime ∧ s.pkg.allAnswered i r = true) ∧
    (∃ (s : State) (x : C0In), s.Runs .link ∧ IsNew x s.pkg ∧ (s.pkg.reg O.imageState = 2 ∨ s.pkg.reg O.imageState = 5)) ∧
    (∃ (s : State) (b : Nat) (i : Image), s.Runs .control ∧ s.pkg.sched.startBeat = some b ∧ s.pkg.posImage = some i ∧ s.pkg.reg
      O.imageState = 2 ∧ b ≤ s.pkg.schedBeat) ∧
    (∃ (s : State) (b : Nat) (i : Image), s.Runs .control ∧ s.pkg.memsys.repairing = [] ∧ s.pkg.sched.startBeat = some b ∧ s.pkg.posImage =
      some i ∧ s.pkg.reg O.imageState = 5 ∧ b ≤ s.pkg.reg O.domainBeat) ∧
    (∃ (s : State) (r : LoadReq) (p : Pkg) (i : Image), s.Runs .control ∧ s.pkg.headRequest .halt = some (r, p) ∧ p.posImage = some i ∧
      p.reg O.imageState = 4) ∧
    (∃ (s : State) (x : C0In), s.Runs .link ∧ IsNew x s.pkg ∧ s.pkg.reg O.imageState = 4) ∧
    (∃ (s : State) (i : Image), s.Runs .control ∧ s.pkg.posImage = some i ∧ s.pkg.stepDue i = true ∧ s.pkg.haltDue = true ∧
      s.pkg.stepc.committing = false) :=
  ⟨⟨asked .start 5, _, _, img, by decide, rfl, by decide +kernel⟩,
    ⟨st [], ⟨0, 1, 1⟩, by decide, trivial⟩,
    ⟨onImage img 2 (fun p => { p with sched := { Sched.reset with startRun := some ⟨0, 1, []⟩ } }), ⟨0, 1, 1⟩, _, by decide, trivial, rfl⟩,
    ⟨onImage { img with placement := [(0, 0), (1, 0xFFFF)] } 2 (fun p =>
      { p with mtime := 1000000, sched := { Sched.reset with startRun := some ⟨0, 1, [(1, 3, 0, 0)]⟩ } }), ⟨0, 1, [(1, 3, 0, 0)]⟩,
      { img with placement := [(0, 0), (1, 0xFFFF)] }, by decide +kernel⟩,
    ⟨onImage img 5, ⟨0, 1, 1⟩, by decide, trivial, by decide +kernel⟩,
    ⟨onImage img 2 (fun p => { p with sched := { Sched.reset with startBeat := some 0 } }), 0, img, by decide +kernel⟩,
    ⟨onImage img 5 (fun p => { p with sched := { Sched.reset with startBeat := some 0 } }), 0, img, by decide +kernel⟩,
    ⟨asked .halt 4, _, _, img, by decide, rfl, by decide +kernel⟩,
    ⟨onImage img 4, ⟨0, 1, 1⟩, by decide, trivial, by decide +kernel⟩,
    ⟨onImage img 4 (fun p => { p with sched := { Sched.reset with haltAt := some 0 } }), img, by decide +kernel⟩⟩

theorem witness_StepStartAndVote :
    (∃ (s : State) (i : Image), s.Runs .data ∧ s.pkg.posImage = some i ∧ s.pkg.stepDue i = true ∧ s.pkg.haltDue = false) ∧
    (∃ (s : State) (i : Image), s.Runs .data ∧ s.pkg.loader.image = some i ∧ s.pkg.isLate .vote = true ∧ s.pkg.sched.lateOf .vote = []) ∧
    (∃ (s : State) (i : Image), s.Runs .data ∧ s.pkg.posImage = some i ∧ s.pkg.reg O.imageState = 4 ∧ s.pkg.sched.nextStart ≠ 0 ∧
      s.pkg.stepc.decided = false ∧ s.pkg.stepc.localSent = false ∧ s.pkg.voteComplete i = true ∧ s.pkg.stepc.own = none) ∧
    (∃ (s : State) (i : Image) (r : _), s.Runs .data ∧ s.pkg.posImage = some i ∧ s.pkg.reg O.imageState = 4 ∧ s.pkg.sched.nextStart ≠ 0 ∧
      s.pkg.stepc.decided = false ∧ s.pkg.stepc.localSent = false ∧ s.pkg.voteComplete i = true ∧ s.pkg.stepc.own = some r) ∧
    (∃ (s : State) (r : VoteRec) (i : Image), s.Runs .link ∧ s.pkg.posImage = some i ∧ r.step = s.pkg.reg O.generatorStep ∧
      s.pkg.stepc.decided = false) :=
  ⟨⟨onImage img 4, img, by decide +kernel⟩,
    ⟨stepping 8 none none, img, by decide +kernel⟩,
    ⟨stepping 9 none none, img, by decide +kernel⟩,
    ⟨stepping 9 (some ⟨0, 0, 4, 191, 0, 0, 1⟩) none, img, ⟨0, 0, 4, 191, 0, 0, 1⟩, by decide +kernel⟩,
    ⟨stepping 9 none none, ⟨0, 0, 4, 191, 0, 0, 1⟩, img, by decide +kernel⟩⟩

theorem witness_VoteOrderAndDecision :
    (∃ (a b : VoteRec), votePrecedes a b = true) ∧
    (∃ (a b c : VoteRec), votePrecedes a b = true ∧ votePrecedes b c = true) ∧
    (∃ (o : Option VoteRec) (a b : VoteRec), (votePrecedes a b = true ∨ votePrecedes b a = true) ∧ (∀ r, o = some r → (votePrecedes r a =
      true ∨ votePrecedes a r = true) ∧ (votePrecedes r b = true ∨ votePrecedes b r = true))) ∧
    (∃ (s : State) (i : Image) (c : Nat) (r : _), s.Runs .data ∧ s.pkg.posImage = some i ∧ s.pkg.commitBeat i = some c ∧ s.pkg.reg
      O.imageState = 4 ∧ s.pkg.stepc.decided = false ∧ s.pkg.reached c = true ∧ s.pkg.stepc.held = some r) ∧
    (∃ (s : State) (i : Image) (c : Nat), s.Runs .data ∧ s.pkg.posImage = some i ∧ s.pkg.commitBeat i = some c ∧ s.pkg.reg O.imageState = 4
      ∧ s.pkg.stepc.decided = false ∧ s.pkg.reached c = true ∧ s.pkg.stepc.held = none) ∧
    (∃ (s : State) (pt : Path) (v : Nat), s.Runs (pathPlane pt) ∧ v < 2 ^ 32 ∧ (v + 2 ^ 32 - s.pkg.reg O.ledgerReadIndex) % 2 ^ 32 ≤
      (s.pkg.reg O.ledgerWriteIndex + 2 ^ 32 - s.pkg.reg O.ledgerReadIndex) % 2 ^ 32) ∧
    (∃ (s : State) (pt : Path) (v : Nat), s.Runs (pathPlane pt) ∧ v < 2 ^ 32 ∧ (s.pkg.reg O.ledgerWriteIndex + 2 ^ 32 - s.pkg.reg
      O.ledgerReadIndex) % 2 ^ 32 < (v + 2 ^ 32 - s.pkg.reg O.ledgerReadIndex) % 2 ^ 32) ∧
    (∃ (s : State) (pt : Path) (v : Nat), s.Runs (pathPlane pt) ∧ v < 2 ^ 32 ∧ (v + 2 ^ 32 - s.pkg.reg O.dispatchReadIndex) % 2 ^ 32 ≤
      (s.pkg.reg O.dispatchWriteIndex + 2 ^ 32 - s.pkg.reg O.dispatchReadIndex) % 2 ^ 32) ∧
    (∃ (s : State) (pt : Path) (v : Nat), s.Runs (pathPlane pt) ∧ v < 2 ^ 32 ∧ (s.pkg.reg O.dispatchWriteIndex + 2 ^ 32 - s.pkg.reg
      O.dispatchReadIndex) % 2 ^ 32 < (v + 2 ^ 32 - s.pkg.reg O.dispatchReadIndex) % 2 ^ 32) ∧
    (∃ (s : State) (pt : Path) (v : Nat), s.Runs (pathPlane pt) ∧ v < 2 ^ 32 ∧ v < s.pkg.reg O.scaleTableEntries) ∧
    (∃ (s : State) (pt : Path) (v : Nat), s.Runs (pathPlane pt) ∧ v < 2 ^ 32 ∧ s.pkg.reg O.scaleTableEntries ≤ v) ∧
    (∃ (s : State) (pt : Path) (v : Nat), s.Runs (pathPlane pt) ∧ v < 2 ^ 32 ∧ v % 2 ^ 12 = 0 ∧ bits v 31 24 < s.pkg.place.length ∧ bits v
      23 12 < (s.pkg.place.getD (bits v 31 24) []).length) ∧
    (∃ (s : State) (pt : Path) (v : Nat), s.Runs (pathPlane pt) ∧ v < 2 ^ 32 ∧ (¬(v % 2 ^ 12 = 0 ∧ bits v 31 24 < s.pkg.place.length ∧ bits
      v 23 12 < (s.pkg.place.getD (bits v 31 24) []).length))) :=
  ⟨⟨⟨0, 0, 1, 191, 0, 0, 1⟩, ⟨0, 0, 2, 191, 0, 0, 1⟩, by decide +kernel⟩,
    ⟨⟨0, 0, 1, 191, 0, 0, 1⟩, ⟨0, 0, 2, 191, 0, 0, 1⟩, ⟨0, 0, 3, 191, 0, 0, 1⟩, by decide +kernel⟩,
    ⟨some ⟨0, 0, 1, 191, 0, 0, 1⟩, ⟨0, 0, 2, 191, 0, 0, 1⟩, ⟨0, 0, 3, 191, 0, 0, 1⟩, by decide, by intro r h; cases h; decide⟩,
    ⟨stepping 9 none (some ⟨0, 0, 1, 191, 0, 0, 1⟩), img, 60, ⟨0, 0, 1, 191, 0, 0, 1⟩, by decide +kernel⟩,
    ⟨stepping 9 none none, img, 60, by decide +kernel⟩,
    ⟨st [(O.ledgerReadIndex, 2 ^ 32 - 1), (O.ledgerWriteIndex, 4)], .canFd, 4, by decide +kernel⟩,
    ⟨st [(O.ledgerReadIndex, 2 ^ 32 - 1), (O.ledgerWriteIndex, 4)], .hostBar, 5, by decide +kernel⟩,
    ⟨st [(O.dispatchReadIndex, 2 ^ 32 - 1), (O.dispatchWriteIndex, 4)], .canFd, 4, by decide +kernel⟩,
    ⟨st [(O.dispatchReadIndex, 2 ^ 32 - 1), (O.dispatchWriteIndex, 4)], .canFd, 5, by decide +kernel⟩,
    ⟨st [(O.scaleTableEntries, 4)], .hostBar, 3, by decide +kernel⟩,
    ⟨st [(O.scaleTableEntries, 4)], .canFd, 4, by decide +kernel⟩,
    ⟨st [] (fun p => { p with place := [[0], [0, 1]] }), .core, 2 ^ 24 + 2 ^ 12, by decide +kernel⟩,
    ⟨st [] (fun p => { p with place := [[0], [0, 1]] }), .core, 2 ^ 24 + 2 ^ 13, by decide +kernel⟩⟩

/-- A chunk of a reduce-scatter hop in engine 1, channel 15. -/
def hdr : ChunkHdr := ⟨1, 0, false, false, false, false, 0, true, 15, 0x8001, 1, 1024, 0, 0, 0, 0, 0, 0, 0, 0, 0, 0⟩
def chunk1 : Chunk := ⟨hdr, List.replicate 1024 0, List.replicate 32 0, false⟩
def chanA : ChanEnt := ⟨true, 15, 1, 2, 1, 8, 10, 0, 0, 0, 0, 0, 0, 1⟩
def bktA : BucketEnt := ⟨0, 0, 2048, 1, 0x8001, 0, false, false, false, 0, 0, 0, 0⟩
def imgA : Image := { img with chans := [chanA], buckets := [bktA] }

/-- That channel in this state; tile 191's descriptor 63 names its bucket. -/
def ring (c : ChanSt) : State :=
  onImage imgA 4 fun p =>
    { p with
      engines := [(1, ⟨[(15, c)], []⟩)]
      tiles := [(191, { Tile.reset with xd := [(63 * 16 + 8, 0x8001)] })] }

/-- A fill of two tokens, and a copy after it. -/
def fillT : DispTable := ⟨1, 1, 1, 0, 1, 0, 0, 2, 0, 0, 0, 0, 0, 0, 0, ⟨0, 0, 0, 0, 0⟩, ⟨0, 0, 0, 0, 0⟩⟩
def copyT (op : Nat) : DispTable := ⟨op, 0, 0, 0, 0, 0, 1, 0, 0, 1, 0, 0, 0, 0, 0, ⟨0, 1, 0, 2, 64⟩, ⟨0, 1, 0, 2, 64⟩⟩
def secD : DieSection := ⟨[fillT, copyT 2, copyT 3, copyT 4], [(0, 1), (1, 1), (2, 1), (3, 1)], [2], 0, 65536⟩

/-- Die 3's dispatch unit in this state. -/
def dies (u : DispUnit) : State :=
  onImage { img with sections := [none, none, none, some secD] } 4 fun p => { p with disp := [(3, u)] }

/-- A stage entry of engine 3, due at beat 10 with 5 beats to its deadline. -/
def imgS : Image := { img with stages := [⟨10, 5, 3, true, 0, 0, 0, 0, 0⟩] }
def staging (beat : Nat) (x : TierEng) : State := onImage imgS 4 (fun p => { p with tiers := [(3, x)] }) [(O.domainBeat, beat)]

theorem witness_AgreementEngine :
    (∃ (me : Nat) (c l : Work) (v : _), (∀ v ∈ c.vals, v.natAbs < 2 ^ 300) ∧ (∀ v ∈ l.vals, v.natAbs < 2 ^ 300) ∧ v ∈ (hopWork me c
      l).1.vals) ∧
    (∃ (s : State) (e : Bool) (ch : Fin 16) (x : Chunk) (i : Image) (c b : _), s.Runs .data ∧ s.pkg.posImage = some i ∧ chanEntry i e
      ch.val = some c ∧ chanBucket i c (headBucket i c (s.pkg.chan e ch.val).rxPos) = some b ∧ (s.pkg.chan e ch.val).rx.length < 4 ∧
      expectedChunk s.pkg c b (s.pkg.chan e ch.val) x.hdr = true ∧ (x.hdr.kind = 4 ∨ badGroups x = 0) ∧ x.flitError = false) ∧
    (∃ (s : State) (e : Bool) (ch : Fin 16) (x : Chunk) (i : Image) (c b : _), s.Runs .data ∧ s.pkg.posImage = some i ∧ chanEntry i e
      ch.val = some c ∧ chanBucket i c (headBucket i c (s.pkg.chan e ch.val).rxPos) = some b ∧ (s.pkg.chan e ch.val).rx.length < 4 ∧
      expectedChunk s.pkg c b (s.pkg.chan e ch.val) x.hdr = false) ∧
    (∃ (s : State) (e : Bool) (ch : Fin 16) (i : Image) (c b : _), s.Runs .data ∧ s.pkg.posImage = some i ∧ chanEntry i e ch.val = some c ∧
      chanBucket i c (headBucket i c (s.pkg.chan e ch.val).rxPos) = some b ∧ 4 ≤ (s.pkg.chan e ch.val).rx.length) ∧
    (∃ (s : State) (e : Bool) (ch : Fin 16) (i : Image), s.Runs .data ∧ s.pkg.posImage = some i ∧ chanEntry i e ch.val = none) ∧
    (∃ (s : State) (e : Bool) (ch : Fin 16) (i : Image) (c : ChanEnt) (b : BucketEnt), s.Runs .data ∧ s.pkg.posImage = some i ∧ chanEntry i
      e ch.val = some c ∧ chanBucket i c (headBucket i c (s.pkg.chan e ch.val).pos) = some b ∧ b.nElem ≠ 0) ∧
    (∃ (p : Pkg) (c : ChanEnt) (y : Chunk) (r : List Chunk), (p.chan c.engine c.channel).rx = y :: r ∧ reduces c (p.chan c.engine
      c.channel).stage = false ∧ gatherHop c (p.chan c.engine c.channel).stage ≠ 0 ∧ (p.chan c.engine c.channel).stage + 1 < stages c) ∧
    (∃ (s : State) (a : XSlot) (i : Image), MoveIssues a false true s ∧ s.pkg.posImage = some i ∧ (xdesc (s.pkg.tile a.t.val).xd
      a.mdesc.val).rwin = 0) ∧
    (∃ (s : State) (a : XSlot) (i : Image) (c : ChanEnt) (k : Nat), MoveIssues a false true s ∧ s.pkg.posImage = some i ∧ a.count = 1 ∧
      (xdesc (s.pkg.tile a.t.val).xd a.mdesc.val).rwin = 0 ∧ bucketChannel i (xdesc (s.pkg.tile a.t.val).xd a.mdesc.val).bucket = some (c,
      k) ∧ s.pkg.hasRoom i c (xdesc (s.pkg.tile a.t.val).xd a.mdesc.val).bucket = true ∧ (s.pkg.chan c.engine c.channel).refused = []) ∧
    (∃ (s : State) (e : Bool) (ch : Fin 16) (i : Image) (c : ChanEnt) (k : Nat) (r : Nat × Nat × Nat × Nat), s.Runs .data ∧ s.pkg.posImage
      = some i ∧ chanEntry i e ch.val = some c ∧ ((s.pkg.chan e ch.val).refused.findIdx? (fun r => s.pkg.hasRoom i c r.2.2.1) = some k) ∧
      (s.pkg.chan e ch.val).refused[k]? = some r) :=
  ⟨⟨3, ⟨hdr, [2 ^ 30]⟩, ⟨hdr, [2 ^ 30]⟩, 2 ^ 30, by decide +kernel⟩,
    ⟨ring ChanSt.reset, true, 15, chunk1, imgA, chanA, bktA, by decide +kernel⟩,
    ⟨ring ChanSt.reset, true, 15, { chunk1 with hdr := { hdr with hop := 1 } }, imgA, chanA, bktA, by decide +kernel⟩,
    ⟨ring { ChanSt.reset with rx := [chunk1, chunk1, chunk1, chunk1] }, true, 15, imgA, chanA, bktA, by decide +kernel⟩,
    ⟨ring ChanSt.reset, true, 14, imgA, by decide +kernel⟩,
    ⟨ring ChanSt.reset, true, 15, imgA, chanA, bktA, by decide +kernel⟩,
    ⟨(ring { ChanSt.reset with rx := [chunk1], stage := 1 }).pkg, { chanA with op := 2, nMembers := 4 }, chunk1, [], by decide +kernel⟩,
    ⟨ring ChanSt.reset, ⟨191, 63, 1⟩, imgA, by unfold MoveIssues; decide +kernel⟩,
    ⟨ring ChanSt.reset, ⟨191, 63, 1⟩, imgA, chanA, 0, by unfold MoveIssues; decide +kernel⟩,
    ⟨ring { ChanSt.reset with refused := [(191, 0, 0x8001, 0)] }, true, 15, imgA, chanA, 0, (191, 0, 0x8001, 0), by decide +kernel⟩⟩

theorem witness_DispatchUnits :
    (∃ (t : DispTable) (quotas : List Nat), quotas.length = t.nExperts) ∧
    (∃ (ly lx : Nat), ly < 8 ∧ lx < 24) ∧
    (∃ (d o : Nat), d < 4 ∧ o < 48) ∧
    (∃ (s : State) (a : XSlot) (y : DieSection), MoveIssues a false true s ∧ s.pkg.section (tileDie a.t.val) = some y ∧ a.count = 1 ∧
      (xdesc (s.pkg.tile a.t.val).xd a.mdesc.val).bucket < y.tables.length ∧ takesFlit y (s.pkg.unit (tileDie a.t.val)) (xdesc (s.pkg.tile
      a.t.val).xd a.mdesc.val).bucket = true ∧ (s.pkg.unit (tileDie a.t.val)).refused = []) ∧
    (∃ (s : State) (a : XSlot) (y : DieSection), MoveIssues a false true s ∧ s.pkg.section (tileDie a.t.val) = some y ∧ a.count = 1 ∧
      (xdesc (s.pkg.tile a.t.val).xd a.mdesc.val).bucket < y.tables.length ∧ takesFlit y (s.pkg.unit (tileDie a.t.val)) (xdesc (s.pkg.tile
      a.t.val).xd a.mdesc.val).bucket = false) ∧
    (∃ (s : State) (d : DieNo) (x : DieSection) (n : Nat) (t : DispTable) (f : List PWord) (u : DispUnit), s.Runs .data ∧ s.pkg.section
      d.val = some x ∧ x.tables[n]? = some t ∧ takeInbound (s.pkg.unit d.val) n = some (f, u) ∧ t.op = 1) ∧
    (∃ (s : State) (d : DieNo) (x : DieSection) (n : Nat) (t : DispTable) (f : List PWord) (u : DispUnit), s.Runs .data ∧ s.pkg.section
      d.val = some x ∧ x.tables[n]? = some t ∧ takeInbound (s.pkg.unit d.val) n = some (f, u) ∧ t.op ≠ 1) ∧
    (∃ (s : State) (d : DieNo) (x : DieSection) (n k : Nat) (r : Nat × Nat × Nat × Nat), s.Runs .data ∧ s.pkg.section d.val = some x ∧
      ((s.pkg.unit d.val).refused.findIdx? (fun r => decide (r.2.2.1 = n)) = some k) ∧ (s.pkg.unit d.val).refused[k]? = some r ∧ takesFlit
      x (s.pkg.unit d.val) n = true) ∧
    (∃ (s : State) (d : DieNo) (x : DieSection) (n : Nat) (t : DispTable), s.Runs .data ∧ s.pkg.section d.val = some x ∧ currentTable x
      (s.pkg.unit d.val) = some (n, t) ∧ t.op = 1 ∧ (s.pkg.unit d.val).served = false ∧ fillFlits t ≤ ((s.pkg.unit d.val).records.at []
      n).length) ∧
    (∃ (s : State) (d : DieNo) (x : DieSection) (n : Nat) (t f : DispTable) (c : Instr), s.Runs .data ∧ s.pkg.section d.val = some x ∧
      currentTable x (s.pkg.unit d.val) = some (n, t) ∧ x.tables[t.fillTable]? = some f ∧ (s.pkg.unit d.val).served = false ∧ t.nTrig ≤
      (s.pkg.unit d.val).triggers.at 0 n ∧ t.lag + 1 ≤ (s.pkg.unit d.val).ordinal.at 0 t.fillTable ∧ (t.op = 2 ∧ c = .gather d ∨ t.op = 3 ∧
      c = .scatter d ∨ t.op = 4 ∧ c = .collect d)) ∧
    (∃ (s : State) (d : DieNo) (x : DieSection) (n : Nat) (t f : DispTable) (c : Instr), s.Runs .data ∧ s.pkg.section d.val = some x ∧
      currentTable x (s.pkg.unit d.val) = some (n, t) ∧ x.tables[t.fillTable]? = some f ∧ (s.pkg.unit d.val).served = false ∧ t.nTrig ≤
      (s.pkg.unit d.val).triggers.at 0 n ∧ t.lag + 1 ≤ (s.pkg.unit d.val).ordinal.at 0 t.fillTable ∧ (t.op = 2 ∧ c = .gather d ∨ t.op = 3 ∧
      c = .scatter d ∨ t.op = 4 ∧ c = .collect d)) ∧
    (∃ (s : State) (d : DieNo) (x : DieSection) (n : Nat) (t f : DispTable) (c : Instr), s.Runs .data ∧ s.pkg.section d.val = some x ∧
      currentTable x (s.pkg.unit d.val) = some (n, t) ∧ x.tables[t.fillTable]? = some f ∧ (s.pkg.unit d.val).served = false ∧ t.nTrig ≤
      (s.pkg.unit d.val).triggers.at 0 n ∧ t.lag + 1 ≤ (s.pkg.unit d.val).ordinal.at 0 t.fillTable ∧ (t.op = 2 ∧ c = .gather d ∨ t.op = 3 ∧
      c = .scatter d ∨ t.op = 4 ∧ c = .collect d)) ∧
    (∃ (s : State) (d : DieNo) (x : DieSection) (e : Nat × Nat), s.Runs .data ∧ s.pkg.section d.val = some x ∧ (s.pkg.unit d.val).served =
      true ∧ x.seq[(s.pkg.unit d.val).pos]? = some e) :=
  ⟨⟨fillT, [4], rfl⟩,
    ⟨7, 23, by decide⟩,
    ⟨3, 47, by decide⟩,
    ⟨dies DispUnit.reset, ⟨191, 63, 1⟩, secD, by unfold MoveIssues; decide +kernel⟩,
    ⟨dies { DispUnit.reset with records := [(0, [[]])] }, ⟨191, 63, 1⟩, secD, by unfold MoveIssues; decide +kernel⟩,
    ⟨dies { DispUnit.reset with inbound := [(0, [])] }, 3, secD, 0, fillT, [], DispUnit.reset, by decide +kernel⟩,
    ⟨dies { DispUnit.reset with inbound := [(1, [])] }, 3, secD, 1, copyT 2, [], DispUnit.reset, by decide +kernel⟩,
    ⟨dies { DispUnit.reset with refused := [(191, 0, 0, 0)] }, 3, secD, 0, 0, (191, 0, 0, 0), by decide +kernel⟩,
    ⟨dies { DispUnit.reset with records := [(0, [[]])] }, 3, secD, 0, fillT, by decide +kernel⟩,
    ⟨dies { DispUnit.reset with pos := 1, triggers := [(1, 1)], ordinal := [(0, 1)] }, 3, secD, 1, copyT 2, fillT, .gather 3,
      by decide +kernel⟩,
    ⟨dies { DispUnit.reset with pos := 2, triggers := [(2, 1)], ordinal := [(0, 1)] }, 3, secD, 2, copyT 3, fillT, .scatter 3,
      by decide +kernel⟩,
    ⟨dies { DispUnit.reset with pos := 3, triggers := [(3, 1)], ordinal := [(0, 1)] }, 3, secD, 3, copyT 4, fillT, .collect 3,
      by decide +kernel⟩,
    ⟨dies { DispUnit.reset with served := true, pos := 3 }, 3, secD, (3, 1), by decide +kernel⟩⟩

theorem witness_StageEntries :
    (∃ (s : State) (e : DieNo) (i : Image) (ent : StageEnt) (due : Nat), s.Runs .data ∧ s.pkg.posImage = some i ∧ s.pkg.stageDue i e.val
      (s.pkg.tier e.val).next = some (ent, due) ∧ s.pkg.reg O.imageState = 4 ∧ (due < s.pkg.schedBeat ∨ due = s.pkg.schedBeat ∧
      s.pkg.evaluates = true) ∧ (s.pkg.tier e.val).busy = none ∧ s.pkg.movesRun = false) ∧
    (∃ (s : State) (e : DieNo) (i : Image) (ent : StageEnt) (k due : Nat), s.Runs .data ∧ s.pkg.posImage = some i ∧ (s.pkg.tier e.val).busy
      = some k ∧ s.pkg.stageDue i e.val (s.pkg.tier e.val).next = some (ent, due)) ∧
    (∃ (s : State) (e : DieNo) (i : Image), s.Runs .data ∧ s.pkg.loader.image = some i ∧ s.pkg.isLate (.stage e) = true ∧
      s.pkg.sched.lateOf (.stage e) = []) :=
  ⟨⟨staging 10 TierEng.reset, 3, imgS, ⟨10, 5, 3, true, 0, 0, 0, 0, 0⟩, 10, by decide +kernel⟩,
    ⟨staging 10 ⟨0, some 4, 0⟩, 3, imgS, ⟨10, 5, 3, true, 0, 0, 0, 0, 0⟩, 4, 10, by decide +kernel⟩,
    ⟨staging 15 ⟨0, some 4, 0⟩, 3, imgS, by decide +kernel⟩⟩

/-- One access waits in the set queues. -/
def memq (o : MemOp) : State := st [] fun p => { p with memsys := { MemSys.reset with queue := [o] } }

/-- One request of core 67 for line 9 waits at the home. -/
def home (k : ReqKind) (tag : Tag) : State :=
  st [] fun p => { p with coh := { Coh.reset with arb := [⟨67, k, 9, fullMask, [], tag, false, 0⟩] } }

/-- Core 67 holds line 9 in this state, with these snoops on their way and these lines busy. -/
def holds (x : L2St) (snoops : List Snoop) (busy : List Busy) : State :=
  st [] fun p =>
    { p with coh := { Coh.reset with l2 := [(l2Key 67 9, ⟨x, List.replicate 4 zeroWord⟩)], snoops := snoops, busy := busy } }

/-- Line 9 busy with a request of core 66 that awaits two answers. -/
def busy2 : Busy := ⟨9, ⟨66, .rdOwn, 9, fullMask, [], .core 66, false, 0⟩, 8, 2, none, false, true, 0⟩

theorem zero_clean : checkWord zeroWord = .clean := by decide +kernel
theorem zero_free : (dirRead zeroWord).isSome = true := by decide +kernel

/-- An empty directory reads without an error. -/
theorem clean_set (s : State) (h : s.pkg.coh.dir = []) (line : Nat) : s.SetClean line := by
  intro w _
  rw [h]
  exact ⟨zero_clean, zero_free⟩

theorem witness_MappingsAreOneToOne :
    (∃ (p : Pkg) (n : Nat), (∀ k < 16, p.reg (O.spareCol + k) ≤ 12) ∧ n < 192) ∧
    (∃ (p : Pkg) (q : Nat), (∀ k < 16, p.reg (O.spareCol + k) ≤ 12) ∧ q < 208 ∧ p.logicalTile q ≠ 0xFF) ∧
    (∃ (p : Pkg) (c e : Nat), (∀ k < 4, p.reg (O.spareCore + k) ≤ 16) ∧ c < 68 ∧ e < 68 ∧ p.hartOf c ≠ 0xFF ∧ p.hartOf e = p.hartOf c) ∧
    (∃ (a b : Nat), isMem a = true ∧ isMem b = true ∧ placeOf a = placeOf b) ∧
    (∃ (a : Nat), isMem a = true) :=
  ⟨⟨pk (arr O.spareCol 16 12), 191, by decide +kernel⟩,
    ⟨pk [], 207, by decide +kernel⟩,
    ⟨pk [], 67, 67, by decide +kernel⟩,
    ⟨0x3FFFFFFFFFF, 0x3FFFFFFFFFF, by decide +kernel⟩,
    ⟨0x20000000000, by decide +kernel⟩⟩

theorem witness_MemoryUnits :
    (∃ (s : State) (u line c : Nat), s.Runs .control ∧ s.pkg.firstOfSet u = true ∧ bitOf (s.pkg.reg O.padHeld) 0 = false ∧
      s.pkg.memsys.queue[u]? = some (.read line fullMask (.core c)) ∧ s.pkg.supply.pllOff.at false (12 + (placeOf (64 * line)).unitNo) =
      false ∧ (∀ w < 4, checkWord (s.pkg.word (line * 64 + 16 * w)) = .clean)) ∧
    (∃ (s : State) (u line : Nat) (data : List PWord), s.Runs .control ∧ s.pkg.firstOfSet u = true ∧ bitOf (s.pkg.reg O.padHeld) 0 = false
      ∧ s.pkg.memsys.queue[u]? = some (.write line fullMask data) ∧ data.length = 4 ∧ s.pkg.supply.pllOff.at false (12 + (placeOf (64 *
      line)).unitNo) = false) ∧
    (∃ (s : State) (u word : Nat) (w : PWord), s.Runs .control ∧ s.pkg.firstOfSet u = true ∧ bitOf (s.pkg.reg O.padHeld) 0 = false ∧
      s.pkg.memsys.queue[u]? = some (.correct word w) ∧ s.pkg.supply.pllOff.at false (12 + (placeOf (16 * word)).unitNo) = false) ∧
    (∃ (s : State) (n : DieNo), s.Runs .control ∧ s.pkg.reg O.scrubEnable ≠ 0 ∧ s.pkg.reg O.psCurrent < 2 ∧ (s.pkg.memsys.queue.any (fun o
      => decide (o.set = setOf (scrubSet n.val (s.pkg.memsys.scrubPos.at 0 n.val)).1)) = false)) ∧
    (∃ (s : State) (n : DieNo) (w : Nat × Nat), s.Runs .control ∧ ((s.pkg.memsys.window.find? fun e => decide (e.1 = n.val)) = some w) ∧
      w.2 + s.pkg.scrubPeriod ≤ s.pkg.mtime) ∧
    (∃ (s : State) (w : Writer) (n : DieNo) (v : Nat), s.Runs (writerPlane w) ∧ v ≤ 3 ∧ (s.pkg.reg (O.memTestOwner + n.val) = 0 ∨ v = 0)) ∧
    (∃ (s : State) (n : DieNo) (r : RowId) (rest : List RowId), s.Runs .control ∧ s.pkg.memsys.cands.at [] n.val = r :: rest ∧ repairRuns
      (s.pkg.reg O.imageState) = true ∧ s.pkg.memsys.repairing.find n.val = none ∧ s.pkg.reg (O.memTestOwner + n.val) = 0) ∧
    (∃ (s : State) (n : DieNo) (r : RowId), s.Runs .control ∧ repairRuns (s.pkg.reg O.imageState) = true ∧ s.pkg.memsys.repairing.find
      n.val = some r ∧ r.unit < 36) ∧
    (∃ (s : State) (pt : Path) (v : Nat), s.Runs (pathPlane pt) ∧ isMem v = true) ∧
    (∃ (s : State) (pt : Path) (v : Nat), s.Runs (pathPlane pt) ∧ isMem v = false) ∧
    (∃ (s : State), s.Runs .control ∧ s.pkg.reg O.psCurrent = 2) :=
  ⟨⟨memq (.read 0x8000000F fullMask (.core 67)), 0, 0x8000000F, 67, by decide +kernel⟩,
    ⟨memq (.write 0x8000000F fullMask (List.replicate 4 zeroWord)), 0, 0x8000000F, List.replicate 4 zeroWord, by decide +kernel⟩,
    ⟨memq (.correct 5 (goodWord 9)), 0, 5, goodWord 9, by decide +kernel⟩,
    ⟨st [(O.scrubEnable, 1), (O.psCurrent, 1)], 3, by decide +kernel⟩,
    ⟨st [] (fun p => { p with memsys := { MemSys.reset with window := [(3, 0)] }, mtime := 2 ^ 60 }), 3, (3, 0), by decide +kernel⟩,
    ⟨st [], .unit, 3, 3, by decide +kernel⟩,
    ⟨st [] (fun p => { p with memsys := { MemSys.reset with cands := [(3, [⟨35, 0, 0, 7⟩])] } }), 3, ⟨35, 0, 0, 7⟩, [], by decide +kernel⟩,
    ⟨st [] (fun p => { p with memsys := { MemSys.reset with repairing := [(3, ⟨35, 0, 0, 7⟩)] } }), 3, ⟨35, 0, 0, 7⟩, by decide +kernel⟩,
    ⟨st [], .hostBar, 0x20000000000, by decide +kernel⟩,
    ⟨st [], .canFd, 0xE100000000, by decide +kernel⟩,
    ⟨st [(O.psCurrent, 2)], by decide +kernel⟩⟩

theorem witness_DirectoryKeepsOneOwner :
    (∃ (e : DirEnt) (q : Req), (2 ≤ e.st → ∃ o < 68, e.sharers = 2 ^ o) ∧ (rowNext (dirRow e q) e q.requester).2 ≠ 0 ∧ 2 ≤ (rowNext (dirRow
      e q) e q.requester).1) ∧
    (∃ (e : DirEnt) (q : Req) (c : Nat) (k : SnoopKind), (c, k) ∈ rowSnoops (dirRow e q) e q.requester ∧ (q.kind = .rdShared ∨ q.kind =
      .rdOwn ∨ q.kind = .upgrade ∨ 68 ≤ q.requester)) :=
  ⟨⟨⟨none, 0, 0⟩, ⟨67, .rdOwn, 9, fullMask, [], .core 67, false, 0⟩, by decide, by decide, by decide⟩,
    ⟨⟨some 0, 3, 2 ^ 67⟩, ⟨0, .rdOwn, 9, fullMask, [], .core 0, false, 0⟩, 67, .fwdM, by decide +kernel⟩⟩

theorem witness_HomesServe :
    (∃ (s : State) (line : Nat) (c : Instr) (k : ReqKind) (v : Bool) (q : Req) (step2 : Bool) (n : Nat), (c = .rdShared line ∧ k =
      .rdShared ∧ v = false ∨ c = .rdOwn line ∧ k = .rdOwn ∧ v = false ∨ c = .upgrade line ∧ k = .upgrade ∧ v = false ∨ c = .wbDirty line ∧
      k = .wbDirty ∧ v = false ∨ c = .evClean line ∧ k = .evClean ∧ v = false ∨ c = .rdSnoop line ∧ k = .rdSnoop ∧ v = false ∨ c = .wrInv
      line ∧ k = .wrInv ∧ v = false ∨ c = .directoryRecall line ∧ k = .wrInv ∧ v = true) ∧ s.Runs .control ∧ s.pkg.busyAt line = none ∧
      s.pkg.coh.sweep = false ∧ s.pkg.select line = some (q, step2, n) ∧ q.kind = k ∧ decide (q.tag = .victim) = v ∧ s.SetClean line ∧
      (allocates (dirRow (s.pkg.dirFind line) q) = false ∨ ((s.pkg.freeWay line).isSome ∧ s.pkg.recalling line = false))) ∧
    (∃ (s : State) (line : Nat) (c : Instr) (k : ReqKind) (v : Bool) (q : Req) (step2 : Bool) (n : Nat), (c = .rdShared line ∧ k =
      .rdShared ∧ v = false ∨ c = .rdOwn line ∧ k = .rdOwn ∧ v = false ∨ c = .upgrade line ∧ k = .upgrade ∧ v = false ∨ c = .wbDirty line ∧
      k = .wbDirty ∧ v = false ∨ c = .evClean line ∧ k = .evClean ∧ v = false ∨ c = .rdSnoop line ∧ k = .rdSnoop ∧ v = false ∨ c = .wrInv
      line ∧ k = .wrInv ∧ v = false ∨ c = .directoryRecall line ∧ k = .wrInv ∧ v = true) ∧ s.Runs .control ∧ s.pkg.busyAt line = none ∧
      s.pkg.coh.sweep = false ∧ s.pkg.select line = some (q, step2, n) ∧ q.kind = k ∧ decide (q.tag = .victim) = v ∧ s.SetClean line ∧
      (allocates (dirRow (s.pkg.dirFind line) q) = false ∨ ((s.pkg.freeWay line).isSome ∧ s.pkg.recalling line = false))) ∧
    (∃ (s : State) (line : Nat) (c : Instr) (k : ReqKind) (v : Bool) (q : Req) (step2 : Bool) (n : Nat), (c = .rdShared line ∧ k =
      .rdShared ∧ v = false ∨ c = .rdOwn line ∧ k = .rdOwn ∧ v = false ∨ c = .upgrade line ∧ k = .upgrade ∧ v = false ∨ c = .wbDirty line ∧
      k = .wbDirty ∧ v = false ∨ c = .evClean line ∧ k = .evClean ∧ v = false ∨ c = .rdSnoop line ∧ k = .rdSnoop ∧ v = false ∨ c = .wrInv
      line ∧ k = .wrInv ∧ v = false ∨ c = .directoryRecall line ∧ k = .wrInv ∧ v = true) ∧ s.Runs .control ∧ s.pkg.busyAt line = none ∧
      s.pkg.coh.sweep = false ∧ s.pkg.select line = some (q, step2, n) ∧ q.kind = k ∧ decide (q.tag = .victim) = v ∧ s.SetClean line ∧
      (allocates (dirRow (s.pkg.dirFind line) q) = false ∨ ((s.pkg.freeWay line).isSome ∧ s.pkg.recalling line = false))) ∧
    (∃ (s : State) (line : Nat) (c : Instr) (k : ReqKind) (v : Bool) (q : Req) (step2 : Bool) (n : Nat), (c = .rdShared line ∧ k =
      .rdShared ∧ v = false ∨ c = .rdOwn line ∧ k = .rdOwn ∧ v = false ∨ c = .upgrade line ∧ k = .upgrade ∧ v = false ∨ c = .wbDirty line ∧
      k = .wbDirty ∧ v = false ∨ c = .evClean line ∧ k = .evClean ∧ v = false ∨ c = .rdSnoop line ∧ k = .rdSnoop ∧ v = false ∨ c = .wrInv
      line ∧ k = .wrInv ∧ v = false ∨ c = .directoryRecall line ∧ k = .wrInv ∧ v = true) ∧ s.Runs .control ∧ s.pkg.busyAt line = none ∧
      s.pkg.coh.sweep = false ∧ s.pkg.select line = some (q, step2, n) ∧ q.kind = k ∧ decide (q.tag = .victim) = v ∧ s.SetClean line ∧
      (allocates (dirRow (s.pkg.dirFind line) q) = false ∨ ((s.pkg.freeWay line).isSome ∧ s.pkg.recalling line = false))) ∧
    (∃ (s : State) (line : Nat) (c : Instr) (k : ReqKind) (v : Bool) (q : Req) (step2 : Bool) (n : Nat), (c = .rdShared line ∧ k =
      .rdShared ∧ v = false ∨ c = .rdOwn line ∧ k = .rdOwn ∧ v = false ∨ c = .upgrade line ∧ k = .upgrade ∧ v = false ∨ c = .wbDirty line ∧
      k = .wbDirty ∧ v = false ∨ c = .evClean line ∧ k = .evClean ∧ v = false ∨ c = .rdSnoop line ∧ k = .rdSnoop ∧ v = false ∨ c = .wrInv
      line ∧ k = .wrInv ∧ v = false ∨ c = .directoryRecall line ∧ k = .wrInv ∧ v = true) ∧ s.Runs .control ∧ s.pkg.busyAt line = none ∧
      s.pkg.coh.sweep = false ∧ s.pkg.select line = some (q, step2, n) ∧ q.kind = k ∧ decide (q.tag = .victim) = v ∧ s.SetClean line ∧
      (allocates (dirRow (s.pkg.dirFind line) q) = false ∨ ((s.pkg.freeWay line).isSome ∧ s.pkg.recalling line = false))) ∧
    (∃ (s : State) (line : Nat) (c : Instr) (k : ReqKind) (v : Bool) (q : Req) (step2 : Bool) (n : Nat), (c = .rdShared line ∧ k =
      .rdShared ∧ v = false ∨ c = .rdOwn line ∧ k = .rdOwn ∧ v = false ∨ c = .upgrade line ∧ k = .upgrade ∧ v = false ∨ c = .wbDirty line ∧
      k = .wbDirty ∧ v = false ∨ c = .evClean line ∧ k = .evClean ∧ v = false ∨ c = .rdSnoop line ∧ k = .rdSnoop ∧ v = false ∨ c = .wrInv
      line ∧ k = .wrInv ∧ v = false ∨ c = .directoryRecall line ∧ k = .wrInv ∧ v = true) ∧ s.Runs .control ∧ s.pkg.busyAt line = none ∧
      s.pkg.coh.sweep = false ∧ s.pkg.select line = some (q, step2, n) ∧ q.kind = k ∧ decide (q.tag = .victim) = v ∧ s.SetClean line ∧
      (allocates (dirRow (s.pkg.dirFind line) q) = false ∨ ((s.pkg.freeWay line).isSome ∧ s.pkg.recalling line = false))) ∧
    (∃ (s : State) (line : Nat) (c : Instr) (k : ReqKind) (v : Bool) (q : Req) (step2 : Bool) (n : Nat), (c = .rdShared line ∧ k =
      .rdShared ∧ v = false ∨ c = .rdOwn line ∧ k = .rdOwn ∧ v = false ∨ c = .upgrade line ∧ k = .upgrade ∧ v = false ∨ c = .wbDirty line ∧
      k = .wbDirty ∧ v = false ∨ c = .evClean line ∧ k = .evClean ∧ v = false ∨ c = .rdSnoop line ∧ k = .rdSnoop ∧ v = false ∨ c = .wrInv
      line ∧ k = .wrInv ∧ v = false ∨ c = .directoryRecall line ∧ k = .wrInv ∧ v = true) ∧ s.Runs .control ∧ s.pkg.busyAt line = none ∧
      s.pkg.coh.sweep = false ∧ s.pkg.select line = some (q, step2, n) ∧ q.kind = k ∧ decide (q.tag = .victim) = v ∧ s.SetClean line ∧
      (allocates (dirRow (s.pkg.dirFind line) q) = false ∨ ((s.pkg.freeWay line).isSome ∧ s.pkg.recalling line = false))) ∧
    (∃ (s : State) (line : Nat) (c : Instr) (k : ReqKind) (v : Bool) (q : Req) (step2 : Bool) (n : Nat), (c = .rdShared line ∧ k =
      .rdShared ∧ v = false ∨ c = .rdOwn line ∧ k = .rdOwn ∧ v = false ∨ c = .upgrade line ∧ k = .upgrade ∧ v = false ∨ c = .wbDirty line ∧
      k = .wbDirty ∧ v = false ∨ c = .evClean line ∧ k = .evClean ∧ v = false ∨ c = .rdSnoop line ∧ k = .rdSnoop ∧ v = false ∨ c = .wrInv
      line ∧ k = .wrInv ∧ v = false ∨ c = .directoryRecall line ∧ k = .wrInv ∧ v = true) ∧ s.Runs .control ∧ s.pkg.busyAt line = none ∧
      s.pkg.coh.sweep = false ∧ s.pkg.select line = some (q, step2, n) ∧ q.kind = k ∧ decide (q.tag = .victim) = v ∧ s.SetClean line ∧
      (allocates (dirRow (s.pkg.dirFind line) q) = false ∨ ((s.pkg.freeWay line).isSome ∧ s.pkg.recalling line = false))) ∧
    (∃ (p : Pkg) (q : Req), q.requester < 68 ∧ q.line < 2 ^ 40 ∧ (p.dirFind q.line).way = none ∧ (p.freeWay q.line).isSome) ∧
    (∃ (p : Pkg) (q : Req), p.hitsImage q.line fullMask = false) :=
  ⟨⟨home .rdShared (.core 67), 9, .rdShared 9, .rdShared, false, ⟨67, .rdShared, 9, fullMask, [], .core 67, false, 0⟩, _, _, by simp,
      by decide, rfl, rfl, rfl, rfl, rfl, clean_set _ rfl 9, .inr (by decide +kernel)⟩,
    ⟨home .rdOwn (.core 67), 9, .rdOwn 9, .rdOwn, false, ⟨67, .rdOwn, 9, fullMask, [], .core 67, false, 0⟩, _, _, by simp, by decide, rfl,
      rfl, rfl, rfl, rfl, clean_set _ rfl 9, .inr (by decide +kernel)⟩,
    ⟨home .upgrade (.core 67), 9, .upgrade 9, .upgrade, false, ⟨67, .upgrade, 9, fullMask, [], .core 67, false, 0⟩, _, _, by simp,
      by decide, rfl, rfl, rfl, rfl, rfl, clean_set _ rfl 9, .inr (by decide +kernel)⟩,
    ⟨home .wbDirty (.core 67), 9, .wbDirty 9, .wbDirty, false, ⟨67, .wbDirty, 9, fullMask, [], .core 67, false, 0⟩, _, _, by simp,
      by decide, rfl, rfl, rfl, rfl, rfl, clean_set _ rfl 9, .inr (by decide +kernel)⟩,
    ⟨home .evClean (.core 67), 9, .evClean 9, .evClean, false, ⟨67, .evClean, 9, fullMask, [], .core 67, false, 0⟩, _, _, by simp,
      by decide, rfl, rfl, rfl, rfl, rfl, clean_set _ rfl 9, .inr (by decide +kernel)⟩,
    ⟨home .rdSnoop (.core 67), 9, .rdSnoop 9, .rdSnoop, false, ⟨67, .rdSnoop, 9, fullMask, [], .core 67, false, 0⟩, _, _, by simp,
      by decide, rfl, rfl, rfl, rfl, rfl, clean_set _ rfl 9, .inr (by decide +kernel)⟩,
    ⟨home .wrInv (.core 67), 9, .wrInv 9, .wrInv, false, ⟨67, .wrInv, 9, fullMask, [], .core 67, false, 0⟩, _, _, by simp, by decide, rfl,
      rfl, rfl, rfl, rfl, clean_set _ rfl 9, .inr (by decide +kernel)⟩,
    ⟨home .wrInv (.victim), 9, .directoryRecall 9, .wrInv, true, ⟨67, .wrInv, 9, fullMask, [], .victim, false, 0⟩, _, _, by simp,
      by decide, rfl, rfl, rfl, rfl, rfl, clean_set _ rfl 9, .inl (by decide +kernel)⟩,
    ⟨pk [], ⟨67, .rdShared, 2 ^ 40 - 1, fullMask, [], .core 67, false, 0⟩, by decide +kernel⟩,
    ⟨pk [], ⟨67, .rdShared, 9, fullMask, [], .core 67, false, 0⟩, by decide +kernel⟩⟩

theorem witness_SnoopsAndHomeEvents :
    (∃ (s : State) (c : CoreNo) (line i : Nat) (x : L2Line) (sn : Snoop) (k : SnoopKind) (cmd : Instr), (cmd = .fwdS c line ∧ k = .fwdS ∨
      cmd = .fwdM c line ∧ k = .fwdM ∨ cmd = .inv c line ∧ k = .inv ∨ cmd = .invD c line ∧ k = .invD ∨ cmd = .snpRd c line ∧ k = .snpRd) ∧
      s.Runs .control ∧ s.pkg.l2 c.val line = some x ∧ (∀ w < 4, checkWord (x.data.getD w zeroWord) = .clean) ∧ (s.pkg.coh.snoops.findIdx?
      (fun y => y.open c.val line && decide (y.kind = k)) = some i) ∧ s.pkg.coh.snoops[i]? = some sn) ∧
    (∃ (s : State) (c : CoreNo) (line i : Nat) (x : L2Line) (sn : Snoop) (k : SnoopKind) (cmd : Instr), (cmd = .fwdS c line ∧ k = .fwdS ∨
      cmd = .fwdM c line ∧ k = .fwdM ∨ cmd = .inv c line ∧ k = .inv ∨ cmd = .invD c line ∧ k = .invD ∨ cmd = .snpRd c line ∧ k = .snpRd) ∧
      s.Runs .control ∧ s.pkg.l2 c.val line = some x ∧ (∀ w < 4, checkWord (x.data.getD w zeroWord) = .clean) ∧ (s.pkg.coh.snoops.findIdx?
      (fun y => y.open c.val line && decide (y.kind = k)) = some i) ∧ s.pkg.coh.snoops[i]? = some sn) ∧
    (∃ (s : State) (c : CoreNo) (line i : Nat) (x : L2Line) (sn : Snoop) (k : SnoopKind) (cmd : Instr), (cmd = .fwdS c line ∧ k = .fwdS ∨
      cmd = .fwdM c line ∧ k = .fwdM ∨ cmd = .inv c line ∧ k = .inv ∨ cmd = .invD c line ∧ k = .invD ∨ cmd = .snpRd c line ∧ k = .snpRd) ∧
      s.Runs .control ∧ s.pkg.l2 c.val line = some x ∧ (∀ w < 4, checkWord (x.data.getD w zeroWord) = .clean) ∧ (s.pkg.coh.snoops.findIdx?
      (fun y => y.open c.val line && decide (y.kind = k)) = some i) ∧ s.pkg.coh.snoops[i]? = some sn) ∧
    (∃ (s : State) (c : CoreNo) (line i : Nat) (x : L2Line) (sn : Snoop) (k : SnoopKind) (cmd : Instr), (cmd = .fwdS c line ∧ k = .fwdS ∨
      cmd = .fwdM c line ∧ k = .fwdM ∨ cmd = .inv c line ∧ k = .inv ∨ cmd = .invD c line ∧ k = .invD ∨ cmd = .snpRd c line ∧ k = .snpRd) ∧
      s.Runs .control ∧ s.pkg.l2 c.val line = some x ∧ (∀ w < 4, checkWord (x.data.getD w zeroWord) = .clean) ∧ (s.pkg.coh.snoops.findIdx?
      (fun y => y.open c.val line && decide (y.kind = k)) = some i) ∧ s.pkg.coh.snoops[i]? = some sn) ∧
    (∃ (s : State) (c : CoreNo) (line i : Nat) (x : L2Line) (sn : Snoop) (k : SnoopKind) (cmd : Instr), (cmd = .fwdS c line ∧ k = .fwdS ∨
      cmd = .fwdM c line ∧ k = .fwdM ∨ cmd = .inv c line ∧ k = .inv ∨ cmd = .invD c line ∧ k = .invD ∨ cmd = .snpRd c line ∧ k = .snpRd) ∧
      s.Runs .control ∧ s.pkg.l2 c.val line = some x ∧ (∀ w < 4, checkWord (x.data.getD w zeroWord) = .clean) ∧ (s.pkg.coh.snoops.findIdx?
      (fun y => y.open c.val line && decide (y.kind = k)) = some i) ∧ s.pkg.coh.snoops[i]? = some sn) ∧
    (∃ (s : State) (k : Nat) (q : Req), s.Runs .control ∧ s.pkg.coh.net[k]? = some q ∧ q.kind ≠ .wrInv ∧ q.requester < 68 ∧ s.SetClean
      q.line ∧ ((s.pkg.coh.arb.filter fun x => decide (dieOf (x.line * 64) = dieOf (q.line * 64))).length < 512)) ∧
    (∃ (s : State) (c : CoreNo) (line i : Nat) (sn : Snoop), s.Runs .control ∧ (s.pkg.coh.snoops.findIdx? (fun y => decide (y.core = c.val
      ∧ y.line = line) && y.answered) = some i) ∧ s.pkg.coh.snoops[i]? = some sn ∧ s.pkg.busyAt line = none) ∧
    (∃ (s : State) (c : CoreNo) (line i : Nat) (sn : Snoop) (b : Busy), s.Runs .control ∧ (s.pkg.coh.snoops.findIdx? (fun y => decide
      (y.core = c.val ∧ y.line = line) && y.answered) = some i) ∧ s.pkg.coh.snoops[i]? = some sn ∧ s.pkg.busyAt line = some b ∧ sn.stale =
      false ∧ 2 ≤ b.waiting) ∧
    (∃ (s : State) (r : Fin 80) (line : Nat) (b : Busy), s.Runs .control ∧ s.pkg.busyAt line = some b ∧ b.req.requester = r.val ∧ b.filled
      = true) ∧
    (∃ (s : State) (c : CoreNo) (line : Nat) (b : Busy), s.Runs .control ∧ s.pkg.busyAt line = some b ∧ b.sent + 100 * s.pkg.reg
      O.homeTimeoutUs ≤ s.pkg.mtime ∧ b.req.kind ≠ .wrInv ∧ (s.pkg.coh.snoops.any (fun x => decide (x.core = c.val ∧ x.line = line) &&
      !x.stale) = true)) :=
  ⟨⟨holds .m [⟨67, 9, .fwdS, false, none, false, false⟩] [], 67, 9, 0, ⟨.m, List.replicate 4 zeroWord⟩, ⟨67, 9, .fwdS, false, none, false,
      false⟩, .fwdS, .fwdS 67 9, by decide +kernel⟩,
    ⟨holds .m [⟨67, 9, .fwdM, false, none, false, false⟩] [], 67, 9, 0, ⟨.m, List.replicate 4 zeroWord⟩, ⟨67, 9, .fwdM, false, none, false,
      false⟩, .fwdM, .fwdM 67 9, by decide +kernel⟩,
    ⟨holds .m [⟨67, 9, .inv, false, none, false, false⟩] [], 67, 9, 0, ⟨.m, List.replicate 4 zeroWord⟩, ⟨67, 9, .inv, false, none, false,
      false⟩, .inv, .inv 67 9, by decide +kernel⟩,
    ⟨holds .m [⟨67, 9, .invD, false, none, false, false⟩] [], 67, 9, 0, ⟨.m, List.replicate 4 zeroWord⟩, ⟨67, 9, .invD, false, none, false,
      false⟩, .invD, .invD 67 9, by decide +kernel⟩,
    ⟨holds .m [⟨67, 9, .snpRd, false, none, false, false⟩] [], 67, 9, 0, ⟨.m, List.replicate 4 zeroWord⟩, ⟨67, 9, .snpRd, false, none,
      false, false⟩, .snpRd, .snpRd 67 9, by decide +kernel⟩,
    ⟨st [] (fun p => { p with coh := { Coh.reset with net := [⟨67, .rdShared, 9, fullMask, [], .core 67, false, 0⟩] } }), 0, ⟨67,
      .rdShared, 9, fullMask, [], .core 67, false, 0⟩, by decide, rfl, by decide, by decide, clean_set _ rfl 9, by decide +kernel⟩,
    ⟨holds .s [⟨67, 9, .inv, true, none, false, false⟩] [], 67, 9, 0, ⟨67, 9, .inv, true, none, false, false⟩, by decide +kernel⟩,
    ⟨holds .s [⟨67, 9, .inv, true, none, false, false⟩] [busy2], 67, 9, 0, ⟨67, 9, .inv, true, none, false, false⟩, busy2,
      by decide +kernel⟩,
    ⟨holds .s [] [busy2], 66, 9, busy2, by decide +kernel⟩,
    ⟨holds .s [⟨67, 9, .inv, false, none, false, false⟩] [busy2], 67, 9, busy2, by decide +kernel⟩⟩

theorem witness_CoreAccesses :
    (∃ (s : State) (c : CoreNo) (a len : Nat) (lr : Bool) (x : L2Line), s.Runs .control ∧ s.pkg.coreOn c.val = true ∧ s.pkg.coh.fencing.at
      false c.val = false ∧ len ≠ 0 ∧ s.pkg.coh.loads.find c.val = none ∧ s.pkg.coh.stores.find c.val = none ∧ accessIn a len = .hbm ∧ a %
      64 + len ≤ 64 ∧ s.pkg.evicting c.val a len = false ∧ (lr = true → atomicOk a len = true) ∧ s.pkg.l2 c.val (a / 64) = some x ∧
      x.data.length = 4 ∧ (∀ w ∈ x.data, checkWord w = .clean)) ∧
    (∃ (s : State) (c : CoreNo) (a len : Nat) (lr : Bool) (x : L2Line), s.Runs .control ∧ s.pkg.coreOn c.val = true ∧ s.pkg.coh.fencing.at
      false c.val = false ∧ len ≠ 0 ∧ s.pkg.coh.loads.find c.val = none ∧ s.pkg.coh.stores.find c.val = none ∧ accessIn a len = .hbm ∧ a %
      64 + len ≤ 64 ∧ s.pkg.evicting c.val a len = false ∧ (lr = true → atomicOk a len = true) ∧ s.pkg.l2 c.val (a / 64) = some x ∧
      x.data.length = 4 ∧ (∀ w ∈ x.data, checkWord w = .clean)) ∧
    (∃ (s : State) (c : CoreNo) (a len : Nat) (lr : Bool), s.Runs .control ∧ s.pkg.coreOn c.val = true ∧ s.pkg.coh.fencing.at false c.val =
      false ∧ len ≠ 0 ∧ s.pkg.coh.loads.find c.val = none ∧ s.pkg.coh.stores.find c.val = none ∧ accessIn a len = .hbm ∧ a % 64 + len ≤ 64
      ∧ s.pkg.evicting c.val a len = false ∧ (lr = true → atomicOk a len = true) ∧ s.pkg.l2 c.val (a / 64) = none ∧ s.pkg.asked c.val (a /
      64) = false) ∧
    (∃ (s : State) (c : CoreNo) (a : Nat) (l : List Byte) (x : L2Line) (kind : CoreStoreKind) (b : List Byte), s.Runs .control ∧
      s.pkg.coreOn c.val = true ∧ s.pkg.coh.fencing.at false c.val = false ∧ l ≠ [] ∧ s.pkg.coh.stores.find c.val = none ∧ accessIn a
      l.length = .hbm ∧ a % 64 + l.length ≤ 64 ∧ s.pkg.evicting c.val a l.length = false ∧ s.pkg.l2 c.val (a / 64) = some x ∧ x.st ≠ .s ∧
      (∀ w < 4, checkWord (x.data.getD w zeroWord) = .clean) ∧ kind ≠ .plain ∧ kind ≠ .sc ∧ atomicOk a l.length = true ∧ wordsBytes
      [x.words.getD (a % 64 / 16) none] = some b) ∧
    (∃ (s : State) (c : CoreNo) (a : Nat) (l : List Byte) (x : L2Line), s.Runs .control ∧ s.pkg.coreOn c.val = true ∧ s.pkg.coh.fencing.at
      false c.val = false ∧ l ≠ [] ∧ s.pkg.coh.stores.find c.val = none ∧ accessIn a l.length = .hbm ∧ a % 64 + l.length ≤ 64 ∧
      s.pkg.evicting c.val a l.length = false ∧ s.pkg.l2 c.val (a / 64) = some x ∧ x.st = .s ∧ s.pkg.asked c.val (a / 64) = false) ∧
    (∃ (s : State) (c : CoreNo) (a : Nat) (l : List Byte), s.Runs .control ∧ s.pkg.coreOn c.val = true ∧ s.pkg.coh.fencing.at false c.val =
      false ∧ l ≠ [] ∧ s.pkg.coh.stores.find c.val = none ∧ accessIn a l.length = .hbm ∧ a % 64 + l.length ≤ 64 ∧ s.pkg.evicting c.val a
      l.length = false ∧ s.pkg.l2 c.val (a / 64) = none ∧ s.pkg.asked c.val (a / 64) = false) ∧
    (∃ (s : State) (c : CoreNo) (a : Nat) (l : List Byte), s.Runs .control ∧ s.pkg.coreOn c.val = true ∧ s.pkg.coh.fencing.at false c.val =
      false ∧ l ≠ [] ∧ s.pkg.coh.stores.find c.val = none ∧ accessIn a l.length = .hbm ∧ a % 64 + l.length ≤ 64 ∧ s.pkg.evicting c.val a
      l.length = false ∧ atomicOk a l.length = true ∧ s.pkg.coh.reserved.find c.val ≠ some (a / 64)) ∧
    (∃ (s : State) (c : CoreNo) (a len : Nat), s.Runs .control ∧ s.pkg.coreOn c.val = true ∧ s.pkg.coh.fencing.at false c.val = false ∧ len
      ≠ 0 ∧ s.pkg.coh.loads.find c.val = none ∧ s.pkg.coh.stores.find c.val = none ∧ accessIn a len = .reserved) ∧
    (∃ (s : State) (c : CoreNo) (a : Nat) (l : List Byte), s.Runs .control ∧ s.pkg.coreOn c.val = true ∧ s.pkg.coh.fencing.at false c.val =
      false ∧ l ≠ [] ∧ s.pkg.coh.stores.find c.val = none ∧ accessIn a l.length = .tileSram) :=
  ⟨⟨holds .e [] [], 67, 9 * 64 + 56, 8, true, ⟨.e, List.replicate 4 zeroWord⟩, by decide +kernel⟩,
    ⟨holds .e [] [], 67, 9 * 64 + 56, 8, false, ⟨.e, List.replicate 4 zeroWord⟩, by decide +kernel⟩,
    ⟨st [], 67, 9 * 64, 64, false, by decide +kernel⟩,
    ⟨holds .e [] [], 67, 9 * 64 + 56, [1, 0, 0, 0, 0, 0, 0, 0], ⟨.e, List.replicate 4 zeroWord⟩, .add, List.replicate 16 0,
      by decide +kernel⟩,
    ⟨holds .s [] [], 67, 9 * 64 + 63, [1], ⟨.s, List.replicate 4 zeroWord⟩, by decide +kernel⟩,
    ⟨st [], 67, 9 * 64 + 63, [1], by decide +kernel⟩,
    ⟨holds .e [] [], 67, 9 * 64 + 60, [1, 2, 3, 4], by decide +kernel⟩,
    ⟨st [], 67, 0xE100000000, 1, by decide +kernel⟩,
    ⟨st [], 67, sramAddr 191 15, [1, 2], by decide +kernel⟩⟩

theorem witness_CoreAndReclaimCommands :
    (∃ (s : State) (c : CoreNo) (line : Nat) (x : L2Line), s.Runs .control ∧ s.pkg.l2 c.val line = some x ∧ (∀ w < 4, checkWord
      (x.data.getD w zeroWord) = .clean) ∧ s.pkg.asked c.val line = false) ∧
    (∃ (s : State) (c : CoreNo) (line i : Nat) (f : Fill) (d : List PWord), s.Runs .control ∧ (s.pkg.coh.fills.findIdx? (fun f => decide
      (f.core = c.val ∧ f.line = line)) = some i) ∧ s.pkg.coh.fills[i]? = some f ∧ f.data = some d ∧ s.pkg.coh.stores.find c.val = none ∧
      s.pkg.coh.loads.find c.val = none ∧ (((s.pkg.l2Set c.val line).filter (fun x => decide (x ≠ line))).length < 16)) ∧
    (∃ (s : State) (c : CoreNo), s.Runs .control ∧ s.pkg.coh.stores.find c.val = none) ∧
    (∃ (s : State) (c : CoreNo), s.Runs .control ∧ (s.pkg.coh.stores.find c.val).isSome) ∧
    (∃ (s : State) (w : Writer) (v : Nat), s.Runs (writerPlane w) ∧ v ≤ 3 ∧ (s.pkg.reg O.reclaimOwner = 0 ∨ v = 0)) ∧
    (∃ (s : State) (pt : Path), s.Runs (pathPlane pt) ∧ s.pkg.reg O.reclaimOwner = 3 ∧ s.pkg.reclaimAgents ≠ 0 ∧ s.pkg.reg O.imageState ≠ 4
      ∧ s.pkg.coh.sweep = false ∧ (∀ c ∈ agents s.pkg.reclaimAgents, s.pkg.reg (O.coreState + c) = 1 ∨ s.pkg.reg (O.coreState + c) = 3)) ∧
    (∃ (s : State), s.Runs .control ∧ s.pkg.coh.sweep = true) ∧
    (∃ (s : State) (c : CoreNo), s.Runs .control ∧ s.pkg.coreOn c.val = true) ∧
    (∃ (s : State) (c : CoreNo), s.Runs .control ∧ s.pkg.boot.osStarted = true ∧ s.pkg.boot.coreHeld.at false c.val = true ∧ s.pkg.reg
      (O.coreState + c.val) = 1) :=
  ⟨⟨holds .m [] [], 67, 9, ⟨.m, List.replicate 4 zeroWord⟩, by decide +kernel⟩,
    ⟨st [] (fun p => { p with coh := { Coh.reset with fills := [⟨67, 9, .e, some (List.replicate 4 zeroWord)⟩] } }), 67, 9, 0, ⟨67, 9, .e,
      some (List.replicate 4 zeroWord)⟩, List.replicate 4 zeroWord, by decide +kernel⟩,
    ⟨st [], 67, by decide +kernel⟩,
    ⟨st [] (fun p => { p with coh := { Coh.reset with stores := [(67, ⟨0, [1], .plain⟩)] } }), 67, by decide +kernel⟩,
    ⟨st [(O.reclaimOwner, 2)], .unit, 0, by decide +kernel⟩,
    ⟨st [(O.reclaimOwner, 3), (O.reclaimMask + 2, 8), (O.coreState + 67, 1)], .canFd, by decide +kernel⟩,
    ⟨st [] (fun p => { p with coh := { Coh.reset with sweep := true } }), by decide +kernel⟩,
    ⟨st [], 67, by decide +kernel⟩,
    ⟨st [(O.coreState + 67, 1)] (fun p => { p with boot := { Boot.reset with osStarted := true, coreHeld := [(67, true)] } }), 67,
      by decide +kernel⟩⟩

/-- Port 11 in this state, with port_state x. -/
def portIn (x : Nat) (y : PortSt) (r : SMap Nat := []) : State :=
  st ((O.portState + 11, x) :: r) fun p => { p with links := { Links.reset with ports := [(11, y)] } }

/-- A configuration set that passes every check of R391. -/
def armable (x : Nat) : State :=
  st [(O.cfgArmState, x)] fun p =>
    { p with dict := { p.dict with shadow := (arr O.wakeSlewAPerUs 9 50 ++ arr O.wakeStepMaxA 9 100) ++ [(O.cmdWindowBase, 0x10000000000), (O.ingestWindowBase, 0x10100000000)] } }

/-- Queue q in this state. -/
def queueIs (q : Nat) (x : QueueSt) (r : SMap Nat) : State :=
  st r fun p => { p with host := { HostUnit.reset with queues := [(q, x)] } }

/-- That machine with port H's link up. -/
def linked (s : State) : State :=
  let p := s.pkg
  { s with pkg := { p with host := { p.host with linkUp := true } } }

/-- A descriptor of zeros with its CRC-32C. -/
def zeroDesc : List Byte := List.replicate 60 0 ++ [0x31, 0x05, 0x0B, 0x5A]

/-- Queues 62 and 63 fetch the descriptor whose last word is stored so; queue 62 has read it eight times more. -/
def fetches (last : PWord) : State :=
  st [(O.cmdWindowBase, 0x10000000000)] fun p =>
    let x := { QueueSt.reset with enabled := true, fetching := true, tail := 1 }
    let q := p.setWord 0x10000000030 last
    { q with host := { HostUnit.reset with queues := [(62, { x with rereads := 8 }), (63, x)] } }

/-- It is the descriptor of zeros; it is poison. -/
def fetchGood : State := fetches (goodWord (0x5A0B0531 * 2 ^ 96))
def fetchBad : State := fetches poisonWord

/-- A descriptor read that gives these bytes and leaves expected_seq of queues 62 and 63 at 0. -/
def gives (b : Option (List Byte)) (r : Option (List Byte) × Pkg) : Prop :=
  r.1 = b ∧ 0 = r.2.qReg O.expectedSeq 62 ∧ 0 = r.2.qReg O.expectedSeq 63

theorem good_bytes : fetchGood.pkg.agentBytes portH 0x10000000000 64 = (some zeroDesc, fetchGood.pkg) :=
  quiet_gives _ ⟨rfl, rfl, rfl, rfl⟩ _ _ _ _ (by decide +kernel) (by decide +kernel)
theorem fetched_good : gives (some zeroDesc) (fetchGood.pkg.agentBytes portH 0x10000000000 64) := by
  rw [good_bytes]
  exact ⟨rfl, rfl, rfl⟩
theorem fetched_bad : gives none (fetchBad.pkg.agentBytes portH 0x10000000000 64) := by unfold gives; decide +kernel

/-- The codeword of eight idle flits, with an error in one of its symbols mended, and those flits as read. -/
def idleWord : RxCodeword := ⟨0, some ((List.replicate 8 (Pkg.reset.idleFlit)).flatMap flitBytes), 1, []⟩
def idleFlits : List LinkFlit := readFlits (idleWord.body.getD []) []

theorem witness_CodewordsAndRetry :
    (∃ (s : State) (i : PortNo), s.Runs .link ∧ s.pkg.reg (O.portState + i.val) = 2 ∧ (s.pkg.port i.val).resend = none ∧ (s.pkg.port
      i.val).replay.length < 512) ∧
    (∃ (s : State) (i : PortNo) (pos : Nat) (e : Nat × List LinkFlit) (r : List (Nat × List LinkFlit)), s.Runs .link ∧ s.pkg.reg
      (O.portState + i.val) = 2 ∧ (s.pkg.port i.val).resend = some pos ∧ ((s.pkg.port i.val).replay.dropWhile (fun e => decide (e.1 ≠ pos))
      = e :: r)) ∧
    (∃ (s : State) (i : PortNo), s.Runs .link ∧ s.pkg.reg (O.portState + i.val) = 2 ∧ (s.pkg.port i.val).resend = none ∧ 512 ≤ (s.pkg.port
      i.val).replay.length) ∧
    (∃ (s : State), s.Runs .link) ∧
    (∃ (s : State) (i : PortNo) (position : Nat), s.Runs .link ∧ atOrBelow (position + 1) (s.pkg.port i.val).ackPos = false ∧ ((s.pkg.port
      i.val).replay.any (fun e => decide (e.1 = position)) = true)) ∧
    (∃ (s : State) (i : PortNo) (w : RxCodeword), s.Runs .link ∧ s.pkg.reg (O.portState + i.val) = 2 ∧ goodFlits w = none ∧ w.pos =
      (s.pkg.port i.val).rxPos ∧ (s.pkg.port i.val).nakPos = none) ∧
    (∃ (s : State) (i : PortNo) (w : RxCodeword), s.Runs .link ∧ s.pkg.reg (O.portState + i.val) = 2 ∧ goodFlits w = none ∧ w.pos ≠
      (s.pkg.port i.val).rxPos ∧ atOrBelow (s.pkg.port i.val).rxPos w.pos = true) ∧
    (∃ (s : State) (i : PortNo) (w : RxCodeword), s.Runs .link ∧ s.pkg.reg (O.portState + i.val) = 2 ∧ atOrBelow (s.pkg.port i.val).rxPos
      w.pos = false ∧ atOrBelow (s.pkg.port i.val).rxTop w.pos = false ∧ w.pos ≠ (s.pkg.port i.val).rxPos) ∧
    (∃ (s : State) (i : PortNo) (w : RxCodeword) (fs : List LinkFlit) (replayed : Bool) (p : Pkg), s.Runs .link ∧ s.pkg.reg (O.portState +
      i.val) = 2 ∧ goodFlits w = some fs ∧ w.pos = (s.pkg.port i.val).rxPos ∧ replayed = !atOrBelow (s.pkg.port i.val).rxTop w.pos ∧ (p =
      (s.pkg.bump64 (O.fecCorrectedSymbols + 2 * i.val) w.corrected).setPort i.val
      { s.pkg.port i.val with rxTop := if replayed then (s.pkg.port i.val).rxTop else (w.pos + 1) % 2 ^ 32 })) ∧
    (∃ (s : State) (i : PortNo) (w : RxCodeword) (fs : List LinkFlit) (replayed : Bool) (p : Pkg), s.Runs .link ∧ s.pkg.reg (O.portState +
      i.val) = 2 ∧ goodFlits w = some fs ∧ w.pos = (s.pkg.port i.val).rxPos ∧ replayed = !atOrBelow (s.pkg.port i.val).rxTop w.pos ∧ (p =
      (s.pkg.bump64 (O.fecCorrectedSymbols + 2 * i.val) w.corrected).setPort i.val
      { s.pkg.port i.val with rxTop := if replayed then (s.pkg.port i.val).rxTop else (w.pos + 1) % 2 ^ 32 })) :=
  ⟨⟨portIn 2 { PortSt.reset with replay := List.replicate 511 (7, []) }, 11, by decide +kernel⟩,
    ⟨portIn 2 { PortSt.reset with resend := some 7, replay := [(6, []), (7, [])] }, 11, 7, (7, []), [], by decide +kernel⟩,
    ⟨portIn 2 { PortSt.reset with replay := List.replicate 512 (7, []) }, 11, by decide +kernel⟩,
    ⟨st [], by decide⟩,
    ⟨portIn 2 { PortSt.reset with ackPos := 7, replay := [(7, [])] }, 11, 7, by decide +kernel⟩,
    ⟨portIn 2 PortSt.reset, 11, ⟨0, none, 0, []⟩, by decide +kernel⟩,
    ⟨portIn 2 PortSt.reset, 11, ⟨5, none, 0, []⟩, by decide +kernel⟩,
    ⟨portIn 2 { PortSt.reset with rxPos := 7, rxTop := 7 }, 11, ⟨6, none, 0, []⟩, by decide +kernel⟩,
    ⟨portIn 2 PortSt.reset, 11, idleWord, idleFlits, false, _, by decide, by decide +kernel, by decide +kernel, rfl, by decide +kernel,
      rfl⟩,
    ⟨portIn 2 { PortSt.reset with rxTop := 5 }, 11, idleWord, idleFlits, true, _, by decide, by decide +kernel, by decide +kernel, rfl,
      by decide +kernel, rfl⟩⟩

theorem witness_PortsAndLanes :
    (∃ (s : State) (i : PortNo), s.Runs .link ∧ s.pkg.reg O.psCurrent = 0 ∧ bitOf (s.pkg.reg O.padHeld) 1 = false ∧ (s.pkg.port i.val).dead
      = false ∧ (s.pkg.reg (O.portState + i.val) = 0 ∨ s.pkg.reg (O.portState + i.val) = 1)) ∧
    (∃ (s : State) (i : PortNo), s.Runs .link ∧ s.pkg.reg (O.portState + i.val) = 1) ∧
    (∃ (s : State) (i : PortNo) (rev : Nat), s.Runs .link ∧ s.pkg.reg (O.portState + i.val) = 1 ∧ rev ≠ s.pkg.reg O.revisionNumber) ∧
    (∃ (s : State) (i : PortNo), s.Runs .link ∧ s.pkg.reg (O.portState + i.val) = 2 ∧ s.pkg.reg (O.spareInUse + i.val) = 0xFF) ∧
    (∃ (s : State) (i : PortNo), s.Runs .link ∧ s.pkg.reg (O.portState + i.val) = 2 ∧ s.pkg.reg (O.spareInUse + i.val) ≠ 0xFF) ∧
    (∃ (s : State) (i : PortNo), s.Runs .link ∧ s.pkg.reg (O.portState + i.val) = 3) ∧
    (∃ (s : State) (i : PortNo) (rev : Nat), s.Runs .link ∧ s.pkg.reg (O.portState + i.val) = 3 ∧ rev ≠ s.pkg.reg O.revisionNumber) ∧
    (∃ (s : State) (i : PortNo), s.Runs .link ∧ s.pkg.reg (O.portState + i.val) = 3 ∧ s.pkg.retrainEnd i.val ≤ s.pkg.mtime) ∧
    (∃ (s : State) (i : PortNo), s.Runs .link ∧ s.pkg.reg (O.portState + i.val) = 3 ∧ s.pkg.mtime < s.pkg.retrainEnd i.val) ∧
    (∃ (s : State) (mv : Nat), s.Runs .link ∧ s.pkg.reg O.spareThresholdMv ≤ mv) ∧
    (∃ (s : State) (i : PortNo) (lane : Fin 9) (mv : Nat), s.Runs .link ∧ mv < s.pkg.reg O.spareThresholdMv ∧ lane.val ≠ 8 ∧ s.pkg.reg
      (O.spareInUse + i.val) = 0xFF ∧ (s.pkg.port i.val).spareAt = none) ∧
    (∃ (s : State) (i : PortNo), s.Runs .link ∧ s.pkg.reg (O.spareInUse + i.val) = 0xFF ∧ (s.pkg.port i.val).spareAt = none) ∧
    (∃ (s : State) (i : PortNo) (lane : Nat), s.Runs .link ∧ (s.pkg.port i.val).reached = some lane ∧ s.pkg.reg (O.spareInUse + i.val) =
      0xFF) ∧
    (∃ (s : State) (i : PortNo) (lane : Nat), s.Runs .link ∧ (s.pkg.port i.val).reached = some lane ∧ s.pkg.reg (O.spareInUse + i.val) =
      0xFF) ∧
    (∃ (s : State) (b : Fin 13) (w : SilzinWord) (kept : List PWord), s.Runs .link ∧ kept = s.pkg.links.bridges.at [] b.val ++ [packWord
      w.data]) ∧
    (∃ (s : State) (w : Writer) (d : Fin 2) (v : Nat), s.Runs (writerPlane w) ∧ v ≤ 3 ∧ (s.pkg.reg (O.linkTestOwner + d.val) = 0 ∨ v = 0)) ∧
    (∃ (s : State) (w : Writer) (d : Fin 2) (v : Nat), s.Runs (writerPlane w) ∧ v ≤ 3 ∧ v ≠ 0 ∧ s.pkg.reg (O.linkTestOwner + d.val) ≠ 0 ∧
      s.pkg.reg (O.linkTestOwner + d.val) ≠ v) ∧
    (∃ (s : State) (pt : Path) (d : Fin 2) (v : Nat), s.Runs (pathPlane pt) ∧ v < 12 ∧ (v < 8 ↔ d.val = 0) ∧ s.pkg.reg (O.linkTestOwner +
      d.val) = 3 ∧ (s.pkg.reg (O.portState + v) = 0 ∨ s.pkg.reg (O.portState + v) = 4)) ∧
    (∃ (s : State) (pt : Path) (d : Fin 2) (v : Nat), s.Runs (pathPlane pt) ∧ v < 12 ∧ (v < 8 ↔ d.val = 0) ∧ s.pkg.reg (O.linkTestOwner +
      d.val) = 3 ∧ (s.pkg.reg (O.portState + v) = 0 ∨ s.pkg.reg (O.portState + v) = 4)) :=
  ⟨⟨portIn 1 PortSt.reset, 11, by decide +kernel⟩,
    ⟨portIn 1 PortSt.reset, 11, by decide +kernel⟩,
    ⟨portIn 1 PortSt.reset, 11, 9, by decide +kernel⟩,
    ⟨portIn 2 PortSt.reset [(O.spareInUse + 11, 0xFF)], 11, by decide +kernel⟩,
    ⟨portIn 2 PortSt.reset, 11, by decide +kernel⟩,
    ⟨portIn 3 PortSt.reset, 11, by decide +kernel⟩,
    ⟨portIn 3 PortSt.reset, 11, 9, by decide +kernel⟩,
    ⟨portIn 3 PortSt.reset, 11, by decide +kernel⟩,
    ⟨portIn 3 { PortSt.reset with retrainAt := 1 }, 11, by decide +kernel⟩,
    ⟨st [(O.spareThresholdMv, 12)], 12, by decide +kernel⟩,
    ⟨st [(O.spareThresholdMv, 12), (O.spareInUse + 11, 0xFF)], 11, 7, 11, by decide +kernel⟩,
    ⟨portIn 2 PortSt.reset [(O.spareInUse + 11, 0xFF)], 11, by decide +kernel⟩,
    ⟨portIn 2 { PortSt.reset with spareAt := some (7, 9), txPos := 9 } [(O.spareInUse + 11, 0xFF)], 11, 7, by decide +kernel⟩,
    ⟨portIn 2 { PortSt.reset with spareRx := some (6, 9), rxPos := 10 } [(O.spareInUse + 11, 0xFF)], 11, 6, by decide +kernel⟩,
    ⟨st [], 12, ⟨some 1, (0, 0), (0, 0)⟩, _, by decide, rfl⟩,
    ⟨st [], .unit, 1, 3, by decide +kernel⟩,
    ⟨st [(O.linkTestOwner + 1, 2)], .path .core, 1, 3, by decide +kernel⟩,
    ⟨st [(O.linkTestOwner, 3)], .hostBar, 0, 7, by decide +kernel⟩,
    ⟨st [(O.linkTestOwner + 1, 3)], .canFd, 1, 11, by decide +kernel⟩⟩

theorem witness_ConfigurationArming :
    (∃ (s : State) (pt : Path) (v : Nat), s.Runs (pathPlane pt) ∧ s.Runs .management ∧ v ≠ 0 ∧ v < 0xFFFFFFFF ∧ s.pkg.reg O.cfgArmState =
      0) ∧
    (∃ (s : State) (pt : Path) (v : Nat), s.Runs (pathPlane pt) ∧ s.Runs .management ∧ v ≠ 0 ∧ v < 0xFFFFFFFF ∧ s.pkg.reg O.cfgArmState ≠
      0) ∧
    (∃ (s : State) (pt : Path), s.Runs (pathPlane pt) ∧ s.Runs .management ∧ s.pkg.reg O.cfgArmState ≠ 3) ∧
    (∃ (s : State) (pt : Path), s.Runs (pathPlane pt) ∧ s.Runs .management ∧ s.pkg.reg O.cfgArmState = 3) ∧
    (∃ (s : State) (pt : Path), s.Runs (pathPlane pt) ∧ s.Runs .management ∧ s.pkg.reg O.cfgArmState = 1 ∧ (∀ c ∈ s.pkg.swapChecks, c.2 =
      true) ∧ s.pkg.cfg.announce = none) ∧
    (∃ (s : State) (pt : Path) (c : Nat × Bool), s.Runs (pathPlane pt) ∧ s.Runs .management ∧ s.pkg.reg O.cfgArmState = 1 ∧
      (s.pkg.swapChecks.find? (fun c => !c.2) = some c)) ∧
    (∃ (s : State) (pt : Path), s.Runs (pathPlane pt) ∧ s.Runs .management ∧ s.pkg.reg O.cfgArmState = 2 ∧ s.pkg.reg O.imageState ≠ 4) ∧
    (∃ (s : State) (pt : Path), s.Runs (pathPlane pt) ∧ s.Runs .management ∧ (s.pkg.reg O.cfgArmState ≠ 2 ∨ s.pkg.reg O.imageState = 4)) ∧
    (∃ (s : State) (pt : Path), s.Runs (pathPlane pt) ∧ s.Runs .management ∧ (s.pkg.reg O.cfgArmState ≠ 2 ∨ s.pkg.reg O.imageState = 4)) ∧
    (∃ (s : State) (pt : Path), s.Runs (pathPlane pt) ∧ s.Runs .management ∧ s.pkg.reg O.imageState ≠ 4 ∧ s.pkg.reg O.cfgArmState = 2 ∧
      s.pkg.cfg.localSwap = true ∧ s.pkg.localDue = true) :=
  ⟨⟨st [], .hostBar, 0xFFFFFFFE, by decide +kernel⟩,
    ⟨st [(O.cfgArmState, 3)], .canFd, 1, by decide +kernel⟩,
    ⟨st [(O.cfgArmState, 2)], .core, by decide +kernel⟩,
    ⟨st [(O.cfgArmState, 3)], .core, by decide +kernel⟩,
    ⟨armable 1, .core, by decide +kernel, by decide +kernel, by decide +kernel, by decide +kernel, rfl⟩,
    ⟨st [(O.cfgArmState, 1)], .core, (0x4609, false), by decide +kernel⟩,
    ⟨st [(O.cfgArmState, 2)], .canFd, by decide +kernel⟩,
    ⟨st [(O.cfgArmState, 1)], .core, by decide +kernel⟩,
    ⟨st [(O.cfgArmState, 2), (O.imageState, 4)], .core, by decide +kernel⟩,
    ⟨st [(O.cfgArmState, 2), (O.domainBeat, 1024)] (fun p =>
      { p with cfg := { Cfg.reset with localSwap := true, pendRequest := true, lastLocal := some 0 } }), .core, by decide +kernel⟩⟩

theorem witness_SwapsAndPeriods :
    (∃ (s : State) (pt : Path) (v b : Nat) (i : Image), s.Runs (pathPlane pt) ∧ v < 2 ^ 32 ∧ s.pkg.posImage = some i ∧ s.pkg.reg
      O.imageState = 4 ∧ s.pkg.isMaster = true ∧ s.pkg.cfg.announce = none ∧ nextSwapBeat s.pkg i (s.pkg.schedBeat + 2 * i.slipHorizon) =
      some b) ∧
    (∃ (s : State) (x : C0In) (i : Image), s.Runs .link ∧ IsNew x s.pkg ∧ s.pkg.posImage = some i ∧ s.pkg.reg O.imageState = 4) ∧
    (∃ (s : State) (a : Announce) (i : Image), s.Runs .management ∧ s.pkg.cfg.announce = some a ∧ s.pkg.posImage = some i ∧ a.beat ≤
      s.pkg.schedBeat + i.slipHorizon ∧ s.pkg.reg O.cfgArmState ≠ 3 ∧ a.refused = false) ∧
    (∃ (s : State) (x : C0In) (a : Announce), s.Runs .link ∧ IsNew x s.pkg ∧ s.pkg.cfg.announce = some a) ∧
    (∃ (s : State), s.Runs .management ∧ (s.pkg.periodEntry.isSome ∨ s.pkg.localDue = true)) ∧
    (∃ (s : State), s.Runs .management ∧ (s.pkg.periodEntry.isSome ∨ s.pkg.localDue = true)) ∧
    (∃ (s : State) (k : Nat), s.Runs .management ∧ s.pkg.reg O.psCurrent = 0 ∧ s.pkg.reg O.periodTimerOwner ≠ 0 ∧ s.pkg.reg
      O.periodIntervalMs ≠ 0 ∧ k = (s.pkg.mtime - s.pkg.cfg.timerClaim) / (s.pkg.reg O.periodIntervalMs * 100000) ∧ s.pkg.cfg.timerFired <
      k) ∧
    (∃ (s : State) (pt : Path), s.Runs (pathPlane pt) ∧ s.pkg.reg O.psCurrent = 0) ∧
    (∃ (s : State) (pt : Path) (v : Nat), s.Runs (pathPlane pt) ∧ s.pkg.reg O.periodTimerOwner = 0 ∧ v ≠ 0 ∧ v ≤ 3) ∧
    (∃ (s : State) (pt : Path) (v : Nat), s.Runs (pathPlane pt) ∧ v ≤ 2 ∧ (s.pkg.reg O.prdOutOwner = 0 ∨ v = 0)) :=
  ⟨⟨onImage { img with prog := [⟨0, 0, true, false, true, true⟩, ⟨60, 1, false, false, false, false⟩] } 4, .core, 5, 2000,
      { img with prog := [⟨0, 0, true, false, true, true⟩, ⟨60, 1, false, false, false, false⟩] }, by decide +kernel⟩,
    ⟨onImage img 4, ⟨0, 1, 1⟩, img, by decide, trivial, rfl, rfl⟩,
    ⟨onImage img 4 (fun p => { p with cfg := { Cfg.reset with announce := some ⟨5, 4, 1000, false⟩ } }), ⟨5, 4, 1000, false⟩, img,
      by decide +kernel⟩,
    ⟨onImage img 4 (fun p => { p with cfg := { Cfg.reset with announce := some ⟨5, 4, 1000, false⟩ } }), ⟨0, 1, 1⟩, _, by decide, trivial,
      rfl⟩,
    ⟨onImage { img with prog := [⟨0, 0, true, false, true, true⟩, ⟨60, 1, false, false, false, false⟩] } 4, by decide +kernel⟩,
    ⟨st [] (fun p => { p with cfg := { Cfg.reset with pendTimer := true } }), by decide +kernel⟩,
    ⟨st [(O.periodTimerOwner, 3), (O.periodIntervalMs, 1)] (fun p => { p with mtime := 100000 }), 1, by decide +kernel⟩,
    ⟨st [], .core, by decide +kernel⟩,
    ⟨st [], .hostBar, 3, by decide +kernel⟩,
    ⟨st [(O.prdOutOwner, 1)], .canFd, 0, by decide +kernel⟩⟩

theorem witness_HostLinksAndSessions :
    (∃ (s : State), s.pkg.reg O.psCurrent ≤ 2 ∧ bitOf (s.pkg.reg O.padHeld) 2 = false) ∧
    (∃ (s : State), s.pkg.reg O.pcieLinkState = 2 ∧ s.pkg.reg O.sessionState ≠ 2) ∧
    (∃ (s : State), s.Runs .control ∧ s.pkg.reg O.sessionState ≠ 2) ∧
    (∃ (s : State) (pt : Path), s.Runs (pathPlane pt) ∧ s.pkg.reg O.sessionState = 0 ∧ s.pkg.reg O.rngState = 0) ∧
    (∃ (s : State) (pt : Path), s.Runs (pathPlane pt) ∧ s.pkg.reg O.sessionState ≠ 0) ∧
    (∃ (s : State), s.Runs .control ∧ s.pkg.reg O.sessionState ≠ 0 ∧ s.pkg.host.tokenRead = false ∧ s.pkg.host.tokenHighRead = false) ∧
    (∃ (s : State) (pt : Path), s.Runs (pathPlane pt) ∧ (pt ≠ .hostBar ∨ (s.pkg.host.tokenRead = true ∧ s.pkg.host.tokenHighRead = true))) ∧
    (∃ (s : State) (pt : Path), s.Runs (pathPlane pt) ∧ (pt ≠ .hostBar ∨ (s.pkg.host.tokenRead = true ∧ s.pkg.host.tokenHighRead = true))) ∧
    (∃ (s : State) (pt : Path), s.Runs (pathPlane pt) ∧ s.pkg.reg O.sessionState = 2 ∧ s.pkg.reg O.sessionToken = s.pkg.host.token ∧
      s.pkg.host.linkUp = true) ∧
    (∃ (s : State) (pt : Path), s.Runs (pathPlane pt) ∧ (s.pkg.reg O.sessionState ≠ 2 ∨ s.pkg.reg O.sessionToken ≠ s.pkg.host.token)) ∧
    (∃ (s : State) (pt : Path), s.Runs (pathPlane pt) ∧ (s.pkg.reg O.sessionState ≠ 2 ∨ s.pkg.reg O.sessionToken ≠ s.pkg.host.token)) ∧
    (∃ (s : State) (pt : Path), s.Runs (pathPlane pt) ∧ s.pkg.reg O.sessionState ≠ 0 ∧ (pt = .canFd ∨ s.pkg.reg O.sessionToken =
      s.pkg.host.token)) ∧
    (∃ (s : State) (pt : Path), s.Runs (pathPlane pt) ∧ s.pkg.reg O.sessionState ≠ 0 ∧ (pt = .canFd ∨ s.pkg.reg O.sessionToken =
      s.pkg.host.token)) ∧
    (∃ (s : State), s.Runs .control ∧ s.pkg.reg O.sessionState = 2 ∧ s.pkg.host.detachedAt + s.pkg.reg O.sessionHoldS * 100000000 ≤
      s.pkg.mtime) :=
  ⟨⟨st [(O.psCurrent, 2)], by decide +kernel⟩,
    ⟨st [(O.pcieLinkState, 2), (O.sessionState, 1)], by decide +kernel⟩,
    ⟨st [], by decide +kernel⟩,
    ⟨st [], .core, by decide +kernel⟩,
    ⟨st [(O.sessionState, 2)], .core, by decide +kernel⟩,
    ⟨st [(O.sessionState, 1)], by decide +kernel⟩,
    ⟨st [], .canFd, by decide +kernel⟩,
    ⟨st [] (fun p => { p with host := { HostUnit.reset with tokenRead := true, tokenHighRead := true } }), .hostBar, by decide +kernel⟩,
    ⟨st [(O.sessionState, 2), (O.sessionToken, 9)] (fun p => { p with host := { HostUnit.reset with token := 9, linkUp := true } }), .core,
      by decide +kernel⟩,
    ⟨st [], .core, by decide +kernel⟩,
    ⟨st [(O.sessionState, 2), (O.sessionToken, 9)], .core, by decide +kernel⟩,
    ⟨st [(O.sessionState, 1)], .canFd, by decide +kernel⟩,
    ⟨st [(O.sessionState, 1)], .hostBar, by decide +kernel⟩,
    ⟨st [(O.sessionState, 2), (O.sessionHoldS, 1)] (fun p => { p with mtime := 100000000 }), by decide +kernel⟩⟩

theorem witness_WindowsAndQueues :
    (∃ (s : State) (o : Nat) (l : List Byte) (a : _), s.Runs .control ∧ o + l.length ≤ 2 ^ 32 ∧ a = s.pkg.reg O.cmdWindowBase + o ∧ l ≠ []) ∧
    (∃ (s : State) (o : Nat) (l : List Byte) (a : _), s.Runs .control ∧ o + l.length ≤ 2 ^ 38 ∧ s.pkg.reg O.ingestEnable ≠ 0 ∧ a =
      s.pkg.reg O.ingestWindowBase + o ∧ l ≠ []) ∧
    (∃ (s : State) (o : Nat) (l : List Byte), s.Runs .control ∧ o + l.length ≤ 2 ^ 38 ∧ s.pkg.reg O.ingestEnable = 0) ∧
    (∃ (s : State) (o n : Nat), s.Runs .control ∧ n ≤ 64 ∧ o + n ≤ 2 ^ 38) ∧
    (∃ (s : State) (n : Nat), s.Runs .control ∧ 64 < n) ∧
    (∃ (s : State) (w : Nat), s.Runs .control ∧ w ≤ 1023) ∧
    (∃ (s : State) (pt : Path) (q : QueueNo) (v : Nat), s.Runs (pathPlane pt) ∧ q.val ≠ 0 ∧ (s.pkg.queue q.val).enabled = false ∧
      (s.pkg.queue q.val).disabling = false ∧ s.pkg.reg (qKey O.queueOwner q.val) = 0 ∧ v ≠ 0 ∧ v ≤ 2) ∧
    (∃ (s : State) (pt : Path) (q : QueueNo), s.Runs (pathPlane pt) ∧ (s.pkg.queue q.val).enabled = false ∧ (s.pkg.queue q.val).disabling =
      false ∧ s.pkg.queueReady q.val = true) ∧
    (∃ (s : State) (pt : Path) (q : QueueNo), s.Runs (pathPlane pt) ∧ (s.pkg.queue q.val).enabled = true ∧ (s.pkg.queue q.val).disabling =
      false) ∧
    (∃ (s : State) (q : QueueNo), s.Runs .control ∧ (s.pkg.queue q.val).disabling = true ∧ (s.pkg.queue q.val).records = [] ∧ (∀ f ∈
      s.pkg.host.flushes, f.1 ≠ q.val) ∧ (q.val ≠ 0 ∨ s.pkg.loaderBusy = false)) ∧
    (∃ (s : State) (pt : Path) (q : QueueNo) (v : Nat), s.Runs (pathPlane pt) ∧ v < 2 ^ 16 ∧ v < s.pkg.qReg O.sqEntries q.val ∧
      (s.pkg.queue q.val).enabled = true ∧ (if q.val = 0 then doorClaimant pt ≠ 0 else doorClaimant pt = s.pkg.qReg O.queueOwner q.val) ∧ v
      ≠ (s.pkg.queue q.val).tail) ∧
    (∃ (s : State) (pt : Path) (q : QueueNo) (v : Nat), s.Runs (pathPlane pt) ∧ v < 2 ^ 16 ∧ v < s.pkg.qReg O.sqEntries q.val ∧
      (s.pkg.queue q.val).enabled = true ∧ (if q.val = 0 then doorClaimant pt ≠ 0 else doorClaimant pt = s.pkg.qReg O.queueOwner q.val) ∧ v
      ≠ (s.pkg.queue q.val).tail) ∧
    (∃ (s : State) (pt : Path) (q : QueueNo) (v : Nat), s.Runs (pathPlane pt) ∧ ((s.pkg.queue q.val).enabled = false ∨ s.pkg.qReg
      O.sqEntries q.val ≤ v)) ∧
    (∃ (s : State) (pt : Path) (q : QueueNo) (v : Nat), s.Runs (pathPlane pt) ∧ ((s.pkg.queue q.val).enabled = false ∨ s.pkg.qReg
      O.sqEntries q.val ≤ v)) ∧
    (∃ (s : State) (q : QueueNo) (r : Option (List Byte)) (p : Pkg) (b : List Byte), s.Runs .control ∧ s.pkg.mayFetch q.val = true ∧
      s.pkg.agentBytes portH (s.pkg.reg O.cmdWindowBase + s.pkg.qReg O.sqOffset q.val + 64 * s.pkg.qReg O.sqHead q.val) 64 = (r, p) ∧
      (s.pkg.queue q.val).rereads = 0 ∧ r = some b ∧ crc32c (b.take 60) = leNat (b.drop 60) ∧ leNat (b.take 4) = p.qReg O.expectedSeq
      q.val) ∧
    (∃ (s : State) (q : QueueNo) (r : Option (List Byte)) (p : Pkg), s.Runs .control ∧ s.pkg.mayFetch q.val = true ∧ s.pkg.agentBytes portH
      (s.pkg.reg O.cmdWindowBase + s.pkg.qReg O.sqOffset q.val + 64 * s.pkg.qReg O.sqHead q.val) 64 = (r, p) ∧ (s.pkg.queue q.val).rereads
      = 0 ∧ r = none) ∧
    (∃ (s : State) (q : QueueNo) (r : Option (List Byte)) (p : Pkg) (b : List Byte), s.Runs .control ∧ s.pkg.mayFetch q.val = true ∧
      s.pkg.agentBytes portH (s.pkg.reg O.cmdWindowBase + s.pkg.qReg O.sqOffset q.val + 64 * s.pkg.qReg O.sqHead q.val) 64 = (r, p) ∧
      (s.pkg.queue q.val).rereads ≠ 0 ∧ r = some b ∧ crc32c (b.take 60) = leNat (b.drop 60) ∧ leNat (b.take 4) = p.qReg O.expectedSeq
      q.val) ∧
    (∃ (s : State) (q : QueueNo) (r : Option (List Byte)) (p : Pkg), s.Runs .control ∧ s.pkg.mayFetch q.val = true ∧ s.pkg.agentBytes portH
      (s.pkg.reg O.cmdWindowBase + s.pkg.qReg O.sqOffset q.val + 64 * s.pkg.qReg O.sqHead q.val) 64 = (r, p) ∧ (s.pkg.queue q.val).rereads
      = 8 ∧ r = none) :=
  ⟨⟨st [], 2 ^ 32 - 1, [0], _, by decide, by decide, rfl, by decide⟩,
    ⟨st [(O.ingestEnable, 1)], 2 ^ 38 - 1, [0], _, by decide +kernel, by decide, by decide +kernel, rfl, by decide⟩,
    ⟨st [], 2 ^ 38 - 1, [0], by decide +kernel⟩,
    ⟨st [], 2 ^ 38 - 64, 64, by decide +kernel⟩,
    ⟨st [], 65, by decide +kernel⟩,
    ⟨st [], 1023, by decide +kernel⟩,
    ⟨st [], .core, 63, 2, by decide +kernel⟩,
    ⟨st [(qKey O.queueOwner 63, 1), (qKey O.sqEntries 63, 4096), (qKey O.cqEntries 63, 2)], .core, 63, by decide +kernel⟩,
    ⟨queueIs 63 { QueueSt.reset with enabled := true } [], .core, 63, by decide +kernel⟩,
    ⟨queueIs 63 { QueueSt.reset with disabling := true } [], 63, by decide +kernel⟩,
    ⟨queueIs 0 { QueueSt.reset with enabled := true } [(qKey O.sqEntries 0, 4)], .core, 0, 3, by decide +kernel⟩,
    ⟨queueIs 63 { QueueSt.reset with enabled := true } [(qKey O.queueOwner 63, 1), (qKey O.sqEntries 63, 4)], .hostBar, 63, 3,
      by decide +kernel⟩,
    ⟨st [], .core, 63, 0, by decide +kernel⟩,
    ⟨queueIs 63 { QueueSt.reset with enabled := true } [(qKey O.sqEntries 63, 4)], .core, 63, 4, by decide +kernel⟩,
    ⟨fetchGood, 63, some zeroDesc, _, zeroDesc, by decide, by decide +kernel, fst_eq fetched_good.1, rfl, rfl, by decide +kernel,
      fetched_good.2.2⟩,
    ⟨fetchBad, 63, none, _, by decide, by decide +kernel, fst_eq fetched_bad.1, rfl, rfl⟩,
    ⟨fetchGood, 62, some zeroDesc, _, zeroDesc, by decide, by decide +kernel, fst_eq fetched_good.1, by decide, rfl, by decide +kernel,
      fetched_good.2.1⟩,
    ⟨fetchBad, 62, none, _, by decide, by decide +kernel, fst_eq fetched_bad.1, rfl, rfl⟩⟩

theorem witness_QueueWork :
    (∃ (s : State) (q : QueueNo) (d : Desc), s.Runs .control ∧ s.pkg.headCommand q.val 0 = some d ∧ (s.pkg.queue q.val).cmds = [d] ∧
      (s.pkg.queue q.val).enabled = true) ∧
    (∃ (s : State) (q : QueueNo) (d : Desc) (m n : Nat) (r : Pkg × Bool), s.Runs .control ∧ s.pkg.dmaTurn q.val = true ∧ s.pkg.headCommand
      q.val 1 = some d ∧ m = (s.pkg.queue q.val).moved ∧ n = min 4096 (d.length - m) ∧ r = s.pkg.pieceOut (d.src + m) (d.dst + m) n) ∧
    (∃ (s : State) (q : QueueNo) (d : Desc) (m n : Nat), s.Runs .control ∧ s.pkg.dmaTurn q.val = true ∧ s.pkg.headCommand q.val 2 = some d
      ∧ m = (s.pkg.queue q.val).moved ∧ m < d.length ∧ n = min 4096 (d.length - m) ∧ s.pkg.hostAway = true) ∧
    (∃ (s : State) (q : QueueNo) (c : HostCpl) (d : Desc) (m n : Nat), s.Runs .control ∧ s.pkg.dmaTurn q.val = true ∧ s.pkg.headCommand
      q.val 2 = some d ∧ m = (s.pkg.queue q.val).moved ∧ m < d.length ∧ n = min 4096 (d.length - m) ∧ s.pkg.hostAway = false ∧ c.status =
      0) ∧
    (∃ (s : State) (q : QueueNo) (c : HostCpl) (d : Desc) (m n : Nat), s.Runs .control ∧ s.pkg.dmaTurn q.val = true ∧ s.pkg.headCommand
      q.val 2 = some d ∧ m = (s.pkg.queue q.val).moved ∧ m < d.length ∧ n = min 4096 (d.length - m) ∧ s.pkg.hostAway = false ∧ c.status ≠
      0) ∧
    (∃ (s : State) (q : QueueNo) (l : List Byte), s.Runs .control ∧ l.length = 28 ∧ s.pkg.consumer q.val = 2 ∧ (s.pkg.queue q.val).enabled
      = true) ∧
    (∃ (s : State) (q : QueueNo) (r : CplRec), s.Runs .control ∧ (s.pkg.queue q.val).records = [r] ∧ s.pkg.ringFull q.val = false ∧
      s.pkg.consumer q.val ≠ 2 ∧ s.pkg.hostAway = false) ∧
    (∃ (s : State) (q : QueueNo) (r : CplRec) (l : List CplRec), s.Runs .control ∧ (s.pkg.queue q.val).records = r :: l ∧ s.pkg.ringFull
      q.val = true ∧ (s.pkg.queue q.val).disabling = false ∧ (s.pkg.queue q.val).full = false) ∧
    (∃ (s : State) (q : Nat) (l : List Unflushed) (rest : List (Nat × List Unflushed)), s.Runs .control ∧ s.pkg.host.flushes = (q, l) ::
      rest) ∧
    (∃ (s : State) (pt : Path) (q : QueueNo) (v : Nat), s.Runs (pathPlane pt) ∧ v < s.pkg.qReg O.cqEntries q.val) :=
  ⟨⟨queueIs 63 { QueueSt.reset with enabled := true, cmds := [⟨7, 0, 0, 0, 0, true⟩] } [], 63, ⟨7, 0, 0, 0, 0, true⟩, by decide +kernel⟩,
    ⟨queueIs 63 { QueueSt.reset with enabled := true, cmds := [⟨7, 1, 0, 0, 8192, true⟩], moved := 4096 } [], 63, ⟨7, 1, 0, 0, 8192, true⟩,
      4096, 4096, _, by decide, by decide +kernel, by decide +kernel, rfl, rfl, rfl⟩,
    ⟨queueIs 63 { QueueSt.reset with enabled := true, cmds := [⟨7, 2, 0, 0, 8192, true⟩] } [(O.sessionState, 2)], 63, ⟨7, 2, 0, 0, 8192,
      true⟩, 0, 4096, by decide +kernel⟩,
    ⟨linked (queueIs 63 { QueueSt.reset with enabled := true, moved := 4096, cmds := [⟨7, 2, 0, 0, 8192, true⟩] } []), 63, ⟨0, []⟩, ⟨7, 2,
      0, 0, 8192, true⟩, 4096, 4096, by decide +kernel⟩,
    ⟨linked (queueIs 63 { QueueSt.reset with enabled := true, moved := 4096, cmds := [⟨7, 2, 0, 0, 8192, true⟩] } []), 63, ⟨2, []⟩, ⟨7, 2,
      0, 0, 8192, true⟩, 4096, 4096, by decide +kernel⟩,
    ⟨queueIs 63 { QueueSt.reset with enabled := true } [(qKey O.queueConsumer 63, 2)], 63, List.replicate 28 0, by decide +kernel⟩,
    ⟨linked (queueIs 63 { QueueSt.reset with enabled := true, records := [⟨7, 0, 0, []⟩] } [(qKey O.cqEntries 63, 2)]), 63, ⟨7, 0, 0, []⟩,
      by decide +kernel⟩,
    ⟨queueIs 63 { QueueSt.reset with enabled := true, records := [⟨7, 0, 0, []⟩] } [(qKey O.cqEntries 63, 2), (qKey O.cqTail 63, 1)], 63,
      ⟨7, 0, 0, []⟩, [], by decide +kernel⟩,
    ⟨st [] (fun p => { p with host := { HostUnit.reset with flushes := [(63, [])] } }), 63, [], [], by decide, rfl⟩,
    ⟨st [(qKey O.cqEntries 63, 4)], .core, 63, 3, by decide +kernel⟩⟩

/-- A securing part of one region, for two positions. -/
def secP : SecPart := ⟨0x10000000000, 2 ^ 30, 100, [[0, 1]], [1, 0], [⟨0, 0, 1, 0x4000, 2 ^ 20, some 40, some 60⟩]⟩
def secImg (master : Nat) (x : Option SecPart) : Image := { img with variant := ⟨master, 0, 3, 1, 1⟩, sec := x }
def secured : State := onImage (secImg 0 (some secP)) 4

/-- A save hold of 20 beats from beat 100, 60 s and more after its last record, at this beat. -/
def saving (h : SaveHold) (beat : Nat) : State :=
  onImage img 4 (fun p =>
    { p with
      mtime := 6000000000
      secure := { p.secure with hold := some h }
      sched := { p.sched with hold := some ⟨100, 20, .save⟩ } }) [(O.saveStallS, 60), (O.domainBeat, beat)]

/-- A package with a recovery in progress. -/
def recovering (r : Recov) (state : Nat) : State := onImage img state fun p => { p with secure := { p.secure with recov := some r } }

/-- Position 1 has failed; reports are gathered, for 50 ms, at this tick. -/
def gathering : Recov := ⟨[1], 0, [], none, none, false⟩
def gathers (tick : Nat) (x : Option SecPart) (r : SMap Nat := []) : State :=
  let s := onImage (secImg 0 x) 5 (fun p => { p with mtime := tick, secure := { p.secure with recov := some gathering } }) [(O.gatherMs, 50)]
  let p := s.pkg
  { s with pkg := { p with dict := ⟨r ++ p.dict.act, [], [], []⟩ } }

/-- A halted package with a securing part. -/
def halted : State := onImage (secImg 0 (some secP)) 5

/-- Position 0 of a domain with this master, halted, in a recovery with this state, at this beat. -/
def resuming (master : Nat) (r : Recov) (beat : Nat := 0) : State :=
  onImage (secImg master (some secP)) 5 (fun p => { p with secure := { p.secure with recov := some r } }) [(O.domainBeat, beat)]

/-- Port 11 has seen class-0 number 7. -/
def portHeard : State := st [] fun p => { p with links := { Links.reset with ports := [(11, { PortSt.reset with c0Seen := [7] })] } }

/-- A flood of source 1 with sequence 5 was heard. -/
def heard : State := st [] fun p => { p with sched := { Sched.reset with filter := [(1, 5)] } }
theorem stale : ¬ IsNew ⟨11, 1, 5⟩ heard.pkg := by
  show ¬ laterSeq 5 5 = true
  decide

/-- A transition in progress, in this power state. -/
def moving (u : Transition) (cur : Nat) (r : SMap Nat := []) : State :=
  st ((O.psCurrent, cur) :: r) fun p => { p with power := { Power.reset with trans := some u } }

/-- One step of x units waits on rail 8, whose bucket holds b. -/
def waking (x b : Nat) (r : SMap Nat := []) : State :=
  st r fun p => { p with power := { Power.reset with wakeQueue := [(8, [x])], bucket := [(8, b)] } }

/-- A change to divisor 6 that takes effect at beat 100, with these dies held, at this beat. -/
def changing (beat : Nat) (heldDies : SMap Nat) : State :=
  st [(O.aclkDivisorActive, 4), (O.domainBeat, beat), (O.imageState, 4)] fun p =>
    { p with power := { Power.reset with opNext := some (6, 100), dvfsHeld := heldDies } }

/-- The object that a key names. -/
def theObj (k : Nat) : Obj := (objAt k).getD ⟨0, 0, 0, 0, 0, .ro, 0, 0, false⟩

theorem witness_SavePointRequests :
    (∃ (s : State) (pt : Path) (i : Image), s.Runs (pathPlane pt) ∧ s.pkg.posImage = some i) ∧
    (∃ (s : State) (x : C0In), s.Runs .link ∧ IsNew x s.pkg) ∧
    (∃ (s : State) (pt : Path) (v : Nat) (x : SecPart), s.Runs (pathPlane pt) ∧ v < 2 ^ 32 ∧ s.pkg.securing = some x ∧ v <
      x.regions.length) ∧
    (∃ (s : State) (pt : Path) (v : Nat) (x : SecPart), s.Runs (pathPlane pt) ∧ v < 2 ^ 32 ∧ s.pkg.securing = some x ∧ x.regions.length ≤
      v) ∧
    (∃ (s : State) (h : SaveHold) (y : Slip), s.Runs .data ∧ s.pkg.secure.hold = some h ∧ s.pkg.sched.hold = some y ∧ y.kind = .save ∧
      h.abandonAt = none ∧ h.streamed = true ∧ h.d0 + h.len ≤ s.pkg.reg O.domainBeat) ∧
    (∃ (s : State) (h : SaveHold) (y : Slip) (b : Nat) (i : Image), s.Runs .data ∧ s.pkg.secure.hold = some h ∧ s.pkg.sched.hold = some y ∧
      y.kind = .save ∧ h.abandonAt = some b ∧ b ≤ s.pkg.reg O.domainBeat ∧ h.streamed = false ∧ h.stopped = false ∧ s.pkg.loader.image =
      some i) ∧
    (∃ (s : State) (h : SaveHold) (i : Image), s.Runs .data ∧ s.pkg.secure.hold = some h ∧ s.pkg.loader.image = some i ∧ h.streamed = false
      ∧ h.stopped = false ∧ h.abandonAt = none ∧ h.moved + s.pkg.reg O.saveStallS * 100000000 ≤ s.pkg.mtime) ∧
    (∃ (s : State) (x : C0In) (h : SaveHold), s.Runs .link ∧ IsNew x s.pkg ∧ s.pkg.secure.hold = some h ∧ h.streamed = false ∧ h.stopped =
      false) :=
  ⟨⟨onImage img 4, .core, img, by decide +kernel⟩,
    ⟨st [], ⟨11, 1, 5⟩, by decide, trivial⟩,
    ⟨secured, .core, 0, secP, by decide +kernel⟩,
    ⟨secured, .canFd, 1, secP, by decide +kernel⟩,
    ⟨saving (⟨100, 20, 0, 0, true, false, none, []⟩) 120, ⟨100, 20, 0, 0, true, false, none, []⟩, ⟨100, 20, .save⟩, by decide +kernel⟩,
    ⟨saving (⟨100, 20, 0, 0, false, false, some 120, []⟩) 120, ⟨100, 20, 0, 0, false, false, some 120, []⟩, ⟨100, 20, .save⟩, 120, img,
      by decide +kernel⟩,
    ⟨saving (⟨100, 20, 0, 0, false, false, none, []⟩) 110, ⟨100, 20, 0, 0, false, false, none, []⟩, img, by decide +kernel⟩,
    ⟨saving (⟨100, 20, 0, 0, false, false, none, []⟩) 110, ⟨11, 1, 5⟩, ⟨100, 20, 0, 0, false, false, none, []⟩, by decide, trivial,
      by decide +kernel⟩⟩

theorem witness_FailureNotices :
    (∃ (p : Pkg), p.failed = false ∧ SMap.wf Tile.reset p.tiles = true) ∧
    (∃ (s : State) (x : C0In), s.Runs .link ∧ IsNew x s.pkg) ∧
    (∃ (s : State) (x : C0In) (pos : Nat) (i : Image), s.Runs .link ∧ IsNew x s.pkg ∧ pos ≠ 0xFFFF ∧ s.pkg.posImage = some i ∧
      s.pkg.secure.recov = none ∧ s.pkg.secure.hold = none ∧ s.pkg.reg O.imageState = 4) ∧
    (∃ (s : State) (port : PortNo) (i : Image) (n : Nat), s.Runs .data ∧ s.pkg.posImage = some i ∧ n = neighbourOf i.variant (s.pkg.reg
      O.logicalPosition) port.val ∧ n ≠ s.pkg.reg O.logicalPosition ∧ (s.pkg.portsTo i n).any s.pkg.portUp = false ∧ s.pkg.outOfLock
      (s.pkg.portsTo i n) = true) ∧
    (∃ (s : State) (x : C0In) (v : Recov), s.Runs .link ∧ IsNew x s.pkg ∧ s.pkg.secure.recov = some v) :=
  ⟨⟨pk [], by decide +kernel⟩,
    ⟨st [], ⟨11, 1, 5⟩, by decide, trivial⟩,
    ⟨onImage img 4, ⟨11, 1, 5⟩, 0xFFFE, img, by decide, trivial, by decide +kernel⟩,
    ⟨onImage { img with variant := ⟨0, 0, 3, 1, 1⟩ } 4 (fun p => { p with mtime := 2 ^ 60 }) [(O.portState + 0, 3)], 0,
      { img with variant := ⟨0, 0, 3, 1, 1⟩ }, 1, by decide +kernel⟩,
    ⟨recovering ⟨[1], 0, [], none, none, false⟩ 4, ⟨11, 1, 5⟩, ⟨[1], 0, [], none, none, false⟩, by decide, trivial, rfl⟩⟩

theorem witness_RecoveryPlanning :
    (∃ (p : Pkg) (i : Image) (x : SecPart) (r : Recov) (e : Nat × Nat), ((p.planOf i x r).1.case = .remap ∨ (p.planOf i x r).1.case =
      .rollback) ∧ e ∈ (p.planOf i x r).1.entries) ∧
    (∃ (p : Pkg) (i : Image) (x : SecPart) (r : Recov) (q : RecReport), (p.planOf i x r).1.case = .remap ∧ q ∈ r.reports) ∧
    (∃ (s : State) (r : Recov) (i : Image), s.Runs .data ∧ s.pkg.secure.recov = some r ∧ s.pkg.posImage = some i ∧ r.closed = false ∧
      s.pkg.mtime < r.t0 + s.pkg.reg O.gatherMs * 100000) ∧
    (∃ (s : State) (r : Recov) (i : Image), s.Runs .data ∧ s.pkg.secure.recov = some r ∧ s.pkg.posImage = some i ∧ r.closed = false ∧ r.t0
      + s.pkg.reg O.gatherMs * 100000 ≤ s.pkg.mtime ∧ s.pkg.reg O.logicalPosition ≠ coordinatorPos i r.failed) ∧
    (∃ (s : State) (r : Recov) (i : Image), s.Runs .data ∧ s.pkg.secure.recov = some r ∧ s.pkg.posImage = some i ∧ r.closed = false ∧ r.t0
      + s.pkg.reg O.gatherMs * 100000 ≤ s.pkg.mtime ∧ s.pkg.reg O.logicalPosition = coordinatorPos i r.failed ∧ i.sec = none ∧
      s.pkg.loader.image = some i ∧ s.pkg.reg O.imageState = 5) ∧
    (∃ (s : State) (x : C0In) (pl : RecPlan) (i : Image), s.Runs .link ∧ IsNew x s.pkg ∧ s.pkg.loader.image = some i ∧ s.pkg.reg
      O.imageState = 5 ∧ pl.case = .halt) ∧
    (∃ (s : State) (x : C0In) (pl : RecPlan) (i : Image), s.Runs .link ∧ IsNew x s.pkg ∧ s.pkg.loader.image = some i ∧ s.pkg.reg
      O.imageState = 5 ∧ pl.case = .uncovered) ∧
    (∃ (s : State) (x : C0In) (pl : RecPlan) (i : Image), s.Runs .link ∧ IsNew x s.pkg ∧ s.pkg.loader.image = some i ∧ s.pkg.reg
      O.imageState = 5 ∧ pl.case = .rollback ∧ pl.entries = []) ∧
    (∃ (s : State) (x : C0In) (pl : RecPlan) (i : Image) (y : SecPart), s.Runs .link ∧ IsNew x s.pkg ∧ s.pkg.loader.image = some i ∧
      s.pkg.reg O.imageState = 5 ∧ pl.case = .remap ∧ pl.entries = [] ∧ s.pkg.securing = some y ∧ y.buddy.getD (s.pkg.reg
      O.logicalPosition) 0xFFFF ∉ pl.failed) :=
  ⟨⟨pk [], { img with remapPkgs := [⟨1, 9, [], 0, true⟩] }, secP, ⟨[1], 0, [⟨0, 4, 4, 0, 0⟩], none, none, false⟩, (1, 9),
      by decide +kernel⟩,
    ⟨pk [], img, secP, ⟨[], 0, [⟨0, 0, 0, 0, 0⟩], none, none, false⟩, ⟨0, 0, 0, 0, 0⟩, by decide +kernel⟩,
    ⟨gathers 4999999 none, gathering, secImg 0 none, by decide +kernel⟩,
    ⟨gathers 5000000 none [(O.logicalPosition, 1)], gathering, secImg 0 none, by decide +kernel⟩,
    ⟨gathers 5000000 none, gathering, secImg 0 none, by decide +kernel⟩,
    ⟨halted, ⟨11, 1, 5⟩, ⟨.halt, [1], [], 8⟩, secImg 0 (some secP), by decide, trivial, by decide +kernel⟩,
    ⟨halted, ⟨11, 1, 5⟩, ⟨.uncovered, [1], [], 8⟩, secImg 0 (some secP), by decide, trivial, by decide +kernel⟩,
    ⟨halted, ⟨11, 1, 5⟩, ⟨.rollback, [1], [], 8⟩, secImg 0 (some secP), by decide, trivial, by decide +kernel⟩,
    ⟨halted, ⟨11, 1, 5⟩, ⟨.remap, [2], [], 8⟩, secImg 0 (some secP), secP, by decide, trivial, by decide +kernel⟩⟩

theorem witness_Resumption :
    (∃ (s : State) (r : Recov) (i : Image) (x : SecPart) (a : RecPlan), s.Runs .data ∧ s.pkg.secure.recov = some r ∧ s.pkg.posImage = some
      i ∧ s.pkg.securing = some x ∧ r.plan = some a ∧ r.resumeAt = none ∧ a.case = .remap ∧ s.pkg.reg O.imageState ≠ 2 ∧ s.pkg.reg
      O.logicalPosition = coordinatorPos i a.failed) ∧
    (∃ (s : State) (r : Recov) (i : Image) (x : SecPart) (a : RecPlan), s.Runs .data ∧ s.pkg.secure.recov = some r ∧ s.pkg.posImage = some
      i ∧ s.pkg.securing = some x ∧ r.plan = some a ∧ r.resumeAt = none ∧ a.case = .remap ∧ s.pkg.reg O.imageState ≠ 2 ∧ s.pkg.reg
      O.logicalPosition ≠ coordinatorPos i a.failed) ∧
    (∃ (s : State) (y : C0In) (r : Recov), s.Runs .link ∧ IsNew y s.pkg ∧ s.pkg.secure.recov = some r) ∧
    (∃ (s : State) (r : Recov) (i : Image) (x : SecPart) (a : RecPlan) (beat step : Nat), s.Runs .data ∧ s.pkg.secure.recov = some r ∧
      s.pkg.posImage = some i ∧ s.pkg.securing = some x ∧ r.resumeAt = some (beat, step) ∧ r.plan = some a ∧ s.pkg.reg O.imageState = 5 ∧
      s.pkg.reg O.domainBeat < beat) ∧
    (∃ (s : State) (r : Recov) (i : Image) (x : SecPart) (a : RecPlan) (beat step : Nat) (q : Pkg), s.Runs .data ∧ s.pkg.secure.recov =
      some r ∧ s.pkg.posImage = some i ∧ s.pkg.securing = some x ∧ r.resumeAt = some (beat, step) ∧ r.plan = some a ∧ s.pkg.reg
      O.imageState = 5 ∧ beat ≤ s.pkg.reg O.domainBeat ∧ s.pkg.reg O.logicalPosition ∉ a.failed ∧ (s.pkg.reloadTiles i (fun _ => true) =
      some q) ∧ a.case = .remap) ∧
    (∃ (s : State) (pt : Path), s.Runs (pathPlane pt) ∧ s.pkg.posImage.isSome = true ∧ (s.pkg.reg O.imageState = 4 ∨ s.pkg.reg O.imageState
      = 5)) ∧
    (∃ (s : State) (pt : Path), s.Runs (pathPlane pt) ∧ s.pkg.posImage.isSome = true ∧ (s.pkg.reg O.imageState = 4 ∨ s.pkg.reg O.imageState
      = 5)) ∧
    (∃ (s : State) (pt : Path), s.Runs (pathPlane pt) ∧ s.pkg.reg O.imageState ≠ 4 ∧ s.pkg.reg O.imageState ≠ 5) :=
  ⟨⟨resuming 0 (⟨[1], 0, [], some (⟨.remap, [1], [], 8⟩), none, true⟩), ⟨[1], 0, [], some (⟨.remap, [1], [], 8⟩), none, true⟩, secImg 0
      (some secP), secP, ⟨.remap, [1], [], 8⟩, by decide +kernel⟩,
    ⟨resuming 2 (⟨[1], 0, [], some (⟨.remap, [1], [], 8⟩), none, true⟩), ⟨[1], 0, [], some (⟨.remap, [1], [], 8⟩), none, true⟩, secImg 2
      (some secP), secP, ⟨.remap, [1], [], 8⟩, by decide +kernel⟩,
    ⟨resuming 0 (⟨[1], 0, [], some (⟨.remap, [1], [], 8⟩), some (70, 9), true⟩), ⟨11, 1, 5⟩, ⟨[1], 0, [], some (⟨.remap, [1], [], 8⟩), some
      (70, 9), true⟩, by decide, trivial, rfl⟩,
    ⟨resuming 0 (⟨[1], 0, [], some (⟨.remap, [1], [], 8⟩), some (70, 9), true⟩) 69, ⟨[1], 0, [], some (⟨.remap, [1], [], 8⟩), some (70, 9),
      true⟩, secImg 0 (some secP), secP, ⟨.remap, [1], [], 8⟩, 70, 9, by decide +kernel⟩,
    ⟨resuming 0 (⟨[1], 0, [], some (⟨.remap, [1], [], 8⟩), some (70, 9), true⟩) 70, ⟨[1], 0, [], some (⟨.remap, [1], [], 8⟩), some (70, 9),
      true⟩, secImg 0 (some secP), secP, ⟨.remap, [1], [], 8⟩, 70, 9, _, by decide +kernel, by decide +kernel, by decide +kernel,
      by decide +kernel, by decide +kernel, by decide +kernel, by decide +kernel, by decide +kernel, by decide +kernel, rfl, rfl⟩,
    ⟨onImage img 4, .core, by decide +kernel⟩,
    ⟨onImage img 5, .canFd, by decide +kernel⟩,
    ⟨st [(O.imageState, 3)], .core, by decide +kernel⟩⟩

theorem witness_Class0Messages :
    (∃ (s : State) (i : PortNo) (seq : Nat), s.Runs .link ∧ seq ∈ (s.pkg.port i.val).c0Seen) ∧
    (∃ (s : State) (i : PortNo) (m : C0Msg) (seq : Nat), s.Runs .link ∧ seq ∉ (s.pkg.port i.val).c0Seen ∧ messageMeaning ⟨i, m.src,
      m.originSeq⟩ m = none) ∧
    (∃ (s : State) (i : PortNo) (m : C0Msg) (seq : Nat) (img : Image), s.Runs .link ∧ s.Runs .data ∧ seq ∉ (s.pkg.port i.val).c0Seen ∧
      m.type = 0x01 ∧ IsNew ⟨i, m.src, m.originSeq⟩ s.pkg ∧ s.pkg.loader.image = some img) ∧
    (∃ (s : State) (i : PortNo) (m : C0Msg) (seq : Nat), s.Runs .link ∧ seq ∉ (s.pkg.port i.val).c0Seen ∧ (m.type = 0x03 ∨ m.type = 0x04 ∨
      m.type = 0x25) ∧ m.dst ≠ s.pkg.reg O.domainPhysId ∧ IsNew ⟨i, m.src, m.originSeq⟩ s.pkg) ∧
    (∃ (s : State) (i : PortNo) (m : C0Msg) (seq : Nat), s.Runs .link ∧ seq ∉ (s.pkg.port i.val).c0Seen ∧ (m.type = 0x03 ∨ m.type = 0x04 ∨
      m.type = 0x25) ∧ m.dst ≠ s.pkg.reg O.domainPhysId ∧ IsNew ⟨i, m.src, m.originSeq⟩ s.pkg) ∧
    (∃ (s : State) (i : PortNo) (m : C0Msg) (seq : Nat), s.Runs .link ∧ seq ∉ (s.pkg.port i.val).c0Seen ∧ (m.type = 0x03 ∨ m.type = 0x04 ∨
      m.type = 0x25) ∧ m.dst ≠ s.pkg.reg O.domainPhysId ∧ IsNew ⟨i, m.src, m.originSeq⟩ s.pkg) ∧
    (∃ (s : State) (x : C0In), ¬ IsNew x s.pkg) :=
  ⟨⟨portHeard, 11, 7, by decide +kernel⟩,
    ⟨portHeard, 11, ⟨0x7F, 1, 0, 6, []⟩, 8, by decide, by decide +kernel, rfl⟩,
    ⟨onImage img 4, 11, ⟨0x01, 1, 0, 6, [0, 70]⟩, 8, img, by decide, by decide, by decide +kernel, rfl, trivial, rfl⟩,
    ⟨onImage img 4, 11, ⟨0x03, 1, 4095, 6, []⟩, 8, by decide, by decide +kernel, by decide, by decide +kernel, trivial⟩,
    ⟨onImage img 4, 11, ⟨0x04, 1, 4095, 6, []⟩, 8, by decide, by decide +kernel, by decide, by decide +kernel, trivial⟩,
    ⟨onImage img 4, 11, ⟨0x25, 1, 4095, 6, []⟩, 8, by decide, by decide +kernel, by decide, by decide +kernel, trivial⟩,
    ⟨heard, ⟨11, 1, 5⟩, stale⟩⟩

theorem witness_PowerStates :
    (∃ (s : State) (pt : Path) (v : Nat), s.Runs (pathPlane pt) ∧ v ≤ 3 ∧ (s.pkg.reg O.psOwner = 0 ∨ v = 0)) ∧
    (∃ (s : State) (pt : Path) (v : Nat), s.Runs (pathPlane pt) ∧ v ≤ 3 ∧ v ≠ 0 ∧ s.pkg.reg O.psOwner ≠ 0 ∧ s.pkg.reg O.psOwner ≠ v) ∧
    (∃ (s : State) (pt : Path) (v : Nat), s.Runs (pathPlane pt) ∧ v ≤ 4 ∧ s.pkg.power.trans = none ∧ s.pkg.refuser pt v = none ∧ s.pkg.reg
      O.psCurrent < v) ∧
    (∃ (s : State) (pt : Path) (v : Nat), s.Runs (pathPlane pt) ∧ v ≤ 4 ∧ s.pkg.power.trans = none ∧ s.pkg.refuser pt v = none ∧ v <
      s.pkg.reg O.psCurrent) ∧
    (∃ (s : State) (pt : Path) (v : Nat), s.Runs (pathPlane pt) ∧ v ≤ 4 ∧ v ≠ 0 ∧ s.pkg.power.trans = none ∧ s.pkg.reg O.psCurrent = 0 ∧
      s.pkg.reg O.imageState ≠ 0) ∧
    (∃ (s : State) (pt : Path) (v c : Nat), s.Runs (pathPlane pt) ∧ v ≤ 4 ∧ s.pkg.power.trans = none ∧ s.pkg.refuser pt v = some c) ∧
    (∃ (s : State) (w : Bool), s.Runs .always ∧ s.pkg.power.trans = some ⟨0, 1, false, 0, w⟩) ∧
    (∃ (s : State) (u : Transition) (st k k2 : Nat), s.Runs .always ∧ s.pkg.power.trans = some u ∧ u.waking = false ∧ (entryPlan u.from0
      u.target)[u.step]? = some (st, k) ∧ (entryPlan u.from0 u.target)[u.step + 1]? = some (st, k2) ∧ s.pkg.reg O.psCurrent ≠ u.target ∧
      u.wakeReq = false) ∧
    (∃ (s : State) (w : Bool), s.Runs .always ∧ s.pkg.power.trans = some ⟨2, 3, false, 2, w⟩) ∧
    (∃ (s : State) (u : Transition) (st k : Nat), s.Runs .always ∧ s.pkg.power.trans = some u ∧ u.waking = false ∧ u.target ≤ 4 ∧
      (entryPlan u.from0 u.target)[u.step]? = some (st, k) ∧ s.pkg.reg O.psCurrent = u.from0) :=
  ⟨⟨st [], .core, 3, by decide +kernel⟩,
    ⟨st [(O.psOwner, 1)], .canFd, 3, by decide +kernel⟩,
    ⟨st (arr O.coreState 68 1 ++ arr O.wakeSlewAPerUs 9 1 ++ arr O.wakeStepMaxA 9 40 ++ [(O.psOwner, 3)]), .canFd, 4, by decide +kernel⟩,
    ⟨st [(O.psOwner, 3), (O.psCurrent, 1)], .canFd, 0, by decide +kernel⟩,
    ⟨st [(O.imageState, 3)], .core, 4, by decide +kernel⟩,
    ⟨st [], .canFd, 1, 3, by decide +kernel⟩,
    ⟨moving ⟨0, 1, false, 0, true⟩ 0, true, by decide +kernel⟩,
    ⟨moving ⟨2, 3, false, 0, false⟩ 2, ⟨2, 3, false, 0, false⟩, 3, 3, 4, by decide +kernel⟩,
    ⟨moving ⟨2, 3, false, 2, false⟩ 2, false, by decide +kernel⟩,
    ⟨moving ⟨0, 4, false, 0, false⟩ 0, ⟨0, 4, false, 0, false⟩, 1, 1, by decide +kernel⟩⟩

theorem witness_WakingUp :
    (∃ (s : State), s.pkg.reg O.psCurrent ≠ 4) ∧
    (∃ (s : State), s.Runs .always ∧ s.pkg.reg O.psCurrent = 4 ∧ s.pkg.supply.resetLow = false ∧ s.pkg.power.trans = none ∧ s.pkg.reg
      O.psPhase = 0 ∧ bitOf (s.pkg.reg O.wakeSourceEnable) 0 = true) ∧
    (∃ (s : State) (u : Transition), s.Runs .always ∧ s.pkg.power.trans = some u ∧ u.waking = true ∧ s.pkg.wakeFault = false ∧
      s.pkg.powering = false ∧ s.pkg.reg O.psCurrent = u.target + 1 ∧ s.pkg.reg O.psCurrent ≤ 2) ∧
    (∃ (s : State) (u : Transition), s.Runs .always ∧ s.pkg.power.trans = some u ∧ u.waking = true ∧ u.target ≤ 4 ∧ s.pkg.wakeFault = true) ∧
    (∃ (s : State), s.Runs .always ∧ s.pkg.power.trans = some ⟨3, 2, true, 0, false⟩ ∧ s.pkg.wakeFault = false ∧ s.pkg.powering = false ∧
      s.pkg.reg O.psCurrent = 3 ∧ (∀ i, s.pkg.power.aon.valid.at false i = false)) ∧
    (∃ (s : State) (r : Fin 9) (x : Nat) (rest : List Nat) (lv : Nat), s.Runs .always ∧ s.pkg.power.wakeQueue.at [] r.val = x :: rest ∧ lv
      = min (100 * s.pkg.reg (O.wakeStepMaxA + r.val)) (s.pkg.power.bucket.at 0 r.val + s.pkg.reg (O.wakeSlewAPerUs + r.val) * (s.pkg.mtime
      - s.pkg.power.bucket.at 0 (16 + r.val))) ∧ lv < x) ∧
    (∃ (s : State) (r : Fin 9) (x : Nat) (rest : List Nat) (lv : Nat), s.Runs .always ∧ s.pkg.power.wakeQueue.at [] r.val = x :: rest ∧ lv
      = min (100 * s.pkg.reg (O.wakeStepMaxA + r.val)) (s.pkg.power.bucket.at 0 r.val + s.pkg.reg (O.wakeSlewAPerUs + r.val) * (s.pkg.mtime
      - s.pkg.power.bucket.at 0 (16 + r.val))) ∧ x ≤ lv) ∧
    (∃ (s : State) (r : Fin 9), s.pkg.power.wakeQueue.at [] r.val = []) ∧
    (∃ (s : State) (pt : Path) (i : Fin 5), s.Runs (pathPlane pt) ∧ s.pkg.padFree i.val = true ∧ bitOf (s.pkg.reg O.padHeld) i.val = true) ∧
    (∃ (s : State) (pt : Path) (v : Nat) (i : Fin 5), s.Runs (pathPlane pt) ∧ v < 32 ∧ bitOf v i.val = true ∧ s.pkg.padFree i.val = false) :=
  ⟨⟨st [], by decide +kernel⟩,
    ⟨st [(O.psCurrent, 4), (O.wakeSourceEnable, 1)], by decide +kernel⟩,
    ⟨moving ⟨2, 1, true, 0, false⟩ 2, ⟨2, 1, true, 0, false⟩, by decide +kernel⟩,
    ⟨moving ⟨4, 0, true, 0, false⟩ 4 [(O.supplyState + 17, 3)], ⟨4, 0, true, 0, false⟩, by decide +kernel⟩,
    ⟨moving ⟨3, 2, true, 0, false⟩ 3, by decide, rfl, by decide +kernel, by decide +kernel, by decide +kernel, fun _ => rfl⟩,
    ⟨waking 5 0, 8, 5, [], _, by decide, rfl, rfl, by decide +kernel⟩,
    ⟨waking 100 100 [(O.wakeStepMaxA + 8, 1)], 8, 100, [], _, by decide, rfl, rfl, by decide +kernel⟩,
    ⟨st [], 8, by decide +kernel⟩,
    ⟨st [(O.psCurrent, 3), (O.padHeld, 16)], .canFd, 4, by decide +kernel⟩,
    ⟨st [(O.psCurrent, 2)], .core, 2, 1, by decide +kernel⟩⟩

theorem witness_OperatingPoints :
    (∃ (s : State) (pt : Path) (v : Nat), s.Runs (pathPlane pt) ∧ 4 ≤ v ∧ v ≤ 6 ∧ (∀ i, s.pkg.loader.image = some i → i.aclkDiv ≤ v) ∧
      (s.pkg.reg O.imageState ≠ 4 ∨ s.pkg.isMaster = true) ∧ s.pkg.reg O.cfgArmState = 0) ∧
    (∃ (s : State) (pt : Path) (v : Nat), s.Runs (pathPlane pt) ∧ (v < 4 ∨ 6 < v)) ∧
    (∃ (s : State) (pt : Path) (v : Nat), s.Runs (pathPlane pt) ∧ (v < 4 ∨ 6 < v)) ∧
    (∃ (s : State) (div d0 : Nat), s.Runs .management ∧ s.pkg.power.opNext = some (div, d0) ∧ s.pkg.reg O.aclkDivisorActive < div ∧ div ≤ 6
      ∧ 4 ≤ s.pkg.reg O.aclkDivisorActive ∧ s.pkg.reg O.domainBeat < d0 + 16 ∧ s.pkg.reg O.imageState = 4) ∧
    (∃ (s : State) (div d0 : Nat), s.Runs .management ∧ s.pkg.power.opNext = some (div, d0) ∧ s.pkg.reg O.aclkDivisorActive < div ∧ div ≤ 6
      ∧ 4 ≤ s.pkg.reg O.aclkDivisorActive ∧ d0 + 16 ≤ s.pkg.reg O.domainBeat ∧ (∀ d < 4, s.pkg.power.dvfsHeld.at 0 d = 0)) ∧
    (∃ (s : State) (div d0 : Nat), s.Runs .management ∧ s.pkg.power.opNext = some (div, d0) ∧ s.pkg.reg O.aclkDivisorActive < div ∧ div ≤ 6
      ∧ 4 ≤ s.pkg.reg O.aclkDivisorActive ∧ d0 + 16 ≤ s.pkg.reg O.domainBeat ∧ s.pkg.reg O.imageState = 4 ∧ (∃ d < 4,
      s.pkg.power.dvfsHeld.at 0 d ≠ 0)) ∧
    (∃ (s : State), s.Runs .management) ∧
    (∃ (s : State) (mw : Nat) (l : List Nat), s.Runs .management ∧ l = lastSamples (s.pkg.power.samples ++ [mw]) 100) :=
  ⟨⟨st [(O.imageState, 0)], .core, 6, by decide, by decide, by decide, (by intro i h; cases h), by decide +kernel, by decide +kernel⟩,
    ⟨st [], .core, 3, by decide +kernel⟩,
    ⟨st [], .canFd, 7, by decide +kernel⟩,
    ⟨changing 115 [], 6, 100, by decide +kernel⟩,
    ⟨changing 116 [], 6, 100, by decide +kernel⟩,
    ⟨changing 116 [(3, 1)], 6, 100, by decide +kernel⟩,
    ⟨st [], by decide⟩,
    ⟨st [], 0, _, by decide, rfl⟩⟩

theorem witness_DictionaryAccess :
    (∃ (s : State) (pt : Path) (idx sub v : Nat) (o : Obj), s.Runs .control ∧ pt ≠ .canFd ∧ 0x1000 ≤ idx ∧ idx < 2 ^ 16 ∧ sub < 256 ∧ v < 2
      ^ 32 ∧ s.pkg.servesKey (idx * 256 + sub) = true ∧ objAt (idx * 256 + sub) = some o ∧ o.acc = .ro) ∧
    (∃ (s : State) (pt : Path) (idx sub v : Nat) (o : Obj), s.Runs .control ∧ pt ≠ .canFd ∧ 0x1000 ≤ idx ∧ idx < 2 ^ 16 ∧ sub < 256 ∧ v < 2
      ^ 32 ∧ s.pkg.servesKey (idx * 256 + sub) = true ∧ objAt (idx * 256 + sub) = some o ∧ o.size ≠ 8 ∧ o.size ≠ 0 ∧ o.acc ≠ .ro ∧ valueOk
      o v = false) ∧
    (∃ (s : State) (pt : Path) (idx sub v : Nat) (o : Obj), s.Runs .control ∧ pt ≠ .canFd ∧ 0x1000 ≤ idx ∧ idx < 2 ^ 16 ∧ sub < 256 ∧ v < 2
      ^ 32 ∧ s.pkg.servesKey (idx * 256 + sub) = true ∧ objAt (idx * 256 + sub) = some o ∧ o.size ≠ 8 ∧ o.size ≠ 0 ∧ valueOk o v = true ∧
      s.pkg.single pt (idx * 256 + sub) v = none ∧ s.pkg.queueObjects pt (idx * 256 + sub) v = none ∧ s.pkg.arrayWrite pt (idx * 256 + sub)
      v = none ∧ o.acc = .rw) ∧
    (∃ (s : State) (pt : Path) (idx sub v : Nat) (o : Obj), s.Runs .control ∧ pt ≠ .canFd ∧ 0x1000 ≤ idx ∧ idx < 2 ^ 16 ∧ sub < 256 ∧ v < 2
      ^ 32 ∧ s.pkg.servesKey (idx * 256 + sub) = true ∧ objAt (idx * 256 + sub) = some o ∧ o.size ≠ 8 ∧ o.size ≠ 0 ∧ valueOk o v = true ∧
      s.pkg.single pt (idx * 256 + sub) v = none ∧ s.pkg.queueObjects pt (idx * 256 + sub) v = none ∧ s.pkg.arrayWrite pt (idx * 256 + sub)
      v = none ∧ o.acc = .rws ∧ s.pkg.reg O.cfgArmState = 0) ∧
    (∃ (s : State) (pt : Path) (idx sub v : Nat) (o : Obj), s.Runs .control ∧ pt ≠ .canFd ∧ 0x1000 ≤ idx ∧ idx < 2 ^ 16 ∧ sub < 256 ∧ v < 2
      ^ 32 ∧ s.pkg.servesKey (idx * 256 + sub) = true ∧ objAt (idx * 256 + sub) = some o ∧ o.size ≠ 8 ∧ o.size ≠ 0 ∧ valueOk o v = true ∧
      s.pkg.single pt (idx * 256 + sub) v = none ∧ s.pkg.queueObjects pt (idx * 256 + sub) v = none ∧ s.pkg.arrayWrite pt (idx * 256 + sub)
      v = none ∧ o.acc = .rws ∧ s.pkg.reg O.cfgArmState ≠ 0) ∧
    (∃ (s : State) (pt : Path) (idx sub v : Nat), s.Runs .control ∧ pt ≠ .canFd ∧ 0x1000 ≤ idx ∧ idx < 2 ^ 16 ∧ sub < 256 ∧ v < 2 ^ 32 ∧
      s.pkg.servesKey (idx * 256 + sub) = true ∧ objAt (idx * 256 + sub) = none ∧ highOf (idx * 256 + sub) = none ∧ stringWord (idx * 256 +
      sub) = none) ∧
    (∃ (s : State) (pt : Path) (v : Nat), s.Runs .control ∧ pt ≠ .canFd ∧ v < 2 ^ 32) ∧
    (∃ (s : State) (idx sub : Nat), s.Runs .control ∧ idx < 2 ^ 16 ∧ sub < 256) ∧
    (∃ (j : Nat), j ≠ O.dictLastError ∧ j ≠ O.dictLastAbort) :=
  ⟨⟨st [], .hostBar, 0x1000, 0, 0, theObj 0x100000, by decide +kernel⟩,
    ⟨st [], .core, 0x3000, 1, 13, theObj 0x300001, by decide +kernel⟩,
    ⟨st [], .core, 0x3501, 3, 0xFFFFFF, theObj 0x350103, by decide +kernel⟩,
    ⟨st [], .core, 0x3000, 1, 12, theObj 0x300001, by decide +kernel⟩,
    ⟨st [(O.cfgArmState, 3)], .core, 0x3000, 1, 12, theObj 0x300001, by decide +kernel⟩,
    ⟨st [], .core, 0xFFFF, 0xFF, 0, by decide +kernel⟩,
    ⟨st [], .hostBar, 5, by decide +kernel⟩,
    ⟨st [], 0x6000, 255, by decide +kernel⟩,
    ⟨O.dictLastAbort + 1, by decide +kernel⟩⟩

/-- Some bytes of zero. -/
def zeros (n : Nat) : List Byte := List.replicate n 0

/-- A package off its CAN bus; one with an EMCY frame to send; one with a segmented write under way. -/
def busOff : State := st [] fun p => { p with can := { p.can with busOff := true } }
def emcyWaits : State := st [] fun p => { p with ev := { p.ev with emcy := [(⟨0x2601, 3, 0xFF, 0, 0⟩, 1)] } }
def segmented : State := st [] fun p => { p with can := { p.can with segment := some ⟨0x3501, 3, 4, [1]⟩ } }

/-- An operating system payload of 16 bytes, zero as memory is at reset. -/
def osWaits : State :=
  st [(O.bootState, 3), (O.cmdWindowBase, 2 ^ 40), (O.osPayloadAddr, 2 ^ 40), (O.osPayloadLen, 16)]
theorem os_bytes : osWaits.pkg.agentBytes ioA (osWaits.pkg.reg O.osPayloadAddr) (osWaits.pkg.reg O.osPayloadLen) = (some (zeros 16), osWaits.pkg) :=
  quiet_gives _ ⟨rfl, rfl, rfl, rfl⟩ _ _ _ _ (by decide +kernel) (by decide +kernel)

/-- Firmware serves, no image is loaded. -/
def inMission : State := st [(O.bootState, 3)]

/-- The event log has vector 3, and no queue has that one or 7. -/
def vectors : State := st [(O.eventMsixVector, 3)]

/-- A restore is in progress; its ring, of 4 MiB, begins at 0x10100000000 and holds these words. -/
def restoring (l : List (Nat × PWord)) : State :=
  onImage (secImg 0 (some secP)) 4 (fun p => l.foldl (fun p e => p.setWord e.1 e.2) p)
    [(O.securingState, 3), (O.ingestWindowBase, 0x10100000000), (O.saveOutBytes, 4 * 2 ^ 20)]

/-- The digest of no bytes, as FIPS 202's SHAKE256 gives it. -/
def shakeEmpty : List Byte :=
  [70, 185, 221, 43, 11, 168, 141, 19, 35, 59, 63, 235, 116, 62, 235, 36,
   63, 205, 82, 234, 98, 184, 27, 130, 181, 12, 39, 100, 110, 213, 118, 47]

/-- One record in the ring: of region 0, no bytes, with this digest; its header. -/
def oneRecord (digest : List Byte) : State :=
  restoring [(0x10100000000, goodWord 1), (0x10100001040, goodWord (BitVec.ofNat 128 (leNat (digest.take 16)))),
    (0x10100001050, goodWord (BitVec.ofNat 128 (leNat (digest.drop 16))))]
def oneHeader (digest : List Byte) : List Byte := zeros 64 ++ digest ++ zeros 32
def whole : State := oneRecord shakeEmpty
def torn : State := oneRecord []

/-- One whose header is poison. -/
def spoilt : State := restoring [(0x10100000000, goodWord 1), (0x10100001000, poisonWord)]

theorem whole_index : whole.pkg.agentBytes ioA whole.pkg.ringBase 8 = (some (1 :: zeros 7), whole.pkg) :=
  quiet_gives _ ⟨rfl, rfl, rfl, rfl⟩ _ _ _ _ (by decide +kernel) (by decide +kernel)
theorem whole_header :
    whole.pkg.agentBytes ioA (whole.pkg.ringRecordAddr whole.pkg.secure.ringRead) 128 = (some (oneHeader shakeEmpty), whole.pkg) :=
  quiet_gives _ ⟨rfl, rfl, rfl, rfl⟩ _ _ _ _ (by decide +kernel) (by decide +kernel)
theorem whole_data : whole.pkg.agentBytes ioA (whole.pkg.ringRecordAddr whole.pkg.secure.ringRead + 4096) 0 = (some [], whole.pkg) :=
  quiet_gives _ ⟨rfl, rfl, rfl, rfl⟩ _ _ _ _ (by decide +kernel) (by decide +kernel)
theorem torn_index : torn.pkg.agentBytes ioA torn.pkg.ringBase 8 = (some (1 :: zeros 7), torn.pkg) :=
  quiet_gives _ ⟨rfl, rfl, rfl, rfl⟩ _ _ _ _ (by decide +kernel) (by decide +kernel)
theorem torn_header :
    torn.pkg.agentBytes ioA (torn.pkg.ringRecordAddr torn.pkg.secure.ringRead) 128 = (some (zeros 128), torn.pkg) :=
  quiet_gives _ ⟨rfl, rfl, rfl, rfl⟩ _ _ _ _ (by decide +kernel) (by decide +kernel)
theorem torn_data : torn.pkg.agentBytes ioA (torn.pkg.ringRecordAddr torn.pkg.secure.ringRead + 4096) 0 = (some [], torn.pkg) :=
  quiet_gives _ ⟨rfl, rfl, rfl, rfl⟩ _ _ _ _ (by decide +kernel) (by decide +kernel)
theorem none_index : (restoring []).pkg.agentBytes ioA (restoring []).pkg.ringBase 8 = (some (zeros 8), (restoring []).pkg) :=
  quiet_gives _ ⟨rfl, rfl, rfl, rfl⟩ _ _ _ _ (by decide +kernel) (by decide +kernel)
theorem spoilt_index : spoilt.pkg.agentBytes ioA spoilt.pkg.ringBase 8 = (some (1 :: zeros 7), spoilt.pkg) :=
  quiet_gives _ ⟨rfl, rfl, rfl, rfl⟩ _ _ _ _ (by decide +kernel) (by decide +kernel)
theorem spoilt_header : (spoilt.pkg.agentBytes ioA (spoilt.pkg.ringRecordAddr spoilt.pkg.secure.ringRead) 128).1 = none := by
  decide +kernel
theorem digest_of_nothing : digest256 [] = shakeEmpty := by decide +kernel

/-- The mean of lane 7 of port 11. -/
def laneKey : Nat := 0x0300006A
theorem lane_free (d : Nat) (h : laneDie laneKey = some d) : (st [(O.wearEnable, 1)]).pkg.reg (O.linkTestOwner + d) = 0 := by
  have e : laneDie laneKey = some 1 := by decide +kernel
  rw [e] at h; cases h; decide

theorem witness_ProtectionAndRestore :
    (∃ (s : State) (addr : Nat) (l : List Byte) (x : SecPart) (k : Nat) (r : SecRegion), s.Runs .control ∧ s.pkg.securing = some x ∧
      x.regionAt addr = some (k, r) ∧ addr + l.length ≤ r.addr + r.bytes) ∧
    (∃ (s : State) (l : ProtLine) (x : SecPart) (r : SecRegion) (slot a : Nat), s.Runs .link ∧ s.pkg.securing = some x ∧
      x.regions[l.region]? = some r ∧ r.paritySlot = some slot ∧ x.protBase % 16 = 0 ∧ a = x.protBase + slot * mib + l.offset / 64 * 64 ∧
      (∀ o ∈ s.pkg.memsys.queue, ∀ w < 4, o.set ≠ Machine.setOf ((a + 16 * w) / 64 * 64))) ∧
    (∃ (s : State) (l : ProtLine) (base a : Nat), s.Runs .link ∧ (s.pkg.securing.bind (fun x => x.hostedAddr l.region) = some base) ∧ base
      % 16 = 0 ∧ a = base + l.offset / 64 * 64 ∧ (∀ o ∈ s.pkg.memsys.queue, ∀ w < 4, o.set ≠ Machine.setOf ((a + 16 * w) / 64 * 64))) ∧
    (∃ (s : State) (x : SecPart) (wi : List Byte) (p1 : Pkg), s.Runs .data ∧ s.pkg.securing = some x ∧ s.pkg.reg O.securingState = 3 ∧
      s.pkg.ringSlots ≠ 0 ∧ s.pkg.agentBytes ioA s.pkg.ringBase 8 = (some wi, p1) ∧ leNat wi = p1.secure.ringRead) ∧
    (∃ (s : State) (x : SecPart) (wi : List Byte) (p1 : Pkg) (p2 : _), s.Runs .data ∧ s.pkg.securing = some x ∧ s.pkg.reg O.securingState =
      3 ∧ s.pkg.ringSlots ≠ 0 ∧ s.pkg.agentBytes ioA s.pkg.ringBase 8 = (some wi, p1) ∧ leNat wi ≠ p1.secure.ringRead ∧ p1.agentBytes ioA
      (p1.ringRecordAddr p1.secure.ringRead) 128 = (none, p2)) ∧
    (∃ (s : State) (x : SecPart) (wi : List Byte) (p1 : Pkg) (h d p2 p3 : _) (r : SecRegion), s.Runs .data ∧ s.pkg.securing = some x ∧
      s.pkg.reg O.securingState = 3 ∧ s.pkg.ringSlots ≠ 0 ∧ s.pkg.agentBytes ioA s.pkg.ringBase 8 = (some wi, p1) ∧ leNat wi ≠
      p1.secure.ringRead ∧ p1.agentBytes ioA (p1.ringRecordAddr p1.secure.ringRead) 128 = (some h, p2) ∧ fieldAt h 16 1 = 0 ∧ p2.agentBytes
      ioA (p1.ringRecordAddr p1.secure.ringRead + 4096) (fieldAt h 12 4) = (some d, p3) ∧ p3.secure.digestSeq = none ∧ digest256 d =
      (h.drop 64).take 32 ∧ x.regions[fieldAt h 6 2]? = some r) ∧
    (∃ (s : State) (x : SecPart) (wi : List Byte) (p1 : Pkg) (h d p2 p3 : _), s.Runs .data ∧ s.pkg.securing = some x ∧ s.pkg.reg
      O.securingState = 3 ∧ s.pkg.ringSlots ≠ 0 ∧ s.pkg.agentBytes ioA s.pkg.ringBase 8 = (some wi, p1) ∧ leNat wi ≠ p1.secure.ringRead ∧
      p1.agentBytes ioA (p1.ringRecordAddr p1.secure.ringRead) 128 = (some h, p2) ∧ fieldAt h 16 1 = 0 ∧ p2.agentBytes ioA
      (p1.ringRecordAddr p1.secure.ringRead + 4096) (fieldAt h 12 4) = (some d, p3) ∧ p3.secure.digestSeq = none ∧ digest256 d ≠ (h.drop
      64).take 32) :=
  ⟨⟨secured, 0x4000, [], secP, 0, ⟨0, 0, 1, 0x4000, 2 ^ 20, some 40, some 60⟩, by decide +kernel⟩,
    ⟨secured, ⟨0, 0, []⟩, secP, ⟨0, 0, 1, 0x4000, 2 ^ 20, some 40, some 60⟩, 40, _, by decide, rfl, rfl, rfl, by decide, rfl, by decide⟩,
    ⟨secured, ⟨0, 0, []⟩, secP.protBase + 60 * 2 ^ 20, _, by decide, by decide +kernel, by decide, rfl, by decide⟩,
    ⟨restoring [], secP, zeros 8, (restoring []).pkg, by decide, rfl, by decide +kernel, by decide +kernel, none_index, by decide +kernel⟩,
    ⟨spoilt, secP, 1 :: zeros 7, spoilt.pkg, _, by decide, rfl, by decide +kernel, by decide +kernel, spoilt_index, by decide +kernel,
      fst_eq spoilt_header⟩,
    ⟨whole, secP, 1 :: zeros 7, whole.pkg, oneHeader shakeEmpty, [], whole.pkg, whole.pkg, ⟨0, 0, 1, 0x4000, 2 ^ 20, some 40, some 60⟩,
      by decide, rfl, by decide +kernel, by decide +kernel, whole_index, by decide +kernel, whole_header, by decide +kernel, whole_data,
      rfl, digest_of_nothing, rfl⟩,
    ⟨torn, secP, 1 :: zeros 7, torn.pkg, zeros 128, [], torn.pkg, torn.pkg, by decide, rfl, by decide +kernel, by decide +kernel,
      torn_index, by decide +kernel, torn_header, by decide +kernel, torn_data, rfl, by rw [digest_of_nothing]; decide⟩⟩

theorem witness_CanAndUsdo :
    (∃ (s : State), s.Runs .management ∧ s.pkg.can.busOff = false) ∧
    (∃ (s : State), s.Runs .management ∧ s.pkg.can.busOff = true) ∧
    (∃ (s : State), s.Runs .management ∧ s.pkg.can.passive = false) ∧
    (∃ (s : State) (pt : Path), s.Runs (pathPlane pt)) ∧
    (∃ (s : State) (n : Nat), s.Runs .management ∧ s.pkg.onBus = true ∧ (n = 0 ∨ n = s.pkg.reg O.canNodeId)) ∧
    (∃ (s : State) (n : Nat), s.Runs .management ∧ s.pkg.onBus = true ∧ (n = 0 ∨ n = s.pkg.reg O.canNodeId)) ∧
    (∃ (s : State) (n : Nat), (s.pkg.onBus = false ∨ (n ≠ 0 ∧ n ≠ s.pkg.reg O.canNodeId))) ∧
    (∃ (s : State) (n : Nat), (s.pkg.onBus = false ∨ (n ≠ 0 ∧ n ≠ s.pkg.reg O.canNodeId))) ∧
    (∃ (s : State), s.Runs .management ∧ s.pkg.onBus = true ∧ s.pkg.reg O.producerHeartbeatMs ≠ 0) ∧
    (∃ (s : State) (f : EvRec × Nat) (r : List (EvRec × Nat)), s.Runs .management ∧ s.pkg.ev.emcy = f :: r ∧ s.pkg.onBus = true ∧
      s.pkg.can.passive = false ∧ s.pkg.can.nmt ≠ .stopped) ∧
    (∃ (s : State) (idx sub : Nat) (o : Obj), s.Runs .management ∧ idx < 2 ^ 16 ∧ sub < 256 ∧ s.pkg.onBus = true ∧ s.pkg.can.nmt ≠ .stopped
      ∧ s.pkg.servesKey (idx * 256 + sub) = true ∧ objAt (idx * 256 + sub) = some o ∧ o.acc = .ro) ∧
    (∃ (s : State) (idx sub : Nat) (o : Obj) (l : List Byte), s.Runs .management ∧ idx < 2 ^ 16 ∧ sub < 256 ∧ s.pkg.onBus = true ∧
      s.pkg.can.nmt ≠ .stopped ∧ s.pkg.servesKey (idx * 256 + sub) = true ∧ objAt (idx * 256 + sub) = some o ∧ o.acc ≠ .ro ∧ o.size ≠ 0 ∧
      l.length ≠ o.size) ∧
    (∃ (s : State) (idx sub : Nat) (o : Obj) (l : List Byte), s.Runs .management ∧ idx < 2 ^ 16 ∧ sub < 256 ∧ s.pkg.onBus = true ∧
      s.pkg.can.nmt ≠ .stopped ∧ s.pkg.servesKey (idx * 256 + sub) = true ∧ objAt (idx * 256 + sub) = some o ∧ o.acc = .rw ∧ o.size ≠ 0 ∧
      l.length = o.size ∧ valueOk o (leNat l) = true ∧ s.pkg.single .canFd (idx * 256 + sub) (leNat l) = none ∧ s.pkg.queueObjects .canFd
      (idx * 256 + sub) (leNat l) = none ∧ s.pkg.arrayWrite .canFd (idx * 256 + sub) (leNat l) = none) ∧
    (∃ (s : State) (idx sub : Nat), s.Runs .management ∧ idx < 2 ^ 16 ∧ sub < 256 ∧ s.pkg.onBus = true ∧ s.pkg.can.nmt ≠ .stopped ∧
      s.pkg.servesKey (idx * 256 + sub) = true ∧ objAt (idx * 256 + sub) = none) ∧
    (∃ (s : State) (g : Segment) (l : List Byte), s.Runs .management ∧ s.pkg.onBus = true ∧ s.pkg.can.nmt ≠ .stopped ∧ s.pkg.can.segment =
      some g ∧ g.got.length + l.length < g.len) ∧
    (∃ (s : State) (g : Segment), s.Runs .management ∧ s.pkg.can.segment = some g) ∧
    (∃ (s : State), (s.pkg.onBus = false ∨ s.pkg.can.nmt = .stopped)) ∧
    (∃ (s : State), (s.pkg.onBus = false ∨ s.pkg.can.nmt = .stopped)) :=
  ⟨⟨st [], by decide +kernel⟩,
    ⟨busOff, by decide +kernel⟩,
    ⟨st [], by decide +kernel⟩,
    ⟨st [], .core, by decide +kernel⟩,
    ⟨st [], 0, by decide +kernel⟩,
    ⟨st [(O.canNodeId, 5)], 5, by decide +kernel⟩,
    ⟨busOff, 0, by decide +kernel⟩,
    ⟨st [(O.canNodeId, 5)], 6, by decide +kernel⟩,
    ⟨st [(O.producerHeartbeatMs, 100)], by decide +kernel⟩,
    ⟨emcyWaits, (⟨0x2601, 3, 0xFF, 0, 0⟩, 1), [], by decide, rfl, by decide +kernel⟩,
    ⟨st [], 0x1000, 0, theObj 0x100000, by decide +kernel⟩,
    ⟨st [], 0x3501, 3, theObj 0x350103, [1], by decide +kernel⟩,
    ⟨st [], 0x3501, 3, theObj 0x350103, [1, 0, 0, 0], by decide +kernel⟩,
    ⟨st [], 0xFFFF, 0xFF, by decide +kernel⟩,
    ⟨segmented, ⟨0x3501, 3, 4, [1]⟩, [2], by decide +kernel⟩,
    ⟨segmented, ⟨0x3501, 3, 4, [1]⟩, by decide, rfl⟩,
    ⟨busOff, by decide +kernel⟩,
    ⟨(st [] fun p => { p with can := { p.can with nmt := .stopped } }), by decide +kernel⟩⟩

theorem witness_WearCommands :
    (∃ (s : State), s.pkg.reg O.wearEnable = 0) ∧
    (∃ (s : State) (k : Nat) (d : _), s.Runs .management ∧ s.pkg.reg O.wearEnable ≠ 0 ∧ isWearKey k = true ∧ isMeanKey k = true ∧ laneDie k
      = some d ∧ s.pkg.reg (O.linkTestOwner + d) ≠ 0 ∧ s.pkg.reg (O.linkTestOwner + d) ≠ 2) ∧
    (∃ (s : State) (k : Nat), s.Runs .management ∧ s.pkg.reg O.wearEnable ≠ 0 ∧ isWearKey k = true ∧ isMeanKey k = true ∧ (∀ d, laneDie k =
      some d → s.pkg.reg (O.linkTestOwner + d) = 0)) ∧
    (∃ (s : State) (k : Nat), s.Runs .management ∧ s.pkg.reg O.wearEnable ≠ 0 ∧ isWearKey k = true ∧ isMeanKey k = true ∧ (∀ d, laneDie k =
      some d → s.pkg.reg (O.linkTestOwner + d) = 0)) ∧
    (∃ (s : State), s.Runs .management ∧ s.pkg.reg O.wearEnable ≠ 0 ∧ (∀ k, (s.pkg.wear.rings.at [] k).length ≤ 8)) ∧
    (∃ (s : State) (pt : Path) (v : Nat), s.Runs (pathPlane pt) ∧ v < 2 ^ 32 ∧ isWearKey v = true) ∧
    (∃ (s : State) (pt : Path) (v : Nat), s.Runs (pathPlane pt) ∧ v < 2 ^ 32 ∧ isWearKey v = false) :=
  ⟨⟨st [], by decide +kernel⟩,
    ⟨st [(O.wearEnable, 1), (O.linkTestOwner + 1, 3)], laneKey, 1, by decide +kernel⟩,
    ⟨st [(O.wearEnable, 1)], 0x01000000, by decide +kernel, by decide +kernel, by decide +kernel, by decide +kernel, fun d h => by cases h⟩,
    ⟨st [(O.wearEnable, 1)], laneKey, by decide +kernel, by decide +kernel, by decide +kernel, by decide +kernel, lane_free⟩,
    ⟨st [(O.wearEnable, 1)], by decide, by decide +kernel, fun _ => Nat.zero_le _⟩,
    ⟨st [], .core, 0x01000000, by decide +kernel⟩,
    ⟨st [], .canFd, 0x09000000, by decide +kernel⟩⟩

theorem witness_ResetsAndClocks :
    (∃ (s : State) (pt : Path), s.Runs (pathPlane pt) ∧ s.pkg.boot.resetWait = false) ∧
    (∃ (s : State) (pt : Path), s.Runs (pathPlane pt) ∧ s.pkg.boot.resetWait = true) ∧
    (∃ (s : State) (pt : Path) (v : Nat), s.Runs (pathPlane pt) ∧ v ≠ 42330) ∧
    (∃ (s : State), s.pkg.supply.seqStep ≠ 8) ∧
    (∃ (s : State), s.pkg.supply.seqStep = 8 ∧ s.pkg.reg O.psCurrent < 3 ∧ s.pkg.boot.resetWait = false) ∧
    (∃ (s : State), s.Runs .always ∧ s.pkg.boot.resetWait = true ∧ s.pkg.supply.seqStep = 8) ∧
    (∃ (s : State), (s.pkg.boot.resetWait = false ∨ s.pkg.supply.seqStep ≠ 8)) ∧
    (∃ (s : State), (s.pkg.boot.resetWait = false ∨ s.pkg.supply.seqStep ≠ 8)) ∧
    (∃ (s : State), s.pkg.supply.refclkAbsent = false) ∧
    (∃ (s : State), s.pkg.supply.refclkAbsent = true ∧ s.pkg.boot.resetWait = false) ∧
    (∃ (s : State), s.pkg.boot.step ≠ 0) ∧
    (∃ (s : State), s.Runs .management ∧ s.pkg.reg O.bootState = 1 ∧ s.pkg.boot.resetWait = false) ∧
    (∃ (s : State), s.pkg.boot.step ≠ 7 ∧ s.pkg.reg O.bootState ≠ 1 ∧ s.pkg.reg O.bootState ≠ 5) :=
  ⟨⟨st [], .core, by decide +kernel⟩,
    ⟨(st [] fun p => { p with boot := { p.boot with resetWait := true } }), .canFd, by decide +kernel⟩,
    ⟨st [], .hostBar, 0, by decide +kernel⟩,
    ⟨st [], by decide +kernel⟩,
    ⟨(st [] fun p => { p with supply := { p.supply with seqStep := 8 } }), by decide +kernel⟩,
    ⟨(st [] fun p => { p with boot := { p.boot with resetWait := true }, supply := { p.supply with seqStep := 8 } }), by decide +kernel⟩,
    ⟨st [], by decide +kernel⟩,
    ⟨(st [] fun p => { p with boot := { p.boot with resetWait := true } }), by decide +kernel⟩,
    ⟨st [], by decide +kernel⟩,
    ⟨(st [] fun p => { p with supply := { p.supply with refclkAbsent := true } }), by decide +kernel⟩,
    ⟨(st [] fun p => { p with boot := { p.boot with step := 3 } }), by decide +kernel⟩,
    ⟨(st [(O.bootState, 1)] fun p => { p with boot := p.boot }), by decide +kernel⟩,
    ⟨st [], by decide +kernel⟩⟩

theorem witness_SuppliesAndTelemetry :
    (∃ (s : State), s.pkg.supply.pwrOk = false) ∧
    (∃ (s : State), s.pkg.supply.pwrOk = false) ∧
    (∃ (s : State) (u : Fin 21), s.pkg.reg (O.supplyState + u.val) = 1 ∧ (s.pkg.supply.seqStep < 2 ∨ 7 < s.pkg.supply.seqStep ∨
      s.pkg.supply.seqStopped = true)) ∧
    (∃ (s : State) (u : Fin 21), s.pkg.reg (O.supplyState + u.val) = 1 ∧ (s.pkg.supply.seqStep < 2 ∨ 7 < s.pkg.supply.seqStep ∨
      s.pkg.supply.seqStopped = true)) ∧
    (∃ (s : State) (u : Fin 21), s.pkg.reg (O.supplyState + u.val) = 1 ∧ (s.pkg.supply.seqStep < 2 ∨ 7 < s.pkg.supply.seqStep ∨
      s.pkg.supply.seqStopped = true)) ∧
    (∃ (s : State) (u : Fin 21), s.pkg.reg (O.supplyState + u.val) = 1 ∧ s.pkg.supply.seqStep = 7 ∧ s.pkg.supply.seqStopped = false ∧ u.val
      < 4 ∧ (∀ k < 4, k ≠ u.val → s.pkg.reg (O.supplyState + k) = 2)) ∧
    (∃ (s : State) (u : Fin 21), s.pkg.reg (O.supplyState + u.val) ≠ 1) ∧
    (∃ (s : State), s.pkg.supply.pwrOk = true) ∧
    (∃ (s : State), s.Runs .management) ∧
    (∃ (s : State), s.Runs .management) ∧
    (∃ (s : State), s.Runs .management) ∧
    (∃ (s : State), s.Runs .management) ∧
    (∃ (s : State), s.pkg.supply.tripped = false) :=
  ⟨⟨st [], by decide +kernel⟩,
    ⟨st [], by decide +kernel⟩,
    ⟨(st [(O.supplyState + 0, 1)]), 0, by decide +kernel⟩,
    ⟨(st [(O.supplyState + 20, 1)] fun p => { p with supply := { p.supply with seqStep := 7, seqStopped := true } }), 20,
      by decide +kernel⟩,
    ⟨(st [(O.supplyState + 3, 1)] fun p => { p with supply := { p.supply with seqStep := 8 } }), 3, by decide +kernel⟩,
    ⟨(st [(O.supplyState + 0, 2), (O.supplyState + 1, 2), (O.supplyState + 2, 2), (O.supplyState + 3, 1)] fun p =>
      { p with supply := { p.supply with seqStep := 7 } }), 3, by decide +kernel⟩,
    ⟨st [], 0, by decide +kernel⟩,
    ⟨(st [] fun p => { p with supply := { p.supply with pwrOk := true } }), by decide +kernel⟩,
    ⟨st [], by decide +kernel⟩,
    ⟨st [], by decide +kernel⟩,
    ⟨st [], by decide +kernel⟩,
    ⟨st [], by decide +kernel⟩,
    ⟨st [], by decide +kernel⟩⟩

theorem witness_BootSteps :
    (∃ (s : State), s.pkg.boot.step = 0) ∧
    (∃ (s : State) (f : BootFinding), s.Runs .management ∧ f.ok = false ∧ (s.pkg.boot.step = 1 ∨ s.pkg.boot.step = 6 ∨ s.pkg.boot.step = 7
      ∨ s.pkg.boot.step = 8 ∨ s.pkg.boot.step = 10 ∨ 11 ≤ s.pkg.boot.step)) ∧
    (∃ (s : State) (f : BootFinding), s.Runs .management ∧ f.ok = false ∧ (s.pkg.boot.step = 1 ∨ s.pkg.boot.step = 6 ∨ s.pkg.boot.step = 7
      ∨ s.pkg.boot.step = 8 ∨ s.pkg.boot.step = 10 ∨ 11 ≤ s.pkg.boot.step)) ∧
    (∃ (s : State) (f : BootFinding), s.Runs .management ∧ f.ok = false ∧ (s.pkg.boot.step = 1 ∨ s.pkg.boot.step = 6 ∨ s.pkg.boot.step = 7
      ∨ s.pkg.boot.step = 8 ∨ s.pkg.boot.step = 10 ∨ 11 ≤ s.pkg.boot.step)) ∧
    (∃ (s : State) (f : BootFinding), s.Runs .management ∧ f.ok = false ∧ (s.pkg.boot.step = 1 ∨ s.pkg.boot.step = 6 ∨ s.pkg.boot.step = 7
      ∨ s.pkg.boot.step = 8 ∨ s.pkg.boot.step = 10 ∨ 11 ≤ s.pkg.boot.step)) ∧
    (∃ (s : State) (f : BootFinding), s.Runs .management ∧ f.ok = false ∧ (s.pkg.boot.step = 1 ∨ s.pkg.boot.step = 6 ∨ s.pkg.boot.step = 7
      ∨ s.pkg.boot.step = 8 ∨ s.pkg.boot.step = 10 ∨ 11 ≤ s.pkg.boot.step)) ∧
    (∃ (s : State) (f : BootFinding), s.Runs .management ∧ f.ok = false ∧ (s.pkg.boot.step = 1 ∨ s.pkg.boot.step = 6 ∨ s.pkg.boot.step = 7
      ∨ s.pkg.boot.step = 8 ∨ s.pkg.boot.step = 10 ∨ 11 ≤ s.pkg.boot.step)) ∧
    (∃ (s : State) (f : BootFinding), s.Runs .management ∧ f.ok = false ∧ (s.pkg.boot.step = 1 ∨ s.pkg.boot.step = 6 ∨ s.pkg.boot.step = 7
      ∨ s.pkg.boot.step = 8 ∨ s.pkg.boot.step = 10 ∨ 11 ≤ s.pkg.boot.step)) ∧
    (∃ (s : State) (f : BootFinding), s.Runs .management ∧ f.ok = false ∧ s.pkg.boot.step = 2) ∧
    (∃ (s : State) (f : BootFinding), s.Runs .management ∧ f.ok = false ∧ s.pkg.boot.step = 3) ∧
    (∃ (s : State) (f : BootFinding), s.Runs .management ∧ f.ok = true ∧ s.pkg.boot.step = 1 ∧ s.pkg.boot.inRecovery = false ∧
      s.pkg.boot.recoveryReq = false ∧ s.pkg.power.aon.hdrValid = true ∧ s.pkg.power.aon.bootFails ≠ 3) ∧
    (∃ (s : State) (f : BootFinding), s.Runs .management ∧ f.ok = true ∧ s.pkg.boot.step = 1 ∧ s.pkg.boot.inRecovery = false ∧
      s.pkg.boot.recoveryReq = false ∧ s.pkg.power.aon.hdrValid = true ∧ s.pkg.power.aon.bootFails = 3) ∧
    (∃ (s : State) (f : BootFinding), s.Runs .management ∧ f.ok = true ∧ s.pkg.boot.step = 10 ∧ (∀ d < 2, s.pkg.reg (O.linkTestOwner + d) =
      0)) ∧
    (∃ (s : State) (f : BootFinding), s.Runs .management ∧ f.ok = true ∧ s.pkg.boot.step = 11) ∧
    (∃ (s : State), s.pkg.reg O.bootState ≠ 3) ∧
    (∃ (s : State) (pt : Path) (b : List Byte) (p1 : Pkg), s.Runs (pathPlane pt) ∧ s.pkg.reg O.bootState = 3 ∧ s.pkg.boot.osStarted = false
      ∧ s.pkg.reg O.osPayloadLen ≠ 0 ∧ s.pkg.reg O.osPayloadLen ≠ 2 ^ 32 - 1 ∧ s.pkg.reg O.cmdWindowBase ≤ s.pkg.reg O.osPayloadAddr ∧
      s.pkg.reg O.osPayloadAddr + s.pkg.reg O.osPayloadLen ≤ s.pkg.reg O.cmdWindowBase + 2 ^ 32 ∧ s.pkg.agentBytes ioA (s.pkg.reg
      O.osPayloadAddr) (s.pkg.reg O.osPayloadLen) = (some b, p1) ∧ p1.reg O.osVerify = 0) ∧
    (∃ (s : State) (pt : Path), s.Runs (pathPlane pt)) :=
  ⟨⟨st [], by decide +kernel⟩,
    ⟨(st [] fun p => { p with boot := { p.boot with step := 1 } }), ⟨false, 1, []⟩, by decide +kernel⟩,
    ⟨(st [] fun p => { p with boot := { p.boot with step := 6 } }), ⟨false, 1, []⟩, by decide +kernel⟩,
    ⟨(st [] fun p => { p with boot := { p.boot with step := 7 } }), ⟨false, 1, []⟩, by decide +kernel⟩,
    ⟨(st [] fun p => { p with boot := { p.boot with step := 8 } }), ⟨false, 1, []⟩, by decide +kernel⟩,
    ⟨(st [] fun p => { p with boot := { p.boot with step := 10 } }), ⟨false, 1, []⟩, by decide +kernel⟩,
    ⟨(st [] fun p => { p with boot := { p.boot with step := 11 } }), ⟨false, 1, []⟩, by decide +kernel⟩,
    ⟨(st [] fun p => { p with boot := { p.boot with step := 12 } }), ⟨false, 1, []⟩, by decide +kernel⟩,
    ⟨(st [] fun p => { p with boot := { p.boot with step := 2 } }), ⟨false, 1, []⟩, by decide +kernel⟩,
    ⟨(st [] fun p => { p with boot := { p.boot with step := 3 } }), ⟨false, 1, []⟩, by decide +kernel⟩,
    ⟨(st [] fun p =>
      { p with boot := { p.boot with step := 1 }, power := { p.power with aon := { p.power.aon with hdrValid := true, bootFails := 0 } } }),
      ⟨true, 0, []⟩, by decide +kernel⟩,
    ⟨(st [] fun p =>
      { p with boot := { p.boot with step := 1 }, power := { p.power with aon := { p.power.aon with hdrValid := true, bootFails := 3 } } }),
      ⟨true, 0, []⟩, by decide +kernel⟩,
    ⟨(st [] fun p => { p with boot := { p.boot with step := 10 } }), ⟨true, 0, []⟩, by decide +kernel⟩,
    ⟨(st [] fun p => { p with boot := { p.boot with step := 11 } }), ⟨true, 0, []⟩, by decide +kernel⟩,
    ⟨st [], by decide +kernel⟩,
    ⟨osWaits, .core, zeros 16, osWaits.pkg, by decide, by decide +kernel, by decide +kernel, by decide +kernel, by decide +kernel,
      by decide +kernel, by decide +kernel, os_bytes, by decide +kernel⟩,
    ⟨st [], .canFd, by decide +kernel⟩⟩

theorem witness_TransfersAndFlash :
    (∃ (s : State) (c : XferSrc) (kind mode n : Nat), s.Runs (xferPlane c) ∧ s.pkg.boot.xfer = none ∧ n ≠ 0 ∧ n ≤ xferMax kind ∧
      s.pkg.modeAllowed kind mode = true) ∧
    (∃ (s : State) (c : XferSrc) (kind mode n : Nat), s.Runs (xferPlane c) ∧ (s.pkg.boot.xfer.isSome = true ∨ n = 0 ∨ xferMax kind < n ∨
      s.pkg.modeAllowed kind mode = false)) ∧
    (∃ (s : State) (c : XferSrc) (kind mode n : Nat), s.Runs (xferPlane c) ∧ (s.pkg.boot.xfer.isSome = true ∨ n = 0 ∨ xferMax kind < n ∨
      s.pkg.modeAllowed kind mode = false)) ∧
    (∃ (s : State) (c : XferSrc) (kind mode n : Nat), s.Runs (xferPlane c) ∧ (s.pkg.boot.xfer.isSome = true ∨ n = 0 ∨ xferMax kind < n ∨
      s.pkg.modeAllowed kind mode = false)) ∧
    (∃ (s : State) (c : XferSrc) (kind mode n : Nat), s.Runs (xferPlane c) ∧ (s.pkg.boot.xfer.isSome = true ∨ n = 0 ∨ xferMax kind < n ∨
      s.pkg.modeAllowed kind mode = false)) ∧
    (∃ (s : State) (x : Xfer) (l : List Byte), s.Runs (xferPlane x.src) ∧ s.pkg.boot.xfer = some x ∧ s.pkg.reg O.recoveryState = 2 ∧ l ≠ []
      ∧ l.length ≤ dataMax x.src ∧ x.got.length + l.length ≤ x.total) ∧
    (∃ (s : State) (c : XferSrc) (o : Nat) (x : Xfer), s.Runs (xferPlane c) ∧ s.pkg.boot.xfer = some x ∧ o ≠ x.got.length) ∧
    (∃ (s : State) (x : Xfer), s.Runs (xferPlane x.src) ∧ s.pkg.boot.xfer = some x ∧ s.pkg.reg O.recoveryState = 2) ∧
    (∃ (q : List FlashJob), q ≠ [] ∧ (∀ j ∈ q, j.prio ≤ 4)) ∧
    (∃ (s : State), nextJob s.pkg.boot.flashQ = none) ∧
    (∃ (s : State) (n : Nat) (j : FlashJob), s.Runs .management ∧ nextJob s.pkg.boot.flashQ = some n ∧ s.pkg.boot.flashQ[n]? = some j ∧
      (j.prio = 2 ∨ j.prio = 3) ∧ s.pkg.reg O.recoveryState ≠ 5) ∧
    (∃ (s : State) (n : Nat) (j : FlashJob), s.Runs .management ∧ nextJob s.pkg.boot.flashQ = some n ∧ s.pkg.boot.flashQ[n]? = some j ∧
      (j.prio = 2 ∨ j.prio = 3) ∧ s.pkg.reg O.recoveryState ≠ 5) ∧
    (∃ (s : State) (pt : Path), s.Runs (pathPlane pt) ∧ s.pkg.reg O.floors < s.pkg.reg O.fwSecurityVersion) :=
  ⟨⟨inMission, .mailbox, 1, 2, 4, by decide +kernel⟩,
    ⟨(st [(O.recoveryState, 2)] fun p => { p with boot := { p.boot with xfer := some (⟨.mailbox, 1, 2, 4, [1]⟩) } }), .mailbox, 1, 2, 4,
      by decide +kernel⟩,
    ⟨inMission, .mailbox, 1, 2, 0, by decide +kernel⟩,
    ⟨inMission, .mailbox, 1, 2, 2 ^ 30, by decide +kernel⟩,
    ⟨inMission, .mailbox, 4, 2, 4, by decide +kernel⟩,
    ⟨(st [(O.recoveryState, 2)] fun p => { p with boot := { p.boot with xfer := some (⟨.mailbox, 1, 2, 4, [1]⟩) } }), ⟨.mailbox, 1, 2, 4,
      [1]⟩, [2, 3], by decide +kernel⟩,
    ⟨(st [(O.recoveryState, 2)] fun p => { p with boot := { p.boot with xfer := some (⟨.mailbox, 1, 2, 4, [1]⟩) } }), .mailbox, 0,
      ⟨.mailbox, 1, 2, 4, [1]⟩, by decide +kernel⟩,
    ⟨(st [(O.recoveryState, 2)] fun p => { p with boot := { p.boot with xfer := some (⟨.mailbox, 1, 2, 4, [1]⟩) } }), ⟨.mailbox, 1, 2, 4,
      [1]⟩, by decide +kernel⟩,
    ⟨[⟨2, 0, []⟩], by decide +kernel⟩,
    ⟨st [], by decide +kernel⟩,
    ⟨(st [] fun p => { p with boot := { p.boot with flashQ := [⟨2, 0, [1]⟩] } }), 0, ⟨2, 0, [1]⟩, by decide +kernel⟩,
    ⟨(st [] fun p => { p with boot := { p.boot with flashQ := [⟨3, 0, [1]⟩] } }), 0, ⟨3, 0, [1]⟩, by decide +kernel⟩,
    ⟨st [(O.fwSecurityVersion, 1)], .core, by decide +kernel⟩⟩

theorem witness_Attestation :
    (∃ (s : State) (pt : Path), s.Runs (pathPlane pt) ∧ s.pkg.reg (O.quoteState + (pt.num - 1)) ≠ 1) ∧
    (∃ (s : State) (pt : Path), s.Runs (pathPlane pt) ∧ s.pkg.reg (O.quoteState + (pt.num - 1)) = 1) ∧
    (∃ (s : State) (pt : Path), s.Runs (pathPlane pt) ∧ s.pkg.reg (O.quoteState + (pt.num - 1)) ≠ 1 ∧ s.pkg.reg O.identityState = 1 ∧
      s.pkg.reg O.rngState ≠ 1) ∧
    (∃ (s : State) (pt : Path), s.Runs (pathPlane pt) ∧ (s.pkg.reg (O.quoteState + (pt.num - 1)) = 1 ∨ s.pkg.reg O.identityState ≠ 1 ∨
      s.pkg.reg O.rngState = 1)) ∧
    (∃ (s : State) (pt : Path), s.Runs (pathPlane pt) ∧ (s.pkg.reg (O.quoteState + (pt.num - 1)) = 1 ∨ s.pkg.reg O.identityState ≠ 1 ∨
      s.pkg.reg O.rngState = 1)) ∧
    (∃ (s : State) (pt : Path), s.Runs (pathPlane pt) ∧ (s.pkg.reg (O.quoteState + (pt.num - 1)) = 1 ∨ s.pkg.reg O.identityState ≠ 1 ∨
      s.pkg.reg O.rngState = 1)) ∧
    (∃ (s : State) (pt : Path), s.Runs (pathPlane pt) ∧ s.pkg.reg (O.quoteState + (pt.num - 1)) = 1) ∧
    (∃ (s : State), s.Runs .control) ∧
    (∃ (s : State) (pt : Path), s.Runs (pathPlane pt) ∧ pt ≠ .core) ∧
    (∃ (s : State), s.Runs .management) :=
  ⟨⟨st [], .canFd, by decide +kernel⟩,
    ⟨st [(O.quoteState, 1)], .hostBar, by decide +kernel⟩,
    ⟨st [(O.identityState, 1)], .canFd, by decide +kernel⟩,
    ⟨st [(O.quoteState, 1)], .hostBar, by decide +kernel⟩,
    ⟨st [], .canFd, by decide +kernel⟩,
    ⟨st [(O.identityState, 1), (O.rngState, 1)], .canFd, by decide +kernel⟩,
    ⟨st [(O.quoteState, 1)], .hostBar, by decide +kernel⟩,
    ⟨st [], by decide +kernel⟩,
    ⟨st [], .canFd, by decide +kernel⟩,
    ⟨st [], by decide +kernel⟩⟩

theorem witness_EventPath :
    (∃ (s : State) (r : EvRec) (l : List EvRec), s.pkg.coreStopped = false ∧ s.pkg.ev.inFlight = r :: l ∧ 2 ≤ r.severity ∧ r.severity ≤ 5 ∧
      bitOf (s.pkg.reg (O.escMask + r.severity)) 3 = false) ∧
    (∃ (s : State) (r : EvRec) (l : List EvRec), s.pkg.coreStopped = false ∧ s.pkg.ev.inFlight = r :: l ∧ r.severity ≤ 1 ∧
      s.pkg.ev.interval = s.pkg.mtime / 100000 ∧ 256 ≤ s.pkg.ev.inInterval ∧ s.pkg.ev.suppressed = true) ∧
    (∃ (s : State) (r : EvRec) (l : List EvRec), s.pkg.coreStopped = true ∧ s.pkg.ev.inFlight = r :: l) ∧
    (∃ (s : State) (pt : Path) (n : Nat) (r : EvRec), s.Runs (pathPlane pt) ∧ s.pkg.reg (O.eventLogSelect + (pt.num - 1)) = n ∧ n ≠ 0 ∧
      (s.pkg.ev.log.find? (fun e => decide (e.1 = n)) = some (n, r))) ∧
    (∃ (s : State) (pt : Path) (v : Fin 6) (m : Nat), s.Runs (pathPlane pt) ∧ m ≤ 15 ∧ (v.val < 4 ∨ m % 4 = 3)) ∧
    (∃ (s : State) (pt : Path) (v : Fin 6) (m : Nat), s.Runs (pathPlane pt) ∧ m ≤ 15 ∧ (v.val < 4 ∨ m % 4 = 3)) ∧
    (∃ (s : State) (pt : Path) (v : Fin 6) (m : Nat), s.Runs (pathPlane pt) ∧ m ≤ 15 ∧ 4 ≤ v.val ∧ m % 4 ≠ 3) ∧
    (∃ (s : State) (pt : Path) (v : Nat), s.Runs (pathPlane pt) ∧ v < 64 ∧ s.pkg.queueNames 64 v = false) ∧
    (∃ (s : State) (pt : Path) (v : Nat), s.Runs (pathPlane pt) ∧ v < 64 ∧ s.pkg.queueNames 64 v = true) ∧
    (∃ (s : State) (pt : Path) (v : Nat) (q : QueueNo), s.Runs (pathPlane pt) ∧ v < 64 ∧ (s.pkg.queue q.val).enabled = false ∧ (s.pkg.queue
      q.val).disabling = false ∧ (s.pkg.reg O.eventMsixVector ≠ v ∧ s.pkg.queueNames q.val v = false)) ∧
    (∃ (s : State) (pt : Path) (v : Nat) (q : QueueNo), s.Runs (pathPlane pt) ∧ v < 64 ∧ (s.pkg.queue q.val).enabled = false ∧ (s.pkg.queue
      q.val).disabling = false ∧ s.pkg.reg O.eventMsixVector = v) :=
  ⟨⟨(st [] fun p => { p with boot := { p.boot with step := 7 }, ev := { p.ev with inFlight := [⟨0x2601, 2, 0xFF, 0, 0⟩] } }), ⟨0x2601, 2,
      0xFF, 0, 0⟩, [], by decide +kernel, rfl, by decide +kernel⟩,
    ⟨(st [] fun p =>
      { p with boot := { p.boot with step := 7 }, ev := { p.ev with inFlight := [⟨0x2601, 1, 0xFF, 0, 0⟩], inInterval := 256, suppressed := true } }),
      ⟨0x2601, 1, 0xFF, 0, 0⟩, [], by decide +kernel, rfl, by decide +kernel⟩,
    ⟨(st [(O.resetCause, 1)] fun p => { p with ev := { p.ev with inFlight := [⟨0x2601, 2, 0xFF, 0, 0⟩] } }), ⟨0x2601, 2, 0xFF, 0, 0⟩, [],
      by decide +kernel, rfl⟩,
    ⟨(st [(O.eventLogSelect + (Path.canFd.num - 1), 7)] fun p => { p with ev := { p.ev with log := [(7, ⟨0x2601, 2, 0xFF, 0, 0⟩)] } }),
      .canFd, 7, ⟨0x2601, 2, 0xFF, 0, 0⟩, by decide +kernel⟩,
    ⟨st [], .core, 0, 15, by decide +kernel⟩,
    ⟨st [], .core, 5, 3, by decide +kernel⟩,
    ⟨st [], .canFd, 4, 0, by decide +kernel⟩,
    ⟨st [], .hostBar, 2, by decide +kernel⟩,
    ⟨st [(qKey O.msixVector 0, 2)], .hostBar, 2, by decide +kernel⟩,
    ⟨vectors, .core, 7, 0, by decide +kernel⟩,
    ⟨vectors, .core, 3, 0, by decide +kernel⟩⟩

end Sys2Proof.Tests
end

/-! ## Declaring the package failed: what stays, what changes

R350 and R468 over Machine/Ops.lean: the flood of the failure notice, the error bit, and the declaration as a whole. -/

namespace Sys2Proof.Machine

/-- R294: queueing a class-0 message changes the link ports and nothing else. -/
theorem c0Send_changes_links (p : Pkg) (m : C0Msg) (skip : Nat) : ∃ l, p.c0Send m skip = { p with links := l } := by
  unfold Pkg.c0Send
  generalize List.range 12 = ports
  induction ports generalizing p with
  | nil => exact ⟨p.links, rfl⟩
  | cons i ports ih =>
    rw [List.foldl_cons]
    split
    · obtain ⟨l, hl⟩ := ih (p.setPort i _)
      exact ⟨l, hl⟩
    · exact ih p

/-- R294: a flood takes an origin sequence, leaves in `out`, and is queued at the ports. -/
theorem flood_changes_sequence_out_links (p : Pkg) (type dst : Nat) (payload : List Nat) :
    ∃ n o l, p.flood type dst payload = { p with sched := { p.sched with originSeq := n }, out := o, links := l } := by
  obtain ⟨l, hl⟩ := c0Send_changes_links
    (({ p with sched := { p.sched with originSeq := (p.sched.originSeq + 1) % 2 ^ 32 } }).emit
      (.class0 ⟨type, p.reg O.domainPhysId, dst, (p.sched.originSeq + 1) % 2 ^ 32, payload⟩))
    ⟨type, p.reg O.domainPhysId, dst, (p.sched.originSeq + 1) % 2 ^ 32, payload⟩ 12
  exact ⟨_, _, l, hl⟩

/-- R407: an error bit lives in the dictionary. -/
theorem setErrBit_changes_dict (p : Pkg) (i : Nat) (b : Bool) : ∃ d, p.setErrBit i b = { p with dict := d } := by
  unfold Pkg.setErrBit
  dsimp only
  split
  · exact ⟨p.dict, rfl⟩
  · exact ⟨_, rfl⟩

theorem setErrBit_reg_other (p : Pkg) (i : Nat) (b : Bool) (k : Nat) (h : k ≠ O.errorRegister) :
    (p.setErrBit i b).reg k = p.reg k := by
  unfold Pkg.setErrBit
  dsimp only
  split
  · rfl
  · exact reg_setReg_other _ _ _ _ h

/-- R407: bit 0 of error_register reads 1 once it has been set. -/
theorem setErrBit_zero_reads (p : Pkg) : bitOf ((p.setErrBit 0 true).reg O.errorRegister) 0 = true := by
  unfold Pkg.setErrBit
  dsimp only
  split
  · assumption
  · rename_i hclear
    rw [reg_setReg_self]
    simp only [bitOf, pow_zero, Nat.div_one, beq_iff_eq, if_true] at hclear ⊢
    omega

/-- The notice, event 0x4805 and the error bit of a package that declares itself failed. -/
def Pkg.failureNotice (p : Pkg) : Pkg :=
  ((p.flood 0x21 0 [p.reg O.logicalPosition, p.reg O.logicalPosition, p.reg O.domainBeat]).raise 0x4805 noUnit 0).setErrBit 0 true

theorem declareFailed_eq (p : Pkg) (h : p.failed = false) :
    p.declareFailed = { p.failureNotice.stopTiles with failed := true } := by
  simp [Pkg.declareFailed, Pkg.failureNotice, h]

theorem declareFailed_failed (p : Pkg) : p.declareFailed.failed = true := by
  cases h : p.failed with
  | true => rwa [declareFailed_again p h]
  | false => rw [declareFailed_eq p h]

/-! ## Alarms: events and failure declarations -/

/-- q is p after nothing but events and failure declarations: no object but error_register has changed, no event has been lost, no
failure has been taken back, and the time base stands. -/
structure Alarmed (p q : Pkg) : Prop where
  reg : ∀ k, k ≠ O.errorRegister → q.reg k = p.reg k
  supply : q.supply = p.supply
  loader : q.loader = p.loader
  formed : q.sched.formed = p.sched.formed
  offsetRuns : q.sched.offsetRuns = p.sched.offsetRuns
  failed : p.failed = true → q.failed = true
  events : p.ev.inFlight ⊆ q.ev.inFlight

theorem Alarmed.refl (p : Pkg) : Alarmed p p :=
  ⟨fun _ _ => rfl, rfl, rfl, rfl, rfl, id, List.Subset.refl _⟩

theorem Alarmed.trans {p q r : Pkg} (hpq : Alarmed p q) (hqr : Alarmed q r) : Alarmed p r where
  reg k hk := (hqr.reg k hk).trans (hpq.reg k hk)
  supply := hqr.supply.trans hpq.supply
  loader := hqr.loader.trans hpq.loader
  formed := hqr.formed.trans hpq.formed
  offsetRuns := hqr.offsetRuns.trans hpq.offsetRuns
  failed h := hqr.failed (hpq.failed h)
  events := List.Subset.trans hpq.events hqr.events

theorem alarmed_raise (p : Pkg) (code unit arg : Nat) : Alarmed p (p.raise code unit arg) :=
  ⟨fun _ _ => rfl, rfl, rfl, rfl, rfl, id, by simp⟩

theorem alarmed_flood (p : Pkg) (type dst : Nat) (payload : List Nat) : Alarmed p (p.flood type dst payload) := by
  obtain ⟨n, o, l, h⟩ := flood_changes_sequence_out_links p type dst payload
  rw [h]
  exact ⟨fun _ _ => rfl, rfl, rfl, rfl, rfl, id, List.Subset.refl _⟩

theorem alarmed_setErrBit (p : Pkg) (i : Nat) (b : Bool) : Alarmed p (p.setErrBit i b) := by
  have hreg := setErrBit_reg_other p i b
  obtain ⟨d, h⟩ := setErrBit_changes_dict p i b
  rw [h] at hreg ⊢
  exact ⟨hreg, rfl, rfl, rfl, rfl, id, List.Subset.refl _⟩

theorem alarmed_stopTiles_failed (p : Pkg) : Alarmed p { p.stopTiles with failed := true } :=
  ⟨fun _ _ => rfl, rfl, rfl, rfl, rfl, fun _ => rfl, List.Subset.refl _⟩

theorem alarmed_declareFailed (p : Pkg) : Alarmed p p.declareFailed := by
  cases h : p.failed with
  | true => rw [declareFailed_again p h]; exact .refl p
  | false =>
    rw [declareFailed_eq p h]
    exact (alarmed_flood p ..).trans ((alarmed_raise _ ..).trans ((alarmed_setErrBit _ ..).trans (alarmed_stopTiles_failed _)))

/-- An event with this code is on its way from the package. -/
def Pkg.HasEvent (p : Pkg) (code : Nat) : Prop := ∃ r ∈ p.ev.inFlight, r.code = code

theorem hasEvent_raise (p : Pkg) (code unit arg : Nat) : (p.raise code unit arg).HasEvent code := by
  simp [Pkg.HasEvent]

theorem Alarmed.hasEvent {p q : Pkg} (h : Alarmed p q) {code : Nat} (hp : p.HasEvent code) : q.HasEvent code := by
  obtain ⟨r, hr, hcode⟩ := hp
  exact ⟨r, h.events hr, hcode⟩

/-- R407, R438: a failed package shows bit 0 of error_register, so FAULT_N is low. -/
def Pkg.ShowsFailure (p : Pkg) : Prop := p.failed = true → bitOf (p.reg O.errorRegister) 0 = true

theorem showsFailure_declareFailed (p : Pkg) (h : p.ShowsFailure) : p.declareFailed.ShowsFailure := by
  cases hf : p.failed with
  | true => rwa [declareFailed_again p hf]
  | false =>
    rw [declareFailed_eq p hf]
    exact fun _ => setErrBit_zero_reads _

theorem landsOf_faultN_low (p : Pkg) (h : p.ShowsFailure) (hf : p.failed = true) : (landsOf p).faultN = false := by
  simp [landsOf, h hf]

end Sys2Proof.Machine

/-! ## The time exchange, stage by stage (R140, R143, R394) -/

namespace Sys2Proof.Machine

/-- R140, log 68: a package that the chain of time parents has not reached takes its parent's counts. -/
def Pkg.adoptCounts (p : Pkg) (x : TimeExchange) : Pkg :=
  if p.sched.formed then p
  else ((p.setReg O.domainBeat x.parentBeat).setReg O.slipTotal x.parentSlip).setSched { p.sched with formed := true, offsetRuns := 0 }

/-- The offset and the master's generation are recorded, and the run of excess offsets grows or ends. -/
def Pkg.recordOffset (p : Pkg) (x : TimeExchange) : Pkg :=
  ((p.setReg O.timeOffset (toBits 32 x.residualPs)).setCfg { p.cfg with masterGen := x.masterGen }).setSched
    { p.sched with offsetRuns := if 24000 < x.residualPs.natAbs then p.sched.offsetRuns + 1 else 0 }

/-- What the exchange has recorded before its checks. -/
def Pkg.takeExchange (p : Pkg) (x : TimeExchange) : Pkg := (p.adoptCounts x).recordOffset x

/-- R143: the event of an excess offset. -/
def Pkg.reportOffset (p : Pkg) (x : TimeExchange) : Pkg := if 24000 < x.residualPs.natAbs then p.raise 0x3809 noUnit 0 else p

/-- R143: the failure at a run of three excess offsets. -/
def Pkg.failOnRuns (p : Pkg) : Pkg := if 3 ≤ p.sched.offsetRuns then p.declareFailed else p

/-- R143: the comparison of slip_total. -/
def Pkg.compareSlip (p : Pkg) (x : TimeExchange) : Pkg :=
  if x.parentSlip ≠ p.reg O.slipTotal then (p.raise 0x3808 noUnit 0).declareFailed else p

/-- R394: the comparison of the active generation. -/
def Pkg.compareGeneration (p : Pkg) (x : TimeExchange) : Pkg :=
  if p.reg O.imageState = 4 ∧ x.masterGen ≠ p.reg O.cfgActiveGen then (p.raise 0x2606 noUnit 0).declareFailed else p

/-- The comparisons, which an exchange at another beat does not make. -/
def Pkg.compareCounts (p : Pkg) (x : TimeExchange) : Pkg :=
  if x.parentBeat ≠ p.reg O.domainBeat then p else (p.compareSlip x).compareGeneration x

/-- A package with a time parent, in PS0. -/
structure Pkg.Follows (p : Pkg) : Prop where
  runs : p.runs .link = true
  notMaster : p.isMaster = false
  hasParent : p.reg O.timeParentPort ≠ 0xFF

/-- The exchange of a package with a time parent is its stages in order. -/
theorem timeExchange_eq (p : Pkg) (x : TimeExchange) (h : p.Follows) :
    p.timeExchange x = (((p.takeExchange x).reportOffset x).failOnRuns).compareCounts x := by
  have hnot : ¬ (p.isMaster = true ∨ p.reg O.timeParentPort = 0xFF) := by simp [h.notMaster, h.hasParent]
  unfold Pkg.timeExchange
  rw [if_neg hnot]
  by_cases hfar : 24000 < x.residualPs.natAbs <;>
    simp [Pkg.takeExchange, Pkg.adoptCounts, Pkg.recordOffset, Pkg.reportOffset, Pkg.failOnRuns, Pkg.compareCounts, Pkg.compareSlip,
      Pkg.compareGeneration, hfar]

theorem exec_timeExchange (s : State) (x : TimeExchange) (h : s.pkg.Follows) :
    exec (.timeExchange x) s = .next (s.settle (s.pkg.timeExchange x)) :=
  on_runs s .link (fun p => p.timeExchange x) h.runs

/-! ### What the exchange records -/

theorem adoptCounts_of_formed (p : Pkg) (x : TimeExchange) (h : p.sched.formed = true) : p.adoptCounts x = p := by
  simp [Pkg.adoptCounts, h]

theorem adoptCounts_of_not_formed (p : Pkg) (x : TimeExchange) (h : p.sched.formed = false) : p.adoptCounts x =
    ((p.setReg O.domainBeat x.parentBeat).setReg O.slipTotal x.parentSlip).setSched { p.sched with formed := true, offsetRuns := 0 } := by
  simp [Pkg.adoptCounts, h]

theorem adoptCounts_formed (p : Pkg) (x : TimeExchange) : (p.adoptCounts x).sched.formed = true := by
  cases h : p.sched.formed with
  | true => rwa [adoptCounts_of_formed p x h]
  | false => rw [adoptCounts_of_not_formed p x h]; rfl

/-- Recording an exchange changes the dictionary, the configuration unit's note of the master, and schedule time. -/
theorem takeExchange_changes_dict_cfg_sched (p : Pkg) (x : TimeExchange) :
    ∃ d c t, p.takeExchange x = { p with dict := d, cfg := c, sched := t } := by
  cases h : p.sched.formed with
  | true => rw [Pkg.takeExchange, adoptCounts_of_formed p x h]; exact ⟨_, _, _, rfl⟩
  | false => rw [Pkg.takeExchange, adoptCounts_of_not_formed p x h]; exact ⟨_, _, _, rfl⟩

theorem recordOffset_reg_other (p : Pkg) (x : TimeExchange) (k : Nat) (h : k ≠ O.timeOffset) : (p.recordOffset x).reg k = p.reg k :=
  reg_setReg_other _ _ _ _ h

theorem adoptCounts_reg_other (p : Pkg) (x : TimeExchange) (k : Nat) (hbeat : k ≠ O.domainBeat) (hslip : k ≠ O.slipTotal) :
    (p.adoptCounts x).reg k = p.reg k := by
  cases h : p.sched.formed with
  | true => rw [adoptCounts_of_formed p x h]
  | false =>
    rw [adoptCounts_of_not_formed p x h, reg_setSched, reg_setReg_other _ _ _ _ hslip, reg_setReg_other _ _ _ _ hbeat]

theorem takeExchange_reg_other (p : Pkg) (x : TimeExchange) (k : Nat) (hbeat : k ≠ O.domainBeat) (hslip : k ≠ O.slipTotal)
    (hoff : k ≠ O.timeOffset) : (p.takeExchange x).reg k = p.reg k :=
  (recordOffset_reg_other _ x k hoff).trans (adoptCounts_reg_other p x k hbeat hslip)

theorem takeExchange_timeOffset (p : Pkg) (x : TimeExchange) : (p.takeExchange x).reg O.timeOffset = toBits 32 x.residualPs :=
  reg_setReg_self _ _ _

theorem takeExchange_reg_of_formed (p : Pkg) (x : TimeExchange) (k : Nat) (h : p.sched.formed = true) (hoff : k ≠ O.timeOffset) :
    (p.takeExchange x).reg k = p.reg k := by
  rw [Pkg.takeExchange, adoptCounts_of_formed p x h, recordOffset_reg_other p x k hoff]

theorem takeExchange_domainBeat_of_not_formed (p : Pkg) (x : TimeExchange) (h : p.sched.formed = false) :
    (p.takeExchange x).reg O.domainBeat = x.parentBeat := by
  rw [Pkg.takeExchange, recordOffset_reg_other _ _ _ (by decide), adoptCounts_of_not_formed p x h, reg_setSched,
    reg_setReg_other _ _ _ _ (by decide), reg_setReg_self]

theorem takeExchange_slipTotal_of_not_formed (p : Pkg) (x : TimeExchange) (h : p.sched.formed = false) :
    (p.takeExchange x).reg O.slipTotal = x.parentSlip := by
  rw [Pkg.takeExchange, recordOffset_reg_other _ _ _ (by decide), adoptCounts_of_not_formed p x h, reg_setSched, reg_setReg_self]

theorem takeExchange_formed (p : Pkg) (x : TimeExchange) : (p.takeExchange x).sched.formed = true := adoptCounts_formed p x

theorem takeExchange_runs_of_far (p : Pkg) (x : TimeExchange) (h : 24000 < x.residualPs.natAbs) :
    (p.takeExchange x).sched.offsetRuns = (p.adoptCounts x).sched.offsetRuns + 1 := if_pos h

theorem takeExchange_runs_of_near (p : Pkg) (x : TimeExchange) (h : x.residualPs.natAbs ≤ 24000) :
    (p.takeExchange x).sched.offsetRuns = 0 := if_neg (Nat.not_lt.mpr h)

/-! ### The checks are alarms -/

theorem alarmed_raise_declareFailed (p : Pkg) (code unit arg : Nat) : Alarmed p (p.raise code unit arg).declareFailed :=
  (alarmed_raise p code unit arg).trans (alarmed_declareFailed _)

theorem alarmed_reportOffset (p : Pkg) (x : TimeExchange) : Alarmed p (p.reportOffset x) := by
  unfold Pkg.reportOffset
  split
  · exact alarmed_raise ..
  · exact .refl p

theorem alarmed_failOnRuns (p : Pkg) : Alarmed p p.failOnRuns := by
  unfold Pkg.failOnRuns
  split
  · exact alarmed_declareFailed p
  · exact .refl p

theorem alarmed_compareSlip (p : Pkg) (x : TimeExchange) : Alarmed p (p.compareSlip x) := by
  unfold Pkg.compareSlip
  split
  · exact alarmed_raise_declareFailed ..
  · exact .refl p

theorem alarmed_compareGeneration (p : Pkg) (x : TimeExchange) : Alarmed p (p.compareGeneration x) := by
  unfold Pkg.compareGeneration
  split
  · exact alarmed_raise_declareFailed ..
  · exact .refl p

theorem alarmed_compareCounts (p : Pkg) (x : TimeExchange) : Alarmed p (p.compareCounts x) := by
  unfold Pkg.compareCounts
  split
  · exact .refl p
  · exact (alarmed_compareSlip p x).trans (alarmed_compareGeneration _ x)

/-- The checks of the offset alone. -/
theorem alarmed_offsetChecks (p : Pkg) (x : TimeExchange) : Alarmed p ((p.reportOffset x).failOnRuns) :=
  (alarmed_reportOffset p x).trans (alarmed_failOnRuns _)

/-- After what it records, an exchange only raises events and declares failures. -/
theorem alarmed_timeExchange (p : Pkg) (x : TimeExchange) (h : p.Follows) : Alarmed (p.takeExchange x) (p.timeExchange x) := by
  rw [timeExchange_eq p x h]
  exact (alarmed_offsetChecks _ x).trans (alarmed_compareCounts _ x)

theorem showsFailure_failOnRuns (p : Pkg) (h : p.ShowsFailure) : p.failOnRuns.ShowsFailure := by
  unfold Pkg.failOnRuns
  split
  · exact showsFailure_declareFailed p h
  · exact h

theorem showsFailure_compareSlip (p : Pkg) (x : TimeExchange) (h : p.ShowsFailure) : (p.compareSlip x).ShowsFailure := by
  unfold Pkg.compareSlip
  split
  · exact showsFailure_declareFailed (p.raise 0x3808 noUnit 0) h
  · exact h

theorem showsFailure_compareGeneration (p : Pkg) (x : TimeExchange) (h : p.ShowsFailure) : (p.compareGeneration x).ShowsFailure := by
  unfold Pkg.compareGeneration
  split
  · exact showsFailure_declareFailed (p.raise 0x2606 noUnit 0) h
  · exact h

theorem showsFailure_compareCounts (p : Pkg) (x : TimeExchange) (h : p.ShowsFailure) : (p.compareCounts x).ShowsFailure := by
  unfold Pkg.compareCounts
  split
  · exact h
  · exact showsFailure_compareGeneration _ x (showsFailure_compareSlip p x h)

/-- A package that had not failed shows a failure that the exchange brings. -/
theorem showsFailure_timeExchange (p : Pkg) (x : TimeExchange) (h : p.Follows) (hp : p.failed = false) :
    (p.timeExchange x).ShowsFailure := by
  have hreport : ((p.takeExchange x).reportOffset x).failed = false := by
    obtain ⟨d, c, t, ht⟩ := takeExchange_changes_dict_cfg_sched p x
    rw [ht, Pkg.reportOffset]
    split <;> exact hp
  rw [timeExchange_eq p x h]
  exact showsFailure_compareCounts _ x (showsFailure_failOnRuns _ fun hf => absurd hf (by simp [hreport]))

/-! ### The package goes on following its time parent -/

/-- What makes a package follow: its power state, its clocks, its parent's port, its position and the loaded image. -/
theorem Pkg.Follows.of_same {p q : Pkg} (h : p.Follows) (hsupply : q.supply = p.supply) (hloader : q.loader = p.loader)
    (hfailed : p.failed = true → q.failed = true) (hps : q.reg O.psCurrent = p.reg O.psCurrent)
    (hport : q.reg O.timeParentPort = p.reg O.timeParentPort) (hpos : q.reg O.logicalPosition = p.reg O.logicalPosition) :
    q.Follows where
  runs := by have := h.runs; simpa [Pkg.runs, hsupply, hps] using this
  notMaster := by
    have hm := h.notMaster
    cases hq : q.failed with
    | true => simp [Pkg.isMaster, Pkg.posImage, hq]
    | false =>
      have hp : p.failed = false := by
        cases hp : p.failed with
        | true => simp [hfailed hp] at hq
        | false => rfl
      simpa [Pkg.isMaster, Pkg.posImage, hq, hp, hpos, hloader] using hm
  hasParent := hport ▸ h.hasParent

theorem Alarmed.follows {p q : Pkg} (ha : Alarmed p q) (h : p.Follows) : q.Follows :=
  h.of_same ha.supply ha.loader ha.failed (ha.reg _ (by decide)) (ha.reg _ (by decide)) (ha.reg _ (by decide))

theorem follows_takeExchange (p : Pkg) (x : TimeExchange) (h : p.Follows) : (p.takeExchange x).Follows := by
  have hreg := takeExchange_reg_other p x
  obtain ⟨d, c, t, ht⟩ := takeExchange_changes_dict_cfg_sched p x
  rw [ht] at hreg ⊢
  exact h.of_same rfl rfl id (hreg _ (by decide) (by decide) (by decide)) (hreg _ (by decide) (by decide) (by decide))
    (hreg _ (by decide) (by decide) (by decide))

theorem follows_timeExchange (p : Pkg) (x : TimeExchange) (h : p.Follows) : (p.timeExchange x).Follows :=
  (alarmed_timeExchange p x h).follows (follows_takeExchange p x h)

/-! ### Excess offsets (R143) -/

theorem timeExchange_formed (p : Pkg) (x : TimeExchange) (h : p.Follows) : (p.timeExchange x).sched.formed = true :=
  (alarmed_timeExchange p x h).formed.trans (takeExchange_formed p x)

/-- Every excess offset is reported. -/
theorem timeExchange_reports_far (p : Pkg) (x : TimeExchange) (h : p.Follows) (hfar : 24000 < x.residualPs.natAbs) :
    (p.timeExchange x).HasEvent 0x3809 := by
  have hreport : ((p.takeExchange x).reportOffset x).HasEvent 0x3809 := by
    rw [Pkg.reportOffset, if_pos hfar]
    exact hasEvent_raise ..
  rw [timeExchange_eq p x h]
  exact ((alarmed_failOnRuns _).trans (alarmed_compareCounts _ x)).hasEvent hreport

theorem timeExchange_runs_of_far (p : Pkg) (x : TimeExchange) (h : p.Follows) (hfar : 24000 < x.residualPs.natAbs) :
    (p.timeExchange x).sched.offsetRuns = (p.adoptCounts x).sched.offsetRuns + 1 :=
  (alarmed_timeExchange p x h).offsetRuns.trans (takeExchange_runs_of_far p x hfar)

/-- On a package that has joined, an excess offset lengthens the run by one. -/
theorem timeExchange_runs_of_formed_far (p : Pkg) (x : TimeExchange) (h : p.Follows) (hformed : p.sched.formed = true)
    (hfar : 24000 < x.residualPs.natAbs) : (p.timeExchange x).sched.offsetRuns = p.sched.offsetRuns + 1 := by
  rw [timeExchange_runs_of_far p x h hfar, adoptCounts_of_formed p x hformed]

/-- A run of three excess offsets leaves the package failed. -/
theorem timeExchange_failed_of_runs (p : Pkg) (x : TimeExchange) (h : p.Follows) (hruns : 3 ≤ (p.timeExchange x).sched.offsetRuns) :
    (p.timeExchange x).failed = true := by
  have hreport : 3 ≤ ((p.takeExchange x).reportOffset x).sched.offsetRuns := by
    rwa [(alarmed_timeExchange p x h).offsetRuns, ← (alarmed_reportOffset (p.takeExchange x) x).offsetRuns] at hruns
  rw [timeExchange_eq p x h]
  refine (alarmed_compareCounts _ x).failed ?_
  rw [Pkg.failOnRuns, if_pos hreport]
  exact declareFailed_failed _

/-- Each of three excess offsets in a row leaves the run at least one longer than the exchange before it. -/
theorem three_far_exchanges_fail (p : Pkg) (x y z : TimeExchange) (h : p.Follows) (hx : 24000 < x.residualPs.natAbs)
    (hy : 24000 < y.residualPs.natAbs) (hz : 24000 < z.residualPs.natAbs) :
    (((p.timeExchange x).timeExchange y).timeExchange z).failed = true := by
  have h1 := follows_timeExchange p x h
  have h2 := follows_timeExchange _ y h1
  have r1 := timeExchange_runs_of_far p x h hx
  have r2 := timeExchange_runs_of_formed_far _ y h1 (timeExchange_formed p x h) hy
  have r3 := timeExchange_runs_of_formed_far _ z h2 (timeExchange_formed _ y h1) hz
  exact timeExchange_failed_of_runs _ z h2 (by omega)

/-! ### A slip_total that differs (R143) -/

theorem compareCounts_slip_differs (p : Pkg) (x : TimeExchange) (hbeat : x.parentBeat = p.reg O.domainBeat)
    (hslip : x.parentSlip ≠ p.reg O.slipTotal) : Alarmed (p.raise 0x3808 noUnit 0).declareFailed (p.compareCounts x) := by
  have h : p.compareCounts x = (p.raise 0x3808 noUnit 0).declareFailed.compareGeneration x := by
    simp [Pkg.compareCounts, Pkg.compareSlip, hbeat, hslip]
  rw [h]
  exact alarmed_compareGeneration _ x

/-- A joined package whose slip_total differs at its parent's beat raises 0x3808 and has failed. -/
theorem timeExchange_slip_differs (p : Pkg) (x : TimeExchange) (h : p.Follows) (hformed : p.sched.formed = true)
    (hbeat : x.parentBeat = p.reg O.domainBeat) (hslip : x.parentSlip ≠ p.reg O.slipTotal) :
    (p.timeExchange x).HasEvent 0x3808 ∧ (p.timeExchange x).failed = true := by
  rw [timeExchange_eq p x h]
  have hkeep := alarmed_offsetChecks (p.takeExchange x) x
  generalize ((p.takeExchange x).reportOffset x).failOnRuns = q at hkeep ⊢
  have hqbeat : q.reg O.domainBeat = p.reg O.domainBeat :=
    (hkeep.reg _ (by decide)).trans (takeExchange_reg_of_formed p x _ hformed (by decide))
  have hqslip : q.reg O.slipTotal = p.reg O.slipTotal :=
    (hkeep.reg _ (by decide)).trans (takeExchange_reg_of_formed p x _ hformed (by decide))
  have hfail := compareCounts_slip_differs q x (hqbeat ▸ hbeat) (hqslip ▸ hslip)
  exact ⟨hfail.hasEvent ((alarmed_declareFailed _).hasEvent (hasEvent_raise ..)), hfail.failed (declareFailed_failed _)⟩

/-! ### An exchange without a fault -/

/-- An exchange that agrees with the counts and the generation of the package, within 24 ns, raises nothing: it records and is done. -/
theorem timeExchange_of_agrees (p : Pkg) (x : TimeExchange) (h : p.Follows) (hnear : x.residualPs.natAbs ≤ 24000)
    (hslip : x.parentSlip = (p.takeExchange x).reg O.slipTotal)
    (hgen : (p.takeExchange x).reg O.imageState = 4 → x.masterGen = (p.takeExchange x).reg O.cfgActiveGen) :
    p.timeExchange x = p.takeExchange x := by
  have hreport : (p.takeExchange x).reportOffset x = p.takeExchange x := if_neg (Nat.not_lt.mpr hnear)
  have hruns : (p.takeExchange x).failOnRuns = p.takeExchange x := if_neg (by simp [takeExchange_runs_of_near p x hnear])
  have hcompare : (p.takeExchange x).compareSlip x = p.takeExchange x := if_neg (not_not.mpr hslip)
  have hgeneration : (p.takeExchange x).compareGeneration x = p.takeExchange x := if_neg fun ⟨himage, hne⟩ => hne (hgen himage)
  rw [timeExchange_eq p x h, hreport, hruns, Pkg.compareCounts, hcompare, hgeneration, ite_self]

/-- What an exchange records leaves failure, events, memory and tiles as they were. -/
theorem takeExchange_frame (p : Pkg) (x : TimeExchange) : (p.takeExchange x).failed = p.failed ∧ (p.takeExchange x).ev = p.ev ∧
    (∀ a, (p.takeExchange x).byte a = p.byte a) ∧ (p.takeExchange x).tiles = p.tiles := by
  obtain ⟨d, c, t, ht⟩ := takeExchange_changes_dict_cfg_sched p x
  rw [ht]
  exact ⟨rfl, rfl, fun _ => rfl, rfl⟩

/-- A package that joins meets no fault of its counts, since they are its parent's. -/
theorem timeExchange_joins (p : Pkg) (x : TimeExchange) (h : p.Follows) (hformed : p.sched.formed = false)
    (hnear : x.residualPs.natAbs ≤ 24000) (hgen : p.reg O.imageState = 4 → x.masterGen = p.reg O.cfgActiveGen) :
    p.timeExchange x = p.takeExchange x := by
  refine timeExchange_of_agrees p x h hnear (takeExchange_slipTotal_of_not_formed p x hformed).symm ?_
  rwa [takeExchange_reg_other p x O.imageState (by decide) (by decide) (by decide),
    takeExchange_reg_other p x O.cfgActiveGen (by decide) (by decide) (by decide)]

/-- A joined package whose slip_total and generation are its parent's meets no fault. -/
theorem timeExchange_of_formed_agrees (p : Pkg) (x : TimeExchange) (h : p.Follows) (hformed : p.sched.formed = true)
    (hnear : x.residualPs.natAbs ≤ 24000) (hslip : x.parentSlip = p.reg O.slipTotal) (hgen : x.masterGen = p.reg O.cfgActiveGen) :
    p.timeExchange x = p.takeExchange x := by
  refine timeExchange_of_agrees p x h hnear ?_ fun _ => ?_
  · rwa [takeExchange_reg_of_formed p x _ hformed (by decide)]
  · rwa [takeExchange_reg_of_formed p x _ hformed (by decide)]

/-- Settles O20 (R143; joining is R140 and log 68, the generation R394, FAULT_N R438): each exchange records and then raises alarms
only, so excess offsets add up over the run, and an exchange that agrees with the package ends where it has recorded. -/
theorem timeExchangeOutcomes : Obligations.TimeExchangeOutcomes := by
  intro s x hruns hmaster hport
  have h : s.pkg.Follows := ⟨hruns, hmaster, hport⟩
  have hx := exec_timeExchange s x h
  obtain ⟨hfailed, hev, hmem, htiles⟩ := takeExchange_frame s.pkg x
  refine ⟨fun hfar => ⟨_, hx, timeExchange_reports_far _ x h hfar⟩, fun y z hfx hfy hfz => ?_, fun hformed hbeat hslip => ?_,
    fun hformed hnear hgen => ?_, fun hformed hnear _ hslip hgen => ?_⟩
  · have h1 := follows_timeExchange s.pkg x h
    exact ⟨_, _, _, hx, exec_timeExchange _ y h1, exec_timeExchange _ z (follows_timeExchange _ y h1),
      three_far_exchanges_fail s.pkg x y z h hfx hfy hfz⟩
  · obtain ⟨hevent, hfail⟩ := timeExchange_slip_differs s.pkg x h hformed hbeat hslip
    exact ⟨_, hx, hevent, hfail, fun hp => landsOf_faultN_low _ (showsFailure_timeExchange s.pkg x h hp) hfail⟩
  · rw [timeExchange_joins s.pkg x h hformed hnear hgen] at hx
    exact ⟨_, hx, takeExchange_domainBeat_of_not_formed _ x hformed, takeExchange_slipTotal_of_not_formed _ x hformed,
      takeExchange_formed _ x, hfailed, hev, hmem, htiles⟩
  · rw [timeExchange_of_formed_agrees s.pkg x h hformed hnear hslip hgen] at hx
    exact ⟨_, hx, takeExchange_timeOffset _ x, takeExchange_runs_of_near _ x hnear, hfailed, hev, hmem, htiles,
      fun k hk => takeExchange_reg_of_formed s.pkg x k hformed hk⟩

end Sys2Proof.Machine

/-! ## What the memory side leaves to the dispatch units

Reads and writes by the agents (R266 to R280) run the directory, the cores, the set queues and the links. None of it reaches a dispatch
unit or a tile; of the objects of chapter 09 none changes, and the mesh only gets more flits. -/

namespace Sys2Proof.Machine

/-- The objects of the dispatch units, page 0x3C of the dictionary. -/
abbrev DispatchObject (k : Nat) : Prop := 0x3C0000 ≤ k ∧ k < 0x3D0000

/-- The parts of a package that a dispatch unit works on. -/
def Pkg.dispatchPart (p : Pkg) : SMap DispUnit × SMap Tile × List MeshFlit × Dict := (p.disp, p.tiles, p.flits, p.dict)

/-- q has the dispatch units, the tiles and the dispatch objects of p, and the flits of p ahead of any others. -/
structure DispatchKept (p q : Pkg) : Prop where
  disp : q.disp = p.disp
  tiles : q.tiles = p.tiles
  flits : p.flits <+: q.flits
  reg : ∀ k, DispatchObject k → q.reg k = p.reg k

namespace DispatchKept

section
variable {p q : Pkg}

theorem refl (p : Pkg) : DispatchKept p p := ⟨rfl, rfl, List.prefix_rfl, fun _ _ => rfl⟩

theorem trans {r : Pkg} (hpq : DispatchKept p q) (hqr : DispatchKept q r) : DispatchKept p r where
  disp := hqr.disp.trans hpq.disp
  tiles := hqr.tiles.trans hpq.tiles
  flits := hpq.flits.trans hqr.flits
  reg k hk := (hqr.reg k hk).trans (hpq.reg k hk)

/-- A step that leaves the parts of a dispatch unit alone. -/
theorem same {r : Pkg} (h : DispatchKept p q) (hr : r.dispatchPart = q.dispatchPart) : DispatchKept p r := by
  simp only [Pkg.dispatchPart, Prod.mk.injEq] at hr
  obtain ⟨hdisp, htiles, hflits, hdict⟩ := hr
  exact h.trans ⟨hdisp, htiles, hflits ▸ List.prefix_rfl, fun k _ => by rw [Pkg.reg, Pkg.reg, hdict]⟩

theorem ite {r : Pkg} {c : Prop} [Decidable c] (ht : DispatchKept p q) (he : DispatchKept p r) : DispatchKept p (if c then q else r) := by
  split
  · exact ht
  · exact he

/-- A fold whose every round keeps the dispatch part of the package in its accumulator. -/
theorem foldl_of {α β : Type} {pkg : β → Pkg} {f : β → α → β}
    (hf : ∀ b a, DispatchKept p (pkg b) → DispatchKept p (pkg (f b a))) (l : List α) {b : β} (h : DispatchKept p (pkg b)) : DispatchKept p (pkg (l.foldl f b)) := by
  induction l generalizing b with
  | nil => exact h
  | cons a l ih => exact ih (hf b a h)

theorem foldl {α : Type} {f : Pkg → α → Pkg} (hf : ∀ q a, DispatchKept p q → DispatchKept p (f q a)) (l : List α)
    (h : DispatchKept p q) : DispatchKept p (l.foldl f q) := foldl_of (pkg := id) hf l h

/-! ### Registers, events, flits -/

theorem setReg {k : Nat} (hk : ¬ DispatchObject k) (v : Nat) (h : DispatchKept p q) : DispatchKept p (q.setReg k v) :=
  h.trans ⟨rfl, rfl, List.prefix_rfl, fun j hj => reg_setReg_other q j k v fun hjk => hk (hjk ▸ hj)⟩

/-- The objects of the memory side, the directory, the cores and the links lie above page 0x3C, each with any number of entries. -/
theorem setRegAbove {a : Nat} (ha : 0x3D0000 ≤ a) (i v : Nat) (h : DispatchKept p q) : DispatchKept p (q.setReg (a + i) v) :=
  setReg (fun hk => absurd hk.2 (by omega)) v h

theorem bumpAbove {a : Nat} (ha : 0x3D0000 ≤ a) (i n : Nat) (h : DispatchKept p q) : DispatchKept p (q.bump (a + i) n) :=
  setRegAbove ha i _ h

theorem raise (code unit arg : Nat) (h : DispatchKept p q) : DispatchKept p (q.raise code unit arg) := same h rfl

theorem pushFlit (f : MeshFlit) (h : DispatchKept p q) : DispatchKept p (q.pushFlit f) :=
  h.trans ⟨rfl, rfl, List.prefix_append _ _, fun _ _ => rfl⟩

theorem refuse (pt : Path) (k abort : Nat) (h : DispatchKept p q) : DispatchKept p (q.refuse pt k abort) := by
  have hq : DispatchKept p ((q.setReg O.dictLastError (pt.num * 2 ^ 30 + k)).setReg O.dictLastAbort abort) :=
    setReg (by decide) _ (setReg (by decide) _ h)
  cases pt <;> exact same hq rfl

/-! ### Words of memory and of tile SRAM (R245 to R253) -/

theorem setWord (a : Nat) (w : PWord) (h : DispatchKept p q) : DispatchKept p (q.setWord a w) := by
  unfold Pkg.setWord Pkg.setCheck
  dsimp only
  split <;> exact same h rfl

theorem addCandidate (x : Place) (h : DispatchKept p q) : DispatchKept p (q.addCandidate x) :=
  ite h (ite (bumpAbove (by decide) _ _ h) (raise _ _ _ (setRegAbove (by decide) _ _ (same h rfl))))

theorem bump_corrKey (x : Place) (n : Nat) (h : DispatchKept p q) : DispatchKept p (q.bump (corrKey x) n) := by
  unfold corrKey
  split
  · exact bumpAbove (by decide) _ _ h
  · exact bumpAbove (by decide) _ _ h

theorem bump_uncorrKey (x : Place) (n : Nat) (h : DispatchKept p q) : DispatchKept p (q.bump (uncorrKey x) n) := by
  unfold uncorrKey
  split
  · exact bumpAbove (by decide) _ _ h
  · exact bumpAbove (by decide) _ _ h

theorem countCorrection (x : Place) (sym : Nat) (h : DispatchKept p q) : DispatchKept p (q.countCorrection x sym) := by
  unfold Pkg.countCorrection
  extract_lets counted _ seen n _ _ _ _ sideband m _ row
  have hcounted : DispatchKept p counted := bump_corrKey x 1 h
  have hseen : DispatchKept p seen := ite hcounted (raise _ _ _ (same hcounted rfl))
  have hbumped := bumpAbove (a := O.sidebandCorrected) (by decide) x.unit 1 hseen
  have hsideband : DispatchKept p sideband := ite hseen (ite (raise _ _ _ (same hbumped rfl)) (same hbumped rfl))
  have hrow : DispatchKept p row := same hsideband rfl
  exact ite (addCandidate x hrow) hrow

theorem countUncorrectable (a : Nat) (w : PWord) (h : DispatchKept p q) : DispatchKept p (q.countUncorrectable a w) :=
  addCandidate _ (raise _ _ _ (setReg (by decide) _ (setReg (by decide) _ (bump_uncorrKey _ 1 h))))

theorem memCheck (a : Nat) (h : DispatchKept p q) : DispatchKept p (q.memCheck a).2 := by
  unfold Pkg.memCheck
  dsimp only
  split
  · exact h
  · exact bumpAbove (by decide) _ _ h
  · exact countCorrection _ _ h
  · exact countUncorrectable _ _ h

theorem memRead (a : Nat) (h : DispatchKept p q) : DispatchKept p (q.memRead a).2 := by
  have hr := memCheck a h
  unfold Pkg.memRead
  dsimp only
  split
  · exact ite hr (same hr rfl)
  · exact hr

theorem memWrite (a : Nat) (v : Option W128) (h : DispatchKept p q) : DispatchKept p (q.memWrite a v) := by
  cases v with
  | some d => exact setWord _ _ h
  | none => exact bumpAbove (by decide) _ _ (setWord _ _ h)

theorem memMerge (a : Nat) (mask : List Bool) (v : Option W128) (h : DispatchKept p q) : DispatchKept p (q.memMerge a mask v) := by
  refine ite (memWrite a v h) (ite ?_ h)
  cases v with
  | none => exact memWrite a none h
  | some n =>
    have hr := memCheck a h
    dsimp only
    split
    · rename_i hread
      rw [hread] at hr
      exact memWrite _ _ hr
    · rename_i hread
      rw [hread] at hr
      exact raise _ _ _ (memWrite _ _ hr)

theorem sramMerge (a : Nat) (mask : List Bool) (v : Option W128) (h : DispatchKept p q) : DispatchKept p (q.sramMerge a mask v) := by
  refine ite (setWord _ _ h) (ite ?_ h)
  split
  · exact setWord _ _ h
  · exact setWord _ _ h

theorem refusePoison (a : Nat) (h : DispatchKept p q) : DispatchKept p (q.refusePoison a) :=
  refuse .core ((a - controlBase) / 0x400 * 256 + (a - controlBase) % 0x400 / 4) abRange h

theorem anyRead (a : Nat) (h : DispatchKept p q) : DispatchKept p (q.anyRead a).2 := by
  unfold Pkg.anyRead
  split
  · exact memRead a h
  · exact memRead a h
  · exact h
  · exact h
  · exact h
  · exact raise _ _ _ h

theorem anyMerge (a : Nat) (mask : List Bool) (v : Option W128) (h : DispatchKept p q) : DispatchKept p (q.anyMerge a mask v) := by
  unfold Pkg.anyMerge
  split
  · exact memMerge a mask v h
  · exact memMerge a mask v h
  · exact sramMerge a mask v h
  · exact raise _ _ _ h
  · exact ite (refusePoison a h) h
  · exact raise _ _ _ h

/-! ### Links (R299 to R303) and live protection (R339 to R341) -/

theorem setPartner (id : Nat) (x : Partner) (h : DispatchKept p q) : DispatchKept p (q.setPartner id x) :=
  ite (same h rfl) (setReg (by decide) _ (same h rfl))

theorem queueFlit (port : Nat) (f : LinkFlit) (h : DispatchKept p q) : DispatchKept p (q.queueFlit port f) := same h rfl

theorem originate (cls dst target : Nat) (payload : List Byte) (poison : List Bool) (win : Nat) (h : DispatchKept p q) :
    DispatchKept p (q.originate cls dst target payload poison win) := by
  unfold Pkg.originate
  split
  · exact raise _ _ _ h
  · exact queueFlit _ _ (setPartner _ _ h)

theorem sendLine (pos region kind offset : Nat) (ws : List (Option W128)) (h : DispatchKept p q) :
    DispatchKept p (q.sendLine pos region kind offset ws) := by
  unfold Pkg.sendLine
  split
  · exact h
  · exact originate _ _ _ _ _ _ (originate _ _ _ _ _ _ h)

theorem track (line : Nat) (old : List PWord) (h : DispatchKept p q) : DispatchKept p (q.track line old) := by
  unfold Pkg.track
  split
  · exact h
  · dsimp only
    split
    · exact ite (sendLine _ _ _ _ _ h) (sendLine _ _ _ _ _ h)
    · exact h

theorem writeLine (line : Nat) (mask : List Bool) (data : List (Option W128)) (h : DispatchKept p q) :
    DispatchKept p (q.writeLine line mask data) :=
  track _ _ (foldl (fun _ _ hq => memMerge _ _ _ hq) _ h)

/-! ### The directory and its requesters (R263 to R265, R268) -/

theorem setDir (key : Nat) (w : PWord) (h : DispatchKept p q) : DispatchKept p (q.setDir key w) := same h rfl

theorem setL2 (c line : Nat) (x : Option L2Line) (h : DispatchKept p q) : DispatchKept p (q.setL2 c line x) := by
  cases x <;> exact same h rfl

theorem setEvb (c line : Nat) (x : Option L2Line) (h : DispatchKept p q) : DispatchKept p (q.setEvb c line x) := same h rfl

theorem setEntry (line st sharers : Nat) (h : DispatchKept p q) : DispatchKept p (q.setEntry line st sharers) := by
  unfold Pkg.setEntry
  dsimp only
  split
  · exact h
  · exact setDir _ _ h

theorem setBusy (b : Busy) (h : DispatchKept p q) : DispatchKept p (q.setBusy b) := same h rfl

theorem freeLine (line : Nat) (h : DispatchKept p q) : DispatchKept p (q.freeLine line) := same h rfl

theorem enqueue (o : MemOp) (h : DispatchKept p q) : DispatchKept p (q.enqueue o) := same h rfl

theorem markFilled (tag : Tag) (line : Nat) (h : DispatchKept p q) : DispatchKept p (q.markFilled tag line) := by
  unfold Pkg.markFilled
  split
  · exact ite (setBusy _ h) h
  · exact h

theorem tileReply (tag : Tag) (line : Nat) (data : List (Option W128)) (h : DispatchKept p q) :
    DispatchKept p (q.tileReply tag line data) := by
  cases tag with
  | xget t off win id => exact ite (pushFlit _ h) (ite (pushFlit _ (same h rfl)) (same h rfl))
  | xput t win id => exact ite (pushFlit _ h) (ite (pushFlit _ (same h rfl)) (same h rfl))
  | _ => exact h

theorem deliver (tag : Tag) (line : Nat) (data : Option (List (Option W128))) (h : DispatchKept p q) :
    DispatchKept p (q.deliver tag line data) := by
  cases tag with
  | core c => exact same h rfl
  | _ => exact markFilled _ _ (tileReply _ _ _ h)

/-! ### The set queues (R245, R249, R251) -/

theorem readLine (line : Nat) (mask : List Bool) (h : DispatchKept p q) : DispatchKept p (q.readLine line mask).2 := by
  refine foldl_of (pkg := Prod.snd) (fun acc w hacc => ?_) _ h
  split
  · exact memRead _ hacc
  · exact hacc

theorem serveOp (o : MemOp) (h : DispatchKept p q) : DispatchKept p (q.serveOp o) := by
  cases o with
  | read line mask tag => exact deliver _ _ _ (readLine _ _ h)
  | write line mask data => exact writeLine _ _ _ h
  | correct word w => exact setWord _ _ h

theorem serveAt (i : Nat) (h : DispatchKept p q) : DispatchKept p (q.serveAt i) := by
  unfold Pkg.serveAt
  split
  · exact h
  · exact serveOp _ (same h rfl)

theorem drainSet (n set : Nat) (h : DispatchKept p q) : DispatchKept p (Pkg.drainSet n set q) := by
  induction n generalizing q with
  | zero => exact h
  | succ n ih =>
    unfold Pkg.drainSet
    split
    · exact h
    · exact ih (serveAt _ h)

theorem drainLine (line : Nat) (h : DispatchKept p q) : DispatchKept p (q.drainLine line) := drainSet _ _ h

theorem poisonMem (line : Nat) (h : DispatchKept p q) : DispatchKept p (q.poisonMem line) := writeLine _ _ _ (drainLine _ h)

theorem dirFail (key : Nat) (h : DispatchKept p q) : DispatchKept p (q.dirFail key) :=
  raise _ _ _ (bumpAbove (by decide) _ _ (setDir _ _ (poisonMem _ (foldl (fun _ _ hq => setL2 _ _ _ hq) _ h))))

theorem dirCheck (set : Nat) (h : DispatchKept p q) : DispatchKept p (q.dirCheck set) := by
  refine foldl (fun r w hr => ?_) _ h
  dsimp only
  split
  · exact dirFail _ hr
  · split
    · exact same (bumpAbove (a := O.dirCorrected) (by decide) (set / 65536) 1 (setDir _ _ hr)) rfl
    · exact hr

/-! ### Snoops and the cores (R260 to R262, R272) -/

theorem l2Check (c line : Nat) (h : DispatchKept p q) : DispatchKept p (q.l2Check c line) := by
  refine foldl (fun r w hr => ?_) _ h
  split
  · exact hr
  · split
    · exact hr
    · exact hr
    · exact bumpAbove (by decide) _ _ (setL2 _ _ _ hr)
    · exact raise _ _ _ (bumpAbove (by decide) _ _ (setL2 _ _ _ hr))

theorem snoopCore (c line : Nat) (k : SnoopKind) (h : DispatchKept p q) : DispatchKept p (snoopCore q c line k).1 := by
  unfold Sys2Proof.Machine.snoopCore
  extract_lets checked
  have hchecked : DispatchKept p checked := ite h (l2Check c line h)
  split
  · split <;> dsimp only
    · exact setL2 _ _ _ hchecked
    · exact setL2 _ _ _ hchecked
    · exact setL2 _ _ _ hchecked
    · exact setL2 _ _ _ hchecked
    · exact hchecked
  · split
    · exact hchecked
    · cases k <;> exact hchecked

theorem coreAnswer (c line : Nat) (k : SnoopKind) (h : DispatchKept p q) : DispatchKept p (q.coreAnswer c line k) := by
  unfold Pkg.coreAnswer
  split
  · exact h
  · split
    · exact h
    · exact same (snoopCore c line k h) rfl

theorem request (r : Req) (h : DispatchKept p q) : DispatchKept p (q.request r) := same h rfl

theorem storePiece (c line a : Nat) (l : List Byte) (h : DispatchKept p q) : DispatchKept p (q.storePiece c line a l) := by
  have hchecked := l2Check c line h
  unfold Pkg.storePiece
  dsimp only
  split
  · exact setL2 _ _ _ hchecked
  · exact hchecked

theorem askLine (c line : Nat) (kind : ReqKind) (h : DispatchKept p q) : DispatchKept p (q.askLine c line kind) :=
  ite h (request _ h)

theorem trapCore (c : Nat) (x : CoreTrap) (h : DispatchKept p q) : DispatchKept p (q.trapCore c x) := same h rfl

theorem endStore (c : Nat) (h : DispatchKept p q) : DispatchKept p (q.endStore c) := same h rfl

theorem emit (o : Out) (h : DispatchKept p q) : DispatchKept p (q.emit o) := same h rfl

theorem runAmo (c a : Nat) (l : List Byte) (k : CoreStoreKind) (h : DispatchKept p q) : DispatchKept p (q.runAmo c a l k) := by
  have hchecked := l2Check c (a / 64) h
  unfold Pkg.runAmo
  dsimp only
  split
  · exact ite (emit _ (endStore _ (storePiece _ _ _ _ (same hchecked rfl)))) (emit _ (endStore _ (same hchecked rfl)))
  · split
    · exact endStore _ (trapCore _ _ hchecked)
    · exact emit _ (endStore _ (storePiece _ _ _ _ hchecked))

theorem runStore (n c a : Nat) (l : List Byte) (kind : CoreStoreKind) (h : DispatchKept p q) :
    DispatchKept p (Pkg.runStore n c a l kind q) := by
  induction n generalizing q a l with
  | zero => exact h
  | succ n ih =>
    unfold Pkg.runStore
    refine ite (endStore _ h) ?_
    dsimp only
    split
    · exact askLine _ _ _ (same h rfl)
    · exact ite (ih _ _ (storePiece _ _ _ _ h)) (runAmo _ _ _ _ h)
    · exact askLine _ _ _ (same h rfl)

theorem runLoad (c a n : Nat) (lr : Bool) (h : DispatchKept p q) : DispatchKept p (q.runLoad c a n lr) := by
  unfold Pkg.runLoad
  extract_lets lines
  split
  · exact askLine _ _ _ (same h rfl)
  · have hchecked := foldl (f := fun r l => r.l2Check c l) (fun _ _ hr => l2Check _ _ hr) lines h
    exact ite (trapCore _ _ hchecked) (emit _ (same hchecked rfl))

theorem resumeCore (c line : Nat) (h : DispatchKept p q) : DispatchKept p (q.resumeCore c line) := by
  unfold Pkg.resumeCore
  extract_lets stored
  have hstored : DispatchKept p stored := by
    dsimp only [stored]
    split
    · exact ite (runStore _ _ _ _ _ h) h
    · exact h
  split
  · exact ite (runLoad _ _ _ _ hstored) hstored
  · exact hstored

theorem freeEvb (c line : Nat) (h : DispatchKept p q) : DispatchKept p (q.freeEvb c line) := resumeCore c line (same h rfl)

theorem replaceLine (c line : Nat) (h : DispatchKept p q) : DispatchKept p (q.replaceLine c line) := by
  have hchecked := l2Check c line h
  unfold Pkg.replaceLine
  dsimp only
  split
  · exact hchecked
  · exact request _ (setEvb _ _ _ (setL2 _ _ _ hchecked))

theorem makeRoom (c line : Nat) (h : DispatchKept p q) : DispatchKept p (q.makeRoom c line) := by
  unfold Pkg.makeRoom
  extract_lets held free
  refine ite h (replaceLine _ _ ?_)
  exact same h rfl

theorem fillCore (c line : Nat) (h : DispatchKept p q) : DispatchKept p (q.fillCore c line) := by
  unfold Pkg.fillCore
  split
  · exact h
  · split
    · exact h
    · exact resumeCore _ _ (markFilled _ _ (setL2 _ _ _ (makeRoom _ _ (same h rfl))))

/-! ### The home (R268 to R271) -/

theorem queueWrite (r : Req) (mask : List Bool) (data : List PWord) (h : DispatchKept p q) : DispatchKept p (q.queueWrite r mask data) :=
  enqueue _ h

theorem writeBack (line : Nat) (d : List PWord) (h : DispatchKept p q) : DispatchKept p (q.writeBack line d) :=
  ite (raise _ _ _ h) (enqueue _ h)

theorem homeFinish (b : Busy) (h : DispatchKept p q) : DispatchKept p (q.homeFinish b) := by
  have hb := setBusy b h
  unfold Pkg.homeFinish
  dsimp only
  split
  · split
    · exact deliver _ _ _ (ite (writeBack _ _ hb) hb)
    · exact enqueue _ hb
  · exact enqueue _ hb
  · exact deliver _ _ _ hb
  · split
    · exact deliver _ _ _ hb
    · exact enqueue _ hb
  · exact ite (freeLine _ hb) (deliver _ _ _ (queueWrite _ _ _ hb))
  · refine ite (freeLine _ ?_) (deliver _ _ _ (queueWrite _ _ _ hb))
    split
    · exact ite (writeBack _ _ hb) hb
    · exact hb
  · refine deliver _ _ _ ?_
    split
    · exact ite (writeBack _ _ hb) (queueWrite _ _ _ hb)
    · exact queueWrite _ _ _ hb
  · split
    · exact deliver _ _ _ hb
    · exact enqueue _ hb

theorem homeAnswer (c line : Nat) (h : DispatchKept p q) : DispatchKept p (q.homeAnswer c line) := by
  unfold Pkg.homeAnswer
  split
  · exact h
  · split
    · exact h
    · extract_lets _ answered
      have hanswered : DispatchKept p answered := same h rfl
      split
      · exact raise _ _ _ hanswered
      · exact ite (raise _ _ _ hanswered) (ite (homeFinish _ hanswered) (setBusy _ hanswered))

theorem homeServe (r : Req) (e : DirEnt) (row : Nat) (h : DispatchKept p q) : DispatchKept p (q.homeServe r e row) := by
  unfold Pkg.homeServe
  extract_lets next entered
  have hentered : DispatchKept p entered := ite h (setEntry _ _ _ h)
  split
  · exact writeBack _ _ (freeEvb _ _ hentered)
  · exact freeEvb _ _ hentered
  · exact freeEvb _ _ hentered
  · exact freeEvb _ _ hentered
  · exact ite hentered (deliver _ _ _ (queueWrite _ _ _ hentered))
  · rename_i snoops _ snooped b noted _ _ _ _ _ _
    have hnoted : DispatchKept p noted := ite (raise _ _ _ (same hentered rfl)) (same hentered rfl)
    have hb := setBusy b hnoted
    refine ite ?_ hb
    split
    · exact ite (deliver _ _ _ hb) (enqueue _ hb)
    · exact enqueue _ hb
    · exact enqueue _ hb
    · exact homeFinish _ hnoted
    · exact homeFinish _ hnoted
    · exact homeFinish _ hnoted
    · exact homeFinish _ hnoted
    · exact enqueue _ hb

theorem unqueue (r : Req) (h : DispatchKept p q) : DispatchKept p (q.unqueue r) := same h rfl

theorem askRecall (line : Nat) (h : DispatchKept p q) : DispatchKept p (q.askRecall line) :=
  ite h (by
    dsimp only
    refine bumpAbove (by decide) _ _ ?_
    exact same h rfl)

theorem arbitrate (line : Nat) (k : ReqKind) (victim : Bool) (h : DispatchKept p q) : DispatchKept p (q.arbitrate line k victim) := by
  unfold Pkg.arbitrate
  refine ite h ?_
  split
  · exact h
  · rename_i r step2 n _
    refine ite h ?_
    extract_lets checked e row slice taken pointed counted
    have hchecked : DispatchKept p checked := dirCheck _ h
    have htaken : DispatchKept p taken := unqueue _ hchecked
    have hpointed : DispatchKept p pointed := ite (setRegAbove (by decide) _ _ htaken) htaken
    have hcounted : DispatchKept p counted := ite (bumpAbove (by decide) _ _ hpointed) hpointed
    exact ite hchecked (ite (askRecall _ hchecked) (homeServe _ _ _ hcounted))

theorem ackLine (r line : Nat) (h : DispatchKept p q) : DispatchKept p (q.ackLine r line) := by
  unfold Pkg.ackLine
  split
  · exact ite (freeLine _ h) h
  · exact h

theorem finishLine (n line : Nat) (h : DispatchKept p q) : DispatchKept p (Pkg.finishLine n line q) := by
  induction n generalizing q with
  | zero => exact h
  | succ n ih =>
    unfold Pkg.finishLine
    split
    · exact h
    · extract_lets answered drained filled
      have hanswered : DispatchKept p answered :=
        foldl (fun _ _ hr => ite (homeAnswer _ _ (ite hr (coreAnswer _ _ _ hr))) hr) _ h
      have hdrained : DispatchKept p drained := drainLine _ hanswered
      have hfilled : DispatchKept p filled := by
        dsimp only [filled]
        split
        · exact fillCore _ _ hdrained
        · exact hdrained
      exact ih (ackLine _ _ hfilled)

/-! ### A sweep (R280) -/

theorem sweepEntry (mask key : Nat) (h : DispatchKept p q) : DispatchKept p (q.sweepEntry mask key) := by
  unfold Pkg.sweepEntry
  dsimp only
  split
  · exact dirFail _ h
  · exact ite h (ite (raise _ _ _ (bumpAbove (by decide) _ _ (setDir _ _ (poisonMem _ h)))) (setDir _ _ h))

theorem moveWay (slice : Nat) (h : DispatchKept p q) : DispatchKept p (q.moveWay slice) := ite h (raise _ _ _ (same h rfl))

theorem endSweep (h : DispatchKept p q) : DispatchKept p q.endSweep := by
  unfold Pkg.endSweep
  extract_lets mask swept moved
  have hswept : DispatchKept p swept := foldl (fun _ _ hr => sweepEntry _ _ hr) _ h
  have hmoved : DispatchKept p moved := foldl (fun _ _ hr => moveWay _ hr) _ hswept
  clear_value moved
  exact ite h (setReg (by decide) _ (same hmoved rfl))

/-! ### Reads and writes by the agents (R266 to R271) -/

theorem runRecall (line : Nat) (h : DispatchKept p q) : DispatchKept p (q.runRecall line) := by
  unfold Pkg.runRecall
  dsimp only
  split
  · exact finishLine _ _ (arbitrate _ _ _ (finishLine _ _ h))
  · split
    · exact finishLine _ _ h
    · exact h

theorem serveWaiting (n line : Nat) (h : DispatchKept p q) : DispatchKept p (Pkg.serveWaiting n line q) := by
  induction n generalizing q with
  | zero => exact h
  | succ n ih =>
    have hfinished := finishLine 4 line h
    unfold Pkg.serveWaiting
    dsimp only
    split
    · exact hfinished
    · rename_i r _ _
      have harbitrated := arbitrate line r.kind (decide (r.tag = .victim)) hfinished
      exact ih (ite (runRecall _ harbitrated) harbitrated)

theorem agentTurn (r line : Nat) (h : DispatchKept p q) : DispatchKept p (q.agentTurn r line) := by
  have hchecked := dirCheck (dirSet line) (endSweep h)
  exact ite hchecked (setRegAbove (by decide) _ _ (dirCheck _ (serveWaiting _ _ hchecked)))

theorem cohRead (r line : Nat) (mask : List Bool) (h : DispatchKept p q) : DispatchKept p (q.cohRead r line mask).2 := by
  have hturn := agentTurn r line h
  unfold Pkg.cohRead
  dsimp only
  split
  · rename_i held
    split at held
    · rename_i o _
      have ho := snoopCore o line .snpRd hturn
      split at held
      · simp only [Option.some.injEq] at held
        rw [held] at ho
        exact ho
      · cases held
    · cases held
  · exact readLine _ _ (drainLine _ hturn)

theorem cohWrite (r line : Nat) (mask : List Bool) (data : List (Option W128)) (h : DispatchKept p q) :
    DispatchKept p (q.cohWrite r line mask data) := by
  refine ite (raise _ _ _ h) ?_
  extract_lets turned e snooped freed drained
  have hturned : DispatchKept p turned := agentTurn _ _ h
  clear_value turned
  have hsnooped : DispatchKept p snooped.1 := by
    refine foldl_of (pkg := Prod.fst) (fun acc c hacc => ?_) _ hturned
    exact snoopCore c line _ hacc
  clear_value snooped
  have hfreed : DispatchKept p freed := ite hsnooped (setEntry _ _ _ hsnooped)
  clear_value freed
  have hdrained : DispatchKept p drained := drainLine _ hfreed
  clear_value drained
  split
  · exact ite (raise _ _ _ hdrained) (writeLine _ _ _ hdrained)
  · exact writeLine _ _ _ hdrained

theorem agentRead (r a n : Nat) (h : DispatchKept p q) : DispatchKept p (q.agentRead r a n).2 := by
  refine foldl_of (pkg := Prod.snd) (fun acc i hacc => ?_) _ h
  dsimp only
  split
  · exact cohRead _ _ _ hacc
  · exact anyRead _ hacc

theorem agentBytes (r a n : Nat) (h : DispatchKept p q) : DispatchKept p (q.agentBytes r a n).2 := agentRead r a n h

theorem agentWrite (r a : Nat) (l : List Byte) (h : DispatchKept p q) : DispatchKept p (q.agentWrite r a l) :=
  foldl (fun _ _ hr => ite (cohWrite _ _ _ _ hr) (foldl (fun _ _ hw => anyMerge _ _ _ hw) _ hr)) _ h

theorem agentWriteWords (r a : Nat) (l : List (Option W128)) (h : DispatchKept p q) : DispatchKept p (q.agentWriteWords r a l) :=
  foldl (fun _ _ hr => ite (cohWrite _ _ _ _ hr) (foldl (fun _ _ hw => ite (anyMerge _ _ _ hw) hw) _ hr)) _ h

end

end DispatchKept

end Sys2Proof.Machine

/-! ## A fill keeps the quotas (R216) -/

namespace Sys2Proof.Machine

theorem setAt_eq_set {α : Type} (l : List α) (i : Nat) (v : α) : setAt l i v = l.set i v := by
  induction l generalizing i with
  | nil => cases i <;> rfl
  | cons x l ih =>
    cases i with
    | zero => rfl
    | succ i => exact congrArg (x :: ·) (ih i)

/-- An entry of a list of counts raised by one raises their sum by one. -/
theorem sum_set_succ (l : List Nat) (i : Nat) (h : i < l.length) : (l.set i (l.getD i 0 + 1)).sum = l.sum + 1 := by
  induction l generalizing i with
  | nil => simp at h
  | cons x l ih =>
    cases i with
    | zero =>
      simp only [List.set_cons_zero, List.getD_cons_zero, List.sum_cons]
      omega
    | succ i =>
      simp only [List.set_cons_succ, List.getD_cons_succ, List.sum_cons, ih i (by simpa using h)]
      omega

/-- Each expert has at most its quota, and the tokens assigned are those the experts hold. -/
structure FillOut.WithinQuotas (quotas : List Nat) (o : FillOut) : Prop where
  length : o.used.length = quotas.length
  bound : ∀ e, o.used.getD e 0 ≤ quotas.getD e 0
  sum : o.used.sum = o.assigned

/-- An expert below its quota takes one more token. -/
theorem FillOut.WithinQuotas.assign {quotas : List Nat} {o o' : FillOut} {e : Nat} (h : o.WithinQuotas quotas)
    (hroom : o.used.getD e 0 < quotas.getD e 0) (hused : o'.used = o.used.set e (o.used.getD e 0 + 1))
    (hassigned : o'.assigned = o.assigned + 1) : o'.WithinQuotas quotas := by
  have he : e < o.used.length := by
    by_contra hout
    rw [List.getD_eq_default quotas 0 (h.length ▸ Nat.not_lt.mp hout)] at hroom
    exact Nat.not_lt_zero _ hroom
  refine ⟨by rw [hused, List.length_set, h.length], fun e' => ?_, by rw [hused, hassigned, sum_set_succ _ _ he, h.sum]⟩
  by_cases hee : e = e'
  · subst hee
    rw [hused, List.getD_eq_getElem _ _ (by simpa using he), List.getElem_set_self]
    exact hroom
  · have hold := h.bound e'
    rwa [hused, List.getD_eq_getElem?_getD, List.getElem?_set_ne hee, ← List.getD_eq_getElem?_getD]

/-- The candidates of one token, whatever they are, keep the quotas. -/
theorem fillToken_withinQuotas (t : DispTable) (quotas : List Nat) (r : RouteRec) (l : List Nat) (a : Nat) (o : FillOut)
    (h : o.WithinQuotas quotas) : (fillToken t quotas r l a o).1.WithinQuotas quotas := by
  induction l generalizing a o with
  | nil => exact h
  | cons i l ih =>
    unfold fillToken
    dsimp only
    split
    · exact h
    · split
      · rename_i hroom
        exact ih _ _ (h.assign hroom (setAt_eq_set _ _ _) rfl)
      · exact ih _ _ ⟨h.length, h.bound, h.sum⟩

theorem fillRun_withinQuotas (t : DispTable) (quotas : List Nat) (recs : List RouteRec) (h : quotas.length = t.nExperts) :
    (fillRun t quotas recs).WithinQuotas quotas := by
  unfold fillRun
  refine List.foldlRecOn recs _ ⟨by simp [h], fun e => ?_, by simp⟩ fun o ho r _ => ?_
  · rw [List.getD_eq_getElem?_getD, List.getElem?_getD_replicate_default_eq]
    exact Nat.zero_le _
  · have ht := fillToken_withinQuotas t quotas r (List.range r.nCand) 0 o ho
    dsimp only
    split
    · exact ⟨ht.length, ht.bound, ht.sum⟩
    · exact ⟨ht.length, ht.bound, ht.sum⟩

/-! ## Die ordinals (R212) -/

theorem ordinal_of_tile (ly lx : Nat) (hly : ly < 8) (hlx : lx < 24) : ly % 4 * 12 + lx % 12 ≤ 47 ∧
    tileDie (ly * 24 + lx) = ly / 4 * 2 + lx / 12 ∧ ordinalTile (tileDie (ly * 24 + lx)) (ly % 4 * 12 + lx % 12) = ly * 24 + lx := by
  have hdie : tileDie (ly * 24 + lx) = ly / 4 * 2 + lx / 12 := by
    unfold tileDie
    omega
  rw [hdie]
  unfold ordinalTile
  omega

theorem tile_of_ordinal (d o : Nat) (hd : d < 4) (ho : o < 48) : ordinalTile d o < 192 ∧ tileDie (ordinalTile d o) = d ∧
    ordinalTile d o / 24 % 4 * 12 + ordinalTile d o % 24 % 12 = o := by
  unfold tileDie ordinalTile
  omega

/-! ## A dispatch unit, read and written -/

@[simp] theorem unit_setUnit_self (p : Pkg) (d : Nat) (u : DispUnit) : (p.setUnit d u).unit d = u := SMap.at_put_self _ _ _ _

@[simp] theorem unit_raise (p : Pkg) (code unit arg d : Nat) : (p.raise code unit arg).unit d = p.unit d := rfl
@[simp] theorem unit_bump (p : Pkg) (k n d : Nat) : (p.bump k n).unit d = p.unit d := rfl
@[simp] theorem unit_pushFlit (p : Pkg) (f : MeshFlit) (d : Nat) : (p.pushFlit f).unit d = p.unit d := rfl
@[simp] theorem unit_xadvance (p : Pkg) (t x d : Nat) : (p.xadvance t x).unit d = p.unit d := rfl
@[simp] theorem reg_xadvance (p : Pkg) (t x k : Nat) : (p.xadvance t x).reg k = p.reg k := rfl
@[simp] theorem byte_xadvance (p : Pkg) (t x a : Nat) : (p.xadvance t x).byte a = p.byte a := rfl

/-- R214: a flit that the unit takes joins those on their way to it. -/
theorem unit_sendToUnit (p : Pkg) (d table t off done : Nat) : (p.sendToUnit d table t off done).unit d =
    { p.unit d with inbound := (p.unit d).inbound ++ [(table, (p.localFlit t off 0).map packWord)] } := by
  unfold Pkg.sendToUnit
  dsimp only
  split <;> simp

theorem reg_sendToUnit (p : Pkg) (d table t off done k : Nat) : (p.sendToUnit d table t off done).reg k = p.reg k := by
  unfold Pkg.sendToUnit
  dsimp only
  split <;> rfl

theorem byte_sendToUnit (p : Pkg) (d table t off done a : Nat) : (p.sendToUnit d table t off done).byte a = p.byte a := by
  unfold Pkg.sendToUnit
  dsimp only
  split <;> rfl

/-- An event of a table leaves the unit but for the list of the events raised. -/
theorem unit_raiseTable (p : Pkg) (d code table : Nat) :
    ∃ l, (p.raiseTable d code table).unit d = { p.unit d with once := l } := by
  unfold Pkg.raiseTable
  dsimp only
  split
  · exact ⟨_, rfl⟩
  · exact ⟨_, by rw [unit_raise, unit_setUnit_self]⟩

theorem reg_raiseTable (p : Pkg) (d code table k : Nat) : (p.raiseTable d code table).reg k = p.reg k := by
  unfold Pkg.raiseTable
  dsimp only
  split <;> rfl

theorem byte_raiseTable (p : Pkg) (d code table a : Nat) : (p.raiseTable d code table).byte a = p.byte a := by
  unfold Pkg.raiseTable
  dsimp only
  split <;> rfl

/-- R221: a flit that the unit does not take waits with its tile, and its table's event is raised. -/
def Pkg.refuseFlit (p : Pkg) (d table t off done : Nat) : Pkg :=
  (p.setUnit d { p.unit d with refused := (p.unit d).refused ++ [(t, off, table, done)], held := true }).raiseTable d 0x3C03 table

theorem unit_refuseFlit (p : Pkg) (d table t off done : Nat) :
    ((p.refuseFlit d table t off done).unit d).refused = (p.unit d).refused ++ [(t, off, table, done)] ∧
      ((p.refuseFlit d table t off done).unit d).inbound = (p.unit d).inbound := by
  unfold Pkg.refuseFlit
  generalize hq : p.setUnit d { p.unit d with refused := (p.unit d).refused ++ [(t, off, table, done)], held := true } = q
  obtain ⟨l, hl⟩ := unit_raiseTable q d 0x3C03 table
  rw [hl, ← hq, unit_setUnit_self]
  exact ⟨rfl, rfl⟩

theorem reg_refuseFlit (p : Pkg) (d table t off done k : Nat) : (p.refuseFlit d table t off done).reg k = p.reg k :=
  reg_raiseTable ..

theorem byte_refuseFlit (p : Pkg) (d table t off done a : Nat) : (p.refuseFlit d table t off done).byte a = p.byte a :=
  byte_raiseTable ..

/-! ## Flits into the unit (R213, R214, R221) -/

/-- R42, R138: a move slot that issues within its limits runs, and its pointers advance. -/
theorem move_of_issues {s : State} {a : XSlot} {send bucket : Bool} (m : String) {lim : XDesc → Tile → Nat → Bool}
    (f : Pkg → XDesc → Tile → Nat → Pkg) (h : MoveIssues a send bucket s)
    (hlim : lim (xdesc (s.pkg.tile a.t.val).xd a.mdesc.val) (s.pkg.tile a.t.val) a.count.toNat = true) :
    s.move m a send bucket lim f = .next (s.settle ((f s.pkg (xdesc (s.pkg.tile a.t.val).xd a.mdesc.val) (s.pkg.tile a.t.val)
      a.count.toNat).xadvance a.t.val a.mdesc.val)) := by
  obtain ⟨hruns, hfree, hcount, hfull, hdesc, hfields, hsram⟩ := h
  have hn : a.count.toNat ≠ 0 := fun h0 => hcount (BitVec.eq_of_toNat_eq h0)
  have hmove : s.move m a send bucket lim f = s.on .data fun p =>
      if !(s.pkg.tile a.t.val).free ∨ a.count.toNat = 0 then p
      else (f p (xdesc (s.pkg.tile a.t.val).xd a.mdesc.val) (s.pkg.tile a.t.val) a.count.toNat).xadvance a.t.val a.mdesc.val := by
    rw [State.move, decide_eq_true hfull, hdesc, hfields, hsram, hlim]
    simp [slot_next]
  rw [hmove, on_runs _ _ _ hruns]
  simp [hfree, hn]

/-- The offset and the credit of the one flit of an XDSP. -/
abbrev xdspOffset (s : State) (a : XSlot) : Nat := ((s.pkg.tile a.t.val).xlocal a.mdesc.val).toNat
abbrev xdspDone (s : State) (a : XSlot) : Nat :=
  if (xdesc (s.pkg.tile a.t.val).xd a.mdesc.val).doneEn then (xdesc (s.pkg.tile a.t.val).xd a.mdesc.val).doneWin + 1 else 0
abbrev xdspTable (s : State) (a : XSlot) : Nat := (xdesc (s.pkg.tile a.t.val).xd a.mdesc.val).bucket

section
variable {s : State} {a : XSlot} {y : DieSection} (h : MoveIssues a false true s) (hsection : s.pkg.section (tileDie a.t.val) = some y)
  (hcount : a.count = 1) (htable : xdspTable s a < y.tables.length)
include h hsection hcount htable

/-- R221: a flit for which no other waits and whose table takes it goes to the unit. -/
theorem exec_xdsp_taken (htakes : takesFlit y (s.pkg.unit (tileDie a.t.val)) (xdspTable s a) = true)
    (hnone : (s.pkg.unit (tileDie a.t.val)).refused = []) :
    exec (.xdsp a) s = .next (s.settle ((s.pkg.sendToUnit (tileDie a.t.val) (xdspTable s a) a.t.val (xdspOffset s a)
      (xdspDone s a)).xadvance a.t.val a.mdesc.val)) := by
  show execXdsp a s = _
  rw [execXdsp, move_of_issues _ _ h (by simpa [hsection] using htable)]
  simp [hsection, hcount, htakes, hnone]

/-- R221: a flit that its table does not take waits among the refused. -/
theorem exec_xdsp_refused (htakes : takesFlit y (s.pkg.unit (tileDie a.t.val)) (xdspTable s a) = false) :
    exec (.xdsp a) s = .next (s.settle ((s.pkg.refuseFlit (tileDie a.t.val) (xdspTable s a) a.t.val (xdspOffset s a)
      (xdspDone s a)).xadvance a.t.val a.mdesc.val)) := by
  show execXdsp a s = _
  rw [execXdsp, move_of_issues _ _ h (by simpa [hsection] using htable)]
  simp [hsection, hcount, htakes, Pkg.refuseFlit]

end

/-- R214, R221: what a flit on its way to table n brings: a routing record to a FILL table, a trigger to a copy table. -/
theorem does_inboundFlit {s : State} {d : DieNo} {x : DieSection} {n : Nat} {t : DispTable} {f : List PWord} {u : DispUnit}
    (hruns : s.Runs .data) (hsection : s.pkg.section d.val = some x) (htable : x.tables[n]? = some t)
    (htake : takeInbound (s.pkg.unit d.val) n = some (f, u)) :
    (t.op = 1 → Does (.routingRecordFlit d n) s
      (s.pkg.setUnit d.val { u with records := u.records.put [] n (u.records.at [] n ++ [f]) })) ∧
    (t.op ≠ 1 → Does (.dispatchTrigger d n) s
      (s.pkg.setUnit d.val { u with triggers := u.triggers.put 0 n (u.triggers.at 0 n + 1) })) := by
  constructor
  · intro hop
    show execRoutingRecordFlit d n s = _
    rw [execRoutingRecordFlit, on_runs _ _ _ hruns]
    simp [hsection, htable, htake, hop]
  · intro hop
    show execDispatchTrigger d n s = _
    rw [execDispatchTrigger, on_runs _ _ _ hruns]
    simp [hsection, htable, htake, hop]

/-- R221: the first refused flit of a table goes to the unit once its table takes it. -/
theorem does_dispatchFlitAccept {s : State} {d : DieNo} {x : DieSection} {n k : Nat} {r : Nat × Nat × Nat × Nat} (hruns : s.Runs .data)
    (hsection : s.pkg.section d.val = some x)
    (hfirst : (s.pkg.unit d.val).refused.findIdx? (fun r => decide (r.2.2.1 = n)) = some k)
    (hget : (s.pkg.unit d.val).refused[k]? = some r) (htakes : takesFlit x (s.pkg.unit d.val) n = true) :
    Does (.dispatchFlitAccept d n) s ((s.pkg.setUnit d.val { s.pkg.unit d.val with
      refused := dropAt (s.pkg.unit d.val).refused k }).sendToUnit d.val n r.1 r.2.1 r.2.2.2) := by
  show execDispatchFlitAccept d n s = _
  rw [execDispatchFlitAccept, on_runs _ _ _ hruns]
  simp [hsection, hfirst, hget, htakes]

/-! ## The fill of the current table (R214 to R218) -/

namespace DispatchKept

variable {p q : Pkg}

theorem sendBytes (t off win : Nat) (b : List Byte) (poison : Bool) (h : DispatchKept p q) :
    DispatchKept p (q.sendBytes t off win b poison) :=
  foldl (fun _ _ hr => pushFlit _ hr) _ h

/-- R220: a row is read from tile SRAM and sent on flit by flit. -/
theorem copyRow (d : Nat) (t : DispTable) (r : Nat) (src : Option (Option Nat)) (h : DispatchKept p q) :
    DispatchKept p (q.copyRow d t r src).1 :=
  foldl_of (pkg := Prod.fst) (fun _ _ hacc => pushFlit _ hacc) _ h

theorem unit (h : DispatchKept p q) (d : Nat) : q.unit d = p.unit d := by rw [Pkg.unit, Pkg.unit, h.disp]

end DispatchKept

/-- R216: the end of a fill of table n: its ordinal is one more than f, its record region is empty, and the fill is counted. -/
def Pkg.endFill (p : Pkg) (d n f : Nat) (bad : Bool) (counts : List Nat) : Pkg :=
  (p.setUnit d { p.unit d with
    served := true, ordinal := (p.unit d).ordinal.put 0 n (f + 1), records := (p.unit d).records.put [] n []
    fills := (p.unit d).fills ++ [⟨n, f, bad, counts⟩] }).bump (O.fillsCompleted + d) 1

/-- R215: the map and the report of a fill whose records break a rule are poison. -/
def Pkg.fillPoison (p : Pkg) (d : Nat) (x : DieSection) (n : Nat) (t : DispTable) : Pkg :=
  (p.agentWriteWords (68 + d) (mapAddr x t ((p.unit d).ordinal.at 0 n)) (List.replicate (mapBytes x t / 16) none)).sendBytes
    (ordinalTile d t.reportTile) t.reportAddr t.win
    (reportBytes t [] ⟨List.replicate t.nExperts 0, [], [], [], 0, 0, 0, 0, 0⟩ ++ List.replicate 64 0) true

/-- R215: such a fill is counted and reported. -/
def Pkg.fillBroken (p : Pkg) (d : Nat) (x : DieSection) (n : Nat) (t : DispTable) : Pkg :=
  ((p.fillPoison d x n t).bump (O.recordErrors + d) 1).raise 0x3C01 d 0

/-- R217, R218: the map and the report of a fill that assigns `o`. -/
def Pkg.fillResults (p : Pkg) (d : Nat) (x : DieSection) (n : Nat) (t : DispTable) (o : FillOut) : Pkg :=
  (p.agentWrite (68 + d) (mapAddr x t ((p.unit d).ordinal.at 0 n)) (mapContent x t o)).sendBytes
    (ordinalTile d t.reportTile) t.reportAddr t.win (reportBytes t (fillCounts x t o) o) false

/-- R216: what such a fill drops is counted, and reported once per table and step. -/
def Pkg.fillBuilt (p : Pkg) (d : Nat) (x : DieSection) (n : Nat) (t : DispTable) (o : FillOut) : Pkg :=
  let q := ((p.fillResults d x n t o).bump (O.tokensDropped + d) o.dropped).bump (O.candidatesOverflowed + d) o.overflows
  if 0 < o.dropped then q.raiseTable d 0x3C02 n else q

/-- What the two kinds of fill come to before their end. -/
def Pkg.fillWork (p : Pkg) (d : Nat) (x : DieSection) (n : Nat) (t : DispTable) : Pkg :=
  match fillRecords t ((p.unit d).records.at [] n) with
  | none => p.fillBroken d x n t
  | some recs => p.fillBuilt d x n t (fillRun t (quotasOf x t) recs)

/-- A current fill whose records are all there runs. -/
theorem exec_fill {s : State} {d : DieNo} {x : DieSection} {n : Nat} {t : DispTable} (hruns : s.Runs .data)
    (hsection : s.pkg.section d.val = some x) (htable : currentTable x (s.pkg.unit d.val) = some (n, t)) (hop : t.op = 1)
    (hserved : (s.pkg.unit d.val).served = false) (hthere : fillFlits t ≤ ((s.pkg.unit d.val).records.at [] n).length) :
    ∃ bad counts, exec (.fill d) s =
      .next (s.settle ((s.pkg.fillWork d.val x n t).endFill d.val n ((s.pkg.unit d.val).ordinal.at 0 n) bad counts)) := by
  have hexec : exec (.fill d) s = execFill d s := rfl
  rw [hexec, execFill, on_runs _ _ _ hruns, Pkg.fillWork]
  simp only [hsection, htable]
  rw [if_neg (by simp [hop, hserved, hthere])]
  cases fillRecords t ((s.pkg.unit d.val).records.at [] n) with
  | none => exact ⟨_, _, rfl⟩
  | some recs => exact ⟨_, _, rfl⟩

theorem unit_endFill (p : Pkg) (d n f : Nat) (bad : Bool) (counts : List Nat) :
    ((p.endFill d n f bad counts).unit d).served = true ∧ ((p.endFill d n f bad counts).unit d).ordinal.at 0 n = f + 1 ∧
      ((p.endFill d n f bad counts).unit d).records.at [] n = [] := by
  simp [Pkg.endFill]

theorem fillsCompleted_endFill (p : Pkg) (d n f : Nat) (bad : Bool) (counts : List Nat) :
    (p.endFill d n f bad counts).reg (O.fillsCompleted + d) = min (p.reg (O.fillsCompleted + d) + 1) (2 ^ 32 - 1) :=
  bump_reg_self _ _ _

theorem recordErrors_endFill (p : Pkg) (d n f : Nat) (bad : Bool) (counts : List Nat) :
    (p.endFill d n f bad counts).reg (O.recordErrors + d) = p.reg (O.recordErrors + d) :=
  bump_reg_other _ _ _ _ (by simp)

/-- The four entries of an array of the dispatch units. -/
theorem dispatchObject_of_die {a : Nat} (hlow : 0x3C0000 ≤ a) (hhigh : a ≤ 0x3CFFFC) (d : DieNo) : DispatchObject (a + d.val) := by
  have hd := d.isLt
  exact ⟨by omega, by omega⟩

theorem fillPoison_kept (p : Pkg) (d : Nat) (x : DieSection) (n : Nat) (t : DispTable) : DispatchKept p (p.fillPoison d x n t) :=
  .sendBytes _ _ _ _ _ (.agentWriteWords _ _ _ (.refl p))

theorem fillResults_kept (p : Pkg) (d : Nat) (x : DieSection) (n : Nat) (t : DispTable) (o : FillOut) :
    DispatchKept p (p.fillResults d x n t o) :=
  .sendBytes _ _ _ _ _ (.agentWrite _ _ _ (.refl p))

theorem fillsCompleted_fillBroken (p : Pkg) (d : DieNo) (x : DieSection) (n : Nat) (t : DispTable) :
    (p.fillBroken d.val x n t).reg (O.fillsCompleted + d.val) = p.reg (O.fillsCompleted + d.val) := by
  rw [Pkg.fillBroken, reg_raise, bump_reg_other _ _ _ _ (by simp)]
  exact (fillPoison_kept p d.val x n t).reg _ (dispatchObject_of_die (by decide) (by decide) d)

theorem recordErrors_fillBroken (p : Pkg) (d : DieNo) (x : DieSection) (n : Nat) (t : DispTable) :
    (p.fillBroken d.val x n t).reg (O.recordErrors + d.val) = min (p.reg (O.recordErrors + d.val) + 1) (2 ^ 32 - 1) := by
  rw [Pkg.fillBroken, reg_raise, bump_reg_self,
    (fillPoison_kept p d.val x n t).reg _ (dispatchObject_of_die (by decide) (by decide) d)]

theorem fillsCompleted_fillBuilt (p : Pkg) (d : DieNo) (x : DieSection) (n : Nat) (t : DispTable) (o : FillOut) :
    (p.fillBuilt d.val x n t o).reg (O.fillsCompleted + d.val) = p.reg (O.fillsCompleted + d.val) := by
  rw [← (fillResults_kept p d.val x n t o).reg _ (dispatchObject_of_die (by decide) (by decide) d)]
  unfold Pkg.fillBuilt
  dsimp only
  split
  · rw [reg_raiseTable, bump_reg_other _ _ _ _ (by simp), bump_reg_other _ _ _ _ (by simp)]
  · rw [bump_reg_other _ _ _ _ (by simp), bump_reg_other _ _ _ _ (by simp)]

theorem fillsCompleted_fillWork (p : Pkg) (d : DieNo) (x : DieSection) (n : Nat) (t : DispTable) :
    (p.fillWork d.val x n t).reg (O.fillsCompleted + d.val) = p.reg (O.fillsCompleted + d.val) := by
  unfold Pkg.fillWork
  split
  · exact fillsCompleted_fillBroken p d x n t
  · exact fillsCompleted_fillBuilt p d x n t _

/-! ## Copies (R219, R220, R223) -/

/-- R221: the unit once a copy of table n has taken its triggers. -/
def DispUnit.startCopy (u : DispUnit) (n nTrig : Nat) : DispUnit :=
  { u with served := true, triggers := u.triggers.put 0 n (u.triggers.at 0 n - nTrig) }

/-- A current copy whose triggers are counted and whose fill is there takes its triggers; what follows reads the map and the rows, and
sends flits. -/
theorem copyTable_kept {p : Pkg} {d op : Nat} {x : DieSection} {n : Nat} {t f : DispTable} (hsection : p.section d = some x)
    (htable : currentTable x (p.unit d) = some (n, t)) (hfill : x.tables[t.fillTable]? = some f) (hop : t.op = op)
    (hserved : (p.unit d).served = false) (htrig : t.nTrig ≤ (p.unit d).triggers.at 0 n)
    (hdone : t.lag + 1 ≤ (p.unit d).ordinal.at 0 t.fillTable) :
    DispatchKept (p.setUnit d ((p.unit d).startCopy n t.nTrig)) (p.copyTable d op) := by
  unfold Pkg.copyTable
  simp only [hsection, htable, hfill]
  rw [if_neg (by simp [hop, hserved, htrig, Nat.lt_of_succ_le hdone])]
  generalize hrows : List.foldl _ _ _ = copied
  have hcopied : DispatchKept (p.setUnit d ((p.unit d).startCopy n t.nTrig)) copied.1 := by
    rw [← hrows]
    refine DispatchKept.foldl_of (pkg := Prod.fst) (fun acc r hacc => ?_) _ (.refl _)
    exact DispatchKept.copyRow d t r _ (DispatchKept.agentBytes _ _ _ hacc)
  exact .ite (.raise _ _ _ hcopied) hcopied

/-- R219, R223: the three copies by the op of their table. -/
theorem exec_copy {s : State} {d : DieNo} {t : DispTable} {c : Instr} (hruns : s.Runs .data)
    (hop : t.op = 2 ∧ c = .gather d ∨ t.op = 3 ∧ c = .scatter d ∨ t.op = 4 ∧ c = .collect d) :
    exec c s = .next (s.settle (s.pkg.copyTable d.val t.op)) := by
  rcases hop with ⟨hop, rfl⟩ | ⟨hop, rfl⟩ | ⟨hop, rfl⟩
  · rw [hop]
    exact on_runs s .data (fun p => p.copyTable d.val 2) hruns
  · rw [hop]
    exact on_runs s .data (fun p => p.copyTable d.val 3) hruns
  · rw [hop]
    exact on_runs s .data (fun p => p.copyTable d.val 4) hruns

/-! ## The sequence of activations (R221) -/

theorem does_dispatchTableAdvance {s : State} {d : DieNo} {x : DieSection} {e : Nat × Nat} (hruns : s.Runs .data)
    (hsection : s.pkg.section d.val = some x) (hserved : (s.pkg.unit d.val).served = true)
    (hentry : x.seq[(s.pkg.unit d.val).pos]? = some e) :
    Does (.dispatchTableAdvance d) s (s.pkg.setUnit d.val
      (if (s.pkg.unit d.val).rep + 1 < e.2 then { s.pkg.unit d.val with served := false, rep := (s.pkg.unit d.val).rep + 1 }
       else if (s.pkg.unit d.val).pos + 1 < x.seq.length then
         { s.pkg.unit d.val with served := false, rep := 0, pos := (s.pkg.unit d.val).pos + 1 }
       else { s.pkg.unit d.val with served := false, rep := 0, pos := 0, ordinal := [] })) := by
  show execDispatchTableAdvance d s = _
  rw [execDispatchTableAdvance, on_runs _ _ _ hruns]
  simp only [hsection, hserved, hentry, Bool.not_true, Bool.false_eq_true, if_false, apply_ite (s.pkg.setUnit d.val)]

/-! ## The obligation -/

/-- Settles O27 (R211 to R225): a fill gives no expert more than its quota since every assignment asks for room first; a flit's way and the
sequence are read off their commands; and a fill and a copy reach memory by the agents alone, who leave the dispatch units as they were. -/
theorem dispatchUnits : Obligations.DispatchUnits := by
  refine ⟨fun t quotas recs hquotas => ?_, ⟨ordinal_of_tile, tile_of_ordinal, fun s a y h hsection hcount htable => ⟨?_, ?_⟩,
    fun s d x n t f u hruns hsection htable htake => does_inboundFlit hruns hsection htable htake,
    fun s d x n k r hruns hsection hfirst hget htakes => does_dispatchFlitAccept hruns hsection hfirst hget htakes⟩,
    fun s d x n t hruns hsection htable hop hserved hthere => ?_, fun s d x n t f c hruns hsection htable hfill hserved htrig hdone hop => ?_,
    fun s d x e hruns hsection hserved hentry => does_dispatchTableAdvance hruns hsection hserved hentry⟩
  · obtain ⟨hlength, hbound, hsum⟩ := fillRun_withinQuotas t quotas recs hquotas
    exact ⟨hbound, hlength.trans hquotas, hsum⟩
  · intro htakes hnone
    refine ⟨_, exec_xdsp_taken h hsection hcount htable htakes hnone, ?_, fun b => ?_, fun k => ?_⟩
    · rw [settle_pkg, unit_xadvance, unit_sendToUnit]
    · rw [settle_pkg, byte_xadvance, byte_sendToUnit]
    · rw [settle_pkg, reg_xadvance, reg_sendToUnit]
  · intro htakes
    obtain ⟨hrefused, hinbound⟩ := unit_refuseFlit s.pkg (tileDie a.t.val) (xdspTable s a) a.t.val (xdspOffset s a) (xdspDone s a)
    refine ⟨_, _, exec_xdsp_refused h hsection hcount htable htakes, hrefused, rfl, hinbound, fun b => ?_, fun k => ?_⟩
    · rw [settle_pkg, byte_xadvance, byte_refuseFlit]
    · rw [settle_pkg, reg_xadvance, reg_refuseFlit]
  · obtain ⟨bad, counts, hexec⟩ := exec_fill hruns hsection htable hop hserved hthere
    obtain ⟨hdone, hordinal, hrecords⟩ := unit_endFill (s.pkg.fillWork d.val x n t) d.val n ((s.pkg.unit d.val).ordinal.at 0 n) bad counts
    refine ⟨_, hexec, hdone, hordinal, hrecords, ?_, fun hbroken => ?_⟩
    · rw [settle_pkg, fillsCompleted_endFill, fillsCompleted_fillWork]
    · have hwork : s.pkg.fillWork d.val x n t = s.pkg.fillBroken d.val x n t := by rw [Pkg.fillWork, hbroken]
      rw [hwork, settle_pkg, recordErrors_endFill]
      exact ⟨recordErrors_fillBroken _ _ _ _ _, hasEvent_raise ..⟩
  · have hkept := copyTable_kept hsection htable hfill rfl hserved htrig hdone
    refine ⟨_, exec_copy hruns hop, ?_⟩
    rw [settle_pkg, hkept.unit, hkept.tiles, unit_setUnit_self]
    exact ⟨rfl, SMap.at_put_self _ _ _ _, hkept.flits, rfl⟩

end Sys2Proof.Machine

/-! ## What the memory side leaves to the configuration sets

Reads by the agents (R266 to R280) count in objects of the memory side, the directory and the cores, which lie above index 0x3000. The
shadow copies and the objects of the configuration sets stay as they are. -/

namespace Sys2Proof.Machine

/-- The part of the dictionary that a swap is made from: the shadow copies, and the objects of the configuration sets (index 0x2640). -/
def Dict.cfgPart (d : Dict) : SMap Nat × (Fin 256 → Nat) := (d.shadow, fun i => d.act.at 0 (0x264000 + i))

theorem setReg_cfgPart (p : Pkg) {k : Nat} (hk : k / 256 ≠ 0x2640) (v : Nat) : (p.setReg k v).dict.cfgPart = p.dict.cfgPart :=
  congrArg (Prod.mk _) (funext fun i => SMap.at_put_other 0 _ _ _ _ (by omega))

/-- The objects of the units lie above index 0x3000, each with any number of entries. -/
@[simp] theorem setReg_above_cfgPart (p : Pkg) {a : Nat} (ha : 0x300000 ≤ a) (i v : Nat) :
    (p.setReg (a + i) v).dict.cfgPart = p.dict.cfgPart := setReg_cfgPart p (by omega) v

@[simp] theorem bump_above_cfgPart (p : Pkg) {a : Nat} (ha : 0x300000 ≤ a) (i n : Nat) :
    (p.bump (a + i) n).dict.cfgPart = p.dict.cfgPart := setReg_above_cfgPart p ha i _

@[simp] theorem ite_cfgPart (c : Prop) [Decidable c] (p q : Pkg) :
    (if c then p else q).dict.cfgPart = if c then p.dict.cfgPart else q.dict.cfgPart := apply_ite (fun p : Pkg => p.dict.cfgPart) c p q

/-- A fold keeps what each of its rounds keeps, on the package in its accumulator. -/
theorem foldl_keeps {α β γ : Type} (part : β → γ) {f : β → α → β} (hf : ∀ b a, part (f b a) = part b) (l : List α) (b : β) :
    part (l.foldl f b) = part b := by
  induction l generalizing b with
  | nil => rfl
  | cons a l ih => rw [List.foldl_cons, ih, hf]

theorem foldl_cfgPart {α : Type} {f : Pkg → α → Pkg} (hf : ∀ p a, (f p a).dict.cfgPart = p.dict.cfgPart) (l : List α) (p : Pkg) :
    (l.foldl f p).dict.cfgPart = p.dict.cfgPart := foldl_keeps (fun p : Pkg => p.dict.cfgPart) hf l p

theorem foldl_snd_cfgPart {α β : Type} {f : β × Pkg → α → β × Pkg} (hf : ∀ b a, (f b a).2.dict.cfgPart = b.2.dict.cfgPart)
    (l : List α) (b : β × Pkg) : (l.foldl f b).2.dict.cfgPart = b.2.dict.cfgPart := foldl_keeps (fun b => b.2.dict.cfgPart) hf l b

/-! ### Words of memory -/

@[simp] theorem setWord_dict (p : Pkg) (a : Nat) (w : PWord) : (p.setWord a w).dict = p.dict := by
  unfold Pkg.setWord Pkg.setCheck
  dsimp only
  split <;> rfl

@[simp] theorem addCandidate_cfgPart (p : Pkg) (x : Place) : (p.addCandidate x).dict.cfgPart = p.dict.cfgPart := by
  simp (disch := decide) [Pkg.addCandidate]

@[simp] theorem bump_corrKey_cfgPart (p : Pkg) (x : Place) (n : Nat) : (p.bump (corrKey x) n).dict.cfgPart = p.dict.cfgPart := by
  unfold corrKey
  split <;> simp (disch := decide)

@[simp] theorem bump_uncorrKey_cfgPart (p : Pkg) (x : Place) (n : Nat) : (p.bump (uncorrKey x) n).dict.cfgPart = p.dict.cfgPart := by
  unfold uncorrKey
  split <;> simp (disch := decide)

@[simp] theorem countCorrection_cfgPart (p : Pkg) (x : Place) (sym : Nat) : (p.countCorrection x sym).dict.cfgPart = p.dict.cfgPart := by
  simp (disch := decide) [Pkg.countCorrection]

@[simp] theorem countUncorrectable_cfgPart (p : Pkg) (a : Nat) (w : PWord) :
    (p.countUncorrectable a w).dict.cfgPart = p.dict.cfgPart := by
  simp (disch := decide) [Pkg.countUncorrectable, setReg_cfgPart]

@[simp] theorem memCheck_cfgPart (p : Pkg) (a : Nat) : (p.memCheck a).2.dict.cfgPart = p.dict.cfgPart := by
  unfold Pkg.memCheck
  dsimp only
  split <;> simp (disch := decide)

@[simp] theorem queueCorrection_dict (p : Pkg) (a : Nat) (w : PWord) : (p.queueCorrection a w).dict = p.dict := by
  simp [Pkg.queueCorrection, apply_ite Pkg.dict]

@[simp] theorem memRead_cfgPart (p : Pkg) (a : Nat) : (p.memRead a).2.dict.cfgPart = p.dict.cfgPart := by
  unfold Pkg.memRead
  dsimp only
  split <;> simp

@[simp] theorem memWrite_cfgPart (p : Pkg) (a : Nat) (v : Option W128) : (p.memWrite a v).dict.cfgPart = p.dict.cfgPart := by
  cases v <;> simp (disch := decide) [Pkg.memWrite]

@[simp] theorem memMerge_cfgPart (p : Pkg) (a : Nat) (mask : List Bool) (v : Option W128) :
    (p.memMerge a mask v).dict.cfgPart = p.dict.cfgPart := by
  have hread := memCheck_cfgPart p a
  unfold Pkg.memMerge
  cases v with
  | none => simp
  | some n =>
    dsimp only
    split
    · simp
    · split
      · split <;> simp_all
      · rfl

@[simp] theorem anyRead_cfgPart (p : Pkg) (a : Nat) : (p.anyRead a).2.dict.cfgPart = p.dict.cfgPart := by
  unfold Pkg.anyRead
  split <;> simp

/-! ### Links and live protection -/

@[simp] theorem setPartner_cfgPart (p : Pkg) (id : Nat) (x : Partner) : (p.setPartner id x).dict.cfgPart = p.dict.cfgPart := by
  simp (disch := decide) [Pkg.setPartner, Pkg.bump16, setReg_cfgPart]

@[simp] theorem queueFlit_dict (p : Pkg) (port : Nat) (f : LinkFlit) : (p.queueFlit port f).dict = p.dict := rfl

@[simp] theorem originate_cfgPart (p : Pkg) (cls dst target : Nat) (payload : List Byte) (poison : List Bool) (win : Nat) :
    (p.originate cls dst target payload poison win).dict.cfgPart = p.dict.cfgPart := by
  unfold Pkg.originate
  split <;> simp

@[simp] theorem sendLine_cfgPart (p : Pkg) (pos region kind offset : Nat) (ws : List (Option W128)) :
    (p.sendLine pos region kind offset ws).dict.cfgPart = p.dict.cfgPart := by
  unfold Pkg.sendLine
  split <;> simp

@[simp] theorem track_cfgPart (p : Pkg) (line : Nat) (old : List PWord) : (p.track line old).dict.cfgPart = p.dict.cfgPart := by
  unfold Pkg.track
  split
  · rfl
  · dsimp only
    split <;> simp

@[simp] theorem writeLine_cfgPart (p : Pkg) (line : Nat) (mask : List Bool) (data : List (Option W128)) :
    (p.writeLine line mask data).dict.cfgPart = p.dict.cfgPart :=
  (track_cfgPart _ _ _).trans (foldl_cfgPart (fun _ _ => memMerge_cfgPart _ _ _ _) _ _)

/-! ### The directory and its requesters -/

@[simp] theorem setDir_dict (p : Pkg) (key : Nat) (w : PWord) : (p.setDir key w).dict = p.dict := rfl

@[simp] theorem setL2_dict (p : Pkg) (c line : Nat) (x : Option L2Line) : (p.setL2 c line x).dict = p.dict := by
  cases x <;> rfl

@[simp] theorem setEvb_dict (p : Pkg) (c line : Nat) (x : Option L2Line) : (p.setEvb c line x).dict = p.dict := rfl

@[simp] theorem setEntry_dict (p : Pkg) (line st sharers : Nat) : (p.setEntry line st sharers).dict = p.dict := by
  unfold Pkg.setEntry
  dsimp only
  split <;> rfl

@[simp] theorem setBusy_dict (p : Pkg) (b : Busy) : (p.setBusy b).dict = p.dict := rfl
@[simp] theorem freeLine_dict (p : Pkg) (line : Nat) : (p.freeLine line).dict = p.dict := rfl
@[simp] theorem enqueue_dict (p : Pkg) (o : MemOp) : (p.enqueue o).dict = p.dict := rfl
@[simp] theorem queueWrite_dict (p : Pkg) (r : Req) (mask : List Bool) (data : List PWord) :
    (p.queueWrite r mask data).dict = p.dict := rfl
@[simp] theorem request_dict (p : Pkg) (r : Req) : (p.request r).dict = p.dict := rfl
@[simp] theorem unqueue_dict (p : Pkg) (r : Req) : (p.unqueue r).dict = p.dict := rfl
@[simp] theorem trapCore_dict (p : Pkg) (c : Nat) (x : CoreTrap) : (p.trapCore c x).dict = p.dict := rfl
@[simp] theorem endStore_dict (p : Pkg) (c : Nat) : (p.endStore c).dict = p.dict := rfl

@[simp] theorem markFilled_dict (p : Pkg) (tag : Tag) (line : Nat) : (p.markFilled tag line).dict = p.dict := by
  unfold Pkg.markFilled
  split <;> simp [apply_ite Pkg.dict]

@[simp] theorem tileReply_dict (p : Pkg) (tag : Tag) (line : Nat) (data : List (Option W128)) :
    (p.tileReply tag line data).dict = p.dict := by
  cases tag <;> simp [Pkg.tileReply, Pkg.pushFlit, apply_ite Pkg.dict]

@[simp] theorem deliver_dict (p : Pkg) (tag : Tag) (line : Nat) (data : Option (List (Option W128))) :
    (p.deliver tag line data).dict = p.dict := by
  cases tag <;> simp [Pkg.deliver]

@[simp] theorem writeBack_dict (p : Pkg) (line : Nat) (d : List PWord) : (p.writeBack line d).dict = p.dict := by
  simp [Pkg.writeBack, apply_ite Pkg.dict]

@[simp] theorem askLine_dict (p : Pkg) (c line : Nat) (kind : ReqKind) : (p.askLine c line kind).dict = p.dict := by
  simp [Pkg.askLine, apply_ite Pkg.dict]

/-! ### The set queues -/

@[simp] theorem readLine_cfgPart (p : Pkg) (line : Nat) (mask : List Bool) :
    (p.readLine line mask).2.dict.cfgPart = p.dict.cfgPart := by
  refine foldl_snd_cfgPart (fun acc w => ?_) _ _
  split <;> simp

@[simp] theorem serveOp_cfgPart (p : Pkg) (o : MemOp) : (p.serveOp o).dict.cfgPart = p.dict.cfgPart := by
  cases o <;> simp [Pkg.serveOp]

@[simp] theorem serveAt_cfgPart (p : Pkg) (i : Nat) : (p.serveAt i).dict.cfgPart = p.dict.cfgPart := by
  unfold Pkg.serveAt
  split <;> simp

@[simp] theorem drainSet_cfgPart (n set : Nat) (p : Pkg) : (Pkg.drainSet n set p).dict.cfgPart = p.dict.cfgPart := by
  induction n generalizing p with
  | zero => rfl
  | succ n ih =>
    unfold Pkg.drainSet
    split <;> simp [ih]

@[simp] theorem drainLine_cfgPart (p : Pkg) (line : Nat) : (p.drainLine line).dict.cfgPart = p.dict.cfgPart := drainSet_cfgPart _ _ _

@[simp] theorem poisonMem_cfgPart (p : Pkg) (line : Nat) : (p.poisonMem line).dict.cfgPart = p.dict.cfgPart := by
  simp [Pkg.poisonMem]

@[simp] theorem dirFail_cfgPart (p : Pkg) (key : Nat) : (p.dirFail key).dict.cfgPart = p.dict.cfgPart := by
  simp (disch := decide) only [Pkg.dirFail, raise_dict, bump_above_cfgPart, setDir_dict, poisonMem_cfgPart]
  exact foldl_cfgPart (fun _ _ => congrArg Dict.cfgPart (setL2_dict _ _ _ _)) _ _

@[simp] theorem dirCheck_cfgPart (p : Pkg) (set : Nat) : (p.dirCheck set).dict.cfgPart = p.dict.cfgPart := by
  refine foldl_cfgPart (fun q w => ?_) _ _
  dsimp only
  split
  · simp
  · split <;> simp (disch := decide)

/-! ### Snoops and the cores -/

@[simp] theorem l2Check_cfgPart (p : Pkg) (c line : Nat) : (p.l2Check c line).dict.cfgPart = p.dict.cfgPart := by
  refine foldl_cfgPart (fun q w => ?_) _ _
  split
  · rfl
  · split <;> simp (disch := decide)

@[simp] theorem snoopCore_cfgPart (p : Pkg) (c line : Nat) (k : SnoopKind) :
    (snoopCore p c line k).1.dict.cfgPart = p.dict.cfgPart := by
  unfold Sys2Proof.Machine.snoopCore
  dsimp only
  split
  · cases k <;> simp
  · split <;> cases k <;> simp

@[simp] theorem coreAnswer_cfgPart (p : Pkg) (c line : Nat) (k : SnoopKind) :
    (p.coreAnswer c line k).dict.cfgPart = p.dict.cfgPart := by
  unfold Pkg.coreAnswer
  split
  · rfl
  · split <;> simp

@[simp] theorem storePiece_cfgPart (p : Pkg) (c line a : Nat) (l : List Byte) :
    (p.storePiece c line a l).dict.cfgPart = p.dict.cfgPart := by
  unfold Pkg.storePiece
  dsimp only
  split <;> simp

@[simp] theorem runAmo_cfgPart (p : Pkg) (c a : Nat) (l : List Byte) (k : CoreStoreKind) :
    (p.runAmo c a l k).dict.cfgPart = p.dict.cfgPart := by
  unfold Pkg.runAmo
  dsimp only
  split
  · simp
  · split <;> simp

@[simp] theorem runStore_cfgPart (n c a : Nat) (l : List Byte) (kind : CoreStoreKind) (p : Pkg) :
    (Pkg.runStore n c a l kind p).dict.cfgPart = p.dict.cfgPart := by
  induction n generalizing p a l with
  | zero => rfl
  | succ n ih =>
    unfold Pkg.runStore
    dsimp only
    split
    · simp
    · split <;> simp [ih]

@[simp] theorem runLoad_cfgPart (p : Pkg) (c a n : Nat) (lr : Bool) : (p.runLoad c a n lr).dict.cfgPart = p.dict.cfgPart := by
  unfold Pkg.runLoad
  dsimp only
  split
  · simp
  · simp [foldl_cfgPart]

@[simp] theorem resumeCore_cfgPart (p : Pkg) (c line : Nat) : (p.resumeCore c line).dict.cfgPart = p.dict.cfgPart := by
  unfold Pkg.resumeCore
  extract_lets stored
  have hstored : stored.dict.cfgPart = p.dict.cfgPart := by
    dsimp only [stored]
    split <;> simp
  split <;> simp [hstored]

@[simp] theorem freeEvb_cfgPart (p : Pkg) (c line : Nat) : (p.freeEvb c line).dict.cfgPart = p.dict.cfgPart := by
  simp [Pkg.freeEvb]

@[simp] theorem replaceLine_cfgPart (p : Pkg) (c line : Nat) : (p.replaceLine c line).dict.cfgPart = p.dict.cfgPart := by
  unfold Pkg.replaceLine
  dsimp only
  split <;> simp

@[simp] theorem makeRoom_cfgPart (p : Pkg) (c line : Nat) : (p.makeRoom c line).dict.cfgPart = p.dict.cfgPart := by
  simp [Pkg.makeRoom]

@[simp] theorem fillCore_cfgPart (p : Pkg) (c line : Nat) : (p.fillCore c line).dict.cfgPart = p.dict.cfgPart := by
  unfold Pkg.fillCore
  split
  · rfl
  · split <;> simp

/-! ### The home -/

@[simp] theorem homeFinish_dict (p : Pkg) (b : Busy) : (p.homeFinish b).dict = p.dict := by
  unfold Pkg.homeFinish
  dsimp only
  split
  · split <;> simp [apply_ite Pkg.dict]
  · simp
  · simp
  · split <;> simp
  · simp [apply_ite Pkg.dict]
  · split
    · split <;> simp [apply_ite Pkg.dict]
    · simp
  · split <;> simp [apply_ite Pkg.dict]
  · split <;> simp

@[simp] theorem homeAnswer_dict (p : Pkg) (c line : Nat) : (p.homeAnswer c line).dict = p.dict := by
  unfold Pkg.homeAnswer
  split
  · rfl
  · split
    · rfl
    · dsimp only
      split <;> simp [apply_ite Pkg.dict]

@[simp] theorem homeServe_cfgPart (p : Pkg) (r : Req) (e : DirEnt) (row : Nat) :
    (p.homeServe r e row).dict.cfgPart = p.dict.cfgPart := by
  unfold Pkg.homeServe
  extract_lets next entered
  have hentered : entered.dict.cfgPart = p.dict.cfgPart := by simp [entered]
  clear_value entered
  split
  · simp [hentered]
  · simp [hentered]
  · simp [hentered]
  · simp [hentered]
  · simp [hentered]
  · rename_i snoops _ snooped b noted _ _ _ _ _ _
    have hnoted : noted.dict.cfgPart = p.dict.cfgPart := by simp [noted, snooped, hentered]
    clear_value noted
    split
    · split <;> simp [hnoted]
    · simp [hnoted]

@[simp] theorem askRecall_cfgPart (p : Pkg) (line : Nat) : (p.askRecall line).dict.cfgPart = p.dict.cfgPart := by
  simp (disch := decide) [Pkg.askRecall]

@[simp] theorem arbitrate_cfgPart (p : Pkg) (line : Nat) (k : ReqKind) (victim : Bool) :
    (p.arbitrate line k victim).dict.cfgPart = p.dict.cfgPart := by
  unfold Pkg.arbitrate
  split
  · rfl
  · split
    · rfl
    · simp (disch := decide)

@[simp] theorem ackLine_dict (p : Pkg) (r line : Nat) : (p.ackLine r line).dict = p.dict := by
  unfold Pkg.ackLine
  split <;> simp [apply_ite Pkg.dict]

@[simp] theorem finishLine_cfgPart (n line : Nat) (p : Pkg) : (Pkg.finishLine n line p).dict.cfgPart = p.dict.cfgPart := by
  induction n generalizing p with
  | zero => rfl
  | succ n ih =>
    unfold Pkg.finishLine
    split
    · rfl
    · extract_lets answered drained filled
      have hanswered : answered.dict.cfgPart = p.dict.cfgPart := foldl_cfgPart (fun _ _ => by simp) _ _
      have hfilled : filled.dict.cfgPart = p.dict.cfgPart := by
        dsimp only [filled, drained]
        split <;> simp [hanswered]
      rw [ih, ackLine_dict, hfilled]

/-! ### A sweep -/

@[simp] theorem sweepEntry_cfgPart (p : Pkg) (mask key : Nat) : (p.sweepEntry mask key).dict.cfgPart = p.dict.cfgPart := by
  unfold Pkg.sweepEntry
  dsimp only
  split <;> simp (disch := decide)

@[simp] theorem moveWay_dict (p : Pkg) (slice : Nat) : (p.moveWay slice).dict = p.dict := by
  simp [Pkg.moveWay, apply_ite Pkg.dict]

@[simp] theorem endSweep_cfgPart (p : Pkg) : p.endSweep.dict.cfgPart = p.dict.cfgPart := by
  unfold Pkg.endSweep
  extract_lets mask swept moved
  have hswept : swept.dict.cfgPart = p.dict.cfgPart := foldl_cfgPart (fun _ _ => sweepEntry_cfgPart _ _ _) _ _
  have hmoved : moved.dict.cfgPart = swept.dict.cfgPart := foldl_cfgPart (fun _ _ => congrArg Dict.cfgPart (moveWay_dict _ _)) _ _
  split
  · rfl
  · rw [setReg_cfgPart _ (by decide), hmoved, hswept]

/-! ### Reads by the agents -/

@[simp] theorem runRecall_cfgPart (p : Pkg) (line : Nat) : (p.runRecall line).dict.cfgPart = p.dict.cfgPart := by
  unfold Pkg.runRecall
  dsimp only
  split
  · simp
  · split <;> simp

@[simp] theorem serveWaiting_cfgPart (n line : Nat) (p : Pkg) : (Pkg.serveWaiting n line p).dict.cfgPart = p.dict.cfgPart := by
  induction n generalizing p with
  | zero => rfl
  | succ n ih =>
    unfold Pkg.serveWaiting
    dsimp only
    split <;> simp [ih]

@[simp] theorem agentTurn_cfgPart (p : Pkg) (r line : Nat) : (p.agentTurn r line).dict.cfgPart = p.dict.cfgPart := by
  simp (disch := decide) [Pkg.agentTurn]

@[simp] theorem cohRead_cfgPart (p : Pkg) (r line : Nat) (mask : List Bool) :
    (p.cohRead r line mask).2.dict.cfgPart = p.dict.cfgPart := by
  unfold Pkg.cohRead
  dsimp only
  split
  · rename_i q _ _ held
    split at held
    · rename_i o _
      have hsnoop := snoopCore_cfgPart (p.agentTurn r line) o line .snpRd
      rw [ite_eq_iff] at held
      simp_all
    · cases held
  · simp

@[simp] theorem agentRead_cfgPart (p : Pkg) (r a n : Nat) : (p.agentRead r a n).2.dict.cfgPart = p.dict.cfgPart := by
  refine foldl_snd_cfgPart (fun acc i => ?_) _ _
  dsimp only
  split <;> simp

@[simp] theorem agentBytes_cfgPart (p : Pkg) (r a n : Nat) : (p.agentBytes r a n).2.dict.cfgPart = p.dict.cfgPart :=
  agentRead_cfgPart p r a n

end Sys2Proof.Machine

/-! ## The spare subset leaves the configuration page alone (R32, R281, R395) -/

namespace Sys2Proof.Machine

/-- Tiles reloaded from the resident image are read by an agent. -/
theorem reloadTiles_cfgPart {p q : Pkg} {i : Image} {f : Nat → Bool} (h : p.reloadTiles i f = some q) :
    q.dict.cfgPart = p.dict.cfgPart := by
  unfold Pkg.reloadTiles at h
  extract_lets v part get c t at h
  have hget (q : Pkg) (e : Option PartEnt) : (get q e).2.dict.cfgPart = q.dict.cfgPart := by
    cases e <;> simp [get]
  have ht : t.2.dict.cfgPart = p.dict.cfgPart := (hget _ _).trans (hget _ _)
  split at h
  · rw [Option.map_eq_some_iff] at h
    obtain ⟨_, _, rfl⟩ := h
    exact ht
  · cases h

theorem freeRange_dict (p : Pkg) (a n : Nat) : (p.freeRange a n).dict = p.dict := by
  unfold Pkg.freeRange
  refine foldl_keeps Pkg.dict (fun q k => ?_) _ p
  rw [setWord_dict]
  rfl

theorem freeStore_dict (p : Pkg) (n : Nat) : (p.freeStore n).dict = p.dict := by
  unfold Pkg.freeStore
  generalize List.range (1024 * 32) = rows
  refine foldl_keeps Pkg.dict (fun q k => ?_) rows p
  rfl

theorem freshTile_dict (p : Pkg) (n : Nat) : (p.freshTile n).dict = p.dict := by
  unfold Pkg.freshTile
  dsimp only
  rw [setTile_dict, freeRange_dict, freeStore_dict]

@[simp] theorem rewriteTiles_cfgPart (p : Pkg) (r : Nat) : (p.rewriteTiles r).dict.cfgPart = p.dict.cfgPart := by
  unfold Pkg.rewriteTiles
  dsimp only
  split
  · rfl
  · split
    · rfl
    · rename_i i _
      rw [foldl_cfgPart fun _ _ => congrArg Dict.cfgPart (freshTile_dict _ _)]
      cases hreload : p.reloadTiles i fun n => decide (n ∈ rowTiles r) with
      | none => rfl
      | some q => exact reloadTiles_cfgPart hreload

theorem flood_dict (p : Pkg) (type dst : Nat) (payload : List Nat) : (p.flood type dst payload).dict = p.dict := by
  obtain ⟨n, o, l, h⟩ := flood_changes_sequence_out_links p type dst payload
  rw [h]

theorem setErrBit_cfgPart (p : Pkg) (i : Nat) (b : Bool) : (p.setErrBit i b).dict.cfgPart = p.dict.cfgPart := by
  simp (disch := decide) [Pkg.setErrBit, setReg_cfgPart]

@[simp] theorem declareFailed_cfgPart (p : Pkg) : p.declareFailed.dict.cfgPart = p.dict.cfgPart := by
  cases h : p.failed with
  | true => rw [declareFailed_again p h]
  | false => simp [declareFailed_eq p h, Pkg.failureNotice, Pkg.stopTiles, setErrBit_cfgPart, flood_dict]

@[simp] theorem retireTile_cfgPart (p : Pkg) (q : Nat) : (retireTile p q).dict.cfgPart = p.dict.cfgPart := by
  simp (disch := decide) [retireTile]

@[simp] theorem swapCol_cfgPart (p : Pkg) (r : Nat) : (p.swapCol r).dict.cfgPart = p.dict.cfgPart := by
  simp (disch := decide) [Pkg.swapCol, Nat.add_assoc]

@[simp] theorem swapCore_cfgPart (p : Pkg) (d : Nat) : (p.swapCore d).dict.cfgPart = p.dict.cfgPart := by
  simp (disch := decide) [Pkg.swapCore, Nat.add_assoc]

theorem applySubset_cfgPart (p : Pkg) : p.applySubset.dict.cfgPart = p.dict.cfgPart := by
  unfold Pkg.applySubset
  extract_lets columns cores
  have hcolumns : columns.dict.cfgPart = p.dict.cfgPart := foldl_cfgPart swapCol_cfgPart _ p
  have hcores : cores.dict.cfgPart = columns.dict.cfgPart := foldl_cfgPart swapCore_cfgPart _ columns
  clear_value cores
  refine (foldl_cfgPart (fun q n => ?_) _ cores).trans (hcores.trans hcolumns)
  exact setReg_above_cfgPart q (by decide) n _

end Sys2Proof.Machine

/-! ## Arming, and a local swap at its Period (R391, R393) -/

namespace Sys2Proof.Machine

/-! ### A swap keeps all but what it records -/

/-- q has the configuration unit, the shadow copies and every object of p but those that `keys` names. -/
structure KeptBut (keys : List Nat) (p q : Pkg) : Prop where
  cfg : q.cfg = p.cfg
  shadow : q.dict.shadow = p.dict.shadow
  reg : ∀ k, k ∉ keys → q.reg k = p.reg k

namespace KeptBut

variable {keys : List Nat} {p q : Pkg}

theorem refl (p : Pkg) : KeptBut keys p p := ⟨rfl, rfl, fun _ _ => rfl⟩

theorem trans {r : Pkg} (hpq : KeptBut keys p q) (hqr : KeptBut keys q r) : KeptBut keys p r :=
  ⟨hqr.cfg.trans hpq.cfg, hqr.shadow.trans hpq.shadow, fun k hk => (hqr.reg k hk).trans (hpq.reg k hk)⟩

theorem mono {l : List Nat} (hl : keys ⊆ l) (h : KeptBut keys p q) : KeptBut l p q :=
  ⟨h.cfg, h.shadow, fun k hk => h.reg k fun hkeys => hk (hl hkeys)⟩

/-- A step outside the dictionary and the configuration unit. -/
theorem same {r : Pkg} (h : KeptBut keys p q) (hcfg : r.cfg = q.cfg) (hdict : r.dict = q.dict) : KeptBut keys p r :=
  h.trans ⟨hcfg, by rw [hdict], fun k _ => by rw [Pkg.reg, Pkg.reg, hdict]⟩

theorem setReg {k : Nat} (hk : k ∈ keys) (v : Nat) (h : KeptBut keys p q) : KeptBut keys p (q.setReg k v) :=
  h.trans ⟨rfl, rfl, fun j hj => reg_setReg_other q j k v fun hjk => hj (hjk ▸ hk)⟩

theorem bump {k : Nat} (hk : k ∈ keys) (n : Nat) (h : KeptBut keys p q) : KeptBut keys p (q.bump k n) := setReg hk _ h

theorem raise (code unit arg : Nat) (h : KeptBut keys p q) : KeptBut keys p (q.raise code unit arg) := same h rfl rfl

theorem ite {c : Prop} [Decidable c] {r : Pkg} (hq : KeptBut keys p q) (hr : KeptBut keys p r) : KeptBut keys p (if c then q else r) := by
  split
  · exact hq
  · exact hr

theorem foldl {α : Type} {f : Pkg → α → Pkg} {l : List α} (hf : ∀ q, ∀ a ∈ l, KeptBut keys p q → KeptBut keys p (f q a))
    (h : KeptBut keys p q) : KeptBut keys p (l.foldl f q) := by
  induction l generalizing q with
  | nil => exact h
  | cons a l ih => exact ih (fun q b hb => hf q b (List.mem_cons_of_mem _ hb)) (hf q a List.mem_cons_self h)

theorem ringRestart (old : Pkg) {r : Ring} (hwr : r.wr ∈ keys) (hrd : r.rd ∈ keys) (h : KeptBut keys p q) :
    KeptBut keys p (q.ringRestart old r) := ite h (setReg hrd _ (setReg hwr _ h))

theorem noteScrub (old : Nat) (h : KeptBut keys p q) : KeptBut keys p (q.noteScrub old) := by
  unfold Pkg.noteScrub
  exact ite h (ite (same h rfl rfl) (foldl (fun q n _ hq => same hq rfl rfl) (same h rfl rfl)))

theorem beginOpChange (div : Nat) (hholds : ∀ d ∈ List.range 4, O.interlockHolds + d ∈ keys) (h : KeptBut keys p q) :
    KeptBut keys p (q.beginOpChange div) := by
  unfold Pkg.beginOpChange
  refine ite h (ite (same h rfl rfl) (foldl (fun q d hd hq => ?_) (same h rfl rfl)))
  have hcommand := same (r := q.commandVdd d (q.vddOf d div)) hq rfl rfl
  exact ite (raise _ _ _ (bump (hholds d hd) _ (same hcommand rfl rfl))) hcommand

end KeptBut

/-- R427: an extension counts itself. -/
abbrev measureRecords : List Nat := [O.measureCount, O.measureLogDropped]

theorem extend_keptBut (p : Pkg) (r source type data : Nat) (d : List Byte) :
    KeptBut measureRecords p (p.extend r source type data d) := by
  unfold Pkg.extend
  extract_lets old n _ measured counted
  have hcounted : KeptBut measureRecords p counted := .bump (by decide) _ (.same (.refl p) rfl rfl)
  exact .ite (.same hcounted rfl rfl) (.ite (.raise _ _ _ (.bump (by decide) _ hcounted)) (.bump (by decide) _ hcounted))

/-! ### The active copies take their shadow values -/

theorem takeShadows_keptBut (p : Pkg) (keep : List Nat) : KeptBut (rwsElements.map Prod.fst) p (p.takeShadows keep) := by
  unfold Pkg.takeShadows
  generalize rwsElements = l
  exact .foldl (fun q e he hq => .ite hq (.setReg (List.mem_map_of_mem he) _ hq)) (.refl p)

/-- The copies of a list of elements that lie outside `keep` read their shadow values once they are taken. -/
theorem foldl_takeShadow_reg (keep : List Nat) (l : List (Nat × Nat)) (p : Pkg) {e : Nat × Nat} (hkeep : e.1 ∉ keep)
    (he : e ∈ l ∨ p.reg e.1 = p.shadowReg e.1) :
    (l.foldl (fun p e => if e.1 ∈ keep then p else p.setReg e.1 (p.shadowReg e.1)) p).reg e.1 = p.shadowReg e.1 := by
  induction l generalizing p with
  | nil => exact he.resolve_left List.not_mem_nil
  | cons a l ih =>
    rw [List.foldl_cons]
    by_cases ha : a.1 = e.1
    · rw [ha, if_neg hkeep]
      exact ih _ (.inr (reg_setReg_self _ _ _))
    · have hstep : KeptBut [a.1] p (if a.1 ∈ keep then p else p.setReg a.1 (p.shadowReg a.1)) :=
        .ite (.refl p) (.setReg List.mem_cons_self _ (.refl p))
      have hreg := hstep.reg e.1 (by simpa using Ne.symm ha)
      have hshadow : Pkg.shadowReg _ e.1 = p.shadowReg e.1 := congrArg (SMap.at 0 e.1) hstep.shadow
      rw [← hshadow] at he ⊢
      exact ih _ (he.imp (fun h => (List.mem_cons.mp h).resolve_left fun h => ha (h ▸ rfl)) hreg.trans)

theorem takeShadows_reg (p : Pkg) {keep : List Nat} {e : Nat × Nat} (he : e ∈ rwsElements) (hkeep : e.1 ∉ keep) :
    (p.takeShadows keep).reg e.1 = p.shadowReg e.1 := foldl_takeShadow_reg keep _ p hkeep (.inl he)

/-! ### A swap of one package alone (R393) -/

/-- The objects that a local swap changes beside the copies it takes and the measurement's counts. -/
abbrev swapRecords : List Nat := [O.ledgerWriteIndex, O.ledgerReadIndex, O.dispatchWriteIndex, O.dispatchReadIndex,
  O.rootPllInUse, O.interlockHolds, O.interlockHolds + 1, O.interlockHolds + 2, O.interlockHolds + 3]

/-- The objects that say how the configuration sets stand. -/
abbrev setRecords : List Nat := [O.cfgActiveGen, O.cfgArmState, O.cfgSwaps]

theorem rws_not_recorded : ∀ e ∈ rwsElements, e.1 ∉ swapRecords ++ setRecords ++ measureRecords := by decide +kernel

/-- The copies taken, the rings restarted, the root PLL selected, and a change of the operating point begun. -/
def Pkg.takeLocalSet (p : Pkg) : Pkg :=
  let q := (((p.takeShadows spareSubset).ringRestart p ledgerRing).ringRestart p dispatchRing).noteScrub (p.reg O.scrubEnable)
  (q.setReg O.rootPllInUse (q.reg O.rootPllSelect)).beginOpChange (q.reg O.aclkDivisor)

/-- The generation in force, the set no longer armed, and the swap counted. -/
def Pkg.countSwap (p : Pkg) (gen : Nat) : Pkg := ((p.setReg O.cfgActiveGen gen).setReg O.cfgArmState 0).bump O.cfgSwaps 1

theorem applySet_local (p : Pkg) (gen : Nat) : p.applySet gen none =
    ((p.takeLocalSet.countSwap gen).extend 3 1 2 gen (digest256 (p.takeLocalSet.countSwap gen).activeImage)).raise 0x2604 noUnit 0 := by
  simp [Pkg.applySet, Pkg.takeLocalSet, Pkg.countSwap]

theorem takeLocalSet_keptBut (p : Pkg) : KeptBut swapRecords (p.takeShadows spareSubset) p.takeLocalSet := by
  unfold Pkg.takeLocalSet
  extract_lets q
  have hq : KeptBut swapRecords (p.takeShadows spareSubset) q :=
    .noteScrub _ (.ringRestart _ (by decide) (by decide) (.ringRestart _ (by decide) (by decide) (.refl _)))
  clear_value q
  exact .beginOpChange _ (by decide) (.setReg (by decide) _ hq)

/-- A swap of one package alone changes, beside the copies it takes, only what records it. -/
theorem applySet_local_keptBut (p : Pkg) (gen : Nat) :
    KeptBut (swapRecords ++ setRecords ++ measureRecords) (p.takeShadows spareSubset) (p.applySet gen none) := by
  rw [applySet_local]
  have hset := (takeLocalSet_keptBut p).mono (l := swapRecords ++ setRecords ++ measureRecords) (by simp)
  refine .raise _ _ _ (.trans ?_ ((extend_keptBut _ _ _ _ _ _).mono (by simp)))
  exact .bump (by decide) _ (.setReg (by decide) _ (.setReg (by decide) _ hset))

theorem applySet_local_reg (p : Pkg) (gen : Nat) {k : Nat} (hk : k ∉ measureRecords) :
    (p.applySet gen none).reg k = (p.takeLocalSet.countSwap gen).reg k := by
  rw [applySet_local, reg_raise]
  exact (extend_keptBut _ _ _ _ _ _).reg k hk

theorem applySet_local_cfgActiveGen (p : Pkg) (gen : Nat) : (p.applySet gen none).reg O.cfgActiveGen = gen := by
  rw [applySet_local_reg p gen (by decide), Pkg.countSwap, bump_reg_other _ _ _ _ (by decide), reg_setReg_other _ _ _ _ (by decide),
    reg_setReg_self]

theorem applySet_local_cfgArmState (p : Pkg) (gen : Nat) : (p.applySet gen none).reg O.cfgArmState = 0 := by
  rw [applySet_local_reg p gen (by decide), Pkg.countSwap, bump_reg_other _ _ _ _ (by decide), reg_setReg_self]

theorem applySet_local_cfgSwaps (p : Pkg) (gen : Nat) :
    (p.applySet gen none).reg O.cfgSwaps = min (p.reg O.cfgSwaps + 1) (2 ^ 32 - 1) := by
  have hkept : p.takeLocalSet.reg O.cfgSwaps = p.reg O.cfgSwaps :=
    ((takeLocalSet_keptBut p).reg _ (by decide)).trans ((takeShadows_keptBut p _).reg _ (by decide +kernel))
  rw [applySet_local_reg p gen (by decide), Pkg.countSwap, bump_reg_self, reg_setReg_other _ _ _ _ (by decide),
    reg_setReg_other _ _ _ _ (by decide), hkept]

theorem applySet_local_hasEvent (p : Pkg) (gen : Nat) : (p.applySet gen none).HasEvent 0x2604 := by
  rw [applySet_local]
  exact hasEvent_raise ..

theorem applySet_local_rws (p : Pkg) (gen : Nat) {e : Nat × Nat} (he : e ∈ rwsElements) (hspare : e.1 ∉ spareSubset) :
    (p.applySet gen none).reg e.1 = p.shadowReg e.1 := by
  rw [(applySet_local_keptBut p gen).reg _ (rws_not_recorded e he), takeShadows_reg p he hspare]

theorem applySet_local_cfg (p : Pkg) (gen : Nat) : (p.applySet gen none).cfg = p.cfg :=
  (applySet_local_keptBut p gen).cfg.trans (takeShadows_keptBut p _).cfg

theorem applySet_local_shadow (p : Pkg) (gen : Nat) : (p.applySet gen none).dict.shadow = p.dict.shadow :=
  (applySet_local_keptBut p gen).shadow.trans (takeShadows_keptBut p _).shadow

/-- q is p after a swap to generation `gen`: the set in force is the one that p's shadow copies hold. -/
structure SwappedTo (gen : Nat) (p q : Pkg) : Prop where
  activeGen : q.reg O.cfgActiveGen = gen
  armState : q.reg O.cfgArmState = 0
  swaps : q.reg O.cfgSwaps = min (p.reg O.cfgSwaps + 1) (2 ^ 32 - 1)
  event : q.HasEvent 0x2604
  rws : ∀ e ∈ rwsElements, e.1 ∉ spareSubset → q.reg e.1 = p.shadowReg e.1
  shadow : q.dict.shadow = p.dict.shadow

theorem applySet_local_swappedTo (p : Pkg) (gen : Nat) : SwappedTo gen p (p.applySet gen none) where
  activeGen := applySet_local_cfgActiveGen p gen
  armState := applySet_local_cfgArmState p gen
  swaps := applySet_local_cfgSwaps p gen
  event := applySet_local_hasEvent p gen
  rws _ he hspare := applySet_local_rws p gen he hspare
  shadow := applySet_local_shadow p gen

/-! ### The Period of a local swap (R400, R401) -/

/-- The pending local swap is done. -/
def Pkg.takeLocalSwap (p : Pkg) : Pkg := (p.setCfg { p.cfg with localSwap := false }).applySet (p.reg O.cfgArmGen) none

/-- PRD_OUT at a Period. -/
def Pkg.pulsePeriod (p : Pkg) : Pkg := if p.reg O.prdOutOwner = 1 then p.emit .prdOut else p

theorem periodEntry_none (p : Pkg) (h : p.reg O.imageState ≠ 4) : p.periodEntry = none := by
  unfold Pkg.periodEntry
  split <;> simp [Pkg.evaluates, h]

/-! The steps that open a Period outside the dictionary, each on any package: to check them together would compare the packages whole. -/

theorem dict_with_memsys (p : Pkg) (m : MemSys) : ({ p with memsys := m } : Pkg).dict = p.dict := rfl
theorem dict_with_links (p : Pkg) (l : Links) : ({ p with links := l } : Pkg).dict = p.dict := rfl
theorem latchSnapshot_cfgPart (p : Pkg) : p.latchSnapshot.dict.cfgPart = p.dict.cfgPart := rfl

/-- Where a local Period meets an armed package that waits for it, the pending swap follows the spare subset. -/
theorem firePeriod_localSwap (p : Pkg) (himage : p.reg O.imageState ≠ 4) (harmed : p.reg O.cfgArmState = 2)
    (hpending : p.cfg.localSwap = true) (hdue : p.localDue = true) :
    ∃ q : Pkg, q.dict.cfgPart = p.dict.cfgPart ∧ p.firePeriod = q.applySubset.takeLocalSwap.pulsePeriod := by
  rw [Pkg.firePeriod, periodEntry_none p himage, hdue, if_pos (.inr rfl)]
  unfold Pkg.takePeriod
  extract_lets runs point subset ann lswap swaps kind numbered latched _ forgot _ seen _ retried _ scheduled _ opened spared cfg swapped saved
  have hpoint : point = false := rfl
  have hann : ann = none := rfl
  have hruns : runs = false := decide_eq_false himage
  have hsubset : subset = true := by simp [subset, hruns]
  have hlswap : lswap = true := by simp [lswap, hruns, hpending, harmed]
  have hnumbered : numbered.dict.cfgPart = p.dict.cfgPart := by simp (disch := decide) [numbered, setReg_cfgPart]
  have hlatched : latched.dict.cfgPart = p.dict.cfgPart := (latchSnapshot_cfgPart numbered).trans hnumbered
  have hforgot : forgot.dict = latched.dict := setHost_dict latched _
  have hseen : seen.dict = forgot.dict := dict_with_memsys forgot _
  have hretried : retried.dict = seen.dict := dict_with_links seen _
  have hscheduled : scheduled = retried := if_neg Bool.false_ne_true
  have hopened : opened.dict.cfgPart = p.dict.cfgPart := by
    have hlast : opened = scheduled.setCfg _ := if_pos rfl
    rw [hlast, setCfg_dict, hscheduled, hretried, hseen, hforgot, hlatched]
  refine ⟨opened, hopened, ?_⟩
  clear_value opened point ann lswap subset
  have hsaved : saved = opened.applySubset.takeLocalSwap := by
    simp only [saved, swapped, cfg, spared, hpoint, hann, hlswap, hsubset, if_true, Pkg.takeLocalSwap]
  exact congrArg Pkg.pulsePeriod hsaved

section
variable (p : Pkg)

@[simp] theorem pulsePeriod_dict : p.pulsePeriod.dict = p.dict := by simp [Pkg.pulsePeriod, apply_ite Pkg.dict]
@[simp] theorem pulsePeriod_cfg : p.pulsePeriod.cfg = p.cfg := by simp [Pkg.pulsePeriod, apply_ite Pkg.cfg]
@[simp] theorem pulsePeriod_ev : p.pulsePeriod.ev = p.ev := by simp [Pkg.pulsePeriod, apply_ite Pkg.ev]
@[simp] theorem pulsePeriod_reg (k : Nat) : p.pulsePeriod.reg k = p.reg k := by rw [Pkg.reg, Pkg.reg, pulsePeriod_dict]

end

theorem reg_of_cfgPart {p q : Pkg} (h : q.dict.cfgPart = p.dict.cfgPart) (i : Fin 256) : q.reg (0x264000 + i) = p.reg (0x264000 + i) :=
  congrFun (congrArg Prod.snd h) i

/-- A swap of a package with p's configuration sets and shadow copies is one of p. -/
theorem SwappedTo.of_cfgPart {p q r : Pkg} {gen : Nat} (h : SwappedTo gen q r) (hpart : q.dict.cfgPart = p.dict.cfgPart) :
    SwappedTo gen p r := by
  have hshadow : q.dict.shadow = p.dict.shadow := congrArg Prod.fst hpart
  have hswaps : q.reg O.cfgSwaps = p.reg O.cfgSwaps := reg_of_cfgPart hpart 7
  exact ⟨h.activeGen, h.armState, hswaps ▸ h.swaps, h.event,
    fun e he hspare => (h.rws e he hspare).trans (congrArg (SMap.at 0 e.1) hshadow), h.shadow.trans hshadow⟩

theorem SwappedTo.pulsePeriod {p q : Pkg} {gen : Nat} (h : SwappedTo gen p q) : SwappedTo gen p q.pulsePeriod := by
  obtain ⟨hgen, hstate, hswaps, hevent, hrws, hshadow⟩ := h
  exact ⟨by simpa using hgen, by simpa using hstate, by simpa using hswaps, by simpa [Pkg.HasEvent] using hevent,
    by simpa using hrws, by simpa using hshadow⟩

/-- R393, R400: a pending local swap of an armed package is carried out at its local Period. -/
theorem firePeriod_swappedTo (p : Pkg) (himage : p.reg O.imageState ≠ 4) (harmed : p.reg O.cfgArmState = 2)
    (hpending : p.cfg.localSwap = true) (hdue : p.localDue = true) :
    SwappedTo (p.reg O.cfgArmGen) p p.firePeriod ∧ p.firePeriod.cfg.localSwap = false := by
  obtain ⟨q, hopened, hfire⟩ := firePeriod_localSwap p himage harmed hpending hdue
  have hpart : q.applySubset.dict.cfgPart = p.dict.cfgPart := (applySubset_cfgPart q).trans hopened
  have hgen : q.applySubset.reg O.cfgArmGen = p.reg O.cfgArmGen := reg_of_cfgPart hpart 2
  rw [hfire, ← hgen]
  generalize q.applySubset = r at hpart
  have hswap := applySet_local_swappedTo (r.setCfg { r.cfg with localSwap := false }) (r.reg O.cfgArmGen)
  refine ⟨(hswap.of_cfgPart hpart).pulsePeriod, ?_⟩
  rw [pulsePeriod_cfg, Pkg.takeLocalSwap, applySet_local_cfg]
  rfl

/-! ### Writes that arm, disarm and ask for a local swap (R391, R393) -/

/-- R383: a value in the range of its object reaches the object's own rule. -/
theorem objWrite_in_range {k v : Nat} {o : Obj} (hobj : objAt k = some o) (hlo : o.lo ≤ v) (hhi : v ≤ o.hi) (p : Pkg) (pt : Path)
    (f : Pkg → Pkg) : p.objWrite pt k v f = f p := by
  simp [Pkg.objWrite, hobj, Nat.not_lt.mpr hlo, Nat.not_lt.mpr hhi]

theorem objAt_cfgArmGen : objAt O.cfgArmGen = some ⟨O.cfgArmGen, 1, 1, 1, 4, .rw, 0, 0xFFFFFFFE, false⟩ := by decide +kernel
theorem objAt_cfgSwapLocal : objAt O.cfgSwapLocal = some ⟨O.cfgSwapLocal, 1, 1, 1, 1, .wo, 1, 1, false⟩ := by decide +kernel

theorem cfgArmWrite_generation (p : Pkg) (pt : Path) {v : Nat} (hv : v ≠ 0) (hmax : v < 0xFFFFFFFF) : p.cfgArmWrite pt v =
    if p.reg O.cfgArmState = 0 then (p.setReg O.cfgArmGen v).setReg O.cfgArmState 1 else p.refuse pt O.cfgArmGen abState := by
  rw [Pkg.cfgArmWrite, objWrite_in_range objAt_cfgArmGen (Nat.zero_le v) (Nat.le_of_lt_succ hmax)]
  simp [hv, Nat.ne_of_lt hmax]

theorem cfgArmWrite_zero (p : Pkg) (pt : Path) : p.cfgArmWrite pt 0 =
    if p.reg O.cfgArmState = 3 then p.refuse pt O.cfgArmGen abState
    else ((p.setReg O.cfgArmGen 0).setReg O.cfgArmState 0).setCfg { p.cfg with localSwap := false } := by
  rw [Pkg.cfgArmWrite, objWrite_in_range objAt_cfgArmGen (Nat.le_refl 0) (by decide)]
  simp

theorem cfgLocalWrite_one (p : Pkg) (pt : Path) : p.cfgLocalWrite pt 1 =
    if p.reg O.cfgArmState ≠ 2 ∨ p.reg O.imageState = 4 then p.refuse pt O.cfgSwapLocal abState
    else p.setCfg { p.cfg with localSwap := true } := by
  rw [Pkg.cfgLocalWrite, objWrite_in_range objAt_cfgSwapLocal (Nat.le_refl 1) (Nat.le_refl 1)]
  simp

section
variable {s : State} {pt : Path} (hruns : s.Runs (pathPlane pt))
include hruns

theorem exec_cfgArm (v : Nat) : exec (.cfgArm pt v) s = .next (s.settle (s.pkg.cfgArmWrite pt v)) :=
  on_runs s (pathPlane pt) (fun p => p.cfgArmWrite pt v) hruns

theorem exec_cfgDisarm : exec (.cfgDisarm pt) s = .next (s.settle (s.pkg.cfgArmWrite pt 0)) :=
  on_runs s (pathPlane pt) (fun p => p.cfgArmWrite pt 0) hruns

theorem exec_cfgSwapLocal (v : Nat) : exec (.cfgSwapLocal pt v) s = .next (s.settle (s.pkg.cfgLocalWrite pt v)) :=
  on_runs s (pathPlane pt) (fun p => p.cfgLocalWrite pt v) hruns

end

/-! ### Validation (R391) -/

/-- R392: without an announcement nothing locks. -/
theorem tryLock_without_announcement (p : Pkg) (h : p.cfg.announce = none) : p.tryLock = p := by
  unfold Pkg.tryLock
  simp [h]

/-- The refusal of a set by a check with event `code` (log 90: the first that fails). -/
def Pkg.refuseSet (p : Pkg) (code : Nat) : Pkg :=
  (((p.setReg O.cfgArmState 0).raise code noUnit 0).setReg O.cfgLastRefusal code).raise 0x2603 noUnit code

theorem refuseSet_effect (p : Pkg) (code : Nat) : (p.refuseSet code).reg O.cfgArmState = 0 ∧
    (p.refuseSet code).reg O.cfgLastRefusal = code ∧ (p.refuseSet code).HasEvent code ∧
      ((p.refuseSet code).ev.inFlight.getLast?.map (·.code)) = some 0x2603 := by
  unfold Pkg.refuseSet
  refine ⟨?_, ?_, ?_, ?_⟩
  · rw [reg_raise, reg_setReg_other _ _ _ _ (by decide), reg_raise, reg_setReg_self]
  · rw [reg_raise, reg_setReg_self]
  · exact (alarmed_raise _ _ _ _).hasEvent (hasEvent_raise (p.setReg O.cfgArmState 0) code noUnit 0)
  · simp

section
variable {s : State} (hruns : s.Runs .management) (hstate : s.pkg.reg O.cfgArmState = 1)
include hruns hstate

theorem exec_cfgArmValidated_checked (hchecks : ∀ c ∈ s.pkg.swapChecks, c.2 = true) :
    exec .cfgArmValidated s = .next (s.settle (s.pkg.setReg O.cfgArmState 2).tryLock) := by
  have hnone : s.pkg.swapChecks.find? (fun c => !c.2) = none := by simpa [List.find?_eq_none] using hchecks
  have hexec : exec .cfgArmValidated s = execCfgArmValidated s := rfl
  rw [hexec, execCfgArmValidated, on_runs _ _ _ hruns, if_neg (not_not.mpr hstate), hnone]

theorem exec_cfgArmValidated_refused {c : Nat × Bool} (hfirst : s.pkg.swapChecks.find? (fun c => !c.2) = some c) :
    exec .cfgArmValidated s = .next (s.settle (s.pkg.refuseSet c.1)) := by
  have hexec : exec .cfgArmValidated s = execCfgArmValidated s := rfl
  rw [hexec, execCfgArmValidated, on_runs _ _ _ hruns, if_neg (not_not.mpr hstate), hfirst]
  rfl

end

/-! ### The obligation -/

/-- Settles O38 (R391, R393; the swap is R392 step 5, the order of the checks log 90): the writes and the validation are read off their
rules, and a local Period leaves shadow copies and configuration sets as they were until the swap takes them, since the spare subset that
goes ahead reaches only objects of the units. -/
theorem configurationArming : Obligations.ConfigurationArming := by
  intro s pt hpath hmanagement
  refine ⟨fun v hv hmax hstate => ?_, fun v hv hmax hstate => ?_, fun hstate => ?_, fun hstate => ?_, fun hstate hchecks hannounce => ?_,
    fun c hstate hfirst => ?_, fun hstate himage => ?_, fun hstate => ?_, fun himage hstate hpending hdue => ?_⟩
  · rw [Does, exec_cfgArm hpath, cfgArmWrite_generation _ _ hv hmax, if_pos hstate]
  · rw [Does, exec_cfgArm hpath, cfgArmWrite_generation _ _ hv hmax, if_neg hstate]
  · rw [Does, exec_cfgDisarm hpath, cfgArmWrite_zero, if_neg hstate]
  · rw [Does, exec_cfgDisarm hpath, cfgArmWrite_zero, if_pos hstate]
  · rw [Does, exec_cfgArmValidated_checked hmanagement hstate hchecks,
      tryLock_without_announcement (s.pkg.setReg O.cfgArmState 2) hannounce]
  · obtain ⟨hzero, hcode, hevent, hlast⟩ := refuseSet_effect s.pkg c.1
    exact ⟨_, exec_cfgArmValidated_refused hmanagement hstate hfirst, hzero, hcode, hevent, hlast, fun _ => rfl, fun _ => rfl⟩
  · rw [Does, exec_cfgSwapLocal hpath, cfgLocalWrite_one, if_neg (by simp [hstate, himage])]
  · rw [Does, exec_cfgSwapLocal hpath, cfgLocalWrite_one, if_pos hstate]
  · obtain ⟨hswap, hdone⟩ := firePeriod_swappedTo s.pkg himage hstate hpending hdue
    exact ⟨_, on_runs s .management (fun p => p.firePeriod) hmanagement, hswap.activeGen, hswap.armState, hswap.swaps, hdone, hswap.event,
      hswap.rws, fun k => congrArg (SMap.at 0 k) hswap.shadow⟩

end Sys2Proof.Machine

namespace Sys2Proof.Machine

/-! ## One command, one settled package -/

/-- Every next state that the outcome can be is s with another package and the lands that this package drives. -/
def Settles (s : State) (o : Host.Outcome State Fault Refusal) : Prop := ∀ t, o = .next t → ∃ p, t = s.settle p

theorem settles_next (s : State) (p : Pkg) : Settles s (.next (s.settle p)) := by
  rintro t ⟨⟩
  exact ⟨p, rfl⟩

theorem settles_fault (s : State) (r : Fault) : Settles s (.fault r) := by
  rintro t ⟨⟩

theorem settles_on (s : State) (pl : Plane) (f : Pkg → Pkg) : Settles s (s.on pl f) := settles_next s _

theorem settles_slot (s : State) (m : String) (ok lim : Bool) (f : Pkg → Pkg) : Settles s (s.slot m ok lim f) :=
  fun _ h => ⟨_, (slot_cases s _ m ok lim f h).2.2⟩


theorem exec_settles (i : Instr) (s : State) : Settles s (exec i s) := by
  cases i
  case carr t win slack count =>
    show Settles s (execCarr t win slack count s)
    unfold execCarr
    split
    · exact settles_fault s _
    · exact settles_on s _ _
  case cloop t lc iterations =>
    show Settles s (execCloop t lc iterations s)
    unfold execCloop
    split
    · exact settles_fault s _
    · split
      · exact settles_fault s _
      · split <;> exact settles_on s _ _
  case cnext t lc =>
    show Settles s (execCnext t lc s)
    unfold execCnext
    split
    · exact settles_fault s _
    · split
      · exact settles_fault s _
      · exact settles_on s _ _
  case cvote t desc vreg src =>
    show Settles s (execCvote t desc vreg src s)
    unfold execCvote
    split
    · exact settles_fault s _
    · exact settles_on s _ _
  case mnop | mlw | mws | mwt | mdr | mdv | mclr | mflg | xsend | xget | xput | xagr | xdsp | vcmp | vsel | vmand | vmor | vmnot
      | vld | vst | vnst | vldq | vrst | vphr | vrcp | vsqrt | vrsq | vexp2 | vlog2 | vexp | vtanh | vsigm | vsinp | vcosp => exact settles_slot s _ _ _ _
  case vred a => exact settles_slot s "VRED" true _ _
  all_goals exact settles_next s _

/-- A step ends in a settled state, of the queue without its front, or is the tick of an empty queue. -/
theorem step_cases (s t : State) (h : step s = .next t) :
    (s.pending = [] ∧ t = idle s) ∨ ∃ c rest p, s.pending = c :: rest ∧ exec c { s with pending := rest } = .next t ∧
      t = State.settle { s with pending := rest } p := by
  unfold step at h
  split at h
  next hempty =>
    cases h
    exact .inl ⟨hempty, rfl⟩
  next c rest hqueue =>
    obtain ⟨p, rfl⟩ := exec_settles c _ t h
    exact .inr ⟨c, rest, p, hqueue, h, rfl⟩

theorem landsHold_settle (s : State) (p : Pkg) : (s.settle p).LandsHold := ⟨rfl, rfl⟩

/-- Settles O1: the front of the queue is what step matches on. -/
theorem stepRunsFrontCommand : Obligations.StepRunsFrontCommand := fun _ _ _ => rfl

/-- Settles O2: an empty queue lets one tick pass, and a command leaves the queue behind it as it is. -/
theorem queueIsFirstInFirstOut : Obligations.QueueIsFirstInFirstOut := by
  refine ⟨fun s hempty => ?_, fun s t hstep => ?_⟩
  · obtain ⟨pending, pkg, lands⟩ := s
    subst hempty
    rfl
  · obtain ⟨hempty, rfl⟩ | ⟨c, rest, p, hqueue, -, rfl⟩ := step_cases s t hstep
    · rw [idle_pending, hempty, List.tail_nil]
    · rw [settle_pending, hqueue, List.tail_cons]

/-- Settles O3 (R438, R458): a tick changes neither the error bit nor a trip, and a command drives the lands anew. -/
theorem landsFollowStateAtEveryStep : Obligations.LandsFollowStateAtEveryStep := by
  intro s t hlands hstep
  obtain ⟨-, rfl⟩ | ⟨c, rest, p, -, -, rfl⟩ := step_cases s t hstep
  · exact hlands
  · exact landsHold_settle _ p

/-- Settles O5 (R246, R386, R438, R446): the reset state is the power-on reset of log 7, its memory empty in the form of log 4. -/
theorem resetState : Obligations.ResetState := by
  refine ⟨⟨?_, rfl⟩, rfl, rfl, rfl, ?_⟩ <;> decide +kernel

end Sys2Proof.Machine

namespace Sys2Proof.Machine

-- Each proof waits for the one before it: elaborated side by side, they would hold a thread each.
set_option Elab.async false

/-! ## The word code (R246 to R248)

GF(16) is handled by its product `gfMul` and the exclusive-or; the columns but that of c1 are points (1, f(x, y), x, y) of the quadric of
the form f, which has no zero but (0, 0), so no three columns are dependent. -/

/-! ### GF(16) -/

theorem gfMul_comm : ∀ x y : BitVec 4, gfMul x y = gfMul y x := by decide +kernel
theorem gfMul_xor : ∀ x y z : BitVec 4, gfMul x (y ^^^ z) = gfMul x y ^^^ gfMul x z := by decide +kernel
theorem gfMul_assoc : ∀ x y z : BitVec 4, gfMul (gfMul x y) z = gfMul x (gfMul y z) := by decide +kernel
theorem gfMul_eq_zero : ∀ x y : BitVec 4, gfMul x y = 0 → x = 0 ∨ y = 0 := by decide +kernel
theorem gfForm_eq_zero : ∀ x y : BitVec 4, gfForm x y = 0 → x = 0 ∧ y = 0 := by decide +kernel
@[simp] theorem gfMul_one : ∀ x : BitVec 4, gfMul x 1 = x := by decide +kernel
@[simp] theorem gfMul_zero : ∀ x : BitVec 4, gfMul x 0 = 0 := by decide +kernel

theorem xor_cancel (x y : BitVec 4) : x ^^^ (x ^^^ y) = y := by
  rw [← BitVec.xor_assoc, BitVec.xor_self, BitVec.zero_xor]

theorem xor_swap (x y z : BitVec 4) : x ^^^ (y ^^^ z) = y ^^^ (x ^^^ z) := by
  rw [← BitVec.xor_assoc, BitVec.xor_comm x y, BitVec.xor_assoc]

theorem xor_eq_zero (x y : BitVec 4) (h : x ^^^ y = 0) : x = y := by
  rw [← xor_cancel x y, h]
  exact BitVec.xor_zero.symm

theorem xor_gfMul (x y z : BitVec 4) : gfMul (x ^^^ y) z = gfMul x z ^^^ gfMul y z := by
  rw [gfMul_comm, gfMul_xor, gfMul_comm z x, gfMul_comm z y]

theorem gfMul_swap (x y z : BitVec 4) : gfMul x (gfMul y z) = gfMul y (gfMul x z) := by
  rw [← gfMul_assoc, gfMul_comm x y, gfMul_assoc]

theorem gfForm_scale (k x y : BitVec 4) : gfForm (gfMul k x) (gfMul k y) = gfMul (gfMul k k) (gfForm x y) := by
  simp only [gfForm, gfMul_xor, gfMul_comm, gfMul_swap]

/-- The polar form of f: what f of a sum has beyond the sum of the two values. -/
def gfPolar (x y u v : BitVec 4) : BitVec 4 := gfMul x v ^^^ gfMul u y

theorem gfForm_xor (x y u v : BitVec 4) : gfForm (x ^^^ u) (y ^^^ v) = gfForm x y ^^^ gfForm u v ^^^ gfPolar x y u v := by
  simp only [gfForm, gfPolar, gfMul_xor, xor_gfMul, gfMul_comm u x, gfMul_comm v y]
  simp only [BitVec.xor_assoc, xor_swap, BitVec.xor_comm, xor_cancel]

theorem gfPolar_scale (e f x y u v : BitVec 4) :
    gfPolar (gfMul e x) (gfMul e y) (gfMul f u) (gfMul f v) = gfMul e (gfMul f (gfPolar x y u v)) := by
  simp only [gfPolar, gfMul_xor, gfMul_comm, gfMul_swap]

/-- Along a line of the plane the form departs from the chord by e·f times its value at the difference of the two ends. -/
theorem gfForm_line (e f x y u v : BitVec 4) : gfForm (gfMul e x ^^^ gfMul f u) (gfMul e y ^^^ gfMul f v) =
    gfMul (e ^^^ f) (gfMul e (gfForm x y) ^^^ gfMul f (gfForm u v)) ^^^ gfMul e (gfMul f (gfForm (x ^^^ u) (y ^^^ v))) := by
  rw [gfForm_xor, gfForm_scale, gfForm_scale, gfPolar_scale, gfForm_xor x y u v]
  simp only [gfMul_xor, xor_gfMul, gfMul_assoc, gfMul_swap f e]
  simp only [BitVec.xor_assoc, xor_swap, xor_cancel]

theorem gfMul_left_cancel (k x y : BitVec 4) (hk : k ≠ 0) (h : gfMul k x = gfMul k y) : x = y := by
  refine xor_eq_zero x y ((gfMul_eq_zero k _ ?_).resolve_left hk)
  rw [gfMul_xor, h]
  exact BitVec.xor_self

/-- Three points of the quadric on one line are not three: the line through two points of it meets no further one. -/
theorem quadric_no_three (e f x y u v z w : BitVec 4) (he : e ≠ 0) (hf : f ≠ 0) (hx : gfMul e x ^^^ gfMul f u = gfMul (e ^^^ f) z)
    (hy : gfMul e y ^^^ gfMul f v = gfMul (e ^^^ f) w)
    (hform : gfMul e (gfForm x y) ^^^ gfMul f (gfForm u v) = gfMul (e ^^^ f) (gfForm z w)) : x = u ∧ y = v := by
  have hline := gfForm_line e f x y u v
  rw [hx, hy, hform, gfForm_scale, gfMul_assoc] at hline
  have hzero : gfMul e (gfMul f (gfForm (x ^^^ u) (y ^^^ v))) = 0 := by
    rw [← xor_cancel (gfMul (e ^^^ f) (gfMul (e ^^^ f) (gfForm z w))) (gfMul e _), ← hline]
    exact BitVec.xor_self
  obtain ⟨hxu, hyv⟩ := gfForm_eq_zero _ _ ((gfMul_eq_zero _ _ ((gfMul_eq_zero _ _ hzero).resolve_left he)).resolve_left hf)
  exact ⟨xor_eq_zero x u hxu, xor_eq_zero y v hyv⟩

/-! ### Columns -/

theorem column_point : ∀ i < 36, i ≠ 33 → column i = (1, gfForm (column i).2.2.1 (column i).2.2.2, (column i).2.2) := by decide +kernel
theorem column_thirtyThree : column 33 = (0, 1, 0, 0) := rfl
theorem column_injective : ∀ i < 36, ∀ j < 36, column i = column j → i = j := by decide +kernel
theorem column_one : ∀ i < 36, (column i).1 = 1 ↔ i ≠ 33 := by decide +kernel

theorem syndScale_column (e : BitVec 4) (i : Nat) (hi : i < 36) (h : i ≠ 33) : syndScale e (column i) =
    (e, gfMul e (gfForm (column i).2.2.1 (column i).2.2.2), gfMul e (column i).2.2.1, gfMul e (column i).2.2.2) := by
  rw [column_point i hi h, syndScale, gfMul_one]

theorem syndScale_thirtyThree (e : BitVec 4) : syndScale e (column 33) = (0, e, 0, 0) := by
  rw [column_thirtyThree, syndScale, gfMul_one, gfMul_zero]

theorem syndAdd_comm (a b : Synd) : syndAdd a b = syndAdd b a := by
  simp only [syndAdd, BitVec.xor_comm]

/-- Two points with one factor each: their sum lies on no multiple of a third column. -/
theorem points_independent (i j k : Nat) (e f g : BitVec 4) (hi : i < 36) (hj : j < 36) (hk : k < 36) (hi33 : i ≠ 33) (hj33 : j ≠ 33)
    (hij : i ≠ j) (he : e ≠ 0) (hf : f ≠ 0) : syndAdd (syndScale e (column i)) (syndScale f (column j)) ≠ syndScale g (column k) := by
  intro h
  have hsame : (column i).2.2.1 = (column j).2.2.1 ∧ (column i).2.2.2 = (column j).2.2.2 := by
    rw [syndScale_column e i hi hi33, syndScale_column f j hj hj33] at h
    by_cases hk33 : k = 33
    · rw [hk33, syndScale_thirtyThree] at h
      simp only [syndAdd, Prod.mk.injEq] at h
      obtain ⟨hef, -, hx, hy⟩ := h
      obtain rfl := xor_eq_zero e f hef
      exact ⟨gfMul_left_cancel e _ _ he (xor_eq_zero _ _ hx), gfMul_left_cancel e _ _ he (xor_eq_zero _ _ hy)⟩
    · rw [syndScale_column g k hk hk33] at h
      simp only [syndAdd, Prod.mk.injEq] at h
      obtain ⟨rfl, hform, hx, hy⟩ := h
      exact quadric_no_three e f _ _ _ _ _ _ he hf hx hy hform
  refine hij (column_injective i hi j hj ?_)
  rw [column_point i hi hi33, column_point j hj hj33, Prod.ext hsame.1 hsame.2]

/-- c1's column with a factor, and a point with one: their sum lies on no multiple of a third column. -/
theorem point_thirtyThree_independent (j k : Nat) (e f g : BitVec 4) (hj : j < 36) (hk : k < 36) (hj33 : j ≠ 33)
    (he : e ≠ 0) (hf : f ≠ 0) : syndAdd (syndScale e (column 33)) (syndScale f (column j)) ≠ syndScale g (column k) := by
  intro h
  rw [syndScale_thirtyThree, syndScale_column f j hj hj33] at h
  by_cases hk33 : k = 33
  · rw [hk33, syndScale_thirtyThree] at h
    simp only [syndAdd, Prod.mk.injEq] at h
    exact hf ((xor_eq_zero 0 f h.1).symm)
  · rw [syndScale_column g k hk hk33] at h
    simp only [syndAdd, Prod.mk.injEq] at h
    obtain ⟨hfg, hform, hx, hy⟩ := h
    have zeroXor (x : BitVec 4) : 0 ^^^ x = x := BitVec.zero_xor
    rw [zeroXor] at hfg hx hy
    subst hfg
    rw [gfMul_left_cancel f _ _ hf hx, gfMul_left_cancel f _ _ hf hy] at hform
    exact he (by rw [← xor_cancel (gfMul f (gfForm (column k).2.2.1 (column k).2.2.2)) e, BitVec.xor_comm _ e, hform]; exact BitVec.xor_self)

/-- No column is a combination of two others: two different columns, each with a factor, add up to no multiple of a column. -/
theorem columns_independent (i j k : Nat) (e f g : BitVec 4) (hi : i < 36) (hj : j < 36) (hk : k < 36) (hij : i ≠ j) (he : e ≠ 0)
    (hf : f ≠ 0) : syndAdd (syndScale e (column i)) (syndScale f (column j)) ≠ syndScale g (column k) := by
  by_cases hi33 : i = 33
  · subst hi33
    exact point_thirtyThree_independent j k e f g hj hk hij.symm he hf
  · by_cases hj33 : j = 33
    · subst hj33
      rw [syndAdd_comm]
      exact point_thirtyThree_independent i k f e g hi hk hij hf he
    · exact points_independent i j k e f g hi hj hk hi33 hj33 hij he hf

/-! ### The syndrome is linear -/

theorem syndAdd_right_comm (a b c : Synd) : syndAdd (syndAdd a b) c = syndAdd (syndAdd a c) b := by
  simp only [syndAdd, BitVec.xor_assoc, BitVec.xor_comm c.1, BitVec.xor_comm c.2.1, BitVec.xor_comm c.2.2.1, BitVec.xor_comm c.2.2.2]

theorem syndAdd_assoc (a b c : Synd) : syndAdd (syndAdd a b) c = syndAdd a (syndAdd b c) := by
  simp only [syndAdd, BitVec.xor_assoc]

/-- What the sum starts with can be added at its end. -/
theorem foldl_syndAdd_start (l : List Nat) (g : Nat → Synd) (z c : Synd) :
    l.foldl (fun s k => syndAdd s (g k)) (syndAdd z c) = syndAdd (l.foldl (fun s k => syndAdd s (g k)) z) c := by
  induction l generalizing z with
  | nil => rfl
  | cons k l ih => rw [List.foldl_cons, List.foldl_cons, syndAdd_right_comm, ih]

/-- A term with c added to it adds c to the sum. -/
theorem foldl_syndAdd_update (l : List Nat) (g h : Nat → Synd) (i : Nat) (c z : Synd) (hnodup : l.Nodup) (hmem : i ∈ l)
    (hother : ∀ k ∈ l, k ≠ i → h k = g k) (hi : h i = syndAdd (g i) c) :
    l.foldl (fun s k => syndAdd s (h k)) z = syndAdd (l.foldl (fun s k => syndAdd s (g k)) z) c := by
  obtain ⟨before, after, rfl⟩ := List.append_of_mem hmem
  have hout : ∀ k ∈ before ++ after, h k = g k := by
    intro k hk
    have hne : i ∉ before ++ after := (List.nodup_middle.mp hnodup).notMem
    refine hother k ?_ (fun hki => hne (hki ▸ hk))
    rw [List.mem_append] at hk ⊢
    exact hk.imp_right (List.mem_cons_of_mem i)
  have hbefore : ∀ z, before.foldl (fun s k => syndAdd s (h k)) z = before.foldl (fun s k => syndAdd s (g k)) z := fun z =>
    List.foldl_ext _ _ _ fun s k hk => by rw [hout k (List.mem_append_left _ hk)]
  have hafter : ∀ z, after.foldl (fun s k => syndAdd s (h k)) z = after.foldl (fun s k => syndAdd s (g k)) z := fun z =>
    List.foldl_ext _ _ _ fun s k hk => by rw [hout k (List.mem_append_right _ hk)]
  rw [List.foldl_append, List.foldl_append, List.foldl_cons, List.foldl_cons, hbefore, hafter, hi, ← syndAdd_assoc, foldl_syndAdd_start]

theorem syndScale_xor (e f : BitVec 4) (a : Synd) : syndScale (e ^^^ f) a = syndAdd (syndScale e a) (syndScale f a) := by
  simp only [syndScale, syndAdd, xor_gfMul]

/-- Symbol j of a number with e added at symbol i. -/
theorem extract_xor_shift {w : Nat} (d : BitVec w) (i j : Nat) (e : BitVec 4) (hi : 4 * i + 4 ≤ w) (hw : 4 ≤ w) :
    (d ^^^ ((e.zeroExtend w) <<< (4 * i))).extractLsb' (4 * j) 4 = d.extractLsb' (4 * j) 4 ^^^ (if j = i then e else 0) := by
  refine BitVec.eq_of_getLsbD_eq fun k hk => ?_
  simp only [BitVec.getLsbD_extractLsb', BitVec.getLsbD_xor, BitVec.getLsbD_shiftLeft, BitVec.truncate_eq_setWidth, BitVec.getLsbD_setWidth]
  by_cases hji : j = i
  · subst hji
    simp [hk, show 4 * j + k < w by omega, show k < w by omega]
  · have hout : ¬ 4 * j + k < 4 * i → ¬ 4 * j + k - 4 * i < 4 := by omega
    by_cases hbelow : 4 * j + k < 4 * i
    · simp [hji, hbelow]
    · simp [hji, BitVec.getLsbD_of_ge e _ (by omega : 4 ≤ 4 * j + k - 4 * i)]

theorem dataSynd_addSym (d : W128) (i : Nat) (e : BitVec 4) (hi : i < 32) :
    dataSynd (d ^^^ ((e.zeroExtend 128) <<< (4 * i))) = syndAdd (dataSynd d) (syndScale e (column i)) := by
  refine foldl_syndAdd_update (List.range 32) _ _ i _ _ List.nodup_range (List.mem_range.mpr hi) (fun k _ hk => ?_) ?_
  · rw [dataSym, extract_xor_shift d i k e (by omega) (by omega), if_neg hk, dataSym]
    exact congrArg (syndScale · _) BitVec.xor_zero
  · rw [dataSym, extract_xor_shift d i i e (by omega) (by omega), if_pos rfl, syndScale_xor, dataSym]

/-- R246: an error e in symbol i adds e times its column to the syndrome. -/
theorem syndrome_addSym (w : PWord) (i : Nat) (e : BitVec 4) (hi : i < 36) :
    syndrome (addSym w i e) = syndAdd (syndrome w) (syndScale e (column i)) := by
  unfold addSym syndrome
  split
  next hdata => rw [dataSynd_addSym _ _ _ hdata, foldl_syndAdd_start]
  next hcheck =>
    have hcolumn : 32 + (i - 32) = i := by omega
    refine foldl_syndAdd_update (List.range 4) _ _ (i - 32) _ _ List.nodup_range (List.mem_range.mpr (by omega)) (fun k _ hk => ?_) ?_
    · rw [extract_xor_shift w.chk (i - 32) k e (by omega) (by omega), if_neg hk]
      exact congrArg (syndScale · _) BitVec.xor_zero
    · rw [extract_xor_shift w.chk (i - 32) (i - 32) e (by omega) (by omega), if_pos rfl, syndScale_xor, hcolumn]

/-! ### Check bits -/

theorem checkBits_symbols (d : W128) :
    (checkBits d).extractLsb' 0 4 = (dataSynd d).1 ^^^ (dataSynd d).2.2.1 ^^^ (dataSynd d).2.2.2 ∧
    (checkBits d).extractLsb' 4 4 = (dataSynd d).2.1 ^^^ (dataSynd d).2.2.1 ^^^ gfMul 8 (dataSynd d).2.2.2 ∧
    (checkBits d).extractLsb' 8 4 = (dataSynd d).2.2.1 ∧ (checkBits d).extractLsb' 12 4 = (dataSynd d).2.2.2 :=
  ⟨BitVec.extractLsb'_append_eq_right,
    (BitVec.extractLsb'_append_eq_of_le (by decide)).trans BitVec.extractLsb'_append_eq_right,
    (BitVec.extractLsb'_append_eq_of_le (by decide)).trans
      ((BitVec.extractLsb'_append_eq_of_le (by decide)).trans BitVec.extractLsb'_append_eq_right),
    (BitVec.extractLsb'_append_eq_of_le (by decide)).trans
      ((BitVec.extractLsb'_append_eq_of_le (by decide)).trans BitVec.extractLsb'_append_eq_left)⟩

theorem append_checkSym (c : BitVec 16) :
    (c.extractLsb' 12 4 ++ c.extractLsb' 8 4 ++ c.extractLsb' 4 4 ++ c.extractLsb' 0 4 : BitVec 16) = c := by
  rw [BitVec.extractLsb'_append_extractLsb'_eq_extractLsb' (by rfl), BitVec.extractLsb'_append_extractLsb'_eq_extractLsb' (by rfl),
    BitVec.extractLsb'_append_extractLsb'_eq_extractLsb' (by rfl), BitVec.extractLsb'_eq_self]

/-- The syndrome of a word, symbol by symbol of its check bits. -/
theorem syndrome_eq (d : W128) (c : BitVec 16) : syndrome ⟨d, c⟩ =
    ((dataSynd d).1 ^^^ c.extractLsb' 0 4 ^^^ c.extractLsb' 8 4 ^^^ c.extractLsb' 12 4,
      (dataSynd d).2.1 ^^^ c.extractLsb' 4 4 ^^^ c.extractLsb' 8 4 ^^^ gfMul 8 (c.extractLsb' 12 4),
      (dataSynd d).2.2.1 ^^^ c.extractLsb' 8 4, (dataSynd d).2.2.2 ^^^ c.extractLsb' 12 4) := by
  have hxor (x : BitVec 4) : x ^^^ 0 = x := BitVec.xor_zero
  have hlist : List.range 4 = [0, 1, 2, 3] := rfl
  have h32 : column 32 = (1, 0, 0, 0) := rfl
  have h34 : column 34 = (1, 1, 1, 0) := rfl
  have h35 : column 35 = (1, 8, 0, 1) := rfl
  simp only [syndrome, hlist, List.foldl_cons, List.foldl_nil, Nat.reduceAdd, Nat.reduceMul, h32, column_thirtyThree, h34, h35,
    syndScale, syndAdd, gfMul_one, gfMul_zero, hxor, gfMul_comm _ 8]

theorem syndrome_eq_zero_iff (d : W128) (c : BitVec 16) : syndrome ⟨d, c⟩ = (0, 0, 0, 0) ↔ c = checkBits d := by
  have hself (x : BitVec 4) : x ^^^ x = 0 := BitVec.xor_self
  obtain ⟨k0, k1, k2, k3⟩ := checkBits_symbols d
  rw [syndrome_eq]
  constructor
  · intro h
    simp only [Prod.mk.injEq] at h
    obtain ⟨h0, h1, h2, h3⟩ := h
    have e3 := xor_eq_zero _ _ h3
    have e2 := xor_eq_zero _ _ h2
    have e1 : c.extractLsb' 4 4 = (checkBits d).extractLsb' 4 4 := by
      rw [k1, e2, e3]
      refine xor_eq_zero _ _ ?_
      simpa only [BitVec.xor_assoc, xor_swap] using h1
    have e0 : c.extractLsb' 0 4 = (checkBits d).extractLsb' 0 4 := by
      rw [k0, e2, e3]
      refine xor_eq_zero _ _ ?_
      simpa only [BitVec.xor_assoc, xor_swap] using h0
    rw [← append_checkSym c, ← append_checkSym (checkBits d), ← e3, ← e2, e1, e0, k2, k3, e2, e3]
  · rintro rfl
    simp only [k0, k1, k2, k3, BitVec.xor_assoc, xor_swap, xor_cancel, hself]

/-! ### What a check finds -/

theorem addSym_addSym (w : PWord) (i : Nat) (e : BitVec 4) : addSym (addSym w i e) i e = w := by
  unfold addSym
  split <;> simp

/-- A word whose syndrome is no multiple of a column is not taken for a codeword with one error. -/
theorem checkWord_undecodable (w : PWord) (h : ∀ k < 36, ∀ g, syndrome w ≠ syndScale g (column k)) :
    checkWord w = .bad ∨ checkWord w = .poison := by
  unfold checkWord
  dsimp only
  split
  next hzero => exact absurd hzero (h 0 (by omega) 0)
  next =>
    split
    next => exact .inr rfl
    next =>
      split
      next =>
        split
        next k hk =>
          have hfound := List.find?_some hk
          have hrange := List.mem_range.mp (List.mem_of_find?_eq_some hk)
          simp only [decide_eq_true_eq] at hfound
          exact absurd hfound.2.symm (h k hrange _)
        next => exact .inl rfl
      next hfirst =>
        split
        next hlast =>
          refine absurd ?_ (h 33 (by omega) (syndrome w).2.1)
          rw [syndScale_thirtyThree]
          exact Prod.ext (not_not.mp hfirst) (Prod.ext rfl (Prod.ext hlast.1 hlast.2))
        next => exact .inl rfl

theorem find_column : ∀ i < 36, i ≠ 33 → ∀ e : BitVec 4, e ≠ 0 →
    (List.range 36).find? (fun k => decide ((column k).1 = 1 ∧ syndScale e (column k) = syndScale e (column i))) = some i := by
  decide +kernel

/-- A word whose syndrome is a multiple of one column is corrected at that symbol. -/
theorem checkWord_single (w : PWord) (i : Nat) (e : BitVec 4) (hi : i < 36) (he : e ≠ 0) (h : syndrome w = syndScale e (column i)) :
    checkWord w = .corrected (addSym w i e) i := by
  unfold checkWord
  by_cases hi33 : i = 33
  · subst hi33
    rw [syndScale_thirtyThree] at h
    have he' : ¬ e = 0#4 := he
    simp [h, he']
  · have hfind := find_column i hi hi33 e he
    have hfirst : (syndrome w).1 = e := by rw [h, syndScale_column e i hi hi33]
    have hne : ∀ x : BitVec 4 × BitVec 4 × BitVec 4, syndrome w ≠ (0, x) := fun x hx => he (by rw [← hfirst, hx])
    dsimp only
    rw [if_neg (hne _), if_neg (hne _), if_pos (by rwa [hfirst]), hfirst, h, hfind]

theorem readWord_clean (w : PWord) (h : syndrome w = (0, 0, 0, 0)) : readWord w = some w.data := by
  simp [readWord, checkWord, h]

theorem checkWord_poison (w : PWord) (h : syndrome w = (0, 0xE, 0xF, 0xF)) : checkWord w = .poison := by
  simp [checkWord, h]

theorem syndrome_goodWord (d : W128) : syndrome (goodWord d) = (0, 0, 0, 0) := (syndrome_eq_zero_iff d _).mpr rfl

theorem zero_syndAdd (a : Synd) : syndAdd (0, 0, 0, 0) a = a := by
  have hzero (x : BitVec 4) : 0 ^^^ x = x := BitVec.zero_xor
  simp only [syndAdd, hzero]

@[simp] theorem readWord_goodWord (d : W128) : readWord (goodWord d) = some d := readWord_clean _ (syndrome_goodWord d)

@[simp] theorem readWord_poisonWord : readWord poisonWord = none := by decide +kernel

@[simp] theorem readWord_packWord (v : Option W128) : readWord (packWord v) = v := by
  cases v with
  | none => exact readWord_poisonWord
  | some d => exact readWord_goodWord d

/-- Settles O6 (R246, R247): the check bits solve the four equations of the syndrome one by one; an error adds a multiple of its column to
the syndrome, and no three columns are dependent. -/
theorem wordCodeCorrectsAndDetects : Obligations.WordCodeCorrectsAndDetects := by
  refine ⟨fun d => ⟨syndrome_eq_zero_iff d, readWord_goodWord d⟩, fun d i e hi he => ?_, fun d i j e f hij hj he hf => ?_, fun d => ?_⟩
  · have hsynd : syndrome (addSym (goodWord d) i e) = syndScale e (column i) := by
      rw [syndrome_addSym _ _ _ hi, syndrome_goodWord, zero_syndAdd]
    rw [checkWord_single _ i e hi he hsynd, addSym_addSym]
  · refine checkWord_undecodable _ fun k hk g => ?_
    rw [syndrome_addSym _ _ _ hj, syndrome_addSym _ _ _ (by omega), syndrome_goodWord, zero_syndAdd]
    exact columns_independent i j k e f g (by omega) hj hk (by omega) he hf
  · refine checkWord_poison _ ?_
    rw [syndrome_addSym _ _ _ (by omega), syndrome_addSym _ _ _ (by omega), syndrome_goodWord, zero_syndAdd]
    decide +kernel

end Sys2Proof.Machine

namespace Sys2Proof.Machine

/-! ## Words written and read back (R246 to R249) -/

theorem leNat_toLe (n v : Nat) : leNat (toLe n v) = v % 256 ^ n := by
  induction n generalizing v with
  | zero => simp [toLe, leNat, Nat.mod_one]
  | succ n ih => rw [toLe, leNat, ih, pow_succ', Nat.mod_mul, BitVec.toNat_ofNat]

theorem putAll_at (l : List Byte) (m : List Host.Cell) (a i : Nat) (hi : i < l.length) :
    SMap.at (0 : Byte) (a + i) (Memory.putAll m a l) = l.getD i 0 := by
  induction l generalizing m a i with
  | nil => exact absurd hi (Nat.not_lt_zero i)
  | cons b l ih =>
    cases i with
    | zero =>
      rw [Memory.putAll, putAll_other l _ _ _ (.inl (by omega))]
      exact SMap.at_put_self (0 : Byte) a b m
    | succ i =>
      rw [Memory.putAll, show a + (i + 1) = a + 1 + i by omega, ih _ _ _ (by simpa using hi), List.getD_cons_succ]

/-- The bytes that a word has been written to spell it. -/
theorem setWord_bytes_self (p : Pkg) (a : Nat) (w : PWord) : (p.setWord a w).bytes a 16 = toLe 16 w.data.toNat := by
  have hlength := toLe_length 16 w.data.toNat
  refine List.ext_getElem (by simp [Pkg.bytes, hlength]) fun i hi _ => ?_
  have hi' : i < (toLe 16 w.data.toNat).length := by simpa [Pkg.bytes, hlength] using hi
  simp only [Pkg.bytes, List.getElem_map, List.getElem_range, Pkg.byte, setWord_mem, putAll_at _ _ _ _ hi']
  exact (List.getElem_eq_getD 0).symm

theorem checkOf_setCheck_self (p : Pkg) (a : Nat) (c : BitVec 16) : (p.setCheck a c).checkOf a = c := by
  have hsplit : ((c >>> 8).setWidth 8 ++ c.setWidth 8 : BitVec 16) = c := by
    refine BitVec.eq_of_getLsbD_eq fun k hk => ?_
    rw [BitVec.getLsbD_append]
    by_cases hlow : k < 8
    · simp [hlow]
    · simp [hlow, show k - 8 < 8 by omega, show 8 + (k - 8) = k by omega]
  unfold Pkg.setCheck Pkg.checkOf
  cases hregion : regionOf a <;> simp only [SMap.at_put_self]
  · exact hsplit
  · rw [SMap.at_put_other _ _ _ _ _ (by omega), SMap.at_put_self]
    exact hsplit

/-- A word reads back as it was written. -/
@[simp] theorem word_setWord_self (p : Pkg) (a : Nat) (w : PWord) : (p.setWord a w).word a = w := by
  rw [Pkg.word, setWord_bytes_self, leNat_toLe]
  have hcheck : (p.setWord a w).checkOf a = w.chk := checkOf_setCheck_self _ a w.chk
  rw [hcheck, Nat.mod_eq_of_lt (b := 256 ^ 16) w.data.isLt, BitVec.ofNat_toNat, BitVec.setWidth_eq]

@[simp] theorem sramRead_sramWrite_self (p : Pkg) (a : Nat) (v : Option W128) : (p.sramWrite a v).sramRead a = v := by
  rw [Pkg.sramRead, Pkg.sramWrite, word_setWord_self, readWord_packWord]

theorem sramWrite_byte_other (p : Pkg) (a b : Nat) (v : Option W128) (h : b < a ∨ a + 16 ≤ b) : (p.sramWrite a v).byte b = p.byte b :=
  setWord_byte_other p a b _ h

/-- Settles O7 (R248, R249): a word reads back as it was written, poison too, and a write of a word ends at its last byte. -/
theorem poisonPassesThroughMemory : Obligations.PoisonPassesThroughMemory :=
  ⟨fun p a _ => ⟨word_setWord_self p a poisonWord, sramRead_sramWrite_self p a none⟩,
    fun p a d _ => sramRead_sramWrite_self p a (some d), sramWrite_byte_other⟩

end Sys2Proof.Machine

namespace Sys2Proof.Machine

/-! ## Commands of one tile: what they leave

The commands of chapters 02, 05 and 06 change the state of one tile, some counters of the dictionary, and raise events. -/

/-- q is p with changes in tile n, in the objects that K names, and outside memory. -/
structure TileStep (n : Nat) (K : Nat → Prop) (p q : Pkg) : Prop where
  mem : q.mem = p.mem
  reg : ∀ k, ¬ K k → q.reg k = p.reg k
  tiles : ∀ u, u ≠ n → q.tile u = p.tile u

namespace TileStep

section
variable {n : Nat} {K : Nat → Prop} {p q r : Pkg}

theorem refl (p : Pkg) : TileStep n K p p := ⟨rfl, fun _ _ => rfl, fun _ _ => rfl⟩

theorem trans (hpq : TileStep n K p q) (hqr : TileStep n K q r) : TileStep n K p r where
  mem := hqr.mem.trans hpq.mem
  reg k hk := (hqr.reg k hk).trans (hpq.reg k hk)
  tiles u hu := (hqr.tiles u hu).trans (hpq.tiles u hu)

/-- More objects may be named. -/
theorem mono {L : Nat → Prop} (h : TileStep n K p q) (hKL : ∀ k, K k → L k) : TileStep n L p q where
  mem := h.mem
  reg k hk := h.reg k fun hK => hk (hKL k hK)
  tiles := h.tiles

theorem setTile (x : Tile) (h : TileStep n K p q) : TileStep n K p (q.setTile n x) :=
  h.trans ⟨rfl, fun _ _ => rfl, fun u hu => tile_setTile_other q n u x hu⟩

theorem setMx (m : Matrix) (h : TileStep n K p q) : TileStep n K p (q.setMx n m) := h.setTile _

theorem raise (code unit arg : Nat) (h : TileStep n K p q) : TileStep n K p (q.raise code unit arg) :=
  h.trans ⟨rfl, fun _ _ => rfl, fun _ _ => rfl⟩

theorem setReg {k : Nat} (hk : K k) (v : Nat) (h : TileStep n K p q) : TileStep n K p (q.setReg k v) :=
  h.trans ⟨rfl, fun j hj => reg_setReg_other q j k v fun hjk => hj (hjk ▸ hk), fun _ _ => rfl⟩

theorem bump {k : Nat} (hk : K k) (v : Nat) (h : TileStep n K p q) : TileStep n K p (q.bump k v) := h.setReg hk _

theorem bump64 {k : Nat} (hk : K k) (v : Nat) (h : TileStep n K p q) : TileStep n K p (q.bump64 k v) := h.setReg hk _

/-- As bump, where one object alone is named. -/
theorem bumpKey {k : Nat} (v : Nat) (h : TileStep n (fun j => j = k) p q) : TileStep n (fun j => j = k) p (q.bump k v) :=
  h.bump (K := fun j => j = k) rfl v

theorem setStepPoison (h : TileStep n K p q) : TileStep n K p (q.setStepPoison n) := h.setTile _

theorem poisonedOperand (h : TileStep n K p q) : TileStep n K p (q.poisonedOperand n) := (h.raise 0x3005 n 0).setStepPoison

theorem ite {c : Prop} [Decidable c] (ht : TileStep n K p q) (he : TileStep n K p r) : TileStep n K p (if c then q else r) := by
  split
  · exact ht
  · exact he

theorem foldl {α : Type} {f : Pkg → α → Pkg} (hf : ∀ q a, TileStep n K p q → TileStep n K p (f q a)) (l : List α)
    (h : TileStep n K p q) : TileStep n K p (l.foldl f q) := by
  induction l generalizing q with
  | nil => exact h
  | cons a l ih => exact ih (hf q a h)

/-- The tile's number is mapped as before where no spare_col is among the objects named. -/
theorem physTile (h : TileStep n K p q) (hK : ∀ k, K k → O.spareCol + 16 ≤ k) {t : Nat} (ht : t < 192) : q.physTile t = p.physTile t := by
  have hcol : 4 * (t % 24 / 12 + 2 * (t / 24 / 4)) + t / 24 % 4 < 16 := by omega
  have hreg : q.reg (O.spareCol + 4 * (t % 24 / 12 + 2 * (t / 24 / 4)) + t / 24 % 4) =
      p.reg (O.spareCol + 4 * (t % 24 / 12 + 2 * (t / 24 / 4)) + t / 24 % 4) :=
    h.reg _ fun hk => by have := hK _ hk; omega
  simp only [Pkg.physTile, hreg]

theorem tileCounter (h : TileStep n K p q) (hK : ∀ k, K k → O.spareCol + 16 ≤ k) {t : Nat} (ht : t < 192) (base j : Nat) :
    q.tileCounter base j t = p.tileCounter base j t := by
  simp only [Pkg.tileCounter, h.physTile hK ht]

theorem sameMemory {s t : State} (h : TileStep n K s.pkg t.pkg) : SameMemory s t := fun a => by rw [Pkg.byte, Pkg.byte, h.mem]

theorem sameRegsBut {s t : State} (h : TileStep n K s.pkg t.pkg) : SameRegsBut K s t := h.reg

theorem sameTilesBut {s t : State} (h : TileStep n K s.pkg t.pkg) : SameTilesBut n s t := h.tiles

theorem sameRegs {s t : State} (h : TileStep n (fun _ => False) s.pkg t.pkg) : SameRegs s t := fun k => h.reg k id

end

end TileStep

/-! ### The tile under the plain updates -/

@[simp] theorem tile_setMx_self (p : Pkg) (t : Nat) (m : Matrix) : (p.setMx t m).tile t = { p.tile t with mx := m } :=
  tile_setTile_self p t _

@[simp] theorem tile_bump (p : Pkg) (k v t : Nat) : (p.bump k v).tile t = p.tile t := rfl
@[simp] theorem tile_bump64 (p : Pkg) (k v t : Nat) : (p.bump64 k v).tile t = p.tile t := rfl
@[simp] theorem reg_setMx (p : Pkg) (t : Nat) (m : Matrix) (k : Nat) : (p.setMx t m).reg k = p.reg k := rfl
@[simp] theorem tileCounter_setTile (p : Pkg) (t : Nat) (x : Tile) (base j n : Nat) :
    (p.setTile t x).tileCounter base j n = p.tileCounter base j n := rfl
@[simp] theorem tileCounter_setMx (p : Pkg) (t : Nat) (m : Matrix) (base j n : Nat) :
    (p.setMx t m).tileCounter base j n = p.tileCounter base j n := rfl

@[simp] theorem tile_setStepPoison_self (p : Pkg) (t : Nat) : (p.setStepPoison t).tile t = { p.tile t with stepPoison := true } :=
  tile_setTile_self p t _

@[simp] theorem tile_poisonedOperand_self (p : Pkg) (t : Nat) : (p.poisonedOperand t).tile t = { p.tile t with stepPoison := true } :=
  tile_setStepPoison_self _ t

/-- A counter of the dictionary's per-tile tables lies past the spare columns. -/
theorem tileCounter_le (p : Pkg) (base j n : Nat) : base ≤ p.tileCounter base j n := by
  simp only [Pkg.tileCounter]
  omega

/-! ### SRAM banks (R51, R52) -/

/-- R52: using banks changes their record and the tile's count of lost cycles. -/
theorem bankUse_step {n : Nat} {K : Nat → Prop} {p q : Pkg} (cls cyc off len : Nat) (hn : n < 192)
    (hK : ∀ k, K k → O.spareCol + 16 ≤ k) (hcount : K (p.tileCounter O.tileCounters 2 n)) (h : TileStep n K p q) :
    TileStep n K p (q.bankUse n cls cyc off len).1 := by
  unfold Pkg.bankUse
  split
  · exact h
  · dsimp only
    refine .ite (h.setTile _) ((h.setTile _).bump64 ?_ _)
    rwa [tileCounter_setTile, h.tileCounter hK hn]

theorem bankUse_tile (p : Pkg) (n cls cyc off len : Nat) : ∃ b, (p.bankUse n cls cyc off len).1.tile n = { p.tile n with banks := b } := by
  unfold Pkg.bankUse
  split
  · exact ⟨_, rfl⟩
  · dsimp only
    split
    · exact ⟨_, tile_setTile_self p n _⟩
    · exact ⟨_, tile_setTile_self p n _⟩

theorem bankRows_step {n : Nat} {K : Nat → Prop} {p q : Pkg} (cls cyc c off stride len rows : Nat) (hn : n < 192)
    (hK : ∀ k, K k → O.spareCol + 16 ≤ k) (hcount : K (p.tileCounter O.tileCounters 2 n)) (h : TileStep n K p q) :
    TileStep n K p (q.bankRows n cls cyc c off stride len rows) :=
  .foldl (fun _ _ hq => bankUse_step cls _ _ _ hn hK hcount hq) _ (h.setTile _)

theorem bankRows_tile (p : Pkg) (n cls cyc c off stride len rows : Nat) :
    ∃ b, (p.bankRows n cls cyc c off stride len rows).tile n = { p.tile n with banks := b } := by
  unfold Pkg.bankRows
  dsimp only
  generalize hq : p.setTile n _ = q
  have htile : ∃ b, q.tile n = { p.tile n with banks := b } := ⟨_, by rw [← hq, tile_setTile_self]⟩
  clear hq
  generalize List.range rows = l
  induction l generalizing q with
  | nil => exact htile
  | cons i l ih =>
    refine ih _ ?_
    obtain ⟨b, hb⟩ := bankUse_tile q n cls (cyc + i * c) (off + i * stride) len
    obtain ⟨b', hb'⟩ := htile
    exact ⟨b, by rw [hb, hb']⟩

end Sys2Proof.Machine

namespace Sys2Proof.Machine

/-! ## The accumulator store and the landing of results (R46, R85 to R92) -/

/-- A property that every round keeps holds after the fold. -/
theorem foldl_invariant {α β : Type} (P : β → Prop) {f : β → α → β} (hf : ∀ b a, P b → P (f b a)) (l : List α) {b : β} (h : P b) :
    P (l.foldl f b) := by
  induction l generalizing b with
  | nil => exact h
  | cons a l ih => exact ih (hf b a h)

/-- A list that every round makes one longer. -/
theorem foldl_length {α β γ : Type} {f : List γ × β → α → List γ × β} (hf : ∀ b a, (f b a).1.length = b.1.length + 1) (l : List α)
    (b : List γ × β) : (l.foldl f b).1.length = b.1.length + l.length := by
  induction l generalizing b with
  | nil => rfl
  | cons a l ih => rw [List.foldl_cons, ih, hf, List.length_cons]; omega

/-- Words written at keys that a row of 32 keys does not hold leave that row's words. -/
theorem putRow_word_other (m : Matrix) (r q k : Nat) (l : List AccE) (hl : l.length ≤ 128) (hqr : q ≠ r) (hk : k < 32) :
    { m with acc := m.putRow r l }.word q k = m.word q k := by
  have hround : ∀ (is : List Nat), (∀ i ∈ is, i < 32) → ∀ acc : SMap AccWord,
      (is.foldl (fun acc k => acc.put AccWord.reset (r * 32 + k)
        (packAcc ((List.range 4).map fun i => l.getD (4 * k + i) (m.entry r (4 * k + i))))) acc).at AccWord.reset (q * 32 + k) =
        acc.at AccWord.reset (q * 32 + k) := by
    intro is
    induction is with
    | nil => exact fun _ _ => rfl
    | cons i is ih =>
      intro his acc
      have hi := his i List.mem_cons_self
      rw [List.foldl_cons, ih (fun j hj => his j (List.mem_cons_of_mem i hj)), SMap.at_put_other _ _ _ _ _ (by omega)]
  refine hround _ (fun i hi => ?_) m.acc
  have hlen : ceilDiv l.length 4 ≤ 32 := by unfold ceilDiv; omega
  exact lt_of_lt_of_le (List.mem_range.mp hi) hlen

/-- m' is m after the landing of rows that `rows` names: the other entries, the registers and the streams in flight stay. -/
structure Landed (rows : Nat → Prop) (m m' : Matrix) : Prop where
  w0 : m'.w0 = m.w0
  w1 : m'.w1 = m.w1
  inflight : m'.inflight = m.inflight
  held : m'.held = m.held
  word : ∀ q k, ¬ rows q → k < 32 → m'.word q k = m.word q k

theorem Landed.refl (rows : Nat → Prop) (m : Matrix) : Landed rows m m := ⟨rfl, rfl, rfl, rfl, fun _ _ _ _ => rfl⟩

theorem Landed.trans {rows : Nat → Prop} {m m' m'' : Matrix} (h : Landed rows m m') (h' : Landed rows m' m'') : Landed rows m m'' where
  w0 := h'.w0.trans h.w0
  w1 := h'.w1.trans h.w1
  inflight := h'.inflight.trans h.inflight
  held := h'.held.trans h.held
  word q k hq hk := (h'.word q k hq hk).trans (h.word q k hq hk)

theorem landRow_landed (s : Stream) (seed step : Nat) (bad : Bool) (m : Matrix) (i : Nat) {rows : Nat → Prop}
    (hrow : (s.rowAt (s.asBase + i)).isSome → rows (s.asBase + i)) : Landed rows m (s.landRow seed step bad m i).1 := by
  unfold Stream.landRow
  dsimp only
  split
  next => exact .refl rows m
  next q off hat =>
    refine ⟨rfl, rfl, rfl, rfl, fun r k hr hk => ?_⟩
    have hne : r ≠ s.asBase + i := fun h => hr (h ▸ hrow (by rw [hat]; rfl))
    refine putRow_word_other m _ r k _ ?_ hne hk
    rw [foldl_length (fun _ _ => by simp), List.length_range]
    simp

/-- The rows of the accumulator store that a stream writes. -/
def Stream.names (s : Stream) (r : Nat) : Prop := s.asBase ≤ r ∧ r < s.asBase + s.accRows

theorem rowAt_isSome (s : Stream) (r : Nat) (h : (s.rowAt r).isSome) : s.names r := by
  by_contra hout
  have hnone : s.rowAt r = none := if_neg hout
  rw [hnone] at h
  cases h

/-- The array after rows of a stream have landed, and whether one of them saturated. -/
def Stream.landMany (s : Stream) (seed step n : Nat) (m : Matrix) : Matrix × Bool :=
  (List.range (n - s.landed)).foldl (fun (acc : Matrix × Bool) i =>
    let u := s.landRow seed step s.bad acc.1 (s.landed + i)
    (u.1, acc.2 || u.2)) (m, false)

theorem landMany_landed (s : Stream) (seed step n : Nat) (m : Matrix) :
    Landed s.names m (s.landMany seed step n m).1 := by
  refine foldl_invariant (fun b : Matrix × Bool => Landed s.names m b.1) (fun b i h => ?_) _ (.refl _ m)
  exact h.trans (landRow_landed s _ _ _ _ _ fun hsome => rowAt_isSome s _ hsome)

/-- What landing rows of a stream makes of the tile's array: what is left of the stream goes back in flight. -/
theorem landRows_mx (p : Pkg) (n : Nat) (s : Stream) (upTo : Nat) : ∃ m panel left, Landed s.names (p.tile n).mx m ∧
    (s.accRows ≤ upTo → left = []) ∧
    (p.landRows n s upTo).tile n = { p.tile n with mx := { m with inflight := (p.tile n).mx.inflight ++ left, panel := panel } } := by
  have hland := landMany_landed s (p.reg O.domainSeed) (p.reg O.generatorStep) upTo (p.tile n).mx
  unfold Pkg.landRows
  dsimp only
  split
  · exact ⟨_, _, _, hland, fun h => if_neg (by omega), tile_setMx_self p n _⟩
  · exact ⟨_, _, _, hland, fun h => if_neg (by omega), tile_setMx_self p n _⟩

theorem landRows_step {n : Nat} {p q : Pkg} (s : Stream) (upTo : Nat) (h : TileStep n (fun k => k = O.int32Saturations + n) p q) :
    TileStep n (fun k => k = O.int32Saturations + n) p (q.landRows n s upTo) := by
  refine .ite (((h.setMx _).bump ?_ _).raise _ _ _) (h.setMx _)
  rfl

theorem landDue_step {n : Nat} (p : Pkg) (c : Nat) : TileStep n (fun k => k = O.int32Saturations + n) p (p.landDue n c) := by
  unfold Pkg.landDue
  dsimp only
  split
  · exact .refl p
  · exact .foldl (fun _ s hq => landRows_step s _ hq) _ ((TileStep.refl p).setMx _)

/-- Landing changes the tile's array only. -/
theorem landDue_tile (p : Pkg) (n c : Nat) : ∃ m, (p.landDue n c).tile n = { p.tile n with mx := m } ∧ m.held = (p.tile n).mx.held ∧
    m.w0 = (p.tile n).mx.w0 ∧ m.w1 = (p.tile n).mx.w1 := by
  unfold Pkg.landDue
  dsimp only
  split
  · exact ⟨_, rfl, rfl, rfl, rfl⟩
  · refine foldl_invariant (fun q : Pkg => ∃ m, q.tile n = { p.tile n with mx := m } ∧ m.held = (p.tile n).mx.held ∧
      m.w0 = (p.tile n).mx.w0 ∧ m.w1 = (p.tile n).mx.w1) (fun q s hq => ?_) _ ⟨_, tile_setMx_self p n _, rfl, rfl, rfl⟩
    obtain ⟨m, hm, hheld, hw0, hw1⟩ := hq
    obtain ⟨m', panel, left, hland, -, htile⟩ := landRows_mx q n s (s.dueRows c)
    rw [hm] at hland htile
    exact ⟨_, htile, hland.held.trans hheld, hland.w0.trans hw0, hland.w1.trans hw1⟩

/-! ## The drain queue (R117) -/

/-- What pushing rows of the waiting MDVs changes. -/
theorem mdvPush_spec (now fuel : Nat) (v : VecEng) : ∃ queue mdv, (mdvPush now fuel v).1 = { v with queue := queue, mdv := mdv } ∧
    v.queue <+: queue := by
  induction fuel generalizing v with
  | zero => exact ⟨_, _, rfl, List.prefix_rfl⟩
  | succ fuel ih =>
    unfold mdvPush
    split
    · exact ⟨_, _, rfl, List.prefix_rfl⟩
    · split
      · exact ih { v with mdv := _ }
      · dsimp only
        split
        · split
          · exact ⟨_, _, rfl, List.prefix_rfl⟩
          · exact ⟨_, _, rfl, List.prefix_rfl⟩
        · obtain ⟨queue, mdv, hpush, hprefix⟩ := ih { v with queue := _, mdv := _ }
          exact ⟨queue, mdv, hpush, (List.prefix_append _ _).trans hprefix⟩

/-- Rows waiting at the drain queue change the tile's vector engine, its count of held cycles, and raise events. -/
theorem drainRows_step {n : Nat} {K : Nat → Prop} (p : Pkg) (c : Nat) (hcount : K (p.tileCounter O.vectorCounters 3 n)) :
    TileStep n K p (p.drainRows n c) :=
  .foldl (fun _ _ hq => hq.raise _ _ _) _ (.ite ((TileStep.refl p).setTile _) (((TileStep.refl p).setTile _).bump64 hcount _))

theorem foldl_raise_tile {α : Type} (l : List α) (p : Pkg) (code unit arg n : Nat) :
    (l.foldl (fun q _ => q.raise code unit arg) p).tile n = p.tile n := by
  refine foldl_invariant (fun q : Pkg => q.tile n = p.tile n) (fun q _ h => ?_) l rfl
  exact h

theorem drainRows_tile (p : Pkg) (n c : Nat) :
    (p.drainRows n c).tile n = { p.tile n with vec := (mdvPush c (mdvFuel (p.tile n).vec) (p.tile n).vec).1 } := by
  unfold Pkg.drainRows
  dsimp only
  rw [foldl_raise_tile]
  split
  · exact tile_setTile_self p n _
  · exact tile_setTile_self p n _

end Sys2Proof.Machine

namespace Sys2Proof.Machine

/-! ## The matrix slot (R41 to R48) -/

/-- What a matrix slot meets differs from the state before it in the tile's array and vector engine. -/
theorem atSlot_tile (s : State) (a : MSlot) : ∃ m, (s.atSlot a).pkg.tile a.t.val = { s.pkg.tile a.t.val with
    mx := m, vec := (mdvPush a.cyc (mdvFuel (s.vec a.t)) (s.vec a.t)).1 } := by
  obtain ⟨m, hm, -⟩ := landDue_tile s.pkg a.t.val a.cyc
  refine ⟨m, ?_⟩
  rw [State.atSlot, settle_pkg, drainRows_tile, hm]

theorem atSlot_mem (s : State) (a : MSlot) : (s.atSlot a).pkg.mem = s.pkg.mem :=
  (drainRows_step (K := fun _ => True) _ a.cyc trivial).mem.trans (landDue_step s.pkg a.cyc).mem

@[simp] theorem atSlot_mdesc (s : State) (a : MSlot) : (s.atSlot a).mdesc a = s.mdesc a := by
  obtain ⟨m, hm⟩ := atSlot_tile s a
  simp only [State.mdesc, hm]

section
variable {op : MOp} {s : State} {a : MSlot} (h : MatrixIssues op a s)
include h

/-- A slot that issues does what its instruction does to the package that it meets. -/
theorem slotM_of_issues : slotM s.pkg op a = issueM (s.atSlot a).pkg op a := by
  obtain ⟨-, ⟨hfree, hmdv, hcount, hcols⟩, hlock⟩ := h
  have hdesc := atSlot_mdesc s a
  rw [← hdesc] at hlock
  have hstop : ¬ (((s.atSlot a).pkg.tile a.t.val).free = false ∨ ((s.atSlot a).pkg.tile a.t.val).vec.mdvHeld a.cyc ∨ a.count = 0 ∨
      ((s.atSlot a).mdesc a).nCols = 0) := by
    rintro (hf | hf | hf | hf)
    · rw [hfree] at hf; cases hf
    · rw [hmdv] at hf; cases hf
    · exact hcount hf
    · exact hcols hf
  have hgo : ¬ interlocked ((s.atSlot a).mx a.t) op a ((s.atSlot a).mdesc a) = true := by rw [hlock]; decide
  exact (if_neg hstop).trans (if_neg hgo)

/-- The command of a slot that issues. -/
theorem slot_of_issues (m : String) :
    s.slot m (encodingM s.pkg op a) (limitsM s.pkg op a) (fun p => slotM p op a) = .next (s.settle (issueM (s.atSlot a).pkg op a)) := by
  obtain ⟨hruns, henc, hlim⟩ := h.1
  rw [henc, hlim, slot_next, on_runs s .data _ hruns, slotM_of_issues h]

end

section
variable {s : State} {a : MSlot}
theorem exec_mlw (h : MatrixIssues .mlw a s) : exec (.mlw a) s = .next (s.settle (issueMlw (s.atSlot a).pkg a)) := slot_of_issues h "MLW"
theorem exec_mws (h : MatrixIssues .mws a s) : exec (.mws a) s = .next (s.settle (issueStream (s.atSlot a).pkg false a)) := slot_of_issues h "MWS"
theorem exec_mwt (h : MatrixIssues .mwt a s) : exec (.mwt a) s = .next (s.settle (issueStream (s.atSlot a).pkg true a)) := slot_of_issues h "MWT"
theorem exec_mdr (h : MatrixIssues .mdr a s) : exec (.mdr a) s = .next (s.settle (issueMdr (s.atSlot a).pkg a)) := slot_of_issues h "MDR"
theorem exec_mdv (h : MatrixIssues .mdv a s) : exec (.mdv a) s = .next (s.settle (issueMdv (s.atSlot a).pkg a)) := slot_of_issues h "MDV"
theorem exec_mclr (h : MatrixIssues .mclr a s) : exec (.mclr a) s = .next (s.settle (issueMclr (s.atSlot a).pkg a)) := slot_of_issues h "MCLR"
end

/-- The counters of R58 of tile n that a package has. -/
theorem matrixCounter_past_spareCol {s : State} {n : TileNo} : ∀ k, MatrixCounter s n k → O.spareCol + 16 ≤ k := by
  rintro k ⟨j, -, rfl⟩
  exact le_trans (by decide : O.spareCol + 16 ≤ O.tileCounters) (tileCounter_le s.pkg O.tileCounters j n.val)

theorem matrixCounter_mk (s : State) (n : TileNo) {j : Nat} (hj : j < 3) : MatrixCounter s n (s.pkg.tileCounter O.tileCounters j n.val) :=
  ⟨j, hj, rfl⟩

/-! ### MLW (R35, R41) -/

/-- The array with a panel in the register that sel names, loading until a cycle. -/
def Matrix.withPanel (m : Matrix) (sel : Bool) (w : WReg) (busy : Nat) : Matrix :=
  { (if sel then { m with w1 := w } else { m with w0 := w }) with loadBusy := busy }

section
variable (m : Matrix) (sel : Bool) (w : WReg) (busy : Nat)
@[simp] theorem withPanel_wreg_self : (m.withPanel sel w busy).wreg sel = w := by cases sel <;> rfl
@[simp] theorem withPanel_wreg_other : (m.withPanel sel w busy).wreg (!sel) = m.wreg (!sel) := by cases sel <;> rfl
@[simp] theorem withPanel_loadBusy : (m.withPanel sel w busy).loadBusy = busy := rfl
@[simp] theorem withPanel_acc : (m.withPanel sel w busy).acc = m.acc := by cases sel <;> rfl
@[simp] theorem withPanel_inflight : (m.withPanel sel w busy).inflight = m.inflight := by cases sel <;> rfl
end

/-- The package once its tile reads the rows of a panel, before a poisoned word counts. -/
def Pkg.panelLoaded (p : Pkg) (a : MSlot) : Pkg :=
  let x := mdesc (p.tile a.t.val).md a.desc.val
  (p.setMx a.t.val ((p.tile a.t.val).mx.withPanel a.wsel (p.loadPanel a) (a.cyc + 136))).bankRows a.t.val bankLoad a.cyc 1 x.src x.stride
    (packedBytes x.fmt (if a.tr then a.count.toNat else x.nCols)) (if a.tr then x.nCols else a.count.toNat)

theorem issueMlw_eq (p : Pkg) (a : MSlot) :
    issueMlw p a = if (p.loadPanel a).poison then (p.panelLoaded a).poisonedOperand a.t.val else p.panelLoaded a := rfl

theorem issueMlw_step (s : State) (a : MSlot) : TileStep a.t.val (MatrixCounter s a.t) s.pkg (issueMlw s.pkg a) := by
  have hrows : TileStep a.t.val (MatrixCounter s a.t) s.pkg (s.pkg.panelLoaded a) :=
    bankRows_step _ _ _ _ _ _ _ a.t.isLt matrixCounter_past_spareCol (matrixCounter_mk s a.t (by omega)) ((TileStep.refl s.pkg).setMx _)
  rw [issueMlw_eq]
  exact .ite hrows.poisonedOperand hrows

theorem issueMlw_tile (p : Pkg) (a : MSlot) : ∃ b poison, (issueMlw p a).tile a.t.val = { p.tile a.t.val with
    mx := (p.tile a.t.val).mx.withPanel a.wsel (p.loadPanel a) (a.cyc + 136), banks := b, stepPoison := poison } := by
  obtain ⟨b, hb⟩ : ∃ b, (p.panelLoaded a).tile a.t.val = { (p.setMx a.t.val _).tile a.t.val with banks := b } := bankRows_tile _ _ _ _ _ _ _ _ _
  rw [tile_setMx_self] at hb
  rw [issueMlw_eq]
  split
  · exact ⟨b, true, by rw [tile_poisonedOperand_self, hb]⟩
  · exact ⟨b, _, hb⟩

theorem mlw_issues (s : State) (a : MSlot) (h : MatrixIssues .mlw a s) :
    ∃ t, exec (.mlw a) s = .next t ∧ (t.mx a.t).wreg a.wsel = (s.atSlot a).pkg.loadPanel a ∧
      (t.mx a.t).wreg (!a.wsel) = ((s.atSlot a).mx a.t).wreg (!a.wsel) ∧ (t.mx a.t).loadBusy = a.cyc + 136 ∧
      (t.mx a.t).acc = ((s.atSlot a).mx a.t).acc ∧ (t.mx a.t).inflight = ((s.atSlot a).mx a.t).inflight ∧
      t.vec a.t = (s.atSlot a).vec a.t ∧ t.seqr a.t = (s.atSlot a).seqr a.t ∧ SameMemory (s.atSlot a) t ∧
      SameRegsBut (MatrixCounter (s.atSlot a) a.t) (s.atSlot a) t ∧ SameTilesBut a.t.val (s.atSlot a) t := by
  have hstep := issueMlw_step (s.atSlot a) a
  obtain ⟨b, poison, htile⟩ := issueMlw_tile (s.atSlot a).pkg a
  refine ⟨_, exec_mlw h, ?_, ?_, ?_, ?_, ?_, ?_, ?_, hstep.sameMemory, hstep.sameRegsBut, hstep.sameTilesBut⟩ <;>
    simp only [State.mx, State.vec, State.seqr, settle_pkg, htile, withPanel_wreg_self, withPanel_wreg_other, withPanel_loadBusy,
      withPanel_acc, withPanel_inflight]

/-! ### MWS and MWT (R41 to R47) -/

theorem settleGap_step {s : State} (n : TileNo) (c : Nat) : TileStep n.val (MatrixCounter s n) s.pkg (s.pkg.settleGap n.val c) :=
  .ite ((TileStep.refl s.pkg).bump64 (matrixCounter_mk s n (by omega)) _) (.refl s.pkg)

@[simp] theorem settleGap_tile (p : Pkg) (n c m : Nat) : (p.settleGap n c).tile m = p.tile m := by
  unfold Pkg.settleGap
  dsimp only
  split <;> rfl

/-- The array with one more stream, its path busy until a cycle. -/
def Matrix.withStream (m : Matrix) (s : Stream) (busy : Nat) : Matrix :=
  { m with inflight := m.inflight ++ [s], pathBusy := busy, activeEnd := busy }

/-- The package once a stream has entered, before a poisoned word or a refused pair counts. -/
def Pkg.streamEntered (p : Pkg) (trans : Bool) (a : MSlot) : Pkg :=
  let x := mdesc (p.tile a.t.val).md a.desc.val
  let st := p.makeStream trans a
  let q := (p.settleGap a.t.val a.cyc).bump64 ((p.settleGap a.t.val a.cyc).tileCounter O.tileCounters 0 a.t.val) (st.rows.length * st.c)
  (q.setMx a.t.val (((p.settleGap a.t.val a.cyc).tile a.t.val).mx.withStream st (a.cyc + st.rows.length * st.c))).bankRows
    a.t.val bankStream a.cyc st.c x.src x.stride (packedBytes x.fmt (if trans then x.nCols else st.w.k)) st.rows.length

/-- A poisoned row of the stream counts. -/
def Pkg.streamRead (p : Pkg) (trans : Bool) (a : MSlot) : Pkg :=
  if (p.makeStream trans a).rows.any (·.poison) then (p.streamEntered trans a).poisonedOperand a.t.val else p.streamEntered trans a

theorem issueStream_eq (p : Pkg) (trans : Bool) (a : MSlot) : issueStream p trans a =
    if (p.makeStream trans a).bad then (p.streamRead trans a).raise 0x3008 a.t.val 0 else p.streamRead trans a := rfl

theorem issueStream_step (s : State) (trans : Bool) (a : MSlot) :
    TileStep a.t.val (MatrixCounter s a.t) s.pkg (issueStream s.pkg trans a) := by
  have hgap := settleGap_step (s := s) a.t a.cyc
  have hcount : MatrixCounter s a.t ((s.pkg.settleGap a.t.val a.cyc).tileCounter O.tileCounters 0 a.t.val) := by
    rw [hgap.tileCounter matrixCounter_past_spareCol a.t.isLt]
    exact matrixCounter_mk s a.t (by omega)
  have hrows : TileStep a.t.val (MatrixCounter s a.t) s.pkg (s.pkg.streamEntered trans a) :=
    bankRows_step _ _ _ _ _ _ _ a.t.isLt matrixCounter_past_spareCol (matrixCounter_mk s a.t (by omega)) ((hgap.bump64 hcount _).setMx _)
  have hread : TileStep a.t.val (MatrixCounter s a.t) s.pkg (s.pkg.streamRead trans a) := .ite hrows.poisonedOperand hrows
  rw [issueStream_eq]
  exact .ite (hread.raise _ _ _) hread

theorem streamRead_tile (p : Pkg) (trans : Bool) (a : MSlot) : ∃ b poison, (p.streamRead trans a).tile a.t.val = { p.tile a.t.val with
    mx := (p.tile a.t.val).mx.withStream (p.makeStream trans a)
      (a.cyc + (p.makeStream trans a).rows.length * (p.makeStream trans a).c)
    banks := b, stepPoison := poison } := by
  obtain ⟨b, hb⟩ : ∃ b, (p.streamEntered trans a).tile a.t.val = { (Pkg.setMx _ a.t.val _).tile a.t.val with banks := b } :=
    bankRows_tile _ _ _ _ _ _ _ _ _
  rw [tile_setMx_self, tile_bump64, settleGap_tile] at hb
  unfold Pkg.streamRead
  split
  · exact ⟨b, true, by rw [tile_poisonedOperand_self, hb]⟩
  · exact ⟨b, _, hb⟩

theorem issueStream_tile (p : Pkg) (trans : Bool) (a : MSlot) : (issueStream p trans a).tile a.t.val = (p.streamRead trans a).tile a.t.val := by
  rw [issueStream_eq]
  split <;> rfl

theorem makeStream_rows_length (p : Pkg) (trans : Bool) (a : MSlot) : (p.makeStream trans a).rows.length = a.count.toNat := by
  simp [Pkg.makeStream]

/-- What a stream that enters makes of the state that its slot meets. -/
theorem stream_enters (s : State) (a : MSlot) (trans : Bool) (t : State) (ht : t = s.settle (issueStream (s.atSlot a).pkg trans a)) :
    ∃ st, (t.mx a.t).inflight = ((s.atSlot a).mx a.t).inflight ++ [st] ∧
      st = (s.atSlot a).pkg.makeStream trans a ∧ st.rows.length = a.count.toNat ∧ st.issue = a.cyc ∧
      st.asBase = (s.mdesc a).asBase ∧ st.c = streamC (s.mdesc a) a.part.toNat ∧ st.lat = streamF (s.mdesc a) ∧
      (t.mx a.t).pathBusy = a.cyc + a.count.toNat * st.c ∧ (t.mx a.t).acc = ((s.atSlot a).mx a.t).acc ∧
      (t.mx a.t).w0 = ((s.atSlot a).mx a.t).w0 ∧ (t.mx a.t).w1 = ((s.atSlot a).mx a.t).w1 ∧
      t.vec a.t = (s.atSlot a).vec a.t ∧ SameMemory (s.atSlot a) t ∧
      SameRegsBut (MatrixCounter (s.atSlot a) a.t) (s.atSlot a) t ∧ SameTilesBut a.t.val (s.atSlot a) t := by
  subst ht
  have hstep := issueStream_step (s.atSlot a) trans a
  obtain ⟨b, poison, htile⟩ := streamRead_tile (s.atSlot a).pkg trans a
  have hdesc := atSlot_mdesc s a
  rw [← issueStream_tile, makeStream_rows_length] at htile
  refine ⟨_, ?_, rfl, makeStream_rows_length _ _ _, rfl, ?_, ?_, ?_, ?_, ?_, ?_, ?_, ?_, hstep.sameMemory, hstep.sameRegsBut, hstep.sameTilesBut⟩
  · simp only [State.mx, settle_pkg, htile, Matrix.withStream]
  · rw [← hdesc]; rfl
  · rw [← hdesc]; rfl
  · rw [← hdesc]; rfl
  all_goals simp only [State.mx, State.vec, settle_pkg, htile, Matrix.withStream]

end Sys2Proof.Machine

namespace Sys2Proof.Machine

/-! ## Words of tile SRAM (R34, R249) -/

section
variable (p : Pkg) (a : Nat) (w : PWord) (c : BitVec 16) (v : Option W128)

@[simp] theorem setCheck_tiles : (p.setCheck a c).tiles = p.tiles := by unfold Pkg.setCheck; split <;> rfl
@[simp] theorem setWord_tiles : (p.setWord a w).tiles = p.tiles := setCheck_tiles _ a _
@[simp] theorem sramWrite_dict : (p.sramWrite a v).dict = p.dict := setWord_dict p a _
@[simp] theorem sramWrite_tiles : (p.sramWrite a v).tiles = p.tiles := setWord_tiles p a _

end

theorem regionOf_past_memory (a : Nat) (ha : tileBase ≤ a) : regionOf a ≠ .hbm ∧ regionOf a ≠ .lpddr := by
  simp only [regionOf, tileBase, lpddrBase] at *
  rw [if_neg (by omega), if_neg (by omega), if_neg (by omega), if_neg (by omega)]
  split
  · decide
  · split
    · decide
    · split <;> decide

/-- Past the memory tiers, check bits stand by themselves (R250). -/
theorem checkOf_past_memory (p : Pkg) (a : Nat) (ha : tileBase ≤ a) : p.checkOf a = p.sramChk.at 0 (a / 16) := by
  obtain ⟨hhbm, hlpddr⟩ := regionOf_past_memory a ha
  unfold Pkg.checkOf
  cases hregion : regionOf a <;> first | rfl | contradiction

theorem setCheck_past_memory (p : Pkg) (a : Nat) (c : BitVec 16) (ha : tileBase ≤ a) :
    p.setCheck a c = { p with sramChk := p.sramChk.put 0 (a / 16) c } := by
  obtain ⟨hhbm, hlpddr⟩ := regionOf_past_memory a ha
  unfold Pkg.setCheck
  cases hregion : regionOf a <;> first | rfl | contradiction

/-- A word written past the memory tiers leaves every other such word. -/
theorem word_setWord_other (p : Pkg) (a b : Nat) (w : PWord) (ha : tileBase ≤ a) (hb : tileBase ≤ b) (ha16 : a % 16 = 0) (hb16 : b % 16 = 0)
    (hne : a ≠ b) : (p.setWord b w).word a = p.word a := by
  have hbytes : (p.setWord b w).bytes a 16 = p.bytes a 16 :=
    List.map_congr_left fun i hi => setWord_byte_other p b (a + i) w (by have := List.mem_range.mp hi; omega)
  have hcheck : (p.setWord b w).checkOf a = p.checkOf a := by
    rw [checkOf_past_memory _ a ha, checkOf_past_memory _ a ha, Pkg.setWord, setCheck_past_memory _ b _ hb]
    exact SMap.at_put_other _ _ _ _ _ (by omega)
  rw [Pkg.word, Pkg.word, hbytes, hcheck]

/-- A list of words, each written at its address. -/
def Pkg.writeWords (p : Pkg) (l : List (Nat × Option W128)) : Pkg := l.foldl (fun q e => q.sramWrite e.1 e.2) p

section
variable (p : Pkg) (l : List (Nat × Option W128))

@[simp] theorem writeWords_dict : (p.writeWords l).dict = p.dict := by
  refine foldl_invariant (fun q : Pkg => q.dict = p.dict) (fun q e h => ?_) l rfl
  rw [sramWrite_dict, h]

@[simp] theorem writeWords_tiles : (p.writeWords l).tiles = p.tiles := by
  refine foldl_invariant (fun q : Pkg => q.tiles = p.tiles) (fun q e h => ?_) l rfl
  rw [sramWrite_tiles, h]

@[simp] theorem writeWords_tile (u : Nat) : (p.writeWords l).tile u = p.tile u := by rw [Pkg.tile, writeWords_tiles, Pkg.tile]
@[simp] theorem writeWords_reg (k : Nat) : (p.writeWords l).reg k = p.reg k := by rw [Pkg.reg, writeWords_dict, Pkg.reg]

theorem writeWords_byte_other (b : Nat) (hout : ∀ e ∈ l, b < e.1 ∨ e.1 + 16 ≤ b) : (p.writeWords l).byte b = p.byte b := by
  induction l generalizing p with
  | nil => rfl
  | cons e l ih =>
    rw [Pkg.writeWords, List.foldl_cons]
    exact (ih _ fun e' he' => hout e' (List.mem_cons_of_mem e he')).trans (sramWrite_byte_other p e.1 b e.2 (hout e List.mem_cons_self))

/-- Words that none of the writes meets read as before. -/
theorem writeWords_read_other (a : Nat) (ha : tileBase ≤ a) (ha16 : a % 16 = 0)
    (hl : ∀ e ∈ l, tileBase ≤ e.1 ∧ e.1 % 16 = 0 ∧ a ≠ e.1) : (p.writeWords l).sramRead a = p.sramRead a := by
  induction l generalizing p with
  | nil => rfl
  | cons e l ih =>
    obtain ⟨hbase, h16, hne⟩ := hl e List.mem_cons_self
    rw [Pkg.writeWords, List.foldl_cons]
    refine (ih _ fun e' he' => hl e' (List.mem_cons_of_mem e he')).trans ?_
    rw [Pkg.sramRead, Pkg.sramWrite, word_setWord_other p a e.1 _ ha hbase ha16 h16 hne, Pkg.sramRead]

/-- A word reads back as the writes at its address wrote it, where they all write the same. -/
theorem writeWords_read (a : Nat) (v : Option W128) (ha : tileBase ≤ a) (ha16 : a % 16 = 0) (hmem : (a, v) ∈ l)
    (hl : ∀ e ∈ l, tileBase ≤ e.1 ∧ e.1 % 16 = 0 ∧ (a = e.1 → e.2 = v)) : (p.writeWords l).sramRead a = v := by
  induction l using List.reverseRecOn generalizing p with
  | nil => exact absurd hmem List.not_mem_nil
  | append_singleton l e ih =>
    obtain ⟨hbase, h16, hsame⟩ := hl e (List.mem_append_right l List.mem_cons_self)
    rw [Pkg.writeWords, List.foldl_append, List.foldl_cons, List.foldl_nil]
    by_cases hae : a = e.1
    · rw [← hae, sramRead_sramWrite_self, hsame hae]
    · rw [Pkg.sramRead, Pkg.sramWrite, word_setWord_other _ a e.1 _ ha hbase ha16 h16 hae]
      refine ih p ?_ fun e' he' => hl e' (List.mem_append_left _ he')
      rcases List.mem_append.mp hmem with h | h
      · exact h
      · exact absurd (congrArg Prod.fst (List.mem_singleton.mp h)) hae

end

/-! ### MDR (R41, R46) -/

/-- The words that an MDR writes. -/
def mdrWords (m : Matrix) (n : Nat) (x : MDesc) (count : Nat) : List (Nat × Option W128) :=
  (List.range count).flatMap fun i => (List.range 32).map fun k => (sramAddr n (x.src + i * x.stride + 16 * k), (m.word (x.asBase + i) k).packed)

theorem mem_mdrWords (m : Matrix) (n : Nat) (x : MDesc) (count : Nat) (e : Nat × Option W128) : e ∈ mdrWords m n x count ↔
    ∃ i < count, ∃ k < 32, (sramAddr n (x.src + i * x.stride + 16 * k), (m.word (x.asBase + i) k).packed) = e := by
  simp [mdrWords]

theorem issueMdr_eq (p : Pkg) (a : MSlot) : issueMdr p a =
    (p.bankRows a.t.val bankDrain a.cyc 1 (mdesc (p.tile a.t.val).md a.desc.val).src (mdesc (p.tile a.t.val).md a.desc.val).stride 512
      a.count.toNat).writeWords (mdrWords ((p.landDue a.t.val (a.cyc + a.count.toNat - 1)).tile a.t.val).mx a.t.val
        (mdesc (p.tile a.t.val).md a.desc.val) a.count.toNat) := by
  unfold issueMdr Pkg.writeWords mdrWords
  rw [List.foldl_flatMap]
  refine List.foldl_ext _ _ _ fun q i _ => ?_
  rw [List.foldl_map]
  refine List.foldl_ext _ _ _ fun q k hk => ?_
  have hk32 := List.mem_range.mp hk
  simp [Matrix.row, hk32]

theorem bankRows_mdr_step (s : State) (a : MSlot) (off stride len rows : Nat) : TileStep a.t.val (MatrixCounter s a.t) s.pkg
    (s.pkg.bankRows a.t.val bankDrain a.cyc 1 off stride len rows) :=
  bankRows_step _ _ _ _ _ _ _ a.t.isLt matrixCounter_past_spareCol (matrixCounter_mk s a.t (by omega)) (.refl s.pkg)

theorem sramAddr_inj (n off off' : Nat) : sramAddr n off = sramAddr n off' ↔ off = off' := by
  simp only [sramAddr]
  omega

/-- Rows that lie apart do not share a word. -/
theorem row_word_inj {src stride i j k l : Nat} (hstride : 512 ≤ stride) (hk : k < 32) (hl : l < 32)
    (h : src + i * stride + 16 * k = src + j * stride + 16 * l) : i = j ∧ k = l := by
  have hij : i = j := by
    rcases Nat.lt_trichotomy i j with hlt | heq | hlt
    · have := Nat.mul_le_mul_right stride (Nat.succ_le_of_lt hlt)
      rw [Nat.succ_mul] at this
      omega
    · exact heq
    · have := Nat.mul_le_mul_right stride (Nat.succ_le_of_lt hlt)
      rw [Nat.succ_mul] at this
      omega
  subst hij
  exact ⟨rfl, by omega⟩

theorem mdr_issues (s : State) (a : MSlot) (h : MatrixIssues .mdr a s) :
    ∃ t, exec (.mdr a) s = .next t ∧ t.mx a.t = (s.atSlot a).mx a.t ∧ t.vec a.t = (s.atSlot a).vec a.t ∧
      (512 ≤ (s.mdesc a).stride → (s.mdesc a).src % 16 = 0 → (s.mdesc a).stride % 16 = 0 →
        ∀ i < a.count.toNat, ∀ k < 32,
          t.pkg.sramRead (sramAddr a.t.val ((s.mdesc a).src + i * (s.mdesc a).stride + 16 * k)) =
            ((((s.atSlot a).landed a.t (a.cyc + a.count.toNat - 1)).mx a.t).word ((s.mdesc a).asBase + i) k).packed) ∧
      SameRegsBut (MatrixCounter (s.atSlot a) a.t) (s.atSlot a) t ∧ SameTilesBut a.t.val (s.atSlot a) t ∧
      SameMemoryBut (fun b => ∃ i < a.count.toNat,
        sramAddr a.t.val ((s.mdesc a).src + i * (s.mdesc a).stride) ≤ b ∧
        b < sramAddr a.t.val ((s.mdesc a).src + i * (s.mdesc a).stride) + 512) s t := by
  have hstep := bankRows_mdr_step (s.atSlot a) a (s.mdesc a).src (s.mdesc a).stride 512 a.count.toNat
  obtain ⟨b, htile⟩ := bankRows_tile (s.atSlot a).pkg a.t.val bankDrain a.cyc 1 (s.mdesc a).src (s.mdesc a).stride 512 a.count.toNat
  have hwords := mem_mdrWords (((s.atSlot a).landed a.t (a.cyc + a.count.toNat - 1)).mx a.t) a.t.val (s.mdesc a) a.count.toNat
  refine ⟨_, exec_mdr h, ?_⟩
  have hdesc : mdesc (((s.atSlot a).pkg.tile a.t.val)).md a.desc.val = s.mdesc a := atSlot_mdesc s a
  rw [issueMdr_eq, hdesc]
  generalize hq : Pkg.bankRows _ _ _ _ _ _ _ _ _ = q at hstep htile
  refine ⟨?_, ?_, fun hstride hsrc hstride16 i hi k hk => ?_, fun r hr => ?_, fun u hu => ?_, fun b hb => ?_⟩
  · rw [State.mx, settle_pkg, writeWords_tile, htile]
  · rw [State.vec, settle_pkg, writeWords_tile, htile]
  · have haddr : ∀ i k, tileBase ≤ sramAddr a.t.val ((s.mdesc a).src + i * (s.mdesc a).stride + 16 * k) ∧
        sramAddr a.t.val ((s.mdesc a).src + i * (s.mdesc a).stride + 16 * k) % 16 = 0 := by
      intro i k
      have hmul : i * (s.mdesc a).stride % 16 = 0 := by rw [Nat.mul_mod, hstride16, Nat.mul_zero, Nat.zero_mod]
      simp only [sramAddr, tileBase, tileSize]
      omega
    refine writeWords_read q _ _ _ (haddr i k).1 (haddr i k).2 ((hwords _).mpr ⟨i, hi, k, hk, rfl⟩) fun e he => ?_
    obtain ⟨j, hj, l, hl, rfl⟩ := (hwords e).mp he
    refine ⟨(haddr j l).1, (haddr j l).2, fun hsame => ?_⟩
    obtain ⟨hij, hkl⟩ := row_word_inj hstride hk hl ((sramAddr_inj _ _ _).mp hsame)
    rw [hij, hkl]
  · exact (writeWords_reg q _ r).trans (hstep.reg r hr)
  · exact (writeWords_tile q _ u).trans (hstep.tiles u hu)
  · rw [settle_pkg, writeWords_byte_other, Pkg.byte, hstep.mem, atSlot_mem, Pkg.byte]
    intro e he
    obtain ⟨j, hj, l, hl, rfl⟩ := (hwords e).mp he
    by_contra hout
    refine hb ⟨j, hj, ?_⟩
    simp only [sramAddr] at hout ⊢
    omega

/-! ### MDV (R41, R117) -/

/-- With nothing else waiting, all rows of an MDV that finds room are pushed. -/
theorem mdvPush_all (now : Nat) (rows : List (List AccWord)) (fuel : Nat) (v : VecEng) (want : Nat) (held : Bool)
    (hmdv : v.mdv = [⟨rows, want, held⟩]) (hroom : v.queue.length + rows.length ≤ 32) (hfuel : rows.length ≤ fuel) :
    (mdvPush now fuel v).1.queue.length = v.queue.length + rows.length := by
  induction rows generalizing fuel v want held with
  | nil =>
    have hnone : ∀ (fuel : Nat) (v : VecEng), v.mdv = [] → (mdvPush now fuel v).1 = v := by
      intro fuel v hv
      cases fuel with
      | zero => rfl
      | succ fuel => rw [mdvPush, hv]
    cases fuel with
    | zero => rfl
    | succ fuel =>
      rw [mdvPush, hmdv]
      dsimp only
      rw [hnone _ _ rfl, List.length_nil, Nat.add_zero]
  | cons row rows ih =>
    cases fuel with
    | zero => cases hfuel
    | succ fuel =>
      rw [List.length_cons] at hroom hfuel
      rw [mdvPush, hmdv]
      dsimp only
      rw [if_neg (by omega)]
      dsimp only
      rw [ih _ _ _ _ rfl (by simp; omega) (by omega)]
      simp
      omega

theorem mdv_issues (s : State) (a : MSlot) (h : MatrixIssues .mdv a s) :
    ∃ t, exec (.mdv a) s = .next t ∧ ((s.atSlot a).vec a.t).queue <+: (t.vec a.t).queue ∧
      (((s.atSlot a).vec a.t).mdv = [] → ((s.atSlot a).vec a.t).queue.length + a.count.toNat ≤ 32 →
        (t.vec a.t).queue.length = ((s.atSlot a).vec a.t).queue.length + a.count.toNat) ∧
      (t.vec a.t).regs = ((s.atSlot a).vec a.t).regs ∧ t.mx a.t = (s.atSlot a).mx a.t ∧ SameMemory (s.atSlot a) t ∧
      SameRegsBut (fun k => k = (s.atSlot a).pkg.tileCounter O.vectorCounters 3 a.t.val) (s.atSlot a) t ∧
      SameTilesBut a.t.val (s.atSlot a) t := by
  refine ⟨_, exec_mdv h, ?_⟩
  unfold issueMdv
  dsimp only
  generalize hstart : List.foldl _ a.cyc _ = start
  generalize hrows : List.map _ (List.range a.count.toNat) = rows
  have hlength : rows.length = a.count.toNat := by rw [← hrows, List.length_map, List.length_range]
  generalize hv : VecEng.mk _ _ _ _ _ _ _ _ _ _ _ _ _ _ _ = v
  have hqueue : v.queue = ((s.atSlot a).vec a.t).queue := by rw [← hv]
  have hregs : v.regs = ((s.atSlot a).vec a.t).regs := by rw [← hv]
  have hmdv : v.mdv = ((s.atSlot a).vec a.t).mdv ++ [⟨rows, start, false⟩] := by rw [← hv]
  obtain ⟨queue, mdv, hpush, hprefix⟩ := mdvPush_spec a.cyc (mdvFuel v) v
  generalize hq : Pkg.setTile _ _ _ = q
  have hstep : TileStep a.t.val (fun k => k = (s.atSlot a).pkg.tileCounter O.vectorCounters 3 a.t.val) (s.atSlot a).pkg q :=
    hq ▸ (TileStep.refl _).setTile _
  have htile : q.tile a.t.val = { (s.atSlot a).pkg.tile a.t.val with vec := v } := by rw [← hq, tile_setTile_self]
  have hcounter : q.tileCounter O.vectorCounters 3 a.t.val = (s.atSlot a).pkg.tileCounter O.vectorCounters 3 a.t.val := by
    rw [← hq, tileCounter_setTile]
  have hdrain := hstep.trans (drainRows_step q a.cyc hcounter)
  refine ⟨?_, fun hempty hroom => ?_, ?_, ?_, hdrain.sameMemory, hdrain.sameRegsBut, hdrain.sameTilesBut⟩ <;>
    simp only [State.vec, State.mx, settle_pkg, drainRows_tile, htile]
  · rw [hpush, ← hqueue]
    exact hprefix
  · rw [mdvPush_all a.cyc rows _ v start false (by rw [hmdv, hempty, List.nil_append]) (by rw [hqueue, hlength]; exact hroom)
      (by rw [mdvFuel, hlength]; omega), hqueue, hlength]
  · rw [hpush, ← hregs]

/-! ### MCLR (R41, R89, R97) -/

/-- A read of a store of which the keys that a test names have been dropped. -/
theorem at_filter_keys {α : Type} (d : α) (f : Nat → Bool) (k : Nat) (m : SMap α) :
    SMap.at d k (m.filter fun e => f e.1) = if f k then SMap.at d k m else d := by
  induction m with
  | nil => simp
  | cons e m ih =>
    obtain ⟨i, v⟩ := e
    by_cases hi : f i
    · simp only [List.filter_cons, hi, if_true]
      by_cases hik : i = k
      · subst hik
        simp [SMap.at, hi]
      · simpa [SMap.at, hik] using ih
    · rw [List.filter_cons, if_neg hi]
      rw [ih]
      by_cases hik : i = k
      · subst hik
        simp [hi]
      · simp [SMap.at, hik]

@[simp] theorem reset_entry (i : Nat) : AccWord.reset.entry i = AccE.reset := by
  have hread : readWord AccWord.reset.word = some 0 := by decide +kernel
  unfold AccWord.entry
  rw [hread]
  simp [AccWord.reset, AccE.reset]

theorem mclr_issues (s : State) (a : MSlot) (h : MatrixIssues .mclr a s) :
    ∃ t, exec (.mclr a) s = .next t ∧ SameMemory (s.atSlot a) t ∧ SameRegs (s.atSlot a) t ∧
      SameTilesBut a.t.val (s.atSlot a) t ∧ t.vec a.t = (s.atSlot a).vec a.t ∧
      (∀ r e, e < 128 → (t.mx a.t).entry r e =
        if (s.mdesc a).asBase ≤ r ∧ r < (s.mdesc a).asBase + a.count.toNat then AccE.reset
        else ((s.atSlot a).mx a.t).entry r e) ∧
      ∀ r, (t.mx a.t).rows.at AccRow.reset r =
        if (s.mdesc a).asBase ≤ r ∧ r < (s.mdesc a).asBase + a.count.toNat then AccRow.reset
        else ((s.atSlot a).mx a.t).rows.at AccRow.reset r := by
  have hstep : TileStep a.t.val (fun _ => False) (s.atSlot a).pkg (issueMclr (s.atSlot a).pkg a) := (TileStep.refl _).setMx _
  have hdesc : mdesc ((s.atSlot a).pkg.tile a.t.val).md a.desc.val = s.mdesc a := atSlot_mdesc s a
  refine ⟨_, exec_mclr h, hstep.sameMemory, hstep.sameRegs, hstep.sameTilesBut, ?_, fun r e he => ?_, fun r => ?_⟩
  · simp only [State.vec, settle_pkg, issueMclr, tile_setMx_self]
  · have hrow : (r * 32 + e / 4) / 32 = r := by omega
    simp only [State.mx, settle_pkg, issueMclr, tile_setMx_self, Matrix.entry, Matrix.word, hdesc]
    rw [at_filter_keys _ (fun k => !decide ((s.mdesc a).asBase ≤ k / 32 ∧ k / 32 < (s.mdesc a).asBase + a.count.toNat)), hrow]
    by_cases hin : (s.mdesc a).asBase ≤ r ∧ r < (s.mdesc a).asBase + a.count.toNat <;> simp [hin]
  · simp only [State.mx, settle_pkg, issueMclr, tile_setMx_self, hdesc]
    rw [at_filter_keys _ (fun k => !decide ((s.mdesc a).asBase ≤ k ∧ k < (s.mdesc a).asBase + a.count.toNat))]
    by_cases hin : (s.mdesc a).asBase ≤ r ∧ r < (s.mdesc a).asBase + a.count.toNat <;> simp [hin]

/-- Settles O8 (R35, R41 to R48, R117): a slot that issues does what its instruction does to the package that it meets, and each of the six
changes its tile and the counters of R58; only MDR writes words, those of its rows. -/
theorem matrixTransfersIssue : Obligations.MatrixTransfersIssue := by
  refine ⟨mlw_issues, fun s a => ⟨fun h => ?_, fun h => ?_⟩, fun s a => ⟨mdr_issues s a, mdv_issues s a, mclr_issues s a⟩⟩
  · obtain ⟨st, hst⟩ := stream_enters s a false _ rfl
    exact ⟨_, st, exec_mws h, hst⟩
  · obtain ⟨st, hst⟩ := stream_enters s a true _ rfl
    exact ⟨_, st, exec_mwt h, hst⟩

end Sys2Proof.Machine

namespace Sys2Proof.Machine

/-! ## The other slots of the array, its results and its scrubber (R36, R46, R48, R55, R92) -/

theorem MSlot.plain_eq_true {a : MSlot} (h : a.plain = true) : (decide (a.count ≠ 0xFFFF) && !a.acc && !a.tr && decide (a.part = 0)) = true := h

theorem landed_free (s : State) (n : TileNo) (c : Nat) : ((s.landed n c).pkg.tile n.val).free = (s.pkg.tile n.val).free := by
  obtain ⟨m, hm, hheld, -⟩ := landDue_tile s.pkg n.val c
  simp only [State.landed, settle_pkg, hm, Tile.free, hheld]

theorem landed_vec (s : State) (n : TileNo) (c : Nat) : (s.landed n c).vec n = s.vec n := by
  obtain ⟨m, hm, -⟩ := landDue_tile s.pkg n.val c
  simp only [State.landed, State.vec, settle_pkg, hm]

theorem landed_md (s : State) (n : TileNo) (c : Nat) : ((s.landed n c).pkg.tile n.val).md = (s.pkg.tile n.val).md := by
  obtain ⟨m, hm, -⟩ := landDue_tile s.pkg n.val c
  simp only [State.landed, settle_pkg, hm]

theorem landed_mem (s : State) (n : TileNo) (c : Nat) : (s.landed n c).pkg.mem = s.pkg.mem := (landDue_step s.pkg c).mem

theorem landed_tiles (s : State) (n : TileNo) (c u : Nat) (hu : u ≠ n.val) : (s.landed n c).pkg.tile u = s.pkg.tile u :=
  (landDue_step s.pkg c).tiles u hu

/-! ### MNOP and MFLG -/

theorem issueMnop_step (s : State) (a : MSlot) : TileStep a.t.val (MatrixCounter s a.t) s.pkg (issueMnop s.pkg a) := by
  have hgap := settleGap_step (s := s) a.t a.cyc
  refine .ite (.refl s.pkg) ((hgap.bump64 ?_ _).setMx _)
  rw [hgap.tileCounter matrixCounter_past_spareCol a.t.isLt]
  exact matrixCounter_mk s a.t (by omega)

theorem issueMnop_tile (p : Pkg) (a : MSlot) (h : a.count ≠ 0) : (issueMnop p a).tile a.t.val = { p.tile a.t.val with
    mx := { (p.tile a.t.val).mx with activeEnd := max (p.tile a.t.val).mx.activeEnd (a.cyc + a.count.toNat) } } := by
  have hcount : a.count.toNat ≠ 0 := fun h0 => h (BitVec.eq_of_toNat_eq h0)
  unfold issueMnop
  rw [if_neg hcount]
  simp only [tile_setMx_self, Pkg.addDummy, tile_bump64, settleGap_tile]

theorem mnop_active (s : State) (a : MSlot) (hruns : s.Runs .data) (hfree : ((s.landed a.t a.cyc).pkg.tile a.t.val).free = true)
    (hwf : Instr.wf (.mnop a) = true) (hcount : a.count ≠ 0) :
    ∃ t, exec (.mnop a) s = .next t ∧
      (t.mx a.t).activeEnd = max ((s.landed a.t a.cyc).mx a.t).activeEnd (a.cyc + a.count.toNat) ∧
      (t.mx a.t).acc = ((s.landed a.t a.cyc).mx a.t).acc ∧ t.vec a.t = s.vec a.t ∧ SameMemory s t ∧
      SameRegsBut (MatrixCounter (s.landed a.t a.cyc) a.t) (s.landed a.t a.cyc) t ∧ SameTilesBut a.t.val s t := by
  have hexec : exec (.mnop a) s = .next (s.settle (issueMnop (s.landed a.t a.cyc).pkg a)) := by
    have hslot : exec (.mnop a) s = s.slot "MNOP" _ true _ := rfl
    rw [landed_free] at hfree
    rw [hslot, MSlot.plain_eq_true hwf, slot_next, on_runs s .data _ hruns, if_pos hfree]
    rfl
  have hstep := issueMnop_step (s.landed a.t a.cyc) a
  have htile := issueMnop_tile (s.landed a.t a.cyc).pkg a hcount
  refine ⟨_, hexec, ?_, ?_, ?_, fun b => ?_, hstep.sameRegsBut, fun u hu => ?_⟩
  · simp only [State.mx, settle_pkg, htile]
  · simp only [State.mx, settle_pkg, htile]
  · rw [← landed_vec s a.t a.cyc]
    simp only [State.vec, settle_pkg, htile]
  · rw [settle_pkg, Pkg.byte, hstep.mem, landed_mem, Pkg.byte]
  · exact (hstep.tiles u hu).trans (landed_tiles s a.t a.cyc u hu)

theorem issueMflg_step (p : Pkg) (a : MSlot) : TileStep a.t.val (fun k => k = O.panelFlagSets + a.t.val) p (issueMflg p a) := by
  refine .ite ((((TileStep.refl p).setTile _).bump ?_ _).raise _ _ _) ((TileStep.refl p).setTile _)
  rfl

theorem issueMflg_tile (p : Pkg) (a : MSlot) : (issueMflg p a).tile a.t.val = { p.tile a.t.val with
    md := (p.tile a.t.val).md.put 0 (a.desc.val * 16 + 15) (p.tile a.t.val).mx.panel.toWord
    mx := { (p.tile a.t.val).mx with panel := PanelRec.reset } } := by
  unfold issueMflg
  dsimp only
  split
  · exact tile_setTile_self p a.t.val _
  · exact tile_setTile_self p a.t.val _

theorem mflg_copies (s : State) (a : MSlot) (hruns : s.Runs .data) (hfree : (s.pkg.tile a.t.val).free = true)
    (hwf : Instr.wf (.mflg a) = true) (hdesc : mdescOk (s.pkg.tile a.t.val).md a.desc.val = true) (hmode : modeOk (s.mdesc a) = true) :
    ∃ t, exec (.mflg a) s = .next t ∧
      SMap.at 0 (a.desc.val * 16 + 15) (t.pkg.tile a.t.val).md = ((s.landed a.t (a.cyc - 1)).mx a.t).panel.toWord ∧
      (∀ w, w ≠ a.desc.val * 16 + 15 → SMap.at 0 w (t.pkg.tile a.t.val).md = SMap.at 0 w (s.pkg.tile a.t.val).md) ∧
      (t.mx a.t).panel = PanelRec.reset ∧ (t.mx a.t).acc = ((s.landed a.t (a.cyc - 1)).mx a.t).acc ∧ t.vec a.t = s.vec a.t ∧
      SameMemory s t ∧ SameRegsBut (fun k => k = O.panelFlagSets + a.t.val) (s.landed a.t (a.cyc - 1)) t ∧
      SameTilesBut a.t.val s t := by
  have hexec : exec (.mflg a) s = .next (s.settle (issueMflg (s.landed a.t (a.cyc - 1)).pkg a)) := by
    have hslot : exec (.mflg a) s = s.slot "MFLG" (decide (a.count = 0) && !a.acc && !a.tr && decide (a.part = 0) &&
      mdescOk (s.pkg.tile a.t.val).md a.desc.val && modeOk (s.mdesc a)) true _ := rfl
    have hok : (decide (a.count = 0) && !a.acc && !a.tr && decide (a.part = 0) &&
        mdescOk (s.pkg.tile a.t.val).md a.desc.val && modeOk (s.mdesc a)) = true := by
      simp only [Instr.wf, MSlot.plain, Bool.and_eq_true, decide_eq_true_eq, Bool.not_eq_true'] at hwf ⊢
      exact ⟨⟨⟨⟨⟨hwf.2, hwf.1.1.1.2⟩, hwf.1.1.2⟩, hwf.1.2⟩, hdesc⟩, hmode⟩
    rw [hslot, hok, slot_next, on_runs s .data _ hruns, if_pos hfree]
    rfl
  have hstep := issueMflg_step (s.landed a.t (a.cyc - 1)).pkg a
  have htile := issueMflg_tile (s.landed a.t (a.cyc - 1)).pkg a
  refine ⟨_, hexec, ?_, fun w hw => ?_, ?_, ?_, ?_, fun b => ?_, hstep.sameRegsBut, fun u hu => ?_⟩
  · simp only [settle_pkg, htile]
    exact SMap.at_put_self _ _ _ _
  · simp only [settle_pkg, htile]
    rw [SMap.at_put_other _ _ _ _ _ hw, landed_md]
  · simp only [State.mx, settle_pkg, htile]
  · simp only [State.mx, settle_pkg, htile]
  · rw [← landed_vec s a.t (a.cyc - 1)]
    simp only [State.vec, settle_pkg, htile]
  · rw [settle_pkg, Pkg.byte, hstep.mem, landed_mem, Pkg.byte]
  · exact (hstep.tiles u hu).trans (landed_tiles s a.t (a.cyc - 1) u hu)

/-! ### Slots that do not issue (R48) -/

theorem mws_held (s : State) (a : MSlot) (haccepted : MatrixAccepted .mws a s) (hfree : MatrixFree a (s.atSlot a))
    (hlock : interlocked ((s.atSlot a).mx a.t) .mws a (s.mdesc a) = true) :
    ∃ t, exec (.mws a) s = .next t ∧ (t.mx a.t).held = some (.mws, a) ∧ RaisedLast t 0x3003 ∧
      (t.mx a.t).inflight = ((s.atSlot a).mx a.t).inflight ∧ SameMemory (s.atSlot a) t ∧ SameRegs (s.atSlot a) t := by
  obtain ⟨hruns, henc, hlim⟩ := haccepted
  obtain ⟨hfree, hmdv, hcount, hcols⟩ := hfree
  have hdesc := atSlot_mdesc s a
  rw [← hdesc] at hlock
  have hgo : ¬ (((s.atSlot a).pkg.tile a.t.val).free = false ∨ ((s.atSlot a).pkg.tile a.t.val).vec.mdvHeld a.cyc ∨ a.count = 0 ∨
      ((s.atSlot a).mdesc a).nCols = 0) := by
    rintro (hf | hf | hf | hf)
    · rw [hfree] at hf; cases hf
    · rw [hmdv] at hf; cases hf
    · exact hcount hf
    · exact hcols hf
  have hslot : slotM s.pkg .mws a =
      ((s.atSlot a).pkg.setMx a.t.val { (s.atSlot a).mx a.t with held := some (.mws, a) }).raise 0x3003 a.t.val 0 :=
    (if_neg hgo).trans (if_pos hlock)
  have hexec : exec (.mws a) s = .next (s.settle (slotM s.pkg .mws a)) := by
    have hs : exec (.mws a) s = s.slot "MWS" (encodingM s.pkg .mws a) (limitsM s.pkg .mws a) (fun p => slotM p .mws a) := rfl
    rw [hs, henc, hlim, slot_next, on_runs s .data _ hruns]
  have hstep : TileStep a.t.val (fun _ => False) (s.atSlot a).pkg (slotM s.pkg .mws a) :=
    hslot ▸ ((TileStep.refl _).setMx _).raise _ _ _
  refine ⟨_, hexec, ?_, ?_, ?_, hstep.sameMemory, hstep.sameRegs⟩
  · simp only [State.mx, settle_pkg, hslot, tile_raise, tile_setMx_self]
  · simp only [RaisedLast, settle_pkg, hslot, raise_ev, List.getLast?_append_of_ne_nil, ne_eq, List.cons_ne_nil, not_false_eq_true]
    rfl
  · simp only [State.mx, settle_pkg, hslot, tile_raise, tile_setMx_self]

theorem mdr_of_no_rows (s : State) (a : MSlot) (haccepted : MatrixAccepted .mdr a s) (hcount : a.count = 0) :
    Does (.mdr a) s (s.atSlot a).pkg := by
  obtain ⟨hruns, henc, hlim⟩ := haccepted
  have hs : exec (.mdr a) s = s.slot "MDR" (encodingM s.pkg .mdr a) (limitsM s.pkg .mdr a) (fun p => slotM p .mdr a) := rfl
  have hslot : slotM s.pkg .mdr a = (s.atSlot a).pkg := if_pos (.inr (.inr (.inl hcount)))
  rw [Does, hs, henc, hlim, slot_next, on_runs s .data _ hruns, hslot]

/-! ### Results, and the release of a held instruction (R46, R48) -/

theorem streamResult_lands (s : State) (n : TileNo) (st : Stream) (rest : List Stream) (hruns : s.Runs .data)
    (hinflight : (s.mx n).inflight = st :: rest) :
    ∃ t, exec (.streamResultWrite n) s = .next t ∧ (t.mx n).inflight = rest ∧ (t.mx n).w0 = (s.mx n).w0 ∧ (t.mx n).w1 = (s.mx n).w1 ∧
      (∀ r e, e < 128 → (r < st.asBase ∨ st.asBase + st.accRows ≤ r) → (t.mx n).entry r e = (s.mx n).entry r e) ∧
      t.vec n = s.vec n ∧ SameMemory s t ∧ SameRegsBut (fun k => k = O.int32Saturations + n.val) s t ∧ SameTilesBut n.val s t := by
  have hexec : exec (.streamResultWrite n) s = .next (s.settle (landStream s.pkg n.val)) :=
    on_runs s .data (fun p => landStream p n.val) hruns
  generalize hp : s.pkg.setMx n.val { s.mx n with inflight := [] } = p
  have hland : landStream s.pkg n.val = (p.landRows n.val st st.accRows).setMx n.val
      { ((p.landRows n.val st st.accRows).tile n.val).mx with inflight := ((p.landRows n.val st st.accRows).tile n.val).mx.inflight ++ rest } := by
    unfold landStream
    dsimp only
    split
    next h => rw [hinflight] at h; cases h
    next st' rest' h =>
      rw [hinflight] at h
      obtain ⟨rfl, rfl⟩ := List.cons.inj h
      rw [hp]
  have hptile : p.tile n.val = { s.pkg.tile n.val with mx := { s.mx n with inflight := [] } } := by rw [← hp, tile_setMx_self]
  have hstep : TileStep n.val (fun k => k = O.int32Saturations + n.val) s.pkg (landStream s.pkg n.val) := by
    rw [hland]
    exact (landRows_step st _ (hp ▸ (TileStep.refl s.pkg).setMx _)).setMx _
  obtain ⟨m, panel, left, hrows, hleft, htile⟩ := landRows_mx p n.val st st.accRows
  rw [hleft le_rfl, hptile, List.append_nil] at htile
  rw [hptile] at hrows
  refine ⟨_, hexec, ?_, ?_, ?_, fun r e he hr => ?_, ?_, hstep.sameMemory, hstep.sameRegsBut, hstep.sameTilesBut⟩ <;>
    simp only [State.mx, State.vec, settle_pkg, hland, tile_setMx_self, htile]
  · exact List.nil_append rest
  · exact hrows.w0
  · exact hrows.w1
  · have hout : ¬ st.names r := fun h => by unfold Stream.names at h; omega
    have hword := hrows.word r (e / 4) hout (by omega)
    exact congrArg (AccWord.entry · (e % 4)) hword

theorem heldMatrix_issues (s : State) (n : TileNo) (cyc : Nat) (op : MOp) (a : MSlot) (hruns : s.Runs .data)
    (hheld : ((s.landed n cyc).mx n).held = some (op, a)) (hcyc : a.cyc ≤ cyc)
    (hlock : interlocked ((s.landed n cyc).mx n) op { a with cyc := cyc } (Sys2Proof.Machine.mdesc (s.pkg.tile n.val).md a.desc.val) = false) :
    Does (.matrixInterlockRelease n cyc) s
      (issueM (((s.landed n cyc).pkg.bump64 ((s.landed n cyc).pkg.tileCounter O.tileCounters 3 n.val) (cyc - a.cyc)).setMx n.val
        { (s.landed n cyc).mx n with held := none }) op { a with cyc := cyc }) := by
  have hexec : exec (.matrixInterlockRelease n cyc) s = execMatrixInterlockRelease n cyc s := rfl
  rw [Does, hexec, execMatrixInterlockRelease, on_runs s .data _ hruns]
  rw [← landed_md s n cyc] at hlock
  simp only [State.mx, State.landed, settle_pkg] at hheld hlock ⊢
  rw [hheld]
  dsimp only
  rw [if_neg (by rw [hlock]; simp [hcyc])]

/-! ### The scrubber of the weight registers (R36) -/

/-- The array with another register in the place that sel names. -/
def Matrix.setWreg (m : Matrix) (sel : Bool) (w : WReg) : Matrix := if sel then { m with w1 := w } else { m with w0 := w }

section
variable (m : Matrix) (sel : Bool) (w : WReg)
@[simp] theorem setWreg_wreg_self : (m.setWreg sel w).wreg sel = w := by cases sel <;> rfl
@[simp] theorem setWreg_wreg_other : (m.setWreg sel w).wreg (!sel) = m.wreg (!sel) := by cases sel <;> rfl
@[simp] theorem setWreg_acc : (m.setWreg sel w).acc = m.acc := by cases sel <;> rfl
@[simp] theorem setWreg_inflight : (m.setWreg sel w).inflight = m.inflight := by cases sel <;> rfl
@[simp] theorem setWreg_scrub : (m.setWreg sel w).scrub = m.scrub := by cases sel <;> rfl
end

/-- What the read of some of a register's words by the scrubber leaves of a tile: everything but the register, and of the register
everything but its poison and the words read. -/
structure Scrubbed (n : Nat) (sel : Bool) (ks : List Nat) (p q : Pkg) : Prop where
  step : TileStep n (fun k => k = O.scrubCorrections + p.physTile n) p q
  scrub : (q.tile n).mx.scrub = (p.tile n).mx.scrub
  acc : (q.tile n).mx.acc = (p.tile n).mx.acc
  inflight : (q.tile n).mx.inflight = (p.tile n).mx.inflight
  vec : (q.tile n).vec = (p.tile n).vec
  other : (q.tile n).mx.wreg (!sel) = (p.tile n).mx.wreg (!sel)
  word : ∀ k, k ∉ ks → ((q.tile n).mx.wreg sel).cells.at zeroWord k = ((p.tile n).mx.wreg sel).cells.at zeroWord k
  poison : ((p.tile n).mx.wreg sel).poison = true → ((q.tile n).mx.wreg sel).poison = true
  stepPoison : (p.tile n).stepPoison = true → (q.tile n).stepPoison = true
  events : p.ev.inFlight ⊆ q.ev.inFlight

/-- What the scrubber finds in a word and does about it. -/
structure ScrubResult (n : Nat) (sel : Bool) (k : Nat) (p q : Pkg) : Prop where
  corrected : ∀ w y, checkWord (((p.tile n).mx.wreg sel).cells.at zeroWord k) = .corrected w y →
    ((q.tile n).mx.wreg sel).cells.at zeroWord k = w
  bad : checkWord (((p.tile n).mx.wreg sel).cells.at zeroWord k) = .bad →
    ((q.tile n).mx.wreg sel).poison = true ∧ q.HasEvent 0x3004 ∧ (q.tile n).stepPoison = true

section
variable {n : Nat} (p : Pkg) (sel : Bool) (k : Nat)

theorem scrubCells_clean (h : checkWord (((p.tile n).mx.wreg sel).cells.at zeroWord k) = .clean) : p.scrubCells n sel k = p := by
  unfold Pkg.scrubCells
  dsimp only
  rw [h]

theorem scrubCells_corrected {w : PWord} {y : Nat} (h : checkWord (((p.tile n).mx.wreg sel).cells.at zeroWord k) = .corrected w y) :
    p.scrubCells n sel k = (p.setMx n ((p.tile n).mx.setWreg sel { (p.tile n).mx.wreg sel with
      cells := ((p.tile n).mx.wreg sel).cells.put zeroWord k w })).bump (O.scrubCorrections + p.physTile n) 1 := by
  unfold Pkg.scrubCells
  dsimp only
  rw [h]
  rfl

theorem scrubCells_uncorrectable (hclean : checkWord (((p.tile n).mx.wreg sel).cells.at zeroWord k) ≠ .clean)
    (hcorrected : ∀ w y, checkWord (((p.tile n).mx.wreg sel).cells.at zeroWord k) ≠ .corrected w y) :
    p.scrubCells n sel k =
      ((p.setMx n ((p.tile n).mx.setWreg sel { (p.tile n).mx.wreg sel with poison := true })).raise 0x3004 n 0).setStepPoison n := by
  unfold Pkg.scrubCells
  dsimp only
  split
  next h => exact absurd h hclean
  next h => exact absurd h (hcorrected _ _)
  next => rfl

theorem scrubCells_scrubbed : Scrubbed n sel [k] p (p.scrubCells n sel k) ∧ ScrubResult n sel k p (p.scrubCells n sel k) := by
  cases h : checkWord (((p.tile n).mx.wreg sel).cells.at zeroWord k) with
  | clean =>
    rw [scrubCells_clean p sel k h]
    exact ⟨⟨.refl p, rfl, rfl, rfl, rfl, rfl, fun _ _ => rfl, id, id, List.Subset.refl _⟩,
      ⟨fun w y h' => (by rw [h] at h'; cases h'), fun h' => by rw [h] at h'; cases h'⟩⟩
  | corrected w y =>
    rw [scrubCells_corrected p sel k h]
    refine ⟨⟨((TileStep.refl p).setMx _).bumpKey _, ?_, ?_, ?_, ?_, ?_, fun j hj => ?_, fun hp => ?_, fun hp => ?_, List.Subset.refl _⟩,
      ⟨fun w' y' h' => ?_, fun h' => by rw [h] at h'; cases h'⟩⟩ <;> simp only [tile_bump, tile_setMx_self, setWreg_wreg_self,
        setWreg_wreg_other, setWreg_acc, setWreg_inflight, setWreg_scrub]
    · exact SMap.at_put_other _ _ _ _ _ fun hjk => hj (hjk ▸ List.mem_singleton_self j)
    · exact hp
    · exact hp
    · rw [h] at h'
      cases h'
      exact SMap.at_put_self _ _ _ _
  | _ =>
    rw [scrubCells_uncorrectable p sel k (by rw [h]; simp) (by rw [h]; simp)]
    refine ⟨⟨(((TileStep.refl p).setMx _).raise _ _ _).setStepPoison, ?_, ?_, ?_, ?_, ?_, fun j hj => ?_, fun hp => ?_, fun hp => ?_, ?_⟩,
      ⟨fun w' y' h' => (by rw [h] at h'; cases h'), fun h' => ⟨?_, hasEvent_raise _ 0x3004 n 0, ?_⟩⟩⟩ <;>
      simp only [tile_setStepPoison_self, tile_raise, tile_setMx_self, setWreg_wreg_self, setWreg_wreg_other, setWreg_acc,
        setWreg_inflight, setWreg_scrub]
    exact (alarmed_raise _ 0x3004 n 0).events

end

theorem Scrubbed.trans {n : Nat} {sel : Bool} {ks ls : List Nat} {p q r : Pkg} (hn : n < 192) (hpq : Scrubbed n sel ks p q)
    (hqr : Scrubbed n sel ls q r) : Scrubbed n sel (ks ++ ls) p r where
  step := hpq.step.trans (hqr.step.mono fun k hk => by
    rw [hk, hpq.step.physTile (fun k hk => by rw [hk]; exact le_trans (by decide : O.spareCol + 16 ≤ O.scrubCorrections) (Nat.le_add_right _ _)) hn])
  scrub := hqr.scrub.trans hpq.scrub
  acc := hqr.acc.trans hpq.acc
  inflight := hqr.inflight.trans hpq.inflight
  vec := hqr.vec.trans hpq.vec
  other := hqr.other.trans hpq.other
  word k hk := (hqr.word k fun h => hk (List.mem_append_right ks h)).trans (hpq.word k fun h => hk (List.mem_append_left ls h))
  poison h := hqr.poison (hpq.poison h)
  stepPoison h := hqr.stepPoison (hpq.stepPoison h)
  events := List.Subset.trans hpq.events hqr.events

/-- What was found in a word stands after the read of others. -/
theorem ScrubResult.scrubbed {n : Nat} {sel : Bool} {k : Nat} {ls : List Nat} {p q r : Pkg} (h : ScrubResult n sel k p q)
    (hqr : Scrubbed n sel ls q r) (hk : k ∉ ls) : ScrubResult n sel k p r where
  corrected w y hw := (hqr.word k hk).trans (h.corrected w y hw)
  bad hbad := by
    obtain ⟨hpoison, ⟨r, hr, hcode⟩, hstep⟩ := h.bad hbad
    exact ⟨hqr.poison hpoison, ⟨r, hqr.events hr, hcode⟩, hqr.stepPoison hstep⟩

/-- What was found in a word is what stood there before the read of others. -/
theorem Scrubbed.result {n : Nat} {sel : Bool} {k : Nat} {ks : List Nat} {p q r : Pkg} (h : Scrubbed n sel ks p q)
    (hqr : ScrubResult n sel k q r) (hk : k ∉ ks) : ScrubResult n sel k p r where
  corrected w y hw := hqr.corrected w y (by rw [h.word k hk, hw])
  bad hbad := hqr.bad (by rw [h.word k hk, hbad])

/-- The package whose scrubber has moved to its next word. -/
def Pkg.scrubMoved (p : Pkg) (n : Nat) : Pkg := p.setMx n { (p.tile n).mx with scrub := ((p.tile n).mx.scrub % 4096 + 1) % 4096 }

theorem weightScrub_reads (s : State) (n : TileNo) (hruns : s.Runs .data) :
    ∃ t, exec (.weightRegisterScrub n) s = .next t ∧ (t.mx n).scrub = ((s.mx n).scrub % 4096 + 1) % 4096 ∧
      (t.mx n).acc = (s.mx n).acc ∧ (t.mx n).inflight = (s.mx n).inflight ∧ t.vec n = s.vec n ∧ SameMemory s t ∧
      SameRegsBut (fun k => k = O.scrubCorrections + s.pkg.physTile n) s t ∧ SameTilesBut n.val s t ∧
      (t.mx n).wreg (!decide (2048 ≤ (s.mx n).scrub % 4096)) = (s.mx n).wreg (!decide (2048 ≤ (s.mx n).scrub % 4096)) ∧
      ∀ k ∈ [(s.mx n).scrub % 4096 % 2048, 2048 + (s.mx n).scrub % 4096 % 2048],
        (∀ w y, checkWord (((s.mx n).wreg (decide (2048 ≤ (s.mx n).scrub % 4096))).cells.at zeroWord k) = .corrected w y →
          ((t.mx n).wreg (decide (2048 ≤ (s.mx n).scrub % 4096))).cells.at zeroWord k = w) ∧
        (checkWord (((s.mx n).wreg (decide (2048 ≤ (s.mx n).scrub % 4096))).cells.at zeroWord k) = .bad →
          ((t.mx n).wreg (decide (2048 ≤ (s.mx n).scrub % 4096))).poison = true ∧ RaisedEver t 0x3004 ∧
            (t.pkg.tile n.val).stepPoison = true) := by
  generalize hsel : decide (2048 ≤ (s.mx n).scrub % 4096) = sel
  generalize hi : (s.mx n).scrub % 4096 % 2048 = i
  generalize hmoved : s.pkg.scrubMoved n.val = p
  have hexec : exec (.weightRegisterScrub n) s = .next (s.settle ((p.scrubCells n.val sel i).scrubCells n.val sel (2048 + i))) := by
    rw [← hsel, ← hi, ← hmoved]
    have hs : exec (.weightRegisterScrub n) s = execWeightRegisterScrub n s := rfl
    rw [hs, execWeightRegisterScrub, on_runs s .data _ hruns]
    rfl
  have htile : p.tile n.val = { s.pkg.tile n.val with mx := { s.mx n with scrub := ((s.mx n).scrub % 4096 + 1) % 4096 } } := by
    rw [← hmoved, Pkg.scrubMoved, tile_setMx_self]
  have hmove : TileStep n.val (fun k => k = O.scrubCorrections + s.pkg.physTile n.val) s.pkg p := hmoved ▸ (TileStep.refl s.pkg).setMx _
  have hphys : p.physTile n.val = s.pkg.physTile n.val := by rw [← hmoved]; rfl
  obtain ⟨hfirst, hfound⟩ := scrubCells_scrubbed (n := n.val) p sel i
  obtain ⟨hsecond, hfound'⟩ := scrubCells_scrubbed (n := n.val) (p.scrubCells n.val sel i) sel (2048 + i)
  generalize hq : (p.scrubCells n.val sel i).scrubCells n.val sel (2048 + i) = q at *
  have hboth := hfirst.trans n.isLt hsecond
  have hstep : TileStep n.val (fun k => k = O.scrubCorrections + s.pkg.physTile n.val) s.pkg q :=
    hmove.trans (hphys ▸ hboth.step)
  have hwreg : (p.tile n.val).mx.wreg sel = (s.mx n).wreg sel := by rw [htile]; cases sel <;> rfl
  refine ⟨_, hexec, ?_, ?_, ?_, ?_, hstep.sameMemory, hstep.sameRegsBut, hstep.sameTilesBut, ?_, ?_⟩
  · exact hboth.scrub.trans (by rw [htile])
  · exact hboth.acc.trans (by rw [htile])
  · exact hboth.inflight.trans (by rw [htile])
  · exact hboth.vec.trans (by rw [htile])
  · exact hboth.other.trans (by rw [htile]; cases sel <;> rfl)
  · have hresult : ∀ k, ScrubResult n.val sel k p q →
        (∀ w y, checkWord (((s.mx n).wreg sel).cells.at zeroWord k) = .corrected w y → ((q.tile n.val).mx.wreg sel).cells.at zeroWord k = w) ∧
        (checkWord (((s.mx n).wreg sel).cells.at zeroWord k) = .bad → ((q.tile n.val).mx.wreg sel).poison = true ∧ q.HasEvent 0x3004 ∧
          (q.tile n.val).stepPoison = true) := by
      intro k hk
      rw [← hwreg]
      exact ⟨hk.corrected, hk.bad⟩
    intro k hk
    rcases List.mem_pair.mp hk with rfl | rfl
    · exact hresult k (hfound.scrubbed hsecond (by simp))
    · exact hresult _ (hfirst.result hfound' (by simp))

/-- Settles O9 (R36, R46, R48, R55, R92): each of the slots and events changes its tile's array; what lands is the oldest stream's, and the
scrubber reads two words of one register. -/
theorem matrixOtherSlotsAndEvents : Obligations.MatrixOtherSlotsAndEvents :=
  ⟨fun s a hruns => ⟨mnop_active s a hruns, mflg_copies s a hruns, mws_held s a, mdr_of_no_rows s a⟩,
    streamResult_lands, heldMatrix_issues, weightScrub_reads⟩

end Sys2Proof.Machine

namespace Sys2Proof.Machine

/-! ## Tile self-test (R33, R57) -/

/-- The state of a tile is object O.tileState + q. -/
theorem tileState_ne (q r : Nat) (h : q ≠ r) : O.tileState + q ≠ O.tileState + r := by omega

theorem bistOwner_accepted (s : State) (w : Writer) (d : DieNo) (v : Nat) (hruns : s.Runs (writerPlane w)) (hv : v ≤ 3)
    (h : s.pkg.reg (O.bistOwner + d.val) = 0 ∨ v = 0) : Does (.bistOwnerWrite w d v) s (s.pkg.setReg (O.bistOwner + d.val) v) := by
  have hexec : exec (.bistOwnerWrite w d v) s = execBistOwnerWrite w d v s := rfl
  rw [Does, hexec, execBistOwnerWrite, on_runs s _ _ hruns, if_neg (by omega), ownerWrite_accepted _ _ _ _ _ _ h]

theorem bistOwner_refused (s : State) (pt : Path) (d : DieNo) (v : Nat) (hruns : s.Runs (pathPlane pt)) (hv : v ≤ 3) (hv0 : v ≠ 0)
    (hheld : s.pkg.reg (O.bistOwner + d.val) ≠ 0) (hother : s.pkg.reg (O.bistOwner + d.val) ≠ v) :
    Does (.bistOwnerWrite (.path pt) d v) s ((s.pkg.refuse pt (O.bistOwner + d.val) abOwner).raise 0x3006 d.val v) := by
  have hexec : exec (.bistOwnerWrite (.path pt) d v) s = execBistOwnerWrite (.path pt) d v s := rfl
  rw [Does, hexec, execBistOwnerWrite, on_runs s (writerPlane (.path pt)) _ hruns, if_neg (by omega), ownerWrite_refused _ _ _ _ _ _ hheld hv0 hother]

theorem bistRequest_starts (s : State) (pt : Path) (d : DieNo) (v : Nat) (hruns : s.Runs (pathPlane pt)) (hv : v ≤ 51)
    (howner : s.pkg.reg (O.bistOwner + d.val) = 3)
    (hstate : s.pkg.reg (O.tileState + (d.val * 52 + v)) = 1 ∨ s.pkg.reg (O.tileState + (d.val * 52 + v)) = 3) :
    ∃ t, exec (.bistRequest pt d v) s = .next t ∧ t.pkg.reg (O.tileState + (d.val * 52 + v)) = 2 ∧
      t.pkg.testPrev.at 0 (d.val * 52 + v) = s.pkg.reg (O.tileState + (d.val * 52 + v)) ∧ SameMemory s t ∧
      SameRegsBut (fun k => k = O.tileState + (d.val * 52 + v)) s t ∧ t.pkg.tiles = s.pkg.tiles := by
  have hexec : exec (.bistRequest pt d v) s = execBistRequest pt d v s := rfl
  rw [hexec, execBistRequest, on_runs s _ _ hruns]
  dsimp only
  rw [Nat.add_assoc, if_neg (by omega), if_neg (by omega), if_neg (by omega)]
  exact ⟨_, rfl, reg_setReg_self _ _ _, SMap.at_put_self _ _ _ _, fun _ => rfl, fun k hk => reg_setReg_other _ _ _ _ hk, rfl⟩

/-- A failure declaration changes schedule time, what leaves, the links, the dictionary, events, sequencers and the failure itself. -/
theorem declareFailed_changes (p : Pkg) : ∃ sched out links dict ev tiles failed, p.declareFailed =
    { p with sched := sched, out := out, links := links, dict := dict, ev := ev, tiles := tiles, failed := failed } := by
  cases h : p.failed with
  | true => exact ⟨_, _, _, _, _, _, _, declareFailed_again p h⟩
  | false =>
    obtain ⟨n, o, l, hflood⟩ := flood_changes_sequence_out_links p 0x21 0 [p.reg O.logicalPosition, p.reg O.logicalPosition, p.reg O.domainBeat]
    obtain ⟨d, hbit⟩ := setErrBit_changes_dict
      ((p.flood 0x21 0 [p.reg O.logicalPosition, p.reg O.logicalPosition, p.reg O.domainBeat]).raise 0x4805 noUnit 0) 0 true
    rw [declareFailed_eq p h, Pkg.failureNotice, hbit, hflood]
    exact ⟨_, _, _, _, _, _, _, rfl⟩

@[simp] theorem declareFailed_mem (p : Pkg) : p.declareFailed.mem = p.mem := by
  obtain ⟨_, _, _, _, _, _, _, h⟩ := declareFailed_changes p
  rw [h]

@[simp] theorem declareFailed_testPrev (p : Pkg) : p.declareFailed.testPrev = p.testPrev := by
  obtain ⟨_, _, _, _, _, _, _, h⟩ := declareFailed_changes p
  rw [h]

theorem declareFailed_reg (p : Pkg) (k : Nat) (hk : k ≠ O.errorRegister) : p.declareFailed.reg k = p.reg k := (alarmed_declareFailed p).reg k hk

/-- What the end of a run for tile q leaves: the states of the other tiles, the claims, and memory. -/
structure TileTested (q : Nat) (p r : Pkg) : Prop where
  mem : r.mem = p.mem
  state : ∀ i, i ≠ q → r.reg (O.tileState + i) = p.reg (O.tileState + i)
  prev : ∀ i, i ≠ q → r.testPrev.at 0 i = p.testPrev.at 0 i
  owner : ∀ d : DieNo, r.reg (O.bistOwner + d.val) = p.reg (O.bistOwner + d.val)

namespace TileTested

section
variable {q : Nat} {p r : Pkg}

theorem refl (p : Pkg) : TileTested q p p := ⟨rfl, fun _ _ => rfl, fun _ _ => rfl, fun _ => rfl⟩

theorem setState (hq : q < 208) (v : Nat) (h : TileTested q p r) : TileTested q p (r.setReg (O.tileState + q) v) where
  mem := h.mem
  state i hi := (reg_setReg_other _ _ _ _ (by omega)).trans (h.state i hi)
  prev := h.prev
  owner d := by
    have hkey : O.bistOwner + d.val ≠ O.tileState + q := by simp only [O.bistOwner, O.tileState]; omega
    exact (reg_setReg_other _ _ _ _ hkey).trans (h.owner d)

theorem declareFailed (h : TileTested q p r) : TileTested q p r.declareFailed where
  mem := (declareFailed_mem r).trans h.mem
  state i hi := (declareFailed_reg r _ (by simp only [O.tileState, O.errorRegister]; omega)).trans (h.state i hi)
  prev i hi := (congrArg (SMap.at 0 i) (declareFailed_testPrev r)).trans (h.prev i hi)
  owner d := (declareFailed_reg r _ (by simp only [O.bistOwner, O.errorRegister]; omega)).trans (h.owner d)

theorem same {r' : Pkg} (h : TileTested q p r) (hmem : r'.mem = r.mem) (hdict : r'.dict.act = r.dict.act) (hprev : r'.testPrev = r.testPrev) :
    TileTested q p r' where
  mem := hmem.trans h.mem
  state i hi := (congrArg (SMap.at 0 (O.tileState + i)) hdict).trans (h.state i hi)
  prev i hi := (congrArg (SMap.at 0 i) hprev).trans (h.prev i hi)
  owner d := (congrArg (SMap.at 0 (O.bistOwner + d.val)) hdict).trans (h.owner d)

end

end TileTested

theorem retireTile_spec {q : Nat} {p r : Pkg} (hq : q < 208) (h : TileTested q p r) :
    TileTested q p (retireTile r q) ∧ (retireTile r q).reg (O.tileState + q) = 3 := by
  have hset : TileTested q p { r.setReg (O.tileState + q) 3 with retired := r.retired.put false q true } :=
    (h.setState hq 3).same rfl rfl rfl
  unfold retireTile
  dsimp only
  split
  · exact ⟨hset.declareFailed, (declareFailed_reg _ _ (by simp only [O.tileState, O.errorRegister]; omega)).trans (reg_setReg_self _ _ _)⟩
  · exact ⟨hset, reg_setReg_self _ _ _⟩

/-- The end of a run for one tile: a failed one is retired, and one that was under test and passed goes back to the state it had. -/
theorem tileTested_spec (owner : Nat) (failed : Bool) (p : Pkg) (q : Nat) (hq : q < 208) : TileTested q p (tileTested owner failed p q) ∧
    (failed = true → owner = 1 ∨ p.reg (O.tileState + q) = 2 → (tileTested owner failed p q).reg (O.tileState + q) = 3) ∧
    (failed = false → p.reg (O.tileState + q) = 2 → (tileTested owner failed p q).reg (O.tileState + q) = p.testPrev.at 0 q) := by
  unfold tileTested
  dsimp only
  split
  next hran =>
    generalize hprev : (if decide (p.reg (O.tileState + q) = 2) then p.testPrev.at 0 q else p.reg (O.tileState + q)) = prev
    generalize hr : Pkg.setReg _ (O.tileState + q) prev = r
    have htested : TileTested q p r := by
      rw [← hr]
      exact .setState hq prev ⟨rfl, fun _ _ => rfl, fun i hi => SMap.at_del_other _ _ _ _ hi, fun _ => rfl⟩
    have hstate : r.reg (O.tileState + q) = prev := by rw [← hr, reg_setReg_self]
    cases failed with
    | true =>
      obtain ⟨hretired, h3⟩ := retireTile_spec hq htested
      rw [if_pos rfl]
      exact ⟨hretired, fun _ _ => h3, fun h => (by cases h)⟩
    | false =>
      have hback : p.reg (O.tileState + q) = 2 → prev = p.testPrev.at 0 q := fun h2 => by rw [← hprev, h2]; rfl
      rw [if_neg (by decide)]
      split
      · split
        · exact ⟨htested.same rfl rfl rfl, fun h => (by cases h), fun _ h2 => hstate.trans (hback h2)⟩
        · exact ⟨htested.same rfl rfl rfl, fun h => (by cases h), fun _ h2 => hstate.trans (hback h2)⟩
      · exact ⟨htested, fun h => (by cases h), fun _ h2 => hstate.trans (hback h2)⟩
  next hran =>
    simp only [decide_eq_true_eq, not_or] at hran
    exact ⟨.refl p, fun _ h => absurd h (by simp [hran.1, hran.2]), fun _ h2 => absurd h2 hran.2⟩

/-- The rounds of the end of a run touch each tile's state in its own round only. -/
theorem foldl_tileTested (owner base : Nat) (fail : Nat → Bool) (l : List Nat) (hl : ∀ i ∈ l, base + i < 208) (hnodup : l.Nodup) (p : Pkg) :
    let r := l.foldl (fun q i => tileTested owner (fail i) q (base + i)) p
    r.mem = p.mem ∧ (∀ d : DieNo, r.reg (O.bistOwner + d.val) = p.reg (O.bistOwner + d.val)) ∧
      (∀ i, (∀ j ∈ l, i ≠ base + j) → r.reg (O.tileState + i) = p.reg (O.tileState + i)) ∧
      ∀ i ∈ l, (fail i = true → owner = 1 ∨ p.reg (O.tileState + (base + i)) = 2 → r.reg (O.tileState + (base + i)) = 3) ∧
        (fail i = false → p.reg (O.tileState + (base + i)) = 2 → r.reg (O.tileState + (base + i)) = p.testPrev.at 0 (base + i)) := by
  induction l generalizing p with
  | nil => exact ⟨rfl, fun _ => rfl, fun _ _ => rfl, fun _ h => absurd h List.not_mem_nil⟩
  | cons j l ih =>
    obtain ⟨hj, hnodup⟩ := List.nodup_cons.mp hnodup
    obtain ⟨hround, hfailed, hpassed⟩ := tileTested_spec owner (fail j) p (base + j) (hl j List.mem_cons_self)
    obtain ⟨hmem, howner, hstate, htiles⟩ := ih (fun i hi => hl i (List.mem_cons_of_mem j hi)) hnodup (tileTested owner (fail j) p (base + j))
    have hrest : ∀ i ∈ l, base + j ≠ base + i := fun i hi hij => hj (by rwa [Nat.add_left_cancel hij])
    refine ⟨hmem.trans hround.mem, fun d => (howner d).trans (hround.owner d), fun i hi => ?_, fun i hi => ?_⟩
    · exact (hstate i fun k hk => hi k (List.mem_cons_of_mem j hk)).trans (hround.state i (hi j List.mem_cons_self))
    · rcases List.mem_cons.mp hi with rfl | hi
      · exact ⟨fun hf h => (hstate _ hrest).trans (hfailed hf h), fun hf h => (hstate _ hrest).trans (hpassed hf h)⟩
      · have hne : base + i ≠ base + j := (hrest i hi).symm
        obtain ⟨h3, hback⟩ := htiles i hi
        rw [hround.state _ hne] at h3 hback
        rw [hround.prev _ hne] at hback
        exact ⟨h3, hback⟩

theorem bistComplete_retires (s : State) (d : DieNo) (failed : List (Fin 52)) (hruns : s.Runs .control)
    (howner : s.pkg.reg (O.bistOwner + d.val) ≠ 0) :
    ∃ t, exec (.bistComplete d failed) s = .next t ∧
      t.pkg.reg (O.bistOwner + d.val) = (if s.pkg.reg (O.bistOwner + d.val) = 3 then 3 else 0) ∧ SameMemory s t ∧
      ∀ q : Fin 52,
        (q ∈ failed → s.pkg.reg (O.bistOwner + d.val) = 1 ∨ s.pkg.reg (O.tileState + (d.val * 52 + q.val)) = 2 →
          t.pkg.reg (O.tileState + (d.val * 52 + q.val)) = 3) ∧
        (q ∉ failed → s.pkg.reg (O.tileState + (d.val * 52 + q.val)) = 2 →
          t.pkg.reg (O.tileState + (d.val * 52 + q.val)) = s.pkg.testPrev.at 0 (d.val * 52 + q.val)) := by
  have hexec : exec (.bistComplete d failed) s = execBistComplete d failed s := rfl
  obtain ⟨hmem, hclaims, -, htiles⟩ := foldl_tileTested (s.pkg.reg (O.bistOwner + d.val)) (d.val * 52)
    (fun i => failed.any fun f => f.val == i) (List.range 52) (fun i hi => by have := List.mem_range.mp hi; omega) List.nodup_range s.pkg
  rw [hexec, execBistComplete, on_runs s _ _ hruns]
  dsimp only
  rw [if_neg howner]
  generalize List.foldl _ s.pkg _ = r at *
  have hin : ∀ q : Fin 52, (failed.any fun f => f.val == q.val) = true ↔ q ∈ failed := by simp [Fin.val_inj]
  have hend : ∀ q : Fin 52, ∀ r' : Pkg, r'.reg (O.tileState + (d.val * 52 + q.val)) = r.reg (O.tileState + (d.val * 52 + q.val)) →
      (q ∈ failed → s.pkg.reg (O.bistOwner + d.val) = 1 ∨ s.pkg.reg (O.tileState + (d.val * 52 + q.val)) = 2 →
        r'.reg (O.tileState + (d.val * 52 + q.val)) = 3) ∧
      (q ∉ failed → s.pkg.reg (O.tileState + (d.val * 52 + q.val)) = 2 →
        r'.reg (O.tileState + (d.val * 52 + q.val)) = s.pkg.testPrev.at 0 (d.val * 52 + q.val)) := by
    intro q r' hr'
    obtain ⟨h3, hback⟩ := htiles q.val (List.mem_range.mpr q.isLt)
    rw [hr']
    exact ⟨fun hq => h3 ((hin q).mpr hq), fun hq => hback (Bool.eq_false_iff.mpr fun h => hq ((hin q).mp h))⟩
  split
  next h3 => exact ⟨_, rfl, (hclaims d).trans h3, fun a => congrArg (SMap.at 0 a) hmem, fun q => hend q _ rfl⟩
  next =>
    refine ⟨_, rfl, reg_setReg_self _ _ _, fun a => congrArg (SMap.at 0 a) hmem, fun q => hend q _ (reg_setReg_other _ _ _ _ ?_)⟩
    simp only [O.tileState, O.bistOwner]
    omega

/-! ## The tile SRAM windows (R34) -/

theorem regionOf_window {a : Nat} (hlo : tileBase ≤ a) (hhi : a < tileBase + 192 * tileSize) : regionOf a = .tileSram := by
  simp only [tileBase, tileSize] at hlo hhi
  unfold regionOf
  simp only [lpddrBase, tileBase, tileSize]
  rw [if_neg (by omega), if_neg (by omega), if_neg (by omega), if_neg (by omega), if_pos (by omega)]

theorem regionOf_reserved_window {a : Nat} (hlo : tileBase + 192 * tileSize ≤ a) (hhi : a < controlBase) : regionOf a = .tileReserved := by
  simp only [tileBase, tileSize, controlBase] at hlo hhi
  unfold regionOf
  simp only [lpddrBase, tileBase, tileSize, controlBase]
  rw [if_neg (by omega), if_neg (by omega), if_neg (by omega), if_neg (by omega), if_neg (by omega), if_pos (by omega)]

/-- Words read through the windows are tile SRAM's, and reading them changes nothing. -/
theorem anyReads_windows (p : Pkg) (n a : Nat) (hlo : tileBase ≤ a) (hhi : a + 16 * n ≤ tileBase + 192 * tileSize) :
    p.anyReads a n = ((List.range n).map fun i => p.sramRead (a + 16 * i), p) := by
  induction n generalizing a with
  | zero => rfl
  | succ n ih =>
    have hread : p.anyRead a = (p.sramRead a, p) := by rw [Pkg.anyRead, regionOf_window hlo (by omega)]
    rw [Pkg.anyReads, hread, ih (a + 16) (by omega) (by omega), List.range_succ_eq_map, List.map_cons, List.map_map]
    refine Prod.ext (congrArg₂ List.cons rfl (List.map_congr_left fun i _ => congrArg p.sramRead ?_)) rfl
    simp only [Nat.succ_eq_add_one]
    omega

theorem reg_of_dict {p q : Pkg} (h : q.dict = p.dict) (k : Nat) : q.reg k = p.reg k := by rw [Pkg.reg, h, Pkg.reg]

theorem sramMerge_eq (p : Pkg) (a : Nat) (mask : List Bool) (v : Option W128) :
    p.sramMerge a mask v = p ∨ ∃ w, p.sramMerge a mask v = p.sramWrite a w := by
  unfold Pkg.sramMerge
  split
  · exact .inr ⟨_, rfl⟩
  · split
    · split <;> exact .inr ⟨_, rfl⟩
    · exact .inl rfl

/-- What writes to the words between lo and hi leave: objects, tiles, and the bytes outside. -/
structure WordsWritten (lo hi : Nat) (p q : Pkg) : Prop where
  dict : q.dict = p.dict
  tiles : q.tiles = p.tiles
  byte : ∀ b, b < lo ∨ hi ≤ b → q.byte b = p.byte b

theorem WordsWritten.anyMerge {lo hi a : Nat} {p q : Pkg} (mask : List Bool) (v : Option W128) (hlo : tileBase ≤ a)
    (hhi : a < tileBase + 192 * tileSize) (hin : lo ≤ a) (hout : a + 16 ≤ hi) (h : WordsWritten lo hi p q) :
    WordsWritten lo hi p (q.anyMerge a mask v) := by
  rw [Pkg.anyMerge, regionOf_window hlo hhi]
  dsimp only
  obtain heq | ⟨w, heq⟩ := sramMerge_eq q a mask v
  · rw [heq]
    exact h
  · rw [heq]
    exact ⟨(sramWrite_dict q a w).trans h.dict, (sramWrite_tiles q a w).trans h.tiles,
      fun b hb => (sramWrite_byte_other q a b w (by omega)).trans (h.byte b hb)⟩

/-- An agent's write within the windows changes no byte outside the words that it meets. -/
theorem anyWriteBytes_windows (p : Pkg) (a : Nat) (l : List Byte) (hlo : tileBase ≤ a) (hhi : a + l.length ≤ tileBase + 192 * tileSize) :
    WordsWritten (a / 16 * 16) (a / 16 * 16 + 16 * ceilDiv (a % 16 + l.length) 16) p (p.anyWriteBytes a l) := by
  simp only [tileBase, tileSize] at hlo hhi
  refine List.foldlRecOn (motive := WordsWritten (a / 16 * 16) (a / 16 * 16 + 16 * ceilDiv (a % 16 + l.length) 16) p) _ _
    ⟨rfl, rfl, fun _ _ => rfl⟩ fun q h i hi => ?_
  have hi := List.mem_range.mp hi
  simp only [ceilDiv] at hi ⊢
  exact h.anyMerge _ _ (by simp only [tileBase]; omega) (by simp only [tileBase, tileSize]; omega) (by omega) (by omega)

/-- The mask and the data of a write of a whole aligned word. -/
theorem maskOf_aligned (a : Nat) : (maskOf a a 16).all (fun b => b) = true := by
  simp only [maskOf, List.all_map, List.all_eq_true, List.mem_range, Function.comp, decide_eq_true_eq]
  intro i hi
  omega

theorem dataOf_aligned (a : Nat) (l : List Byte) (hl : l.length = 16) : dataOf a a l = BitVec.ofNat 128 (leNat l) := by
  refine congrArg (fun b => BitVec.ofNat 128 (leNat b)) (List.ext_getElem (by simp [hl]) fun i hi _ => ?_)
  have hlen : i < l.length := by simpa [hl] using hi
  simp [hlen]

theorem anyWriteBytes_word (p : Pkg) (a : Nat) (l : List Byte) (hlo : tileBase ≤ a) (hhi : a < tileBase + 192 * tileSize)
    (h16 : a % 16 = 0) (hl : l.length = 16) : p.anyWriteBytes a l = p.sramWrite a (some (BitVec.ofNat 128 (leNat l))) := by
  have hone : ceilDiv (a % 16 + l.length) 16 = 1 := by rw [h16, hl]; rfl
  have ha : a / 16 * 16 + 16 * 0 = a := by omega
  rw [Pkg.anyWriteBytes, hone]
  simp only [List.range_one, List.foldl_cons, List.foldl_nil, ha, hl]
  rw [Pkg.anyMerge, regionOf_window hlo hhi]
  simp only [Pkg.sramMerge]
  rw [if_pos (maskOf_aligned a), dataOf_aligned a l hl]

theorem anyWriteBytes_reserved_windows (p : Pkg) (a : Nat) (l : List Byte) (hlo : tileBase + 192 * tileSize ≤ a) (hhi : a + l.length ≤ controlBase) :
    (p.anyWriteBytes a l).mem = p.mem ∧ (p.anyWriteBytes a l).dict = p.dict ∧ (p.anyWriteBytes a l).tiles = p.tiles := by
  simp only [tileBase, tileSize, controlBase] at hlo hhi
  refine List.foldlRecOn (motive := fun q : Pkg => q.mem = p.mem ∧ q.dict = p.dict ∧ q.tiles = p.tiles) _ _ ⟨rfl, rfl, rfl⟩
    fun q h i hi => ?_
  have hi := List.mem_range.mp hi
  simp only [ceilDiv] at hi ⊢
  rw [Pkg.anyMerge, regionOf_reserved_window (by simp only [tileBase, tileSize]; omega) (by simp only [controlBase]; omega)]
  exact h

theorem inWindows_iff (a n : Nat) : inWindows a n = true ↔ tileBase ≤ a ∧ a + n ≤ controlBase := by simp [inWindows]

theorem windowRead_delivers (s : State) (a n : Nat) (hruns : s.Runs .control) (hn : 1 ≤ n) (hlo : tileBase ≤ a)
    (hhi : a + n ≤ tileBase + 192 * tileSize) :
    ∃ t ws, exec (.tileSramWindowAccess (.read a n)) s = .next t ∧ ws.length = ceilDiv (a % 16 + n) 16 ∧
      t.pkg = s.pkg.emit (.readData ws) ∧ ∀ i < ws.length, ws[i]? = some (s.pkg.sramRead (a / 16 * 16 + 16 * i)) := by
  have hexec : exec (.tileSramWindowAccess (.read a n)) s = execTileSramWindowAccess (.read a n) s := rfl
  have hin : inWindows a n = true := (inWindows_iff a n).mpr ⟨hlo, by simp only [tileBase, tileSize, controlBase] at *; omega⟩
  simp only [tileBase, tileSize] at hlo hhi
  rw [hexec, execTileSramWindowAccess, on_runs s _ _ hruns]
  dsimp only
  rw [hin, if_neg (by decide), if_neg (by omega), anyReads_windows _ _ _ (by simp only [tileBase]; omega)
    (by simp only [tileBase, tileSize, ceilDiv]; omega)]
  refine ⟨_, _, rfl, by rw [List.length_map, List.length_range], rfl, fun i hi => ?_⟩
  simp only [List.length_map, List.length_range] at hi
  simp [hi]

theorem windowWrite_writes (s : State) (a : Nat) (l : List Byte) (hruns : s.Runs .control) (hlo : tileBase ≤ a)
    (hhi : a + l.length ≤ tileBase + 192 * tileSize) :
    ∃ t, exec (.tileSramWindowAccess (.write a l)) s = .next t ∧ (s.MemoryCanonical → t.MemoryCanonical) ∧ SameRegs s t ∧
      t.pkg.tiles = s.pkg.tiles ∧ (a % 16 = 0 → l.length = 16 → t.pkg.sramRead a = some (BitVec.ofNat 128 (leNat l))) ∧
      SameMemoryBut (fun b => a / 16 * 16 ≤ b ∧ b < a / 16 * 16 + 16 * ceilDiv (a % 16 + l.length) 16) s t := by
  have hexec : exec (.tileSramWindowAccess (.write a l)) s = execTileSramWindowAccess (.write a l) s := rfl
  have hin : inWindows a l.length = true := (inWindows_iff a _).mpr ⟨hlo, by simp only [tileBase, tileSize, controlBase] at *; omega⟩
  have hw := anyWriteBytes_windows s.pkg a l hlo hhi
  rw [hexec, execTileSramWindowAccess, on_runs s _ _ hruns]
  dsimp only
  rw [if_pos hin]
  refine ⟨_, rfl, fun h => anyWriteBytes_wf s.pkg a l h, reg_of_dict hw.dict, hw.tiles, fun h16 hl => ?_,
    fun b hb => hw.byte b (by omega)⟩
  rw [settle_pkg, anyWriteBytes_word s.pkg a l hlo (by omega) h16 hl, sramRead_sramWrite_self]

theorem windowWrite_reserved (s : State) (a : Nat) (l : List Byte) (hruns : s.Runs .control) (hlo : tileBase + 192 * tileSize ≤ a)
    (hhi : a + l.length ≤ controlBase) :
    ∃ t, exec (.tileSramWindowAccess (.write a l)) s = .next t ∧ SameMemory s t ∧ SameRegs s t ∧ t.pkg.tiles = s.pkg.tiles := by
  have hexec : exec (.tileSramWindowAccess (.write a l)) s = execTileSramWindowAccess (.write a l) s := rfl
  have hin : inWindows a l.length = true := (inWindows_iff a _).mpr ⟨by omega, hhi⟩
  obtain ⟨hmem, hdict, htiles⟩ := anyWriteBytes_reserved_windows s.pkg a l hlo hhi
  rw [hexec, execTileSramWindowAccess, on_runs s _ _ hruns]
  dsimp only
  rw [if_pos hin]
  exact ⟨_, rfl, fun b => congrArg (SMap.at 0 b) hmem, reg_of_dict hdict, htiles⟩

/-- Settles O10: each command by the branch of its premises; the end of a run tile by tile, a window access word by word. -/
theorem selfTestAndTileWindow : Obligations.SelfTestAndTileWindow :=
  ⟨⟨bistOwner_accepted, bistOwner_refused, bistRequest_starts, bistComplete_retires⟩,
    windowRead_delivers, windowWrite_writes, windowWrite_reserved⟩

end Sys2Proof.Machine

namespace Sys2Proof.Machine

/-! ## Vector registers (R105, R107, R127) -/

/-- The correction of a word is a codeword. -/
theorem syndrome_of_corrected {x w : PWord} {i : Nat} (h : checkWord x = .corrected w i) : syndrome w = (0, 0, 0, 0) := by
  have hclear : ∀ k < 36, ∀ e, syndScale e (column k) = syndrome x → syndrome (addSym x k e) = (0, 0, 0, 0) := by
    intro k hk e he
    have hself (y : BitVec 4) : y ^^^ y = 0 := BitVec.xor_self
    rw [syndrome_addSym x k e hk, he]
    simp only [syndAdd, hself]
  unfold checkWord at h
  dsimp only at h
  split at h
  · cases h
  · split at h
    · cases h
    · split at h
      · split at h
        next k hk =>
          cases h
          have hfound := List.find?_some hk
          simp only [decide_eq_true_eq] at hfound
          exact hclear _ (List.mem_range.mp (List.mem_of_find?_eq_some hk)) _ hfound.2
        next => cases h
      next hfirst =>
        split at h
        next hlast =>
          cases h
          refine hclear 33 (by omega) _ ?_
          rw [syndScale_thirtyThree]
          have hparts : syndrome x = (0, (syndrome x).2.1, 0, 0) := Prod.ext (not_not.mp hfirst) (Prod.ext rfl (Prod.ext hlast.1 hlast.2))
          exact hparts.symm
        next => cases h

/-- A word that is corrected reads as its correction does. -/
theorem readWord_of_corrected {x w : PWord} {i : Nat} (h : checkWord x = .corrected w i) : readWord w = readWord x := by
  rw [readWord_clean w (syndrome_of_corrected h), readWord, h]

/-- w holds what v holds, word by word as read, and is v otherwise. -/
structure ReadsAs (v w : VecEng) : Prop where
  rest : w = { v with regs := w.regs }
  word : ∀ k q, readWord (w.word k q) = readWord (v.word k q)

theorem ReadsAs.refl (v : VecEng) : ReadsAs v v := ⟨rfl, fun _ _ => rfl⟩

theorem ReadsAs.trans {u v w : VecEng} (h : ReadsAs u v) (h' : ReadsAs v w) : ReadsAs u w :=
  ⟨by rw [h'.rest, h.rest], fun k q => (h'.word k q).trans (h.word k q)⟩

theorem ReadsAs.read {v w : VecEng} (h : ReadsAs v w) (k : Nat) : w.read k = v.read k := by
  simp only [VecEng.read, h.word]

theorem fixWord_readsAs (v : VecEng) (r q : Nat) : ReadsAs v (v.fixWord r q) := by
  unfold VecEng.fixWord
  split
  next w i h =>
    refine ⟨rfl, fun k q' => ?_⟩
    by_cases hkey : k * 16 + q' = r * 16 + q
    · rw [VecEng.word, VecEng.word, hkey, SMap.at_put_self]
      exact readWord_of_corrected h
    · rw [VecEng.word, SMap.at_put_other _ _ _ _ _ hkey, VecEng.word]
  next => exact .refl v

/-- R105: writing back what is corrected changes no value that a register reads as. -/
theorem fix_readsAs (v : VecEng) (r : Nat) : ReadsAs v (v.fix r) :=
  foldl_invariant (ReadsAs v) (fun w q h => h.trans (fixWord_readsAs w r q)) _ (.refl v)

theorem foldl_fix_readsAs (v : VecEng) (l : List Nat) : ReadsAs v (l.foldl VecEng.fix v) :=
  foldl_invariant (ReadsAs v) (fun w r h => h.trans (fix_readsAs w r)) _ (.refl v)

/-- The words of a register that has been written, and of the others. -/
theorem write_word (v : VecEng) (r k q : Nat) (x : VVal) (hq : q < 16) :
    (v.write r x).word k q = if k = r then packWord (x.word q) else v.word k q := by
  have hround : ∀ n ≤ 16, ((List.range n).foldl (fun m q => m.put zeroWord (r * 16 + q) (packWord (x.word q))) v.regs).at zeroWord (k * 16 + q) =
      if k = r ∧ q < n then packWord (x.word q) else v.word k q := by
    intro n hn
    induction n with
    | zero => rw [if_neg (by omega)]; rfl
    | succ n ih =>
      rw [List.range_succ, List.foldl_append, List.foldl_cons, List.foldl_nil]
      by_cases hkey : k * 16 + q = r * 16 + n
      · have hk : k = r := by omega
        have hqn : q = n := by omega
        subst hk hqn
        rw [SMap.at_put_self, if_pos ⟨rfl, by omega⟩]
      · rw [SMap.at_put_other _ _ _ _ _ hkey, ih (by omega)]
        have hiff : (k = r ∧ q < n) ↔ (k = r ∧ q < n + 1) := by omega
        simp only [hiff]
  have h := hround 16 (le_refl 16)
  simp only [hq, and_true] at h
  exact h

/-- A register's value as it is stored: four lanes to a word, a poisoned word without its lanes. -/
def VVal.stored (x : VVal) : VVal :=
  ⟨(List.range 64).map fun l => ((x.word (l / 4)).getD 0).extractLsb' (32 * (l % 4)) 32, (List.range 16).map fun q => (x.word q).isNone⟩

@[simp] theorem read_write_self (v : VecEng) (r : Nat) (x : VVal) : (v.write r x).read r = x.stored := by
  have hword : ∀ q < 16, readWord ((v.write r x).word r q) = x.word q := fun q hq => by
    rw [write_word v r r q x hq, if_pos rfl, readWord_packWord]
  have hwords : ((List.range 16).map fun q => readWord ((v.write r x).word r q)) = (List.range 16).map fun q => x.word q :=
    List.map_congr_left fun q hq => hword q (List.mem_range.mp hq)
  unfold VecEng.read VVal.stored
  dsimp only
  rw [hwords]
  refine congrArg₂ VVal.mk (List.map_congr_left fun l hl => ?_) (by rw [List.map_map]; rfl)
  have hl := List.mem_range.mp hl
  rw [List.getD_eq_getElem _ _ (by rw [List.length_map, List.length_range]; omega), List.getElem_map, List.getElem_range]

theorem read_write_other (v : VecEng) (r k : Nat) (x : VVal) (hk : k ≠ r) : (v.write r x).read k = v.read k := by
  have hword : ∀ q < 16, readWord ((v.write r x).word k q) = readWord (v.word k q) := fun q hq => by
    rw [write_word v r k q x hq, if_neg hk]
  have hwords : ((List.range 16).map fun q => readWord ((v.write r x).word k q)) = (List.range 16).map fun q => readWord (v.word k q) :=
    List.map_congr_left fun q hq => hword q (List.mem_range.mp hq)
  unfold VecEng.read
  rw [hwords]

/-- A word of four lanes gives each of them back. -/
theorem word_lane (x : VVal) (q i : Nat) (hi : i < 4) :
    (BitVec.ofNat 128 ((List.range 4).foldr (fun i acc => (x.lanes.getD (4 * q + i) 0).toNat + 2 ^ 32 * acc) 0)).extractLsb' (32 * i) 32 =
      x.lanes.getD (4 * q + i) 0 := by
  have hlist : List.range 4 = [0, 1, 2, 3] := rfl
  simp only [hlist, List.foldr_cons, List.foldr_nil]
  generalize h0 : x.lanes.getD (4 * q + 0) 0 = a
  generalize h1 : x.lanes.getD (4 * q + 1) 0 = b
  generalize h2 : x.lanes.getD (4 * q + 2) 0 = c
  generalize h3 : x.lanes.getD (4 * q + 3) 0 = d
  have ha := a.isLt
  have hb := b.isLt
  have hc := c.isLt
  have hd := d.isLt
  apply BitVec.eq_of_toNat_eq
  rw [BitVec.extractLsb'_toNat, BitVec.toNat_ofNat, Nat.shiftRight_eq_div_pow]
  interval_cases i
  · rw [h0]; omega
  · rw [h1]; omega
  · rw [h2]; omega
  · rw [h3]; omega

theorem stored_lane (x : VVal) (l : Nat) (hl : l < 64) (hclean : x.poison.getD (l / 4) false = false) :
    x.stored.lanes.getD l 0 = x.lanes.getD l 0 := by
  have hlane : 4 * (l / 4) + l % 4 = l := by omega
  have hword := word_lane x (l / 4) (l % 4) (by omega)
  rw [hlane] at hword
  rw [VVal.stored, List.getD_eq_getElem _ _ (by rw [List.length_map, List.length_range]; omega), List.getElem_map, List.getElem_range,
    VVal.word, if_neg (by rw [hclean]; decide), Option.getD_some, hword]

theorem stored_poison (x : VVal) : x.stored.poison = (List.range 16).map fun q => x.poison.getD q false := by
  refine List.map_congr_left fun q _ => ?_
  unfold VVal.word
  cases h : x.poison.getD q false <;> rfl

/-- The 16 words of a list are themselves. -/
theorem map_range_getD {α : Type} (l : List α) (d : α) : ((List.range l.length).map fun i => l.getD i d) = l := by
  refine List.ext_getElem (by simp) fun i hi _ => ?_
  rw [List.length_map, List.length_range] at hi
  simp [hi]

theorem register_readsBack (v : VecEng) (r : Nat) (x : VVal) (hr : r < 32) (hlanes : x.lanes.length = 64) (hpoison : x.poison.length = 16) :
    ((v.write r x).read r).poison = x.poison ∧
      (∀ l < 64, x.poison.getD (l / 4) false = false → ((v.write r x).read r).lanes.getD l 0 = x.lanes.getD l 0) ∧
      ∀ k, k ≠ r → (v.write r x).read k = v.read k := by
  refine ⟨?_, fun l hl hclean => ?_, fun k hk => read_write_other v r k x hk⟩
  · have hall := map_range_getD x.poison false
    rw [hpoison] at hall
    rw [read_write_self, stored_poison, hall]
  · rw [read_write_self, stored_lane x l hl hclean]

/-- No word of the value is poisoned. -/
def VVal.Sound (x : VVal) : Prop := ∀ q, x.poison.getD q false = false

theorem sound_of_replicate {x : VVal} {n : Nat} (h : x.poison = List.replicate n false) : x.Sound := by
  intro q
  rw [h, List.getD_eq_getElem?_getD, List.getElem?_replicate]
  split <;> rfl

theorem sound_empty : (⟨[], []⟩ : VVal).Sound := fun _ => rfl

/-- What a sound value leaves in a register is what was written. -/
theorem stored_sound {x : VVal} (h : x.Sound) (l : Nat) (hl : l < 64) : x.stored.lanes.getD l 0 = x.lanes.getD l 0 := stored_lane x l hl (h _)

theorem getD_map_range {α : Type} (f : Nat → α) (d : α) (n i : Nat) : ((List.range n).map f).getD i d = if i < n then f i else d := by
  by_cases h : i < n
  · simp [h]
  · simp [h]

theorem merge_lane (old x : VVal) (m : W64) (mz : Bool) (l : Nat) (hl : l < 64) : (old.merge x m mz).lanes.getD l 0 =
    if laneOn m l then x.lanes.getD l 0 else if mz then 0 else old.lanes.getD l 0 := by
  rw [VVal.merge, getD_map_range, if_pos hl]

theorem merge_sound {old x : VVal} (hold : old.Sound) (hx : x.Sound) (m : W64) (mz : Bool) : (old.merge x m mz).Sound := by
  intro q
  rw [VVal.merge, getD_map_range]
  split
  · rw [hold q, hx q, Bool.and_false, Bool.and_false, Bool.false_and, Bool.or_false]
  · rfl

end Sys2Proof.Machine

namespace Sys2Proof.Machine

/-! ## The vector slot (R110, R118) -/

@[simp] theorem tile_setVec_self (p : Pkg) (t : Nat) (v : VecEng) : (p.setVec t v).tile t = { p.tile t with vec := v } := tile_setTile_self p t _

theorem TileStep.setVec {n : Nat} {K : Nat → Prop} {p q : Pkg} (v : VecEng) (h : TileStep n K p q) : TileStep n K p (q.setVec n v) := h.setTile _

theorem TileStep.vecPoison {n : Nat} {K : Nat → Prop} {p q : Pkg} (met : Bool) (h : TileStep n K p q) : TileStep n K p (q.vecPoison n met) :=
  .ite (h.raise _ _ _).setStepPoison h

theorem vecPoison_tile (p : Pkg) (t : Nat) (met : Bool) : ∃ b, (p.vecPoison t met).tile t = { p.tile t with stepPoison := b } := by
  unfold Pkg.vecPoison
  split
  · exact ⟨true, tile_setStepPoison_self _ t⟩
  · exact ⟨_, rfl⟩

/-- An instruction issues: its effect, and the slot of the bundle has passed. -/
theorem issueV_tile (p : Pkg) (i : Instr) (t c : Nat) : (issueV p i t c).tile t =
    { (vRun (p.bump64 (p.tileCounter O.vectorCounters 0 t) 1) c i).tile t with
      vec := { ((vRun (p.bump64 (p.tileCounter O.vectorCounters 0 t) 1) c i).tile t).vec with bundle := none } } := by
  unfold issueV
  dsimp only
  split
  next => rw [tile_setVec_self]
  next h =>
    rw [Bool.not_eq_true, Option.isSome_eq_false_iff, Option.isNone_iff_eq_none] at h
    rw [← h]

/-- The counter of busy cycles of a tile's vector slot. -/
abbrev Pkg.vectorBusy (p : Pkg) (t : Nat) : Nat := p.tileCounter O.vectorCounters 0 t

theorem issueV_step {p : Pkg} {i : Instr} {t c : Nat} {K : Nat → Prop} (hcount : K (p.vectorBusy t))
    (h : ∀ q, TileStep t K p q → TileStep t K p (vRun q c i)) : TileStep t K p (issueV p i t c) := by
  have hran := h _ ((TileStep.refl p).bump64 hcount 1)
  exact .ite (hran.setVec _) hran

section
variable {s : State} {i : Instr} {t : TileNo} {c : Nat}

theorem atVec_tile (s : State) (t : TileNo) (c : Nat) : (s.atVec t c).pkg.tile t.val = { s.pkg.tile t.val with
    vec := (mdvPush c (mdvFuel (s.vec t)) (s.vec t)).1 } := drainRows_tile s.pkg t.val c

/-- The state that a vector slot meets differs in its drain queue and the rows that wait for it. -/
theorem atVec_vec (s : State) (t : TileNo) (c : Nat) : ∃ queue mdv, (s.atVec t c).vec t = { s.vec t with queue := queue, mdv := mdv } := by
  obtain ⟨queue, mdv, hpush, -⟩ := mdvPush_spec c (mdvFuel (s.vec t)) (s.vec t)
  refine ⟨queue, mdv, ?_⟩
  rw [State.vec, atVec_tile]
  exact hpush

theorem atVec_step (s : State) (t : TileNo) (c : Nat) : TileStep t.val (fun _ => True) s.pkg (s.atVec t c).pkg := drainRows_step s.pkg c trivial

theorem atVec_tileCounter (s : State) (t : TileNo) (c base j : Nat) :
    (s.atVec t c).pkg.tileCounter base j t.val = s.pkg.tileCounter base j t.val := by
  have hstep : TileStep t.val (fun k => k = s.pkg.tileCounter O.vectorCounters 3 t.val) s.pkg (s.atVec t c).pkg := drainRows_step s.pkg c rfl
  refine hstep.tileCounter (fun k hk => ?_) t.isLt base j
  rw [hk]
  exact le_trans (by decide : O.spareCol + 16 ≤ O.vectorCounters) (tileCounter_le s.pkg O.vectorCounters 3 t.val)

/-- A command that nothing holds issues on the package that its slot meets. -/
theorem slotV_of_issues (h : VectorIssues i t c s) : slotV s.pkg i t.val c = issueV (s.atVec t c).pkg i t.val c := by
  obtain ⟨-, hfree, hgo⟩ := h
  have hstop : ¬ ((s.atVec t c).pkg.tile t.val).free = false := by rw [hfree]; decide
  have hrun : ¬ vMustHold ((s.atVec t c).pkg.tile t.val) c i = true := by rw [hgo]; decide
  exact (if_neg hstop).trans (if_neg hrun)

theorem slotV_next (h : VectorIssues i t c s) (m : String) :
    s.slot m true true (fun p => slotV p i t.val c) = .next (s.settle (issueV (s.atVec t c).pkg i t.val c)) := by
  rw [slot_next, on_runs s .data _ h.1, slotV_of_issues h]

theorem slotV_on (h : VectorIssues i t c s) :
    s.on .data (fun p => slotV p i t.val c) = .next (s.settle (issueV (s.atVec t c).pkg i t.val c)) := by
  rw [on_runs s .data _ h.1, slotV_of_issues h]

end

/-! ### What stays of a vector engine -/

/-- Masks, contexts, pointers and the record of w are those of v. -/
structure VecKept (v w : VecEng) : Prop where
  masks : w.masks = v.masks
  ctx : w.ctx = v.ctx
  ptrs : w.ptrs = v.ptrs
  record : w.record = v.record

theorem VecKept.trans {u v w : VecEng} (h : VecKept u v) (h' : VecKept v w) : VecKept u w :=
  ⟨h'.masks.trans h.masks, h'.ctx.trans h.ctx, h'.ptrs.trans h.ptrs, h'.record.trans h.record⟩

theorem atVec_kept (s : State) (t : TileNo) (c : Nat) : VecKept (s.vec t) ((s.atVec t c).vec t) := by
  obtain ⟨queue, mdv, h⟩ := atVec_vec s t c
  rw [h]
  exact ⟨rfl, rfl, rfl, rfl⟩

theorem atVec_regs (s : State) (t : TileNo) (c : Nat) : ((s.atVec t c).vec t).regs = (s.vec t).regs := by
  obtain ⟨queue, mdv, h⟩ := atVec_vec s t c
  rw [h]

theorem read_of_regs {v w : VecEng} (h : w.regs = v.regs) (r : Nat) : w.read r = v.read r := by
  simp only [VecEng.read, VecEng.word, h]

theorem atVec_read (s : State) (t : TileNo) (c r : Nat) : ((s.atVec t c).vec t).read r = (s.vec t).read r := read_of_regs (atVec_regs s t c) r

theorem mask_of_masks {v w : VecEng} (h : w.masks = v.masks) (k : Nat) : w.mask k = v.mask k := by rw [VecEng.mask, h, VecEng.mask]

theorem atVec_mask (s : State) (t : TileNo) (c k : Nat) : ((s.atVec t c).vec t).mask k = (s.vec t).mask k :=
  mask_of_masks (atVec_kept s t c).masks k

theorem ReadsAs.kept {v w : VecEng} (h : ReadsAs v w) : VecKept v w := by
  rw [h.rest]
  exact ⟨rfl, rfl, rfl, rfl⟩

/-! ### Lane-wise commands -/

/-- The sources of a lane command, as read. -/
def laneSources (v : VecEng) (a : VRegForm) (n : Nat) : List VVal :=
  [v.read a.va.val, if n ≥ 2 then v.read a.vb.val else ⟨[], []⟩, if n ≥ 3 then v.read a.vc.val else ⟨[], []⟩].take n

/-- The result of a lane command on every lane. -/
def laneResult (v : VecEng) (a : VRegForm) (n : Nat) (f : W32 → W32 → W32 → W32) : VVal :=
  ⟨(List.range 64).map fun l => f ((v.read a.va.val).lanes.getD l 0) ((if n ≥ 2 then v.read a.vb.val else ⟨[], []⟩).lanes.getD l 0)
      ((if n ≥ 3 then v.read a.vc.val else ⟨[], []⟩).lanes.getD l 0),
    (List.range 16).map fun q => (laneSources v a n).any fun s => s.poison.getD q false⟩

/-- The engine once a lane command has written its result, before its share of the record. -/
def laneWritten (v : VecEng) (a : VRegForm) (c n : Nat) (f : W32 → W32 → W32 → W32) (lat : Nat) : VecEng :=
  let fixed := ([a.va.val, a.vb.val, a.vc.val].take n).foldl VecEng.fix v
  (fixed.write a.vd.val ((fixed.read a.vd.val).merge (laneResult v a n f) (v.mask a.msk.val) a.mz)).setReady a.vd.val (c + lat)

theorem noteLate_late (v : VecEng) (c : Nat) (r : VecRec) : ∃ late, v.noteLate c r = { v with late := late } := by
  unfold VecEng.noteLate
  split
  · exact ⟨_, rfl⟩
  · exact ⟨_, rfl⟩

theorem vLanes_eq (p : Pkg) (a : VRegForm) (c n : Nat) (f : W32 → W32 → W32 → W32) (lat : Nat) (watch : Bool) :
    ∃ late met, vLanes p a c n f lat watch = (p.setVec a.t.val { laneWritten (p.tile a.t.val).vec a c n f lat with late := late }).vecPoison
      a.t.val met := by
  obtain ⟨late, hlate⟩ : ∃ late, (if watch then (laneWritten (p.tile a.t.val).vec a c n f lat).noteLate (c + lat)
      (VecRec.reset.noteAll (laneResult (p.tile a.t.val).vec a n f) ((p.tile a.t.val).vec.mask a.msk.val) c (p.tile a.t.val).bundleIndex 0)
      else laneWritten (p.tile a.t.val).vec a c n f lat) = { laneWritten (p.tile a.t.val).vec a c n f lat with late := late } := by
    split
    · exact noteLate_late _ _ _
    · exact ⟨_, rfl⟩
  exact ⟨late, metPoison ((p.tile a.t.val).vec.mask a.msk.val) (laneSources (p.tile a.t.val).vec a n), by rw [← hlate]; rfl⟩

theorem vLanes_step {p q : Pkg} {K : Nat → Prop} (a : VRegForm) (c n : Nat) (f : W32 → W32 → W32 → W32) (lat : Nat) (watch : Bool)
    (h : TileStep a.t.val K p q) : TileStep a.t.val K p (vLanes q a c n f lat watch) := by
  obtain ⟨late, met, heq⟩ := vLanes_eq q a c n f lat watch
  rw [heq]
  exact (h.setVec _).vecPoison _

theorem vLanes_tile (p : Pkg) (a : VRegForm) (c n : Nat) (f : W32 → W32 → W32 → W32) (lat : Nat) (watch : Bool) :
    ∃ late b, (vLanes p a c n f lat watch).tile a.t.val = { p.tile a.t.val with
      vec := { laneWritten (p.tile a.t.val).vec a c n f lat with late := late }, stepPoison := b } := by
  obtain ⟨late, met, heq⟩ := vLanes_eq p a c n f lat watch
  obtain ⟨b, hb⟩ := vecPoison_tile (p.setVec a.t.val { laneWritten (p.tile a.t.val).vec a c n f lat with late := late }) a.t.val met
  exact ⟨late, b, by rw [heq, hb, tile_setVec_self]⟩

/-- What the written engine reads as, and what it keeps. -/
structure LanesWritten (v w : VecEng) (a : VRegForm) (c n : Nat) (f : W32 → W32 → W32 → W32) (lat : Nat) : Prop where
  kept : VecKept v w
  queue : w.queue = v.queue
  ready : w.ready.at 0 a.vd.val = c + lat
  other : ∀ r, r ≠ a.vd.val → w.read r = v.read r
  vd : w.read a.vd.val = ((v.read a.vd.val).merge (laneResult v a n f) (v.mask a.msk.val) a.mz).stored

theorem laneWritten_spec (v : VecEng) (a : VRegForm) (c n : Nat) (f : W32 → W32 → W32 → W32) (lat : Nat) :
    LanesWritten v (laneWritten v a c n f lat) a c n f lat := by
  have hfix := foldl_fix_readsAs v ([a.va.val, a.vb.val, a.vc.val].take n)
  unfold laneWritten
  generalize List.foldl VecEng.fix v _ = w at hfix
  dsimp only
  refine ⟨⟨hfix.kept.masks, hfix.kept.ctx, hfix.kept.ptrs, hfix.kept.record⟩, ?_, SMap.at_put_self _ _ _ _, fun r hr => ?_, ?_⟩
  · exact (by rw [hfix.rest] : w.queue = v.queue)
  · exact (read_write_other w a.vd.val r _ hr).trans (hfix.read r)
  · exact (read_write_self w a.vd.val _).trans (by rw [hfix.read])

theorem laneResult_sound {v : VecEng} (hclean : ∀ r : Fin 32, (v.read r.val).Sound) (a : VRegForm) (n : Nat) (f : W32 → W32 → W32 → W32) :
    (laneResult v a n f).Sound := by
  have hsrc : ∀ x ∈ laneSources v a n, x.Sound := by
    intro x hx
    have hx := List.mem_of_mem_take hx
    simp only [List.mem_cons, List.not_mem_nil, or_false] at hx
    obtain rfl | rfl | rfl := hx
    · exact hclean a.va
    · split
      · exact hclean a.vb
      · exact sound_empty
    · split
      · exact hclean a.vc
      · exact sound_empty
  intro q
  rw [laneResult, getD_map_range]
  split
  · exact List.any_eq_false.mpr fun x hx => by rw [hsrc x hx q]; decide
  · rfl

theorem laneResult_lane (v : VecEng) (a : VRegForm) (n : Nat) (f : W32 → W32 → W32 → W32) (l : Nat) (hl : l < 64) :
    (laneResult v a n f).lanes.getD l 0 = f ((v.read a.va.val).lanes.getD l 0) (if 2 ≤ n then (v.read a.vb.val).lanes.getD l 0 else 0)
      (if 3 ≤ n then (v.read a.vc.val).lanes.getD l 0 else 0) := by
  have hpick : ∀ (k : Nat) (x : VVal), (if n ≥ k then x else ⟨[], []⟩).lanes.getD l 0 = if k ≤ n then x.lanes.getD l 0 else 0 := by
    intro k x
    by_cases hk : k ≤ n
    · rw [if_pos hk, if_pos hk]
    · rw [if_neg hk, if_neg hk]; rfl
  rw [laneResult, getD_map_range, if_pos hl, hpick, hpick]

theorem execV2_on {a : VRegForm} {vaOnly : Bool} {i : Instr} (m : String) (hok : regFormOk a vaOnly = true) (s : State) :
    execV2 m a i vaOnly s = s.on .data fun p => slotV p i a.t.val a.cyc := by
  rw [execV2, hok, slot_next]

/-- The commands of laneForm issue by their slot, and run on the lanes. -/
theorem laneForm_runs {i : Instr} {a : VRegForm} {n : Nat} {f : W32 → W32 → W32 → W32} {lat : Nat} (h : laneForm i = some (a, n, f, lat))
    (hwf : i.wf = true) : (∀ s, exec i s = s.on .data fun p => slotV p i a.t.val a.cyc) ∧
      ∃ watch, ∀ p c, vRun p c i = vLanes p a c n f lat watch := by
  have hva : ∀ (b : VRegForm), b.sources 1 = true → regFormOk b true = true := by
    intro b hb
    simpa [VRegForm.sources, regFormOk] using hb
  unfold laneForm at h
  split at h <;> cases h
  case h_9 | h_10 | h_11 | h_12 | h_13 | h_14 | h_15 | h_16 | h_17 | h_18 =>
    exact ⟨fun s => execV2_on _ (hva a hwf) s, _, fun _ _ => rfl⟩
  all_goals exact ⟨fun _ => rfl, _, fun _ _ => rfl⟩

theorem laneForm_issues (s : State) (i : Instr) (a : VRegForm) (n : Nat) (f : W32 → W32 → W32 → W32) (lat : Nat)
    (hform : laneForm i = some (a, n, f, lat)) (hwf : i.wf = true) (h : VectorIssues i a.t a.cyc s)
    (hclean : ∀ r : Fin 32, ((s.vec a.t).read r.val).poison = List.replicate 16 false) :
    ∃ t, exec i s = .next t ∧
      (∀ l < 64, ((t.vec a.t).read a.vd.val).lanes.getD l 0 =
        if laneOn ((s.vec a.t).mask a.msk.val) l then
          f (((s.vec a.t).read a.va.val).lanes.getD l 0) (if 2 ≤ n then ((s.vec a.t).read a.vb.val).lanes.getD l 0 else 0)
            (if 3 ≤ n then ((s.vec a.t).read a.vc.val).lanes.getD l 0 else 0)
        else if a.mz then 0 else ((s.vec a.t).read a.vd.val).lanes.getD l 0) ∧
      (∀ r : Fin 32, r ≠ a.vd → (t.vec a.t).read r.val = (s.vec a.t).read r.val) ∧
      (t.vec a.t).ready.at 0 a.vd.val = a.cyc + lat ∧ (t.vec a.t).masks = (s.vec a.t).masks ∧ (t.vec a.t).ctx = (s.vec a.t).ctx ∧
      (t.vec a.t).ptrs = (s.vec a.t).ptrs ∧ (t.vec a.t).queue = ((s.atVec a.t a.cyc).vec a.t).queue ∧
      (t.vec a.t).record = (s.vec a.t).record ∧ t.mx a.t = s.mx a.t ∧ t.seqr a.t = s.seqr a.t ∧
      SameMemory s t ∧ SameTilesBut a.t.val s t ∧
      SameRegsBut (fun k => k = s.pkg.tileCounter O.vectorCounters 0 a.t.val) (s.atVec a.t a.cyc) t := by
  obtain ⟨hexec, watch, hrun⟩ := laneForm_runs hform hwf
  have hmeet := atVec_step s a.t a.cyc
  have hstep : TileStep a.t.val (fun k => k = (s.atVec a.t a.cyc).pkg.vectorBusy a.t.val) (s.atVec a.t a.cyc).pkg
      (issueV (s.atVec a.t a.cyc).pkg i a.t.val a.cyc) :=
    issueV_step rfl fun q hq => hrun q a.cyc ▸ vLanes_step a a.cyc n f lat watch hq
  have htile := issueV_tile (s.atVec a.t a.cyc).pkg i a.t.val a.cyc
  obtain ⟨late, b, hlanes⟩ := vLanes_tile ((s.atVec a.t a.cyc).pkg.bump64 ((s.atVec a.t a.cyc).pkg.vectorBusy a.t.val) 1) a a.cyc n f lat watch
  rw [hrun, hlanes, tile_bump64] at htile
  have hw := laneWritten_spec ((s.atVec a.t a.cyc).vec a.t) a a.cyc n f lat
  have hkept := (atVec_kept s a.t a.cyc).trans hw.kept
  have hsound : ∀ r : Fin 32, (((s.atVec a.t a.cyc).vec a.t).read r.val).Sound := fun r => by rw [atVec_read]; exact sound_of_replicate (hclean r)
  refine ⟨_, (hexec s).trans (slotV_on h), ?_, ?_, ?_, ?_, ?_, ?_, ?_, ?_, ?_, ?_, ?_, ?_, ?_⟩
  any_goals simp only [State.vec, State.mx, State.seqr, settle_pkg, htile]
  · intro l hl
    refine (congrArg (fun x : VVal => x.lanes.getD l 0) hw.vd).trans ?_
    rw [stored_sound (merge_sound (hsound a.vd) (laneResult_sound hsound a n f) _ _) l hl, merge_lane _ _ _ _ l hl, laneResult_lane _ _ _ _ l hl]
    simp only [atVec_read, atVec_mask]
  · exact fun r hr => (hw.other r.val (fun hv => hr (Fin.ext hv))).trans (atVec_read s a.t a.cyc r.val)
  · exact hw.ready
  · exact hkept.masks
  · exact hkept.ctx
  · exact hkept.ptrs
  · exact hw.queue
  · exact hkept.record
  · rw [atVec_tile]
  · rw [atVec_tile]
  · exact (hmeet.trans (hstep.mono fun _ _ => trivial)).sameMemory
  · exact (hmeet.trans (hstep.mono fun _ _ => trivial)).sameTilesBut
  · exact fun k hk => hstep.reg k fun hbusy => hk (hbusy.trans (atVec_tileCounter s a.t a.cyc O.vectorCounters 0))

/-- Settles O11: a written register reads back word by word, and a lane command writes the merge of its result. -/
theorem vectorLanes : Obligations.VectorLanes := ⟨register_readsBack, laneForm_issues⟩

end Sys2Proof.Machine

namespace Sys2Proof.Machine

/-! ## Select, permute, compare and mask commands (R110, R111) -/

/-- The package that a vector instruction runs on: the one that its slot meets, with the busy cycle counted. -/
def State.vecRuns (s : State) (t : TileNo) (c : Nat) : Pkg := (s.atVec t c).pkg.bump64 ((s.atVec t c).pkg.vectorBusy t.val) 1

/-- An object past the spare columns: among them are the counters of tiles. -/
def TileKey (k : Nat) : Prop := O.spareCol + 16 ≤ k

theorem tileKey_vectorCounter (p : Pkg) (j n : Nat) : TileKey (p.tileCounter O.vectorCounters j n) :=
  le_trans (by decide : O.spareCol + 16 ≤ O.vectorCounters) (tileCounter_le p O.vectorCounters j n)

theorem tileKey_tileCounter (p : Pkg) (j n : Nat) : TileKey (p.tileCounter O.tileCounters j n) :=
  le_trans (by decide : O.spareCol + 16 ≤ O.tileCounters) (tileCounter_le p O.tileCounters j n)

theorem vecRuns_step (s : State) (t : TileNo) (c : Nat) : TileStep t.val TileKey s.pkg (s.vecRuns t c) :=
  (drainRows_step s.pkg c (tileKey_vectorCounter _ _ _)).bump64 (tileKey_vectorCounter _ _ _) 1

/-- What an instruction's effect q becomes as it issues: the slot of the bundle has passed, and nothing else. -/
structure IssuedFrom (q : Pkg) (t : TileNo) (u : State) : Prop where
  tile : u.pkg.tile t.val = { q.tile t.val with vec := { (q.tile t.val).vec with bundle := none } }
  tiles : ∀ n, n ≠ t.val → u.pkg.tile n = q.tile n
  word : ∀ a, u.pkg.word a = q.word a
  byte : ∀ a, u.pkg.byte a = q.byte a
  ev : u.pkg.ev = q.ev

theorem IssuedFrom.vec {q : Pkg} {t : TileNo} {u : State} (h : IssuedFrom q t u) : u.vec t = { (q.tile t.val).vec with bundle := none } :=
  congrArg Tile.vec h.tile

theorem vector_runs {s : State} {i : Instr} {t : TileNo} {c : Nat} (hexec : exec i s = s.on .data fun p => slotV p i t.val c)
    (h : VectorIssues i t c s) : ∃ u, exec i s = .next u ∧ IssuedFrom (vRun (s.vecRuns t c) c i) t u := by
  refine ⟨_, hexec.trans (slotV_on h), issueV_tile _ i t.val c, fun n hn => ?_, fun a => ?_, fun a => ?_, ?_⟩
  all_goals
    rw [settle_pkg, issueV]
    dsimp only
    split
  · exact tile_setTile_other _ _ _ _ hn
  all_goals rfl

/-- A command that issues and changes its tile's engine. -/
theorem vector_issues {s : State} {i : Instr} {t : TileNo} {c : Nat} {v : VecEng} {b : Bool} {bk : SMap Nat}
    (hexec : exec i s = s.on .data fun p => slotV p i t.val c) (h : VectorIssues i t c s)
    (htile : (vRun (s.vecRuns t c) c i).tile t.val = { (s.atVec t c).pkg.tile t.val with vec := v, stepPoison := b, banks := bk })
    (hstep : ∀ p q, TileStep t.val TileKey p q → TileStep t.val TileKey p (vRun q c i)) :
    ∃ u, exec i s = .next u ∧ u.vec t = { v with bundle := none } ∧ SameMemory s u ∧ SameTilesBut t.val s u := by
  have hrun := hstep _ _ (vecRuns_step s t c)
  obtain ⟨u, hu, hfrom⟩ := vector_runs hexec h
  refine ⟨u, hu, hfrom.vec.trans ?_, fun a => (hfrom.byte a).trans ?_, fun n hn => (hfrom.tiles n hn).trans (hrun.tiles n hn)⟩
  · rw [htile]
  · rw [Pkg.byte, hrun.mem, Pkg.byte]

/-- As vector_issues, for an effect that is an engine and the step's poison bit. -/
theorem vector_sets {s : State} {i : Instr} {t : TileNo} {c : Nat} {V : Pkg → VecEng} {met : Pkg → Bool}
    (hexec : exec i s = s.on .data fun p => slotV p i t.val c) (h : VectorIssues i t c s)
    (hrun : ∀ p, vRun p c i = (p.setVec t.val (V p)).vecPoison t.val (met p)) :
    ∃ u, exec i s = .next u ∧ u.vec t = { V (s.vecRuns t c) with bundle := none } ∧ SameMemory s u ∧ SameTilesBut t.val s u := by
  obtain ⟨b, hb⟩ := vecPoison_tile ((s.vecRuns t c).setVec t.val (V (s.vecRuns t c))) t.val (met (s.vecRuns t c))
  rw [tile_setVec_self] at hb
  exact vector_issues hexec h ((congrArg (fun p => p.tile t.val) (hrun _)).trans hb) fun p q hq => hrun q ▸ (hq.setVec _).vecPoison _

theorem vecRuns_vec (s : State) (t : TileNo) (c : Nat) : ((s.vecRuns t c).tile t.val).vec = (s.atVec t c).vec t := rfl

/-- The registers of an engine that reads as v does and in which register d was written. -/
theorem written_reads {v w e : VecEng} {d : Nat} {x : VVal} (hw : ReadsAs v w) (he : e.regs = (w.write d x).regs) :
    e.read d = x.stored ∧ ∀ r, r ≠ d → e.read r = v.read r :=
  ⟨(read_of_regs he d).trans (read_write_self w d x),
    fun r hr => (read_of_regs he r).trans ((read_write_other w d r x hr).trans (hw.read r))⟩

theorem fix_fix_readsAs (v : VecEng) (r q : Nat) : ReadsAs v ((v.fix r).fix q) := (fix_readsAs v r).trans (fix_readsAs _ q)

/-- The value of VSEL. -/
def selected (v : VecEng) (a : VRegForm) : VVal :=
  ⟨(List.range 64).map fun l =>
      if laneOn (v.mask a.msk.val) l then (v.read a.va.val).lanes.getD l 0 else (v.read a.vb.val).lanes.getD l 0,
    (List.range 16).map fun q => (v.read a.va.val).poison.getD q false || (v.read a.vb.val).poison.getD q false⟩

theorem selected_sound {v : VecEng} {a : VRegForm} (ha : (v.read a.va.val).Sound) (hb : (v.read a.vb.val).Sound) : (selected v a).Sound := by
  intro q
  rw [selected, getD_map_range, ha q, hb q]
  split <;> rfl

theorem vsel_issues (s : State) (a : VRegForm) (hwf : Instr.wf (.vsel a) = true) (h : VectorIssues (.vsel a) a.t a.cyc s)
    (hclean : ∀ r : Fin 32, ((s.vec a.t).read r.val).poison = List.replicate 16 false) :
    ∃ t, exec (.vsel a) s = .next t ∧ (∀ l < 64, ((t.vec a.t).read a.vd.val).lanes.getD l 0 =
        if laneOn ((s.vec a.t).mask a.msk.val) l then ((s.vec a.t).read a.va.val).lanes.getD l 0
        else ((s.vec a.t).read a.vb.val).lanes.getD l 0) ∧
      (∀ r : Fin 32, r ≠ a.vd → (t.vec a.t).read r.val = (s.vec a.t).read r.val) ∧
      (t.vec a.t).masks = (s.vec a.t).masks ∧ SameMemory s t ∧ SameTilesBut a.t.val s t := by
  have hmz : (!a.mz) = true := (Bool.and_eq_true_iff.mp hwf).2
  have hexec : exec (.vsel a) s = s.slot "VSEL" (!a.mz) true fun p => slotV p (.vsel a) a.t.val a.cyc := rfl
  rw [hmz, slot_next] at hexec
  have hsound : ∀ r : Fin 32, (((s.atVec a.t a.cyc).vec a.t).read r.val).Sound := fun r => by
    rw [atVec_read]
    exact sound_of_replicate (hclean r)
  have hfix := fix_fix_readsAs ((s.atVec a.t a.cyc).vec a.t) a.va.val a.vb.val
  obtain ⟨u, hu, hvec, hmem, htiles⟩ := vector_sets hexec h fun _ => rfl
  rw [vecRuns_vec] at hvec
  have hregs : (u.vec a.t).regs = 
      (((((s.atVec a.t a.cyc).vec a.t).fix a.va.val).fix a.vb.val).write a.vd.val (selected ((s.atVec a.t a.cyc).vec a.t) a)).regs := by
    rw [hvec]
    rfl
  obtain ⟨hd, hother⟩ := written_reads hfix hregs
  refine ⟨u, hu, fun l hl => ?_, fun r hr => ?_, ?_, hmem, htiles⟩
  · rw [hd, stored_sound (selected_sound (hsound a.va) (hsound a.vb)) l hl, selected, getD_map_range, if_pos hl]
    simp only [atVec_read, atVec_mask]
  · exact (hother r.val fun hv => hr (Fin.ext hv)).trans (atVec_read s a.t a.cyc r.val)
  · exact (congrArg VecEng.masks hvec).trans ((atVec_kept s a.t a.cyc).trans hfix.kept).masks

/-- The value of VPERM, without the poison of a word that it reads. -/
def permuted (v : VecEng) (a : VRegForm) (met : Bool) : VVal :=
  ⟨(List.range 64).map fun l => (v.read a.va.val).lanes.getD (((v.read a.vb.val).lanes.getD l 0).toNat % 64) 0, List.replicate 16 met⟩

/-- Whether an active lane of VPERM reads a poisoned word. -/
def permMet (v : VecEng) (a : VRegForm) : Bool :=
  (List.range 64).any fun l => laneOn (v.mask a.msk.val) l && ((v.read a.vb.val).poison.getD (l / 4) false ||
    (v.read a.va.val).poison.getD (((v.read a.vb.val).lanes.getD l 0).toNat % 64 / 4) false)

/-- What VPERM writes: the merge, or poison in every word. -/
def permWritten (v w : VecEng) (a : VRegForm) : VVal :=
  if permMet v a then { (w.read a.vd.val).merge (permuted v a (permMet v a)) (v.mask a.msk.val) a.mz with poison := List.replicate 16 true }
  else (w.read a.vd.val).merge (permuted v a (permMet v a)) (v.mask a.msk.val) a.mz

theorem permMet_sound {v : VecEng} {a : VRegForm} (ha : (v.read a.va.val).Sound) (hb : (v.read a.vb.val).Sound) : permMet v a = false := by
  simp only [permMet, ha _, hb _, Bool.or_self, Bool.and_false, List.any_eq_false]
  exact fun _ _ => by decide

theorem vperm_issues (s : State) (a : VRegForm) (hwf : Instr.wf (.vperm a) = true) (h : VectorIssues (.vperm a) a.t a.cyc s)
    (hclean : ∀ r : Fin 32, ((s.vec a.t).read r.val).poison = List.replicate 16 false) :
    ∃ t, exec (.vperm a) s = .next t ∧ (∀ l < 64, laneOn ((s.vec a.t).mask a.msk.val) l = true →
        ((t.vec a.t).read a.vd.val).lanes.getD l 0 =
          ((s.vec a.t).read a.va.val).lanes.getD ((((s.vec a.t).read a.vb.val).lanes.getD l 0).toNat % 64) 0) ∧
      (∀ r : Fin 32, r ≠ a.vd → (t.vec a.t).read r.val = (s.vec a.t).read r.val) ∧
      (t.vec a.t).masks = (s.vec a.t).masks ∧ SameMemory s t ∧ SameTilesBut a.t.val s t := by
  have hexec : exec (.vperm a) s = s.on .data fun p => slotV p (.vperm a) a.t.val a.cyc := rfl
  have hsound : ∀ r : Fin 32, (((s.atVec a.t a.cyc).vec a.t).read r.val).Sound := fun r => by
    rw [atVec_read]
    exact sound_of_replicate (hclean r)
  have hfix := fix_fix_readsAs ((s.atVec a.t a.cyc).vec a.t) a.va.val a.vb.val
  have hmet : permMet ((s.atVec a.t a.cyc).vec a.t) a = false := permMet_sound (hsound a.va) (hsound a.vb)
  obtain ⟨u, hu, hvec, hmem, htiles⟩ := vector_sets hexec h fun _ => rfl
  rw [vecRuns_vec] at hvec
  have hregs : (u.vec a.t).regs = 
      (((((s.atVec a.t a.cyc).vec a.t).fix a.va.val).fix a.vb.val).write a.vd.val (permWritten ((s.atVec a.t a.cyc).vec a.t)
        ((((s.atVec a.t a.cyc).vec a.t).fix a.va.val).fix a.vb.val) a)).regs := by
    rw [hvec]
    rfl
  rw [permWritten, if_neg (by rw [hmet]; decide), hfix.read] at hregs
  obtain ⟨hd, hother⟩ := written_reads hfix hregs
  have hpermuted : (permuted ((s.atVec a.t a.cyc).vec a.t) a (permMet ((s.atVec a.t a.cyc).vec a.t) a)).Sound := sound_of_replicate (by rw [hmet]; rfl)
  refine ⟨u, hu, fun l hl hon => ?_, fun r hr => ?_, ?_, hmem, htiles⟩
  · rw [hd, stored_sound (merge_sound (hsound a.vd) hpermuted _ _) l hl, merge_lane _ _ _ _ l hl, atVec_mask, if_pos hon, permuted,
      getD_map_range, if_pos hl]
    simp only [atVec_read]
  · exact (hother r.val fun hv => hr (Fin.ext hv)).trans (atVec_read s a.t a.cyc r.val)
  · exact (congrArg VecEng.masks hvec).trans ((atVec_kept s a.t a.cyc).trans hfix.kept).masks

/-! ### Masks -/

theorem mask_setMask_self (v : VecEng) (k : Nat) (m : W64) (hk : k ≠ 0) : (v.setMask k m).mask k = m := by
  rw [VecEng.setMask, if_neg hk, VecEng.mask, if_neg hk, SMap.at_put_self]

theorem mask_setMask_other (v : VecEng) (j k : Nat) (m : W64) (hjk : j ≠ k) : (v.setMask k m).mask j = v.mask j := by
  unfold VecEng.setMask VecEng.mask
  split
  · rfl
  · split
    · rfl
    · exact SMap.at_put_other _ _ _ _ _ hjk

theorem setMask_regs (v : VecEng) (k : Nat) (m : W64) : (v.setMask k m).regs = v.regs := by
  unfold VecEng.setMask
  split <;> rfl

/-- A mask built lane by lane. -/
theorem laneOn_foldl (f : Nat → Bool) (n l : Nat) (hn : n ≤ 64) :
    laneOn ((List.range n).foldl (fun (acc : W64) l => if f l then acc ||| (1 <<< l) else acc) 0) l = (decide (l < n) && f l) := by
  induction n with
  | zero => simp [laneOn]
  | succ n ih =>
    have hbit : laneOn (BitVec.ofNat 64 (1 <<< n)) l = decide (l = n) := by
      rw [laneOn, BitVec.getLsbD_ofNat, Nat.one_shiftLeft, Nat.testBit_two_pow]
      by_cases hl : l = n
      · subst hl; simp; omega
      · simp [hl, Ne.symm hl]
    rw [List.range_succ, List.foldl_append, List.foldl_cons, List.foldl_nil]
    generalize List.foldl _ _ _ = acc at *
    have ih := ih (by omega)
    split
    next hf =>
      have hor : laneOn (acc ||| BitVec.ofNat 64 (1 <<< n)) l = (laneOn acc l || laneOn (BitVec.ofNat 64 (1 <<< n)) l) := BitVec.getLsbD_or
      refine Eq.trans hor ?_
      rw [ih, hbit]
      by_cases hl : l = n
      · subst hl; simp [hf]
      · simp only [hl, decide_false, Bool.or_false]
        congr 1
        rw [decide_eq_decide]
        omega
    next hf =>
      rw [ih]
      by_cases hl : l = n
      · subst hl; simp [hf]
      · congr 1
        rw [decide_eq_decide]
        omega

theorem vcmp_issues (s : State) (a : VCmpForm) (hwf : Instr.wf (.vcmp a) = true) (h : VectorIssues (.vcmp a) a.t a.cyc s)
    (hclean : ∀ r : Fin 32, ((s.vec a.t).read r.val).poison = List.replicate 16 false) :
    ∃ t, exec (.vcmp a) s = .next t ∧ (∀ l < 64, laneOn ((t.vec a.t).mask a.md.val) l =
        (laneOn ((s.vec a.t).mask a.msk.val) l && vCond a.cond.toNat (((s.vec a.t).read a.va.val).lanes.getD l 0)
          (((s.vec a.t).read a.vb.val).lanes.getD l 0))) ∧
      (∀ k : Fin 8, k ≠ a.md → (t.vec a.t).mask k.val = (s.vec a.t).mask k.val) ∧
      (∀ r : Fin 32, (t.vec a.t).read r.val = (s.vec a.t).read r.val) ∧ SameMemory s t ∧ SameTilesBut a.t.val s t := by
  have hmd : a.md.val ≠ 0 := fun h0 => (of_decide_eq_true hwf).2 (Fin.ext h0)
  have hexec : exec (.vcmp a) s = s.slot "VCMP" (Instr.wf (.vcmp a)) true fun p => slotV p (.vcmp a) a.t.val a.cyc := rfl
  rw [hwf, slot_next] at hexec
  have hsound : ∀ r : Fin 32, (((s.atVec a.t a.cyc).vec a.t).read r.val).Sound := fun r => by
    rw [atVec_read]
    exact sound_of_replicate (hclean r)
  have hfix := fix_fix_readsAs ((s.atVec a.t a.cyc).vec a.t) a.va.val a.vb.val
  obtain ⟨u, hu, hvec, hmem, htiles⟩ := vector_sets hexec h fun _ => rfl
  rw [vecRuns_vec] at hvec
  have hmasks := congrArg VecEng.masks hvec
  have hregs := (congrArg VecEng.regs hvec).trans (setMask_regs _ _ _)
  refine ⟨u, hu, fun l hl => ?_, fun k hk => ?_, fun r => ?_, hmem, htiles⟩
  · rw [mask_of_masks hmasks]
    refine (congrArg (laneOn · l) (mask_setMask_self _ _ _ hmd)).trans ((laneOn_foldl _ 64 l (le_refl 64)).trans ?_)
    simp only [hl, decide_true, Bool.true_and, hsound a.va _, hsound a.vb _, Bool.or_self, Bool.not_false, Bool.and_true]
    simp only [atVec_mask, atVec_read]
  · rw [mask_of_masks hmasks]
    refine (mask_setMask_other _ _ _ _ fun hv => hk (Fin.ext hv)).trans ?_
    exact mask_of_masks ((atVec_kept s a.t a.cyc).trans hfix.kept).masks k.val
  · exact (read_of_regs hregs r.val).trans ((hfix.read r.val).trans (atVec_read s a.t a.cyc r.val))

/-- The three mask commands, each a function of two masks. -/
theorem vMasks_issues {s : State} {i : Instr} {a : VMaskForm} {f : W64 → W64 → W64}
    (hexec : exec i s = s.on .data fun p => slotV p i a.t.val a.cyc) (hrun : ∀ p, vRun p a.cyc i = vMasks p a a.cyc f) (hmd : a.md ≠ 0)
    (h : VectorIssues i a.t a.cyc s) :
    ∃ t, exec i s = .next t ∧ (t.vec a.t).mask a.md.val =
      f ((s.vec a.t).mask a.ma.val) ((s.vec a.t).mask a.mb.val) &&& (s.vec a.t).mask a.msk.val ∧
      (t.vec a.t).regs = (s.vec a.t).regs ∧ SameMemory s t ∧ SameTilesBut a.t.val s t := by
  obtain ⟨u, hu, hvec, hmem, htiles⟩ := vector_sets (met := fun _ => false) hexec h hrun
  rw [vecRuns_vec] at hvec
  refine ⟨u, hu, ?_, ?_, hmem, htiles⟩
  · rw [mask_of_masks (congrArg VecEng.masks hvec)]
    refine (mask_setMask_self _ _ _ fun h0 => hmd (Fin.ext h0)).trans ?_
    simp only [atVec_mask]
  · exact (congrArg VecEng.regs hvec).trans ((setMask_regs _ _ _).trans (atVec_regs s a.t a.cyc))

theorem vmand_issues (s : State) (a : VMaskForm) (hwf : Instr.wf (.vmand a) = true) (h : VectorIssues (.vmand a) a.t a.cyc s) :
    ∃ t, exec (.vmand a) s = .next t ∧ (t.vec a.t).mask a.md.val =
      ((s.vec a.t).mask a.ma.val &&& (s.vec a.t).mask a.mb.val) &&& (s.vec a.t).mask a.msk.val ∧
      (t.vec a.t).regs = (s.vec a.t).regs ∧ SameMemory s t ∧ SameTilesBut a.t.val s t := by
  have hexec : exec (.vmand a) s = s.slot "VMAND" (Instr.wf (.vmand a)) true fun p => slotV p (.vmand a) a.t.val a.cyc := rfl
  rw [hwf, slot_next] at hexec
  exact vMasks_issues hexec (fun _ => rfl) (of_decide_eq_true hwf) h

theorem vmor_issues (s : State) (a : VMaskForm) (hwf : Instr.wf (.vmor a) = true) (h : VectorIssues (.vmor a) a.t a.cyc s) :
    ∃ t, exec (.vmor a) s = .next t ∧ (t.vec a.t).mask a.md.val =
      ((s.vec a.t).mask a.ma.val ||| (s.vec a.t).mask a.mb.val) &&& (s.vec a.t).mask a.msk.val ∧
      (t.vec a.t).regs = (s.vec a.t).regs ∧ SameMemory s t ∧ SameTilesBut a.t.val s t := by
  have hexec : exec (.vmor a) s = s.slot "VMOR" (Instr.wf (.vmor a)) true fun p => slotV p (.vmor a) a.t.val a.cyc := rfl
  rw [hwf, slot_next] at hexec
  exact vMasks_issues hexec (fun _ => rfl) (of_decide_eq_true hwf) h

theorem vmnot_issues (s : State) (a : VMaskForm) (hwf : Instr.wf (.vmnot a) = true) (h : VectorIssues (.vmnot a) a.t a.cyc s) :
    ∃ t, exec (.vmnot a) s = .next t ∧ (t.vec a.t).mask a.md.val =
      ~~~((s.vec a.t).mask a.ma.val) &&& (s.vec a.t).mask a.msk.val ∧
      (t.vec a.t).regs = (s.vec a.t).regs ∧ SameMemory s t ∧ SameTilesBut a.t.val s t := by
  have hmd : a.md ≠ 0 := (of_decide_eq_true hwf).1
  have hok : decide (a.md ≠ 0) = true := decide_eq_true hmd
  have hexec : exec (.vmnot a) s = s.slot "VMNOT" (decide (a.md ≠ 0)) true fun p => slotV p (.vmnot a) a.t.val a.cyc := rfl
  rw [hok, slot_next] at hexec
  exact vMasks_issues (f := fun x _ => ~~~x) hexec (fun _ => rfl) hmd h

/-- Settles O12: each command by the value that it writes, of operands without poison. -/
theorem vectorSelectAndMaskCommands : Obligations.VectorSelectAndMaskCommands :=
  ⟨vsel_issues, vperm_issues, vcmp_issues, fun s a => ⟨vmand_issues s a, vmor_issues s a, vmnot_issues s a⟩⟩

end Sys2Proof.Machine

namespace Sys2Proof.Machine

/-! ## Vector loads and stores (R113 to R117) -/

/-- Rows that go to the drain queue change tiles, counters and events. -/
theorem drainRows_changes (p : Pkg) (t c : Nat) : ∃ tiles dict ev, p.drainRows t c = { p with tiles := tiles, dict := dict, ev := ev } := by
  unfold Pkg.drainRows
  dsimp only
  refine foldl_invariant (fun q : Pkg => ∃ tiles dict ev, q = { p with tiles := tiles, dict := dict, ev := ev }) (fun q _ h => ?_) _ ?_
  · obtain ⟨_, _, _, rfl⟩ := h
    exact ⟨_, _, _, rfl⟩
  · split <;> exact ⟨_, _, _, rfl⟩

theorem vecRuns_changes (s : State) (t : TileNo) (c : Nat) :
    ∃ tiles dict ev, s.vecRuns t c = { s.pkg with tiles := tiles, dict := dict, ev := ev } := by
  obtain ⟨tiles, dict, ev, h⟩ := drainRows_changes s.pkg t.val c
  rw [State.vecRuns, State.atVec, settle_pkg, h]
  exact ⟨_, _, _, rfl⟩

theorem vecRuns_word (s : State) (t : TileNo) (c a : Nat) : (s.vecRuns t c).word a = s.pkg.word a := by
  obtain ⟨tiles, dict, ev, h⟩ := vecRuns_changes s t c
  rw [h]
  rfl

theorem vecRuns_byte (s : State) (t : TileNo) (c a : Nat) : (s.vecRuns t c).byte a = s.pkg.byte a := by
  obtain ⟨tiles, dict, ev, h⟩ := vecRuns_changes s t c
  rw [h]
  rfl

/-- The counters of vector slots lie above the objects of the chapters before. -/
theorem vecRuns_reg_below (s : State) (t : TileNo) (c : Nat) {k : Nat} (hk : k < O.vectorCounters) : (s.vecRuns t c).reg k = s.pkg.reg k := by
  have hstep : TileStep t.val (fun j => O.vectorCounters ≤ j) s.pkg (s.vecRuns t c) :=
    (drainRows_step s.pkg c (tileCounter_le _ _ _ _)).bump64 (tileCounter_le _ _ _ _) 1
  exact hstep.reg k (by omega)

/-- A load reads words, and the scale table's place. -/
theorem vLoad_congr {p q : Pkg} (hword : ∀ a, q.word a = p.word a) (hbase : q.reg O.scaleTableBase = p.reg O.scaleTableBase) (t : Nat)
    (x : VDesc) (a g : Nat) : q.vLoad t x a g = p.vLoad t x a g := by
  have hread : ∀ b, q.sramRead b = p.sramRead b := fun b => congrArg readWord (hword b)
  have hscale : ∀ b, q.scaleWord0 b = p.scaleWord0 b := fun b => by rw [Pkg.scaleWord0, hword, hbase, Pkg.scaleWord0]
  simp only [Pkg.vLoad, Pkg.fineCode, Pkg.sramNat, hread, hscale]

theorem vecRuns_vLoad (s : State) (t : TileNo) (c n : Nat) (x : VDesc) (a g : Nat) :
    (s.vecRuns t c).vLoad n x a g = s.pkg.vLoad n x a g :=
  vLoad_congr (vecRuns_word s t c) (vecRuns_reg_below s t c (by decide)) n x a g

theorem vecRuns_vd (s : State) (t : TileNo) (c : Nat) : ((s.vecRuns t c).tile t.val).vd = (s.pkg.tile t.val).vd :=
  (congrArg Tile.vd (atVec_tile s t c) :)

theorem atVec_ptr (s : State) (t : TileNo) (c d : Nat) : ((s.atVec t c).vec t).ptr d = (s.vec t).ptr d :=
  congrArg (SMap.at VPtr.reset d) (atVec_kept s t c).ptrs

theorem advance_ptrs {v w : VecEng} (h : w.ptrs = v.ptrs) (d : Nat) (x : VDesc) : (w.advance d x).ptrs = (v.advance d x).ptrs := by
  simp only [VecEng.advance, VecEng.ptr, h]

/-! ### VLD -/

/-- The value that VLD reads. -/
def loaded (p : Pkg) (a : VMemForm) : VVal :=
  let ti := p.tile a.t.val
  p.vLoad a.t.val (vdesc ti.vd a.vdesc.val) (ptrAddr (vdesc ti.vd a.vdesc.val) (ti.vec.ptr a.vdesc.val) 0).toNat
    (ptrScale (vdesc ti.vd a.vdesc.val) (ti.vec.ptr a.vdesc.val) 0).toNat

/-- The engine after VLD. -/
def loadedVec (p : Pkg) (a : VMemForm) (c : Nat) : VecEng :=
  let v := (p.tile a.t.val).vec
  ((v.write a.v.val ((v.read a.v.val).merge (loaded p a) (v.mask a.msk.val) a.mz)).setReady a.v.val (c + 8)).advance a.vdesc.val
    (vdesc (p.tile a.t.val).vd a.vdesc.val)

theorem loadedVec_ptrs (p : Pkg) (a : VMemForm) (c : Nat) :
    (loadedVec p a c).ptrs = ((p.tile a.t.val).vec.advance a.vdesc.val (vdesc (p.tile a.t.val).vd a.vdesc.val)).ptrs := rfl

theorem loadedVec_regs (p : Pkg) (a : VMemForm) (c : Nat) : (loadedVec p a c).regs = ((p.tile a.t.val).vec.write a.v.val
    (((p.tile a.t.val).vec.read a.v.val).merge (loaded p a) ((p.tile a.t.val).vec.mask a.msk.val) a.mz)).regs := rfl

theorem loadedVec_ready (p : Pkg) (a : VMemForm) (c : Nat) : (loadedVec p a c).ready.at 0 a.v.val = c + 8 := by
  have hready : (loadedVec p a c).ready = (p.tile a.t.val).vec.ready.put 0 a.v.val (c + 8) := rfl
  rw [hready, SMap.at_put_self]

theorem runVld_eq (p : Pkg) (a : VMemForm) (c : Nat) : ∃ off len met, runVld p a c =
    ((p.setVec a.t.val (loadedVec p a c)).bankRows a.t.val bankVector c 1 off 0 len 1).vecPoison a.t.val met := ⟨_, _, _, rfl⟩

theorem runVld_tile (p : Pkg) (a : VMemForm) (c : Nat) : ∃ b bk, (runVld p a c).tile a.t.val =
    { p.tile a.t.val with vec := loadedVec p a c, stepPoison := b, banks := bk } := by
  obtain ⟨off, len, met, heq⟩ := runVld_eq p a c
  obtain ⟨b, hb⟩ := vecPoison_tile ((p.setVec a.t.val (loadedVec p a c)).bankRows a.t.val bankVector c 1 off 0 len 1) a.t.val met
  obtain ⟨bk, hbk⟩ := bankRows_tile (p.setVec a.t.val (loadedVec p a c)) a.t.val bankVector c 1 off 0 len 1
  exact ⟨b, bk, by rw [heq, hb, hbk, tile_setVec_self]⟩

theorem runVld_step {p q : Pkg} (a : VMemForm) (c : Nat) (h : TileStep a.t.val TileKey p q) : TileStep a.t.val TileKey p (runVld q a c) := by
  obtain ⟨off, len, met, heq⟩ := runVld_eq q a c
  rw [heq]
  exact (bankRows_step _ _ _ _ _ _ _ a.t.isLt (fun _ hk => hk) (tileKey_tileCounter _ _ _) (h.setVec _)).vecPoison _

theorem memForm_slot {s : State} {m : String} {a : VMemForm} {narrow lim : Bool} {f : Pkg → Pkg} (hok : memFormOk a narrow = true)
    (hlim : lim = true) : s.slot m (memFormOk a narrow) lim f = s.on .data f := by
  rw [hok, hlim, slot_next]

theorem memFormOk_of_wf {a : VMemForm} (h : decide (a.rm = 0) = true) : memFormOk a false = true := by
  have hrm : a.rm = 0 := of_decide_eq_true h
  rw [memFormOk, hrm]
  rfl

theorem vld_issues (s : State) (a : VMemForm) (hwf : Instr.wf (.vld a) = true) (h : VectorIssues (.vld a) a.t a.cyc s)
    (hlim : memLimits s.pkg a (fun x => 8 * fmtWidth x.fmt) false true = true) :
    ∃ t, exec (.vld a) s = .next t ∧ SameMemory s t ∧ SameTilesBut a.t.val s t ∧
      (((s.vec a.t).read a.v.val).poison = List.replicate 16 false →
        (s.pkg.vLoad a.t.val (vdesc (s.pkg.tile a.t.val).vd a.vdesc.val)
          (ptrAddr (vdesc (s.pkg.tile a.t.val).vd a.vdesc.val) ((s.vec a.t).ptr a.vdesc.val) 0).toNat
          (ptrScale (vdesc (s.pkg.tile a.t.val).vd a.vdesc.val) ((s.vec a.t).ptr a.vdesc.val) 0).toNat).poison =
          List.replicate 16 false →
        ∀ l < 64, laneOn ((s.vec a.t).mask a.msk.val) l = true → ((t.vec a.t).read a.v.val).lanes.getD l 0 =
          (s.pkg.vLoad a.t.val (vdesc (s.pkg.tile a.t.val).vd a.vdesc.val)
            (ptrAddr (vdesc (s.pkg.tile a.t.val).vd a.vdesc.val) ((s.vec a.t).ptr a.vdesc.val) 0).toNat
            (ptrScale (vdesc (s.pkg.tile a.t.val).vd a.vdesc.val) ((s.vec a.t).ptr a.vdesc.val) 0).toNat).lanes.getD l 0) ∧
      (t.vec a.t).ptrs = ((s.vec a.t).advance a.vdesc.val (vdesc (s.pkg.tile a.t.val).vd a.vdesc.val)).ptrs ∧
      (t.vec a.t).ready.at 0 a.v.val = a.cyc + 8 ∧ (∀ r : Fin 32, r ≠ a.v → (t.vec a.t).read r.val = (s.vec a.t).read r.val) := by
  have hexec : exec (.vld a) s = s.slot "VLD" (memFormOk a false) (memLimits s.pkg a (fun x => 8 * fmtWidth x.fmt) false true)
    fun p => slotV p (.vld a) a.t.val a.cyc := rfl
  rw [memForm_slot (memFormOk_of_wf hwf) hlim] at hexec
  obtain ⟨b, bk, htile⟩ := runVld_tile (s.vecRuns a.t a.cyc) a a.cyc
  obtain ⟨u, hu, hvec, hmem, htiles⟩ := vector_issues (i := .vld a) hexec h htile fun _ _ hq => runVld_step a a.cyc hq
  have hloaded : loaded (s.vecRuns a.t a.cyc) a = s.pkg.vLoad a.t.val (vdesc (s.pkg.tile a.t.val).vd a.vdesc.val)
      (ptrAddr (vdesc (s.pkg.tile a.t.val).vd a.vdesc.val) ((s.vec a.t).ptr a.vdesc.val) 0).toNat
      (ptrScale (vdesc (s.pkg.tile a.t.val).vd a.vdesc.val) ((s.vec a.t).ptr a.vdesc.val) 0).toNat := by
    simp only [loaded, vecRuns_vLoad, vecRuns_vd, vecRuns_vec, atVec_ptr]
  have hregs : (u.vec a.t).regs = (loadedVec (s.vecRuns a.t a.cyc) a a.cyc).regs := (congrArg VecEng.regs hvec :)
  rw [loadedVec_regs, vecRuns_vec] at hregs
  obtain ⟨hd, hother⟩ := written_reads (.refl _) hregs
  refine ⟨u, hu, hmem, htiles, fun hold hnew l hl hon => ?_, ?_, ?_, fun r hr => ?_⟩
  · rw [← hloaded] at hnew ⊢
    have hvsound : (((s.atVec a.t a.cyc).vec a.t).read a.v.val).Sound := by
      rw [atVec_read]
      exact sound_of_replicate hold
    rw [hd, stored_sound (merge_sound hvsound (sound_of_replicate hnew) _ _) l hl, merge_lane _ _ _ _ l hl, atVec_mask, if_pos hon]
  · have hptrs : (u.vec a.t).ptrs = (loadedVec (s.vecRuns a.t a.cyc) a a.cyc).ptrs := (congrArg VecEng.ptrs hvec :)
    rw [hptrs, loadedVec_ptrs, vecRuns_vd, vecRuns_vec]
    exact advance_ptrs (atVec_kept s a.t a.cyc).ptrs _ _
  · exact (congrArg (fun v : VecEng => v.ready.at 0 a.v.val) hvec :).trans (loadedVec_ready _ a a.cyc)
  · exact (hother r.val fun hv => hr (Fin.ext hv)).trans (atVec_read s a.t a.cyc r.val)

/-! ### VST -/

namespace WordsWritten

section
variable {lo hi a : Nat} {p q : Pkg}

theorem refl (p : Pkg) : WordsWritten lo hi p p := ⟨rfl, rfl, fun _ _ => rfl⟩

theorem sramWrite (v : Option W128) (hlo : lo ≤ a) (hhi : a + 16 ≤ hi) (h : WordsWritten lo hi p q) : WordsWritten lo hi p (q.sramWrite a v) where
  dict := (sramWrite_dict q a v).trans h.dict
  tiles := (sramWrite_tiles q a v).trans h.tiles
  byte b hb := (sramWrite_byte_other q a b v (by omega)).trans (h.byte b hb)

theorem sramMerge (mask : List Bool) (v : Option W128) (hlo : lo ≤ a) (hhi : a + 16 ≤ hi) (h : WordsWritten lo hi p q) :
    WordsWritten lo hi p (q.sramMerge a mask v) := by
  obtain heq | ⟨w, heq⟩ := sramMerge_eq q a mask v
  · rwa [heq]
  · rw [heq]
    exact h.sramWrite w hlo hhi

end

end WordsWritten

theorem sramAddr_add (t a b : Nat) : sramAddr t (a + b) = sramAddr t a + b := by simp only [sramAddr]; omega

/-- A store of a register touches its 256 bytes only. -/
theorem vStore_written (p : Pkg) (t a : Nat) (x : VVal) (m : W64) (mz : Bool) :
    WordsWritten (sramAddr t a) (sramAddr t a + 256) p (p.vStore t a x m mz) := by
  refine List.foldlRecOn (motive := WordsWritten (sramAddr t a) (sramAddr t a + 256) p) _ _ (.refl p) fun q h i hi => ?_
  have hi := List.mem_range.mp hi
  have haddr := sramAddr_add t a (16 * i)
  dsimp only
  split
  · exact h.sramWrite _ (by omega) (by omega)
  · split
    · exact h.sramMerge _ _ (by omega) (by omega)
    · exact h

theorem laneOn_allOnes (l : Nat) (hl : l < 64) : laneOn (BitVec.allOnes 64) l = true := by
  rw [laneOn, BitVec.getLsbD_allOnes, decide_eq_true hl]

/-- A word of the lanes that are on, where all of them are. -/
theorem word_of_lanes {x y : VVal} {q : Nat} (hx : x.poison.getD q false = false) (hy : y.poison.getD q false = false)
    (h : ∀ i < 4, y.lanes.getD (4 * q + i) 0 = x.lanes.getD (4 * q + i) 0) : y.word q = x.word q := by
  have hlist : List.range 4 = [0, 1, 2, 3] := rfl
  rw [VVal.word, VVal.word, hx, hy, if_neg (by decide), if_neg (by decide)]
  simp only [hlist, List.foldr_cons, List.foldr_nil, h 0 (by omega), h 1 (by omega), h 2 (by omega), h 3 (by omega)]

/-- A store with every lane active and no poison writes the register's sixteen words. -/
theorem vStore_full (p : Pkg) (t a : Nat) (x : VVal) (mz : Bool) (hx : x.Sound) : p.vStore t a x (BitVec.allOnes 64) mz =
    p.writeWords ((List.range 16).map fun q => (sramAddr t (a + 16 * q), x.word q)) := by
  unfold Pkg.vStore Pkg.writeWords
  rw [List.foldl_map]
  refine List.foldl_ext _ _ _ fun p q hq => ?_
  have hq := List.mem_range.mp hq
  have hactive : wordActive (BitVec.allOnes 64) q = true :=
    List.any_eq_true.mpr ⟨0, by simp, laneOn_allOnes _ (by omega)⟩
  have hbytes : ((List.range 16).map fun b => laneOn (BitVec.allOnes 64) (4 * q + b / 4)).all (fun b => b) = true := by
    simp only [List.all_map, List.all_eq_true, Function.comp, List.mem_range]
    exact fun b hb => laneOn_allOnes _ (by omega)
  dsimp only
  rw [hx q, Bool.false_and, hactive]
  cases mz with
  | true =>
    simp only [if_true, Bool.false_eq_true, if_false]
    refine congrArg (p.sramWrite _) (word_of_lanes (hx q) rfl fun i hi => ?_)
    rw [getD_map_range, if_pos (by omega), if_pos (laneOn_allOnes _ (by omega))]
  | false =>
    simp only [Bool.false_eq_true, if_false, if_true, Pkg.sramMerge, hbytes]

theorem storeBanks_step {p q : Pkg} (t a c : Nat) (m : W64) (mz : Bool) (ht : t < 192) (h : TileStep t TileKey p q) :
    TileStep t TileKey p (q.storeBanks t a c m mz) :=
  .ite (bankRows_step _ _ _ _ _ _ _ ht (fun _ hk => hk) (tileKey_tileCounter _ _ _) h)
    (bankRows_step _ _ _ _ _ _ _ ht (fun _ hk => hk) (tileKey_tileCounter _ _ _) h)

theorem storeBanks_tile (p : Pkg) (t a c : Nat) (m : W64) (mz : Bool) : ∃ b, (p.storeBanks t a c m mz).tile t = { p.tile t with banks := b } := by
  unfold Pkg.storeBanks
  dsimp only
  split
  · exact bankRows_tile _ _ _ _ _ _ _ _ _
  · exact bankRows_tile _ _ _ _ _ _ _ _ _

/-- Poison that an instruction meets leaves memory alone. -/
theorem vecPoison_memory (p : Pkg) (t : Nat) (met : Bool) : (p.vecPoison t met).byte = p.byte ∧ (p.vecPoison t met).word = p.word := by
  unfold Pkg.vecPoison
  split
  · exact ⟨rfl, rfl⟩
  · exact ⟨rfl, rfl⟩

theorem sramRead_of_word {p q : Pkg} {a : Nat} (h : q.word a = p.word a) : q.sramRead a = p.sramRead a := congrArg readWord h

theorem tile_of_tiles {p q : Pkg} (h : q.tiles = p.tiles) (n : Nat) : q.tile n = p.tile n := by rw [Pkg.tile, h, Pkg.tile]

/-- The package that VST stores into: the pointers advanced, the bank accesses counted. -/
def storeReady (p : Pkg) (a : VMemForm) (c : Nat) : Pkg :=
  let ti := p.tile a.t.val
  (p.setVec a.t.val ((ti.vec.fix a.v.val).advance a.vdesc.val (vdesc ti.vd a.vdesc.val))).storeBanks a.t.val
    (ptrAddr (vdesc ti.vd a.vdesc.val) (ti.vec.ptr a.vdesc.val) 0).toNat (c + 6) (ti.vec.mask a.msk.val) a.mz

theorem storeReady_step (p : Pkg) (a : VMemForm) (c : Nat) : TileStep a.t.val TileKey p (storeReady p a c) :=
  storeBanks_step _ _ _ _ _ a.t.isLt ((TileStep.refl p).setVec _)

theorem storeReady_tile (p : Pkg) (a : VMemForm) (c : Nat) : ((storeReady p a c).tile a.t.val).vec =
    ((p.tile a.t.val).vec.fix a.v.val).advance a.vdesc.val (vdesc (p.tile a.t.val).vd a.vdesc.val) := by
  obtain ⟨b, hb⟩ := storeBanks_tile (p.setVec a.t.val (((p.tile a.t.val).vec.fix a.v.val).advance a.vdesc.val
    (vdesc (p.tile a.t.val).vd a.vdesc.val))) a.t.val (ptrAddr (vdesc (p.tile a.t.val).vd a.vdesc.val)
    ((p.tile a.t.val).vec.ptr a.vdesc.val) 0).toNat (c + 6) ((p.tile a.t.val).vec.mask a.msk.val) a.mz
  rw [tile_setVec_self] at hb
  exact congrArg Tile.vec hb

theorem runVst_eq (p : Pkg) (a : VMemForm) (c : Nat) : ∃ met, runVst p a c =
    ((storeReady p a c).vStore a.t.val (ptrAddr (vdesc (p.tile a.t.val).vd a.vdesc.val) ((p.tile a.t.val).vec.ptr a.vdesc.val) 0).toNat
      ((p.tile a.t.val).vec.read a.v.val) ((p.tile a.t.val).vec.mask a.msk.val) a.mz).vecPoison a.t.val met := ⟨_, rfl⟩

theorem advance_ptrs_of_kept {v w : VecEng} (h : VecKept v w) (d : Nat) (x : VDesc) : (w.advance d x).ptrs = (v.advance d x).ptrs :=
  advance_ptrs h.ptrs d x

theorem sramAddr_aligned (t off : Nat) (h : off % 16 = 0) : sramAddr t off % 16 = 0 := by
  simp only [sramAddr, tileBase, tileSize]
  omega

theorem tileBase_le_sramAddr (t off : Nat) : tileBase ≤ sramAddr t off := by
  simp only [sramAddr]
  omega

theorem vst_issues (s : State) (a : VMemForm) (hwf : Instr.wf (.vst a) = true) (h : VectorIssues (.vst a) a.t a.cyc s)
    (hlim : memLimits s.pkg a (fun _ => 256) false false = true) :
    ∃ t, exec (.vst a) s = .next t ∧ SameTilesBut a.t.val s t ∧
      (t.vec a.t).ptrs = ((s.vec a.t).advance a.vdesc.val (vdesc (s.pkg.tile a.t.val).vd a.vdesc.val)).ptrs ∧
      ((s.vec a.t).mask a.msk.val = BitVec.allOnes 64 → ((s.vec a.t).read a.v.val).poison = List.replicate 16 false →
        (ptrAddr (vdesc (s.pkg.tile a.t.val).vd a.vdesc.val) ((s.vec a.t).ptr a.vdesc.val) 0).toNat % 16 = 0 →
        ∀ q < 16, t.pkg.sramRead (sramAddr a.t.val
          ((ptrAddr (vdesc (s.pkg.tile a.t.val).vd a.vdesc.val) ((s.vec a.t).ptr a.vdesc.val) 0).toNat + 16 * q)) =
          ((s.vec a.t).read a.v.val).word q) ∧
      SameMemoryBut (fun b =>
        sramAddr a.t.val (ptrAddr (vdesc (s.pkg.tile a.t.val).vd a.vdesc.val) ((s.vec a.t).ptr a.vdesc.val) 0).toNat ≤ b ∧
        b < sramAddr a.t.val (ptrAddr (vdesc (s.pkg.tile a.t.val).vd a.vdesc.val) ((s.vec a.t).ptr a.vdesc.val) 0).toNat + 256) s t := by
  have hexec : exec (.vst a) s = s.slot "VST" (memFormOk a false) (memLimits s.pkg a (fun _ => 256) false false)
    fun p => slotV p (.vst a) a.t.val a.cyc := rfl
  rw [memForm_slot (memFormOk_of_wf hwf) hlim] at hexec
  obtain ⟨u, hu, hfrom⟩ := vector_runs hexec h
  have hready := (vecRuns_step s a.t a.cyc).trans (storeReady_step (s.vecRuns a.t a.cyc) a a.cyc)
  have hvec := storeReady_tile (s.vecRuns a.t a.cyc) a a.cyc
  obtain ⟨met, heq⟩ : ∃ met, vRun (s.vecRuns a.t a.cyc) a.cyc (.vst a) = _ := runVst_eq (s.vecRuns a.t a.cyc) a a.cyc
  rw [vecRuns_vd, vecRuns_vec, atVec_ptr, atVec_read, atVec_mask] at heq
  rw [vecRuns_vd, vecRuns_vec] at hvec
  rw [heq] at hfrom
  generalize storeReady (s.vecRuns a.t a.cyc) a a.cyc = r at *
  generalize (ptrAddr (vdesc (s.pkg.tile a.t.val).vd a.vdesc.val) ((s.vec a.t).ptr a.vdesc.val) 0).toNat = off at *
  have hw := vStore_written r a.t.val off ((s.vec a.t).read a.v.val) ((s.vec a.t).mask a.msk.val) a.mz
  obtain ⟨b, hb⟩ := vecPoison_tile (r.vStore a.t.val off ((s.vec a.t).read a.v.val) ((s.vec a.t).mask a.msk.val) a.mz) a.t.val met
  have hpoison := vecPoison_memory (r.vStore a.t.val off ((s.vec a.t).read a.v.val) ((s.vec a.t).mask a.msk.val) a.mz) a.t.val met
  have htiles := (TileStep.refl (n := a.t.val) (K := TileKey)
    (r.vStore a.t.val off ((s.vec a.t).read a.v.val) ((s.vec a.t).mask a.msk.val) a.mz)).vecPoison met
  refine ⟨u, hu, fun n hn => ?_, ?_, fun hmask hclean h16 q hq => ?_, fun b hb => ?_⟩
  · exact (hfrom.tiles n hn).trans ((htiles.tiles n hn).trans ((tile_of_tiles hw.tiles n).trans (hready.tiles n hn)))
  · have hptrs : (u.vec a.t).ptrs = (r.tile a.t.val).vec.ptrs := by
      rw [hfrom.vec, hb, tile_of_tiles hw.tiles]
    rw [hptrs, hvec]
    exact advance_ptrs_of_kept ((atVec_kept s a.t a.cyc).trans (fix_readsAs _ _).kept) _ _
  · rw [sramRead_of_word (hfrom.word _), sramRead_of_word (congrFun hpoison.2 _), hmask, vStore_full _ _ _ _ _ (sound_of_replicate hclean)]
    refine writeWords_read r _ _ _ (tileBase_le_sramAddr _ _) (sramAddr_aligned _ _ (by omega)) (List.mem_map.mpr ⟨q, List.mem_range.mpr hq, rfl⟩)
      fun e he => ?_
    obtain ⟨j, -, rfl⟩ := List.mem_map.mp he
    refine ⟨tileBase_le_sramAddr _ _, sramAddr_aligned _ _ (by omega), fun hsame => ?_⟩
    have hj : j = q := by
      rw [sramAddr_inj] at hsame
      omega
    rw [hj]
  · have hout : b < sramAddr a.t.val off ∨ sramAddr a.t.val off + 256 ≤ b := by omega
    rw [hfrom.byte, hpoison.1, hw.byte b hout]
    exact congrArg (SMap.at 0 b) hready.mem

end Sys2Proof.Machine

namespace Sys2Proof.Machine

/-! ### VNST -/

/-- What writes to the bytes that `out` names leave: objects, tiles, and the other bytes. -/
structure WrittenIn (out : Nat → Prop) (p q : Pkg) : Prop where
  dict : q.dict = p.dict
  tiles : q.tiles = p.tiles
  byte : ∀ b, ¬ out b → q.byte b = p.byte b

namespace WrittenIn

section
variable {out : Nat → Prop} {p q r : Pkg} {a : Nat}

theorem refl (p : Pkg) : WrittenIn out p p := ⟨rfl, rfl, fun _ _ => rfl⟩

theorem sramWrite (v : Option W128) (hin : ∀ b, a ≤ b → b < a + 16 → out b) (h : WrittenIn out p q) : WrittenIn out p (q.sramWrite a v) where
  dict := (sramWrite_dict q a v).trans h.dict
  tiles := (sramWrite_tiles q a v).trans h.tiles
  byte b hb := by
    have hout : b < a ∨ a + 16 ≤ b := by
      by_contra hc
      exact hb (hin b (by omega) (by omega))
    exact (sramWrite_byte_other q a b v hout).trans (h.byte b hb)

theorem sramMerge (mask : List Bool) (v : Option W128) (hin : ∀ b, a ≤ b → b < a + 16 → out b) (h : WrittenIn out p q) :
    WrittenIn out p (q.sramMerge a mask v) := by
  obtain heq | ⟨w, heq⟩ := sramMerge_eq q a mask v
  · rwa [heq]
  · rw [heq]
    exact h.sramWrite w hin

theorem raise (code unit arg : Nat) (h : WrittenIn out p q) : WrittenIn out p (q.raise code unit arg) := ⟨h.dict, h.tiles, h.byte⟩

theorem setSlotCnt (n : Nat) (c : SlotCnt) (h : WrittenIn out p q) : WrittenIn out p (q.setSlotCnt n c) := ⟨h.dict, h.tiles, h.byte⟩

theorem ite {c : Prop} [Decidable c] (ht : WrittenIn out p q) (he : WrittenIn out p r) : WrittenIn out p (if c then q else r) := by
  split
  · exact ht
  · exact he

end

end WrittenIn

/-- The bytes of a narrowing store: its codes, and the two words around its scale group. -/
def narrowBytes (t : Nat) (x : VDesc) (a g b : Nat) : Prop :=
  (sramAddr t a ≤ b ∧ b < sramAddr t a + packedBytes x.fmt 128) ∨
    (sramAddr t (x.scaleBase + g / 4 * 3) / 16 * 16 ≤ b ∧ b < sramAddr t (x.scaleBase + g / 4 * 3) / 16 * 16 + 32)

theorem vNarrow_written (p : Pkg) (t : Nat) (x : VDesc) (a g e : Nat) (stoch : Bool) (n : Narrow) :
    WrittenIn (narrowBytes t x a g) p (p.vNarrow t x a g e stoch n) := by
  unfold Pkg.vNarrow
  extract_lets w0 k fine n vals block scales site rnd encs bytes old data wb codes ad grp grouped counted counts ceil slot reported
  have hcodes : WrittenIn (narrowBytes t x a g) p codes := by
    refine List.foldlRecOn (motive := WrittenIn (narrowBytes t x a g) p) _ _ (.refl p) fun q h i hi => ?_
    have hi := List.mem_range.mp hi
    have haddr := sramAddr_add t a (16 * i)
    have hbytes : bytes = packedBytes x.fmt 128 := rfl
    exact h.sramWrite _ fun b hlo hhi => .inl ⟨by omega, by omega⟩
  have hgrouped : WrittenIn (narrowBytes t x a g) p grouped := by
    refine .ite ?_ hcodes
    refine List.foldlRecOn (motive := WrittenIn (narrowBytes t x a g) p) _ _ hcodes fun q h i hi => ?_
    have hi := List.mem_range.mp hi
    exact h.sramMerge _ _ fun b hlo hhi => .inr ⟨by omega, by omega⟩
  have hcounts : WrittenIn (narrowBytes t x a g) p counts := .ite hgrouped (hgrouped.setSlotCnt _ _)
  have hreported : WrittenIn (narrowBytes t x a g) p reported :=
    .ite (.ite (hcounts.raise _ _ _) (.ite hcounts ((hcounts.setSlotCnt _ _).raise _ _ _))) hcounts
  exact .ite (hreported.raise _ _ _) hreported

theorem narrowBanks_step {p q : Pkg} (t : Nat) (x : VDesc) (a g c : Nat) (ht : t < 192) (h : TileStep t TileKey p q) :
    TileStep t TileKey p (q.narrowBanks t x a g c) := by
  have hcodes := bankRows_step bankVector c 1 a 0 (packedBytes x.fmt 128) 1 ht (fun _ hk => hk) (tileKey_tileCounter _ _ _) h
  exact .ite (bankRows_step _ _ _ _ _ _ _ ht (fun _ hk => hk) (tileKey_tileCounter _ _ _) hcodes) hcodes

theorem narrowBanks_vec (p : Pkg) (t : Nat) (x : VDesc) (a g c : Nat) : ((p.narrowBanks t x a g c).tile t).vec = (p.tile t).vec := by
  obtain ⟨b, hb⟩ := bankRows_tile p t bankVector c 1 a 0 (packedBytes x.fmt 128) 1
  unfold Pkg.narrowBanks
  dsimp only
  split
  · obtain ⟨b', hb'⟩ := bankRows_tile (p.bankRows t bankVector c 1 a 0 (packedBytes x.fmt 128) 1) t bankVector (c - 1) 1
      (x.scaleBase + g / 4 * 3) 0 3 2
    rw [hb', hb]
  · rw [hb]

/-- The engine of a VNST: both registers written back where corrected, the pointers advanced. -/
def narrowedVec (p : Pkg) (a : VMemForm) : VecEng :=
  (((p.tile a.t.val).vec.fix a.v.val).fix (a.v.val + 1)).advance a.vdesc.val (vdesc (p.tile a.t.val).vd a.vdesc.val)

theorem runVnst_eq (p : Pkg) (a : VMemForm) (c : Nat) : ∃ banks e stoch n met, runVnst p a c =
    (((p.setVec a.t.val (narrowedVec p a)).narrowBanks a.t.val (vdesc (p.tile a.t.val).vd a.vdesc.val)
      (ptrAddr (vdesc (p.tile a.t.val).vd a.vdesc.val) ((p.tile a.t.val).vec.ptr a.vdesc.val) 0).toNat
      (ptrScale (vdesc (p.tile a.t.val).vd a.vdesc.val) ((p.tile a.t.val).vec.ptr a.vdesc.val) 0).toNat banks).vNarrow a.t.val
      (vdesc (p.tile a.t.val).vd a.vdesc.val)
      (ptrAddr (vdesc (p.tile a.t.val).vd a.vdesc.val) ((p.tile a.t.val).vec.ptr a.vdesc.val) 0).toNat
      (ptrScale (vdesc (p.tile a.t.val).vd a.vdesc.val) ((p.tile a.t.val).vec.ptr a.vdesc.val) 0).toNat e stoch n).vecPoison a.t.val met :=
  ⟨_, _, _, _, _, rfl⟩

theorem vnst_issues (s : State) (a : VMemForm) (hwf : Instr.wf (.vnst a) = true) (h : VectorIssues (.vnst a) a.t a.cyc s)
    (hlim : memLimits s.pkg a (fun x => packedBytes x.fmt 128) true false = true) :
    ∃ t, exec (.vnst a) s = .next t ∧ SameTilesBut a.t.val s t ∧
      (t.vec a.t).ptrs = ((s.vec a.t).advance a.vdesc.val (vdesc (s.pkg.tile a.t.val).vd a.vdesc.val)).ptrs ∧
      SameMemoryBut (narrowBytes a.t.val (vdesc (s.pkg.tile a.t.val).vd a.vdesc.val)
        (ptrAddr (vdesc (s.pkg.tile a.t.val).vd a.vdesc.val) ((s.vec a.t).ptr a.vdesc.val) 0).toNat
        (ptrScale (vdesc (s.pkg.tile a.t.val).vd a.vdesc.val) ((s.vec a.t).ptr a.vdesc.val) 0).toNat) s t := by
  have hexec : exec (.vnst a) s = s.slot "VNST" (Instr.wf (.vnst a)) (memLimits s.pkg a (fun x => packedBytes x.fmt 128) true false)
    fun p => slotV p (.vnst a) a.t.val a.cyc := rfl
  rw [hwf, hlim, slot_next] at hexec
  obtain ⟨u, hu, hfrom⟩ := vector_runs hexec h
  obtain ⟨banks, e, stoch, n, met, heq⟩ : ∃ banks e stoch n met, vRun (s.vecRuns a.t a.cyc) a.cyc (.vnst a) = _ :=
    runVnst_eq (s.vecRuns a.t a.cyc) a a.cyc
  have hset : TileStep a.t.val TileKey s.pkg ((s.vecRuns a.t a.cyc).setVec a.t.val (narrowedVec (s.vecRuns a.t a.cyc) a)) :=
    (vecRuns_step s a.t a.cyc).setVec _
  have hvec : (((s.vecRuns a.t a.cyc).setVec a.t.val (narrowedVec (s.vecRuns a.t a.cyc) a)).tile a.t.val).vec.ptrs =
      ((s.vec a.t).advance a.vdesc.val (vdesc (s.pkg.tile a.t.val).vd a.vdesc.val)).ptrs := by
    rw [tile_setVec_self]
    dsimp only
    rw [narrowedVec, vecRuns_vd, vecRuns_vec]
    exact advance_ptrs_of_kept ((atVec_kept s a.t a.cyc).trans (fix_fix_readsAs _ _ _).kept) _ _
  rw [vecRuns_vd, vecRuns_vec, atVec_ptr] at heq
  rw [heq] at hfrom
  generalize (s.vecRuns a.t a.cyc).setVec a.t.val (narrowedVec (s.vecRuns a.t a.cyc) a) = r at *
  generalize vdesc (s.pkg.tile a.t.val).vd a.vdesc.val = x at *
  generalize (ptrAddr x ((s.vec a.t).ptr a.vdesc.val) 0).toNat = off at *
  generalize (ptrScale x ((s.vec a.t).ptr a.vdesc.val) 0).toNat = g at *
  have hbanks := narrowBanks_step a.t.val x off g banks a.t.isLt hset
  have hbvec := narrowBanks_vec r a.t.val x off g banks
  generalize r.narrowBanks a.t.val x off g banks = q at *
  have hw := vNarrow_written q a.t.val x off g e stoch n
  generalize q.vNarrow a.t.val x off g e stoch n = w at *
  obtain ⟨b, hb⟩ := vecPoison_tile w a.t.val met
  have htiles := (TileStep.refl (n := a.t.val) (K := TileKey) w).vecPoison met
  refine ⟨u, hu, fun m hm => ?_, ?_, fun b hb => ?_⟩
  · exact (hfrom.tiles m hm).trans ((htiles.tiles m hm).trans ((tile_of_tiles hw.tiles m).trans (hbanks.tiles m hm)))
  · rw [← hvec, ← hbvec, hfrom.vec, hb, tile_of_tiles hw.tiles]
  · rw [hfrom.byte, (vecPoison_memory w a.t.val met).1, hw.byte b hb]
    exact congrArg (SMap.at 0 b) hbanks.mem

/-! ### VLDQ and VRST -/

theorem mdvPush_nil (c fuel : Nat) (v : VecEng) (h : v.mdv = []) : mdvPush c fuel v = (v, 0, 0) := by
  cases fuel with
  | zero => rfl
  | succ fuel => rw [mdvPush, h]

/-- Without a waiting MDV nothing goes to the drain queue. -/
theorem drainRows_nil (p : Pkg) (t c : Nat) (h : (p.tile t).vec.mdv = []) : (p.drainRows t c).tile t = p.tile t := by
  rw [drainRows_tile, mdvPush_nil c _ _ h]

theorem atVec_nil (s : State) (t : TileNo) (c : Nat) (h : (s.vec t).mdv = []) : (s.atVec t c).vec t = s.vec t :=
  congrArg Tile.vec (drainRows_nil s.pkg t.val c h)

theorem vldq_slot {a : VMemForm} (hwf : Instr.wf (.vldq a) = true) (s : State) :
    exec (.vldq a) s = s.on .data fun p => slotV p (.vldq a) a.t.val a.cyc := by
  obtain ⟨hrm, hdesc⟩ := of_decide_eq_true hwf
  have hok : (memFormOk a false && decide (a.vdesc = 0)) = true := by
    rw [memFormOk_of_wf (decide_eq_true hrm), hdesc]
    rfl
  have hexec : exec (.vldq a) s = s.slot "VLDQ" (memFormOk a false && decide (a.vdesc = 0)) true fun p =>
    slotV p (.vldq a) a.t.val a.cyc := rfl
  rw [hexec, hok, slot_next]

theorem pop_regs {v w : VecEng} {c : Nat} {l : List AccWord} (h : v.pop c = some (l, w)) : ∃ queue half, w = { v with queue := queue, half := half } := by
  unfold VecEng.pop at h
  split at h
  · cases h
  · split at h
    · cases h
    · split at h
      · cases h
        exact ⟨_, _, rfl⟩
      · cases h
        exact ⟨_, _, rfl⟩

/-- The engine that a VLDQ leaves, with half a row taken from v. -/
def drainedVec (v : VecEng) (a : VMemForm) (l : List AccWord) (c : Nat) : VecEng :=
  (v.write a.v.val ((v.read a.v.val).merge (entriesVal l) (v.mask a.msk.val) a.mz)).setReady a.v.val (c + 2)

theorem drainedVec_ready (v : VecEng) (a : VMemForm) (l : List AccWord) (c : Nat) : (drainedVec v a l c).ready.at 0 a.v.val = c + 2 := by
  have hready : (drainedVec v a l c).ready = v.ready.put 0 a.v.val (c + 2) := rfl
  rw [hready, SMap.at_put_self]

theorem drainedVec_read (v : VecEng) (a : VMemForm) (l : List AccWord) (c : Nat) (r : Nat) (hr : r ≠ a.v.val) :
    (drainedVec v a l c).read r = v.read r := (written_reads (.refl v) rfl).2 r hr

theorem runVldq_some (p : Pkg) (a : VMemForm) (c : Nat) {l : List AccWord} {v : VecEng} (h : (p.tile a.t.val).vec.pop c = some (l, v)) :
    ∃ met, runVldq p a c = ((p.setVec a.t.val (drainedVec v a l c)).vecPoison a.t.val met).drainRows a.t.val c := by
  unfold runVldq
  dsimp only
  rw [h]
  exact ⟨_, rfl⟩

/-- A VLDQ that finds half a row takes it; no MDV waits for the room. -/
theorem runVldq_pops (p : Pkg) (a : VMemForm) (c : Nat) {l : List AccWord} {v : VecEng} (h : (p.tile a.t.val).vec.pop c = some (l, v))
    (hmdv : (p.tile a.t.val).vec.mdv = []) : TileStep a.t.val TileKey p (runVldq p a c) ∧
      ∃ b, (runVldq p a c).tile a.t.val = { p.tile a.t.val with vec := drainedVec v a l c, stepPoison := b } := by
  obtain ⟨met, heq⟩ := runVldq_some p a c h
  obtain ⟨queue, half, hv⟩ := pop_regs h
  obtain ⟨b, hb⟩ := vecPoison_tile (p.setVec a.t.val (drainedVec v a l c)) a.t.val met
  rw [tile_setVec_self] at hb
  have hnil : (((p.setVec a.t.val (drainedVec v a l c)).vecPoison a.t.val met).tile a.t.val).vec.mdv = [] := by
    rw [hb, ← hmdv, hv]
    rfl
  rw [heq]
  exact ⟨(((TileStep.refl p).setVec _).vecPoison met).trans (drainRows_step _ c (tileKey_vectorCounter _ _ _)), b, by rw [drainRows_nil _ _ _ hnil, hb]⟩

theorem vldq_pops (s : State) (a : VMemForm) (hwf : Instr.wf (.vldq a) = true) (h : VectorIssues (.vldq a) a.t a.cyc s)
    (hmdv : (s.vec a.t).mdv = []) (l : List AccWord) (v : VecEng) (hpop : (s.vec a.t).pop a.cyc = some (l, v)) :
    ∃ t, exec (.vldq a) s = .next t ∧ (t.vec a.t).queue = v.queue ∧ (t.vec a.t).half = v.half ∧
      (t.vec a.t).ready.at 0 a.v.val = a.cyc + 2 ∧
      (∀ r : Fin 32, r ≠ a.v → (t.vec a.t).read r.val = (s.vec a.t).read r.val) ∧ SameMemory s t ∧ SameTilesBut a.t.val s t := by
  have hmeet := atVec_nil s a.t a.cyc hmdv
  rw [← hmeet] at hmdv hpop
  obtain ⟨hstep, b, htile⟩ := runVldq_pops (s.vecRuns a.t a.cyc) a a.cyc hpop hmdv
  obtain ⟨queue, half, hv⟩ := pop_regs hpop
  obtain ⟨u, hu, hfrom⟩ := vector_runs (vldq_slot hwf s) h
  have hstep := (vecRuns_step s a.t a.cyc).trans hstep
  have hvec : u.vec a.t = { drainedVec v a l a.cyc with bundle := none } := hfrom.vec.trans (congrArg (fun x : Tile => { x.vec with bundle := none }) htile)
  refine ⟨u, hu, (congrArg VecEng.queue hvec :), (congrArg VecEng.half hvec :), ?_, fun r hr => ?_, fun m => ?_, fun n hn => ?_⟩
  · exact (congrArg (fun e : VecEng => e.ready.at 0 a.v.val) hvec :).trans (drainedVec_ready v a l a.cyc)
  · have hr' : r.val ≠ a.v.val := fun hv => hr (Fin.ext hv)
    refine (congrArg (fun e : VecEng => e.read r.val) hvec :).trans ((drainedVec_read v a l a.cyc r.val hr').trans ?_)
    rw [← atVec_read s a.t a.cyc, hv]
    rfl
  · exact (hfrom.byte m).trans (congrArg (SMap.at 0 m) hstep.mem)
  · exact (hfrom.tiles n hn).trans (hstep.tiles n hn)

theorem vldq_holds (s : State) (a : VMemForm) (hwf : Instr.wf (.vldq a) = true) (h : VectorIssues (.vldq a) a.t a.cyc s)
    (hpop : ((s.atVec a.t a.cyc).vec a.t).pop a.cyc = none) :
    ∃ t, exec (.vldq a) s = .next t ∧ RaisedLast t 0x3602 ∧ (t.vec a.t).held = some (.drain (.vldq a) a.cyc) ∧
      (t.vec a.t).regs = (s.vec a.t).regs ∧ SameMemory s t := by
  have hrun : vRun (s.vecRuns a.t a.cyc) a.cyc (.vldq a) = ((s.vecRuns a.t a.cyc).setVec a.t.val
      { (s.atVec a.t a.cyc).vec a.t with held := some (.drain (.vldq a) a.cyc) }).raise 0x3602 a.t.val 0 := by
    have hrun : vRun (s.vecRuns a.t a.cyc) a.cyc (.vldq a) = runVldq (s.vecRuns a.t a.cyc) a a.cyc := rfl
    rw [hrun, runVldq]
    dsimp only
    rw [vecRuns_vec, hpop]
  obtain ⟨u, hu, hfrom⟩ := vector_runs (vldq_slot hwf s) h
  rw [hrun] at hfrom
  have hvec := hfrom.vec
  rw [tile_raise, tile_setVec_self] at hvec
  refine ⟨u, hu, ?_, (congrArg VecEng.held hvec :), (congrArg VecEng.regs hvec :).trans (atVec_regs s a.t a.cyc), fun m => ?_⟩
  · rw [RaisedLast, hfrom.ev]
    simp [Pkg.raise]
  · exact (hfrom.byte m).trans (vecRuns_byte s a.t a.cyc m)

theorem vrst_issues (s : State) (a : VMemForm) (hwf : Instr.wf (.vrst a) = true) (h : VectorIssues (.vrst a) a.t a.cyc s) :
    ∃ t, exec (.vrst a) s = .next t ∧ (t.vec a.t).ptr a.vdesc.val = VPtr.reset ∧
      (∀ d, d ≠ a.vdesc.val → (t.vec a.t).ptr d = (s.vec a.t).ptr d) ∧ (t.vec a.t).regs = (s.vec a.t).regs ∧ SameMemory s t ∧
      SameTilesBut a.t.val s t := by
  obtain ⟨hfields, hmz⟩ := Bool.and_eq_true_iff.mp hwf
  obtain ⟨hrm, hv, hmsk⟩ := of_decide_eq_true hfields
  have hok : (memFormOk a false && decide (a.v = 0 ∧ a.msk = 0) && !a.mz) = true := by
    rw [memFormOk_of_wf (decide_eq_true hrm), decide_eq_true ⟨hv, hmsk⟩, hmz]
    rfl
  have hexec : exec (.vrst a) s = s.slot "VRST" (memFormOk a false && decide (a.v = 0 ∧ a.msk = 0) && !a.mz) true fun p =>
    slotV p (.vrst a) a.t.val a.cyc := rfl
  rw [hok, slot_next] at hexec
  obtain ⟨u, hu, hvec, hmem, htiles⟩ := vector_sets (met := fun _ => false) hexec h fun _ => rfl
  rw [vecRuns_vec] at hvec
  have hptr : ∀ d, (u.vec a.t).ptr d = (((s.atVec a.t a.cyc).vec a.t).ptrs.put VPtr.reset a.vdesc.val VPtr.reset).at VPtr.reset d :=
    fun d => (congrArg (fun e : VecEng => e.ptr d) hvec :)
  refine ⟨u, hu, ?_, fun d hd => ?_, (congrArg VecEng.regs hvec :).trans (atVec_regs s a.t a.cyc), hmem, htiles⟩
  · rw [hptr, SMap.at_put_self]
  · rw [hptr, SMap.at_put_other _ _ _ _ _ hd]
    exact atVec_ptr s a.t a.cyc d

/-- Settles O13: each memory form by what its effect makes of the engine and of the words that it stores. -/
theorem vectorMemoryCommands : Obligations.VectorMemoryCommands := fun s a =>
  ⟨vld_issues s a, vst_issues s a, vnst_issues s a, vldq_pops s a, vldq_holds s a, vrst_issues s a⟩

end Sys2Proof.Machine

namespace Sys2Proof.Machine

/-! ## The reduction unit and the non-finite record (R123 to R126) -/

theorem atVec_context (s : State) (t : TileNo) (c k : Nat) : ((s.atVec t c).vec t).context k = (s.vec t).context k :=
  congrArg (SMap.at Ctx.reset k) (atVec_kept s t c).ctx

/-- The second source of a VRED, named by a DOT only. -/
def redSecond (v : VecEng) (a : VRedForm) : VVal := if a.rop = 1 then v.read a.vb.val else ⟨[], []⟩

/-- The engine of a VRED: its context accumulated, its sources written back where corrected. -/
def reducedVec (v : VecEng) (a : VRedForm) : VecEng :=
  let w := if a.rop = 1 then (v.fix a.va.val).fix a.vb.val else v.fix a.va.val
  { w with ctx := w.ctx.put Ctx.reset a.rc.val ((w.context a.rc.val).accumulate a.rop.toNat (v.read a.va.val) (redSecond v a) (v.mask a.msk.val)) }

theorem reducedVec_readsAs (v : VecEng) (a : VRedForm) : ∃ w, ReadsAs v w ∧ reducedVec v a = { w with
    ctx := w.ctx.put Ctx.reset a.rc.val ((w.context a.rc.val).accumulate a.rop.toNat (v.read a.va.val) (redSecond v a) (v.mask a.msk.val)) } := by
  refine ⟨if a.rop = 1 then (v.fix a.va.val).fix a.vb.val else v.fix a.va.val, ?_, rfl⟩
  split
  · exact fix_fix_readsAs v _ _
  · exact fix_readsAs v _

theorem runVred_eq (p : Pkg) (a : VRedForm) (c : Nat) : runVred p a c = (p.setVec a.t.val (reducedVec (p.tile a.t.val).vec a)).vecPoison a.t.val
    (metPoison ((p.tile a.t.val).vec.mask a.msk.val) (if a.rop = 1 then [(p.tile a.t.val).vec.read a.va.val, redSecond (p.tile a.t.val).vec a]
      else [(p.tile a.t.val).vec.read a.va.val])) := rfl

theorem vred_issues (s : State) (a : VRedForm) (hwf : Instr.wf (.vred a) = true) (h : VectorIssues (.vred a) a.t a.cyc s)
    (hrop : ((s.vec a.t).context a.rc.val).rop = none ∨ ((s.vec a.t).context a.rc.val).rop = some a.rop.toNat) :
    ∃ t, exec (.vred a) s = .next t ∧ (t.vec a.t).context a.rc.val =
        ((s.vec a.t).context a.rc.val).accumulate a.rop.toNat ((s.vec a.t).read a.va.val)
          (if a.rop = 1 then (s.vec a.t).read a.vb.val else ⟨[], []⟩) ((s.vec a.t).mask a.msk.val) ∧
      (∀ c : Fin 4, c ≠ a.rc → (t.vec a.t).context c.val = (s.vec a.t).context c.val) ∧
      (∀ r : Fin 32, (t.vec a.t).read r.val = (s.vec a.t).read r.val) ∧ SameMemory s t ∧ SameTilesBut a.t.val s t := by
  have hexec : exec (.vred a) s = s.on .data fun p => slotV p (.vred a) a.t.val a.cyc := by
    have hslot : exec (.vred a) s = s.slot "VRED" true (match ((s.vec a.t).context a.rc.val).rop with
      | none => true
      | some r => decide (r = a.rop.toNat)) fun p => slotV p (.vred a) a.t.val a.cyc := rfl
    obtain hnone | hsome := hrop
    · rw [hslot, hnone, slot_next]
    · rw [hslot, hsome]
      dsimp only
      rw [decide_eq_true rfl, slot_next]
  obtain ⟨u, hu, hvec, hmem, htiles⟩ := vector_sets hexec h fun p => runVred_eq p a a.cyc
  rw [vecRuns_vec] at hvec
  obtain ⟨w, hw, heq⟩ := reducedVec_readsAs ((s.atVec a.t a.cyc).vec a.t) a
  have hctx : ∀ k, (u.vec a.t).context k = (w.ctx.put Ctx.reset a.rc.val ((w.context a.rc.val).accumulate a.rop.toNat
      (((s.atVec a.t a.cyc).vec a.t).read a.va.val) (redSecond ((s.atVec a.t a.cyc).vec a.t) a)
      (((s.atVec a.t a.cyc).vec a.t).mask a.msk.val))).at Ctx.reset k := by
    intro k
    rw [heq] at hvec
    exact (congrArg (fun e : VecEng => e.context k) hvec :)
  have hkeep : ∀ k, w.context k = (s.vec a.t).context k := fun k => (congrArg (SMap.at Ctx.reset k) hw.kept.ctx).trans (atVec_context s a.t a.cyc k)
  refine ⟨u, hu, ?_, fun c hc => ?_, fun r => ?_, hmem, htiles⟩
  · rw [hctx, SMap.at_put_self, hkeep, redSecond]
    simp only [atVec_read, atVec_mask]
  · rw [hctx, SMap.at_put_other _ _ _ _ _ fun hv => hc (Fin.ext hv)]
    exact hkeep c.val
  · rw [heq] at hvec
    exact (congrArg (fun e : VecEng => e.read r.val) hvec :).trans ((hw.read r.val).trans (atVec_read s a.t a.cyc r.val))

/-- Register r of an engine whose registers are those of v but for register d. -/
theorem read_of_written {v w e : VecEng} {d : Nat} {x : VVal} (hw : w.regs = v.regs) (he : e.regs = (w.write d x).regs) :
    e.read d = x.stored ∧ ∀ r, r ≠ d → e.read r = v.read r :=
  ⟨(read_of_regs he d).trans (read_write_self w d x),
    fun r hr => (read_of_regs he r).trans ((read_write_other w d r x hr).trans (read_of_regs hw r))⟩

/-- The engine of a VRGET before the share of the record: the context cleared, its fold in every lane of vd. -/
def foldedVec (v : VecEng) (a : VFoldForm) (c : Nat) : VecEng :=
  (({ v with ctx := v.ctx.put Ctx.reset a.rc.val Ctx.reset, foldEnd := c + 68, foldCtx := a.rc.val } : VecEng).write a.vd.val
    ⟨List.replicate 64 (v.context a.rc.val).fold, List.replicate 16 (v.context a.rc.val).poison⟩).setReady a.vd.val (c + 68)

section
variable (v : VecEng) (a : VFoldForm) (c : Nat)
theorem foldedVec_ctx : (foldedVec v a c).ctx = v.ctx.put Ctx.reset a.rc.val Ctx.reset := rfl
theorem foldedVec_regs : (foldedVec v a c).regs = (v.write a.vd.val
    ⟨List.replicate 64 (v.context a.rc.val).fold, List.replicate 16 (v.context a.rc.val).poison⟩).regs := rfl
theorem foldedVec_foldEnd : (foldedVec v a c).foldEnd = c + 68 := rfl
theorem foldedVec_ready : (foldedVec v a c).ready = v.ready.put 0 a.vd.val (c + 68) := rfl
end

theorem runVrget_eq (p : Pkg) (a : VFoldForm) (c : Nat) : ∃ late met, runVrget p a c =
    (p.setVec a.t.val { foldedVec (p.tile a.t.val).vec a c with late := late }).vecPoison a.t.val met := by
  obtain ⟨late, hlate⟩ := noteLate_late (foldedVec (p.tile a.t.val).vec a c) (c + 68) (VecRec.reset.noteAll
    ⟨List.replicate 64 ((p.tile a.t.val).vec.context a.rc.val).fold, List.replicate 16 ((p.tile a.t.val).vec.context a.rc.val).poison⟩
    (BitVec.allOnes 64) c (p.tile a.t.val).bundleIndex 0)
  refine ⟨late, ((p.tile a.t.val).vec.context a.rc.val).poison, ?_⟩
  rw [← hlate]
  rfl

theorem runVrget_tile (p : Pkg) (a : VFoldForm) (c : Nat) : ∃ late b, (runVrget p a c).tile a.t.val =
    { p.tile a.t.val with vec := { foldedVec (p.tile a.t.val).vec a c with late := late }, stepPoison := b } := by
  obtain ⟨late, met, heq⟩ := runVrget_eq p a c
  obtain ⟨b, hb⟩ := vecPoison_tile (p.setVec a.t.val { foldedVec (p.tile a.t.val).vec a c with late := late }) a.t.val met
  exact ⟨late, b, by rw [heq, hb, tile_setVec_self]⟩

theorem runVrget_step {p q : Pkg} (a : VFoldForm) (c : Nat) (h : TileStep a.t.val TileKey p q) : TileStep a.t.val TileKey p (runVrget q a c) := by
  obtain ⟨late, met, heq⟩ := runVrget_eq q a c
  rw [heq]
  exact (h.setVec _).vecPoison _

theorem vrget_issues (s : State) (a : VFoldForm) (h : VectorIssues (.vrget a) a.t a.cyc s)
    (hclean : ((s.vec a.t).context a.rc.val).poison = false) :
    ∃ t, exec (.vrget a) s = .next t ∧ (t.vec a.t).context a.rc.val = Ctx.reset ∧
      (∀ l < 64, ((t.vec a.t).read a.vd.val).lanes.getD l 0 = ((s.vec a.t).context a.rc.val).fold) ∧
      (t.vec a.t).foldEnd = a.cyc + 68 ∧ (t.vec a.t).ready.at 0 a.vd.val = a.cyc + 68 ∧
      (∀ r : Fin 32, r ≠ a.vd → (t.vec a.t).read r.val = (s.vec a.t).read r.val) ∧ SameMemory s t ∧ SameTilesBut a.t.val s t := by
  have hexec : exec (.vrget a) s = s.on .data fun p => slotV p (.vrget a) a.t.val a.cyc := rfl
  obtain ⟨late, b, htile⟩ := runVrget_tile (s.vecRuns a.t a.cyc) a a.cyc
  obtain ⟨u, hu, hvec, hmem, htiles⟩ := vector_issues (i := .vrget a) hexec h htile fun _ _ hq => runVrget_step a a.cyc hq
  rw [vecRuns_vec] at hvec
  have hregs : (u.vec a.t).regs = (foldedVec ((s.atVec a.t a.cyc).vec a.t) a a.cyc).regs := by rw [hvec]
  rw [foldedVec_regs] at hregs
  have hctx : (u.vec a.t).ctx = (foldedVec ((s.atVec a.t a.cyc).vec a.t) a a.cyc).ctx := by rw [hvec]
  have hfold : (u.vec a.t).foldEnd = (foldedVec ((s.atVec a.t a.cyc).vec a.t) a a.cyc).foldEnd := by rw [hvec]
  have hready : (u.vec a.t).ready = (foldedVec ((s.atVec a.t a.cyc).vec a.t) a a.cyc).ready := by rw [hvec]
  obtain ⟨hd, hother⟩ := written_reads (.refl _) hregs
  refine ⟨u, hu, ?_, fun l hl => ?_, ?_, ?_, fun r hr => ?_, hmem, htiles⟩
  · rw [VecEng.context, hctx, foldedVec_ctx, SMap.at_put_self]
  · rw [hd, atVec_context, hclean, stored_sound (sound_of_replicate rfl) l hl, List.getD_replicate _ hl]
  · rw [hfold, foldedVec_foldEnd]
  · rw [hready, foldedVec_ready, SMap.at_put_self]
  · exact (hother r.val fun hv => hr (Fin.ext hv)).trans (atVec_read s a.t a.cyc r.val)

/-! ### VFLG -/

/-- What VFLG writes to vd. -/
def flagged (v : VecEng) (a : VFlgForm) (c : Nat) : VVal :=
  (((v.settleRec c).read a.vd.val).merge ⟨(v.settleRec c).record.lanes, []⟩ ((v.settleRec c).mask a.msk.val) true)

/-- The engine of a VFLG: the record in vd, and cleared. -/
def flaggedVec (v : VecEng) (a : VFlgForm) (c : Nat) : VecEng :=
  (({ v.settleRec c with record := VecRec.reset } : VecEng).write a.vd.val (flagged v a c)).setReady a.vd.val (c + 2)

section
variable (v : VecEng) (a : VFlgForm) (c : Nat)
theorem flaggedVec_regs : (flaggedVec v a c).regs = (({ v.settleRec c with record := VecRec.reset } : VecEng).write a.vd.val (flagged v a c)).regs :=
  rfl
theorem flaggedVec_ready : (flaggedVec v a c).ready = v.ready.put 0 a.vd.val (c + 2) := rfl
theorem flaggedVec_record : (flaggedVec v a c).record = VecRec.reset := rfl
theorem settleRec_regs : ({ v.settleRec c with record := VecRec.reset } : VecEng).regs = v.regs := rfl
end

theorem runVflg_eq (p : Pkg) (a : VFlgForm) (c : Nat) : runVflg p a c =
    if bitOf ((flagged (p.tile a.t.val).vec a c).lanes.getD 0 0).toNat 31 then
      ((p.setVec a.t.val (flaggedVec (p.tile a.t.val).vec a c)).bump (O.vectorFlagSets + a.t.val) 1).raise 0x3603 a.t.val 0
    else p.setVec a.t.val (flaggedVec (p.tile a.t.val).vec a c) := rfl

theorem runVflg_tile (p : Pkg) (a : VFlgForm) (c : Nat) : (runVflg p a c).tile a.t.val =
    { p.tile a.t.val with vec := flaggedVec (p.tile a.t.val).vec a c } := by
  rw [runVflg_eq]
  split
  · rw [tile_raise, tile_bump, tile_setVec_self]
  · rw [tile_setVec_self]

theorem runVflg_step {p q : Pkg} (a : VFlgForm) (c : Nat) (h : TileStep a.t.val TileKey p q) : TileStep a.t.val TileKey p (runVflg q a c) := by
  rw [runVflg_eq]
  refine .ite (((h.setVec _).bump ?_ 1).raise _ _ _) (h.setVec _)
  simp only [TileKey, O.spareCol, O.vectorFlagSets]
  omega

theorem flagged_sound (v : VecEng) (a : VFlgForm) (c : Nat) : (flagged v a c).Sound := by
  intro q
  rw [flagged, VVal.merge, getD_map_range]
  split
  · simp
  · rfl

theorem atVec_settleRec (s : State) (t : TileNo) (c k : Nat) : (((s.atVec t c).vec t).settleRec k).record = ((s.vec t).settleRec k).record := by
  obtain ⟨queue, mdv, h⟩ := atVec_vec s t c
  rw [h]
  rfl

theorem vflg_issues (s : State) (a : VFlgForm) (h : VectorIssues (.vflg a) a.t a.cyc s) :
    ∃ t, exec (.vflg a) s = .next t ∧ (t.vec a.t).record = VecRec.reset ∧ (t.vec a.t).ready.at 0 a.vd.val = a.cyc + 2 ∧
      (laneOn ((s.vec a.t).mask a.msk.val) 0 = true →
        ((t.vec a.t).read a.vd.val).lanes.getD 0 0 = ((s.vec a.t).settleRec a.cyc).record.lanes.getD 0 0) ∧
      (∀ r : Fin 32, r ≠ a.vd → (t.vec a.t).read r.val = (s.vec a.t).read r.val) ∧ SameMemory s t ∧ SameTilesBut a.t.val s t := by
  have hexec : exec (.vflg a) s = s.on .data fun p => slotV p (.vflg a) a.t.val a.cyc := rfl
  obtain ⟨u, hu, hvec, hmem, htiles⟩ := vector_issues (i := .vflg a) hexec h (runVflg_tile (s.vecRuns a.t a.cyc) a a.cyc)
    fun _ _ hq => runVflg_step a a.cyc hq
  rw [vecRuns_vec] at hvec
  have hregs : (u.vec a.t).regs = (flaggedVec ((s.atVec a.t a.cyc).vec a.t) a a.cyc).regs := by rw [hvec]
  have hready : (u.vec a.t).ready = (flaggedVec ((s.atVec a.t a.cyc).vec a.t) a a.cyc).ready := by rw [hvec]
  have hrecord : (u.vec a.t).record = (flaggedVec ((s.atVec a.t a.cyc).vec a.t) a a.cyc).record := by rw [hvec]
  rw [flaggedVec_regs] at hregs
  obtain ⟨hd, hother⟩ := read_of_written (settleRec_regs ((s.atVec a.t a.cyc).vec a.t) a.cyc) hregs
  refine ⟨u, hu, hrecord.trans (flaggedVec_record _ a a.cyc), ?_, fun hon => ?_, fun r hr => ?_, hmem, htiles⟩
  · rw [hready, flaggedVec_ready, SMap.at_put_self]
  · have hmask : laneOn ((((s.atVec a.t a.cyc).vec a.t).settleRec a.cyc).mask a.msk.val) 0 = true :=
      (congrArg (laneOn · 0) (atVec_mask s a.t a.cyc a.msk.val)).trans hon
    rw [hd, stored_sound (flagged_sound _ a _) 0 (by omega), flagged, merge_lane _ _ _ _ 0 (by omega), if_pos hmask, atVec_settleRec]
  · exact (hother r.val fun hv => hr (Fin.ext hv)).trans (atVec_read s a.t a.cyc r.val)

/-- Settles O14: each reduction command by the engine that it leaves. -/
theorem vectorReductionCommands : Obligations.VectorReductionCommands := ⟨vred_issues, vrget_issues, vflg_issues⟩

end Sys2Proof.Machine

namespace Sys2Proof.Machine

/-! ## Held commands, release and phrases (R117, R118, R122) -/

/-- q is p with changes outside the other tiles, and outside this tile's array and sequencer. -/
structure VecStep (n : Nat) (p q : Pkg) : Prop where
  tiles : ∀ u, u ≠ n → q.tile u = p.tile u
  mx : (q.tile n).mx = (p.tile n).mx
  seq : (q.tile n).seq = (p.tile n).seq

namespace VecStep

section
variable {n : Nat} {p q r : Pkg}

theorem refl (p : Pkg) : VecStep n p p := ⟨fun _ _ => rfl, rfl, rfl⟩

theorem trans (h : VecStep n p q) (h' : VecStep n q r) : VecStep n p r :=
  ⟨fun u hu => (h'.tiles u hu).trans (h.tiles u hu), h'.mx.trans h.mx, h'.seq.trans h.seq⟩

/-- Where the tiles are as before. -/
theorem of_tiles (h : VecStep n p q) (ht : r.tiles = q.tiles) : VecStep n p r :=
  h.trans ⟨fun u _ => tile_of_tiles ht u, by rw [tile_of_tiles ht], by rw [tile_of_tiles ht]⟩

theorem setVec (v : VecEng) (h : VecStep n p q) : VecStep n p (q.setVec n v) :=
  h.trans ⟨fun u hu => tile_setTile_other _ _ _ _ hu, by rw [tile_setVec_self], by rw [tile_setVec_self]⟩

theorem vecPoison (met : Bool) (h : VecStep n p q) : VecStep n p (q.vecPoison n met) := by
  obtain ⟨b, hb⟩ := vecPoison_tile q n met
  exact h.trans ⟨((TileStep.refl (K := TileKey) q).vecPoison met).tiles, by rw [hb], by rw [hb]⟩

theorem storeBanks (a c : Nat) (m : W64) (mz : Bool) (hn : n < 192) (h : VecStep n p q) : VecStep n p (q.storeBanks n a c m mz) := by
  obtain ⟨b, hb⟩ := storeBanks_tile q n a c m mz
  exact h.trans ⟨(storeBanks_step n a c m mz hn (.refl q)).tiles, by rw [hb], by rw [hb]⟩

theorem bankUse (cls cyc off len : Nat) (hn : n < 192) (h : VecStep n p q) : VecStep n p (q.bankUse n cls cyc off len).1 := by
  obtain ⟨b, hb⟩ := bankUse_tile q n cls cyc off len
  exact h.trans ⟨(bankUse_step cls cyc off len hn (fun _ hk => hk) (tileKey_tileCounter _ _ _) (.refl q)).tiles, by rw [hb], by rw [hb]⟩

theorem narrowBanks (x : VDesc) (a g c : Nat) (hn : n < 192) (h : VecStep n p q) : VecStep n p (q.narrowBanks n x a g c) := by
  have htile : ∃ b, (q.narrowBanks n x a g c).tile n = { q.tile n with banks := b } := by
    obtain ⟨b, hb⟩ := bankRows_tile q n bankVector c 1 a 0 (packedBytes x.fmt 128) 1
    unfold Pkg.narrowBanks
    dsimp only
    split
    · obtain ⟨b', hb'⟩ := bankRows_tile (q.bankRows n bankVector c 1 a 0 (packedBytes x.fmt 128) 1) n bankVector (c - 1) 1
        (x.scaleBase + g / 4 * 3) 0 3 2
      exact ⟨b', by rw [hb', hb]⟩
    · exact ⟨b, hb⟩
  obtain ⟨b, hb⟩ := htile
  exact h.trans ⟨(narrowBanks_step n x a g c hn (.refl q)).tiles, by rw [hb], by rw [hb]⟩

theorem raise (code unit arg : Nat) (h : VecStep n p q) : VecStep n p (q.raise code unit arg) := h.of_tiles (r := q.raise code unit arg) rfl

theorem bump64 (k v : Nat) (h : VecStep n p q) : VecStep n p (q.bump64 k v) := h.of_tiles (r := q.bump64 k v) rfl

theorem vNarrow (x : VDesc) (a g e : Nat) (stoch : Bool) (c : Narrow) (h : VecStep n p q) : VecStep n p (q.vNarrow n x a g e stoch c) :=
  h.of_tiles (vNarrow_written q n x a g e stoch c).tiles

theorem vStore (a : Nat) (x : VVal) (m : W64) (mz : Bool) (h : VecStep n p q) : VecStep n p (q.vStore n a x m mz) :=
  h.of_tiles (vStore_written q n a x m mz).tiles

theorem drainRows (c : Nat) (h : VecStep n p q) : VecStep n p (q.drainRows n c) :=
  h.trans ⟨(drainRows_step (K := TileKey) q c (tileKey_vectorCounter _ _ _)).tiles, by rw [drainRows_tile], by rw [drainRows_tile]⟩

end

end VecStep

/-! ### Phrases (R119 to R122) -/

/-- The run of a phrase: what its VPHR named and when it issued. -/
def SameRun (r r' : PhraseRun) : Prop := r'.desc = r.desc ∧ r'.count = r.count ∧ r'.issue = r.issue

theorem SameRun.trans {r r' r'' : PhraseRun} (h : SameRun r r') (h' : SameRun r' r'') : SameRun r r'' :=
  ⟨h'.1.trans h.1, h'.2.1.trans h.2.1, h'.2.2.trans h.2.2⟩

theorem phraseStore_step {p q : Pkg} {t : Nat} (ht : t < 192) (o : POut) (n : Nat) (x : VVal) (ready : Nat) (r : PhraseRun) (h : VecStep t p q) :
    VecStep t p (phraseStore q t o n x ready r).1 ∧ SameRun r (phraseStore q t o n x ready r).2 := by
  have hsame : SameRun r r := ⟨rfl, rfl, rfl⟩
  unfold phraseStore
  split
  · exact ⟨h, hsame⟩
  · split
    · exact ⟨h, rfl, rfl, rfl⟩
    · dsimp only
      split
      · refine ⟨?_, hsame⟩
        dsimp only
        refine VecStep.vNarrow _ _ _ _ _ _ ?_
        exact (h.setVec _).narrowBanks _ _ _ _ ht
      · refine ⟨?_, hsame⟩
        dsimp only
        refine VecStep.vStore _ _ _ _ ?_
        exact (h.setVec _).storeBanks _ _ _ _ ht

theorem phraseIteration_step {p q : Pkg} {t : Nat} (ht : t < 192) (r : PhraseRun) (ins : List VVal) (c : Nat) (h : VecStep t p q) :
    VecStep t p (phraseIteration q t r ins c).1 ∧ SameRun r (phraseIteration q t r ins c).2 := by
  unfold phraseIteration
  extract_lets pd outsD stages u loadBad met v noted stepped poisoned run w
  have hstart : VecStep t p poisoned := (h.setVec _).vecPoison _
  have hrun : SameRun r run := ⟨rfl, rfl, rfl⟩
  clear_value poisoned u run
  have hw : VecStep t p w.1 ∧ SameRun run w.2 := by
    refine foldl_invariant (fun b : Pkg × PhraseRun => VecStep t p b.1 ∧ SameRun run b.2) (fun b e hb => ?_) _ ⟨hstart, rfl, rfl, rfl⟩
    obtain ⟨hstep, hsame⟩ := phraseStore_step ht e.2 e.1 (((u.1[e.2.src]?).map (·.val)).getD (VVal.const 0))
      (((u.1[e.2.src]?).map (·.ready)).getD c) b.2 hb.1
    exact ⟨hstep, hb.2.trans hsame⟩
  exact ⟨hw.1, hrun.trans hw.2⟩

theorem phraseBanks_step {p q : Pkg} {t : Nat} (ht : t < 192) (c : Nat) (h : VecStep t p q) : VecStep t p (phraseBanks q t c).1 := by
  unfold phraseBanks
  dsimp only
  split
  · exact h
  · refine foldl_invariant (fun b : Pkg × Nat => VecStep t p b.1) (fun b i hb => ?_) _ h
    split
    · exact hb.bankUse _ _ _ _ ht
    · exact hb

theorem drainRows_phrase (p : Pkg) (t c : Nat) : ((p.drainRows t c).tile t).vec.phrase = (p.tile t).vec.phrase := by
  obtain ⟨queue, mdv, h, -⟩ := mdvPush_spec c (mdvFuel (p.tile t).vec) (p.tile t).vec
  rw [drainRows_tile, h]

/-- A phrase that advances stays the run that it is. -/
theorem phraseAdvance_step {t : Nat} (ht : t < 192) (n : Nat) (p : Pkg) (r : PhraseRun) (hr : (p.tile t).vec.phrase = some r) :
    VecStep t p (phraseAdvance t n p) ∧ ∃ r', ((phraseAdvance t n p).tile t).vec.phrase = some r' ∧ SameRun r r' := by
  induction n generalizing p r with
  | zero => exact ⟨.refl p, r, hr, rfl, rfl, rfl⟩
  | succ n ih =>
    rw [phraseAdvance, hr]
    dsimp only
    split
    · exact ⟨.refl p, r, hr, rfl, rfl, rfl⟩
    · generalize hreport : (if r.waited = true then (p, r) else (p.raise 0x3602 t 0, { r with waited := true })) = report
      have hreported : VecStep t p report.1 ∧ SameRun r report.2 := by
        rw [← hreport]
        split
        · exact ⟨.refl p, rfl, rfl, rfl⟩
        · exact ⟨(VecStep.refl p).raise _ _ _, rfl, rfl, rfl⟩
      split
      · exact ⟨hreported.1.setVec _, report.2, by rw [tile_setVec_self], hreported.2⟩
      next ins v c' hins =>
        generalize hu : (if r.issue + r.delay + phraseStages (p.tile t).pd r.desc * r.iter < c' then report else (p, r)) = u
        have hstart : VecStep t p u.1 ∧ SameRun r u.2 := by
          rw [← hu]
          split
          · exact hreported
          · exact ⟨.refl p, rfl, rfl, rfl⟩
        generalize hq : Pkg.bump64 (Pkg.bump64 u.1 _ _) _ _ = q
        have hcounted : VecStep t p q := by
          rw [← hq]
          exact (hstart.1.bump64 _ _).bump64 _ _
        obtain ⟨hiter, hrun⟩ := phraseIteration_step (r := { u.2 with delay := r.delay + (c' + (phraseBanks q t c').2 -
          (r.issue + r.delay + phraseStages (p.tile t).pd r.desc * r.iter)) }) ht ins (c' + (phraseBanks q t c').2)
          ((phraseBanks_step ht c' hcounted).setVec v)
        generalize phraseIteration _ t _ ins _ = w at hiter hrun ⊢
        obtain ⟨hrest, r', hr', hsame⟩ := ih ((w.1.setVec t { (w.1.tile t).vec with phrase := some w.2 }).drainRows t c') w.2
          (by rw [drainRows_phrase, tile_setVec_self])
        exact ⟨((hiter.setVec _).drainRows c').trans hrest, r', hr', hstart.2.trans (SameRun.trans hrun hsame)⟩

theorem vectorRelease_nop (s : State) (n : TileNo) (hruns : s.Runs .data) (hfree : (s.pkg.tile n.val).free = true) :
    ∃ t, exec (.vnop n) s = .next t ∧ t.vec n = { s.vec n with bundle := none } ∧ t.mx n = s.mx n ∧ t.seqr n = s.seqr n ∧
      SameMemory s t ∧ SameRegs s t ∧ SameTilesBut n.val s t := by
  have hexec : exec (.vnop n) s = execVnop n s := rfl
  rw [hexec, execVnop, on_runs s _ _ hruns]
  dsimp only
  rw [hfree, Bool.true_and]
  split
  next =>
    refine ⟨_, rfl, ?_, ?_, ?_, fun _ => rfl, fun _ => rfl, fun u hu => tile_setTile_other _ _ _ _ hu⟩
    all_goals simp only [State.vec, State.mx, State.seqr, settle_pkg, tile_setVec_self]
  next h =>
    rw [Bool.not_eq_true, Option.isSome_eq_false_iff, Option.isNone_iff_eq_none] at h
    exact ⟨_, rfl, by rw [← h]; rfl, rfl, rfl, fun _ => rfl, fun _ => rfl, fun _ _ => rfl⟩

theorem vadd_held (s : State) (a : VRegForm) (hruns : s.Runs .data) (hwf : Instr.wf (.vadd a) = true)
    (hfree : ((s.atVec a.t a.cyc).pkg.tile a.t.val).free = true)
    (hold : vMustHold ((s.atVec a.t a.cyc).pkg.tile a.t.val) a.cyc (.vadd a) = true) :
    Does (.vadd a) s (((s.atVec a.t a.cyc).pkg.setVec a.t.val
      { (s.atVec a.t a.cyc).vec a.t with held := some (.instr (.vadd a) a.cyc) }).raise 0x3601 a.t.val 0) := by
  have hexec : exec (.vadd a) s = s.on .data fun p => slotV p (.vadd a) a.t.val a.cyc := rfl
  have hstop : ¬ ((s.atVec a.t a.cyc).pkg.tile a.t.val).free = false := by rw [hfree]; decide
  rw [Does, hexec, on_runs s _ _ hruns]
  exact congrArg (fun p => Host.Outcome.next (s.settle p)) ((if_neg hstop).trans (if_pos hold))

theorem vectorInterlock_releases (s : State) (n : TileNo) (cyc since : Nat) (i : Instr) (hruns : s.Runs .data)
    (hheld : (s.vec n).held = some (.instr i since)) (hsince : since ≤ cyc) (hgo : vMustHold (s.pkg.tile n.val) cyc i = false) :
    Does (.vectorInterlockRelease n cyc) s
      (issueV ((s.pkg.setVec n.val { s.vec n with held := none }).bump64 (s.pkg.tileCounter O.vectorCounters 2 n.val) (cyc - since))
        i n.val cyc) := by
  have hexec : exec (.vectorInterlockRelease n cyc) s = execVectorInterlockRelease n cyc s := rfl
  rw [Does, hexec, execVectorInterlockRelease, on_runs s _ _ hruns]
  dsimp only
  rw [hheld]
  dsimp only
  rw [if_neg (by rw [hgo]; simp; omega)]

/-- The run that a VPHR begins. -/
theorem runVphr_begins (p : Pkg) (a : VPhrForm) (c : Nat) (hcount : a.count ≠ 0) (hstages : phraseStages (p.tile a.t.val).pd a.phrase.val ≠ 0) :
    ∃ (v : VecEng) (r : PhraseRun), runVphr p a c = (p.setVec a.t.val { v with phrase := some r }).runPhrase a.t.val ∧ r.desc = a.phrase.val ∧ r.count = a.count.toNat ∧
      r.issue = c := by
  unfold runVphr
  dsimp only
  rw [if_neg (by rintro (h | h); exacts [hcount h, hstages h])]
  exact ⟨_, _, rfl, rfl, rfl, rfl⟩

theorem vphr_begins (s : State) (a : VPhrForm) (hwf : Instr.wf (.vphr a) = true)
    (hok : phraseOk (s.pkg.tile a.t.val).pd a.phrase.val = true) (hcount : a.count ≠ 0)
    (hstages : phraseStages (s.pkg.tile a.t.val).pd a.phrase.val ≠ 0)
    (hlim : phraseLimits s.pkg a.t.val a.phrase.val a.count.toNat = true) (h : VectorIssues (.vphr a) a.t a.cyc s) :
    ∃ t r, exec (.vphr a) s = .next t ∧ (t.vec a.t).phrase = some r ∧ r.desc = a.phrase.val ∧ r.count = a.count.toNat ∧
      r.issue = a.cyc ∧ t.mx a.t = s.mx a.t ∧ t.seqr a.t = s.seqr a.t ∧ SameTilesBut a.t.val s t := by
  have hexec : exec (.vphr a) s = s.slot "VPHR" (Instr.wf (.vphr a) && phraseOk (s.pkg.tile a.t.val).pd a.phrase.val)
    (phraseLimits s.pkg a.t.val a.phrase.val a.count.toNat) fun p => slotV p (.vphr a) a.t.val a.cyc := rfl
  rw [hwf, hok, hlim, Bool.and_self, slot_next] at hexec
  obtain ⟨u, hu, hfrom⟩ := vector_runs hexec h
  have hpd : ((s.vecRuns a.t a.cyc).tile a.t.val).pd = (s.pkg.tile a.t.val).pd := (congrArg Tile.pd (atVec_tile s a.t a.cyc) :)
  have hmeet : VecStep a.t.val s.pkg (s.vecRuns a.t a.cyc) := ((VecStep.refl s.pkg).drainRows a.cyc).bump64 _ _
  obtain ⟨v, r, heq, hdesc, hcnt, hissue⟩ := runVphr_begins (s.vecRuns a.t a.cyc) a a.cyc hcount (by rwa [hpd])
  have hset : (((s.vecRuns a.t a.cyc).setVec a.t.val { v with phrase := some r }).tile a.t.val).vec.phrase = some r := by rw [tile_setVec_self]
  obtain ⟨hstep, r', hr', hsame⟩ := phraseAdvance_step a.t.isLt (r.count - r.iter) _ r hset
  have hrun : vRun (s.vecRuns a.t a.cyc) a.cyc (.vphr a) = phraseAdvance a.t.val (r.count - r.iter)
      ((s.vecRuns a.t a.cyc).setVec a.t.val { v with phrase := some r }) := by
    refine Eq.trans heq ?_
    rw [Pkg.runPhrase, hset]
  rw [hrun] at hfrom
  have hall := (hmeet.setVec _).trans hstep
  refine ⟨u, r', hu, by rw [hfrom.vec]; exact hr', hsame.1.trans hdesc, hsame.2.1.trans hcnt, hsame.2.2.trans hissue, ?_, ?_,
    fun n hn => (hfrom.tiles n hn).trans (hall.tiles n hn)⟩
  · exact (congrArg Tile.mx hfrom.tile :).trans hall.mx
  · exact (congrArg Tile.seq hfrom.tile :).trans hall.seq

theorem phrase_ends (s : State) (n : TileNo) (cyc : Nat) (r : PhraseRun) (hruns : s.Runs .data) (hr : (s.vec n).phrase = some r)
    (hdone : r.count ≤ r.iter) (hcyc : phraseEnd (s.pkg.tile n.val) r ≤ cyc) :
    ∃ t, exec (.phraseEnd n cyc) s = .next t ∧ (t.vec n).phrase = none ∧ (t.vec n).regs = (s.vec n).regs ∧ SameMemory s t ∧
      t.pkg.reg (s.pkg.tileCounter O.vectorCounters 1 n.val) =
        (s.pkg.reg (s.pkg.tileCounter O.vectorCounters 1 n.val) + (phraseEnd (s.pkg.tile n.val) r - r.issue)) % 2 ^ 64 ∧
      SameTilesBut n.val s t ∧ SameRegsBut (fun k => k = s.pkg.tileCounter O.vectorCounters 1 n.val) s t := by
  have hexec : exec (.phraseEnd n cyc) s = execPhraseEnd n cyc s := rfl
  rw [hexec, execPhraseEnd, on_runs s _ _ hruns]
  dsimp only
  rw [hr]
  dsimp only
  rw [if_neg (by omega)]
  have hstep : TileStep n.val (fun k => k = s.pkg.tileCounter O.vectorCounters 1 n.val) s.pkg _ :=
    ((TileStep.refl s.pkg).setVec { s.vec n with phrase := none }).bump64 (K := fun k => k = s.pkg.tileCounter O.vectorCounters 1 n.val) rfl (phraseEnd (s.pkg.tile n.val) r - r.issue)
  refine ⟨_, rfl, ?_, ?_, hstep.sameMemory, reg_setReg_self _ _ _, hstep.sameTilesBut, hstep.sameRegsBut⟩
  all_goals simp only [State.vec, settle_pkg, tile_bump64, tile_setVec_self]

theorem pop_with_held {v w : VecEng} {c : Nat} {l : List AccWord} (h : v.pop c = some (l, w)) (held : Option VHeld) :
    ({ v with held := held } : VecEng).pop c = some (l, { w with held := held }) := by
  unfold VecEng.pop at h ⊢
  split at h
  · cases h
  next hq =>
    rw [hq]
    dsimp only
    split at h
    · cases h
    next hc =>
      rw [if_neg hc]
      split at h
      next hhalf =>
        cases h
        exact if_pos hhalf
      next hhalf =>
        cases h
        exact (if_neg hhalf).trans (by rw [← hq])

theorem vldq_released (s : State) (n : TileNo) (cyc since : Nat) (a : VMemForm) (l : List AccWord) (v : VecEng) (hruns : s.Runs .data)
    (ht : a.t = n) (hmdv : (s.vec n).mdv = []) (hphrase : (s.vec n).phrase = none) (hheld : (s.vec n).held = some (.drain (.vldq a) since))
    (hsince : since ≤ cyc) (hpop : (s.vec n).pop cyc = some (l, v)) :
    ∃ t, exec (.drainQueueHoldRelease n cyc) s = .next t ∧ (t.vec n).held = none ∧ (t.vec n).queue = v.queue ∧
      (t.vec n).ready.at 0 a.v.val = cyc + 2 ∧ SameMemory s t ∧ SameTilesBut n.val s t := by
  subst ht
  have hexec : exec (.drainQueueHoldRelease a.t cyc) s = execDrainQueueHoldRelease a.t cyc s := rfl
  have htile : (s.pkg.drainRows a.t.val cyc).tile a.t.val = s.pkg.tile a.t.val := drainRows_nil s.pkg a.t.val cyc hmdv
  rw [hexec, execDrainQueueHoldRelease, on_runs s _ _ hruns]
  dsimp only
  rw [htile, hheld]
  dsimp only
  rw [hpop, if_neg (by simp; omega)]
  generalize hq : Pkg.bump64 (Pkg.setVec _ a.t.val _) _ (cyc - since) = q
  have hqstep : TileStep a.t.val TileKey s.pkg q := by
    rw [← hq]
    exact ((drainRows_step s.pkg cyc (tileKey_vectorCounter _ _ _)).setVec _).bump64 (tileKey_vectorCounter _ _ _) _
  have hqtile : (q.tile a.t.val).vec = { s.vec a.t with held := none } := by rw [← hq, tile_bump64, tile_setVec_self]
  have hqpop : (q.tile a.t.val).vec.pop cyc = some (l, { v with held := none }) := by
    rw [hqtile]
    exact pop_with_held hpop none
  obtain ⟨hstep, b, hrun⟩ := runVldq_pops q a cyc hqpop (by rw [hqtile]; exact hmdv)
  obtain ⟨queue, half, hv⟩ := pop_regs hqpop
  have hvldq : vRun q cyc (.vldq a) = runVldq q a cyc := rfl
  have hnophrase : ((runVldq q a cyc).tile a.t.val).vec.phrase = none := by
    rw [hrun, ← hphrase]
    exact (congrArg VecEng.phrase hv :).trans (congrArg VecEng.phrase hqtile :)
  rw [hvldq, Pkg.runPhrase, hnophrase]
  have hall := hqstep.trans hstep
  refine ⟨_, rfl, ?_, ?_, ?_, hall.sameMemory, hall.sameTilesBut⟩
  · exact (congrArg (fun x : Tile => x.vec.held) hrun :)
  · exact (congrArg (fun x : Tile => x.vec.queue) hrun :)
  · exact (congrArg (fun x : Tile => x.vec.ready.at 0 a.v.val) hrun :).trans (drainedVec_ready _ a l cyc)

/-- Settles O15: each event of the vector slot by its branch; a phrase keeps its run as it advances. -/
theorem vectorIssueAndRelease : Obligations.VectorIssueAndRelease :=
  ⟨vectorRelease_nop, vadd_held, vectorInterlock_releases, vphr_begins, phrase_ends, vldq_released⟩

end Sys2Proof.Machine

namespace Sys2Proof.Machine

/-! ## The control slot (R132 to R136) -/

@[simp] theorem tile_setSeq_self (p : Pkg) (t : Nat) (x : Seqr) : (p.setSeq t x).tile t = { p.tile t with seq := x } := tile_setTile_self p t _

theorem TileStep.setSeq {n : Nat} {K : Nat → Prop} {p q : Pkg} (x : Seqr) (h : TileStep n K p q) : TileStep n K p (q.setSeq n x) := h.setTile _

/-- What a fetch may change of a tile: its bundle corrected, or named for a refetch. -/
def Tile.fetched (ti : Tile) (store : SMap PWord) (refetch : Option Nat) : Tile :=
  { ti with store := store, seq := { ti.seq with refetch := refetch } }

theorem fetch_tile (p : Pkg) (t : Nat) : ∃ store refetch, (p.fetch t).tile t = (p.tile t).fetched store refetch := by
  unfold Pkg.fetch
  dsimp only
  split
  · exact ⟨_, _, rfl⟩
  · split
    · exact ⟨_, _, rfl⟩
    · exact ⟨_, _, tile_setTile_self _ _ _⟩
    · exact ⟨_, _, tile_setTile_self _ _ _⟩

theorem fetch_step {n : Nat} {K : Nat → Prop} {p q : Pkg} (h : TileStep n K p q) : TileStep n K p (q.fetch n) := by
  unfold Pkg.fetch
  dsimp only
  split
  · exact h
  · split
    · exact h
    · exact h.setTile _
    · exact (h.setSeq _).raise _ _ _

/-- A bundle issues: where a clause runs, the bundle at pc is fetched. -/
theorem goto_tile (p : Pkg) (t pc : Nat) : ∃ store refetch, (p.goto t pc).tile t =
    ({ p.tile t with seq := { (p.tile t).seq with pc := if (p.tile t).seq.running then pc else (p.tile t).seq.pc } }).fetched store refetch := by
  unfold Pkg.goto
  dsimp only
  split
  · obtain ⟨store, refetch, h⟩ := fetch_tile (p.setSeq t { (p.tile t).seq with pc := pc }) t
    exact ⟨store, refetch, by rw [h, tile_setSeq_self]⟩
  · exact ⟨_, _, rfl⟩

theorem goto_step {n : Nat} {K : Nat → Prop} {p q : Pkg} (pc : Nat) (h : TileStep n K p q) : TileStep n K p (q.goto n pc) :=
  .ite (fetch_step (h.setSeq _)) h

theorem advance_tile (p : Pkg) (t : Nat) : ∃ store refetch, (p.advance t).tile t =
    ({ p.tile t with seq := { (p.tile t).seq with pc := nextPc (p.tile t).seq } }).fetched store refetch := goto_tile p t _

theorem advance_step {n : Nat} {K : Nat → Prop} {p q : Pkg} (h : TileStep n K p q) : TileStep n K p (q.advance n) := goto_step _ h

theorem passWait_tile (p : Pkg) (t : Nat) : ∃ vec store refetch, (p.passWait t).tile t =
    ({ p.tile t with vec := vec, seq := { (p.tile t).seq with pc := nextPc (p.tile t).seq } }).fetched store refetch := by
  obtain ⟨store, refetch, h⟩ := advance_tile (p.setTile t { p.tile t with
    vec := { (p.tile t).vec with bundle := some (p.tile t).seq.pc } }) t
  rw [tile_setTile_self] at h
  exact ⟨_, store, refetch, h⟩

theorem passWait_step {n : Nat} {K : Nat → Prop} {p q : Pkg} (h : TileStep n K p q) : TileStep n K p (q.passWait n) := advance_step (h.setTile _)

/-- Nothing holds a bundle that is free. -/
theorem hold_of_free {ti : Tile} (h : ti.free = true) : ti.seq.hold = none := by
  simp only [Tile.free, Bool.and_eq_true, Option.isNone_iff_eq_none] at h
  exact h.1.1.1

theorem takeCredits_some {ti : Tile} {win n : Nat} (h : n ≤ ti.win.at 0 win) :
    ti.takeCredits win n = some { ti with win := ti.win.put 0 win (ti.win.at 0 win - n) } := if_pos h

theorem takeCredits_none {ti : Tile} {win n : Nat} (h : ti.win.at 0 win < n) : ti.takeCredits win n = none := if_neg (by omega)

section
variable {s : State} {n : TileNo}

/-- A control command of a bundle that nothing holds. -/
theorem control_runs (hruns : s.Runs .data) (hfree : (s.pkg.tile n.val).free = true) (f : Pkg → Pkg) : s.control n f = .next (s.settle (f s.pkg)) := by
  rw [State.control, on_runs s _ _ hruns, hfree, if_pos rfl]

section
variable (hruns : s.Runs .data) (hfree : (s.pkg.tile n.val).free = true)
include hruns hfree

theorem cnop_goes : ∃ t, exec (.cnop n) s = .next t ∧ (t.seqr n).pc = nextPc (s.seqr n) ∧ (t.seqr n).hold = none ∧
    (t.seqr n).loops = (s.seqr n).loops ∧ SameMemory s t ∧ SameRegs s t ∧ SameTilesBut n.val s t := by
  have hexec : exec (.cnop n) s = s.control n fun p => p.advance n.val := rfl
  obtain ⟨store, refetch, htile⟩ := advance_tile s.pkg n.val
  have hstep := advance_step (n := n.val) (K := fun _ => False) (.refl s.pkg)
  refine ⟨_, hexec.trans (control_runs hruns hfree _), ?_, ?_, ?_, hstep.sameMemory, hstep.sameRegs, hstep.sameTilesBut⟩
  all_goals simp only [State.seqr, settle_pkg, htile, Tile.fetched, hold_of_free hfree]

theorem cwait_passes (target : BitVec 27) (hreached : s.pkg.reached ((s.seqr n).startBeat + target.toNat) = true) :
    ∃ t, exec (.cwait n target) s = .next t ∧ (t.seqr n).pc = nextPc (s.seqr n) ∧ (t.seqr n).hold = none ∧ SameMemory s t ∧
      SameRegs s t ∧ SameTilesBut n.val s t := by
  have hexec : exec (.cwait n target) s = execCwait n target s := rfl
  rw [hexec, execCwait, control_runs hruns hfree]
  dsimp only
  rw [if_pos hreached]
  generalize hq : s.pkg.setSeq n.val _ = q
  have hstep := passWait_step (hq ▸ (TileStep.refl s.pkg).setSeq _ : TileStep n.val (fun _ => False) s.pkg q)
  obtain ⟨vec, store, refetch, htile⟩ := passWait_tile q n.val
  rw [← hq, tile_setSeq_self, hq] at htile
  refine ⟨_, rfl, ?_, ?_, hstep.sameMemory, hstep.sameRegs, hstep.sameTilesBut⟩
  all_goals simp only [State.seqr, settle_pkg, htile, Tile.fetched]
  all_goals simp only [nextPc, hold_of_free hfree]

theorem cwait_holds (target : BitVec 27) (hreached : s.pkg.reached ((s.seqr n).startBeat + target.toNat) = false) :
    ∃ t, exec (.cwait n target) s = .next t ∧ (t.seqr n).pc = (s.seqr n).pc ∧
      (t.seqr n).hold = some (.cwait ((s.seqr n).startBeat + target.toNat) (s.pkg.reg O.domainBeat)) ∧ SameMemory s t ∧
      SameRegs s t ∧ SameTilesBut n.val s t := by
  have hexec : exec (.cwait n target) s = execCwait n target s := rfl
  have hno : ¬ s.pkg.reached ((s.seqr n).startBeat + target.toNat) = true := by rw [hreached]; decide
  rw [hexec, execCwait, control_runs hruns hfree]
  dsimp only
  rw [if_neg hno]
  have hstep : TileStep n.val (fun _ => False) s.pkg _ := (TileStep.refl s.pkg).setSeq
    { s.seqr n with hold := some (.cwait ((s.seqr n).startBeat + target.toNat) (s.pkg.reg O.domainBeat)) }
  refine ⟨_, rfl, ?_, ?_, hstep.sameMemory, hstep.sameRegs, hstep.sameTilesBut⟩
  all_goals rw [State.seqr, settle_pkg, tile_setSeq_self]

theorem carr_takes (w : Fin 16) (slack : BitVec 7) (count : BitVec 16) (hcount : count ≠ 0xFFFF)
    (henough : count.toNat ≤ (s.pkg.tile n.val).win.at 0 w.val) :
    ∃ t, exec (.carr n w slack count) s = .next t ∧ (t.seqr n).pc = nextPc (s.seqr n) ∧ (t.seqr n).hold = none ∧
      (t.pkg.tile n.val).win.at 0 w.val = (s.pkg.tile n.val).win.at 0 w.val - count.toNat ∧
      (∀ v, v ≠ w.val → (t.pkg.tile n.val).win.at 0 v = (s.pkg.tile n.val).win.at 0 v) ∧ SameMemory s t ∧ SameRegs s t ∧
      SameTilesBut n.val s t := by
  have hexec : exec (.carr n w slack count) s = execCarr n w slack count s := rfl
  rw [hexec, execCarr, if_neg hcount, control_runs hruns hfree]
  dsimp only
  rw [takeCredits_some henough]
  dsimp only
  generalize hq : s.pkg.setTile n.val _ = q
  have hstep := passWait_step (hq ▸ (TileStep.refl s.pkg).setTile _ : TileStep n.val (fun _ => False) s.pkg q)
  obtain ⟨vec, store, refetch, htile⟩ := passWait_tile q n.val
  rw [← hq, tile_setTile_self, hq] at htile
  refine ⟨_, rfl, ?_, ?_, ?_, fun v hv => ?_, hstep.sameMemory, hstep.sameRegs, hstep.sameTilesBut⟩
  all_goals simp only [State.seqr, settle_pkg, htile, Tile.fetched, nextPc, hold_of_free hfree]
  · rw [SMap.at_put_self]
  · rw [SMap.at_put_other _ _ _ _ _ hv]

theorem carr_holds (w : Fin 16) (slack : BitVec 7) (count : BitVec 16) (hcount : count ≠ 0xFFFF)
    (hfew : (s.pkg.tile n.val).win.at 0 w.val < count.toNat) :
    ∃ t, exec (.carr n w slack count) s = .next t ∧ (t.seqr n).pc = (s.seqr n).pc ∧
      (t.seqr n).hold = some (.carr w.val slack.toNat count.toNat (s.pkg.reg O.domainBeat)) ∧
      (t.pkg.tile n.val).win = (s.pkg.tile n.val).win ∧ SameMemory s t ∧ SameRegs s t ∧ SameTilesBut n.val s t := by
  have hexec : exec (.carr n w slack count) s = execCarr n w slack count s := rfl
  rw [hexec, execCarr, if_neg hcount, control_runs hruns hfree]
  dsimp only
  rw [takeCredits_none hfew]
  dsimp only
  have hstep : TileStep n.val (fun _ => False) s.pkg _ := (TileStep.refl s.pkg).setSeq
    { s.seqr n with hold := some (.carr w.val slack.toNat count.toNat (s.pkg.reg O.domainBeat)) }
  refine ⟨_, rfl, ?_, ?_, ?_, hstep.sameMemory, hstep.sameRegs, hstep.sameTilesBut⟩
  all_goals simp only [State.seqr, settle_pkg, tile_setSeq_self]

theorem cloop_opens (lc : Fin 4) (k : BitVec 16) (hk : k ≠ 0xFFFF) (hk0 : k ≠ 0)
    (hnew : (s.seqr n).loops.any (fun l => decide (l.lc = lc.val)) = false) :
    ∃ t, exec (.cloop n lc k) s = .next t ∧ (t.seqr n).loops = ⟨lc.val, (s.seqr n).pc + 1, k.toNat⟩ :: (s.seqr n).loops ∧
      (t.seqr n).pc = nextPc (s.seqr n) ∧ SameMemory s t ∧ SameRegs s t ∧ SameTilesBut n.val s t := by
  have hexec : exec (.cloop n lc k) s = execCloop n lc k s := rfl
  rw [hexec, execCloop, if_neg hk, if_neg (by rw [hnew]; decide), control_runs hruns hfree]
  dsimp only
  rw [if_neg hk0]
  have hstep : TileStep n.val (fun _ => False) s.pkg _ := advance_step ((TileStep.refl s.pkg).setSeq
    { s.seqr n with loops := ⟨lc.val, (s.seqr n).pc + 1, k.toNat⟩ :: (s.seqr n).loops })
  obtain ⟨store, refetch, htile⟩ := advance_tile (s.pkg.setSeq n.val
    { s.seqr n with loops := ⟨lc.val, (s.seqr n).pc + 1, k.toNat⟩ :: (s.seqr n).loops }) n.val
  rw [tile_setSeq_self] at htile
  refine ⟨_, rfl, ?_, ?_, hstep.sameMemory, hstep.sameRegs, hstep.sameTilesBut⟩
  all_goals simp only [State.seqr, settle_pkg, htile, Tile.fetched, nextPc]

theorem cloop_skips (lc : Fin 4) (hnew : (s.seqr n).loops.any (fun l => decide (l.lc = lc.val)) = false) (hrunning : (s.seqr n).running = true) :
    ∃ t, exec (.cloop n lc 0) s = .next t ∧ (t.seqr n).loops = (s.seqr n).loops ∧
      (t.seqr n).pc = (s.pkg.tile n.val).matchingNext lc.val ((s.pkg.tile n.val).nBundles - (s.seqr n).pc - 1) ((s.seqr n).pc + 1) + 1 ∧
      SameMemory s t ∧ SameRegs s t ∧ SameTilesBut n.val s t := by
  have hexec : exec (.cloop n lc 0) s = execCloop n lc 0 s := rfl
  rw [hexec, execCloop, if_neg (by decide), if_neg (by rw [hnew]; decide), control_runs hruns hfree]
  dsimp only
  rw [if_pos rfl]
  generalize (s.pkg.tile n.val).matchingNext lc.val ((s.pkg.tile n.val).nBundles - (s.seqr n).pc - 1) ((s.seqr n).pc + 1) + 1 = pc
  have hstep : TileStep n.val (fun _ => False) s.pkg (s.pkg.goto n.val pc) := goto_step pc (.refl s.pkg)
  obtain ⟨store, refetch, htile⟩ := goto_tile s.pkg n.val pc
  refine ⟨_, rfl, ?_, ?_, hstep.sameMemory, hstep.sameRegs, hstep.sameTilesBut⟩
  all_goals simp only [State.seqr, settle_pkg, htile, Tile.fetched, hrunning, if_true]

theorem cnext_closes (lc : Fin 4) (l : LoopSt) (r : List LoopSt) (hloops : (s.seqr n).loops = l :: r) (hlc : l.lc = lc.val)
    (hrunning : (s.seqr n).running = true) :
    ∃ t, exec (.cnext n lc) s = .next t ∧
      (t.seqr n).loops = (if 1 < l.left then { l with left := l.left - 1 } :: r else r) ∧
      (t.seqr n).pc = (if 1 < l.left then l.body else (s.seqr n).pc + 1) ∧ SameMemory s t ∧ SameRegs s t ∧ SameTilesBut n.val s t := by
  have hexec : exec (.cnext n lc) s = execCnext n lc s := rfl
  rw [hexec, execCnext, hloops]
  dsimp only
  rw [if_neg (fun hne => hne hlc), control_runs hruns hfree]
  by_cases hleft : 1 < l.left
  · rw [if_pos hleft, if_pos hleft, if_pos hleft]
    have hstep : TileStep n.val (fun _ => False) s.pkg _ := goto_step l.body ((TileStep.refl s.pkg).setSeq
      { s.seqr n with loops := { l with left := l.left - 1 } :: r })
    obtain ⟨store, refetch, htile⟩ := goto_tile (s.pkg.setSeq n.val { s.seqr n with loops := { l with left := l.left - 1 } :: r }) n.val l.body
    rw [tile_setSeq_self] at htile
    refine ⟨_, rfl, ?_, ?_, hstep.sameMemory, hstep.sameRegs, hstep.sameTilesBut⟩
    all_goals simp only [State.seqr, settle_pkg, htile, Tile.fetched, nextPc]
    exact if_pos hrunning
  · rw [if_neg hleft, if_neg hleft, if_neg hleft]
    have hstep : TileStep n.val (fun _ => False) s.pkg _ := advance_step ((TileStep.refl s.pkg).setSeq { s.seqr n with loops := r })
    obtain ⟨store, refetch, htile⟩ := advance_tile (s.pkg.setSeq n.val { s.seqr n with loops := r }) n.val
    rw [tile_setSeq_self] at htile
    refine ⟨_, rfl, ?_, ?_, hstep.sameMemory, hstep.sameRegs, hstep.sameTilesBut⟩
    all_goals simp only [State.seqr, settle_pkg, htile, Tile.fetched, nextPc]
    exact if_pos hrunning

end

end

/-- Settles O16: each control command by its branch; a bundle that issues moves pc and may be fetched. -/
theorem controlSlotCommands : Obligations.ControlSlotCommands := fun _ _ hruns hfree =>
  ⟨cnop_goes hruns hfree, cwait_passes hruns hfree, cwait_holds hruns hfree, carr_takes hruns hfree, carr_holds hruns hfree,
    cloop_opens hruns hfree, cloop_skips hruns hfree, cnext_closes hruns hfree⟩

end Sys2Proof.Machine

namespace Sys2Proof.Machine

/-! ## Votes, the end and start of clauses, held bundles, the clause store (R132, R133, R168) -/

/-- What the report of a vote leaves: memory, objects, the other tiles, this tile but for its registers, the votes counted, and a report
that is there already. -/
structure Reported (n : Nat) (p q : Pkg) : Prop where
  step : TileStep n (fun _ => False) p q
  tile : ∃ vec, q.tile n = { p.tile n with vec := vec }
  cvotes : q.stepc.cvotes = p.stepc.cvotes
  own : p.stepc.own.isSome = true → q.stepc.own.isSome = true

namespace Reported

section
variable {n : Nat} {p q r : Pkg}

theorem refl (p : Pkg) : Reported n p p := ⟨.refl p, ⟨_, rfl⟩, rfl, id⟩

theorem trans (h : Reported n p q) (h' : Reported n q r) : Reported n p r where
  step := h.step.trans h'.step
  tile := by
    obtain ⟨v, hv⟩ := h.tile
    obtain ⟨w, hw⟩ := h'.tile
    exact ⟨w, by rw [hw, hv]⟩
  cvotes := h'.cvotes.trans h.cvotes
  own := h'.own ∘ h.own

theorem ite {c : Prop} [Decidable c] (ht : Reported n p q) (he : Reported n p r) : Reported n p (if c then q else r) := by
  split
  · exact ht
  · exact he

end

end Reported

theorem firstRec_isSome (a : Option VoteRec) (b : VoteRec) : (firstRec a b).isSome = true := by
  cases a with
  | none => rfl
  | some x =>
    unfold firstRec
    dsimp only
    split <;> rfl

theorem voidReport_own (p : Pkg) (r : VoteRec) : (p.voidReport r).stepc.own.isSome = true := firstRec_isSome _ r

theorem Reported.voidReport {n : Nat} {p q : Pkg} (r : VoteRec) (h : Reported n p q) : Reported n p (q.voidReport r) :=
  h.trans ⟨⟨rfl, fun _ _ => rfl, fun _ _ => rfl⟩, ⟨_, rfl⟩, rfl, fun _ => voidReport_own q r⟩

theorem Reported.fresh {n : Nat} {p q : Pkg} (h : Reported n p q) : Reported n p q.fresh.2 :=
  h.trans ⟨⟨rfl, fun _ _ => rfl, fun _ _ => rfl⟩, ⟨_, rfl⟩, rfl, id⟩

theorem Reported.fixVoteWord {n : Nat} {p q : Pkg} (v : Nat) (h : Reported n p q) : Reported n p (q.fixVoteWord n v) := by
  refine h.trans ?_
  unfold Pkg.fixVoteWord
  dsimp only
  split
  · exact ⟨(TileStep.refl q).setTile _, ⟨_, tile_setTile_self _ _ _⟩, rfl, id⟩
  · exact .refl q

/-- A CVOTE counts, and reports what it meets. -/
theorem cvote_reports (p : Pkg) (n d v : Nat) (panel vector : Bool) :
    Reported n (p.setStepc { p.stepc with cvotes := p.stepc.cvotes + 1 }) (p.cvote n d v panel vector) ∧
      ((p.tile n).stepPoison = true → (p.cvote n d v panel vector).stepc.own.isSome = true) ∧
      (panel = true → bitOf (descWord (p.tile n).md d 15) 31 = true → (p.cvote n d v panel vector).stepc.own.isSome = true) := by
  unfold Pkg.cvote
  extract_lets ti stepc counted w paneled fixed a b l0 r
  have hpanel : Reported n counted paneled := .ite ((Reported.refl counted).voidReport _) (.refl counted)
  have hown : panel = true → bitOf (descWord (p.tile n).md d 15) 31 = true → paneled.stepc.own.isSome = true := fun h1 h2 => by
    rw [show paneled = counted.voidReport (panelReport counted n w) from if_pos ⟨h1, h2⟩]
    exact voidReport_own _ _
  have hfixed : Reported n paneled fixed := .ite ((Reported.refl paneled).fixVoteWord v) (.refl paneled)
  have hr : Reported n paneled r := by
    refine .ite hfixed ?_
    split
    · exact .ite (hfixed.voidReport _) hfixed
    · exact .ite (hfixed.fresh.fresh.voidReport _) hfixed.fresh.fresh
  have hall := hpanel.trans hr
  split
  next hpoison => exact ⟨hall.voidReport _, fun _ => voidReport_own _ _, fun _ _ => voidReport_own _ _⟩
  next hclean => exact ⟨hall, fun h => absurd h hclean, fun h1 h2 => hr.own (hown h1 h2)⟩

theorem fetch_stepc (p : Pkg) (t : Nat) : (p.fetch t).stepc = p.stepc := by
  unfold Pkg.fetch
  dsimp only
  split
  · rfl
  · split <;> rfl

theorem advance_stepc (p : Pkg) (t : Nat) : (p.advance t).stepc = p.stepc := by
  unfold Pkg.advance Pkg.goto
  dsimp only
  split
  · exact fetch_stepc _ _
  · rfl

section
variable {s : State} {n : TileNo}

theorem cvote_counts (hruns : s.Runs .data) (hfree : (s.pkg.tile n.val).free = true) (d : Fin 64) (v : Fin 32) (src : BitVec 2) (hsrc : src ≠ 0) :
    ∃ t, exec (.cvote n d v src) s = .next t ∧ t.pkg.stepc.cvotes = s.pkg.stepc.cvotes + 1 ∧ (t.seqr n).pc = nextPc (s.seqr n) ∧
      ((s.pkg.tile n.val).stepPoison = true → t.pkg.stepc.own.isSome) ∧
      (src.getLsbD 0 = true → bitOf (descWord (s.pkg.tile n.val).md d.val 15) 31 = true → t.pkg.stepc.own.isSome) ∧
      SameMemory s t ∧ SameRegs s t ∧ SameTilesBut n.val s t := by
  have hexec : exec (.cvote n d v src) s = execCvote n d v src s := rfl
  obtain ⟨hreported, hpoison, hpanel⟩ := cvote_reports s.pkg n.val d.val v.val (src.getLsbD 0) (src.getLsbD 1)
  obtain ⟨vec, htile⟩ := hreported.tile
  obtain ⟨store, refetch, hnext⟩ := advance_tile (s.pkg.cvote n.val d.val v.val (src.getLsbD 0) (src.getLsbD 1)) n.val
  have hstep : TileStep n.val (fun _ => False) s.pkg _ := advance_step ((⟨rfl, fun _ _ => rfl, fun _ _ => rfl⟩ : TileStep n.val (fun _ => False) s.pkg
    (s.pkg.setStepc { s.pkg.stepc with cvotes := s.pkg.stepc.cvotes + 1 })).trans hreported.step)
  have hstepc := advance_stepc (s.pkg.cvote n.val d.val v.val (src.getLsbD 0) (src.getLsbD 1)) n.val
  rw [htile] at hnext
  rw [hexec, execCvote, if_neg hsrc, control_runs hruns hfree]
  refine ⟨_, rfl, ?_, (congrArg (fun x : Tile => x.seq.pc) hnext :), fun h => ?_, fun h1 h2 => ?_, hstep.sameMemory, hstep.sameRegs, hstep.sameTilesBut⟩
  · rw [settle_pkg, hstepc]
    exact hreported.cvotes
  · rw [settle_pkg, hstepc]
    exact hpoison h
  · rw [settle_pkg, hstepc]
    exact hpanel h1 h2

/-! ### The end and the start of a clause -/

theorem cend_ends (hruns : s.Runs .data) (hfree : (s.pkg.tile n.val).free = true) (cyc : Nat) (hrunning : (s.seqr n).running = true)
    (hstarts : (s.seqr n).starts = []) :
    ∃ t, exec (.cend n cyc) s = .next t ∧ (t.seqr n).running = false ∧ (t.seqr n).loops = [] ∧ (t.seqr n).endCyc = cyc + 1 ∧
      SameMemory s t ∧ SameRegs s t ∧ SameTilesBut n.val s t := by
  have hexec : exec (.cend n cyc) s = execCend n cyc s := rfl
  rw [hexec, execCend, control_runs hruns hfree]
  dsimp only
  rw [hrunning, if_neg (by decide), hstarts]
  dsimp only
  have hstep : TileStep n.val (fun _ => False) s.pkg _ := (TileStep.refl s.pkg).setSeq
    { s.seqr n with running := false, loops := [], endCyc := cyc + 1, starts := List.drop 1 [] }
  refine ⟨_, rfl, ?_, ?_, ?_, hstep.sameMemory, hstep.sameRegs, hstep.sameTilesBut⟩
  all_goals simp only [State.seqr, settle_pkg, tile_setSeq_self]

theorem cend_starts (hruns : s.Runs .data) (hfree : (s.pkg.tile n.val).free = true) (cyc k b : Nat) (r : List (Nat × Nat))
    (hrunning : (s.seqr n).running = true) (hstarts : (s.seqr n).starts = (k, b) :: r) :
    Does (.cend n cyc) s (((s.pkg.setSeq n.val
      { s.seqr n with running := false, loops := [], endCyc := cyc + 1, starts := r }).dropLate (.start n)).startClause n.val k b (cyc + 1)) := by
  have hexec : exec (.cend n cyc) s = execCend n cyc s := rfl
  rw [Does, hexec, execCend, control_runs hruns hfree]
  dsimp only
  rw [hrunning, if_neg (by decide), hstarts]
  rfl

/-- The clause of a sentence starts: its gap is counted, and its first bundle fetched. -/
theorem startClause_starts (p : Pkg) (t k b c : Nat) (e : Nat × Nat) (he : (p.tile t).clauses.find? (fun e => decide (e.1 = k)) = some e) :
    TileStep t (fun _ => True) p (p.startClause t k b c) ∧ ∃ refetch, ((p.startClause t k b c).tile t).seq =
      { (p.tile t).seq with
        running := true, sentence := k, startBeat := b, pc := e.2, loops := [], hold := none, refetch := refetch, cwaitLate := 0, endCyc := 0 } := by
  unfold Pkg.startClause
  dsimp only
  rw [he]
  dsimp only
  generalize hq : (if (p.tile t).seq.endCyc = 0 then p else _) = q
  have hgap : TileStep t (fun _ => True) p q := by
    rw [← hq]
    refine .ite (.refl p) (TileStep.setMx _ (.bump64 trivial _ ?_))
    exact .ite ((TileStep.refl p).bump64 trivial _) (.refl p)
  refine ⟨fetch_step (hgap.setSeq _), ?_⟩
  obtain ⟨store, refetch, htile⟩ := fetch_tile (q.setSeq t { (p.tile t).seq with
    running := true, sentence := k, startBeat := b, pc := e.2, loops := [], hold := none, refetch := none, cwaitLate := 0, endCyc := 0 }) t
  rw [tile_setSeq_self] at htile
  exact ⟨refetch, (congrArg Tile.seq htile :)⟩

theorem clause_starts (hruns : s.Runs .data) (k : Fin 64) (cyc : Nat) (i : Image) (e : Nat × Nat) (hi : s.pkg.posImage = some i)
    (heval : s.pkg.evaluates = true) (hdue : (s.pkg.entriesNow i).any (fun e => decide (e.sentence = k.val)) = true)
    (hclause : (s.pkg.tile n.val).clauses.find? (fun e => decide (e.1 = k.val)) = some e) (hnew : (s.seqr n).startBeat ≠ s.pkg.schedBeat)
    (hwait : (s.seqr n).starts.any (fun e => decide (e.2 = s.pkg.schedBeat)) = false) (hrunning : (s.seqr n).running = false) :
    ∃ t, exec (.clauseStart n k cyc) s = .next t ∧ (t.seqr n).running = true ∧ (t.seqr n).sentence = k.val ∧
      (t.seqr n).startBeat = s.pkg.schedBeat ∧ (t.seqr n).pc = e.2 ∧ (t.seqr n).loops = [] ∧ SameMemory s t ∧ SameTilesBut n.val s t := by
  have hexec : exec (.clauseStart n k cyc) s = execClauseStart n k cyc s := rfl
  have hany : (s.pkg.tile n.val).clauses.any (fun e => decide (e.1 = k.val)) = true :=
    List.any_eq_true.mpr ⟨e, List.mem_of_find?_eq_some hclause, by simpa using List.find?_some hclause⟩
  obtain ⟨hstep, refetch, hseq⟩ := startClause_starts s.pkg n.val k.val s.pkg.schedBeat cyc e hclause
  rw [hexec, execClauseStart, on_runs s _ _ hruns]
  dsimp only
  rw [hi]
  dsimp only
  rw [heval, hdue, hany, if_neg (by decide), hwait, if_neg (by rintro (h | h); exacts [hnew h, by cases h]), hrunning, if_neg (by decide)]
  refine ⟨_, rfl, ?_, ?_, ?_, ?_, ?_, hstep.sameMemory, hstep.sameTilesBut⟩
  all_goals simp only [State.seqr, settle_pkg, hseq]

theorem clause_waits (hruns : s.Runs .data) (k : Fin 64) (cyc : Nat) (i : Image) (e : Nat × Nat) (hi : s.pkg.posImage = some i)
    (heval : s.pkg.evaluates = true) (hdue : (s.pkg.entriesNow i).any (fun e => decide (e.sentence = k.val)) = true)
    (hclause : (s.pkg.tile n.val).clauses.find? (fun e => decide (e.1 = k.val)) = some e) (hnew : (s.seqr n).startBeat ≠ s.pkg.schedBeat)
    (hwait : (s.seqr n).starts.any (fun e => decide (e.2 = s.pkg.schedBeat)) = false) (hrunning : (s.seqr n).running = true) :
    Does (.clauseStart n k cyc) s
      (s.pkg.setSeq n.val { s.seqr n with starts := (s.seqr n).starts ++ [(k.val, s.pkg.schedBeat)] }) := by
  have hexec : exec (.clauseStart n k cyc) s = execClauseStart n k cyc s := rfl
  have hany : (s.pkg.tile n.val).clauses.any (fun e => decide (e.1 = k.val)) = true :=
    List.any_eq_true.mpr ⟨e, List.mem_of_find?_eq_some hclause, by simpa using List.find?_some hclause⟩
  rw [Does, hexec, execClauseStart, on_runs s _ _ hruns]
  dsimp only
  rw [hi]
  dsimp only
  rw [heval, hdue, hany, if_neg (by decide), hwait, if_neg (by rintro (h | h); exacts [hnew h, by cases h]), hrunning, if_pos rfl]

/-! ### Held bundles -/

/-- A held bundle goes on from tile state u, its hold over. -/
theorem release_goes (s : State) (n : TileNo) (u : Tile) (hseq : u.seq = s.seqr n) : ∃ q, q = (s.pkg.setTile n.val { u with seq := { u.seq with
    hold := none } }).passWait n.val ∧ TileStep n.val (fun _ => False) s.pkg q ∧ (q.tile n.val).seq.hold = none ∧
      (q.tile n.val).seq.pc = nextPc (s.seqr n) ∧ (q.tile n.val).win = u.win := by
  obtain ⟨vec, store, refetch, htile⟩ := passWait_tile (s.pkg.setTile n.val { u with seq := { u.seq with hold := none } }) n.val
  rw [tile_setTile_self] at htile
  refine ⟨_, rfl, passWait_step ((TileStep.refl s.pkg).setTile _), (congrArg (fun x : Tile => x.seq.hold) htile :), ?_, (congrArg Tile.win htile :)⟩
  rw [← hseq]
  exact (congrArg (fun x : Tile => x.seq.pc) htile :)

theorem heldCwait_releases (hruns : s.Runs .data) (b since : Nat) (hhold : (s.seqr n).hold = some (.cwait b since)) (hb : s.pkg.reached b = true) :
    ∃ t, exec (.heldBundleRelease n) s = .next t ∧ (t.seqr n).hold = none ∧ (t.seqr n).pc = nextPc (s.seqr n) ∧ SameMemory s t ∧
      SameRegs s t ∧ SameTilesBut n.val s t := by
  have hexec : exec (.heldBundleRelease n) s = execHeldBundleRelease n s := rfl
  obtain ⟨q, hq, hstep, hnone, hpc, -⟩ := release_goes s n (s.pkg.tile n.val) rfl
  rw [hexec, execHeldBundleRelease, on_runs s _ _ hruns]
  dsimp only
  rw [hhold]
  dsimp only
  rw [hb, if_pos rfl, ← hq]
  exact ⟨_, rfl, hnone, hpc, hstep.sameMemory, hstep.sameRegs, hstep.sameTilesBut⟩

theorem heldCarr_releases (hruns : s.Runs .data) (w slack k since : Nat) (hhold : (s.seqr n).hold = some (.carr w slack k since))
    (henough : k ≤ (s.pkg.tile n.val).win.at 0 w) :
    ∃ t, exec (.heldBundleRelease n) s = .next t ∧ (t.seqr n).hold = none ∧ (t.seqr n).pc = nextPc (s.seqr n) ∧
      (t.pkg.tile n.val).win.at 0 w = (s.pkg.tile n.val).win.at 0 w - k ∧ SameMemory s t ∧ SameRegs s t ∧ SameTilesBut n.val s t := by
  have hexec : exec (.heldBundleRelease n) s = execHeldBundleRelease n s := rfl
  obtain ⟨q, hq, hstep, hnone, hpc, hwin⟩ := release_goes s n
    { s.pkg.tile n.val with win := (s.pkg.tile n.val).win.put 0 w ((s.pkg.tile n.val).win.at 0 w - k) } rfl
  rw [hexec, execHeldBundleRelease, on_runs s _ _ hruns]
  dsimp only
  rw [hhold]
  dsimp only
  rw [takeCredits_some henough]
  dsimp only
  rw [← hq]
  refine ⟨_, rfl, hnone, hpc, ?_, hstep.sameMemory, hstep.sameRegs, hstep.sameTilesBut⟩
  rw [settle_pkg, hwin, SMap.at_put_self]

theorem heldXpub_releases (hruns : s.Runs .data) (hhold : (s.seqr n).hold = some .xpub) (hout : (s.pkg.tile n.val).xputOut = 0) :
    ∃ t, exec (.heldBundleRelease n) s = .next t ∧ (t.seqr n).hold = none ∧ (t.seqr n).pc = (s.seqr n).pc ∧ SameMemory s t ∧
      SameRegs s t ∧ SameTilesBut n.val s t := by
  have hexec : exec (.heldBundleRelease n) s = execHeldBundleRelease n s := rfl
  have hstep : TileStep n.val (fun _ => False) s.pkg _ := (TileStep.refl s.pkg).setTile
    { s.pkg.tile n.val with seq := { s.seqr n with hold := none } }
  rw [hexec, execHeldBundleRelease, on_runs s _ _ hruns]
  dsimp only
  rw [hhold]
  dsimp only
  rw [if_pos hout]
  refine ⟨_, rfl, ?_, ?_, hstep.sameMemory, hstep.sameRegs, hstep.sameTilesBut⟩
  all_goals rw [State.seqr, settle_pkg, tile_setTile_self]

/-! ### The clause store -/

theorem store_scrubs (hruns : s.Runs .data) (w : PWord) (sym : Nat)
    (hw : checkWord ((s.pkg.tile n.val).store.at zeroWord ((s.seqr n).scrub % 16384)) = .corrected w sym) :
    ∃ t, exec (.clauseStoreScrub n) s = .next t ∧ (t.seqr n).scrub = ((s.seqr n).scrub % 16384 + 1) % 16384 ∧
      (t.pkg.tile n.val).store.at zeroWord ((s.seqr n).scrub % 16384) = w ∧ SameMemory s t ∧ SameRegs s t ∧ SameTilesBut n.val s t := by
  have hexec : exec (.clauseStoreScrub n) s = execClauseStoreScrub n s := rfl
  rw [hexec, execClauseStoreScrub, on_runs s _ _ hruns]
  dsimp only
  rw [hw]
  dsimp only
  rw [tile_setSeq_self]
  have hstep : TileStep n.val (fun _ => False) s.pkg _ := ((TileStep.refl s.pkg).setSeq
    { s.seqr n with scrub := ((s.seqr n).scrub % 16384 + 1) % 16384 }).setTile
      { s.pkg.tile n.val with
        store := (s.pkg.tile n.val).store.put zeroWord ((s.seqr n).scrub % 16384) w
        seq := { s.seqr n with scrub := ((s.seqr n).scrub % 16384 + 1) % 16384 } }
  refine ⟨_, rfl, ?_, ?_, hstep.sameMemory, hstep.sameRegs, hstep.sameTilesBut⟩
  · rw [State.seqr, settle_pkg, tile_setTile_self]
  · rw [settle_pkg, tile_setTile_self]
    dsimp only
    rw [SMap.at_put_self]

theorem store_refetches (hruns : s.Runs .data) (k a : Nat) (d : W128) (l : List (Option W128)) (q : Pkg) (hk : (s.seqr n).refetch = some k)
    (ha : s.pkg.bundleAddr n.val = some a) (hread : s.pkg.agentRead ioA (a + 16 * k) 16 = (some d :: l, q)) :
    ∃ t, exec (.clauseStoreRefetch n) s = .next t ∧ (t.pkg.tile n.val).store.at zeroWord k = goodWord d ∧ (t.seqr n).refetch = none := by
  have hexec : exec (.clauseStoreRefetch n) s = execClauseStoreRefetch n s := rfl
  rw [hexec, execClauseStoreRefetch, on_runs s _ _ hruns]
  dsimp only
  rw [hk, ha]
  dsimp only
  rw [hread]
  dsimp only
  refine ⟨_, rfl, ?_, ?_⟩
  · rw [settle_pkg, tile_setTile_self]
    dsimp only
    rw [SMap.at_put_self]
  · rw [State.seqr, settle_pkg, tile_setTile_self]

end

/-- Settles O17: each command and event of the sequencer by its branch. -/
theorem sequencerAndVotes : Obligations.SequencerAndVotes :=
  ⟨fun _ _ hruns hfree => ⟨cvote_counts hruns hfree, cend_ends hruns hfree, cend_starts hruns hfree⟩,
    fun _ _ hruns => ⟨heldCwait_releases hruns, heldCarr_releases hruns, heldXpub_releases hruns, clause_starts hruns, clause_waits hruns,
      store_scrubs hruns, store_refetches hruns⟩⟩

end Sys2Proof.Machine

namespace Sys2Proof.Machine

/-! ## The move slot (R134, R137 to R139, R275) -/

theorem xnop_nothing (s : State) (n : TileNo) : Does (.xnop n) s s.pkg := by
  have hexec : exec (.xnop n) s = s.on .data fun p => p := rfl
  rw [Does, hexec, on_next, ite_self]

/-- What move commands do to a package before their pointers advance: memory and tiles stay, flits join those under way. -/
structure MoveStep (p q : Pkg) : Prop where
  mem : q.mem = p.mem
  tiles : q.tiles = p.tiles
  flits : p.flits <+: q.flits

namespace MoveStep

section
variable {p q r : Pkg}

theorem refl (p : Pkg) : MoveStep p p := ⟨rfl, rfl, List.prefix_rfl⟩

theorem trans (h : MoveStep p q) (h' : MoveStep q r) : MoveStep p r := ⟨h'.mem.trans h.mem, h'.tiles.trans h.tiles, h.flits.trans h'.flits⟩

theorem pushFlit (f : MeshFlit) (h : MoveStep p q) : MoveStep p (q.pushFlit f) := h.trans ⟨rfl, rfl, List.prefix_append _ _⟩

theorem originate (cls dst target : Nat) (payload : List Byte) (poison : List Bool) (win : Nat) (h : MoveStep p q) :
    MoveStep p (q.originate cls dst target payload poison win) := by
  refine h.trans ?_
  unfold Pkg.originate
  split
  · exact ⟨rfl, rfl, List.prefix_rfl⟩
  · dsimp only
    unfold Pkg.setPartner
    dsimp only
    split <;> exact ⟨rfl, rfl, List.prefix_rfl⟩

theorem doneCredit (t : Nat) (x : XDesc) (h : MoveStep p q) : MoveStep p (q.doneCredit t x) := by
  unfold Pkg.doneCredit
  split
  · exact h.pushFlit _
  · exact h

end

end MoveStep

/-- The package as a move command leaves it, with its pointers advanced. -/
theorem xadvance_step (p : Pkg) (t d : Nat) : TileStep t (fun _ => False) p (p.xadvance t d) := (TileStep.refl p).setTile _

theorem xadvance_xptr {p q : Pkg} {t : Nat} (d : Nat) (h : (q.tile t).xptr = (p.tile t).xptr) (hxd : (q.tile t).xd = (p.tile t).xd) :
    ((q.xadvance t d).tile t).xptr = ((p.xadvance t d).tile t).xptr := by
  simp only [Pkg.xadvance, tile_setTile_self, Tile.xptrOf, h, hxd]

section
variable {s : State} {a : XSlot}

/-- The descriptor of a move slot, and the local offset of its access. -/
abbrev State.xdesc (s : State) (a : XSlot) : XDesc := Sys2Proof.Machine.xdesc (s.pkg.tile a.t.val).xd a.mdesc.val
abbrev State.xsrc (s : State) (a : XSlot) : Nat := ((s.pkg.tile a.t.val).xlocal a.mdesc.val).toNat

/-! ### XSEND -/

/-- One flit of an XSEND. -/
def sendFlit (a : XSlot) (x : XDesc) (src dst : Nat) (p : Pkg) (k : Nat) : Pkg :=
  let ws := p.localFlit a.t.val src k
  let p :=
    if x.peerPkg = p.reg O.logicalPosition then p.pushFlit (.sram x.peerTile (dst + 64 * k) x.rwin (ws.map packWord))
    else
      match p.physOf x.peerPkg with
      | none => p.raise 0x440A noUnit 0
      | some id => p.originate 1 id (x.peerTile * 2 ^ 17 + (dst + 64 * k) / 64) (wordsPayload ws) (ws.map (·.isNone)) x.rwin
  p.doneCredit a.t.val x

theorem exec_xsend (h : MoveIssues a true false s) (hpeer : (s.xdesc a).peerTile < 192)
    (hremote : inSramI ((s.pkg.tile a.t.val).xremote a.mdesc.val) (64 * a.count.toNat) = true) :
    exec (.xsend a) s = .next (s.settle (((List.range a.count.toNat).foldl (sendFlit a (s.xdesc a) (s.xsrc a)
      ((s.pkg.tile a.t.val).xremote a.mdesc.val).toNat) s.pkg).xadvance a.t.val a.mdesc.val)) := by
  show execXsend a s = _
  rw [execXsend, move_of_issues _ _ h (by rw [decide_eq_true hpeer, hremote]; rfl)]
  rfl

theorem sendFlit_step (x : XDesc) (src dst : Nat) {p q : Pkg} (k : Nat) (h : MoveStep p q) : MoveStep p (sendFlit a x src dst q k) := by
  unfold sendFlit
  dsimp only
  refine MoveStep.doneCredit _ _ ?_
  split
  · exact h.pushFlit _
  · split
    · exact h.trans ⟨rfl, rfl, List.prefix_rfl⟩
    · exact h.originate _ _ _ _ _ _

theorem xsend_sends (s : State) (a : XSlot) (h : MoveIssues a true false s) (hpeer : (s.xdesc a).peerTile < 192)
    (hremote : inSramI ((s.pkg.tile a.t.val).xremote a.mdesc.val) (64 * a.count.toNat) = true) :
    ∃ t, exec (.xsend a) s = .next t ∧ s.pkg.flits <+: t.pkg.flits ∧
      (t.pkg.tile a.t.val).xptr = ((s.pkg.xadvance a.t.val a.mdesc.val).tile a.t.val).xptr ∧ SameMemory s t ∧ SameTilesBut a.t.val s t := by
  have hsent := List.foldlRecOn (motive := MoveStep s.pkg) (List.range a.count.toNat) (sendFlit a (s.xdesc a) (s.xsrc a)
    ((s.pkg.tile a.t.val).xremote a.mdesc.val).toNat) (.refl s.pkg) fun q hq k _ => sendFlit_step _ _ _ k hq
  refine ⟨_, exec_xsend h hpeer hremote, ?_⟩
  generalize List.foldl _ s.pkg _ = q at *
  have hadvance := xadvance_step q a.t.val a.mdesc.val
  refine ⟨hsent.flits, ?_, fun b => ?_, fun u hu => ?_⟩
  · exact xadvance_xptr a.mdesc.val (by rw [tile_of_tiles hsent.tiles]) (by rw [tile_of_tiles hsent.tiles])
  · exact congrArg (SMap.at 0 b) (hadvance.mem.trans hsent.mem)
  · exact (hadvance.tiles u hu).trans (tile_of_tiles hsent.tiles u)

/-- The flit of an XSEND to a tile of the sender's own package. -/
def meshFlit (p : Pkg) (t : Nat) (x : XDesc) (src dst k : Nat) : MeshFlit :=
  .sram x.peerTile (dst + 64 * k) x.rwin ((p.localFlit t src k).map packWord)

def Pkg.withFlits (p : Pkg) (l : List MeshFlit) : Pkg := { p with flits := l }

theorem sendFlit_local (p : Pkg) (l : List MeshFlit) (x : XDesc) (src dst k : Nat) (hpkg : x.peerPkg = p.reg O.logicalPosition)
    (hdone : x.doneEn = false) :
    sendFlit a x src dst (p.withFlits l) k = p.withFlits (l ++ [meshFlit p a.t.val x src dst k]) := by
  have hsame : x.peerPkg = (p.withFlits l).reg O.logicalPosition := hpkg
  rw [sendFlit, if_pos hsame, Pkg.doneCredit, hdone, if_neg (by decide)]
  rfl

/-- An XSEND to a tile of its own package puts its flits on the mesh, in order. -/
theorem sendFlits_local (p : Pkg) (x : XDesc) (src dst n : Nat) (hpkg : x.peerPkg = p.reg O.logicalPosition) (hdone : x.doneEn = false) :
    (List.range n).foldl (sendFlit a x src dst) p = p.withFlits (p.flits ++ (List.range n).map (meshFlit p a.t.val x src dst)) := by
  induction n with
  | zero => rw [List.range_zero, List.map_nil, List.append_nil]; rfl
  | succ n ih =>
    rw [List.range_succ, List.foldl_append, ih, List.foldl_cons, List.foldl_nil, sendFlit_local p _ x src dst n hpkg hdone,
      List.map_append, List.append_assoc]
    rfl

theorem xsend_local (s : State) (a : XSlot) (h : MoveIssues a true false s) (hpeer : (s.xdesc a).peerTile < 192)
    (hremote : inSramI ((s.pkg.tile a.t.val).xremote a.mdesc.val) (64 * a.count.toNat) = true)
    (hpkg : (s.xdesc a).peerPkg = s.pkg.reg O.logicalPosition) (hdone : (s.xdesc a).doneEn = false) :
    ∃ t, exec (.xsend a) s = .next t ∧
      t.pkg.flits = s.pkg.flits ++ (List.range a.count.toNat).map (fun k =>
        MeshFlit.sram (s.xdesc a).peerTile (((s.pkg.tile a.t.val).xremote a.mdesc.val).toNat + 64 * k) (s.xdesc a).rwin
          ((s.pkg.localFlit a.t.val (s.xsrc a) k).map packWord)) ∧
      (t.pkg.tile a.t.val).xptr = ((s.pkg.xadvance a.t.val a.mdesc.val).tile a.t.val).xptr ∧ SameMemory s t ∧ SameRegs s t ∧
      SameTilesBut a.t.val s t := by
  refine ⟨_, exec_xsend h hpeer hremote, ?_⟩
  rw [sendFlits_local s.pkg (s.xdesc a) (s.xsrc a) _ _ hpkg hdone]
  exact ⟨rfl, rfl, fun _ => rfl, fun _ => rfl, (xadvance_step _ _ _).tiles⟩

/-! ### XGET and XPUT -/

/-- What the flits of an XGET or an XPUT of tile t leave: memory and the dictionary stay, of the tiles only the count of flits out of t, and a request
for each line met is on its way to its home. -/
structure Asked (t : Nat) (kind : ReqKind) (out : Nat) (lines : List Nat) (p q : Pkg) : Prop where
  mem : q.mem = p.mem
  dict : q.dict = p.dict
  stepc : q.stepc = p.stepc
  others : ∀ u, u ≠ t → q.tile u = p.tile u
  xptr : (q.tile t).xptr = (p.tile t).xptr
  xd : (q.tile t).xd = (p.tile t).xd
  xputOut : (q.tile t).xputOut = (p.tile t).xputOut + out
  net : ∃ l, q.coh.net = p.coh.net ++ l ∧ l.map (·.line) = lines ∧
    ∀ r ∈ l, r.requester = 68 + tileDie t ∧ r.kind = kind ∧ (p.stepc.discards = [] → r.discard = false)

theorem foldl_request (l : List (Nat × List Bool)) (f : Nat × List Bool → Req) (p : Pkg) :
    l.foldl (fun p e => p.request (f e)) p = { p with coh := { p.coh with net := p.coh.net ++ l.map f } } := by
  induction l generalizing p with
  | nil => rw [List.foldl_nil, List.map_nil, List.append_nil]
  | cons e l ih => rw [List.foldl_cons, ih, List.map_cons, ← List.singleton_append, ← List.append_assoc]; rfl

/-- One flit asks once for each line that it meets. -/
theorem flitRequests_eq (p : Pkg) (m die : Nat) (kind : ReqKind) (data : Nat → List PWord) (tag : Nat → Tag) (discard : Bool) :
    ∃ next parts l, p.flitRequests m die kind data tag discard =
        { p with coh := { p.coh with net := p.coh.net ++ l, nextPart := next, parts := parts } } ∧
      l.map (·.line) = (flitLines m).map (·.1) ∧ ∀ q ∈ l, q.requester = 68 + die ∧ q.kind = kind ∧ q.discard = discard := by
  unfold Pkg.flitRequests
  dsimp only
  generalize (if (flitLines m).length ≤ 1 then 0 else p.coh.nextPart + 1) = id
  have hall : ∀ q ∈ (flitLines m).map (fun l => (⟨68 + die, kind, l.1, l.2, data l.1, tag id, discard, 0⟩ : Req)),
      q.requester = 68 + die ∧ q.kind = kind ∧ q.discard = discard := by
    intro q hq
    obtain ⟨l, -, rfl⟩ := List.mem_map.mp hq
    exact ⟨rfl, rfl, rfl⟩
  split
  all_goals
    rw [foldl_request _ fun l => ⟨68 + die, kind, l.1, l.2, data l.1, tag id, discard, 0⟩]
    exact ⟨_, _, _, rfl, by rw [List.map_map]; rfl, hall⟩

namespace Asked

variable {t : Nat} {kind : ReqKind} {out : Nat} {lines : List Nat} {p q : Pkg}

theorem refl (t : Nat) (kind : ReqKind) (p : Pkg) : Asked t kind 0 [] p p :=
  ⟨rfl, rfl, rfl, fun _ _ => rfl, rfl, rfl, rfl, [], (List.append_nil _).symm, rfl, fun _ h => absurd h List.not_mem_nil⟩

theorem flitRequests (h : Asked t kind out lines p q) (m : Nat) (data : Nat → List PWord) (tag : Nat → Tag) (discard : Bool)
    (hdiscard : q.stepc.discards = [] → discard = false) :
    Asked t kind out (lines ++ (flitLines m).map (·.1)) p (q.flitRequests m (tileDie t) kind data tag discard) := by
  obtain ⟨next, parts, l, heq, hlines, hall⟩ := flitRequests_eq q m (tileDie t) kind data tag discard
  obtain ⟨l', hnet, hlines', hall'⟩ := h.net
  rw [heq]
  refine ⟨h.mem, h.dict, h.stepc, h.others, h.xptr, h.xd, h.xputOut, l' ++ l, ?_, ?_, fun r hr => ?_⟩
  · exact (congrArg (· ++ l) hnet).trans (List.append_assoc ..)
  · rw [List.map_append, hlines, hlines']
  · obtain hr | hr := List.mem_append.mp hr
    · exact hall' r hr
    · obtain ⟨hrequester, hkind, hrd⟩ := hall r hr
      exact ⟨hrequester, hkind, fun h0 => hrd.trans (hdiscard (by rw [h.stepc]; exact h0))⟩

theorem countOut (h : Asked t kind out lines p q) :
    Asked t kind (out + 1) lines p (q.setTile t { q.tile t with xputOut := (q.tile t).xputOut + 1 }) :=
  ⟨h.mem, h.dict, h.stepc, fun u hu => (tile_setTile_other _ _ _ _ hu).trans (h.others u hu), by rw [tile_setTile_self]; exact h.xptr,
    by rw [tile_setTile_self]; exact h.xd, by rw [tile_setTile_self]; exact congrArg (· + 1) h.xputOut, h.net⟩

theorem doneCredit (h : Asked t kind out lines p q) (x : XDesc) : Asked t kind out lines p (q.doneCredit t x) := by
  unfold Pkg.doneCredit
  split
  · exact ⟨h.mem, h.dict, h.stepc, h.others, h.xptr, h.xd, h.xputOut, h.net⟩
  · exact h

/-- A command whose flits each ask for the lines that they meet, asked for in order. -/
theorem foldl (f : Pkg → Nat → Pkg) (lines : Nat → List Nat) (c : Nat) (p : Pkg)
    (hf : ∀ k out l q, Asked t kind out l p q → Asked t kind (out + c) (l ++ lines k) p (f q k)) (n : Nat) :
    Asked t kind (n * c) ((List.range n).flatMap lines) p ((List.range n).foldl f p) := by
  induction n with
  | zero => rw [Nat.zero_mul]; exact refl t kind p
  | succ n ih =>
    rw [List.range_succ, List.flatMap_append, List.foldl_append, Nat.succ_mul, List.flatMap_singleton]
    exact hf n _ _ _ ih

end Asked

/-- What the descriptor's advance leaves after the requests. -/
theorem asked_advanced {out : Nat} {kind : ReqKind} {lines : List Nat} {q : Pkg} (h : Asked a.t.val kind out lines s.pkg q) :
    ∃ t, Host.Outcome.next (s.settle (q.xadvance a.t.val a.mdesc.val)) = (.next t : Host.Outcome State Fault Refusal) ∧ t.pkg.coh = q.coh ∧
      (t.pkg.tile a.t.val).xptr = ((s.pkg.xadvance a.t.val a.mdesc.val).tile a.t.val).xptr ∧
      (t.pkg.tile a.t.val).xputOut = (s.pkg.tile a.t.val).xputOut + out ∧ SameMemory s t ∧ SameRegs s t ∧ SameTilesBut a.t.val s t := by
  have hstep := xadvance_step q a.t.val a.mdesc.val
  have htile : ((q.xadvance a.t.val a.mdesc.val).tile a.t.val).xputOut = (q.tile a.t.val).xputOut := by
    rw [Pkg.xadvance, tile_setTile_self]
  refine ⟨_, rfl, rfl, xadvance_xptr _ h.xptr h.xd, htile.trans h.xputOut, fun b => ?_, fun k => ?_, fun u hu => ?_⟩
  · exact congrArg (SMap.at 0 b) (hstep.mem.trans h.mem)
  · exact reg_of_dict h.dict k
  · exact (hstep.tiles u hu).trans (h.others u hu)

/-- The lines that the flits of an XGET or an XPUT meet, in order. -/
abbrev State.xlines (s : State) (a : XSlot) : List Nat :=
  (List.range a.count.toNat).flatMap fun k => (flitLines (((s.pkg.tile a.t.val).xmemory a.mdesc.val).toNat + 64 * k)).map (·.1)

theorem xget_requests (s : State) (a : XSlot) (h : MoveIssues a false false s)
    (hmem : inMemI ((s.pkg.tile a.t.val).xmemory a.mdesc.val) (64 * a.count.toNat) = true) :
    ∃ t l, exec (.xget a) s = .next t ∧ t.pkg.coh.net = s.pkg.coh.net ++ l ∧
      (∀ q ∈ l, q.requester = 68 + tileDie a.t.val ∧ q.kind = .rdSnoop) ∧ l.map (·.line) = s.xlines a ∧
      (t.pkg.tile a.t.val).xptr = ((s.pkg.xadvance a.t.val a.mdesc.val).tile a.t.val).xptr ∧ SameMemory s t ∧ SameRegs s t ∧
      SameTilesBut a.t.val s t := by
  have hexec : exec (.xget a) s = execXget a s := rfl
  rw [hexec, execXget, move_of_issues _ _ h hmem]
  dsimp only
  have hasked := Asked.foldl (t := a.t.val) (kind := .rdSnoop) (fun p k =>
    p.flitRequests (((s.pkg.tile a.t.val).xmemory a.mdesc.val).toNat + 64 * k) (tileDie a.t.val) .rdSnoop (fun _ => [])
      (.xget a.t.val (s.xsrc a + 64 * k) (s.xdesc a).rwin) false) _ 0 s.pkg (fun k _ _ _ hq => hq.flitRequests _ _ _ _ fun _ => rfl) a.count.toNat
  obtain ⟨l, hnet, hlines, hall⟩ := hasked.net
  obtain ⟨t, ht, hcoh, hptr, -, hframe⟩ := asked_advanced hasked
  exact ⟨t, l, ht, by rw [hcoh]; exact hnet, fun q hq => ⟨(hall q hq).1, (hall q hq).2.1⟩, hlines, hptr, hframe⟩

/-- One flit of an XPUT. -/
def putFlit (a : XSlot) (ti : Tile) (x : XDesc) (p : Pkg) (k : Nat) : Pkg :=
  let ws := p.localFlit a.t.val (ti.xlocal a.mdesc.val).toNat k
  let m := (ti.xmemory a.mdesc.val).toNat + 64 * k
  let p := p.flitRequests m (tileDie a.t.val) .wrInv (fun l => flitToLine m l ws) (.xput a.t.val x.rwin) (p.discards ti m)
  let u := p.tile a.t.val
  (p.setTile a.t.val { u with xputOut := u.xputOut + 1 }).doneCredit a.t.val x

theorem discards_of_none {p : Pkg} (ti : Tile) (m : Nat) (h : p.stepc.discards = []) : p.discards ti m = false := by
  rw [Pkg.discards, h]; rfl

theorem xput_requests (s : State) (a : XSlot) (h : MoveIssues a false false s)
    (hmem : inMemI ((s.pkg.tile a.t.val).xmemory a.mdesc.val) (64 * a.count.toNat) = true) :
    ∃ t l, exec (.xput a) s = .next t ∧ t.pkg.coh.net = s.pkg.coh.net ++ l ∧
      (∀ q ∈ l, q.requester = 68 + tileDie a.t.val ∧ q.kind = .wrInv) ∧ (s.pkg.stepc.discards = [] → ∀ q ∈ l, q.discard = false) ∧
      l.map (·.line) = s.xlines a ∧ (t.pkg.tile a.t.val).xptr = ((s.pkg.xadvance a.t.val a.mdesc.val).tile a.t.val).xptr ∧
      (t.pkg.tile a.t.val).xputOut = (s.pkg.tile a.t.val).xputOut + a.count.toNat ∧ SameMemory s t ∧ SameRegs s t ∧
      SameTilesBut a.t.val s t := by
  have hexec : exec (.xput a) s = execXput a s := rfl
  rw [hexec, execXput, move_of_issues _ _ h hmem]
  have hasked := Asked.foldl (t := a.t.val) (kind := .wrInv) (putFlit a (s.pkg.tile a.t.val) (s.xdesc a)) _ 1 s.pkg (fun k _ _ _ hq =>
    (hq.flitRequests (((s.pkg.tile a.t.val).xmemory a.mdesc.val).toNat + 64 * k) _ _ _ fun h0 => discards_of_none _ _ h0).countOut.doneCredit _)
    a.count.toNat
  obtain ⟨l, hnet, hlines, hall⟩ := hasked.net
  obtain ⟨t, ht, hcoh, hptr, hout, hframe⟩ := asked_advanced hasked
  rw [Nat.mul_one] at hout
  exact ⟨t, l, ht, by rw [hcoh]; exact hnet, fun q hq => ⟨(hall q hq).1, (hall q hq).2.1⟩, fun h0 q hq => (hall q hq).2.2 h0, hlines, hptr, hout, hframe⟩

end

/-! ### XPUB -/

theorem xpub_waits (s : State) (n : TileNo) (hruns : s.Runs .data) (hfree : (s.pkg.tile n.val).free = true) :
    Does (.xpub n) s (if (s.pkg.tile n.val).xputOut = 0 then s.pkg else s.pkg.setSeq n.val { s.seqr n with hold := some .xpub }) := by
  have hexec : exec (.xpub n) s = execXpub n s := rfl
  rw [Does, hexec, execXpub, control_runs hruns hfree]

/-- Settles O18: the flits of a command are a fold, whose lemma says what each flit adds; the pointers advance once after it. -/
theorem moveSlotCommands : Obligations.MoveSlotCommands :=
  ⟨xnop_nothing, xsend_local, xsend_sends, xget_requests, xput_requests, xpub_waits⟩

end Sys2Proof.Machine

namespace Sys2Proof.Machine

/-! ## Flits that land, and credits (R139, R407) -/

/-- A package that declares itself failed with an event shows it: FAULT_N is low. -/
theorem declareFailed_shown (s : State) (p : Pkg) (code unit arg : Nat) (h : p.failed = false) :
    (s.settle (p.raise code unit arg).declareFailed).pkg.failed = true ∧ RaisedEver (s.settle (p.raise code unit arg).declareFailed) code ∧
      bitOf ((p.raise code unit arg).declareFailed.reg O.errorRegister) 0 = true ∧
      (s.settle (p.raise code unit arg).declareFailed).lands.faultN = false := by
  have hshows := showsFailure_declareFailed (p.raise code unit arg) (fun hf => absurd (h.symm.trans hf) (by decide))
  have hfailed := declareFailed_failed (p.raise code unit arg)
  exact ⟨hfailed, (alarmed_declareFailed _).hasEvent (hasEvent_raise p code unit arg), hshows hfailed, landsOf_faultN_low _ hshows hfailed⟩

theorem credit_below {p : Pkg} {t w : Nat} (h : (p.tile t).win.at 0 w + 1 < 2 ^ 32) :
    p.credit t w = p.setTile t { p.tile t with win := (p.tile t).win.put 0 w ((p.tile t).win.at 0 w + 1) } := by
  rw [Pkg.credit]
  dsimp only
  rw [if_pos h]

theorem credit_top {p : Pkg} {t w : Nat} (h : 2 ^ 32 ≤ (p.tile t).win.at 0 w + 1) : p.credit t w = (p.raise 0x380D t 0).declareFailed := by
  rw [Pkg.credit, if_neg (by omega)]

/-- A credited window counts one more; the tile's other parts stay. -/
theorem credited {p : Pkg} {t w : Nat} (h : (p.tile t).win.at 0 w + 1 < 2 ^ 32) :
    TileStep t (fun _ => False) p (p.credit t w) ∧ ((p.credit t w).tile t).win.at 0 w = (p.tile t).win.at 0 w + 1 ∧
      ((p.credit t w).tile t).stepPoison = (p.tile t).stepPoison ∧ ((p.credit t w).tile t).xputOut = (p.tile t).xputOut ∧
      (p.credit t w).flits = p.flits ∧ ∀ a, (p.credit t w).sramRead a = p.sramRead a := by
  rw [credit_below h, tile_setTile_self]
  exact ⟨(TileStep.refl p).setTile _, SMap.at_put_self 0 w (v := (p.tile t).win.at 0 w + 1) (m := (p.tile t).win), rfl, rfl, rfl, fun _ => rfl⟩

/-- The words of a flit with their addresses. -/
def landedWords (t off : Nat) (ws : List (Option W128)) : List (Nat × Option W128) :=
  (List.range 4).map fun k => (sramAddr t (off + 16 * k), ws.getD k none)

theorem landWords_eq (p : Pkg) (t off : Nat) (ws : List (Option W128)) : p.landWords t off ws = p.writeWords (landedWords t off ws) := by
  rw [Pkg.landWords, Pkg.writeWords, landedWords, List.foldl_map]

theorem mem_landedWords {t off : Nat} {ws : List (Option W128)} {e : Nat × Option W128} :
    e ∈ landedWords t off ws ↔ ∃ k < 4, (sramAddr t (off + 16 * k), ws.getD k none) = e := by
  rw [landedWords, List.mem_map]
  exact exists_congr fun k => and_congr_left' List.mem_range

theorem sramWrite_flits (p : Pkg) (a : Nat) (v : Option W128) : (p.sramWrite a v).flits = p.flits := by
  rw [Pkg.sramWrite, Pkg.setWord, Pkg.setCheck]
  split <;> rfl

theorem writeWords_flits (p : Pkg) (l : List (Nat × Option W128)) : (p.writeWords l).flits = p.flits := by
  refine foldl_invariant (fun q : Pkg => q.flits = p.flits) (fun q e h => ?_) l rfl
  rw [sramWrite_flits, h]

section
variable (p : Pkg) (t off win : Nat) (ws : List (Option W128))

theorem landWords_read (h16 : off % 16 = 0) (k : Nat) (hk : k < 4) :
    (p.landWords t off ws).sramRead (sramAddr t (off + 16 * k)) = ws.getD k none := by
  have haligned : ∀ j, sramAddr t (off + 16 * j) % 16 = 0 := fun j => sramAddr_aligned t _ (by omega)
  rw [landWords_eq]
  refine writeWords_read p _ _ _ (tileBase_le_sramAddr ..) (haligned k) (mem_landedWords.mpr ⟨k, hk, rfl⟩) fun e he => ?_
  obtain ⟨j, -, rfl⟩ := mem_landedWords.mp he
  refine ⟨tileBase_le_sramAddr .., haligned j, fun hsame => ?_⟩
  rw [(by have := (sramAddr_inj _ _ _).mp hsame; omega : j = k)]

theorem landWords_byte_other (b : Nat) (h : ¬ (sramAddr t off ≤ b ∧ b < sramAddr t off + 64)) : (p.landWords t off ws).byte b = p.byte b := by
  rw [landWords_eq]
  refine writeWords_byte_other p _ b fun e he => ?_
  obtain ⟨k, hk, rfl⟩ := mem_landedWords.mp he
  dsimp only
  rw [sramAddr_add]
  omega

/-- The mark of a step that met poison, where there is any. -/
def Pkg.markPoison (p : Pkg) (t : Nat) (met : Bool) : Pkg := if met then p.setStepPoison t else p

theorem markPoison_keeps (p : Pkg) (t : Nat) (met : Bool) :
    TileStep t (fun _ => False) p (p.markPoison t met) ∧ ((p.markPoison t met).tile t).win = (p.tile t).win ∧ (p.markPoison t met).flits = p.flits ∧
      (∀ a, (p.markPoison t met).sramRead a = p.sramRead a) ∧ (met = true → ((p.markPoison t met).tile t).stepPoison = true) := by
  cases met with
  | false => exact ⟨.refl p, rfl, rfl, fun _ => rfl, fun h => absurd h (by decide)⟩
  | true =>
    rw [Pkg.markPoison, if_pos rfl, Pkg.setStepPoison, tile_setTile_self]
    exact ⟨(TileStep.refl p).setTile _, rfl, rfl, fun _ => rfl, fun _ => rfl⟩

/-- The landing of a flit's words, the mark, and the credit, in turn. -/
theorem landFlit_eq : p.landFlit t off win ws = (((p.landWords t off ws).markPoison t (ws.any (·.isNone))).credit t win) := rfl

/-- What a flit that lands leaves, its window not at its top. -/
structure FlitLanded (q : Pkg) : Prop where
  win : (q.tile t).win.at 0 win = (p.tile t).win.at 0 win + 1
  read : ∀ k < 4, q.sramRead (sramAddr t (off + 16 * k)) = ws.getD k none
  poison : ws.any (·.isNone) = true → (q.tile t).stepPoison = true
  flits : q.flits = p.flits
  byte : ∀ b, ¬ (sramAddr t off ≤ b ∧ b < sramAddr t off + 64) → q.byte b = p.byte b
  reg : ∀ k, q.reg k = p.reg k
  tiles : ∀ u, u ≠ t → q.tile u = p.tile u

theorem landFlit_lands (h16 : off % 16 = 0) (hwin : (p.tile t).win.at 0 win + 1 < 2 ^ 32) :
    FlitLanded p t off win ws (p.landFlit t off win ws) := by
  have hread := landWords_read p t off ws h16
  have hout := landWords_byte_other p t off ws
  have hflits : (p.landWords t off ws).flits = p.flits := by rw [landWords_eq, writeWords_flits]
  have htile : ∀ u, (p.landWords t off ws).tile u = p.tile u := fun u => by rw [landWords_eq, writeWords_tile]
  have hreg : ∀ k, (p.landWords t off ws).reg k = p.reg k := fun k => by rw [landWords_eq, writeWords_reg]
  rw [landFlit_eq]
  generalize p.landWords t off ws = q at *
  obtain ⟨hmark, hmarkwin, hmarkflits, hmarkread, hpoison⟩ := markPoison_keeps q t (ws.any (·.isNone))
  rw [htile t] at hmarkwin
  generalize q.markPoison t (ws.any (·.isNone)) = r at *
  rw [← hmarkwin] at hwin
  obtain ⟨hstep, hcount, hmarked, -, hrest, hkept⟩ := credited hwin
  rw [hmarkwin] at hcount
  have hall := hmark.trans hstep
  exact {
    win := hcount
    read := fun k hk => ((hkept _).trans (hmarkread _)).trans (hread k hk)
    poison := fun h => hmarked.trans (hpoison h)
    flits := (hrest.trans hmarkflits).trans hflits
    byte := fun b hb => (congrArg (SMap.at 0 b) hall.mem).trans (hout b hb)
    reg := fun k => (hall.reg k not_false).trans (hreg k)
    tiles := fun u hu => (hall.tiles u hu).trans (htile u) }

end

/-- What a flit under way does where it arrives. -/
def Pkg.takeFlit (p : Pkg) : MeshFlit → Pkg
  | .sram t off win data => p.landFlit t off win (data.map readWord)
  | .credit t win => p.credit t win
  | .xputAck t win => (p.setTile t { p.tile t with xputOut := (p.tile t).xputOut - 1 }).credit t win

section
variable (s : State) (i : Nat) (n : TileNo)

theorem exec_flitCredit {f : MeshFlit} (hruns : s.Runs .data) (hf : s.pkg.flits[i]? = some f) :
    exec (.flitCredit i) s = .next (s.settle ((s.pkg.withFlits (dropAt s.pkg.flits i)).takeFlit f)) := by
  have hexec : exec (.flitCredit i) s = s.on .data fun p =>
    match p.flits[i]? with
    | none => p
    | some f => (p.withFlits (dropAt p.flits i)).takeFlit f := rfl
  rw [hexec, on_runs s _ _ hruns]
  simp only [hf]

theorem flit_lands (off win : Nat) (data : List PWord) (hruns : s.Runs .data) (hf : s.pkg.flits[i]? = some (.sram n.val off win data))
    (h16 : off % 16 = 0) (hwin : (s.pkg.tile n.val).win.at 0 win + 1 < 2 ^ 32) :
    ∃ t, exec (.flitCredit i) s = .next t ∧ t.pkg.flits = dropAt s.pkg.flits i ∧
      (t.pkg.tile n.val).win.at 0 win = (s.pkg.tile n.val).win.at 0 win + 1 ∧
      (∀ k < 4, t.pkg.sramRead (sramAddr n.val (off + 16 * k)) = (data.map readWord).getD k none) ∧
      ((data.any fun w => (readWord w).isNone) = true → (t.pkg.tile n.val).stepPoison = true) ∧
      SameMemoryBut (fun b => sramAddr n.val off ≤ b ∧ b < sramAddr n.val off + 64) s t ∧ SameRegs s t ∧ SameTilesBut n.val s t := by
  have hlands := landFlit_lands (s.pkg.withFlits (dropAt s.pkg.flits i)) n.val off win (data.map readWord) h16 hwin
  refine ⟨_, exec_flitCredit s i hruns hf, hlands.flits, hlands.win, hlands.read, fun h => hlands.poison ?_, hlands.byte, hlands.reg, hlands.tiles⟩
  rwa [List.any_map]

theorem credit_counts (win : Nat) (hruns : s.Runs .data) (hf : s.pkg.flits[i]? = some (.credit n.val win))
    (hwin : (s.pkg.tile n.val).win.at 0 win + 1 < 2 ^ 32) :
    ∃ t, exec (.flitCredit i) s = .next t ∧ t.pkg.flits = dropAt s.pkg.flits i ∧
      (t.pkg.tile n.val).win.at 0 win = (s.pkg.tile n.val).win.at 0 win + 1 ∧ SameMemory s t ∧ SameRegs s t ∧ SameTilesBut n.val s t := by
  obtain ⟨hstep, hcount, -, -, hflits, -⟩ := credited (p := s.pkg.withFlits (dropAt s.pkg.flits i)) hwin
  exact ⟨_, exec_flitCredit s i hruns hf, hflits, hcount, fun b => congrArg (SMap.at 0 b) hstep.mem, fun k => hstep.reg k not_false, hstep.tiles⟩

theorem xputAck_counts (win : Nat) (hruns : s.Runs .data) (hf : s.pkg.flits[i]? = some (.xputAck n.val win))
    (hwin : (s.pkg.tile n.val).win.at 0 win + 1 < 2 ^ 32) :
    ∃ t, exec (.flitCredit i) s = .next t ∧ (t.pkg.tile n.val).xputOut = (s.pkg.tile n.val).xputOut - 1 ∧
      (t.pkg.tile n.val).win.at 0 win = (s.pkg.tile n.val).win.at 0 win + 1 ∧ SameMemory s t ∧ SameRegs s t ∧ SameTilesBut n.val s t := by
  have hexec := exec_flitCredit s i hruns hf
  rw [Pkg.takeFlit] at hexec
  have hstep := (TileStep.refl (n := n.val) (K := fun _ => False) (s.pkg.withFlits (dropAt s.pkg.flits i))).setTile
    { s.pkg.tile n.val with xputOut := (s.pkg.tile n.val).xputOut - 1 }
  have htile := tile_setTile_self (s.pkg.withFlits (dropAt s.pkg.flits i)) n.val { s.pkg.tile n.val with xputOut := (s.pkg.tile n.val).xputOut - 1 }
  change exec (.flitCredit i) s = .next (s.settle (((s.pkg.withFlits (dropAt s.pkg.flits i)).setTile n.val
    { s.pkg.tile n.val with xputOut := (s.pkg.tile n.val).xputOut - 1 }).credit n.val win)) at hexec
  generalize (s.pkg.withFlits (dropAt s.pkg.flits i)).setTile n.val _ = q at *
  obtain ⟨hstep', hcount, -, hout, -, -⟩ := credited (p := q) (t := n.val) (w := win) (by rw [htile]; exact hwin)
  have hall := hstep.trans hstep'
  rw [htile] at hcount hout
  exact ⟨_, hexec, hout, hcount, fun b => congrArg (SMap.at 0 b) hall.mem, fun k => hall.reg k not_false, hall.tiles⟩

theorem credit_overflows (win : Nat) (hruns : s.Runs .data) (hf : s.pkg.flits[i]? = some (.credit n.val win)) (hrun : s.pkg.failed = false)
    (hwin : 2 ^ 32 ≤ (s.pkg.tile n.val).win.at 0 win + 1) :
    ∃ t, exec (.flitCredit i) s = .next t ∧ t.pkg.failed = true ∧ RaisedEver t 0x380D ∧
      bitOf (t.pkg.reg O.errorRegister) 0 = true ∧ t.lands.faultN = false := by
  have hexec := exec_flitCredit s i hruns hf
  rw [Pkg.takeFlit, credit_top (p := s.pkg.withFlits (dropAt s.pkg.flits i)) hwin] at hexec
  exact ⟨_, hexec, declareFailed_shown s (s.pkg.withFlits (dropAt s.pkg.flits i)) _ _ _ hrun⟩

end

/-- Settles O19. -/
theorem flitsLandAndCredit : Obligations.FlitsLandAndCredit := ⟨flit_lands, credit_counts, xputAck_counts, credit_overflows⟩

end Sys2Proof.Machine

namespace Sys2Proof.Machine

/-! ## What the shared operations of the schedule leave (R145 to R149, R294) -/

section
variable (p : Pkg) (type dst : Nat) (payload : List Nat)

/-- The class-0 message of a flood. -/
def Pkg.floodMsg : C0Msg := ⟨type, p.reg O.domainPhysId, dst, (p.sched.originSeq + 1) % 2 ^ 32, payload⟩

/-- R294: what a flood changes. -/
theorem flood_eq : ∃ l, p.flood type dst payload =
    { p with sched := { p.sched with originSeq := (p.sched.originSeq + 1) % 2 ^ 32 }, out := p.out ++ [.class0 (p.floodMsg type dst payload)], links := l } := by
  obtain ⟨l, hl⟩ := c0Send_changes_links (({ p with sched := { p.sched with originSeq := (p.sched.originSeq + 1) % 2 ^ 32 } }).emit
    (.class0 (p.floodMsg type dst payload))) (p.floodMsg type dst payload) 12
  exact ⟨l, hl⟩

@[simp] theorem flood_mem : (p.flood type dst payload).mem = p.mem := by
  obtain ⟨l, hl⟩ := flood_eq p type dst payload
  rw [hl]

@[simp] theorem flood_tiles : (p.flood type dst payload).tiles = p.tiles := by
  obtain ⟨l, hl⟩ := flood_eq p type dst payload
  rw [hl]

@[simp] theorem flood_reg (k : Nat) : (p.flood type dst payload).reg k = p.reg k := by
  rw [Pkg.reg, flood_dict, Pkg.reg]

@[simp] theorem flood_ev : (p.flood type dst payload).ev = p.ev := by
  obtain ⟨l, hl⟩ := flood_eq p type dst payload
  rw [hl]

@[simp] theorem flood_loader : (p.flood type dst payload).loader = p.loader := by
  obtain ⟨l, hl⟩ := flood_eq p type dst payload
  rw [hl]

@[simp] theorem flood_secure : (p.flood type dst payload).secure = p.secure := by
  obtain ⟨l, hl⟩ := flood_eq p type dst payload
  rw [hl]

@[simp] theorem flood_stepc : (p.flood type dst payload).stepc = p.stepc := by
  obtain ⟨l, hl⟩ := flood_eq p type dst payload
  rw [hl]

@[simp] theorem flood_host : (p.flood type dst payload).host = p.host := by
  obtain ⟨l, hl⟩ := flood_eq p type dst payload
  rw [hl]

@[simp] theorem flood_failed : (p.flood type dst payload).failed = p.failed := by
  obtain ⟨l, hl⟩ := flood_eq p type dst payload
  rw [hl]

@[simp] theorem flood_mtime : (p.flood type dst payload).mtime = p.mtime := by
  obtain ⟨l, hl⟩ := flood_eq p type dst payload
  rw [hl]

@[simp] theorem flood_sched : (p.flood type dst payload).sched = { p.sched with originSeq := (p.sched.originSeq + 1) % 2 ^ 32 } := by
  obtain ⟨l, hl⟩ := flood_eq p type dst payload
  rw [hl]

@[simp] theorem flood_out : (p.flood type dst payload).out = p.out ++ [.class0 (p.floodMsg type dst payload)] := by
  obtain ⟨l, hl⟩ := flood_eq p type dst payload
  rw [hl]

end

section
variable {x : C0In} {p : Pkg}

/-- A new flood is remembered, forwarded and acted on (R294). -/
theorem floodIn_new (h : IsNew x p) (type : Nat) (payload : List Nat) (act : Pkg → Pkg) :
    p.floodIn x type payload act = act (forwarded x type payload p) := by
  rw [Pkg.floodIn, forwarded]
  unfold IsNew at h
  cases hf : p.sched.filter.find x.src with
  | none => rfl
  | some n =>
    rw [hf] at h
    exact if_neg (by dsimp only; rw [show laterSeq x.originSeq n = true from h]; decide)

theorem directedIn_new (h : IsNew x p) (act : Pkg → Pkg) : p.directedIn x act = act (remembered x p) := by
  rw [Pkg.directedIn, remembered]
  unfold IsNew at h
  cases hf : p.sched.filter.find x.src with
  | none => rfl
  | some n =>
    rw [hf] at h
    exact if_neg (by dsimp only; rw [show laterSeq x.originSeq n = true from h]; decide)

end

/-- A flood that is forwarded is remembered, and queued at ports. -/
theorem forwarded_eq (x : C0In) (type : Nat) (payload : List Nat) (p : Pkg) :
    ∃ l, forwarded x type payload p = { remembered x p with links := l } := c0Send_changes_links _ _ _

section
variable (x : C0In) (type : Nat) (payload : List Nat) (p : Pkg)

@[simp] theorem forwarded_mem : (forwarded x type payload p).mem = p.mem := by
  obtain ⟨l, hl⟩ := forwarded_eq x type payload p
  rw [hl]
  rfl

@[simp] theorem forwarded_reg (k : Nat) : (forwarded x type payload p).reg k = p.reg k := by
  obtain ⟨l, hl⟩ := forwarded_eq x type payload p
  rw [hl]
  rfl

@[simp] theorem forwarded_tiles : (forwarded x type payload p).tiles = p.tiles := by
  obtain ⟨l, hl⟩ := forwarded_eq x type payload p
  rw [hl]
  rfl

@[simp] theorem forwarded_loader : (forwarded x type payload p).loader = p.loader := by
  obtain ⟨l, hl⟩ := forwarded_eq x type payload p
  rw [hl]
  rfl

@[simp] theorem forwarded_secure : (forwarded x type payload p).secure = p.secure := by
  obtain ⟨l, hl⟩ := forwarded_eq x type payload p
  rw [hl]
  rfl

@[simp] theorem forwarded_cfg : (forwarded x type payload p).cfg = p.cfg := by
  obtain ⟨l, hl⟩ := forwarded_eq x type payload p
  rw [hl]
  rfl

@[simp] theorem forwarded_stepc : (forwarded x type payload p).stepc = p.stepc := by
  obtain ⟨l, hl⟩ := forwarded_eq x type payload p
  rw [hl]
  rfl

@[simp] theorem forwarded_failed : (forwarded x type payload p).failed = p.failed := by
  obtain ⟨l, hl⟩ := forwarded_eq x type payload p
  rw [hl]
  rfl

@[simp] theorem forwarded_sched : (forwarded x type payload p).sched = (remembered x p).sched := by
  obtain ⟨l, hl⟩ := forwarded_eq x type payload p
  rw [hl]

end

theorem find_ins_self {α : Type} (k : Nat) (v : α) (m : SMap α) (h : m.find k = none) : (m.ins k v).find k = some v := by
  induction m with
  | nil => simp [SMap.ins, SMap.find]
  | cons e r ih =>
    obtain ⟨i, w⟩ := e
    by_cases h1 : i = k
    · simp [SMap.find, h1] at h
    · simp only [SMap.find, h1, if_false] at h
      rw [SMap.ins]
      split
      · simp [SMap.find]
      · simp [SMap.find, h1, ih h]

/-- An entry put in the place of another is the one found. -/
theorem filter_remembers {α : Type} (m : SMap α) (k : Nat) (v : α) : ((m.del k).ins k v).find k = some v := find_ins_self k v _ (SMap.find_del_self k m)

end Sys2Proof.Machine

namespace Sys2Proof.Machine

/-! ## Beats, lateness and holds (R140, R145 to R149) -/

/-! ### The beat boundary -/

/-- What the counts of a beat leave: memory, tiles, the schedule and its counts. -/
structure BeatQuiet (p q : Pkg) : Prop where
  mem : q.mem = p.mem
  tiles : q.tiles = p.tiles
  sched : q.sched = p.sched
  secure : q.secure = p.secure
  cfg : q.cfg = p.cfg
  beat : q.reg O.domainBeat = p.reg O.domainBeat
  slip : q.reg O.slipTotal = p.reg O.slipTotal

namespace BeatQuiet

variable {p q : Pkg}

theorem refl (p : Pkg) : BeatQuiet p p := ⟨rfl, rfl, rfl, rfl, rfl, rfl, rfl⟩

theorem setReg {k : Nat} (v : Nat) (h : BeatQuiet p q) (hbeat : O.domainBeat ≠ k := by decide) (hslip : O.slipTotal ≠ k := by decide) :
    BeatQuiet p (q.setReg k v) :=
  ⟨h.mem, h.tiles, h.sched, h.secure, h.cfg, (reg_setReg_other _ _ _ _ hbeat).trans h.beat, (reg_setReg_other _ _ _ _ hslip).trans h.slip⟩

theorem setChan (e : Bool) (ch : Nat) (c : ChanSt) (h : BeatQuiet p q) : BeatQuiet p (q.setChan e ch c) :=
  ⟨h.mem, h.tiles, h.sched, h.secure, h.cfg, h.beat, h.slip⟩

theorem setUnit (d : Nat) (u : DispUnit) (h : BeatQuiet p q) : BeatQuiet p (q.setUnit d u) :=
  ⟨h.mem, h.tiles, h.sched, h.secure, h.cfg, h.beat, h.slip⟩

theorem setPort (i : Nat) (x : PortSt) (h : BeatQuiet p q) : BeatQuiet p (q.setPort i x) :=
  ⟨h.mem, h.tiles, h.sched, h.secure, h.cfg, h.beat, h.slip⟩

theorem countStalls (h : BeatQuiet p q) : BeatQuiet p q.countStalls := by
  refine List.foldlRecOn (motive := BeatQuiet p) _ _ h fun q hq e _ => ?_
  refine List.foldlRecOn (motive := BeatQuiet p) _ _ ?_ fun q hq c _ => hq.setChan _ _ _
  cases e <;> exact hq.setReg _

theorem countHolds (h : BeatQuiet p q) : BeatQuiet p q.countHolds := by
  refine List.foldlRecOn (motive := BeatQuiet p) _ _ h fun q hq d hd => ?_
  have hd' := List.mem_range.mp hd
  dsimp only
  split
  · exact hq
  · exact (hq.setUnit _ _).setReg _ (by simp only [O.domainBeat, O.dispatchHoldBeats]; omega) (by simp only [O.slipTotal, O.dispatchHoldBeats]; omega)

theorem countCredit (h : BeatQuiet p q) : BeatQuiet p q.countCredit := by
  refine List.foldlRecOn (motive := BeatQuiet p) _ _ h fun q hq i hi => ?_
  have hi' := List.mem_range.mp hi
  dsimp only
  split
  · exact (hq.setPort _ _).setReg _ (by simp only [O.domainBeat, O.creditStallBeats]; omega) (by simp only [O.slipTotal, O.creditStallBeats]; omega)
  · exact hq

end BeatQuiet

theorem countBeats_quiet (p : Pkg) : BeatQuiet p p.countBeats := (BeatQuiet.refl p).countStalls.countHolds.countCredit

section
variable {p : Pkg}

theorem localPeriod_none (ht : p.cfg.pendTimer = false) (hr : p.cfg.pendRequest = false) : p.localPeriod = p := by
  rw [Pkg.localPeriod, Pkg.localDue, ht, hr]
  exact if_neg fun h => absurd h.1 (by simp)

theorem streamSave_none (h : p.secure.hold = none) : p.streamSave = p := by rw [Pkg.streamSave, h]

theorem plannedRemap_none (h : p.secure.hold = none) : p.plannedRemap = p := by
  rw [Pkg.plannedRemap, h]
  split
  · contradiction
  · rfl

theorem endUncovered_none (h : p.secure.hold = none) : p.endUncovered = p := by
  rw [Pkg.endUncovered, h]
  split
  · contradiction
  · rfl

theorem closeSave_none (h : p.secure.hold = none) : p.closeSave = p := by rw [Pkg.closeSave, h]

/-- Without a save hold, a beat streams nothing. -/
theorem beatSave_none (h : p.secure.hold = none) : p.beatSave = p := by
  rw [Pkg.beatSave, streamSave_none h, plannedRemap_none h, endUncovered_none h, closeSave_none h]

theorem askTime_eq (p : Pkg) : ∃ l, p.askTime = { p with links := l } := by
  unfold Pkg.askTime
  dsimp only
  split
  · exact ⟨_, rfl⟩
  · exact ⟨_, rfl⟩

theorem growLate_eq (p : Pkg) : ∃ l v, p.growLate = (p.setSched { p.sched with late := l }).setReg O.maxLateness v := ⟨_, _, rfl⟩

/-- What slip_total reads after a beat (R147). -/
def slipAfter (p : Pkg) : Nat := match p.sched.hold with
  | none => p.reg O.slipTotal
  | some h => if (p.reg O.domainBeat + 1) % 2 ^ 64 ≤ h.beat + h.len ∨ h.kind = .save then (p.reg O.slipTotal + 1) % 2 ^ 64 else p.reg O.slipTotal

theorem tickBeat_eq (p : Pkg) : (p.tickBeat).reg O.domainBeat = (p.reg O.domainBeat + 1) % 2 ^ 64 ∧ p.tickBeat.reg O.slipTotal = slipAfter p ∧
    ∃ d, p.tickBeat = { p with dict := d } := by
  rw [Pkg.tickBeat, slipAfter]
  have hslip : ∀ v, (p.setReg O.domainBeat v).reg O.slipTotal = p.reg O.slipTotal := fun v => reg_setReg_other _ _ _ _ (by decide)
  have hhold : ∀ v, (p.setReg O.domainBeat v).sched = p.sched := fun _ => rfl
  cases hh : p.sched.hold with
  | none => rw [hhold, hh]; exact ⟨reg_setReg_self .., hslip _, _, rfl⟩
  | some h =>
    rw [hhold, hh]
    dsimp only
    split
    · exact ⟨(reg_setReg_other _ _ _ _ (by decide)).trans (reg_setReg_self ..), (reg_setReg_self ..).trans (by rw [hslip]), _, rfl⟩
    · exact ⟨reg_setReg_self .., hslip _, _, rfl⟩

end

theorem beatBoundary_ticks (s : State) (hruns : s.Runs .link) (hhold : s.pkg.secure.hold = none) (ht : s.pkg.cfg.pendTimer = false)
    (hr : s.pkg.cfg.pendRequest = false) :
    ∃ t, exec .beatBoundary s = .next t ∧ t.pkg.reg O.domainBeat = (s.pkg.reg O.domainBeat + 1) % 2 ^ 64 ∧ t.pkg.reg O.slipTotal = slipAfter s.pkg ∧
      t.pkg.sched.hold = s.pkg.sched.hold ∧ t.pkg.tiles = s.pkg.tiles ∧ SameMemory s t := by
  have hexec : exec .beatBoundary s = execBeatBoundary s := rfl
  rw [hexec, execBeatBoundary, on_runs s _ _ hruns]
  have hq := countBeats_quiet s.pkg
  generalize s.pkg.countBeats = q at *
  have hslip : slipAfter s.pkg = slipAfter q := by rw [slipAfter, slipAfter, hq.sched, hq.beat, hq.slip]
  obtain ⟨hbeat, htotal, d, htick⟩ := tickBeat_eq q
  rw [hq.beat] at hbeat
  rw [← hslip] at htotal
  have htsched : q.tickBeat.sched = s.pkg.sched := by rw [htick]; exact hq.sched
  have htsec : q.tickBeat.secure = s.pkg.secure := by rw [htick]; exact hq.secure
  have htcfg : q.tickBeat.cfg = s.pkg.cfg := by rw [htick]; exact hq.cfg
  have httiles : q.tickBeat.tiles = s.pkg.tiles := by rw [htick]; exact hq.tiles
  have htmem : q.tickBeat.mem = s.pkg.mem := by rw [htick]; exact hq.mem
  generalize q.tickBeat = r at *
  obtain ⟨l, v, hgrow⟩ := growLate_eq r
  have hgcfg : r.growLate.cfg = s.pkg.cfg := by rw [hgrow]; exact htcfg
  have hgsec : r.growLate.secure = s.pkg.secure := by rw [hgrow]; exact htsec
  rw [localPeriod_none (by rw [hgcfg, ht]) (by rw [hgcfg, hr]), beatSave_none (by rw [hgsec, hhold])]
  have hgbeat : r.growLate.reg O.domainBeat = r.reg O.domainBeat := by rw [hgrow]; exact reg_setReg_other _ _ _ _ (by decide)
  have hgtotal : r.growLate.reg O.slipTotal = r.reg O.slipTotal := by rw [hgrow]; exact reg_setReg_other _ _ _ _ (by decide)
  have hghold : r.growLate.sched.hold = r.sched.hold := by rw [hgrow]; rfl
  have hgtiles : r.growLate.tiles = r.tiles := by rw [hgrow]; rfl
  have hgmem : r.growLate.mem = r.mem := by rw [hgrow]; rfl
  generalize r.growLate = g at *
  obtain ⟨links, hask⟩ := askTime_eq g
  rw [hask]
  exact ⟨_, rfl, hgbeat.trans hbeat, hgtotal.trans htotal, hghold.trans (congrArg Sched.hold htsched), hgtiles.trans httiles,
    fun b => congrArg (SMap.at 0 b) (hgmem.trans htmem)⟩

theorem schedBeat_difference (p : Pkg) (hle : p.reg O.slipTotal ≤ p.reg O.domainBeat) (hlt : p.reg O.domainBeat < 2 ^ 64) :
    p.schedBeat = p.reg O.domainBeat - p.reg O.slipTotal := by
  rw [Pkg.schedBeat]
  omega

/-! ### Lateness and slip requests -/

/-- A slip that has joined those that wait. -/
theorem mem_addSlip (p : Pkg) (x : Slip) : x ∈ (p.addSlip x).sched.slips := by
  rw [Pkg.addSlip]
  split
  · assumption
  · exact List.mem_append_right _ List.mem_cons_self

theorem addSlip_eq (p : Pkg) (x : Slip) : ∃ l, p.addSlip x = { p with sched := { p.sched with slips := l } } := by
  rw [Pkg.addSlip]
  split
  · exact ⟨_, rfl⟩
  · exact ⟨_, rfl⟩

/-- What a noted late case and its request leave. -/
structure LateNoted (p q : Pkg) : Prop where
  mem : q.mem = p.mem
  loader : q.loader = p.loader
  beat : q.reg O.domainBeat = p.reg O.domainBeat
  count : q.reg O.lateEvents = p.reg O.lateEvents
  events : p.ev.inFlight ⊆ q.ev.inFlight

namespace LateNoted

variable {p q r : Pkg}

theorem refl (p : Pkg) : LateNoted p p := ⟨rfl, rfl, rfl, rfl, List.Subset.refl _⟩

theorem raise (code unit arg : Nat) (h : LateNoted p q) : LateNoted p (q.raise code unit arg) :=
  ⟨h.mem, h.loader, h.beat, h.count, List.Subset.trans h.events (by simp)⟩

theorem setReg {k : Nat} (v : Nat) (h : LateNoted p q) (hbeat : O.domainBeat ≠ k := by decide) (hcount : O.lateEvents ≠ k := by decide) :
    LateNoted p (q.setReg k v) :=
  ⟨h.mem, h.loader, (reg_setReg_other _ _ _ _ hbeat).trans h.beat, (reg_setReg_other _ _ _ _ hcount).trans h.count, h.events⟩

theorem setSched (x : Sched) (h : LateNoted p q) : LateNoted p (q.setSched x) := ⟨h.mem, h.loader, h.beat, h.count, h.events⟩

theorem setSeq (t : Nat) (x : Seqr) (h : LateNoted p q) : LateNoted p (q.setSeq t x) := ⟨h.mem, h.loader, h.beat, h.count, h.events⟩

theorem flood (type dst : Nat) (l : List Nat) (h : LateNoted p q) : LateNoted p (q.flood type dst l) :=
  ⟨by rw [flood_mem, h.mem], by rw [flood_loader, h.loader], by rw [flood_reg, h.beat], by rw [flood_reg, h.count], by rw [flood_ev]; exact h.events⟩

theorem addSlip (x : Slip) (h : LateNoted p q) : LateNoted p (q.addSlip x) := by
  obtain ⟨l, hl⟩ := addSlip_eq q x
  rw [hl]
  exact ⟨h.mem, h.loader, h.beat, h.count, h.events⟩

theorem requestSlip (h : LateNoted p q) : LateNoted p q.requestSlip := by
  unfold Pkg.requestSlip
  split
  · exact h
  · exact (((h.flood _ _ _).raise _ _ _).setReg _).addSlip _

theorem hasEvent {code : Nat} (h : LateNoted p q) (hp : p.HasEvent code) : q.HasEvent code := by
  obtain ⟨r, hr, hcode⟩ := hp
  exact ⟨r, h.events hr, hcode⟩

end LateNoted

theorem addSlip_late (p : Pkg) (x : Slip) : (p.addSlip x).sched.late = p.sched.late := by
  obtain ⟨l, hl⟩ := addSlip_eq p x
  rw [hl]

/-- The slip of a request made now. -/
def askedSlip (p : Pkg) (i : Image) : Slip := ⟨p.reg O.domainBeat + i.slipHorizon, i.slipQuantum, .slip⟩

theorem requestSlip_eq {p : Pkg} {i : Image} (h : p.loader.image = some i) : p.requestSlip =
    (((p.flood 0x01 0 [p.reg O.logicalPosition, p.reg O.domainBeat + i.slipHorizon]).raise 0x3804 noUnit 0).bump O.slipRequestsIssued 1).addSlip
      (askedSlip p i) := by
  rw [Pkg.requestSlip, h]
  rfl

/-- A slip request joins the slips that wait, with event 0x3804. -/
theorem requestSlip_asks {p : Pkg} {i : Image} (h : p.loader.image = some i) :
    askedSlip p i ∈ p.requestSlip.sched.slips ∧ p.requestSlip.HasEvent 0x3804 ∧ p.requestSlip.sched.late = p.sched.late := by
  rw [requestSlip_eq h]
  have hlate : (p.flood 0x01 0 [p.reg O.logicalPosition, p.reg O.domainBeat + i.slipHorizon]).sched.late = p.sched.late := by rw [flood_sched]
  generalize p.flood 0x01 0 _ = q at *
  have hraised := (((LateNoted.refl (q.raise 0x3804 noUnit 0)).setReg (k := O.slipRequestsIssued)
    (satAdd 32 ((q.raise 0x3804 noUnit 0).reg O.slipRequestsIssued) 1)).addSlip (askedSlip p i)).hasEvent (hasEvent_raise q 0x3804 noUnit 0)
  exact ⟨mem_addSlip _ _, hraised, (addSlip_late _ _).trans hlate⟩

theorem noteLate_notes {p : Pkg} {c : LateCase} {i : Image} (himage : p.loader.image = some i) (hlate : p.isLate c = true)
    (hnew : p.sched.lateOf c = []) :
    ∃ q, p.noteLate c = q.requestSlip ∧ LateNoted ((p.raise 0x3806 (lateUnit c) 0).bump O.lateEvents 1) q := by
  have hcount := of_decide_eq_true hlate
  rw [Pkg.noteLate, hnew, if_neg (by rw [List.length_nil]; omega)]
  have hstart := LateNoted.refl ((p.raise 0x3806 (lateUnit c) 0).bump O.lateEvents 1)
  cases c with
  | carr t => exact ⟨_, rfl, (hstart.setReg _).setSched _⟩
  | cwait t => exact ⟨_, rfl, (hstart.setReg _).setSeq _ _⟩
  | start t => exact ⟨_, rfl, (hstart.setReg _).setSched _⟩
  | vote => exact ⟨_, rfl, ((hstart.raise _ _ _).setReg _).setSched _⟩
  | stage e =>
    have he := e.isLt
    exact ⟨_, rfl, ((((hstart.raise _ _ _).setReg _ (by simp only [O.domainBeat, O.stageLateEntries]; omega)
      (by simp only [O.lateEvents, O.stageLateEntries]; omega)).setReg _).setSched _)⟩
  | saveHold => exact ⟨_, rfl, (hstart.setReg _).setSched _⟩

theorem lateCase_noted (s : State) (c : LateCase) (i : Image) (hruns : s.Runs .data) (himage : s.pkg.loader.image = some i)
    (hlate : s.pkg.isLate c = true) (hnew : s.pkg.sched.lateOf c = []) :
    ∃ t, exec (.lateCase c) s = .next t ∧ t.pkg.reg O.lateEvents = min (s.pkg.reg O.lateEvents + 1) (2 ^ 32 - 1) ∧
      (⟨s.pkg.reg O.domainBeat + i.slipHorizon, i.slipQuantum, .slip⟩ : Slip) ∈ t.pkg.sched.slips ∧ RaisedEver t 0x3806 ∧
      RaisedEver t 0x3804 ∧ SameMemory s t := by
  have hexec : exec (.lateCase c) s = execLateCase c s := rfl
  rw [hexec, execLateCase, on_runs s _ _ hruns]
  obtain ⟨q, hq, hnoted⟩ := noteLate_notes himage hlate hnew
  rw [hq]
  have hraised : ((s.pkg.raise 0x3806 (lateUnit c) 0).bump O.lateEvents 1).HasEvent 0x3806 := hasEvent_raise _ _ _ _
  have hbeat : q.reg O.domainBeat = s.pkg.reg O.domainBeat := hnoted.beat.trans (reg_setReg_other _ _ _ _ (by decide))
  have hqimage : q.loader.image = some i := by rw [hnoted.loader]; exact himage
  obtain ⟨hslip, hasked, -⟩ := requestSlip_asks hqimage
  rw [askedSlip, hbeat] at hslip
  refine ⟨_, rfl, ?_, hslip, hnoted.requestSlip.hasEvent hraised, hasked, fun b => congrArg (SMap.at 0 b) hnoted.requestSlip.mem⟩
  exact hnoted.requestSlip.count.trans (reg_setReg_self ..)

theorem slipRequestRepeat_asks (s : State) (c : LateCase) (i : Image) (hruns : s.Runs .data) (himage : s.pkg.loader.image = some i)
    (hlate : s.pkg.isLate c = true)
    (hdue : s.pkg.sched.late.any (fun r => decide (r.case = c ∧ r.lastReq + i.slipQuantum ≤ s.pkg.reg O.domainBeat)) = true) :
    ∃ t, exec (.slipRequestRepeat c) s = .next t ∧
      (⟨s.pkg.reg O.domainBeat + i.slipHorizon, i.slipQuantum, .slip⟩ : Slip) ∈ t.pkg.sched.slips ∧
      t.pkg.sched.late = mapFirst (fun r => decide (r.case = c ∧ r.lastReq + i.slipQuantum ≤ s.pkg.reg O.domainBeat))
        (fun r => { r with lastReq := s.pkg.reg O.domainBeat }) s.pkg.sched.late ∧
      RaisedEver t 0x3804 ∧ SameMemory s t := by
  have hexec : exec (.slipRequestRepeat c) s = execSlipRequestRepeat c s := rfl
  rw [hexec, execSlipRequestRepeat, on_runs s _ _ hruns]
  dsimp only
  rw [himage]
  dsimp only
  rw [if_pos ⟨hlate, hdue⟩]
  generalize hq : s.pkg.setSched _ = q
  have hqimage : q.loader.image = some i := by rw [← hq]; exact himage
  obtain ⟨hslip, hasked, hkept⟩ := requestSlip_asks hqimage
  refine ⟨_, rfl, ?_, ?_, hasked, fun b => ?_⟩
  · rw [(by rw [← hq]; rfl : s.pkg.reg O.domainBeat = q.reg O.domainBeat)]
    exact hslip
  · exact hkept.trans (by rw [← hq]; rfl)
  · exact congrArg (SMap.at 0 b) ((LateNoted.refl q).requestSlip.mem.trans (by rw [← hq]; rfl))

theorem slipRequest_joins (s : State) (x : C0In) (who beat : Nat) (i : Image) (hruns : s.Runs .data) (hnew : IsNew x s.pkg)
    (himage : s.pkg.loader.image = some i) :
    ∃ t, exec (.slipRequest x who beat) s = .next t ∧ (⟨beat, i.slipQuantum, .slip⟩ : Slip) ∈ t.pkg.sched.slips ∧
      t.pkg.sched.filter.find x.src = some x.originSeq ∧ SameMemory s t ∧ SameRegs s t ∧ t.pkg.tiles = s.pkg.tiles := by
  have hexec : exec (.slipRequest x who beat) s = execSlipRequest x who beat s := rfl
  rw [hexec, execSlipRequest, on_runs s _ _ hruns, floodIn_new hnew]
  obtain ⟨l, hl⟩ := forwarded_eq x 0x01 [who, beat] s.pkg
  rw [hl]
  have hkept : ({ remembered x s.pkg with links := l } : Pkg).loader.image = some i := himage
  rw [hkept]
  dsimp only
  have hslip := mem_addSlip { remembered x s.pkg with links := l } ⟨beat, i.slipQuantum, .slip⟩
  obtain ⟨slips, hadd⟩ := addSlip_eq { remembered x s.pkg with links := l } ⟨beat, i.slipQuantum, .slip⟩
  rw [hadd] at hslip ⊢
  exact ⟨_, rfl, hslip, filter_remembers _ _ _, fun _ => rfl, fun _ => rfl, rfl⟩

theorem not_failed_of_data {s : State} (h : s.Runs .data) : s.pkg.failed = false := by
  simp [State.Runs, Pkg.runs] at h
  exact h.2.2

theorem holdLimit_fails (s : State) (c : LateCase) (i : Image) (hruns : s.Runs .data) (himage : s.pkg.loader.image = some i)
    (hlimit : limitApplies c = true) (hlate : s.pkg.isLate c = true) (hhold : s.pkg.secure.hold = none)
    (hover : s.pkg.sched.late.any (fun r => decide (r.case = c ∧ i.holdLimit < r.late)) = true) :
    ∃ t, exec (.holdLimitExpiry c) s = .next t ∧ t.pkg.failed = true ∧ RaisedEver t 0x3807 ∧ t.lands.faultN = false := by
  have hexec : exec (.holdLimitExpiry c) s = execHoldLimitExpiry c s := rfl
  rw [hexec, execHoldLimitExpiry, on_runs s _ _ hruns]
  rw [himage]
  dsimp only
  rw [if_pos ⟨hlimit, hlate, by rw [hhold]; rfl, hover⟩]
  obtain ⟨hfailed, hraised, -, hlow⟩ := declareFailed_shown s s.pkg 0x3807 (lateUnit c) 0 (not_failed_of_data hruns)
  exact ⟨_, rfl, hfailed, hraised, hlow⟩

/-! ### Holds of schedule time (R147) -/

/-- The schedule once a due slip holds it. -/
theorem startSlip_holds (p : Pkg) (x : Slip) :
    (p.startSlip x).sched.hold = some { x with beat := p.reg O.domainBeat } ∧ (p.startSlip x).sched.slips = p.sched.slips.erase x ∧
      (p.startSlip x).reg O.slipsApplied =
        (if x.kind = .slip then min (p.reg O.slipsApplied + 1) (2 ^ 32 - 1) else p.reg O.slipsApplied) ∧
      (p.startSlip x).mem = p.mem ∧ (p.startSlip x).tiles = p.tiles := by
  rw [Pkg.startSlip]
  dsimp only
  split
  · exact ⟨rfl, rfl, reg_setReg_self .., rfl, rfl⟩
  · exact ⟨rfl, rfl, rfl, rfl, rfl⟩

theorem slipHold_starts (s : State) (x : Slip) (hruns : s.Runs .data) (hhold : s.pkg.sched.hold = none) (hdue : s.pkg.dueSlip = some x) :
    ∃ t, exec .slipHoldStart s = .next t ∧ t.pkg.sched.hold = some { x with beat := s.pkg.reg O.domainBeat } ∧
      t.pkg.sched.slips = s.pkg.sched.slips.erase x ∧
      t.pkg.reg O.slipsApplied = (if x.kind = .slip then min (s.pkg.reg O.slipsApplied + 1) (2 ^ 32 - 1) else s.pkg.reg O.slipsApplied) ∧
      SameMemory s t ∧ t.pkg.tiles = s.pkg.tiles := by
  have hexec : exec .slipHoldStart s = execSlipHoldStart s := rfl
  rw [hexec, execSlipHoldStart, on_runs s _ _ hruns]
  rw [hhold, hdue]
  obtain ⟨hheld, hslips, hcount, hmem, htiles⟩ := startSlip_holds s.pkg x
  exact ⟨_, rfl, hheld, hslips, hcount, fun b => congrArg (SMap.at 0 b) hmem, htiles⟩

/-- The end of a hold whose beats are over. -/
theorem exec_slipHoldEnd {s : State} {h : Slip} (hruns : s.Runs .data) (hhold : s.pkg.sched.hold = some h) (hkind : h.kind ≠ .save)
    (hover : h.beat + h.len ≤ s.pkg.reg O.domainBeat) : exec .slipHoldEnd s = .next (s.settle s.pkg.endHold) := by
  have hexec : exec .slipHoldEnd s = execSlipHoldEnd s := rfl
  rw [hexec, execSlipHoldEnd, on_runs s _ _ hruns]
  rw [hhold]
  dsimp only
  rw [if_pos ⟨hkind, hover⟩]

theorem slipHold_ends (s : State) (h : Slip) (hruns : s.Runs .data) (hhold : s.pkg.sched.hold = some h) (hkind : h.kind ≠ .save)
    (hover : h.beat + h.len ≤ s.pkg.reg O.domainBeat) (hnext : s.pkg.dueSlip = none) (hsave : s.pkg.secure.hold = none) :
    Does .slipHoldEnd s (s.pkg.setSched { s.pkg.sched with hold := none }) := by
  rw [Does, exec_slipHoldEnd hruns hhold hkind hover, Pkg.endHold]
  have hdue : (s.pkg.setSched { s.pkg.sched with hold := none }).dueSlip = none := hnext
  dsimp only
  rw [hdue]
  dsimp only
  rw [closeSave_none (show (s.pkg.setSched { s.pkg.sched with hold := none }).secure.hold = none from hsave)]

theorem slipHold_follows (s : State) (h x : Slip) (hruns : s.Runs .data) (hhold : s.pkg.sched.hold = some h) (hkind : h.kind ≠ .save)
    (hover : h.beat + h.len ≤ s.pkg.reg O.domainBeat) (hnext : s.pkg.dueSlip = some x) :
    ∃ t, exec .slipHoldEnd s = .next t ∧ t.pkg.sched.hold = some { x with beat := s.pkg.reg O.domainBeat } ∧
      t.pkg.sched.slips = s.pkg.sched.slips.erase x := by
  rw [exec_slipHoldEnd hruns hhold hkind hover, Pkg.endHold]
  have hdue : (s.pkg.setSched { s.pkg.sched with hold := none }).dueSlip = some x := hnext
  dsimp only
  rw [hdue]
  obtain ⟨hheld, hslips, -⟩ := startSlip_holds (s.pkg.setSched { s.pkg.sched with hold := none }) x
  exact ⟨_, rfl, hheld, hslips⟩

/-- Settles O21. -/
theorem beatsHoldsAndLateness : Obligations.BeatsHoldsAndLateness :=
  ⟨⟨beatBoundary_ticks, schedBeat_difference⟩, ⟨lateCase_noted, slipRequestRepeat_asks, slipRequest_joins, holdLimit_fails⟩,
    slipHold_starts, slipHold_ends, slipHold_follows⟩

end Sys2Proof.Machine

namespace Sys2Proof.Machine

-- Each proof waits for the one before it: elaborated side by side, they would hold a thread each.
set_option Elab.async false

/-! ## What is kept by everything the agents set going

Reads and writes by the agents (R266 to R280) run the directory, the cores, the set queues and the links. A property of the package that their few
ways to change it keep is kept by all of them. -/

/-- The objects of the memory side, the directory, the cores and the links, and the record of a refused write. -/
abbrev AgentObject (k : Nat) : Prop := 0x3D0000 ≤ k ∨ k = O.dictLastError ∨ k = O.dictLastAbort

/-- A package with the parts that the agents use as they stand in p's reset: what is left of p are the parts that they leave alone. -/
def Pkg.agentRest (p : Pkg) : Pkg :=
  { p with coh := Pkg.reset.coh, memsys := Pkg.reset.memsys, links := Pkg.reset.links, flits := [], out := [], ev := Pkg.reset.ev, free := 0 }

/-- A package with the parts that a core's accesses use as they stand at reset: what is left of p are the parts that they leave alone. -/
def Pkg.coreRest (p : Pkg) : Pkg :=
  { p with
    coh := { p.coh with
      l2 := Pkg.reset.coh.l2
      reserved := Pkg.reset.coh.reserved
      stores := Pkg.reset.coh.stores
      loads := Pkg.reset.coh.loads
      fencing := Pkg.reset.coh.fencing
      trap := Pkg.reset.coh.trap
      net := Pkg.reset.coh.net }
    out := []
    ev := Pkg.reset.ev }

theorem agentRest_of_coreRest {q r : Pkg} (h : r.coreRest = q.coreRest) : r.agentRest = q.agentRest := by
  have h' := congrArg Pkg.agentRest h
  exact h'

/-- r has the events and the outputs of q, and may have more after them. -/
structure Grown (q r : Pkg) : Prop where
  events : q.ev.inFlight <+: r.ev.inFlight
  out : q.out <+: r.out

theorem raise_grown (q : Pkg) (code unit arg : Nat) : Grown q (q.raise code unit arg) := ⟨List.prefix_append _ _, List.prefix_rfl⟩
theorem emit_grown (q : Pkg) (o : Out) : Grown q (q.emit o) := ⟨List.prefix_rfl, List.prefix_append _ _⟩

/-- R is kept by the ways in which a core's accesses change a package. -/
structure CoreClosed (R : Pkg → Prop) : Prop where
  core : ∀ {q r : Pkg}, R q → r.coreRest = q.coreRest → (hgrown : Grown q r := by exact ⟨List.prefix_rfl, List.prefix_rfl⟩) → R r
  reg : ∀ {q : Pkg} {k : Nat} (v : Nat), AgentObject k → R q → R (q.setReg k v)

/-- R is kept by the ways in which the agents change a package. -/
structure AgentClosed (R : Pkg → Prop) : Prop extends CoreClosed R where
  same : ∀ {q r : Pkg}, R q → r.agentRest = q.agentRest → (hgrown : Grown q r := by exact ⟨List.prefix_rfl, List.prefix_rfl⟩) → R r
  setWord : ∀ {q : Pkg} (a : Nat) (w : PWord), R q → R (q.setWord a w)
  core := fun h heq hgrown => same h (agentRest_of_coreRest heq) hgrown

namespace CoreClosed

section
variable {R : Pkg → Prop} {q : Pkg}

theorem ite {r : Pkg} {c : Prop} [Decidable c] (ht : R q) (he : R r) : R (if c then q else r) := by
  split
  · exact ht
  · exact he

/-- A fold whose every round keeps R of the package in its accumulator. -/
theorem foldl_of {α β : Type} {pkg : β → Pkg} {f : β → α → β} (hf : ∀ b a, R (pkg b) → R (pkg (f b a))) (l : List α) {b : β} (h : R (pkg b)) :
    R (pkg (l.foldl f b)) := foldl_invariant (fun b => R (pkg b)) hf l h

theorem foldl {α : Type} {f : Pkg → α → Pkg} (hf : ∀ q a, R q → R (f q a)) (l : List α) (h : R q) : R (l.foldl f q) := foldl_of (pkg := id) hf l h

variable (hR : CoreClosed R)
include hR

theorem setReg {k : Nat} (hk : AgentObject k) (v : Nat) (h : R q) : R (q.setReg k v) := hR.reg v hk h

/-- The objects of the memory side, the directory, the cores and the links, each with any number of entries. -/
theorem setRegAbove {a : Nat} (ha : 0x3D0000 ≤ a) (i v : Nat) (h : R q) : R (q.setReg (a + i) v) := hR.reg v (Or.inl (by omega)) h

theorem bumpAbove {a : Nat} (ha : 0x3D0000 ≤ a) (i n : Nat) (h : R q) : R (q.bump (a + i) n) := hR.setRegAbove ha i _ h

theorem raise (code unit arg : Nat) (h : R q) : R (q.raise code unit arg) := hR.core h rfl (raise_grown ..)

/-! ### Snoops and the cores (R260 to R262, R272) -/

theorem setL2 (c line : Nat) (x : Option L2Line) (h : R q) : R (q.setL2 c line x) := by
  cases x <;> exact hR.core h rfl

theorem l2Check (c line : Nat) (h : R q) : R (q.l2Check c line) := by
  refine foldl (fun r w hr => ?_) _ h
  split
  · exact hr
  · split
    · exact hr
    · exact hr
    · exact hR.bumpAbove (by decide) _ _ (hR.setL2 _ _ _ hr)
    · exact hR.raise _ _ _ (hR.bumpAbove (by decide) _ _ (hR.setL2 _ _ _ hr))

theorem request (r : Req) (h : R q) : R (q.request r) := hR.core h rfl

theorem storePiece (c line a : Nat) (l : List Byte) (h : R q) : R (q.storePiece c line a l) := by
  have hchecked := hR.l2Check c line h
  unfold Pkg.storePiece
  dsimp only
  split
  · exact hR.setL2 _ _ _ hchecked
  · exact hchecked

theorem askLine (c line : Nat) (kind : ReqKind) (h : R q) : R (q.askLine c line kind) :=
  ite h (hR.request _ h)

theorem trapCore (c : Nat) (x : CoreTrap) (h : R q) : R (q.trapCore c x) := hR.core h rfl

theorem endStore (c : Nat) (h : R q) : R (q.endStore c) := hR.core h rfl

theorem emit (o : Out) (h : R q) : R (q.emit o) := hR.core h rfl (emit_grown ..)

theorem runAmo (c a : Nat) (l : List Byte) (k : CoreStoreKind) (h : R q) : R (q.runAmo c a l k) := by
  have hchecked := hR.l2Check c (a / 64) h
  unfold Pkg.runAmo
  dsimp only
  split
  · exact ite (hR.emit _ (hR.endStore _ (hR.storePiece _ _ _ _ (hR.core hchecked rfl)))) (hR.emit _ (hR.endStore _ (hR.core hchecked rfl)))
  · split
    · exact hR.endStore _ (hR.trapCore _ _ hchecked)
    · exact hR.emit _ (hR.endStore _ (hR.storePiece _ _ _ _ hchecked))

theorem runStore (n c a : Nat) (l : List Byte) (kind : CoreStoreKind) (h : R q) :
    R (Pkg.runStore n c a l kind q) := by
  induction n generalizing q a l with
  | zero => exact h
  | succ n ih =>
    unfold Pkg.runStore
    refine ite (hR.endStore _ h) ?_
    dsimp only
    split
    · exact hR.askLine _ _ _ (hR.core h rfl)
    · exact ite (ih _ _ (hR.storePiece _ _ _ _ h)) (hR.runAmo _ _ _ _ h)
    · exact hR.askLine _ _ _ (hR.core h rfl)

theorem runLoad (c a n : Nat) (lr : Bool) (h : R q) : R (q.runLoad c a n lr) := by
  unfold Pkg.runLoad
  extract_lets lines
  split
  · exact hR.askLine _ _ _ (hR.core h rfl)
  · have hchecked := foldl (f := fun r l => r.l2Check c l) (fun _ _ hr => hR.l2Check _ _ hr) lines h
    exact ite (hR.trapCore _ _ hchecked) (hR.emit _ (hR.core hchecked rfl))

theorem resumeCore (c line : Nat) (h : R q) : R (q.resumeCore c line) := by
  unfold Pkg.resumeCore
  extract_lets stored
  have hstored : R stored := by
    dsimp only [stored]
    split
    · exact ite (hR.runStore _ _ _ _ _ h) h
    · exact h
  split
  · exact ite (hR.runLoad _ _ _ _ hstored) hstored
  · exact hstored

end

end CoreClosed

namespace AgentClosed

open CoreClosed

section
variable {R : Pkg → Prop} {q : Pkg} (hR : AgentClosed R)
include hR

theorem pushFlit (f : MeshFlit) (h : R q) : R (q.pushFlit f) := hR.same h rfl

theorem refuse (pt : Path) (k abort : Nat) (h : R q) : R (q.refuse pt k abort) := by
  have hq : R ((q.setReg O.dictLastError (pt.num * 2 ^ 30 + k)).setReg O.dictLastAbort abort) :=
    hR.setReg (by decide) _ (hR.setReg (by decide) _ h)
  cases pt with
  | hostBar => exact hR.raise _ _ _ hq
  | core => exact hR.raise _ _ _ hq
  | canFd => exact hR.emit _ (hR.raise _ _ _ hq)

/-! ### Words of memory and of tile SRAM (R245 to R253) -/

theorem addCandidate (x : Place) (h : R q) : R (q.addCandidate x) :=
  ite h (ite (hR.bumpAbove (by decide) _ _ h) (hR.raise _ _ _ (hR.setRegAbove (by decide) _ _ (hR.same h rfl))))

theorem bump_corrKey (x : Place) (n : Nat) (h : R q) : R (q.bump (corrKey x) n) := by
  unfold corrKey
  split
  · exact hR.bumpAbove (by decide) _ _ h
  · exact hR.bumpAbove (by decide) _ _ h

theorem bump_uncorrKey (x : Place) (n : Nat) (h : R q) : R (q.bump (uncorrKey x) n) := by
  unfold uncorrKey
  split
  · exact hR.bumpAbove (by decide) _ _ h
  · exact hR.bumpAbove (by decide) _ _ h

theorem countCorrection (x : Place) (sym : Nat) (h : R q) : R (q.countCorrection x sym) := by
  unfold Pkg.countCorrection
  extract_lets counted _ seen n _ _ _ _ sideband m _ row
  have hcounted : R counted := hR.bump_corrKey x 1 h
  have hseen : R seen := ite hcounted (hR.raise _ _ _ (hR.same hcounted rfl))
  have hbumped := hR.bumpAbove (a := O.sidebandCorrected) (by decide) x.unit 1 hseen
  have hsideband : R sideband := ite hseen (ite (hR.raise _ _ _ (hR.same hbumped rfl)) (hR.same hbumped rfl))
  have hrow : R row := hR.same hsideband rfl
  exact ite (hR.addCandidate x hrow) hrow

theorem countUncorrectable (a : Nat) (w : PWord) (h : R q) : R (q.countUncorrectable a w) :=
  hR.addCandidate _ (hR.raise _ _ _ (hR.setReg (by decide) _ (hR.setReg (by decide) _ (hR.bump_uncorrKey _ 1 h))))

theorem memCheck (a : Nat) (h : R q) : R (q.memCheck a).2 := by
  unfold Pkg.memCheck
  dsimp only
  split
  · exact h
  · exact hR.bumpAbove (by decide) _ _ h
  · exact hR.countCorrection _ _ h
  · exact hR.countUncorrectable _ _ h

theorem memRead (a : Nat) (h : R q) : R (q.memRead a).2 := by
  have hr := hR.memCheck a h
  unfold Pkg.memRead
  dsimp only
  split
  · exact ite hr (hR.same hr rfl)
  · exact hr

theorem memWrite (a : Nat) (v : Option W128) (h : R q) : R (q.memWrite a v) := by
  cases v with
  | some d => exact hR.setWord _ _ h
  | none => exact hR.bumpAbove (by decide) _ _ (hR.setWord _ _ h)

theorem memMerge (a : Nat) (mask : List Bool) (v : Option W128) (h : R q) : R (q.memMerge a mask v) := by
  refine ite (hR.memWrite a v h) (ite ?_ h)
  cases v with
  | none => exact hR.memWrite a none h
  | some n =>
    have hr := hR.memCheck a h
    dsimp only
    split
    · rename_i hread
      rw [hread] at hr
      exact hR.memWrite _ _ hr
    · rename_i hread
      rw [hread] at hr
      exact hR.raise _ _ _ (hR.memWrite _ _ hr)

theorem sramMerge (a : Nat) (mask : List Bool) (v : Option W128) (h : R q) : R (q.sramMerge a mask v) := by
  refine ite (hR.setWord _ _ h) (ite ?_ h)
  split
  · exact hR.setWord _ _ h
  · exact hR.setWord _ _ h

theorem refusePoison (a : Nat) (h : R q) : R (q.refusePoison a) :=
  hR.refuse .core ((a - controlBase) / 0x400 * 256 + (a - controlBase) % 0x400 / 4) abRange h

theorem anyRead (a : Nat) (h : R q) : R (q.anyRead a).2 := by
  unfold Pkg.anyRead
  split
  · exact hR.memRead a h
  · exact hR.memRead a h
  · exact h
  · exact h
  · exact h
  · exact hR.raise _ _ _ h

theorem anyMerge (a : Nat) (mask : List Bool) (v : Option W128) (h : R q) : R (q.anyMerge a mask v) := by
  unfold Pkg.anyMerge
  split
  · exact hR.memMerge a mask v h
  · exact hR.memMerge a mask v h
  · exact hR.sramMerge a mask v h
  · exact hR.raise _ _ _ h
  · exact ite (hR.refusePoison a h) h
  · exact hR.raise _ _ _ h

/-! ### Links (R299 to R303) and live protection (R339 to R341) -/

theorem setPartner (id : Nat) (x : Partner) (h : R q) : R (q.setPartner id x) :=
  ite (hR.same h rfl) (hR.setReg (by decide) _ (hR.same h rfl))

theorem queueFlit (port : Nat) (f : LinkFlit) (h : R q) : R (q.queueFlit port f) := hR.same h rfl

theorem originate (cls dst target : Nat) (payload : List Byte) (poison : List Bool) (win : Nat) (h : R q) :
    R (q.originate cls dst target payload poison win) := by
  unfold Pkg.originate
  split
  · exact hR.raise _ _ _ h
  · exact hR.queueFlit _ _ (hR.setPartner _ _ h)

theorem sendLine (pos region kind offset : Nat) (ws : List (Option W128)) (h : R q) :
    R (q.sendLine pos region kind offset ws) := by
  unfold Pkg.sendLine
  split
  · exact h
  · exact hR.originate _ _ _ _ _ _ (hR.originate _ _ _ _ _ _ h)

theorem track (line : Nat) (old : List PWord) (h : R q) : R (q.track line old) := by
  unfold Pkg.track
  split
  · exact h
  · dsimp only
    split
    · exact ite (hR.sendLine _ _ _ _ _ h) (hR.sendLine _ _ _ _ _ h)
    · exact h

theorem writeLine (line : Nat) (mask : List Bool) (data : List (Option W128)) (h : R q) :
    R (q.writeLine line mask data) :=
  hR.track _ _ (foldl (fun _ _ hq => hR.memMerge _ _ _ hq) _ h)

/-! ### The directory and its requesters (R263 to R265, R268) -/

theorem setDir (key : Nat) (w : PWord) (h : R q) : R (q.setDir key w) := hR.same h rfl

theorem setEvb (c line : Nat) (x : Option L2Line) (h : R q) : R (q.setEvb c line x) := hR.same h rfl

theorem setEntry (line st sharers : Nat) (h : R q) : R (q.setEntry line st sharers) := by
  unfold Pkg.setEntry
  dsimp only
  split
  · exact h
  · exact hR.setDir _ _ h

theorem setBusy (b : Busy) (h : R q) : R (q.setBusy b) := hR.same h rfl

theorem freeLine (line : Nat) (h : R q) : R (q.freeLine line) := hR.same h rfl

theorem enqueue (o : MemOp) (h : R q) : R (q.enqueue o) := hR.same h rfl

theorem markFilled (tag : Tag) (line : Nat) (h : R q) : R (q.markFilled tag line) := by
  unfold Pkg.markFilled
  split
  · exact ite (hR.setBusy _ h) h
  · exact h

theorem tileReply (tag : Tag) (line : Nat) (data : List (Option W128)) (h : R q) :
    R (q.tileReply tag line data) := by
  cases tag with
  | xget t off win id => exact ite (hR.pushFlit _ h) (ite (hR.pushFlit _ (hR.same h rfl)) (hR.same h rfl))
  | xput t win id => exact ite (hR.pushFlit _ h) (ite (hR.pushFlit _ (hR.same h rfl)) (hR.same h rfl))
  | _ => exact h

theorem deliver (tag : Tag) (line : Nat) (data : Option (List (Option W128))) (h : R q) :
    R (q.deliver tag line data) := by
  cases tag with
  | core c => exact hR.same h rfl
  | _ => exact hR.markFilled _ _ (hR.tileReply _ _ _ h)

/-! ### The set queues (R245, R249, R251) -/

theorem readLine (line : Nat) (mask : List Bool) (h : R q) : R (q.readLine line mask).2 := by
  refine foldl_of (pkg := Prod.snd) (fun acc w hacc => ?_) _ h
  split
  · exact hR.memRead _ hacc
  · exact hacc

theorem serveOp (o : MemOp) (h : R q) : R (q.serveOp o) := by
  cases o with
  | read line mask tag => exact hR.deliver _ _ _ (hR.readLine _ _ h)
  | write line mask data => exact hR.writeLine _ _ _ h
  | correct word w => exact hR.setWord _ _ h

theorem serveAt (i : Nat) (h : R q) : R (q.serveAt i) := by
  unfold Pkg.serveAt
  split
  · exact h
  · exact hR.serveOp _ (hR.same h rfl)

theorem drainSet (n set : Nat) (h : R q) : R (Pkg.drainSet n set q) := by
  induction n generalizing q with
  | zero => exact h
  | succ n ih =>
    unfold Pkg.drainSet
    split
    · exact h
    · exact ih (hR.serveAt _ h)

theorem drainLine (line : Nat) (h : R q) : R (q.drainLine line) := hR.drainSet _ _ h

theorem poisonMem (line : Nat) (h : R q) : R (q.poisonMem line) := hR.writeLine _ _ _ (hR.drainLine _ h)

theorem dirFail (key : Nat) (h : R q) : R (q.dirFail key) :=
  hR.raise _ _ _ (hR.bumpAbove (by decide) _ _ (hR.setDir _ _ (hR.poisonMem _ (foldl (fun _ _ hq => hR.setL2 _ _ _ hq) _ h))))

theorem dirCheck (set : Nat) (h : R q) : R (q.dirCheck set) := by
  refine foldl (fun r w hr => ?_) _ h
  dsimp only
  split
  · exact hR.dirFail _ hr
  · split
    · exact hR.same (hR.bumpAbove (a := O.dirCorrected) (by decide) (set / 65536) 1 (hR.setDir _ _ hr)) rfl
    · exact hr

/-! ### Snoops (R272) -/

theorem snoopCore (c line : Nat) (k : SnoopKind) (h : R q) : R (snoopCore q c line k).1 := by
  unfold Sys2Proof.Machine.snoopCore
  extract_lets checked
  have hchecked : R checked := ite h (hR.l2Check c line h)
  split
  · split <;> dsimp only
    · exact hR.setL2 _ _ _ hchecked
    · exact hR.setL2 _ _ _ hchecked
    · exact hR.setL2 _ _ _ hchecked
    · exact hR.setL2 _ _ _ hchecked
    · exact hchecked
  · split
    · exact hchecked
    · cases k <;> exact hchecked

theorem coreAnswer (c line : Nat) (k : SnoopKind) (h : R q) : R (q.coreAnswer c line k) := by
  unfold Pkg.coreAnswer
  split
  · exact h
  · split
    · exact h
    · exact hR.same (hR.snoopCore c line k h) rfl

theorem freeEvb (c line : Nat) (h : R q) : R (q.freeEvb c line) := hR.resumeCore c line (hR.same h rfl)

theorem replaceLine (c line : Nat) (h : R q) : R (q.replaceLine c line) := by
  have hchecked := hR.l2Check c line h
  unfold Pkg.replaceLine
  dsimp only
  split
  · exact hchecked
  · exact hR.request _ (hR.setEvb _ _ _ (hR.setL2 _ _ _ hchecked))

theorem makeRoom (c line : Nat) (h : R q) : R (q.makeRoom c line) := by
  unfold Pkg.makeRoom
  extract_lets held free
  refine ite h (hR.replaceLine _ _ ?_)
  exact hR.same h rfl

theorem fillCore (c line : Nat) (h : R q) : R (q.fillCore c line) := by
  unfold Pkg.fillCore
  split
  · exact h
  · split
    · exact h
    · exact hR.resumeCore _ _ (hR.markFilled _ _ (hR.setL2 _ _ _ (hR.makeRoom _ _ (hR.same h rfl))))

/-! ### The home (R268 to R271) -/

theorem queueWrite (r : Req) (mask : List Bool) (data : List PWord) (h : R q) : R (q.queueWrite r mask data) :=
  hR.enqueue _ h

theorem writeBack (line : Nat) (d : List PWord) (h : R q) : R (q.writeBack line d) :=
  ite (hR.raise _ _ _ h) (hR.enqueue _ h)

theorem homeFinish (b : Busy) (h : R q) : R (q.homeFinish b) := by
  have hb := hR.setBusy b h
  unfold Pkg.homeFinish
  dsimp only
  split
  · split
    · exact hR.deliver _ _ _ (ite (hR.writeBack _ _ hb) hb)
    · exact hR.enqueue _ hb
  · exact hR.enqueue _ hb
  · exact hR.deliver _ _ _ hb
  · split
    · exact hR.deliver _ _ _ hb
    · exact hR.enqueue _ hb
  · exact ite (hR.freeLine _ hb) (hR.deliver _ _ _ (hR.queueWrite _ _ _ hb))
  · refine ite (hR.freeLine _ ?_) (hR.deliver _ _ _ (hR.queueWrite _ _ _ hb))
    split
    · exact ite (hR.writeBack _ _ hb) hb
    · exact hb
  · refine hR.deliver _ _ _ ?_
    split
    · exact ite (hR.writeBack _ _ hb) (hR.queueWrite _ _ _ hb)
    · exact hR.queueWrite _ _ _ hb
  · split
    · exact hR.deliver _ _ _ hb
    · exact hR.enqueue _ hb

theorem homeAnswer (c line : Nat) (h : R q) : R (q.homeAnswer c line) := by
  unfold Pkg.homeAnswer
  split
  · exact h
  · split
    · exact h
    · extract_lets _ answered
      have hanswered : R answered := hR.same h rfl
      split
      · exact hR.raise _ _ _ hanswered
      · exact ite (hR.raise _ _ _ hanswered) (ite (hR.homeFinish _ hanswered) (hR.setBusy _ hanswered))

theorem homeServe (r : Req) (e : DirEnt) (row : Nat) (h : R q) : R (q.homeServe r e row) := by
  unfold Pkg.homeServe
  extract_lets next entered
  have hentered : R entered := ite h (hR.setEntry _ _ _ h)
  split
  · exact hR.writeBack _ _ (hR.freeEvb _ _ hentered)
  · exact hR.freeEvb _ _ hentered
  · exact hR.freeEvb _ _ hentered
  · exact hR.freeEvb _ _ hentered
  · exact ite hentered (hR.deliver _ _ _ (hR.queueWrite _ _ _ hentered))
  · rename_i snoops _ snooped b noted _ _ _ _ _ _
    have hnoted : R noted := ite (hR.raise _ _ _ (hR.same hentered rfl)) (hR.same hentered rfl)
    have hb := hR.setBusy b hnoted
    refine ite ?_ hb
    split
    · exact ite (hR.deliver _ _ _ hb) (hR.enqueue _ hb)
    · exact hR.enqueue _ hb
    · exact hR.enqueue _ hb
    · exact hR.homeFinish _ hnoted
    · exact hR.homeFinish _ hnoted
    · exact hR.homeFinish _ hnoted
    · exact hR.homeFinish _ hnoted
    · exact hR.enqueue _ hb

theorem unqueue (r : Req) (h : R q) : R (q.unqueue r) := hR.same h rfl

theorem askRecall (line : Nat) (h : R q) : R (q.askRecall line) :=
  ite h (by
    dsimp only
    refine hR.bumpAbove (by decide) _ _ ?_
    exact hR.same h rfl)

theorem arbitrate (line : Nat) (k : ReqKind) (victim : Bool) (h : R q) : R (q.arbitrate line k victim) := by
  unfold Pkg.arbitrate
  refine ite h ?_
  split
  · exact h
  · rename_i r step2 n _
    refine ite h ?_
    extract_lets checked e row slice taken pointed counted
    have hchecked : R checked := hR.dirCheck _ h
    have htaken : R taken := hR.unqueue _ hchecked
    have hpointed : R pointed := ite (hR.setRegAbove (by decide) _ _ htaken) htaken
    have hcounted : R counted := ite (hR.bumpAbove (by decide) _ _ hpointed) hpointed
    exact ite hchecked (ite (hR.askRecall _ hchecked) (hR.homeServe _ _ _ hcounted))

theorem ackLine (r line : Nat) (h : R q) : R (q.ackLine r line) := by
  unfold Pkg.ackLine
  split
  · exact ite (hR.freeLine _ h) h
  · exact h

theorem finishLine (n line : Nat) (h : R q) : R (Pkg.finishLine n line q) := by
  induction n generalizing q with
  | zero => exact h
  | succ n ih =>
    unfold Pkg.finishLine
    split
    · exact h
    · extract_lets answered drained filled
      have hanswered : R answered :=
        foldl (fun _ _ hr => ite (hR.homeAnswer _ _ (ite hr (hR.coreAnswer _ _ _ hr))) hr) _ h
      have hdrained : R drained := hR.drainLine _ hanswered
      have hfilled : R filled := by
        dsimp only [filled]
        split
        · exact hR.fillCore _ _ hdrained
        · exact hdrained
      exact ih (hR.ackLine _ _ hfilled)

/-! ### A sweep (R280) -/

theorem sweepEntry (mask key : Nat) (h : R q) : R (q.sweepEntry mask key) := by
  unfold Pkg.sweepEntry
  dsimp only
  split
  · exact hR.dirFail _ h
  · exact ite h (ite (hR.raise _ _ _ (hR.bumpAbove (by decide) _ _ (hR.setDir _ _ (hR.poisonMem _ h)))) (hR.setDir _ _ h))

theorem moveWay (slice : Nat) (h : R q) : R (q.moveWay slice) := ite h (hR.raise _ _ _ (hR.same h rfl))

theorem endSweep (h : R q) : R q.endSweep := by
  unfold Pkg.endSweep
  extract_lets mask swept moved
  have hswept : R swept := foldl (fun _ _ hr => hR.sweepEntry _ _ hr) _ h
  have hmoved : R moved := foldl (fun _ _ hr => hR.moveWay _ hr) _ hswept
  clear_value moved
  exact ite h (hR.setReg (by decide) _ (hR.same hmoved rfl))

/-! ### Reads and writes by the agents (R266 to R271) -/

theorem runRecall (line : Nat) (h : R q) : R (q.runRecall line) := by
  unfold Pkg.runRecall
  dsimp only
  split
  · exact hR.finishLine _ _ (hR.arbitrate _ _ _ (hR.finishLine _ _ h))
  · split
    · exact hR.finishLine _ _ h
    · exact h

theorem serveWaiting (n line : Nat) (h : R q) : R (Pkg.serveWaiting n line q) := by
  induction n generalizing q with
  | zero => exact h
  | succ n ih =>
    have hfinished := hR.finishLine 4 line h
    unfold Pkg.serveWaiting
    dsimp only
    split
    · exact hfinished
    · rename_i r _ _
      have harbitrated := hR.arbitrate line r.kind (decide (r.tag = .victim)) hfinished
      exact ih (ite (hR.runRecall _ harbitrated) harbitrated)

theorem agentTurn (r line : Nat) (h : R q) : R (q.agentTurn r line) := by
  have hchecked := hR.dirCheck (dirSet line) (hR.endSweep h)
  exact ite hchecked (hR.setRegAbove (by decide) _ _ (hR.dirCheck _ (hR.serveWaiting _ _ hchecked)))

theorem cohRead (r line : Nat) (mask : List Bool) (h : R q) : R (q.cohRead r line mask).2 := by
  have hturn := hR.agentTurn r line h
  unfold Pkg.cohRead
  dsimp only
  split
  · rename_i held
    split at held
    · rename_i o _
      have ho := hR.snoopCore o line .snpRd hturn
      split at held
      · simp only [Option.some.injEq] at held
        rw [held] at ho
        exact ho
      · cases held
    · cases held
  · exact hR.readLine _ _ (hR.drainLine _ hturn)

theorem cohWrite (r line : Nat) (mask : List Bool) (data : List (Option W128)) (h : R q) :
    R (q.cohWrite r line mask data) := by
  refine ite (hR.raise _ _ _ h) ?_
  extract_lets turned e snooped freed drained
  have hturned : R turned := hR.agentTurn _ _ h
  clear_value turned
  have hsnooped : R snooped.1 := by
    refine foldl_of (pkg := Prod.fst) (fun acc c hacc => ?_) _ hturned
    exact hR.snoopCore c line _ hacc
  clear_value snooped
  have hfreed : R freed := ite hsnooped (hR.setEntry _ _ _ hsnooped)
  clear_value freed
  have hdrained : R drained := hR.drainLine _ hfreed
  clear_value drained
  split
  · exact ite (hR.raise _ _ _ hdrained) (hR.writeLine _ _ _ hdrained)
  · exact hR.writeLine _ _ _ hdrained

theorem agentRead (r a n : Nat) (h : R q) : R (q.agentRead r a n).2 := by
  refine foldl_of (pkg := Prod.snd) (fun acc i hacc => ?_) _ h
  dsimp only
  split
  · exact hR.cohRead _ _ _ hacc
  · exact hR.anyRead _ hacc

theorem agentBytes (r a n : Nat) (h : R q) : R (q.agentBytes r a n).2 := hR.agentRead r a n h

theorem agentWrite (r a : Nat) (l : List Byte) (h : R q) : R (q.agentWrite r a l) :=
  foldl (fun _ _ hr => ite (hR.cohWrite _ _ _ _ hr) (foldl (fun _ _ hw => hR.anyMerge _ _ _ hw) _ hr)) _ h

theorem agentWriteWords (r a : Nat) (l : List (Option W128)) (h : R q) : R (q.agentWriteWords r a l) :=
  foldl (fun _ _ hr => ite (hR.cohWrite _ _ _ _ hr) (foldl (fun _ _ hw => ite (hR.anyMerge _ _ _ hw) hw) _ hr)) _ h

end

end AgentClosed

/-! ### Memory's form, and the parts that no agent reaches -/

theorem memoryWf_agentClosed : AgentClosed fun q => Memory.wf q.mem = true where
  same h hr _ := by
    have hmem := congrArg Pkg.mem hr
    exact (congrArg Memory.wf hmem).trans h
  reg _ _ h := h
  setWord a w h := setWord_wf _ a w h

/-- The parts of a package that no agent reaches, the dictionary aside. -/
def Pkg.agentOutside (p : Pkg) : Pkg :=
  { p.agentRest with dict := Pkg.reset.dict, mem := [], eccPins := [], checkBytes := [], sramChk := [] }

/-- q has every object but those of the memory side, and every part that no agent reaches, from p. -/
structure AgentKept (p q : Pkg) : Prop where
  outside : q.agentOutside = p.agentOutside
  reg : ∀ k, ¬ AgentObject k → q.reg k = p.reg k

theorem agentKept_closed (p : Pkg) : AgentClosed (AgentKept p) where
  same {q r} h hr _ := by
    have hout := congrArg Pkg.agentOutside hr
    have hdict : r.dict = q.dict := by have h' := congrArg Pkg.dict hr; exact h'
    exact ⟨hout.trans h.outside, fun k hk => (reg_of_dict hdict k).trans (h.reg k hk)⟩
  reg {q k} v hk h := ⟨h.outside, fun j hj => (reg_setReg_other q j k v fun hjk => hj (hjk ▸ hk)).trans (h.reg j hj)⟩
  setWord {q} a w h := by
    refine ⟨?_, fun k hk => (reg_of_dict (setWord_dict q a w) k).trans (h.reg k hk)⟩
    rw [← h.outside]
    unfold Pkg.setWord Pkg.setCheck
    dsimp only
    split <;> rfl

namespace AgentKept

variable {p q : Pkg}

theorem refl (p : Pkg) : AgentKept p p := ⟨rfl, fun _ _ => rfl⟩

theorem tiles (h : AgentKept p q) : q.tiles = p.tiles := by have h' := congrArg Pkg.tiles h.outside; exact h'
theorem loader (h : AgentKept p q) : q.loader = p.loader := by have h' := congrArg Pkg.loader h.outside; exact h'
theorem sched (h : AgentKept p q) : q.sched = p.sched := by have h' := congrArg Pkg.sched h.outside; exact h'
theorem stepc (h : AgentKept p q) : q.stepc = p.stepc := by have h' := congrArg Pkg.stepc h.outside; exact h'
theorem secure (h : AgentKept p q) : q.secure = p.secure := by have h' := congrArg Pkg.secure h.outside; exact h'
theorem host (h : AgentKept p q) : q.host = p.host := by have h' := congrArg Pkg.host h.outside; exact h'
theorem ledger (h : AgentKept p q) : q.ledger = p.ledger := by have h' := congrArg Pkg.ledger h.outside; exact h'
theorem tiers (h : AgentKept p q) : q.tiers = p.tiers := by have h' := congrArg Pkg.tiers h.outside; exact h'
theorem engines (h : AgentKept p q) : q.engines = p.engines := by have h' := congrArg Pkg.engines h.outside; exact h'
theorem failed (h : AgentKept p q) : q.failed = p.failed := by have h' := congrArg Pkg.failed h.outside; exact h'

end AgentKept

end Sys2Proof.Machine

namespace Sys2Proof.Machine

/-! ## The schedule loader (R154 to R158) -/

section
variable (p : Pkg) (n : Nat)

/-- A state of the image changes the dictionary only. -/
theorem setImageState_eq : ∃ d, p.setImageState n = { p with dict := d } := by
  obtain ⟨d, h⟩ := setErrBit_changes_dict (p.setReg O.imageState n) 0 ((p.setReg O.imageState n).failed ||
    decide ((p.setReg O.imageState n).reg O.imageState = 5) || (p.setReg O.imageState n).supply.supplyFault || (p.setReg O.imageState n).supply.tripped ||
    ((p.setReg O.imageState n).boot.resetWait && decide ((p.setReg O.imageState n).reg O.resetCause % 64 / 2 ≠ 0)))
  exact ⟨d, h⟩

@[simp] theorem fixFault_reg_other (k : Nat) (hk : k ≠ O.errorRegister) : p.fixFault.reg k = p.reg k := setErrBit_reg_other p 0 _ k hk

@[simp] theorem setImageState_reg_self : (p.setImageState n).reg O.imageState = n := by
  rw [Pkg.setImageState, fixFault_reg_other _ _ (by decide), reg_setReg_self]

theorem setImageState_reg_other (k : Nat) (hk : k ≠ O.errorRegister) (hs : k ≠ O.imageState) : (p.setImageState n).reg k = p.reg k := by
  rw [Pkg.setImageState, fixFault_reg_other _ _ hk, reg_setReg_other _ _ _ _ hs]

@[simp] theorem setImageState_loader : (p.setImageState n).loader = p.loader := by
  obtain ⟨d, h⟩ := setImageState_eq p n
  rw [h]

@[simp] theorem setImageState_sched : (p.setImageState n).sched = p.sched := by
  obtain ⟨d, h⟩ := setImageState_eq p n
  rw [h]

@[simp] theorem setImageState_stepc : (p.setImageState n).stepc = p.stepc := by
  obtain ⟨d, h⟩ := setImageState_eq p n
  rw [h]

@[simp] theorem setImageState_mem : (p.setImageState n).mem = p.mem := by
  obtain ⟨d, h⟩ := setImageState_eq p n
  rw [h]

@[simp] theorem setImageState_tiles : (p.setImageState n).tiles = p.tiles := by
  obtain ⟨d, h⟩ := setImageState_eq p n
  rw [h]

end

section
variable {s : State} {r : LoadReq} {p : Pkg}

theorem loaderOwner_takes (s : State) (w : Writer) (v : Nat) (hruns : s.Runs (writerPlane w)) (hv : v ≤ 3)
    (hfree : s.pkg.reg O.loaderOwner = 0 ∨ v = 0) : Does (.loaderOwnerWrite w v) s (s.pkg.setReg O.loaderOwner v) := by
  have hexec : exec (.loaderOwnerWrite w v) s = execLoaderOwnerWrite w v s := rfl
  rw [Does, hexec, execLoaderOwnerWrite, on_runs s _ _ hruns, if_neg (by omega), ownerWrite_accepted _ _ _ _ _ _ hfree]

/-- A load that passed its checks is under way. -/
theorem beginLoad_begins (q : Pkg) (r : LoadReq) (x : Image × Nat × List Tile) :
    (q.beginLoad r x).reg O.imageState = 1 ∧ (q.beginLoad r x).loader.loading = some ⟨r, x.1, x.2.1, x.2.2⟩ := by
  rw [Pkg.beginLoad]
  exact ⟨setImageState_reg_self _ _, by rw [setImageState_loader]⟩

/-- A rejected image leaves its reason, and is counted (R156). -/
theorem rejectImage_records (q : Pkg) (e : Reject) : (q.rejectImage e).reg O.lastRejectReason = e.reason ∧
    (q.rejectImage e).reg O.loadRejects = min (q.reg O.loadRejects + 1) (2 ^ 32 - 1) := by
  have hreg : ∀ k, (q.rejectImage e).reg k = ((q.bump O.loadRejects 1).setReg O.lastRejectReason e.reason).reg k := by
    intro k
    rw [Pkg.rejectImage]
    split <;> rfl
  rw [hreg, hreg]
  exact ⟨reg_setReg_self .., (reg_setReg_other _ _ _ _ (by decide)).trans (reg_setReg_self ..)⟩

theorem load_answers (s : State) (r : LoadReq) (p : Pkg) (hruns : s.Runs .control) (hhead : s.pkg.headRequest .load = some (r, p))
    (hloading : p.reg O.imageState ≠ 1) (hrunning : p.reg O.imageState ≠ 4) :
    ∃ t, exec .load s = .next t ∧
      (∀ x q, p.loadCheck r none = (.ok x, q) → t = s.settle (q.beginLoad r x) ∧ t.pkg.reg O.imageState = 1 ∧
        t.pkg.loader.loading = some ⟨r, x.1, x.2.1, x.2.2⟩) ∧
      (∀ e q, p.loadCheck r none = (.error e, q) → t = s.settle ((q.rejectImage e).endRequest r 5 e.reason) ∧
        (q.rejectImage e).reg O.lastRejectReason = e.reason ∧
        (q.rejectImage e).reg O.loadRejects = min (q.reg O.loadRejects + 1) (2 ^ 32 - 1)) := by
  have hexec : exec .load s = execLoad s := rfl
  rw [hexec, execLoad, on_runs s _ _ hruns, hhead]
  dsimp only
  rw [if_neg (not_or.mpr ⟨hloading, hrunning⟩)]
  obtain ⟨outcome, q⟩ := p.loadCheck r none
  cases outcome with
  | ok x =>
    refine ⟨_, rfl, fun x' q' h => ?_, fun e q' h => ?_⟩
    · cases h
      obtain ⟨hstate, hload⟩ := beginLoad_begins q r x
      exact ⟨rfl, hstate, hload⟩
    · cases h
  | error e =>
    refine ⟨_, rfl, fun x q' h => ?_, fun e' q' h => ?_⟩
    · cases h
    · cases h
      exact ⟨rfl, rejectImage_records q e⟩

theorem foldl_setReg_loader {α : Type} (l : List α) (f : α → Nat × Nat) (p : Pkg) :
    (l.foldl (fun p e => p.setReg (f e).1 (f e).2) p).loader = p.loader := by
  refine foldl_invariant (fun q : Pkg => q.loader = p.loader) (fun q e h => ?_) l rfl
  exact h

theorem placeImage_loader (p : Pkg) (i : Image) (pos : Nat) : (p.placeImage i pos).loader = p.loader := by
  have hkept := (agentKept_closed p).agentWrite ioA i.aScaleBase i.aScaleInit ((agentKept_closed p).agentWrite ioA i.scaleBase i.scaleInit (.refl p))
  rw [Pkg.placeImage]
  exact (foldl_setReg_loader _ id _).trans hkept.loader

theorem installImage_image (p : Pkg) (x : Loading) : (p.installImage x).loader.image = some x.img := by
  obtain ⟨q, heq, himage⟩ : ∃ q : Pkg, p.installImage x = (q.placeImage x.img x.pos).setReg O.imageVariant x.req.variant ∧
    q.loader.image = some x.img := ⟨_, rfl, rfl⟩
  rw [heq]
  exact (congrArg Loader.image (placeImage_loader q x.img x.pos)).trans himage

theorem loadComplete_installs (s : State) (x : Loading) (hruns : s.Runs .control) (hload : s.pkg.loader.loading = some x) :
    Does .loadComplete s ((((s.pkg.installImage x).setImageState (if x.pos = 0xFFFF then 3 else 2)).raise 0x3801 noUnit 0).endRequest x.req 0 0) ∧
      ((s.pkg.installImage x).setImageState (if x.pos = 0xFFFF then 3 else 2)).reg O.imageState = (if x.pos = 0xFFFF then 3 else 2) ∧
      ((s.pkg.installImage x).setImageState (if x.pos = 0xFFFF then 3 else 2)).loader.image = some x.img := by
  have hexec : exec .loadComplete s = execLoadComplete s := rfl
  refine ⟨?_, setImageState_reg_self _ _, ?_⟩
  · rw [Does, hexec, execLoadComplete, on_runs s _ _ hruns, hload]
  · rw [setImageState_loader, installImage_image]

/-! ### UNLOAD -/

/-- The parts that an unload leaves, the dictionary aside. -/
theorem unloadImage_eq (p : Pkg) : ∃ q : Pkg, p.unloadImage = (((imageRegs.foldl (fun p k => p.setReg k 0) q).setReg O.logicalPosition 0xFFFF).setReg
      O.timeParentPort 0xFF).setImageState 0 ∧ q.loader = { p.loader with image := none, loading := none } ∧
    q.tiles = p.tiles.mapVals Tile.reset fun x => { x with
      md := [], vd := [], pd := [], xd := [], xptr := [], store := [], clauses := [], nBundles := 0, win := [], seq := Seqr.reset } := ⟨_, rfl, rfl, rfl⟩

theorem foldl_setReg_tiles (l : List Nat) (p : Pkg) : (l.foldl (fun p k => p.setReg k 0) p).tiles = p.tiles := by
  refine foldl_invariant (fun q : Pkg => q.tiles = p.tiles) (fun q e h => ?_) l rfl
  exact h

/-- What the default and every mapped value have, every value of the mapped store has. -/
theorem at_mapVals {α : Type} [DecidableEq α] {d : α} {f : α → α} (P : α → Prop) (hd : P d) (hf : ∀ x, P (f x)) (k : Nat) (m : SMap α) :
    P (SMap.at d k (SMap.mapVals d f m)) := by
  induction m with
  | nil => exact hd
  | cons e m ih =>
    rw [SMap.mapVals, List.map_cons, List.filter_cons]
    split
    · rw [SMap.at]
      split
      · exact hf _
      · exact ih
    · exact ih

theorem unloadImage_discards (p : Pkg) : p.unloadImage.reg O.imageState = 0 ∧ p.unloadImage.reg O.logicalPosition = 0xFFFF ∧
    p.unloadImage.loader.image = none ∧
    ∀ n, SMap.wf Tile.reset p.tiles = true → (p.unloadImage.tile n).store = [] ∧ (p.unloadImage.tile n).md = [] ∧ (p.unloadImage.tile n).win = [] := by
  obtain ⟨q, heq, hloader, htiles⟩ := unloadImage_eq p
  rw [heq]
  have hloader' := foldl_setReg_loader imageRegs (fun k => (k, 0)) q
  have htiles' := foldl_setReg_tiles imageRegs q
  generalize imageRegs.foldl _ q = r at *
  refine ⟨setImageState_reg_self _ _, ?_, ?_, fun n hwf => ?_⟩
  · rw [setImageState_reg_other _ _ _ (by decide) (by decide), reg_setReg_other _ _ _ _ (by decide), reg_setReg_self]
  · rw [setImageState_loader]
    exact congrArg Loader.image (hloader'.trans hloader)
  · have hmap : (((r.setReg O.logicalPosition 0xFFFF).setReg O.timeParentPort 0xFF).setImageState 0).tiles = _ :=
      (setImageState_tiles _ _).trans (htiles'.trans htiles)
    have hcleared : ∀ P : Tile → Prop, P Tile.reset → (∀ x : Tile, P { x with
        md := [], vd := [], pd := [], xd := [], xptr := [], store := [], clauses := [], nBundles := 0, win := [], seq := Seqr.reset }) →
        P ((((r.setReg O.logicalPosition 0xFFFF).setReg O.timeParentPort 0xFF).setImageState 0).tile n) := by
      intro P hreset hx
      rw [Pkg.tile, hmap]
      exact at_mapVals P hreset hx n p.tiles
    exact ⟨hcleared (·.store = []) rfl fun _ => rfl, hcleared (·.md = []) rfl fun _ => rfl, hcleared (·.win = []) rfl fun _ => rfl⟩

theorem unload_clears (s : State) (r : LoadReq) (p : Pkg) (hruns : s.Runs .control) (hhead : s.pkg.headRequest .unload = some (r, p))
    (hstate : p.reg O.imageState = 2 ∨ p.reg O.imageState = 3 ∨ p.reg O.imageState = 5) :
    Does .unload s ((p.unloadImage.raise 0x380E noUnit 0).endRequest r 0 0) ∧ p.unloadImage.reg O.imageState = 0 ∧
      p.unloadImage.reg O.logicalPosition = 0xFFFF ∧ p.unloadImage.loader.image = none ∧
      (∀ n, SMap.wf Tile.reset p.tiles = true → (p.unloadImage.tile n).store = [] ∧ (p.unloadImage.tile n).md = [] ∧
        (p.unloadImage.tile n).win = []) := by
  have hexec : exec .unload s = execUnload s := rfl
  refine ⟨?_, unloadImage_discards p⟩
  rw [Does, hexec, execUnload, on_runs s _ _ hruns, hhead]
  dsimp only
  rw [if_neg (by omega), if_neg (by omega)]

end

/-- Settles O22. -/
theorem loaderCommands : Obligations.LoaderCommands := ⟨loaderOwner_takes, load_answers, loadComplete_installs, unload_clears⟩

end Sys2Proof.Machine

namespace Sys2Proof.Machine

/-! ## START and HALT (R157, R174, R358) -/

theorem headRequest_eq {p q : Pkg} {op : LoadOp} {r : LoadReq} (h : p.headRequest op = some (r, q)) :
    ∃ rest, q = { p with loader := { p.loader with reqs := rest } } := by
  unfold Pkg.headRequest at h
  split at h
  · cases h
  · split at h
    · cases h
      exact ⟨_, rfl⟩
    · cases h

/-- What a run of floods leaves. -/
structure Flooded (p q : Pkg) : Prop where
  mem : q.mem = p.mem
  dict : q.dict = p.dict
  mtime : q.mtime = p.mtime

theorem foldl_flood {α : Type} (l : List α) (type : Nat) (dst : α → Nat) (payload : α → List Nat) (p : Pkg) :
    Flooded p (l.foldl (fun p e => p.flood type (dst e) (payload e)) p) := by
  refine foldl_invariant (Flooded p) (fun q e h => ?_) l ⟨rfl, rfl, rfl⟩
  exact ⟨(flood_mem ..).trans h.mem, (flood_dict ..).trans h.dict, (flood_mtime ..).trans h.mtime⟩

section
variable (s : State)

theorem start_opens (r : LoadReq) (p : Pkg) (i : Image) (hruns : s.Runs .control) (hhead : s.pkg.headRequest .start = some (r, p))
    (himage : p.posImage = some i) (hmaster : p.isMaster = true) (hstate : p.reg O.imageState = 2 ∨ p.reg O.imageState = 5)
    (hrun : p.sched.startRun = none) (hbeat : p.sched.startBeat = none) (hdiv : i.aclkDiv ≤ p.reg O.aclkDivisorActive) :
    ∃ t, exec .start s = .next t ∧ t.pkg.sched.startRun = some ⟨p.mtime, r.seq, []⟩ ∧ SameMemory s t ∧ SameRegs s t := by
  have hexec : exec .start s = execStart s := rfl
  rw [hexec, execStart, on_runs s _ _ hruns, hhead]
  dsimp only
  rw [himage]
  dsimp only
  rw [if_neg (by rw [hmaster, hrun, hbeat]; rintro (h | h | h | h) <;> [exact absurd h (by decide); omega; cases h; cases h]),
    if_neg (by omega)]
  have hfl := foldl_flood (i.placement.filter fun e => decide (e.1 ≠ p.reg O.domainPhysId)) 0x03 (·.1) (fun _ => []) p
  obtain ⟨rest, rfl⟩ := headRequest_eq hhead
  generalize List.foldl _ _ _ = q at *
  exact ⟨_, rfl, by rw [← hfl.mtime]; rfl, fun b => congrArg (SMap.at 0 b) hfl.mem, reg_of_dict hfl.dict⟩

theorem startQuery_answers (x : C0In) (hruns : s.Runs .link) (hnew : IsNew x s.pkg) :
    ∃ t, exec (.startQuery x) s = .next t ∧
      t.pkg.out = s.pkg.out ++ [.class0 ⟨0x04, s.pkg.reg O.domainPhysId, x.src, (s.pkg.sched.originSeq + 1) % 2 ^ 32,
        [s.pkg.reg O.imageState, s.pkg.reg O.imageId, s.pkg.reg O.imageVariant]⟩] ∧ SameMemory s t ∧ SameRegs s t := by
  have hexec : exec (.startQuery x) s = execStartQuery x s := rfl
  rw [hexec, execStartQuery, on_runs s _ _ hruns, directedIn_new hnew]
  generalize hq : (remembered x s.pkg).flood _ _ _ = q
  have hmem : q.mem = s.pkg.mem := by rw [← hq, flood_mem]; rfl
  have hreg : ∀ k, q.reg k = s.pkg.reg k := fun k => by rw [← hq, flood_reg]; rfl
  exact ⟨_, rfl, by rw [settle_pkg, ← hq, flood_out]; rfl, fun b => congrArg (SMap.at 0 b) hmem, hreg⟩

theorem startAnswer_joins (x : C0In) (st id v : Nat) (r : StartRun) (hruns : s.Runs .link) (hnew : IsNew x s.pkg)
    (hrun : s.pkg.sched.startRun = some r) :
    ∃ t, exec (.startAnswer x st id v) s = .next t ∧
      t.pkg.sched.startRun = some { r with answers := r.answers ++ [(x.src, st, id, v)] } ∧ SameMemory s t ∧ SameRegs s t := by
  have hexec : exec (.startAnswer x st id v) s = execStartAnswer x st id v s := rfl
  rw [hexec, execStartAnswer, on_runs s _ _ hruns, directedIn_new hnew]
  have hkept : (remembered x s.pkg).sched.startRun = some r := hrun
  rw [hkept]
  exact ⟨_, rfl, rfl, fun _ => rfl, fun _ => rfl⟩

/-- The beat that a start takes: the first multiple of 65,536 at least n ahead (R157). -/
theorem beatAhead_bounds (p : Pkg) (n : Nat) :
    p.beatAhead n % 65536 = 0 ∧ p.reg O.domainBeat + n ≤ p.beatAhead n ∧ p.beatAhead n < p.reg O.domainBeat + n + 65536 := by
  rw [Pkg.beatAhead, ceilDiv]
  omega

theorem startDeadline_floods (r : StartRun) (i : Image) (hruns : s.Runs .control) (hrun : s.pkg.sched.startRun = some r)
    (himage : s.pkg.posImage = some i) (hpast : r.t0 + 1000000 ≤ s.pkg.mtime) (hall : s.pkg.allAnswered i r = true) :
    ∃ q b, Does .startAnswerDeadline s (Pkg.complete q 0 r.seq 0 0) ∧ q.sched.startBeat = some b ∧ q.sched.startRun = none ∧
      b % 65536 = 0 ∧ s.pkg.reg O.domainBeat + 2 * i.slipHorizon ≤ b ∧ b < s.pkg.reg O.domainBeat + 2 * i.slipHorizon + 65536 := by
  have hexec : exec .startAnswerDeadline s = execStartAnswerDeadline s := rfl
  have hreg : (s.pkg.setSched { s.pkg.sched with startRun := none }).reg O.domainBeat = s.pkg.reg O.domainBeat := rfl
  have hrunNone : (s.pkg.setSched { s.pkg.sched with startRun := none }).sched.startRun = none := rfl
  simp only [Does]
  rw [hexec, execStartAnswerDeadline, on_runs s _ _ hruns, hrun, himage]
  dsimp only
  rw [if_neg (by omega), if_pos hall]
  generalize s.pkg.setSched { s.pkg.sched with startRun := none } = q at *
  have hbounds := beatAhead_bounds q (2 * i.slipHorizon)
  rw [hreg] at hbounds
  have hsched := flood_sched q 0x05 0 [q.beatAhead (2 * i.slipHorizon)]
  generalize q.flood 0x05 0 _ = u at *
  exact ⟨u.setSched { u.sched with startBeat := some (q.beatAhead (2 * i.slipHorizon)) }, _, rfl, rfl, by have h := congrArg Sched.startRun hsched; exact h.trans hrunNone,
    hbounds⟩

theorem startBeat_taken (x : C0In) (beat : Nat) (hruns : s.Runs .link) (hnew : IsNew x s.pkg)
    (hstate : s.pkg.reg O.imageState = 2 ∨ s.pkg.reg O.imageState = 5) :
    ∃ t, exec (.startBeatMessage x beat) s = .next t ∧ t.pkg.sched.startBeat = some beat ∧ SameMemory s t ∧ SameRegs s t := by
  have hexec : exec (.startBeatMessage x beat) s = execStartBeatMessage x beat s := rfl
  rw [hexec, execStartBeatMessage, on_runs s _ _ hruns, floodIn_new hnew]
  rw [forwarded_reg, if_pos hstate]
  exact ⟨_, rfl, rfl, fun b => congrArg (SMap.at 0 b) (forwarded_mem ..), forwarded_reg x 0x05 [beat] s.pkg⟩

theorem domainStart_loaded (b : Nat) (i : Image) (hruns : s.Runs .control) (hstart : s.pkg.sched.startBeat = some b)
    (himage : s.pkg.posImage = some i) (hstate : s.pkg.reg O.imageState = 2) (hbeat : b ≤ s.pkg.schedBeat) :
    ∃ q, Does .domainStart s (Pkg.openBlock (Pkg.startMethods q)) ∧ q.reg O.imageState = 4 ∧ q.sched.cycle0 = b ∧
      q.sched.nextStart = 0 ∧ q.sched.startBeat = none ∧ q.stepc = StepCtl.reset := by
  have hexec : exec .domainStart s = execDomainStart s := rfl
  let q := ((s.pkg.setSched { s.pkg.sched with startBeat := none, cycle0 := b, nextStart := 0, late := [] }).setStepc StepCtl.reset).setImageState 4
  have hsched : q.sched = { s.pkg.sched with startBeat := none, cycle0 := b, nextStart := 0, late := [] } := setImageState_sched _ 4
  refine ⟨q.raise 0x3803 noUnit 0, ?_, setImageState_reg_self _ 4, congrArg Sched.cycle0 hsched, congrArg Sched.nextStart hsched,
    congrArg Sched.startBeat hsched, setImageState_stepc _ 4⟩
  rw [Does, hexec, execDomainStart, on_runs s _ _ hruns, hstart, himage]
  dsimp only
  rw [if_pos ⟨hstate, hbeat⟩]

/-- A halted domain that runs again. -/
theorem runs_again (q : Pkg) (hbeat : q.sched.startBeat = none) (hmem : q.mem = s.pkg.mem) :
    ∃ t, Host.Outcome.next (s.settle (q.setImageState 4)) = (.next t : Host.Outcome State Fault Refusal) ∧ t.pkg.reg O.imageState = 4 ∧
      t.pkg.sched.startBeat = none ∧ SameMemory s t := by
  refine ⟨_, rfl, setImageState_reg_self q 4, ?_, fun b => congrArg (SMap.at 0 b) ((setImageState_mem q 4).trans hmem)⟩
  exact (congrArg Sched.startBeat (setImageState_sched q 4)).trans hbeat

theorem domainStart_halted (b : Nat) (i : Image) (hruns : s.Runs .control) (hrepair : s.pkg.memsys.repairing = [])
    (hstart : s.pkg.sched.startBeat = some b) (himage : s.pkg.posImage = some i) (hstate : s.pkg.reg O.imageState = 5)
    (hbeat : b ≤ s.pkg.reg O.domainBeat) :
    ∃ t, exec .domainStart s = .next t ∧ t.pkg.reg O.imageState = 4 ∧ t.pkg.sched.startBeat = none ∧ SameMemory s t := by
  have hexec : exec .domainStart s = execDomainStart s := rfl
  rw [hexec, execDomainStart, on_runs s _ _ hruns, hstart, himage]
  dsimp only
  rw [if_neg (fun h => absurd (hstate.symm.trans h.1) (by decide)), if_pos ⟨hstate, hbeat, by rw [hrepair]; rfl⟩]
  refine runs_again s _ ?_ ?_
  · rw [setReg_sched, setReg_sched, setSched_sched]
  · rw [setReg_mem, setReg_mem, setSched_mem]

theorem halt_floods (r : LoadReq) (p : Pkg) (i : Image) (hruns : s.Runs .control) (hhead : s.pkg.headRequest .halt = some (r, p))
    (himage : p.posImage = some i) (hstate : p.reg O.imageState = 4) :
    Does .halt s (((p.flood 0x06 0 [p.reg O.domainBeat + i.slipHorizon]).haltFrom (p.reg O.domainBeat + i.slipHorizon)).endRequest r 0 0) := by
  have hexec : exec .halt s = execHalt s := rfl
  rw [Does, hexec, execHalt, on_runs s _ _ hruns, hhead]
  dsimp only
  rw [himage]
  dsimp only
  rw [if_neg (not_not_intro hstate)]

theorem haltMessage_taken (x : C0In) (beat : Nat) (hruns : s.Runs .link) (hnew : IsNew x s.pkg) (hstate : s.pkg.reg O.imageState = 4) :
    ∃ t, exec (.haltMessage x beat) s = .next t ∧ t.pkg.sched.haltAt = some beat ∧ SameMemory s t ∧ SameRegs s t := by
  have hexec : exec (.haltMessage x beat) s = execHaltMessage x beat s := rfl
  rw [hexec, execHaltMessage, on_runs s _ _ hruns, floodIn_new hnew]
  rw [forwarded_reg, if_pos hstate]
  exact ⟨_, rfl, rfl, fun b => congrArg (SMap.at 0 b) (forwarded_mem ..), forwarded_reg x 0x06 [beat] s.pkg⟩

/-- A halted package drives FAULT_N low (R407, R438). -/
theorem setImageState_halted_low (p : Pkg) : (landsOf (p.setImageState 5)).faultN = false := by
  have hstate : (p.setReg O.imageState 5).reg O.imageState = 5 := reg_setReg_self ..
  have hset : p.setImageState 5 = (p.setReg O.imageState 5).setErrBit 0 true := by
    rw [Pkg.setImageState, Pkg.fixFault, hstate]
    simp
  rw [hset, landsOf]
  dsimp only
  rw [setErrBit_zero_reads]
  rfl

theorem haltTakeEffect_halts (i : Image) (hruns : s.Runs .control) (himage : s.pkg.posImage = some i) (hstep : s.pkg.stepDue i = true)
    (hdue : s.pkg.haltDue = true) (hcommit : s.pkg.stepc.committing = false) :
    ∃ t, exec .haltTakeEffect s = .next t ∧ t.pkg.reg O.imageState = 5 ∧ t.pkg.sched.haltAt = none ∧ t.lands.faultN = false ∧
      t.pkg.reg O.generatorStep = s.pkg.reg O.generatorStep ∧ SameMemory s t ∧ t.pkg.tiles = s.pkg.tiles := by
  have hexec : exec .haltTakeEffect s = execHaltTakeEffect s := rfl
  rw [hexec, execHaltTakeEffect, on_runs s _ _ hruns, himage]
  dsimp only
  have hend : s.pkg.endStep = s.pkg := by
    rw [Pkg.endStep, hcommit]
    rfl
  rw [if_pos ⟨hstep, hdue⟩, Pkg.haltNow, hend]
  refine ⟨_, rfl, setImageState_reg_self _ 5, congrArg Sched.haltAt (setImageState_sched _ 5), setImageState_halted_low _, ?_,
    fun b => congrArg (SMap.at 0 b) (setImageState_mem _ 5), setImageState_tiles _ 5⟩
  exact (setImageState_reg_other _ 5 _ (by decide) (by decide)).trans (reg_setReg_other _ _ _ _ (by decide))

end

/-- Settles O23. -/
theorem startAndHalt : Obligations.StartAndHalt :=
  ⟨⟨start_opens, startQuery_answers, startAnswer_joins, startDeadline_floods, startBeat_taken, domainStart_loaded, domainStart_halted⟩,
    halt_floods, haltMessage_taken, haltTakeEffect_halts⟩

end Sys2Proof.Machine

namespace Sys2Proof.Machine

/-! ## What the end of a step and the decision keep (R72, R79, R164 to R177) -/

/-- The objects that a step's decision sets (R172 to R174, R209). -/
def stepObjects : List Nat :=
  [O.generatorStep, O.updateCount, O.accCount, O.voidCount, O.voidStreak, O.lastCommitKind, O.voidLimit, O.stepOutcome, O.stepOutcomeHigh] ++
    (List.range 8).map (O.lastVoidRecord + ·)

/-- q has from p the schedule, the progress of the step, and the objects of its decision. -/
structure StepKept (p q : Pkg) : Prop where
  sched : q.sched = p.sched
  stepIndex : q.stepc.stepIndex = p.stepc.stepIndex
  decided : q.stepc.decided = p.stepc.decided
  committing : q.stepc.committing = p.stepc.committing
  haltNext : q.stepc.haltNext = p.stepc.haltNext
  reg : ∀ k ∈ stepObjects, q.reg k = p.reg k

theorem AgentKept.stepKept {p q : Pkg} (h : AgentKept p q) : StepKept p q :=
  ⟨h.sched, congrArg StepCtl.stepIndex h.stepc, congrArg StepCtl.decided h.stepc, congrArg StepCtl.committing h.stepc,
    congrArg StepCtl.haltNext h.stepc, fun k hk => h.reg k fun ha => absurd hk (by
      have hlist : ∀ j ∈ stepObjects, ¬ AgentObject j := by decide
      exact fun hk => hlist k hk ha)⟩

namespace StepKept

variable {p q r : Pkg}

theorem refl (p : Pkg) : StepKept p p := ⟨rfl, rfl, rfl, rfl, rfl, fun _ _ => rfl⟩

theorem trans (h : StepKept p q) (h' : StepKept q r) : StepKept p r :=
  ⟨h'.sched.trans h.sched, h'.stepIndex.trans h.stepIndex, h'.decided.trans h.decided, h'.committing.trans h.committing, h'.haltNext.trans h.haltNext,
    fun k hk => (h'.reg k hk).trans (h.reg k hk)⟩

theorem agent {r : Pkg} (h : StepKept p q) (hr : AgentKept q r) : StepKept p r := h.trans hr.stepKept

theorem setReg {k : Nat} (hk : k ∉ stepObjects) (v : Nat) (h : StepKept p q) : StepKept p (q.setReg k v) :=
  h.trans ⟨rfl, rfl, rfl, rfl, rfl, fun j hj => reg_setReg_other q j k v fun hjk => hk (hjk ▸ hj)⟩

theorem raise (code unit arg : Nat) (h : StepKept p q) : StepKept p (q.raise code unit arg) := h.trans ⟨rfl, rfl, rfl, rfl, rfl, fun _ _ => rfl⟩

theorem setLedger (x : Ledger) (h : StepKept p q) : StepKept p { q with ledger := x } := h.trans ⟨rfl, rfl, rfl, rfl, rfl, fun _ _ => rfl⟩

theorem setSecure (x : Secure) (h : StepKept p q) : StepKept p { q with secure := x } := h.trans ⟨rfl, rfl, rfl, rfl, rfl, fun _ _ => rfl⟩

theorem setUnit (d : Nat) (u : DispUnit) (h : StepKept p q) : StepKept p (q.setUnit d u) := h.trans ⟨rfl, rfl, rfl, rfl, rfl, fun _ _ => rfl⟩

theorem agentWrite (a : Nat) (l : List Byte) (h : StepKept p q) : StepKept p (q.agentWrite ioA a l) :=
  h.agent ((agentKept_closed q).agentWrite ioA a l (.refl q))

theorem agentBytes (a n : Nat) (h : StepKept p q) : StepKept p (q.agentBytes ioA a n).2 :=
  h.agent ((agentKept_closed q).agentBytes ioA a n (.refl q))

theorem fresh (h : StepKept p q) : StepKept p q.fresh.2 := h.trans ⟨rfl, rfl, rfl, rfl, rfl, fun _ _ => rfl⟩

theorem foldl {α : Type} {f : Pkg → α → Pkg} (l : List α) (hf : ∀ q, ∀ a ∈ l, StepKept p q → StepKept p (f q a)) (h : StepKept p q) :
    StepKept p (l.foldl f q) := List.foldlRecOn (motive := StepKept p) l f h fun q hq a ha => hf q a ha hq

theorem blockHdr (h : StepKept p q) : StepKept p q.blockHdr.2 := by
  have hread := h.agentBytes stepBlock 64
  unfold Pkg.blockHdr
  split
  · rename_i heq
    rw [heq] at hread
    exact hread.fresh.fresh
  · rename_i heq
    rw [heq] at hread
    exact hread

theorem lrEntries (n : Nat) (h : StepKept p q) : StepKept p (q.lrEntries n).2 :=
  List.foldlRecOn (motive := fun acc : List (Nat × Option LrEntry) × Pkg => StepKept p acc.2) _ _ h fun _ hacc i _ => hacc.agentBytes (lrAddr i) 16

theorem latchSlots (h : StepKept p q) : StepKept p q.latchSlots := by
  refine foldl _ (fun r e _ hr => ?_) (h.blockHdr.lrEntries _)
  split
  · exact hr
  · dsimp only
    split
    · exact hr
    · exact hr.setLedger _

theorem ringRecord (g : Ring) (b : List Byte) (hdropped : g.dropped ∉ stepObjects) (hwr : g.wr ∉ stepObjects) (h : StepKept p q) :
    StepKept p (q.ringRecord g b) := by
  unfold Pkg.ringRecord
  dsimp only
  split
  · exact h
  · split
    · exact (h.setReg hdropped _).raise _ _ _
    · exact (h.agentWrite _ _).setReg hwr _

theorem closeLedger (void : Bool) (h : StepKept p q) : StepKept p (q.closeLedger void) := by
  unfold Pkg.closeLedger
  dsimp only
  refine (foldl _ (fun r e _ hr => ?_) (foldl _ (fun r j hj hr => ?_) (foldl _ (fun r e _ hr => ?_) h))).setLedger _
  · split
    · exact hr
    · split
      · exact hr.setLedger _
      · exact hr
  · have hlist : ∀ j < 7, O.ledgerTotals + 2 * j ∉ stepObjects := by decide
    exact hr.setReg (hlist j (List.mem_range.mp hj)) _
  · split
    · exact hr
    · exact hr.ringRecord ledgerRing _ (by decide) (by decide)

theorem closeDispatch (void : Bool) (h : StepKept p q) : StepKept p (q.closeDispatch void) := by
  refine foldl _ (fun r d _ hr => ?_) h
  exact (foldl _ (fun r f _ hr => hr.ringRecord dispatchRing _ (by decide) (by decide)) hr).setUnit _ _

theorem scaleUnit (h : StepKept p q) : StepKept p q.scaleUnit := by
  refine foldl _ (fun r e _ hr => ?_) h
  have hread := hr.agentBytes (r.reg O.scaleTableBase + 64 * e.1) 64
  dsimp only
  split
  · exact hr
  · split
    · rename_i heq
      rw [heq] at hread
      exact hread
    · rename_i heq
      rw [heq] at hread
      split
      · exact hread
      · split
        · exact (hread.agentWrite _ _).raise _ _ _
        · exact hread.agentWrite _ _

theorem writePow (i s : Nat) (h : StepKept p q) : StepKept p (q.writePow i s) := h.agentWrite _ _

theorem steerEntry (i : Nat) (o : Option LrEntry) (h : StepKept p q) : StepKept p (q.steerEntry i o) := by
  unfold Pkg.steerEntry
  split
  · exact h.raise _ _ _
  · split
    · exact h.writePow _ _
    · dsimp only
      split
      · exact (h.setLedger _).writePow _ _
      · exact (((h.setLedger _).setReg (by decide) _).raise _ _ _).writePow _ _
      · exact (((h.setLedger _).setReg (by decide) _).agentWrite _ _).writePow _ _
      · exact (((h.setLedger _).setReg (by decide) _).agentWrite _ _).writePow _ _

theorem steerAll (n : Nat) (h : StepKept p q) : StepKept p (q.steerAll n) :=
  foldl _ (fun _ _ _ hr => hr.steerEntry _ _) (h.lrEntries n)

end StepKept

end Sys2Proof.Machine

namespace Sys2Proof.Machine

/-! ## A step starts, votes and is decided (R163 to R177, R209) -/

/-! ### The start (R164) -/

theorem endStep_keeps (p : Pkg) : p.endStep.sched = p.sched ∧ p.endStep.reg O.generatorStep = p.reg O.generatorStep := by
  have h : StepKept p (p.latchSlots.closeLedger false) := ((StepKept.refl p).latchSlots).closeLedger false
  rw [Pkg.endStep]
  generalize p.latchSlots.closeLedger false = q at *
  split
  · exact ⟨h.sched, h.reg _ (by decide)⟩
  · exact ⟨rfl, rfl⟩

/-- The package of a step that starts, before the header of its system record is written. -/
def Pkg.startedStep (p : Pkg) (i : Image) : Pkg :=
  let k := p.sched.nextStart % i.stepsPerCycle
  let p := p.endStep
  let p := if p.sched.nextStart = 0 ∨ p.commitRuns then p
    else { p with secure := { p.secure with lastComplete := p.reg O.generatorStep } }
  let p := p.setReg O.generatorStep ((p.reg O.generatorStep + 1) % 2 ^ 40)
  let p := { p with
    tiles := p.tiles.mapVals Tile.reset fun x => { x with stepPoison := false }
    engines := p.engines.mapVals Engine.reset fun x => { x with once := [] }
    disp := p.disp.mapVals DispUnit.reset fun x => { x with once := [] }
    ledger := { p.ledger with
      slots := p.ledger.slots.mapVals SlotCnt.reset fun c => { SlotCnt.reset with cnv := c.cnv, amaxC := c.amaxC } }
    stepc := { StepCtl.reset with
      stepIndex := k
      bucketsDone := if k = 0 then 0 else p.stepc.bucketsDone
      saveStep := p.stepc.saveOpen
      saveOpen := []
      commitSent := ((commitEntry i k).map fun (e : ProgEntry) => e.sentence).getD 64
      discards := p.stepc.discards.filter fun e => p.sentenceRuns e.1 e.2.1 } }
  p.setSched { p.sched with nextStart := p.sched.nextStart + 1 }

theorem beginStep_eq (p : Pkg) (i : Image) : p.beginStep i = (p.startedStep i).writeSysHeader := rfl

/-- A step that starts has nothing counted, reported or decided. -/
theorem startedStep_stepc (p : Pkg) (i : Image) : (p.startedStep i).stepc.stepIndex = p.sched.nextStart % i.stepsPerCycle ∧
    (p.startedStep i).stepc.cvotes = 0 ∧ (p.startedStep i).stepc.own = none ∧ (p.startedStep i).stepc.held = none ∧
    (p.startedStep i).stepc.sent = none ∧ (p.startedStep i).stepc.decided = false ∧ (p.startedStep i).stepc.committing = false :=
  ⟨rfl, rfl, rfl, rfl, rfl, rfl, rfl⟩

theorem startedStep_counts (p : Pkg) (i : Image) : (p.startedStep i).reg O.generatorStep = (p.reg O.generatorStep + 1) % 2 ^ 40 ∧
    (p.startedStep i).sched.nextStart = p.sched.nextStart + 1 := by
  obtain ⟨hsched, hreg⟩ := endStep_keeps p
  rw [Pkg.startedStep]
  dsimp only
  have hsecure : ∀ q : Pkg, q.sched = p.sched → q.reg O.generatorStep = p.reg O.generatorStep →
      (if q.sched.nextStart = 0 ∨ q.commitRuns = true then q else { q with secure := { q.secure with lastComplete := q.reg O.generatorStep } }).sched = p.sched ∧
      (if q.sched.nextStart = 0 ∨ q.commitRuns = true then q else { q with secure := { q.secure with lastComplete := q.reg O.generatorStep } }).reg
        O.generatorStep = p.reg O.generatorStep := by
    intro q hs hr
    split
    · exact ⟨hs, hr⟩
    · exact ⟨hs, hr⟩
  obtain ⟨hsched', hreg'⟩ := hsecure p.endStep hsched hreg
  generalize (if p.endStep.sched.nextStart = 0 ∨ p.endStep.commitRuns = true then p.endStep
    else { p.endStep with secure := { p.endStep.secure with lastComplete := p.endStep.reg O.generatorStep } }) = q at *
  refine ⟨?_, ?_⟩
  · rw [← hreg']
    exact reg_setReg_self q O.generatorStep _
  · rw [← hsched', setSched_sched, setReg_sched]

theorem stepStart_begins (s : State) (i : Image) (hruns : s.Runs .data) (himage : s.pkg.posImage = some i) (hdue : s.pkg.stepDue i = true)
    (hhalt : s.pkg.haltDue = false) :
    ∃ q, Does .stepStart s (Pkg.writeSysHeader q) ∧
      Pkg.reg q O.generatorStep = (s.pkg.reg O.generatorStep + 1) % 2 ^ 40 ∧ q.sched.nextStart = s.pkg.sched.nextStart + 1 ∧
      q.stepc.stepIndex = s.pkg.sched.nextStart % i.stepsPerCycle ∧ q.stepc.cvotes = 0 ∧ q.stepc.own = none ∧ q.stepc.held = none ∧
      q.stepc.sent = none ∧ q.stepc.decided = false ∧ q.stepc.committing = false := by
  have hexec : exec .stepStart s = execStepStart s := rfl
  obtain ⟨hstep, hnext⟩ := startedStep_counts s.pkg i
  refine ⟨s.pkg.startedStep i, ?_, hstep, hnext, startedStep_stepc s.pkg i⟩
  rw [Does, hexec, execStepStart, on_runs s _ _ hruns, himage]
  dsimp only
  rw [if_pos ⟨hdue, by rw [hhalt]; rfl⟩, beginStep_eq]

/-! ### The vote (R169 to R172) -/

/-- The late vote is noted with event 0x3903. -/
theorem noteLate_vote {p : Pkg} (hlate : p.isLate .vote = true) (hnew : p.sched.lateOf .vote = []) :
    ∃ q, p.noteLate .vote = q.requestSlip ∧ LateNoted (((p.raise 0x3806 noUnit 0).bump O.lateEvents 1).raise 0x3903 noUnit 0) q := by
  have hcount := of_decide_eq_true hlate
  rw [Pkg.noteLate, hnew, if_neg (by rw [List.length_nil]; omega)]
  exact ⟨_, rfl, ((LateNoted.refl _).setReg _).setSched _⟩

theorem localVote_late (s : State) (i : Image) (hruns : s.Runs .data) (himage : s.pkg.loader.image = some i) (hlate : s.pkg.isLate .vote = true)
    (hnew : s.pkg.sched.lateOf .vote = []) :
    ∃ t, exec .localVoteDeadline s = .next t ∧ RaisedEver t 0x3806 ∧ RaisedEver t 0x3903 ∧ RaisedEver t 0x3804 ∧
      t.pkg.reg O.lateEvents = min (s.pkg.reg O.lateEvents + 1) (2 ^ 32 - 1) ∧
      (⟨s.pkg.reg O.domainBeat + i.slipHorizon, i.slipQuantum, .slip⟩ : Slip) ∈ t.pkg.sched.slips ∧ SameMemory s t := by
  have hexec : exec .localVoteDeadline s = execLocalVoteDeadline s := rfl
  rw [hexec, execLocalVoteDeadline, on_runs s _ _ hruns]
  obtain ⟨q, hq, hnoted⟩ := noteLate_vote hlate hnew
  rw [hq]
  have hfirst : (((s.pkg.raise 0x3806 noUnit 0).bump O.lateEvents 1).raise 0x3903 noUnit 0).HasEvent 0x3806 :=
    ((LateNoted.refl ((s.pkg.raise 0x3806 noUnit 0).bump O.lateEvents 1)).raise 0x3903 noUnit 0).hasEvent (hasEvent_raise s.pkg 0x3806 noUnit 0)
  have hbeat : q.reg O.domainBeat = s.pkg.reg O.domainBeat := hnoted.beat.trans (reg_setReg_other _ _ _ _ (by decide))
  have hqimage : q.loader.image = some i := by rw [hnoted.loader]; exact himage
  obtain ⟨hslip, hasked, -⟩ := requestSlip_asks hqimage
  rw [askedSlip, hbeat] at hslip
  refine ⟨_, rfl, hnoted.requestSlip.hasEvent hfirst, hnoted.requestSlip.hasEvent (hasEvent_raise _ _ _ _), hasked, ?_, hslip,
    fun b => congrArg (SMap.at 0 b) hnoted.requestSlip.mem⟩
  exact hnoted.requestSlip.count.trans (reg_setReg_self ..)

/-- What a vote sent changes. -/
theorem sendVote_eq (p : Pkg) (payload : List Nat) :
    ∃ l, p.sendVote payload = { p with out := p.out ++ [.class0 ⟨0x02, p.reg O.domainPhysId, 0, 0, payload⟩], links := l } := by
  obtain ⟨l, hl⟩ := c0Send_changes_links (p.emit (.class0 ⟨0x02, p.reg O.domainPhysId, 0, 0, payload⟩)) ⟨0x02, p.reg O.domainPhysId, 0, 0, payload⟩ 12
  exact ⟨l, hl⟩

/-- A complete vote goes out where the package holds a report (R171). -/
def Pkg.sendOwn (p : Pkg) : Pkg :=
  match p.stepc.own with
  | none => p
  | some r => (p.sendVote (votePayload r)).setStepc { p.stepc with sent := firstRec p.stepc.sent r }

theorem sendOwn_none {p : Pkg} (h : p.stepc.own = none) : p.sendOwn = p := by rw [Pkg.sendOwn, h]

theorem sendOwn_some {p : Pkg} {r : VoteRec} (h : p.stepc.own = some r) :
    p.sendOwn.stepc = { p.stepc with sent := firstRec p.stepc.sent r } ∧
      p.sendOwn.out = p.out ++ [.class0 ⟨0x02, p.reg O.domainPhysId, 0, 0, votePayload r⟩] ∧ p.sendOwn.mem = p.mem ∧ ∀ k, p.sendOwn.reg k = p.reg k := by
  obtain ⟨l, hl⟩ := sendVote_eq p (votePayload r)
  rw [Pkg.sendOwn, h]
  dsimp only
  rw [hl]
  exact ⟨rfl, rfl, rfl, fun _ => rfl⟩

theorem localVote_complete (s : State) (i : Image) (hruns : s.Runs .data) (himage : s.pkg.posImage = some i) (hstate : s.pkg.reg O.imageState = 4)
    (hnext : s.pkg.sched.nextStart ≠ 0) (hdecided : s.pkg.stepc.decided = false) (hsent : s.pkg.stepc.localSent = false)
    (hcomplete : s.pkg.voteComplete i = true) :
    (s.pkg.stepc.own = none → Does .localVoteComplete s (s.pkg.setStepc { s.pkg.stepc with localSent := true })) ∧
    ∀ r, s.pkg.stepc.own = some r →
      ∃ t, exec .localVoteComplete s = .next t ∧ t.pkg.stepc.localSent = true ∧ t.pkg.stepc.sent = firstRec s.pkg.stepc.sent r ∧
        t.pkg.out = s.pkg.out ++ [.class0 ⟨0x02, s.pkg.reg O.domainPhysId, 0, 0, votePayload r⟩] ∧
        SameMemory s t ∧ SameRegs s t := by
  have hexec : exec .localVoteComplete s = .next (s.settle (s.pkg.setStepc { s.pkg.stepc with localSent := true }).sendOwn) := by
    have hexec : exec .localVoteComplete s = execLocalVoteComplete s := rfl
    rw [hexec, execLocalVoteComplete, on_runs s _ _ hruns, himage]
    dsimp only
    rw [if_neg (by rw [hdecided, hsent, hcomplete]; rintro (h | h | h | h | h) <;> [exact h hstate; exact hnext h; cases h; cases h; cases h])]
    generalize s.pkg.setStepc { s.pkg.stepc with localSent := true } = q
    unfold Pkg.sendOwn
    generalize q.stepc = x
    obtain ⟨_, _, _, own⟩ := x
    cases own <;> rfl
  refine ⟨fun hown => ?_, fun r hown => ?_⟩
  · rw [Does, hexec, sendOwn_none (by rw [setStepc_stepc]; exact hown)]
  · rw [hexec]
    obtain ⟨hstepc, hout, hmem, hreg⟩ := sendOwn_some (p := s.pkg.setStepc { s.pkg.stepc with localSent := true }) (r := r) (by rw [setStepc_stepc]; exact hown)
    exact ⟨_, rfl, by rw [settle_pkg, hstepc, setStepc_stepc], by rw [settle_pkg, hstepc, setStepc_stepc], hout,
      fun b => congrArg (SMap.at 0 b) hmem, hreg⟩

theorem voteIn_keeps (p : Pkg) (x : C0In) (r : VoteRec) :
    (p.voteIn x r).stepc.held = firstRec p.stepc.held r ∧
      (p.voteIn x r).stepc.sent = (match p.stepc.sent with
        | none => some r
        | some o => if votePrecedes r o then some r else some o) ∧
      (p.voteIn x r).mem = p.mem ∧ (∀ k, (p.voteIn x r).reg k = p.reg k) ∧ (p.voteIn x r).tiles = p.tiles := by
  obtain ⟨l, hl⟩ := c0Send_changes_links (p.setStepc { p.stepc with held := firstRec p.stepc.held r })
    ⟨0x02, x.src, 0, x.originSeq, votePayload r⟩ x.port.val
  unfold Pkg.voteIn
  dsimp only
  rw [hl]
  cases hsent : p.stepc.sent with
  | none => exact ⟨rfl, rfl, rfl, fun _ => rfl, rfl⟩
  | some o =>
    dsimp only
    split
    · exact ⟨rfl, rfl, rfl, fun _ => rfl, rfl⟩
    · exact ⟨rfl, rfl, rfl, fun _ => rfl, rfl⟩

theorem voteRecord_kept (s : State) (x : C0In) (r : VoteRec) (i : Image) (hruns : s.Runs .link) (himage : s.pkg.posImage = some i)
    (hstep : r.step = s.pkg.reg O.generatorStep) (hdecided : s.pkg.stepc.decided = false) :
    ∃ t, exec (.voteRecord x r) s = .next t ∧ t.pkg.stepc.held = firstRec s.pkg.stepc.held r ∧
      t.pkg.stepc.sent = (match s.pkg.stepc.sent with
        | none => some r
        | some o => if votePrecedes r o then some r else some o) ∧ SameMemory s t ∧ SameRegs s t ∧ t.pkg.tiles = s.pkg.tiles := by
  have hexec : exec (.voteRecord x r) s = execVoteRecord x r s := rfl
  have hpast : s.pkg.votePast r = false := by
    rw [Pkg.votePast, hdecided, hstep]
    simp
  rw [hexec, execVoteRecord, on_runs s _ _ hruns, himage]
  dsimp only
  rw [hpast, if_neg (by decide), if_pos hstep]
  obtain ⟨hheld, hsent, hmem, hreg, htiles⟩ := voteIn_keeps s.pkg x r
  exact ⟨_, rfl, hheld, hsent, fun b => congrArg (SMap.at 0 b) hmem, hreg, htiles⟩

/-- Settles O24. -/
theorem stepStartAndVote : Obligations.StepStartAndVote := ⟨stepStart_begins, localVote_late, localVote_complete, voteRecord_kept⟩

end Sys2Proof.Machine

namespace Sys2Proof.Machine

/-! ## The order of vote records, and the decision at C (R170 to R177, R209) -/

/-! ### The order -/

theorem votePrecedes_iff (a b : VoteRec) : votePrecedes a b = true ↔ a.source < b.source ∨ a.source = b.source ∧ (a.package < b.package ∨
    a.package = b.package ∧ (a.tile < b.tile ∨ a.tile = b.tile ∧ a.position < b.position)) := by
  simp [votePrecedes]

theorem votePrecedes_asymm (a b : VoteRec) (h : votePrecedes a b = true) : votePrecedes b a = false := by
  rw [← Bool.not_eq_true]
  rw [votePrecedes_iff] at h ⊢
  omega

theorem votePrecedes_trans (a b c : VoteRec) (hab : votePrecedes a b = true) (hbc : votePrecedes b c = true) : votePrecedes a c = true := by
  rw [votePrecedes_iff] at hab hbc ⊢
  omega

/-- The first of two records that are ordered does not depend on which arrived first. -/
theorem firstRec_some_comm (a b : VoteRec) (h : votePrecedes a b = true ∨ votePrecedes b a = true) : firstRec (some a) b = firstRec (some b) a := by
  simp only [firstRec]
  rcases h with h | h
  · rw [h, votePrecedes_asymm a b h]
    rfl
  · rw [h, votePrecedes_asymm b a h]
    rfl

theorem firstRec_comm (o : Option VoteRec) (a b : VoteRec) (hab : votePrecedes a b = true ∨ votePrecedes b a = true)
    (ho : ∀ r, o = some r → (votePrecedes r a = true ∨ votePrecedes a r = true) ∧ (votePrecedes r b = true ∨ votePrecedes b r = true)) :
    firstRec (firstRec o a) b = firstRec (firstRec o b) a := by
  cases o with
  | none => exact firstRec_some_comm a b hab
  | some r =>
    obtain ⟨hra, hrb⟩ := ho r rfl
    have hcomm := firstRec_some_comm a b hab
    simp only [firstRec] at hcomm ⊢
    cases ha : votePrecedes a r <;> cases hb : votePrecedes b r
    · simp only [Bool.false_eq_true, if_false, ha, hb]
    · have hra' : votePrecedes r a = true := hra.resolve_right (by rw [ha]; decide)
      have hba := votePrecedes_trans b r a hb hra'
      simp only [Bool.false_eq_true, if_false, if_true, hb, votePrecedes_asymm b a hba]
    · have hrb' : votePrecedes r b = true := hrb.resolve_right (by rw [hb]; decide)
      have hab' := votePrecedes_trans a r b ha hrb'
      simp only [Bool.false_eq_true, if_false, if_true, ha, votePrecedes_asymm a b hab']
    · simpa only [if_true] using hcomm

/-! ### The outcome bit (R209) -/

/-- A value with bit j set or cleared. -/
theorem bitOf_put (v j : Nat) (b : Bool) : bitOf (if bitOf v j = b then v else if b then v + 2 ^ j else v - 2 ^ j) j = b := by
  have hpos : 0 < 2 ^ j := Nat.two_pow_pos j
  split
  · assumption
  · rename_i hne
    cases b with
    | true =>
      simp only [bitOf, if_true, beq_iff_eq] at hne ⊢
      rw [Nat.add_div_right v hpos]
      omega
    | false =>
      simp only [bitOf, Bool.false_eq_true, if_false, Bool.not_eq_false, beq_iff_eq, beq_eq_false_iff_ne] at hne ⊢
      have hsub : (v - 2 ^ j) / 2 ^ j = v / 2 ^ j - 1 := by
        have h := Nat.sub_mul_div v (2 ^ j) 1
        rwa [Nat.mul_one] at h
      rw [hsub]
      omega

/-- An object with bit j written. -/
def Pkg.putBit (p : Pkg) (ok : Bool) (k j : Nat) : Pkg :=
  p.setReg k (if bitOf (p.reg k) j = ok then p.reg k else if ok then p.reg k + 2 ^ j else p.reg k - 2 ^ j)

theorem noteOutcome_eq (p : Pkg) (ok : Bool) : ∃ sec, p.noteOutcome ok = { (if p.reg O.generatorStep % 128 < 64 then
    p.putBit ok O.stepOutcome (p.reg O.generatorStep % 128) else p.putBit ok O.stepOutcomeHigh (p.reg O.generatorStep % 128 - 64)) with secure := sec } :=
  ⟨_, rfl⟩

theorem noteOutcome_keeps (p : Pkg) (ok : Bool) : (p.noteOutcome ok).stepc = p.stepc ∧
    (∀ k, k ≠ O.stepOutcome → k ≠ O.stepOutcomeHigh → (p.noteOutcome ok).reg k = p.reg k) ∧
    (p.reg O.generatorStep % 128 < 64 → bitOf ((p.noteOutcome ok).reg O.stepOutcome) (p.reg O.generatorStep % 128) = ok) := by
  obtain ⟨sec, heq⟩ := noteOutcome_eq p ok
  rw [heq]
  split
  · exact ⟨rfl, fun k hk _ => reg_setReg_other p k _ _ hk, fun _ => (congrArg (bitOf · _) (reg_setReg_self p O.stepOutcome _)).trans (bitOf_put ..)⟩
  · rename_i hge
    exact ⟨rfl, fun k _ hk => reg_setReg_other p k _ _ hk, fun h => absurd h hge⟩

theorem confirmSave_keeps (p : Pkg) (ok : Bool) : StepKept p (p.confirmSave ok) := by
  have hstart : StepKept p (p.setStepc { p.stepc with saveStep := [] }) := ⟨rfl, rfl, rfl, rfl, rfl, fun _ _ => rfl⟩
  refine StepKept.foldl _ (fun q a _ hq => ?_) hstart
  split
  · exact ((hq.setReg (by decide) _).setReg (by decide) _).setReg (by decide) _
  · exact (hq.setSecure _).raise _ _ _

/-! ### The decision (R172 to R174) -/

/-- The end of a decision: the ledgers and the outcome. -/
def Pkg.endDecision (p : Pkg) : Pkg :=
  ((p.openWindow.closeDispatch (!p.stepc.committing)).noteOutcome p.stepc.committing).confirmSave p.stepc.committing

/-- What the end of a decision leaves. -/
theorem endDecision_keeps (p : Pkg) : p.endDecision.stepc.decided = p.stepc.decided ∧ p.endDecision.stepc.committing = p.stepc.committing ∧
    p.endDecision.stepc.haltNext = p.stepc.haltNext ∧
    (∀ k ∈ stepObjects, k ≠ O.stepOutcome → k ≠ O.stepOutcomeHigh → p.endDecision.reg k = p.reg k) ∧
    (p.reg O.generatorStep % 128 < 64 → bitOf (p.endDecision.reg O.stepOutcome) (p.reg O.generatorStep % 128) = p.stepc.committing) := by
  have hclose : StepKept p (p.openWindow.closeDispatch (!p.stepc.committing)) := ((StepKept.refl p).setLedger _).closeDispatch _
  rw [Pkg.endDecision]
  generalize p.openWindow.closeDispatch (!p.stepc.committing) = q at *
  obtain ⟨hstepc, hreg, hbit⟩ := noteOutcome_keeps q p.stepc.committing
  generalize q.noteOutcome p.stepc.committing = r at *
  have hconfirm := confirmSave_keeps r p.stepc.committing
  have hstep : q.reg O.generatorStep = p.reg O.generatorStep := hclose.reg _ (by decide)
  rw [hstep] at hbit
  refine ⟨?_, ?_, ?_, fun k hk h h' => ((hconfirm.reg k hk).trans (hreg k h h')).trans (hclose.reg k hk), fun hlow => ?_⟩
  · rw [hconfirm.decided, hstepc, hclose.decided]
  · rw [hconfirm.committing, hstepc, hclose.committing]
  · rw [hconfirm.haltNext, hstepc, hclose.haltNext]
  · rw [hconfirm.reg _ (by decide)]
    exact hbit hlow

/-- The state at C of a step that is to be decided. -/
structure AtDecision (s : State) (i : Image) (c : Nat) : Prop where
  runs : s.Runs .data
  image : s.pkg.posImage = some i
  beat : s.pkg.commitBeat i = some c
  state : s.pkg.reg O.imageState = 4
  undecided : s.pkg.stepc.decided = false
  reached : s.pkg.reached c = true

theorem exec_stepDecision {s : State} {i : Image} {c : Nat} (h : AtDecision s i c) :
    exec .stepDecision s = .next (s.settle (match s.pkg.stepc.held with
      | some r => s.pkg.voidStep r c
      | none => s.pkg.commitStep i c).endDecision.writeSysHeader) := by
  have hexec : exec .stepDecision s = execStepDecision s := rfl
  rw [hexec, execStepDecision, on_runs s _ _ h.runs, h.image]
  dsimp only
  rw [h.beat]
  dsimp only
  rw [if_neg (by rw [h.undecided, h.reached]; rintro (h0 | h0 | h0) <;> [exact h0 h.state; cases h0; cases h0])]
  rfl

section
variable (p : Pkg)

/-- A voided step: its counts and its record (R173). -/
def Pkg.voidCounted (p : Pkg) (r : VoteRec) : Pkg :=
  (List.range 8).foldl (fun p j => p.setReg (O.lastVoidRecord + j) ((voteWords r).getD j 0))
    (((p.bump O.voidCount 1).bump16 O.voidStreak 1).setReg O.lastCommitKind 3)

theorem foldl_record_reg (l : List Nat) (n : Nat) (k : Nat) (hk : k < O.lastVoidRecord ∨ O.lastVoidRecord + n ≤ k) (q : Pkg) :
    ((List.range n).foldl (fun p j => p.setReg (O.lastVoidRecord + j) (l.getD j 0)) q).reg k = q.reg k := by
  refine List.foldlRecOn (motive := fun r : Pkg => r.reg k = q.reg k) _ _ rfl fun r hr j hj => ?_
  have hj' := List.mem_range.mp hj
  exact (reg_setReg_other r k _ _ (by omega)).trans hr

theorem foldl_record_stepc (l : List Nat) (n : Nat) (q : Pkg) :
    ((List.range n).foldl (fun p j => p.setReg (O.lastVoidRecord + j) (l.getD j 0)) q).stepc = q.stepc := by
  refine List.foldlRecOn (motive := fun r : Pkg => r.stepc = q.stepc) _ _ rfl fun r hr j _ => ?_
  exact hr

theorem foldl_record_self (l : List Nat) (n : Nat) (q : Pkg) (j : Nat) (hj : j < n) :
    ((List.range n).foldl (fun p j => p.setReg (O.lastVoidRecord + j) (l.getD j 0)) q).reg (O.lastVoidRecord + j) = l.getD j 0 := by
  induction n with
  | zero => omega
  | succ n ih =>
    rw [List.range_succ, List.foldl_append, List.foldl_cons, List.foldl_nil]
    by_cases h : j = n
    · rw [h, reg_setReg_self]
    · rw [reg_setReg_other _ _ _ _ (by omega)]
      exact ih (by omega)

theorem voidCounted_reg (r : VoteRec) : (p.voidCounted r).reg O.voidCount = min (p.reg O.voidCount + 1) (2 ^ 32 - 1) ∧
    (p.voidCounted r).reg O.voidStreak = min (p.reg O.voidStreak + 1) (2 ^ 16 - 1) ∧ (p.voidCounted r).reg O.lastCommitKind = 3 ∧
    (∀ j < 8, (p.voidCounted r).reg (O.lastVoidRecord + j) = (voteWords r).getD j 0) ∧
    (p.voidCounted r).reg O.updateCount = p.reg O.updateCount ∧ (p.voidCounted r).reg O.voidLimit = p.reg O.voidLimit ∧
    (p.voidCounted r).reg O.generatorStep = p.reg O.generatorStep := by
  have hother : ∀ k, (k < O.lastVoidRecord ∨ O.lastVoidRecord + 8 ≤ k) → (p.voidCounted r).reg k =
      (((p.bump O.voidCount 1).bump16 O.voidStreak 1).setReg O.lastCommitKind 3).reg k := fun k hk => foldl_record_reg _ 8 k hk _
  refine ⟨?_, ?_, ?_, fun j hj => foldl_record_self _ 8 _ j hj, ?_, ?_, ?_⟩
  · rw [hother _ (by decide), reg_setReg_other _ _ _ _ (by decide), Pkg.bump16, reg_setReg_other _ _ _ _ (by decide), Pkg.bump, reg_setReg_self]
    rfl
  · rw [hother _ (by decide), reg_setReg_other _ _ _ _ (by decide), Pkg.bump16, reg_setReg_self, Pkg.bump, reg_setReg_other _ _ _ _ (by decide)]
    rfl
  · rw [hother _ (by decide), reg_setReg_self]
  all_goals rw [hother _ (by decide), reg_setReg_other _ _ _ _ (by decide), Pkg.bump16, reg_setReg_other _ _ _ _ (by decide), Pkg.bump,
    reg_setReg_other _ _ _ _ (by decide)]

/-- The step is decided void: nothing of its commit is taken (R173). -/
def Pkg.markVoid (p : Pkg) (c : Nat) : Pkg :=
  (p.raise 0x3901 noUnit 0).setStepc { p.stepc with
    decided := true, voided := true, committing := false, discards := p.stepc.discards ++ [(p.stepc.commitSent, c, false)] }

theorem markVoid_stepc (c : Nat) : (p.markVoid c).stepc.decided = true ∧ (p.markVoid c).stepc.committing = false := ⟨rfl, rfl⟩

theorem markVoid_reg (c k : Nat) : (p.markVoid c).reg k = p.reg k := rfl

/-- The package halts where its limit of void steps is reached (R174). -/
def Pkg.haltAtLimit (p : Pkg) : Pkg := if p.reg O.voidLimit ≠ 0 ∧ p.reg O.voidLimit ≤ p.reg O.voidStreak then p.haltSoon else p

theorem haltSoon_reg (k : Nat) : p.haltSoon.reg k = p.reg k := rfl

theorem haltSoon_stepc : p.haltSoon.stepc = { p.stepc with haltNext := true } := rfl

theorem haltAtLimit_keeps : (∀ k, p.haltAtLimit.reg k = p.reg k) ∧ p.haltAtLimit.stepc.decided = p.stepc.decided ∧
    p.haltAtLimit.stepc.committing = p.stepc.committing ∧
    (p.reg O.voidLimit ≠ 0 → p.reg O.voidLimit ≤ p.reg O.voidStreak → p.haltAtLimit.stepc.haltNext = true) := by
  rw [Pkg.haltAtLimit]
  split
  · rw [haltSoon_stepc]
    exact ⟨haltSoon_reg p, rfl, rfl, fun _ _ => rfl⟩
  · rename_i h
    exact ⟨fun _ => rfl, rfl, rfl, fun h1 h2 => absurd ⟨h1, h2⟩ h⟩

/-- What a void step leaves before the ledgers are closed (R173, R174). -/
def Pkg.voidOpen (p : Pkg) (r : VoteRec) (c : Nat) : Pkg := ((p.voidCounted r).markVoid c).haltAtLimit

theorem voidStep_eq (r : VoteRec) (c : Nat) : p.voidStep r c = (p.voidOpen r c).closeLedger true := rfl

theorem voidOpen_keeps (r : VoteRec) (c : Nat) : (∀ k, (p.voidOpen r c).reg k = (p.voidCounted r).reg k) ∧ (p.voidOpen r c).stepc.decided = true ∧
    (p.voidOpen r c).stepc.committing = false ∧
    ((p.voidCounted r).reg O.voidLimit ≠ 0 → (p.voidCounted r).reg O.voidLimit ≤ (p.voidCounted r).reg O.voidStreak → (p.voidOpen r c).stepc.haltNext = true) := by
  rw [Pkg.voidOpen]
  generalize p.voidCounted r = q
  obtain ⟨hdecided, hcommitting⟩ := markVoid_stepc q c
  have hreg := markVoid_reg q c
  generalize q.markVoid c = u at *
  obtain ⟨hreg', hdecided', hcommitting', hhalt⟩ := haltAtLimit_keeps u
  rw [hreg, hreg] at hhalt
  exact ⟨fun k => (hreg' k).trans (hreg k), hdecided'.trans hdecided, hcommitting'.trans hcommitting, hhalt⟩

end

theorem decision_void (s : State) (i : Image) (c : Nat) (h : AtDecision s i c) (r : VoteRec) (hheld : s.pkg.stepc.held = some r) :
    ∃ q, Does .stepDecision s (Pkg.writeSysHeader q) ∧ Pkg.reg q O.voidCount = min (s.pkg.reg O.voidCount + 1) (2 ^ 32 - 1) ∧
      Pkg.reg q O.voidStreak = min (s.pkg.reg O.voidStreak + 1) (2 ^ 16 - 1) ∧ Pkg.reg q O.lastCommitKind = 3 ∧
      (∀ j < 8, Pkg.reg q (O.lastVoidRecord + j) = (voteWords r).getD j 0) ∧ q.stepc.decided = true ∧ q.stepc.committing = false ∧
      Pkg.reg q O.updateCount = s.pkg.reg O.updateCount ∧
      (s.pkg.reg O.voidLimit ≠ 0 → s.pkg.reg O.voidLimit ≤ min (s.pkg.reg O.voidStreak + 1) (2 ^ 16 - 1) → q.stepc.haltNext = true) ∧
      (s.pkg.reg O.generatorStep % 128 < 64 → bitOf (Pkg.reg q O.stepOutcome) (s.pkg.reg O.generatorStep % 128) = false) := by
  refine ⟨(s.pkg.voidStep r c).endDecision, by rw [Does, exec_stepDecision h, hheld], ?_⟩
  obtain ⟨hcount, hstreak, hkind, hrecord, hupdate, hlimit, hstep⟩ := voidCounted_reg s.pkg r
  obtain ⟨hreg, hdecided, hcommit, hhalt⟩ := voidOpen_keeps s.pkg r c
  rw [voidStep_eq]
  have hclose := (StepKept.refl (s.pkg.voidOpen r c)).closeLedger true
  generalize (s.pkg.voidOpen r c).closeLedger true = q at *
  obtain ⟨hend, hendc, hendh, hendreg, hbit⟩ := endDecision_keeps q
  generalize q.endDecision = u at *
  have hall : ∀ k ∈ stepObjects, k ≠ O.stepOutcome → k ≠ O.stepOutcomeHigh → u.reg k = (s.pkg.voidCounted r).reg k := fun k hk h1 h2 =>
    ((hendreg k hk h1 h2).trans (hclose.reg k hk)).trans (hreg k)
  have hqstep : q.reg O.generatorStep = s.pkg.reg O.generatorStep := ((hclose.reg _ (by decide)).trans (hreg _)).trans hstep
  rw [hqstep] at hbit
  refine ⟨(hall _ (by decide) (by decide) (by decide)).trans hcount, (hall _ (by decide) (by decide) (by decide)).trans hstreak,
    (hall _ (by decide) (by decide) (by decide)).trans hkind, fun j hj => ?_, ?_, ?_, (hall _ (by decide) (by decide) (by decide)).trans hupdate, ?_, ?_⟩
  · have hlist : ∀ j < 8, O.lastVoidRecord + j ∈ stepObjects ∧ O.lastVoidRecord + j ≠ O.stepOutcome ∧ O.lastVoidRecord + j ≠ O.stepOutcomeHigh := by decide
    obtain ⟨hmem, h1, h2⟩ := hlist j hj
    exact (hall _ hmem h1 h2).trans (hrecord j hj)
  · rw [hend, hclose.decided, hdecided]
  · rw [hendc, hclose.committing, hcommit]
  · intro h1 h2
    rw [hendh, hclose.haltNext]
    exact hhalt (by rw [hlimit]; exact h1) (by rw [hlimit, hstreak]; exact h2)
  · intro hlow
    rw [hbit hlow, hclose.committing, hcommit]

/-! ### A commit that opens (R174 to R177) -/

section
variable (p : Pkg) (i : Image)

/-- Whether the step is the agreement step of its cycle. -/
abbrev Pkg.agrees : Bool := isAgreementStep i p.stepc.stepIndex

/-- acc_count is full: the commit adds nothing to the accumulators (R174). -/
def Pkg.accFull : Bool := !p.agrees i && decide (65535 ≤ p.blockHdr.1.acc)

/-- acc_count after the commit (R166). -/
def Pkg.accNext : Nat := if p.agrees i then 0 else if p.accFull i then p.blockHdr.1.acc else p.blockHdr.1.acc + 1

/-- update_count after the commit (R166). -/
def Pkg.updateNext : Nat := if p.agrees i then (p.blockHdr.1.update + 1) % 2 ^ 64 else p.blockHdr.1.update

/-- The writes of an opening commit to the step block and the tables. -/
def Pkg.commitWrites : Pkg :=
  let h := p.blockHdr
  let q := h.2.agentWrite ioA (stepBlock + 16) (toLe 8 (p.reg O.generatorStep))
  let q := if p.agrees i then
      (q.agentWrite ioA stepBlock (toLe 8 ((h.1.update + 1) % 2 ^ 64))).agentWrite ioA (stepBlock + 12) (toLe 4 (recipF32 (h.1.acc + 1)).toNat)
    else q
  let q := q.scaleUnit
  let q := if p.agrees i then q.steerAll h.1.nLr else q
  q.agentWrite ioA (stepBlock + 8) (toLe 2 (p.accNext i))

/-- The objects that an opening commit sets. -/
def Pkg.commitCounts (q : Pkg) (agree : Bool) (update acc : Nat) : Pkg :=
  let q := ((q.setReg O.updateCount update).setReg O.accCount acc).setReg O.lastCommitKind (if agree then 2 else 1)
  if agree then q.setReg O.voidStreak 0 else q

/-- The step is decided, and its commit open. -/
def Pkg.markCommit (q : Pkg) (c : Nat) (full : Bool) : Pkg :=
  q.setStepc { q.stepc with
    decided := true, committing := true
    discards := q.stepc.discards ++ (if full then [(q.stepc.commitSent, c, true)] else []) }

theorem commitStep_eq (c : Nat) : p.commitStep i c =
    (let q := ((p.commitWrites i).commitCounts (p.agrees i) (p.updateNext i) (p.accNext i)).markCommit c (p.accFull i)
    if p.accFull i then q.haltSoon else q) := rfl

theorem ite_stepKept {c : Prop} [Decidable c] {q r u : Pkg} (ht : StepKept q r) (he : StepKept q u) : StepKept q (if c then r else u) := by
  split
  · exact ht
  · exact he

theorem commitWrites_keeps : StepKept p (p.commitWrites i) := by
  have hstart := (StepKept.refl p).blockHdr.agentWrite (stepBlock + 16) (toLe 8 (p.reg O.generatorStep))
  have hcounted := ite_stepKept (c := p.agrees i = true) ((hstart.agentWrite stepBlock (toLe 8 ((p.blockHdr.1.update + 1) % 2 ^ 64))).agentWrite (stepBlock + 12)
    (toLe 4 (recipF32 (p.blockHdr.1.acc + 1)).toNat)) hstart
  exact (ite_stepKept (hcounted.scaleUnit.steerAll _) hcounted.scaleUnit).agentWrite _ _

theorem commitCounts_reg (q : Pkg) (agree : Bool) (update acc : Nat) :
    (q.commitCounts agree update acc).reg O.lastCommitKind = (if agree then 2 else 1) ∧
      (q.commitCounts agree update acc).reg O.voidCount = q.reg O.voidCount ∧
      (q.commitCounts agree update acc).reg O.voidStreak = (if agree then 0 else q.reg O.voidStreak) ∧
      (q.commitCounts agree update acc).reg O.updateCount = update ∧ (q.commitCounts agree update acc).reg O.accCount = acc ∧
      (q.commitCounts agree update acc).reg O.generatorStep = q.reg O.generatorStep := by
  have hset : ∀ k, k ≠ O.updateCount → k ≠ O.accCount → k ≠ O.lastCommitKind →
      (((q.setReg O.updateCount update).setReg O.accCount acc).setReg O.lastCommitKind (if agree then 2 else 1)).reg k = q.reg k := fun k h1 h2 h3 => by
    rw [reg_setReg_other _ _ _ _ h3, reg_setReg_other _ _ _ _ h2, reg_setReg_other _ _ _ _ h1]
  have hupdate : (((q.setReg O.updateCount update).setReg O.accCount acc).setReg O.lastCommitKind (if agree then 2 else 1)).reg O.updateCount = update := by
    rw [reg_setReg_other _ _ _ _ (by decide), reg_setReg_other _ _ _ _ (by decide), reg_setReg_self]
  have hacc : (((q.setReg O.updateCount update).setReg O.accCount acc).setReg O.lastCommitKind (if agree then 2 else 1)).reg O.accCount = acc := by
    rw [reg_setReg_other _ _ _ _ (by decide), reg_setReg_self]
  have hkind := reg_setReg_self ((q.setReg O.updateCount update).setReg O.accCount acc) O.lastCommitKind (if agree then 2 else 1)
  rw [Pkg.commitCounts]
  generalize ((q.setReg O.updateCount update).setReg O.accCount acc).setReg O.lastCommitKind (if agree then 2 else 1) = r at *
  cases agree with
  | true =>
    rw [if_pos rfl, if_pos rfl]
    refine ⟨?_, ?_, reg_setReg_self .., ?_, ?_, ?_⟩
    · rw [reg_setReg_other _ _ _ _ (by decide), hkind, if_pos rfl]
    · rw [reg_setReg_other _ _ _ _ (by decide), hset _ (by decide) (by decide) (by decide)]
    · rw [reg_setReg_other _ _ _ _ (by decide), hupdate]
    · rw [reg_setReg_other _ _ _ _ (by decide), hacc]
    · rw [reg_setReg_other _ _ _ _ (by decide), hset _ (by decide) (by decide) (by decide)]
  | false =>
    rw [if_neg (by decide), if_neg (by decide)]
    exact ⟨hkind, hset _ (by decide) (by decide) (by decide), hset _ (by decide) (by decide) (by decide), hupdate, hacc,
      hset _ (by decide) (by decide) (by decide)⟩

theorem markCommit_stepc (q : Pkg) (c : Nat) (full : Bool) : (q.markCommit c full).stepc.decided = true ∧ (q.markCommit c full).stepc.committing = true :=
  ⟨rfl, rfl⟩

theorem markCommit_reg (q : Pkg) (c k : Nat) (full : Bool) : (q.markCommit c full).reg k = q.reg k := rfl

/-- What an opening commit leaves before the ledgers are closed. -/
theorem commitStep_keeps (c : Nat) : (p.commitStep i c).stepc.decided = true ∧ (p.commitStep i c).stepc.committing = true ∧
    ∀ k, (p.commitStep i c).reg k = ((p.commitWrites i).commitCounts (p.agrees i) (p.updateNext i) (p.accNext i)).reg k := by
  rw [commitStep_eq]
  generalize (p.commitWrites i).commitCounts (p.agrees i) (p.updateNext i) (p.accNext i) = q
  obtain ⟨hdecided, hcommitting⟩ := markCommit_stepc q c (p.accFull i)
  have hreg := markCommit_reg q c (full := p.accFull i)
  generalize q.markCommit c (p.accFull i) = r at *
  dsimp only
  split
  · rw [haltSoon_stepc]
    exact ⟨hdecided, hcommitting, fun k => (haltSoon_reg r k).trans (hreg k)⟩
  · exact ⟨hdecided, hcommitting, hreg⟩

end

theorem decision_commit (s : State) (i : Image) (c : Nat) (h : AtDecision s i c) (hheld : s.pkg.stepc.held = none) :
    ∃ q, Does .stepDecision s (Pkg.writeSysHeader q) ∧ q.stepc.decided = true ∧ q.stepc.committing = true ∧
      Pkg.reg q O.lastCommitKind = (if isAgreementStep i s.pkg.stepc.stepIndex then 2 else 1) ∧
      Pkg.reg q O.voidCount = s.pkg.reg O.voidCount ∧
      Pkg.reg q O.voidStreak = (if isAgreementStep i s.pkg.stepc.stepIndex then 0 else s.pkg.reg O.voidStreak) ∧
      Pkg.reg q O.updateCount = (if isAgreementStep i s.pkg.stepc.stepIndex then (s.pkg.blockHdr.1.update + 1) % 2 ^ 64
        else s.pkg.blockHdr.1.update) ∧
      Pkg.reg q O.accCount = (if isAgreementStep i s.pkg.stepc.stepIndex then 0
        else if 65535 ≤ s.pkg.blockHdr.1.acc then s.pkg.blockHdr.1.acc else s.pkg.blockHdr.1.acc + 1) ∧
      (s.pkg.reg O.generatorStep % 128 < 64 → bitOf (Pkg.reg q O.stepOutcome) (s.pkg.reg O.generatorStep % 128) = true) := by
  refine ⟨(s.pkg.commitStep i c).endDecision, by rw [Does, exec_stepDecision h, hheld], ?_⟩
  obtain ⟨hdecided, hcommitting, hreg⟩ := commitStep_keeps s.pkg i c
  obtain ⟨hkind, hcount, hstreak, hupdate, hacc, hstep⟩ := commitCounts_reg (s.pkg.commitWrites i) (s.pkg.agrees i) (s.pkg.updateNext i) (s.pkg.accNext i)
  have hwrites := commitWrites_keeps s.pkg i
  generalize s.pkg.commitStep i c = q at *
  obtain ⟨hend, hendc, -, hendreg, hbit⟩ := endDecision_keeps q
  generalize q.endDecision = u at *
  have hall : ∀ k ∈ stepObjects, k ≠ O.stepOutcome → k ≠ O.stepOutcomeHigh → u.reg k =
      ((s.pkg.commitWrites i).commitCounts (s.pkg.agrees i) (s.pkg.updateNext i) (s.pkg.accNext i)).reg k := fun k hk h1 h2 =>
    (hendreg k hk h1 h2).trans (hreg k)
  have hqstep : q.reg O.generatorStep = s.pkg.reg O.generatorStep := ((hreg _).trans hstep).trans (hwrites.reg _ (by decide))
  rw [hqstep, hcommitting] at hbit
  refine ⟨hend.trans hdecided, hendc.trans hcommitting, (hall _ (by decide) (by decide) (by decide)).trans hkind, ?_, ?_,
    (hall _ (by decide) (by decide) (by decide)).trans hupdate, ?_, hbit⟩
  · exact (hall _ (by decide) (by decide) (by decide)).trans (hcount.trans (hwrites.reg _ (by decide)))
  · rw [hall _ (by decide) (by decide) (by decide), hstreak, hwrites.reg _ (by decide)]
  · rw [hall _ (by decide) (by decide) (by decide), hacc, Pkg.accNext, Pkg.accFull, Pkg.agrees]
    cases isAgreementStep i s.pkg.stepc.stepIndex <;> simp

/-! ### Read indices and queries (R80, R82, R224, R232) -/

theorem does_of {i : Instr} {s : State} {p q : Pkg} (h : exec i s = .next (s.settle p)) (hpq : p = q) : Does i s q := by rw [Does, h, hpq]

theorem objAt_ledgerReadIndex : objAt O.ledgerReadIndex = some ⟨O.ledgerReadIndex, 1, 1, 1, 4, .rw, 0, 0xFFFFFFFF, false⟩ := by decide +kernel
theorem objAt_dispatchReadIndex : objAt O.dispatchReadIndex = some ⟨O.dispatchReadIndex, 1, 1, 1, 4, .rw, 0, 0xFFFFFFFF, false⟩ := by decide +kernel
theorem objAt_scaleQueryId : objAt O.scaleQueryId = some ⟨O.scaleQueryId, 1, 1, 1, 4, .rw, 0, 0xFFFFFFFF, false⟩ := by decide +kernel
theorem objAt_placementQuery : objAt O.placementQuery = some ⟨O.placementQuery, 1, 1, 1, 4, .rw, 0, 0xFFFFFFFF, false⟩ := by decide +kernel

section
variable (p : Pkg) (pt : Path) (g : Ring) (v : Nat) (hobj : objAt g.rd = some ⟨g.rd, 1, 1, 1, 4, .rw, 0, 0xFFFFFFFF, false⟩) (hv : v ≤ 0xFFFFFFFF)
include hobj hv

theorem readIndexWrite_taken (h : (v + 2 ^ 32 - p.reg g.rd) % 2 ^ 32 ≤ (p.reg g.wr + 2 ^ 32 - p.reg g.rd) % 2 ^ 32) :
    p.readIndexWrite pt g v = p.setReg g.rd v := by
  rw [Pkg.readIndexWrite, objWrite_in_range hobj (Nat.zero_le v) hv, if_neg (Nat.not_lt.mpr h)]

theorem readIndexWrite_refused (h : (p.reg g.wr + 2 ^ 32 - p.reg g.rd) % 2 ^ 32 < (v + 2 ^ 32 - p.reg g.rd) % 2 ^ 32) :
    p.readIndexWrite pt g v = p.refuse pt g.rd abRange := by
  rw [Pkg.readIndexWrite, objWrite_in_range hobj (Nat.zero_le v) hv, if_pos h]

end

theorem indexes_and_queries (s : State) (pt : Path) (v : Nat) (hruns : s.Runs (pathPlane pt)) (hv : v < 2 ^ 32) :
     ((v + 2 ^ 32 - s.pkg.reg O.ledgerReadIndex) % 2 ^ 32 ≤
         (s.pkg.reg O.ledgerWriteIndex + 2 ^ 32 - s.pkg.reg O.ledgerReadIndex) % 2 ^ 32 →
       Does (.ledgerReadIndexWrite pt v) s (s.pkg.setReg O.ledgerReadIndex v)) ∧
     ((s.pkg.reg O.ledgerWriteIndex + 2 ^ 32 - s.pkg.reg O.ledgerReadIndex) % 2 ^ 32 <
         (v + 2 ^ 32 - s.pkg.reg O.ledgerReadIndex) % 2 ^ 32 →
       Does (.ledgerReadIndexWrite pt v) s (s.pkg.refuse pt O.ledgerReadIndex abRange)) ∧
     ((v + 2 ^ 32 - s.pkg.reg O.dispatchReadIndex) % 2 ^ 32 ≤
         (s.pkg.reg O.dispatchWriteIndex + 2 ^ 32 - s.pkg.reg O.dispatchReadIndex) % 2 ^ 32 →
       Does (.dispatchReadIndexWrite pt v) s (s.pkg.setReg O.dispatchReadIndex v)) ∧
     ((s.pkg.reg O.dispatchWriteIndex + 2 ^ 32 - s.pkg.reg O.dispatchReadIndex) % 2 ^ 32 <
         (v + 2 ^ 32 - s.pkg.reg O.dispatchReadIndex) % 2 ^ 32 →
       Does (.dispatchReadIndexWrite pt v) s (s.pkg.refuse pt O.dispatchReadIndex abRange)) ∧
     (v < s.pkg.reg O.scaleTableEntries → Does (.scaleQuery pt v) s (s.pkg.setReg O.scaleQueryId v)) ∧
     (s.pkg.reg O.scaleTableEntries ≤ v → Does (.scaleQuery pt v) s (s.pkg.refuse pt O.scaleQueryId abRange)) ∧
     (v % 2 ^ 12 = 0 → bits v 31 24 < s.pkg.place.length → bits v 23 12 < (s.pkg.place.getD (bits v 31 24) []).length →
       Does (.placementQuery pt v) s (s.pkg.setReg O.placementQuery v)) ∧
     (¬(v % 2 ^ 12 = 0 ∧ bits v 31 24 < s.pkg.place.length ∧ bits v 23 12 < (s.pkg.place.getD (bits v 31 24) []).length) →
       Does (.placementQuery pt v) s (s.pkg.refuse pt O.placementQuery abRange)) := by
  have hledger : exec (.ledgerReadIndexWrite pt v) s = execLedgerReadIndexWrite pt v s := rfl
  have hdispatch : exec (.dispatchReadIndexWrite pt v) s = execDispatchReadIndexWrite pt v s := rfl
  have hscale : exec (.scaleQuery pt v) s = execScaleQuery pt v s := rfl
  have hplace : exec (.placementQuery pt v) s = execPlacementQuery pt v s := rfl
  have hmax : v ≤ 0xFFFFFFFF := Nat.le_of_lt_succ hv
  rw [execLedgerReadIndexWrite, on_runs s _ _ hruns] at hledger
  rw [execDispatchReadIndexWrite, on_runs s _ _ hruns] at hdispatch
  rw [execScaleQuery, on_runs s _ _ hruns, Pkg.scaleQueryWrite, objWrite_in_range objAt_scaleQueryId (Nat.zero_le v) hmax] at hscale
  rw [execPlacementQuery, on_runs s _ _ hruns, Pkg.placementQueryWrite, objWrite_in_range objAt_placementQuery (Nat.zero_le v) hmax] at hplace
  refine ⟨fun h => ?_, fun h => ?_, fun h => ?_, fun h => ?_, fun h => ?_, fun h => ?_, fun h1 h2 h3 => ?_, fun h => ?_⟩
  · exact does_of hledger (readIndexWrite_taken s.pkg pt ledgerRing v objAt_ledgerReadIndex hmax h)
  · exact does_of hledger (readIndexWrite_refused s.pkg pt ledgerRing v objAt_ledgerReadIndex hmax h)
  · exact does_of hdispatch (readIndexWrite_taken s.pkg pt dispatchRing v objAt_dispatchReadIndex hmax h)
  · exact does_of hdispatch (readIndexWrite_refused s.pkg pt dispatchRing v objAt_dispatchReadIndex hmax h)
  · rw [Does, hscale, if_neg (Nat.not_le.mpr h)]
  · rw [Does, hscale, if_pos h]
  · rw [Does, hplace, if_pos ⟨h1, h2, h3⟩]
  · rw [Does, hplace, if_neg h]

/-- Settles O25. -/
theorem voteOrderAndDecision : Obligations.VoteOrderAndDecision :=
  ⟨⟨votePrecedes_asymm, votePrecedes_trans, firstRec_comm⟩,
    fun s i c hruns himage hbeat hstate hundecided hreached =>
      have h : AtDecision s i c := ⟨hruns, himage, hbeat, hstate, hundecided, hreached⟩
      ⟨decision_void s i c h, decision_commit s i c h⟩,
    indexes_and_queries⟩

end Sys2Proof.Machine

namespace Sys2Proof.Machine

/-! ## The Agreement engines (R182 to R205) -/

/-! ### The arithmetic of a hop (R191) -/

theorem sum_comm (x y : List Int) : (x.zip y).map (fun e => e.1 + e.2) = (y.zip x).map fun e => e.1 + e.2 := by
  induction x generalizing y with
  | nil => rw [List.zip_nil_left, List.zip_nil_right]
  | cons a x ih =>
    cases y with
    | nil => rfl
    | cons b y => rw [List.zip_cons_cons, List.zip_cons_cons, List.map_cons, List.map_cons, ih, add_comm]

/-- A contribution at the scale of the hop: the greater of the two scales. -/
def atScaleOf (x y : Work) : Work := if x.hdr.scale < y.hdr.scale then x.shift (y.hdr.scale - x.hdr.scale).toNat else x

/-- The exact sums of a hop. -/
def hopSum (c l : Work) : List Int := ((atScaleOf c l).vals.zip (atScaleOf l c).vals).map fun e => e.1 + e.2

theorem hopSum_comm (c l : Work) : hopSum c l = hopSum l c := sum_comm _ _

theorem hopWork_step (me : Nat) (c l : Work) : (hopWork me c l).2 = leastShift (hopSum c l) 400 0 := by
  unfold hopWork hopSum atScaleOf
  rfl

theorem hopWork_vals (me : Nat) (c l : Work) : (hopWork me c l).1.vals =
    if leastShift (hopSum c l) 400 0 = 0 then hopSum c l
    else (hopSum c l).map fun v => rneDiv v (2 ^ leastShift (hopSum c l) 400 0) := by
  unfold hopWork hopSum atScaleOf
  dsimp only
  generalize leastShift _ 400 0 = k
  split
  · rfl
  · rfl

theorem hopWork_comm (me : Nat) (c l : Work) : (hopWork me c l).1.vals = (hopWork me l c).1.vals ∧ (hopWork me c l).2 = (hopWork me l c).2 := by
  rw [hopWork_vals, hopWork_vals, hopWork_step, hopWork_step, hopSum_comm]
  exact ⟨rfl, rfl⟩

theorem rneDiv_cases (v : Int) (d : Nat) : rneDiv v d = v / d ∨ rneDiv v d = v / d + 1 := by
  unfold rneDiv
  dsimp only
  split
  · exact Or.inr rfl
  · exact Or.inl rfl

theorem ediv_natAbs_le (v : Int) (d : Nat) (hd : 0 < d) : (v / d).natAbs ≤ v.natAbs := Int.natAbs_ediv_le_natAbs v d

theorem rneDiv_natAbs_le (v : Int) (d : Nat) (hd : 0 < d) : (rneDiv v d).natAbs ≤ v.natAbs + 1 := by
  have h := ediv_natAbs_le v d hd
  rcases rneDiv_cases v d with h' | h' <;> omega

/-- A value below the divisor rounds to one of −1, 0 and 1. -/
theorem rneDiv_small (v : Int) (d : Nat) (h : v.natAbs < d) : (rneDiv v d).natAbs ≤ 1 := by
  have hd : (0 : Int) < d := by omega
  have hlo : -1 ≤ v / (d : Int) := Int.le_ediv_of_mul_le hd (by omega)
  have hhi : v / (d : Int) < 1 := Int.ediv_lt_of_lt_mul hd (by omega)
  rcases rneDiv_cases v d with h' | h' <;> omega

theorem rneDiv_one (v : Int) : rneDiv v 1 = v := by
  simp [rneDiv]

/-- Every value fits after a shift by k. -/
def fitsAt (x : List Int) (k : Nat) : Bool := x.all fun v => decide ((rneDiv v (2 ^ k)).natAbs ≤ maxValue.toNat)

theorem leastShift_fits (x : List Int) (n k m : Nat) (hk : k ≤ m) (hm : m < k + n) (hfit : fitsAt x m = true) : fitsAt x (leastShift x n k) = true := by
  induction n generalizing k with
  | zero => omega
  | succ n ih =>
    rw [leastShift]
    split
    · assumption
    · rename_i hnot
      exact ih (k + 1) (Nat.lt_of_le_of_ne hk fun h => hnot (h ▸ hfit)) (by omega)

theorem atScaleOf_vals (x y : Work) (b : Nat) (h : ∀ v ∈ x.vals, v.natAbs < b) : ∀ v ∈ (atScaleOf x y).vals, v.natAbs < b + 1 := by
  rw [atScaleOf]
  split
  · intro v hv
    obtain ⟨w, hw, rfl⟩ := List.mem_map.mp hv
    have hle := rneDiv_natAbs_le w (2 ^ (y.hdr.scale - x.hdr.scale).toNat) (Nat.two_pow_pos _)
    have := h w hw
    omega
  · exact fun v hv => Nat.lt_succ_of_lt (h v hv)

theorem hopSum_natAbs (c l : Work) (b : Nat) (hc : ∀ v ∈ c.vals, v.natAbs < b) (hl : ∀ v ∈ l.vals, v.natAbs < b) :
    ∀ v ∈ hopSum c l, v.natAbs < 2 * b + 2 := by
  intro v hv
  obtain ⟨⟨x, y⟩, hxy, rfl⟩ := List.mem_map.mp hv
  obtain ⟨hx, hy⟩ := List.of_mem_zip hxy
  have hx' := atScaleOf_vals c l b hc x hx
  have hy' := atScaleOf_vals l c b hl y hy
  dsimp only
  omega

theorem twice_pow_le (n : Nat) : 2 * 2 ^ n + 2 ≤ 2 ^ (n + 2) := by
  have hone : 1 ≤ 2 ^ n := Nat.one_le_two_pow
  rw [pow_add]
  omega

theorem two_pow_bound : 2 * 2 ^ 300 + 2 ≤ 2 ^ 399 := (twice_pow_le 300).trans (Nat.pow_le_pow_right (Nat.zero_lt_two) (Nat.le.intro (k := 97) rfl))

/-- The values of a hop fit in 32 bits, the most negative one unused. -/
theorem hopWork_fits (me : Nat) (c l : Work) (hc : ∀ v ∈ c.vals, v.natAbs < 2 ^ 300) (hl : ∀ v ∈ l.vals, v.natAbs < 2 ^ 300) :
    ∀ v ∈ (hopWork me c l).1.vals, v.natAbs ≤ 2 ^ 31 - 1 := by
  have hsum := hopSum_natAbs c l (2 ^ 300) hc hl
  have hfar : fitsAt (hopSum c l) 399 = true := List.all_eq_true.mpr fun v hv =>
    decide_eq_true (Nat.le_trans (rneDiv_small v (2 ^ 399) (Nat.lt_of_lt_of_le (hsum v hv) two_pow_bound)) (by decide))
  have hfit := List.all_eq_true.mp (leastShift_fits (hopSum c l) 400 0 399 (Nat.zero_le _) (by decide) hfar)
  have hmax : maxValue.toNat = 2 ^ 31 - 1 := by decide
  rw [hopWork_vals]
  split
  · rename_i hzero
    intro v hv
    have h := of_decide_eq_true (hfit v hv)
    rwa [hzero, pow_zero, rneDiv_one, hmax] at h
  · intro v hv
    obtain ⟨w, hw, rfl⟩ := List.mem_map.mp hv
    have h := of_decide_eq_true (hfit w hw)
    rwa [hmax] at h

/-! ### The ring input (R197, R198) -/

@[simp] theorem chan_setChan_self (p : Pkg) (e : Bool) (ch : Nat) (c : ChanSt) : (p.setChan e ch c).chan e ch = c := by
  have hengine : (p.setChan e ch c).engine e = { p.engine e with chans := (p.engine e).chans.put ChanSt.reset ch c } := SMap.at_put_self ..
  rw [Pkg.chan, hengine]
  exact SMap.at_put_self ..

section
variable {s : State} {e : Bool} {ch : Fin 16} {x : Chunk} {i : Image} {c : ChanEnt} {b : BucketEnt}

/-- A package that fails with event 0x3A07 keeps its memory. -/
theorem fails_with_3A07 (hruns : s.Runs .data) :
    ∃ t, Host.Outcome.next (s.settle (s.pkg.raise 0x3A07 (b2n e) 0).declareFailed) = (.next t : Host.Outcome State Fault Refusal) ∧
      t.pkg.failed = true ∧ RaisedEver t 0x3A07 ∧ SameMemory s t := by
  obtain ⟨hfailed, hraised, -, -⟩ := declareFailed_shown s s.pkg 0x3A07 (b2n e) 0 (not_failed_of_data hruns)
  exact ⟨_, rfl, hfailed, hraised, fun a => congrArg (SMap.at 0 a) (declareFailed_mem _)⟩

theorem exec_chunkReceive (hruns : s.Runs .data) : exec (.agreementChunkReceive e ch x) s = .next (s.settle (s.pkg.receiveChunk e ch.val x)) := by
  have hexec : exec (.agreementChunkReceive e ch x) s = execAgreementChunkReceive e ch x s := rfl
  rw [hexec, execAgreementChunkReceive, on_runs s _ _ hruns]

/-- A chunk that is expected, at a buffer with room. -/
theorem receiveChunk_joins {p : Pkg} {ch : Nat} (himage : p.posImage = some i) (hentry : chanEntry i e ch = some c)
    (hbucket : chanBucket i c (headBucket i c (p.chan e ch).rxPos) = some b) (hroom : (p.chan e ch).rx.length < 4)
    (hexpected : expectedChunk p c b (p.chan e ch) x.hdr = true) (hgood : x.hdr.kind = 4 ∨ badGroups x = 0) (hflit : x.flitError = false) :
    p.receiveChunk e ch x = p.setChan e ch ({ p.chan e ch with rx := (p.chan e ch).rx ++ [x] }.rxNext i c b) := by
  have hn : (if x.hdr.kind = 4 then 0 else badGroups x) = 0 := by
    split
    · rfl
    · exact hgood.resolve_left ‹_›
  rw [Pkg.receiveChunk, himage]
  dsimp only
  rw [hentry]
  dsimp only
  rw [hbucket]
  dsimp only
  rw [if_neg (Nat.not_le.mpr hroom), hexpected, if_neg (by decide), hn, if_pos rfl]
  obtain ⟨hdr, words, residues, flitError⟩ := x
  subst hflit
  simp only [ne_eq, not_true, decide_false, Bool.or_false, Bool.false_and, Bool.false_eq_true, if_false]

theorem receiveChunk_unexpected {p : Pkg} {ch : Nat} (himage : p.posImage = some i) (hentry : chanEntry i e ch = some c)
    (hbucket : chanBucket i c (headBucket i c (p.chan e ch).rxPos) = some b) (hroom : (p.chan e ch).rx.length < 4)
    (hunexpected : expectedChunk p c b (p.chan e ch) x.hdr = false) : p.receiveChunk e ch x = (p.raise 0x3A07 (b2n e) 0).declareFailed := by
  rw [Pkg.receiveChunk, himage]
  dsimp only
  rw [hentry]
  dsimp only
  rw [hbucket]
  dsimp only
  rw [if_neg (Nat.not_le.mpr hroom), hunexpected]
  rfl

theorem receiveChunk_full {p : Pkg} {ch : Nat} (himage : p.posImage = some i) (hentry : chanEntry i e ch = some c)
    (hbucket : chanBucket i c (headBucket i c (p.chan e ch).rxPos) = some b) (hfull : 4 ≤ (p.chan e ch).rx.length) :
    p.receiveChunk e ch x = p := by
  rw [Pkg.receiveChunk, himage]
  dsimp only
  rw [hentry]
  dsimp only
  rw [hbucket]
  dsimp only
  rw [if_pos hfull]

theorem receiveChunk_unnamed {p : Pkg} {ch : Nat} (himage : p.posImage = some i) (hentry : chanEntry i e ch = none) :
    p.receiveChunk e ch x = (p.raise 0x3A07 (b2n e) 0).declareFailed := by
  rw [Pkg.receiveChunk, himage]
  dsimp only
  rw [hentry]

end

theorem chunk_received (s : State) (e : Bool) (ch : Fin 16) (x : Chunk) (i : Image) (hruns : s.Runs .data) (himage : s.pkg.posImage = some i) :
     (∀ c b, chanEntry i e ch.val = some c → chanBucket i c (headBucket i c (s.pkg.chan e ch.val).rxPos) = some b →
       (s.pkg.chan e ch.val).rx.length < 4 → expectedChunk s.pkg c b (s.pkg.chan e ch.val) x.hdr = true →
       (x.hdr.kind = 4 ∨ badGroups x = 0) → x.flitError = false →
       Does (.agreementChunkReceive e ch x) s (s.pkg.setChan e ch.val
         ({ s.pkg.chan e ch.val with rx := (s.pkg.chan e ch.val).rx ++ [x] }.rxNext i c b))) ∧
     (∀ c b, chanEntry i e ch.val = some c → chanBucket i c (headBucket i c (s.pkg.chan e ch.val).rxPos) = some b →
       (s.pkg.chan e ch.val).rx.length < 4 → expectedChunk s.pkg c b (s.pkg.chan e ch.val) x.hdr = false →
       ∃ t, exec (.agreementChunkReceive e ch x) s = .next t ∧ t.pkg.failed = true ∧ RaisedEver t 0x3A07 ∧ SameMemory s t) ∧
     (∀ c b, chanEntry i e ch.val = some c → chanBucket i c (headBucket i c (s.pkg.chan e ch.val).rxPos) = some b →
       4 ≤ (s.pkg.chan e ch.val).rx.length → Does (.agreementChunkReceive e ch x) s s.pkg) ∧
     (chanEntry i e ch.val = none →
       ∃ t, exec (.agreementChunkReceive e ch x) s = .next t ∧ t.pkg.failed = true ∧ RaisedEver t 0x3A07 ∧ SameMemory s t) := by
  have hexec := exec_chunkReceive (e := e) (ch := ch) (x := x) hruns
  refine ⟨fun c b hentry hbucket hroom hexpected hgood hflit => ?_, fun c b hentry hbucket hroom hunexpected => ?_,
    fun c b hentry hbucket hfull => ?_, fun hentry => ?_⟩
  · exact does_of hexec (receiveChunk_joins himage hentry hbucket hroom hexpected hgood hflit)
  · rw [hexec, receiveChunk_unexpected himage hentry hbucket hroom hunexpected]
    exact fails_with_3A07 hruns
  · exact does_of hexec (receiveChunk_full himage hentry hbucket hfull)
  · rw [hexec, receiveChunk_unnamed himage hentry]
    exact fails_with_3A07 hruns

/-! ### Hops and local input (R185, R200, R204) -/

theorem hop_steps (s : State) (e : Bool) (ch : Fin 16) (m : Nat) (i : Image) (c : ChanEnt) (b : BucketEnt) (hruns : s.Runs .data)
    (himage : s.pkg.posImage = some i) (hentry : chanEntry i e ch.val = some c)
    (hbucket : chanBucket i c (headBucket i c (s.pkg.chan e ch.val).pos) = some b) (hsome : b.nElem ≠ 0) :
    Does (.agreementHop e ch m) s ((s.pkg.agreementStep i c b m).drainChan e ch.val) := by
  have hexec : exec (.agreementHop e ch m) s = execAgreementHop e ch m s := rfl
  rw [Does, hexec, execAgreementHop, on_runs s _ _ hruns, himage]
  dsimp only
  rw [hentry]
  dsimp only
  rw [hbucket]
  dsimp only
  rw [if_neg hsome]

theorem gather_step (p : Pkg) (i : Image) (c : ChanEnt) (b : BucketEnt) (m : Nat) (y : Chunk) (r : List Chunk)
    (hrx : (p.chan c.engine c.channel).rx = y :: r) (hreduces : reduces c (p.chan c.engine c.channel).stage = false)
    (hgather : gatherHop c (p.chan c.engine c.channel).stage ≠ 0) (hinner : (p.chan c.engine c.channel).stage + 1 < stages c) :
    p.agreementStep i c b m =
      ((((p.setChan c.engine c.channel { p.chan c.engine c.channel with rx := r }).finalChunk i c b y
        (stagePart c (p.chan c.engine c.channel).stage)).sendChunk c { y with hdr := { y.hdr with hop := y.hdr.hop + 1 } }).chanNext i c b) := by
  have hlast : decide ((p.chan c.engine c.channel).stage + 1 = stages c) = false := decide_eq_false (by omega)
  rw [Pkg.agreementStep]
  dsimp only
  rw [hreduces, if_neg (by decide), if_neg hgather, hrx, hlast]
  rfl

theorem xagr_offers (s : State) (a : XSlot) (i : Image) (h : MoveIssues a false true s) (himage : s.pkg.posImage = some i)
    (hwin : (xdesc (s.pkg.tile a.t.val).xd a.mdesc.val).rwin = 0) :
    Does (.xagr a) s (((List.range a.count.toNat).foldl (fun p k =>
      p.offerInput i (xdesc (s.pkg.tile a.t.val).xd a.mdesc.val).bucket a.t.val
        (((s.pkg.tile a.t.val).xlocal a.mdesc.val).toNat + 64 * k)
        (if (xdesc (s.pkg.tile a.t.val).xd a.mdesc.val).doneEn then (xdesc (s.pkg.tile a.t.val).xd a.mdesc.val).doneWin + 1 else 0))
      s.pkg).xadvance a.t.val a.mdesc.val) := by
  have hexec : exec (.xagr a) s = execXagr a s := rfl
  rw [Does, hexec, execXagr, move_of_issues _ _ h (decide_eq_true hwin), himage]

theorem takeInput_input (p : Pkg) (i : Image) (c : ChanEnt) (bucket t off done : Nat) :
    ((p.takeInput i c bucket t off done).chan c.engine c.channel).input =
      (p.chan c.engine c.channel).input ++ [(bucket, (p.localFlit t off 0).map packWord)] ∧ (p.takeInput i c bucket t off done).mem = p.mem := by
  have hchan := chan_setChan_self p c.engine c.channel
    { p.chan c.engine c.channel with input := (p.chan c.engine c.channel).input ++ [(bucket, (p.localFlit t off 0).map packWord)] }
  have hmem : (p.setChan c.engine c.channel { p.chan c.engine c.channel with
    input := (p.chan c.engine c.channel).input ++ [(bucket, (p.localFlit t off 0).map packWord)] }).mem = p.mem := rfl
  rw [Pkg.takeInput]
  generalize p.setChan c.engine c.channel _ = q at *
  split
  · exact ⟨congrArg ChanSt.input hchan, hmem⟩
  · exact ⟨congrArg ChanSt.input hchan, hmem⟩

theorem xagr_single (s : State) (a : XSlot) (i : Image) (c : ChanEnt) (k : Nat) (h : MoveIssues a false true s) (himage : s.pkg.posImage = some i)
    (hone : a.count = 1) (hwin : (xdesc (s.pkg.tile a.t.val).xd a.mdesc.val).rwin = 0)
    (hbucket : bucketChannel i (xdesc (s.pkg.tile a.t.val).xd a.mdesc.val).bucket = some (c, k))
    (hroom : s.pkg.hasRoom i c (xdesc (s.pkg.tile a.t.val).xd a.mdesc.val).bucket = true) (hrefused : (s.pkg.chan c.engine c.channel).refused = []) :
    ∃ t, exec (.xagr a) s = .next t ∧ (t.pkg.chan c.engine c.channel).input = (s.pkg.chan c.engine c.channel).input ++
      [((xdesc (s.pkg.tile a.t.val).xd a.mdesc.val).bucket,
        (s.pkg.localFlit a.t.val ((s.pkg.tile a.t.val).xlocal a.mdesc.val).toNat 0).map packWord)] ∧ SameMemory s t := by
  have hrange : List.range a.count.toNat = [0] := by rw [hone]; rfl
  have hexec := xagr_offers s a i h himage hwin
  rw [hrange, List.foldl_cons, List.foldl_nil, Pkg.offerInput, hbucket] at hexec
  dsimp only at hexec
  rw [hrefused, if_pos ⟨hroom, by rw [List.any_nil]; rfl⟩, Nat.mul_zero, Nat.add_zero] at hexec
  obtain ⟨hinput, hmem⟩ := takeInput_input s.pkg i c (xdesc (s.pkg.tile a.t.val).xd a.mdesc.val).bucket a.t.val
    ((s.pkg.tile a.t.val).xlocal a.mdesc.val).toNat
    (if (xdesc (s.pkg.tile a.t.val).xd a.mdesc.val).doneEn then (xdesc (s.pkg.tile a.t.val).xd a.mdesc.val).doneWin + 1 else 0)
  generalize s.pkg.takeInput i c _ _ _ _ = q at *
  exact ⟨_, hexec, hinput, fun b => congrArg (SMap.at 0 b) ((xadvance_step q a.t.val a.mdesc.val).mem.trans hmem)⟩

theorem xagrFlit_accepted (s : State) (e : Bool) (ch : Fin 16) (i : Image) (c : ChanEnt) (k : Nat) (r : Nat × Nat × Nat × Nat) (hruns : s.Runs .data)
    (himage : s.pkg.posImage = some i) (hentry : chanEntry i e ch.val = some c)
    (hroom : (s.pkg.chan e ch.val).refused.findIdx? (fun r => s.pkg.hasRoom i c r.2.2.1) = some k)
    (hflit : (s.pkg.chan e ch.val).refused[k]? = some r) :
    Does (.xagrFlitAccept e ch) s
      ((s.pkg.setChan e ch.val { s.pkg.chan e ch.val with refused := dropAt (s.pkg.chan e ch.val).refused k }).takeInput i c r.2.2.1 r.1
        r.2.1 r.2.2.2) := by
  have hexec : exec (.xagrFlitAccept e ch) s = execXagrFlitAccept e ch s := rfl
  rw [Does, hexec, execXagrFlitAccept, on_runs s _ _ hruns, himage]
  dsimp only
  rw [hentry]
  dsimp only
  rw [hroom]
  dsimp only
  rw [hflit]

/-- Settles O26. -/
theorem agreementEngine : Obligations.AgreementEngine :=
  ⟨⟨hopWork_comm, hopWork_fits⟩, chunk_received, hop_steps, gather_step, xagr_offers, xagr_single, xagrFlit_accepted⟩

end Sys2Proof.Machine

namespace Sys2Proof.Machine

/-! ## Stage entries (R227 to R229) -/

section
variable (p : Pkg) (e f : Nat) (y : TierEng)

/-- The package with tier engine e as y. -/
abbrev Pkg.putTier : Pkg := { p with tiers := p.tiers.put TierEng.reset e y }

theorem tier_putTier_self : (p.putTier e y).tier e = y := SMap.at_put_self ..

theorem tier_putTier_other (h : f ≠ e) : (p.putTier e y).tier f = p.tier f := SMap.at_put_other _ _ _ _ _ h

end

theorem stage_starts (s : State) (e : DieNo) (i : Image) (ent : StageEnt) (due : Nat) (hruns : s.Runs .data) (himage : s.pkg.posImage = some i)
    (hdue : s.pkg.stageDue i e.val (s.pkg.tier e.val).next = some (ent, due)) (hstate : s.pkg.reg O.imageState = 4)
    (hbeat : due < s.pkg.schedBeat ∨ due = s.pkg.schedBeat ∧ s.pkg.evaluates = true) (hidle : (s.pkg.tier e.val).busy = none)
    (hmoves : s.pkg.movesRun = false) :
    ∃ t, exec (.stageEntryStart e) s = .next t ∧
      (ent.length = 0 → t.pkg.tier e.val = { s.pkg.tier e.val with next := (s.pkg.tier e.val).next + 1 }) ∧
      (ent.length ≠ 0 → t.pkg.tier e.val = { s.pkg.tier e.val with
        busy := some (s.pkg.tier e.val).next, startBeat := s.pkg.schedBeat }) ∧
      (∀ f, f ≠ e.val → t.pkg.tier f = s.pkg.tier f) ∧ SameMemory s t ∧ SameRegs s t ∧ t.pkg.tiles = s.pkg.tiles := by
  have hexec : exec (.stageEntryStart e) s = execStageEntryStart e s := rfl
  have hready : ¬(s.pkg.reg O.imageState ≠ 4 ∨ s.pkg.schedBeat < due ∨ (s.pkg.schedBeat = due ∧ (!s.pkg.evaluates) = true) ∨
      (s.pkg.tier e.val).busy.isSome = true ∨ s.pkg.movesRun = true) := by
    rw [hidle, hmoves]
    rintro (h | h | ⟨h, hev⟩ | h | h)
    · exact h hstate
    · rcases hbeat with h' | ⟨h', -⟩ <;> omega
    · rcases hbeat with h' | ⟨-, h'⟩
      · omega
      · rw [h'] at hev
        cases hev
    · cases h
    · cases h
  rw [hexec, execStageEntryStart, on_runs s _ _ hruns, himage]
  dsimp only
  rw [hdue]
  dsimp only
  rw [if_neg hready]
  refine ⟨_, rfl, fun h => ?_, fun h => ?_, fun f hf => tier_putTier_other _ _ _ _ hf, fun _ => rfl, fun _ => rfl, rfl⟩
  · rw [settle_pkg, if_pos h]
    exact tier_putTier_self ..
  · rw [settle_pkg, if_neg h]
    exact tier_putTier_self ..

theorem dropLate_tiers (p : Pkg) (c : LateCase) : (p.dropLate c).tiers = p.tiers := by
  rw [Pkg.dropLate]
  split <;> rfl

theorem copyBlock_tiers (p : Pkg) (r src dst n : Nat) : (p.copyBlock r src dst n).tiers = p.tiers :=
  ((agentKept_closed p).agentWriteWords r dst _ ((agentKept_closed p).agentRead r src n (.refl p))).tiers

/-- The copy of a stage entry (R228). -/
def Pkg.stageCopy (p : Pkg) (i : Image) (e : Nat) (ent : StageEnt) : Pkg :=
  if ent.dirIn then p.copyBlock (72 + e) (p.blockAddr i ent.group ent.expert + ent.partOffset) ent.frame ent.length
  else p.copyBlock (72 + e) ent.frame (p.blockAddr i ent.group ent.expert + ent.partOffset) ent.length

theorem stageCopy_tiers (p : Pkg) (i : Image) (e : Nat) (ent : StageEnt) : (p.stageCopy i e ent).tiers = p.tiers := by
  rw [Pkg.stageCopy]
  split
  · exact copyBlock_tiers ..
  · exact copyBlock_tiers ..

theorem stage_completes (s : State) (e : DieNo) (i : Image) (ent : StageEnt) (k due : Nat) (hruns : s.Runs .data) (himage : s.pkg.posImage = some i)
    (hbusy : (s.pkg.tier e.val).busy = some k) (hdue : s.pkg.stageDue i e.val (s.pkg.tier e.val).next = some (ent, due)) :
    ∃ t, exec (.stageEntryComplete e) s = .next t ∧ t.pkg.tier e.val = { s.pkg.tier e.val with
        next := (s.pkg.tier e.val).next + 1, busy := none } ∧ (∀ f, f ≠ e.val → t.pkg.tier f = s.pkg.tier f) ∧
      (s.pkg.schedBeat < due + ent.deadline → t.pkg.mem =
        (if ent.dirIn then
          s.pkg.copyBlock (72 + e.val) (s.pkg.blockAddr i ent.group ent.expert + ent.partOffset) ent.frame ent.length
        else s.pkg.copyBlock (72 + e.val) ent.frame (s.pkg.blockAddr i ent.group ent.expert + ent.partOffset) ent.length).mem) := by
  have hexec : exec (.stageEntryComplete e) s = .next (s.settle (((if due + ent.deadline ≤ s.pkg.schedBeat then s.pkg.dropLate (.stage e) else s.pkg).stageCopy
      i e.val ent).putTier e.val { s.pkg.tier e.val with next := (s.pkg.tier e.val).next + 1, busy := none })) := by
    have hexec : exec (.stageEntryComplete e) s = execStageEntryComplete e s := rfl
    rw [hexec, execStageEntryComplete, on_runs s _ _ hruns, himage]
    dsimp only
    rw [hbusy, hdue]
    rfl
  have hdrop : (if due + ent.deadline ≤ s.pkg.schedBeat then s.pkg.dropLate (.stage e) else s.pkg).tiers = s.pkg.tiers := by
    split
    · exact dropLate_tiers ..
    · rfl
  have htiers := (stageCopy_tiers (if due + ent.deadline ≤ s.pkg.schedBeat then s.pkg.dropLate (.stage e) else s.pkg) i e.val ent).trans hdrop
  refine ⟨_, hexec, tier_putTier_self .., fun f hf => ?_, fun hbefore => ?_⟩
  · rw [settle_pkg, tier_putTier_other _ _ _ _ hf, Pkg.tier, htiers, Pkg.tier]
  · rw [settle_pkg, if_neg (by omega)]
    rfl

theorem requestSlip_reg_other (p : Pkg) (k : Nat) (hk : k ≠ O.slipRequestsIssued) : p.requestSlip.reg k = p.reg k := by
  rw [Pkg.requestSlip]
  split
  · rfl
  · rename_i i _
    dsimp only
    have hflood := flood_reg p 0x01 0 [p.reg O.logicalPosition, p.reg O.domainBeat + i.slipHorizon] k
    generalize p.flood 0x01 0 _ = q at *
    obtain ⟨l, hl⟩ := addSlip_eq ((q.raise 0x3804 noUnit 0).bump O.slipRequestsIssued 1) ⟨p.reg O.domainBeat + i.slipHorizon, i.slipQuantum, .slip⟩
    rw [hl]
    exact (reg_setReg_other _ _ _ _ hk).trans hflood

/-- A late stage entry is counted, with its events (R229). -/
theorem noteLate_stage {p : Pkg} {e : DieNo} (hlate : p.isLate (.stage e) = true) (hnew : p.sched.lateOf (.stage e) = []) :
    ∃ q, p.noteLate (.stage e) = q.requestSlip ∧ LateNoted (((p.raise 0x3806 (lateUnit (.stage e)) 0).bump O.lateEvents 1).raise 0x3C07 e.val 0) q ∧
      q.reg (O.stageLateEntries + e.val) = min (p.reg (O.stageLateEntries + e.val) + 1) (2 ^ 32 - 1) := by
  have hcount := of_decide_eq_true hlate
  have he := e.isLt
  have hbeat : O.domainBeat ≠ O.stageLateEntries + e.val := by simp only [O.domainBeat, O.stageLateEntries]; omega
  have hlates : O.lateEvents ≠ O.stageLateEntries + e.val := by simp only [O.lateEvents, O.stageLateEntries]; omega
  have hmax : O.stageLateEntries + e.val ≠ O.maxLateness := by simp only [O.maxLateness, O.stageLateEntries]; omega
  rw [Pkg.noteLate, hnew, if_neg (by rw [List.length_nil]; omega)]
  refine ⟨_, rfl, (((LateNoted.refl _).setReg _ hbeat hlates).setReg _).setSched _, ?_⟩
  dsimp only
  rw [reg_setSched, reg_setReg_other _ _ _ _ hmax, Pkg.bump, reg_setReg_self, reg_raise, Pkg.bump, reg_setReg_other _ _ _ _ hlates.symm]
  rfl

theorem stage_late (s : State) (e : DieNo) (i : Image) (hruns : s.Runs .data) (himage : s.pkg.loader.image = some i)
    (hlate : s.pkg.isLate (.stage e) = true) (hnew : s.pkg.sched.lateOf (.stage e) = []) :
    ∃ t, exec (.stageEntryDeadline e) s = .next t ∧ RaisedEver t 0x3C07 ∧ RaisedEver t 0x3806 ∧
      t.pkg.reg (O.stageLateEntries + e.val) = min (s.pkg.reg (O.stageLateEntries + e.val) + 1) (2 ^ 32 - 1) ∧ SameMemory s t := by
  have hexec : exec (.stageEntryDeadline e) s = execStageEntryDeadline e s := rfl
  have he := e.isLt
  rw [hexec, execStageEntryDeadline, on_runs s _ _ hruns]
  obtain ⟨q, hq, hnoted, hcount⟩ := noteLate_stage hlate hnew
  rw [hq]
  have hfirst := ((LateNoted.refl ((s.pkg.raise 0x3806 (lateUnit (.stage e)) 0).bump O.lateEvents 1)).raise 0x3C07 e.val 0).hasEvent
    (hasEvent_raise s.pkg 0x3806 (lateUnit (.stage e)) 0)
  refine ⟨_, rfl, hnoted.requestSlip.hasEvent (hasEvent_raise _ _ _ _), hnoted.requestSlip.hasEvent hfirst, ?_,
    fun b => congrArg (SMap.at 0 b) hnoted.requestSlip.mem⟩
  exact (requestSlip_reg_other q _ (by simp only [O.slipRequestsIssued, O.stageLateEntries]; omega)).trans hcount

/-- Settles O28. -/
theorem stageEntries : Obligations.StageEntries := ⟨stage_starts, stage_completes, stage_late⟩

/-! ## Tiles, harts and places (R30, R236 to R239, R259) -/

section
variable (p : Pkg)

/-- A row of 13 places with one of them held out: the place of the x-th of the others, and its number among the others. -/
theorem held_out_place (x sp : Nat) (hx : x < 12) : (if x < sp then x else x + 1) < 13 ∧ (if x < sp then x else x + 1) ≠ sp ∧
    (if (if x < sp then x else x + 1) < sp then (if x < sp then x else x + 1) else (if x < sp then x else x + 1) - 1) = x := by
  split
  · rename_i h
    exact ⟨by omega, by omega, rfl⟩
  · rename_i h
    exact ⟨by omega, by omega, if_neg (by omega)⟩

theorem held_out_number (x sp : Nat) (hx : x < 13) (hsp : sp ≤ 12) (hne : x ≠ sp) : (if x < sp then x else x - 1) < 12 ∧
    (if (if x < sp then x else x - 1) < sp then (if x < sp then x else x - 1) else (if x < sp then x else x - 1) + 1) = x := by
  split
  · rename_i h
    exact ⟨by omega, rfl⟩
  · rename_i h
    exact ⟨by omega, by rw [if_neg (by omega)]; omega⟩

theorem physTile_inverse (n : Nat) (hcols : ∀ k < 16, p.reg (O.spareCol + k) ≤ 12) (hn : n < 192) :
    p.physTile n < 208 ∧ p.logicalTile (p.physTile n) = n := by
  have hrow : n / 24 < 8 := by omega
  have hhalf : n / 24 / 4 < 2 := by omega
  have hside : n % 24 / 12 < 2 := by omega
  obtain ⟨hlt, hne, hback⟩ := held_out_place (n % 24 % 12) (p.reg (O.spareCol + 4 * (n % 24 / 12 + 2 * (n / 24 / 4)) + n / 24 % 4)) (by omega)
  have hq : p.physTile n = (n % 24 / 12 + 2 * (n / 24 / 4)) * 52 + n / 24 % 4 * 13 + (if n % 24 % 12 < p.reg (O.spareCol +
    4 * (n % 24 / 12 + 2 * (n / 24 / 4)) + n / 24 % 4) then n % 24 % 12 else n % 24 % 12 + 1) := rfl
  have hd : p.physTile n / 52 = n % 24 / 12 + 2 * (n / 24 / 4) := by omega
  have hy : p.physTile n % 52 / 13 = n / 24 % 4 := by omega
  have hx : p.physTile n % 13 = (if n % 24 % 12 < p.reg (O.spareCol + 4 * (n % 24 / 12 + 2 * (n / 24 / 4)) + n / 24 % 4) then n % 24 % 12
    else n % 24 % 12 + 1) := by omega
  refine ⟨by omega, ?_⟩
  rw [Pkg.logicalTile, hd, hy, hx, if_neg hne, hback]
  omega

theorem logicalTile_inverse (q : Nat) (hcols : ∀ k < 16, p.reg (O.spareCol + k) ≤ 12) (hq : q < 208) :
    (p.logicalTile q = 0xFF ↔ q % 13 = p.reg (O.spareCol + q / 13)) ∧
    (p.logicalTile q ≠ 0xFF → p.logicalTile q < 192 ∧ p.physTile (p.logicalTile q) = q) := by
  have hcol := hcols (q / 13) (by omega)
  have hkey : O.spareCol + 4 * (q / 52) + q % 52 / 13 = O.spareCol + q / 13 := by omega
  have hlog : p.logicalTile q = if q % 13 = p.reg (O.spareCol + q / 13) then 0xFF else
      (q % 52 / 13 + 4 * (q / 52 / 2)) * 24 + (if q % 13 < p.reg (O.spareCol + q / 13) then q % 13 else q % 13 - 1) + 12 * (q / 52 % 2) := by
    rw [Pkg.logicalTile, hkey]
  generalize hsp : p.reg (O.spareCol + q / 13) = sp at *
  by_cases hheld : q % 13 = sp
  · rw [if_pos hheld] at hlog
    exact ⟨iff_of_true hlog hheld, fun h => absurd hlog h⟩
  · rw [if_neg hheld] at hlog
    obtain ⟨hx, hback⟩ := held_out_number (q % 13) sp (by omega) hcol hheld
    generalize (if q % 13 < sp then q % 13 else q % 13 - 1) = x at *
    have hrow : q % 52 / 13 < 4 := by omega
    have hdie : q / 52 < 4 := by omega
    have hy24 : p.logicalTile q / 24 = q % 52 / 13 + 4 * (q / 52 / 2) := by omega
    have hx24 : p.logicalTile q % 24 = x + 12 * (q / 52 % 2) := by omega
    have hlt : p.logicalTile q < 192 := by omega
    have hd : (x + 12 * (q / 52 % 2)) / 12 + 2 * ((q % 52 / 13 + 4 * (q / 52 / 2)) / 4) = q / 52 := by omega
    have hy : (q % 52 / 13 + 4 * (q / 52 / 2)) % 4 = q % 52 / 13 := by omega
    have hm : (x + 12 * (q / 52 % 2)) % 12 = x := by omega
    refine ⟨iff_of_false (by omega) hheld, fun _ => ⟨hlt, ?_⟩⟩
    rw [Pkg.physTile, hy24, hx24, hd, hy, hm, hkey, hsp, hback]
    omega

theorem hartOf_inverse (c e : Nat) (hcores : ∀ k < 4, p.reg (O.spareCore + k) ≤ 16) (hc : c < 68) (he : e < 68) :
    (p.hartOf c = 0xFF ↔ c % 17 = p.reg (O.spareCore + c / 17)) ∧
    (p.hartOf c ≠ 0xFF → p.hartOf c < 64 ∧ (p.hartOf e = p.hartOf c → e = c)) := by
  have hsc := hcores (c / 17) (by omega)
  have hse := hcores (e / 17) (by omega)
  have hhart : ∀ x, p.hartOf x = if x % 17 = p.reg (O.spareCore + x / 17) then 0xFF
      else x / 17 * 16 + (if x % 17 < p.reg (O.spareCore + x / 17) then x % 17 else x % 17 - 1) := fun _ => rfl
  rw [hhart c, hhart e]
  have hsame : e / 17 = c / 17 → p.reg (O.spareCore + e / 17) = p.reg (O.spareCore + c / 17) := fun h => by rw [h]
  generalize p.reg (O.spareCore + c / 17) = sc at *
  generalize p.reg (O.spareCore + e / 17) = se at *
  by_cases hheld : c % 17 = sc
  · rw [if_pos hheld]
    exact ⟨iff_of_true rfl hheld, fun h => absurd rfl h⟩
  · rw [if_neg hheld]
    have hx : (if c % 17 < sc then c % 17 else c % 17 - 1) < 16 := by split <;> omega
    refine ⟨iff_of_false (by omega) hheld, fun _ => ⟨by omega, fun heq => ?_⟩⟩
    by_cases hother : e % 17 = se
    · rw [if_pos hother] at heq
      omega
    · rw [if_neg hother] at heq
      have hy : (if e % 17 < se then e % 17 else e % 17 - 1) < 16 := by split <;> omega
      have hdie : e / 17 = c / 17 := by omega
      have hsp := hsame hdie
      split at heq <;> split at heq <;> omega

end

/-- Where an HBM3E address lies, by its line. -/
theorem placeOf_hbm {a : Nat} (h : a < lpddrBase) : placeOf a =
    ⟨false, a / 64 / 15 % 12, a / 64 / 15 / 12 % 32, a / 64 / 15 / 384 % 64, a / 64 / 15 / 384 / 64, a / 64 % 15 * 64 + a % 64⟩ := if_pos h

/-- Where an LPDDR5X address lies, by its distance from the base. -/
theorem placeOf_lpddr {a : Nat} (h : ¬ a < lpddrBase) : placeOf a =
    ⟨true, (a - lpddrBase) / 512 % 24, (a - lpddrBase) / 512 / 24 % 4, (a - lpddrBase) / 512 / 96 / 32 % 16,
      (a - lpddrBase) / 512 / 96 / 32 / 16 * 9 + (a - lpddrBase) / 512 / 96 % 32 / 4,
      (a - lpddrBase) / 512 / 96 % 32 % 4 * 512 + (a - lpddrBase) % 512⟩ := if_neg h

theorem hbm_place_injective (a b : Nat) (ha : a < lpddrBase) (hb : b < lpddrBase) (h : placeOf a = placeOf b) : a = b := by
  rw [placeOf_hbm ha, placeOf_hbm hb] at h
  simp only [Place.mk.injEq, true_and] at h
  obtain ⟨hunit, hlane, hbank, hrow, hbyte⟩ := h
  have hset : a / 64 / 15 / 384 = b / 64 / 15 / 384 := by omega
  have hsets : a / 64 / 15 = b / 64 / 15 := by omega
  have hline : a / 64 % 15 = b / 64 % 15 := by omega
  omega

/-- An LPDDR5X address's distance from the base, found again from the parts of its place. -/
theorem lpddr_parts_injective {x y : Nat} (hunit : x / 512 % 24 = y / 512 % 24) (hlane : x / 512 / 24 % 4 = y / 512 / 24 % 4)
    (hbank : x / 512 / 96 / 32 % 16 = y / 512 / 96 / 32 % 16)
    (hrow : x / 512 / 96 / 32 / 16 * 9 + x / 512 / 96 % 32 / 4 = y / 512 / 96 / 32 / 16 * 9 + y / 512 / 96 % 32 / 4)
    (hbyte : x / 512 / 96 % 32 % 4 * 512 + x % 512 = y / 512 / 96 % 32 % 4 * 512 + y % 512) : x = y := by
  have hquarter : x / 512 / 96 % 32 / 4 = y / 512 / 96 % 32 / 4 := by omega
  have hgroups : x / 512 / 96 / 32 / 16 = y / 512 / 96 / 32 / 16 := by omega
  have hgroup : x / 512 / 96 / 32 = y / 512 / 96 / 32 := by omega
  have hpart : x / 512 / 96 % 32 % 4 = y / 512 / 96 % 32 % 4 := by omega
  have hpage : x / 512 / 96 = y / 512 / 96 := by omega
  have hunits : x / 512 = y / 512 := by omega
  omega

theorem lpddr_place_injective (a b : Nat) (ha : ¬ a < lpddrBase) (hb : ¬ b < lpddrBase) (h : placeOf a = placeOf b) : a = b := by
  rw [placeOf_lpddr ha, placeOf_lpddr hb] at h
  obtain ⟨-, hunit, hlane, hbank, hrow, hbyte⟩ := Place.mk.inj h
  have hdistance := lpddr_parts_injective hunit hlane hbank hrow hbyte
  rw [← Nat.sub_add_cancel (Nat.le_of_not_lt ha), hdistance, Nat.sub_add_cancel (Nat.le_of_not_lt hb)]

theorem placeOf_injective (a b : Nat) (_ha : isMem a = true) (_hb : isMem b = true) (h : placeOf a = placeOf b) : a = b := by
  by_cases ha : a < lpddrBase
  · by_cases hb : b < lpddrBase
    · exact hbm_place_injective a b ha hb h
    · rw [placeOf_hbm ha, placeOf_lpddr hb] at h
      exact absurd (congrArg Place.lpddr h) Bool.false_ne_true
  · by_cases hb : b < lpddrBase
    · rw [placeOf_lpddr ha, placeOf_hbm hb] at h
      exact absurd (congrArg Place.lpddr h).symm Bool.false_ne_true
    · exact lpddr_place_injective a b ha hb h

/-- The words of an HBM3E row hold every address of it. -/
theorem hbm_rowWords (a : Nat) (h : a < lpddrBase) : a / 16 * 16 ∈ rowWords (placeOf a).rowId := by
  rw [placeOf_hbm h, Place.rowId, Place.unitNo, rowWords]
  dsimp only
  simp only [Bool.false_eq_true, if_false]
  rw [if_pos (by omega), List.mem_map]
  refine ⟨a / 16 - a / 64 / 15 * 60, List.mem_range.mpr (by omega), ?_⟩
  have hset : a / 64 / 15 % 12 + 12 * (a / 64 / 15 / 12 % 32) + 384 * (a / 64 / 15 / 384 / 64 * 64 + a / 64 / 15 / 384 % 64) = a / 64 / 15 := by omega
  rw [hset]
  omega

/-- The words of an LPDDR5X page hold every address of it. -/
theorem lpddr_rowWords (a : Nat) (h : ¬ a < lpddrBase) : a / 16 * 16 ∈ rowWords (placeOf a).rowId := by
  rw [placeOf_lpddr h, Place.rowId, Place.unitNo, rowWords]
  dsimp only
  have hx : a = lpddrBase + (a - lpddrBase) := by omega
  generalize a - lpddrBase = x at *
  subst hx
  simp only [if_true]
  rw [if_neg (by omega), List.mem_flatMap]
  have hgroup : (x / 512 / 96 / 32 / 16 * 9 + x / 512 / 96 % 32 / 4) / 9 * 16 + x / 512 / 96 / 32 % 16 = x / 512 / 96 / 32 := by omega
  have hrow : (x / 512 / 96 / 32 / 16 * 9 + x / 512 / 96 % 32 / 4) % 9 = x / 512 / 96 % 32 / 4 := by omega
  refine ⟨x / 512 / 96 % 32 % 4, List.mem_range.mpr (by omega), List.mem_map.mpr ⟨x % 512 / 16, List.mem_range.mpr (by omega), ?_⟩⟩
  rw [hgroup, hrow]
  have hunit : 12 + x / 512 % 24 - 12 + 24 * (x / 512 / 24 % 4) + 96 * (x / 512 / 96 / 32 * 32 + 4 * (x / 512 / 96 % 32 / 4) + x / 512 / 96 % 32 % 4) = x / 512 := by
    omega
  rw [hunit]
  simp only [lpddrBase]
  omega

theorem placeOf_holds (a : Nat) (_ha : isMem a = true) : (placeOf a).die < 4 ∧ (placeOf a).unitNo < 36 ∧ a / 16 * 16 ∈ rowWords (placeOf a).rowId := by
  by_cases h : a < lpddrBase
  · refine ⟨?_, ?_, hbm_rowWords a h⟩
    · rw [placeOf_hbm h, Place.die]
      dsimp only
      rw [if_neg (by decide)]
      omega
    · rw [placeOf_hbm h, Place.unitNo]
      dsimp only
      rw [if_neg (by decide)]
      omega
  · refine ⟨?_, ?_, lpddr_rowWords a h⟩
    · rw [placeOf_lpddr h, Place.die]
      dsimp only
      rw [if_pos rfl]
      omega
    · rw [placeOf_lpddr h, Place.unitNo]
      dsimp only
      rw [if_pos rfl]
      omega

/-- Settles O29. -/
theorem mappingsAreOneToOne : Obligations.MappingsAreOneToOne :=
  ⟨physTile_inverse, logicalTile_inverse, hartOf_inverse, placeOf_injective, placeOf_holds⟩

end Sys2Proof.Machine

namespace Sys2Proof.Machine

/-! ## Words apart (R237 to R240)

The check bits of every word have a place of their own, so a word that is written leaves every other word as it was. -/

theorem key_injective {u l b r u' l' b' r' : Nat} (hl : l < 32) (hl' : l' < 32) (hb : b < 64) (hb' : b' < 64) (hr : r < 2 ^ 21) (hr' : r' < 2 ^ 21)
    (h : RowId.key ⟨u, l, b, r⟩ = RowId.key ⟨u', l', b', r'⟩) : u = u' ∧ l = l' ∧ b = b' ∧ r = r' := by
  simp only [RowId.key] at h
  omega

/-- An HBM3E check byte's row and place in it. -/
theorem hbmCheckByte_eq {a : Nat} (h : a < lpddrBase) : hbmCheckByte a =
    RowId.key ⟨a / 64 / 15 % 12, a / 64 / 15 / 12 % 32, a / 64 / 15 / 384 % 64, a / 64 / 15 / 384 / 64⟩ * 2048 +
      960 + 4 * (a / 64 % 15) + a % 64 / 16 := by
  rw [hbmCheckByte, placeOf_hbm h]
  rfl

/-- A word's place on its check page. -/
def lpddrCheckOffset (x : Nat) : Nat := 64 * (x / 512 / 96 % 32) + 8 * (x % 512 / 64) + 2 * (x % 64 / 16)

/-- An LPDDR5X check byte's page and place in it. -/
theorem lpddrCheckByte_eq {a : Nat} (h : ¬ a < lpddrBase) : lpddrCheckByte a =
    RowId.key ⟨12 + (a - lpddrBase) / 512 % 24, (a - lpddrBase) / 512 / 24 % 4, (a - lpddrBase) / 512 / 96 / 32 % 16,
      ((a - lpddrBase) / 512 / 96 / 32 / 16 * 9 + (a - lpddrBase) / 512 / 96 % 32 / 4) / 9 * 9 + 8⟩ * 2048 + lpddrCheckOffset (a - lpddrBase) := by
  rw [lpddrCheckByte, placeOf_lpddr h, lpddrCheckOffset, ← Nat.add_assoc, ← Nat.add_assoc]
  rfl

theorem regionOf_hbm {a : Nat} (h : regionOf a = .hbm) : a < 0x00E100000000 := by
  unfold regionOf at h
  split_ifs at h with hlow
  exact hlow

theorem regionOf_lpddr {a : Nat} (h : regionOf a = .lpddr) : lpddrBase ≤ a ∧ a < 0x040000000000 := by
  unfold regionOf at h
  split_ifs at h with _ hbase htop
  exact ⟨Nat.le_of_not_lt hbase, htop⟩

theorem hbmCheckByte_injective {a b : Nat} (ha : regionOf a = .hbm) (hb : regionOf b = .hbm) (h16 : a % 16 = b % 16)
    (h : hbmCheckByte a = hbmCheckByte b) : a = b := by
  have ha := regionOf_hbm ha
  have hb := regionOf_hbm hb
  rw [hbmCheckByte_eq (by simp only [lpddrBase]; omega), hbmCheckByte_eq (by simp only [lpddrBase]; omega)] at h
  obtain ⟨hunit, hlane, hbank, hrow⟩ := key_injective (Nat.mod_lt _ (by decide)) (Nat.mod_lt _ (by decide)) (Nat.mod_lt _ (by decide))
    (Nat.mod_lt _ (by decide)) (by omega) (by omega) (u := a / 64 / 15 % 12) (u' := b / 64 / 15 % 12) (r := a / 64 / 15 / 384 / 64)
    (r' := b / 64 / 15 / 384 / 64) (l := a / 64 / 15 / 12 % 32) (l' := b / 64 / 15 / 12 % 32) (b := a / 64 / 15 / 384 % 64)
    (b' := b / 64 / 15 / 384 % 64) (by omega)
  have hset : a / 64 / 15 / 384 = b / 64 / 15 / 384 := by omega
  have hsets : a / 64 / 15 = b / 64 / 15 := by omega
  rw [hunit, hlane, hbank, hrow] at h
  have hline : a / 64 % 15 = b / 64 % 15 := by omega
  omega

/-- Places in rows of 2,048 bytes that lie next to each other lie in one row. -/
theorem same_row {k k' o o' : Nat} (ho : o + 1 < 2048) (ho' : o' + 1 < 2048)
    (h : ¬ (k * 2048 + o + 1 < k' * 2048 + o' ∨ k' * 2048 + o' + 1 < k * 2048 + o)) : k = k' ∧ o ≤ o' + 1 ∧ o' ≤ o + 1 := by omega

theorem lpddrCheckOffset_lt (x : Nat) : lpddrCheckOffset x + 1 < 2048 := by
  have hpart : x / 512 / 96 % 32 < 32 := Nat.mod_lt _ (by decide)
  have hline : x % 512 / 64 < 8 := by omega
  have hword : x % 64 / 16 < 4 := by omega
  simp only [lpddrCheckOffset]
  omega

/-- The word of a page whose check bytes these are. -/
theorem lpddrCheckOffset_near {x y : Nat} (h : lpddrCheckOffset x ≤ lpddrCheckOffset y + 1) (h' : lpddrCheckOffset y ≤ lpddrCheckOffset x + 1) :
    x / 512 / 96 % 32 = y / 512 / 96 % 32 ∧ x % 512 / 64 = y % 512 / 64 ∧ x % 64 / 16 = y % 64 / 16 := by
  simp only [lpddrCheckOffset] at h h'
  have hline : x % 512 / 64 < 8 := by omega
  have hword : x % 64 / 16 < 4 := by omega
  have hyline : y % 512 / 64 < 8 := by omega
  have hyword : y % 64 / 16 < 4 := by omega
  generalize x / 512 / 96 % 32 = a, x % 512 / 64 = b, x % 64 / 16 = c at *
  generalize y / 512 / 96 % 32 = a', y % 512 / 64 = b', y % 64 / 16 = c' at *
  omega

/-- The LPDDR5X address of a word, found again from its check bytes. -/
theorem lpddr_check_injective {x y : Nat} (hx16 : x % 16 = 0) (hy16 : y % 16 = 0) (hunit : x / 512 % 24 = y / 512 % 24)
    (hlane : x / 512 / 24 % 4 = y / 512 / 24 % 4) (hbank : x / 512 / 96 / 32 % 16 = y / 512 / 96 / 32 % 16)
    (hgroups : x / 512 / 96 / 32 / 16 = y / 512 / 96 / 32 / 16) (hpart : x / 512 / 96 % 32 = y / 512 / 96 % 32)
    (hline : x % 512 / 64 = y % 512 / 64) (hword : x % 64 / 16 = y % 64 / 16) : x = y := by
  have hgroup : x / 512 / 96 / 32 = y / 512 / 96 / 32 := by omega
  have hpage : x / 512 / 96 = y / 512 / 96 := by omega
  have hunits : x / 512 = y / 512 := by omega
  omega

/-- An LPDDR5X group of pages below the top of memory. -/
theorem lpddr_row_lt {x : Nat} (h : x < 0x030000000000) : x / 512 / 96 / 32 / 16 < 131072 := by omega

/-- The check page of a row. -/
theorem checkPage_eq (g t : Nat) (ht : t < 9) : (g * 9 + t) / 9 * 9 + 8 = g * 9 + 8 := by omega

/-- The check bytes of two LPDDR5X words lie two bytes apart. -/
theorem lpddrCheckByte_apart {a b : Nat} (ha : regionOf a = .lpddr) (hb : regionOf b = .lpddr) (ha16 : a % 16 = 0) (hb16 : b % 16 = 0)
    (hab : a ≠ b) : lpddrCheckByte a + 1 < lpddrCheckByte b ∨ lpddrCheckByte b + 1 < lpddrCheckByte a := by
  obtain ⟨halow, hahigh⟩ := regionOf_lpddr ha
  obtain ⟨hblow, hbhigh⟩ := regionOf_lpddr hb
  rw [lpddrCheckByte_eq (Nat.not_lt.mpr halow), lpddrCheckByte_eq (Nat.not_lt.mpr hblow)]
  obtain ⟨x, rfl⟩ := Nat.exists_eq_add_of_le halow
  obtain ⟨y, rfl⟩ := Nat.exists_eq_add_of_le hblow
  simp only [Nat.add_sub_cancel_left]
  rw [checkPage_eq _ (x / 512 / 96 % 32 / 4) (by omega), checkPage_eq _ (y / 512 / 96 % 32 / 4) (by omega)]
  have hxrow := lpddr_row_lt (x := x) (by simp only [lpddrBase] at hahigh; omega)
  have hyrow := lpddr_row_lt (x := y) (by simp only [lpddrBase] at hbhigh; omega)
  by_contra hnear
  obtain ⟨hkey, hoffset, hoffset'⟩ := same_row (lpddrCheckOffset_lt x) (lpddrCheckOffset_lt y) hnear
  obtain ⟨hpart, hline, hword⟩ := lpddrCheckOffset_near hoffset hoffset'
  obtain ⟨hunit, hlane, hbank, hrow⟩ := key_injective (by omega) (by omega) (by omega) (by omega) (by omega) (by omega) hkey
  simp only [lpddrBase] at ha16 hb16
  exact hab (congrArg (lpddrBase + ·) (lpddr_check_injective (by omega) (by omega) (by omega) hlane hbank (by omega) hpart hline hword))

/-- The check bytes of HBM3E and of LPDDR5X lie in units of their own. -/
theorem checkByte_tiers_apart {a b : Nat} (ha : regionOf a = .hbm) (hb : regionOf b = .lpddr) :
    hbmCheckByte a < lpddrCheckByte b := by
  have ha := regionOf_hbm ha
  obtain ⟨hblow, hbhigh⟩ := regionOf_lpddr hb
  rw [hbmCheckByte_eq (by simp only [lpddrBase]; omega), lpddrCheckByte_eq (by omega)]
  simp only [RowId.key]
  simp only [lpddrBase] at hblow ⊢
  omega

/-- Check bits stored for one word leave those of another. -/
theorem checkOf_setCheck_apart (p : Pkg) {a b : Nat} (c : BitVec 16) (ha : a % 16 = 0) (hb : b % 16 = 0) (hab : b ≠ a) :
    (p.setCheck a c).checkOf b = p.checkOf b := by
  have hindex : b / 16 ≠ a / 16 := by omega
  unfold Pkg.setCheck Pkg.checkOf
  cases hra : regionOf a <;> cases hrb : regionOf b <;> try rfl
  case hbm.hbm =>
    have hbyte : hbmCheckByte b ≠ hbmCheckByte a := fun h => hab (hbmCheckByte_injective hrb hra (by omega) h)
    simp only [SMap.at_put_other _ _ _ _ _ hbyte, SMap.at_put_other _ _ _ _ _ hindex]
  case hbm.lpddr =>
    have hbyte := checkByte_tiers_apart hra hrb
    simp only [SMap.at_put_other _ _ _ _ _ (show lpddrCheckByte b ≠ hbmCheckByte a by omega),
      SMap.at_put_other _ _ _ _ _ (show lpddrCheckByte b + 1 ≠ hbmCheckByte a by omega)]
  case lpddr.hbm =>
    have hbyte := checkByte_tiers_apart hrb hra
    simp only [SMap.at_put_other _ _ _ _ _ (show hbmCheckByte b ≠ lpddrCheckByte a by omega),
      SMap.at_put_other _ _ _ _ _ (show hbmCheckByte b ≠ lpddrCheckByte a + 1 by omega)]
  case lpddr.lpddr =>
    have hbytes := lpddrCheckByte_apart hra hrb ha hb hab.symm
    simp only [SMap.at_put_other _ _ _ _ _ (show lpddrCheckByte b ≠ lpddrCheckByte a by omega),
      SMap.at_put_other _ _ _ _ _ (show lpddrCheckByte b ≠ lpddrCheckByte a + 1 by omega),
      SMap.at_put_other _ _ _ _ _ (show lpddrCheckByte b + 1 ≠ lpddrCheckByte a by omega),
      SMap.at_put_other _ _ _ _ _ (show lpddrCheckByte b + 1 ≠ lpddrCheckByte a + 1 by omega)]
  all_goals exact SMap.at_put_other _ _ _ _ _ hindex

/-- A word that is written leaves every other word. -/
theorem word_setWord_apart (p : Pkg) {a b : Nat} (w : PWord) (ha : a % 16 = 0) (hb : b % 16 = 0) (hab : b ≠ a) :
    (p.setWord a w).word b = p.word b := by
  have hbytes : (p.setWord a w).bytes b 16 = p.bytes b 16 :=
    List.map_congr_left fun i hi => setWord_byte_other p a (b + i) w (by have := List.mem_range.mp hi; omega)
  rw [Pkg.word, Pkg.word, hbytes]
  exact congrArg (PWord.mk _) (checkOf_setCheck_apart _ w.chk ha hb hab)

end Sys2Proof.Machine

namespace Sys2Proof.Machine

/-! ## Memory units (R245 to R257, R362) -/

/-! ### What counts and protection traffic leave -/

/-- Memory with its check bits, the tiles, and the parts of the memory side that no count changes. -/
def Pkg.wordParts (p : Pkg) : List Host.Cell × SMap Byte × SMap Byte × SMap (BitVec 16) × SMap Tile × List MemOp × SMap Nat × SMap RowId :=
  (p.mem, p.eccPins, p.checkBytes, p.sramChk, p.tiles, p.memsys.queue, p.memsys.scrubPos, p.memsys.repairing)

section
variable {p q : Pkg}

theorem byte_of_wordParts (h : q.wordParts = p.wordParts) (a : Nat) : q.byte a = p.byte a := by
  have hmem : q.mem = p.mem := congrArg (·.1) h
  rw [Pkg.byte, Pkg.byte, hmem]

theorem word_of_wordParts (h : q.wordParts = p.wordParts) (a : Nat) : q.word a = p.word a := by
  simp only [Pkg.wordParts, Prod.mk.injEq] at h
  obtain ⟨hmem, hecc, hcheck, hsram, -⟩ := h
  simp only [Pkg.word, Pkg.bytes, Pkg.byte, Pkg.checkOf, hmem, hecc, hcheck, hsram]

theorem tiles_of_wordParts (h : q.wordParts = p.wordParts) : q.tiles = p.tiles := congrArg (·.2.2.2.2.1) h
theorem queue_of_wordParts (h : q.wordParts = p.wordParts) : q.memsys.queue = p.memsys.queue := congrArg (·.2.2.2.2.2.1) h
theorem scrubPos_of_wordParts (h : q.wordParts = p.wordParts) : q.memsys.scrubPos = p.memsys.scrubPos := congrArg (·.2.2.2.2.2.2.1) h
theorem repairing_of_wordParts (h : q.wordParts = p.wordParts) : q.memsys.repairing = p.memsys.repairing := congrArg (·.2.2.2.2.2.2.2) h

end

section
variable (p : Pkg)

@[simp] theorem setReg_wordParts (k v : Nat) : (p.setReg k v).wordParts = p.wordParts := rfl
@[simp] theorem bump_wordParts (k n : Nat) : (p.bump k n).wordParts = p.wordParts := rfl
@[simp] theorem raise_wordParts (code unit arg : Nat) : (p.raise code unit arg).wordParts = p.wordParts := rfl

@[simp] theorem addCandidate_wordParts (x : Place) : (p.addCandidate x).wordParts = p.wordParts := by
  unfold Pkg.addCandidate
  dsimp only
  split
  · rfl
  · split <;> rfl

@[simp] theorem countCorrection_wordParts (x : Place) (sym : Nat) : (p.countCorrection x sym).wordParts = p.wordParts := by
  unfold Pkg.countCorrection
  extract_lets counted _ seen n _ _ _ _ sideband m _ row
  have hseen : seen.wordParts = p.wordParts := by
    simp only [seen]
    split <;> rfl
  have hsideband : sideband.wordParts = p.wordParts := by
    rw [← hseen]
    simp only [sideband]
    split
    · rfl
    · split <;> rfl
  have hrow : row.wordParts = p.wordParts := hsideband
  split
  · rw [addCandidate_wordParts, hrow]
  · exact hrow

@[simp] theorem countUncorrectable_wordParts (a : Nat) (w : PWord) : (p.countUncorrectable a w).wordParts = p.wordParts := by
  unfold Pkg.countUncorrectable
  exact addCandidate_wordParts _ _

@[simp] theorem setPartner_wordParts (id : Nat) (x : Partner) : (p.setPartner id x).wordParts = p.wordParts := by
  unfold Pkg.setPartner
  dsimp only
  split <;> rfl

@[simp] theorem originate_wordParts (cls dst target : Nat) (payload : List Byte) (poison : List Bool) (win : Nat) :
    (p.originate cls dst target payload poison win).wordParts = p.wordParts := by
  unfold Pkg.originate
  split
  · rfl
  · exact setPartner_wordParts p _ _

@[simp] theorem sendLine_wordParts (pos region kind offset : Nat) (ws : List (Option W128)) :
    (p.sendLine pos region kind offset ws).wordParts = p.wordParts := by
  unfold Pkg.sendLine
  split
  · rfl
  · rw [originate_wordParts, originate_wordParts]

@[simp] theorem track_wordParts (line : Nat) (old : List PWord) : (p.track line old).wordParts = p.wordParts := by
  unfold Pkg.track
  split
  · rfl
  · dsimp only
    split
    · split <;> exact sendLine_wordParts ..
    · rfl

@[simp] theorem restartCounts_wordParts (n : Nat) : (p.restartCounts n).wordParts = p.wordParts := rfl

end

/-! ### Accesses served -/

/-- What a whole word that is written leaves, and what it holds. -/
theorem memWrite_word_self (p : Pkg) (a : Nat) (v : Option W128) : readWord ((p.memWrite a v).word a) = v := by
  cases v with
  | some d => exact (congrArg readWord (word_setWord_self p a _)).trans (readWord_goodWord d)
  | none => exact (congrArg readWord (word_setWord_self p a _)).trans readWord_poisonWord

theorem memWrite_word_apart (p : Pkg) {a b : Nat} (v : Option W128) (ha : a % 16 = 0) (hb : b % 16 = 0) (hab : b ≠ a) :
    (p.memWrite a v).word b = p.word b := by
  cases v <;> exact word_setWord_apart p _ ha hb hab

@[simp] theorem setWord_memsys (p : Pkg) (a : Nat) (w : PWord) : (p.setWord a w).memsys = p.memsys := by
  unfold Pkg.setWord Pkg.setCheck
  dsimp only
  split <;> rfl

@[simp] theorem memWrite_memsys (p : Pkg) (a : Nat) (v : Option W128) : (p.memWrite a v).memsys = p.memsys := by
  cases v <;> exact setWord_memsys p _ _

@[simp] theorem memWrite_tiles (p : Pkg) (a : Nat) (v : Option W128) : (p.memWrite a v).tiles = p.tiles := by
  cases v <;> exact setWord_tiles p _ _

theorem fullMask_word {w : Nat} (h : w < 4) : ((fullMask.drop (16 * w)).take 16).all (fun b => b) = true := by
  match w, h with
  | 0, _ => rfl
  | 1, _ => rfl
  | 2, _ => rfl
  | 3, _ => rfl

/-- A write of a whole line: its four words, one after another. -/
theorem writeLine_full (p : Pkg) (line : Nat) (data : List (Option W128)) :
    (p.writeLine line fullMask data).wordParts =
      ((((p.memWrite (line * 64 + 16 * 0) (data.getD 0 none)).memWrite (line * 64 + 16 * 1) (data.getD 1 none)).memWrite (line * 64 + 16 * 2)
        (data.getD 2 none)).memWrite (line * 64 + 16 * 3) (data.getD 3 none)).wordParts := by
  have hword (q : Pkg) {w : Nat} (hw : w < 4) : q.memMerge (line * 64 + 16 * w) ((fullMask.drop (16 * w)).take 16) (data.getD w none) =
      q.memWrite (line * 64 + 16 * w) (data.getD w none) := if_pos (fullMask_word hw)
  unfold Pkg.writeLine
  dsimp only
  rw [track_wordParts]
  have hrange : List.range 4 = [0, 1, 2, 3] := rfl
  simp only [hrange, List.foldl_cons, List.foldl_nil]
  rw [hword _ (by decide), hword _ (by decide), hword _ (by decide), hword _ (by decide)]

/-- A line that is written whole: its words as given, its bytes and no others, and what it leaves. -/
theorem writeLine_full_spec (p : Pkg) (line : Nat) (data : List (Option W128)) :
    (∀ w < 4, readWord ((p.writeLine line fullMask data).word (line * 64 + 16 * w)) = data.getD w none) ∧
    (∀ b, ¬ (line * 64 ≤ b ∧ b < line * 64 + 64) → (p.writeLine line fullMask data).byte b = p.byte b) ∧
    (p.writeLine line fullMask data).memsys.queue = p.memsys.queue ∧ (p.writeLine line fullMask data).tiles = p.tiles := by
  have hparts := writeLine_full p line data
  refine ⟨fun w hw => ?_, fun b hb => ?_, ?_, ?_⟩
  · rw [word_of_wordParts hparts]
    match w, hw with
    | 0, _ =>
      rw [memWrite_word_apart _ _ (by omega) (by omega) (by omega), memWrite_word_apart _ _ (by omega) (by omega) (by omega),
        memWrite_word_apart _ _ (by omega) (by omega) (by omega), memWrite_word_self]
    | 1, _ =>
      rw [memWrite_word_apart _ _ (by omega) (by omega) (by omega), memWrite_word_apart _ _ (by omega) (by omega) (by omega),
        memWrite_word_self]
    | 2, _ => rw [memWrite_word_apart _ _ (by omega) (by omega) (by omega), memWrite_word_self]
    | 3, _ => rw [memWrite_word_self]
  · rw [byte_of_wordParts hparts, memWrite_byte_other _ _ _ _ (by omega), memWrite_byte_other _ _ _ _ (by omega),
      memWrite_byte_other _ _ _ _ (by omega), memWrite_byte_other _ _ _ _ (by omega)]
  · rw [queue_of_wordParts hparts]
    simp only [memWrite_memsys]
  · rw [tiles_of_wordParts hparts]
    simp only [memWrite_tiles]

/-- An access that waits first for its set, at free pads, is served. -/
theorem serveIf_serves {p : Pkg} {u : Nat} {kind : MemOp → Bool} {o : MemOp} (hget : p.memsys.queue[u]? = some o) (hkind : kind o = true)
    (hfirst : p.firstOfSet u = true) (hpads : bitOf (p.reg O.padHeld) 0 = false) (hclock : p.supply.pllOff.at false (12 + (placeOf o.addr).unitNo) = false) :
    p.serveIf u kind = ({ p.exitRefresh o.addr with memsys := { (p.exitRefresh o.addr).memsys with queue := dropAt p.memsys.queue u } }).serveOp o := by
  have hget' : (p.exitRefresh o.addr).memsys.queue[u]? = some o := hget
  rw [Pkg.serveIf, hget]
  dsimp only
  rw [hkind, hfirst, hpads, hclock]
  simp only [Bool.not_false, Bool.and_self, if_true]
  rw [Pkg.serveAt, hget']
  rfl

theorem memRead_clean {p : Pkg} {a : Nat} (h : checkWord (p.word a) = .clean) : p.memRead a = (some (p.word a).data, p) := by
  simp only [Pkg.memRead, Pkg.memCheck, h]

/-- A line of clean words is read as they stand, and nothing changes. -/
theorem readLine_clean {p : Pkg} {line : Nat} (h : ∀ w < 4, checkWord (p.word (line * 64 + 16 * w)) = .clean) :
    p.readLine line fullMask = ((List.range 4).map fun w => some (p.word (line * 64 + 16 * w)).data, p) := by
  have hmask {w : Nat} (hw : w < 4) : ((fullMask.drop (16 * w)).take 16).any (fun b => b) = true := by
    match w, hw with
    | 0, _ => rfl
    | 1, _ => rfl
    | 2, _ => rfl
    | 3, _ => rfl
  have hrange : List.range 4 = [0, 1, 2, 3] := rfl
  simp only [Pkg.readLine, hrange, List.foldl_cons, List.foldl_nil, List.map_cons, List.map_nil]
  rw [if_pos (hmask (by decide)), if_pos (hmask (by decide)), if_pos (hmask (by decide)), if_pos (hmask (by decide))]
  simp only [memRead_clean (h 0 (by decide)), memRead_clean (h 1 (by decide)), memRead_clean (h 2 (by decide)), memRead_clean (h 3 (by decide)), List.nil_append,
    List.cons_append]

section
variable {s : State} {u : Nat} (hruns : s.Runs .control) (hfirst : s.pkg.firstOfSet u = true) (hpads : bitOf (s.pkg.reg O.padHeld) 0 = false)
include hruns hfirst hpads

theorem memoryLineRead_serves {line c : Nat} (hget : s.pkg.memsys.queue[u]? = some (.read line fullMask (.core c)))
    (hclock : s.pkg.supply.pllOff.at false (12 + (placeOf (64 * line)).unitNo) = false)
    (hclean : ∀ w < 4, checkWord (s.pkg.word (line * 64 + 16 * w)) = .clean) :
    ∃ t f, exec (.memoryLineRead u) s = .next t ∧ t.pkg.memsys.queue = dropAt s.pkg.memsys.queue u ∧
      t.pkg.coh.fills = s.pkg.coh.fills ++ [f] ∧ f.core = c ∧ f.line = line ∧
      f.data = some ((List.range 4).map fun w => goodWord (s.pkg.word (line * 64 + 16 * w)).data) ∧ SameMemory s t ∧ SameRegs s t ∧
      t.pkg.tiles = s.pkg.tiles := by
  have hexec : exec (.memoryLineRead u) s = execMemoryLineRead u s := rfl
  rw [hexec, execMemoryLineRead, on_runs s _ _ hruns, serveIf_serves hget rfl hfirst hpads hclock]
  unfold Pkg.serveOp
  dsimp only
  have hread := readLine_clean (p := { s.pkg.exitRefresh (64 * line) with
    memsys := { (s.pkg.exitRefresh (64 * line)).memsys with queue := dropAt s.pkg.memsys.queue u } }) (line := line) hclean
  simp only [MemOp.addr]
  rw [hread]
  exact ⟨_, _, rfl, rfl, rfl, rfl, rfl, rfl, fun _ => rfl, fun _ => rfl, rfl⟩

theorem memoryLineWrite_serves {line : Nat} {data : List PWord} (hget : s.pkg.memsys.queue[u]? = some (.write line fullMask data))
    (hlength : data.length = 4) (hclock : s.pkg.supply.pllOff.at false (12 + (placeOf (64 * line)).unitNo) = false) :
    ∃ t, exec (.memoryLineWrite u) s = .next t ∧ t.pkg.memsys.queue = dropAt s.pkg.memsys.queue u ∧
      (∀ w < 4, readWord (t.pkg.word (line * 64 + 16 * w)) = readWord (data.getD w zeroWord)) ∧
      SameMemoryBut (fun b => line * 64 ≤ b ∧ b < line * 64 + 64) s t ∧ t.pkg.tiles = s.pkg.tiles := by
  have hexec : exec (.memoryLineWrite u) s = execMemoryLineWrite u s := rfl
  rw [hexec, execMemoryLineWrite, on_runs s _ _ hruns, serveIf_serves hget rfl hfirst hpads hclock]
  unfold Pkg.serveOp
  dsimp only
  obtain ⟨hwords, hbytes, hqueue, htiles⟩ := writeLine_full_spec { s.pkg.exitRefresh (MemOp.write line fullMask data).addr with
    memsys := { (s.pkg.exitRefresh (MemOp.write line fullMask data).addr).memsys with queue := dropAt s.pkg.memsys.queue u } } line (data.map readWord)
  refine ⟨_, rfl, hqueue, fun w hw => (hwords w hw).trans ?_, hbytes, htiles⟩
  simp [List.getD, List.getElem?_eq_getElem (show w < data.length by omega)]

theorem correctionWriteback_serves {word : Nat} {w : PWord} (hget : s.pkg.memsys.queue[u]? = some (.correct word w))
    (hclock : s.pkg.supply.pllOff.at false (12 + (placeOf (16 * word)).unitNo) = false) :
    ∃ t, exec (.correctionWriteback u) s = .next t ∧ t.pkg.memsys.queue = dropAt s.pkg.memsys.queue u ∧
      t.pkg.word (word * 16) = w ∧ SameMemoryBut (fun b => word * 16 ≤ b ∧ b < word * 16 + 16) s t ∧ SameRegs s t ∧
      t.pkg.tiles = s.pkg.tiles := by
  have hexec : exec (.correctionWriteback u) s = execCorrectionWriteback u s := rfl
  rw [hexec, execCorrectionWriteback, on_runs s _ _ hruns, serveIf_serves hget rfl hfirst hpads hclock]
  unfold Pkg.serveOp
  dsimp only
  exact ⟨_, rfl, by rw [settle_pkg, setWord_memsys], word_setWord_self _ _ _, fun b hb => setWord_byte_other _ _ _ _ (by omega),
    fun k => reg_of_dict (setWord_dict _ _ _) k, setWord_tiles _ _ _⟩

end

/-! ### Patrol scrub (R252) -/

theorem syndScale_self (e : BitVec 4) (a : Synd) : syndAdd (syndScale e a) (syndScale e a) = (0, 0, 0, 0) := by
  simp only [syndAdd, BitVec.xor_self]
  rfl

/-- A word with one symbol in error, corrected, is clean. -/
theorem checkWord_addSym {w : PWord} {i : Nat} {e : BitVec 4} (hi : i < 36) (h : syndrome w = syndScale e (column i)) :
    checkWord (addSym w i e) = .clean := by
  have hzero : syndrome (addSym w i e) = (0, 0, 0, 0) := by
    rw [syndrome_addSym w i e hi, h, syndScale_self]
  simp only [checkWord, hzero, if_true]

/-- A corrected word is clean. -/
theorem checkWord_corrected {w v : PWord} {i : Nat} (h : checkWord w = .corrected v i) : checkWord v = .clean := by
  unfold checkWord at h
  dsimp only at h
  split at h
  · cases h
  · split at h
    · cases h
    · split at h
      · split at h
        next k hk =>
          have hfound := List.find?_some hk
          have hrange := List.mem_range.mp (List.mem_of_find?_eq_some hk)
          simp only [decide_eq_true_eq] at hfound
          cases h
          exact checkWord_addSym hrange hfound.2.symm
        · cases h
      next hfirst =>
        split at h
        next hlast =>
          cases h
          refine checkWord_addSym (by decide) ?_
          rw [syndScale_thirtyThree]
          exact Prod.ext (not_not.mp hfirst) (Prod.ext rfl (Prod.ext hlast.1 hlast.2))
        · cases h

/-- A word that the scrubber has passed. -/
abbrev CleanOrPoison (w : PWord) : Prop := checkWord w = .clean ∨ checkWord w = .poison

/-- What the scrubber leaves of the package when it passes words of a range. -/
structure ScrubStep (out : Nat → Prop) (p q : Pkg) : Prop where
  byte : ∀ b, ¬ out b → q.byte b = p.byte b
  tiles : q.tiles = p.tiles
  scrubPos : q.memsys.scrubPos = p.memsys.scrubPos

/-- The scrubber's step at a word. -/
theorem scrubWord_spec (p : Pkg) {a : Nat} (ha : a % 16 = 0) : CleanOrPoison ((p.scrubWord a).word a) ∧
    (∀ b, b % 16 = 0 → b ≠ a → (p.scrubWord a).word b = p.word b) ∧ ScrubStep (fun b => a ≤ b ∧ b < a + 16) p (p.scrubWord a) := by
  have hstored (w : PWord) (hw : CleanOrPoison w) (q : Pkg) (hparts : q.wordParts = (p.setWord a w).wordParts) : CleanOrPoison (q.word a) ∧
      (∀ b, b % 16 = 0 → b ≠ a → q.word b = p.word b) ∧ ScrubStep (fun b => a ≤ b ∧ b < a + 16) p q := by
    refine ⟨?_, fun b hb hab => ?_, fun b hb => ?_, ?_, ?_⟩
    · rw [word_of_wordParts hparts, word_setWord_self]
      exact hw
    · rw [word_of_wordParts hparts, word_setWord_apart p w ha hb hab]
    · rw [byte_of_wordParts hparts, setWord_byte_other p a b w (by omega)]
    · rw [tiles_of_wordParts hparts, setWord_tiles]
    · rw [scrubPos_of_wordParts hparts, setWord_memsys]
  unfold Pkg.scrubWord
  dsimp only
  cases hcheck : checkWord (p.word a) with
  | clean => exact ⟨.inl hcheck, fun _ _ _ => rfl, fun _ _ => rfl, rfl, rfl⟩
  | poison => exact ⟨.inr hcheck, fun _ _ _ => rfl, fun _ _ => rfl, rfl, rfl⟩
  | corrected v sym => exact hstored v (.inl (checkWord_corrected hcheck)) _ (countCorrection_wordParts _ _ _)
  | bad => exact hstored poisonWord (.inr (by decide +kernel)) _ (countUncorrectable_wordParts _ _ _)

/-- The scrubber's passage over the first n words from a. -/
theorem scrubWords_spec (p : Pkg) {a : Nat} (ha : a % 16 = 0) (n : Nat) :
    (∀ k < n, CleanOrPoison (((List.range n).foldl (fun p i => p.scrubWord (a + 16 * i)) p).word (a + 16 * k))) ∧
    ScrubStep (fun b => a ≤ b ∧ b < a + 16 * n) p ((List.range n).foldl (fun p i => p.scrubWord (a + 16 * i)) p) := by
  induction n with
  | zero => exact ⟨fun k hk => absurd hk (Nat.not_lt_zero k), fun _ _ => rfl, rfl, rfl⟩
  | succ n ih =>
    obtain ⟨hwords, hbyte, htiles, hpos⟩ := ih
    rw [List.range_succ, List.foldl_append, List.foldl_cons, List.foldl_nil]
    generalize (List.range n).foldl (fun p i => p.scrubWord (a + 16 * i)) p = q at *
    obtain ⟨hlast, hothers, hstep⟩ := scrubWord_spec q (a := a + 16 * n) (by omega)
    refine ⟨fun k hk => ?_, fun b hb => ?_, hstep.tiles.trans htiles, hstep.scrubPos.trans hpos⟩
    · by_cases hkn : k = n
      · rw [hkn]
        exact hlast
      · rw [hothers _ (by omega) (by omega)]
        exact hwords k (by omega)
    · rw [hstep.byte b (by omega), hbyte b (by omega)]

theorem scrubSet_aligned (n j : Nat) : (scrubSet n j).1 % 16 = 0 := by
  unfold scrubSet
  split
  · dsimp only
    omega
  · simp only [lpddrBase]
    omega

theorem patrolScrub_reads (s : State) (n : DieNo) (hruns : s.Runs .control) (henable : s.pkg.reg O.scrubEnable ≠ 0) (hps : s.pkg.reg O.psCurrent < 2)
    (hqueue : s.pkg.memsys.queue.any (fun o => decide (o.set = setOf (scrubSet n.val (s.pkg.memsys.scrubPos.at 0 n.val)).1)) = false) :
    ∃ t, exec (.patrolScrubRead n) s = .next t ∧
      t.pkg.memsys.scrubPos.at 0 n.val =
        (if s.pkg.memsys.scrubPos.at 0 n.val + 1 = setsPerDie then 0 else s.pkg.memsys.scrubPos.at 0 n.val + 1) ∧
      (∀ k < (scrubSet n.val (s.pkg.memsys.scrubPos.at 0 n.val)).2,
        CleanOrPoison (t.pkg.word ((scrubSet n.val (s.pkg.memsys.scrubPos.at 0 n.val)).1 + 16 * k))) ∧
      SameMemoryBut (fun b => (scrubSet n.val (s.pkg.memsys.scrubPos.at 0 n.val)).1 ≤ b ∧
        b < (scrubSet n.val (s.pkg.memsys.scrubPos.at 0 n.val)).1 + 16 * (scrubSet n.val (s.pkg.memsys.scrubPos.at 0 n.val)).2) s t ∧
      t.pkg.tiles = s.pkg.tiles := by
  have hexec : exec (.patrolScrubRead n) s = execPatrolScrubRead n s := rfl
  rw [hexec, execPatrolScrubRead, on_runs s _ _ hruns]
  dsimp only
  rw [if_neg (by rw [hqueue]; rintro (h | h | h) <;> [exact henable h; omega; cases h])]
  generalize s.pkg.memsys.scrubPos.at 0 n.val = j
  obtain ⟨hwords, hbyte, htiles, hpos⟩ := scrubWords_spec s.pkg (scrubSet_aligned n.val j) (scrubSet n.val j).2
  generalize (List.range (scrubSet n.val j).2).foldl (fun p i => p.scrubWord ((scrubSet n.val j).1 + 16 * i)) s.pkg = q at *
  by_cases hend : j + 1 = setsPerDie
  · rw [decide_eq_true hend, if_pos rfl, if_pos rfl, if_pos hend]
    exact ⟨_, rfl, SMap.at_put_self (0 : Nat) n.val 0 q.memsys.scrubPos, hwords, hbyte, htiles⟩
  · rw [decide_eq_false hend, if_neg Bool.false_ne_true, if_neg Bool.false_ne_true, if_neg hend]
    exact ⟨_, rfl, SMap.at_put_self (0 : Nat) n.val (j + 1) q.memsys.scrubPos, hwords, hbyte, htiles⟩

theorem scrubWindow_closes (s : State) (n : DieNo) (w : Nat × Nat) (hruns : s.Runs .control)
    (hwindow : (s.pkg.memsys.window.find? fun e => decide (e.1 = n.val)) = some w) (hover : w.2 + s.pkg.scrubPeriod ≤ s.pkg.mtime) :
    ∃ t, exec (.scrubWindowClose n) s = .next t ∧ t.pkg.memsys.rowCorr = (s.pkg.restartCounts n.val).memsys.rowCorr ∧
      t.pkg.memsys.sideband = (s.pkg.restartCounts n.val).memsys.sideband ∧
      t.pkg.memsys.window = s.pkg.memsys.window.map (fun e => if e.1 = n.val then (e.1, w.2 + s.pkg.scrubPeriod) else e) ∧
      SameMemory s t ∧ SameRegs s t ∧ t.pkg.tiles = s.pkg.tiles := by
  have hexec : exec (.scrubWindowClose n) s = execScrubWindowClose n s := rfl
  rw [hexec, execScrubWindowClose, on_runs s _ _ hruns, hwindow]
  dsimp only
  rw [if_neg (Nat.not_lt.mpr hover)]
  exact ⟨_, rfl, rfl, rfl, rfl, fun _ => rfl, fun _ => rfl, rfl⟩

/-! ### The test port and repair (R254 to R256) -/

theorem memTestOwner_takes (s : State) (w : Writer) (n : DieNo) (v : Nat) (hruns : s.Runs (writerPlane w)) (hv : v ≤ 3)
    (hfree : s.pkg.reg (O.memTestOwner + n.val) = 0 ∨ v = 0) :
    Does (.memTestOwnerWrite w n v) s (s.pkg.setReg (O.memTestOwner + n.val) v) := by
  have hexec : exec (.memTestOwnerWrite w n v) s = execMemTestOwnerWrite w n v s := rfl
  rw [Does, hexec, execMemTestOwnerWrite, on_runs s _ _ hruns]
  rw [if_neg (Nat.not_lt.mpr hv), ownerWrite_accepted s.pkg w _ v 0x4009 n.val hfree]

theorem repairStart_takes (s : State) (n : DieNo) (r : RowId) (rest : List RowId) (hruns : s.Runs .control)
    (hcands : s.pkg.memsys.cands.at [] n.val = r :: rest) (himage : repairRuns (s.pkg.reg O.imageState) = true)
    (hidle : s.pkg.memsys.repairing.find n.val = none) (hport : s.pkg.reg (O.memTestOwner + n.val) = 0) :
    ∃ t, exec (.repairStart n) s = .next t ∧ t.pkg.memsys.repairing.find n.val = some r ∧ t.pkg.memsys.cands.at [] n.val = rest ∧
      t.pkg.reg (O.memTestOwner + n.val) = 2 ∧ t.pkg.reg (O.repairCandidates + n.val) = rest.length ∧ SameMemory s t ∧
      SameRegsBut (fun k => k = O.memTestOwner + n.val ∨ k = O.repairCandidates + n.val) s t ∧ t.pkg.tiles = s.pkg.tiles := by
  have hexec : exec (.repairStart n) s = execRepairStart n s := rfl
  have hclaim : s.pkg.ownerWrite .unit (O.memTestOwner + n.val) 2 0x4009 n.val = s.pkg.setReg (O.memTestOwner + n.val) 2 :=
    ownerWrite_accepted s.pkg .unit _ 2 0x4009 n.val (.inl hport)
  rw [hexec, execRepairStart, on_runs s _ _ hruns, hcands]
  dsimp only
  rw [if_neg (by rw [himage, hidle]; rintro (h | h) <;> cases h), hclaim, reg_setReg_self, if_neg (not_not.mpr rfl)]
  have hne : O.memTestOwner + n.val ≠ O.repairCandidates + n.val := by simp only [O.memTestOwner, O.repairCandidates]; omega
  refine ⟨_, rfl, filter_remembers s.pkg.memsys.repairing n.val r, SMap.at_put_self ([] : List RowId) n.val rest s.pkg.memsys.cands, ?_,
    reg_setReg_self _ _ _, fun _ => rfl, fun k hk => ?_, rfl⟩
  · rw [settle_pkg, reg_setReg_other _ _ _ _ hne]
    exact reg_setReg_self s.pkg _ 2
  · rw [settle_pkg, reg_setReg_other _ _ _ _ fun h => hk (.inr h)]
    exact reg_setReg_other s.pkg _ _ _ fun h => hk (.inl h)

/-- The objects that a repair sets, and that no count of uncorrectable words is. -/
abbrev RepairObject (k : Nat) : Prop := 0x400B01 ≤ k ∧ k < 0x400C01 ∨ k = O.rowsRepaired

theorem addCandidate_reg (p : Pkg) (x : Place) (hdie : x.die < 4) {k : Nat} (hk : RepairObject k) : (p.addCandidate x).reg k = p.reg k := by
  simp only [RepairObject, O.rowsRepaired] at hk
  unfold Pkg.addCandidate
  dsimp only
  split
  · rfl
  · split
    · exact reg_setReg_other _ _ _ _ (by simp only [O.repairListFull]; omega)
    · rw [reg_raise]
      exact reg_setReg_other _ _ _ _ (by simp only [O.repairCandidates]; omega)

theorem placeOf_unit_lt (a : Nat) : (placeOf a).unit < 24 ∧ (placeOf a).die < 4 := by
  by_cases h : a < lpddrBase
  · rw [placeOf_hbm h]
    simp only [Place.die, Bool.false_eq_true, if_false]
    omega
  · rw [placeOf_lpddr h]
    simp only [Place.die, if_true]
    omega

theorem countUncorrectable_reg (p : Pkg) (a : Nat) (w : PWord) {k : Nat} (hk : RepairObject k) : (p.countUncorrectable a w).reg k = p.reg k := by
  obtain ⟨hunit, hdie⟩ := placeOf_unit_lt a
  unfold Pkg.countUncorrectable
  dsimp only
  rw [addCandidate_reg _ _ hdie hk, reg_raise]
  simp only [RepairObject, O.rowsRepaired] at hk
  rw [reg_setReg_other _ _ _ _ (by simp only [O.lastUncorrectableSyndrome]; omega), reg_setReg_other _ _ _ _ (by simp only [O.lastUncorrectableAddr]; omega),
    Pkg.bump, reg_setReg_other]
  simp only [uncorrKey, O.lpddrUncorrectable, O.hbmUncorrectable]
  split <;> omega

/-- What writing a row back leaves. -/
theorem rewriteRow_keeps (p : Pkg) (r : RowId) {k : Nat} (hk : RepairObject k) :
    (p.rewriteRow r).reg k = p.reg k ∧ (p.rewriteRow r).memsys.repairing = p.memsys.repairing := by
  refine foldl_invariant (fun q : Pkg => q.reg k = p.reg k ∧ q.memsys.repairing = p.memsys.repairing) (fun q a h => ?_) _ ⟨rfl, rfl⟩
  obtain ⟨hreg, hrepairing⟩ := h
  dsimp only
  split
  · exact ⟨hreg, hrepairing⟩
  · exact ⟨hreg, hrepairing⟩
  · exact ⟨(reg_of_dict (setWord_dict q a _) k).trans hreg, (congrArg (·.repairing) (setWord_memsys q a _)).trans hrepairing⟩
  · refine ⟨?_, ?_⟩
    · rw [countUncorrectable_reg _ _ _ hk, reg_of_dict (setWord_dict q a _), hreg]
    · rw [repairing_of_wordParts (countUncorrectable_wordParts _ _ _), setWord_memsys, hrepairing]

/-- The resources left of a unit. -/
def leftObject (r : RowId) : Nat := if r.unit < 12 then O.hbmRepairsLeft + r.unit else O.lpddrRepairsLeft + (r.unit - 12)

theorem leftObject_range {r : RowId} (h : r.unit < 36) : 0x400B01 ≤ leftObject r ∧ leftObject r < 0x400C01 := by
  simp only [leftObject, O.hbmRepairsLeft, O.lpddrRepairsLeft]
  split <;> omega

section
variable (p : Pkg) (n : Nat)

@[simp] theorem releaseRepair_mem : (p.releaseRepair n).mem = p.mem := by
  unfold Pkg.releaseRepair
  split <;> rfl

@[simp] theorem releaseRepair_ev : (p.releaseRepair n).ev = p.ev := by
  unfold Pkg.releaseRepair
  split <;> rfl

@[simp] theorem releaseRepair_memsys : (p.releaseRepair n).memsys = p.memsys := by
  unfold Pkg.releaseRepair
  split <;> rfl

theorem releaseRepair_reg {k : Nat} (hk : k ≠ O.memTestOwner + n) : (p.releaseRepair n).reg k = p.reg k := by
  unfold Pkg.releaseRepair
  split
  · exact reg_setReg_other _ _ _ _ hk
  · rfl

end

/-- An event raised is the last one on its way. -/
theorem raised_last (p : Pkg) (code unit arg : Nat) : ((p.raise code unit arg).ev.inFlight.getLast?.map (·.code)) = some code := by
  have hlist : (p.raise code unit arg).ev.inFlight = p.ev.inFlight ++ [_] := rfl
  rw [hlist, List.getLast?_append_of_ne_nil _ (List.cons_ne_nil _ _)]
  rfl

/-- What a save that is asked for leaves. -/
theorem askSave_spec (p : Pkg) (pos : Nat) : (p.askSave pos).mem = p.mem ∧ (p.askSave pos).memsys = p.memsys ∧ (p.askSave pos).ev = p.ev ∧
    ∀ k, (p.askSave pos).reg k = p.reg k := by
  unfold Pkg.askSave
  split
  · exact ⟨rfl, rfl, rfl, fun _ => rfl⟩
  · next i _ =>
    obtain ⟨l, hl⟩ := flood_eq p 0x20 0 [p.reg O.domainBeat + i.slipHorizon, pos]
    dsimp only
    rw [hl]
    exact ⟨rfl, rfl, rfl, fun _ => rfl⟩

/-- The days of package life that are left, and what noting them leaves. -/
theorem setPackageEol_spec (p : Pkg) (days source : Nat) : (p.setPackageEol days source).mem = p.mem ∧
    (p.setPackageEol days source).memsys = p.memsys ∧ (∀ code, p.HasEvent code → (p.setPackageEol days source).HasEvent code) ∧
    (p.setPackageEol days source).reg O.packageEolDays = days ∧
    ∀ k, k ≠ O.packageEolDays → k ≠ O.packageEolSource → (p.setPackageEol days source).reg k = p.reg k := by
  have hset : ((p.setReg O.packageEolDays days).setReg O.packageEolSource source).reg O.packageEolDays = days := by
    rw [reg_setReg_other _ _ _ _ (by decide), reg_setReg_self]
  have hother (k : Nat) (hdays : k ≠ O.packageEolDays) (hsource : k ≠ O.packageEolSource) :
      ((p.setReg O.packageEolDays days).setReg O.packageEolSource source).reg k = p.reg k := by
    rw [reg_setReg_other _ _ _ _ hsource, reg_setReg_other _ _ _ _ hdays]
  unfold Pkg.setPackageEol
  extract_lets was q
  have hmem : q.mem = p.mem := rfl
  have hmemsys : q.memsys = p.memsys := rfl
  have hev : q.ev = p.ev := rfl
  have hset : q.reg O.packageEolDays = days := hset
  have hother : ∀ k, k ≠ O.packageEolDays → k ≠ O.packageEolSource → q.reg k = p.reg k := hother
  clear_value q
  split
  · obtain ⟨hamem, hamemsys, haev, hareg⟩ := askSave_spec (q.raise 0x2609 noUnit 0) (q.reg O.logicalPosition)
    refine ⟨hamem.trans hmem, hamemsys.trans hmemsys, fun code h => ?_, (hareg _).trans hset, fun k hd hs => (hareg k).trans (hother k hd hs)⟩
    rw [Pkg.HasEvent, haev]
    obtain ⟨r, hr, hcode⟩ := h
    exact ⟨r, List.mem_append_left _ (hev ▸ hr), hcode⟩
  · refine ⟨hmem, hmemsys, fun code h => ?_, hset, hother⟩
    rw [Pkg.HasEvent, hev]
    exact h

theorem repairDone_ends (s : State) (n : DieNo) (r : RowId) (x : Bool) (left : Nat) (hruns : s.Runs .control)
    (himage : repairRuns (s.pkg.reg O.imageState) = true) (hrepair : s.pkg.memsys.repairing.find n.val = some r) (hunit : r.unit < 36) :
    ∃ t, exec (.repairDone n x left) s = .next t ∧ t.pkg.memsys.repairing.find n.val = none ∧ t.pkg.reg (leftObject r) = left % 65536 ∧
      (x = false → t.pkg.reg O.rowsRepaired = min (s.pkg.reg O.rowsRepaired + 1) (2 ^ 32 - 1) ∧ RaisedLast t 0x4007) ∧
      (x = true → t.pkg.reg O.rowsRetired = min (s.pkg.reg O.rowsRetired + 1) (2 ^ 16 - 1) ∧ RaisedEver t 0x4008 ∧
        t.pkg.reg O.packageEolDays = 0 ∧ SameMemory s t) := by
  have hexec : exec (.repairDone n x left) s = execRepairDone n x left s := rfl
  obtain ⟨hlo, hhi⟩ := leftObject_range hunit
  have hleft : RepairObject (leftObject r) := .inl ⟨hlo, hhi⟩
  have hport (k : Nat) (hk : k < 0x400F01) : k ≠ O.memTestOwner + n.val := by simp only [O.memTestOwner]; omega
  rw [hexec, execRepairDone, on_runs s _ _ hruns, Pkg.repairDone, hrepair]
  dsimp only
  rw [himage, if_neg (by decide)]
  rw [← leftObject]
  have hset : ({ s.pkg with memsys := { s.pkg.memsys with
      repairing := s.pkg.memsys.repairing.del n.val, rowCorr := s.pkg.memsys.rowCorr.put 0 r.key 0 } }.setReg (leftObject r) (left % 65536)).reg
        (leftObject r) = left % 65536 := reg_setReg_self _ _ _
  have hothers (k : Nat) (hk : k ≠ leftObject r) : ({ s.pkg with memsys := { s.pkg.memsys with
      repairing := s.pkg.memsys.repairing.del n.val, rowCorr := s.pkg.memsys.rowCorr.put 0 r.key 0 } }.setReg (leftObject r) (left % 65536)).reg k =
        s.pkg.reg k := reg_setReg_other _ _ _ _ hk
  have hmem : ({ s.pkg with memsys := { s.pkg.memsys with
      repairing := s.pkg.memsys.repairing.del n.val, rowCorr := s.pkg.memsys.rowCorr.put 0 r.key 0 } }.setReg (leftObject r) (left % 65536)).mem =
        s.pkg.mem := rfl
  have hgone : ({ s.pkg with memsys := { s.pkg.memsys with
      repairing := s.pkg.memsys.repairing.del n.val, rowCorr := s.pkg.memsys.rowCorr.put 0 r.key 0 } }.setReg (leftObject r)
        (left % 65536)).memsys.repairing.find n.val = none := SMap.find_del_self _ _
  generalize { s.pkg with memsys := { s.pkg.memsys with
      repairing := s.pkg.memsys.repairing.del n.val, rowCorr := s.pkg.memsys.rowCorr.put 0 r.key 0 } }.setReg (leftObject r) (left % 65536) = q at *
  cases x with
  | false =>
    obtain ⟨hkept, hrepairing⟩ := rewriteRow_keeps q r hleft
    obtain ⟨hrows, -⟩ := rewriteRow_keeps q r (.inr rfl)
    rw [if_neg Bool.false_ne_true]
    refine ⟨_, rfl, ?_, ?_, fun _ => ⟨?_, ?_⟩, (fun hx => by cases hx)⟩
    · rw [settle_pkg, releaseRepair_memsys]
      exact (congrArg (SMap.find n.val) hrepairing).trans hgone
    · rw [settle_pkg, releaseRepair_reg _ _ (hport _ (by omega)), reg_raise, Pkg.bump, reg_setReg_other _ _ _ _ (by simp only [O.rowsRepaired]; omega), hkept, hset]
    · rw [settle_pkg, releaseRepair_reg _ _ (hport _ (by decide)), reg_raise, Pkg.bump, reg_setReg_self, hrows, hothers _ (by simp only [O.rowsRepaired]; omega), satAdd]
    · rw [RaisedLast, settle_pkg, releaseRepair_ev]
      exact raised_last _ _ _ _
  | true =>
    rw [if_pos rfl]
    generalize hretired : ((q.bump16 O.rowsRetired 1).raise 0x4008 r.unit 0) = a
    have hevent : a.HasEvent 0x4008 := hretired ▸ hasEvent_raise _ _ _ _
    have hrows : a.reg O.rowsRetired = satAdd 16 (s.pkg.reg O.rowsRetired) 1 := by
      rw [← hretired, reg_raise, Pkg.bump16, reg_setReg_self, hothers _ (by simp only [O.rowsRetired]; omega)]
    have hkept : a.reg (leftObject r) = left % 65536 := by
      rw [← hretired, reg_raise, Pkg.bump16, reg_setReg_other _ _ _ _ (by simp only [O.rowsRetired]; omega), hset]
    have hamem : a.mem = s.pkg.mem := by rw [← hretired, ← hmem]; rfl
    have hagone : a.memsys.repairing.find n.val = none := by rw [← hretired]; exact hgone
    obtain ⟨hemem, hememsys, heev, hedays, hereg⟩ := setPackageEol_spec ((a.setWear { a.wear with
        qual := (a.wear.qual.del (128 + r.unit)).ins (128 + r.unit) 0
        eol := a.wear.eol.put 65535 (wearKey 5 0 r.unit) 0 }).setReg (O.kindEolDays + 4) 0) 0 (wearKey 5 0 r.unit)
    have hbefore (k : Nat) (hk : k ≠ O.kindEolDays + 4) : ((a.setWear { a.wear with
        qual := (a.wear.qual.del (128 + r.unit)).ins (128 + r.unit) 0
        eol := a.wear.eol.put 65535 (wearKey 5 0 r.unit) 0 }).setReg (O.kindEolDays + 4) 0).reg k = a.reg k := reg_setReg_other _ _ _ _ hk
    refine ⟨_, rfl, ?_, ?_, (fun hx => by cases hx), fun _ => ⟨?_, ?_, ?_, fun b => ?_⟩⟩
    · rw [settle_pkg, releaseRepair_memsys, hememsys]
      exact hagone
    · rw [settle_pkg, releaseRepair_reg _ _ (hport _ (by omega)), hereg _ (by simp only [O.packageEolDays]; omega) (by simp only [O.packageEolSource]; omega),
        hbefore _ (by simp only [O.kindEolDays]; omega), hkept]
    · rw [settle_pkg, releaseRepair_reg _ _ (hport _ (by decide)), hereg _ (by decide) (by decide), hbefore _ (by decide), hrows, satAdd]
    · rw [RaisedEver, settle_pkg, releaseRepair_ev]
      exact heev _ hevent
    · rw [settle_pkg, releaseRepair_reg _ _ (hport _ (by decide)), hedays]
    · rw [settle_pkg, Pkg.byte, releaseRepair_mem, hemem]
      exact congrArg (SMap.at 0 b) hamem

/-! ### Decode and self-refresh -/

theorem decodeQuery_answers (s : State) (pt : Path) (v : Nat) (hruns : s.Runs (pathPlane pt)) :
    (isMem v = true → Does (.decodeQuery pt v) s (s.pkg.setReg O.decodeQuery v)) ∧
    (isMem v = false → Does (.decodeQuery pt v) s (s.pkg.refuse pt O.decodeQuery abRange)) := by
  have hexec : exec (.decodeQuery pt v) s = execDecodeQuery pt v s := rfl
  refine ⟨fun h => ?_, fun h => ?_⟩
  · rw [Does, hexec, execDecodeQuery, on_runs s _ _ hruns, h, if_pos rfl]
  · rw [Does, hexec, execDecodeQuery, on_runs s _ _ hruns, h, if_neg Bool.false_ne_true]

theorem selfRefresh_enters (s : State) (u : Fin 36) (hruns : s.Runs .control) (hps : s.pkg.reg O.psCurrent = 2) :
    ∃ t, exec (.selfRefreshIdleEntry u) s = .next t ∧ t.pkg.memsys.selfRefresh.at false u.val = true ∧ SameMemory s t ∧ SameRegs s t ∧
      t.pkg.tiles = s.pkg.tiles := by
  have hexec : exec (.selfRefreshIdleEntry u) s = execSelfRefreshIdleEntry u s := rfl
  rw [hexec, execSelfRefreshIdleEntry, on_runs s _ _ hruns, if_pos hps]
  exact ⟨_, rfl, SMap.at_put_self false u.val true s.pkg.memsys.selfRefresh, fun _ => rfl, fun _ => rfl, rfl⟩

/-- Settles O30. -/
theorem memoryUnits : Obligations.MemoryUnits :=
  ⟨fun _ _ hruns hfirst hpads => ⟨fun _ _ hget hclock hclean => memoryLineRead_serves hruns hfirst hpads hget hclock hclean,
      fun _ _ hget hlength hclock => memoryLineWrite_serves hruns hfirst hpads hget hlength hclock,
      fun _ _ hget hclock => correctionWriteback_serves hruns hfirst hpads hget hclock⟩,
    ⟨patrolScrub_reads, scrubWindow_closes⟩, memTestOwner_takes, repairStart_takes, repairDone_ends, decodeQuery_answers, selfRefresh_enters⟩

end Sys2Proof.Machine

namespace Sys2Proof.Machine

/-! ## The directory's rows (R268, R271) -/

theorem bitOf_two_pow {o r : Nat} (h : bitOf (2 ^ o) r = true) : o = r := by
  by_contra hne
  simp only [bitOf, beq_iff_eq] at h
  rcases Nat.lt_or_gt_of_ne hne with hlt | hgt
  · rw [Nat.div_eq_of_lt (Nat.pow_lt_pow_right (by decide) hlt)] at h
    cases h
  · rw [Nat.pow_div hgt.le (by decide), Nat.pow_mod, Nat.mod_self, Nat.zero_pow (by omega)] at h
    cases h

/-- The sharer vector of one owner, with an agent removed. -/
theorem delAgent_two_pow (o r : Nat) : delAgent (2 ^ o) r = 0 ∨ delAgent (2 ^ o) r = 2 ^ o := by
  unfold delAgent
  split
  next h =>
    rw [bitOf_two_pow h, Nat.sub_self]
    exact .inl rfl
  next => exact .inr rfl

/-- What a row makes of an entry: shared, free, the requester's, or with the state that it had. -/
theorem rowNext_cases (row : Nat) (e : DirEnt) (r : Nat) : (rowNext row e r).1 < 2 ∨ (rowNext row e r).2 = 0 ∨ (rowNext row e r).2 = 2 ^ r ∨
    rowNext row e r = (e.st, delAgent e.sharers r) ∨ rowNext row e r = (e.st, e.sharers) := by
  unfold rowNext
  split <;> simp

/-- A row that leaves an owner names one agent. -/
theorem rowNext_owner (row : Nat) (e : DirEnt) (r : Nat) (he : 2 ≤ e.st → ∃ o < 68, e.sharers = 2 ^ o) (hne : (rowNext row e r).2 ≠ 0)
    (howner : 2 ≤ (rowNext row e r).1) : ∃ o, (rowNext row e r).2 = 2 ^ o := by
  obtain hshared | hfree | hmine | hless | hsame := rowNext_cases row e r
  · omega
  · exact absurd hfree hne
  · exact ⟨r, hmine⟩
  · rw [hless] at hne howner ⊢
    obtain ⟨o, -, ho⟩ := he howner
    rw [ho] at hne ⊢
    exact ⟨o, (delAgent_two_pow o r).resolve_left hne⟩
  · rw [hsame] at howner ⊢
    obtain ⟨o, -, ho⟩ := he howner
    exact ⟨o, ho⟩

theorem mem_agents {m c : Nat} (h : c ∈ agents m) : c < 68 := List.mem_range.mp (List.mem_of_mem_filter h)

theorem nearSharer_spec {m r c : Nat} (h : nearSharer m r = some c) : c < 68 ∧ c ≠ r := by
  have hfound := List.find?_some h
  simp only [decide_eq_true_eq] at hfound
  exact ⟨mem_agents (List.mem_of_find?_eq_some h), hfound.1⟩

/-- The rows whose snoop goes to the owner. -/
def ownerRows : List Nat := [7, 10, 13, 15, 16]

/-- The agents that a row's snoops go to: the owner, or sharers other than the requester. -/
theorem mem_rowSnoops {row : Nat} {e : DirEnt} {r c : Nat} {k : SnoopKind} (h : (c, k) ∈ rowSnoops row e r) :
    c < 68 ∧ (c ≠ r ∨ row ∈ ownerRows ∧ (agents e.sharers)[0]? = some c) := by
  have hinv (skip : Option Nat) (kind : SnoopKind)
      (h : (c, k) ∈ ((agents e.sharers).filter fun c => decide (c ≠ r ∧ some c ≠ skip)).map fun c => (c, kind)) : c < 68 ∧ c ≠ r := by
    obtain ⟨a, ha, heq⟩ := List.mem_map.mp h
    obtain ⟨ha, hne⟩ := List.mem_filter.mp ha
    obtain ⟨rfl, -⟩ := Prod.mk.inj heq
    exact ⟨mem_agents ha, (of_decide_eq_true hne).1⟩
  have howner (kind : SnoopKind) (h : (c, k) ∈ (match (agents e.sharers)[0]? with
      | some c => [(c, kind)]
      | none => [])) : c < 68 ∧ (agents e.sharers)[0]? = some c := by
    split at h
    next o ho =>
      obtain ⟨rfl, -⟩ := Prod.mk.inj (List.mem_singleton.mp h)
      exact ⟨mem_agents (List.mem_of_getElem? ho), ho⟩
    next => exact absurd h List.not_mem_nil
  have hnear (kind : SnoopKind) (h : (c, k) ∈ (match nearSharer e.sharers r with
      | some c => [(c, kind)]
      | none => [])) : c < 68 ∧ c ≠ r := by
    split at h
    next o ho =>
      obtain ⟨rfl, -⟩ := Prod.mk.inj (List.mem_singleton.mp h)
      exact nearSharer_spec ho
    next => exact absurd h List.not_mem_nil
  unfold rowSnoops at h
  dsimp only at h
  split at h
  · exact (hnear _ h).imp_right .inl
  · exact (howner _ h).imp_right fun ho => .inr ⟨by decide, ho⟩
  · exact (hinv _ _ h).imp_right .inl
  · obtain h | h := List.mem_append.mp h
    · exact (hnear _ h).imp_right .inl
    · exact (hinv _ _ h).imp_right .inl
  · exact (howner _ h).imp_right fun ho => .inr ⟨by decide, ho⟩
  · exact (hinv _ _ h).imp_right .inl
  · exact (howner _ h).imp_right fun ho => .inr ⟨by decide, ho⟩
  · exact (hinv _ _ h).imp_right .inl
  · exact (howner _ h).imp_right fun ho => .inr ⟨by decide, ho⟩
  · exact (howner _ h).imp_right fun ho => .inr ⟨by decide, ho⟩
  · exact absurd h List.not_mem_nil

/-- A core's request whose row snoops the owner is not the owner's. -/
theorem dirRow_owner {e : DirEnt} {q : Req} (hkind : q.kind = .rdShared ∨ q.kind = .rdOwn ∨ q.kind = .upgrade) (hrow : dirRow e q ∈ ownerRows) :
    ((agents e.sharers)[0]?).getD 68 ≠ q.requester := by
  intro ho
  unfold dirRow at hrow
  dsimp only at hrow
  rw [ho] at hrow
  rcases hkind with hk | hk | hk <;> rw [hk] at hrow <;> simp only at hrow <;> revert hrow <;> split_ifs <;> decide

/-- Settles O31 (R268, R271). -/
theorem directoryKeepsOneOwner : Obligations.DirectoryKeepsOneOwner := by
  refine ⟨fun e q he hne howner => rowNext_owner _ e _ he hne howner, fun e q c k h hkind => ?_⟩
  obtain ⟨hcore, hother | ⟨hrow, howner⟩⟩ := mem_rowSnoops h
  · exact ⟨hother, hcore⟩
  · refine ⟨fun hc => ?_, hcore⟩
    obtain hk | hk | hk | hagent := hkind
    · exact dirRow_owner (.inl hk) hrow (by rw [howner, hc]; rfl)
    · exact dirRow_owner (.inr (.inl hk)) hrow (by rw [howner, hc]; rfl)
    · exact dirRow_owner (.inr (.inr hk)) hrow (by rw [howner, hc]; rfl)
    · omega

end Sys2Proof.Machine

namespace Sys2Proof.Machine

/-! ## Homes serve (R265 to R271) -/

/-! ### What a core's accesses leave -/

/-- q is p but for what a core's accesses use, and the objects of the memory side. -/
structure CoreRun (p q : Pkg) : Prop where
  rest : { q.coreRest with dict := Pkg.reset.dict } = { p.coreRest with dict := Pkg.reset.dict }
  reg : ∀ k, ¬ AgentObject k → q.reg k = p.reg k

theorem coreRun_closed (p : Pkg) : CoreClosed (CoreRun p) where
  core {q r} h hr _ := by
    have hdict : r.dict = q.dict := by have h' := congrArg Pkg.dict hr; exact h'
    exact ⟨(congrArg (fun x : Pkg => { x with dict := Pkg.reset.dict }) hr).trans h.rest, fun k hk => (reg_of_dict hdict k).trans (h.reg k hk)⟩
  reg {q k} v hk h := ⟨h.rest, fun j hj => (reg_setReg_other q j k v fun hjk => hj (hjk ▸ hk)).trans (h.reg j hj)⟩

namespace CoreRun

variable {p q : Pkg}

theorem refl (p : Pkg) : CoreRun p p := ⟨rfl, fun _ _ => rfl⟩
theorem mem (h : CoreRun p q) : q.mem = p.mem := by have h' := congrArg Pkg.mem h.rest; exact h'
theorem memsys (h : CoreRun p q) : q.memsys = p.memsys := by have h' := congrArg Pkg.memsys h.rest; exact h'
theorem loader (h : CoreRun p q) : q.loader = p.loader := by have h' := congrArg Pkg.loader h.rest; exact h'
theorem dir (h : CoreRun p q) : q.coh.dir = p.coh.dir := by have h' := congrArg (fun x : Pkg => x.coh.dir) h.rest; exact h'
theorem evb (h : CoreRun p q) : q.coh.evb = p.coh.evb := by have h' := congrArg (fun x : Pkg => x.coh.evb) h.rest; exact h'

theorem hitsImage (h : CoreRun p q) (line : Nat) (mask : List Bool) : q.hitsImage line mask = p.hitsImage line mask := by
  simp only [Pkg.hitsImage, h.loader, h.reg O.imageState (by decide)]

end CoreRun

/-- An eviction buffer that its home has answered: free, and what else the core then does leaves the home alone. -/
theorem freeEvb_spec (p : Pkg) (c line : Nat) : (p.freeEvb c line).evb c line = none ∧ CoreRun (p.setEvb c line none) (p.freeEvb c line) := by
  have hrun := (coreRun_closed (p.setEvb c line none)).resumeCore c line (CoreRun.refl _)
  refine ⟨?_, hrun⟩
  rw [Pkg.freeEvb, Pkg.evb, hrun.evb]
  exact SMap.find_del_self _ _

/-! ### The directory's entries (R264) -/

theorem dieMask_lt (m : Nat) : dieMask m < 16 := by
  have hrange : List.range 4 = [0, 1, 2, 3] := rfl
  simp only [dieMask, hrange, List.foldl_cons, List.foldl_nil]
  split <;> split <;> split <;> split <;> decide

/-- The fields of an entry's number. -/
theorem entry_fields {d tag st sharers : Nat} (htag : tag < 2 ^ 40) (hst : st < 8) (hsharers : sharers < 2 ^ 68) (v : Nat)
    (hv : v = fld d 111 + fld tag 71 + fld st 68 + sharers) : v / 2 ^ 68 % 8 = st ∧ v / 2 ^ 71 % 2 ^ 40 = tag ∧ v % 2 ^ 68 = sharers ∧ v / 2 ^ 111 = d := by
  simp only [fld] at hv
  omega

/-- What an entry that has been written reads as. -/
theorem dirRead_dirWord {tag st sharers : Nat} (htag : tag < 2 ^ 40) (hst0 : st ≠ 0) (hst : st < 4) (hsharers : sharers < 2 ^ 68) :
    dirRead (dirWord tag st sharers) = some (dirWord tag st sharers).data.toNat ∧ bits (dirWord tag st sharers).data.toNat 70 68 = st ∧
      bits (dirWord tag st sharers).data.toNat 110 71 = tag ∧ (dirWord tag st sharers).data.toNat % 2 ^ 68 = sharers := by
  have hdie := dieMask_lt sharers
  have hdata : (dirWord tag st sharers).data.toNat = fld (dieMask sharers) 111 + fld tag 71 + fld st 68 + sharers := by
    rw [dirWord, if_neg hst0, goodWord, BitVec.toNat_ofNat]
    refine Nat.mod_eq_of_lt ?_
    simp only [fld]
    omega
  obtain ⟨hfst, hftag, hfsharers, hfdie⟩ := entry_fields htag (by omega) hsharers _ hdata
  have hbits : bits (dirWord tag st sharers).data.toNat 70 68 = st := hfst
  refine ⟨?_, hbits, hftag, hfsharers⟩
  have hread : readWord (dirWord tag st sharers) = some (dirWord tag st sharers).data := by
    rw [dirWord, if_neg hst0]
    exact readWord_goodWord _
  rw [dirRead, hread]
  dsimp only
  rw [hbits, hfsharers, if_neg]
  rintro (h | h)
  · omega
  · refine h ?_
    rw [bits, hfdie]
    exact Nat.mod_eq_of_lt hdie

theorem dirKey_injective {set v w : Nat} (h : dirKey set v = dirKey set w) : v = w := Nat.add_left_cancel h

/-- Whether a way of a line's set holds the line's entry. -/
def Pkg.holds (p : Pkg) (line way : Nat) : Bool :=
  match dirRead (p.coh.dir.at zeroWord (dirKey (dirSet line) way)) with
  | some v => decide (bits v 70 68 ≠ 0 ∧ bits v 110 71 = line)
  | none => false

theorem dirFind_eq (p : Pkg) (line : Nat) : p.dirFind line =
    match (p.ways (dirSet line / 65536)).find? (p.holds line) with
    | none => ⟨none, 0, 0⟩
    | some w => ⟨some w, bits (p.coh.dir.at zeroWord (dirKey (dirSet line) w)).data.toNat 70 68,
        (p.coh.dir.at zeroWord (dirKey (dirSet line) w)).data.toNat % 2 ^ 68⟩ := rfl

/-- A line without an entry that takes a free way finds the entry written there. -/
theorem dirFind_new {p q : Pkg} {line st sharers w : Nat} (hline : line < 2 ^ 40) (hst0 : st ≠ 0) (hst : st < 4) (hsharers : sharers < 2 ^ 68)
    (hnone : (p.dirFind line).way = none) (hfree : p.freeWay line = some w) (hheld : q.coh.heldWay = p.coh.heldWay)
    (hdir : q.coh.dir = p.coh.dir.put zeroWord (dirKey (dirSet line) w) (dirWord line st sharers)) :
    q.dirFind line = ⟨some w, st, sharers⟩ := by
  obtain ⟨hread, hbits, htag, hlow⟩ := dirRead_dirWord hline hst0 hst hsharers
  have hways : q.ways (dirSet line / 65536) = p.ways (dirSet line / 65536) := by rw [Pkg.ways, Pkg.ways, Pkg.heldWay, Pkg.heldWay, hheld]
  have hat : q.coh.dir.at zeroWord (dirKey (dirSet line) w) = dirWord line st sharers := by rw [hdir, SMap.at_put_self]
  have hother {v : Nat} (hv : v ≠ w) : q.holds line v = p.holds line v := by
    rw [Pkg.holds, Pkg.holds, hdir, SMap.at_put_other _ _ _ _ _ fun h => hv (dirKey_injective h)]
  have hself : q.holds line w = true := by
    rw [Pkg.holds, hat, hread]
    exact decide_eq_true ⟨fun h => hst0 (hbits.symm.trans h), htag⟩
  have hnoway : ∀ v ∈ p.ways (dirSet line / 65536), ¬ p.holds line v = true := by
    rw [dirFind_eq] at hnone
    split at hnone
    next h => exact List.find?_eq_none.mp h
    next => cases hnone
  have hmem : w ∈ p.ways (dirSet line / 65536) := List.mem_of_find?_eq_some hfree
  have hfind : (q.ways (dirSet line / 65536)).find? (q.holds line) = some w := by
    rw [hways]
    cases hfound : (p.ways (dirSet line / 65536)).find? (q.holds line) with
    | none => exact absurd hself (List.find?_eq_none.mp hfound w hmem)
    | some v =>
      by_contra hne
      have hv : v ≠ w := fun h => hne (congrArg some h)
      exact hnoway v (List.mem_of_find?_eq_some hfound) ((hother hv).symm.trans (List.find?_some hfound))
  rw [dirFind_eq, hfind]
  dsimp only
  rw [hat, hbits, hlow]

/-! ### Requests in service -/

theorem busyAt_setBusy (p : Pkg) (b : Busy) : (p.setBusy b).busyAt b.line = some b := by
  have hnone : (p.coh.busy.filter fun x => decide (x.line ≠ b.line)).find? (fun x => decide (x.line = b.line)) = none := by
    refine List.find?_eq_none.mpr fun x hx hline => ?_
    exact of_decide_eq_true (List.mem_filter.mp hx).2 (of_decide_eq_true hline)
  rw [Pkg.busyAt, Pkg.setBusy]
  dsimp only
  rw [List.find?_append, hnone]
  exact List.find?_cons_of_pos (p := fun x : Busy => decide (x.line = b.line)) (decide_eq_true rfl)

theorem busyAt_enqueue (p : Pkg) (o : MemOp) (line : Nat) : (p.enqueue o).busyAt line = p.busyAt line := rfl

/-- A set whose entries read without an error is left as it is. -/
theorem dirCheck_clean {s : State} {line : Nat} (h : s.SetClean line) : s.pkg.dirCheck (dirSet line) = s.pkg := by
  refine List.foldlRecOn (motive := fun q => q = s.pkg) _ _ rfl fun q hq w hw => ?_
  subst hq
  obtain ⟨hclean, hread⟩ := h w hw
  obtain ⟨v, hv⟩ := Option.isSome_iff_exists.mp hread
  dsimp only
  rw [hv, hclean]

/-- Rows 1 and 2 snoop nobody: the line's read is queued, and the line is busy. -/
theorem homeServe_unsnooped (p : Pkg) (q : Req) (e : DirEnt) (row : Nat) (hrow : row = 1 ∨ row = 2) :
    p.homeServe q e row = (({ p.setEntry q.line (rowNext row e q.requester).1 (rowNext row e q.requester).2 with
      coh := { (p.setEntry q.line (rowNext row e q.requester).1 (rowNext row e q.requester).2).coh with
        snoops := (p.setEntry q.line (rowNext row e q.requester).1 (rowNext row e q.requester).2).coh.snoops ++ [] } } : Pkg).setBusy
          ⟨q.line, q, row, 0, none, false, false, (p.setEntry q.line (rowNext row e q.requester).1 (rowNext row e q.requester).2).mtime⟩).enqueue
            (.read q.line fullMask q.tag) := by
  obtain rfl | rfl := hrow <;> rfl

/-- A line without an entry that takes a free way. -/
theorem setEntry_new {p : Pkg} {line st sharers w : Nat} (hsharers : sharers ≠ 0) (hnone : (p.dirFind line).way = none) (hfree : p.freeWay line = some w) :
    p.setEntry line st sharers = p.setDir (dirKey (dirSet line) w) (dirWord line st sharers) := by
  rw [Pkg.setEntry, hnone, hfree]
  dsimp only
  rw [if_neg hsharers]

/-- A line whose entry is written, and whose read is queued. -/
def Pkg.awaitLine (a : Pkg) (q : Req) (row : Nat) : Pkg :=
  (({ a with coh := { a.coh with snoops := a.coh.snoops ++ [] } } : Pkg).setBusy ⟨q.line, q, row, 0, none, false, false, a.mtime⟩).enqueue
    (.read q.line fullMask q.tag)

section
variable (a : Pkg) (q : Req) (row : Nat)

theorem awaitLine_dir : (a.awaitLine q row).coh.dir = a.coh.dir := rfl
theorem awaitLine_heldWay : (a.awaitLine q row).coh.heldWay = a.coh.heldWay := rfl
theorem awaitLine_queue : (a.awaitLine q row).memsys.queue = a.memsys.queue ++ [.read q.line fullMask q.tag] := rfl

theorem awaitLine_busyAt : (a.awaitLine q row).busyAt q.line = some ⟨q.line, q, row, 0, none, false, false, a.mtime⟩ := by
  rw [Pkg.awaitLine, busyAt_enqueue]
  exact busyAt_setBusy _ ⟨q.line, q, row, 0, none, false, false, a.mtime⟩

end

theorem setDir_memsys (p : Pkg) (key : Nat) (w : PWord) : (p.setDir key w).memsys = p.memsys := rfl
theorem setDir_mtime (p : Pkg) (key : Nat) (w : PWord) : (p.setDir key w).mtime = p.mtime := rfl
theorem setDir_heldWay (p : Pkg) (key : Nat) (w : PWord) : (p.setDir key w).coh.heldWay = p.coh.heldWay := rfl
theorem setDir_dir (p : Pkg) (key : Nat) (w : PWord) : (p.setDir key w).coh.dir = p.coh.dir.put zeroWord key w := rfl

/-- A line without an entry that finds a free way is served by row 1 or 2: the entry, and a read of the line. -/
theorem homeServe_new (p : Pkg) (q : Req) (row : Nat) (hrow : row = 1 ∨ row = 2) (hreq : q.requester < 68)
    (hline : q.line < 2 ^ 40) (hnone : (p.dirFind q.line).way = none) (hfree : (p.freeWay q.line).isSome) :
    ((p.homeServe q ⟨none, 0, 0⟩ row).dirFind q.line).st = row + 1 ∧ ((p.homeServe q ⟨none, 0, 0⟩ row).dirFind q.line).sharers = 2 ^ q.requester ∧
      (p.homeServe q ⟨none, 0, 0⟩ row).memsys.queue = p.memsys.queue ++ [.read q.line fullMask q.tag] ∧
      (p.homeServe q ⟨none, 0, 0⟩ row).busyAt q.line = some ⟨q.line, q, row, 0, none, false, false, p.mtime⟩ := by
  obtain ⟨w, hw⟩ := Option.isSome_iff_exists.mp hfree
  have hnext : rowNext row ⟨none, 0, 0⟩ q.requester = (row + 1, 2 ^ q.requester) := by obtain rfl | rfl := hrow <;> rfl
  have hpow : 2 ^ q.requester ≠ 0 := Nat.pos_iff_ne_zero.mp (Nat.two_pow_pos _)
  have hserve : p.homeServe q ⟨none, 0, 0⟩ row = (p.setDir (dirKey (dirSet q.line) w) (dirWord q.line (row + 1) (2 ^ q.requester))).awaitLine q row := by
    rw [homeServe_unsnooped p q _ row hrow, hnext, setEntry_new hpow hnone hw, Pkg.awaitLine]
  have hfound := dirFind_new (p := p) (q := p.homeServe q ⟨none, 0, 0⟩ row) (st := row + 1) hline (by omega) (by omega)
      (Nat.pow_lt_pow_right (by decide) hreq) hnone hw (by rw [hserve, awaitLine_heldWay, setDir_heldWay]) (by rw [hserve, awaitLine_dir, setDir_dir])
  exact ⟨by rw [hfound], by rw [hfound], by rw [hserve, awaitLine_queue, setDir_memsys], by rw [hserve, awaitLine_busyAt, setDir_mtime]⟩

/-! ### Notices (R271, R272) -/

theorem setEntry_memsys (p : Pkg) (line st sharers : Nat) : (p.setEntry line st sharers).memsys = p.memsys := by
  unfold Pkg.setEntry
  dsimp only
  split <;> rfl

theorem setEntry_hitsImage (p : Pkg) (line st sharers : Nat) (l : Nat) (mask : List Bool) :
    (p.setEntry line st sharers).hitsImage l mask = p.hitsImage l mask := by
  unfold Pkg.setEntry
  dsimp only
  split <;> rfl

/-- A dirty write-back by the owner: its data is queued, and its eviction buffer is free. -/
theorem homeServe_wbDirty (p : Pkg) (q : Req) (e : DirEnt) (himage : p.hitsImage q.line fullMask = false) :
    (p.homeServe q e 17).memsys.queue = p.memsys.queue ++ [.write q.line fullMask q.data] ∧ (p.homeServe q e 17).evb q.requester q.line = none := by
  have hserve : p.homeServe q e 17 = ((p.setEntry q.line 0 0).freeEvb q.requester q.line).writeBack q.line q.data := rfl
  have hmemsys := setEntry_memsys p q.line 0 0
  have hhits := setEntry_hitsImage p q.line 0 0 q.line fullMask
  obtain ⟨hfree, hrun⟩ := freeEvb_spec (p.setEntry q.line 0 0) q.requester q.line
  have hhit : ((p.setEntry q.line 0 0).freeEvb q.requester q.line).hitsImage q.line fullMask = false := (hrun.hitsImage _ _).trans (hhits.trans himage)
  rw [hserve, Pkg.writeBack, hhit, if_neg Bool.false_ne_true]
  refine ⟨?_, hfree⟩
  rw [← hmemsys]
  exact congrArg (fun m : MemSys => m.queue ++ [MemOp.write q.line fullMask q.data]) hrun.memsys

/-- A notice that comes too late, or of no holder. -/
theorem homeServe_late (p : Pkg) (q : Req) (e : DirEnt) : p.homeServe q e 18 = p.freeEvb q.requester q.line ∧ p.homeServe q e 20 = p.freeEvb q.requester q.line :=
  ⟨rfl, rfl⟩

theorem lateNotice_leaves (p : Pkg) (q : Req) (e : DirEnt) : (p.homeServe q e 18).coh.dir = p.coh.dir ∧ (p.homeServe q e 18).memsys = p.memsys ∧
    (p.homeServe q e 20).coh.dir = p.coh.dir ∧ (p.homeServe q e 18).evb q.requester q.line = none := by
  obtain ⟨hrow18, hrow20⟩ := homeServe_late p q e
  obtain ⟨hfree, hrun⟩ := freeEvb_spec p q.requester q.line
  rw [hrow18, hrow20]
  exact ⟨hrun.dir, hrun.memsys, hrun.dir, hfree⟩

/-! ### Selection (R269) -/

/-- The pointer past a requester that the second step chose (R269). -/
def Pkg.passPointer (p : Pkg) (line : Nat) (q : Req) (step2 : Bool) : Pkg :=
  if step2 then p.setReg (O.arbiterPointer + dieOf (line * 64)) ((q.requester + 1) % 80) else p

/-- The requests that met in one cycle are counted. -/
def Pkg.countMeeting (p : Pkg) (line : Nat) (step2 : Bool) (n : Nat) : Pkg :=
  if step2 ∧ n ≥ 2 then p.bump (O.arbiterSameCycleConflicts + dieOf (line * 64)) 1 else p

theorem passPointer_spec (p : Pkg) (line : Nat) (q : Req) (step2 : Bool) : (p.passPointer line q step2).coh = p.coh ∧
    (p.passPointer line q step2).memsys = p.memsys ∧ (p.passPointer line q step2).mem = p.mem ∧
    (p.passPointer line q step2).reg (O.arbiterPointer + dieOf (line * 64)) =
      (if step2 then (q.requester + 1) % 80 else p.reg (O.arbiterPointer + dieOf (line * 64))) := by
  cases step2 with
  | true => exact ⟨rfl, rfl, rfl, reg_setReg_self p _ _⟩
  | false => exact ⟨rfl, rfl, rfl, rfl⟩

theorem countMeeting_spec (p : Pkg) (line : Nat) (step2 : Bool) (n : Nat) : (p.countMeeting line step2 n).coh = p.coh ∧
    (p.countMeeting line step2 n).memsys = p.memsys ∧ (p.countMeeting line step2 n).mem = p.mem ∧
    (p.countMeeting line step2 n).reg (O.arbiterPointer + dieOf (line * 64)) = p.reg (O.arbiterPointer + dieOf (line * 64)) := by
  unfold Pkg.countMeeting
  split
  · exact ⟨rfl, rfl, rfl, reg_setReg_other _ _ _ _ (by simp only [O.arbiterPointer, O.arbiterSameCycleConflicts]; omega)⟩
  · exact ⟨rfl, rfl, rfl, rfl⟩

/-- The request that the arbiter selects for a free line is served by its row. -/
theorem arbitrate_serves {s : State} {line n : Nat} {k : ReqKind} {v step2 : Bool} {q : Req} (hfree : s.pkg.busyAt line = none)
    (hsweep : s.pkg.coh.sweep = false) (hselect : s.pkg.select line = some (q, step2, n)) (hkind : q.kind = k) (hvictim : decide (q.tag = .victim) = v)
    (hclean : s.SetClean line)
    (hroom : allocates (dirRow (s.pkg.dirFind line) q) = false ∨ ((s.pkg.freeWay line).isSome ∧ s.pkg.recalling line = false)) :
    s.pkg.arbitrate line k v =
      (((s.pkg.unqueue q).passPointer line q step2).countMeeting line step2 n).homeServe q (s.pkg.dirFind line) (dirRow (s.pkg.dirFind line) q) := by
  have hbusy : ¬ ((s.pkg.busyAt line).isSome = true ∨ s.pkg.coh.sweep = true) := by rw [hfree, hsweep]; rintro (h | h) <;> cases h
  have hrecall : ¬ (allocates (dirRow (s.pkg.dirFind line) q) = true ∧ s.pkg.recalling line = true) := by
    rintro ⟨hrow, hrecall⟩
    obtain h | ⟨-, h⟩ := hroom
    · rw [h] at hrow; cases hrow
    · rw [h] at hrecall; cases hrecall
  have hfull : ¬ (allocates (dirRow (s.pkg.dirFind line) q) = true ∧ (s.pkg.freeWay line).isNone = true) := by
    rintro ⟨hrow, hnone⟩
    obtain h | ⟨h, -⟩ := hroom
    · rw [h] at hrow; cases hrow
    · rw [Option.isNone_iff_eq_none.mp hnone] at h; cases h
  unfold Pkg.arbitrate
  rw [if_neg hbusy, hselect]
  dsimp only
  rw [if_neg (by rw [hkind, hvictim]; rintro (h | h) <;> exact h rfl), dirCheck_clean hclean, if_neg hrecall, if_neg hfull]
  rfl

theorem homes_serve (s : State) (line : Nat) (c : Instr) (k : ReqKind) (v : Bool) (q : Req) (step2 : Bool) (n : Nat)
    (hcommand : c = .rdShared line ∧ k = .rdShared ∧ v = false ∨ c = .rdOwn line ∧ k = .rdOwn ∧ v = false ∨
      c = .upgrade line ∧ k = .upgrade ∧ v = false ∨ c = .wbDirty line ∧ k = .wbDirty ∧ v = false ∨
      c = .evClean line ∧ k = .evClean ∧ v = false ∨ c = .rdSnoop line ∧ k = .rdSnoop ∧ v = false ∨
      c = .wrInv line ∧ k = .wrInv ∧ v = false ∨ c = .directoryRecall line ∧ k = .wrInv ∧ v = true)
    (hruns : s.Runs .control) (hfree : s.pkg.busyAt line = none) (hsweep : s.pkg.coh.sweep = false)
    (hselect : s.pkg.select line = some (q, step2, n)) (hkind : q.kind = k) (hvictim : decide (q.tag = .victim) = v) (hclean : s.SetClean line)
    (hroom : allocates (dirRow (s.pkg.dirFind line) q) = false ∨ ((s.pkg.freeWay line).isSome ∧ s.pkg.recalling line = false)) :
    ∃ p, Does c s (Pkg.homeServe p q (s.pkg.dirFind line) (dirRow (s.pkg.dirFind line) q)) ∧
      p.coh = { s.pkg.coh with arb := s.pkg.coh.arb.erase q } ∧ p.memsys = s.pkg.memsys ∧ p.mem = s.pkg.mem ∧
      Pkg.reg p (O.arbiterPointer + dieOf (line * 64)) =
        (if step2 then (q.requester + 1) % 80 else s.pkg.reg (O.arbiterPointer + dieOf (line * 64))) := by
  have hexec : exec c s = s.on .control fun p => p.arbitrate line k v := by
    obtain ⟨rfl, rfl, rfl⟩ | ⟨rfl, rfl, rfl⟩ | ⟨rfl, rfl, rfl⟩ | ⟨rfl, rfl, rfl⟩ | ⟨rfl, rfl, rfl⟩ | ⟨rfl, rfl, rfl⟩ | ⟨rfl, rfl, rfl⟩ | ⟨rfl, rfl, rfl⟩ :=
      hcommand <;> rfl
  obtain ⟨hcoh, hmemsys, hmem, hptr⟩ := countMeeting_spec ((s.pkg.unqueue q).passPointer line q step2) line step2 n
  obtain ⟨hcoh', hmemsys', hmem', hptr'⟩ := passPointer_spec (s.pkg.unqueue q) line q step2
  refine ⟨((s.pkg.unqueue q).passPointer line q step2).countMeeting line step2 n, ?_, hcoh.trans hcoh', hmemsys.trans hmemsys', hmem.trans hmem', hptr.trans hptr'⟩
  rw [Does, hexec, on_runs s _ _ hruns, arbitrate_serves hfree hsweep hselect hkind hvictim hclean hroom]

/-- Settles O32. -/
theorem homesServe : Obligations.HomesServe := by
  refine ⟨homes_serve, fun p q hreq hline hnone hfree => ?_, homeServe_wbDirty, lateNotice_leaves⟩
  obtain ⟨hstate, hsharers, hqueue, hbusy⟩ := homeServe_new p q 1 (.inl rfl) hreq hline hnone hfree
  obtain ⟨hstate2, hsharers2, -, -⟩ := homeServe_new p q 2 (.inr rfl) hreq hline hnone hfree
  exact ⟨hstate, hsharers, hstate2, hsharers2, hqueue, hbusy⟩

end Sys2Proof.Machine

namespace Sys2Proof.Machine

/-! ## Snoops and the events of a home (R272 to R278) -/

/-! ### What a core's line and a reply leave -/

theorem l2_setL2_some (p : Pkg) (c line : Nat) (x : L2Line) : (p.setL2 c line (some x)).l2 c line = some x := filter_remembers p.coh.l2 _ x

theorem l2_setL2_none (p : Pkg) (c line : Nat) : (p.setL2 c line none).l2 c line = none := SMap.find_del_self _ _

/-- A line without an error is left as it is. -/
theorem l2Check_clean {p : Pkg} {c line : Nat} {x : L2Line} (hx : p.l2 c line = some x) (h : ∀ w < 4, checkWord (x.data.getD w zeroWord) = .clean) :
    p.l2Check c line = p := by
  refine List.foldlRecOn (motive := fun q => q = p) _ _ rfl fun q hq w hw => ?_
  subst hq
  rw [hx]
  dsimp only
  rw [h w (List.mem_range.mp hw)]

/-- What a core leaves of its line when it answers a snoop. -/
def L2Line.snooped (x : L2Line) (k : SnoopKind) : Option L2Line := if k = .fwdS then some { x with st := .s } else if k = .snpRd then some x else none

/-- A core that holds a line without an error answers: its line, the data that it gives, and what it leaves. -/
theorem snoopCore_clean {p : Pkg} {c line : Nat} {x : L2Line} (k : SnoopKind) (hx : p.l2 c line = some x)
    (h : ∀ w < 4, checkWord (x.data.getD w zeroWord) = .clean) :
    (snoopCore p c line k).1.l2 c line = x.snooped k ∧
    (snoopCore p c line k).2 = (if k = .inv ∨ (k = .invD ∧ x.st ≠ .m) then none else some x.data, decide (k ≠ .inv ∧ x.st = .m)) ∧
    (snoopCore p c line k).1.coh.snoops = p.coh.snoops ∧ (snoopCore p c line k).1.coh.dir = p.coh.dir ∧ (snoopCore p c line k).1.mem = p.mem ∧
    (snoopCore p c line k).1.dict = p.dict ∧ (snoopCore p c line k).1.tiles = p.tiles := by
  have hcheck : (if k = .inv then p else p.l2Check c line) = p := by rw [l2Check_clean hx h, ite_self]
  unfold snoopCore
  rw [hcheck]
  dsimp only
  rw [hx]
  cases k with
  | fwdS => exact ⟨l2_setL2_some _ _ _ _, by simp, rfl, rfl, rfl, rfl, rfl⟩
  | fwdM => exact ⟨l2_setL2_none _ _ _, by simp, rfl, rfl, rfl, rfl, rfl⟩
  | inv => exact ⟨l2_setL2_none _ _ _, by simp, rfl, rfl, rfl, rfl, rfl⟩
  | invD => exact ⟨l2_setL2_none _ _ _, by by_cases hm : x.st = .m <;> simp [hm], rfl, rfl, rfl, rfl, rfl⟩
  | snpRd => exact ⟨hx, by simp, rfl, rfl, rfl, rfl, rfl⟩

/-- What a reply to a requester changes. -/
theorem deliver_changes (p : Pkg) (tag : Tag) (line : Nat) (data : Option (List (Option W128))) :
    ∃ coh flits, p.deliver tag line data = { p with coh := coh, flits := flits } := by
  have hmark (q : Pkg) (hq : ∃ coh flits, q = { p with coh := coh, flits := flits }) (t : Tag) :
      ∃ coh flits, q.markFilled t line = { p with coh := coh, flits := flits } := by
    obtain ⟨coh, flits, rfl⟩ := hq
    unfold Pkg.markFilled
    split
    · split <;> exact ⟨_, _, rfl⟩
    · exact ⟨_, _, rfl⟩
  have hreply (t : Tag) (d : List (Option W128)) : ∃ coh flits, p.tileReply t line d = { p with coh := coh, flits := flits } := by
    cases t with
    | xget t off win id =>
      unfold Pkg.tileReply
      dsimp only
      split
      · exact ⟨_, _, rfl⟩
      · split <;> exact ⟨_, _, rfl⟩
    | xput t win id =>
      unfold Pkg.tileReply
      dsimp only
      split
      · exact ⟨_, _, rfl⟩
      · split <;> exact ⟨_, _, rfl⟩
    | _ => exact ⟨_, _, rfl⟩
  cases tag with
  | core c => exact ⟨_, _, rfl⟩
  | _ => exact hmark _ (hreply _ _) _

/-! ### The cores' answers (R272) -/

theorem core_answers (s : State) (c : CoreNo) (line i : Nat) (x : L2Line) (sn : Snoop) (k : SnoopKind) (cmd : Instr)
    (hcommand : cmd = .fwdS c line ∧ k = .fwdS ∨ cmd = .fwdM c line ∧ k = .fwdM ∨ cmd = .inv c line ∧ k = .inv ∨
      cmd = .invD c line ∧ k = .invD ∨ cmd = .snpRd c line ∧ k = .snpRd)
    (hruns : s.Runs .control) (hline : s.pkg.l2 c.val line = some x) (hclean : ∀ w < 4, checkWord (x.data.getD w zeroWord) = .clean)
    (hindex : s.pkg.coh.snoops.findIdx? (fun y => y.open c.val line && decide (y.kind = k)) = some i) (hsnoop : s.pkg.coh.snoops[i]? = some sn) :
    ∃ t, exec cmd s = .next t ∧ t.pkg.l2 c.val line = (if k = .fwdS then some { x with st := .s } else if k = .snpRd then some x else none) ∧
      t.pkg.coh.snoops[i]? = some { sn with
        answered := true
        answer := if k = .inv ∨ (k = .invD ∧ x.st ≠ .m) then none else some x.data
        dirty := decide (k ≠ .inv ∧ x.st = .m) } ∧
      t.pkg.coh.dir = s.pkg.coh.dir ∧ SameMemory s t ∧ SameRegs s t ∧ t.pkg.tiles = s.pkg.tiles := by
  have hexec : exec cmd s = s.on .control fun p => p.coreAnswer c.val line k := by
    obtain ⟨rfl, rfl⟩ | ⟨rfl, rfl⟩ | ⟨rfl, rfl⟩ | ⟨rfl, rfl⟩ | ⟨rfl, rfl⟩ := hcommand <;> rfl
  obtain ⟨hl2, hanswer, hsnoops, hdir, hmem, hdict, htiles⟩ := snoopCore_clean k hline hclean
  rw [hexec, on_runs s _ _ hruns, Pkg.coreAnswer, hindex]
  dsimp only
  rw [hsnoop]
  dsimp only
  rw [hanswer, hsnoops, setAt_eq_set]
  refine ⟨_, rfl, hl2, ?_, hdir, fun b => congrArg (SMap.at 0 b) hmem, reg_of_dict hdict, htiles⟩
  exact List.getElem?_set_self (List.getElem?_eq_some_iff.mp hsnoop).1

/-! ### Requests, answers and acknowledgements at a home (R267, R268, R274) -/

theorem request_arrives (s : State) (cyc k : Nat) (q : Req) (hruns : s.Runs .control) (hnet : s.pkg.coh.net[k]? = some q) (hkind : q.kind ≠ .wrInv)
    (hreq : q.requester < 68) (hclean : s.SetClean q.line)
    (hroom : (s.pkg.coh.arb.filter fun x => decide (dieOf (x.line * 64) = dieOf (q.line * 64))).length < 512) :
    ∃ t, exec (.coherentRequestArrival [k] cyc) s = .next t ∧ t.pkg.coh.net = s.pkg.coh.net.erase q ∧
      t.pkg.coh.arb = s.pkg.coh.arb ++ [{ q with arrival := cyc }] ∧ t.pkg.coh.dir = s.pkg.coh.dir ∧ SameMemory s t ∧ SameRegs s t := by
  have hexec : exec (.coherentRequestArrival [k] cyc) s = execCoherentRequestArrival [k] cyc s := rfl
  have hplaces : (List.eraseDups [k]).filterMap (fun i => s.pkg.coh.net[i]?) = [q] := by
    simp [List.eraseDups_cons, hnet]
  have hcheck : ({ s.pkg with coh := { s.pkg.coh with net := s.pkg.coh.net.erase q } } : Pkg).dirCheck (dirSet q.line) =
      { s.pkg with coh := { s.pkg.coh with net := s.pkg.coh.net.erase q } } :=
    dirCheck_clean (s := s.settle { s.pkg with coh := { s.pkg.coh with net := s.pkg.coh.net.erase q } }) hclean
  rw [hexec, execCoherentRequestArrival, on_runs s _ _ hruns, Pkg.arriveAll, hplaces, List.mergeSort_singleton, List.foldl_cons, List.foldl_nil, Pkg.arrive]
  dsimp only
  rw [if_neg fun h => hkind h.1, if_neg fun h => hkind h.1, hcheck, if_neg (fun h => by have := h.1; omega), if_neg (Nat.not_le.mpr hroom)]
  exact ⟨_, rfl, rfl, rfl, rfl, fun _ => rfl, fun _ => rfl⟩

theorem busyAt_line {p : Pkg} {line : Nat} {b : Busy} (h : p.busyAt line = some b) : b.line = line := 
  of_decide_eq_true (List.find?_some (p := fun x : Busy => decide (x.line = line)) h)

theorem answer_counts (s : State) (c : CoreNo) (line i : Nat) (sn : Snoop) (hruns : s.Runs .control)
    (hindex : s.pkg.coh.snoops.findIdx? (fun y => decide (y.core = c.val ∧ y.line = line) && y.answered) = some i)
    (hsnoop : s.pkg.coh.snoops[i]? = some sn) :
    (s.pkg.busyAt line = none →
      ∃ t, exec (.snoopAnswer c line) s = .next t ∧ t.pkg.coh.snoops = dropAt s.pkg.coh.snoops i ∧ RaisedLast t 0x4206 ∧ SameMemory s t ∧
        SameRegs s t) ∧
    ∀ b, s.pkg.busyAt line = some b → sn.stale = false → 2 ≤ b.waiting →
      ∃ t, exec (.snoopAnswer c line) s = .next t ∧ t.pkg.coh.snoops = dropAt s.pkg.coh.snoops i ∧
        (t.pkg.busyAt line).map (·.waiting) = some (b.waiting - 1) ∧ t.pkg.memsys = s.pkg.memsys ∧ SameMemory s t ∧ SameRegs s t := by
  have hexec : exec (.snoopAnswer c line) s = execSnoopAnswer c line s := rfl
  have hbusy : ({ s.pkg with coh := { s.pkg.coh with snoops := dropAt s.pkg.coh.snoops i } } : Pkg).busyAt line = s.pkg.busyAt line := rfl
  rw [hexec, execSnoopAnswer, on_runs s _ _ hruns, Pkg.homeAnswer, hindex]
  dsimp only
  rw [hsnoop]
  dsimp only
  rw [hbusy]
  refine ⟨fun hfree => ?_, fun b hb hstale hwaiting => ?_⟩
  · rw [hfree]
    exact ⟨_, rfl, rfl, raised_last _ _ _ _, fun _ => rfl, fun _ => rfl⟩
  · rw [hb]
    dsimp only
    rw [if_neg (by rw [hstale]; rintro (h | h) <;> [cases h; omega]), if_neg (by omega)]
    refine ⟨_, rfl, rfl, ?_, rfl, fun _ => rfl, fun _ => rfl⟩
    rw [settle_pkg, ← busyAt_line hb]
    exact congrArg (Option.map (·.waiting)) (busyAt_setBusy _ _)

theorem ack_frees (s : State) (r : Fin 80) (line : Nat) (b : Busy) (hruns : s.Runs .control) (hbusy : s.pkg.busyAt line = some b)
    (hreq : b.req.requester = r.val) (hfilled : b.filled = true) :
    ∃ t, exec (.completionAck r line) s = .next t ∧ t.pkg.busyAt line = none ∧ t.pkg.coh.dir = s.pkg.coh.dir ∧ SameMemory s t ∧
      SameRegs s t := by
  have hexec : exec (.completionAck r line) s = execCompletionAck r line s := rfl
  rw [hexec, execCompletionAck, on_runs s _ _ hruns, Pkg.ackLine, hbusy]
  dsimp only
  rw [if_pos ⟨hreq, hfilled⟩]
  refine ⟨_, rfl, ?_, rfl, fun _ => rfl, fun _ => rfl⟩
  exact List.find?_eq_none.mpr fun x hx hline => of_decide_eq_true (List.mem_filter.mp hx).2 (of_decide_eq_true hline)

/-! ### A home gives up (R277) -/

theorem setEntry_mem (p : Pkg) (line st sharers : Nat) : (p.setEntry line st sharers).mem = p.mem ∧ (p.setEntry line st sharers).dict = p.dict := by
  unfold Pkg.setEntry
  dsimp only
  split <;> exact ⟨rfl, rfl⟩

/-- What the home's last reply leaves, whoever it goes to. -/
theorem giveUp_reply (p : Pkg) (b : Busy) (line : Nat) (w : List (Option W128)) :
    ∃ coh flits, (if b.req.tag = .victim then p.freeLine line else (p.setBusy { b with waiting := 0 }).deliver b.req.tag line (some w)) =
      { p with coh := coh, flits := flits } := by
  split
  · exact ⟨_, _, rfl⟩
  · obtain ⟨coh, flits, h⟩ := deliver_changes (p.setBusy { b with waiting := 0 }) b.req.tag line (some w)
    exact ⟨coh, flits, h⟩

theorem home_gives_up (s : State) (c : CoreNo) (line : Nat) (b : Busy) (hruns : s.Runs .control) (hbusy : s.pkg.busyAt line = some b)
    (hold : b.sent + 100 * s.pkg.reg O.homeTimeoutUs ≤ s.pkg.mtime) (hkind : b.req.kind ≠ .wrInv)
    (hsnoop : s.pkg.coh.snoops.any (fun x => decide (x.core = c.val ∧ x.line = line) && !x.stale) = true) :
    ∃ t, exec (.homeTimeout c line) s = .next t ∧ RaisedLast t 0x4201 ∧
      t.pkg.reg (O.homeTimeouts + c.val) = min (s.pkg.reg (O.homeTimeouts + c.val) + 1) (2 ^ 32 - 1) ∧
      t.pkg.memsys.queue = s.pkg.memsys.queue ++ [.write line fullMask (poisonLine.map packWord)] ∧ SameMemory s t := by
  have hexec : exec (.homeTimeout c line) s = execHomeTimeout c line s := rfl
  rw [hexec, execHomeTimeout, on_runs s _ _ hruns, hbusy]
  dsimp only
  rw [if_neg (by rw [hsnoop]; rintro (h | h) <;> [cases h; omega]), if_neg (c := b.req.kind = .wrInv ∧ b.req.tag ≠ .victim) fun h => hkind h.1]
  generalize hq : (({ s.pkg with coh := { s.pkg.coh with snoops := s.pkg.coh.snoops.map fun (x : Snoop) => if x.line = line then { x with stale := true } else x } } : Pkg).enqueue
    (.write line fullMask (poisonLine.map packWord))) = q
  have hqueue : q.memsys.queue = s.pkg.memsys.queue ++ [.write line fullMask (poisonLine.map packWord)] := by rw [← hq]; rfl
  have hqmem : q.mem = s.pkg.mem := by rw [← hq]; rfl
  have hqdict : q.dict = s.pkg.dict := by rw [← hq]; rfl
  clear hq
  obtain ⟨hmem, hdict⟩ := setEntry_mem q line 0 0
  have hmemsys := setEntry_memsys q line 0 0
  generalize q.setEntry line 0 0 = a at *
  obtain ⟨coh, flits, hreply⟩ := giveUp_reply a b line poisonLine
  rw [hreply]
  refine ⟨_, rfl, raised_last _ _ _ _, ?_, (congrArg MemSys.queue hmemsys).trans hqueue, fun x => congrArg (SMap.at 0 x) (hmem.trans hqmem)⟩
  rw [settle_pkg, reg_raise, Pkg.bump, reg_setReg_self, satAdd, reg_of_dict (p := s.pkg) (q := { a with coh := coh, flits := flits }) (hdict.trans hqdict)]

/-- Settles O33. -/
theorem snoopsAndHomeEvents : Obligations.SnoopsAndHomeEvents :=
  ⟨core_answers, request_arrives, answer_counts, ack_frees, home_gives_up⟩

end Sys2Proof.Machine

namespace Sys2Proof.Machine

/-! ## A server core's accesses (R260 to R262, R272, R276) -/

/-- An access within a line meets that line only. -/
theorem lines_one {a n : Nat} (hn : n ≠ 0) (h : a % 64 + n ≤ 64) : (List.range (ceilDiv (a % 64 + n) 64)).map (fun i => a / 64 + i) = [a / 64] := by
  have hone : ceilDiv (a % 64 + n) 64 = 1 := by simp only [ceilDiv]; omega
  rw [hone]
  rfl

theorem getD_clean {l : List PWord} (h : ∀ w ∈ l, checkWord w = .clean) (w : Nat) (hw : w < l.length) : checkWord (l.getD w zeroWord) = .clean := by
  rw [List.getD_eq_getElem _ _ hw]
  exact h _ (List.getElem_mem hw)

theorem readWord_of_clean {w : PWord} (h : checkWord w = .clean) : readWord w = some w.data := by
  rw [readWord, h]

/-! ### Loads -/

/-- Word w of the package's address space as core c holds it. -/
def Pkg.coreWord (p : Pkg) (c w : Nat) : Option W128 :=
  match p.l2 c (w / 4) with
  | some x => x.words.getD (w % 4) none
  | none => none

section
variable {p : Pkg} {c a len : Nat} {lr : Bool} (hwithin : a % 64 + len ≤ 64)
include hwithin

/-- The words that a load within a line it holds reads. -/
theorem loadWords_eq {x : L2Line} (hx : p.l2 c (a / 64) = some x) : (List.range (ceilDiv (a % 16 + len) 16)).map (fun i => p.coreWord c (a / 16 + i)) =
    (List.range (ceilDiv (a % 16 + len) 16)).map fun i => x.words.getD (a % 64 / 16 + i) none := by
  refine List.map_congr_left fun i hi => ?_
  have hi := List.mem_range.mp hi
  simp only [ceilDiv] at hi
  have hline : (a / 16 + i) / 4 = a / 64 := by omega
  have hword : (a / 16 + i) % 4 = a % 64 / 16 + i := by omega
  rw [Pkg.coreWord, hline, hx, hword]

variable (hlen : len ≠ 0)
include hlen

/-- A load within a line that the core holds without an error completes. -/
theorem runLoad_hit {x : L2Line} (hx : p.l2 c (a / 64) = some x) (hfour : x.data.length = 4) (hclean : ∀ w ∈ x.data, checkWord w = .clean) :
    p.runLoad c a len lr = ({ p with coh := { p.coh with
      loads := p.coh.loads.del c
      reserved := if lr then (p.coh.reserved.del c).ins c (a / 64) else p.coh.reserved } }).emit
        (.readData (((x.data.map readWord).drop (a % 64 / 16)).take (ceilDiv (a % 16 + len) 16))) := by
  have hcheck := l2Check_clean hx fun w hw => getD_clean hclean w (by omega)
  have hwords : (List.range (ceilDiv (a % 16 + len) 16)).map (fun i => x.words.getD (a % 64 / 16 + i) none) =
      ((x.data.map readWord).drop (a % 64 / 16)).take (ceilDiv (a % 16 + len) 16) := by
    refine List.ext_getElem (by simp [hfour, ceilDiv]; omega) fun i hi _ => ?_
    simp only [List.length_map, List.length_range, ceilDiv] at hi
    simp only [List.getElem_map, List.getElem_range, List.getElem_take, List.getElem_drop]
    rw [List.getD_eq_getElem _ _ (by simp [L2Line.words, hfour]; omega)]
    simp [L2Line.words]
  have hsome : (((x.data.map readWord).drop (a % 64 / 16)).take (ceilDiv (a % 16 + len) 16)).any (·.isNone) = false := by
    refine List.any_eq_false.mpr fun w hw => ?_
    obtain ⟨v, hv, rfl⟩ := List.mem_map.mp (List.mem_of_mem_drop (List.mem_of_mem_take hw))
    rw [readWord_of_clean (hclean v hv)]
    exact Bool.false_ne_true
  have hfind : [a / 64].find? (fun l => (p.l2 c l).isNone) = none := by simp [hx]
  unfold Pkg.runLoad
  dsimp only
  rw [lines_one hlen hwithin, hfind]
  dsimp only
  rw [List.foldl_cons, List.foldl_nil, hcheck]
  change (if ((List.range (ceilDiv (a % 16 + len) 16)).map fun i => p.coreWord c (a / 16 + i)).any (·.isNone) = true then _ else
    Pkg.emit _ (.readData ((List.range (ceilDiv (a % 16 + len) 16)).map fun i => p.coreWord c (a / 16 + i)))) = _
  rw [loadWords_eq hwithin hx, hwords, hsome, if_neg Bool.false_ne_true]

/-- A load within a line that the core lacks, and has not asked for, asks for it. -/
theorem runLoad_miss (hx : p.l2 c (a / 64) = none) (hasked : p.asked c (a / 64) = false) :
    p.runLoad c a len lr = ({ p with coh := { p.coh with loads := p.coh.loads.put (0, 0, false) c (a, len, lr) } }).request
      ⟨c, .rdShared, a / 64, fullMask, [], .core c, false, 0⟩ := by
  have hfind : [a / 64].find? (fun l => (p.l2 c l).isNone) = some (a / 64) := by simp [hx]
  have hasked' : ({ p with coh := { p.coh with loads := p.coh.loads.put (0, 0, false) c (a, len, lr) } } : Pkg).asked c (a / 64) = false := hasked
  unfold Pkg.runLoad
  dsimp only
  rw [lines_one hlen hwithin, hfind]
  dsimp only
  rw [Pkg.askLine, hasked', if_neg Bool.false_ne_true]

end

/-! ### Stores -/

section
variable {p : Pkg} {c a : Nat} {l : List Byte} {x : L2Line} (hl : l ≠ []) (hwithin : a % 64 + l.length ≤ 64)

/-- The bytes of a store within a line that the core owns without an error. -/
theorem storePiece_clean (hx : p.l2 c (a / 64) = some x) (hclean : ∀ w < 4, checkWord (x.data.getD w zeroWord) = .clean) (l : List Byte) :
    p.storePiece c (a / 64) a l = p.setL2 c (a / 64) (some ⟨.m, (lineStore x.words (a / 64) a l).map packWord⟩) := by
  rw [Pkg.storePiece, l2Check_clean hx hclean, hx]

include hl

theorem runStore_owned (hx : p.l2 c (a / 64) = some x) (hst : x.st ≠ .s) (kind : CoreStoreKind) (n : Nat) :
    Pkg.runStore (n + 1) c a l kind p = if kind = .plain then
      Pkg.runStore n c (a + pieceLen a l.length) (l.drop (pieceLen a l.length)) kind (p.storePiece c (a / 64) a (l.take (pieceLen a l.length)))
    else p.runAmo c a l kind := by
  obtain ⟨st, data⟩ := x
  unfold Pkg.runStore
  rw [if_neg (by simpa using hl)]
  dsimp only
  rw [hx]
  cases st with
  | s => exact absurd rfl hst
  | e => cases n <;> rfl
  | m => cases n <;> rfl

/-- A store to a line that the core owns without an error is done at once. -/
theorem runStore_hit (hwithin : a % 64 + l.length ≤ 64) (hx : p.l2 c (a / 64) = some x) (hst : x.st ≠ .s)
    (hclean : ∀ w < 4, checkWord (x.data.getD w zeroWord) = .clean) :
    Pkg.runStore (l.length + 1) c a l .plain p = (p.setL2 c (a / 64) (some ⟨.m, (lineStore x.words (a / 64) a l).map packWord⟩)).endStore c := by
  have hpiece : pieceLen a l.length = l.length := by simp only [pieceLen]; omega
  obtain ⟨n, hn⟩ : ∃ n, l.length = n + 1 := Nat.exists_eq_succ_of_ne_zero (mt List.length_eq_zero_iff.mp hl)
  rw [runStore_owned hl hx hst, if_pos rfl, hpiece, List.take_length, List.drop_length, storePiece_clean hx hclean, hn]
  rfl

/-- An atomic access to a word that the core owns without an error, and that is not poison. -/
theorem runStore_amo (hx : p.l2 c (a / 64) = some x) (hst : x.st ≠ .s) (hclean : ∀ w < 4, checkWord (x.data.getD w zeroWord) = .clean)
    {kind : CoreStoreKind} (hplain : kind ≠ .plain) (hsc : kind ≠ .sc) (hform : atomicOk a l.length = true) {b : List Byte}
    (hword : wordsBytes [x.words.getD (a % 64 / 16) none] = some b) :
    Pkg.runStore (l.length + 1) c a l kind p = ((p.setL2 c (a / 64) (some ⟨.m, (lineStore x.words (a / 64) a (toLe l.length
      (amoValue kind l.length (leNat ((b.drop (a % 16)).take l.length)) (leNat l)))).map packWord⟩)).endStore c).emit
        (.value (leNat ((b.drop (a % 16)).take l.length))) := by
  have hwords (w : Nat → Option W128) (hw : w (a % 64 / 16) = x.words.getD (a % 64 / 16) none) :
      (List.range (ceilDiv (a % 16 + l.length) 16)).map (fun i => ((List.range 4).map w).getD (a % 64 / 16 + i) none) =
        [x.words.getD (a % 64 / 16) none] := by
    have hone : ceilDiv (a % 16 + l.length) 16 = 1 := by
      have hform := of_decide_eq_true hform
      simp only [ceilDiv]
      omega
    rw [hone, List.range_one, List.map_singleton, Nat.add_zero, List.getD_eq_getElem _ _ (by simp; omega), List.getElem_map, List.getElem_range, hw]
  rw [runStore_owned hl hx hst, if_neg hplain]
  unfold Pkg.runAmo
  dsimp only
  rw [l2Check_clean hx hclean]
  cases kind with
  | plain => exact absurd rfl hplain
  | sc => exact absurd rfl hsc
  | _ =>
    dsimp only
    rw [hwords _ (by rw [hx]), hword]
    dsimp only
    rw [storePiece_clean hx hclean]

/-- A store to a line that the core shares, or lacks, and has not asked for. -/
theorem runStore_asks (hx : (p.l2 c (a / 64)).map (·.st) = some .s ∨ p.l2 c (a / 64) = none) (hasked : p.asked c (a / 64) = false) (n : Nat) :
    Pkg.runStore (n + 1) c a l .plain p =
      ({ p with coh := { p.coh with stores := p.coh.stores.put ⟨0, [], .plain⟩ c ⟨a, l, .plain⟩ } }).request
        ⟨c, if (p.l2 c (a / 64)).isSome then .upgrade else .rdOwn, a / 64, fullMask, [], .core c, false, 0⟩ := by
  have hasked' : ({ p with coh := { p.coh with stores := p.coh.stores.put ⟨0, [], .plain⟩ c ⟨a, l, .plain⟩ } } : Pkg).asked c (a / 64) = false := hasked
  unfold Pkg.runStore
  rw [if_neg (by simpa using hl)]
  dsimp only
  obtain hshared | hnone := hx
  · obtain ⟨⟨st, data⟩, hline, hst⟩ := Option.map_eq_some_iff.mp hshared
    dsimp only at hst
    subst hst
    rw [hline]
    dsimp only
    rw [Pkg.askLine, hasked', if_neg Bool.false_ne_true]
    rfl
  · rw [hnone]
    dsimp only
    rw [Pkg.askLine, hasked', if_neg Bool.false_ne_true]
    rfl

end

/-! ### Accesses accepted (R234, R260) -/

theorem tileSram_window {a : Nat} (h : regionOf a = .tileSram) : tileBase ≤ a ∧ a < tileBase + 192 * tileSize := by
  unfold regionOf at h
  split_ifs at h with _ _ _ hlo hhi
  exact ⟨Nat.le_of_not_lt hlo, hhi⟩

section
variable {s : State} {c : CoreNo} {a : Nat} (hruns : s.Runs .control) (hon : s.pkg.coreOn c.val = true) (hfence : s.pkg.coh.fencing.at false c.val = false)
include hruns hon hfence

/-- A load of a core that is online and waits at no fence, with no access outstanding. -/
theorem coreLoad_accepted {len : Nat} {lr : Bool} (hlen : len ≠ 0) (hloads : s.pkg.coh.loads.find c.val = none) (hstores : s.pkg.coh.stores.find c.val = none) :
    (accessIn a len = .hbm → s.pkg.evicting c.val a len = false → (lr = true → atomicOk a len = true) →
      exec (.coreLoad c a ⟨len, lr⟩) s = .next (s.settle (s.pkg.runLoad c.val a len lr))) ∧
    (accessIn a len = .reserved → exec (.coreLoad c a ⟨len, lr⟩) s = .next (s.settle (s.pkg.trapCore c.val .accessFault))) := by
  have hexec : exec (.coreLoad c a ⟨len, lr⟩) s = .next (s.settle (s.pkg.coreLoad c.val a len lr)) :=
    on_runs s .control (fun p => p.coreLoad c.val a len lr) hruns
  have hoverlaps : s.pkg.overlaps c.val a len = false := by rw [Pkg.overlaps, hstores]
  have hfree : ¬ ((!s.pkg.coreOn c.val) = true ∨ len = 0 ∨ s.pkg.coh.fencing.at false c.val = true ∨ (s.pkg.coh.loads.find c.val).isSome = true ∨
      s.pkg.overlaps c.val a len = true) := by
    rw [hon, hfence, hloads, hoverlaps]
    rintro (h | h | h | h | h) <;> [cases h; exact hlen h; cases h; cases h; cases h]
  rw [hexec, Pkg.coreLoad]
  dsimp only
  rw [if_neg hfree]
  refine ⟨fun hin hevicting hform => ?_, fun hin => ?_⟩
  · have hatomic : (lr && !atomicOk a len) = false := by
      cases lr with
      | true => rw [hform rfl]; rfl
      | false => rfl
    rw [hin]
    dsimp only
    rw [hevicting, if_neg Bool.false_ne_true, hatomic, if_neg Bool.false_ne_true]
  · rw [hin]

/-- A store of a core that is online and waits at no fence, with no store outstanding. -/
theorem coreStore_accepted {l : List Byte} {kind : CoreStoreKind} (hl : l ≠ []) (hstores : s.pkg.coh.stores.find c.val = none) :
    (accessIn a l.length = .hbm → s.pkg.evicting c.val a l.length = false → (kind ≠ .plain → atomicOk a l.length = true) →
      exec (.coreStore c a ⟨l, kind⟩) s = .next (s.settle (if kind = .sc ∧ s.pkg.coh.reserved.find c.val ≠ some (a / 64) then s.pkg.emit (.value 1)
        else Pkg.runStore (l.length + 1) c.val a l kind s.pkg))) ∧
    (accessIn a l.length = .tileSram → kind = .plain → exec (.coreStore c a ⟨l, kind⟩) s = .next (s.settle (s.pkg.anyWriteBytes a l))) := by
  have hexec : exec (.coreStore c a ⟨l, kind⟩) s = .next (s.settle (s.pkg.coreStore c.val a l kind)) :=
    on_runs s .control (fun p => p.coreStore c.val a l kind) hruns
  have hfree : ¬ ((!s.pkg.coreOn c.val) = true ∨ l.isEmpty = true ∨ s.pkg.coh.fencing.at false c.val = true ∨ (s.pkg.coh.stores.find c.val).isSome = true) := by
    rw [hon, hfence, hstores]
    rintro (h | h | h | h) <;> [cases h; exact hl (List.isEmpty_iff.mp h); cases h; cases h]
  rw [hexec, Pkg.coreStore]
  rw [if_neg hfree]
  refine ⟨fun hin hevicting hform => ?_, fun hin hplain => ?_⟩
  · have hatomic : (decide (kind ≠ .plain) && !atomicOk a l.length) = false := by
      by_cases hk : kind = .plain
      · rw [hk]; rfl
      · rw [hform hk, Bool.not_true, Bool.and_false]
    rw [hin]
    dsimp only
    rw [hevicting, if_neg Bool.false_ne_true, hatomic, if_neg Bool.false_ne_true]
  · rw [hin, hplain]
    dsimp only
    rw [if_neg (not_not.mpr rfl), if_neg (by decide)]

theorem coreLoad_completes (len : Nat) (lr : Bool) (hlen : len ≠ 0) (hloads : s.pkg.coh.loads.find c.val = none) (hstores : s.pkg.coh.stores.find c.val = none)
    (hin : accessIn a len = .hbm) (hwithin : a % 64 + len ≤ 64) (hevicting : s.pkg.evicting c.val a len = false)
    (hform : lr = true → atomicOk a len = true) :
    (∀ x, s.pkg.l2 c.val (a / 64) = some x → x.data.length = 4 → (∀ w ∈ x.data, checkWord w = .clean) →
      ∃ t ws, exec (.coreLoad c a ⟨len, lr⟩) s = .next t ∧ t.pkg.out = s.pkg.out ++ [.readData ws] ∧
        ws = ((x.data.map readWord).drop (a % 64 / 16)).take (ceilDiv (a % 16 + len) 16) ∧ t.pkg.l2 c.val (a / 64) = some x ∧
        (lr = true → t.pkg.coh.reserved.find c.val = some (a / 64)) ∧ SameMemory s t ∧ SameRegs s t) ∧
    (s.pkg.l2 c.val (a / 64) = none → s.pkg.asked c.val (a / 64) = false →
      ∃ t, exec (.coreLoad c a ⟨len, lr⟩) s = .next t ∧
        t.pkg.coh.net = s.pkg.coh.net ++ [⟨c.val, .rdShared, a / 64, fullMask, [], .core c.val, false, 0⟩] ∧
        t.pkg.coh.loads.at (0, 0, false) c.val = (a, len, lr) ∧ SameMemory s t ∧ SameRegs s t) := by
  have hexec := (coreLoad_accepted hruns hon hfence hlen hloads hstores).1 hin hevicting hform
  rw [hexec]
  refine ⟨fun x hx hfour hclean => ?_, fun hx hasked => ?_⟩
  · rw [runLoad_hit hwithin hlen hx hfour hclean]
    refine ⟨_, _, rfl, rfl, rfl, hx, fun hlr => ?_, fun _ => rfl, fun _ => rfl⟩
    subst hlr
    exact filter_remembers s.pkg.coh.reserved c.val (a / 64)
  · rw [runLoad_miss hwithin hlen hx hasked]
    exact ⟨_, rfl, rfl, SMap.at_put_self (0, 0, false) c.val (a, len, lr) s.pkg.coh.loads, fun _ => rfl, fun _ => rfl⟩

theorem coreStore_completes (l : List Byte) (hl : l ≠ []) (hstores : s.pkg.coh.stores.find c.val = none) (hin : accessIn a l.length = .hbm)
    (hwithin : a % 64 + l.length ≤ 64) (hevicting : s.pkg.evicting c.val a l.length = false) :
    (∀ x, s.pkg.l2 c.val (a / 64) = some x → x.st ≠ .s → (∀ w < 4, checkWord (x.data.getD w zeroWord) = .clean) →
      (∃ t, exec (.coreStore c a ⟨l, .plain⟩) s = .next t ∧
        t.pkg.l2 c.val (a / 64) = some ⟨.m, (lineStore x.words (a / 64) a l).map packWord⟩ ∧ t.pkg.coh.net = s.pkg.coh.net ∧
        SameMemory s t ∧ SameRegs s t) ∧
      ∀ kind b, kind ≠ .plain → kind ≠ .sc → atomicOk a l.length = true →
        wordsBytes [x.words.getD (a % 64 / 16) none] = some b →
        ∃ t, exec (.coreStore c a ⟨l, kind⟩) s = .next t ∧
          t.pkg.out = s.pkg.out ++ [.value (leNat ((b.drop (a % 16)).take l.length))] ∧
          t.pkg.l2 c.val (a / 64) = some ⟨.m, (lineStore x.words (a / 64) a (toLe l.length
            (amoValue kind l.length (leNat ((b.drop (a % 16)).take l.length)) (leNat l)))).map packWord⟩ ∧
          SameMemory s t ∧ SameRegs s t) ∧
    (∀ x, s.pkg.l2 c.val (a / 64) = some x → x.st = .s → s.pkg.asked c.val (a / 64) = false →
      ∃ t, exec (.coreStore c a ⟨l, .plain⟩) s = .next t ∧
        t.pkg.coh.net = s.pkg.coh.net ++ [⟨c.val, .upgrade, a / 64, fullMask, [], .core c.val, false, 0⟩] ∧
        t.pkg.coh.stores.at ⟨0, [], .plain⟩ c.val = ⟨a, l, .plain⟩ ∧ SameMemory s t ∧ SameRegs s t) ∧
    (s.pkg.l2 c.val (a / 64) = none → s.pkg.asked c.val (a / 64) = false →
      ∃ t, exec (.coreStore c a ⟨l, .plain⟩) s = .next t ∧
        t.pkg.coh.net = s.pkg.coh.net ++ [⟨c.val, .rdOwn, a / 64, fullMask, [], .core c.val, false, 0⟩] ∧
        t.pkg.coh.stores.at ⟨0, [], .plain⟩ c.val = ⟨a, l, .plain⟩ ∧ SameMemory s t ∧ SameRegs s t) ∧
    (atomicOk a l.length = true → s.pkg.coh.reserved.find c.val ≠ some (a / 64) →
      Does (.coreStore c a ⟨l, .sc⟩) s (s.pkg.emit (.value 1))) := by
  have hplain := (coreStore_accepted (kind := .plain) hruns hon hfence hl hstores).1 hin hevicting fun h => absurd rfl h
  rw [if_neg (by rintro ⟨h, -⟩; cases h)] at hplain
  refine ⟨fun x hx hst hclean => ⟨?_, fun kind b hk hsc hform hb => ?_⟩, fun x hx hst hasked => ?_, fun hx hasked => ?_, fun hform hres => ?_⟩
  · rw [hplain, runStore_hit hl hwithin hx hst hclean]
    exact ⟨_, rfl, l2_setL2_some _ _ _ _, rfl, fun _ => rfl, fun _ => rfl⟩
  · have hexec := (coreStore_accepted (kind := kind) hruns hon hfence hl hstores).1 hin hevicting fun _ => hform
    rw [hexec, if_neg fun h => hsc h.1, runStore_amo hl hx hst hclean hk hsc hform hb]
    exact ⟨_, rfl, rfl, l2_setL2_some _ _ _ _, fun _ => rfl, fun _ => rfl⟩
  · rw [hplain, runStore_asks hl (.inl (by rw [hx, Option.map_some, hst])) hasked, hx]
    exact ⟨_, rfl, rfl, SMap.at_put_self (⟨0, [], .plain⟩ : PendStore) c.val ⟨a, l, .plain⟩ s.pkg.coh.stores, fun _ => rfl, fun _ => rfl⟩
  · rw [hplain, runStore_asks hl (.inr hx) hasked, hx]
    exact ⟨_, rfl, rfl, SMap.at_put_self (⟨0, [], .plain⟩ : PendStore) c.val ⟨a, l, .plain⟩ s.pkg.coh.stores, fun _ => rfl, fun _ => rfl⟩
  · rw [Does, (coreStore_accepted (kind := .sc) hruns hon hfence hl hstores).1 hin hevicting fun _ => hform, if_pos ⟨rfl, hres⟩]

theorem coreLoad_traps (len : Nat) (lr : Bool) (hlen : len ≠ 0) (hloads : s.pkg.coh.loads.find c.val = none) (hstores : s.pkg.coh.stores.find c.val = none)
    (hin : accessIn a len = .reserved) : ∃ t, exec (.coreLoad c a ⟨len, lr⟩) s = .next t ∧ t.pkg.coh.trap.find c.val = some .accessFault ∧
      t.pkg.out = s.pkg.out ∧ SameMemory s t ∧ SameRegs s t := by
  rw [(coreLoad_accepted hruns hon hfence hlen hloads hstores).2 hin]
  exact ⟨_, rfl, filter_remembers s.pkg.coh.trap c.val .accessFault, rfl, fun _ => rfl, fun _ => rfl⟩

theorem coreStore_tileSram (l : List Byte) (hl : l ≠ []) (hstores : s.pkg.coh.stores.find c.val = none) (hin : accessIn a l.length = .tileSram) :
    ∃ t, exec (.coreStore c a ⟨l, .plain⟩) s = .next t ∧
      SameMemoryBut (fun b => a / 16 * 16 ≤ b ∧ b < (a + l.length + 15) / 16 * 16) s t ∧ SameRegs s t := by
  have hends : regionOf a = .tileSram ∧ regionOf (a + l.length - 1) = .tileSram := by
    unfold accessIn at hin
    split at hin
    next h => exact ⟨hin, h.symm.trans hin⟩
    next => cases hin
  obtain ⟨hlo, -⟩ := tileSram_window hends.1
  obtain ⟨-, hhi⟩ := tileSram_window hends.2
  have hlength : l.length ≠ 0 := mt List.length_eq_zero_iff.mp hl
  have hwritten := anyWriteBytes_windows s.pkg a l hlo (by omega)
  rw [(coreStore_accepted (kind := .plain) hruns hon hfence hl hstores).2 hin rfl]
  refine ⟨_, rfl, fun b hb => hwritten.byte b ?_, reg_of_dict hwritten.dict⟩
  simp only [ceilDiv]
  omega

end

/-- Settles O34. -/
theorem coreAccesses : Obligations.CoreAccesses := fun _ _ _ hruns hon hfence =>
  ⟨coreLoad_completes hruns hon hfence, coreStore_completes hruns hon hfence, coreLoad_traps hruns hon hfence, coreStore_tileSram hruns hon hfence⟩

end Sys2Proof.Machine

namespace Sys2Proof.Machine

/-! ## Replacement, fills, fences and reclamation (R272, R276, R279 to R283, R419) -/

theorem coreReplacement_notices (s : State) (c : CoreNo) (line : Nat) (x : L2Line) (hruns : s.Runs .control) (hx : s.pkg.l2 c.val line = some x)
    (hclean : ∀ w < 4, checkWord (x.data.getD w zeroWord) = .clean) (hasked : s.pkg.asked c.val line = false) :
    ∃ t, exec (.coreReplacement c line) s = .next t ∧ t.pkg.l2 c.val line = none ∧ t.pkg.evb c.val line = some x ∧
      t.pkg.coh.net = s.pkg.coh.net ++ [⟨c.val, if x.st = .m then .wbDirty else .evClean, line, fullMask,
        if x.st = .m then x.data else [], .core c.val, false, 0⟩] ∧ SameMemory s t ∧ SameRegs s t := by
  have hexec : exec (.coreReplacement c line) s = execCoreReplacement c line s := rfl
  rw [hexec, execCoreReplacement, on_runs s _ _ hruns, hasked, if_neg Bool.false_ne_true, Pkg.replaceLine, l2Check_clean hx hclean]
  dsimp only
  rw [hx]
  refine ⟨_, rfl, l2_setL2_none _ _ _, filter_remembers s.pkg.coh.evb (l2Key c.val line) x, ?_, fun _ => rfl, fun _ => rfl⟩
  by_cases hdirty : x.st = .m <;> simp only [hdirty, if_true, if_false, decide_true, decide_false, Bool.false_eq_true] <;> rfl

theorem markFilled_changes (p : Pkg) (tag : Tag) (line : Nat) : ∃ busy, p.markFilled tag line = { p with coh := { p.coh with busy := busy } } := by
  unfold Pkg.markFilled
  split
  · split <;> exact ⟨_, rfl⟩
  · exact ⟨_, rfl⟩

/-- A core for which nothing waits does nothing more. -/
theorem resumeCore_idle {p : Pkg} {c : Nat} (line : Nat) (hstores : p.coh.stores.find c = none) (hloads : p.coh.loads.find c = none) :
    p.resumeCore c line = p := by
  rw [Pkg.resumeCore, hstores]
  dsimp only
  rw [hloads]

theorem coreFill_fills (s : State) (c : CoreNo) (line i : Nat) (f : Fill) (d : List PWord) (hruns : s.Runs .control)
    (hindex : s.pkg.coh.fills.findIdx? (fun f => decide (f.core = c.val ∧ f.line = line)) = some i) (hfill : s.pkg.coh.fills[i]? = some f)
    (hdata : f.data = some d) (hstores : s.pkg.coh.stores.find c.val = none) (hloads : s.pkg.coh.loads.find c.val = none)
    (hroom : ((s.pkg.l2Set c.val line).filter (fun x => decide (x ≠ line))).length < 16) :
    ∃ t, exec (.coreFill c line) s = .next t ∧ t.pkg.l2 c.val line = some ⟨f.st, d⟩ ∧ t.pkg.coh.fills = dropAt s.pkg.coh.fills i ∧
      SameMemory s t ∧ SameRegs s t := by
  have hexec : exec (.coreFill c line) s = execCoreFill c line s := rfl
  have hmake : ({ s.pkg with coh := { s.pkg.coh with fills := dropAt s.pkg.coh.fills i } } : Pkg).makeRoom c.val line =
      { s.pkg with coh := { s.pkg.coh with fills := dropAt s.pkg.coh.fills i } } := if_pos (.inl hroom)
  rw [hexec, execCoreFill, on_runs s _ _ hruns, Pkg.fillCore, hindex]
  dsimp only
  rw [hfill]
  dsimp only
  rw [hmake, hdata]
  dsimp only
  obtain ⟨busy, hmark⟩ := markFilled_changes (({ s.pkg with coh := { s.pkg.coh with fills := dropAt s.pkg.coh.fills i } } : Pkg).setL2 c.val line (some ⟨f.st, d⟩))
    (.core c.val) line
  rw [hmark]
  generalize hq : ({ ({ s.pkg with coh := { s.pkg.coh with fills := dropAt s.pkg.coh.fills i } } : Pkg).setL2 c.val line (some ⟨f.st, d⟩) with
    coh := { (({ s.pkg with coh := { s.pkg.coh with fills := dropAt s.pkg.coh.fills i } } : Pkg).setL2 c.val line (some ⟨f.st, d⟩)).coh with
      busy := busy } } : Pkg) = q
  have hstores' : q.coh.stores.find c.val = none := by rw [← hq]; exact hstores
  have hloads' : q.coh.loads.find c.val = none := by rw [← hq]; exact hloads
  rw [resumeCore_idle _ hstores' hloads', ← hq]
  exact ⟨_, rfl, l2_setL2_some _ _ _ _, rfl, fun _ => rfl, fun _ => rfl⟩

theorem fence_waits (s : State) (c : CoreNo) (hruns : s.Runs .control) : (s.pkg.coh.stores.find c.val = none → Does (.fence c) s s.pkg) ∧
    ((s.pkg.coh.stores.find c.val).isSome → ∃ t, exec (.fence c) s = .next t ∧ t.pkg.coh.fencing.at false c.val = true ∧ SameMemory s t ∧
      SameRegs s t) := by
  have hexec : exec (.fence c) s = execFence c s := rfl
  refine ⟨fun hnone => ?_, fun hsome => ?_⟩
  · rw [Does, hexec, execFence, on_runs s _ _ hruns, hnone, if_neg (by decide)]
  · rw [hexec, execFence, on_runs s _ _ hruns, if_pos hsome]
    exact ⟨_, rfl, SMap.at_put_self false c.val true s.pkg.coh.fencing, fun _ => rfl, fun _ => rfl⟩

/-! ### Reclamation (R279, R280) -/

/-- What recovery's reclamation of dead cores leaves. -/
theorem reclaimDead_leaves (p : Pkg) : p.reclaimDead.reg O.reclaimOwner = p.reg O.reclaimOwner ∧ p.reclaimDead.mem = p.mem ∧ p.reclaimDead.tiles = p.tiles := by
  unfold Pkg.reclaimDead
  extract_lets m q
  have hq : q.reg O.reclaimOwner = p.reg O.reclaimOwner ∧ q.mem = p.mem ∧ q.tiles = p.tiles := by
    refine ⟨?_, rfl, rfl⟩
    rw [reg_setReg_other _ _ _ _ (by decide), reg_setReg_other _ _ _ _ (by decide), reg_setReg_other _ _ _ _ (by decide)]
  clear_value q
  split
  · exact hq
  · split
    · exact ⟨(reg_setReg_other _ _ _ _ (by decide)).trans hq.1, hq.2⟩
    · exact hq

theorem reclaimOwner_takes (s : State) (w : Writer) (v : Nat) (hruns : s.Runs (writerPlane w)) (hv : v ≤ 3) (hfree : s.pkg.reg O.reclaimOwner = 0 ∨ v = 0) :
    ∃ t, exec (.reclaimOwnerWrite w v) s = .next t ∧ t.pkg.reg O.reclaimOwner = v ∧ SameMemory s t ∧ t.pkg.tiles = s.pkg.tiles ∧
      (w ≠ .unit → SameRegsBut (fun k => k = O.reclaimOwner) s t) := by
  have hexec : exec (.reclaimOwnerWrite w v) s = execReclaimOwnerWrite w v s := rfl
  rw [hexec, execReclaimOwnerWrite, on_runs s _ _ hruns, if_neg (Nat.not_lt.mpr hv)]
  dsimp only
  rw [ownerWrite_accepted s.pkg w _ v 0x4205 noUnit hfree]
  cases w with
  | path pt => exact ⟨_, rfl, reg_setReg_self _ _ _, fun _ => rfl, rfl, fun _ k hk => reg_setReg_other _ _ _ _ hk⟩
  | unit =>
    dsimp only
    split
    · obtain ⟨howner, hmem, htiles⟩ := reclaimDead_leaves (s.pkg.setReg O.reclaimOwner v)
      exact ⟨_, rfl, howner.trans (reg_setReg_self _ _ _), fun b => congrArg (SMap.at 0 b) hmem, htiles, fun h => absurd rfl h⟩
    · exact ⟨_, rfl, reg_setReg_self _ _ _, fun _ => rfl, rfl, fun h => absurd rfl h⟩

theorem reclaimStart_starts (s : State) (pt : Path) (hruns : s.Runs (pathPlane pt)) (howner : s.pkg.reg O.reclaimOwner = 3) (hagents : s.pkg.reclaimAgents ≠ 0)
    (himage : s.pkg.reg O.imageState ≠ 4) (hsweep : s.pkg.coh.sweep = false)
    (hout : ∀ c ∈ agents s.pkg.reclaimAgents, s.pkg.reg (O.coreState + c) = 1 ∨ s.pkg.reg (O.coreState + c) = 3) :
    ∃ t, exec (.reclaimStart pt 1) s = .next t ∧ t.pkg.coh.sweep = true ∧ t.pkg.reg O.reclaimState = 1 ∧ SameMemory s t ∧
      SameRegsBut (fun k => k = O.reclaimState) s t := by
  have hexec : exec (.reclaimStart pt 1) s = execReclaimStart pt 1 s := rfl
  have hmay : s.pkg.sweepMay = true := by
    have hnone : (agents s.pkg.reclaimAgents).any (fun c => decide (s.pkg.reg (O.coreState + c) ≠ 1 ∧ s.pkg.reg (O.coreState + c) ≠ 3)) = false := by
      refine List.any_eq_false.mpr fun c hc => ?_
      rw [decide_eq_true_eq]
      rintro ⟨h1, h3⟩
      exact (hout c hc).elim h1 h3
    rw [Pkg.sweepMay, hnone, hsweep, decide_eq_true himage]
    rfl
  rw [hexec, execReclaimStart, on_runs s _ _ hruns, if_neg (by decide), if_neg (not_not.mpr howner), if_neg hagents, hmay, if_neg (by decide)]
  exact ⟨_, rfl, rfl, reg_setReg_self _ _ _, fun _ => rfl, fun k hk => reg_setReg_other _ _ _ _ hk⟩

theorem sweep_ends (s : State) (hruns : s.Runs .control) (hsweep : s.pkg.coh.sweep = true) :
    ∃ t, exec .reclaimSweepComplete s = .next t ∧ t.pkg.coh.sweep = false ∧ t.pkg.reg O.reclaimState = 2 ∧ t.pkg.tiles = s.pkg.tiles := by
  have hexec : exec .reclaimSweepComplete s = execReclaimSweepComplete s := rfl
  have htiles := ((agentKept_closed s.pkg).endSweep (.refl s.pkg)).tiles
  have hends : s.pkg.endSweep.coh.sweep = false ∧ s.pkg.endSweep.reg O.reclaimState = 2 := by
    rw [Pkg.endSweep, hsweep, if_neg (by decide)]
    exact ⟨rfl, reg_setReg_self _ _ _⟩
  rw [hexec, execReclaimSweepComplete, on_runs s _ _ hruns]
  exact ⟨_, rfl, hends.1, hends.2, htiles⟩

/-! ### Cores taken offline and started (R281, R283, R419) -/

namespace AgentClosed

variable {R : Pkg → Prop} {q : Pkg} (hR : AgentClosed R)
include hR

theorem releaseLine (c line : Nat) (h : R q) : R (q.releaseLine c line) := by
  have hchecked := hR.l2Check c line (hR.dirCheck (dirSet line) (hR.finishLine 4 line h))
  unfold Pkg.releaseLine
  extract_lets checked
  split
  · exact hchecked
  · have hgone := hR.setL2 c line none hchecked
    extract_lets written
    have hwritten : R written := CoreClosed.ite (CoreClosed.ite (hR.raise _ _ _ hgone) (hR.writeLine _ _ _ (hR.drainLine _ hgone))) hgone
    exact CoreClosed.ite (hR.setEntry _ _ _ hwritten) hwritten

theorem quietCore (c : Nat) (h : R q) : R (q.quietCore c) := by
  unfold Pkg.quietCore
  exact hR.same (CoreClosed.foldl (fun _ _ hr => hR.finishLine _ _ hr) _ h) rfl

end AgentClosed

theorem spareWanted_leaves (p : Pkg) (c : Nat) : (p.spareWanted c).tiles = p.tiles ∧
    ∀ k, k ≠ O.substitutionsStarted → (p.spareWanted c).reg k = p.reg k := by
  unfold Pkg.spareWanted
  split
  · exact ⟨rfl, fun k hk => reg_setReg_other _ _ _ _ hk⟩
  · exact ⟨rfl, fun _ _ => rfl⟩

theorem core_goes_offline (s : State) (c : CoreNo) (hruns : s.Runs .control) (hon : s.pkg.coreOn c.val = true) :
    ∃ t, exec (.coreTakenOffline c) s = .next t ∧ t.pkg.reg (O.coreState + c.val) = 1 ∧ t.pkg.tiles = s.pkg.tiles := by
  have hexec : exec (.coreTakenOffline c) s = execCoreTakenOffline c s := rfl
  rw [hexec, execCoreTakenOffline, on_runs s _ _ hruns, hon, if_neg (by decide)]
  extract_lets _ stopped quiet lines
  have hclosed := agentKept_closed s.pkg
  have hstopped : AgentKept s.pkg stopped := hclosed.same (.refl s.pkg) rfl
  have hquiet : AgentKept s.pkg quiet := hclosed.quietCore c.val hstopped
  have hreleased : AgentKept s.pkg (lines.foldl (fun p l => p.releaseLine c.val l) quiet) :=
    CoreClosed.foldl (f := fun p l => p.releaseLine c.val l) (fun _ _ hr => hclosed.releaseLine c.val _ hr) lines hquiet
  obtain ⟨htiles, hreg⟩ := spareWanted_leaves ((lines.foldl (fun p l => p.releaseLine c.val l) quiet).setReg (O.coreState + c.val) 1) c.val
  refine ⟨_, rfl, ?_, htiles.trans hreleased.tiles⟩
  rw [settle_pkg, hreg _ (by simp only [O.coreState, O.substitutionsStarted]; omega), reg_setReg_self]

theorem core_starts (s : State) (c : CoreNo) (hruns : s.Runs .control) (hboot : s.pkg.boot.osStarted = true) (hheld : s.pkg.boot.coreHeld.at false c.val = true)
    (hstate : s.pkg.reg (O.coreState + c.val) = 1) :
    ∃ t, exec (.coreStarted c) s = .next t ∧ t.pkg.reg (O.coreState + c.val) = 0 ∧ t.pkg.boot.coreHeld.at false c.val = false ∧
      SameMemory s t ∧ SameRegsBut (fun k => k = O.coreState + c.val) s t := by
  have hexec : exec (.coreStarted c) s = execCoreStarted c s := rfl
  rw [hexec, execCoreStarted, on_runs s _ _ hruns, if_pos ⟨hboot, hheld, hstate⟩, Pkg.leaveRetention]
  split
  all_goals exact ⟨_, rfl, reg_setReg_self _ _ _, SMap.at_put_self false c.val false s.pkg.boot.coreHeld, fun _ => rfl, fun k hk => reg_setReg_other _ _ _ _ hk⟩

/-- Settles O35. -/
theorem coreAndReclaimCommands : Obligations.CoreAndReclaimCommands :=
  ⟨coreReplacement_notices, coreFill_fills, fence_waits, reclaimOwner_takes, reclaimStart_starts, sweep_ends, core_goes_offline, core_starts⟩

end Sys2Proof.Machine

namespace Sys2Proof.Machine

/-! ## Codewords and retry (R288 to R293) -/

/-! ### Sending -/

/-- What filling slots leaves of a port: the parts that no slot is filled from. -/
structure SlotsFilled (x y : PortSt) : Prop where
  replay : y.replay = x.replay
  spareAt : y.spareAt = x.spareAt

theorem SlotsFilled.refl (x : PortSt) : SlotsFilled x x := ⟨rfl, rfl⟩

theorem SlotsFilled.trans {x y z : PortSt} (hxy : SlotsFilled x y) (hyz : SlotsFilled y z) : SlotsFilled x z :=
  ⟨hyz.replay.trans hxy.replay, hyz.spareAt.trans hxy.spareAt⟩

/-- The port of a queue's first flit is the port without a credit. -/
theorem head_spends {x y : PortSt} {l r : List LinkFlit} {f : LinkFlit} (h : x.head l = some (f, y, r)) : y = x.spend f := by
  cases l with
  | nil => cases h
  | cons g t =>
    rw [PortSt.head] at h
    split at h
    · cases h
      rfl
    · cases h

theorem nextFlit_fills (p : Pkg) (x : PortSt) : SlotsFilled x (p.nextFlit x).2 := by
  unfold Pkg.nextFlit
  split
  · exact ⟨rfl, rfl⟩
  · extract_lets turn
    split
    case h_1 =>
      obtain rfl := head_spends ‹x.head x.second = some _›
      exact ⟨rfl, rfl⟩
    case h_2 =>
      obtain rfl := head_spends ‹x.head x.tx0 = some _›
      exact ⟨rfl, rfl⟩
    case h_3 =>
      obtain rfl := head_spends ‹x.head x.tx1 = some _›
      obtain rfl := head_spends ‹x.head x.tx3 = some _›
      split <;> exact ⟨rfl, rfl⟩
    case h_4 =>
      obtain rfl := head_spends ‹x.head x.tx1 = some _›
      exact ⟨rfl, rfl⟩
    case h_5 =>
      obtain rfl := head_spends ‹x.head x.tx3 = some _›
      exact ⟨rfl, rfl⟩
    case h_6 => exact .refl x

theorem fillSlots_fills (p : Pkg) (n : Nat) (x : PortSt) : SlotsFilled x (p.fillSlots n x).2 ∧ (p.fillSlots n x).1.length = n := by
  induction n generalizing x with
  | zero => exact ⟨.refl x, rfl⟩
  | succ n ih =>
    obtain ⟨hfills, hlength⟩ := ih (p.nextFlit x).2
    exact ⟨(nextFlit_fills p x).trans hfills, congrArg (· + 1) hlength⟩

/-- q is p but for credits that ports owe. -/
structure CreditsOwed (p q : Pkg) : Prop where
  port : ∀ k, { q.port k with freed := [] } = { p.port k with freed := [] }
  out : q.out = p.out
  mem : q.mem = p.mem
  dict : q.dict = p.dict
  tiles : q.tiles = p.tiles

theorem CreditsOwed.freeCredit {p q : Pkg} (h : CreditsOwed p q) (i b : Nat) : CreditsOwed p (q.freeCredit i b) where
  port k := by
    by_cases hk : k = i
    · subst hk
      rw [← h.port k, Pkg.freeCredit, port_setPort_self]
    · rw [← h.port k, Pkg.freeCredit, port_setPort_other _ _ _ _ hk]
  out := h.out
  mem := h.mem
  dict := h.dict
  tiles := h.tiles

theorem freeCredits_owed (p : Pkg) (l : List (Nat × Nat)) : CreditsOwed p (l.foldl (fun p e => p.freeCredit e.1 e.2) p) :=
  foldl_invariant (CreditsOwed p) (fun _ e h => h.freeCredit e.1 e.2) l ⟨fun _ => rfl, rfl, rfl, rfl, rfl⟩

/-- What a codeword goes out with, and what it is kept as. -/
theorem newCodeword_sends (p : Pkg) (i : Nat) : ∃ fs, fs.length = 8 ∧
    (p.newCodeword i).out = p.out ++ [.codeword i (laneSymbols ((p.port i).laneUse (p.port i).txPos) ((p.port i).spareAt.map (·.1))
      (codeSymbols (fs.flatMap flitBytes)))] ∧
    ((p.port i).txPos % 16 = 0 → fs.head? = some (p.localFlit0 1 0 (ackPayload (((p.port i).rxPos + 2 ^ 32 - 1) % 2 ^ 32) (p.port i).freed))) ∧
    ((p.newCodeword i).port i).replay = (p.port i).replay ++ [((p.port i).txPos, fs)] ∧
    ((p.newCodeword i).port i).txPos = ((p.port i).txPos + 1) % 2 ^ 32 ∧
    (∀ k : Nat, k ≠ i → { (p.newCodeword i).port k with freed := [] } = { p.port k with freed := [] }) ∧
    (p.newCodeword i).mem = p.mem ∧ (p.newCodeword i).dict = p.dict ∧ (p.newCodeword i).tiles = p.tiles := by
  unfold Pkg.newCodeword
  extract_lets x acks head r fs _ y q
  have hhead : head.length ≤ 8 ∧ (x.txPos % 16 = 0 → ∃ rest, head = p.localFlit0 1 0 (ackPayload ((x.rxPos + 2 ^ 32 - 1) % 2 ^ 32) x.freed) :: rest) := by
    by_cases hacks : x.txPos % 16 = 0
    · have hlist : head = [p.localFlit0 1 0 (ackPayload ((x.rxPos + 2 ^ 32 - 1) % 2 ^ 32) x.freed)] := if_pos (decide_eq_true hacks)
      rw [hlist]
      exact ⟨by simp, fun _ => ⟨[], rfl⟩⟩
    · have hlist : head = [] := if_neg fun h => hacks (of_decide_eq_true h)
      rw [hlist]
      exact ⟨by decide, fun h => absurd h hacks⟩
  obtain ⟨hfills, hslots⟩ := fillSlots_fills p (8 - head.length) (if acks then { x with freed := [] } else x)
  have hx : (if acks then { x with freed := [] } else x).replay = x.replay ∧ (if acks then { x with freed := [] } else x).spareAt = x.spareAt := by
    split <;> exact ⟨rfl, rfl⟩
  have hreplay : y.replay = x.replay ++ [(x.txPos, fs)] := congrArg (· ++ [(x.txPos, fs)]) (hfills.replay.trans hx.1)
  have hspare : y.spareAt = x.spareAt := hfills.spareAt.trans hx.2
  have hpos : y.txPos = (x.txPos + 1) % 2 ^ 32 := rfl
  have hlength : fs.length = 8 := by
    have hsplit : fs.length = head.length + r.1.length := List.length_append
    have hslots : r.1.length = 8 - head.length := hslots
    omega
  have hfirst : x.txPos % 16 = 0 → fs.head? = some (p.localFlit0 1 0 (ackPayload ((x.rxPos + 2 ^ 32 - 1) % 2 ^ 32) x.freed)) := fun h => by
    obtain ⟨rest, hrest⟩ := hhead.2 h
    have hfs : fs = head ++ r.1 := rfl
    rw [hfs, hrest]
    rfl
  clear_value fs y
  have howed := freeCredits_owed q (fs.filterMap (·.held))
  have hout : q.out = p.out ++ [.codeword i (laneSymbols (x.laneUse x.txPos) (x.spareAt.map (·.1)) (codeSymbols (fs.flatMap flitBytes)))] := by
    have hlane : y.laneUse x.txPos = x.laneUse x.txPos := by rw [PortSt.laneUse, PortSt.laneUse, hspare]
    have hsent : q.out = p.out ++ [.codeword i (laneSymbols (((p.setPort i y).port i).laneUse x.txPos) (((p.setPort i y).port i).spareAt.map (·.1))
      (codeSymbols (fs.flatMap flitBytes)))] := rfl
    rw [hsent, port_setPort_self, hlane, hspare]
  have hown : q.port i = y := port_setPort_self p i y
  have hother (k : Nat) (hk : k ≠ i) : q.port k = p.port k := port_setPort_other p i k y hk
  refine ⟨fs, hlength, howed.out.trans hout, hfirst, ?_, ?_, fun k hk => ?_, howed.mem, howed.dict, howed.tiles⟩
  · have hport := congrArg PortSt.replay (howed.port i)
    rw [hown] at hport
    exact hport.trans hreplay
  · have hport := congrArg PortSt.txPos (howed.port i)
    rw [hown] at hport
    exact hport.trans hpos
  · rw [howed.port k, hother k hk]

section
variable {s : State} {i : PortNo} (hruns : s.Runs .link) (hup : s.pkg.reg (O.portState + i.val) = 2)
include hruns hup

theorem transmit_new (hresend : (s.pkg.port i.val).resend = none) (hroom : (s.pkg.port i.val).replay.length < 512) :
    exec (.codewordTransmit i) s = .next (s.settle (s.pkg.newCodeword i.val)) := by
  have hexec : exec (.codewordTransmit i) s = execCodewordTransmit i s := rfl
  have hport : s.pkg.up i.val = true := decide_eq_true hup
  rw [hexec, execCodewordTransmit, on_runs s _ _ hruns, Pkg.transmit, hport, if_neg (by decide), hresend]
  dsimp only
  rw [if_neg (Nat.not_le.mpr hroom)]

theorem transmit_replay {pos : Nat} {e : Nat × List LinkFlit} {r : List (Nat × List LinkFlit)} (hresend : (s.pkg.port i.val).resend = some pos)
    (hkept : (s.pkg.port i.val).replay.dropWhile (fun e => decide (e.1 ≠ pos)) = e :: r) :
    ∃ t, exec (.codewordTransmit i) s = .next t ∧
      t.pkg.out = s.pkg.out ++ [.codeword i.val (laneSymbols ((s.pkg.port i.val).laneUse e.1)
        ((s.pkg.port i.val).spareAt.map (·.1)) (codeSymbols (e.2.flatMap flitBytes)))] ∧
      (t.pkg.port i.val).resend = r.head?.map (·.1) ∧ (t.pkg.port i.val).replay = (s.pkg.port i.val).replay ∧
      (t.pkg.port i.val).txPos = (s.pkg.port i.val).txPos ∧ SameMemory s t ∧ SameRegs s t := by
  have hexec : exec (.codewordTransmit i) s = execCodewordTransmit i s := rfl
  have hport : s.pkg.up i.val = true := decide_eq_true hup
  rw [hexec, execCodewordTransmit, on_runs s _ _ hruns, Pkg.transmit, hport, if_neg (by decide), hresend]
  dsimp only
  rw [hkept]
  dsimp only
  rw [Pkg.sendCodeword, port_setPort_self]
  have hport (x : PortSt) (o : Out) : ((s.pkg.setPort i.val x).emit o).port i.val = x := port_setPort_self s.pkg i.val x
  refine ⟨_, rfl, rfl, ?_, ?_, ?_, fun _ => rfl, fun _ => rfl⟩ <;> rw [settle_pkg, hport]

theorem transmit_idle (hresend : (s.pkg.port i.val).resend = none) (hfull : 512 ≤ (s.pkg.port i.val).replay.length) :
    ∃ t, exec (.codewordTransmit i) s = .next t ∧
      t.pkg.out = s.pkg.out ++ [.codeword i.val (laneSymbols ((s.pkg.port i.val).laneUse (s.pkg.port i.val).txPos)
        ((s.pkg.port i.val).spareAt.map (·.1)) (codeSymbols ((List.replicate 8 s.pkg.idleFlit).flatMap flitBytes)))] ∧
      (t.pkg.port i.val).replay = (s.pkg.port i.val).replay ∧ (t.pkg.port i.val).txPos = (s.pkg.port i.val).txPos ∧
      SameMemory s t ∧ SameRegs s t := by
  have hexec : exec (.codewordTransmit i) s = execCodewordTransmit i s := rfl
  have hport : s.pkg.up i.val = true := decide_eq_true hup
  rw [hexec, execCodewordTransmit, on_runs s _ _ hruns, Pkg.transmit, hport, if_neg (by decide), hresend]
  dsimp only
  rw [if_pos hfull, Pkg.idleCodeword]
  rw [Pkg.sendCodeword, port_setPort_self]
  have hport (x : PortSt) (o : Out) : ((s.pkg.setPort i.val x).emit o).port i.val = x := port_setPort_self s.pkg i.val x
  refine ⟨_, rfl, rfl, ?_, ?_, fun _ => rfl, fun _ => rfl⟩ <;> rw [settle_pkg, hport]

end

theorem codeword_transmits (s : State) (i : PortNo) (hruns : s.Runs .link) (hup : s.pkg.reg (O.portState + i.val) = 2) :
    (s.pkg.port i.val).resend = none → (s.pkg.port i.val).replay.length < 512 →
      ∃ t fs, exec (.codewordTransmit i) s = .next t ∧ fs.length = 8 ∧
        t.pkg.out = s.pkg.out ++ [.codeword i.val (laneSymbols ((s.pkg.port i.val).laneUse (s.pkg.port i.val).txPos)
          ((s.pkg.port i.val).spareAt.map (·.1)) (codeSymbols (fs.flatMap flitBytes)))] ∧
        ((s.pkg.port i.val).txPos % 16 = 0 → fs.head? = some (s.pkg.localFlit0 1 0
          (ackPayload (((s.pkg.port i.val).rxPos + 2 ^ 32 - 1) % 2 ^ 32) (s.pkg.port i.val).freed))) ∧
        (t.pkg.port i.val).replay = (s.pkg.port i.val).replay ++ [((s.pkg.port i.val).txPos, fs)] ∧
        (t.pkg.port i.val).txPos = ((s.pkg.port i.val).txPos + 1) % 2 ^ 32 ∧
        (∀ k : Nat, k ≠ i.val → { t.pkg.port k with freed := [] } = { s.pkg.port k with freed := [] }) ∧
        SameMemory s t ∧ SameRegs s t ∧ t.pkg.tiles = s.pkg.tiles := fun hresend hroom => by
  obtain ⟨fs, hlength, hout, hfirst, hreplay, hpos, hother, hmem, hdict, htiles⟩ := newCodeword_sends s.pkg i.val
  rw [transmit_new hruns hup hresend hroom]
  exact ⟨_, fs, rfl, hlength, hout, hfirst, hreplay, hpos, hother, fun b => congrArg (SMap.at 0 b) hmem, reg_of_dict hdict, htiles⟩

/-! ### Acknowledgement and retry -/

theorem ack_releases (s : State) (i : PortNo) (hruns : s.Runs .link) (position : Nat) (credits : List Nat) :
    ∃ t, exec (.ackFlit i position credits) s = .next t ∧
      (t.pkg.port i.val).replay = (s.pkg.port i.val).replay.filter (fun e => !atOrBelow e.1 position) ∧
      (t.pkg.port i.val).ackPos = (position + 1) % 2 ^ 32 ∧
      (∀ k < 5, (t.pkg.port i.val).credits.getD k 0 = (s.pkg.port i.val).credits.getD k 0 + credits.getD k 0) ∧
      SameMemory s t ∧ SameRegs s t ∧ t.pkg.tiles = s.pkg.tiles := by
  have hexec : exec (.ackFlit i position credits) s = execAckFlit i position credits s := rfl
  rw [hexec, execAckFlit, on_runs s _ _ hruns, Pkg.ackIn]
  refine ⟨_, rfl, ?_, ?_, fun k hk => ?_, fun _ => rfl, fun _ => rfl, rfl⟩
  · rw [settle_pkg, port_setPort_self]
  · rw [settle_pkg, port_setPort_self]
  · rw [settle_pkg, port_setPort_self, List.getD_eq_getElem _ _ (by simpa using hk), List.getElem_map, List.getElem_range]

theorem nak_replays (s : State) (i : PortNo) (hruns : s.Runs .link) (position : Nat) (hafter : atOrBelow (position + 1) (s.pkg.port i.val).ackPos = false)
    (hkept : (s.pkg.port i.val).replay.any (fun e => decide (e.1 = position)) = true) :
    ∃ t, exec (.nakFlit i position) s = .next t ∧ (t.pkg.port i.val).resend = some position ∧
      t.pkg.reg (O.retries + i.val) = min (s.pkg.reg (O.retries + i.val) + 1) (2 ^ 32 - 1) ∧
      ((s.pkg.port i.val).retryFlag = false → RaisedLast t 0x4405) ∧ SameMemory s t ∧
      SameRegsBut (fun k => k = O.retries + i.val) s t := by
  have hexec : exec (.nakFlit i position) s = execNakFlit i position s := rfl
  rw [hexec, execNakFlit, on_runs s _ _ hruns, Pkg.nakIn]
  dsimp only
  rw [if_neg (by rw [hafter, hkept]; rintro (h | h) <;> cases h)]
  have hresend (x : PortSt) : (((s.pkg.setPort i.val x).bump (O.retries + i.val) 1).port i.val) = x := port_setPort_self s.pkg i.val x
  cases hflag : (s.pkg.port i.val).retryFlag with
  | true =>
    rw [if_pos rfl]
    refine ⟨_, rfl, ?_, reg_setReg_self _ _ _, (fun h => by cases h), fun _ => rfl, fun k hk => reg_setReg_other _ _ _ _ hk⟩
    rw [settle_pkg, hresend]
  | false =>
    rw [if_neg Bool.false_ne_true]
    refine ⟨_, rfl, ?_, reg_setReg_self _ _ _, fun _ => raised_last _ _ _ _, fun _ => rfl, fun k hk => reg_setReg_other _ _ _ _ hk⟩
    rw [settle_pkg]
    exact congrArg PortSt.resend (hresend _)

/-! ### Receiving -/

/-- The package once the symbols of a codeword are corrected and its position is on record. -/
def Pkg.noteCodeword (p : Pkg) (i : Nat) (w : RxCodeword) : Pkg :=
  let x := p.port i
  (if w.body.isSome then p.bump64 (O.fecCorrectedSymbols + 2 * i) w.corrected else p).setPort i
    { x with rxTop := if !atOrBelow x.rxTop w.pos then x.rxTop else (w.pos + 1) % 2 ^ 32 }

theorem noteCodeword_reg (p : Pkg) (i : Nat) (w : RxCodeword) {k : Nat} (hk : k ≠ O.fecCorrectedSymbols + 2 * i) :
    (p.noteCodeword i w).reg k = p.reg k := by
  unfold Pkg.noteCodeword
  dsimp only
  split
  · exact reg_setReg_other _ _ _ _ hk
  · rfl

theorem noteCodeword_mem (p : Pkg) (i : Nat) (w : RxCodeword) : (p.noteCodeword i w).mem = p.mem := by
  unfold Pkg.noteCodeword
  dsimp only
  split <;> rfl

theorem noteCodeword_port (p : Pkg) (i : Nat) (w : RxCodeword) : (p.noteCodeword i w).port i =
    { p.port i with rxTop := if !atOrBelow (p.port i).rxTop w.pos then (p.port i).rxTop else (w.pos + 1) % 2 ^ 32 } := port_setPort_self _ _ _

section
variable {s : State} {i : PortNo} {w : RxCodeword} (hruns : s.Runs .link) (hup : s.pkg.reg (O.portState + i.val) = 2)
include hruns hup

/-- An up port's codeword: taken or failed at the position in turn, discarded further on, nothing new before. -/
theorem codewordReceive_eq : exec (.codewordReceive i w) s = .next (s.settle (
    if w.pos = (s.pkg.port i.val).rxPos then
      match goodFlits w with
      | none => (s.pkg.noteCodeword i.val w).badCodeword i.val
      | some fs => fs.foldl (fun p f => p.flitIn i (!atOrBelow (s.pkg.port i.val).rxTop w.pos) f) ((s.pkg.noteCodeword i.val w).setPort i.val
          { (s.pkg.noteCodeword i.val w).port i.val with rxPos := ((s.pkg.port i.val).rxPos + 1) % 2 ^ 32, nakPos := none, nakRuns := 0 })
    else if atOrBelow (s.pkg.port i.val).rxPos w.pos then
      (s.pkg.noteCodeword i.val w).discardCodeword i ((goodFlits w).getD []) (!atOrBelow (s.pkg.port i.val).rxTop w.pos)
    else s.pkg.noteCodeword i.val w)) := by
  have hexec : exec (.codewordReceive i w) s = execCodewordReceive i w s := rfl
  have hport : s.pkg.up i.val = true := decide_eq_true hup
  rw [hexec, execCodewordReceive, on_runs s _ _ hruns, Pkg.receive, hport, if_neg (by decide)]
  rfl

/-- A codeword in turn that cannot be read is counted, and asked for again. -/
theorem codeword_fails (hbad : goodFlits w = none) (hpos : w.pos = (s.pkg.port i.val).rxPos) (hnak : (s.pkg.port i.val).nakPos = none) :
    ∃ t, exec (.codewordReceive i w) s = .next t ∧
      t.pkg.reg (O.fecUncorrectable + i.val) = min (s.pkg.reg (O.fecUncorrectable + i.val) + 1) (2 ^ 32 - 1) ∧
      (t.pkg.port i.val).nakPos = some w.pos ∧ (t.pkg.port i.val).rxPos = w.pos ∧
      (t.pkg.port i.val).local0 = (s.pkg.port i.val).local0 ++ [(2, 0, toLe 8 w.pos)] ∧ SameMemory s t := by
  have hcount := noteCodeword_reg s.pkg i.val w (k := O.fecUncorrectable + i.val) (by simp only [O.fecUncorrectable, O.fecCorrectedSymbols]; omega)
  have hmem := noteCodeword_mem s.pkg i.val w
  have hport := noteCodeword_port s.pkg i.val w
  rw [codewordReceive_eq hruns hup, if_pos hpos, hbad]
  dsimp only
  generalize s.pkg.noteCodeword i.val w = q at *
  have hport' : (q.bump (O.fecUncorrectable + i.val) 1).port i.val = q.port i.val := rfl
  rw [Pkg.badCodeword]
  rw [hport', hport]
  dsimp only
  have hfirst : (if (none : Option Nat) = some (s.pkg.port i.val).rxPos then (s.pkg.port i.val).nakRuns + 1 else 0) = 0 := if_neg (by rintro ⟨⟩)
  rw [hnak, hfirst, if_neg (by decide)]
  refine ⟨_, rfl, ?_, ?_, ?_, ?_, fun b => congrArg (SMap.at 0 b) hmem⟩
  · rw [settle_pkg, ← hcount]
    exact reg_setReg_self _ _ _
  · rw [settle_pkg, port_setPort_self, hpos]
  · rw [settle_pkg, port_setPort_self, hpos]
  · rw [settle_pkg, port_setPort_self, hpos]

/-- A codeword from further on that cannot be read is counted. -/
theorem codeword_ahead_fails (hbad : goodFlits w = none) (hpos : w.pos ≠ (s.pkg.port i.val).rxPos) (hahead : atOrBelow (s.pkg.port i.val).rxPos w.pos = true) :
    ∃ t, exec (.codewordReceive i w) s = .next t ∧
      t.pkg.reg (O.fecUncorrectable + i.val) = min (s.pkg.reg (O.fecUncorrectable + i.val) + 1) (2 ^ 32 - 1) ∧
      (t.pkg.port i.val).rxPos = (s.pkg.port i.val).rxPos ∧ (t.pkg.port i.val).nakPos = (s.pkg.port i.val).nakPos ∧ SameMemory s t := by
  have hcount := noteCodeword_reg s.pkg i.val w (k := O.fecUncorrectable + i.val) (by simp only [O.fecUncorrectable, O.fecCorrectedSymbols]; omega)
  have hmem := noteCodeword_mem s.pkg i.val w
  have hport := noteCodeword_port s.pkg i.val w
  rw [codewordReceive_eq hruns hup, if_neg hpos, hahead, if_pos rfl, hbad]
  generalize s.pkg.noteCodeword i.val w = q at *
  refine ⟨_, rfl, ?_, ?_, ?_, fun b => congrArg (SMap.at 0 b) hmem⟩
  · rw [settle_pkg, ← hcount]
    exact reg_setReg_self _ _ _
  · have hrxPos := congrArg PortSt.rxPos hport
    exact hrxPos
  · have hnakPos := congrArg PortSt.nakPos hport
    exact hnakPos

/-- A codeword from before changes nothing but the count of corrected symbols. -/
theorem codeword_again (hold : atOrBelow (s.pkg.port i.val).rxPos w.pos = false) (htop : atOrBelow (s.pkg.port i.val).rxTop w.pos = false)
    (hpos : w.pos ≠ (s.pkg.port i.val).rxPos) :
    ∃ t, exec (.codewordReceive i w) s = .next t ∧ t.pkg.port i.val = s.pkg.port i.val ∧ SameMemory s t ∧
      SameRegsBut (fun k => k = O.fecCorrectedSymbols + 2 * i.val) s t := by
  rw [codewordReceive_eq hruns hup, if_neg hpos, hold, if_neg Bool.false_ne_true]
  refine ⟨_, rfl, ?_, fun b => congrArg (SMap.at 0 b) (noteCodeword_mem s.pkg i.val w), fun k hk => noteCodeword_reg s.pkg i.val w hk⟩
  rw [settle_pkg, noteCodeword_port, htop]
  rfl

/-- A codeword in turn that can be read is taken, flit by flit. -/
theorem codeword_taken (fs : List LinkFlit) (hgood : goodFlits w = some fs) (hpos : w.pos = (s.pkg.port i.val).rxPos) :
    ∀ replayed, replayed = !atOrBelow (s.pkg.port i.val).rxTop w.pos →
    ∀ p, p = (s.pkg.bump64 (O.fecCorrectedSymbols + 2 * i.val) w.corrected).setPort i.val { s.pkg.port i.val with
        rxTop := if replayed then (s.pkg.port i.val).rxTop else (w.pos + 1) % 2 ^ 32 } →
    Does (.codewordReceive i w) s (fs.foldl (fun p f => p.flitIn i replayed f)
      (p.setPort i.val { p.port i.val with rxPos := (w.pos + 1) % 2 ^ 32, nakPos := none, nakRuns := 0 })) := by
  rintro replayed rfl p rfl
  have hbody : w.body.isSome = true := by
    cases hb : w.body with
    | none =>
      rw [goodFlits, hb] at hgood
      cases hgood
    | some b => rfl
  rw [Does, codewordReceive_eq hruns hup, if_pos hpos, hgood]
  dsimp only
  rw [Pkg.noteCodeword, hbody, if_pos rfl, ← hpos]

end

/-- Settles O36. -/
theorem codewordsAndRetry : Obligations.CodewordsAndRetry :=
  ⟨fun s i hruns hup => ⟨codeword_transmits s i hruns hup, fun _ _ _ hresend hkept => transmit_replay hruns hup hresend hkept, transmit_idle hruns hup⟩,
    fun s i hruns => ⟨ack_releases s i hruns, nak_replays s i hruns,
      fun _ hup hbad => ⟨codeword_fails hruns hup hbad, codeword_ahead_fails hruns hup hbad⟩,
      fun _ hup => codeword_again hruns hup, fun _ fs hup => codeword_taken hruns hup fs⟩⟩

end Sys2Proof.Machine

namespace Sys2Proof.Machine

/-! ## Ports and lanes (R296 to R298, R304 to R306) -/

/-- The objects of a port, apart from each other and from the package's own. -/
theorem portObjects_apart (i j : Nat) (hi : i < 12) (hj : j < 12) : O.portState + i ≠ O.linkNeighbour + j ∧ O.portState + i ≠ O.spareInUse + j ∧
    O.linkNeighbour + i ≠ O.spareInUse + j ∧ O.portState + i ≠ O.routeRows ∧ O.spareInUse + i ≠ O.routeRows ∧ O.revisionNumber ≠ O.portState + i ∧
    O.domainPhysId ≠ O.portState + i := by
  simp only [O.portState, O.linkNeighbour, O.spareInUse, O.routeRows, O.revisionNumber, O.domainPhysId]
  omega

/-! ### Training and identity (R296) -/

section
variable {s : State} {i : PortNo} (hruns : s.Runs .link)
include hruns

theorem portTraining_trains (hps : s.pkg.reg O.psCurrent = 0) (hpads : bitOf (s.pkg.reg O.padHeld) 1 = false) (hdead : (s.pkg.port i.val).dead = false)
    (hst : s.pkg.reg (O.portState + i.val) = 0 ∨ s.pkg.reg (O.portState + i.val) = 1) :
    ∃ t, exec (.portTraining i) s = .next t ∧ t.pkg.reg (O.portState + i.val) = 1 ∧ (t.pkg.port i.val).credits = fullCredits ∧
      t.pkg.out = s.pkg.out ++ [.linkLocal i.val 3 0 (s.pkg.identityWord i.val)] ∧ SameMemory s t ∧
      SameRegsBut (fun k => k = O.portState + i.val) s t := by
  have hexec : exec (.portTraining i) s = execPortTraining i s := rfl
  rw [hexec, execPortTraining, on_runs s _ _ hruns]
  dsimp only
  rw [if_neg (by rw [hpads, hdead]; rintro (h | h | ⟨h0, h1⟩ | h) <;> [exact h hps; cases h; exact hst.elim h0 h1; cases h])]
  refine ⟨_, rfl, reg_setReg_self _ _ _, ?_, rfl, fun _ => rfl, fun k hk => reg_setReg_other _ _ _ _ hk⟩
  rw [settle_pkg]
  exact congrArg PortSt.credits (port_setPort_self s.pkg i.val _)

theorem identity_comes_up (id port : Nat) (hst : s.pkg.reg (O.portState + i.val) = 1) :
    ∃ t, exec (.identityFlit i id port (s.pkg.reg O.revisionNumber)) s = .next t ∧ t.pkg.reg (O.portState + i.val) = 2 ∧
      t.pkg.reg (O.linkNeighbour + i.val) = fld (id % 4096) 16 + port % 16 ∧ RaisedLast t 0x4404 ∧ SameMemory s t ∧
      SameRegsBut (fun k => k = O.portState + i.val ∨ k = O.linkNeighbour + i.val) s t := by
  have hexec : exec (.identityFlit i id port (s.pkg.reg O.revisionNumber)) s = execIdentityFlit i id port (s.pkg.reg O.revisionNumber) s := rfl
  obtain ⟨hapart, -⟩ := portObjects_apart i.val i.val i.isLt i.isLt
  rw [hexec, execIdentityFlit, on_runs s _ _ hruns, Pkg.identityIn, if_neg (not_not.mpr hst), Pkg.comeUp, if_neg (not_not.mpr rfl)]
  refine ⟨_, rfl, reg_setReg_self _ _ _, ?_, raised_last _ _ _ _, fun _ => rfl, fun k hk => ?_⟩
  · rw [settle_pkg, reg_raise, reg_setReg_other _ _ _ _ hapart.symm, reg_setReg_self]
  · rw [settle_pkg, reg_raise, reg_setReg_other _ _ _ _ fun h => hk (.inl h), reg_setReg_other _ _ _ _ fun h => hk (.inr h)]

theorem identity_refused (id port rev : Nat) (hst : s.pkg.reg (O.portState + i.val) = 1) (hrev : rev ≠ s.pkg.reg O.revisionNumber) :
    Does (.identityFlit i id port rev) s (s.pkg.raise 0x4408 i.val 0) := by
  have hexec : exec (.identityFlit i id port rev) s = execIdentityFlit i id port rev s := rfl
  rw [Does, hexec, execIdentityFlit, on_runs s _ _ hruns, Pkg.identityIn, if_neg (not_not.mpr hst), Pkg.comeUp, if_pos hrev]

/-! ### Retrain (R298) -/

/-- A port that is up begins to retrain. -/
def Pkg.beginRetrain (p : Pkg) (i : Nat) : Pkg :=
  (((p.setPort i { p.port i with retrainAt := p.mtime }).setReg (O.portState + i) 3).setReg (O.linkNeighbour + i) 0xFFFFFFFF).raise 0x4402 i 0

omit hruns in
theorem beginRetrain_spec (p : Pkg) (i : PortNo) : (p.beginRetrain i.val).reg (O.portState + i.val) = 3 ∧
    (p.beginRetrain i.val).reg (O.linkNeighbour + i.val) = 0xFFFFFFFF ∧ (p.beginRetrain i.val).mem = p.mem ∧
    (p.beginRetrain i.val).port i.val = { p.port i.val with retrainAt := p.mtime } ∧
    ∀ k, k ≠ O.portState + i.val → k ≠ O.linkNeighbour + i.val → (p.beginRetrain i.val).reg k = p.reg k := by
  obtain ⟨hapart, -⟩ := portObjects_apart i.val i.val i.isLt i.isLt
  refine ⟨?_, reg_setReg_self _ _ _, rfl, port_setPort_self p _ _, fun k hst hneighbour => ?_⟩
  · rw [Pkg.beginRetrain, reg_raise, reg_setReg_other _ _ _ _ hapart, reg_setReg_self]
  · rw [Pkg.beginRetrain, reg_raise, reg_setReg_other _ _ _ _ hneighbour, reg_setReg_other _ _ _ _ hst]
    rfl

omit hruns in
/-- A port that fails: its state, its event, and what else it leaves. -/
theorem failPort_spec (p : Pkg) (i : PortNo) : (p.failPort i.val).reg (O.portState + i.val) = 4 ∧ ((p.failPort i.val).port i.val).dead = true ∧
    ((p.failPort i.val).ev.inFlight.getLast?.map (·.code)) = some 0x4403 ∧ (p.failPort i.val).mem = p.mem := by
  obtain ⟨-, -, -, hroutes, -⟩ := portObjects_apart i.val i.val i.isLt i.isLt
  unfold Pkg.failPort
  generalize hq : ((p.setPort i.val { p.port i.val with dead := true }).setReg (O.portState + i.val) 4).raise 0x4403 i.val 0 = q
  have hreg : q.reg (O.portState + i.val) = 4 := by rw [← hq, reg_raise, reg_setReg_self]
  have hport : (q.port i.val).dead = true := by
    rw [← hq]
    exact congrArg PortSt.dead (port_setPort_self p i.val _)
  have hev : (q.ev.inFlight.getLast?.map (·.code)) = some 0x4403 := by
    rw [← hq]
    exact raised_last _ _ _ _
  have hmem : q.mem = p.mem := by rw [← hq]; rfl
  clear hq
  unfold Pkg.applyLink
  split
  · exact ⟨hreg, hport, hev, hmem⟩
  · extract_lets mine
    split
    · exact ⟨hreg, hport, hev, hmem⟩
    · exact ⟨(reg_setReg_other _ _ _ _ hroutes).trans hreg, hport, hev, hmem⟩

theorem laneLockLoss_eq (lane : Option (Fin 8)) (hst : s.pkg.reg (O.portState + i.val) = 2) :
    exec (.laneLockLoss i lane) s = .next (s.settle (match lane with
      | none => s.pkg.beginRetrain i.val
      | some l => if (s.pkg.beginRetrain i.val).reg (O.spareInUse + i.val) = 0xFF then
          ((s.pkg.beginRetrain i.val).setPort i.val { (s.pkg.beginRetrain i.val).port i.val with
            spareAt := some (l.val, ((s.pkg.beginRetrain i.val).port i.val).ackPos)
            spareRx := some (l.val, ((s.pkg.beginRetrain i.val).port i.val).rxPos) }).setReg (O.spareInUse + i.val) l.val
        else (s.pkg.beginRetrain i.val).failPort i.val)) := by
  have hexec : exec (.laneLockLoss i lane) s = execLaneLockLoss i lane s := rfl
  rw [hexec, execLaneLockLoss, on_runs s _ _ hruns, Pkg.retrain]
  dsimp only
  rw [if_neg (fun h => h.1 hst), if_pos hst, ← Pkg.beginRetrain]
  cases lane <;> rfl

theorem lock_lost (hst : s.pkg.reg (O.portState + i.val) = 2) :
    ∃ t, exec (.laneLockLoss i none) s = .next t ∧ t.pkg.reg (O.portState + i.val) = 3 ∧
      t.pkg.reg (O.linkNeighbour + i.val) = 0xFFFFFFFF ∧ RaisedLast t 0x4402 ∧ SameMemory s t ∧
      SameRegsBut (fun k => k = O.portState + i.val ∨ k = O.linkNeighbour + i.val) s t := by
  obtain ⟨hstate, hneighbour, hmem, -, hother⟩ := beginRetrain_spec s.pkg i
  rw [laneLockLoss_eq hruns none hst]
  exact ⟨_, rfl, hstate, hneighbour, raised_last _ _ _ _, fun b => congrArg (SMap.at 0 b) hmem, fun k hk => hother k (fun h => hk (.inl h)) fun h => hk (.inr h)⟩

theorem lane_lost (l : Fin 8) (hst : s.pkg.reg (O.portState + i.val) = 2) :
    (s.pkg.reg (O.spareInUse + i.val) = 0xFF →
      ∃ t, exec (.laneLockLoss i (some l)) s = .next t ∧ t.pkg.reg (O.portState + i.val) = 3 ∧
        t.pkg.reg (O.spareInUse + i.val) = l.val ∧ (t.pkg.port i.val).spareAt = some (l.val, (s.pkg.port i.val).ackPos) ∧
        SameMemory s t) ∧
    (s.pkg.reg (O.spareInUse + i.val) ≠ 0xFF →
      ∃ t, exec (.laneLockLoss i (some l)) s = .next t ∧ t.pkg.reg (O.portState + i.val) = 4 ∧ (t.pkg.port i.val).dead = true ∧
        RaisedLast t 0x4403 ∧ SameMemory s t) := by
  obtain ⟨hstate, -, hmem, hport, hother⟩ := beginRetrain_spec s.pkg i
  obtain ⟨-, hspare, hneighbour, -⟩ := portObjects_apart i.val i.val i.isLt i.isLt
  have hspareReg := hother _ hspare.symm hneighbour.symm
  rw [laneLockLoss_eq hruns (some l) hst]
  dsimp only
  rw [hspareReg]
  generalize s.pkg.beginRetrain i.val = q at *
  refine ⟨fun hfree => ?_, fun htaken => ?_⟩
  · rw [if_pos hfree]
    refine ⟨_, rfl, (reg_setReg_other _ _ _ _ hspare).trans hstate, reg_setReg_self _ _ _, ?_, fun b => congrArg (SMap.at 0 b) hmem⟩
    rw [settle_pkg]
    have hset := congrArg PortSt.spareAt (port_setPort_self q i.val { q.port i.val with
      spareAt := some (l.val, (q.port i.val).ackPos)
      spareRx := some (l.val, (q.port i.val).rxPos) })
    rw [hport] at hset
    rw [hport]
    exact hset
  · rw [if_neg htaken]
    obtain ⟨hfailed, hdead, hev, hfmem⟩ := failPort_spec q i
    exact ⟨_, rfl, hfailed, hdead, hev, fun b => congrArg (SMap.at 0 b) (hfmem.trans hmem)⟩

/-- A port that has trained again. -/
theorem retrainComplete_eq (id port rev : Nat) (hst : s.pkg.reg (O.portState + i.val) = 3) :
    exec (.retrainComplete ⟨i, id, port, rev⟩) s = .next (s.settle (((s.pkg.emit (.linkLocal i.val 3 0 (s.pkg.identityWord i.val))).setPort i.val
      { s.pkg.port i.val with resend := (s.pkg.port i.val).replay.head?.map (·.1), nakPos := none, nakRuns := 0 }).comeUp i.val id port rev)) := by
  have hexec : exec (.retrainComplete ⟨i, id, port, rev⟩) s = execRetrainComplete ⟨i, id, port, rev⟩ s := rfl
  rw [hexec, execRetrainComplete, on_runs s _ _ hruns]
  dsimp only
  rw [if_neg (not_not.mpr hst)]

theorem retrain_completes (id port : Nat) (hst : s.pkg.reg (O.portState + i.val) = 3) :
    ∃ t, exec (.retrainComplete ⟨i, id, port, s.pkg.reg O.revisionNumber⟩) s = .next t ∧ t.pkg.reg (O.portState + i.val) = 2 ∧
      t.pkg.reg (O.linkNeighbour + i.val) = fld (id % 4096) 16 + port % 16 ∧
      (t.pkg.port i.val).resend = (s.pkg.port i.val).replay.head?.map (·.1) ∧ RaisedLast t 0x4404 ∧ SameMemory s t := by
  obtain ⟨hapart, -⟩ := portObjects_apart i.val i.val i.isLt i.isLt
  rw [retrainComplete_eq hruns id port _ hst]
  generalize hx : ({ s.pkg.port i.val with resend := (s.pkg.port i.val).replay.head?.map (·.1), nakPos := none, nakRuns := 0 } : PortSt) = x
  have hrev : ¬ s.pkg.reg O.revisionNumber ≠ Pkg.reg ((s.pkg.emit (.linkLocal i.val 3 0 (s.pkg.identityWord i.val))).setPort i.val x) O.revisionNumber :=
    not_not.mpr rfl
  rw [Pkg.comeUp, if_neg hrev]
  have hport : ((s.pkg.emit (.linkLocal i.val 3 0 (s.pkg.identityWord i.val))).setPort i.val x).port i.val = x := port_setPort_self _ _ _
  refine ⟨_, rfl, reg_setReg_self _ _ _, ?_, ?_, raised_last _ _ _ _, fun _ => rfl⟩
  · rw [settle_pkg, reg_raise, reg_setReg_other _ _ _ _ hapart.symm, reg_setReg_self]
  · have hresend : x.resend = (s.pkg.port i.val).replay.head?.map (·.1) := by rw [← hx]
    exact (congrArg PortSt.resend hport).trans hresend

theorem retrain_refused (id port rev : Nat) (hst : s.pkg.reg (O.portState + i.val) = 3) (hrev : rev ≠ s.pkg.reg O.revisionNumber) :
    ∃ t, exec (.retrainComplete ⟨i, id, port, rev⟩) s = .next t ∧ t.pkg.reg (O.portState + i.val) = 3 ∧ RaisedLast t 0x4408 ∧
      SameMemory s t ∧ SameRegs s t := by
  rw [retrainComplete_eq hruns id port rev hst]
  generalize ({ s.pkg.port i.val with resend := (s.pkg.port i.val).replay.head?.map (·.1), nakPos := none, nakRuns := 0 } : PortSt) = x
  have hrev' : rev ≠ Pkg.reg ((s.pkg.emit (.linkLocal i.val 3 0 (s.pkg.identityWord i.val))).setPort i.val x) O.revisionNumber := hrev
  rw [Pkg.comeUp, if_pos hrev']
  exact ⟨_, rfl, hst, raised_last _ _ _ _, fun _ => rfl, fun _ => rfl⟩

theorem retrainLimit_fails (hst : s.pkg.reg (O.portState + i.val) = 3) (hover : s.pkg.retrainEnd i.val ≤ s.pkg.mtime) :
    ∃ t, exec (.retrainLimitExpiry i) s = .next t ∧ t.pkg.reg (O.portState + i.val) = 4 ∧ (t.pkg.port i.val).dead = true ∧
      RaisedLast t 0x4403 ∧ SameMemory s t := by
  have hexec : exec (.retrainLimitExpiry i) s = execRetrainLimitExpiry i s := rfl
  obtain ⟨hfailed, hdead, hev, hmem⟩ := failPort_spec s.pkg i
  rw [hexec, execRetrainLimitExpiry, on_runs s _ _ hruns, if_pos ⟨hst, hover⟩]
  exact ⟨_, rfl, hfailed, hdead, hev, fun b => congrArg (SMap.at 0 b) hmem⟩

theorem retrainLimit_waits (hbefore : s.pkg.mtime < s.pkg.retrainEnd i.val) : Does (.retrainLimitExpiry i) s s.pkg := by
  have hexec : exec (.retrainLimitExpiry i) s = execRetrainLimitExpiry i s := rfl
  rw [Does, hexec, execRetrainLimitExpiry, on_runs s _ _ hruns, if_neg fun h => Nat.not_le.mpr hbefore h.2]

/-! ### The spare lane (R297) -/

omit hruns in
theorem margin_apart (lane : Fin 9) : O.spareThresholdMv ≠ O.laneEyeMargin + 9 * i.val + lane.val ∧ O.spareInUse + i.val ≠ O.laneEyeMargin + 9 * i.val + lane.val := by
  simp only [O.spareThresholdMv, O.laneEyeMargin, O.spareInUse]
  omega

theorem margin_kept (lane : Fin 9) (mv : Nat) (hmv : s.pkg.reg O.spareThresholdMv ≤ mv) :
    Does (.laneMarginLow i lane mv) s (s.pkg.setReg (O.laneEyeMargin + 9 * i.val + lane.val) (toBits 16 mv)) := by
  have hexec : exec (.laneMarginLow i lane mv) s = execLaneMarginLow i lane mv s := rfl
  obtain ⟨hthreshold, -⟩ := margin_apart (i := i) lane
  rw [Does, hexec, execLaneMarginLow, on_runs s _ _ hruns, Pkg.laneMargin]
  rw [reg_setReg_other _ _ _ _ hthreshold, if_pos (.inl (by exact_mod_cast hmv))]

theorem margin_names (lane : Fin 9) (mv : Nat) (hmv : mv < s.pkg.reg O.spareThresholdMv) (hlane : lane.val ≠ 8)
    (hspare : s.pkg.reg (O.spareInUse + i.val) = 0xFF) (hnone : (s.pkg.port i.val).spareAt = none) :
    ∃ t, exec (.laneMarginLow i lane mv) s = .next t ∧
      (t.pkg.port i.val).spareAt = some (lane.val, ((s.pkg.port i.val).txPos + 4096) % 2 ^ 32) ∧
      (t.pkg.port i.val).local0 = (s.pkg.port i.val).local0 ++
        [(4, lane.val, toLe 8 (((s.pkg.port i.val).txPos + 4096) % 2 ^ 32))] ∧
      SameMemory s t ∧ SameRegsBut (fun k => k = O.laneEyeMargin + 9 * i.val + lane.val) s t := by
  have hexec : exec (.laneMarginLow i lane mv) s = execLaneMarginLow i lane mv s := rfl
  obtain ⟨hthreshold, hspareKey⟩ := margin_apart (i := i) lane
  generalize hq : s.pkg.setReg (O.laneEyeMargin + 9 * i.val + lane.val) (toBits 16 mv) = q at *
  have hreg (k : Nat) (hk : k ≠ O.laneEyeMargin + 9 * i.val + lane.val) : q.reg k = s.pkg.reg k := by rw [← hq, reg_setReg_other _ _ _ _ hk]
  have hport : q.port i.val = s.pkg.port i.val := by rw [← hq]; rfl
  have hmem : q.mem = s.pkg.mem := by rw [← hq]; rfl
  have hlow : ¬ ((q.reg O.spareThresholdMv : Int) ≤ mv ∨ q.reg (O.spareInUse + i.val) = lane.val ∨ lane.val = 8 ∧ q.reg (O.spareInUse + i.val) = 0xFF) := by
    rw [hreg _ hthreshold, hreg _ hspareKey, hspare]
    rintro (h | h | h)
    · omega
    · have := lane.isLt
      omega
    · exact hlane h.1
  rw [hexec, execLaneMarginLow, on_runs s _ _ hruns, Pkg.laneMargin, hq]
  rw [if_neg hlow, Pkg.startSubstitution, hport, hnone]
  rw [if_neg (by rw [hreg _ hspareKey, hspare]; rintro (h | h) <;> [exact h rfl; cases h]), if_neg (by decide), Pkg.nameSpare]
  rw [hport]
  refine ⟨_, rfl, ?_, ?_, fun b => congrArg (SMap.at 0 b) hmem, hreg⟩
  · rw [settle_pkg, port_setPort_self]
  · rw [settle_pkg, port_setPort_self]

theorem substitution_answered (lane : Fin 8) (position : Nat) (hspare : s.pkg.reg (O.spareInUse + i.val) = 0xFF) (hnone : (s.pkg.port i.val).spareAt = none) :
    ∃ t, exec (.substitutionFlit i lane position) s = .next t ∧ (t.pkg.port i.val).spareRx = some (lane.val, position) ∧
      (t.pkg.port i.val).spareAt = some (lane.val, ((s.pkg.port i.val).txPos + 4096) % 2 ^ 32) ∧ SameMemory s t ∧ SameRegs s t := by
  have hexec : exec (.substitutionFlit i lane position) s = execSubstitutionFlit i lane position s := rfl
  rw [hexec, execSubstitutionFlit, on_runs s _ _ hruns, Pkg.spareNamed, if_neg (not_not.mpr hspare)]
  dsimp only
  rw [port_setPort_self]
  dsimp only
  rw [hnone, if_neg (by decide), Pkg.nameSpare]
  rw [port_setPort_self]
  refine ⟨_, rfl, ?_, ?_, fun _ => rfl, fun _ => rfl⟩
  · rw [settle_pkg, port_setPort_self]
  · rw [settle_pkg, port_setPort_self]

theorem substitution_takes_over (lane : Nat) (hreached : (s.pkg.port i.val).reached = some lane) (hspare : s.pkg.reg (O.spareInUse + i.val) = 0xFF) :
    ∃ t, exec (.substitutionPosition i) s = .next t ∧ t.pkg.reg (O.spareInUse + i.val) = lane ∧
      RaisedLast t 0x4401 ∧ SameMemory s t ∧ SameRegsBut (fun k => k = O.spareInUse + i.val) s t := by
  have hexec : exec (.substitutionPosition i) s = execSubstitutionPosition i s := rfl
  rw [hexec, execSubstitutionPosition, on_runs s _ _ hruns]
  dsimp only
  rw [hreached]
  dsimp only
  rw [if_pos hspare]
  exact ⟨_, rfl, reg_setReg_self _ _ _, raised_last _ _ _ _, fun _ => rfl, fun k hk => reg_setReg_other _ _ _ _ hk⟩

end

/-! ### Bridges and the lane test engines (R304 to R306) -/

theorem flip_zero (w : PWord) : w.flip (0, 0) = w := by
  simp [PWord.flip]

theorem packWord_clean (v : Option W128) : (∃ d, v = some d ∧ checkWord (packWord v) = .clean ∧ (packWord v).data = d) ∨
    v = none ∧ checkWord (packWord v) = .poison := by
  cases v with
  | some d =>
    refine .inl ⟨d, rfl, ?_, rfl⟩
    simp [packWord, checkWord, syndrome_goodWord]
  | none => exact .inr ⟨rfl, by decide +kernel⟩

theorem bridge_crossed (s : State) (b : Fin 13) (w : SilzinWord) (kept : List PWord) (hruns : s.Runs .link)
    (hkept : kept = s.pkg.links.bridges.at [] b.val ++ [packWord w.data]) :
    ∃ t, exec (.silzinWordReceive b w) s = .next t ∧ t.pkg.links.bridges.at [] b.val = kept.drop (kept.length - 32) ∧
      (w.first = (0, 0) → t.pkg.out = s.pkg.out ++ [.bridgeWord b.val w.data] ∧ SameRegs s t) ∧
      (checkWord ((packWord w.data).flip w.first) = .bad →
        t.pkg.reg (O.silzinReplays + b.val) = min (s.pkg.reg (O.silzinReplays + b.val) + 1) (2 ^ 32 - 1) ∧ RaisedLast t 0x440B ∧
        (w.again = (0, 0) → t.pkg.out = s.pkg.out ++ [.bridgeWord b.val w.data]) ∧
        (checkWord ((packWord w.data).flip w.again) = .bad → t.pkg.out = s.pkg.out ++ [.bridgeWord b.val none])) ∧
      SameMemory s t ∧ SameRegsBut (fun k => k = O.silzinReplays + b.val) s t ∧ t.pkg.tiles = s.pkg.tiles := by
  have hexec : exec (.silzinWordReceive b w) s = execSilzinWordReceive b w s := rfl
  have hbridge (l : List PWord) : (s.pkg.links.bridges.put [] b.val l).at [] b.val = l := SMap.at_put_self _ _ _ _
  have hwhole := packWord_clean w.data
  rw [hexec, execSilzinWordReceive, on_runs s _ _ hruns, Pkg.crossBridge, ← hkept]
  dsimp only
  cases hcheck : checkWord ((packWord w.data).flip w.first) with
  | clean =>
    refine ⟨_, rfl, hbridge _, fun hfirst => ⟨?_, fun _ => rfl⟩, (fun h => by cases h), fun _ => rfl, fun _ _ => rfl, rfl⟩
    rw [hfirst, flip_zero] at hcheck ⊢
    obtain ⟨d, hd, -, hdata⟩ | ⟨-, hpoison⟩ := hwhole
    · rw [hd] at hdata ⊢
      exact congrArg (fun v => s.pkg.out ++ [Out.bridgeWord b.val (some v)]) hdata
    · rw [hpoison] at hcheck
      cases hcheck
  | corrected v sym =>
    refine ⟨_, rfl, hbridge _, fun hfirst => ?_, (fun h => by cases h), fun _ => rfl, fun _ _ => rfl, rfl⟩
    rw [hfirst, flip_zero] at hcheck
    obtain ⟨d, -, hclean, -⟩ | ⟨-, hpoison⟩ := hwhole
    · rw [hclean] at hcheck
      cases hcheck
    · rw [hpoison] at hcheck
      cases hcheck
  | poison =>
    refine ⟨_, rfl, hbridge _, fun hfirst => ⟨?_, fun _ => rfl⟩, (fun h => by cases h), fun _ => rfl, fun _ _ => rfl, rfl⟩
    rw [hfirst, flip_zero] at hcheck
    obtain ⟨d, -, hclean, -⟩ | ⟨hnone, -⟩ := hwhole
    · rw [hclean] at hcheck
      cases hcheck
    · rw [hnone]
      rfl
  | bad =>
    refine ⟨_, rfl, hbridge _, fun hfirst => ?_, fun _ => ⟨reg_setReg_self _ _ _, raised_last _ _ _ _, fun hagain => ?_, fun hagain => ?_⟩, fun _ => rfl,
      fun k hk => reg_setReg_other _ _ _ _ hk, rfl⟩
    · rw [hfirst, flip_zero] at hcheck
      obtain ⟨d, -, hclean, -⟩ | ⟨-, hpoison⟩ := hwhole
      · rw [hclean] at hcheck
        cases hcheck
      · rw [hpoison] at hcheck
        cases hcheck
    · rw [hagain, flip_zero, readWord_packWord]
      rfl
    · have hread : readWord ((packWord w.data).flip w.again) = none := by rw [readWord, hagain]
      rw [hread]
      rfl

theorem linkTestOwner_claims (s : State) (w : Writer) (d : Fin 2) (v : Nat) (hruns : s.Runs (writerPlane w)) (hv : v ≤ 3) :
    ((s.pkg.reg (O.linkTestOwner + d.val) = 0 ∨ v = 0) →
      Does (.linkTestOwnerWrite w d v) s (s.pkg.setReg (O.linkTestOwner + d.val) v)) ∧
    (v ≠ 0 → s.pkg.reg (O.linkTestOwner + d.val) ≠ 0 → s.pkg.reg (O.linkTestOwner + d.val) ≠ v →
      ∃ t, exec (.linkTestOwnerWrite w d v) s = .next t ∧ RaisedLast t 0x4409 ∧
        t.pkg.reg (O.linkTestOwner + d.val) = s.pkg.reg (O.linkTestOwner + d.val) ∧ SameMemory s t) := by
  have hexec : exec (.linkTestOwnerWrite w d v) s = execLinkTestOwnerWrite w d v s := rfl
  simp only [Does]
  rw [hexec, execLinkTestOwnerWrite, on_runs s _ _ hruns]
  unfold Pkg.linkTestOwnerWrite
  rw [if_neg (Nat.not_lt.mpr hv)]
  refine ⟨fun hfree => ?_, fun hv0 htaken hother => ?_⟩
  · rw [ownerWrite_accepted s.pkg w _ v 0x4409 d.val hfree]
  · cases w with
    | path pt =>
      rw [ownerWrite_refused s.pkg pt _ v 0x4409 d.val htaken hv0 hother]
      refine ⟨_, rfl, raised_last _ _ _ _, ?_, fun b => ?_⟩
      · rw [settle_pkg, reg_raise]
        exact refuse_reg_other _ _ _ _ _ (by simp only [O.linkTestOwner, O.dictLastError]; omega) (by simp only [O.linkTestOwner, O.dictLastAbort]; omega)
      · exact congrArg (SMap.at 0 b) (refuse_mem s.pkg pt _ _)
    | unit =>
      have hrefused : s.pkg.ownerWrite .unit (O.linkTestOwner + d.val) v 0x4409 d.val = s.pkg.raise 0x4409 d.val v := by
        simp [Pkg.ownerWrite, claimOf, hv0, htaken, hother]
      rw [hrefused]
      exact ⟨_, rfl, raised_last _ _ _ _, rfl, fun _ => rfl⟩

theorem objAt_linkTestRequest (d : Fin 2) : objAt (O.linkTestRequest + d.val) = some ⟨O.linkTestRequest, 2, 1, 1, 1, .wo, 0, 11, false⟩ := by
  revert d
  decide +kernel

theorem linkTestRequest_runs (s : State) (pt : Path) (d : Fin 2) (v : Nat) (hruns : s.Runs (pathPlane pt)) (hv : v < 12) (hdie : v < 8 ↔ d.val = 0)
    (howner : s.pkg.reg (O.linkTestOwner + d.val) = 3) (hst : s.pkg.reg (O.portState + v) = 0 ∨ s.pkg.reg (O.portState + v) = 4) :
    Does (.linkTestRequest pt d v) s s.pkg := by
  have hexec : exec (.linkTestRequest pt d v) s = execLinkTestRequest pt d v s := rfl
  rw [Does, hexec, execLinkTestRequest, on_runs s _ _ hruns, Pkg.linkTestRequest]
  rw [objWrite_in_range (objAt_linkTestRequest d) (Nat.zero_le v) (Nat.le_of_lt_succ hv)]
  rw [if_neg (by rintro (h | h) <;> [omega; exact h (propext hdie)]), if_neg (not_not.mpr howner), if_neg fun h => hst.elim h.1 h.2]

/-- Settles O37. -/
theorem portsAndLanes : Obligations.PortsAndLanes :=
  ⟨fun _ _ hruns => ⟨portTraining_trains hruns, identity_comes_up hruns, identity_refused hruns, lock_lost hruns, fun l hst => lane_lost hruns l hst,
      fun hst => ⟨fun id port => retrain_completes hruns id port hst, fun id port rev => retrain_refused hruns id port rev hst,
        retrainLimit_fails hruns hst, retrainLimit_waits hruns⟩⟩,
    ⟨fun _ _ hruns => ⟨margin_kept hruns, margin_names hruns, substitution_answered hruns, substitution_takes_over hruns⟩, bridge_crossed,
      linkTestOwner_claims, linkTestRequest_runs⟩⟩

end Sys2Proof.Machine

namespace Sys2Proof.Machine

-- Each proof waits for the one before it: elaborated side by side, they would hold a thread each.
set_option Elab.async false

/-! ## What is kept by everything but a Period itself

A property of memory, of the snapshot and of the objects of the Period is kept by every unit that writes memory word by word and reaches no object of
the Period (index 0x2680). -/

/-- The objects that a Period numbers and times. -/
abbrev PeriodObject (k : Nat) : Prop := k / 256 = 0x2680

/-- R is kept by words written and by objects written outside the Period's, and by whatever leaves memory and the dictionary alone. -/
structure UnitClosed (R : Pkg → Prop) : Prop where
  same : ∀ {q r : Pkg}, R q → r.mem = q.mem → r.dict = q.dict → (hgrown : Grown q r := by exact ⟨List.prefix_rfl, List.prefix_rfl⟩) → R r
  reg : ∀ {q : Pkg} {k : Nat} (v : Nat), ¬ PeriodObject k → R q → R (q.setReg k v)
  setWord : ∀ {q : Pkg} (a : Nat) (w : PWord), R q → R (q.setWord a w)

theorem setTile_grown (q : Pkg) (n : Nat) (x : Tile) : Grown q (q.setTile n x) := ⟨List.prefix_rfl, List.prefix_rfl⟩

theorem flood_grown (q : Pkg) (type dst : Nat) (payload : List Nat) : Grown q (q.flood type dst payload) := by
  obtain ⟨l, hl⟩ := flood_eq q type dst payload
  rw [hl]
  exact ⟨List.prefix_rfl, List.prefix_append _ _⟩

namespace UnitClosed

open CoreClosed (ite foldl foldl_of)

section
variable {R : Pkg → Prop} {q : Pkg} (hR : UnitClosed R)
include hR

theorem agent : AgentClosed R where
  same h hr hgrown := by
    have hmem := congrArg Pkg.mem hr
    have hdict := congrArg Pkg.dict hr
    exact hR.same h hmem hdict hgrown
  reg v hk h := hR.reg v (by rcases hk with hk | rfl | rfl <;> [omega; decide; decide]) h
  setWord := hR.setWord

theorem setReg {k : Nat} (hk : ¬ PeriodObject k) (v : Nat) (h : R q) : R (q.setReg k v) := hR.reg v hk h

theorem bump {k : Nat} (hk : ¬ PeriodObject k) (n : Nat) (h : R q) : R (q.bump k n) := hR.reg _ hk h

/-- The objects of the units lie above index 0x3000, each with any number of entries. -/
theorem setRegAbove {a : Nat} (ha : 0x300000 ≤ a) (i v : Nat) (h : R q) : R (q.setReg (a + i) v) := hR.reg v (by unfold PeriodObject; omega) h

theorem raise (code unit arg : Nat) (h : R q) : R (q.raise code unit arg) := hR.same h rfl rfl (raise_grown ..)

theorem emit (o : Out) (h : R q) : R (q.emit o) := hR.same h rfl rfl (emit_grown ..)

theorem fresh (h : R q) : R q.fresh.2 := hR.same h rfl rfl

theorem flood (type dst : Nat) (payload : List Nat) (h : R q) : R (q.flood type dst payload) :=
  hR.same h (flood_mem ..) (flood_dict ..) (flood_grown ..)

theorem addSlip (x : Slip) (h : R q) : R (q.addSlip x) := by
  obtain ⟨l, hl⟩ := addSlip_eq q x
  rw [hl]
  exact hR.same h rfl rfl

theorem setErrBit (i : Nat) (b : Bool) (h : R q) : R (q.setErrBit i b) := ite h (hR.setReg (by decide) _ h)

theorem declareFailed (h : R q) : R q.declareFailed := by
  cases hf : q.failed with
  | true => rwa [declareFailed_again q hf]
  | false =>
    rw [declareFailed_eq q hf]
    exact hR.same (hR.setErrBit 0 true (hR.raise 0x4805 noUnit 0 (hR.flood 0x21 0 _ h))) rfl rfl

/-! ### The spare subset (R32, R281, R395) -/

theorem retireTile (n : Nat) (h : R q) : R (retireTile q n) := by
  have hretired : R { q.setReg (O.tileState + n) 3 with retired := q.retired.put false n true } :=
    hR.same (hR.setRegAbove (by decide) n 3 h) rfl rfl
  exact ite (hR.declareFailed hretired) hretired

theorem freeRange (a n : Nat) (h : R q) : R (q.freeRange a n) :=
  foldl (fun _ _ hq => hR.setWord _ _ (hR.fresh (hR.fresh hq))) _ h

theorem freeStore (n : Nat) (h : R q) : R (q.freeStore n) := by
  unfold Pkg.freeStore
  generalize List.range (1024 * 32) = rows
  refine foldl (fun p k hp => ?_) rows h
  dsimp only
  exact hR.same (hR.fresh (hR.fresh hp)) (setTile_mem ..) (setTile_dict ..) (setTile_grown ..)

theorem freshTile (n : Nat) (h : R q) : R (q.freshTile n) :=
  hR.same (hR.freeRange _ _ (hR.freeStore n h)) (setTile_mem ..) (setTile_dict ..) (setTile_grown ..)

theorem reloadTiles {i : Image} {f : Nat → Bool} {r : Pkg} (hload : q.reloadTiles i f = some r) (h : R q) : R r := by
  unfold Pkg.reloadTiles at hload
  extract_lets v part get c t at hload
  have hget (p : Pkg) (e : Option PartEnt) (hp : R p) : R (get p e).2 := by
    cases e with
    | none => exact hp
    | some e => exact hR.agent.agentBytes _ _ _ hp
  have ht : R t.2 := hget _ _ (hget _ _ h)
  split at hload
  · rw [Option.map_eq_some_iff] at hload
    obtain ⟨_, _, rfl⟩ := hload
    exact hR.same ht rfl rfl
  · cases hload

theorem rewriteTiles (n : Nat) (h : R q) : R (q.rewriteTiles n) := by
  unfold Pkg.rewriteTiles
  dsimp only
  split
  · exact h
  · split
    · exact h
    · rename_i i _
      refine foldl (fun _ _ hq => hR.freshTile _ hq) _ ?_
      cases hload : q.reloadTiles i fun t => decide (t ∈ rowTiles n) with
      | none => exact h
      | some r => exact hR.reloadTiles hload h

theorem swapCol (r : Nat) (h : R q) : R (q.swapCol r) := by
  unfold Pkg.swapCol
  extract_lets new old out named placed
  have hnamed : R named := by
    have hspare := hR.setRegAbove (a := O.spareCol) (by decide) r new h
    rw [show named = (q.setReg (O.spareCol + r) new).setReg (O.tileState + (13 * r + old)) 0 from by rw [← Nat.add_assoc]]
    exact hR.setRegAbove (by decide) _ 0 hspare
  have hplaced : R placed := ite hnamed (ite (hR.retireTile _ hnamed) (hR.setRegAbove (by decide) _ 1 hnamed))
  exact ite h (ite (hR.raise _ _ _ h) (hR.raise _ _ _ (hR.rewriteTiles r hplaced)))

theorem swapCore (d : Nat) (h : R q) : R (q.swapCore d) := by
  unfold Pkg.swapCore
  extract_lets new old named
  have hnamed : R named := by
    rw [show named = ((q.setReg (O.spareCore + d) new).setReg (O.coreState + (17 * d + new)) 2).setReg (O.coreState + (17 * d + old)) 1 from by
      rw [← Nat.add_assoc, ← Nat.add_assoc]]
    exact hR.setRegAbove (by decide) _ 1 (hR.setRegAbove (by decide) _ 2 (hR.setRegAbove (by decide) d new h))
  exact ite h (ite (hR.raise _ _ _ h) (hR.raise _ _ _ (hR.same hnamed rfl rfl)))

theorem applySubset (h : R q) : R q.applySubset :=
  foldl (fun _ n hp => hR.setRegAbove (a := O.dirSpareWay) (by decide) n _ hp) _
    (foldl (fun _ d hp => hR.swapCore d hp) _ (foldl (fun _ r hp => hR.swapCol r hp) _ h))

theorem keepSubset (h : R q) : R q.keepSubset := ite (hR.raise _ _ _ h) h

/-! ### A swap of the configuration set (R392, R393) -/

theorem takeShadows (keep : List Nat) (h : R q) : R (q.takeShadows keep) := by
  have hkeys : ∀ e ∈ rwsElements, ¬ PeriodObject e.1 := by decide +kernel
  unfold Pkg.takeShadows
  exact List.foldlRecOn _ _ h fun p hp e he => ite hp (hR.setReg (hkeys e he) _ hp)

theorem ringRestart (old : Pkg) {r : Ring} (hwr : ¬ PeriodObject r.wr) (hrd : ¬ PeriodObject r.rd) (h : R q) : R (q.ringRestart old r) :=
  ite h (hR.setReg hrd _ (hR.setReg hwr _ h))

theorem noteScrub (old : Nat) (h : R q) : R (q.noteScrub old) := by
  unfold Pkg.noteScrub
  exact ite h (ite (hR.same h rfl rfl) (foldl (f := Pkg.restartCounts) (fun _ _ hp => hR.same hp rfl rfl) _ (hR.same h rfl rfl)))

theorem beginOpChange (div : Nat) (h : R q) : R (q.beginOpChange div) := by
  unfold Pkg.beginOpChange
  refine ite h (ite (hR.same h rfl rfl) (List.foldlRecOn _ _ (hR.same h rfl rfl) fun p hp d hd => ?_))
  have hoff : ¬ PeriodObject (O.interlockHolds + d) := by
    rw [List.mem_range] at hd
    simp only [PeriodObject, O.interlockHolds]
    omega
  have hcommand : R (p.commandVdd d (p.vddOf d div)) := hR.emit _ (hR.same hp rfl rfl)
  exact ite (hR.raise _ _ _ (hR.bump hoff 1 (hR.same hcommand rfl rfl))) hcommand

theorem takeDivisor (div : Nat) (h : R q) : R (q.takeDivisor div) := by
  unfold Pkg.takeDivisor
  extract_lets told
  have htold : R told := ite (hR.raise _ _ _ h) h
  exact ite htold (hR.addSlip _ (hR.beginOpChange div htold))

theorem extend (r source type data : Nat) (d : List Byte) (h : R q) : R (q.extend r source type data d) := by
  unfold Pkg.extend
  extract_lets old n _ measured counted _ dropped
  have hcounted : R counted := hR.bump (by decide) _ (hR.same h rfl rfl)
  have hdropped : R dropped := hR.bump (by decide) _ hcounted
  exact ite (hR.same hcounted rfl rfl) (ite (hR.raise _ _ _ hdropped) hdropped)

theorem applySet (gen : Nat) (div : Option Nat) (h : R q) : R (q.applySet gen div) := by
  unfold Pkg.applySet
  extract_lets held taken restarted chosen counted measured
  have hrestarted : R restarted :=
    hR.noteScrub _ (hR.ringRestart q (by decide) (by decide) (hR.ringRestart q (by decide) (by decide) (hR.takeShadows _ h)))
  have hchosen : R chosen := by
    cases div with
    | some d => exact hR.takeDivisor d (hR.setReg (by decide) d hrestarted)
    | none => exact hR.beginOpChange _ (hR.setReg (by decide) _ hrestarted)
  have hcounted : R counted := hR.bump (by decide) 1 (hR.setReg (by decide) 0 (hR.setReg (by decide) gen hchosen))
  have hmeasured : R measured := hR.raise _ _ _ (hR.extend _ _ _ _ _ hcounted)
  exact ite (hR.raise _ _ _ hmeasured) hmeasured

theorem domainSwap (a : Announce) (h : R q) : R (q.domainSwap a) := by
  unfold Pkg.domainSwap
  extract_lets _ done
  have hdone : R done := hR.same h rfl rfl
  exact ite (hR.raise _ _ _ (hR.bump (by decide) 1 (ite (hR.setReg (by decide) 2 hdone) hdone))) (hR.applySet _ _ hdone)

/-! ### A save point begins (R343 to R346) -/

theorem countFailures (i : Image) (h : R q) : R (q.countFailures i) := hR.setReg (by decide) _ (hR.same h rfl rfl)

theorem secureInterval (i : Image) (x : SecPart) (h : R q) : R (q.secureInterval i x) := by
  unfold Pkg.secureInterval
  extract_lets counted c f sOpt l k
  have hcounted : R counted := hR.countFailures i h
  exact ite (hR.raise _ _ _ (hR.setReg (by decide) 1 hcounted)) (hR.setReg (by decide) _ hcounted)

theorem sampleSwaps (i : Image) (h : R q) : R (q.sampleSwaps i) := by
  unfold Pkg.sampleSwaps
  extract_lets l
  refine ite h ?_
  split
  · exact hR.raise _ _ _ (hR.setReg (by decide) 0 (hR.setReg (by decide) _ h))
  · exact hR.same h rfl rfl

theorem chooseMethods (x : SecPart) (h : R q) : R (q.chooseMethods x).2 := by
  unfold Pkg.chooseMethods
  refine foldl_of (fun acc e hacc => ?_) _ h
  dsimp only
  split
  · exact hacc
  · exact hR.fresh (hR.fresh hacc)

theorem protWrite (x : SecPart) (which base off : Nat) (b : List Byte) (h : R q) : R (q.protWrite x which base off b) :=
  foldl (fun _ _ hp => hR.agent.sendLine _ _ _ _ _ hp) _ (hR.agent.agentWrite _ _ _ h)

theorem writeSysBody (x : SecPart) (cfg : List Byte) (h : R q) : R (q.writeSysBody x cfg) :=
  hR.protWrite _ _ _ _ _ (hR.protWrite _ _ _ _ _ h)

theorem ringMode (mode : Nat) (h : R q) : R (q.ringMode mode) := hR.agent.agentWrite _ _ _ h

theorem beginSave (i : Image) (x : SecPart) (cfg : List Byte) (h : R q) : R (q.beginSave i x cfg) := by
  unfold Pkg.beginSave
  extract_lets noted sampled m written d0 _ _ _ held _ timed marked b flooded _
  have hnoted : R noted := hR.raise _ _ _ (hR.secureInterval i x h)
  have hwritten : R written := hR.writeSysBody x cfg (hR.chooseMethods x (hR.sampleSwaps i hnoted))
  have hheld : R held := hR.same hwritten rfl rfl
  have htimed : R timed := hR.same hheld rfl rfl
  have hmarked : R marked := hR.ringMode 0 (hR.setReg (by decide) 1 htimed)
  have hflooded : R flooded := hR.flood _ _ _ hmarked
  clear_value flooded
  split
  · exact hR.same hflooded rfl rfl
  · exact hmarked

end

end UnitClosed

end Sys2Proof.Machine

namespace Sys2Proof.Machine

/-! ## Swaps announced and locked (R392) -/

/-- A package with the same memory gives a state whose bytes are the same. -/
theorem sameMemory_settle {s : State} {q : Pkg} (h : q.mem = s.pkg.mem) : SameMemory s (s.settle q) := fun a => congrArg (SMap.at 0 a) h

theorem sameRegsBut_settle {s : State} {q : Pkg} {out : Nat → Prop} (h : ∀ k, ¬ out k → q.reg k = s.pkg.reg k) :
    SameRegsBut out s (s.settle q) := h

theorem sameRegs_settle {s : State} {q : Pkg} (h : ∀ k, q.reg k = s.pkg.reg k) : SameRegs s (s.settle q) := h

/-- A lock changes at most the arming state. -/
theorem tryLock_changes (p : Pkg) : p.tryLock = p ∨ p.tryLock = p.setReg O.cfgArmState 3 := by
  unfold Pkg.tryLock
  split
  · split
    · exact .inr rfl
    · exact .inl rfl
  · exact .inl rfl

/-- R392: a package armed with the generation of the announcement locks before the cut-off. -/
theorem tryLock_announced (p : Pkg) (a : Announce) (i : Image) (hann : p.cfg.announce = some a) (himg : p.posImage = some i) :
    p.tryLock = if p.reg O.cfgArmState = 2 ∧ p.reg O.cfgArmGen = a.gen ∧ p.schedBeat + i.slipHorizon < a.beat then p.setReg O.cfgArmState 3 else p := by
  unfold Pkg.tryLock
  rw [hann, himg]

theorem takeAnnouncement_keeps (p : Pkg) (gen d b : Nat) :
    (p.takeAnnouncement gen d b).cfg.announce = some ⟨gen, d, b, false⟩ ∧ (p.takeAnnouncement gen d b).out = p.out ∧
      (p.takeAnnouncement gen d b).mem = p.mem ∧ ∀ k, k ≠ O.cfgArmState → (p.takeAnnouncement gen d b).reg k = p.reg k := by
  unfold Pkg.takeAnnouncement
  rcases tryLock_changes (p.setCfg { p.cfg with announce := some ⟨gen, d, b, false⟩ }) with h | h <;> rw [h]
  · exact ⟨rfl, rfl, rfl, fun _ _ => rfl⟩
  · exact ⟨rfl, rfl, rfl, fun k hk => reg_setReg_other _ _ _ _ hk⟩

theorem takeAnnouncement_locks (p : Pkg) (gen d b : Nat) (i : Image) (himg : p.posImage = some i) :
    (p.takeAnnouncement gen d b).reg O.cfgArmState =
      if p.reg O.cfgArmState = 2 ∧ p.reg O.cfgArmGen = gen ∧ p.schedBeat + i.slipHorizon < b then 3 else p.reg O.cfgArmState := by
  have hlock := tryLock_announced (p.setCfg { p.cfg with announce := some ⟨gen, d, b, false⟩ }) ⟨gen, d, b, false⟩ i rfl himg
  rw [Pkg.takeAnnouncement, hlock, apply_ite (fun q : Pkg => q.reg O.cfgArmState), reg_setReg_self]
  rfl

theorem le_of_nextSwapBeat {p : Pkg} {i : Image} {b x : Nat} (h : nextSwapBeat p i b = some x) : b ≤ x := by
  unfold nextSwapBeat at h
  dsimp only at h
  split at h
  · cases h
  · have hle := List.find?_some h
    exact le_trans (le_max_left _ _) (of_decide_eq_true hle)

theorem objAt_cfgSwapGen : objAt O.cfgSwapGen = some ⟨O.cfgSwapGen, 1, 1, 1, 4, .wo, 0, 0xFFFFFFFF, false⟩ := by decide +kernel

theorem swapGen_announces (s : State) (pt : Path) (v b : Nat) (i : Image) (hruns : s.Runs (pathPlane pt)) (hv : v < 2 ^ 32)
    (himg : s.pkg.posImage = some i) (hst : s.pkg.reg O.imageState = 4) (hmaster : s.pkg.isMaster = true) (hann : s.pkg.cfg.announce = none)
    (hbeat : nextSwapBeat s.pkg i (s.pkg.schedBeat + 2 * i.slipHorizon) = some b) :
    ∃ t, exec (.cfgSwapGen pt v) s = .next t ∧ t.pkg.cfg.announce = some ⟨v, s.pkg.shadowReg O.aclkDivisor, b, false⟩ ∧
      s.pkg.schedBeat + 2 * i.slipHorizon ≤ b ∧
      t.pkg.out = s.pkg.out ++ [.class0 ⟨0x40, s.pkg.reg O.domainPhysId, 0, (s.pkg.sched.originSeq + 1) % 2 ^ 32,
        [v, s.pkg.shadowReg O.aclkDivisor, b]⟩] ∧ SameMemory s t ∧ SameRegsBut (fun k => k = O.cfgArmState) s t := by
  have hexec : exec (.cfgSwapGen pt v) s = execCfgSwapGen pt v s := rfl
  have hmax : v ≤ 0xFFFFFFFF := by omega
  rw [hexec, execCfgSwapGen, on_runs s _ _ hruns, Pkg.cfgSwapWrite,
    objWrite_in_range objAt_cfgSwapGen (Nat.zero_le v) hmax]
  dsimp only
  rw [himg]
  dsimp only
  rw [if_neg (by simp [hst, hmaster, hann]), hbeat]
  dsimp only
  obtain ⟨hannounce, hout, hmem, hregs⟩ := takeAnnouncement_keeps (s.pkg.flood 0x40 0 [v, s.pkg.shadowReg O.aclkDivisor, b]) v
    (s.pkg.shadowReg O.aclkDivisor) b
  generalize (s.pkg.flood 0x40 0 [v, s.pkg.shadowReg O.aclkDivisor, b]).takeAnnouncement v (s.pkg.shadowReg O.aclkDivisor) b = q at *
  exact ⟨_, rfl, hannounce, le_of_nextSwapBeat hbeat, hout.trans (flood_out ..), sameMemory_settle (hmem.trans (flood_mem ..)),
    sameRegsBut_settle fun k hk => (hregs k hk).trans (flood_reg ..)⟩

theorem announcement_locks (s : State) (x : C0In) (gen d b : Nat) (i : Image) (hruns : s.Runs .link) (hnew : IsNew x s.pkg)
    (himg : s.pkg.posImage = some i) (hst : s.pkg.reg O.imageState = 4) :
    ∃ t, exec (.swapAnnouncement x gen d b) s = .next t ∧ t.pkg.cfg.announce = some ⟨gen, d, b, false⟩ ∧
      t.pkg.reg O.cfgArmState = (if s.pkg.reg O.cfgArmState = 2 ∧ s.pkg.reg O.cfgArmGen = gen ∧ s.pkg.schedBeat + i.slipHorizon < b
        then 3 else s.pkg.reg O.cfgArmState) ∧ SameMemory s t ∧ SameRegsBut (fun k => k = O.cfgArmState) s t := by
  have hexec : exec (.swapAnnouncement x gen d b) s = execSwapAnnouncement x gen d b s := rfl
  rw [hexec, execSwapAnnouncement, on_runs s _ _ hruns]
  rw [floodIn_new hnew, forwarded_reg, if_pos hst]
  have himg' : (forwarded x 0x40 [gen, d, b] s.pkg).posImage = some i := by
    rw [Pkg.posImage, forwarded_failed, forwarded_reg, forwarded_loader]
    exact himg
  obtain ⟨hannounce, -, hmem, hregs⟩ := takeAnnouncement_keeps (forwarded x 0x40 [gen, d, b] s.pkg) gen d b
  refine ⟨_, rfl, hannounce, ?_, sameMemory_settle (hmem.trans (forwarded_mem ..)),
    sameRegsBut_settle fun k hk => (hregs k hk).trans (forwarded_reg ..)⟩
  rw [settle_pkg, takeAnnouncement_locks _ gen d b i himg', Pkg.schedBeat, Pkg.schedBeat]
  simp only [forwarded_reg]

theorem markRefused_announced {p : Pkg} {a : Announce} (h : p.cfg.announce = some a) :
    p.markRefused.cfg.announce = some { a with refused := true } := by
  rw [Pkg.markRefused, h]
  rfl

theorem markRefused_mem (p : Pkg) : p.markRefused.mem = p.mem := rfl
theorem markRefused_reg (p : Pkg) (k : Nat) : p.markRefused.reg k = p.reg k := rfl

theorem swapCutoff_refuses (s : State) (a : Announce) (i : Image) (hruns : s.Runs .management) (hann : s.pkg.cfg.announce = some a)
    (himg : s.pkg.posImage = some i) (hbeat : a.beat ≤ s.pkg.schedBeat + i.slipHorizon) (hst : s.pkg.reg O.cfgArmState ≠ 3)
    (hopen : a.refused = false) :
    ∃ t, exec .swapCutoff s = .next t ∧ t.pkg.cfg.announce = some { a with refused := true } ∧ SameMemory s t ∧ SameRegs s t := by
  have hexec : exec .swapCutoff s = execSwapCutoff s := rfl
  rw [hexec, execSwapCutoff, on_runs s _ _ hruns, hann, himg]
  dsimp only
  rw [if_neg (by rintro (h | h | h) <;> [omega; exact hst h; exact absurd (hopen.symm.trans h) (by decide)])]
  have hflood := flood_eq s.pkg 0x41 0 [s.pkg.reg O.logicalPosition]
  refine ⟨_, rfl, markRefused_announced ?_, sameMemory_settle ((markRefused_mem _).trans (flood_mem ..)),
    sameRegs_settle fun k => (markRefused_reg _ k).trans (flood_reg ..)⟩
  obtain ⟨l, hl⟩ := hflood
  rw [hl]
  exact hann

theorem swapRefusal_marks (s : State) (x : C0In) (position : Nat) (a : Announce) (hruns : s.Runs .link) (hnew : IsNew x s.pkg)
    (hann : s.pkg.cfg.announce = some a) :
    ∃ t, exec (.swapRefusal ⟨x, position⟩) s = .next t ∧ t.pkg.cfg.announce = some { a with refused := true } ∧ SameMemory s t ∧ SameRegs s t := by
  have hexec : exec (.swapRefusal ⟨x, position⟩) s = execSwapRefusal ⟨x, position⟩ s := rfl
  rw [hexec, execSwapRefusal, on_runs s _ _ hruns]
  dsimp only
  rw [floodIn_new hnew]
  refine ⟨_, rfl, markRefused_announced ?_, sameMemory_settle ((markRefused_mem _).trans (forwarded_mem ..)),
    sameRegs_settle fun k => (markRefused_reg _ k).trans (forwarded_reg ..)⟩
  rw [forwarded_cfg, hann]

/-! ## Periods (R398, R400, R401) -/

/-- q shows a Period that p takes: its number, its beats, and the number in the snapshot. -/
structure ShowsPeriod (p q : Pkg) : Prop where
  seq : q.reg O.periodSeq = (p.reg O.periodSeq + 1) % 2 ^ 64
  beat : q.reg O.periodBeat = p.reg O.domainBeat
  sched : q.reg O.periodSchedBeat = p.schedBeat
  snap : q.dict.snap.at 0 O.periodSeq = (p.reg O.periodSeq + 1) % 2 ^ 64

theorem showsPeriod_closed (p : Pkg) : UnitClosed (ShowsPeriod p) where
  same h _ hdict _ := ⟨(reg_of_dict hdict _).trans h.seq, (reg_of_dict hdict _).trans h.beat, (reg_of_dict hdict _).trans h.sched, by rw [hdict, h.snap]⟩
  reg {q k} v hk h := by
    have hother (j : Nat) (hj : PeriodObject j) : (q.setReg k v).reg j = q.reg j := reg_setReg_other _ _ _ _ fun hjk => hk (hjk ▸ hj)
    exact ⟨(hother _ (by decide)).trans h.seq, (hother _ (by decide)).trans h.beat, (hother _ (by decide)).trans h.sched, h.snap⟩
  setWord {q} a w h := by
    have hdict := setWord_dict q a w
    exact ⟨(reg_of_dict hdict _).trans h.seq, (reg_of_dict hdict _).trans h.beat, (reg_of_dict hdict _).trans h.sched, by rw [hdict, h.snap]⟩

/-- R401: the Period's number, its beats and its kind. -/
def Pkg.numberPeriod (p : Pkg) (kind : Nat) : Pkg :=
  (((p.setReg O.periodSeq ((p.reg O.periodSeq + 1) % 2 ^ 64)).setReg O.periodBeat (p.reg O.domainBeat)).setReg
    O.periodSchedBeat p.schedBeat).setReg O.periodKind kind

theorem latchSnapshot_reg (p : Pkg) (k : Nat) : p.latchSnapshot.reg k = p.reg k := rfl

theorem snapshot_periodSeq (p : Pkg) : p.latchSnapshot.dict.snap.at 0 O.periodSeq = p.reg O.periodSeq := by
  have hkey : latchedKey (O.periodSeq, 0) = true := by simp [latchedKey]
  have hlatched : latchedKey = fun e : Nat × Nat => latchedKey (e.1, 0) := rfl
  rw [Pkg.latchSnapshot, hlatched]
  exact (at_filter_keys 0 (fun k => latchedKey (k, 0)) O.periodSeq p.dict.act).trans (if_pos hkey)

theorem numbered_showsPeriod (p : Pkg) (kind : Nat) :
    ShowsPeriod p (p.numberPeriod kind).latchSnapshot := by
  have hseq : (p.numberPeriod kind).reg O.periodSeq = (p.reg O.periodSeq + 1) % 2 ^ 64 := by
    rw [Pkg.numberPeriod, reg_setReg_other _ _ _ _ (by decide), reg_setReg_other _ _ _ _ (by decide), reg_setReg_other _ _ _ _ (by decide),
      reg_setReg_self]
  have hbeat : (p.numberPeriod kind).reg O.periodBeat = p.reg O.domainBeat := by
    rw [Pkg.numberPeriod, reg_setReg_other _ _ _ _ (by decide), reg_setReg_other _ _ _ _ (by decide), reg_setReg_self]
  have hsched : (p.numberPeriod kind).reg O.periodSchedBeat = p.schedBeat := by
    rw [Pkg.numberPeriod, reg_setReg_other _ _ _ _ (by decide), reg_setReg_self]
  exact ⟨(latchSnapshot_reg ..).trans hseq, (latchSnapshot_reg ..).trans hbeat, (latchSnapshot_reg ..).trans hsched,
    (snapshot_periodSeq _).trans hseq⟩

theorem setHost_grown (p : Pkg) (x : HostUnit) : Grown p (p.setHost x) := ⟨List.prefix_rfl, List.prefix_rfl⟩
theorem setCfg_grown (p : Pkg) (x : Cfg) : Grown p (p.setCfg x) := ⟨List.prefix_rfl, List.prefix_rfl⟩
theorem grown_with_memsys (p : Pkg) (m : MemSys) : Grown p { p with memsys := m } := ⟨List.prefix_rfl, List.prefix_rfl⟩
theorem grown_with_links (p : Pkg) (l : Links) : Grown p { p with links := l } := ⟨List.prefix_rfl, List.prefix_rfl⟩
theorem mem_with_memsys (p : Pkg) (m : MemSys) : ({ p with memsys := m } : Pkg).mem = p.mem := rfl
theorem mem_with_links (p : Pkg) (l : Links) : ({ p with links := l } : Pkg).mem = p.mem := rfl

/-- R392, R393: the swap that a Period carries out, of an announcement or of this package alone. -/
def Pkg.swapDue (p : Pkg) (ann : Option Announce) (lswap : Bool) : Pkg :=
  match ann with
  | some a => p.domainSwap a
  | none => if lswap then (p.setCfg { p.cfg with localSwap := false }).applySet (p.reg O.cfgArmGen) none else p

/-- R343: the save point that a Period takes. -/
def Pkg.saveDue (p : Pkg) (point : Bool) : Pkg :=
  match point, p.posImage, p.securing with
  | true, some i, some x => p.beginSave i x p.activeImage
  | _, _, _ => p

namespace UnitClosed

variable {R : Pkg → Prop} {q : Pkg} (hR : UnitClosed R)
include hR

theorem swapDue (ann : Option Announce) (lswap : Bool) (h : R q) : R (q.swapDue ann lswap) := by
  unfold Pkg.swapDue
  split
  · exact hR.domainSwap _ h
  · exact CoreClosed.ite (hR.applySet _ _ (hR.same h (setCfg_mem ..) (setCfg_dict ..) (setCfg_grown ..))) h

theorem saveDue (point : Bool) (h : R q) : R (q.saveDue point) := by
  unfold Pkg.saveDue
  split
  · exact hR.beginSave _ _ _ h
  · exact h

end UnitClosed

/-- What the numbered and latched package has, a Period keeps. -/
theorem UnitClosed.takePeriod {R : Pkg → Prop} (hR : UnitClosed R) (p : Pkg) (e : Option ProgEntry) (loc : Bool)
    (h : ∀ kind, R (p.numberPeriod kind).latchSnapshot) : R (p.takePeriod e loc) := by
  unfold Pkg.takePeriod
  extract_lets runs point subset ann lswap swaps kind numbered latched _ forgot _ seen _ retried _ scheduled _ opened spared cfg swapped saved
  have hlatched : R latched := h kind
  have hforgot : R forgot := hR.same hlatched (setHost_mem latched _) (setHost_dict latched _) (setHost_grown latched _)
  have hseen : R seen := hR.same hforgot (mem_with_memsys forgot _) (dict_with_memsys forgot _) (grown_with_memsys forgot _)
  have hretried : R retried := hR.same hseen (mem_with_links seen _) (dict_with_links seen _) (grown_with_links seen _)
  have hscheduled : R scheduled := CoreClosed.ite (R := R) (hR.same hretried (setCfg_mem ..) (setCfg_dict ..) (setCfg_grown ..)) hretried
  have hopened : R opened := CoreClosed.ite (R := R) (hR.same hscheduled (setCfg_mem ..) (setCfg_dict ..) (setCfg_grown ..)) hscheduled
  have hspared : R spared := CoreClosed.ite (R := R) (hR.applySubset hopened) (hR.keepSubset hopened)
  have hswapped : R swapped := hR.swapDue ann lswap hspared
  have hsaved : R saved := hR.saveDue point hswapped
  exact CoreClosed.ite (R := R) (hR.emit _ hsaved) hsaved

theorem takePeriod_shows (p : Pkg) (e : Option ProgEntry) (loc : Bool) : ShowsPeriod p (p.takePeriod e loc) :=
  (showsPeriod_closed p).takePeriod p e loc (numbered_showsPeriod p)

theorem period_numbered (s : State) (hruns : s.Runs .management) (hdue : s.pkg.periodEntry.isSome ∨ s.pkg.localDue = true) :
    ∃ t, exec .period s = .next t ∧ t.pkg.reg O.periodSeq = (s.pkg.reg O.periodSeq + 1) % 2 ^ 64 ∧
      t.pkg.reg O.periodBeat = s.pkg.reg O.domainBeat ∧ t.pkg.reg O.periodSchedBeat = s.pkg.schedBeat ∧
      t.pkg.dict.snap.at 0 O.periodSeq = (s.pkg.reg O.periodSeq + 1) % 2 ^ 64 := by
  have hexec : exec .period s = execPeriod s := rfl
  rw [hexec, execPeriod, on_runs s _ _ hruns, Pkg.firePeriod, if_pos hdue]
  obtain ⟨hseq, hbeat, hsched, hsnap⟩ := takePeriod_shows s.pkg s.pkg.periodEntry s.pkg.localDue
  exact ⟨_, rfl, hseq, hbeat, hsched, hsnap⟩

/-- R400: in PS0 a local Period waits for its beat. -/
theorem localNow_waits {p : Pkg} (h : p.reg O.psCurrent = 0) : p.localNow = p := if_neg (not_not.mpr h)

theorem periodTimer_fires (s : State) (k : Nat) (hruns : s.Runs .management) (hps : s.pkg.reg O.psCurrent = 0)
    (howner : s.pkg.reg O.periodTimerOwner ≠ 0) (hstep : s.pkg.reg O.periodIntervalMs ≠ 0)
    (hk : k = (s.pkg.mtime - s.pkg.cfg.timerClaim) / (s.pkg.reg O.periodIntervalMs * 100000)) (hfired : s.pkg.cfg.timerFired < k) :
    Does .periodTimerFire s (s.pkg.setCfg { s.pkg.cfg with timerFired := k, pendTimer := true }) := by
  have hexec : exec .periodTimerFire s = execPeriodTimerFire s := rfl
  rw [Does, hexec, execPeriodTimerFire, on_runs s _ _ hruns]
  dsimp only
  rw [if_neg (c := s.pkg.reg O.periodIntervalMs * 100000 = 0) (by omega), ← hk,
    if_neg (by rintro (h | h) <;> [exact howner h; omega])]
  exact congrArg (fun q => Host.Outcome.next (s.settle q)) (localNow_waits hps)

theorem objAt_periodRequest : objAt O.periodRequest = some ⟨O.periodRequest, 1, 1, 1, 1, .wo, 1, 1, false⟩ := by decide +kernel

theorem periodRequest_waits (s : State) (pt : Path) (hruns : s.Runs (pathPlane pt)) (hps : s.pkg.reg O.psCurrent = 0) :
    Does (.periodRequest pt 1) s (s.pkg.setCfg { s.pkg.cfg with pendRequest := true }) := by
  have hexec : exec (.periodRequest pt 1) s = execPeriodRequest pt 1 s := rfl
  rw [Does, hexec, execPeriodRequest, on_runs s _ _ hruns, Pkg.periodRequestWrite,
    objWrite_in_range objAt_periodRequest (Nat.le_refl 1) (Nat.le_refl 1), if_pos rfl]
  exact congrArg (fun q => Host.Outcome.next (s.settle q)) (localNow_waits hps)

theorem periodTimerOwner_claims (s : State) (pt : Path) (v : Nat) (hruns : s.Runs (pathPlane pt)) (hfree : s.pkg.reg O.periodTimerOwner = 0)
    (hv : v ≠ 0) (hmax : v ≤ 3) :
    Does (.periodTimerOwnerWrite pt v) s ((s.pkg.setReg O.periodTimerOwner v).setCfg
      { s.pkg.cfg with timerClaim := s.pkg.mtime, timerFired := 0 }) := by
  have hexec : exec (.periodTimerOwnerWrite pt v) s = execPeriodTimerOwnerWrite pt v s := rfl
  rw [Does, hexec, execPeriodTimerOwnerWrite, on_runs s _ _ hruns, Pkg.timerOwnerWrite, if_neg (Nat.not_lt.mpr hmax)]
  dsimp only
  rw [ownerWrite_accepted s.pkg _ _ v _ _ (.inl hfree), if_pos ⟨hfree, hv⟩]
  rfl

theorem prdOutOwner_claims (s : State) (pt : Path) (v : Nat) (hruns : s.Runs (pathPlane pt)) (hmax : v ≤ 2)
    (hfree : s.pkg.reg O.prdOutOwner = 0 ∨ v = 0) :
    Does (.prdOutOwnerWrite pt v) s (s.pkg.setReg O.prdOutOwner v) := by
  have hexec : exec (.prdOutOwnerWrite pt v) s = execPrdOutOwnerWrite pt v s := rfl
  rw [Does, hexec, execPrdOutOwnerWrite, on_runs s _ _ hruns, Pkg.prdOutOwnerWrite, if_neg (Nat.not_lt.mpr hmax),
    ownerWrite_accepted s.pkg _ _ v _ _ hfree]

/-- Settles O39: the parts of a Period's work after its numbers reach no object of the Period, so they show what it noted. -/
theorem swapsAndPeriods : Obligations.SwapsAndPeriods :=
  ⟨⟨swapGen_announces, announcement_locks, swapCutoff_refuses, swapRefusal_marks⟩,
    period_numbered, periodTimer_fires, periodRequest_waits, periodTimerOwner_claims, prdOutOwner_claims⟩

end Sys2Proof.Machine

namespace Sys2Proof.Machine

/-! ## What port H's buffer and the queues leave alone

Host-bound writes, MSI-X messages, completion records and the queues' states (R317 to R329) reach the host unit, the events, the outputs, the
requests that wait for the loader, and the objects from index 0x4611 on. -/

/-- A package with the parts that the queues and the host-out buffer use as they stand at reset. -/
def Pkg.queueRest (p : Pkg) : Pkg :=
  { p with
    dict := Pkg.reset.dict
    ev := Pkg.reset.ev
    out := []
    loader := { p.loader with reqs := [] }
    host := { p.host with
      queues := []
      hostOut := []
      overflow := false
      msixPending := 0 } }

/-- q is p after writes for the host have been buffered or sent, and queues have changed their state. -/
structure QueueRun (p q : Pkg) : Prop where
  rest : q.queueRest = p.queueRest
  reg : ∀ k, k < 0x461100 → q.reg k = p.reg k
  events : p.ev.inFlight ⊆ q.ev.inFlight

namespace QueueRun

section
variable {p q : Pkg}

theorem refl (p : Pkg) : QueueRun p p := ⟨rfl, fun _ _ => rfl, List.Subset.refl _⟩

theorem trans {r : Pkg} (h : QueueRun p q) (h' : QueueRun q r) : QueueRun p r :=
  ⟨h'.rest.trans h.rest, fun k hk => (h'.reg k hk).trans (h.reg k hk), List.Subset.trans h.events h'.events⟩

theorem mem (h : QueueRun p q) : q.mem = p.mem := by have h' := congrArg Pkg.mem h.rest; exact h'
theorem tiles (h : QueueRun p q) : q.tiles = p.tiles := by have h' := congrArg Pkg.tiles h.rest; exact h'
theorem flushes (h : QueueRun p q) : q.host.flushes = p.host.flushes := by have h' := congrArg (·.host.flushes) h.rest; exact h'
theorem linkUp (h : QueueRun p q) : q.host.linkUp = p.host.linkUp := by have h' := congrArg (·.host.linkUp) h.rest; exact h'
theorem detachedAt (h : QueueRun p q) : q.host.detachedAt = p.host.detachedAt := by have h' := congrArg (·.host.detachedAt) h.rest; exact h'
theorem pciH (h : QueueRun p q) : q.host.pciH = p.host.pciH := by have h' := congrArg (·.host.pciH) h.rest; exact h'

theorem raise (code unit arg : Nat) (h : QueueRun p q) : QueueRun p (q.raise code unit arg) := h.trans ⟨rfl, fun _ _ => rfl, by simp⟩

theorem emit (o : Out) (h : QueueRun p q) : QueueRun p (q.emit o) := h.trans ⟨rfl, fun _ _ => rfl, List.Subset.refl _⟩

theorem setQueue (n : Nat) (x : QueueSt) (h : QueueRun p q) : QueueRun p (q.setQueue n x) :=
  h.trans ⟨rfl, fun _ _ => rfl, List.Subset.refl _⟩

/-- The objects of the host-out buffer and of the queues. -/
theorem setReg {k : Nat} (hk : 0x461100 ≤ k) (v : Nat) (h : QueueRun p q) : QueueRun p (q.setReg k v) :=
  h.trans ⟨rfl, fun j hj => reg_setReg_other _ _ _ _ (by omega), List.Subset.refl _⟩

theorem bump {k : Nat} (hk : 0x461100 ≤ k) (n : Nat) (h : QueueRun p q) : QueueRun p (q.bump k n) := h.setReg hk _

/-- The objects of queue n. -/
theorem setQReg {k : Nat} (hk : 0x461100 ≤ k) (n v : Nat) (h : QueueRun p q) : QueueRun p (q.setReg (qKey k n) v) :=
  h.setReg (hk.trans (Nat.le_add_right _ _)) v

theorem ite {r : Pkg} {c : Prop} [Decidable c] (ht : QueueRun p q) (he : QueueRun p r) : QueueRun p (if c then q else r) := by
  split
  · exact ht
  · exact he

theorem foldl {α : Type} {f : Pkg → α → Pkg} (hf : ∀ q a, QueueRun p q → QueueRun p (f q a)) (l : List α) (h : QueueRun p q) :
    QueueRun p (l.foldl f q) := foldl_invariant (QueueRun p) hf l h

theorem bufferTlp (t : HostTlp) (h : QueueRun p q) : QueueRun p (q.bufferTlp t) := by
  unfold Pkg.bufferTlp
  extract_lets n _ overflowed noted
  have hover : QueueRun p overflowed := by
    have hset : QueueRun p (q.setHost { q.host with overflow := true }) := h.trans ⟨rfl, fun _ _ => rfl, List.Subset.refl _⟩
    exact ite h ((hset.setReg (by decide) 1).raise _ _ _)
  have hnoted : QueueRun p noted := by
    cases t with
    | write a b x => exact hover
    | record n a b tag => exact hover.setQueue _ _
  have hjoined : QueueRun p (q.setHost { q.host with hostOut := q.host.hostOut ++ [t] }) := h.trans ⟨rfl, fun _ _ => rfl, List.Subset.refl _⟩
  exact ite ((hnoted.bump (by decide) 1).setReg (by decide) _) (hjoined.setReg (by decide) _)

theorem sendMsix (v : Nat) (h : QueueRun p q) : QueueRun p (q.sendMsix v) :=
  ite h (ite (h.trans ⟨rfl, fun _ _ => rfl, List.Subset.refl _⟩) (h.emit _))

theorem showQueue (n : Nat) (h : QueueRun p q) : QueueRun p (q.showQueue n) := h.setQReg (by decide) n _

theorem complete (n seq status result : Nat) (h : QueueRun p q) : QueueRun p (q.complete n seq status result) :=
  ite h ((h.setQueue _ _).showQueue n)

theorem beginDisable (n : Nat) (h : QueueRun p q) : QueueRun p (q.beginDisable n) := by
  unfold Pkg.beginDisable
  extract_lets x begun reqs y _ ended
  have hbegun : QueueRun p begun := (h.setQueue _ _).setQReg (by decide) n 0
  have hended : QueueRun p ended := by
    refine ite ?_ (ite ((hbegun.setQueue _ _).emit _) ?_)
    · exact foldl (fun _ _ hq => hq.complete _ _ _ _) _ (hbegun.trans ⟨rfl, fun _ _ => rfl, List.Subset.refl _⟩)
    · exact foldl_invariant (fun acc : Pkg × Nat => QueueRun p acc.1) (fun _ _ hacc => hacc.complete _ _ _ _) _ (hbegun.setQueue _ _)
  exact ite h (hended.showQueue n)

end

end QueueRun

/-! ### A detach (R328) -/

/-- q is p, detached or not: what a detach leaves. -/
structure DetachKept (p q : Pkg) : Prop where
  mem : q.mem = p.mem
  tiles : q.tiles = p.tiles
  linkUp : q.host.linkUp = p.host.linkUp
  pciH : q.host.pciH = p.host.pciH
  reg : ∀ k, k < 0x461000 → q.reg k = p.reg k
  events : p.ev.inFlight ⊆ q.ev.inFlight

theorem QueueRun.detachKept {p q : Pkg} (h : QueueRun p q) : DetachKept p q :=
  ⟨h.mem, h.tiles, h.linkUp, h.pciH, fun k hk => h.reg k (by omega), h.events⟩

namespace DetachKept

variable {p q : Pkg}

theorem refl (p : Pkg) : DetachKept p p := (QueueRun.refl p).detachKept

theorem trans {r : Pkg} (h : DetachKept p q) (h' : DetachKept q r) : DetachKept p r :=
  ⟨h'.mem.trans h.mem, h'.tiles.trans h.tiles, h'.linkUp.trans h.linkUp, h'.pciH.trans h.pciH, fun k hk => (h'.reg k hk).trans (h.reg k hk),
    List.Subset.trans h.events h'.events⟩

theorem hasEvent (h : DetachKept p q) {code : Nat} (hp : p.HasEvent code) : q.HasEvent code := by
  obtain ⟨r, hr, hcode⟩ := hp
  exact ⟨r, h.events hr, hcode⟩

end DetachKept

/-- R328: the session is held, with its event. -/
def Pkg.holdSession (p : Pkg) : Pkg := ((p.setReg O.sessionState 2).setHost { p.host with detachedAt := p.mtime }).raise 0x460A noUnit 0

theorem holdSession_kept (p : Pkg) : DetachKept p p.holdSession :=
  ⟨rfl, rfl, rfl, rfl, fun k hk => reg_setReg_other p k O.sessionState 2 (by simp only [O.sessionState]; omega), by simp [Pkg.holdSession]⟩

/-- What is in flight of a flush read goes back to the buffer. -/
def Pkg.forgetFlushes (p : Pkg) : Pkg := p.setHost { p.host with flushes := [] }

theorem forgetFlushes_kept (p : Pkg) : DetachKept p p.forgetFlushes := ⟨rfl, rfl, rfl, rfl, fun _ _ => rfl, List.Subset.refl _⟩

/-- A detach holds the session, buffers what had not been acknowledged, and buffers the records whose flush read is out. -/
theorem detach_runs (p : Pkg) (u : Nat) (h : p.reg O.sessionState ≠ 2) :
    ∃ q, QueueRun p.holdSession q ∧ QueueRun q.forgetFlushes (p.detach u) := by
  unfold Pkg.detach
  rw [if_neg h]
  extract_lets sent _ held buffered l forgot
  have hbuffered : QueueRun p.holdSession buffered := QueueRun.foldl (fun _ t hq => hq.bufferTlp t) _ (.refl _)
  refine ⟨buffered, hbuffered, QueueRun.foldl (fun q e hq => ?_) _ (.refl _)⟩
  have hrecords : QueueRun _ (e.2.foldl (fun p (u : Unflushed) => p.bufferTlp (.record e.1 u.addr u.body u.tag)) q) :=
    QueueRun.foldl (fun _ u hq => hq.bufferTlp _) _ hq
  exact (hrecords.sendMsix _).showQueue _

theorem detach_kept (p : Pkg) (u : Nat) : DetachKept p (p.detach u) := by
  by_cases h : p.reg O.sessionState = 2
  · rw [Pkg.detach, if_pos h]
    exact .refl p
  · obtain ⟨q, hq, hd⟩ := detach_runs p u h
    exact (((holdSession_kept p).trans hq.detachKept).trans (forgetFlushes_kept q)).trans hd.detachKept

/-- The session that a detach leaves. -/
theorem detach_holds (p : Pkg) (u : Nat) (h : p.reg O.sessionState ≠ 2) : (p.detach u).reg O.sessionState = 2 ∧
    (p.detach u).host.detachedAt = p.mtime ∧ (p.detach u).host.flushes = [] ∧ (p.detach u).HasEvent 0x460A := by
  obtain ⟨q, hq, hd⟩ := detach_runs p u h
  have hstate : p.holdSession.reg O.sessionState = 2 := reg_setReg_self ..
  refine ⟨(hd.reg _ (by decide)).trans ((hq.reg _ (by decide)).trans hstate), hd.detachedAt.trans hq.detachedAt, hd.flushes, ?_⟩
  exact hd.detachKept.hasEvent ((forgetFlushes_kept q).hasEvent (hq.detachKept.hasEvent (hasEvent_raise ..)))

theorem detach_state (p : Pkg) (u : Nat) : (p.detach u).reg O.sessionState = 2 := by
  by_cases h : p.reg O.sessionState = 2
  · rw [Pkg.detach, if_pos h, h]
  · exact (detach_holds p u h).1

/-! ## The links of the ports (R309, R328, R331) -/

theorem resetPci_h_leaves (p : Pkg) : (p.resetPci .h).mem = p.mem ∧ (p.resetPci .h).tiles = p.tiles ∧ (p.resetPci .h).ev = p.ev ∧
    (p.resetPci .h).host.msixTable = [] ∧ (p.resetPci .h).host.pciH = PciFn.reset ∧ (p.resetPci .h).host.linkUp = p.host.linkUp ∧
    (p.resetPci .h).host.detachedAt = p.host.detachedAt ∧ (p.resetPci .h).host.flushes = p.host.flushes ∧
    ∀ k, (p.resetPci .h).reg k = p.reg k := ⟨rfl, rfl, rfl, rfl, rfl, rfl, rfl, rfl, fun _ => rfl⟩

/-- R328: the objects of a link that goes down, and its event where it was up. -/
def Pkg.closeLink (p : Pkg) (i st : Nat) : Pkg :=
  let q := ((p.setReg (O.pcieLinkState + i) st).setReg (O.pcieLinkRate + i) 0).setReg (O.pcieLinkWidth + i) 0
  if p.reg (O.pcieLinkState + i) = 2 then (q.bump (O.pcieLinkDowns + i) 1).raise 0x4601 i 0 else q

theorem linkDown_eq (p : Pkg) (i st u : Nat) : p.linkDown i st u =
    if i = 0 then
      let q := if p.reg (O.pcieLinkState + i) = 2 then (p.closeLink i st).detach u else p.closeLink i st
      q.setHost { q.host with linkUp := false }
    else p.closeLink i st := rfl

theorem closeLink_leaves (p : Pkg) (i st : Nat) (hi : i < 2) : (p.closeLink i st).mem = p.mem ∧ (p.closeLink i st).tiles = p.tiles ∧
    (p.closeLink i st).host = p.host ∧ (p.closeLink i st).mtime = p.mtime ∧ (p.closeLink i st).reg (O.pcieLinkState + i) = st ∧
    ∀ k, 0x460300 ≤ k → (p.closeLink i st).reg k = p.reg k := by
  unfold Pkg.closeLink
  extract_lets q
  have hstate : q.reg (O.pcieLinkState + i) = st := by
    rw [reg_setReg_other _ _ _ _ (by simp only [O.pcieLinkWidth, O.pcieLinkState]; omega),
      reg_setReg_other _ _ _ _ (by simp only [O.pcieLinkRate, O.pcieLinkState]; omega), reg_setReg_self]
  have hregs : ∀ k, 0x460300 ≤ k → q.reg k = p.reg k := fun k hk => by
    rw [reg_setReg_other _ _ _ _ (by simp only [O.pcieLinkWidth]; omega), reg_setReg_other _ _ _ _ (by simp only [O.pcieLinkRate]; omega),
      reg_setReg_other _ _ _ _ (by simp only [O.pcieLinkState]; omega)]
  split
  · refine ⟨rfl, rfl, rfl, rfl, ?_, fun k hk => ?_⟩
    · rw [reg_raise, bump_reg_other _ _ _ _ (by simp only [O.pcieLinkDowns, O.pcieLinkState]; omega), hstate]
    · rw [reg_raise, bump_reg_other _ _ _ _ (by simp only [O.pcieLinkDowns]; omega), hregs k hk]
  · exact ⟨rfl, rfl, rfl, rfl, hstate, hregs⟩

theorem closeLink_counts (p : Pkg) (st : Nat) (hup : p.reg O.pcieLinkState = 2) : (p.closeLink 0 st).HasEvent 0x4601 ∧
    (p.closeLink 0 st).reg O.pcieLinkDowns = min (p.reg O.pcieLinkDowns + 1) (2 ^ 32 - 1) := by
  unfold Pkg.closeLink
  dsimp only
  rw [if_pos (show p.reg (O.pcieLinkState + 0) = 2 from hup)]
  refine ⟨hasEvent_raise _ _ _ _, ?_⟩
  rw [reg_raise]
  refine (bump_reg_self _ _ _).trans ?_
  rw [reg_setReg_other _ _ _ _ (by decide), reg_setReg_other _ _ _ _ (by decide), reg_setReg_other _ _ _ _ (by decide)]

theorem portH_goes_down (s : State) (u : Nat) (hup : s.pkg.reg O.pcieLinkState = 2) (hsession : s.pkg.reg O.sessionState ≠ 2) :
    ∃ t, exec (.pcieLinkDown .h u) s = .next t ∧ t.pkg.reg O.pcieLinkState = 0 ∧ t.pkg.reg O.sessionState = 2 ∧
      t.pkg.host.linkUp = false ∧ t.pkg.host.detachedAt = s.pkg.mtime ∧
      t.pkg.reg O.pcieLinkDowns = min (s.pkg.reg O.pcieLinkDowns + 1) (2 ^ 32 - 1) ∧ RaisedEver t 0x4601 ∧ RaisedEver t 0x460A ∧
      t.pkg.host.flushes = [] ∧ SameMemory s t ∧ t.pkg.tiles = s.pkg.tiles := by
  have hexec : exec (.pcieLinkDown .h u) s = .next (s.settle (s.pkg.linkDown 0 0 u)) := rfl
  rw [hexec, linkDown_eq, if_pos rfl, if_pos (show s.pkg.reg (O.pcieLinkState + 0) = 2 from hup)]
  dsimp only
  obtain ⟨hmem, htiles, -, hmtime, hstate, hregs⟩ := closeLink_leaves s.pkg 0 0 (by decide)
  obtain ⟨hevent, hdowns⟩ := closeLink_counts s.pkg 0 hup
  generalize s.pkg.closeLink 0 0 = p at *
  obtain ⟨hheld, hat, hflushes, hdetached⟩ := detach_holds p u (by rwa [hregs _ (by decide)])
  have hkept := detach_kept p u
  generalize p.detach u = q at *
  exact ⟨_, rfl, (hkept.reg _ (by decide)).trans hstate, hheld, rfl, hat.trans hmtime, (hkept.reg _ (by decide)).trans hdowns,
    hkept.hasEvent hevent, hdetached, hflushes, sameMemory_settle (hkept.mem.trans hmem), hkept.tiles.trans htiles⟩

theorem perst_detaches (s : State) (u : Nat) :
    ∃ t, exec (.perst .h u) s = .next t ∧ t.pkg.reg O.pcieLinkState = 3 ∧ t.pkg.reg O.sessionState = 2 ∧ t.pkg.host.msixTable = [] ∧
      t.pkg.host.linkUp = false ∧ SameMemory s t ∧ t.pkg.tiles = s.pkg.tiles := by
  have hexec : exec (.perst .h u) s = .next (s.settle (((s.pkg.linkDown 0 3 u).detach u).resetPci .h)) := rfl
  rw [hexec, linkDown_eq, if_pos rfl]
  dsimp only
  obtain ⟨hmem, htiles, -, -, hstate, -⟩ := closeLink_leaves s.pkg 0 3 (by decide)
  generalize s.pkg.closeLink 0 3 = p at *
  have hclosed : DetachKept p (if s.pkg.reg (O.pcieLinkState + 0) = 2 then p.detach u else p) := by
    split
    · exact detach_kept p u
    · exact .refl p
  generalize (if s.pkg.reg (O.pcieLinkState + 0) = 2 then p.detach u else p) = q at *
  have hdown : (q.setHost { q.host with linkUp := false }).reg O.pcieLinkState = 3 := (hclosed.reg _ (by decide)).trans hstate
  have hkept := detach_kept (q.setHost { q.host with linkUp := false }) u
  have hheld := detach_state (q.setHost { q.host with linkUp := false }) u
  generalize (q.setHost { q.host with linkUp := false }).detach u = r at *
  obtain ⟨hmem', htiles', -, htable, -, hlink, -, -, hregs⟩ := resetPci_h_leaves r
  exact ⟨_, rfl, (hregs _).trans ((hkept.reg _ (by decide)).trans hdown), (hregs _).trans hheld, htable, hlink.trans hkept.linkUp,
    sameMemory_settle (hmem'.trans (hkept.mem.trans (hclosed.mem.trans hmem))), htiles'.trans (hkept.tiles.trans (hclosed.tiles.trans htiles))⟩

theorem perst_resets_portD (s : State) (u : Nat) :
    ∃ t, exec (.perst .d u) s = .next t ∧ t.pkg.reg (O.pcieLinkState + 1) = 3 ∧ t.pkg.reg O.sessionState = s.pkg.reg O.sessionState ∧
      { t.pkg.host with pciD := s.pkg.host.pciD } = s.pkg.host ∧
      t.pkg.host.pciD = PciFn.reset ∧ SameMemory s t := by
  have hexec : exec (.perst .d u) s = .next (s.settle ((s.pkg.linkDown 1 3 u).resetPci .d)) := rfl
  rw [hexec, linkDown_eq, if_neg (by decide)]
  obtain ⟨hmem, -, hhost, -, hstate, hregs⟩ := closeLink_leaves s.pkg 1 3 (by decide)
  generalize s.pkg.closeLink 1 3 = p at *
  refine ⟨_, rfl, hstate, hregs _ (by decide), ?_, rfl, sameMemory_settle hmem⟩
  change { p.host with pciD := s.pkg.host.pciD } = s.pkg.host
  rw [hhost]

theorem portH_detaches (s : State) (c : DetachCause) (u : Nat) (hruns : s.Runs .control) (hsession : s.pkg.reg O.sessionState ≠ 2) :
    ∃ t, exec (.portHDetach ⟨c, u⟩) s = .next t ∧ t.pkg.reg O.sessionState = 2 ∧ t.pkg.host.detachedAt = s.pkg.mtime ∧ RaisedEver t 0x460A ∧
      t.pkg.host.flushes = [] ∧ (c = .functionReset → t.pkg.host.msixTable = [] ∧ t.pkg.host.pciH = PciFn.reset) ∧
      (c = .busMasterClear → t.pkg.host.pciH.busMaster = false) ∧ SameMemory s t ∧ t.pkg.tiles = s.pkg.tiles := by
  have hexec : exec (.portHDetach ⟨c, u⟩) s = execPortHDetach ⟨c, u⟩ s := rfl
  rw [hexec, execPortHDetach, on_runs s _ _ hruns]
  unfold Pkg.detachFor
  obtain ⟨hheld, hat, hflushes, hdetached⟩ := detach_holds s.pkg u hsession
  have hkept := detach_kept s.pkg u
  dsimp only
  generalize s.pkg.detach u = q at *
  have hmem := sameMemory_settle hkept.mem
  cases c with
  | functionReset =>
    obtain ⟨hmem', htiles', hev, htable, hpci, -, hat', hflushes', hregs⟩ := resetPci_h_leaves q
    exact ⟨_, rfl, (hregs _).trans hheld, hat'.trans hat, by rw [RaisedEver, settle_pkg, hev]; exact hdetached, hflushes'.trans hflushes,
      fun _ => ⟨htable, hpci⟩, nofun, sameMemory_settle (hmem'.trans hkept.mem), htiles'.trans hkept.tiles⟩
  | busMasterClear =>
    exact ⟨_, rfl, hheld, hat, hdetached, hflushes, nofun, fun _ => rfl, hmem, hkept.tiles⟩
  | linkDown => exact ⟨_, rfl, hheld, hat, hdetached, hflushes, nofun, nofun, hmem, hkept.tiles⟩
  | perst => exact ⟨_, rfl, hheld, hat, hdetached, hflushes, nofun, nofun, hmem, hkept.tiles⟩
  | powerState => exact ⟨_, rfl, hheld, hat, hdetached, hflushes, nofun, nofun, hmem, hkept.tiles⟩

/-! ### A link comes up (R309, R330) -/

/-- What a drain leaves and sends. -/
theorem drainHost_sends (p : Pkg) : p.drainHost.host.hostOut = [] ∧ p.drainHost.reg O.hostoutBytes = 0 ∧ p.drainHost.host.msixPending = 0 ∧
    p.out ++ p.host.hostOut.flatMap HostTlp.send <+: p.drainHost.out ∧ p.drainHost.mem = p.mem ∧ p.drainHost.tiles = p.tiles ∧
    p.drainHost.ev = p.ev ∧ p.drainHost.host.linkUp = p.host.linkUp ∧ ∀ k, k ≠ O.hostoutBytes → p.drainHost.reg k = p.reg k :=
  ⟨rfl, reg_setReg_self _ _ _, rfl, List.prefix_append _ _, rfl, rfl, rfl, rfl, fun k hk => reg_setReg_other _ k _ _ hk⟩

/-- R309: the objects and the events of a link that comes up. -/
def Pkg.openLink (p : Pkg) (i rate width : Nat) : Pkg :=
  let q := (((p.setReg (O.pcieLinkState + i) 2).setReg (O.pcieLinkRate + i) rate).setReg (O.pcieLinkWidth + i) width).raise 0x4602 i 0
  if rate < 6 ∨ width < 16 then q.raise 0x4603 i 0 else q

theorem linkUp_eq (p : Pkg) (i rate width : Nat) (hpads : bitOf (p.reg O.padHeld) 2 = false) : p.linkUp i rate width =
    if i = 0 then
      let q := (p.openLink i rate width).setHost { (p.openLink i rate width).host with linkUp := true }
      if q.reg O.sessionState = 2 then q else q.drainHost
    else p.openLink i rate width := by
  rw [Pkg.linkUp, if_neg (by rw [hpads]; decide)]
  rfl

theorem openLink_leaves (p : Pkg) (i rate width : Nat) (hi : i < 2) : (p.openLink i rate width).mem = p.mem ∧
    (p.openLink i rate width).tiles = p.tiles ∧ (p.openLink i rate width).host = p.host ∧ (p.openLink i rate width).out = p.out ∧
    (p.openLink i rate width).HasEvent 0x4602 ∧ ((rate < 6 ∨ width < 16) → (p.openLink i rate width).HasEvent 0x4603) ∧
    (p.openLink i rate width).reg (O.pcieLinkState + i) = 2 ∧ (p.openLink i rate width).reg (O.pcieLinkRate + i) = rate ∧
    (p.openLink i rate width).reg (O.pcieLinkWidth + i) = width ∧
    (p.openLink i rate width).reg O.sessionState = p.reg O.sessionState := by
  unfold Pkg.openLink
  extract_lets q
  have hregs : q.reg (O.pcieLinkState + i) = 2 ∧ q.reg (O.pcieLinkRate + i) = rate ∧ q.reg (O.pcieLinkWidth + i) = width ∧
      q.reg O.sessionState = p.reg O.sessionState := by
    refine ⟨?_, ?_, reg_setReg_self _ _ _, ?_⟩
    · rw [reg_raise, reg_setReg_other _ _ _ _ (by simp only [O.pcieLinkWidth, O.pcieLinkState]; omega),
        reg_setReg_other _ _ _ _ (by simp only [O.pcieLinkRate, O.pcieLinkState]; omega), reg_setReg_self]
    · rw [reg_raise, reg_setReg_other _ _ _ _ (by simp only [O.pcieLinkWidth, O.pcieLinkRate]; omega), reg_setReg_self]
    · rw [reg_raise, reg_setReg_other _ _ _ _ (by simp only [O.pcieLinkWidth, O.sessionState]; omega),
        reg_setReg_other _ _ _ _ (by simp only [O.pcieLinkRate, O.sessionState]; omega),
        reg_setReg_other _ _ _ _ (by simp only [O.pcieLinkState, O.sessionState]; omega)]
  have hevent : q.HasEvent 0x4602 := hasEvent_raise _ _ _ _
  split
  · exact ⟨rfl, rfl, rfl, rfl, (alarmed_raise _ _ _ _).hasEvent hevent, fun _ => hasEvent_raise _ _ _ _, hregs⟩
  · rename_i hfull
    exact ⟨rfl, rfl, rfl, rfl, hevent, fun h => absurd h hfull, hregs⟩

theorem pcieLink_comes_up (s : State) (pt : HostPort) (rate width : Nat) (hps : s.pkg.reg O.psCurrent ≤ 2)
    (hpads : bitOf (s.pkg.reg O.padHeld) 2 = false) :
    ∃ t, exec (.pcieLinkUp pt rate width) s = .next t ∧ t.pkg.reg (O.pcieLinkState + portNo pt) = 2 ∧
      t.pkg.reg (O.pcieLinkRate + portNo pt) = rate ∧ t.pkg.reg (O.pcieLinkWidth + portNo pt) = width ∧ RaisedEver t 0x4602 ∧
      ((rate < 6 ∨ width < 16) → RaisedEver t 0x4603) ∧ (pt = .h → t.pkg.host.linkUp = true) ∧
      (pt = .h → s.pkg.reg O.sessionState ≠ 2 → t.pkg.host.hostOut = [] ∧ t.pkg.reg O.hostoutBytes = 0 ∧ t.pkg.host.msixPending = 0 ∧
        s.pkg.out ++ s.pkg.host.hostOut.flatMap HostTlp.send <+: t.pkg.out) ∧ SameMemory s t ∧ t.pkg.tiles = s.pkg.tiles := by
  have hexec : exec (.pcieLinkUp pt rate width) s =
      .next (s.settle (if s.pkg.reg O.psCurrent ≤ 2 then s.pkg.linkUp (portNo pt) rate width else s.pkg)) := rfl
  rw [hexec, if_pos hps, linkUp_eq _ _ _ _ hpads]
  have hno : portNo pt < 2 := by cases pt <;> decide
  obtain ⟨hmem, htiles, hhost, hout, hevent, hslow, hstate, hrate, hwidth, hsession⟩ := openLink_leaves s.pkg (portNo pt) rate width hno
  generalize s.pkg.openLink (portNo pt) rate width = p at *
  cases pt with
  | d =>
    rw [if_neg (by decide)]
    exact ⟨_, rfl, hstate, hrate, hwidth, hevent, hslow, nofun, nofun, sameMemory_settle hmem, htiles⟩
  | h =>
    rw [if_pos (show portNo .h = 0 from rfl)]
    dsimp only
    have hsession' : (p.setHost { p.host with linkUp := true }).reg O.sessionState = s.pkg.reg O.sessionState := hsession
    rw [hsession']
    by_cases hheld : s.pkg.reg O.sessionState = 2
    · rw [if_pos hheld]
      exact ⟨_, rfl, hstate, hrate, hwidth, hevent, hslow, fun _ => rfl, fun _ h => absurd hheld h, sameMemory_settle hmem, htiles⟩
    · rw [if_neg hheld]
      obtain ⟨hempty, hbytes, hpending, hsent, hmem', htiles', hev, hlink, hregs⟩ := drainHost_sends (p.setHost { p.host with linkUp := true })
      rw [show (p.setHost { p.host with linkUp := true }).out = s.pkg.out from hout,
        show (p.setHost { p.host with linkUp := true }).host.hostOut = s.pkg.host.hostOut from by rw [← hhost]; rfl] at hsent
      have hraised {code : Nat} (h : p.HasEvent code) : (p.setHost { p.host with linkUp := true }).drainHost.HasEvent code := by
        rw [Pkg.HasEvent, hev]
        exact h
      exact ⟨_, rfl, (hregs _ (by decide)).trans hstate, (hregs _ (by decide)).trans hrate, (hregs _ (by decide)).trans hwidth, hraised hevent,
        fun h => hraised (hslow h), fun _ => hlink, fun _ _ => ⟨hempty, hbytes, hpending, hsent⟩, sameMemory_settle (hmem'.trans hmem),
        htiles'.trans htiles⟩

/-! ## Sessions (R330, R431) -/

theorem session_begins (s : State) (pt : Path) (k : W64) (hruns : s.Runs (pathPlane pt)) (hfree : s.pkg.reg O.sessionState = 0)
    (hrng : s.pkg.reg O.rngState = 0) :
    ∃ t, exec (.sessionAttach pt k) s = .next t ∧ t.pkg.reg O.sessionState = 1 ∧
      t.pkg.reg O.sessionId = (s.pkg.reg O.sessionId + 1) % 2 ^ 32 ∧ t.pkg.host.token = k.toNat ∧ t.pkg.host.tokenRead = false ∧
      t.pkg.host.tokenHighRead = false ∧ SameMemory s t ∧ SameRegsBut (fun k => k = O.sessionState ∨ k = O.sessionId) s t := by
  have hexec : exec (.sessionAttach pt k) s = execSessionAttach pt k s := rfl
  rw [hexec, execSessionAttach, on_runs s _ _ hruns, Pkg.sessionAttach, if_neg (not_not.mpr hfree), if_neg (not_not.mpr hrng)]
  refine ⟨_, rfl, ?_, reg_setReg_self _ _ _, rfl, rfl, rfl, fun _ => rfl, fun j hj => ?_⟩
  · exact (reg_setReg_other _ _ _ _ (by decide)).trans (reg_setReg_self _ _ _)
  · rw [not_or] at hj
    exact (reg_setReg_other _ _ _ _ hj.2).trans (reg_setReg_other _ _ _ _ hj.1)

theorem session_refused (s : State) (pt : Path) (k : W64) (hruns : s.Runs (pathPlane pt)) (hheld : s.pkg.reg O.sessionState ≠ 0) :
    Does (.sessionAttach pt k) s (s.pkg.sessionRefused pt) := by
  have hexec : exec (.sessionAttach pt k) s = execSessionAttach pt k s := rfl
  rw [Does, hexec, execSessionAttach, on_runs s _ _ hruns, Pkg.sessionAttach, if_pos hheld]

theorem token_read_once (s : State) (hruns : s.Runs .control) (hheld : s.pkg.reg O.sessionState ≠ 0) (hlow : s.pkg.host.tokenRead = false)
    (hhigh : s.pkg.host.tokenHighRead = false) :
    ∃ t, exec (.sessionTokenRead .hostBar) s = .next t ∧ t.pkg.out = s.pkg.out ++ [.value s.pkg.host.token] ∧
      t.pkg.host.tokenRead = true ∧ t.pkg.host.tokenHighRead = true ∧ SameMemory s t ∧ SameRegs s t := by
  have hfirst : s.pkg.tokenLow .hostBar = (s.pkg.host.token % 2 ^ 32, s.pkg.setHost { s.pkg.host with tokenRead := true }) :=
    if_pos ⟨rfl, hheld, by rw [hlow]; rfl⟩
  have hsecond (q : Pkg) (hq : q.reg O.sessionState ≠ 0) (hread : q.host.tokenHighRead = false) :
      q.tokenHigh .hostBar = (q.host.token / 2 ^ 32, q.setHost { q.host with tokenHighRead := true }) :=
    if_pos ⟨rfl, hq, by rw [hread]; rfl⟩
  have hexec : exec (.sessionTokenRead .hostBar) s = execSessionTokenRead .hostBar s := rfl
  rw [hexec, execSessionTokenRead, on_runs s (pathPlane .hostBar) _ hruns, Pkg.tokenRead, hfirst]
  dsimp only
  rw [hsecond (s.pkg.setHost { s.pkg.host with tokenRead := true }) hheld hhigh]
  refine ⟨_, rfl, ?_, rfl, rfl, fun _ => rfl, fun _ => rfl⟩
  exact congrArg (fun n => s.pkg.out ++ [Out.value n]) (Nat.mod_add_div' s.pkg.host.token (2 ^ 32))

theorem token_reads_zero (s : State) (pt : Path) (hruns : s.Runs (pathPlane pt))
    (hgone : pt ≠ .hostBar ∨ (s.pkg.host.tokenRead = true ∧ s.pkg.host.tokenHighRead = true)) :
    Does (.sessionTokenRead pt) s (s.pkg.emit (.value 0)) := by
  have hlow : s.pkg.tokenLow pt = (0, s.pkg) := if_neg fun ⟨hpt, _, hread⟩ => by
    obtain ⟨h, -⟩ := hgone.resolve_left (not_not.mpr hpt)
    rw [h] at hread
    cases hread
  have hhigh : s.pkg.tokenHigh pt = (0, s.pkg) := if_neg fun ⟨hpt, _, hread⟩ => by
    obtain ⟨-, h⟩ := hgone.resolve_left (not_not.mpr hpt)
    rw [h] at hread
    cases hread
  have hexec : exec (.sessionTokenRead pt) s = execSessionTokenRead pt s := rfl
  rw [Does, hexec, execSessionTokenRead, on_runs s _ _ hruns, Pkg.tokenRead, hlow]
  dsimp only
  rw [hhigh]
  simp only [Nat.zero_mul, Nat.add_zero]

/-- R330: the held session is taken up again, its buffer no longer over. -/
def Pkg.reopenSession (p : Pkg) : Pkg := (p.setReg O.sessionState 1).clearOverflow

theorem reopenSession_state (p : Pkg) : p.reopenSession.reg O.sessionState = 1 :=
  (reg_setReg_other _ _ _ _ (by decide)).trans (reg_setReg_self _ _ _)

theorem sessionResume_matching (p : Pkg) (pt : Path) (drain : Bool) (hheld : p.reg O.sessionState = 2)
    (htoken : p.reg O.sessionToken = p.host.token) : p.sessionResume pt drain =
      (if drain then (if p.reopenSession.hostAway then p.reopenSession else p.reopenSession.drainHost)
        else (p.reopenSession.setHost { p.reopenSession.host with hostOut := [] }).setReg O.hostoutBytes 0).raise 0x460B noUnit 0 := by
  rw [Pkg.sessionResume, if_neg (by rintro (h | h) <;> [exact h hheld; exact h htoken])]
  rfl

theorem session_resumes (s : State) (pt : Path) (hruns : s.Runs (pathPlane pt)) (hheld : s.pkg.reg O.sessionState = 2)
    (htoken : s.pkg.reg O.sessionToken = s.pkg.host.token) :
    (s.pkg.host.linkUp = true →
      ∃ t, exec (.sessionResumeDrain pt) s = .next t ∧ t.pkg.reg O.sessionState = 1 ∧ t.pkg.host.hostOut = [] ∧
        s.pkg.out ++ s.pkg.host.hostOut.flatMap HostTlp.send <+: t.pkg.out ∧ RaisedLast t 0x460B ∧ SameMemory s t) ∧
    ∃ t, exec (.sessionResumeDiscard pt) s = .next t ∧ t.pkg.reg O.sessionState = 1 ∧ t.pkg.host.hostOut = [] ∧ t.pkg.out = s.pkg.out ∧
      RaisedLast t 0x460B ∧ SameMemory s t := by
  have hstate := reopenSession_state s.pkg
  have hmem : s.pkg.reopenSession.mem = s.pkg.mem := rfl
  have hout : s.pkg.reopenSession.out = s.pkg.out := rfl
  have hbuffer : s.pkg.reopenSession.host.hostOut = s.pkg.host.hostOut := rfl
  have hlink : s.pkg.reopenSession.host.linkUp = s.pkg.host.linkUp := rfl
  have hdrain : exec (.sessionResumeDrain pt) s = execSessionResumeDrain pt s := rfl
  have hdiscard : exec (.sessionResumeDiscard pt) s = execSessionResumeDiscard pt s := rfl
  rw [hdrain, hdiscard, execSessionResumeDrain, execSessionResumeDiscard, on_runs s _ _ hruns, on_runs s _ _ hruns,
    sessionResume_matching _ _ _ hheld htoken, sessionResume_matching _ _ _ hheld htoken, if_pos rfl, if_neg Bool.false_ne_true]
  generalize s.pkg.reopenSession = q at *
  refine ⟨fun hup => ?_, ⟨_, rfl, ?_, rfl, hout, raised_last _ _ _ _, sameMemory_settle hmem⟩⟩
  · have hhere : q.hostAway = false := by rw [Pkg.hostAway, hstate, hlink, hup]; rfl
    rw [hhere, if_neg Bool.false_ne_true]
    obtain ⟨hempty, -, -, hsent, hmem', -, -, -, hregs⟩ := drainHost_sends q
    rw [hout, hbuffer] at hsent
    exact ⟨_, rfl, (hregs _ (by decide)).trans hstate, hempty, hsent, raised_last _ _ _ _, sameMemory_settle (hmem'.trans hmem)⟩
  · exact (reg_setReg_other _ _ _ _ (by decide)).trans hstate

theorem resume_refused (s : State) (pt : Path) (hruns : s.Runs (pathPlane pt))
    (hno : s.pkg.reg O.sessionState ≠ 2 ∨ s.pkg.reg O.sessionToken ≠ s.pkg.host.token) :
    Does (.sessionResumeDrain pt) s (s.pkg.sessionRefused pt) ∧ Does (.sessionResumeDiscard pt) s (s.pkg.sessionRefused pt) := by
  have hrefused (drain : Bool) : s.pkg.sessionResume pt drain = s.pkg.sessionRefused pt := if_pos hno
  have hdrain : exec (.sessionResumeDrain pt) s = execSessionResumeDrain pt s := rfl
  have hdiscard : exec (.sessionResumeDiscard pt) s = execSessionResumeDiscard pt s := rfl
  rw [Does, Does, hdrain, hdiscard, execSessionResumeDrain, execSessionResumeDiscard, on_runs s _ _ hruns, on_runs s _ _ hruns, hrefused, hrefused]
  exact ⟨rfl, rfl⟩

theorem endSession_leaves (p : Pkg) : p.endSession.reg O.sessionState = 0 ∧ p.endSession.host.hostOut = [] ∧ p.endSession.out = p.out ∧
    p.endSession.mem = p.mem := ⟨reg_setReg_self _ _ _, rfl, rfl, rfl⟩

theorem session_released (s : State) (pt : Path) (hruns : s.Runs (pathPlane pt)) (hheld : s.pkg.reg O.sessionState ≠ 0)
    (htoken : pt = .canFd ∨ s.pkg.reg O.sessionToken = s.pkg.host.token) :
    ∃ t, exec (.sessionRelease pt) s = .next t ∧ t.pkg.reg O.sessionState = 0 ∧ t.pkg.host.hostOut = [] ∧ t.pkg.out = s.pkg.out ∧
      SameMemory s t := by
  have hexec : exec (.sessionRelease pt) s = execSessionRelease pt s := rfl
  rw [hexec, execSessionRelease, on_runs s _ _ hruns, Pkg.sessionRelease, if_neg hheld,
    if_neg fun h => htoken.elim (fun hpt => h.1 hpt) fun heq => h.2 heq]
  obtain ⟨hstate, hempty, hout, hmem⟩ := endSession_leaves s.pkg
  exact ⟨_, rfl, hstate, hempty, hout, sameMemory_settle hmem⟩

/-! ### The buffer stays while queues are disabled -/

theorem showQueue_hostOut (p : Pkg) (n : Nat) : (p.showQueue n).host.hostOut = p.host.hostOut := rfl

theorem complete_hostOut (p : Pkg) (n seq status result : Nat) : (p.complete n seq status result).host.hostOut = p.host.hostOut := by
  unfold Pkg.complete
  dsimp only
  split <;> rfl

theorem beginDisable_hostOut (p : Pkg) (n : Nat) : (p.beginDisable n).host.hostOut = p.host.hostOut := by
  unfold Pkg.beginDisable
  extract_lets x begun reqs y _ ended
  have hbegun : begun.host.hostOut = p.host.hostOut := rfl
  have hended : ended.host.hostOut = p.host.hostOut := by
    dsimp only [ended]
    split
    · exact foldl_invariant (fun q : Pkg => q.host.hostOut = p.host.hostOut) (fun q r hq => (complete_hostOut q _ _ _ _).trans hq) _ hbegun
    · split
      · exact hbegun
      · exact foldl_invariant (fun acc : Pkg × Nat => acc.1.host.hostOut = p.host.hostOut)
          (fun acc d hacc => (complete_hostOut acc.1 _ _ _ _).trans hacc) _ hbegun
  split
  · rfl
  · exact (showQueue_hostOut _ _).trans hended

/-- R330: the queues that the session's host owns are disabled. -/
def Pkg.disableOwned (p : Pkg) : Pkg :=
  (List.range 64).foldl (fun p q => if p.qReg O.queueOwner q = 1 then p.beginDisable q else p) p

theorem disableOwned_runs (p : Pkg) : QueueRun p p.disableOwned :=
  QueueRun.foldl (fun _ _ hq => .ite (hq.beginDisable _) hq) _ (.refl p)

theorem disableOwned_hostOut (p : Pkg) : p.disableOwned.host.hostOut = p.host.hostOut := by
  unfold Pkg.disableOwned
  generalize List.range 64 = l
  refine foldl_keeps (fun q : Pkg => q.host.hostOut) (fun q n => ?_) l p
  split
  · exact beginDisable_hostOut q n
  · rfl

theorem session_expires (s : State) (hruns : s.Runs .control) (hheld : s.pkg.reg O.sessionState = 2)
    (htime : s.pkg.host.detachedAt + s.pkg.reg O.sessionHoldS * 100000000 ≤ s.pkg.mtime) :
    ∃ t, exec .sessionExpiry s = .next t ∧ t.pkg.reg O.sessionState = 0 ∧ t.pkg.host.hostOut = [] ∧ RaisedLast t 0x460C ∧
      t.pkg.reg O.loaderOwner ≠ 1 ∧ SameMemory s t := by
  have hexec : exec .sessionExpiry s = execSessionExpiry s := rfl
  rw [hexec, execSessionExpiry, on_runs s _ _ hruns, if_neg (by rintro (h | h) <;> [exact h hheld; omega])]
  dsimp only
  rw [← Pkg.disableOwned.eq_1]
  obtain ⟨hstate, hempty, -, hmem⟩ := endSession_leaves s.pkg
  have hdisabled := disableOwned_runs s.pkg.endSession
  have hbuffer := disableOwned_hostOut s.pkg.endSession
  generalize s.pkg.endSession = p at *
  generalize p.disableOwned = q at *
  have hzero := (hdisabled.reg O.sessionState (by decide)).trans hstate
  by_cases howner : q.reg O.loaderOwner = 1
  · rw [if_pos howner]
    refine ⟨_, rfl, (reg_setReg_other _ _ _ _ (by decide)).trans hzero, hbuffer.trans hempty, raised_last _ _ _ _, ?_,
      sameMemory_settle (hdisabled.mem.trans hmem)⟩
    rw [settle_pkg, reg_raise, reg_setReg_self]
    decide
  · rw [if_neg howner]
    exact ⟨_, rfl, hzero, hbuffer.trans hempty, raised_last _ _ _ _, howner, sameMemory_settle (hdisabled.mem.trans hmem)⟩

/-- Settles O40. -/
theorem hostLinksAndSessions : Obligations.HostLinksAndSessions :=
  ⟨⟨pcieLink_comes_up, portH_goes_down, perst_detaches, perst_resets_portD, portH_detaches⟩,
    session_begins, session_refused, token_read_once, token_reads_zero, session_resumes, resume_refused, session_released, session_expires⟩

end Sys2Proof.Machine

namespace Sys2Proof.Machine

/-! ## Commands and records of a queue (R320 to R327) -/

theorem queue_showQueue (p : Pkg) (n m : Nat) : (p.showQueue n).queue m = p.queue m := rfl
theorem showQueue_mem (p : Pkg) (n : Nat) : (p.showQueue n).mem = p.mem := rfl
theorem showQueue_out (p : Pkg) (n : Nat) : (p.showQueue n).out = p.out := rfl

theorem showQueue_reg_other (p : Pkg) (n : Nat) {k : Nat} (hk : k ≠ qKey O.queueStatus n) : (p.showQueue n).reg k = p.reg k :=
  reg_setReg_other _ _ _ _ hk

/-- A command of an enabled queue completes: its record joins those that wait. -/
theorem complete_enabled (p : Pkg) (n seq status result : Nat) (h : (p.queue n).enabled = true) : p.complete n seq status result =
    (p.setQueue n { p.queue n with records := (p.queue n).records ++ [⟨seq, status, result, cplBody n seq status result⟩] }).showQueue n := by
  rw [Pkg.complete, if_neg (by simp [h])]

theorem skipRejected_empty (p : Pkg) (n : Nat) (h : (p.queue n).cmds = []) : p.skipRejected n = p.showQueue n := by
  rw [Pkg.skipRejected, h]
  unfold Pkg.dropRejected
  dsimp only
  rw [h]

/-- The last command of an enabled queue ends. -/
theorem endCommand_last (p : Pkg) (n status result : Nat) (d : Desc) (hcmds : (p.queue n).cmds = [d]) (henabled : (p.queue n).enabled = true) :
    ((p.endCommand n status result).queue n).cmds = [] ∧
    ((p.endCommand n status result).queue n).records =
      (p.queue n).records ++ [⟨d.seq, status, result, cplBody n d.seq status result⟩] ∧
    (p.endCommand n status result).mem = p.mem := by
  have hqueue := queue_setQueue_self p n { p.queue n with cmds := [], moved := 0, status := 0 }
  rw [Pkg.endCommand, hcmds]
  dsimp only
  rw [complete_enabled _ _ _ _ _ (by rw [hqueue]; exact henabled), hqueue, skipRejected_empty]
  · rw [queue_showQueue, queue_showQueue, queue_setQueue_self]
    exact ⟨rfl, rfl, rfl⟩
  · rw [queue_showQueue, queue_setQueue_self]

theorem dmaNop_completes (s : State) (q : QueueNo) (d : Desc) (hruns : s.Runs .control) (hhead : s.pkg.headCommand q.val 0 = some d)
    (hcmds : (s.pkg.queue q.val).cmds = [d]) (henabled : (s.pkg.queue q.val).enabled = true) :
    ∃ t, exec (.dmaNop q) s = .next t ∧ (t.pkg.queue q.val).cmds = [] ∧
      (t.pkg.queue q.val).records = (s.pkg.queue q.val).records ++ [⟨d.seq, 0, 0, cplBody q.val d.seq 0 0⟩] ∧ SameMemory s t := by
  have hexec : exec (.dmaNop q) s = execDmaNop q s := rfl
  rw [hexec, execDmaNop, on_runs s _ _ hruns, hhead, if_pos (show (some d).isSome = true from rfl)]
  obtain ⟨hempty, hrecords, hmem⟩ := endCommand_last s.pkg q.val 0 0 d hcmds henabled
  exact ⟨_, rfl, hempty, hrecords, sameMemory_settle hmem⟩

/-! ## Copies (R323) -/

theorem copyToHost_moves (s : State) (q : QueueNo) (d : Desc) (m n : Nat) (r : Pkg × Bool) (hruns : s.Runs .control)
    (hturn : s.pkg.dmaTurn q.val = true) (hhead : s.pkg.headCommand q.val 1 = some d) (hm : m = (s.pkg.queue q.val).moved)
    (hn : n = min 4096 (d.length - m)) (hr : r = s.pkg.pieceOut (d.src + m) (d.dst + m) n) :
    Does (.copyToHost q) s ((r.1.moveOn q.val d n (if r.2 then 3 else 0)).tookTurn q.val) := by
  subst hr hn hm
  have hexec : exec (.copyToHost q) s = execCopyToHost q s := rfl
  rw [Does, hexec, execCopyToHost, on_runs s _ _ hruns, hhead]
  dsimp only
  rw [hturn, if_neg (by decide)]

theorem copyFromHost_moves (s : State) (q : QueueNo) (c : HostCpl) (d : Desc) (m n : Nat) (hruns : s.Runs .control)
    (hturn : s.pkg.dmaTurn q.val = true) (hhead : s.pkg.headCommand q.val 2 = some d) (hm : m = (s.pkg.queue q.val).moved) (hlen : m < d.length)
    (hn : n = min 4096 (d.length - m)) :
    (s.pkg.hostAway = true → Does (.copyFromHost q c) s ((s.pkg.tookTurn q.val).endCommand q.val 2 m)) ∧
    (s.pkg.hostAway = false → c.status = 0 → Does (.copyFromHost q c) s
      (((s.pkg.tookTurn q.val).agentWrite portH (d.dst + m) (c.bytes.take n)).moveOn q.val d n 0)) ∧
    (s.pkg.hostAway = false → c.status ≠ 0 → Does (.copyFromHost q c) s
      (((s.pkg.tookTurn q.val).badPiece q.val c (d.dst + m) n).moveOn q.val d n 4)) := by
  have haway : (s.pkg.tookTurn q.val).hostAway = s.pkg.hostAway := rfl
  have hpiece : min 4096 (d.length - (s.pkg.queue q.val).moved) ≠ 0 := by omega
  have hexec : exec (.copyFromHost q c) s = execCopyFromHost q c s := rfl
  subst hn hm
  simp only [Does]
  rw [hexec, execCopyFromHost, on_runs s _ _ hruns, hhead]
  dsimp only
  rw [hturn, if_neg (by decide), if_neg hpiece, haway]
  refine ⟨fun h => ?_, fun h hc => ?_, fun h hc => ?_⟩
  · rw [if_pos h]
  · rw [h, if_neg (by decide), if_pos hc]
  · rw [h, if_neg (by decide), if_neg hc]

/-! ## Completion records (R324 to R327) -/

theorem completionPost_kept (s : State) (q : QueueNo) (l : List Byte) (hruns : s.Runs .control) (hlen : l.length = 28)
    (hconsumer : s.pkg.consumer q.val = 2) (henabled : (s.pkg.queue q.val).enabled = true) :
    ∃ t, exec (.completionPost q l) s = .next t ∧ (t.pkg.queue q.val).records = (s.pkg.queue q.val).records ++
      [⟨leNat (l.take 4), leNat ((l.drop 6).take 2), leNat ((l.drop 8).take 8), l⟩] ∧ SameMemory s t := by
  have hbody : (l ++ List.replicate 28 0).take 28 = l := by rw [← hlen, List.take_left]
  have hexec : exec (.completionPost q l) s = execCompletionPost q l s := rfl
  rw [hexec, execCompletionPost, on_runs s _ _ hruns, Pkg.completionPost, if_neg (by simp [hconsumer, henabled])]
  dsimp only
  rw [hbody]
  refine ⟨_, rfl, ?_, fun _ => rfl⟩
  rw [settle_pkg, queue_showQueue, queue_setQueue_self]

/-- The tag of a record (R325): its number, and the phase of its pass of the ring. -/
abbrev Pkg.recordTag (p : Pkg) (n : Nat) (r : CplRec) : Nat := fld (b2n (p.queue n).phase) 31 + r.seq % 2 ^ 31

/-- The place of the next record in the ring of a queue. -/
abbrev Pkg.recordAddr (p : Pkg) (n : Nat) : Nat := p.qReg O.cqAddr n + 32 * p.qReg O.cqTail n

/-- The place after the next one. -/
abbrev Pkg.nextTail (p : Pkg) (n : Nat) : Nat := if p.qReg O.cqTail n + 1 = p.qReg O.cqEntries n then 0 else p.qReg O.cqTail n + 1

/-- A record for a host that is there goes out, and waits for its flush read. -/
theorem placeRecord_sends (p : Pkg) (n : Nat) (r : CplRec) (rest : List CplRec) (hconsumer : p.consumer n ≠ 2) (haway : p.hostAway = false) :
    ∃ q : Pkg, p.placeRecord n r rest = (q.emit (.hostWrite (.record n (p.recordAddr n) r.body (p.recordTag n r))),
        some ⟨p.recordAddr n, r.body, p.recordTag n r⟩) ∧
      (q.queue n).records = rest ∧ q.out = p.out ∧ q.mem = p.mem ∧ q.qReg O.cqTail n = p.nextTail n := by
  unfold Pkg.placeRecord
  extract_lets x entries t addr tag wrap q
  have hwrap : decide (t + 1 = entries) = wrap := rfl
  have hconsumer' : q.consumer n = p.consumer n := by
    have hreg : q.qReg O.queueConsumer n = p.qReg O.queueConsumer n := reg_setReg_other _ _ _ _ (by simp only [qKey, O.queueConsumer, O.cqTail]; omega)
    rw [Pkg.consumer, Pkg.consumer, hreg]
  have haway' : q.hostAway = p.hostAway := by
    have hreg : q.reg O.sessionState = p.reg O.sessionState := reg_setReg_other _ _ _ _ (by simp only [qKey, O.sessionState, O.cqTail]; omega)
    rw [Pkg.hostAway, Pkg.hostAway, hreg]
    rfl
  rw [if_neg (by rw [hconsumer']; exact hconsumer), haway', haway, if_neg Bool.false_ne_true]
  refine ⟨q, rfl, ?_, rfl, rfl, ?_⟩
  · have hqueue : q.queue n = (p.setQueue n { x with records := rest, phase := if wrap then !x.phase else x.phase }).queue n := rfl
    rw [hqueue, queue_setQueue_self]
  · have htail : q.qReg O.cqTail n = if wrap then 0 else t + 1 := reg_setReg_self _ _ _
    rw [htail, ← hwrap]
    simp only [decide_eq_true_eq]
    rfl

theorem record_written (s : State) (q : QueueNo) (r : CplRec) (hruns : s.Runs .control) (hrecords : (s.pkg.queue q.val).records = [r])
    (hroom : s.pkg.ringFull q.val = false) (hconsumer : s.pkg.consumer q.val ≠ 2) (haway : s.pkg.hostAway = false) :
    ∃ t, exec (.completionRecordWrite q) s = .next t ∧ (t.pkg.queue q.val).records = [] ∧
      t.pkg.out = s.pkg.out ++ [.hostWrite (.record q.val (s.pkg.qReg O.cqAddr q.val + 32 * s.pkg.qReg O.cqTail q.val) r.body
        (fld (b2n (s.pkg.queue q.val).phase) 31 + r.seq % 2 ^ 31)),
        .flushRead (s.pkg.qReg O.cqAddr q.val + 32 * s.pkg.qReg O.cqTail q.val)] ∧
      t.pkg.qReg O.cqTail q.val =
        (if s.pkg.qReg O.cqTail q.val + 1 = s.pkg.qReg O.cqEntries q.val then 0 else s.pkg.qReg O.cqTail q.val + 1) ∧ SameMemory s t := by
  obtain ⟨p, hplace, hrest, hout, hmem, htail⟩ := placeRecord_sends s.pkg q.val r [] hconsumer haway
  let sent := p.emit (.hostWrite (.record q.val (s.pkg.recordAddr q.val) r.body (s.pkg.recordTag q.val r)))
  let u : Unflushed := ⟨s.pkg.recordAddr q.val, r.body, s.pkg.recordTag q.val r⟩
  have hwritten : Pkg.writeRecords ((s.pkg.queue q.val).records.length + 1) q.val s.pkg [] = (sent, [u]) := by
    have hsent : (sent.queue q.val).records = [] := hrest
    rw [hrecords, List.length_singleton, Pkg.writeRecords, hrecords]
    dsimp only
    rw [hroom, if_neg Bool.false_ne_true, hplace, Pkg.writeRecords, hsent]
    rfl
  have hexec : exec (.completionRecordWrite q) s = execCompletionRecordWrite q s := rfl
  rw [hexec, execCompletionRecordWrite, on_runs s _ _ hruns, hwritten]
  refine ⟨_, rfl, hrest, ?_, ?_, sameMemory_settle hmem⟩
  · rw [settle_pkg, showQueue_out]
    change (p.out ++ [_]) ++ [_] = _
    rw [hout, List.append_assoc, List.singleton_append]
    rfl
  · exact (reg_setReg_other _ _ _ _ (by simp only [qKey, O.cqTail, O.queueStatus]; omega)).trans htail

theorem record_waits (s : State) (q : QueueNo) (r : CplRec) (l : List CplRec) (hruns : s.Runs .control)
    (hrecords : (s.pkg.queue q.val).records = r :: l) (hfull : s.pkg.ringFull q.val = true) (hdis : (s.pkg.queue q.val).disabling = false)
    (hopen : (s.pkg.queue q.val).full = false) :
    ∃ t, exec (.completionRecordWrite q) s = .next t ∧ (t.pkg.queue q.val).records = r :: l ∧ (t.pkg.queue q.val).full = true ∧
      RaisedLast t 0x4607 ∧ t.pkg.out = s.pkg.out ∧ SameMemory s t := by
  have hwritten : Pkg.writeRecords ((s.pkg.queue q.val).records.length + 1) q.val s.pkg [] =
      ((s.pkg.setQueue q.val { s.pkg.queue q.val with full := true }).raise 0x4607 q.val 0, []) := by
    rw [Pkg.writeRecords, hrecords]
    dsimp only
    rw [if_pos hfull, if_neg (c := (s.pkg.queue q.val).disabling = true) (by rw [hdis]; decide), if_neg (by rw [hopen]; decide), hrecords]
  have hqueue := queue_setQueue_self s.pkg q.val { s.pkg.queue q.val with full := true }
  have hexec : exec (.completionRecordWrite q) s = execCompletionRecordWrite q s := rfl
  rw [hexec, execCompletionRecordWrite, on_runs s _ _ hruns, hwritten]
  refine ⟨_, rfl, ?_, ?_, raised_last (s.pkg.setQueue q.val { s.pkg.queue q.val with full := true }) 0x4607 q.val 0, rfl, fun _ => rfl⟩
  · exact (congrArg QueueSt.records hqueue).trans hrecords
  · exact congrArg QueueSt.full hqueue

theorem foldl_emit {α : Type} (f : α → Out) (l : List α) (p : Pkg) :
    l.foldl (fun p a => p.emit (f a)) p = { p with out := p.out ++ l.map f } := by
  induction l generalizing p with
  | nil => rw [List.foldl_nil, List.map_nil, List.append_nil]
  | cons a l ih =>
    rw [List.foldl_cons, ih, Pkg.emit, List.map_cons, List.append_assoc]
    rfl

theorem sendMsix_spec (p : Pkg) (v : Nat) : p.out <+: (p.sendMsix v).out ∧ (p.sendMsix v).host.flushes = p.host.flushes ∧
    (p.sendMsix v).mem = p.mem ∧ ∀ k, (p.sendMsix v).reg k = p.reg k := by
  unfold Pkg.sendMsix
  split
  · exact ⟨List.prefix_rfl, rfl, rfl, fun _ => rfl⟩
  · split
    · exact ⟨List.prefix_rfl, rfl, rfl, fun _ => rfl⟩
    · exact ⟨List.prefix_append _ _, rfl, rfl, fun _ => rfl⟩

theorem flushRead_releases (s : State) (q : Nat) (l : List Unflushed) (rest : List (Nat × List Unflushed)) (hruns : s.Runs .control)
    (hflushes : s.pkg.host.flushes = (q, l) :: rest) :
    ∃ t, exec .flushReadComplete s = .next t ∧ t.pkg.host.flushes = rest ∧
      s.pkg.out ++ l.map (fun u => Out.hostTag (u.addr + 28) u.tag) <+: t.pkg.out ∧ SameMemory s t ∧ SameRegs s t := by
  have hexec : exec .flushReadComplete s = execFlushReadComplete s := rfl
  rw [hexec, execFlushReadComplete, on_runs s _ _ hruns, hflushes]
  dsimp only
  rw [foldl_emit fun u : Unflushed => Out.hostTag (u.addr + 28) u.tag]
  obtain ⟨hout, hrest, hmem, hregs⟩ := sendMsix_spec
    { s.pkg.setHost { s.pkg.host with flushes := rest } with out := s.pkg.out ++ l.map fun u => Out.hostTag (u.addr + 28) u.tag }
    (Pkg.qReg { s.pkg.setHost { s.pkg.host with flushes := rest } with
      out := s.pkg.out ++ l.map fun u => Out.hostTag (u.addr + 28) u.tag } O.msixVector q)
  exact ⟨_, rfl, hrest, hout, sameMemory_settle hmem, sameRegs_settle hregs⟩

theorem ringRoom_freed (s : State) (pt : Path) (q : QueueNo) (v : Nat) (hruns : s.Runs (pathPlane pt)) (hv : v < s.pkg.qReg O.cqEntries q.val) :
    ∃ t, exec (.completionRingRoom pt q v) s = .next t ∧ t.pkg.qReg O.cqHead q.val = v ∧ SameMemory s t ∧
      SameRegsBut (fun k => k = qKey O.cqHead q.val ∨ k = qKey O.queueStatus q.val) s t := by
  have hexec : exec (.completionRingRoom pt q v) s = execCompletionRingRoom pt q v s := rfl
  rw [hexec, execCompletionRingRoom, on_runs s _ _ hruns, Pkg.cqHeadWrite, if_neg (Nat.not_le.mpr hv)]
  refine ⟨_, rfl, ?_, fun _ => rfl, fun k hk => ?_⟩
  · exact (reg_setReg_other _ _ _ _ (by simp only [qKey, O.cqHead, O.queueStatus]; omega)).trans (reg_setReg_self _ _ _)
  · rw [not_or] at hk
    exact (showQueue_reg_other _ _ hk.2).trans (reg_setReg_other _ _ _ _ hk.1)

/-- Settles O42. -/
theorem queueWork : Obligations.QueueWork :=
  ⟨dmaNop_completes, copyToHost_moves, copyFromHost_moves, completionPost_kept, record_written, record_waits, flushRead_releases, ringRoom_freed⟩

end Sys2Proof.Machine

namespace Sys2Proof.Machine

/-! ## A directory entry that no set holds (R352)

An entry of the directory is kept under set × 17 + way. The statement that an abandoned save point leaves save_seq as it is holds for the entries that
a package has, but it speaks of every state, and so of one whose directory holds an entry past its last set. When such an entry is uncorrectable, the
sweep that the first read of the ring's index completes counts it in dir_uncorrectable at the index of a slice that does not exist, and that object is
save_seq. -/

/-- The key of an entry whose slice, as an index of dir_uncorrectable, is that of save_seq. -/
def strayKey : Nat := (O.saveSeq - O.dirUncorrectable) * (17 * 65536)

/-- An image without any step or part. -/
def emptyImage : Image where
  addr := 0
  len := 0
  imageId := 0
  seed := 0
  securityVersion := 0
  aclkDiv := 4
  cycleLen := 0
  stepsPerCycle := 0
  slipHorizon := 0
  slipQuantum := 0
  waitSlack := 0
  holdLimit := 0
  variant := ⟨0, 0, 1, 1, 1⟩
  parts := []
  prog := []
  cvotes := []
  placement := []
  timeParent := 0xFF
  wrapPorts := 0
  routes := []
  scaleBase := 0
  scaleInit := []
  decls := []
  aScaleBase := 0
  aScaleInit := []
  chans := []
  buckets := []
  bucketSteps := []
  sections := []
  groups := []
  initialPlace := []
  stages := []
  moveBuffer := 0
  placeBudget := 0
  remapPkgs := []
  remapLinks := []
  remapGuard := 0
  sec := none

/-- A save hold to be abandoned at once. -/
def abandonedHold : SaveHold := ⟨0, 0, 0, 0, false, false, some 0, []⟩

/-- The package at reset with an image, a save hold to be abandoned, a sweep in progress, and the stray entry, poisoned. -/
def strayPkg : Pkg :=
  { Pkg.reset with
    loader := { Pkg.reset.loader with image := some emptyImage }
    sched := { Pkg.reset.sched with hold := some ⟨0, 0, .save⟩ }
    secure := { Pkg.reset.secure with hold := some abandonedHold }
    coh := { Pkg.reset.coh with
      sweep := true
      dir := [(strayKey, poisonWord)] } }

def strayState : State := ⟨[], strayPkg, ⟨true, true, none, false, false, false⟩⟩

/-- What save_seq reads in the state that a command answers. -/
def saveSeqAfter (o : Host.Outcome State Fault Refusal) : Nat :=
  match o with
  | .next t => t.pkg.reg O.saveSeq
  | _ => 0

theorem strayState_counts : saveSeqAfter (exec .saveHoldEnd strayState) = 1 := by decide +kernel

/-- Refutes O43: R352 leaves save_seq as it is, but in a state whose directory holds an uncorrectable entry past its last set, the sweep that the
abandonment's read of the ring completes counts it in save_seq. -/
theorem not_savePointRequests : ¬ Obligations.SavePointRequests := by
  rintro ⟨-, -, habandon, -⟩
  obtain ⟨t, hexec, -, hseq, -⟩ := habandon strayState abandonedHold ⟨0, 0, .save⟩ 0 emptyImage (by decide +kernel) rfl rfl rfl rfl (Nat.zero_le _) rfl rfl rfl
  have hcount := strayState_counts
  rw [hexec, saveSeqAfter, hseq] at hcount
  exact absurd hcount (by decide +kernel)

end Sys2Proof.Machine

namespace Sys2Proof.Machine

/-! ## Lines of live protection (R340, R341) -/

theorem drainLine_idle {p : Pkg} {line : Nat} (h : ∀ o ∈ p.memsys.queue, o.set ≠ Machine.setOf (line * 64)) : p.drainLine line = p := by
  have hnone : p.memsys.queue.findIdx? (fun o => decide (o.set = Machine.setOf (line * 64))) = none := by
    simpa [List.findIdx?_eq_none_iff] using h
  change Pkg.drainSet (2 * p.memsys.queue.length + 7 + 1) (Machine.setOf (line * 64)) p = p
  rw [Pkg.drainSet, hnone]

theorem memCheck_wordParts (p : Pkg) (a : Nat) : (p.memCheck a).2.wordParts = p.wordParts := by
  unfold Pkg.memCheck
  dsimp only
  split
  · rfl
  · rfl
  · exact countCorrection_wordParts ..
  · exact countUncorrectable_wordParts ..

theorem memCheck_reads (p : Pkg) (a : Nat) : (p.memCheck a).1 = readWord (p.word a) := by
  unfold Pkg.memCheck readWord
  dsimp only
  cases checkWord (p.word a) <;> rfl

/-- q is p after the first n words from a have been written with the values v, each in a memory of the same waiting accesses. -/
structure WordsPut (a : Nat) (v : Nat → Option W128) (n : Nat) (p q : Pkg) : Prop where
  queue : q.memsys.queue = p.memsys.queue
  tiles : q.tiles = p.tiles
  done : ∀ w < n, readWord (q.word (a + 16 * w)) = v w
  rest : ∀ w, n ≤ w → q.word (a + 16 * w) = p.word (a + 16 * w)
  bytes : ∀ b, ¬ (a ≤ b ∧ b < a + 16 * n) → q.byte b = p.byte b

theorem wordsPut_nil (a : Nat) (v : Nat → Option W128) (p : Pkg) : WordsPut a v 0 p p :=
  ⟨rfl, rfl, fun _ h => absurd h (Nat.not_lt_zero _), fun _ _ => rfl, fun _ _ => rfl⟩

/-- The next word. -/
theorem WordsPut.succ {a n : Nat} {v : Nat → Option W128} {p q r : Pkg} (ha : a % 16 = 0) (h : WordsPut a v n p q)
    (hr : r.wordParts = q.wordParts) : WordsPut a v (n + 1) p (r.memWrite (a + 16 * n) (v n)) where
  queue := by rw [memWrite_memsys, queue_of_wordParts hr, h.queue]
  tiles := by rw [memWrite_tiles, tiles_of_wordParts hr, h.tiles]
  done w hw := by
    by_cases hn : w = n
    · rw [hn, memWrite_word_self]
    · rw [memWrite_word_apart _ _ (by omega) (by omega) (by omega), word_of_wordParts hr, h.done w (by omega)]
  rest w hw := by rw [memWrite_word_apart _ _ (by omega) (by omega) (by omega), word_of_wordParts hr, h.rest w (by omega)]
  bytes b hb := by rw [memWrite_byte_other _ _ _ _ (by omega), byte_of_wordParts hr, h.bytes b (by omega)]

/-- Rounds that each write the next word write them all. -/
theorem foldl_wordsPut {a : Nat} {v : Nat → Option W128} (p : Pkg) {f : Pkg → Nat → Pkg} {m : Nat}
    (hf : ∀ n < m, ∀ q, WordsPut a v n p q → WordsPut a v (n + 1) p (f q n)) : WordsPut a v m p ((List.range m).foldl f p) := by
  induction m with
  | zero => exact wordsPut_nil a v p
  | succ m ih =>
    rw [List.range_succ, List.foldl_append, List.foldl_cons, List.foldl_nil]
    exact hf m (Nat.lt_succ_self m) _ (ih fun n hn => hf n (by omega))

/-- R341: a word of a parity block and its delta; poison on either side makes poison. -/
def mergedWord (o d : Option W128) : Option W128 :=
  match o, d with
  | some o, some d => some (o ^^^ d)
  | _, _ => none

/-- R341: a parity word written with what was read of it and its delta. -/
def Pkg.putMerged (p : Pkg) (a : Nat) (o d : Option W128) : Pkg :=
  match o, d with
  | some o, some d => p.memWrite a (some (o ^^^ d))
  | _, _ => p.memWrite a none

theorem putMerged_eq (p : Pkg) (a : Nat) (o d : Option W128) : p.putMerged a o d = p.memWrite a (mergedWord o d) := by
  cases o <;> cases d <;> rfl

/-- R341: the read-modify-write of a parity word. -/
def Pkg.putDelta (p : Pkg) (a : Nat) (d : Option W128) : Pkg := (p.memCheck a).2.putMerged a (p.memCheck a).1 d

/-- It writes the merged value. -/
theorem putDelta_eq (p : Pkg) (a : Nat) (d : Option W128) :
    p.putDelta a d = (p.memCheck a).2.memWrite a (mergedWord (readWord (p.word a)) d) := by
  rw [Pkg.putDelta, putMerged_eq, memCheck_reads]

section
variable {s : State} {l : ProtLine} {a : Nat} (hruns : s.Runs .link)
  (hidle : ∀ o ∈ s.pkg.memsys.queue, ∀ w < 4, o.set ≠ Machine.setOf ((a + 16 * w) / 64 * 64))
include hruns hidle

theorem protectionDelta_merges (x : SecPart) (r : SecRegion) (slot : Nat) (hsec : s.pkg.securing = some x)
    (hregion : x.regions[l.region]? = some r) (hslot : r.paritySlot = some slot) (hbase : x.protBase % 16 = 0)
    (ha : a = x.protBase + slot * mib + l.offset / 64 * 64) :
    ∃ t, exec (.protectionDelta l) s = .next t ∧
      (∀ w < 4, readWord (t.pkg.word (a + 16 * w)) = mergedWord (readWord (s.pkg.word (a + 16 * w))) ((ProtLine_words l).getD w none)) ∧
      SameMemoryBut (fun b => a ≤ b ∧ b < a + 64) s t ∧ t.pkg.tiles = s.pkg.tiles ∧ t.pkg.secure = s.pkg.secure := by
  have halign : a % 16 = 0 := by
    have hslots : slot * mib % 16 = 0 := by simp only [mib]; omega
    omega
  have hexec : exec (.protectionDelta l) s = execProtectionDelta l s := rfl
  rw [hexec, execProtectionDelta, on_runs s _ _ hruns, Pkg.protDelta, hsec]
  dsimp only
  rw [hregion, Option.bind_some, hslot]
  dsimp only
  rw [← ha]
  change ∃ t, Host.Outcome.next (s.settle ((List.range 4).foldl (fun p k =>
    (p.drainLine ((a + 16 * k) / 64)).putDelta (a + 16 * k) ((ProtLine_words l).getD k none)) s.pkg)) = .next t ∧ _
  have hput : WordsPut a (fun w => mergedWord (readWord (s.pkg.word (a + 16 * w))) ((ProtLine_words l).getD w none)) 4 s.pkg
      ((List.range 4).foldl (fun p k =>
        (p.drainLine ((a + 16 * k) / 64)).putDelta (a + 16 * k) ((ProtLine_words l).getD k none)) s.pkg) :=
    foldl_wordsPut s.pkg fun n hn q hq => by
      have hnext := hq.succ halign (memCheck_wordParts q (a + 16 * n))
      rw [drainLine_idle fun o ho => hidle o (hq.queue ▸ ho) n hn, putDelta_eq, hq.rest n (Nat.le_refl n)]
      exact hnext
  have hkept : AgentKept s.pkg ((List.range 4).foldl (fun p k =>
      (p.drainLine ((a + 16 * k) / 64)).putDelta (a + 16 * k) ((ProtLine_words l).getD k none)) s.pkg) :=
    CoreClosed.foldl (fun q n hq => by
      rw [putDelta_eq]
      exact (agentKept_closed s.pkg).memWrite _ _ ((agentKept_closed s.pkg).memCheck _ ((agentKept_closed s.pkg).drainLine _ hq))) _ (.refl s.pkg)
  exact ⟨_, rfl, hput.done, hput.bytes, hput.tiles, hkept.secure⟩

theorem protectionCopy_stores (base : Nat) (hhosted : s.pkg.securing.bind (fun x => x.hostedAddr l.region) = some base)
    (hbase : base % 16 = 0) (ha : a = base + l.offset / 64 * 64) :
    ∃ t, exec (.protectionCopy l) s = .next t ∧
      (∀ w < 4, readWord (t.pkg.word (a + 16 * w)) = (ProtLine_words l).getD w none) ∧
      SameMemoryBut (fun b => a ≤ b ∧ b < a + 64) s t ∧ t.pkg.tiles = s.pkg.tiles ∧ t.pkg.secure = s.pkg.secure := by
  have halign : a % 16 = 0 := by omega
  have hexec : exec (.protectionCopy l) s = execProtectionCopy l s := rfl
  rw [hexec, execProtectionCopy, on_runs s _ _ hruns, Pkg.protCopy, hhosted]
  dsimp only
  rw [← ha]
  have hput : WordsPut a (fun w => (ProtLine_words l).getD w none) 4 s.pkg
      ((List.range 4).foldl (fun p k => p.memPut (a + 16 * k) ((ProtLine_words l).getD k none)) s.pkg) :=
    foldl_wordsPut s.pkg fun n hn q hq => by
      rw [Pkg.memPut, drainLine_idle fun o ho => hidle o (hq.queue ▸ ho) n hn]
      exact hq.succ halign rfl
  have hkept : AgentKept s.pkg ((List.range 4).foldl (fun p k => p.memPut (a + 16 * k) ((ProtLine_words l).getD k none)) s.pkg) :=
    CoreClosed.foldl (fun q n hq => (agentKept_closed s.pkg).memWrite _ _ ((agentKept_closed s.pkg).drainLine _ hq)) _ (.refl s.pkg)
  exact ⟨_, rfl, hput.done, hput.bytes, hput.tiles, hkept.secure⟩

end

theorem trackedWrite_writes (s : State) (addr : Nat) (l : List Byte) (x : SecPart) (k : Nat) (r : SecRegion) (hruns : s.Runs .control)
    (hsec : s.pkg.securing = some x) (hregion : x.regionAt addr = some (k, r)) (hin : addr + l.length ≤ r.addr + r.bytes) :
    Does (.trackedWrite addr l) s (s.pkg.agentWrite ioA addr l) := by
  have hexec : exec (.trackedWrite addr l) s = execTrackedWrite addr l s := rfl
  rw [Does, hexec, execTrackedWrite, on_runs s _ _ hruns, hsec, Option.bind_some, hregion]
  dsimp only
  rw [if_pos hin]

/-! ## Restores (R348) -/

/-- What a restore does with the ring's index as it is read: nothing without a new record, and one record otherwise. -/
theorem restore_record (s : State) (x : SecPart) (wi : List Byte) (p1 : Pkg) (hruns : s.Runs .data) (hsec : s.pkg.securing = some x)
    (hstate : s.pkg.reg O.securingState = 3) (hslots : s.pkg.ringSlots ≠ 0)
    (hindex : s.pkg.agentBytes ioA s.pkg.ringBase 8 = (some wi, p1)) :
    (leNat wi = p1.secure.ringRead → Does .restoreRecord s p1) ∧
    (leNat wi ≠ p1.secure.ringRead →
      (∀ p2, p1.agentBytes ioA (p1.ringRecordAddr p1.secure.ringRead) 128 = (none, p2) → Does .restoreRecord s p2.restoreMismatch) ∧
      ∀ h d p2 p3, p1.agentBytes ioA (p1.ringRecordAddr p1.secure.ringRead) 128 = (some h, p2) → fieldAt h 16 1 = 0 →
        p2.agentBytes ioA (p1.ringRecordAddr p1.secure.ringRead + 4096) (fieldAt h 12 4) = (some d, p3) → p3.secure.digestSeq = none →
        (∀ r, digest256 d = (h.drop 64).take 32 → x.regions[fieldAt h 6 2]? = some r →
          Does .restoreRecord s (p3.agentWrite ioA (r.addr + fieldAt h 8 4 * mib) d).consumeRecord) ∧
        (digest256 d ≠ (h.drop 64).take 32 → Does .restoreRecord s ((p3.bump O.digestMismatches 1).raise 0x480C noUnit 0))) := by
  have hexec : exec .restoreRecord s = execRestoreRecord s := rfl
  simp only [Does]
  rw [hexec, execRestoreRecord, on_runs s _ _ hruns]
  split
  case h_1 h =>
    rw [hsec] at h
    cases h
  case h_2 y h =>
    obtain rfl := Option.some.inj (hsec.symm.trans h)
    rw [if_neg (by rintro (h | h) <;> [exact h hstate; exact hslots h])]
    split
    case h_1 q hq =>
      rw [hindex] at hq
      cases hq
    case h_2 wi' q hq =>
      rw [hindex] at hq
      cases hq
      refine ⟨fun hnone => by rw [if_pos hnone], fun hnew => ?_⟩
      rw [if_neg hnew]
      refine ⟨fun p2 hhead => ?_, fun h d p2 p3 hhead hflags hdata htable => ?_⟩
      · simp only [hhead]
      · have hfield (o k : Nat) : leNat ((h.drop o).take k) = fieldAt h o k := rfl
        have hplain : ¬ (bitOf 0 2 = true ∨ bitOf 0 3 = true) := by decide
        have hwords : bitOf 0 1 = false := rfl
        simp only [hhead, hfield, hflags, if_neg hplain, hdata, htable, reduceCtorEq, false_and, if_false, ne_eq, not_true_eq_false, or_false,
          hwords, Bool.false_eq_true]
        refine ⟨fun r hfits hregion => ?_, fun hno => ?_⟩
        · rw [if_neg (not_not.mpr hfits), hregion]
        · rw [if_pos hno]
          rfl

/-- Settles O44. -/
theorem protectionAndRestore : Obligations.ProtectionAndRestore :=
  ⟨⟨trackedWrite_writes, fun _ _ x r slot _ hruns hsec hregion hslot hbase ha hidle =>
      protectionDelta_merges hruns hidle x r slot hsec hregion hslot hbase ha,
    fun _ _ base _ hruns hhosted hbase ha hidle => protectionCopy_stores hruns hidle base hhosted hbase ha⟩, restore_record⟩

end Sys2Proof.Machine

namespace Sys2Proof.Machine

-- Each proof waits for the one before it: elaborated side by side, they would hold a thread each.
set_option Elab.async false

/-! ## The entry past the last set in a recovery (R354, R355)

The entry of the directory that no set holds also meets the recovery: an agent's access that completes a sweep counts it in an object of its own, here
securing_state, and the restore and the resumption access memory after they set that object. -/

/-- The key of an entry whose slice, as an index of dir_uncorrectable, is that of securing_state. -/
def securingStray : Nat := (O.securingState - O.dirUncorrectable) * (17 * 65536)

/-- A halted package at position 0 with a sweep in progress, the stray entry, poisoned, and the save ring across the end of HBM3E. -/
def haltedStray (i : Image) (r : Option Recov) : Pkg :=
  let p : Pkg := { Pkg.reset with
    loader := { Pkg.reset.loader with image := some i }
    secure := { Pkg.reset.secure with recov := r }
    coh := { Pkg.reset.coh with
      sweep := true
      dir := [(securingStray, poisonWord)] } }
  ((p.setReg O.imageState 5).setReg O.logicalPosition 0).setReg O.ingestWindowBase (0xE100000000 - 16)

def haltedState (i : Image) (r : Option Recov) : State := ⟨[], haltedStray i r, ⟨true, true, none, false, false, false⟩⟩

/-- What securing_state reads in the state that a command answers. -/
def securingAfter (o : Host.Outcome State Fault Refusal) : Nat :=
  match o with
  | .next t => t.pkg.reg O.securingState
  | _ => 0

/-! ### A rollback's restore -/

/-- A rollback that remaps nothing. -/
def plainRollback : RecPlan := ⟨.rollback, [], [], 0⟩

/-- A plan's flood from another package. -/
def planFlood : C0In := ⟨0, 1, 1⟩

theorem restore_counts : securingAfter (exec (.recoveryPlan planFlood plainRollback) (haltedState emptyImage none)) = 4 := by decide +kernel

/-- Refutes O46: R355 sets securing_state 3 for a restore, but in a state whose directory holds an uncorrectable entry past its last set, the sweep
that the restore's write of the ring completes counts it in securing_state. -/
theorem not_recoveryPlanning : ¬ Obligations.RecoveryPlanning := by
  rintro ⟨-, -, hplan⟩
  obtain ⟨-, -, hrollback, -⟩ := hplan (haltedState emptyImage none) planFlood plainRollback emptyImage (by decide +kernel) trivial rfl
    (by decide +kernel)
  obtain ⟨t, hexec, hstate, -⟩ := hrollback rfl rfl
  have hcount := restore_counts
  rw [hexec, securingAfter, hstate] at hcount
  exact absurd hcount (by decide +kernel)

/-! ### A spare's resumption -/

/-- Regions: none; an area for protection of which the configuration set alone lies in LPDDR5X. -/
def emptySecurity : SecPart := ⟨lpddrBase - 2097216, 0, 0, [], [], []⟩

/-- A remap that this package, as a spare, takes part in. -/
def spareRemap : RecPlan := ⟨.remap, [], [(1, 0xFFFF)], 1⟩

/-- A recovery whose resume is due. -/
def dueRecovery : Recov := ⟨[], 0, [], some spareRemap, some (0, 1), true⟩

def securedImage : Image := { emptyImage with sec := some emptySecurity }

def spareState : State := haltedState securedImage (some dueRecovery)

theorem resume_counts : securingAfter (exec .resumeBeat spareState) = 1 := by decide +kernel

theorem spareState_reloads : ∃ q, spareState.pkg.reloadTiles securedImage (fun _ => true) = some q :=
  Option.isSome_iff_exists.mp (by decide +kernel)

/-- Refutes O47: R354 sets securing_state 0 at the resume, but in a state whose directory holds an uncorrectable entry past its last set, the sweep
that a spare's read of its system record completes counts it in securing_state. -/
theorem not_resumption : ¬ Obligations.Resumption := by
  rintro ⟨-, -, hresume, -⟩
  obtain ⟨q, hload⟩ := spareState_reloads
  obtain ⟨-, hrun⟩ := hresume spareState dueRecovery securedImage emptySecurity spareRemap 0 1 q (by decide +kernel) rfl (by decide +kernel)
    (by decide +kernel) rfl rfl (by decide +kernel)
  obtain ⟨t, hexec, -, hstate, -⟩ := hrun (Nat.zero_le _) (by decide +kernel) hload rfl
  have hcount := resume_counts
  rw [hexec, securingAfter, hstate] at hcount
  exact absurd hcount (by decide +kernel)

end Sys2Proof.Machine

namespace Sys2Proof.Machine

-- Each proof waits for the one before it: elaborated side by side, they would hold a thread each.
set_option Elab.async false

/-! ## Failures and the recovery from them (R349 to R358)

Every function of the recovery reaches memory through the agents, raises events and sends messages: what the units' closure keeps, it keeps. -/

theorem stopTiles_grown (q : Pkg) : Grown q q.stopTiles := ⟨List.prefix_rfl, List.prefix_rfl⟩

/-- The single objects that a placed image sets. -/
def placedObjects : List Nat :=
  [O.scaleTableBase, O.scaleTableEntries, O.ledgerSlots, O.agreementScaleBase, O.agreementScaleEntries, O.placementGroups, O.placementBudgetBytes,
    O.domainSeed, O.imageId, O.logicalPosition, O.timeParentPort, O.routeRows, O.voidCount, O.holdPeakBytes, O.holdPeakBytes + 1, O.partnersActive]

theorem placedObjects_clear : ∀ k ∈ placedObjects, ¬ PeriodObject k := by decide

namespace UnitClosed

open CoreClosed (ite foldl foldl_of)

section
variable {R : Pkg → Prop} {q : Pkg} (hR : UnitClosed R)
include hR

theorem setImageState (n : Nat) (h : R q) : R (q.setImageState n) := hR.setErrBit _ _ (hR.setReg (by decide) n h)

/-! ### The end of a save hold without its trailer (R352) -/

theorem ringRoom (h : R q) : R q.ringRoom.2 := by
  have hread : R (q.agentBytes ioA (q.ringBase + 8) 8).2 := hR.agent.agentBytes _ _ _ h
  unfold Pkg.ringRoom
  extract_lets r
  split
  · exact hread
  · exact hread

theorem putRecord (hd payload : List Byte) (h : R q) : R (q.putRecord hd payload) := by
  unfold Pkg.putRecord
  extract_lets a written n
  have hwritten : R written := hR.agent.agentWrite _ _ _ (hR.agent.agentWrite _ _ _ h)
  exact hR.agent.agentWrite _ _ _ (hR.same hwritten rfl rfl)

theorem copyBlock (r src dst n : Nat) (h : R q) : R (q.copyBlock r src dst n) :=
  hR.agent.agentWriteWords _ _ _ (hR.agent.agentRead _ _ _ h)

theorem applySwap (i : Image) (e : Nat × Nat × Nat) (h : R q) : R (q.applySwap i e) := by
  unfold Pkg.applySwap
  extract_lets n a b r copied g
  have hcopied : R copied := hR.copyBlock _ _ _ _ (hR.copyBlock _ _ _ _ (hR.copyBlock _ _ _ _ h))
  exact hR.same hcopied rfl rfl

theorem finishSwap (i : Image) (h : R q) : R (q.finishSwap i) := by
  unfold Pkg.finishSwap
  split
  · exact h
  · rename_i e r _
    extract_lets n swapped _ left
    have hleft : R left := hR.same (hR.applySwap i e h) rfl rfl
    exact ite (hR.raise _ _ _ (hR.bump (by decide) n (hR.setReg (by decide) 0 hleft))) hleft

theorem writeSysPlace (x : SecPart) (h : R q) : R (q.writeSysPlace x) := hR.protWrite _ _ _ _ _ h

theorem cutSwaps (i : Image) (h : R q) : R (q.cutSwaps i) := by
  unfold Pkg.cutSwaps
  extract_lets finished recorded _
  have hfinished : R finished := hR.finishSwap i h
  have hrecorded : R recorded := by
    cases hx : finished.securing with
    | none => simp only [recorded, hx]; exact hfinished
    | some x => simp only [recorded, hx]; exact hR.writeSysPlace x hfinished
  exact ite h (hR.setReg (by decide) 5 (hR.setReg (by decide) 0 (hR.same hrecorded rfl rfl)))

theorem abandonSave (h : R q) : R q.abandonSave := by
  unfold Pkg.abandonSave
  split
  · rename_i hold i _ _
    extract_lets room seen closed cut mine _
    have hseen : R seen := hR.ringRoom h
    have hcut : R cut := hR.cutSwaps i (ite (hR.putRecord _ _ hseen) hseen)
    exact ite h (hR.raise _ _ _ (hR.same hcut rfl rfl))
  · exact h

/-! ### The halt for a recovery (R351) -/

theorem stopForRecovery (h : R q) : R q.stopForRecovery := by
  unfold Pkg.stopForRecovery
  extract_lets abandoned _ cleared _ stopped
  have habandoned : R abandoned := hR.abandonSave (hR.same h rfl rfl (stopTiles_grown q))
  have hcleared : R cleared := hR.same habandoned rfl rfl
  have hstopped : R stopped := hR.same hcleared rfl rfl
  exact ite (hR.setImageState 5 (hR.setReg (by decide) 4 hstopped)) hstopped

theorem beginRecovery (i : Image) (failed : List Nat) (h : R q) : R (q.beginRecovery i failed) := by
  unfold Pkg.beginRecovery
  extract_lets stopped r me begun
  have hbegun : R begun := hR.same (hR.stopForRecovery h) rfl rfl
  refine ite hbegun ?_
  split
  · exact hbegun
  · exact hR.flood _ _ _ hbegun

/-! ### The plan (R353, R356) -/

theorem failedSteps (x : SecPart) (f : Nat) (h : R q) : R (q.failedSteps x f).2 := by
  unfold Pkg.failedSteps
  extract_lets free
  have hfree {p : Pkg} (hp : R p) : R (free p).2 := hR.fresh (hR.fresh hp)
  split
  · have hread := hR.agent.agentBytes ioA (x.protBase + 4 * mib) 16 h
    split
    · rename_i heq
      rw [heq] at hread
      exact hread
    · rename_i heq
      rw [heq] at hread
      exact hfree hread
  · exact hfree h

theorem consistent (x : SecPart) (r : Recov) (h : R q) : R (q.consistent x r).2 :=
  foldl_of (f := fun (acc : Bool × Pkg) f =>
    let v := acc.2.failedSteps x f
    (acc.1 && decide (v.1 = (q.secure.lastComplete, q.secure.lastComplete)), v.2)) (fun _ _ hacc => hR.failedSteps _ _ hacc) _ h

theorem planOf (i : Image) (x : SecPart) (r : Recov) (h : R q) : R (q.planOf i x r).2 := hR.consistent x r h

/-! ### What a plan does (R354, R355, R357) -/

theorem applyEntry (e : Nat × Nat) (h : R q) : R (q.applyEntry e) := by
  unfold Pkg.applyEntry
  split
  · exact h
  · exact hR.setReg (by decide) 0 (hR.setReg (by decide) _ (hR.same h rfl rfl))

theorem loadCheck (req : LoadReq) (given : Option Nat) (h : R q) : R (q.loadCheck req given).2 := by
  unfold Pkg.loadCheck
  split
  · exact hR.agent.agentRead _ _ _ h
  · exact h

theorem rejectImage (e : Reject) (h : R q) : R (q.rejectImage e) := by
  unfold Pkg.rejectImage
  extract_lets noted
  have hnoted : R noted := hR.raise _ _ _ (hR.setReg (by decide) _ (hR.bump (by decide) 1 h))
  split
  · exact hnoted
  · exact hR.raise _ _ _ hnoted

theorem placeImage (i : Image) (pos : Nat) (h : R q) : R (q.placeImage i pos) := by
  have htables (d : Nat) (hd : d ∈ List.range 4) : ¬ PeriodObject (O.dispatchTables + d) := by
    rw [List.mem_range] at hd
    simp only [PeriodObject, O.dispatchTables]
    omega
  have hports (k : Nat) (hk : k ∈ List.range 12) : ¬ PeriodObject (O.portState + k) := by
    rw [List.mem_range] at hk
    simp only [PeriodObject, O.portState]
    omega
  unfold Pkg.placeImage
  extract_lets scaled agreed set tables
  refine List.foldlRecOn _ _ (hR.agent.agentWrite _ _ _ (hR.agent.agentWrite _ _ _ h)) fun p hp e he => hR.setReg ?_ _ hp
  rw [List.append_assoc, List.mem_append, List.mem_append] at he
  rcases he with he | he | he
  · obtain ⟨d, hd, rfl⟩ := List.mem_map.mp he
    exact htables d hd
  · exact placedObjects_clear _ (List.mem_map_of_mem (f := Prod.fst) he)
  · obtain ⟨k, hk, rfl⟩ := List.mem_map.mp he
    exact hports k (List.mem_of_mem_filter hk)

theorem installImage (x : Loading) (h : R q) : R (q.installImage x) := by
  unfold Pkg.installImage
  extract_lets i ts _ _ _ _ installed
  have hinstalled : R installed := hR.same h rfl rfl
  exact hR.setReg (by decide) _ (hR.placeImage i x.pos hinstalled)

theorem startMethods (h : R q) : R q.startMethods := by
  unfold Pkg.startMethods
  split
  · exact h
  · exact hR.same h rfl rfl

theorem takePosition (pos : Nat) (h : R q) : R (q.takePosition pos) := by
  unfold Pkg.takePosition
  split
  · exact h
  · extract_lets req
    have hcheck := hR.loadCheck req (some pos) h
    split
    · rename_i heq
      rw [heq] at hcheck
      exact hR.rejectImage _ hcheck
    · rename_i heq
      rw [heq] at hcheck
      exact hR.startMethods (hR.setImageState 2 (hR.installImage _ hcheck))

theorem memPut (a : Nat) (v : Option W128) (h : R q) : R (q.memPut a v) := hR.agent.memWrite _ _ (hR.agent.drainLine _ h)

theorem buildProtection (x : SecPart) (k : Nat) (parity : Bool) (h : R q) : R (q.buildProtection x k parity) := by
  unfold Pkg.buildProtection
  split
  · exact h
  · extract_lets pos
    refine ite ?_ (foldl (fun _ _ hp => hR.agent.sendLine _ _ _ _ _ hp) _ h)
    split
    · exact foldl (fun _ _ hp => hR.memPut _ _ (hR.fresh (hR.fresh hp))) _ h
    · exact h

theorem recopy (x : SecPart) (failed : List Nat) (h : R q) : R (q.recopy x failed) := by
  unfold Pkg.recopy
  extract_lets rebuilt copyArea
  have hrebuilt : R rebuilt := foldl (fun _ _ hp => ite hp (hR.buildProtection _ _ _ hp)) _ h
  have hcopy (p : Pkg) (which base n : Nat) (hp : R p) : R (copyArea p which base n) :=
    foldl (fun _ _ hq => hR.agent.sendLine _ _ _ _ _ hq) _ hp
  exact ite h (hcopy _ _ _ _ (hcopy _ _ _ _ hrebuilt))

theorem applyEntries (a : RecPlan) (h : R q) : R (q.applyEntries a) := by
  unfold Pkg.applyEntries
  extract_lets me taken
  refine foldl (fun _ e hp => hR.applyEntry e hp) _ ?_
  simp only [taken]
  split
  · exact ite (hR.takePosition _ h) h
  · exact h

theorem beginRestore (h : R q) : R q.beginRestore := hR.ringMode 1 (hR.agent.agentWrite _ _ _ (hR.same h rfl rfl))

theorem beginUncovered (h : R q) : R q.beginUncovered := hR.same (hR.ringMode 0 h) rfl rfl

theorem haltUncovered (h : R q) : R q.haltUncovered := hR.raise _ _ _ (hR.setReg (by decide) 4 (hR.same h rfl rfl))

theorem applyPlan (a : RecPlan) (h : R q) : R (q.applyPlan a) := by
  unfold Pkg.applyPlan
  split
  · exact h
  · rename_i i _
    extract_lets halted r planned _ timed secured applied _
    have hhalted : R halted := ite (hR.beginRecovery i a.failed h) h
    have htimed : R timed := hR.same (q := planned) (hR.same hhalted rfl rfl) rfl rfl
    have hsecured : R secured := by
      simp only [secured]
      split
      · exact hR.secureInterval i _ htimed
      · exact htimed
    have happlied : R applied := hR.applyEntries a hsecured
    split
    · refine ite happlied ?_
      split
      · exact happlied
      · exact hR.recopy _ _ (hR.setReg (by decide) 2 happlied)
    · exact ite happlied (hR.beginRestore (hR.setReg (by decide) 3 (hR.setReg (by decide) 0 (hR.same happlied rfl rfl))))
    · exact ite (hR.beginUncovered hsecured) hsecured
    · exact ite (hR.haltUncovered hsecured) hsecured

theorem floodPlan (a : RecPlan) (h : R q) : R (q.floodPlan a) := hR.applyPlan a (hR.flood _ _ _ h)

theorem planNow (i : Image) (r : Recov) (h : R q) : R (q.planNow i r) := by
  unfold Pkg.planNow
  split
  · exact hR.floodPlan _ h
  · exact hR.floodPlan _ (hR.planOf _ _ _ h)

/-! ### Notices (R350, R356, R358) -/

theorem dropSpare (phys : Nat) (h : R q) : R (q.dropSpare phys) := by
  unfold Pkg.dropSpare
  extract_lets _ dropped
  have hdropped : R dropped := hR.same h rfl rfl
  split
  · exact hdropped
  · exact hR.same hdropped rfl rfl

theorem loseSpare (phys : Nat) (h : R q) : R (q.loseSpare phys) := hR.raise _ _ _ (hR.dropSpare phys h)

theorem noticeIn (src pos : Nat) (hnoted : R (q.raise 0x4805 noUnit 0)) : R (q.noticeIn src pos) := by
  unfold Pkg.noticeIn
  extract_lets noted
  refine ite (hR.loseSpare src hnoted) ?_
  split
  · exact hnoted
  · split
    · exact ite (hR.beginRecovery _ _ hnoted) hnoted
    · extract_lets again f r2 dropped named
      have hdropped : R dropped := by
        simp only [dropped]
        split
        · split
          · exact hR.dropSpare _ hnoted
          · exact hnoted
        · exact hnoted
      have hnamed : R named := hR.same hdropped rfl rfl
      exact ite (hR.same hnoted rfl rfl) (ite (hR.planNow _ _ hnamed) hnamed)

end

end UnitClosed

end Sys2Proof.Machine

namespace Sys2Proof.Machine

/-! ## Failures (R349 to R351, R356, R358) -/

theorem setWord_grown (q : Pkg) (a : Nat) (w : PWord) : Grown q (q.setWord a w) := by
  unfold Pkg.setWord Pkg.setCheck
  dsimp only
  split <;> exact ⟨List.prefix_rfl, List.prefix_rfl⟩

theorem Grown.refl (p : Pkg) : Grown p p := ⟨List.prefix_rfl, List.prefix_rfl⟩

theorem Grown.trans {p q r : Pkg} (h : Grown p q) (h' : Grown q r) : Grown p r := ⟨h.events.trans h'.events, h.out.trans h'.out⟩

/-- Events on their way and messages sent are there after everything that the units do. -/
theorem grown_unitClosed (p : Pkg) : UnitClosed (Grown p) where
  same h _ _ hgrown := h.trans hgrown
  reg _ _ h := ⟨h.events, h.out⟩
  setWord a w h := h.trans (setWord_grown _ a w)

theorem noticeIn_grown (p : Pkg) (src pos : Nat) : Grown (p.raise 0x4805 noUnit 0) (p.noticeIn src pos) :=
  (grown_unitClosed _).noticeIn src pos (.refl _)

theorem noticeIn_raises (s : State) (p : Pkg) (src pos : Nat) : RaisedEver (s.settle (p.noticeIn src pos)) 0x4805 := by
  obtain ⟨r, hr, hcode⟩ := hasEvent_raise p 0x4805 noUnit 0
  exact ⟨r, (noticeIn_grown p src pos).events.subset hr, hcode⟩

/-! ### A package that declares itself failed -/

theorem stopTiles_stopped (p : Pkg) (n : Nat) : (p.stopTiles.tile n).seq.running = false :=
  at_mapVals (f := fun x : Tile => { x with seq := { x.seq with running := false, hold := none } }) (fun x : Tile => x.seq.running = false) rfl
    (fun _ => rfl) n p.tiles

theorem setErrBit_out (p : Pkg) (i : Nat) (b : Bool) : (p.setErrBit i b).out = p.out := by
  obtain ⟨d, hd⟩ := setErrBit_changes_dict p i b
  rw [hd]

theorem setErrBit_ev (p : Pkg) (i : Nat) (b : Bool) : (p.setErrBit i b).ev = p.ev := by
  obtain ⟨d, hd⟩ := setErrBit_changes_dict p i b
  rw [hd]

theorem declareFailed_noPosition (p : Pkg) : p.declareFailed.posImage = none := if_pos (Or.inl (declareFailed_failed p))

theorem failed_stopTiles_out (p : Pkg) : ({ p.stopTiles with failed := true } : Pkg).out = p.out := rfl
theorem failed_stopTiles_ev (p : Pkg) : ({ p.stopTiles with failed := true } : Pkg).ev = p.ev := rfl
theorem failed_stopTiles_tile (p : Pkg) (n : Nat) : ({ p.stopTiles with failed := true } : Pkg).tile n = p.stopTiles.tile n := rfl

theorem declareFailed_floods (p : Pkg) (h : p.failed = false) : p.declareFailed.out = p.out ++ [.class0 ⟨0x21, p.reg O.domainPhysId, 0,
    (p.sched.originSeq + 1) % 2 ^ 32, [p.reg O.logicalPosition, p.reg O.logicalPosition, p.reg O.domainBeat]⟩] := by
  rw [declareFailed_eq p h, failed_stopTiles_out, Pkg.failureNotice, setErrBit_out, raise_out, flood_out, Pkg.floodMsg]

theorem declareFailed_reports (p : Pkg) (h : p.failed = false) : p.declareFailed.ev.inFlight.getLast?.map (·.code) = some 0x4805 := by
  rw [declareFailed_eq p h, failed_stopTiles_ev, Pkg.failureNotice, setErrBit_ev]
  exact raised_last _ _ _ _

theorem declareFailed_stops (p : Pkg) (h : p.failed = false) (n : Nat) : (p.declareFailed.tile n).seq.running = false := by
  rw [declareFailed_eq p h, failed_stopTiles_tile]
  exact stopTiles_stopped _ n

/-! ### A spare that failed (R356, R358) -/

/-- What the loss of a spare changes. -/
theorem dropSpare_eq (p : Pkg) (phys : Nat) : ∃ l, p.dropSpare phys =
    { p with secure := { p.secure with spareDead := p.secure.spareDead.put false phys true }, loader := l } := by
  unfold Pkg.dropSpare
  dsimp only
  cases h : p.loader.image with
  | none => exact ⟨p.loader, rfl⟩
  | some i => exact ⟨_, rfl⟩

/-- No entry that names the spare is usable. -/
theorem dropSpare_unusable {p : Pkg} {phys : Nat} {i : Image} (h : (p.dropSpare phys).loader.image = some i) :
    ∀ m ∈ i.remapPkgs, m.value = phys → m.usable = false := by
  intro m hm hvalue
  unfold Pkg.dropSpare at h
  dsimp only at h
  cases himage : p.loader.image with
  | none =>
    rw [himage] at h
    exact absurd (himage.symm.trans h) nofun
  | some i₀ =>
    rw [himage] at h
    obtain rfl := Option.some.inj h
    obtain ⟨m₀, -, rfl⟩ := List.mem_map.mp hm
    split at hvalue
    · exact if_pos ‹_› ▸ rfl
    · exact absurd hvalue ‹_›

/-- A package that loses a spare: what the state that it answers shows. -/
structure LosesSpare (s t : State) (phys : Nat) : Prop where
  dead : t.pkg.secure.spareDead.at false phys = true
  event : RaisedLast t 0x480A
  unusable : ∀ i, t.pkg.loader.image = some i → ∀ m ∈ i.remapPkgs, m.value = phys → m.usable = false
  memory : SameMemory s t
  regs : SameRegs s t
  tiles : t.pkg.tiles = s.pkg.tiles

theorem loseSpare_loses (s : State) (p : Pkg) (phys : Nat) (hmem : p.mem = s.pkg.mem) (hreg : ∀ k, p.reg k = s.pkg.reg k)
    (htiles : p.tiles = s.pkg.tiles) : LosesSpare s (s.settle (p.loseSpare phys)) phys := by
  obtain ⟨l, hl⟩ := dropSpare_eq p phys
  have hdropped : (p.loseSpare phys).loader = (p.dropSpare phys).loader := rfl
  constructor
  case unusable =>
    intro i hi
    exact dropSpare_unusable (p := p) (hdropped ▸ hi)
  all_goals unfold Pkg.loseSpare; rw [hl]
  · show (p.secure.spareDead.put false phys true).at false phys = true
    rw [SMap.at_put_self]
  · exact raised_last _ _ _ _
  · exact sameMemory_settle hmem
  · exact sameRegs_settle hreg
  · exact htiles

/-! ### Notices from other packages -/

section
variable (s : State) (x : C0In) (rep beat : Nat) (hruns : s.Runs .link) (hnew : IsNew x s.pkg)
include hruns hnew

theorem notice_acts (pos : Nat) :
    exec (.failureNotice x pos rep beat) s = .next (s.settle ((forwarded x 0x21 [pos, rep, beat] s.pkg).noticeIn x.src pos)) := by
  have hexec : exec (.failureNotice x pos rep beat) s = execFailureNotice x pos rep beat s := rfl
  rw [hexec, execFailureNotice, on_runs s .link _ hruns, floodIn_new hnew]

theorem notice_reports (pos : Nat) : ∃ t, exec (.failureNotice x pos rep beat) s = .next t ∧ RaisedEver t 0x4805 :=
  ⟨_, notice_acts s x rep beat hruns hnew pos, noticeIn_raises s _ x.src pos⟩

theorem notice_of_spare : ∃ t, exec (.failureNotice x 0xFFFF rep beat) s = .next t ∧ t.pkg.secure.spareDead.at false x.src = true ∧
    RaisedLast t 0x480A ∧ t.pkg.reg O.imageState = s.pkg.reg O.imageState ∧ SameMemory s t ∧ SameRegs s t := by
  have hacts := notice_acts s x rep beat hruns hnew 0xFFFF
  rw [Pkg.noticeIn, if_pos rfl] at hacts
  have hloses := loseSpare_loses s ((forwarded x 0x21 [0xFFFF, rep, beat] s.pkg).raise 0x4805 noUnit 0) x.src (forwarded_mem ..)
    (fun k => forwarded_reg x _ _ _ k) (forwarded_tiles ..)
  exact ⟨_, hacts, hloses.dead, hloses.event, hloses.regs _, hloses.memory, hloses.regs⟩

theorem report_kept (r : RecReport) (v : Recov) (hrecov : s.pkg.secure.recov = some v) :
    ∃ t, exec (.recoveryReport x r) s = .next t ∧ t.pkg.secure.recov = some { v with reports := v.reports ++ [r] } ∧ SameMemory s t ∧
      SameRegs s t ∧ t.pkg.tiles = s.pkg.tiles := by
  have hexec : exec (.recoveryReport x r) s = execRecoveryReport x r s := rfl
  rw [hexec, execRecoveryReport, on_runs s .link _ hruns, directedIn_new hnew]
  rw [show (remembered x s.pkg).secure.recov = some v from hrecov]
  exact ⟨_, rfl, rfl, sameMemory_settle rfl, sameRegs_settle fun _ => rfl, rfl⟩

end

theorem idleSpare_loses (s : State) (phys : Nat) (hruns : s.Runs .link) :
    ∃ t, exec (.idleSpareFailure phys) s = .next t ∧ LosesSpare s t phys := by
  have hexec : exec (.idleSpareFailure phys) s = execIdleSpareFailure phys s := rfl
  rw [hexec, execIdleSpareFailure, on_runs s .link _ hruns]
  exact ⟨_, rfl, loseSpare_loses s s.pkg phys rfl (fun _ => rfl) rfl⟩

/-! ### The halt of a running package (R351) -/

/-- A package whose transient state is gone (R351), where no save hold is in progress. -/
def Pkg.quiet (p : Pkg) : Pkg :=
  let p := p.stopTiles
  { p with
    engines := []
    disp := []
    tiers := p.tiers.mapVals TierEng.reset fun x => { x with busy := none }
    secure := { p.secure with hold := none, stepAtHalt := if p.reg O.imageState = 4 then p.reg O.generatorStep else p.secure.stepAtHalt }
    sched := { p.sched with slips := [], hold := none, late := [], startRun := none, startBeat := none, haltAt := none } }

theorem abandonSave_none {p : Pkg} (h : p.secure.hold = none) : p.abandonSave = p := by
  unfold Pkg.abandonSave
  rw [h]

theorem stopForRecovery_running {p : Pkg} (hhold : p.secure.hold = none) (hstate : p.reg O.imageState = 4) :
    p.stopForRecovery = (p.quiet.setReg O.securingState 4).setImageState 5 := by
  have hquiet : p.stopForRecovery =
      if p.quiet.reg O.imageState = 4 then (p.quiet.setReg O.securingState 4).setImageState 5 else p.quiet := by
    unfold Pkg.stopForRecovery
    rw [show p.stopTiles.abandonSave = p.stopTiles from abandonSave_none hhold]
    rfl
  rw [hquiet]
  exact if_pos (show p.quiet.reg O.imageState = 4 from hstate)

/-- What the package that a recovery halts shows (R351). -/
structure Halted (p q : Pkg) : Prop where
  image : q.reg O.imageState = 5
  securing : q.reg O.securingState = 4
  engines : q.engines = []
  disp : q.disp = []
  hold : q.sched.hold = none
  step : q.secure.stepAtHalt = p.reg O.generatorStep
  memory : q.mem = p.mem
  events : q.ev = p.ev

theorem quiet_halted {p : Pkg} (hstate : p.reg O.imageState = 4) : Halted p ((p.quiet.setReg O.securingState 4).setImageState 5) := by
  obtain ⟨d, hd⟩ := setImageState_eq (p.quiet.setReg O.securingState 4) 5
  have hsecuring : ((p.quiet.setReg O.securingState 4).setImageState 5).reg O.securingState = 4 := by
    rw [setImageState_reg_other _ _ _ (by decide) (by decide), reg_setReg_self]
  constructor
  case image => exact setImageState_reg_self ..
  case securing => exact hsecuring
  case step =>
    rw [hd]
    exact if_pos hstate
  all_goals rw [hd]; rfl

/-- The state of a recovery that begins with its first notice. -/
def Pkg.firstNotice (p : Pkg) (i : Image) (failed : List Nat) : Recov :=
  ⟨failed, p.stopForRecovery.mtime, if p.stopForRecovery.isCoordinator i failed then [p.stopForRecovery.ownReport] else [], none, none, false⟩

/-- A recovery begins with the halt, and perhaps a directed message. -/
theorem beginRecovery_eq (p : Pkg) (i : Image) (failed : List Nat) :
    p.beginRecovery i failed = p.stopForRecovery.setRecov (some (p.firstNotice i failed)) ∨
    ∃ dst payload, p.beginRecovery i failed = (p.stopForRecovery.setRecov (some (p.firstNotice i failed))).flood 0x25 dst payload := by
  unfold Pkg.beginRecovery
  extract_lets stopped r me begun
  split
  · exact .inl rfl
  · split
    · exact .inl rfl
    · exact .inr ⟨_, _, rfl⟩

theorem flood_halted {p q : Pkg} (h : Halted p q) (type dst : Nat) (payload : List Nat) : Halted p (q.flood type dst payload) := by
  constructor
  · rw [flood_reg, h.image]
  · rw [flood_reg, h.securing]
  · obtain ⟨l, hl⟩ := flood_eq q type dst payload
    rw [hl]
    exact h.engines
  · obtain ⟨l, hl⟩ := flood_eq q type dst payload
    rw [hl]
    exact h.disp
  · rw [flood_sched]
    exact h.hold
  · rw [flood_secure, h.step]
  · rw [flood_mem, h.memory]
  · rw [flood_ev, h.events]

theorem setRecov_halted {p q : Pkg} (h : Halted p q) (r : Option Recov) : Halted p (q.setRecov r) := by
  obtain ⟨himage, hsecuring, hengines, hdisp, hhold, hstep, hmemory, hevents⟩ := h
  exact ⟨himage, hsecuring, hengines, hdisp, hhold, hstep, hmemory, hevents⟩

theorem beginRecovery_halts {p : Pkg} (i : Image) (failed : List Nat) (hhold : p.secure.hold = none) (hstate : p.reg O.imageState = 4) :
    Halted p (p.beginRecovery i failed) ∧ ∃ r, (p.beginRecovery i failed).secure.recov = some r ∧ r.failed = failed ∧ r.closed = false := by
  have hhalted : Halted p (p.stopForRecovery.setRecov (some (p.firstNotice i failed))) := by
    rw [stopForRecovery_running hhold hstate]
    exact setRecov_halted (quiet_halted hstate) _
  rcases beginRecovery_eq p i failed with h | ⟨dst, payload, h⟩
  · rw [h]
    exact ⟨hhalted, _, rfl, rfl, rfl⟩
  · rw [h, flood_secure]
    exact ⟨flood_halted hhalted _ _ _, _, rfl, rfl, rfl⟩

theorem noticeIn_position {p : Pkg} {src pos : Nat} {i : Image} (hpos : pos ≠ 0xFFFF) (himage : p.posImage = some i)
    (hrecov : p.secure.recov = none) (hstate : p.reg O.imageState = 4) :
    p.noticeIn src pos = (p.raise 0x4805 noUnit 0).beginRecovery i [pos] := by
  unfold Pkg.noticeIn
  rw [if_neg hpos]
  dsimp only
  rw [show (p.raise 0x4805 noUnit 0).posImage = some i from himage, show (p.raise 0x4805 noUnit 0).secure.recov = none from hrecov]
  exact if_pos (Or.inl hstate)

theorem notice_halts (s : State) (x : C0In) (pos rep beat : Nat) (i : Image) (hruns : s.Runs .link) (hnew : IsNew x s.pkg) (hpos : pos ≠ 0xFFFF)
    (himage : s.pkg.posImage = some i) (hrecov : s.pkg.secure.recov = none) (hhold : s.pkg.secure.hold = none) (hstate : s.pkg.reg O.imageState = 4) :
    ∃ t r, exec (.failureNotice x pos rep beat) s = .next t ∧ t.pkg.reg O.imageState = 5 ∧ t.pkg.reg O.securingState = 4 ∧
      t.pkg.secure.recov = some r ∧ r.failed = [pos] ∧ r.closed = false ∧ RaisedLast t 0x4805 ∧ t.pkg.engines = [] ∧ t.pkg.disp = [] ∧
      t.pkg.sched.hold = none ∧ t.pkg.secure.stepAtHalt = s.pkg.reg O.generatorStep ∧ SameMemory s t := by
  have hacts := notice_acts s x rep beat hruns hnew pos
  have hfp : (forwarded x 0x21 [pos, rep, beat] s.pkg).posImage = some i := by
    rw [Pkg.posImage, forwarded_failed, forwarded_reg, forwarded_loader]
    exact himage
  have hmem := forwarded_mem x 0x21 [pos, rep, beat] s.pkg
  have hreg := forwarded_reg x 0x21 [pos, rep, beat] s.pkg
  have hsecure := forwarded_secure x 0x21 [pos, rep, beat] s.pkg
  generalize forwarded x 0x21 [pos, rep, beat] s.pkg = p at *
  rw [noticeIn_position hpos hfp (by rw [hsecure, hrecov]) (by rw [hreg, hstate])] at hacts
  obtain ⟨hhalted, r, hr, hfailed, hclosed⟩ := beginRecovery_halts (p := p.raise 0x4805 noUnit 0) i [pos]
    ((congrArg Secure.hold hsecure).trans hhold) ((hreg _).trans hstate)
  have hraised := raised_last p 0x4805 noUnit 0
  rw [← hhalted.events] at hraised
  have hstep := hhalted.step.trans (hreg O.generatorStep)
  have hmemory := hhalted.memory.trans hmem
  generalize (p.raise 0x4805 noUnit 0).beginRecovery i [pos] = q at *
  exact ⟨_, r, hacts, hhalted.image, hhalted.securing, hr, hfailed, hclosed, hraised, hhalted.engines, hhalted.disp, hhalted.hold, hstep,
    sameMemory_settle hmemory⟩

/-! ### A neighbour out of lock (R350) -/

theorem deadNeighbour_reported (s : State) (port : PortNo) (i : Image) (n : Nat) (hruns : s.Runs .data) (himage : s.pkg.posImage = some i)
    (hn : n = neighbourOf i.variant (s.pkg.reg O.logicalPosition) port.val) (hother : n ≠ s.pkg.reg O.logicalPosition)
    (hdown : (s.pkg.portsTo i n).any s.pkg.portUp = false) (hout : s.pkg.outOfLock (s.pkg.portsTo i n) = true) :
    ∃ t, exec (.deadDetectExpiry port) s = .next t ∧ RaisedEver t 0x4805 ∧
      Out.class0 ⟨0x21, s.pkg.reg O.domainPhysId, 0, (s.pkg.sched.originSeq + 1) % 2 ^ 32,
        [n, s.pkg.reg O.logicalPosition, s.pkg.reg O.domainBeat]⟩ ∈ t.pkg.out := by
  have hexec : exec (.deadDetectExpiry port) s = execDeadDetectExpiry port s := rfl
  rw [hexec, execDeadDetectExpiry, on_runs s .data _ hruns]
  dsimp only
  rw [himage]
  dsimp only
  rw [← hn, if_neg (by rw [hdown, hout]; simp [hother])]
  have hsent : Out.class0 (s.pkg.floodMsg 0x21 0 [n, s.pkg.reg O.logicalPosition, s.pkg.reg O.domainBeat]) ∈
      (s.pkg.flood 0x21 0 [n, s.pkg.reg O.logicalPosition, s.pkg.reg O.domainBeat]).out := by
    rw [flood_out]
    exact List.mem_append_right _ (List.mem_singleton.mpr rfl)
  generalize s.pkg.flood 0x21 0 [n, s.pkg.reg O.logicalPosition, s.pkg.reg O.domainBeat] = q at *
  exact ⟨_, rfl, noticeIn_raises s q _ _, (noticeIn_grown q _ _).out.subset hsent⟩

/-- Settles O45: everything that follows a notice only adds events and messages to those on their way. -/
theorem failureNotices : Obligations.FailureNotices := by
  refine ⟨fun p h => ⟨declareFailed_failed p, declareFailed_noPosition p, declareFailed_floods p h, declareFailed_reports p h,
    fun _ n => declareFailed_stops p h n⟩, fun s x pos rep beat hruns hnew => notice_reports s x rep beat hruns hnew pos,
    notice_halts, fun s x rep beat hruns hnew => notice_of_spare s x rep beat hruns hnew, ?_, deadNeighbour_reported,
    fun s x r v hruns hnew hrecov => report_kept s x hruns hnew r v hrecov⟩
  intro s phys hruns
  obtain ⟨t, hexec, hloses⟩ := idleSpare_loses s phys hruns
  exact ⟨t, hexec, hloses.dead, hloses.event, hloses.unusable, hloses.memory, hloses.regs, hloses.tiles⟩

end Sys2Proof.Machine

namespace Sys2Proof.Machine

/-! ## Class-0 messages at a port (R289, R293, R294) -/

/-- One port's part of a message that goes to every neighbour. -/
def Pkg.c0SendAt (m : C0Msg) (skip : Nat) (q : Pkg) (i : Nat) : Pkg :=
  if i ≠ skip ∧ q.reg (O.portState + i) = 2 then
    let x := q.port i
    q.setPort i { x with tx0 := x.tx0 ++ [c0Flit m false x.c0Tx], c0Tx := (x.c0Tx + 1) % 1024 }
  else q

theorem c0SendAt_reg (m : C0Msg) (skip i k : Nat) (q : Pkg) : (q.c0SendAt m skip i).reg k = q.reg k := by
  unfold Pkg.c0SendAt
  split <;> rfl

theorem c0SendAt_port_other (m : C0Msg) (skip i k : Nat) (q : Pkg) (h : k ≠ i) : (q.c0SendAt m skip i).port k = q.port k := by
  unfold Pkg.c0SendAt
  split
  · exact port_setPort_other q i k _ h
  · rfl

theorem c0SendAt_tx0 (m : C0Msg) (skip k : Nat) (q : Pkg) (hk : k ≠ skip) (hup : q.reg (O.portState + k) = 2) :
    ((q.c0SendAt m skip k).port k).tx0 = (q.port k).tx0 ++ [c0Flit m false (q.port k).c0Tx] := by
  unfold Pkg.c0SendAt
  rw [if_pos ⟨hk, hup⟩, port_setPort_self]

theorem foldl_c0SendAt_port_other (m : C0Msg) (skip k : Nat) (l : List Nat) (h : k ∉ l) (q : Pkg) :
    (l.foldl (Pkg.c0SendAt m skip) q).port k = q.port k := by
  induction l generalizing q with
  | nil => rfl
  | cons i l ih =>
    have hne : k ≠ i := List.ne_of_not_mem_cons h
    have hl : k ∉ l := List.not_mem_of_not_mem_cons h
    rw [List.foldl_cons, ih hl, c0SendAt_port_other m skip i k q hne]

theorem foldl_c0SendAt_tx0 (m : C0Msg) (skip k : Nat) (hk : k ≠ skip) (l : List Nat) (hnodup : l.Nodup) (hmem : k ∈ l) (q : Pkg)
    (hup : q.reg (O.portState + k) = 2) :
    ((l.foldl (Pkg.c0SendAt m skip) q).port k).tx0 = (q.port k).tx0 ++ [c0Flit m false (q.port k).c0Tx] := by
  induction l generalizing q with
  | nil => cases hmem
  | cons i l ih =>
    obtain ⟨hi, hl⟩ := List.nodup_cons.mp hnodup
    rw [List.foldl_cons]
    by_cases hki : k = i
    · subst hki
      rw [foldl_c0SendAt_port_other m skip k l hi, c0SendAt_tx0 m skip k q hk hup]
    · rw [ih hl ((List.mem_cons.mp hmem).resolve_left hki) _ ((c0SendAt_reg ..).trans hup), c0SendAt_port_other m skip i k q hki]

/-- A message to every neighbour waits behind what each up port sends, but for the port that it came by. -/
theorem c0Send_tx0 (p : Pkg) (m : C0Msg) (skip k : Nat) (hk : k ≠ skip) (hlt : k < 12) (hup : p.reg (O.portState + k) = 2) :
    ((p.c0Send m skip).port k).tx0 = (p.port k).tx0 ++ [c0Flit m false (p.port k).c0Tx] :=
  foldl_c0SendAt_tx0 m skip k hk (List.range 12) (List.nodup_range) (List.mem_range.mpr hlt) p hup

/-! ### A flit whose number is new -/

/-- The package as it stands when a new class-0 flit's message is read: its credit freed, its number remembered. -/
def Pkg.sawFlit (p : Pkg) (i seq : Nat) : Pkg :=
  (p.freeCredit i 0).setPort i { (p.freeCredit i 0).port i with c0Seen := (seq :: ((p.freeCredit i 0).port i).c0Seen).take 512 }

theorem freeCredit_seen (p : Pkg) (i : Nat) : ((p.freeCredit i 0).port i).c0Seen = (p.port i).c0Seen := by
  rw [Pkg.freeCredit, port_setPort_self]

theorem sawFlit_seen (p : Pkg) (i seq : Nat) : seq ∈ ((p.sawFlit i seq).port i).c0Seen := by
  rw [Pkg.sawFlit, port_setPort_self]
  exact List.mem_cons_self

theorem sawFlit_port_other (p : Pkg) (i k seq : Nat) (h : k ≠ i) : (p.sawFlit i seq).port k = p.port k :=
  (port_setPort_other _ i k _ h).trans (port_setPort_other _ i k _ h)

/-- A slip request that a message carries, while the data plane runs. -/
theorem via_slipRequest (p : Pkg) (x : C0In) (a b : Nat) (img : Image) (hruns : p.runs .data = true) (hnew : IsNew x p)
    (himage : p.loader.image = some img) :
    p.via (execSlipRequest x a b) = (forwarded x 0x01 [a, b] p).addSlip ⟨b, img.slipQuantum, .slip⟩ := by
  rw [Pkg.via, execSlipRequest, on_runs ⟨[], p, landsOf p⟩ .data _ hruns, floodIn_new hnew]
  dsimp only
  rw [forwarded_loader, himage]
  rfl

section
variable (s : State) (i : PortNo) (m : C0Msg) (copy : Bool) (seq : Nat) (hruns : s.Runs .link)
include hruns

theorem flit_again (replayed : Bool) (hseen : seq ∈ (s.pkg.port i.val).c0Seen) :
    Does (.class0Flit i m copy seq replayed) s (s.pkg.freeCredit i.val 0) := by
  have hexec : exec (.class0Flit i m copy seq replayed) s = execClass0Flit i m copy seq replayed s := rfl
  rw [Does, hexec, execClass0Flit, on_runs s .link _ hruns, Pkg.class0In]
  dsimp only
  rw [if_pos (by rwa [freeCredit_seen])]

theorem flit_new (hnew : seq ∉ (s.pkg.port i.val).c0Seen) :
    exec (.class0Flit i m copy seq false) s = .next (s.settle ((s.pkg.sawFlit i.val seq).messageIn i m)) := by
  have hexec : exec (.class0Flit i m copy seq false) s = execClass0Flit i m copy seq false s := rfl
  rw [hexec, execClass0Flit, on_runs s .link _ hruns, Pkg.class0In]
  dsimp only
  rw [if_neg (by rwa [freeCredit_seen])]
  rfl

theorem flit_reserved (hnew : seq ∉ (s.pkg.port i.val).c0Seen) (hmeaning : messageMeaning ⟨i, m.src, m.originSeq⟩ m = none) :
    ∃ t, exec (.class0Flit i m copy seq false) s = .next t ∧ RaisedLast t 0x440A ∧ seq ∈ (t.pkg.port i.val).c0Seen ∧ SameMemory s t ∧
      SameRegs s t := by
  rw [flit_new s i m copy seq hruns hnew, Pkg.messageIn]
  rw [hmeaning]
  exact ⟨_, rfl, raised_last _ _ _ _, sawFlit_seen s.pkg i.val seq, sameMemory_settle rfl, sameRegs_settle fun _ => rfl⟩

theorem flit_slip (img : Image) (hdata : s.Runs .data) (hnew : seq ∉ (s.pkg.port i.val).c0Seen) (htype : m.type = 0x01)
    (horigin : IsNew ⟨i, m.src, m.originSeq⟩ s.pkg) (himage : s.pkg.loader.image = some img) :
    ∃ t, exec (.class0Flit i m copy seq false) s = .next t ∧
      (⟨m.payload.getD 1 0, img.slipQuantum, .slip⟩ : Slip) ∈ t.pkg.sched.slips ∧ t.pkg.sched.filter.find m.src = some m.originSeq ∧
      SameMemory s t ∧ SameRegs s t := by
  have hacts : (s.pkg.sawFlit i.val seq).messageIn i m = (forwarded ⟨i, m.src, m.originSeq⟩ 0x01 [m.payload.getD 0 0, m.payload.getD 1 0]
      (s.pkg.sawFlit i.val seq)).addSlip ⟨m.payload.getD 1 0, img.slipQuantum, .slip⟩ := by
    have hmeaning : messageMeaning ⟨i, m.src, m.originSeq⟩ m =
        some (execSlipRequest ⟨i, m.src, m.originSeq⟩ (m.payload.getD 0 0) (m.payload.getD 1 0)) := by
      rw [messageMeaning, htype]
      rfl
    rw [Pkg.messageIn, hmeaning]
    dsimp only
    rw [htype, if_neg (by rintro ⟨h, -⟩; exact absurd h (by decide))]
    exact via_slipRequest _ _ _ _ img hdata horigin himage
  rw [flit_new s i m copy seq hruns hnew, hacts]
  have hfilter := forwarded_sched ⟨i, m.src, m.originSeq⟩ 0x01 [m.payload.getD 0 0, m.payload.getD 1 0] (s.pkg.sawFlit i.val seq)
  have hmem := forwarded_mem ⟨i, m.src, m.originSeq⟩ 0x01 [m.payload.getD 0 0, m.payload.getD 1 0] (s.pkg.sawFlit i.val seq)
  have hreg := forwarded_reg ⟨i, m.src, m.originSeq⟩ 0x01 [m.payload.getD 0 0, m.payload.getD 1 0] (s.pkg.sawFlit i.val seq)
  generalize forwarded ⟨i, m.src, m.originSeq⟩ 0x01 [m.payload.getD 0 0, m.payload.getD 1 0] (s.pkg.sawFlit i.val seq) = p at *
  refine ⟨_, rfl, mem_addSlip _ _, ?_⟩
  obtain ⟨l, hl⟩ := addSlip_eq p ⟨m.payload.getD 1 0, img.slipQuantum, .slip⟩
  rw [hl]
  refine ⟨?_, sameMemory_settle hmem, sameRegs_settle hreg⟩
  show p.sched.filter.find m.src = some m.originSeq
  rw [hfilter]
  exact filter_remembers _ _ _

theorem flit_forwarded (hnew : seq ∉ (s.pkg.port i.val).c0Seen) (htype : m.type = 0x03 ∨ m.type = 0x04 ∨ m.type = 0x25)
    (hdst : m.dst ≠ s.pkg.reg O.domainPhysId) (horigin : IsNew ⟨i, m.src, m.originSeq⟩ s.pkg) :
    ∃ t, exec (.class0Flit i m copy seq false) s = .next t ∧ t.pkg.sched.filter.find m.src = some m.originSeq ∧
      (∀ k : PortNo, k ≠ i → s.pkg.reg (O.portState + k.val) = 2 →
        (t.pkg.port k.val).tx0 = (s.pkg.port k.val).tx0 ++ [c0Flit m false (s.pkg.port k.val).c0Tx]) ∧
      t.pkg.sched.startRun = s.pkg.sched.startRun ∧ SameMemory s t ∧ SameRegs s t := by
  have hmeaning : ∃ f, messageMeaning ⟨i, m.src, m.originSeq⟩ m = some f := by
    rw [messageMeaning]
    rcases htype with h | h | h <;> rw [h] <;> exact ⟨_, rfl⟩
  obtain ⟨f, hmeaning⟩ := hmeaning
  have hacts : (s.pkg.sawFlit i.val seq).messageIn i m = (remembered ⟨i, m.src, m.originSeq⟩ (s.pkg.sawFlit i.val seq)).c0Send m i.val := by
    rw [Pkg.messageIn, hmeaning]
    dsimp only
    rw [if_pos ⟨decide_eq_true htype, hdst⟩, remembered]
    unfold IsNew at horigin
    rw [show (s.pkg.sawFlit i.val seq).sched = s.pkg.sched from rfl]
    cases hfind : s.pkg.sched.filter.find m.src with
    | none => rfl
    | some n =>
      rw [hfind] at horigin
      exact if_neg (by dsimp only; rw [show laterSeq m.originSeq n = true from horigin]; decide)
  rw [flit_new s i m copy seq hruns hnew, hacts]
  obtain ⟨l, hl⟩ := c0Send_changes_links (remembered ⟨i, m.src, m.originSeq⟩ (s.pkg.sawFlit i.val seq)) m i.val
  refine ⟨_, rfl, ?_, fun k hk hup => ?_, ?_⟩
  · rw [hl]
    exact filter_remembers _ _ _
  · have hne : k.val ≠ i.val := fun h => hk (Fin.ext h)
    have hport := sawFlit_port_other s.pkg i.val k.val seq hne
    have hsent := c0Send_tx0 (remembered ⟨i, m.src, m.originSeq⟩ (s.pkg.sawFlit i.val seq)) m i.val k.val hne k.isLt hup
    rw [show (remembered ⟨i, m.src, m.originSeq⟩ (s.pkg.sawFlit i.val seq)).port k.val = (s.pkg.sawFlit i.val seq).port k.val from rfl,
      hport] at hsent
    exact hsent
  · have hkept : ((remembered ⟨i, m.src, m.originSeq⟩ (s.pkg.sawFlit i.val seq)).c0Send m i.val).sched.startRun = s.pkg.sched.startRun ∧
        ((remembered ⟨i, m.src, m.originSeq⟩ (s.pkg.sawFlit i.val seq)).c0Send m i.val).mem = s.pkg.mem ∧
        ((remembered ⟨i, m.src, m.originSeq⟩ (s.pkg.sawFlit i.val seq)).c0Send m i.val).dict = s.pkg.dict := by
      rw [hl]
      exact ⟨rfl, rfl, rfl⟩
    obtain ⟨hstart, hmem, hdict⟩ := hkept
    exact ⟨hstart, sameMemory_settle hmem, sameRegs_settle fun k => reg_of_dict hdict k⟩

end

/-! ### A message that is not new -/

section
variable {s : State} {x : C0In} (hold : ¬ IsNew x s.pkg)
include hold

theorem not_later : ∃ n, s.pkg.sched.filter.find x.src = some n ∧ laterSeq x.originSeq n = false := by
  unfold IsNew at hold
  cases hfind : s.pkg.sched.filter.find x.src with
  | none =>
    rw [hfind] at hold
    exact absurd trivial hold
  | some n => exact ⟨n, rfl, by rw [hfind] at hold; exact Bool.eq_false_iff.mpr hold⟩

theorem floodIn_old (type : Nat) (payload : List Nat) (act : Pkg → Pkg) : s.pkg.floodIn x type payload act = s.pkg := by
  obtain ⟨n, hfind, hlater⟩ := not_later hold
  rw [Pkg.floodIn, hfind]
  exact if_pos (by dsimp only; rw [hlater]; rfl)

theorem directedIn_old (act : Pkg → Pkg) : s.pkg.directedIn x act = s.pkg := by
  obtain ⟨n, hfind, hlater⟩ := not_later hold
  rw [Pkg.directedIn, hfind]
  exact if_pos (by dsimp only; rw [hlater]; rfl)

theorem on_floodIn_old (pl : Plane) (type : Nat) (payload : List Nat) (act : Pkg → Pkg) :
    s.on pl (fun p => p.floodIn x type payload act) = .next (s.settle s.pkg) := by
  rw [on_next, floodIn_old hold, ite_self]

theorem on_directedIn_old (pl : Plane) (act : Pkg → Pkg) : s.on pl (fun p => p.directedIn x act) = .next (s.settle s.pkg) := by
  rw [on_next, directedIn_old hold, ite_self]

end

/-- Settles O48: a flit's message is read by its type, and a flood of an origin sequence that is not later is dropped before it acts. -/
theorem class0Messages : Obligations.Class0Messages := by
  refine ⟨fun s i m copy seq hruns => ⟨fun replayed hseen => flit_again s i m copy seq hruns replayed hseen,
    flit_reserved s i m copy seq hruns, fun img => flit_slip s i m copy seq hruns img, flit_forwarded s i m copy seq hruns⟩,
    fun s x hold => ⟨fun _ _ => ?_, fun _ => ?_, fun _ => ?_, fun _ _ => ?_, fun _ => ?_, fun _ _ _ => ?_, fun _ => ?_, fun _ _ => ?_, fun _ => ?_,
      fun _ _ _ => ?_, fun _ => ?_⟩⟩
  case refine_9 => exact on_directedIn_old hold .link _
  case refine_1 => exact on_floodIn_old hold .data _ _ _
  all_goals exact on_floodIn_old hold .link _ _ _

end Sys2Proof.Machine

namespace Sys2Proof.Machine

/-! ## Writes of the dictionary on the two memory paths (R384, R385, R391) -/

section
variable {s : State} {pt : Path} {idx sub v : Nat} (hruns : s.Runs .control) (hpt : pt ≠ .canFd)
include hruns hpt

theorem controlPath_runs : s.Runs (pathPlane pt) := by
  cases pt with
  | canFd => exact absurd rfl hpt
  | hostBar => exact hruns
  | core => exact hruns

/-- A plain write of one word above the control registers is a write of a word of its key. -/
theorem dictionaryWrite_word (hlow : 0x1000 ≤ idx) (hidx : idx < 2 ^ 16) (hsub : sub < 256) (hv : v < 2 ^ 32)
    (hserves : s.pkg.servesKey (idx * 256 + sub) = true) :
    Does (.dictionaryWrite pt idx sub 4 ⟨v, .plain⟩) s (s.pkg.writeWord32 pt (idx * 256 + sub) v) := by
  have hexec : exec (.dictionaryWrite pt idx sub 4 ⟨v, .plain⟩) s = execDictionaryWrite pt idx sub 4 ⟨v, .plain⟩ s := rfl
  have hkey : idx % 2 ^ 16 * 256 + sub % 256 = idx * 256 + sub := by rw [Nat.mod_eq_of_lt hidx, Nat.mod_eq_of_lt hsub]
  have hwrite : s.pkg.dictWrite pt (idx * 256 + sub) 4 v = s.pkg.mirrorWrite pt (idx * 256 + sub) 4 v := by
    unfold Pkg.dictWrite
    rw [if_neg (by rw [hserves]; decide)]
    cases pt with
    | canFd => exact absurd rfl hpt
    | hostBar => rfl
    | core => rfl
  rw [Does, hexec, execDictionaryWrite]
  dsimp only
  rw [on_runs s (pathPlane pt) _ (controlPath_runs hruns hpt), Pkg.dictWriteAs]
  rw [hkey, if_neg (by rw [Nat.mod_eq_of_lt hidx]; omega), hwrite, Pkg.mirrorWrite, if_neg (by omega), if_pos rfl, Nat.mod_eq_of_lt hv]

/-- A word written at the offset of a queue's doorbell rings it. -/
theorem dictionaryWrite_doorbell (q : QueueNo) (hv : v < 2 ^ 32) :
    Does (.dictionaryWrite pt 0 (2 * q.val) 4 ⟨v, .plain⟩) s (s.pkg.sqDoorbell pt q.val v) := by
  have hexec : exec (.dictionaryWrite pt 0 (2 * q.val) 4 ⟨v, .plain⟩) s = execDictionaryWrite pt 0 (2 * q.val) 4 ⟨v, .plain⟩ s := rfl
  have hoff : barOffset (0 % 2 ^ 16 * 256 + 2 * q.val % 256) = 8 * q.val := by
    unfold barOffset
    omega
  rw [Does, hexec, execDictionaryWrite]
  dsimp only
  rw [on_runs s (pathPlane pt) _ (controlPath_runs hruns hpt), Pkg.dictWriteAs]
  rw [if_pos ⟨hpt, by decide⟩, hoff, Pkg.controlWrite, if_neg (by omega), Pkg.registerWrite]
  dsimp only
  rw [if_pos ⟨by omega, by omega, toLe_length 4 v⟩, Nat.mul_div_cancel_left _ (by decide), leNat_toLe, Nat.mod_eq_of_lt (show v < 256 ^ 4 from hv)]

end

section
variable {p : Pkg} {pt : Path} {k v : Nat} {o : Obj} (hobj : objAt k = some o)
include hobj

theorem writeWord32_readOnly (hacc : o.acc = .ro) : p.writeWord32 pt k v = p.refuse pt k abRo := by
  rw [Pkg.writeWord32, hobj]
  exact if_pos hacc

theorem writeWord32_object (hwide : o.size ≠ 8) (hdomain : o.size ≠ 0) (hacc : o.acc ≠ .ro) :
    p.writeWord32 pt k v = p.writeObject pt o k v := by
  rw [Pkg.writeWord32, hobj]
  dsimp only
  rw [if_neg hacc, if_neg hwide, if_neg hdomain]

end

theorem writeObject_range {p : Pkg} {pt : Path} {k v : Nat} {o : Obj} (hacc : o.acc ≠ .ro) (hrange : valueOk o v = false) :
    p.writeObject pt o k v = p.refuse pt k abRange := by
  rw [Pkg.writeObject, if_neg hacc, if_pos (by rw [hrange]; rfl)]

/-- An object without a rule of its own: its access code decides (R9, R12, R391). -/
theorem writeObject_plain {p : Pkg} {pt : Path} {k v : Nat} {o : Obj} (hacc : o.acc ≠ .ro) (hrange : valueOk o v = true)
    (hsingle : p.single pt k v = none) (hqueue : p.queueObjects pt k v = none) (harray : p.arrayWrite pt k v = none) :
    p.writeObject pt o k v =
      if o.acc = .rws then (if p.reg O.cfgArmState ≠ 0 then p.refuse pt k abState else p.setShadow k v) else p.setReg k v := by
  rw [Pkg.writeObject, if_neg hacc, if_neg (by rw [hrange]; decide), hsingle, hqueue, harray]

theorem writeWord32_absent {p : Pkg} {pt : Path} {idx sub v : Nat} (hsub : sub < 256) (hobj : objAt (idx * 256 + sub) = none)
    (hhigh : highOf (idx * 256 + sub) = none) (hstring : stringWord (idx * 256 + sub) = none) :
    p.writeWord32 pt (idx * 256 + sub) v = p.refuse pt (idx * 256 + sub) (absentCode idx) := by
  rw [Pkg.writeWord32, hobj, hhigh, hstring, show (idx * 256 + sub) / 256 = idx by omega]

theorem statusPage_dropped {s : State} (pt : Path) {idx sub : Nat} (size v : Nat) (hruns : s.Runs .control) (hidx : idx < 2 ^ 16) (hsub : sub < 256) :
    Does (.dictionaryWrite pt idx sub size ⟨v, .statusPage⟩) s (s.pkg.raise 0x4609 noUnit (barOffset (idx * 256 + sub))) := by
  have hexec : exec (.dictionaryWrite pt idx sub size ⟨v, .statusPage⟩) s = execDictionaryWrite pt idx sub size ⟨v, .statusPage⟩ s := rfl
  rw [Does, hexec, execDictionaryWrite]
  dsimp only
  rw [on_runs s .control _ hruns, Pkg.dictWriteAs, Nat.mod_eq_of_lt hidx, Nat.mod_eq_of_lt hsub]
  rfl

theorem poisonedWrite_dropped {s : State} (idx sub size v : Nat) (hruns : s.Runs .control) :
    ∃ t, exec (.dictionaryWrite .hostBar idx sub size ⟨v, .poisoned⟩) s = .next t ∧ RaisedLast t 0x4609 ∧ t.pkg.host.pciH.poisonedTlp = true ∧
      SameMemory s t ∧ SameRegs s t ∧ SameShadow s t := by
  have hexec : exec (.dictionaryWrite .hostBar idx sub size ⟨v, .poisoned⟩) s = execDictionaryWrite .hostBar idx sub size ⟨v, .poisoned⟩ s := rfl
  rw [hexec, execDictionaryWrite, on_runs s (pathPlane .hostBar) _ hruns]
  exact ⟨_, rfl, raised_last _ _ _ _, rfl, fun _ => rfl, fun _ => rfl, fun _ => rfl⟩

/-- R385, R397: what a refusal shows, and all that it changes. -/
theorem refuse_shows (p : Pkg) (pt : Path) (k abort : Nat) :
    (p.refuse pt k abort).dict.shadow = p.dict.shadow ∧
      (p.refuse pt k abort).ev.inFlight.map (·.code) = p.ev.inFlight.map (·.code) ++ [if pt = .hostBar then 0x4609 else 0x2601] ∧
      (p.refuse pt k abort).out = p.out ++ (if pt = .canFd then [.usdoAbort abort] else []) ∧ (p.refuse pt k abort).tiles = p.tiles := by
  have hraised (q : Pkg) (code arg : Nat) : (q.raise code noUnit arg).ev.inFlight.map (·.code) = q.ev.inFlight.map (·.code) ++ [code] :=
    List.map_append
  cases pt with
  | hostBar => exact ⟨rfl, hraised _ _ _, (List.append_nil _).symm, rfl⟩
  | core => exact ⟨rfl, hraised _ _ _, (List.append_nil _).symm, rfl⟩
  | canFd => exact ⟨rfl, hraised _ _ _, rfl, rfl⟩

/-- Settles O52: a word is read as a control register or as its key's object, and what the object's rule decides is what the write does. -/
theorem dictionaryAccess : Obligations.DictionaryAccess := by
  refine ⟨⟨fun s pt idx sub v hruns hpt hlow hidx hsub hv hserves => ?_, fun s pt q v hruns hpt hv => dictionaryWrite_doorbell hruns hpt q hv,
    fun s pt idx sub size v hruns hidx hsub => ⟨statusPage_dropped pt size v hruns hidx hsub, poisonedWrite_dropped idx sub size v hruns⟩⟩,
    fun p pt k abort => ?_⟩
  · have hword := dictionaryWrite_word hruns hpt hlow hidx hsub hv hserves
    refine ⟨fun o hobj => ⟨fun hacc => ?_, fun hwide hdomain hacc hrange => ?_, fun hwide hdomain hrange hsingle hqueue harray =>
      ⟨fun hacc => ?_, fun hacc harm => ?_, fun hacc harm => ?_⟩⟩, fun hobj hhigh hstring => ?_⟩
    · rwa [writeWord32_readOnly hobj hacc] at hword
    · rwa [writeWord32_object hobj hwide hdomain hacc, writeObject_range hacc hrange] at hword
    · have hne : o.acc ≠ .ro := by rw [hacc]; decide
      rwa [writeWord32_object hobj hwide hdomain hne, writeObject_plain hne hrange hsingle hqueue harray, if_neg (by rw [hacc]; decide)] at hword
    · have hne : o.acc ≠ .ro := by rw [hacc]; decide
      rwa [writeWord32_object hobj hwide hdomain hne, writeObject_plain hne hrange hsingle hqueue harray, if_pos hacc,
        if_neg (not_not.mpr harm)] at hword
    · have hne : o.acc ≠ .ro := by rw [hacc]; decide
      rwa [writeWord32_object hobj hwide hdomain hne, writeObject_plain hne hrange hsingle hqueue harray, if_pos hacc, if_pos harm] at hword
    · rwa [writeWord32_absent hsub hobj hhigh hstring] at hword
  · obtain ⟨habort, herror⟩ := refuse_records p pt k abort
    obtain ⟨hshadow, hevents, hout, htiles⟩ := refuse_shows p pt k abort
    exact ⟨habort, herror, refuse_reg_other p pt k abort, hshadow, hevents, hout, refuse_mem .., htiles⟩

end Sys2Proof.Machine

namespace Sys2Proof.Machine

/-! ## The CAN FD node (R387, R388, R407) -/

theorem setErrBit_reads (p : Pkg) (i : Nat) (b : Bool) : bitOf ((p.setErrBit i b).reg O.errorRegister) i = b := by
  have hpos : 0 < 2 ^ i := Nat.two_pow_pos i
  unfold Pkg.setErrBit
  dsimp only
  split
  · assumption
  · rename_i hflip
    rw [reg_setReg_self]
    generalize p.reg O.errorRegister = v at hflip
    unfold bitOf at hflip ⊢
    cases b with
    | true =>
      simp only [beq_iff_eq] at hflip
      rw [if_pos rfl, Nat.add_div_right _ hpos]
      simp only [beq_iff_eq]
      omega
    | false =>
      simp only [beq_eq_false_iff_ne, ne_eq, Decidable.not_not] at hflip
      have hle : 2 ^ i ≤ v := by
        by_contra hlt
        rw [Nat.div_eq_of_lt (not_le.mp hlt)] at hflip
        exact absurd hflip (by decide)
      have hdiv := Nat.div_eq_sub_div hpos hle
      rw [if_neg Bool.false_ne_true]
      simp only [beq_eq_false_iff_ne]
      omega

/-! ### Error states (R407) -/

theorem fixCanBit_reads (p : Pkg) : bitOf (p.fixCanBit.reg O.errorRegister) 4 = (p.can.passive || p.can.offSeen) := setErrBit_reads p 4 _

theorem fixCanBit_eq (p : Pkg) : ∃ d, p.fixCanBit = { p with dict := d } := setErrBit_changes_dict p 4 _

@[simp] theorem fixCanBit_can (p : Pkg) : p.fixCanBit.can = p.can := by
  obtain ⟨d, hd⟩ := fixCanBit_eq p
  rw [hd]

@[simp] theorem fixCanBit_mem (p : Pkg) : p.fixCanBit.mem = p.mem := by
  obtain ⟨d, hd⟩ := fixCanBit_eq p
  rw [hd]

@[simp] theorem fixCanBit_ev (p : Pkg) : p.fixCanBit.ev = p.ev := by
  obtain ⟨d, hd⟩ := fixCanBit_eq p
  rw [hd]

@[simp] theorem fixCanBit_out (p : Pkg) : p.fixCanBit.out = p.out := by
  obtain ⟨d, hd⟩ := fixCanBit_eq p
  rw [hd]

theorem fixCanBit_reg_other (p : Pkg) (k : Nat) (h : k ≠ O.errorRegister) : p.fixCanBit.reg k = p.reg k := setErrBit_reg_other p 4 _ k h

theorem busOff_shown (s : State) (hruns : s.Runs .management) (hoff : s.pkg.can.busOff = false) :
    ∃ t, exec .canBusOff s = .next t ∧ t.pkg.can.busOff = true ∧ bitOf (t.pkg.reg O.errorRegister) 4 = true ∧
      t.pkg.reg O.canBusOffs = min (s.pkg.reg O.canBusOffs + 1) (2 ^ 32 - 1) ∧ RaisedLast t 0x1001 ∧ SameMemory s t ∧
      SameRegsBut (fun k => k = O.errorRegister ∨ k = O.canBusOffs) s t := by
  have hexec : exec .canBusOff s = execCanBusOff s := rfl
  rw [hexec, execCanBusOff, on_runs s .management _ hruns, if_neg (by rw [hoff]; decide)]
  have hcan : (((s.pkg.setCan { s.pkg.can with busOff := true, offSeen := true }).bump O.canBusOffs 1).raise 0x1001 noUnit 0).can =
    { s.pkg.can with busOff := true, offSeen := true } := rfl
  have hcount : (((s.pkg.setCan { s.pkg.can with busOff := true, offSeen := true }).bump O.canBusOffs 1).raise 0x1001 noUnit 0).reg O.canBusOffs =
    min (s.pkg.reg O.canBusOffs + 1) (2 ^ 32 - 1) := bump_reg_self ..
  have hother : ∀ k, k ≠ O.canBusOffs →
      (((s.pkg.setCan { s.pkg.can with busOff := true, offSeen := true }).bump O.canBusOffs 1).raise 0x1001 noUnit 0).reg k = s.pkg.reg k :=
    fun k hk => bump_reg_other _ k _ _ hk
  have hraised := raised_last ((s.pkg.setCan { s.pkg.can with busOff := true, offSeen := true }).bump O.canBusOffs 1) 0x1001 noUnit 0
  have hmem : (((s.pkg.setCan { s.pkg.can with busOff := true, offSeen := true }).bump O.canBusOffs 1).raise 0x1001 noUnit 0).mem = s.pkg.mem := rfl
  generalize ((s.pkg.setCan { s.pkg.can with busOff := true, offSeen := true }).bump O.canBusOffs 1).raise 0x1001 noUnit 0 = q at *
  refine ⟨_, rfl, ?_, ?_, ?_, ?_, sameMemory_settle ((fixCanBit_mem q).trans hmem), sameRegsBut_settle fun k hk => ?_⟩
  · rw [settle_pkg, fixCanBit_can, hcan]
  · rw [settle_pkg, fixCanBit_reads, hcan]
    exact Bool.or_true _
  · rw [settle_pkg, fixCanBit_reg_other _ _ (by decide), hcount]
  · rw [RaisedLast, settle_pkg, fixCanBit_ev, hraised]
  · obtain ⟨herr, hoffs⟩ := not_or.mp hk
    rw [fixCanBit_reg_other _ _ herr, hother k hoffs]

/-- What a command shows that leaves the package with another state of the controller, and bit 4 of error_register after it. -/
structure CanShown (s t : State) (x : Can) : Prop where
  can : t.pkg.can = x
  bit : bitOf (t.pkg.reg O.errorRegister) 4 = (x.passive || x.offSeen)
  memory : SameMemory s t
  regs : SameRegsBut (fun k => k = O.errorRegister) s t

theorem fixCanBit_shown {s : State} {q : Pkg} (hmem : q.mem = s.pkg.mem) (hreg : ∀ k, q.reg k = s.pkg.reg k) :
    CanShown s (s.settle q.fixCanBit) q.can where
  can := fixCanBit_can q
  bit := fixCanBit_reads q
  memory := sameMemory_settle ((fixCanBit_mem q).trans hmem)
  regs := sameRegsBut_settle fun k hk => (fixCanBit_reg_other q k hk).trans (hreg k)

theorem busOffRecovery_shown (s : State) (hruns : s.Runs .management) (hoff : s.pkg.can.busOff = true) :
    ∃ t, exec .canBusOffRecovery s = .next t ∧ CanShown s t { s.pkg.can with busOff := false, passive := false } := by
  have hexec : exec .canBusOffRecovery s = execCanBusOffRecovery s := rfl
  rw [hexec, execCanBusOffRecovery, on_runs s .management _ hruns, if_pos hoff]
  exact ⟨_, rfl, fixCanBit_shown rfl fun _ => rfl⟩

theorem errorActive_shown (s : State) (hruns : s.Runs .management) :
    ∃ t, exec .canErrorActive s = .next t ∧ CanShown s t { s.pkg.can with passive := false } := by
  have hexec : exec .canErrorActive s = execCanErrorActive s := rfl
  rw [hexec, execCanErrorActive, on_runs s .management _ hruns]
  exact ⟨_, rfl, fixCanBit_shown rfl fun _ => rfl⟩

theorem errorPassive_shown (s : State) (hruns : s.Runs .management) (hactive : s.pkg.can.passive = false) :
    ∃ t, exec .canErrorPassive s = .next t ∧ CanShown s t { s.pkg.can with passive := true } ∧ RaisedLast t 0x1002 := by
  have hexec : exec .canErrorPassive s = execCanErrorPassive s := rfl
  rw [hexec, execCanErrorPassive, on_runs s .management _ hruns, if_neg (by rw [hactive]; decide)]
  refine ⟨_, rfl, fixCanBit_shown rfl fun _ => rfl, ?_⟩
  rw [RaisedLast, settle_pkg, fixCanBit_ev]
  exact raised_last _ _ _ _

theorem errorRegister_read (s : State) (pt : Path) (hruns : s.Runs (pathPlane pt)) :
    ∃ t, exec (.errorRegisterRead pt) s = .next t ∧ t.pkg.out = s.pkg.out ++ [.value (s.pkg.reg O.errorRegister)] ∧
      CanShown s t { s.pkg.can with offSeen := false } := by
  have hexec : exec (.errorRegisterRead pt) s = execErrorRegisterRead pt s := rfl
  rw [hexec, execErrorRegisterRead, on_runs s (pathPlane pt) _ hruns]
  obtain ⟨hcan, hbit, hmem, hreg⟩ := fixCanBit_shown (s := s) (q := { s.pkg with can := { s.pkg.can with offSeen := false } }) rfl fun _ => rfl
  refine ⟨_, rfl, ?_, hcan, hbit, hmem, hreg⟩
  exact congrArg (· ++ [Out.value (s.pkg.reg O.errorRegister)]) (fixCanBit_out { s.pkg with can := { s.pkg.can with offSeen := false } })

/-! ### A wake source (R372) -/

/-- A wake reaches neither memory nor the CAN node. -/
structure WakeKept (p q : Pkg) : Prop where
  mem : q.mem = p.mem
  can : q.can = p.can

theorem WakeKept.trans {p q r : Pkg} (h : WakeKept p q) (h' : WakeKept q r) : WakeKept p r := ⟨h'.mem.trans h.mem, h'.can.trans h.can⟩

theorem foldl_wakeKept {α : Type} {f : Pkg → α → Pkg} (hf : ∀ q a, WakeKept q (f q a)) (l : List α) (p : Pkg) : WakeKept p (l.foldl f p) :=
  ⟨foldl_keeps Pkg.mem (fun q a => (hf q a).mem) l p, foldl_keeps Pkg.can (fun q a => (hf q a).can) l p⟩

theorem switchSupplies_kept (p : Pkg) (l : List Nat) (on : Bool) : WakeKept p (p.switchSupplies l on) := by
  unfold Pkg.switchSupplies
  refine foldl_wakeKept (fun _ _ => ?_) _ _
  exact ⟨rfl, rfl⟩

theorem fillBuckets_kept (p : Pkg) : WakeKept p p.fillBuckets := by
  unfold Pkg.fillBuckets
  refine foldl_wakeKept (fun _ _ => ?_) _ _
  exact ⟨rfl, rfl⟩

theorem queuePowering_kept (p : Pkg) (st : Nat) : WakeKept p (p.queuePowering st) := by
  unfold Pkg.queuePowering
  refine foldl_wakeKept (fun q r => ?_) _ _
  dsimp only
  split <;> exact ⟨rfl, rfl⟩

theorem beginWake_kept (p : Pkg) (target : Nat) : WakeKept p (p.beginWake target) := by
  unfold Pkg.beginWake
  extract_lets cur _ queued timed switched
  have htimed : WakeKept p timed := ⟨rfl, rfl⟩
  have hswitched : WakeKept p switched := by
    simp only [switched]
    split
    · exact htimed.trans (switchSupplies_kept timed _ true)
    · exact htimed
  exact hswitched.trans ((fillBuckets_kept switched).trans (queuePowering_kept _ cur))

theorem wakeSource_kept (p : Pkg) (bit : Nat) : WakeKept p (p.wakeSource bit) := by
  unfold Pkg.wakeSource
  split
  · rename_i q hq
    unfold Pkg.wakeDuringEntry at hq
    split at hq
    · split at hq
      · cases hq
      · obtain rfl := Option.some.inj hq
        exact ⟨rfl, rfl⟩
    · cases hq
  · split
    · exact ⟨rfl, rfl⟩
    · split
      · split
        · exact beginWake_kept p 3
        · exact ⟨rfl, rfl⟩
      · split
        · exact beginWake_kept p 0
        · exact ⟨rfl, rfl⟩

/-! ### NMT commands (R388) -/

theorem nmt_named (s : State) (n : Nat) (hruns : s.Runs .management) (hbus : s.pkg.onBus = true) (hnode : n = 0 ∨ n = s.pkg.reg O.canNodeId) :
    (∃ t, exec (.nmtStart n) s = .next t ∧ t.pkg.can.nmt = .operational ∧ SameMemory s t) ∧
      Does (.nmtStop n) s (s.pkg.setNmt .stopped) ∧ Does (.nmtPreOperational n) s (s.pkg.setNmt .preOp) ∧
      Does (.nmtResetNode n) s s.pkg.resetCommunication ∧ Does (.nmtResetCommunication n) s s.pkg.resetCommunication := by
  have hnames : s.pkg.nmtNames n = true := by rw [Pkg.nmtNames, hbus, decide_eq_true hnode]; rfl
  have halways : s.Runs .always := by
    have hclock := Bool.and_elim_left hruns
    exact Bool.and_intro hclock rfl
  refine ⟨?_, ?_, ?_, ?_, ?_⟩
  · have hexec : exec (.nmtStart n) s = execNmtStart n s := rfl
    rw [hexec, execNmtStart, on_runs s .always _ halways, if_neg (by rw [hnames]; decide), if_pos hruns]
    have hkept := wakeSource_kept (s.pkg.setNmt .operational) 1
    exact ⟨_, rfl, congrArg Can.nmt hkept.can, sameMemory_settle hkept.mem⟩
  · have hexec : exec (.nmtStop n) s = execNmtStop n s := rfl
    rw [Does, hexec, execNmtStop, on_runs s .management _ hruns, if_pos hnames]
  · have hexec : exec (.nmtPreOperational n) s = execNmtPreOperational n s := rfl
    rw [Does, hexec, execNmtPreOperational, on_runs s .management _ hruns, if_pos hnames]
  · have hexec : exec (.nmtResetNode n) s = execNmtResetNode n s := rfl
    rw [Does, hexec, execNmtResetNode, on_runs s .management _ hruns, if_pos hnames]
  · have hexec : exec (.nmtResetCommunication n) s = execNmtResetCommunication n s := rfl
    rw [Does, hexec, execNmtResetCommunication, on_runs s .management _ hruns, if_pos hnames]

theorem nmt_notNamed (s : State) (n : Nat) (hother : s.pkg.onBus = false ∨ (n ≠ 0 ∧ n ≠ s.pkg.reg O.canNodeId)) :
    Does (.nmtStart n) s s.pkg ∧ Does (.nmtStop n) s s.pkg ∧ Does (.nmtPreOperational n) s s.pkg ∧ Does (.nmtResetNode n) s s.pkg ∧
      Does (.nmtResetCommunication n) s s.pkg := by
  have hnames : s.pkg.nmtNames n = false := by
    rw [Pkg.nmtNames]
    rcases hother with hbus | hnode
    · rw [hbus, Bool.false_and]
    · rw [decide_eq_false (not_or.mpr hnode), Bool.and_false]
  refine ⟨?_, ?_, ?_, ?_, ?_⟩
  · have hexec : exec (.nmtStart n) s = execNmtStart n s := rfl
    simp only [Does, hexec, execNmtStart, on_next, hnames, Bool.not_false, if_true, ite_self]
  · have hexec : exec (.nmtStop n) s = execNmtStop n s := rfl
    simp only [Does, hexec, execNmtStop, on_next, hnames, Bool.false_eq_true, if_false, ite_self]
  · have hexec : exec (.nmtPreOperational n) s = execNmtPreOperational n s := rfl
    simp only [Does, hexec, execNmtPreOperational, on_next, hnames, Bool.false_eq_true, if_false, ite_self]
  · have hexec : exec (.nmtResetNode n) s = execNmtResetNode n s := rfl
    simp only [Does, hexec, execNmtResetNode, on_next, hnames, Bool.false_eq_true, if_false, ite_self]
  · have hexec : exec (.nmtResetCommunication n) s = execNmtResetCommunication n s := rfl
    simp only [Does, hexec, execNmtResetCommunication, on_next, hnames, Bool.false_eq_true, if_false, ite_self]

theorem heartbeat_sent (s : State) (hruns : s.Runs .management) (hbus : s.pkg.onBus = true) (hperiod : s.pkg.reg O.producerHeartbeatMs ≠ 0) :
    Does .heartbeat s (s.pkg.emit (.heartbeat (nmtCode s.pkg.can.nmt))) := by
  have hexec : exec .heartbeat s = execHeartbeat s := rfl
  rw [Does, hexec, execHeartbeat, on_runs s .management _ hruns, if_pos ⟨hbus, hperiod⟩]

theorem emcy_sent (s : State) (f : EvRec × Nat) (r : List (EvRec × Nat)) (hruns : s.Runs .management) (hemcy : s.pkg.ev.emcy = f :: r)
    (hbus : s.pkg.onBus = true) (hactive : s.pkg.can.passive = false) (hnmt : s.pkg.can.nmt ≠ .stopped) :
    Does .emcyTransmit s ((s.pkg.setEv { s.pkg.ev with emcy := r }).emit (.emcy f.1 f.2)) := by
  have hexec : exec .emcyTransmit s = execEmcyTransmit s := rfl
  rw [Does, hexec, execEmcyTransmit, on_runs s .management _ hruns, hemcy]
  dsimp only
  rw [if_neg (by rw [hbus, hactive]; simp [hnmt])]

/-! ### USDO (R385, R388) -/

section
variable {s : State} (hruns : s.Runs .management) (hbus : s.pkg.onBus = true) (hnmt : s.pkg.can.nmt ≠ .stopped)
include hruns hbus hnmt

/-- What a request does on the bus, while the node is not stopped. -/
theorem usdo_acts (f : UsdoFrame) : Does (.usdoRequest f) s (match f with
    | .read idx sub => s.pkg.usdoRead (idx % 2 ^ 16 * 256 + sub % 256)
    | .write idx sub bytes => s.pkg.answerWrite fun p => p.usdoSet (idx % 2 ^ 16 * 256 + sub % 256) bytes
    | .segStart idx sub len => (s.pkg.setCan { s.pkg.can with segment := some ⟨idx % 2 ^ 16, sub % 256, len, []⟩ }).emit .usdoAck
    | .segData bytes => s.pkg.segment bytes) := by
  have hexec : exec (.usdoRequest f) s = execUsdoRequest f s := rfl
  rw [Does, hexec, execUsdoRequest, on_runs s .management _ hruns]
  unfold Pkg.usdo
  dsimp only
  rw [if_neg (by rw [hbus]; simp [hnmt])] <;> rfl

theorem segment_gathered (g : Segment) (l : List Byte) (hseg : s.pkg.can.segment = some g) (hlen : g.got.length + l.length < g.len) :
    Does (.usdoRequest (.segData l)) s ((s.pkg.setCan { s.pkg.can with segment := some { g with got := g.got ++ l } }).emit .usdoAck) := by
  have hacts := usdo_acts hruns hbus hnmt (.segData l)
  dsimp only at hacts
  rw [Pkg.segment, hseg] at hacts
  dsimp only at hacts
  rw [List.length_append, if_neg (by omega), if_pos hlen] at hacts
  exact hacts

variable {idx sub : Nat} (hidx : idx < 2 ^ 16) (hsub : sub < 256)
include hidx hsub

theorem usdo_reads (hserves : s.pkg.servesKey (idx * 256 + sub) = true) : Does (.usdoRequest (.read idx sub)) s (match objAt (idx * 256 + sub) with
    | none => s.pkg.emit (.usdoAbort (absentCode idx))
    | some o => (s.pkg.readObject .canFd o (idx * 256 + sub)).2.emit
      (.usdoValue (toLe o.size (s.pkg.readObject .canFd o (idx * 256 + sub)).1))) := by
  have hacts := usdo_acts hruns hbus hnmt (.read idx sub)
  dsimp only at hacts
  rw [Nat.mod_eq_of_lt hidx, Nat.mod_eq_of_lt hsub, Pkg.usdoRead, if_neg (by rw [hserves]; decide),
    show (idx * 256 + sub) / 256 = idx by omega] at hacts
  exact hacts

theorem usdo_writes (l : List Byte) :
    Does (.usdoRequest (.write idx sub l)) s (s.pkg.answerWrite fun p => p.usdoSet (idx * 256 + sub) l) := by
  have hacts := usdo_acts hruns hbus hnmt (.write idx sub l)
  dsimp only at hacts
  rwa [Nat.mod_eq_of_lt hidx, Nat.mod_eq_of_lt hsub] at hacts

end

/-- A write that is refused answers its abort alone. -/
theorem answerWrite_refused {p : Pkg} {f : Pkg → Pkg} {k abort : Nat} (h : f p = p.refuse .canFd k abort) :
    p.answerWrite f = p.refuse .canFd k abort := by
  have hout : (p.refuse .canFd k abort).out = p.out ++ [.usdoAbort abort] := rfl
  rw [Pkg.answerWrite, h]
  exact if_pos (by rw [aborted, hout, List.drop_left]; rfl)

theorem answerWrite_done {p : Pkg} {f : Pkg → Pkg} (h : (f p).out = p.out) : p.answerWrite f = (f p).emit .usdoAck := by
  rw [Pkg.answerWrite]
  exact if_neg (by rw [aborted, h, List.drop_length]; decide)

section
variable {p : Pkg} {k : Nat} {l : List Byte} {o : Obj} (hserves : p.servesKey k = true) (hobj : objAt k = some o)
include hserves hobj

theorem usdoSet_readOnly (hacc : o.acc = .ro) : p.usdoSet k l = p.refuse .canFd k abRo := by
  rw [Pkg.usdoSet, if_pos hserves, Pkg.usdoWrite, hobj]
  exact if_pos hacc

theorem usdoSet_length (hacc : o.acc ≠ .ro) (hdomain : o.size ≠ 0) (hlen : l.length ≠ o.size) : p.usdoSet k l = p.refuse .canFd k abLen := by
  rw [Pkg.usdoSet, if_pos hserves, Pkg.usdoWrite, hobj]
  dsimp only
  rw [if_neg hacc, if_neg hdomain, if_pos hlen]

theorem usdoSet_object (hacc : o.acc ≠ .ro) (hdomain : o.size ≠ 0) (hlen : l.length = o.size) :
    p.usdoSet k l = p.writeObject .canFd o k (leNat l) := by
  rw [Pkg.usdoSet, if_pos hserves, Pkg.usdoWrite, hobj]
  dsimp only
  rw [if_neg hacc, if_neg hdomain, if_neg (not_not.mpr hlen)]

end

theorem usdoSet_absent {p : Pkg} {idx sub : Nat} (l : List Byte) (hsub : sub < 256) (hserves : p.servesKey (idx * 256 + sub) = true)
    (hobj : objAt (idx * 256 + sub) = none) : p.usdoSet (idx * 256 + sub) l = p.refuse .canFd (idx * 256 + sub) (absentCode idx) := by
  rw [Pkg.usdoSet, if_pos hserves, Pkg.usdoWrite, hobj, show (idx * 256 + sub) / 256 = idx by omega]

theorem segment_timesOut (s : State) (g : Segment) (hruns : s.Runs .management) (hseg : s.pkg.can.segment = some g) :
    Does .usdoSegmentTimeout s ((s.pkg.setCan { s.pkg.can with segment := none }).refuse .canFd (g.idx * 256 + g.sub) abSegment) := by
  have hexec : exec .usdoSegmentTimeout s = execUsdoSegmentTimeout s := rfl
  rw [Does, hexec, execUsdoSegmentTimeout, on_runs s .management _ hruns, hseg]

theorem usdo_silent (s : State) (f : UsdoFrame) (h : s.pkg.onBus = false ∨ s.pkg.can.nmt = .stopped) : Does (.usdoRequest f) s s.pkg := by
  have hexec : exec (.usdoRequest f) s = execUsdoRequest f s := rfl
  have hsilent : s.pkg.usdo f = s.pkg := by
    unfold Pkg.usdo
    refine if_pos ?_
    rcases h with hbus | hnmt
    · exact .inl (by rw [hbus]; rfl)
    · exact .inr hnmt
  rw [Does, hexec, execUsdoRequest, on_next, hsilent, ite_self]

/-- Settles O53: bit 4 of error_register is set anew with each change of the controller, and a request is read by its form. -/
theorem canAndUsdo : Obligations.CanAndUsdo := by
  refine ⟨⟨busOff_shown, fun s hruns hoff => ?_, fun s hruns hactive => ?_, fun s hruns => ?_, fun s pt hruns => ?_, nmt_named, nmt_notNamed,
    heartbeat_sent, emcy_sent⟩, ⟨fun s idx sub hruns hidx hsub hbus hnmt hserves => ⟨fun o hobj => ⟨?_, fun l => ⟨fun hacc => ?_,
      fun hacc hdomain hlen => ?_, fun hacc hdomain hlen hrange hsingle hqueue harray => ?_⟩⟩, fun hobj => ⟨?_, fun l => ?_⟩⟩,
    fun s g l hruns hbus hnmt hseg hlen => segment_gathered hruns hbus hnmt g l hseg hlen, segment_timesOut, usdo_silent⟩⟩
  · obtain ⟨t, hexec, hcan, hbit, hmem, hreg⟩ := busOffRecovery_shown s hruns hoff
    exact ⟨t, hexec, by rw [hcan], by rw [hcan], hbit, hmem, hreg⟩
  · obtain ⟨t, hexec, ⟨hcan, hbit, hmem, hreg⟩, hraised⟩ := errorPassive_shown s hruns hactive
    exact ⟨t, hexec, by rw [hcan], hbit, hraised, hmem, hreg⟩
  · obtain ⟨t, hexec, hcan, hbit, hmem, hreg⟩ := errorActive_shown s hruns
    exact ⟨t, hexec, by rw [hcan], hbit, hmem, hreg⟩
  · obtain ⟨t, hexec, hout, hcan, hbit, hmem, hreg⟩ := errorRegister_read s pt hruns
    exact ⟨t, hexec, hout, by rw [hcan], hbit.trans (Bool.or_false _), hmem, hreg⟩
  · have hreads := usdo_reads hruns hbus hnmt hidx hsub hserves
    rwa [hobj] at hreads
  · have hwrites := usdo_writes hruns hbus hnmt hidx hsub l
    rwa [answerWrite_refused (f := fun p => p.usdoSet (idx * 256 + sub) l) (usdoSet_readOnly hserves hobj hacc)] at hwrites
  · have hwrites := usdo_writes hruns hbus hnmt hidx hsub l
    rwa [answerWrite_refused (f := fun p => p.usdoSet (idx * 256 + sub) l) (usdoSet_length hserves hobj hacc hdomain hlen)] at hwrites
  · have hwrites := usdo_writes hruns hbus hnmt hidx hsub l
    have hne : o.acc ≠ .ro := by rw [hacc]; decide
    have hset : s.pkg.usdoSet (idx * 256 + sub) l = s.pkg.setReg (idx * 256 + sub) (leNat l) := by
      rw [usdoSet_object hserves hobj hne hdomain hlen, writeObject_plain hne hrange hsingle hqueue harray, if_neg (by rw [hacc]; decide)]
    rwa [answerWrite_done (f := fun p => p.usdoSet (idx * 256 + sub) l) (show (s.pkg.usdoSet (idx * 256 + sub) l).out = s.pkg.out by rw [hset]; rfl), hset] at hwrites
  · have hreads := usdo_reads hruns hbus hnmt hidx hsub hserves
    rwa [hobj] at hreads
  · have hwrites := usdo_writes hruns hbus hnmt hidx hsub l
    rwa [answerWrite_refused (f := fun p => p.usdoSet (idx * 256 + sub) l) (usdoSet_absent l hsub hserves hobj)] at hwrites

end Sys2Proof.Machine

namespace Sys2Proof.Machine

/-! ## Wear (R404 to R406, R409) -/

/-- What the predictions and the substitutions leave: memory, the queued flash writes and the rings of values. -/
def Pkg.wearPart (p : Pkg) : List Host.Cell × List FlashJob × SMap (List Int) := (p.mem, p.boot.flashQ, p.wear.rings)

theorem ownerWrite_unit_wearPart (p : Pkg) (k v event unit : Nat) : (p.ownerWrite .unit k v event unit).wearPart = p.wearPart := by
  unfold Pkg.ownerWrite
  split <;> rfl

theorem flood_wearPart (p : Pkg) (type dst : Nat) (payload : List Nat) : (p.flood type dst payload).wearPart = p.wearPart := by
  obtain ⟨l, hl⟩ := flood_eq p type dst payload
  rw [hl]
  rfl

theorem declareFailed_wearPart (p : Pkg) : p.declareFailed.wearPart = p.wearPart := by
  obtain ⟨sched, out, links, dict, ev, tiles, failed, h⟩ := declareFailed_changes p
  rw [h]
  rfl

theorem retireTile_wearPart (p : Pkg) (q : Nat) : (retireTile p q).wearPart = p.wearPart := by
  unfold retireTile
  dsimp only
  split
  · exact declareFailed_wearPart _
  · rfl

theorem retireWorn_wearPart (p : Pkg) : p.retireWorn.wearPart = p.wearPart := by
  unfold Pkg.retireWorn
  refine foldl_keeps Pkg.wearPart (fun q u => ?_) _ _
  split
  · exact retireTile_wearPart q u
  · rfl

theorem startSubstitution_wearPart (p : Pkg) (i lane : Nat) : (p.startSubstitution i lane).wearPart = p.wearPart := by
  unfold Pkg.startSubstitution
  dsimp only
  split
  · rfl
  · split <;> rfl

theorem qualifySpare_wearPart (p : Pkg) (u : Nat) : (p.qualifySpare u).2.wearPart = p.wearPart := by
  unfold Pkg.qualifySpare
  extract_lets d r sp claimed _
  have hclaimed : claimed.wearPart = p.wearPart := ownerWrite_unit_wearPart ..
  split
  · exact hclaimed
  · exact hclaimed

theorem useSpare_wearPart (p : Pkg) (kind u : Nat) : (p.useSpare kind u).2.wearPart = p.wearPart := by
  unfold Pkg.useSpare
  split
  · exact qualifySpare_wearPart p u
  · split <;> rfl
  · exact startSubstitution_wearPart ..
  · exact startSubstitution_wearPart ..
  · rfl
  · rfl
  · rfl

theorem wearUnit_wearPart (p : Pkg) (x : Nat × Nat × Nat) : (p.wearUnit x).2.wearPart = p.wearPart := by
  unfold Pkg.wearUnit
  extract_lets near r
  split
  · rfl
  · split
    · rfl
    · split
      · rfl
      · have hused : r.2.wearPart = p.wearPart := useSpare_wearPart ..
        split
        · exact hused
        · exact hused
    · rfl

theorem forceSave_wearPart (p : Pkg) (beat pos : Nat) : (p.forceSave beat pos).wearPart = p.wearPart := rfl

theorem askSave_wearPart (p : Pkg) (pos : Nat) : (p.askSave pos).wearPart = p.wearPart := by
  unfold Pkg.askSave
  split
  · rfl
  · rw [forceSave_wearPart, flood_wearPart]

theorem setPackageEol_wearPart (p : Pkg) (days source : Nat) : (p.setPackageEol days source).wearPart = p.wearPart := by
  unfold Pkg.setPackageEol
  dsimp only
  split
  · exact askSave_wearPart ..
  · rfl

theorem foldl_wearUnit_wearPart (l : List (Nat × Nat × Nat)) (a : List Nat × Pkg) :
    (l.foldl (fun (a : List Nat × Pkg) x => (a.1 ++ (a.2.wearUnit x).1, (a.2.wearUnit x).2)) a).2.wearPart = a.2.wearPart := by
  refine foldl_keeps (fun a : List Nat × Pkg => a.2.wearPart) (fun a x => ?_) l a
  exact wearUnit_wearPart a.2 x

theorem wearActions_wearPart (p : Pkg) : p.wearActions.wearPart = p.wearPart := by
  unfold Pkg.wearActions
  generalize wearUnits = l
  exact (setPackageEol_wearPart ..).trans (foldl_wearUnit_wearPart l ([], p))

theorem predictAll_wearPart (p : Pkg) : p.predictAll.wearPart = p.wearPart := by
  unfold Pkg.predictAll
  extract_lets eol _ stored
  clear_value eol
  have hstored : stored.wearPart = p.wearPart := rfl
  refine (foldl_keeps Pkg.wearPart (fun q k => ?_) _ _).trans hstored
  rfl

/-! ### A checkpoint (R404) -/

theorem pushRing_length (l : List Int) (v : Int) : (pushRing l v).length ≤ 8 := by
  unfold pushRing
  dsimp only
  rw [List.length_drop]
  omega

theorem wearWord_wear (p : Pkg) (v : Int) : (p.wearWord v).2.wear = p.wear ∧ (p.wearWord v).2.mem = p.mem ∧
    (p.wearWord v).2.boot.flashQ = p.boot.flashQ := by
  unfold Pkg.wearWord
  split <;> exact ⟨rfl, rfl, rfl⟩

/-- No ring holds more than eight values. -/
def Pkg.RingsFit (p : Pkg) : Prop := ∀ k, (p.wear.rings.at [] k).length ≤ 8

theorem storeValue_stores (p : Pkg) (key : Nat) (hfit : p.RingsFit) : (p.storeValue key).RingsFit ∧ (p.storeValue key).mem = p.mem ∧
    (p.storeValue key).boot.flashQ = p.boot.flashQ := by
  unfold Pkg.storeValue
  split
  · exact ⟨hfit, rfl, rfl⟩
  · rename_i v _
    extract_lets r _ w base sums
    obtain ⟨hwear, hmem, hflash⟩ := wearWord_wear p v
    refine ⟨fun k => ?_, hmem, hflash⟩
    show ((w.rings.put [] key (pushRing (w.rings.at [] key) r.1)).at [] k).length ≤ 8
    by_cases hk : k = key
    · rw [hk, SMap.at_put_self]
      exact pushRing_length _ _
    · rw [SMap.at_put_other _ _ _ _ _ hk, show w = p.wear from hwear]
      exact hfit k

theorem foldl_storeValue_stores (l : List Nat) (p : Pkg) (hfit : p.RingsFit) : (l.foldl Pkg.storeValue p).RingsFit ∧
    (l.foldl Pkg.storeValue p).mem = p.mem ∧ (l.foldl Pkg.storeValue p).boot.flashQ = p.boot.flashQ := by
  induction l generalizing p with
  | nil => exact ⟨hfit, rfl, rfl⟩
  | cons k l ih =>
    obtain ⟨hstored, hmem, hflash⟩ := storeValue_stores p k hfit
    obtain ⟨hrest, hmem', hflash'⟩ := ih (p.storeValue k) hstored
    exact ⟨hrest, hmem'.trans hmem, hflash'.trans hflash⟩

section
variable (p : Pkg) (prio offset : Nat) (b : List Byte)

theorem queueFlash_flashQ : (p.queueFlash prio offset b).boot.flashQ = p.boot.flashQ ++ [⟨prio, offset, b⟩] := rfl
theorem queueFlash_rings : (p.queueFlash prio offset b).wear.rings = p.wear.rings := rfl
theorem queueFlash_mem : (p.queueFlash prio offset b).mem = p.mem := rfl

end

theorem checkpoint_stores (p : Pkg) (l : List Nat) (hfit : p.RingsFit) :
    (l.foldl Pkg.storeValue p).predictAll.wearActions.retireWorn.queueWearArea.RingsFit ∧
      (∃ b, (l.foldl Pkg.storeValue p).predictAll.wearActions.retireWorn.queueWearArea.boot.flashQ =
        p.boot.flashQ ++ [⟨2, 0x18000, b⟩, ⟨2, 0x1C000, b⟩]) ∧
      (l.foldl Pkg.storeValue p).predictAll.wearActions.retireWorn.queueWearArea.mem = p.mem := by
  obtain ⟨hstored, hmem, hflash⟩ := foldl_storeValue_stores l p hfit
  generalize l.foldl Pkg.storeValue p = m at *
  have hpart : m.predictAll.wearActions.retireWorn.wearPart = m.wearPart := by
    rw [retireWorn_wearPart, wearActions_wearPart, predictAll_wearPart]
  generalize m.predictAll.wearActions.retireWorn = q at *
  have hqueued : q.boot.flashQ = p.boot.flashQ := (congrArg (·.2.1) hpart).trans hflash
  have hrings : q.wear.rings = m.wear.rings := congrArg (·.2.2) hpart
  have hmemory : q.mem = p.mem := (congrArg Prod.fst hpart).trans hmem
  rw [Pkg.queueWearArea]
  generalize q.wearArea = b
  refine ⟨fun k => ?_, ⟨b, ?_⟩, ?_⟩
  · rw [queueFlash_rings, queueFlash_rings, hrings]
    exact hstored k
  · rw [queueFlash_flashQ, queueFlash_flashQ, hqueued, List.append_assoc]
    rfl
  · rw [queueFlash_mem, queueFlash_mem, hmemory]

theorem checkpoint_kept (s : State) (hruns : s.Runs .management) (henabled : s.pkg.reg O.wearEnable ≠ 0) (hfit : s.pkg.RingsFit) :
    ∃ t b, exec .wearCheckpoint s = .next t ∧ (∀ k, (t.pkg.wear.rings.at [] k).length ≤ 8) ∧
      t.pkg.boot.flashQ = s.pkg.boot.flashQ ++ [⟨2, 0x18000, b⟩, ⟨2, 0x1C000, b⟩] ∧ SameMemory s t := by
  have hexec : exec .wearCheckpoint s = execWearCheckpoint s := rfl
  rw [hexec, execWearCheckpoint, on_runs s .management _ hruns, if_neg henabled]
  obtain ⟨hrings, ⟨b, hflash⟩, hmem⟩ := checkpoint_stores s.pkg wearKeys hfit
  exact ⟨_, b, rfl, hrings, hflash, sameMemory_settle hmem⟩

theorem sampling_disabled (s : State) (l : List (Nat × Int)) (hoff : s.pkg.reg O.wearEnable = 0) :
    Does (.wearSample l) s s.pkg ∧ Does .wearCheckpoint s s.pkg := by
  have hsample : exec (.wearSample l) s = execWearSample l s := rfl
  have hcheckpoint : exec .wearCheckpoint s = execWearCheckpoint s := rfl
  constructor
  · simp only [Does, hsample, execWearSample, on_next, hoff, if_true, ite_self]
  · simp only [Does, hcheckpoint, execWearCheckpoint, on_next, hoff, if_true, ite_self]

/-! ### Readings (R306, R404) -/

/-- What a reading of a mean leaves, and what it adds to its sum. -/
structure MeanRead (p q : Pkg) (k : Nat) (v : Int) : Prop where
  sum : q.wear.sums.at 0 k = p.wear.sums.at 0 k + v
  count : q.wear.counts.at 0 k = p.wear.counts.at 0 k + 1
  rings : q.wear.rings = p.wear.rings
  mem : q.mem = p.mem
  regs : ∀ j, ¬ (k / 2 ^ 24 = 3 ∧ j = O.laneEyeMargin + k % 2 ^ 16) → q.reg j = p.reg j

/-- What the scan of a lane leaves but for its margin. -/
structure LaneRead (p q : Pkg) (k : Nat) : Prop where
  wear : q.wear = p.wear
  mem : q.mem = p.mem
  regs : ∀ j, j ≠ k → q.reg j = p.reg j

theorem startSubstitution_laneRead (p : Pkg) (i lane k : Nat) : LaneRead p (p.startSubstitution i lane) k := by
  unfold Pkg.startSubstitution
  dsimp only
  split
  · exact ⟨rfl, rfl, fun _ _ => rfl⟩
  · split <;> exact ⟨rfl, rfl, fun _ _ => rfl⟩

theorem laneMargin_laneRead (p : Pkg) (i lane : Nat) (mv : Int) : LaneRead p (p.laneMargin i lane mv) (O.laneEyeMargin + 9 * i + lane) := by
  have hset : LaneRead p (p.setReg (O.laneEyeMargin + 9 * i + lane) (toBits 16 mv)) (O.laneEyeMargin + 9 * i + lane) :=
    ⟨rfl, rfl, fun j hj => reg_setReg_other p j _ _ hj⟩
  unfold Pkg.laneMargin
  extract_lets shown sp
  split
  · exact hset
  · obtain ⟨hwear, hmem, hregs⟩ := startSubstitution_laneRead shown i lane (O.laneEyeMargin + 9 * i + lane)
    exact ⟨hwear.trans hset.wear, hmem.trans hset.mem, fun j hj => (hregs j hj).trans (hset.regs j hj)⟩

theorem wearReading_mean (p : Pkg) (k : Nat) (v : Int) (hkey : isWearKey k = true) (hmean : isMeanKey k = true) :
    MeanRead p (p.wearReading (k, v)) k v := by
  unfold Pkg.wearReading
  extract_lets key u read w
  have hread : read.wear = p.wear ∧ read.mem = p.mem ∧ ∀ j, ¬ (k / 2 ^ 24 = 3 ∧ j = O.laneEyeMargin + k % 2 ^ 16) → read.reg j = p.reg j := by
    simp only [read]
    split
    · exact ⟨rfl, rfl, fun _ _ => rfl⟩
    · rename_i hlane
      have hlane : k / 2 ^ 24 = 3 := not_not.mp hlane
      have hslot : O.laneEyeMargin + 9 * (u / 9) + u % 9 = O.laneEyeMargin + u := by omega
      split
      · obtain ⟨hwear, hmem, hregs⟩ := laneMargin_laneRead p (u / 9) (u % 9) v
        rw [hslot] at hregs
        exact ⟨hwear, hmem, fun j hj => hregs j fun h => hj ⟨hlane, h⟩⟩
      · exact ⟨rfl, rfl, fun j hj => reg_setReg_other p j _ _ fun h => hj ⟨hlane, h⟩⟩
  obtain ⟨hwear, hmem, hregs⟩ := hread
  rw [if_neg (by simp only [key]; rw [hkey]; decide), if_pos hmean]
  constructor
  · show (w.sums.put 0 k (w.sums.at 0 k + v)).at 0 k = _
    rw [SMap.at_put_self, show w = p.wear from hwear]
  · show (w.counts.put 0 k (w.counts.at 0 k + 1)).at 0 k = _
    rw [SMap.at_put_self, show w = p.wear from hwear]
  · show w.rings = p.wear.rings
    rw [show w = p.wear from hwear]
  · exact hmem
  · exact hregs

theorem laneDie_lt {k d : Nat} (h : laneDie k = some d) : d = 0 ∨ d = 1 := by
  unfold laneDie at h
  split at h
  · obtain rfl := Option.some.inj h
    split
    · exact .inl rfl
    · exact .inr rfl
  · cases h

/-- There are 108 lanes (R404). -/
theorem laneUnit_lt {k d : Nat} (h : laneDie k = some d) : k % 2 ^ 16 < 108 := by
  unfold laneDie at h
  split at h
  · rename_i hlane
    obtain ⟨hkey, hkind⟩ := hlane
    simp only [isWearKey, wearKinds, List.any_cons, List.any_nil, Bool.or_eq_true, Bool.or_false, decide_eq_true_eq, hkind] at hkey
    omega
  · cases h

/-- The one die whose lane a reading is of. -/
theorem scannedDies {k d : Nat} (h : laneDie k = some d) (v : Int) :
    ((List.range 2).filter fun e => [(k, v)].any fun r => decide (laneDie r.1 = some e)) = [d] := by
  simp only [List.any_cons, List.any_nil, Bool.or_false, h]
  rcases laneDie_lt h with rfl | rfl <;> decide

/-- The scan of one reading that is of no lane. -/
theorem wearScan_plain (p : Pkg) {k : Nat} (v : Int) (h : laneDie k = none) : p.wearScan [(k, v)] = p.wearReading (k, v) := by
  have hdies : ((List.range 2).filter fun e => [(k, v)].any fun r => decide (laneDie r.1 = some e)) = [] := by
    simp only [List.any_cons, List.any_nil, Bool.or_false, h]
    decide
  unfold Pkg.wearScan
  dsimp only
  rw [hdies]
  simp only [List.foldl_nil, List.filter_cons, h, Option.all_none, if_true, List.filter_nil, List.foldl_cons]

/-- The scan of one reading of a lane: the claim of its die's engine, the reading where the claim holds, and the release. -/
theorem wearScan_lane (p : Pkg) {k d : Nat} (v : Int) (h : laneDie k = some d) :
    p.wearScan [(k, v)] =
      (if (p.claimScan d).reg (O.linkTestOwner + d) = 2 then (p.claimScan d).wearReading (k, v) else p.claimScan d).endScan d := by
  unfold Pkg.wearScan
  dsimp only
  rw [scannedDies h v]
  simp only [List.foldl_nil, List.filter_cons, h, Option.all_some, List.filter_nil, List.foldl_cons, decide_eq_true_eq]
  by_cases hclaim : (p.claimScan d).reg (O.linkTestOwner + d) = 2
  · simp only [hclaim, decide_true, if_true, List.foldl_cons, List.foldl_nil]
  · simp only [hclaim, decide_false, Bool.false_eq_true, if_false, List.foldl_nil]

theorem laneRead_refused (s : State) (k d : Nat) (v : Int) (hruns : s.Runs .management) (henabled : s.pkg.reg O.wearEnable ≠ 0)
    (hlane : laneDie k = some d) (hheld : s.pkg.reg (O.linkTestOwner + d) ≠ 0) (hother : s.pkg.reg (O.linkTestOwner + d) ≠ 2) :
    ∃ t, exec (.wearSample [(k, v)]) s = .next t ∧ RaisedLast t 0x4409 ∧ t.pkg.wear = s.pkg.wear ∧ SameMemory s t ∧ SameRegs s t := by
  have hexec : exec (.wearSample [(k, v)]) s = execWearSample [(k, v)] s := rfl
  have hclaim : s.pkg.claimScan d = s.pkg.raise 0x4409 d 2 := by
    rw [Pkg.claimScan, Pkg.ownerWrite, claimOf, if_neg (by decide), if_neg hheld, if_neg hother]
  have hscan : s.pkg.wearScan [(k, v)] = s.pkg.raise 0x4409 d 2 := by
    rw [wearScan_lane s.pkg v hlane, hclaim, if_neg (show ¬ (s.pkg.raise 0x4409 d 2).reg (O.linkTestOwner + d) = 2 from hother), Pkg.endScan]
    exact if_neg hother
  rw [hexec, execWearSample, on_runs s .management _ hruns, if_neg henabled, hscan]
  exact ⟨_, rfl, raised_last _ _ _ _, rfl, sameMemory_settle rfl, sameRegs_settle fun _ => rfl⟩

/-- A claim that is free is taken, and given back after the reading. -/
theorem wearScan_claimed {p : Pkg} {k : Nat} (v : Int) (hkey : isWearKey k = true) (hmean : isMeanKey k = true)
    (hfree : ∀ d, laneDie k = some d → p.reg (O.linkTestOwner + d) = 0) : MeanRead p (p.wearScan [(k, v)]) k v := by
  cases hlane : laneDie k with
  | none =>
    rw [wearScan_plain p v hlane]
    exact wearReading_mean p k v hkey hmean
  | some d =>
    have hfree := hfree d hlane
    have hapart : O.linkTestOwner + d ≠ O.laneEyeMargin + k % 2 ^ 16 := by
      have hunit := laneUnit_lt hlane
      rcases laneDie_lt hlane with rfl | rfl <;> simp only [O.linkTestOwner, O.laneEyeMargin] <;> omega
    have hclaim : p.claimScan d = p.setReg (O.linkTestOwner + d) 2 := by
      rw [Pkg.claimScan, Pkg.ownerWrite, claimOf, if_neg (by decide), if_pos hfree]
    obtain ⟨hsum, hcount, hrings, hmem, hregs⟩ := wearReading_mean (p.setReg (O.linkTestOwner + d) 2) k v hkey hmean
    have howner := (hregs (O.linkTestOwner + d) fun h => hapart h.2).trans (reg_setReg_self ..)
    rw [wearScan_lane p v hlane, hclaim, if_pos (reg_setReg_self ..), Pkg.endScan, if_pos howner]
    refine ⟨hsum, hcount, hrings, hmem, fun j hj => ?_⟩
    by_cases hjd : j = O.linkTestOwner + d
    · rw [hjd, reg_setReg_self, hfree]
    · rw [reg_setReg_other _ _ _ _ hjd, hregs j hj, reg_setReg_other _ _ _ _ hjd]

theorem meanRead_shown (s : State) (k : Nat) (v : Int) (hruns : s.Runs .management) (henabled : s.pkg.reg O.wearEnable ≠ 0)
    (hkey : isWearKey k = true) (hmean : isMeanKey k = true) (hfree : ∀ d, laneDie k = some d → s.pkg.reg (O.linkTestOwner + d) = 0) :
    ∃ t, exec (.wearSample [(k, v)]) s = .next t ∧ t.pkg.wear.sums.at 0 k = s.pkg.wear.sums.at 0 k + v ∧
      t.pkg.wear.counts.at 0 k = s.pkg.wear.counts.at 0 k + 1 ∧ t.pkg.wear.rings = s.pkg.wear.rings ∧ SameMemory s t ∧
      SameRegsBut (fun j => k / 2 ^ 24 = 3 ∧ j = O.laneEyeMargin + k % 2 ^ 16) s t := by
  have hexec : exec (.wearSample [(k, v)]) s = execWearSample [(k, v)] s := rfl
  rw [hexec, execWearSample, on_runs s .management _ hruns, if_neg henabled]
  obtain ⟨hsum, hcount, hrings, hmem, hregs⟩ := wearScan_claimed v hkey hmean hfree
  exact ⟨_, rfl, hsum, hcount, hrings, sameMemory_settle hmem, sameRegsBut_settle hregs⟩

/-! ### A query (R409) -/

theorem objAt_wearQuery : objAt O.wearQuery = some ⟨O.wearQuery, 1, 1, 1, 4, .rw, 0, 0xFFFFFFFF, false⟩ := by decide +kernel

theorem wearQuery_does (s : State) (pt : Path) (v : Nat) (hruns : s.Runs (pathPlane pt)) (hv : v < 2 ^ 32) :
    Does (.wearQuery pt v) s (if isWearKey v then s.pkg.setReg O.wearQuery v else s.pkg.refuse pt O.wearQuery abRange) := by
  have hexec : exec (.wearQuery pt v) s = execWearQuery pt v s := rfl
  rw [Does, hexec, execWearQuery, on_runs s (pathPlane pt) _ hruns, Pkg.wearQueryWrite,
    objWrite_in_range objAt_wearQuery (Nat.zero_le v) (Nat.le_of_lt_succ hv)]

/-- Settles O54: one scan claims, reads and releases, and what follows a checkpoint's values reaches neither the rings nor the flash queue. -/
theorem wearCommands : Obligations.WearCommands := by
  refine ⟨sampling_disabled, fun s k v hruns henabled hkey hmean => ⟨fun d hlane hheld hother => ?_, fun hfree => ?_⟩, checkpoint_kept,
    fun s pt v hruns hv => ?_⟩
  · exact laneRead_refused s k d v hruns henabled hlane hheld hother
  · exact meanRead_shown s k v hruns henabled hkey hmean hfree
  · have hdoes := wearQuery_does s pt v hruns hv
    constructor
    · intro hkey
      rwa [hkey, if_pos rfl] at hdoes
    · intro hkey
      rwa [hkey, if_neg Bool.false_ne_true] at hdoes

end Sys2Proof.Machine

namespace Sys2Proof.Machine

/-! ## The cold reset (R451 to R454) -/

/-- Everything outside the always-on domain at its reset value, but for what stays (R451, R453). -/
def Pkg.resetBase (p : Pkg) (kept : Bool) : Pkg :=
  { Pkg.reset with
    mem := if kept then mainCells p.mem else []
    eccPins := if kept then p.eccPins else []
    checkBytes := if kept then p.checkBytes else []
    power := { Pkg.reset.power with aon := p.power.aon }
    boot := { Pkg.reset.boot with flash := p.boot.flash, recoveryReq := p.boot.recoveryReq }
    retired := p.retired
    supply := { p.supply with outCount := [], warned := [], pllOff := [], rootLost := false }
    ev := { Pkg.reset.ev with inFlight := p.ev.inFlight, log := p.ev.log, tail := p.ev.tail }
    sched := { Pkg.reset.sched with originSeq := p.sched.originSeq, filter := p.sched.filter }
    free := p.free
    out := p.out }

/-- The supplies stand as they did. -/
def Pkg.keepSupplies (p q : Pkg) : Pkg :=
  (List.range 21).foldl (fun q s => q.setReg (O.supplyState + s) (p.reg (O.supplyState + s))) q

/-- A dead port stays dead. -/
def Pkg.keepDeadPorts (p q : Pkg) : Pkg :=
  (List.range 12).foldl (fun q i =>
    if (p.port i).dead then (q.setPort i { PortSt.reset with dead := true }).setReg (O.portState + i) 4 else q) q

/-- The root PLL in use (R25). -/
def Pkg.keepRoot (p q : Pkg) : Pkg := if p.supply.rootLost then q.setReg O.rootPllInUse 1 else q

/-- The objects that record resets, the clock and the log. -/
def Pkg.keepRecords (p q : Pkg) : Pkg :=
  (((q.setReg O.resetCause (p.reg O.resetCause)).setReg O.coldResets (p.reg O.coldResets)).setReg O.refclkState
    (p.reg O.refclkState)).setReg O.eventLogNewest (p.reg O.eventLogNewest)

theorem resetAll_stages (p : Pkg) (kept : Bool) :
    p.resetAll kept = p.keepRecords (p.keepRoot (p.keepDeadPorts (p.keepSupplies (p.resetBase kept)))) := rfl

/-- A package that differs in its objects and links alone. -/
def SameButRegsLinks (p q : Pkg) : Prop := ∃ d l, q = { p with dict := d, links := l }

namespace SameButRegsLinks

theorem refl (p : Pkg) : SameButRegsLinks p p := ⟨p.dict, p.links, rfl⟩

theorem trans {p q r : Pkg} (h : SameButRegsLinks p q) (h' : SameButRegsLinks q r) : SameButRegsLinks p r := by
  obtain ⟨d, l, rfl⟩ := h
  obtain ⟨d', l', rfl⟩ := h'
  exact ⟨d', l', rfl⟩

theorem setReg (p : Pkg) (k v : Nat) : SameButRegsLinks p (p.setReg k v) := ⟨_, p.links, rfl⟩

theorem setPort (p : Pkg) (i : Nat) (x : PortSt) : SameButRegsLinks p (p.setPort i x) := ⟨p.dict, _, rfl⟩

theorem foldl {α : Type} {f : Pkg → α → Pkg} (hf : ∀ q a, SameButRegsLinks q (f q a)) (l : List α) (p : Pkg) : SameButRegsLinks p (l.foldl f p) := by
  induction l generalizing p with
  | nil => exact refl p
  | cons a l ih => exact (hf p a).trans (ih (f p a))

end SameButRegsLinks

theorem keepSupplies_same (p q : Pkg) : SameButRegsLinks q (p.keepSupplies q) := .foldl (fun _ _ => .setReg ..) _ q

theorem keepDeadPorts_same (p q : Pkg) : SameButRegsLinks q (p.keepDeadPorts q) := by
  refine .foldl (fun r i => ?_) _ q
  split
  · exact (SameButRegsLinks.setPort ..).trans (.setReg ..)
  · exact .refl r

theorem keepRoot_same (p q : Pkg) : SameButRegsLinks q (p.keepRoot q) := by
  unfold Pkg.keepRoot
  split
  · exact .setReg ..
  · exact .refl q

theorem keepRecords_same (p q : Pkg) : SameButRegsLinks q (p.keepRecords q) :=
  (((SameButRegsLinks.setReg ..).trans (.setReg ..)).trans (.setReg ..)).trans (.setReg ..)

theorem resetAll_same (p : Pkg) (kept : Bool) : SameButRegsLinks (p.resetBase kept) (p.resetAll kept) := by
  rw [resetAll_stages]
  exact (((keepSupplies_same ..).trans (keepDeadPorts_same ..)).trans (keepRoot_same ..)).trans (keepRecords_same ..)

/-- The objects that a reset gives a value that is not their reset value. -/
def ResetObject (k : Nat) : Prop :=
  (∃ s < 21, k = O.supplyState + s) ∨ (∃ i < 12, k = O.portState + i) ∨ k = O.rootPllInUse ∨ k = O.resetCause ∨ k = O.coldResets ∨
    k = O.refclkState ∨ k = O.eventLogNewest

theorem keepSupplies_reg_other (p q : Pkg) (k : Nat) (h : ∀ s < 21, k ≠ O.supplyState + s) : (p.keepSupplies q).reg k = q.reg k := by
  unfold Pkg.keepSupplies
  refine List.foldlRecOn (motive := fun r : Pkg => r.reg k = q.reg k) _ _ rfl fun r hr s hs => ?_
  rw [reg_setReg_other _ _ _ _ (h s (List.mem_range.mp hs)), hr]

theorem keepDeadPorts_reg_other (p q : Pkg) (k : Nat) (h : ∀ i < 12, k ≠ O.portState + i) : (p.keepDeadPorts q).reg k = q.reg k := by
  unfold Pkg.keepDeadPorts
  refine List.foldlRecOn (motive := fun r : Pkg => r.reg k = q.reg k) _ _ rfl fun r hr i hi => ?_
  split
  · rw [reg_setReg_other _ _ _ _ (h i (List.mem_range.mp hi)), reg_setPort, hr]
  · exact hr

theorem keepRoot_reg_other (p q : Pkg) (k : Nat) (h : k ≠ O.rootPllInUse) : (p.keepRoot q).reg k = q.reg k := by
  unfold Pkg.keepRoot
  split
  · exact reg_setReg_other _ _ _ _ h
  · rfl

theorem resetAll_reg_other (p : Pkg) (kept : Bool) (k : Nat) (h : ¬ ResetObject k) : (p.resetAll kept).reg k = Pkg.reset.reg k := by
  obtain ⟨hsupply, hport, hroot, hcause, hcold, hclock, hlog⟩ := by simpa only [ResetObject, not_or] using h
  rw [resetAll_stages, Pkg.keepRecords, reg_setReg_other _ _ _ _ hlog, reg_setReg_other _ _ _ _ hclock, reg_setReg_other _ _ _ _ hcold,
    reg_setReg_other _ _ _ _ hcause, keepRoot_reg_other _ _ _ hroot,
    keepDeadPorts_reg_other _ _ _ fun i hi hk => hport ⟨i, hi, hk⟩, keepSupplies_reg_other _ _ _ fun s hs hk => hsupply ⟨s, hs, hk⟩]
  rfl

theorem resetAll_coldResets (p : Pkg) (kept : Bool) : (p.resetAll kept).reg O.coldResets = p.reg O.coldResets := by
  rw [resetAll_stages, Pkg.keepRecords, reg_setReg_other _ _ _ _ (by decide), reg_setReg_other _ _ _ _ (by decide), reg_setReg_self]

theorem resetAll_refclkState (p : Pkg) (kept : Bool) : (p.resetAll kept).reg O.refclkState = p.reg O.refclkState := by
  rw [resetAll_stages, Pkg.keepRecords, reg_setReg_other _ _ _ _ (by decide), reg_setReg_self]

theorem at_mainCells (a : Nat) (m : List Host.Cell) : SMap.at 0 a (mainCells m) = if isMem a then SMap.at 0 a m else 0 := by
  induction m with
  | nil => exact (ite_self _).symm
  | cons e m ih =>
    obtain ⟨b, v⟩ := e
    unfold mainCells at ih ⊢
    rw [List.filter_cons]
    dsimp only
    by_cases hb : isMem b
    · rw [if_pos hb, SMap.at, SMap.at, ih]
      split
      · rename_i h
        rw [if_pos (h ▸ hb)]
      · rfl
    · rw [if_neg hb, ih, SMap.at]
      by_cases ha : isMem a
      · have hne : b ≠ a := fun h => hb (h ▸ ha)
        rw [if_pos ha, if_pos ha, if_neg hne]
      · rw [if_neg ha, if_neg ha]

/-! ### The start of a cold reset -/

/-- R452: the notice, where there is one, is a message and an event. -/
theorem noticeOfReset_eq (p : Pkg) : ∃ l sched ev out, p.noticeOfReset = { p with links := l, sched := sched, ev := ev, out := out } ∧
    p.ev.inFlight <+: ev.inFlight ∧ ev.log = p.ev.log := by
  unfold Pkg.noticeOfReset
  dsimp only
  split
  · obtain ⟨l, hl⟩ := flood_eq p 0x21 0 [p.reg O.logicalPosition, p.reg O.logicalPosition, p.reg O.domainBeat]
    rw [hl]
    exact ⟨l, _, _, _, rfl, List.prefix_append _ _, rfl⟩
  · exact ⟨p.links, p.sched, p.ev, p.out, rfl, List.prefix_rfl, rfl⟩

/-- What a cold reset that begins shows, and what it keeps. -/
structure ColdReset (p q : Pkg) (cause : Nat) (kept : Bool) : Prop where
  cause : q.reg O.resetCause = cause + if kept then 64 else 0
  count : q.reg O.coldResets = min (p.reg O.coldResets + 1) (2 ^ 32 - 1)
  wait : q.boot.resetWait = true
  low : (landsOf q).faultN = false
  image : q.reg O.imageState = 0
  clock : q.reg O.refclkState = p.reg O.refclkState
  flash : q.boot.flash = p.boot.flash
  log : q.ev.log = p.ev.log
  aon : q.power.aon = p.power.aon
  resetLow : q.supply.resetLow = p.supply.resetLow
  refclkAbsent : q.supply.refclkAbsent = p.supply.refclkAbsent
  bytes : ∀ a, q.byte a = if kept ∧ isMem a then p.byte a else 0
  events : p.ev.inFlight <+: q.ev.inFlight

theorem fixFault_eq (p : Pkg) : ∃ d, p.fixFault = { p with dict := d } := setErrBit_changes_dict p 0 _

/-- FAULT_N is low while a cold reset with a source is asserted (R452). -/
theorem fixFault_low (p : Pkg) (hwait : p.boot.resetWait = true) (hcause : p.reg O.resetCause % 64 / 2 ≠ 0) : (landsOf p.fixFault).faultN = false := by
  have hbit : bitOf (p.fixFault.reg O.errorRegister) 0 = true := by
    rw [Pkg.fixFault, setErrBit_reads, hwait, decide_eq_true hcause]
    exact Bool.or_true _
  show (!bitOf (p.fixFault.reg O.errorRegister) 0) = false
  rw [hbit]
  rfl

/-- The package as a cold reset leaves it, before FAULT_N. -/
def Pkg.resetStage (p : Pkg) (cause : Nat) (kept : Bool) : Pkg :=
  let q := ((p.noticeOfReset.resetAll kept).bump O.coldResets 1).setReg O.resetCause (cause + if kept then 64 else 0)
  q.setBoot { q.boot with resetWait := true }

theorem coldReset_eq {p : Pkg} (h : p.boot.resetWait = false) (cause : Nat) (kept : Bool) : p.coldReset cause kept = (p.resetStage cause kept).fixFault :=
  if_neg (by rw [h]; decide)

theorem coldReset_again {p : Pkg} (h : p.boot.resetWait = true) (cause : Nat) (kept : Bool) :
    p.coldReset cause kept = p.setReg O.resetCause (p.reg O.resetCause ||| cause) := if_pos h

theorem mainMemory_byte (p : Pkg) (kept : Bool) (a : Nat) :
    SMap.at 0 a (if kept then mainCells p.mem else []) = if kept ∧ isMem a then p.byte a else 0 := by
  cases kept with
  | true =>
    rw [if_pos rfl, at_mainCells]
    simp only [true_and]
    rfl
  | false => simp [SMap.at]

theorem coldReset_shows {p : Pkg} (h : p.boot.resetWait = false) (cause : Nat) (kept : Bool) (hcause : cause % 64 / 2 ≠ 0) :
    ColdReset p (p.coldReset cause kept) cause kept := by
  obtain ⟨l, sched, ev, out, hnotice, hevents, hlog⟩ := noticeOfReset_eq p
  obtain ⟨d, l', hreset⟩ := resetAll_same p.noticeOfReset kept
  have hreg (k : Nat) (hcold : k ≠ O.coldResets) (hk : k ≠ O.resetCause) : (p.resetStage cause kept).reg k = (p.noticeOfReset.resetAll kept).reg k := by
    show (((p.noticeOfReset.resetAll kept).bump O.coldResets 1).setReg O.resetCause _).reg k = _
    rw [reg_setReg_other _ _ _ _ hk, bump_reg_other _ _ _ _ hcold]
  have hread : (p.resetStage cause kept).reg O.resetCause = cause + if kept then 64 else 0 := reg_setReg_self _ _ _
  have hcount : (p.resetStage cause kept).reg O.coldResets = min (p.reg O.coldResets + 1) (2 ^ 32 - 1) := by
    show (((p.noticeOfReset.resetAll kept).bump O.coldResets 1).setReg O.resetCause _).reg O.coldResets = _
    rw [reg_setReg_other _ _ _ _ (by decide), bump_reg_self, resetAll_coldResets, hnotice]
    rfl
  have himage : (p.resetStage cause kept).reg O.imageState = 0 := by
    rw [hreg _ (by decide) (by decide), resetAll_reg_other _ _ _ (by unfold ResetObject; decide)]
    decide +kernel
  have hclock : (p.resetStage cause kept).reg O.refclkState = p.reg O.refclkState := by
    rw [hreg _ (by decide) (by decide), resetAll_refclkState, hnotice]
    rfl
  have hsource : (p.resetStage cause kept).reg O.resetCause % 64 / 2 ≠ 0 := by
    rw [hread]
    cases kept with
    | true => rwa [if_pos rfl, Nat.add_mod_right]
    | false => exact hcause
  have hlow := fixFault_low (p.resetStage cause kept) rfl hsource
  have hbytes := mainMemory_byte p kept
  rw [coldReset_eq h]
  constructor
  case cause => rw [fixFault_reg_other _ _ (by decide), hread]
  case count => rw [fixFault_reg_other _ _ (by decide), hcount]
  case image => rw [fixFault_reg_other _ _ (by decide), himage]
  case clock => rw [fixFault_reg_other _ _ (by decide), hclock]
  case low => exact hlow
  all_goals
    obtain ⟨e, hfix⟩ := fixFault_eq (p.resetStage cause kept)
    rw [hfix, Pkg.resetStage, hreset, hnotice]
  · rfl
  · rfl
  · exact hlog
  · rfl
  · rfl
  · rfl
  · exact hbytes
  · exact hevents

end Sys2Proof.Machine

namespace Sys2Proof.Machine

/-! ## Sources of a cold reset, and its release (R421, R424, R451 to R454) -/

theorem objAt_packageReset : objAt O.packageReset = some ⟨O.packageReset, 1, 1, 1, 2, .wo, 0xA55A, 0xA55A, false⟩ := by decide +kernel

theorem packageReset_does (s : State) (pt : Path) (m : Bool) (hruns : s.Runs (pathPlane pt)) :
    Does (.packageReset pt 42330 m) s (s.pkg.coldReset 4 m) := by
  have hexec : exec (.packageReset pt 42330 m) s = execPackageReset pt 42330 m s := rfl
  rw [Does, hexec, execPackageReset, on_runs s (pathPlane pt) _ hruns, Pkg.packageResetWrite,
    objWrite_in_range objAt_packageReset (Nat.le_refl 42330) (Nat.le_refl 42330)]

theorem packageReset_refuses (s : State) (pt : Path) (v : Nat) (m : Bool) (hruns : s.Runs (pathPlane pt)) (hv : v ≠ 42330) :
    Does (.packageReset pt v m) s (s.pkg.refuse pt O.packageReset abRange) := by
  have hexec : exec (.packageReset pt v m) s = execPackageReset pt v m s := rfl
  rw [Does, hexec, execPackageReset, on_runs s (pathPlane pt) _ hruns, Pkg.packageResetWrite, Pkg.objWrite, objAt_packageReset]
  exact congrArg (fun q => Host.Outcome.next (s.settle q)) (if_pos (by dsimp only; omega))

theorem resetN_powerUp (s : State) (m : Bool) (hstep : s.pkg.supply.seqStep ≠ 8) :
    Does (.resetNAssert m) s ((s.pkg.setSupply { s.pkg.supply with resetLow := true, tap := .idcode }).setReg
      O.resetCause (s.pkg.reg O.resetCause ||| 2)) := by
  have hexec : exec (.resetNAssert m) s = execResetNAssert m s := rfl
  rw [Does, hexec, execResetNAssert, go_eq]
  dsimp only
  rw [if_pos (by rw [decide_eq_false hstep]; rfl)]
  rfl

theorem resetN_resets (s : State) (m : Bool) (hstep : s.pkg.supply.seqStep = 8) (hstate : s.pkg.reg O.psCurrent < 3) :
    Does (.resetNAssert m) s ((s.pkg.setSupply { s.pkg.supply with resetLow := true, tap := .idcode }).coldReset 2 m) := by
  have hexec : exec (.resetNAssert m) s = execResetNAssert m s := rfl
  rw [Does, hexec, execResetNAssert, go_eq]
  dsimp only
  rw [if_neg (by rw [decide_eq_true hstep]; decide), if_neg (not_le.mpr hstate)]

section
variable (s : State) (rn : Bool)

theorem release_boots (hruns : s.Runs .always) (hwait : s.pkg.boot.resetWait = true) (hstep : s.pkg.supply.seqStep = 8) :
    ∃ t, exec (.coldResetRelease rn false) s = .next t ∧ t.pkg.boot.step = 1 ∧ t.pkg.boot.resetWait = false ∧ t.pkg.boot.inRecovery = !rn ∧
      t.pkg.supply.resetLow = false ∧ SameMemory s t ∧ SameRegsBut (fun k => k = O.errorRegister) s t := by
  have hexec : exec (.coldResetRelease rn false) s = execColdResetRelease rn false s := rfl
  rw [hexec, execColdResetRelease, on_runs s .always _ hruns, if_neg (by rw [hwait, hstep]; decide), if_neg (by decide)]
  dsimp only
  obtain ⟨d, hd⟩ := fixFault_eq ((s.pkg.setSupply { s.pkg.supply with resetLow := false, tap := .bypass }).setBoot
    { (s.pkg.setSupply { s.pkg.supply with resetLow := false, tap := .bypass }).boot with resetWait := false, step := 1, inRecovery := !rn })
  have hregs := fun k hk => fixFault_reg_other ((s.pkg.setSupply { s.pkg.supply with resetLow := false, tap := .bypass }).setBoot
    { (s.pkg.setSupply { s.pkg.supply with resetLow := false, tap := .bypass }).boot with resetWait := false, step := 1, inRecovery := !rn }) k hk
  rw [hd] at hregs ⊢
  exact ⟨_, rfl, rfl, rfl, rfl, rfl, sameMemory_settle rfl, sameRegsBut_settle hregs⟩

theorem release_held (hruns : s.Runs .always) (hwait : s.pkg.boot.resetWait = true) (hstep : s.pkg.supply.seqStep = 8) :
    Does (.coldResetRelease rn true) s (s.pkg.setReg O.resetCause (s.pkg.reg O.resetCause ||| 128)) := by
  have hexec : exec (.coldResetRelease rn true) s = execColdResetRelease rn true s := rfl
  rw [Does, hexec, execColdResetRelease, on_runs s .always _ hruns, if_neg (by rw [hwait, hstep]; decide), if_pos rfl]
  rfl

theorem release_stands (tm : Bool) (h : s.pkg.boot.resetWait = false ∨ s.pkg.supply.seqStep ≠ 8) : Does (.coldResetRelease rn tm) s s.pkg := by
  have hexec : exec (.coldResetRelease rn tm) s = execColdResetRelease rn tm s := rfl
  have hstands : (!s.pkg.boot.resetWait) = true ∨ s.pkg.supply.seqStep ≠ 8 := h.imp_left fun hwait => by rw [hwait]; rfl
  simp only [Does, hexec, execColdResetRelease, on_next, if_pos hstands, ite_self]

end

/-! ## The reference clock and the PLLs (R25, R450) -/

/-- What stays of a package that declares itself failed. -/
theorem declareFailed_events (p : Pkg) : p.ev.inFlight <+: p.declareFailed.ev.inFlight := ((grown_unitClosed p).declareFailed (.refl p)).events

theorem hasEvent_of_prefix {p q : Pkg} (h : p.ev.inFlight <+: q.ev.inFlight) {code : Nat} (hp : p.HasEvent code) : q.HasEvent code := by
  obtain ⟨r, hr, hcode⟩ := hp
  exact ⟨r, h.subset hr, hcode⟩

theorem declareFailed_raised (p : Pkg) (code unit arg : Nat) : (p.raise code unit arg).declareFailed.HasEvent code :=
  hasEvent_of_prefix (declareFailed_events _) (hasEvent_raise ..)

theorem refclk_lost (s : State) (hclock : s.pkg.supply.refclkAbsent = false) :
    ∃ t, exec .refclkLoss s = .next t ∧ t.pkg.failed = true ∧ t.pkg.supply.refclkAbsent = true ∧ t.pkg.reg O.refclkState = 1 ∧
      t.pkg.reg O.refclkLosses = min (s.pkg.reg O.refclkLosses + 1) (2 ^ 32 - 1) ∧ t.pkg.boot.held = true ∧ RaisedEver t 0x2104 ∧
      SameMemory s t := by
  have hexec : exec .refclkLoss s = execRefclkLoss s := rfl
  rw [hexec, execRefclkLoss, go_eq, if_neg (by rw [hclock]; decide)]
  have hraised := declareFailed_raised s.pkg 0x2104 noUnit 0
  have hmem := declareFailed_mem (s.pkg.raise 0x2104 noUnit 0)
  have hlosses := declareFailed_reg (s.pkg.raise 0x2104 noUnit 0) O.refclkLosses (by decide)
  have hfailed := declareFailed_failed (s.pkg.raise 0x2104 noUnit 0)
  generalize (s.pkg.raise 0x2104 noUnit 0).declareFailed = p at *
  refine ⟨_, rfl, hfailed, rfl, reg_setReg_self _ _ _, ?_, rfl, hraised, sameMemory_settle hmem⟩
  show ((p.bump O.refclkLosses 1).setReg O.refclkState 1).reg O.refclkLosses = _
  rw [reg_setReg_other _ _ _ _ (by decide), bump_reg_self, hlosses]
  rfl

theorem refclk_restored (s : State) (m : Bool) (habsent : s.pkg.supply.refclkAbsent = true) (hwait : s.pkg.boot.resetWait = false) :
    ∃ t, exec (.refclkRestored m) s = .next t ∧ t.pkg.supply.refclkAbsent = false ∧ t.pkg.reg O.refclkState = 0 ∧
      t.pkg.reg O.resetCause = 16 + (if m then 64 else 0) ∧ t.pkg.boot.resetWait = true ∧ RaisedEver t 0x2105 := by
  have hexec : exec (.refclkRestored m) s = execRefclkRestored m s := rfl
  rw [hexec, execRefclkRestored, go_eq, if_neg (by rw [habsent]; decide)]
  have hreset := coldReset_shows (p := (((s.pkg.raise 0x2105 noUnit 0).setReg O.refclkState 0)).setSupply
    { ((s.pkg.raise 0x2105 noUnit 0).setReg O.refclkState 0).supply with refclkAbsent := false }) hwait 16 m (by decide)
  have hclock : ((((s.pkg.raise 0x2105 noUnit 0).setReg O.refclkState 0)).setSupply
    { ((s.pkg.raise 0x2105 noUnit 0).setReg O.refclkState 0).supply with refclkAbsent := false }).reg O.refclkState = 0 := reg_setReg_self _ _ _
  have hraised := hasEvent_of_prefix hreset.events (hasEvent_raise s.pkg 0x2105 noUnit 0)
  exact ⟨_, rfl, hreset.refclkAbsent, hreset.clock.trans hclock, hreset.cause, hreset.wait, hraised⟩

theorem rootPll_lost (s : State) : ∃ t, exec (.pllUnlock .root) s = .next t ∧ t.pkg.failed = true ∧ RaisedEver t 0x2106 ∧
    t.pkg.reg O.pllUnlocks = min (s.pkg.reg O.pllUnlocks + 1) (2 ^ 32 - 1) ∧
    ((s.pkg.reg O.imageState = 4 ∨ s.pkg.reg O.rootPllInUse = 1) → t.pkg.supply.rootLost = true) ∧
    (s.pkg.reg O.imageState ≠ 4 → s.pkg.reg O.rootPllInUse ≠ 1 → t.pkg.reg O.rootPllInUse = 1) ∧ SameMemory s t := by
  have hexec : exec (.pllUnlock .root) s = .next (s.settle ((s.pkg.bump O.pllUnlocks 1).raise 0x2106 noUnit 0).declareFailed.loseRoot) := rfl
  rw [hexec]
  have hraised := declareFailed_raised (s.pkg.bump O.pllUnlocks 1) 0x2106 noUnit 0
  have hmem := declareFailed_mem ((s.pkg.bump O.pllUnlocks 1).raise 0x2106 noUnit 0)
  have hfailed := declareFailed_failed ((s.pkg.bump O.pllUnlocks 1).raise 0x2106 noUnit 0)
  have hcount := (declareFailed_reg ((s.pkg.bump O.pllUnlocks 1).raise 0x2106 noUnit 0) O.pllUnlocks (by decide)).trans (bump_reg_self _ _ _)
  have himage := (declareFailed_reg ((s.pkg.bump O.pllUnlocks 1).raise 0x2106 noUnit 0) O.imageState (by decide)).trans
    (bump_reg_other s.pkg _ O.pllUnlocks 1 (by decide))
  have hroot := (declareFailed_reg ((s.pkg.bump O.pllUnlocks 1).raise 0x2106 noUnit 0) O.rootPllInUse (by decide)).trans
    (bump_reg_other s.pkg _ O.pllUnlocks 1 (by decide))
  generalize ((s.pkg.bump O.pllUnlocks 1).raise 0x2106 noUnit 0).declareFailed = p at *
  unfold Pkg.loseRoot
  rw [himage, hroot]
  by_cases hrun : s.pkg.reg O.imageState = 4 ∨ s.pkg.reg O.rootPllInUse = 1
  · rw [if_pos hrun]
    exact ⟨_, rfl, hfailed, hraised, hcount, fun _ => rfl, fun himage hroot => absurd hrun (not_or.mpr ⟨himage, hroot⟩), sameMemory_settle hmem⟩
  · rw [if_neg hrun]
    refine ⟨_, rfl, hfailed, hraised, ?_, fun h => absurd h hrun, fun _ _ => reg_setReg_self _ _ _, sameMemory_settle hmem⟩
    exact (reg_setReg_other p _ _ _ (by decide)).trans hcount

/-! ### A unit's PLL -/

/-- What a link that goes down leaves. -/
structure LinkKept (p q : Pkg) : Prop where
  mem : q.mem = p.mem
  failed : q.failed = p.failed
  supply : q.supply = p.supply
  events : p.ev.inFlight ⊆ q.ev.inFlight

theorem LinkKept.trans {p q r : Pkg} (h : LinkKept p q) (h' : LinkKept q r) : LinkKept p r :=
  ⟨h'.mem.trans h.mem, h'.failed.trans h.failed, h'.supply.trans h.supply, List.Subset.trans h.events h'.events⟩

theorem QueueRun.linkKept {p q : Pkg} (h : QueueRun p q) : LinkKept p q where
  mem := h.mem
  failed := by have h' := congrArg Pkg.failed h.rest; exact h'
  supply := by have h' := congrArg Pkg.supply h.rest; exact h'
  events := h.events

theorem detach_linkKept (p : Pkg) (u : Nat) : LinkKept p (p.detach u) := by
  by_cases h : p.reg O.sessionState = 2
  · rw [Pkg.detach, if_pos h]
    exact (QueueRun.refl p).linkKept
  · obtain ⟨q, hq, hd⟩ := detach_runs p u h
    have hheld : LinkKept p p.holdSession := ⟨rfl, rfl, rfl, by simp [Pkg.holdSession]⟩
    have hforgot : LinkKept q q.forgetFlushes := ⟨rfl, rfl, rfl, List.Subset.refl _⟩
    exact ((hheld.trans hq.linkKept).trans hforgot).trans hd.linkKept

theorem closeLink_linkKept (p : Pkg) (i st : Nat) : LinkKept p (p.closeLink i st) := by
  unfold Pkg.closeLink
  dsimp only
  split
  · exact ⟨rfl, rfl, rfl, (raise_grown _ _ _ _).events.subset⟩
  · exact ⟨rfl, rfl, rfl, List.Subset.refl _⟩

theorem linkDown_linkKept (p : Pkg) (i st u : Nat) : LinkKept p (p.linkDown i st u) := by
  have hclosed := closeLink_linkKept p i st
  rw [linkDown_eq]
  split
  · dsimp only
    have hdetached : LinkKept p (if p.reg (O.pcieLinkState + i) = 2 then (p.closeLink i st).detach u else p.closeLink i st) := by
      split
      · exact hclosed.trans (detach_linkKept _ u)
      · exact hclosed
    exact hdetached.trans ⟨rfl, rfl, rfl, List.Subset.refl _⟩
  · exact hclosed

/-- A unit whose PLL is lost, or does not lock, stops. -/
theorem stopPllUnit_stops (p : Pkg) (u : Nat) : (p.stopPllUnit u).supply.pllOff.at false u = true ∧
    (u < 12 → (p.stopPllUnit u).reg (O.portState + u) = 4) ∧ p.ev.inFlight ⊆ (p.stopPllUnit u).ev.inFlight ∧
    (p.stopPllUnit u).failed = p.failed ∧ (p.stopPllUnit u).mem = p.mem := by
  have hoff : (p.setSupply { p.supply with pllOff := p.supply.pllOff.put false u true }).supply.pllOff.at false u = true := by
    show (p.supply.pllOff.put false u true).at false u = true
    rw [SMap.at_put_self]
  unfold Pkg.stopPllUnit
  extract_lets _ stopped
  split
  · exact ⟨hoff, fun _ => reg_setReg_self _ _ _, List.Subset.refl _, rfl, rfl⟩
  · rename_i hport
    split
    · have hkept := linkDown_linkKept stopped 0 0 0
      exact ⟨by rw [hkept.supply]; exact hoff, fun h => absurd h hport, hkept.events, hkept.failed, hkept.mem⟩
    · split
      · have hkept := linkDown_linkKept stopped 1 0 0
        exact ⟨by rw [hkept.supply]; exact hoff, fun h => absurd h hport, hkept.events, hkept.failed, hkept.mem⟩
      · exact ⟨hoff, fun h => absurd h hport, List.Subset.refl _, rfl, rfl⟩

theorem pllUnit_stopped (s : State) (u code : Nat) (p : Pkg) (hfailed : p.failed = s.pkg.failed) (hmem : p.mem = s.pkg.mem) :
    (s.settle ((p.raise code (pllUnit (.other u)) 0).stopPllUnit u)).pkg.supply.pllOff.at false u = true ∧
      (u < 12 → (s.settle ((p.raise code (pllUnit (.other u)) 0).stopPllUnit u)).pkg.reg (O.portState + u) = 4) ∧
      RaisedEver (s.settle ((p.raise code (pllUnit (.other u)) 0).stopPllUnit u)) code ∧
      (s.settle ((p.raise code (pllUnit (.other u)) 0).stopPllUnit u)).pkg.failed = s.pkg.failed ∧
      SameMemory s (s.settle ((p.raise code (pllUnit (.other u)) 0).stopPllUnit u)) := by
  obtain ⟨hoff, hport, hevents, hkept, hmem'⟩ := stopPllUnit_stops (p.raise code (pllUnit (.other u)) 0) u
  obtain ⟨r, hr, hcode⟩ := hasEvent_raise p code (pllUnit (.other u)) 0
  exact ⟨hoff, hport, ⟨r, hevents hr, hcode⟩, hkept.trans hfailed, sameMemory_settle (hmem'.trans hmem)⟩

theorem rootPll_unlocked (s : State) (hstep : s.pkg.boot.step ≠ 0) :
    ∃ t, exec (.pllLockTimeout .root) s = .next t ∧ t.pkg.reg O.bootState = 5 ∧ t.pkg.reg O.bootFailStep = s.pkg.boot.step ∧
      t.pkg.boot.held = true ∧ RaisedEver t 0x2107 ∧ RaisedLast t 0x2402 ∧ SameMemory s t ∧
      SameRegsBut (fun k => k = O.bootState ∨ k = O.bootFailStep) s t := by
  have hexec : exec (.pllLockTimeout .root) s = .next (s.settle
    (if (s.pkg.raise 0x2107 noUnit 0).boot.step = 0 then s.pkg.raise 0x2107 noUnit 0 else (s.pkg.raise 0x2107 noUnit 0).failBoot)) := rfl
  rw [hexec, if_neg (show ¬ (s.pkg.raise 0x2107 noUnit 0).boot.step = 0 from hstep)]
  refine ⟨_, rfl, ?_, reg_setReg_self _ _ _, rfl, ?_, raised_last _ _ _ _, sameMemory_settle rfl, sameRegsBut_settle fun k hk => ?_⟩
  · exact (reg_setReg_other _ _ O.bootFailStep _ (by decide)).trans (reg_setReg_self _ _ _)
  · obtain ⟨r, hr, hcode⟩ := hasEvent_raise s.pkg 0x2107 noUnit 0
    exact ⟨r, (raise_grown _ _ _ _).events.subset hr, hcode⟩
  · obtain ⟨hstate, hfail⟩ := not_or.mp hk
    exact (reg_setReg_other _ _ O.bootFailStep _ hfail).trans (reg_setReg_other _ _ O.bootState _ hstate)

/-! ## The boot watchdog (R422) -/

theorem watchdog_resets (s : State) (m : Bool) (hruns : s.Runs .management) (hboot : s.pkg.reg O.bootState = 1) (hwait : s.pkg.boot.resetWait = false) :
    ∃ t, exec (.bootWatchdogExpiry m) s = .next t ∧ t.pkg.power.aon.bootFails = min (s.pkg.power.aon.bootFails + 1) 255 ∧
      t.pkg.reg O.resetCause = 8 + (if m then 64 else 0) ∧ t.pkg.boot.resetWait = true ∧ RaisedLast t 0x240B := by
  have hexec : exec (.bootWatchdogExpiry m) s = execBootWatchdogExpiry m s := rfl
  rw [hexec, execBootWatchdogExpiry, on_runs s .management _ hruns]
  dsimp only
  rw [if_pos (Or.inr (Or.inl hboot))]
  have hreset := coldReset_shows (p := s.pkg.setBootFails (min (s.pkg.power.aon.bootFails + 1) 255)) hwait 8 m (by decide)
  exact ⟨_, rfl, congrArg Aon.bootFails hreset.aon, hreset.cause, hreset.wait, raised_last _ _ _ _⟩

theorem watchdog_stands (s : State) (m : Bool) (hstep : s.pkg.boot.step ≠ 7) (hfirst : s.pkg.reg O.bootState ≠ 1) (hheld : s.pkg.reg O.bootState ≠ 5) :
    Does (.bootWatchdogExpiry m) s s.pkg := by
  have hexec : exec (.bootWatchdogExpiry m) s = execBootWatchdogExpiry m s := rfl
  have hstands : ¬ (s.pkg.boot.step = 7 ∨ s.pkg.reg O.bootState = 1 ∨ (s.pkg.reg O.bootState = 5 ∧ 7 ≤ s.pkg.reg O.bootFailStep)) := by
    rintro (h | h | h)
    · exact hstep h
    · exact hfirst h
    · exact hheld h.1
  simp only [Does, hexec, execBootWatchdogExpiry, on_next, if_neg hstands, ite_self]

/-- Settles O55: a cold reset is the reset values with what stays put back, and the other causes change objects and events alone. -/
theorem resetsAndClocks : Obligations.ResetsAndClocks := by
  refine ⟨⟨fun s pt m hruns hwait => ?_, fun s pt m hruns hwait => ?_, packageReset_refuses, resetN_powerUp, fun s m hstep hstate hwait => ?_,
    fun s rn hruns hwait hstep => ⟨release_boots s rn hruns hwait hstep, release_held s rn hruns hwait hstep⟩,
    fun s rn tm h => release_stands s rn tm h⟩,
    ⟨refclk_lost, refclk_restored, rootPll_lost, fun s u => ⟨?_, ?_⟩, rootPll_unlocked, watchdog_resets, watchdog_stands⟩⟩
  · have hreset := coldReset_shows hwait 4 m (by decide)
    exact ⟨_, packageReset_does s pt m hruns, hreset.cause, hreset.count, hreset.wait, hreset.low, hreset.flash, hreset.log, hreset.aon, hreset.image,
      hreset.bytes⟩
  · have hdoes := packageReset_does s pt m hruns
    rwa [coldReset_again hwait] at hdoes
  · have hreset := coldReset_shows (p := s.pkg.setSupply { s.pkg.supply with resetLow := true, tap := .idcode }) hwait 2 m (by decide)
    exact ⟨_, resetN_resets s m hstep hstate, hreset.cause, hreset.wait, hreset.resetLow, hreset.low, hreset.flash⟩
  · have hexec : exec (.pllUnlock (.other u)) s =
      .next (s.settle (((s.pkg.bump O.pllUnlocks 1).raise 0x2106 (pllUnit (.other u)) 0).stopPllUnit u)) := rfl
    exact ⟨_, hexec, pllUnit_stopped s u 0x2106 (s.pkg.bump O.pllUnlocks 1) rfl rfl⟩
  · have hexec : exec (.pllLockTimeout (.other u)) s = .next (s.settle ((s.pkg.raise 0x2107 (pllUnit (.other u)) 0).stopPllUnit u)) := rfl
    exact ⟨_, hexec, pllUnit_stopped s u 0x2107 s.pkg rfl rfl⟩

end Sys2Proof.Machine

namespace Sys2Proof.Machine

/-! ## The supply sequence (R446, R448) -/

/-- The state of supply k. -/
abbrev supplyKey (k : Nat) : Nat := O.supplyState + k

theorem supplyKey_other {k : Nat} (h : k < 21) : supplyKey k ≠ O.errorRegister ∧ supplyKey k ≠ O.pmbusRetries ∧ supplyKey k ≠ O.resetCause := by
  unfold supplyKey O.supplyState O.errorRegister O.pmbusRetries O.resetCause
  omega

theorem supplyKey_inj {i k : Nat} (h : i ≠ k) : supplyKey i ≠ supplyKey k := fun hk => h (Nat.add_left_cancel hk)

/-- FAULT_N is low while the supply sequence stands at a fault (R446). -/
theorem fixFault_low_of_supply (p : Pkg) (h : p.supply.supplyFault = true) : (landsOf p.fixFault).faultN = false := by
  have hbit : bitOf (p.fixFault.reg O.errorRegister) 0 = true := by
    rw [Pkg.fixFault, setErrBit_reads, h]
    simp
  show (!bitOf (p.fixFault.reg O.errorRegister) 0) = false
  rw [hbit]
  rfl

theorem fixFault_low_of_trip (p : Pkg) (h : p.supply.tripped = true) : bitOf (p.fixFault.reg O.errorRegister) 0 = true := by
  rw [Pkg.fixFault, setErrBit_reads, h]
  simp

theorem commandOn_ready (p : Pkg) (k : Nat) (h : p.reg (supplyKey k) = 2) : p.commandOn k = p := if_pos h

theorem commandOn_starts (p : Pkg) (k : Nat) (h : p.reg (supplyKey k) ≠ 2) (hk : 4 ≤ k) :
    p.commandOn k = (p.setReg (supplyKey k) 1).emit (.pmbus k (operationCommand true)) := by
  rw [Pkg.commandOn, if_neg h]
  dsimp only
  rw [if_neg (Nat.not_lt.mpr hk)]

/-- The step in which supplies 16 and 5 are commanded on. -/
theorem runSequence_two (p : Pkg) (h16 : p.reg (supplyKey 16) ≠ 2) (h5 : p.reg (supplyKey 5) ≠ 2) :
    p.runSequence 2 = ((((p.setSupply { p.supply with seqStep := 2 }).setReg (supplyKey 16) 1).emit (.pmbus 16 (operationCommand true))).setReg
      (supplyKey 5) 1).emit (.pmbus 5 (operationCommand true)) := by
  have hfirst := commandOn_starts (p.setSupply { p.supply with seqStep := 2 }) 16 h16 (by decide)
  have hsecond := commandOn_starts (((p.setSupply { p.supply with seqStep := 2 }).setReg (supplyKey 16) 1).emit (.pmbus 16 (operationCommand true))) 5
    (by rw [reg_emit, reg_setReg_other _ _ _ _ (by decide)]; exact h5) (by decide)
  have hstep : (stepSupplies 2).foldl Pkg.commandOn (p.setSupply { p.supply with seqStep := 2 }) = _ :=
    (congrArg (fun q => Pkg.commandOn q 5) hfirst).trans hsecond
  show (let q := (stepSupplies 2).foldl Pkg.commandOn (p.setSupply { p.supply with seqStep := 2 })
    if (stepSupplies 2).all fun s => decide (q.reg (O.supplyState + s) = 2) then Pkg.sequenceFrom 5 3 q else q) = _
  rw [hstep]
  refine if_neg fun hall => ?_
  have hready := of_decide_eq_true (List.all_eq_true.mp hall 5 (by decide))
  rw [reg_emit, reg_setReg_self] at hready
  exact absurd hready (by decide)

/-- The last step, with each of its supplies on: cold reset waits for its release. -/
theorem runSequence_last (p : Pkg) (h : ∀ k < 4, p.reg (supplyKey k) = 2) :
    p.runSequence 7 = (p.setSupply { p.supply with seqStep := 8 }).setBoot { p.boot with resetWait := true } := by
  have hfold : (stepSupplies 7).foldl Pkg.commandOn (p.setSupply { p.supply with seqStep := 7 }) = p.setSupply { p.supply with seqStep := 7 } := by
    refine List.foldlRecOn (motive := fun q => q = p.setSupply { p.supply with seqStep := 7 }) _ _ rfl fun q hq k hk => ?_
    rw [hq]
    exact commandOn_ready _ k (h k ((by decide : ∀ k ∈ stepSupplies 7, k < 4) k hk))
  show (let q := (stepSupplies 7).foldl Pkg.commandOn (p.setSupply { p.supply with seqStep := 7 })
    if (stepSupplies 7).all fun s => decide (q.reg (O.supplyState + s) = 2) then Pkg.sequenceFrom 0 8 q else q) = _
  rw [hfold]
  refine (if_pos (List.all_eq_true.mpr fun k hk => decide_eq_true ?_)).trans rfl
  exact h k ((by decide : ∀ k ∈ stepSupplies 7, k < 4) k hk)

/-! ### PWR_OK rises, and a supply answers -/

/-- The package after its power-on reset, before step 1. -/
def Pkg.poweredOn (p : Pkg) : Pkg :=
  Pkg.setReg { Pkg.reset with
    boot := { Pkg.reset.boot with flash := p.boot.flash }
    retired := p.retired
    supply := { Pkg.reset.supply with pwrOk := true, resetLow := p.supply.resetLow, seqStep := 1 }
    free := p.free
    out := p.out } O.resetCause 1

theorem pwrOkRise_off {s : State} (l : List Nat) (h : s.pkg.supply.pwrOk = false) :
    exec (.pwrOkRise l) s = .next (s.settle (match l.filter fun r => decide (r < 18) with
      | [] => s.pkg.poweredOn.runSequence 2
      | l => l.foldl (fun q r => (q.noAnswer r).stopSequence r) s.pkg.poweredOn)) := by
  have hexec : exec (.pwrOkRise l) s = execPwrOkRise l s := rfl
  rw [hexec, execPwrOkRise, go_eq, if_neg (by rw [h]; decide)] <;> rfl

theorem pwrOkRise_starts (s : State) (h : s.pkg.supply.pwrOk = false) :
    ∃ t, exec (.pwrOkRise []) s = .next t ∧ t.pkg.supply.pwrOk = true ∧ t.pkg.supply.seqStep = 2 ∧ t.pkg.reg (O.supplyState + 16) = 1 ∧
      t.pkg.reg (O.supplyState + 5) = 1 ∧ t.pkg.reg O.resetCause = 1 ∧ t.pkg.boot.flash = s.pkg.boot.flash ∧ t.pkg.mem = [] := by
  have hsupply (k : Nat) (hk : k < 21) : s.pkg.poweredOn.reg (supplyKey k) = Pkg.reset.reg (supplyKey k) :=
    reg_setReg_other _ _ _ _ (supplyKey_other hk).2.2
  have h16 : s.pkg.poweredOn.reg (supplyKey 16) ≠ 2 := by
    rw [hsupply 16 (by decide)]
    decide +kernel
  have h5 : s.pkg.poweredOn.reg (supplyKey 5) ≠ 2 := by
    rw [hsupply 5 (by decide)]
    decide +kernel
  have hcause : s.pkg.poweredOn.reg O.resetCause = 1 := reg_setReg_self _ _ _
  have hpwr : s.pkg.poweredOn.supply.pwrOk = true := rfl
  have hflash : s.pkg.poweredOn.boot.flash = s.pkg.boot.flash := rfl
  have hmem : s.pkg.poweredOn.mem = [] := rfl
  rw [pwrOkRise_off [] h]
  dsimp only [List.filter]
  rw [runSequence_two _ h16 h5]
  generalize s.pkg.poweredOn = p at *
  refine ⟨_, rfl, hpwr, rfl, ?_, reg_setReg_self _ _ _, ?_, hflash, hmem⟩
  · exact (reg_setReg_other _ _ (supplyKey 5) _ (by decide)).trans (reg_setReg_self _ _ _)
  · exact ((reg_setReg_other _ _ (supplyKey 5) _ (by decide)).trans (reg_setReg_other _ _ (supplyKey 16) _ (by decide))).trans hcause

/-- What a sequence that stops at supply k shows (R446). -/
theorem stopSequence_shows (s : State) (p : Pkg) (k : Nat) (hk : k < 21) :
    (s.settle (p.stopSequence k)).pkg.reg (O.supplyState + k) = 3 ∧ (s.settle (p.stopSequence k)).pkg.supply.seqStopped = true ∧
      (s.settle (p.stopSequence k)).lands.faultN = false ∧ RaisedLast (s.settle (p.stopSequence k)) 0x2101 ∧
      (s.settle (p.stopSequence k)).pkg.mem = p.mem ∧ (s.settle (p.stopSequence k)).pkg.ev.inFlight.dropLast = p.ev.inFlight := by
  unfold Pkg.stopSequence
  dsimp only
  have hlast := raised_last (p.setReg (O.supplyState + k) 3) 0x2101 k 0
  have hdrop : ((p.setReg (O.supplyState + k) 3).raise 0x2101 k 0).ev.inFlight.dropLast = p.ev.inFlight := List.dropLast_concat
  have hstate : ((p.setReg (O.supplyState + k) 3).raise 0x2101 k 0).reg (O.supplyState + k) = 3 := reg_setReg_self _ _ _
  have hmem : ((p.setReg (O.supplyState + k) 3).raise 0x2101 k 0).mem = p.mem := rfl
  generalize (p.setReg (O.supplyState + k) 3).raise 0x2101 k 0 = q at *
  have hlow := fixFault_low_of_supply (q.setSupply { q.supply with seqStopped := true, supplyFault := true }) rfl
  have hkey := fixFault_reg_other (q.setSupply { q.supply with seqStopped := true, supplyFault := true }) (supplyKey k) (supplyKey_other hk).1
  obtain ⟨d, hd⟩ := fixFault_eq (q.setSupply { q.supply with seqStopped := true, supplyFault := true })
  rw [hd] at hlow hkey ⊢
  exact ⟨hkey.trans hstate, rfl, hlow, hlast, hmem, hdrop⟩

theorem pwrOkRise_silent (s : State) (r : Fin 18) (h : s.pkg.supply.pwrOk = false) :
    ∃ t, exec (.pwrOkRise [r.val]) s = .next t ∧ t.pkg.reg (O.supplyState + r.val) = 3 ∧ t.pkg.supply.seqStopped = true ∧
      t.lands.faultN = false ∧ RaisedEver t 0x2102 ∧ RaisedEver t 0x2101 := by
  have hfilter : [r.val].filter (fun r => decide (r < 18)) = [r.val] := List.filter_cons_of_pos (decide_eq_true r.isLt)
  rw [pwrOkRise_off [r.val] h, hfilter]
  obtain ⟨hstate, hstopped, hlow, hlast, -, hdrop⟩ := stopSequence_shows s (s.pkg.poweredOn.noAnswer r.val) r.val (by omega)
  obtain ⟨e, he, hcode⟩ := hasEvent_raise (s.pkg.poweredOn.bump O.pmbusRetries 1) 0x2102 r.val 0
  obtain ⟨f, hf, hfcode⟩ := Option.map_eq_some_iff.mp hlast
  refine ⟨_, rfl, hstate, hstopped, hlow, ⟨e, List.dropLast_subset _ ?_, hcode⟩, ⟨f, List.mem_of_getLast? hf, hfcode⟩⟩
  exact hdrop.symm ▸ he

section
variable (s : State) (u : Fin 21)

theorem supplyPowerGood_ramping (h : s.pkg.reg (O.supplyState + u.val) = 1) :
    Does (.supplyPowerGood u) s (if 2 ≤ s.pkg.supply.seqStep ∧ s.pkg.supply.seqStep ≤ 7 ∧ !s.pkg.supply.seqStopped then
      (s.pkg.setReg (O.supplyState + u.val) 2).runSequence s.pkg.supply.seqStep else s.pkg.setReg (O.supplyState + u.val) 2) := by
  have hexec : exec (.supplyPowerGood u) s = execSupplyPowerGood u s := rfl
  rw [Does, hexec, execSupplyPowerGood, go_eq, if_neg (not_not.mpr h)]
  rfl

theorem supplyPowerGood_alone (h : s.pkg.reg (O.supplyState + u.val) = 1)
    (hstands : s.pkg.supply.seqStep < 2 ∨ 7 < s.pkg.supply.seqStep ∨ s.pkg.supply.seqStopped = true) :
    Does (.supplyPowerGood u) s (s.pkg.setReg (O.supplyState + u.val) 2) := by
  have hdoes := supplyPowerGood_ramping s u h
  rwa [if_neg ?_] at hdoes
  rintro ⟨hlo, hhi, hgo⟩
  rcases hstands with h | h | h
  · omega
  · omega
  · rw [h] at hgo
    exact absurd hgo (by decide)

theorem supplyPowerGood_last (h : s.pkg.reg (O.supplyState + u.val) = 1) (hstep : s.pkg.supply.seqStep = 7) (hgo : s.pkg.supply.seqStopped = false)
    (hothers : ∀ k < 4, k ≠ u.val → s.pkg.reg (O.supplyState + k) = 2) :
    ∃ t, exec (.supplyPowerGood u) s = .next t ∧ t.pkg.reg (O.supplyState + u.val) = 2 ∧ t.pkg.supply.seqStep = 8 ∧
      t.pkg.boot.resetWait = true ∧ SameMemory s t ∧ SameRegsBut (fun k => k = O.supplyState + u.val) s t := by
  have hdoes := supplyPowerGood_ramping s u h
  have hready (k : Nat) (hk : k < 4) : (s.pkg.setReg (O.supplyState + u.val) 2).reg (supplyKey k) = 2 := by
    by_cases hu : k = u.val
    · rw [hu, reg_setReg_self]
    · rw [reg_setReg_other _ _ _ _ (supplyKey_inj hu)]
      exact hothers k hk hu
  rw [if_pos (by rw [hstep, hgo]; decide), hstep, runSequence_last _ hready] at hdoes
  exact ⟨_, hdoes, reg_setReg_self _ _ _, rfl, rfl, sameMemory_settle rfl, sameRegsBut_settle fun k hk => reg_setReg_other _ _ _ _ hk⟩

theorem powerGoodTimeout_stops (h : s.pkg.reg (O.supplyState + u.val) = 1) :
    ∃ t, exec (.powerGoodTimeout u) s = .next t ∧ t.pkg.reg (O.supplyState + u.val) = 3 ∧ t.pkg.supply.seqStopped = true ∧
      t.lands.faultN = false ∧ RaisedLast t 0x2101 ∧ SameMemory s t := by
  have hexec : exec (.powerGoodTimeout u) s = execPowerGoodTimeout u s := rfl
  rw [hexec, execPowerGoodTimeout, go_eq, if_pos h]
  obtain ⟨hstate, hstopped, hlow, hlast, hmem, -⟩ := stopSequence_shows s s.pkg u.val u.isLt
  exact ⟨_, rfl, hstate, hstopped, hlow, hlast, sameMemory_settle hmem⟩

theorem supply_stands (h : s.pkg.reg (O.supplyState + u.val) ≠ 1) : Does (.supplyPowerGood u) s s.pkg ∧ Does (.powerGoodTimeout u) s s.pkg := by
  have hgood : exec (.supplyPowerGood u) s = execSupplyPowerGood u s := rfl
  have hlate : exec (.powerGoodTimeout u) s = execPowerGoodTimeout u s := rfl
  rw [Does, Does, hgood, hlate, execSupplyPowerGood, execPowerGoodTimeout, go_eq, go_eq, if_pos h, if_neg h]
  exact ⟨rfl, rfl⟩

end

/-! ### Power-down (R447, R448) -/

theorem switchSupplies_off (p : Pkg) (l : List Nat) (k : Nat) (hk : k ∈ l ∨ p.reg (supplyKey k) = 0) : (p.switchSupplies l false).reg (supplyKey k) = 0 := by
  induction l generalizing p with
  | nil => exact hk.resolve_left List.not_mem_nil
  | cons i l ih =>
    have hstep : p.switchSupplies (i :: l) false = ((p.setReg (supplyKey i) 0).emit (.pmbus i (operationCommand false))).switchSupplies l false := rfl
    rw [hstep]
    refine ih _ ?_
    by_cases hi : k = i
    · exact .inr (hi ▸ reg_setReg_self _ _ _)
    · refine hk.imp (fun h => (List.mem_cons.mp h).resolve_left hi) fun h => ?_
      rw [reg_emit, reg_setReg_other _ _ _ _ (supplyKey_inj hi), h]

/-- A package that differs in its objects and what it sends alone. -/
theorem switchSupplies_eq (p : Pkg) (l : List Nat) (on : Bool) : ∃ d out, p.switchSupplies l on = { p with dict := d, out := out } := by
  unfold Pkg.switchSupplies
  refine List.foldlRecOn (motive := fun q : Pkg => ∃ d out, q = { p with dict := d, out := out }) _ _ ⟨p.dict, p.out, rfl⟩ fun q hq k _ => ?_
  obtain ⟨d, out, rfl⟩ := hq
  exact ⟨_, _, rfl⟩

theorem pwrOkFall_shows (s : State) (h : s.pkg.supply.pwrOk = true) :
    ∃ t, exec .pwrOkFall s = .next t ∧ t.pkg.supply.pwrOk = false ∧ (∀ k < 18, t.pkg.reg (O.supplyState + k) = 0) ∧
      (∀ a, t.pkg.byte a = 0) ∧ t.pkg.boot.flash = s.pkg.boot.flash ∧ t.pkg.ev.log = s.pkg.ev.log ∧ RaisedEver t 0x2103 := by
  have hexec : exec .pwrOkFall s = execPwrOkFall s := rfl
  rw [hexec, execPwrOkFall, go_eq, if_neg (by rw [h]; decide)]
  dsimp only
  obtain ⟨l, sched, ev, out, hnotice, hevents, hlog⟩ := noticeOfReset_eq (s.pkg.raise 0x2103 noUnit 0)
  obtain ⟨d, l', hreset⟩ := resetAll_same (s.pkg.raise 0x2103 noUnit 0).noticeOfReset false
  have hraised : ∃ r ∈ ev.inFlight, r.code = 0x2103 := hasEvent_of_prefix (q := { s.pkg with ev := ev }) hevents (hasEvent_raise s.pkg 0x2103 noUnit 0)
  rw [hreset]
  have hoff := fun k hk => switchSupplies_off { (s.pkg.raise 0x2103 noUnit 0).noticeOfReset.resetBase false with dict := d, links := l' } downOrder k
    (.inl ((by decide : ∀ k < 18, k ∈ downOrder) k hk))
  obtain ⟨e, o, hswitch⟩ :=
    switchSupplies_eq { (s.pkg.raise 0x2103 noUnit 0).noticeOfReset.resetBase false with dict := d, links := l' } downOrder false
  rw [hswitch] at hoff ⊢
  rw [hnotice] at hoff ⊢
  exact ⟨_, rfl, rfl, hoff, fun _ => rfl, rfl, hlog, hraised⟩

/-! ## Regulators, telemetry and temperatures (R442 to R444, R458) -/

section
variable (s : State)

theorem telemetryPoll_runs (u : Fin 21) (x : Telemetry) (hruns : s.Runs .management) :
    Does (.telemetryPoll u x) s ((if u.val < 18 then s.pkg.emit (.pmbus u.val readPoutCommand) else s.pkg).telemetry u.val x) := by
  have hexec : exec (.telemetryPoll u x) s = execTelemetryPoll u x s := rfl
  rw [Does, hexec, execTelemetryPoll, on_runs s _ _ hruns]

/-- What is sent on the bus for a reading changes neither memory nor objects. -/
theorem polled_same (p : Pkg) (u : Fin 21) : (if u.val < 18 then p.emit (.pmbus u.val readPoutCommand) else p).mem = p.mem ∧
    ∀ k, (if u.val < 18 then p.emit (.pmbus u.val readPoutCommand) else p).reg k = p.reg k := by
  split
  · exact ⟨rfl, fun _ => rfl⟩
  · exact ⟨rfl, fun _ => rfl⟩

/-- A reading is kept in the objects of its supply. -/
theorem supplyReading_shows (p : Pkg) (k mv ma : Nat) (hk : k < 21) :
    (p.supplyReading k mv ma).reg (O.supplyMv + k) = mv % 2 ^ 16 ∧ (p.supplyReading k mv ma).reg (O.supplyMa + k) = ma % 2 ^ 32 ∧
      (p.supplyReading k mv ma).mem = p.mem ∧
      ∀ j, ¬ (j = O.supplyMv + k ∨ j = O.supplyMa + k ∨ (18 ≤ k ∧ j = O.supplyState + k)) → (p.supplyReading k mv ma).reg j = p.reg j := by
  have hmv : O.supplyMv + k ≠ O.supplyMa + k ∧ O.supplyMv + k ≠ O.supplyState + k ∧ O.supplyMa + k ≠ O.supplyState + k := by
    unfold O.supplyMv O.supplyMa O.supplyState
    omega
  obtain ⟨hva, hvs, has⟩ := hmv
  have hshown := reg_setReg_self (p.setReg (O.supplyMv + k) (mv % 2 ^ 16)) (O.supplyMa + k) (ma % 2 ^ 32)
  have hshown' : ((p.setReg (O.supplyMv + k) (mv % 2 ^ 16)).setReg (O.supplyMa + k) (ma % 2 ^ 32)).reg (O.supplyMv + k) = mv % 2 ^ 16 :=
    (reg_setReg_other _ _ _ _ hva).trans (reg_setReg_self _ _ _)
  have hother (j : Nat) (hv : j ≠ O.supplyMv + k) (ha : j ≠ O.supplyMa + k) :
      ((p.setReg (O.supplyMv + k) (mv % 2 ^ 16)).setReg (O.supplyMa + k) (ma % 2 ^ 32)).reg j = p.reg j :=
    (reg_setReg_other _ _ _ _ ha).trans (reg_setReg_other _ _ _ _ hv)
  have hmem : ((p.setReg (O.supplyMv + k) (mv % 2 ^ 16)).setReg (O.supplyMa + k) (ma % 2 ^ 32)).mem = p.mem := rfl
  unfold Pkg.supplyReading
  generalize (p.setReg (O.supplyMv + k) (mv % 2 ^ 16)).setReg (O.supplyMa + k) (ma % 2 ^ 32) = q at *
  extract_lets _ _ bad ranged n _ counted
  have hranged : ranged.mem = q.mem ∧ ∀ j, ¬ (18 ≤ k ∧ j = O.supplyState + k) → ranged.reg j = q.reg j := by
    simp only [ranged]
    split
    · rename_i h18
      exact ⟨rfl, fun j hj => reg_setReg_other _ _ _ _ fun h => hj ⟨h18, h⟩⟩
    · exact ⟨rfl, fun _ _ => rfl⟩
  have hresult : (if n = 10 then counted.raise 0x210B k 0 else counted).mem = ranged.mem ∧
      ∀ j, (if n = 10 then counted.raise 0x210B k 0 else counted).reg j = ranged.reg j := by
    split
    · exact ⟨rfl, fun _ => rfl⟩
    · exact ⟨rfl, fun _ => rfl⟩
  refine ⟨?_, ?_, hresult.1.trans (hranged.1.trans hmem), fun j hj => ?_⟩
  · rw [hresult.2, hranged.2 _ fun h => hvs h.2, hshown']
  · rw [hresult.2, hranged.2 _ fun h => has h.2, hshown]
  · obtain ⟨hv, h⟩ := not_or.mp hj
    obtain ⟨ha, hs⟩ := not_or.mp h
    rw [hresult.2, hranged.2 j hs, hother j hv ha]

theorem telemetry_reading (u : Fin 21) (mv ma : Nat) (hruns : s.Runs .management) :
    ∃ t, exec (.telemetryPoll u (.reading mv ma)) s = .next t ∧ t.pkg.reg (O.supplyMv + u.val) = mv % 2 ^ 16 ∧
      t.pkg.reg (O.supplyMa + u.val) = ma % 2 ^ 32 ∧ SameMemory s t ∧
      SameRegsBut (fun k => k = O.supplyMv + u.val ∨ k = O.supplyMa + u.val ∨ (18 ≤ u.val ∧ k = O.supplyState + u.val)) s t := by
  obtain ⟨hmem, hreg⟩ := polled_same s.pkg u
  obtain ⟨hmv, hma, hmem', hregs⟩ := supplyReading_shows (if u.val < 18 then s.pkg.emit (.pmbus u.val readPoutCommand) else s.pkg) u.val mv ma u.isLt
  exact ⟨_, telemetryPoll_runs s u _ hruns, hmv, hma, sameMemory_settle (hmem'.trans hmem), sameRegsBut_settle fun k hk => (hregs k hk).trans (hreg k)⟩

theorem telemetry_stale (u : Fin 21) (hruns : s.Runs .management) : ∃ t, exec (.telemetryPoll u .stale) s = .next t ∧
    t.pkg.reg O.telemetryStale = min (s.pkg.reg O.telemetryStale + 1) (2 ^ 32 - 1) ∧ SameMemory s t ∧
    SameRegsBut (fun k => k = O.telemetryStale) s t := by
  obtain ⟨hmem, hreg⟩ := polled_same s.pkg u
  refine ⟨_, telemetryPoll_runs s u _ hruns, ?_, sameMemory_settle hmem, sameRegsBut_settle fun k hk => ?_⟩
  · exact (bump_reg_self _ _ _).trans (by rw [hreg])
  · exact (bump_reg_other _ _ _ _ hk).trans (hreg k)

/-- A supply's fault fails the package (R444). -/
theorem supplyFaultAt_shows (p : Pkg) (k : Nat) (hk : k < 21) : (p.supplyFaultAt k).reg (O.supplyState + k) = 3 ∧ (p.supplyFaultAt k).failed = true ∧
    (p.supplyFaultAt k).HasEvent 0x2101 ∧ (p.supplyFaultAt k).mem = p.mem :=
  ⟨(declareFailed_reg _ _ (supplyKey_other hk).1).trans (reg_setReg_self _ _ _), declareFailed_failed _, declareFailed_raised .., declareFailed_mem _⟩

theorem telemetry_fault (u : Fin 18) (hruns : s.Runs .management) :
    ∃ t, exec (.telemetryPoll ⟨u.val, by omega⟩ .fault) s = .next t ∧ t.pkg.reg (O.supplyState + u.val) = 3 ∧ t.pkg.failed = true ∧
      RaisedEver t 0x2101 ∧ SameMemory s t := by
  have hdoes := telemetryPoll_runs s ⟨u.val, by omega⟩ .fault hruns
  rw [Pkg.telemetry, if_neg (by have := u.isLt; dsimp only; omega)] at hdoes
  obtain ⟨hstate, hfailed, hraised, hmem⟩ :=
    supplyFaultAt_shows (if u.val < 18 then s.pkg.emit (.pmbus u.val readPoutCommand) else s.pkg) u.val (by have := u.isLt; omega)
  exact ⟨_, hdoes, hstate, hfailed, hraised, sameMemory_settle (hmem.trans (polled_same s.pkg ⟨u.val, by omega⟩).1)⟩

theorem pmbAlert_shows (u : Fin 18) (hruns : s.Runs .management) :
    (∃ t, exec (.pmbAlert u .fault) s = .next t ∧ t.pkg.reg (O.supplyState + u.val) = 3 ∧ t.pkg.failed = true ∧ RaisedEver t 0x2101 ∧ SameMemory s t) ∧
      (∃ t, exec (.pmbAlert u .warning) s = .next t ∧ RaisedLast t 0x210C ∧ SameMemory s t ∧ SameRegs s t) ∧
      ∀ mv ma, Does (.pmbAlert u (.reading mv ma)) s (s.pkg.emit (.pmbus u.val statusWordCommand)) := by
  have hnot : ¬ 18 ≤ u.val := by have := u.isLt; omega
  refine ⟨?_, ?_, fun mv ma => ?_⟩
  · have hexec : exec (.pmbAlert u .fault) s = execPmbAlert u .fault s := rfl
    rw [hexec, execPmbAlert, on_runs s _ _ hruns]
    dsimp only
    rw [Pkg.telemetry, if_neg hnot]
    obtain ⟨hstate, hfailed, hraised, hmem⟩ := supplyFaultAt_shows (s.pkg.emit (.pmbus u.val statusWordCommand)) u.val (by omega)
    exact ⟨_, rfl, hstate, hfailed, hraised, sameMemory_settle hmem⟩
  · have hexec : exec (.pmbAlert u .warning) s = execPmbAlert u .warning s := rfl
    rw [hexec, execPmbAlert, on_runs s _ _ hruns]
    dsimp only
    rw [Pkg.telemetry, if_neg hnot]
    exact ⟨_, rfl, raised_last _ _ _ _, sameMemory_settle rfl, fun _ => rfl⟩
  · have hexec : exec (.pmbAlert u (.reading mv ma)) s = execPmbAlert u (.reading mv ma) s := rfl
    rw [Does, hexec, execPmbAlert, on_runs s _ _ hruns]

end

/-! ### Temperatures -/

/-- What one reading shows, and what it leaves: `k` is its object, `key` its warning. -/
structure Measured (p q : Pkg) (k key : Nat) (t : Int) (limit : Nat) : Prop where
  mem : q.mem = p.mem
  shown : q.reg k = toBits 16 t
  other : ∀ j, j ≠ k → q.reg j = p.reg j
  warned : ∀ j, j ≠ key → q.supply.warned.at false j = p.supply.warned.at false j
  events : p.ev.inFlight <+: q.ev.inFlight
  warning : 10 * (limit : Int) ≤ t → p.supply.warned.at false key = false → q.HasEvent 0x2108

theorem temperature_measures (p : Pkg) (k unit key limit : Nat) (t : Int) : Measured p (p.temperature k unit key limit t) k key t limit := by
  have hself : (p.setReg k (toBits 16 t)).reg k = toBits 16 t := reg_setReg_self _ _ _
  have hother (j : Nat) (hj : j ≠ k) : (p.setReg k (toBits 16 t)).reg j = p.reg j := reg_setReg_other _ _ _ _ hj
  have hwarned (b : Bool) (j : Nat) (hj : j ≠ key) : (p.supply.warned.put false key b).at false j = p.supply.warned.at false j :=
    SMap.at_put_other _ _ _ _ _ hj
  unfold Pkg.temperature
  extract_lets q was _ set
  by_cases hhot : 10 * (limit : Int) ≤ t
  · rw [if_pos hhot]
    split
    · rename_i hwas
      exact ⟨rfl, hself, hother, fun _ _ => rfl, List.prefix_rfl, fun _ hnot => absurd (hwas.symm.trans hnot) (by decide)⟩
    · exact ⟨rfl, hself, hother, hwarned true, (raise_grown (set true) 0x2108 unit 0).events, fun _ _ => hasEvent_raise (set true) 0x2108 unit 0⟩
  · rw [if_neg hhot]
    split
    · exact ⟨rfl, hself, hother, hwarned false, List.prefix_rfl, fun h => absurd h hhot⟩
    · exact ⟨rfl, hself, hother, fun _ _ => rfl, List.prefix_rfl, fun h => absurd h hhot⟩

/-- Readings of the units of a list, each into its own object of an array. -/
def Pkg.temperatures (p : Pkg) (base keys limit : Nat) (l : List (Int × Nat)) : Pkg :=
  l.foldl (fun p e => p.temperature (base + e.2) e.2 (keys + e.2) (p.reg limit) e.1) p

/-- What the readings of a list show, and what they leave. -/
structure MeasuredAll (p q : Pkg) (base keys limit : Nat) (l : List (Int × Nat)) : Prop where
  mem : q.mem = p.mem
  shown : ∀ e ∈ l, q.reg (base + e.2) = toBits 16 e.1
  other : ∀ j, (∀ e ∈ l, j ≠ base + e.2) → q.reg j = p.reg j
  events : p.ev.inFlight <+: q.ev.inFlight
  warning : ∀ e ∈ l, 10 * (p.reg limit : Int) ≤ e.1 → p.supply.warned.at false (keys + e.2) = false → q.HasEvent 0x2108

theorem temperatures_measure (base keys limit : Nat) (l : List (Int × Nat)) (hunits : (l.map Prod.snd).Nodup) (hlimit : ∀ e ∈ l, limit ≠ base + e.2) (p : Pkg) :
    MeasuredAll p (p.temperatures base keys limit l) base keys limit l := by
  induction l generalizing p with
  | nil => exact ⟨rfl, fun e he => absurd he List.not_mem_nil, fun _ _ => rfl, List.prefix_rfl, fun e he => absurd he List.not_mem_nil⟩
  | cons e l ih =>
    obtain ⟨hnew, hrest⟩ := List.nodup_cons.mp hunits
    have hone := temperature_measures p (base + e.2) e.2 (keys + e.2) (p.reg limit) e.1
    have hall := ih hrest (fun f hf => hlimit f (List.mem_cons_of_mem _ hf)) (p.temperature (base + e.2) e.2 (keys + e.2) (p.reg limit) e.1)
    have hunit (f : Int × Nat) (hf : f ∈ l) : f.2 ≠ e.2 := fun h => hnew (h ▸ List.mem_map_of_mem hf)
    have hsplit : p.temperatures base keys limit (e :: l) =
      (p.temperature (base + e.2) e.2 (keys + e.2) (p.reg limit) e.1).temperatures base keys limit l := rfl
    rw [hsplit]
    refine ⟨hall.mem.trans hone.mem, fun f hf => ?_, fun j hj => ?_, hone.events.trans hall.events, fun f hf hhot hwas => ?_⟩
    · rcases List.mem_cons.mp hf with rfl | hf
      · rw [hall.other _ fun g hg h => hunit g hg (Nat.add_left_cancel h).symm, hone.shown]
      · exact hall.shown f hf
    · rw [hall.other j fun g hg => hj g (List.mem_cons_of_mem _ hg), hone.other j (hj e List.mem_cons_self)]
    · rcases List.mem_cons.mp hf with rfl | hf
      · exact hasEvent_of_prefix hall.events (hone.warning hhot hwas)
      · refine hall.warning f hf ?_ ?_
        · rw [hone.other limit (hlimit e List.mem_cons_self)]
          exact hhot
        · rw [hone.warned _ fun h => hunit f hf (Nat.add_left_cancel h)]
          exact hwas

/-- The first n readings, with the units that they are of. -/
theorem unitsOf_nodup (l : List Int) (n : Nat) : (((l.take n).zip (List.range n)).map Prod.snd).Nodup := by
  rw [List.zip_eq_zip_take_min, List.map_snd_zip (by simp)]
  exact List.nodup_range.sublist (List.take_sublist _ _)

theorem unitsOf_mem {l : List Int} {n : Nat} {i : Nat} {v : Int} (hi : i < n) (hv : l[i]? = some v) : (v, i) ∈ (l.take n).zip (List.range n) := by
  refine List.mem_of_getElem? (i := i) (List.getElem?_zip_eq_some.mpr ⟨?_, List.getElem?_range hi⟩)
  exact (List.getElem?_take_of_lt hi).trans hv

theorem unitsOf_lt {l : List Int} {n : Nat} {e : Int × Nat} (he : e ∈ (l.take n).zip (List.range n)) : e.2 < n :=
  List.mem_range.mp (List.of_mem_zip he).2

theorem thermalSample_shows (s : State) (d k : List Int) (hruns : s.Runs .management) :
    ∃ t, exec (.thermalSample d k) s = .next t ∧
      (∀ (i : Nat) (v : Int), i < 10 → d[i]? = some v → t.pkg.reg (O.dieTempDc + i) = toBits 16 v ∧
        (10 * (s.pkg.reg O.thermalWarnC : Int) ≤ v → s.pkg.supply.warned.at false i = false → RaisedEver t 0x2108)) ∧
      (∀ (i : Nat) (v : Int), i < 12 → k[i]? = some v → t.pkg.reg (O.stackTempDc + i) = toBits 16 v) ∧ SameMemory s t ∧
      SameRegsBut (fun j => (O.dieTempDc ≤ j ∧ j < O.dieTempDc + 10) ∨ (O.stackTempDc ≤ j ∧ j < O.stackTempDc + 12)) s t := by
  have hexec : exec (.thermalSample d k) s = execThermalSample d k s := rfl
  have hdies := temperatures_measure O.dieTempDc 0 O.thermalWarnC _ (unitsOf_nodup d 10) (fun e he => by
    have := unitsOf_lt he
    unfold O.thermalWarnC O.dieTempDc
    omega) s.pkg
  have hstacks := temperatures_measure O.stackTempDc 10 O.stackWarnC _ (unitsOf_nodup k 12) (fun e he => by
    have := unitsOf_lt he
    unfold O.stackWarnC O.stackTempDc
    omega) (s.pkg.temperatures O.dieTempDc 0 O.thermalWarnC ((d.take 10).zip (List.range 10)))
  have hzero : s.pkg.temperatures O.dieTempDc 0 O.thermalWarnC ((d.take 10).zip (List.range 10)) = ((d.take 10).zip (List.range 10)).foldl
      (fun p (e : Int × Nat) => p.temperature (O.dieTempDc + e.2) e.2 e.2 (p.reg O.thermalWarnC) e.1) s.pkg := by
    simp only [Pkg.temperatures, Nat.zero_add]
  rw [hexec, execThermalSample, on_runs s _ _ hruns, ← hzero]
  refine ⟨_, rfl, fun i v hi hv => ⟨?_, fun hhot hwas => ?_⟩, fun i v hi hv => hstacks.shown _ (unitsOf_mem hi hv),
    sameMemory_settle (hstacks.mem.trans hdies.mem), sameRegsBut_settle fun j hj => ?_⟩
  · refine (hstacks.other _ fun e he => ?_).trans (hdies.shown _ (unitsOf_mem hi hv))
    have := unitsOf_lt he
    unfold O.dieTempDc O.stackTempDc
    omega
  · exact hasEvent_of_prefix hstacks.events (hdies.warning _ (unitsOf_mem hi hv) hhot (by rw [Nat.zero_add]; exact hwas))
  · obtain ⟨hdie, hstack⟩ := not_or.mp hj
    refine (hstacks.other j fun e he => ?_).trans (hdies.other j fun e he => ?_)
    · have := unitsOf_lt he
      omega
    · have := unitsOf_lt he
      omega

/-! ### The trip (R448, R458) -/

/-- The supplies of a list off. -/
theorem suppliesFold_off (p : Pkg) (l : List Nat) : (∃ d, l.foldl (fun p k => p.setReg (O.supplyState + k) 0) p = { p with dict := d }) ∧
    (∀ k, k ∈ l ∨ p.reg (supplyKey k) = 0 → (l.foldl (fun p k => p.setReg (O.supplyState + k) 0) p).reg (supplyKey k) = 0) ∧
    ∀ j, (∀ k ∈ l, j ≠ supplyKey k) → (l.foldl (fun p k => p.setReg (O.supplyState + k) 0) p).reg j = p.reg j := by
  induction l generalizing p with
  | nil => exact ⟨⟨p.dict, rfl⟩, fun k hk => hk.resolve_left List.not_mem_nil, fun _ _ => rfl⟩
  | cons i l ih =>
    obtain ⟨⟨d, hd⟩, hoff, hother⟩ := ih (p.setReg (supplyKey i) 0)
    refine ⟨⟨d, hd⟩, fun k hk => hoff k ?_, fun j hj => ?_⟩
    · by_cases hi : k = i
      · exact .inr (hi ▸ reg_setReg_self _ _ _)
      · refine hk.imp (fun h => (List.mem_cons.mp h).resolve_left hi) fun h => ?_
        rw [reg_setReg_other _ _ _ _ (supplyKey_inj hi), h]
    · exact (hother j fun k hk => hj k (List.mem_cons_of_mem _ hk)).trans (reg_setReg_other _ _ _ _ (hj i List.mem_cons_self))

/-- The package as a trip leaves it, from the package that has failed. -/
def Pkg.trip (p : Pkg) : Pkg :=
  let p := p.setSupply { p.supply with tripped := true, seqStep := 0, seqStopped := true }
  let p := (p.setPower { p.power with trans := none, wakeQueue := [] }).fixFault
  let p := (List.range 18).foldl (fun p s => p.setReg (O.supplyState + s) 0) p
  ({ p with mem := [], eccPins := [], checkBytes := [], sramChk := [] }).emit .powerDown

theorem trip_shows (p : Pkg) : p.trip.supply.tripped = true ∧ bitOf (p.trip.reg O.errorRegister) 0 = true ∧ p.trip.failed = p.failed ∧
    (∀ k < 18, p.trip.reg (O.supplyState + k) = 0) ∧ p.trip.mem = [] ∧ p.trip.ev = p.ev := by
  unfold Pkg.trip
  extract_lets _ q _ r off
  have hlow := fixFault_low_of_trip (q.setPower { q.power with trans := none, wakeQueue := [] }) rfl
  obtain ⟨d, hd⟩ := fixFault_eq (q.setPower { q.power with trans := none, wakeQueue := [] })
  obtain ⟨⟨d', hd'⟩, hoff, hother⟩ := suppliesFold_off r (List.range 18)
  have hbit := hother O.errorRegister fun k hk => (supplyKey_other (by have := List.mem_range.mp hk; omega)).1.symm
  have hr : r = _ := hd
  have hoffEq : off = _ := hd'
  have hall := fun k hk => hoff k (.inl (List.mem_range.mpr hk))
  rw [hd'] at hall hbit
  rw [hoffEq]
  refine ⟨?_, ?_, ?_, hall, rfl, ?_⟩
  · rw [hr]; rfl
  · exact (congrArg (fun v => bitOf v 0) hbit).trans hlow
  · rw [hr]; rfl
  · rw [hr]; rfl

theorem thermalTrip_shows (s : State) (u : Fin 22) (h : s.pkg.supply.tripped = false) :
    ∃ t, exec (.thermalTrip u) s = .next t ∧ t.lands.thermTripN = false ∧ t.lands.faultN = false ∧ t.pkg.failed = true ∧
      (∀ k < 18, t.pkg.reg (O.supplyState + k) = 0) ∧ (∀ a, t.pkg.byte a = 0) ∧ RaisedEver t 0x2109 := by
  have hexec : exec (.thermalTrip u) s = execThermalTrip u s := rfl
  rw [hexec, execThermalTrip, go_eq, if_neg (by rw [h]; decide)]
  dsimp only
  have hraised := hasEvent_raise s.pkg 0x2109 (if u.val < 10 then u.val else u.val - 10) 0
  generalize s.pkg.raise 0x2109 (if u.val < 10 then u.val else u.val - 10) 0 = p at *
  have hfails : (if (List.range 12).any p.up then p.declareFailed else { p.stopTiles with failed := true }).failed = true ∧
      (if (List.range 12).any p.up then p.declareFailed else { p.stopTiles with failed := true }).HasEvent 0x2109 := by
    split
    · exact ⟨declareFailed_failed p, hasEvent_of_prefix (declareFailed_events p) hraised⟩
    · exact ⟨rfl, hraised⟩
  generalize (if (List.range 12).any p.up then p.declareFailed else { p.stopTiles with failed := true }) = q at *
  obtain ⟨htripped, hbit, hfailed, hoff, hmem, hev⟩ := trip_shows q
  have hlands : (landsOf q.trip).thermTripN = false ∧ (landsOf q.trip).faultN = false := by
    constructor
    · show (!q.trip.supply.tripped) = false
      rw [htripped]
      rfl
    · show (!bitOf (q.trip.reg O.errorRegister) 0) = false
      rw [hbit]
      rfl
  refine ⟨s.settle q.trip, rfl, hlands.1, hlands.2, hfailed.trans hfails.1, hoff, fun a => ?_, ?_⟩
  · show SMap.at 0 a q.trip.mem = 0
    rw [hmem]
    rfl
  · obtain ⟨r, hr, hcode⟩ := hfails.2
    exact ⟨r, hev.symm ▸ hr, hcode⟩

/-- Settles O56: each step of the sequence, and each reading, changes its own supply's objects; a fault, PWR_OK's fall and a trip are the
reset, the failure and the loss of memory. -/
theorem suppliesAndTelemetry : Obligations.SuppliesAndTelemetry := by
  refine ⟨⟨pwrOkRise_starts, pwrOkRise_silent, fun s u h => ⟨supplyPowerGood_alone s u h, fun hstep hgo _ => supplyPowerGood_last s u h hstep hgo,
    powerGoodTimeout_stops s u h⟩, supply_stands, pwrOkFall_shows⟩,
    telemetry_reading, fun s u hruns => ⟨telemetry_fault s u hruns, pmbAlert_shows s u hruns⟩, telemetry_stale, thermalSample_shows, thermalTrip_shows⟩

end Sys2Proof.Machine

namespace Sys2Proof.Machine

/-! ## Events (R461 to R466) -/

/-- What the reports of a stored record leave: all but the EMCY queue, its count, the pending MSI-X vectors and what is sent. -/
structure EventsReported (p q : Pkg) : Prop where
  mem : q.mem = p.mem
  log : q.ev.log = p.ev.log
  inFlight : q.ev.inFlight = p.ev.inFlight
  regs : ∀ k, k ≠ O.emcyDropped → q.reg k = p.reg k

theorem EventsReported.refl (p : Pkg) : EventsReported p p := ⟨rfl, rfl, rfl, fun _ _ => rfl⟩

theorem EventsReported.trans {p q r : Pkg} (h : EventsReported p q) (h' : EventsReported q r) : EventsReported p r :=
  ⟨h'.mem.trans h.mem, h'.log.trans h.log, h'.inFlight.trans h.inFlight, fun k hk => (h'.regs k hk).trans (h.regs k hk)⟩

theorem queueEmcy_reported (p : Pkg) (r : EvRec) : EventsReported p (p.queueEmcy r) := by
  unfold Pkg.queueEmcy
  dsimp only
  split
  · exact ⟨rfl, rfl, rfl, fun _ _ => rfl⟩
  · split
    · exact ⟨rfl, rfl, rfl, fun k hk => bump_reg_other _ _ _ _ hk⟩
    · exact ⟨rfl, rfl, rfl, fun k hk => bump_reg_other _ _ _ _ hk⟩

theorem sendMsix_reported (p : Pkg) (v : Nat) : EventsReported p (p.sendMsix v) := by
  unfold Pkg.sendMsix
  split
  · exact .refl p
  · split
    · exact ⟨rfl, rfl, rfl, fun _ _ => rfl⟩
    · exact ⟨rfl, rfl, rfl, fun _ _ => rfl⟩

/-- The reports of a severity whose mask asks for no Period. -/
theorem report_reported (p : Pkg) (r : EvRec) (h : bitOf (p.reg (O.escMask + r.severity)) 3 = false) : EventsReported p (p.report r) := by
  unfold Pkg.report
  extract_lets m framed vectored interrupted
  have hframed : EventsReported p framed := by
    simp only [framed]
    split
    · exact queueEmcy_reported p r
    · exact .refl p
  have hvectored : EventsReported framed vectored := by
    simp only [vectored]
    split
    · exact sendMsix_reported _ _
    · exact .refl framed
  have hinterrupted : EventsReported vectored interrupted := by
    simp only [interrupted]
    split
    · exact ⟨rfl, rfl, rfl, fun _ _ => rfl⟩
    · exact .refl vectored
  rw [if_neg (show ¬ bitOf m 3 = true by rw [show bitOf m 3 = false from h]; decide)]
  exact (hframed.trans hvectored).trans hinterrupted

theorem escMask_other {n : Nat} (h : n ≤ 5) : O.escMask + n ≠ O.eventLogNewest := by
  unfold O.escMask O.eventLogNewest
  omega

/-- What a log shows that a record has joined with its number, and its reports. -/
theorem logged_shows (p : Pkg) (log : List (Nat × EvRec)) (n : Nat) (r : EvRec) (hseverity : r.severity ≤ 5)
    (hmask : bitOf (p.reg (O.escMask + r.severity)) 3 = false) (q : Pkg)
    (hq : q = ((p.setEv { p.ev with log := log }).setReg O.eventLogNewest n).report r) :
    q.reg O.eventLogNewest = n ∧ q.ev.log = log ∧ q.ev.inFlight = p.ev.inFlight ∧ q.mem = p.mem := by
  have hreported := report_reported ((p.setEv { p.ev with log := log }).setReg O.eventLogNewest n) r
    (by rw [reg_setReg_other _ _ _ _ (escMask_other hseverity)]; exact hmask)
  rw [← hq] at hreported
  exact ⟨(hreported.regs _ (by decide)).trans (reg_setReg_self _ _ _), hreported.log, hreported.inFlight, hreported.mem⟩

/-- The log keeps the last 4,096 records. -/
theorem lastKept {α : Type} (l : List α) (a : α) : ((l ++ [a]).drop ((l ++ [a]).length - 4096)).getLast? = some a ∧
    ((l ++ [a]).drop ((l ++ [a]).length - 4096)).length ≤ 4096 := by
  constructor
  · rw [List.getLast?_drop, List.length_append, List.length_singleton, if_neg (by omega)]
    exact List.getLast?_concat
  · rw [List.length_drop]
    omega

/-- A record stored is the newest of a log of at most 4,096. -/
theorem store_shows (p : Pkg) (r : EvRec) (hseverity : r.severity ≤ 5) (hmask : bitOf (p.reg (O.escMask + r.severity)) 3 = false) :
    (p.store r).reg O.eventLogNewest = (p.reg O.eventLogNewest + 1) % 2 ^ 32 ∧
      (p.store r).ev.log.getLast? = some ((p.reg O.eventLogNewest + 1) % 2 ^ 32, r) ∧ (p.store r).ev.log.length ≤ 4096 ∧
      (p.store r).ev.inFlight = p.ev.inFlight ∧ (p.store r).mem = p.mem := by
  obtain ⟨hnewest, hlog, hrest, hmem⟩ := logged_shows p _ _ r hseverity hmask (p.store r) rfl
  rw [hlog]
  obtain ⟨hlast, hlength⟩ := lastKept p.ev.log (wrapAdd 32 (p.reg O.eventLogNewest) 1, r)
  exact ⟨hnewest, hlast, hlength, hrest, hmem⟩

/-- The interval of 1 ms that runs changes nothing but the counts of the event path. -/
theorem intervalNow_eq (p : Pkg) : ∃ i n b, p.intervalNow = p.setEv { p.ev with interval := i, inInterval := n, suppressed := b } := by
  unfold Pkg.intervalNow
  dsimp only
  split
  · exact ⟨p.ev.interval, p.ev.inInterval, p.ev.suppressed, rfl⟩
  · exact ⟨_, _, _, rfl⟩

theorem arriveEvent_stores (p : Pkg) (r : EvRec) (hlow : 2 ≤ r.severity) :
    ∃ i n b, p.arriveEvent r = (p.setEv { p.ev with interval := i, inInterval := n, suppressed := b }).store r := by
  obtain ⟨i, n, b, hnow⟩ := intervalNow_eq p
  unfold Pkg.arriveEvent
  dsimp only
  rw [hnow, if_neg (by omega)]
  exact ⟨i, n + 1, b, rfl⟩

theorem arriveEvent_suppresses (p : Pkg) (r : EvRec) (hlow : r.severity ≤ 1) (hnow : p.ev.interval = p.mtime / 100000) (hfull : 256 ≤ p.ev.inInterval)
    (hagain : p.ev.suppressed = true) : p.arriveEvent r =
      ((p.setEv { p.ev with inInterval := p.ev.inInterval + 1 }).bump O.eventLogSuppressed 1).setEv { p.ev with inInterval := p.ev.inInterval + 1, suppressed := true } := by
  have hinterval : p.intervalNow = p := if_pos hnow
  unfold Pkg.arriveEvent
  dsimp only
  rw [hinterval, if_pos ⟨show 256 < p.ev.inInterval + 1 by omega, hlow⟩]
  refine (if_neg ?_).trans rfl
  show ¬ (!p.ev.suppressed) = true
  rw [hagain]
  decide

/-- The package without the oldest record that is on its way. -/
def Pkg.takeRecord (p : Pkg) (l : List EvRec) : Pkg := p.setEv { p.ev with inFlight := l }

/-- One record arrives. -/
theorem eventRaise_one (s : State) (r : EvRec) (l : List EvRec) (h : s.pkg.ev.inFlight = r :: l) :
    Does (.eventRaise 1) s (if s.pkg.coreStopped then
      (s.pkg.takeRecord l).setEv { (s.pkg.takeRecord l).ev with tail := lastRecords (s.pkg.ev.tail ++ [r]) }
      else (s.pkg.takeRecord l).arriveEvent r) := by
  have hexec : exec (.eventRaise 1) s = execEventRaise 1 s := rfl
  have harrival : s.pkg.eventArrival 1 = (if s.pkg.coreStopped then
      (s.pkg.takeRecord l).setEv { (s.pkg.takeRecord l).ev with tail := lastRecords (s.pkg.ev.tail ++ [r]) }
      else (s.pkg.takeRecord l).arriveEvent r) := by
    unfold Pkg.eventArrival
    rw [h]
    rfl
  rw [Does, hexec, execEventRaise, go_eq, harrival]

theorem eventRaise_stored (s : State) (r : EvRec) (l : List EvRec) (hruns : s.pkg.coreStopped = false) (h : s.pkg.ev.inFlight = r :: l)
    (hlow : 2 ≤ r.severity) (hhigh : r.severity ≤ 5) (hmask : bitOf (s.pkg.reg (O.escMask + r.severity)) 3 = false) :
    ∃ t, exec (.eventRaise 1) s = .next t ∧ t.pkg.reg O.eventLogNewest = (s.pkg.reg O.eventLogNewest + 1) % 2 ^ 32 ∧
      t.pkg.ev.log.getLast? = some ((s.pkg.reg O.eventLogNewest + 1) % 2 ^ 32, r) ∧ t.pkg.ev.log.length ≤ 4096 ∧
      t.pkg.ev.inFlight = l ∧ SameMemory s t := by
  have hdoes := eventRaise_one s r l h
  rw [if_neg (by rw [hruns]; decide)] at hdoes
  obtain ⟨i, n, b, hstores⟩ := arriveEvent_stores (s.pkg.takeRecord l) r hlow
  rw [hstores] at hdoes
  obtain ⟨hnewest, hlast, hlength, hrest, hmem⟩ := store_shows ((s.pkg.takeRecord l).setEv
    { (s.pkg.takeRecord l).ev with interval := i, inInterval := n, suppressed := b }) r hhigh hmask
  exact ⟨_, hdoes, hnewest, hlast, hlength, hrest, sameMemory_settle hmem⟩

theorem eventRaise_suppressed (s : State) (r : EvRec) (l : List EvRec) (hruns : s.pkg.coreStopped = false) (h : s.pkg.ev.inFlight = r :: l)
    (hlow : r.severity ≤ 1) (hnow : s.pkg.ev.interval = s.pkg.mtime / 100000) (hfull : 256 ≤ s.pkg.ev.inInterval) (hagain : s.pkg.ev.suppressed = true) :
    ∃ t, exec (.eventRaise 1) s = .next t ∧ t.pkg.ev.log = s.pkg.ev.log ∧ t.pkg.ev.inFlight = l ∧
      t.pkg.reg O.eventLogSuppressed = min (s.pkg.reg O.eventLogSuppressed + 1) (2 ^ 32 - 1) ∧ SameMemory s t ∧
      SameRegsBut (fun k => k = O.eventLogSuppressed) s t := by
  have hdoes := eventRaise_one s r l h
  rw [if_neg (by rw [hruns]; decide), arriveEvent_suppresses (s.pkg.takeRecord l) r hlow hnow hfull hagain] at hdoes
  exact ⟨_, hdoes, rfl, rfl, bump_reg_self _ _ _, sameMemory_settle rfl, sameRegsBut_settle fun k hk => bump_reg_other _ _ _ _ hk⟩

theorem eventRaise_tail (s : State) (r : EvRec) (l : List EvRec) (hstopped : s.pkg.coreStopped = true) (h : s.pkg.ev.inFlight = r :: l) :
    ∃ t, exec (.eventRaise 1) s = .next t ∧ t.pkg.ev.tail = lastRecords (s.pkg.ev.tail ++ [r]) ∧ t.pkg.ev.inFlight = l ∧
      t.pkg.ev.log = s.pkg.ev.log ∧ SameMemory s t ∧ SameRegs s t := by
  have hdoes := eventRaise_one s r l h
  rw [if_pos hstopped] at hdoes
  generalize lastRecords (s.pkg.ev.tail ++ [r]) = tail at *
  exact ⟨_, hdoes, rfl, rfl, rfl, sameMemory_settle rfl, fun _ => rfl⟩

/-! ### The log's read service, masks and vectors -/

theorem record_latched (s : State) (pt : Path) (n : Nat) (r : EvRec) (hruns : s.Runs (pathPlane pt))
    (hselect : s.pkg.reg (O.eventLogSelect + (pt.num - 1)) = n) (hn : n ≠ 0) (hfind : s.pkg.ev.log.find? (fun e => decide (e.1 = n)) = some (n, r)) :
    ∃ t, exec (.eventLogRecordLatch pt) s = .next t ∧ t.pkg.ev.latched.at [] pt.num = recordWords r ∧
      t.pkg.out = s.pkg.out ++ [.value ((recordWords r).getD 0 0).toNat] ∧ SameMemory s t ∧ SameRegs s t := by
  have hexec : exec (.eventLogRecordLatch pt) s = execEventLogRecordLatch pt s := rfl
  have hwords : s.pkg.logRecord (s.pkg.reg (O.eventLogSelect + (pt.num - 1))) = recordWords r := by
    rw [hselect, Pkg.logRecord, hfind]
    exact if_neg hn
  rw [hexec, execEventLogRecordLatch, on_runs s (pathPlane pt) _ hruns, Pkg.latchRecord]
  dsimp only
  rw [hwords]
  exact ⟨_, rfl, SMap.at_ins_self _ _ _ _ (SMap.find_del_self _ _), rfl, sameMemory_settle rfl, fun _ => rfl⟩

theorem objAt_escMask : ∀ v : Fin 6, objAt (O.escMask + v.val) = some ⟨O.escMask, 6, 1, 1, 1, .rw, 0, 15, false⟩ := by decide +kernel

theorem escMask_written (s : State) (pt : Path) (v : Fin 6) (m : Nat) (hruns : s.Runs (pathPlane pt)) (hm : m ≤ 15) :
    ((v.val < 4 ∨ m % 4 = 3) → Does (.escMaskWrite pt v m) s (s.pkg.setReg (O.escMask + v.val) m)) ∧
      (4 ≤ v.val → m % 4 ≠ 3 → Does (.escMaskWrite pt v m) s (s.pkg.refuse pt (O.escMask + v.val) abRange)) := by
  have hexec : exec (.escMaskWrite pt v m) s = execEscMaskWrite pt v m s := rfl
  have hdoes : Does (.escMaskWrite pt v m) s
      (if 4 ≤ v.val ∧ m % 4 ≠ 3 then s.pkg.refuse pt (O.escMask + v.val) abRange else s.pkg.setReg (O.escMask + v.val) m) := by
    rw [Does, hexec, execEscMaskWrite, on_runs s (pathPlane pt) _ hruns, Pkg.escMaskSet, objWrite_in_range (objAt_escMask v) (Nat.zero_le m) hm]
  constructor
  · intro h
    rwa [if_neg (by omega)] at hdoes
  · intro hv hkeep
    rwa [if_pos ⟨hv, hkeep⟩] at hdoes

theorem objAt_msixVector : ∀ q : QueueNo, objAt (qKey O.msixVector q.val) = some ⟨O.msixVector, 1, 1, 64, 1, .rw, 0, 0xFF, false⟩ := by
  decide +kernel

theorem vector_of_log (s : State) (pt : Path) (v : Nat) (hruns : s.Runs (pathPlane pt)) (hv : v < 64) :
    (s.pkg.queueNames 64 v = false → Does (.msixVectorWrite pt none v) s (s.pkg.setReg O.eventMsixVector v)) ∧
      (s.pkg.queueNames 64 v = true → Does (.msixVectorWrite pt none v) s ((s.pkg.refuse pt O.eventMsixVector abState).raise 0x5002 noUnit 0)) := by
  have hexec : exec (.msixVectorWrite pt none v) s = execMsixVectorWrite pt none v s := rfl
  have hdoes : Does (.msixVectorWrite pt none v) s (if v ≠ 0xFF ∧ s.pkg.queueNames 64 v then
      (s.pkg.refuse pt O.eventMsixVector abState).raise 0x5002 noUnit 0 else s.pkg.setReg O.eventMsixVector v) := by
    rw [Does, hexec, execMsixVectorWrite, on_runs s (pathPlane pt) _ hruns]
    unfold Pkg.msixVectorSet
    dsimp only [Option.map_none]
    rw [if_neg (by omega)]
  constructor
  · intro hfree
    rwa [if_neg (by rw [hfree]; exact fun h => absurd h.2 (by decide))] at hdoes
  · intro hnamed
    rwa [if_pos ⟨by omega, hnamed⟩] at hdoes

theorem vector_of_queue (s : State) (pt : Path) (v : Nat) (hruns : s.Runs (pathPlane pt)) (hv : v < 64) (q : QueueNo)
    (henabled : (s.pkg.queue q.val).enabled = false) (hdisabling : (s.pkg.queue q.val).disabling = false) :
    ((s.pkg.reg O.eventMsixVector ≠ v ∧ s.pkg.queueNames q.val v = false) →
        Does (.msixVectorWrite pt (some q) v) s (s.pkg.setReg (qKey O.msixVector q.val) v)) ∧
      (s.pkg.reg O.eventMsixVector = v →
        Does (.msixVectorWrite pt (some q) v) s ((s.pkg.refuse pt (qKey O.msixVector q.val) abState).raise 0x5002 q.val 0)) := by
  have hexec : exec (.msixVectorWrite pt (some q) v) s = execMsixVectorWrite pt (some q) v s := rfl
  have hdoes : Does (.msixVectorWrite pt (some q) v) s (if v ≠ 0xFF ∧ (s.pkg.reg O.eventMsixVector = v ∨ s.pkg.queueNames q.val v) then
      (s.pkg.refuse pt (qKey O.msixVector q.val) abState).raise 0x5002 q.val 0 else s.pkg.queueObject pt q.val (qKey O.msixVector q.val) v) := by
    rw [Does, hexec, execMsixVectorWrite, on_runs s (pathPlane pt) _ hruns]
    unfold Pkg.msixVectorSet
    dsimp only [Option.map_some]
    rw [if_neg (by omega)]
  have hset : s.pkg.queueObject pt q.val (qKey O.msixVector q.val) v = s.pkg.setReg (qKey O.msixVector q.val) v := by
    rw [Pkg.queueObject, objWrite_in_range (objAt_msixVector q) (Nat.zero_le v) (by dsimp only; omega)]
    dsimp only
    rw [if_neg (by rw [henabled, hdisabling]; decide)]
  constructor
  · rintro ⟨hlog, hqueues⟩
    rwa [if_neg (by rw [hqueues]; rintro ⟨-, h | h⟩ <;> [exact hlog h; exact absurd h (by decide)]), hset] at hdoes
  · intro hlog
    rwa [if_pos ⟨by omega, .inl hlog⟩] at hdoes

/-- Settles O60: one record arrives, and is stored, suppressed or kept in the tail block; masks and vectors are decided by what they hold. -/
theorem eventPath : Obligations.EventPath :=
  ⟨eventRaise_stored, eventRaise_suppressed, eventRaise_tail, record_latched, escMask_written, fun s pt v hruns hv =>
    ⟨(vector_of_log s pt v hruns hv).1, (vector_of_log s pt v hruns hv).2, vector_of_queue s pt v hruns hv⟩⟩

end Sys2Proof.Machine

namespace Sys2Proof.Machine

/-! ## Measurements (R427, R428) -/

/-- What an extension changes: its register, the log, the counts, and an event where the log is full. -/
structure Extended (p q : Pkg) (r : Nat) (d : List Byte) : Prop where
  mem : q.mem = p.mem
  boot : ∃ l, q.boot = { p.boot with meas := p.boot.meas.put (List.replicate 32 0) r (digest256 (p.measure r ++ d)), measLog := l }
  power : q.power = p.power
  count : q.reg O.measureCount = min (p.reg O.measureCount + 1) (2 ^ 32 - 1)
  other : ∀ k, k ≠ O.measureCount → k ≠ O.measureLogDropped → q.reg k = p.reg k

theorem extend_extends (p : Pkg) (r source type data : Nat) (d : List Byte) : Extended p (p.extend r source type data d) r d := by
  unfold Pkg.extend
  extract_lets old n _ measured counted _ q
  have hcount : counted.reg O.measureCount = min (p.reg O.measureCount + 1) (2 ^ 32 - 1) := bump_reg_self _ _ _
  have hcounted (k : Nat) (hk : k ≠ O.measureCount) : counted.reg k = p.reg k := bump_reg_other _ _ _ _ hk
  have hq (k : Nat) (hk : k ≠ O.measureLogDropped) : q.reg k = counted.reg k := bump_reg_other _ _ _ _ hk
  split
  · exact ⟨rfl, ⟨_, rfl⟩, rfl, hcount, fun k hk _ => hcounted k hk⟩
  · split
    · exact ⟨rfl, ⟨_, rfl⟩, rfl, (hq _ (by decide)).trans hcount, fun k hk hdropped => (hq k hdropped).trans (hcounted k hk)⟩
    · exact ⟨rfl, ⟨_, rfl⟩, rfl, (hq _ (by decide)).trans hcount, fun k hk hdropped => (hq k hdropped).trans (hcounted k hk)⟩

theorem Extended.measured {p q : Pkg} {r : Nat} {d : List Byte} (h : Extended p q r d) : q.measure r = digest256 (p.measure r ++ d) := by
  obtain ⟨l, hl⟩ := h.boot
  rw [Pkg.measure, hl]
  exact SMap.at_put_self ..

/-! ## Quotes (R429, R430) -/

/-- The three paths by number. -/
theorem pathNum_range (pt : Path) : 1 ≤ pt.num ∧ pt.num ≤ 3 := by cases pt <;> decide

theorem quoteState_ne_nonce (pt : Path) (w : Fin 8) : O.quoteState + (pt.num - 1) ≠ O.quoteNonce + 256 * (pt.num - 1) + w.val := by
  obtain ⟨hlo, hhi⟩ := pathNum_range pt
  have := w.isLt
  unfold O.quoteState O.quoteNonce
  omega

theorem quoteState_ne_identity (pt : Path) : O.identityState ≠ O.quoteState + (pt.num - 1) := by
  obtain ⟨hlo, hhi⟩ := pathNum_range pt
  unfold O.quoteState O.identityState
  omega

theorem padTo_length (n : Nat) (l : List Byte) : (padTo n l).length = n := by
  rw [padTo, List.length_take, List.length_append, List.length_replicate]
  omega

/-- A signed object begins with its region. -/
theorem signed_region (p : Pkg) (signer total : Nat) {region : Nat} (h : region ≤ total) (l : List Byte) :
    (p.signed signer region total l).1.take region = padTo region l ∧ (p.signed signer region total l).2 = { p with free := p.free + 1 } := by
  refine ⟨?_, rfl⟩
  show (padTo total (padTo region l ++ _ ++ _)).take region = padTo region l
  rw [padTo, List.take_take, Nat.min_eq_left h, List.append_assoc, List.append_assoc, List.take_append_of_le_length (padTo_length ..).ge,
    List.take_of_length_le (padTo_length ..).le]

theorem objAt_quoteRequest : ∀ n : Fin 3, objAt (O.quoteRequest + n.val) = some ⟨O.quoteRequest, 3, 1, 1, 1, .wo, 1, 1, false⟩ := by decide +kernel

section
variable (s : State) (pt : Path)

theorem nonceWrite_cases (w : Fin 8) (v : W32) (hruns : s.Runs (pathPlane pt)) :
    Does (.quoteNonceWrite pt w v) s (if s.pkg.reg (O.quoteState + (pt.num - 1)) = 1 then
      s.pkg.refuse pt (O.quoteNonce + 256 * (pt.num - 1) + w.val) abState
      else (s.pkg.setReg (O.quoteNonce + 256 * (pt.num - 1) + w.val) v.toNat).setReg (O.quoteState + (pt.num - 1)) 0) := by
  have hexec : exec (.quoteNonceWrite pt w v) s = execQuoteNonceWrite pt w v s := rfl
  rw [Does, hexec, execQuoteNonceWrite, on_runs s (pathPlane pt) _ hruns, Pkg.nonceWrite]

theorem nonce_taken (w : Fin 8) (v : W32) (hruns : s.Runs (pathPlane pt)) (hidle : s.pkg.reg (O.quoteState + (pt.num - 1)) ≠ 1) :
    ∃ t, exec (.quoteNonceWrite pt w v) s = .next t ∧ t.pkg.reg (O.quoteNonce + 256 * (pt.num - 1) + w.val) = v.toNat ∧
      t.pkg.reg (O.quoteState + (pt.num - 1)) = 0 ∧ SameMemory s t ∧
      SameRegsBut (fun k => k = O.quoteNonce + 256 * (pt.num - 1) + w.val ∨ k = O.quoteState + (pt.num - 1)) s t := by
  have hdoes := nonceWrite_cases s pt w v hruns
  rw [if_neg hidle] at hdoes
  refine ⟨_, hdoes, ?_, reg_setReg_self _ _ _, sameMemory_settle rfl, sameRegsBut_settle fun k hk => ?_⟩
  · exact (reg_setReg_other _ _ _ _ (quoteState_ne_nonce pt w).symm).trans (reg_setReg_self _ _ _)
  · obtain ⟨hnonce, hstate⟩ := not_or.mp hk
    exact (reg_setReg_other _ _ _ _ hstate).trans (reg_setReg_other _ _ _ _ hnonce)

theorem nonce_refused (w : Fin 8) (v : W32) (hruns : s.Runs (pathPlane pt)) (hbusy : s.pkg.reg (O.quoteState + (pt.num - 1)) = 1) :
    Does (.quoteNonceWrite pt w v) s (s.pkg.refuse pt (O.quoteNonce + 256 * (pt.num - 1) + w.val) abState) := by
  have hdoes := nonceWrite_cases s pt w v hruns
  rwa [if_pos hbusy] at hdoes

/-- The package as a request leaves it that is signed. -/
def Pkg.signQuote (p : Pkg) (n : Nat) : Pkg :=
  let g := p.signed 1 512 2048 (p.quoteBody n)
  (g.2.setBoot { g.2.boot with quotes := g.2.boot.quotes.put [] (10 + n) g.1 }).setReg (O.quoteState + (n - 1)) 1

theorem quoteRequest_cases (hruns : s.Runs (pathPlane pt)) :
    Does (.quoteRequest pt 1) s (if s.pkg.reg (O.quoteState + (pt.num - 1)) = 1 ∨ s.pkg.reg O.identityState ≠ 1 ∨ s.pkg.reg O.rngState = 1 then
      s.pkg.refuse pt (O.quoteRequest + (pt.num - 1)) abState else s.pkg.signQuote pt.num) := by
  have hexec : exec (.quoteRequest pt 1) s = execQuoteRequest pt 1 s := rfl
  have hnum := pathNum_range pt
  rw [Does, hexec, execQuoteRequest, on_runs s (pathPlane pt) _ hruns, Pkg.quoteRequestWrite]
  dsimp only
  rw [objWrite_in_range (objAt_quoteRequest ⟨pt.num - 1, by omega⟩) (Nat.le_refl 1) (Nat.le_refl 1)]
  rfl

theorem quote_signed (hruns : s.Runs (pathPlane pt)) (hidle : s.pkg.reg (O.quoteState + (pt.num - 1)) ≠ 1) (hidentity : s.pkg.reg O.identityState = 1)
    (hrng : s.pkg.reg O.rngState ≠ 1) :
    ∃ t, exec (.quoteRequest pt 1) s = .next t ∧ t.pkg.reg (O.quoteState + (pt.num - 1)) = 1 ∧
      (t.pkg.boot.quotes.at [] (10 + pt.num)).take 512 = padTo 512 (s.pkg.quoteBody pt.num) ∧ SameMemory s t ∧
      SameRegsBut (fun k => k = O.quoteState + (pt.num - 1)) s t := by
  have hdoes := quoteRequest_cases s pt hruns
  rw [if_neg (by rintro (h | h | h); exacts [hidle h, h hidentity, hrng h])] at hdoes
  obtain ⟨hregion, hrest⟩ := signed_region s.pkg 1 2048 (show 512 ≤ 2048 by decide) (s.pkg.quoteBody pt.num)
  unfold Pkg.signQuote at hdoes
  dsimp only at hdoes
  rw [hrest] at hdoes
  generalize (s.pkg.signed 1 512 2048 (s.pkg.quoteBody pt.num)).1 = quote at *
  refine ⟨_, hdoes, reg_setReg_self _ _ _, ?_, sameMemory_settle rfl, sameRegsBut_settle fun k hk => reg_setReg_other _ _ _ _ hk⟩
  show ((s.pkg.boot.quotes.put [] (10 + pt.num) quote).at [] (10 + pt.num)).take 512 = _
  rw [SMap.at_put_self, hregion]

theorem quote_refused (hruns : s.Runs (pathPlane pt))
    (h : s.pkg.reg (O.quoteState + (pt.num - 1)) = 1 ∨ s.pkg.reg O.identityState ≠ 1 ∨ s.pkg.reg O.rngState = 1) :
    Does (.quoteRequest pt 1) s (s.pkg.refuse pt (O.quoteRequest + (pt.num - 1)) abState) := by
  have hdoes := quoteRequest_cases s pt hruns
  rwa [if_pos h] at hdoes

theorem quote_ready (hruns : s.Runs (pathPlane pt)) (hbusy : s.pkg.reg (O.quoteState + (pt.num - 1)) = 1) :
    ∃ t, exec (.quoteReady pt) s = .next t ∧ t.pkg.reg (O.quoteState + (pt.num - 1)) = 2 ∧
      t.pkg.boot.quotes.at [] pt.num = s.pkg.boot.quotes.at [] (10 + pt.num) ∧ SameMemory s t ∧
      SameRegsBut (fun k => k = O.quoteState + (pt.num - 1)) s t := by
  have hexec : exec (.quoteReady pt) s = execQuoteReady pt s := rfl
  rw [hexec, execQuoteReady, on_runs s (pathPlane pt) _ hruns]
  dsimp only
  rw [if_neg (not_not.mpr hbusy)]
  refine ⟨_, rfl, reg_setReg_self _ _ _, ?_, sameMemory_settle rfl, sameRegsBut_settle fun k hk => reg_setReg_other _ _ _ _ hk⟩
  show ((s.pkg.boot.quotes.put [] pt.num (s.pkg.boot.quotes.at [] (10 + pt.num))).put [] (10 + pt.num) []).at [] pt.num = _
  rw [SMap.at_put_other _ _ _ _ _ (by omega), SMap.at_put_self]

end

/-! ## M7 and the random source (R427, R431) -/

theorem objAt_measureExtend : objAt O.measureExtend = some ⟨O.measureExtend, 1, 1, 1, 1, .wo, 1, 1, false⟩ := by decide +kernel

theorem measureExtend_core (s : State) (hruns : s.Runs .control) : ∃ t, exec (.measureExtend .core 1) s = .next t ∧
    t.pkg.measure 7 = digest256 (s.pkg.measure 7 ++ (List.range 8).flatMap fun i => toLe 4 (s.pkg.reg (O.measureData + i))) ∧
    t.pkg.reg O.measureCount = min (s.pkg.reg O.measureCount + 1) (2 ^ 32 - 1) ∧ SameMemory s t := by
  have hexec : exec (.measureExtend .core 1) s = execMeasureExtend .core 1 s := rfl
  have hextends := extend_extends s.pkg 7 3 5 0 ((List.range 8).flatMap fun i => toLe 4 (s.pkg.reg (O.measureData + i)))
  rw [hexec, execMeasureExtend, on_runs s (pathPlane .core) _ hruns, Pkg.measureExtendWrite,
    objWrite_in_range objAt_measureExtend (Nat.le_refl 1) (Nat.le_refl 1), if_neg (not_not.mpr rfl)]
  exact ⟨_, rfl, hextends.measured, hextends.count, sameMemory_settle hextends.mem⟩

theorem measureExtend_refused (s : State) (pt : Path) (hruns : s.Runs (pathPlane pt)) (hpath : pt ≠ .core) :
    Does (.measureExtend pt 1) s (s.pkg.refuse pt O.measureExtend abOwner) := by
  have hexec : exec (.measureExtend pt 1) s = execMeasureExtend pt 1 s := rfl
  rw [Does, hexec, execMeasureExtend, on_runs s (pathPlane pt) _ hruns, Pkg.measureExtendWrite,
    objWrite_in_range objAt_measureExtend (Nat.le_refl 1) (Nat.le_refl 1), if_pos hpath]

theorem rngHealthFail_does (s : State) (hruns : s.Runs .management) : Does .rngHealthFail s ((s.pkg.setReg O.rngState 1).raise 0x240D noUnit 0) := by
  have hexec : exec .rngHealthFail s = execRngHealthFail s := rfl
  rw [Does, hexec, execRngHealthFail, on_runs s _ _ hruns]

/-- Settles O59: a path's nonce, quote state and quotes are its own, and a signed object begins with what it signs. -/
theorem attestation : Obligations.Attestation :=
  ⟨nonce_taken, nonce_refused, quote_signed, quote_refused, quote_ready, measureExtend_core, measureExtend_refused, rngHealthFail_does⟩

end Sys2Proof.Machine

namespace Sys2Proof.Machine

/-! ## Transfers (R425) -/

/-- What a refusal of a transfer changes: its reason, its event, and what the source is told. -/
structure XferRefused (p q : Pkg) (reason : Nat) : Prop where
  mem : q.mem = p.mem
  xfer : q.boot.xfer = p.boot.xfer
  flashQ : q.boot.flashQ = p.boot.flashQ
  reason : q.reg O.recoveryLastRefusal = reason
  event : q.HasEvent 0x2406

theorem refuse_boot (p : Pkg) (pt : Path) (k abort : Nat) : (p.refuse pt k abort).boot = p.boot := by cases pt <;> rfl

theorem refuse_grown (p : Pkg) (pt : Path) (k abort : Nat) : p.ev.inFlight <+: (p.refuse pt k abort).ev.inFlight := by
  cases pt <;> exact List.prefix_append _ _

theorem refuseXfer_refuses (p : Pkg) (src : XferSrc) (reason : Nat) (verify : Bool) : XferRefused p (p.refuseXfer src reason verify) reason := by
  have hreason : ((p.setReg O.recoveryLastRefusal reason).raise 0x2406 noUnit reason).reg O.recoveryLastRefusal = reason := reg_setReg_self _ _ _
  have hevent := hasEvent_raise (p.setReg O.recoveryLastRefusal reason) 0x2406 noUnit reason
  cases src with
  | mailbox => exact ⟨rfl, rfl, rfl, hreason, hevent⟩
  | canFd =>
    refine ⟨refuse_mem _ _ _ _, ?_, ?_, ?_, hasEvent_of_prefix (refuse_grown _ _ _ _) hevent⟩
    · exact congrArg Boot.xfer (refuse_boot _ _ _ _)
    · exact congrArg Boot.flashQ (refuse_boot _ _ _ _)
    · exact (refuse_reg_other _ _ _ _ _ (by decide) (by decide)).trans hreason

/-- What an acceptance changes: what the mailbox shows. -/
theorem acceptXfer_eq (p : Pkg) (src : XferSrc) : ∃ m, p.acceptXfer src = p.setBoot { p.boot with mailbox := m } := by
  cases src with
  | mailbox => exact ⟨0, rfl⟩
  | canFd => exact ⟨p.boot.mailbox, rfl⟩

section
variable (s : State)

theorem transfer_begun (c : XferSrc) (kind mode n : Nat) (hruns : s.Runs (xferPlane c)) (hclosed : s.pkg.boot.xfer = none) (hn : n ≠ 0)
    (hmax : n ≤ xferMax kind) (hmode : s.pkg.modeAllowed kind mode = true) :
    ∃ t, exec (.beginTransfer c kind mode n) s = .next t ∧ t.pkg.boot.xfer = some ⟨c, kind, mode, n, []⟩ ∧
      t.pkg.reg O.recoveryState = 2 ∧ t.pkg.reg O.recoveryOffset = 0 ∧ SameMemory s t ∧
      SameRegsBut (fun k => k = O.recoveryState ∨ k = O.recoveryOffset) s t := by
  have hexec : exec (.beginTransfer c kind mode n) s = execBeginTransfer c kind mode n s := rfl
  rw [hexec, execBeginTransfer, on_runs s (xferPlane c) _ hruns, Pkg.xferBegin,
    if_neg (by rw [hclosed, hmode]; rintro (h | h | h | h); exacts [absurd h (by decide), hn h, absurd h (Nat.not_lt.mpr hmax), absurd h (by decide)])]
  dsimp only
  obtain ⟨m, hm⟩ := acceptXfer_eq (((s.pkg.setBoot { s.pkg.boot with xfer := some ⟨c, kind, mode, n, []⟩ }).setReg O.recoveryState 2).setReg
    O.recoveryOffset 0) c
  rw [hm]
  refine ⟨_, rfl, rfl, ?_, reg_setReg_self _ _ _, sameMemory_settle rfl, sameRegsBut_settle fun k hk => ?_⟩
  · exact (reg_setReg_other _ _ O.recoveryOffset _ (by decide)).trans (reg_setReg_self _ _ _)
  · obtain ⟨hstate, hoffset⟩ := not_or.mp hk
    exact (reg_setReg_other _ _ O.recoveryOffset _ hoffset).trans (reg_setReg_other _ _ O.recoveryState _ hstate)

theorem transfer_not_begun (c : XferSrc) (kind mode n : Nat) (hruns : s.Runs (xferPlane c))
    (h : s.pkg.boot.xfer.isSome = true ∨ n = 0 ∨ xferMax kind < n ∨ s.pkg.modeAllowed kind mode = false) :
    ∃ t, exec (.beginTransfer c kind mode n) s = .next t ∧ t.pkg.boot.xfer = s.pkg.boot.xfer ∧ t.pkg.reg O.recoveryLastRefusal = 1 ∧
      RaisedEver t 0x2406 ∧ SameMemory s t := by
  have hexec : exec (.beginTransfer c kind mode n) s = execBeginTransfer c kind mode n s := rfl
  have hrefused := refuseXfer_refuses s.pkg c 1 false
  rw [hexec, execBeginTransfer, on_runs s (xferPlane c) _ hruns, Pkg.xferBegin,
    if_pos (h.imp_right (Or.imp_right (Or.imp_right fun h => by rw [h]; rfl)))]
  exact ⟨_, rfl, hrefused.xfer, hrefused.reason, hrefused.event, sameMemory_settle hrefused.mem⟩

theorem data_taken (x : Xfer) (l : List Byte) (hruns : s.Runs (xferPlane x.src)) (hopen : s.pkg.boot.xfer = some x) (hstate : s.pkg.reg O.recoveryState = 2)
    (hl : l ≠ []) (hmax : l.length ≤ dataMax x.src) (hfit : x.got.length + l.length ≤ x.total) :
    ∃ t, exec (.dataTransfer x.src x.got.length l) s = .next t ∧ t.pkg.boot.xfer = some { x with got := x.got ++ l } ∧
      t.pkg.reg O.recoveryOffset = x.got.length + l.length ∧ SameMemory s t ∧ SameRegsBut (fun k => k = O.recoveryOffset) s t := by
  have hexec : exec (.dataTransfer x.src x.got.length l) s = execDataTransfer x.src x.got.length l s := rfl
  have htaken : ¬ (x.src ≠ x.src ∨ s.pkg.reg O.recoveryState ≠ 2 ∨ x.got.length ≠ x.got.length ∨ l.isEmpty ∨ dataMax x.src < l.length ∨
      x.total < x.got.length + l.length) := by
    have hnonempty : l.isEmpty ≠ true := fun h => hl (List.isEmpty_iff.mp h)
    rintro (h | h | h | h | h | h)
    exacts [h rfl, h hstate, h rfl, hnonempty h, absurd h (Nat.not_lt.mpr hmax), absurd h (Nat.not_lt.mpr hfit)]
  rw [hexec, execDataTransfer, on_runs s (xferPlane x.src) _ hruns, Pkg.xferData, hopen]
  dsimp only
  rw [if_neg htaken]
  obtain ⟨m, hm⟩ := acceptXfer_eq ((s.pkg.setBoot { s.pkg.boot with xfer := some { x with got := x.got ++ l } }).setReg O.recoveryOffset
    (x.got.length + l.length)) x.src
  rw [hm]
  exact ⟨_, rfl, rfl, reg_setReg_self _ _ _, sameMemory_settle rfl, sameRegsBut_settle fun k hk => reg_setReg_other _ _ _ _ hk⟩

theorem data_refused (c : XferSrc) (o : Nat) (l : List Byte) (x : Xfer) (hruns : s.Runs (xferPlane c)) (hopen : s.pkg.boot.xfer = some x)
    (ho : o ≠ x.got.length) :
    ∃ t, exec (.dataTransfer c o l) s = .next t ∧ t.pkg.boot.xfer = some x ∧ t.pkg.reg O.recoveryLastRefusal = 1 ∧ RaisedEver t 0x2406 ∧
      SameMemory s t := by
  have hexec : exec (.dataTransfer c o l) s = execDataTransfer c o l s := rfl
  have hrefused := refuseXfer_refuses s.pkg c 1 false
  have hxfer := hrefused.xfer.trans hopen
  rw [hexec, execDataTransfer, on_runs s (xferPlane c) _ hruns, Pkg.xferData, hopen]
  dsimp only
  rw [if_pos (.inr (.inr (.inl ho)))]
  exact ⟨_, rfl, hxfer, hrefused.reason, hrefused.event, sameMemory_settle hrefused.mem⟩

end

/-! ### The end of a transfer -/

/-- A whole object that is taken, and not run at once: its write is queued. -/
theorem takeObject_queues (p : Pkg) (x : Xfer) (h : x.kind ≠ 1 ∨ x.mode ≠ 1) :
    (p.takeObject x).boot.xfer = p.boot.xfer ∧ (p.takeObject x).reg O.recoveryState = 5 ∧
      (p.takeObject x).boot.flashQ = p.boot.flashQ ++ [⟨if x.kind = 1 then 4 else 3, xferSlot x.kind, x.got⟩] ∧ (p.takeObject x).mem = p.mem := by
  unfold Pkg.takeObject
  extract_lets rom id measured q
  have hextends := extend_extends p 6 (if rom then 0 else 1) 4 id (digest256 (if x.kind ≤ 2 then x.got.take 2048 else x.got))
  obtain ⟨l, hboot⟩ := hextends.boot
  have hq : q.boot = measured.boot ∧ q.mem = measured.mem := by
    simp only [q]
    split
    · exact ⟨rfl, rfl⟩
    · exact ⟨rfl, rfl⟩
  rw [if_neg (fun hrun => h.elim (fun hk => hk hrun.1) fun hm => hm hrun.2)]
  have hall : q.boot.xfer = p.boot.xfer ∧ q.boot.flashQ = p.boot.flashQ ∧ q.mem = p.mem := by
    rw [hq.1, hq.2, show measured.boot = _ from hboot]
    exact ⟨rfl, rfl, hextends.mem⟩
  obtain ⟨hxfer, hqueue, hmem⟩ := hall
  generalize q = r at *
  refine ⟨hxfer, reg_setReg_self _ _ _, ?_, hmem⟩
  show r.boot.flashQ ++ _ = _
  rw [hqueue]

theorem idleRecovery_reg (p : Pkg) : p.idleRecovery.reg O.recoveryState = if p.reg O.bootState = 4 then 1 else 0 := reg_setReg_self _ _ _

section
variable (s : State) (x : Xfer) (hruns : s.Runs (xferPlane x.src)) (hopen : s.pkg.boot.xfer = some x) (hstate : s.pkg.reg O.recoveryState = 2)
include hruns hopen hstate

theorem transfer_ends : Does (.endTransfer x.src) s (match (if x.got.length ≠ x.total then some 1 else s.pkg.xferReason x.kind x.got) with
    | some r => ((s.pkg.setBoot { s.pkg.boot with xfer := none }).idleRecovery).refuseXfer x.src r true
    | none => (s.pkg.takeObject x).acceptXfer x.src) := by
  have hexec : exec (.endTransfer x.src) s = execEndTransfer x.src s := rfl
  rw [Does, hexec, execEndTransfer, on_runs s (xferPlane x.src) _ hruns, Pkg.xferEnd, hopen]
  dsimp only
  rw [if_neg (by rintro (h | h); exacts [h rfl, h hstate])] <;> rfl

theorem transfer_ended : ∃ t, exec (.endTransfer x.src) s = .next t ∧
    (∀ r, (if x.got.length ≠ x.total then some 1 else s.pkg.xferReason x.kind x.got) = some r →
      t.pkg.boot.xfer = none ∧ t.pkg.reg O.recoveryLastRefusal = r ∧ RaisedEver t 0x2406 ∧ t.pkg.boot.flashQ = s.pkg.boot.flashQ ∧
        SameMemory s t) ∧
    (x.got.length = x.total → s.pkg.xferReason x.kind x.got = none → (x.kind ≠ 1 ∨ x.mode ≠ 1) →
      t.pkg.boot.xfer = some x ∧ t.pkg.reg O.recoveryState = 5 ∧
        t.pkg.boot.flashQ = s.pkg.boot.flashQ ++ [⟨if x.kind = 1 then 4 else 3, xferSlot x.kind, x.got⟩] ∧ SameMemory s t) := by
  have hdoes := transfer_ends s x hruns hopen hstate
  generalize hreason : (if x.got.length ≠ x.total then some 1 else s.pkg.xferReason x.kind x.got) = reason at *
  cases reason with
  | some r =>
    have hrefused := refuseXfer_refuses ((s.pkg.setBoot { s.pkg.boot with xfer := none }).idleRecovery) x.src r true
    refine ⟨_, hdoes, fun r' hr => ?_, fun hwhole hgood _ => ?_⟩
    · obtain rfl := Option.some.inj hr
      exact ⟨hrefused.xfer, hrefused.reason, hrefused.event, hrefused.flashQ, sameMemory_settle hrefused.mem⟩
    · rw [if_neg (not_not.mpr hwhole), hgood] at hreason
      cases hreason
  | none =>
    obtain ⟨m, hm⟩ := acceptXfer_eq (s.pkg.takeObject x) x.src
    refine ⟨_, hdoes, fun r hr => (by cases hr), fun _ _ hkept => ?_⟩
    obtain ⟨hxfer, hshown, hqueue, hmem⟩ := takeObject_queues s.pkg x hkept
    dsimp only
    rw [hm]
    exact ⟨hxfer.trans hopen, hshown, hqueue, sameMemory_settle hmem⟩

theorem transfer_aborted : ∃ t, exec (.abortTransfer x.src) s = .next t ∧ t.pkg.boot.xfer = none ∧ t.pkg.reg O.recoveryOffset = 0 ∧
    t.pkg.reg O.recoveryState = (if s.pkg.reg O.bootState = 4 then 1 else 0) ∧ SameMemory s t ∧
    SameRegsBut (fun k => k = O.recoveryOffset ∨ k = O.recoveryState) s t := by
  have hexec : exec (.abortTransfer x.src) s = execAbortTransfer x.src s := rfl
  rw [hexec, execAbortTransfer, on_runs s (xferPlane x.src) _ hruns, Pkg.xferAbort, hopen]
  dsimp only
  rw [if_neg (by rintro (h | h); exacts [h rfl, h hstate])]
  obtain ⟨m, hm⟩ := acceptXfer_eq (((s.pkg.setBoot { s.pkg.boot with xfer := none }).idleRecovery).setReg O.recoveryOffset 0) x.src
  rw [hm]
  refine ⟨_, rfl, rfl, reg_setReg_self _ _ _, ?_, sameMemory_settle rfl, sameRegsBut_settle fun k hk => ?_⟩
  · exact (reg_setReg_other _ _ O.recoveryOffset _ (by decide)).trans (idleRecovery_reg _)
  · obtain ⟨hoffset, hshown⟩ := not_or.mp hk
    exact (reg_setReg_other _ _ O.recoveryOffset _ hoffset).trans (reg_setReg_other _ _ O.recoveryState _ hshown)

end

/-! ## Flash writes (R417) -/

/-- The least priority of a list, bounded by a value. -/
theorem leastPrio (l : List FlashJob) (b : Nat) : (∀ j ∈ l, l.foldl (fun m j => min m j.prio) b ≤ j.prio) ∧ l.foldl (fun m j => min m j.prio) b ≤ b ∧
    (l.foldl (fun m j => min m j.prio) b = b ∨ ∃ j ∈ l, j.prio = l.foldl (fun m j => min m j.prio) b) := by
  induction l generalizing b with
  | nil => exact ⟨fun j hj => absurd hj List.not_mem_nil, Nat.le_refl b, .inl rfl⟩
  | cons a l ih =>
    obtain ⟨hall, hb, hreached⟩ := ih (min b a.prio)
    rw [List.foldl_cons]
    refine ⟨fun j hj => ?_, hb.trans (Nat.min_le_left ..), ?_⟩
    · rcases List.mem_cons.mp hj with rfl | hj
      · exact hb.trans (Nat.min_le_right ..)
      · exact hall j hj
    · rcases hreached with h | ⟨j, hj, h⟩
      · rcases Nat.le_total b a.prio with hle | hle
        · exact .inl (h.trans (Nat.min_eq_left hle))
        · exact .inr ⟨a, List.mem_cons_self, (h.trans (Nat.min_eq_right hle)).symm⟩
      · exact .inr ⟨j, List.mem_cons_of_mem _ hj, h⟩

theorem nextJob_first (q : List FlashJob) (hq : q ≠ []) (hprio : ∀ j ∈ q, j.prio ≤ 4) :
    ∃ n j, nextJob q = some n ∧ q[n]? = some j ∧ (∀ x ∈ q, j.prio ≤ x.prio) ∧ ∀ m x, m < n → q[m]? = some x → j.prio < x.prio := by
  obtain ⟨hall, -, hreached⟩ := leastPrio q 5
  have hbest : ∃ j ∈ q, j.prio = q.foldl (fun m j => min m j.prio) 5 := by
    refine hreached.resolve_left fun h => ?_
    obtain ⟨a, ha⟩ := List.exists_mem_of_ne_nil q hq
    have := hall a ha
    have := hprio a ha
    omega
  obtain ⟨b, hb, hbest⟩ := hbest
  unfold nextJob
  dsimp only
  generalize q.foldl (fun m j => min m j.prio) 5 = best at *
  have hsome : (q.findIdx? fun j => decide (j.prio = best)).isSome = true := by
    rw [List.findIdx?_isSome]
    exact List.any_eq_true.mpr ⟨b, hb, decide_eq_true hbest⟩
  obtain ⟨n, hn⟩ := Option.isSome_iff_exists.mp hsome
  obtain ⟨hlt, hfound, hbefore⟩ := List.findIdx?_eq_some_iff_getElem.mp hn
  have hprio_n := of_decide_eq_true hfound
  refine ⟨n, q[n], hn, List.getElem?_eq_getElem hlt, fun x hx => hprio_n ▸ hall x hx, fun m x hm hx => ?_⟩
  obtain ⟨hmlt, rfl⟩ := List.getElem?_eq_some_iff.mp hx
  have hne : q[m].prio ≠ best := fun h => by
    have := hbefore m hm
    rw [decide_eq_true h] at this
    exact absurd rfl this
  rw [hprio_n]
  exact Nat.lt_of_le_of_ne (hall _ (List.getElem_mem hmlt)) hne.symm

/-- What a range of the flash reads after bytes are written. -/
theorem at_flashPut (m : List Host.Cell) (a : Nat) (l : List Byte) (b : Nat) :
    SMap.at (0xFF : Byte) b (flashPut m a l) = if h : a ≤ b ∧ b - a < l.length then l[b - a]'h.2 else SMap.at 0xFF b m := by
  induction l generalizing m a with
  | nil => rw [flashPut, dif_neg (fun h => absurd h.2 (Nat.not_lt_zero _))]
  | cons c l ih =>
    rw [flashPut, ih]
    by_cases hb : b = a
    · subst hb
      rw [dif_neg (by omega), SMap.at_put_self, dif_pos ⟨Nat.le_refl b, by simp⟩]
      simp
    · by_cases hin : a + 1 ≤ b ∧ b - (a + 1) < l.length
      · have hlen : b - a < (c :: l).length := by rw [List.length_cons]; omega
        rw [dif_pos hin, dif_pos ⟨by omega, hlen⟩]
        have hidx : b - a = (b - (a + 1)) + 1 := by omega
        simp only [hidx, List.getElem_cons_succ]
      · rw [dif_neg hin, SMap.at_put_other _ _ _ _ _ hb, dif_neg (by rw [List.length_cons]; omega)]

theorem flashPut_other (m : List Host.Cell) (a : Nat) (l : List Byte) (b : Nat) (h : b < a ∨ a + l.length ≤ b) :
    SMap.at (0xFF : Byte) b (flashPut m a l) = SMap.at 0xFF b m := by
  rw [at_flashPut, dif_neg (by omega)]

/-- Bytes written are the bytes read there. -/
theorem flashBytes_flashPut (p : Pkg) (m : List Host.Cell) (a : Nat) (l : List Byte) (h : p.boot.flash = flashPut m a l) :
    p.flashBytes a l.length = l := by
  refine List.ext_getElem (by rw [Pkg.flashBytes, List.length_map, List.length_range]) fun i _ hi => ?_
  rw [show (p.flashBytes a l.length)[i] = p.flashByte (a + i) by simp [Pkg.flashBytes], Pkg.flashByte, h, at_flashPut,
    dif_pos ⟨by omega, by omega⟩]
  simp

/-- What a write that failed twice leaves: bytes that nothing fixes, in its own range. -/
theorem freeFlash_eq (p : Pkg) (a n : Nat) : ∃ flash free, p.freeFlash a n = { p with boot := { p.boot with flash := flash }, free := free } ∧
    ∀ b, b < a ∨ a + n ≤ b → SMap.at (0xFF : Byte) b flash = SMap.at 0xFF b p.boot.flash := by
  unfold Pkg.freeFlash
  refine List.foldlRecOn (motive := fun q : Pkg => ∃ flash free, q = { p with boot := { p.boot with flash := flash }, free := free } ∧
    ∀ b, b < a ∨ a + n ≤ b → SMap.at (0xFF : Byte) b flash = SMap.at 0xFF b p.boot.flash) _ _ ⟨p.boot.flash, p.free, rfl, fun _ _ => rfl⟩
    fun q hq i hi => ?_
  obtain ⟨flash, free, rfl, hkept⟩ := hq
  refine ⟨_, _, rfl, fun b hb => ?_⟩
  have := List.mem_range.mp hi
  rw [flashPut_other _ _ _ _ (by rw [List.length_singleton]; omega)]
  exact hkept b hb

/-- A write of priority 2 or 3 goes to its own place. -/
theorem performWrite_plain (p : Pkg) (g r : Bool) (n : Nat) (j : FlashJob) (hnext : nextJob p.boot.flashQ = some n) (hj : p.boot.flashQ[n]? = some j)
    (hprio : j.prio = 2 ∨ j.prio = 3) (hstate : p.reg O.recoveryState ≠ 5) :
    p.performWrite g r = if g || r then
        p.setBoot { p.boot with flashQ := dropAt p.boot.flashQ n, flash := flashPut p.boot.flash j.offset j.bytes }
      else ((p.setBoot { p.boot with flashQ := dropAt p.boot.flashQ n }).freeFlash j.offset j.bytes.length).raise 0x240C noUnit 0 := by
  have hone : j.prio ≠ 1 := by omega
  have hfour : j.prio ≠ 4 := by omega
  unfold Pkg.performWrite
  rw [hnext]
  dsimp only
  rw [hj]
  dsimp only
  rw [if_neg hone, if_neg hone, if_neg hfour]
  split
  · exact if_neg fun h => hstate h.1
  · obtain ⟨flash, free, hfree, -⟩ := freeFlash_eq (p.setBoot { p.boot with flashQ := dropAt p.boot.flashQ n }) j.offset j.bytes.length
    refine if_neg fun h => hstate ?_
    have hsame : ((p.setBoot { p.boot with flashQ := dropAt p.boot.flashQ n }).freeFlash j.offset j.bytes.length).reg O.recoveryState = _ :=
      congrArg (fun q : Pkg => q.reg O.recoveryState) hfree
    exact hsame.symm.trans h.1

theorem flashWrite_performed (s : State) (g r : Bool) (n : Nat) (j : FlashJob) (hruns : s.Runs .management)
    (hnext : nextJob s.pkg.boot.flashQ = some n) (hj : s.pkg.boot.flashQ[n]? = some j) (hprio : j.prio = 2 ∨ j.prio = 3)
    (hstate : s.pkg.reg O.recoveryState ≠ 5) :
    ∃ t, exec (.flashWrite g r) s = .next t ∧ t.pkg.boot.flashQ = dropAt s.pkg.boot.flashQ n ∧
      ((g = true ∨ r = true) → t.pkg.flashBytes j.offset j.bytes.length = j.bytes) ∧
      (∀ a, a < j.offset ∨ j.offset + j.bytes.length ≤ a → t.pkg.flashByte a = s.pkg.flashByte a) ∧
      ((g = false ∧ r = false) → RaisedLast t 0x240C) ∧ SameMemory s t ∧ SameRegs s t := by
  have hexec : exec (.flashWrite g r) s = execFlashWrite g r s := rfl
  rw [hexec, execFlashWrite, on_runs s _ _ hruns, performWrite_plain s.pkg g r n j hnext hj hprio hstate]
  by_cases hgood : (g || r) = true
  · rw [if_pos hgood]
    refine ⟨_, rfl, rfl, fun _ => flashBytes_flashPut _ s.pkg.boot.flash _ _ rfl, fun a ha => flashPut_other _ _ _ _ ha, ?_, sameMemory_settle rfl, fun _ => rfl⟩
    rintro ⟨rfl, rfl⟩
    exact absurd hgood (by decide)
  · rw [if_neg hgood]
    have hlast := raised_last ((s.pkg.setBoot { s.pkg.boot with flashQ := dropAt s.pkg.boot.flashQ n }).freeFlash j.offset j.bytes.length) 0x240C noUnit 0
    obtain ⟨flash, free, hfree, hkept⟩ := freeFlash_eq (s.pkg.setBoot { s.pkg.boot with flashQ := dropAt s.pkg.boot.flashQ n }) j.offset j.bytes.length
    rw [hfree] at hlast ⊢
    refine ⟨_, rfl, rfl, ?_, hkept, fun _ => hlast, sameMemory_settle rfl, fun _ => rfl⟩
    rintro (rfl | rfl)
    · exact absurd rfl hgood
    · exact absurd (Bool.or_true g) hgood

theorem flashWrite_idle (s : State) (g r : Bool) (h : nextJob s.pkg.boot.flashQ = none) : Does (.flashWrite g r) s s.pkg := by
  have hexec : exec (.flashWrite g r) s = execFlashWrite g r s := rfl
  have hidle : s.pkg.performWrite g r = s.pkg := by rw [Pkg.performWrite, h]
  simp only [Does, hexec, execFlashWrite, on_next, hidle, ite_self]

/-! ## Floors (R420) -/

theorem objAt_floorRaise : objAt O.floorRaise = some ⟨O.floorRaise, 1, 1, 1, 1, .wo, 1, 3, false⟩ := by decide +kernel

/-- A floor that is raised queues its record. -/
theorem raiseFloor_raised (p : Pkg) (i v : Nat) (hi : i < 3) (h : p.reg (O.floors + i) < v) :
    (p.raiseFloor i v).reg (O.floors + i) = v ∧ (p.raiseFloor i v).reg O.floorRecSeq = p.reg O.floorRecSeq + 1 ∧
      (∃ j : FlashJob, (p.raiseFloor i v).boot.flashQ = p.boot.flashQ ++ [j] ∧ j.prio = 1) ∧
      ((p.raiseFloor i v).ev.inFlight.getLast?.map (·.code)) = some 0x2408 ∧ (p.raiseFloor i v).mem = p.mem ∧
      ∀ k, ¬ (k = O.floors + i ∨ k = O.floorRecSeq) → (p.raiseFloor i v).reg k = p.reg k := by
  have hkeys : O.floors + i ≠ O.floorRecSeq := by
    unfold O.floors O.floorRecSeq
    omega
  unfold Pkg.raiseFloor
  rw [if_neg (Nat.not_le.mpr h)]
  dsimp only
  refine ⟨?_, ?_, ⟨_, rfl, rfl⟩, raised_last _ _ _ _, rfl, fun k hk => ?_⟩
  · exact (reg_setReg_other _ _ O.floorRecSeq _ hkeys).trans (reg_setReg_self _ _ _)
  · exact reg_setReg_self _ _ _
  · obtain ⟨hfloor, hseq⟩ := not_or.mp hk
    exact (reg_setReg_other _ _ O.floorRecSeq _ hseq).trans (reg_setReg_other _ _ _ _ hfloor)

/-- No floor falls. -/
theorem raiseFloor_mono (p : Pkg) (i v j : Nat) (hi : i < 3) (hj : j < 3) : p.reg (O.floors + j) ≤ (p.raiseFloor i v).reg (O.floors + j) := by
  by_cases h : p.reg (O.floors + i) < v
  · obtain ⟨hfloor, -, -, -, -, hother⟩ := raiseFloor_raised p i v hi h
    by_cases hij : j = i
    · subst hij
      rw [hfloor]
      exact h.le
    · rw [hother _ (by unfold O.floors O.floorRecSeq; omega)]
  · rw [Pkg.raiseFloor, if_pos (Nat.not_lt.mp h)]

section
variable (s : State) (pt : Path)

theorem floor_raised (hruns : s.Runs (pathPlane pt)) (h : s.pkg.reg O.floors < s.pkg.reg O.fwSecurityVersion) :
    ∃ t j, exec (.floorRaise pt 1) s = .next t ∧ t.pkg.reg O.floors = s.pkg.reg O.fwSecurityVersion ∧
      t.pkg.reg O.floorRecSeq = s.pkg.reg O.floorRecSeq + 1 ∧ t.pkg.boot.flashQ = s.pkg.boot.flashQ ++ [j] ∧ j.prio = 1 ∧
      RaisedLast t 0x2408 ∧ SameMemory s t ∧ SameRegsBut (fun k => k = O.floors ∨ k = O.floorRecSeq) s t := by
  have hexec : exec (.floorRaise pt 1) s = execFloorRaise pt 1 s := rfl
  obtain ⟨hfloor, hseq, ⟨j, hqueue, hprio⟩, hlast, hmem, hother⟩ := raiseFloor_raised s.pkg 0 (s.pkg.reg O.fwSecurityVersion) (by decide) h
  rw [hexec, execFloorRaise, on_runs s (pathPlane pt) _ hruns, Pkg.floorRaiseWrite,
    objWrite_in_range objAt_floorRaise (Nat.le_refl 1) (by decide), if_pos rfl]
  exact ⟨_, j, rfl, hfloor, hseq, hqueue, hprio, hlast, sameMemory_settle hmem, sameRegsBut_settle hother⟩

theorem floors_never_fall (v : Nat) : ∃ t, exec (.floorRaise pt v) s = .next t ∧ ∀ i < 3, s.pkg.reg (O.floors + i) ≤ t.pkg.reg (O.floors + i) := by
  have hexec : exec (.floorRaise pt v) s = execFloorRaise pt v s := rfl
  have hwrite (i : Nat) (hi : i < 3) : s.pkg.reg (O.floors + i) ≤ (s.pkg.floorRaiseWrite pt v).reg (O.floors + i) := by
    rw [Pkg.floorRaiseWrite, Pkg.objWrite, objAt_floorRaise]
    dsimp only
    split
    · exact (refuse_reg_other _ _ _ _ _ (by unfold O.floors O.dictLastError; omega) (by unfold O.floors O.dictLastAbort; omega)).ge
    · split
      · exact raiseFloor_mono _ _ _ _ (by decide) hi
      · split
        · exact raiseFloor_mono _ _ _ _ (by decide) hi
        · exact raiseFloor_mono _ _ _ _ (by decide) hi
  rw [hexec, execFloorRaise, on_next]
  refine ⟨_, rfl, fun i hi => ?_⟩
  show _ ≤ Pkg.reg (if _ then _ else _) _
  split
  · exact hwrite i hi
  · exact Nat.le_refl _

end

/-- Settles O58: a transfer is refused or taken whole, the next write is the first of the least priority, and a floor only rises. -/
theorem transfersAndFlash : Obligations.TransfersAndFlash :=
  ⟨⟨fun s c kind mode n hruns => ⟨transfer_begun s c kind mode n hruns, transfer_not_begun s c kind mode n hruns⟩, data_taken, data_refused,
    fun s x hruns hopen hstate => ⟨transfer_ended s x hruns hopen hstate, transfer_aborted s x hruns hopen hstate⟩⟩,
    nextJob_first, flashWrite_idle, flashWrite_performed, floor_raised, floors_never_fall⟩

end Sys2Proof.Machine

namespace Sys2Proof.Machine

/-! ## Boot (R421 to R424) -/

section
variable (s : State)

theorem bootStepDone_idle (f : BootFinding) (h : s.pkg.boot.step = 0) : Does (.bootStepDone f) s s.pkg := by
  have hexec : exec (.bootStepDone f) s = execBootStepDone f s := rfl
  simp only [Does, hexec, execBootStepDone, on_next, if_pos h, ite_self]

theorem bootStepDone_ends (f : BootFinding) (hruns : s.Runs .management) (h : s.pkg.boot.step ≠ 0) :
    Does (.bootStepDone f) s (s.pkg.endBootStep s.pkg.boot.step f) := by
  have hexec : exec (.bootStepDone f) s = execBootStepDone f s := rfl
  rw [Does, hexec, execBootStepDone, on_runs s _ _ hruns, if_neg h]

/-- A step that cannot complete holds the package (R421). -/
theorem failBoot_shows (p : Pkg) : p.failBoot.reg O.bootState = 5 ∧ p.failBoot.reg O.bootFailStep = p.boot.step ∧ p.failBoot.boot.held = true ∧
    (p.failBoot.ev.inFlight.getLast?.map (·.code)) = some 0x2402 ∧ p.failBoot.mem = p.mem :=
  ⟨(reg_setReg_other _ _ O.bootFailStep _ (by decide)).trans (reg_setReg_self _ _ _), reg_setReg_self _ _ _, rfl, raised_last _ _ _ _, rfl⟩

/-- The steps whose failure holds the package. -/
theorem endBootStep_fails (p : Pkg) (k : Nat) (f : BootFinding) (hbad : f.ok = false) (hk : k = 1 ∨ k = 6 ∨ k = 7 ∨ k = 8 ∨ k = 10 ∨ 11 ≤ k) :
    p.endBootStep k f = p.failBoot := by
  have hfails : (!f.ok) = true := by rw [hbad]; rfl
  have hnot : ¬ f.ok = true := by rw [hbad]; decide
  rcases hk with rfl | rfl | rfl | rfl | rfl | hk
  · exact if_pos hfails
  · exact if_neg hnot
  · exact if_pos hfails
  · exact if_neg hnot
  · exact if_pos hfails
  · unfold Pkg.endBootStep
    split
    case h_11 => exact if_neg hnot
    all_goals omega

/-! ### Recovery (R424) -/

/-- What the owners and floors that the ROM reads change. -/
structure RomRead (p q : Pkg) : Prop where
  rest : ∃ d l, q = { p with dict := d, boot := { p.boot with owners := l } }
  regs : ∀ k, (k < O.ownerSeq ∨ O.ownerKeys < k) → (k < O.floors ∨ O.floorRecSeq < k) → q.reg k = p.reg k

theorem RomRead.refl (p : Pkg) : RomRead p p := ⟨⟨p.dict, p.boot.owners, rfl⟩, fun _ _ _ => rfl⟩

theorem RomRead.trans {p q r : Pkg} (h : RomRead p q) (h' : RomRead q r) : RomRead p r := by
  obtain ⟨⟨d, l, rfl⟩, hregs⟩ := h
  obtain ⟨⟨d', l', rfl⟩, hregs'⟩ := h'
  exact ⟨⟨d', l', rfl⟩, fun k howner hfloor => (hregs' k howner hfloor).trans (hregs k howner hfloor)⟩

/-- Owners put in force. -/
theorem ownersSet_read (p : Pkg) (seq n : Nat) (l : List (List Byte)) :
    RomRead p (((p.setReg O.ownerSeq seq).setReg O.ownerKeys n).setBoot { p.boot with owners := l }) := by
  refine ⟨⟨_, l, rfl⟩, fun k howner _ => ?_⟩
  unfold O.ownerSeq O.ownerKeys at howner
  exact (reg_setReg_other _ _ O.ownerKeys _ (by unfold O.ownerKeys; omega)).trans (reg_setReg_other _ _ O.ownerSeq _ (by unfold O.ownerSeq; omega))

theorem loadOwners_read (p : Pkg) : RomRead p p.loadOwners.2.2 := by
  unfold Pkg.loadOwners
  dsimp only
  split
  · exact ownersSet_read p 0 0 []
  · exact ownersSet_read p _ _ _

theorem floorSet_read (p : Pkg) (k v : Nat) (hlo : O.floors ≤ k) (hhi : k ≤ O.floorRecSeq) : RomRead p (p.setReg k v) :=
  ⟨⟨_, p.boot.owners, rfl⟩, fun j _ hfloor => reg_setReg_other _ _ _ _ (by omega)⟩

theorem loadFloors_read (p : Pkg) : RomRead p p.loadFloors := by
  unfold Pkg.loadFloors
  dsimp only
  refine List.foldlRecOn (motive := fun q : Pkg => RomRead p q) _ _ (floorSet_read p _ _ (by decide) (by decide)) fun q hq i hi => ?_
  have := List.mem_range.mp hi
  exact hq.trans (floorSet_read q _ _ (by omega) (by unfold O.floors O.floorRecSeq; omega))

/-- What a package shows that enters recovery. -/
structure EntersRecovery (p q : Pkg) (reason : Nat) : Prop where
  mem : q.mem = p.mem
  bootState : q.reg O.bootState = 4
  why : q.reg O.recoveryReason = reason
  state : q.reg O.recoveryState = if reason = 5 then 6 else 1
  inRecovery : q.boot.inRecovery = true
  last : (q.ev.inFlight.getLast?.map (·.code)) = some 0x2407
  events : p.ev.inFlight ⊆ q.ev.inFlight
  identity : q.reg O.identityState = p.reg O.identityState

theorem enterRecovery_enters (p : Pkg) (reason : Nat) : EntersRecovery p (p.enterRecovery reason) reason := by
  have hread : RomRead p (if p.boot.owners = [] then p.loadOwners.2.2.loadFloors else p) := by
    split
    · exact (loadOwners_read p).trans (loadFloors_read _)
    · exact .refl p
  unfold Pkg.enterRecovery
  dsimp only
  generalize (if p.boot.owners = [] then p.loadOwners.2.2.loadFloors else p) = q at *
  obtain ⟨⟨d, l, hq⟩, hregs⟩ := hread
  have hmem : q.mem = p.mem := by rw [hq]
  have hev : q.ev = p.ev := by rw [hq]
  refine ⟨hmem, ?_, ?_, reg_setReg_self _ _ _, rfl, raised_last _ _ _ _, ?_, ?_⟩
  · exact (reg_setReg_other _ _ O.recoveryState _ (by decide)).trans
      ((reg_setReg_other _ _ O.recoveryReason _ (by decide)).trans (reg_setReg_self _ _ _))
  · exact (reg_setReg_other _ _ O.recoveryState _ (by decide)).trans (reg_setReg_self _ _ _)
  · rw [← hev]
    exact (raise_grown (((q.setReg O.bootState 4).setReg O.recoveryReason reason).setReg O.recoveryState _) 0x2407 noUnit 0).events.subset
  · refine ((reg_setReg_other _ _ O.recoveryState _ (by decide)).trans ((reg_setReg_other _ _ O.recoveryReason _ (by decide)).trans
      (reg_setReg_other _ _ O.bootState _ (by decide)))).trans (hregs _ (by decide) (by decide))

theorem endBootStep_badFlash (p : Pkg) (f : BootFinding) (hbad : f.ok = false) : p.endBootStep 2 f = p.enterRecovery 2 := by
  have hfails : (!f.ok) = true := by rw [hbad]; rfl
  rw [Pkg.endBootStep, if_pos (.inl hfails)]

theorem endBootStep_badIdentity (p : Pkg) (f : BootFinding) (hbad : f.ok = false) :
    p.endBootStep 3 f = (p.switchSupplies [17] false).failIdentity 2 5 := by
  have hfails : (!f.ok) = true := by rw [hbad]; rfl
  rw [Pkg.endBootStep, if_pos hfails]

theorem bootStep_fails (f : BootFinding) (hruns : s.Runs .management) (hbad : f.ok = false) :
    ((s.pkg.boot.step = 1 ∨ s.pkg.boot.step = 6 ∨ s.pkg.boot.step = 7 ∨ s.pkg.boot.step = 8 ∨ s.pkg.boot.step = 10 ∨ 11 ≤ s.pkg.boot.step) →
      ∃ t, exec (.bootStepDone f) s = .next t ∧ t.pkg.reg O.bootState = 5 ∧ t.pkg.reg O.bootFailStep = s.pkg.boot.step ∧
        t.pkg.boot.held = true ∧ RaisedLast t 0x2402 ∧ SameMemory s t) ∧
    (s.pkg.boot.step = 2 → ∃ t, exec (.bootStepDone f) s = .next t ∧ t.pkg.reg O.bootState = 4 ∧ t.pkg.reg O.recoveryReason = 2 ∧
      t.pkg.reg O.recoveryState = 1 ∧ t.pkg.boot.inRecovery = true ∧ RaisedLast t 0x2407 ∧ SameMemory s t) ∧
    (s.pkg.boot.step = 3 → ∃ t, exec (.bootStepDone f) s = .next t ∧ t.pkg.reg O.bootState = 4 ∧ t.pkg.reg O.identityState = 2 ∧
      t.pkg.reg O.recoveryReason = 5 ∧ t.pkg.reg O.recoveryState = 6 ∧ RaisedEver t 0x2403 ∧ RaisedLast t 0x2407 ∧ SameMemory s t) := by
  refine ⟨fun hstep => ?_, fun hstep => ?_, fun hstep => ?_⟩
  · have hdoes := bootStepDone_ends s f hruns (by omega)
    rw [endBootStep_fails _ _ _ hbad hstep] at hdoes
    obtain ⟨hstate, hfailed, hheld, hlast, hmem⟩ := failBoot_shows s.pkg
    exact ⟨_, hdoes, hstate, hfailed, hheld, hlast, sameMemory_settle hmem⟩
  · have hdoes := bootStepDone_ends s f hruns (by omega)
    rw [hstep, endBootStep_badFlash _ _ hbad] at hdoes
    have henters := enterRecovery_enters s.pkg 2
    exact ⟨_, hdoes, henters.bootState, henters.why, henters.state, henters.inRecovery, henters.last, sameMemory_settle henters.mem⟩
  · have hdoes := bootStepDone_ends s f hruns (by omega)
    rw [hstep, endBootStep_badIdentity _ _ hbad, Pkg.failIdentity] at hdoes
    have hidentity : (((s.pkg.switchSupplies [17] false).setReg O.identityState 2).raise 0x2403 noUnit 0).reg O.identityState = 2 :=
      reg_setReg_self _ _ _
    have hraised := hasEvent_raise ((s.pkg.switchSupplies [17] false).setReg O.identityState 2) 0x2403 noUnit 0
    have hmem : (((s.pkg.switchSupplies [17] false).setReg O.identityState 2).raise 0x2403 noUnit 0).mem = s.pkg.mem :=
      (switchSupplies_kept s.pkg [17] false).mem
    generalize ((s.pkg.switchSupplies [17] false).setReg O.identityState 2).raise 0x2403 noUnit 0 = p at *
    have henters := enterRecovery_enters p 5
    obtain ⟨e, he, hcode⟩ := hraised
    exact ⟨_, hdoes, henters.bootState, henters.identity.trans hidentity, henters.why, henters.state, ⟨e, henters.events he, hcode⟩, henters.last,
      sameMemory_settle (henters.mem.trans hmem)⟩

/-! ### Steps that go on -/

/-- The end of step 1, where no recovery is asked for. -/
theorem endBootStep_first (p : Pkg) (f : BootFinding) (hgood : f.ok = true) (hrecovery : p.boot.inRecovery = false) (hreq : p.boot.recoveryReq = false)
    (hheader : p.power.aon.hdrValid = true) :
    p.endBootStep 1 f = if p.power.aon.bootFails = 3 then (p.extend 0 0 1 0 Config.romDigest).enterRecovery 4
      else (p.extend 0 0 1 0 Config.romDigest).beginBootStep 2 := by
  have hextends := extend_extends p 0 0 1 0 Config.romDigest
  obtain ⟨l, hboot⟩ := hextends.boot
  have hcheck : p.checkHeader = p := if_pos hheader
  refine (if_neg (by rw [hgood]; decide)).trans ?_
  dsimp only
  rw [hcheck, if_neg (by rw [hboot]; dsimp only; rw [hrecovery]; decide), if_neg (by rw [hboot]; dsimp only; rw [hreq]; decide), hextends.power]

theorem firstStep_ends (f : BootFinding) (hruns : s.Runs .management) (hgood : f.ok = true) (hstep : s.pkg.boot.step = 1)
    (hrecovery : s.pkg.boot.inRecovery = false) (hreq : s.pkg.boot.recoveryReq = false) (hheader : s.pkg.power.aon.hdrValid = true) :
    (s.pkg.power.aon.bootFails ≠ 3 → ∃ t, exec (.bootStepDone f) s = .next t ∧ t.pkg.boot.step = 2 ∧
        t.pkg.measure 0 = digest256 (s.pkg.measure 0 ++ Config.romDigest) ∧ SameMemory s t) ∧
      (s.pkg.power.aon.bootFails = 3 → ∃ t, exec (.bootStepDone f) s = .next t ∧ t.pkg.reg O.bootState = 4 ∧
        t.pkg.reg O.recoveryReason = 4 ∧ RaisedLast t 0x2407) := by
  have hdoes := bootStepDone_ends s f hruns (by omega)
  rw [hstep, endBootStep_first _ _ hgood hrecovery hreq hheader] at hdoes
  have hextends := extend_extends s.pkg 0 0 1 0 Config.romDigest
  constructor
  · intro hfails
    rw [if_neg hfails] at hdoes
    exact ⟨_, hdoes, rfl, hextends.measured, sameMemory_settle hextends.mem⟩
  · intro hfails
    rw [if_pos hfails] at hdoes
    have henters := enterRecovery_enters (s.pkg.extend 0 0 1 0 Config.romDigest) 4
    exact ⟨_, hdoes, henters.bootState, henters.why, henters.last⟩

/-- The spare ways taken up leave the dictionary and the boot as they are. -/
theorem moveWay_eq (p : Pkg) (d : Nat) : (p.moveWay d).dict = p.dict ∧ (p.moveWay d).boot = p.boot := by
  unfold Pkg.moveWay
  dsimp only
  split
  · exact ⟨rfl, rfl⟩
  · exact ⟨rfl, rfl⟩

/-- The package as the reclamation sweep of step 10 leaves it. -/
def Pkg.bootSwept (p : Pkg) : Pkg :=
  (((List.range 4).foldl Pkg.moveWay { p with coh := { p.coh with sweep := false } }).setReg O.reclaimState 2).setReg O.reclaimOwner 0

theorem bootSwept_shows (p : Pkg) : p.bootSwept.reg O.reclaimState = 2 ∧ p.bootSwept.reg O.reclaimOwner = 0 ∧
    ∀ k, k ≠ O.reclaimState → k ≠ O.reclaimOwner → p.bootSwept.reg k = p.reg k := by
  have hdict : ((List.range 4).foldl Pkg.moveWay { p with coh := { p.coh with sweep := false } }).dict = p.dict :=
    foldl_keeps Pkg.dict (fun q d => (moveWay_eq q d).1) _ _
  unfold Pkg.bootSwept
  generalize (List.range 4).foldl Pkg.moveWay { p with coh := { p.coh with sweep := false } } = q at *
  refine ⟨(reg_setReg_other _ _ O.reclaimOwner _ (by decide)).trans (reg_setReg_self _ _ _), reg_setReg_self _ _ _, fun k hstate howner => ?_⟩
  rw [reg_setReg_other _ _ _ _ howner, reg_setReg_other _ _ _ _ hstate]
  exact reg_of_dict hdict k

theorem claimTest_two (p : Pkg) (k e : Nat) (h0 : p.reg k = 0) (h1 : p.reg (k + 1) = 0) : p.claimTest k 2 e = (p.setReg k 1).setReg (k + 1) 1 := by
  show (p.ownerWrite .unit k 1 e 0).ownerWrite .unit (k + 1) 1 e 1 = _
  rw [ownerWrite_accepted p _ _ _ _ _ (.inl h0), ownerWrite_accepted _ _ _ _ _ _ (.inl (by rw [reg_setReg_other _ _ _ _ (by omega)]; exact h1))]

theorem endBootStep_ten (p : Pkg) (f : BootFinding) (hgood : f.ok = true) :
    p.endBootStep 10 f = (p.bootSwept.setBoot { p.bootSwept.boot with step := 11 }).claimTest O.linkTestOwner 2 0x4409 := by
  rw [Pkg.endBootStep, if_neg (by rw [hgood]; decide)]
  rfl

/-- The link test engines of a package, claimed by the boot. -/
theorem claimLinkTest_shows (p : Pkg) (hfree : ∀ d < 2, p.reg (O.linkTestOwner + d) = 0) :
    (p.claimTest O.linkTestOwner 2 0x4409).boot = p.boot ∧ (∀ d < 2, (p.claimTest O.linkTestOwner 2 0x4409).reg (O.linkTestOwner + d) = 1) ∧
      ∀ k, k ≠ O.linkTestOwner → k ≠ O.linkTestOwner + 1 → (p.claimTest O.linkTestOwner 2 0x4409).reg k = p.reg k := by
  rw [claimTest_two p O.linkTestOwner 0x4409 (hfree 0 (by decide)) (hfree 1 (by decide))]
  refine ⟨rfl, fun d hd => ?_, fun k h0 h1 => ?_⟩
  · obtain rfl | rfl : d = 0 ∨ d = 1 := by omega
    · exact (reg_setReg_other _ _ _ _ (by decide)).trans (reg_setReg_self _ _ _)
    · exact reg_setReg_self _ _ _
  · exact (reg_setReg_other _ _ _ _ h1).trans (reg_setReg_other _ _ _ _ h0)

theorem sweepStep_ends (f : BootFinding) (hruns : s.Runs .management) (hgood : f.ok = true) (hstep : s.pkg.boot.step = 10)
    (hfree : ∀ d < 2, s.pkg.reg (O.linkTestOwner + d) = 0) : ∃ t, exec (.bootStepDone f) s = .next t ∧ t.pkg.boot.step = 11 ∧
      t.pkg.reg O.reclaimState = 2 ∧ t.pkg.reg O.reclaimOwner = 0 ∧ t.pkg.reg O.linkTestOwner = 1 ∧ t.pkg.reg (O.linkTestOwner + 1) = 1 := by
  have hdoes := bootStepDone_ends s f hruns (by omega)
  rw [hstep, endBootStep_ten s.pkg f hgood] at hdoes
  obtain ⟨hstate, howner, hother⟩ := bootSwept_shows s.pkg
  have hswept (d : Nat) (hd : d < 2) : s.pkg.bootSwept.reg (O.linkTestOwner + d) = 0 :=
    (hother _ (by unfold O.linkTestOwner O.reclaimState; omega) (by unfold O.linkTestOwner O.reclaimOwner; omega)).trans (hfree d hd)
  generalize s.pkg.bootSwept = p at *
  obtain ⟨hboot, hclaimed, hkept⟩ := claimLinkTest_shows (p.setBoot { p.boot with step := 11 }) hswept
  exact ⟨_, hdoes, congrArg Boot.step hboot, (hkept _ (by decide) (by decide)).trans hstate, (hkept _ (by decide) (by decide)).trans howner,
    hclaimed 0 (by decide), hclaimed 1 (by decide)⟩

/-! ### The end of the boot -/

/-- What a release of test controllers leaves: all objects but theirs, and each that claimant 1 held is free. -/
theorem releaseTest_two (p : Pkg) (k : Nat) : (∃ d, p.releaseTest k 2 = { p with dict := d }) ∧
    ∀ i < 2, p.reg (k + i) = 1 → (p.releaseTest k 2).reg (k + i) = 0 := by
  have hone (q : Pkg) (j : Nat) : (∃ d, (if q.reg j = 1 then q.setReg j 0 else q) = { q with dict := d }) ∧
      (q.reg j = 1 → (if q.reg j = 1 then q.setReg j 0 else q).reg j = 0) ∧
      ∀ i, i ≠ j → (if q.reg j = 1 then q.setReg j 0 else q).reg i = q.reg i := by
    split
    · exact ⟨⟨_, rfl⟩, fun _ => reg_setReg_self _ _ _, fun i hi => reg_setReg_other _ _ _ _ hi⟩
    · rename_i h
      exact ⟨⟨q.dict, rfl⟩, fun h' => absurd h' h, fun _ _ => rfl⟩
  obtain ⟨⟨d, hd⟩, hfirst, hfirst'⟩ := hone p (k + 0)
  have hsplit : p.releaseTest k 2 = (if (if p.reg (k + 0) = 1 then p.setReg (k + 0) 0 else p).reg (k + 1) = 1 then
    (if p.reg (k + 0) = 1 then p.setReg (k + 0) 0 else p).setReg (k + 1) 0 else (if p.reg (k + 0) = 1 then p.setReg (k + 0) 0 else p)) := rfl
  rw [hsplit]
  generalize (if p.reg (k + 0) = 1 then p.setReg (k + 0) 0 else p) = q at *
  obtain ⟨⟨d', hd'⟩, hsecond, hsecond'⟩ := hone q (k + 1)
  refine ⟨⟨d', by rw [hd', hd]⟩, fun i hi h => ?_⟩
  obtain rfl | rfl : i = 0 ∨ i = 1 := by omega
  · rw [hsecond' _ (by omega)]
    exact hfirst h
  · exact hsecond ((hfirst' _ (by omega)).trans h)

/-- The package as the end of its boot shows it, before the floor of its firmware is raised. -/
def Pkg.bootShown (p : Pkg) (held : SMap Bool) : Pkg :=
  (((p.setBoot { p.boot with step := 0, inRecovery := false, coreHeld := held }).setReg O.bootState 3).setReg O.recoveryState 0).raise 0x2401 noUnit 0

theorem completeBoot_stages (p : Pkg) : ∃ held, p.completeBoot =
    (if (((p.releaseTest O.linkTestOwner 2).setBootFails 0).bootShown held).boot.fwFloorRaise then
      (((p.releaseTest O.linkTestOwner 2).setBootFails 0).bootShown held).raiseFloor 0
        ((((p.releaseTest O.linkTestOwner 2).setBootFails 0).bootShown held).reg O.fwSecurityVersion)
    else ((p.releaseTest O.linkTestOwner 2).setBootFails 0).bootShown held) := ⟨_, rfl⟩

/-- What a floor that may be raised leaves. -/
structure FloorKept (p q : Pkg) : Prop where
  mem : q.mem = p.mem
  power : q.power = p.power
  step : q.boot.step = p.boot.step
  events : p.ev.inFlight ⊆ q.ev.inFlight
  regs : ∀ k, (k < O.floors ∨ O.floorRecSeq < k) → q.reg k = p.reg k

theorem raiseFloor_kept (p : Pkg) (i v : Nat) (hi : i < 3) : FloorKept p (p.raiseFloor i v) := by
  by_cases h : v ≤ p.reg (O.floors + i)
  · rw [Pkg.raiseFloor, if_pos h]
    exact ⟨rfl, rfl, rfl, List.Subset.refl _, fun _ _ => rfl⟩
  · obtain ⟨-, -, -, -, hmem, hother⟩ := raiseFloor_raised p i v hi (Nat.not_le.mp h)
    have hregs (k : Nat) (hk : k < O.floors ∨ O.floorRecSeq < k) : (p.raiseFloor i v).reg k = p.reg k := hother k (by
      unfold O.floors O.floorRecSeq at hk ⊢
      omega)
    rw [Pkg.raiseFloor, if_neg h] at hmem hregs ⊢
    exact ⟨hmem, rfl, rfl, (raise_grown _ 0x2408 noUnit 0).events.subset, hregs⟩

theorem completeBoot_shows (p : Pkg) : p.completeBoot.reg O.bootState = 3 ∧ p.completeBoot.boot.step = 0 ∧ p.completeBoot.power.aon.bootFails = 0 ∧
    (∀ d < 2, p.reg (O.linkTestOwner + d) = 1 → p.completeBoot.reg (O.linkTestOwner + d) = 0) ∧ p.completeBoot.HasEvent 0x2401 ∧
    p.completeBoot.mem = p.mem := by
  obtain ⟨held, hstages⟩ := completeBoot_stages p
  obtain ⟨⟨d, hd⟩, hreleased⟩ := releaseTest_two p O.linkTestOwner
  have hmem : (p.releaseTest O.linkTestOwner 2).mem = p.mem := by rw [hd]
  rw [hstages]
  generalize p.releaseTest O.linkTestOwner 2 = q at *
  have hstate : ((q.setBootFails 0).bootShown held).reg O.bootState = 3 :=
    (reg_setReg_other _ _ O.recoveryState _ (by decide)).trans (reg_setReg_self _ _ _)
  have hfree (i : Nat) (hi : i < 2) (h : p.reg (O.linkTestOwner + i) = 1) : ((q.setBootFails 0).bootShown held).reg (O.linkTestOwner + i) = 0 := by
    refine ((reg_setReg_other _ _ O.recoveryState _ ?_).trans (reg_setReg_other _ _ O.bootState _ ?_)).trans (hreleased i hi h)
    · unfold O.linkTestOwner O.recoveryState; omega
    · unfold O.linkTestOwner O.bootState; omega
  have hevent : ((q.setBootFails 0).bootShown held).HasEvent 0x2401 := hasEvent_raise ..
  have hshown : ((q.setBootFails 0).bootShown held).mem = q.mem ∧ ((q.setBootFails 0).bootShown held).power.aon.bootFails = 0 ∧
      ((q.setBootFails 0).bootShown held).boot.step = 0 := ⟨rfl, rfl, rfl⟩
  obtain ⟨hkeptMem, hfails, hstep⟩ := hshown
  generalize (q.setBootFails 0).bootShown held = r at *
  have hkept : FloorKept r (if r.boot.fwFloorRaise then r.raiseFloor 0 (r.reg O.fwSecurityVersion) else r) := by
    split
    · exact raiseFloor_kept r 0 _ (by decide)
    · exact ⟨rfl, rfl, rfl, List.Subset.refl _, fun _ _ => rfl⟩
  generalize (if r.boot.fwFloorRaise then r.raiseFloor 0 (r.reg O.fwSecurityVersion) else r) = t at *
  obtain ⟨e, he, hcode⟩ := hevent
  refine ⟨(hkept.regs _ (by decide)).trans hstate, hkept.step.trans hstep, ?_, fun i hi h => ?_, ⟨e, hkept.events he, hcode⟩,
    hkept.mem.trans (hkeptMem.trans hmem)⟩
  · rw [hkept.power, hfails]
  · rw [hkept.regs _ (by unfold O.linkTestOwner O.floorRecSeq; omega), hfree i hi h]

theorem lastStep_ends (f : BootFinding) (hruns : s.Runs .management) (hgood : f.ok = true) (hstep : s.pkg.boot.step = 11) :
    ∃ t, exec (.bootStepDone f) s = .next t ∧ t.pkg.reg O.bootState = 3 ∧ t.pkg.boot.step = 0 ∧
      t.pkg.power.aon.bootFails = 0 ∧ (∀ d < 2, s.pkg.reg (O.linkTestOwner + d) = 1 → t.pkg.reg (O.linkTestOwner + d) = 0) ∧ RaisedEver t 0x2401 ∧
      SameMemory s t := by
  have hdoes := bootStepDone_ends s f hruns (by omega)
  have hend : s.pkg.endBootStep 11 f = s.pkg.completeBoot := if_pos hgood
  rw [hstep, hend] at hdoes
  obtain ⟨hstate, hdone, hfails, hfree, hevent, hmem⟩ := completeBoot_shows s.pkg
  exact ⟨_, hdoes, hstate, hdone, hfails, hfree, hevent, sameMemory_settle hmem⟩

/-! ### The operating system, and a recovery request -/

theorem objAt_osBoot : objAt O.osBoot = some ⟨O.osBoot, 1, 1, 1, 1, .wo, 1, 1, false⟩ := by decide +kernel
theorem objAt_recoveryRequest : objAt O.recoveryRequest = some ⟨O.recoveryRequest, 1, 1, 1, 1, .wo, 1, 1, false⟩ := by decide +kernel

theorem osBoot_early (pt : Path) (h : s.pkg.reg O.bootState ≠ 3) : Does (.osBoot pt 1) s s.pkg := by
  have hexec : exec (.osBoot pt 1) s = execOsBoot pt 1 s := rfl
  have hstands : s.pkg.osBootWrite pt 1 = s.pkg := by
    rw [Pkg.osBootWrite, objWrite_in_range objAt_osBoot (Nat.le_refl 1) (Nat.le_refl 1)]
    dsimp only
    rw [if_pos (.inl h)]
  simp only [Does, hexec, execOsBoot, on_next, hstands, ite_self]

/-- The core of hart 0 depends on the spare cores alone. -/
theorem hart0_of_spares {p q : Pkg} (h : ∀ i, q.reg (O.spareCore + i) = p.reg (O.spareCore + i)) : q.hart0 = p.hart0 := by
  have hhart : q.hartOf = p.hartOf := funext fun c => by rw [Pkg.hartOf, Pkg.hartOf, h]
  rw [Pkg.hart0, Pkg.hart0, hhart]

theorem osBoot_starts (pt : Path) (b : List Byte) (p1 : Pkg) (hruns : s.Runs (pathPlane pt)) (hstate : s.pkg.reg O.bootState = 3)
    (hfirst : s.pkg.boot.osStarted = false) (hlen : s.pkg.reg O.osPayloadLen ≠ 0) (hmax : s.pkg.reg O.osPayloadLen ≠ 2 ^ 32 - 1)
    (hlo : s.pkg.reg O.cmdWindowBase ≤ s.pkg.reg O.osPayloadAddr)
    (hhi : s.pkg.reg O.osPayloadAddr + s.pkg.reg O.osPayloadLen ≤ s.pkg.reg O.cmdWindowBase + 2 ^ 32)
    (hbytes : s.pkg.agentBytes ioA (s.pkg.reg O.osPayloadAddr) (s.pkg.reg O.osPayloadLen) = (some b, p1)) (hverify : p1.reg O.osVerify = 0) :
    ∃ t, exec (.osBoot pt 1) s = .next t ∧ t.pkg.boot.osStarted = true ∧ t.pkg.reg (O.coreState + p1.hart0) = 0 ∧
      t.pkg.measure 5 = digest256 (p1.measure 5 ++ digest256 b) := by
  have hexec : exec (.osBoot pt 1) s = execOsBoot pt 1 s := rfl
  have hextends := extend_extends p1 5 2 1 0 (digest256 b)
  have hmeasured := hextends.measured
  have hhart : (p1.extend 5 2 1 0 (digest256 b)).hart0 = p1.hart0 := hart0_of_spares fun i => hextends.other _
    (by unfold O.spareCore O.measureCount; omega) (by unfold O.spareCore O.measureLogDropped; omega)
  have hpasses : ¬ ((p1.extend 5 2 1 0 (digest256 b)).reg O.osVerify = 1 ∧ (!(p1.extend 5 2 1 0 (digest256 b)).payloadOk b) = true) := by
    rw [hextends.other _ (by decide) (by decide), hverify]
    rintro ⟨h, -⟩
    exact absurd h (by decide)
  rw [hexec, execOsBoot, on_runs s (pathPlane pt) _ hruns, Pkg.osBootWrite,
    objWrite_in_range objAt_osBoot (Nat.le_refl 1) (Nat.le_refl 1)]
  dsimp only
  rw [if_neg (by rw [hfirst]; rintro (h | h | h); exacts [h hstate, absurd h (by decide), hlen h]), if_neg (by omega), hbytes]
  dsimp only
  rw [if_neg hpasses, hhart]
  generalize p1.extend 5 2 1 0 (digest256 b) = q at *
  exact ⟨_, rfl, rfl, reg_setReg_self _ _ _, hmeasured⟩

theorem recoveryRequest_kept (pt : Path) (hruns : s.Runs (pathPlane pt)) :
    Does (.recoveryRequest pt 1) s (s.pkg.setBoot { s.pkg.boot with recoveryReq := true }) := by
  have hexec : exec (.recoveryRequest pt 1) s = execRecoveryRequest pt 1 s := rfl
  rw [Does, hexec, execRecoveryRequest, on_runs s (pathPlane pt) _ hruns, Pkg.recoveryRequestWrite,
    objWrite_in_range objAt_recoveryRequest (Nat.le_refl 1) (Nat.le_refl 1)]

end

/-- Settles O57: a step that fails holds the package or leads to recovery, and one that is done begins the next. -/
theorem bootSteps : Obligations.BootSteps :=
  ⟨bootStepDone_idle, bootStep_fails, fun s f hruns hgood =>
    ⟨firstStep_ends s f hruns hgood, sweepStep_ends s f hruns hgood, lastStep_ends s f hruns hgood⟩,
    osBoot_early, osBoot_starts, recoveryRequest_kept⟩

end Sys2Proof.Machine

namespace Sys2Proof.Machine

/-! ## Memory in its canonical form (log 4)

Words are written one at a time (`setWord`), and the resets filter or drop the cells; nothing else touches memory. Each function of the model keeps
the form because each of its branches does: a lemma for every function, by the shape of its definition. -/

/-- Memory is in its canonical form. -/
def Pkg.Canonical (p : Pkg) : Prop := Memory.wf p.mem = true

/-- What the agents, the Period's units and recovery run through keeps the form. -/
theorem canonical : UnitClosed Pkg.Canonical where
  same h hmem _ _ := (congrArg Memory.wf hmem).trans h
  reg _ _ h := h
  setWord a w h := setWord_wf _ a w h

/-- A command's outcome has its memory in canonical form. -/
def KeepsMemory (o : Host.Outcome State Fault Refusal) : Prop := ∀ t, o = .next t → t.MemoryCanonical

/-- The package of a result that there may be is canonical. -/
def OptionCanonical {α : Type} (pkg : α → Pkg) (o : Option α) : Prop := ∀ r, o = some r → (pkg r).Canonical

theorem wf_filter (f : Host.Cell → Bool) {m : List Host.Cell} (h : Memory.wf m = true) : Memory.wf (m.filter f) = true := by
  induction m with
  | nil => exact h
  | cons e r ih =>
    obtain ⟨a, b⟩ := e
    have hcons : (decide (b ≠ 0) && r.all (fun e => decide (a < e.1)) && Memory.wf r) = true := h
    rw [Bool.and_eq_true, Bool.and_eq_true] at hcons
    obtain ⟨⟨hb, hrising⟩, hr⟩ := hcons
    rw [List.filter_cons]
    split
    · show (decide (b ≠ 0) && (r.filter f).all (fun e => decide (a < e.1)) && Memory.wf (r.filter f)) = true
      rw [ih hr, hb, List.all_eq_true.mpr fun e he => List.all_eq_true.mp hrising e (List.mem_of_mem_filter he)]
      rfl
    · exact ih hr

namespace Canonical

section
variable {p q : Pkg}

theorem of_mem (h : p.Canonical) (hmem : q.mem = p.mem) : q.Canonical := (congrArg Memory.wf hmem).trans h

theorem of_nil (hmem : q.mem = []) : q.Canonical := congrArg Memory.wf hmem

theorem reset : Pkg.reset.Canonical := rfl

theorem ite {c : Prop} [Decidable c] (ht : p.Canonical) (he : q.Canonical) : (if c then p else q).Canonical := CoreClosed.ite ht he

theorem foldl {α : Type} {f : Pkg → α → Pkg} (hf : ∀ q a, q.Canonical → (f q a).Canonical) (l : List α) (h : p.Canonical) :
    (l.foldl f p).Canonical := CoreClosed.foldl hf l h

/-- A fold whose every round keeps the form of the package in its accumulator. -/
theorem foldl_of {α β : Type} {pkg : β → Pkg} {f : β → α → β} (hf : ∀ b a, (pkg b).Canonical → (pkg (f b a)).Canonical) (l : List α) {b : β}
    (h : (pkg b).Canonical) : (pkg (l.foldl f b)).Canonical := CoreClosed.foldl_of hf l h

/-- The package of a result that is taken apart. -/
theorem snd_ite {α : Type} {c : Prop} [Decidable c] {x y : α × Pkg} (ht : x.2.Canonical) (he : y.2.Canonical) : (if c then x else y).2.Canonical := by
  split
  · exact ht
  · exact he

theorem fst_ite {α : Type} {c : Prop} [Decidable c] {x y : Pkg × α} (ht : x.1.Canonical) (he : y.1.Canonical) : (if c then x else y).1.Canonical := by
  split
  · exact ht
  · exact he

theorem snd_mk {α : Type} {a : α} (h : q.Canonical) : (a, q).2.Canonical := h

theorem fst_mk {α : Type} {a : α} (h : q.Canonical) : (q, a).1.Canonical := h

theorem ite_of {β : Type} {pkg : β → Pkg} {c : Prop} [Decidable c] {x y : β} (ht : (pkg x).Canonical) (he : (pkg y).Canonical) :
    (pkg (if c then x else y)).Canonical := by
  split
  · exact ht
  · exact he

theorem of_some {α : Type} {pkg : α → Pkg} {x : α} (h : (pkg x).Canonical) : OptionCanonical pkg (some x) := fun _ hr => by cases hr; exact h

theorem some_pkg (h : p.Canonical) : OptionCanonical id (some p) := of_some h

theorem of_none {α : Type} {pkg : α → Pkg} : OptionCanonical pkg none := fun _ hr => nomatch hr

theorem option_ite {α : Type} {pkg : α → Pkg} {c : Prop} [Decidable c] {x y : Option α} (ht : OptionCanonical pkg x) (he : OptionCanonical pkg y) :
    OptionCanonical pkg (if c then x else y) := by
  split
  · exact ht
  · exact he

theorem snd_of {α : Type} {x : α × Pkg} {a : α} (hx : x = (a, q)) (h : x.2.Canonical) : q.Canonical := by
  rw [hx] at h
  exact h

theorem fst_of {α : Type} {x : Pkg × α} {a : α} (hx : x = (q, a)) (h : x.1.Canonical) : q.Canonical := by
  rw [hx] at h
  exact h

end

/-! ### The outcomes of a command -/

section
variable {s : State}

theorem settle {p : Pkg} (h : p.Canonical) : (s.settle p).MemoryCanonical := h

theorem next {t : State} (h : t.MemoryCanonical) : KeepsMemory (.next t) := fun _ ht => by cases ht; exact h

theorem fault (e : Fault) : KeepsMemory (.fault e) := fun _ ht => nomatch ht

theorem refused (e : Refusal) : KeepsMemory (.refused e) := fun _ ht => nomatch ht

theorem keeps_ite {c : Prop} [Decidable c] {x y : Host.Outcome State Fault Refusal} (ht : KeepsMemory x) (he : KeepsMemory y) :
    KeepsMemory (if c then x else y) := by
  split
  · exact ht
  · exact he

theorem go {f : Pkg → Pkg} (hf : ∀ {p : Pkg}, p.Canonical → (f p).Canonical) (h : s.pkg.Canonical) : KeepsMemory (s.go f) := next (hf h)

theorem on {f : Pkg → Pkg} (pl : Plane) (hf : ∀ {p : Pkg}, p.Canonical → (f p).Canonical) (h : s.pkg.Canonical) : KeepsMemory (s.on pl f) :=
  go (fun h => ite (hf h) h) h

theorem control (t : TileNo) {f : Pkg → Pkg} (hf : ∀ {p : Pkg}, p.Canonical → (f p).Canonical) (h : s.pkg.Canonical) :
    KeepsMemory (s.control t f) := on _ (fun h => ite (hf h) h) h

theorem slot (m : String) (ok lim : Bool) {f : Pkg → Pkg} (hf : ∀ {p : Pkg}, p.Canonical → (f p).Canonical) (h : s.pkg.Canonical) :
    KeepsMemory (s.slot m ok lim f) := keeps_ite (keeps_ite (on _ hf h) (fault _)) (fault _)

/-- A command that another runs within its own effect (`via`). -/
theorem via {f : State → Host.Outcome State Fault Refusal} (hf : ∀ {s : State}, s.pkg.Canonical → KeepsMemory (f s)) {p : Pkg}
    (h : p.Canonical) : (p.via f).Canonical := by
  unfold Pkg.via
  split
  case h_1 t ht => exact hf h t ht
  case h_2 => exact h

end

end Canonical

end Sys2Proof.Machine

namespace Sys2Proof.Machine

namespace Canonical

section
variable {p : Pkg} {s : State}

/-! ### The functions of `Machine/Ops.lean` -/

theorem setReg (k v : Nat) (h : p.Canonical) : (p.setReg k v).Canonical := h

theorem setShadow (k v : Nat) (h : p.Canonical) : (p.setShadow k v).Canonical := h

theorem bump (k n : Nat) (h : p.Canonical) : (p.bump k n).Canonical := setReg _ _ h

theorem bump16 (k n : Nat) (h : p.Canonical) : (p.bump16 k n).Canonical := setReg _ _ h

theorem bump64 (k n : Nat) (h : p.Canonical) : (p.bump64 k n).Canonical := setReg _ _ h

theorem bump32w (k n : Nat) (h : p.Canonical) : (p.bump32w k n).Canonical := setReg _ _ h

theorem setTile (t : Nat) (x : Tile) (h : p.Canonical) : (p.setTile t x).Canonical := h

theorem setPort (i : Nat) (x : PortSt) (h : p.Canonical) : (p.setPort i x).Canonical := h

theorem setQueue (q : Nat) (x : QueueSt) (h : p.Canonical) : (p.setQueue q x).Canonical := h

theorem c0Send (m : C0Msg) (skip : Nat) (h : p.Canonical) : (p.c0Send m skip).Canonical := by
  unfold Pkg.c0Send
  exact foldl (fun _ _ hq => ite (setPort _ _ hq) hq) _ h

theorem sendVote (payload : List Nat) (h : p.Canonical) : (p.sendVote payload).Canonical := by
  unfold Pkg.sendVote
  extract_lets _
  exact c0Send _ _ (canonical.emit _ h)

theorem objWrite (pt : Path) (k v : Nat) {f : Pkg → Pkg} (hf : ∀ {q : Pkg}, q.Canonical → (f q).Canonical) (h : p.Canonical) :
    (p.objWrite pt k v f).Canonical := by
  unfold Pkg.objWrite
  split
  · exact canonical.agent.refuse _ _ _ h
  · exact ite (canonical.agent.refuse _ _ _ h) (hf h)

theorem ownerWrite (w : Writer) (k v : Nat) (event unit : Nat) (h : p.Canonical) : (p.ownerWrite w k v event unit).Canonical := by
  unfold Pkg.ownerWrite
  split
  · exact setReg _ _ h
  · exact h
  · exact setReg _ _ h
  · split
    · exact canonical.raise _ _ _ (canonical.agent.refuse _ _ _ h)
    · exact canonical.raise _ _ _ h

theorem takeTail (h : p.Canonical) : p.takeTail.Canonical := h

/-! ### The functions of `Machine/Memory.lean` -/

theorem sramWrite (a : Nat) (v : Option W128) (h : p.Canonical) : (p.sramWrite a v).Canonical := canonical.setWord _ _ h

theorem anyReads (a n : Nat) (h : p.Canonical) : (p.anyReads a n).2.Canonical := by
  induction n generalizing a p with
  | zero => exact h
  | succ n ih => exact ih _ (canonical.agent.anyRead _ h)

theorem anyWriteBytes (a : Nat) (l : List Byte) (h : p.Canonical) : (p.anyWriteBytes a l).Canonical := by
  unfold Pkg.anyWriteBytes
  exact foldl (fun _ _ hq => canonical.agent.anyMerge _ _ _ hq) _ h

theorem anyBytes (a n : Nat) (h : p.Canonical) : (p.anyBytes a n).2.Canonical := by
  unfold Pkg.anyBytes
  extract_lets q
  have hq : q.2.Canonical := anyReads _ _ h
  exact hq

/-! ### The functions of `Machine/LinkOps.lean` -/

theorem freeCredit (i b : Nat) (h : p.Canonical) : (p.freeCredit i b).Canonical := setPort _ _ h

/-! ### The functions of `Machine/Coherence.lean` -/

theorem arrive (cyc : Nat) (alone : Bool) (q : Req) (h : p.Canonical) : (p.arrive cyc alone q).Canonical := by
  unfold Pkg.arrive
  extract_lets _ _ r t _
  have hr : r.Canonical := h
  have ht : t.Canonical := canonical.agent.dirCheck _ hr
  split
  · exact canonical.agent.tileReply _ _ _ hr
  · split
    · exact canonical.raise _ _ _ (canonical.agent.tileReply _ _ _ hr)
    · split
      · split
        · exact canonical.agent.tileReply _ _ _ (canonical.agent.queueWrite _ _ _ ht)
        · exact canonical.agent.enqueue _ ht
      · exact ite h ht

theorem arriveAll (idx : List Nat) (cyc : Nat) (h : p.Canonical) : (p.arriveAll idx cyc).Canonical := by
  unfold Pkg.arriveAll
  extract_lets _ _
  exact foldl (fun _ _ hq => arrive _ _ _ hq) _ h

/-! ### The functions of `Machine/SchedOps.lean` -/

theorem setSched (x : Sched) (h : p.Canonical) : (p.setSched x).Canonical := h

theorem setSeq (t : Nat) (x : Seqr) (h : p.Canonical) : (p.setSeq t x).Canonical := setTile _ _ h

theorem setStepc (x : StepCtl) (h : p.Canonical) : (p.setStepc x).Canonical := h

theorem requestSlip (h : p.Canonical) : p.requestSlip.Canonical := by
  unfold Pkg.requestSlip
  split
  · exact h
  · extract_lets _
    exact canonical.addSlip _ (bump _ _ (canonical.raise _ _ _ (canonical.flood _ _ _ h)))

theorem floodIn (x : C0In) (type : Nat) (payload : List Nat) {act : Pkg → Pkg} (hact : ∀ {q : Pkg}, q.Canonical → (act q).Canonical) (h :
    p.Canonical) :
    (p.floodIn x type payload act).Canonical := by
  unfold Pkg.floodIn
  extract_lets _ _ q
  have hq : q.Canonical := setSched _ h
  exact ite h (hact (c0Send _ _ hq))

theorem voidReport (r : VoteRec) (h : p.Canonical) : (p.voidReport r).Canonical := setStepc _ h

/-! ### The functions of `Machine/Operands.lean` -/

theorem bankUse (t cls : Nat) (cyc off n : Nat) (h : p.Canonical) : (p.bankUse t cls cyc off n).1.Canonical :=
  fst_ite h (ite (setTile _ _ h) (bump64 _ _ (setTile _ _ h)))

theorem bankRows (t cls : Nat) (cyc c : Nat) (off stride : Nat) (n rows : Nat) (h : p.Canonical) :
    (p.bankRows t cls cyc c off stride n rows).Canonical := by
  unfold Pkg.bankRows
  extract_lets _
  exact foldl (fun _ _ hq => bankUse _ _ _ _ _ hq) _ (setTile _ _ h)

/-! ### The functions of `Machine/Convert.lean` -/

theorem setSlotCnt (n : Nat) (c : SlotCnt) (h : p.Canonical) : (p.setSlotCnt n c).Canonical := h

/-! ### The functions of `Machine/Flags.lean` -/

theorem setStepPoison (t : Nat) (h : p.Canonical) : (p.setStepPoison t).Canonical := setTile _ _ h

theorem poisonedOperand (t : Nat) (h : p.Canonical) : (p.poisonedOperand t).Canonical := setStepPoison _ (canonical.raise _ _ _ h)

/-! ### The functions of `Machine/Matrix.lean` -/

theorem setMx (t : Nat) (m : Matrix) (h : p.Canonical) : (p.setMx t m).Canonical := setTile _ _ h

theorem addDummy (t n : Nat) (h : p.Canonical) : (p.addDummy t n).Canonical := bump64 _ _ h

theorem settleGap (t c : Nat) (h : p.Canonical) : (p.settleGap t c).Canonical := by
  unfold Pkg.settleGap
  extract_lets _
  exact ite (addDummy _ _ h) h

theorem landRows (t : Nat) (s : Stream) (n : Nat) (h : p.Canonical) : (p.landRows t s n).Canonical := by
  unfold Pkg.landRows
  extract_lets _ _ _ _ _ _
  exact ite (canonical.raise _ _ _ (bump _ _ (setMx _ _ h))) (setMx _ _ h)

theorem landDue (t c : Nat) (h : p.Canonical) : (p.landDue t c).Canonical := by
  unfold Pkg.landDue
  extract_lets _
  exact ite h (foldl (fun _ _ hq => landRows _ _ _ hq) _ (setMx _ _ h))

theorem landStream_kept (t : Nat) (h : p.Canonical) : (landStream p t).Canonical := by
  unfold landStream
  extract_lets _
  split
  · exact h
  · extract_lets q _
    have hq : q.Canonical := landRows _ _ _ (setMx _ _ h)
    exact setMx _ _ hq

theorem issueMnop_kept (a : MSlot) (h : p.Canonical) : (issueMnop p a).Canonical := by
  unfold issueMnop
  extract_lets _ _ q _ _
  have hq : q.Canonical := settleGap _ _ h
  exact ite h (setMx _ _ (addDummy _ _ hq))

theorem issueMlw_kept (a : MSlot) (h : p.Canonical) : (issueMlw p a).Canonical := by
  unfold issueMlw
  extract_lets _ _ _ _ _ _ q r
  have hq : q.Canonical := setMx _ _ h
  have hr : r.Canonical := bankRows _ _ _ _ _ _ _ _ hq
  exact ite (poisonedOperand _ hr) hr

theorem issueStream_kept (trans : Bool) (a : MSlot) (h : p.Canonical) : (issueStream p trans a).Canonical := by
  unfold issueStream
  extract_lets _ _ q _ _ r t _ u v
  have hq : q.Canonical := settleGap _ _ h
  have hr : r.Canonical := bump64 _ _ hq
  have ht : t.Canonical := setMx _ _ hr
  have hu : u.Canonical := bankRows _ _ _ _ _ _ _ _ ht
  have hv : v.Canonical := ite (poisonedOperand _ hu) hu
  exact ite (canonical.raise _ _ _ hv) hv

theorem issueMdr_kept (a : MSlot) (h : p.Canonical) : (issueMdr p a).Canonical := by
  unfold issueMdr
  extract_lets _ _ _ _
  exact foldl (fun _ _ hq => foldl (fun _ _ hr => sramWrite _ _ hr) _ hq) _ (bankRows _ _ _ _ _ _ _ _ h)

theorem drainRows (t c : Nat) (h : p.Canonical) : (p.drainRows t c).Canonical := by
  unfold Pkg.drainRows
  extract_lets _ _ q r
  have hq : q.Canonical := setTile _ _ h
  have hr : r.Canonical := ite hq (bump64 _ _ hq)
  exact foldl (fun _ _ ht => canonical.raise _ _ _ ht) _ hr

theorem issueMdv_kept (a : MSlot) (h : p.Canonical) : (issueMdv p a).Canonical := by
  unfold issueMdv
  extract_lets _ _ _ _ _ _ _ _
  exact drainRows _ _ (setTile _ _ h)

theorem issueMclr_kept (a : MSlot) (h : p.Canonical) : (issueMclr p a).Canonical := by
  unfold issueMclr
  extract_lets _ _ _ _ _
  exact setMx _ _ h

theorem issueMflg_kept (a : MSlot) (h : p.Canonical) : (issueMflg p a).Canonical := by
  unfold issueMflg
  extract_lets _ _ _ _ q
  have hq : q.Canonical := setTile _ _ h
  exact ite (canonical.raise _ _ _ (bump _ _ hq)) hq

theorem issueM_kept (op : MOp) (a : MSlot) (h : p.Canonical) : (issueM p op a).Canonical := by
  unfold issueM
  split
  · exact issueMlw_kept _ h
  · exact issueStream_kept _ _ h
  · exact issueStream_kept _ _ h
  · exact issueMdr_kept _ h
  · exact issueMdv_kept _ h
  · exact issueMclr_kept _ h

theorem slotM_kept (op : MOp) (a : MSlot) (h : p.Canonical) : (slotM p op a).Canonical := by
  unfold slotM
  extract_lets q _ _
  have hq : q.Canonical := drainRows _ _ (landDue _ _ h)
  exact ite hq (ite (canonical.raise _ _ _ (setMx _ _ hq)) (issueM_kept _ _ hq))

theorem execMnop_kept (a : MSlot) (h : s.pkg.Canonical) : KeepsMemory (execMnop a s) :=
  slot _ _ _ (fun hq => ite (issueMnop_kept _ (landDue _ _ hq)) hq) h

theorem execMlw_kept (a : MSlot) (h : s.pkg.Canonical) : KeepsMemory (execMlw a s) := slot _ _ _ (fun hq => slotM_kept _ _ hq) h

theorem execMws_kept (a : MSlot) (h : s.pkg.Canonical) : KeepsMemory (execMws a s) := slot _ _ _ (fun hq => slotM_kept _ _ hq) h

theorem execMwt_kept (a : MSlot) (h : s.pkg.Canonical) : KeepsMemory (execMwt a s) := slot _ _ _ (fun hq => slotM_kept _ _ hq) h

theorem execMdr_kept (a : MSlot) (h : s.pkg.Canonical) : KeepsMemory (execMdr a s) := slot _ _ _ (fun hq => slotM_kept _ _ hq) h

theorem execMdv_kept (a : MSlot) (h : s.pkg.Canonical) : KeepsMemory (execMdv a s) := slot _ _ _ (fun hq => slotM_kept _ _ hq) h

theorem execMclr_kept (a : MSlot) (h : s.pkg.Canonical) : KeepsMemory (execMclr a s) := slot _ _ _ (fun hq => slotM_kept _ _ hq) h

theorem execMflg_kept (a : MSlot) (h : s.pkg.Canonical) : KeepsMemory (execMflg a s) :=
  slot _ _ _ (fun hq => ite (issueMflg_kept _ (landDue _ _ hq)) hq) h

theorem execStreamResultWrite_kept (t : TileNo) (h : s.pkg.Canonical) : KeepsMemory (execStreamResultWrite t s) :=
  on _ (fun hq => landStream_kept _ hq) h

theorem execMatrixInterlockRelease_kept (t : TileNo) (cyc : Nat) (h : s.pkg.Canonical) : KeepsMemory (execMatrixInterlockRelease t cyc s) := by
  unfold execMatrixInterlockRelease
  refine on _ (fun hq => ?_) h
  extract_lets r _
  have hr : r.Canonical := landDue _ _ hq
  split
  · exact hr
  · extract_lets _ u
    have hu : u.Canonical := bump64 _ _ hr
    exact ite hr (issueM_kept _ _ (setMx _ _ hu))

theorem scrubCells (t : Nat) (sel : Bool) (k : Nat) (h : p.Canonical) : (p.scrubCells t sel k).Canonical := by
  unfold Pkg.scrubCells
  extract_lets _ _ _
  split
  · exact h
  · exact bump _ _ (setMx _ _ h)
  · exact setStepPoison _ (canonical.raise _ _ _ (setMx _ _ h))

theorem execWeightRegisterScrub_kept (t : TileNo) (h : s.pkg.Canonical) : KeepsMemory (execWeightRegisterScrub t s) :=
  on _ (fun hq => foldl (fun _ _ hr => scrubCells _ _ _ hr) _ (setMx _ _ hq)) h

theorem execBistOwnerWrite_kept (w : Writer) (d : DieNo) (v : Nat) (h : s.pkg.Canonical) : KeepsMemory (execBistOwnerWrite w d v s) := by
  unfold execBistOwnerWrite
  refine on _ (fun hq => ?_) h
  split
  · split
    · exact canonical.agent.refuse _ _ _ hq
    · exact hq
  · exact ownerWrite _ _ _ _ _ hq

theorem execBistRequest_kept (pt : Path) (d : DieNo) (v : Nat) (h : s.pkg.Canonical) : KeepsMemory (execBistRequest pt d v s) :=
  on _ (fun hq => ite (canonical.agent.refuse _ _ _ hq) (ite (canonical.agent.refuse _ _ _ hq) (ite (canonical.agent.refuse _ _ _ hq) (setReg _ _
      hq)))) h

theorem tileTested_kept (owner : Nat) (failed : Bool) (q : Nat) (h : p.Canonical) : (tileTested owner failed p q).Canonical := by
  unfold tileTested
  extract_lets _ _ r t u _
  have hr : r.Canonical := h
  have ht : t.Canonical := setReg _ _ hr
  have hu : u.Canonical := ht
  split
  · split
    · exact canonical.retireTile _ ht
    · split
      · split
        · exact setShadow _ _ hu
        · exact hu
      · exact ht
  · exact h

theorem execBistComplete_kept (d : DieNo) (failed : List (Fin 52)) (h : s.pkg.Canonical) : KeepsMemory (execBistComplete d failed s) :=
  on _ (fun hq => ite hq (ite (foldl (fun _ _ hr => tileTested_kept _ _ _ hr) _ hq) (setReg _ _ (foldl (fun _ _ hr => tileTested_kept _ _ _ hr) _
      hq)))) h

theorem execTileSramWindowAccess_kept (a : MemAccess) (h : s.pkg.Canonical) : KeepsMemory (execTileSramWindowAccess a s) := by
  unfold execTileSramWindowAccess
  refine on _ (fun hq => ?_) h
  split
  · exact ite hq (canonical.emit _ (anyReads _ _ hq))
  · exact ite (anyWriteBytes _ _ hq) hq

/-! ### The functions of `Machine/Vector.lean` -/

theorem setVec (t : Nat) (v : VecEng) (h : p.Canonical) : (p.setVec t v).Canonical := setTile _ _ h

theorem vecPoison (t : Nat) (met : Bool) (h : p.Canonical) : (p.vecPoison t met).Canonical := ite (setStepPoison _ (canonical.raise _ _ _ h)) h

theorem vStore (t a : Nat) (x : VVal) (m : W64) (mz : Bool) (h : p.Canonical) : (p.vStore t a x m mz).Canonical := by
  unfold Pkg.vStore
  exact foldl (fun _ _ hq => ite (sramWrite _ _ hq) (ite (canonical.agent.sramMerge _ _ _ hq) hq)) _ h

theorem vNarrow (t : Nat) (x : VDesc) (a g e : Nat) (stoch : Bool) (n : Narrow) (h : p.Canonical) : (p.vNarrow t x a g e stoch n).Canonical := by
  unfold Pkg.vNarrow
  extract_lets _ _ _ _ _ _ _ _ _ _ _ _ _ _ q _ _ r _ u _ _ v
  have hq : q.Canonical := foldl (fun _ _ hq => sramWrite _ _ hq) _ h
  have hr : r.Canonical := ite (foldl (fun _ _ hr => canonical.agent.sramMerge _ _ _ hr) _ hq) hq
  have hu : u.Canonical := ite hr (setSlotCnt _ _ hr)
  have hv : v.Canonical := ite (ite (canonical.raise _ _ _ hu) (ite hu (canonical.raise _ _ _ (setSlotCnt _ _ hu)))) hu
  exact ite (canonical.raise _ _ _ hv) hv

theorem vLanes_kept (a : VRegForm) (c n : Nat) (f : W32 → W32 → W32 → W32) (lat : Nat) (watch : Bool) (h : p.Canonical) :
    (vLanes p a c n f lat watch).Canonical := by
  unfold vLanes
  extract_lets _ _ _ _ _ _ _ _ _ _ _
  exact vecPoison _ _ (setVec _ _ h)

theorem runVcmp_kept (a : VCmpForm) (c : Nat) (h : p.Canonical) : (runVcmp p a c).Canonical := by
  unfold runVcmp
  extract_lets _ _ _ _ _ _ _ _
  exact vecPoison _ _ (setVec _ _ h)

theorem runVsel_kept (a : VRegForm) (c : Nat) (h : p.Canonical) : (runVsel p a c).Canonical := by
  unfold runVsel
  extract_lets _ _ _ _ _ _ _
  exact vecPoison _ _ (setVec _ _ h)

theorem runVperm_kept (a : VRegForm) (c : Nat) (h : p.Canonical) : (runVperm p a c).Canonical := by
  unfold runVperm
  extract_lets _ _ _ _ _ _ _ _ _ _ _
  exact vecPoison _ _ (setVec _ _ h)

theorem vMasks_kept (a : VMaskForm) (c : Nat) (f : W64 → W64 → W64) (h : p.Canonical) : (vMasks p a c f).Canonical := by
  unfold vMasks
  extract_lets _ _ _
  exact setVec _ _ h

theorem runVld_kept (a : VMemForm) (c : Nat) (h : p.Canonical) : (runVld p a c).Canonical := by
  unfold runVld
  extract_lets _ _ _ _ _ _ _ _
  exact vecPoison _ _ (bankRows _ _ _ _ _ _ _ _ (setVec _ _ h))

theorem storeBanks (t a c : Nat) (m : W64) (mz : Bool) (h : p.Canonical) : (p.storeBanks t a c m mz).Canonical := by
  unfold Pkg.storeBanks
  extract_lets _
  exact ite (bankRows _ _ _ _ _ _ _ _ h) (bankRows _ _ _ _ _ _ _ _ h)

theorem narrowBanks (t : Nat) (x : VDesc) (a g c : Nat) (h : p.Canonical) : (p.narrowBanks t x a g c).Canonical := by
  unfold Pkg.narrowBanks
  extract_lets q
  have hq : q.Canonical := bankRows _ _ _ _ _ _ _ _ h
  exact ite (bankRows _ _ _ _ _ _ _ _ hq) hq

theorem runVst_kept (a : VMemForm) (c : Nat) (h : p.Canonical) : (runVst p a c).Canonical := by
  unfold runVst
  extract_lets _ _ _ _ _ _ q
  have hq : q.Canonical := storeBanks _ _ _ _ _ (setVec _ _ h)
  exact vecPoison _ _ (vStore _ _ _ _ _ hq)

theorem runVnst_kept (a : VMemForm) (c : Nat) (h : p.Canonical) : (runVnst p a c).Canonical := by
  unfold runVnst
  extract_lets _ _ _ _ _ _ _ _ q
  have hq : q.Canonical := narrowBanks _ _ _ _ _ (setVec _ _ h)
  exact vecPoison _ _ (vNarrow _ _ _ _ _ _ _ hq)

theorem runVldq_kept (a : VMemForm) (c : Nat) (h : p.Canonical) : (runVldq p a c).Canonical := by
  unfold runVldq
  extract_lets _ _
  split
  · exact canonical.raise _ _ _ (setVec _ _ h)
  · extract_lets _ _
    exact drainRows _ _ (vecPoison _ _ (setVec _ _ h))

theorem runVrst_kept (a : VMemForm) (x2 : Nat) (h : p.Canonical) : (runVrst p a x2).Canonical := by
  unfold runVrst
  extract_lets _
  exact setVec _ _ h

theorem runVred_kept (a : VRedForm) (x2 : Nat) (h : p.Canonical) : (runVred p a x2).Canonical := by
  unfold runVred
  extract_lets _ _ _ _ _ _
  exact vecPoison _ _ (setVec _ _ h)

theorem runVrget_kept (a : VFoldForm) (c : Nat) (h : p.Canonical) : (runVrget p a c).Canonical := by
  unfold runVrget
  extract_lets _ _ _ _ _ _
  exact vecPoison _ _ (setVec _ _ h)

theorem runVflg_kept (a : VFlgForm) (c : Nat) (h : p.Canonical) : (runVflg p a c).Canonical := by
  unfold runVflg
  extract_lets _ _ _ _ q
  have hq : q.Canonical := setVec _ _ h
  exact ite (canonical.raise _ _ _ (bump _ _ hq)) hq

/-! ### The functions of `Machine/Sequencer.lean` -/

theorem fetch (t : Nat) (h : p.Canonical) : (p.fetch t).Canonical := by
  unfold Pkg.fetch
  extract_lets _ _
  split
  · exact h
  · split
    · exact h
    · exact setTile _ _ h
    · exact canonical.raise _ _ _ (setSeq _ _ h)

theorem goto (t pc : Nat) (h : p.Canonical) : (p.goto t pc).Canonical := by
  unfold Pkg.goto
  extract_lets _
  exact ite (fetch _ (setSeq _ _ h)) h

theorem advance (t : Nat) (h : p.Canonical) : (p.advance t).Canonical := goto _ _ h

theorem passWait (t : Nat) (h : p.Canonical) : (p.passWait t).Canonical := by
  unfold Pkg.passWait
  extract_lets _ _
  exact advance _ (setTile _ _ h)

theorem execCnop_kept (t : TileNo) (h : s.pkg.Canonical) : KeepsMemory (execCnop t s) := control _ (fun hq => advance _ hq) h

theorem execCwait_kept (t : TileNo) (target : BitVec 27) (h : s.pkg.Canonical) : KeepsMemory (execCwait t target s) :=
  control _ (fun hq => ite (passWait _ (setSeq _ _ hq)) (setSeq _ _ hq)) h

theorem execCarr_kept (t : TileNo) (win : Fin 16) (slack : BitVec 7) (count : BitVec 16) (h : s.pkg.Canonical) :
    KeepsMemory (execCarr t win slack count s) := by
  unfold execCarr
  split
  · exact fault _
  · refine control _ (fun hq => ?_) h
    extract_lets _ _
    split
    · exact passWait _ (setTile _ _ hq)
    · exact setSeq _ _ hq

theorem execHeldBundleRelease_kept (t : TileNo) (h : s.pkg.Canonical) : KeepsMemory (execHeldBundleRelease t s) := by
  unfold execHeldBundleRelease
  refine on _ (fun hq => ?_) h
  extract_lets _ _ _
  split
  · exact hq
  · exact ite (passWait _ (setTile _ _ hq)) hq
  · split
    · exact passWait _ (setTile _ _ hq)
    · exact hq
  · exact ite (setTile _ _ hq) hq

theorem execCloop_kept (t : TileNo) (lc : Fin 4) (iterations : BitVec 16) (h : s.pkg.Canonical) : KeepsMemory (execCloop t lc iterations s) :=
  keeps_ite (fault _) (keeps_ite (fault _) (control _ (fun hq => ite (goto _ _ hq) (advance _ (setSeq _ _ hq))) h))

theorem execCnext_kept (t : TileNo) (lc : Fin 4) (h : s.pkg.Canonical) : KeepsMemory (execCnext t lc s) := by
  unfold execCnext
  split
  · exact fault _
  · exact keeps_ite (fault _) (control _ (fun hq => ite (goto _ _ (setSeq _ _ hq)) (advance _ (setSeq _ _ hq))) h)

theorem fixVoteWord (t v : Nat) (h : p.Canonical) : (p.fixVoteWord t v).Canonical := by
  unfold Pkg.fixVoteWord
  extract_lets _
  split
  · exact setTile _ _ h
  · exact h

theorem cvote (t d v : Nat) (panel vector : Bool) (h : p.Canonical) : (p.cvote t d v panel vector).Canonical := by
  unfold Pkg.cvote
  extract_lets _ _ q _ r u w x _ y
  have hq : q.Canonical := setStepc _ h
  have hr : r.Canonical := ite (voidReport _ hq) hq
  have hu : u.Canonical := ite (fixVoteWord _ _ hr) hr
  have hx : x.2.Canonical := canonical.fresh (canonical.fresh hu)
  have hy : y.Canonical := by
    simp only [y]
    split
    · exact hu
    · split
      · exact ite (voidReport _ hu) hu
      · exact ite (voidReport _ hx) hx
  exact ite (voidReport _ hy) hy

theorem execCvote_kept (t : TileNo) (desc : Fin 64) (vreg : Fin 32) (src : BitVec 2) (h : s.pkg.Canonical) :
    KeepsMemory (execCvote t desc vreg src s) :=
  keeps_ite (fault _) (control _ (fun hq => advance _ (cvote _ _ _ _ _ hq)) h)

theorem startClause (t s : Nat) (b c : Nat) (h : p.Canonical) : (p.startClause t s b c).Canonical := by
  unfold Pkg.startClause
  extract_lets _ q _ r _
  have hq : q.Canonical := settleGap _ _ h
  have hr : r.Canonical := ite h (setMx _ _ (addDummy _ _ hq))
  split
  · exact h
  · exact fetch _ (setSeq _ _ hr)

theorem dropLate (c : LateCase) (h : p.Canonical) : (p.dropLate c).Canonical := by
  unfold Pkg.dropLate
  split
  · exact h
  · exact setSched _ h

theorem execCend_kept (t : TileNo) (cyc : Nat) (h : s.pkg.Canonical) : KeepsMemory (execCend t cyc s) := by
  unfold execCend
  refine control _ (fun hq => ?_) h
  extract_lets _ r
  have hr : r.Canonical := setSeq _ _ hq
  split
  · exact hq
  · split
    · exact hr
    · exact startClause _ _ _ _ (dropLate _ hr)

theorem execClauseStart_kept (t : TileNo) (sentence : Fin 64) (cyc : Nat) (h : s.pkg.Canonical) :
    KeepsMemory (execClauseStart t sentence cyc s) := by
  unfold execClauseStart
  refine on _ (fun hq => ?_) h
  split
  · exact hq
  · extract_lets _
    exact ite hq (ite hq (ite (setSeq _ _ hq) (startClause _ _ _ _ hq)))

theorem execClauseStoreScrub_kept (t : TileNo) (h : s.pkg.Canonical) : KeepsMemory (execClauseStoreScrub t s) := by
  unfold execClauseStoreScrub
  refine on _ (fun hq => ?_) h
  extract_lets _ _ _ r _ _
  have hr : r.Canonical := setSeq _ _ hq
  split
  · exact hr
  · exact setTile _ _ hr
  · exact ite hq (canonical.raise _ _ _ (setSeq _ _ hr))

theorem execClauseStoreRefetch_kept (t : TileNo) (h : s.pkg.Canonical) : KeepsMemory (execClauseStoreRefetch t s) := by
  unfold execClauseStoreRefetch
  refine on _ (fun hq => ?_) h
  extract_lets _
  split
  · split
    · rename_i q heq2
      have hq : q.Canonical := snd_of heq2 (canonical.agent.agentRead _ _ _ hq)
      extract_lets _ _
      exact setTile _ _ hq
    · rename_i q _ heq2
      have hq : q.Canonical := snd_of heq2 (canonical.agent.agentRead _ _ _ hq)
      exact hq
  · exact hq

/-! ### The functions of `Machine/Move.lean` -/

theorem xadvance (t d : Nat) (h : p.Canonical) : (p.xadvance t d).Canonical := by
  unfold Pkg.xadvance
  extract_lets _ _ _ _
  exact setTile _ _ h

theorem credit (t w : Nat) (h : p.Canonical) : (p.credit t w).Canonical := by
  unfold Pkg.credit
  extract_lets _ _
  exact ite (setTile _ _ h) (canonical.declareFailed (canonical.raise _ _ _ h))

theorem landWords (t off : Nat) (ws : List (Option W128)) (h : p.Canonical) : (p.landWords t off ws).Canonical := by
  unfold Pkg.landWords
  exact foldl (fun _ _ hq => sramWrite _ _ hq) _ h

theorem landFlit (t off win : Nat) (ws : List (Option W128)) (h : p.Canonical) : (p.landFlit t off win ws).Canonical := by
  unfold Pkg.landFlit
  extract_lets q
  have hq : q.Canonical := landWords _ _ _ h
  exact credit _ _ (ite (setStepPoison _ hq) hq)

theorem execFlitCredit_kept (i : Nat) (h : s.pkg.Canonical) : KeepsMemory (execFlitCredit i s) := by
  unfold execFlitCredit
  refine on _ (fun hq => ?_) h
  split
  · exact hq
  · extract_lets r
    have hr : r.Canonical := hq
    split
    · exact landFlit _ _ _ _ hr
    · exact credit _ _ hr
    · extract_lets _
      exact credit _ _ (setTile _ _ hr)

theorem doneCredit (t : Nat) (x : XDesc) (h : p.Canonical) : (p.doneCredit t x).Canonical := ite (canonical.agent.pushFlit _ h) h

theorem move {s : State} (m : String) (a : XSlot) (send bucket : Bool) (lim : XDesc → Tile → Nat → Bool) {f : Pkg → XDesc → Tile → Nat → Pkg}
    (hf : ∀ {p : Pkg} x ti n, p.Canonical → (f p x ti n).Canonical) (h : s.pkg.Canonical) : KeepsMemory (s.move m a send bucket lim f) :=
  slot _ _ _ (fun hq => ite hq (xadvance _ _ (hf _ _ _ hq))) h

theorem execXnop_kept (_t : TileNo) (h : s.pkg.Canonical) : KeepsMemory (execXnop _t s) := on _ (fun hq => hq) h

theorem execXsend_kept (a : XSlot) (h : s.pkg.Canonical) : KeepsMemory (execXsend a s) := by
  unfold execXsend
  refine move _ _ _ _ _ (fun _ _ _ hq => ?_) h
  extract_lets _ _ _
  refine foldl (fun _ _ hr => ?_) _ hq
  extract_lets _ t
  have ht : t.Canonical := by
    simp only [t]
    split
    · exact canonical.agent.pushFlit _ hr
    · split
      · exact canonical.raise _ _ _ hr
      · exact canonical.agent.originate _ _ _ _ _ _ hr
  exact doneCredit _ _ ht

theorem flitRequests (a die : Nat) (kind : ReqKind) (data : Nat → List PWord) (tag : Nat → Tag) (discard : Bool) (h : p.Canonical) :
    (p.flitRequests a die kind data tag discard).Canonical := by
  unfold Pkg.flitRequests
  extract_lets _ _ _ q
  have hq : q.Canonical := ite h h
  exact foldl (fun _ _ hr => canonical.agent.request _ hr) _ hq

theorem execXget_kept (a : XSlot) (h : s.pkg.Canonical) : KeepsMemory (execXget a s) :=
  move _ _ _ _ _ (fun _ _ _ hq => foldl (fun _ _ hr => flitRequests _ _ _ _ _ _ hr) _ hq) h

theorem execXput_kept (a : XSlot) (h : s.pkg.Canonical) : KeepsMemory (execXput a s) :=
  move _ _ _ _ _ (fun _ _ _ hq => foldl (fun _ _ hr => doneCredit _ _ (setTile _ _ (flitRequests _ _ _ _ _ _ hr))) _ hq) h

theorem execXpub_kept (t : TileNo) (h : s.pkg.Canonical) : KeepsMemory (execXpub t s) := control _ (fun hq => ite hq (setSeq _ _ hq)) h

end

end Canonical

end Sys2Proof.Machine

namespace Sys2Proof.Machine

namespace Canonical

section
variable {p : Pkg} {s : State}

/-! ### The functions of `Machine/Schedule.lean` -/

theorem noteLate (c : LateCase) (h : p.Canonical) : (p.noteLate c).Canonical := by
  unfold Pkg.noteLate
  split
  · exact h
  · extract_lets _ q r t _ u
    have hq : q.Canonical := bump _ _ (canonical.raise _ _ _ h)
    have hr : r.Canonical := by
      simp only [r]
      split
      · exact canonical.raise _ _ _ hq
      · exact bump _ _ (canonical.raise _ _ _ hq)
      · exact hq
    have ht : t.Canonical := setReg _ _ hr
    have hu : u.Canonical := by
      simp only [u]
      split
      · exact setSeq _ _ ht
      · exact setSched _ ht
    exact requestSlip hu

theorem execLateCase_kept (c : LateCase) (h : s.pkg.Canonical) : KeepsMemory (execLateCase c s) := on _ (fun hq => noteLate _ hq) h

theorem execSlipRequestRepeat_kept (c : LateCase) (h : s.pkg.Canonical) : KeepsMemory (execSlipRequestRepeat c s) := by
  unfold execSlipRequestRepeat
  refine on _ (fun hq => ?_) h
  split
  · exact hq
  · extract_lets _ _ _
    exact ite (requestSlip (setSched _ hq)) hq

theorem execHoldLimitExpiry_kept (c : LateCase) (h : s.pkg.Canonical) : KeepsMemory (execHoldLimitExpiry c s) := by
  unfold execHoldLimitExpiry
  refine on _ (fun hq => ?_) h
  split
  · exact hq
  · exact ite (canonical.declareFailed (canonical.raise _ _ _ hq)) hq

theorem execSlipRequest_kept (x : C0In) (requester beat : Nat) (h : s.pkg.Canonical) : KeepsMemory (execSlipRequest x requester beat s) := by
  unfold execSlipRequest
  refine on _ (fun hq => ?_) h
  refine floodIn _ _ _ (fun hr => ?_) hq
  split
  · exact hr
  · exact canonical.addSlip _ hr

theorem startSlip (x : Slip) (h : p.Canonical) : (p.startSlip x).Canonical := by
  unfold Pkg.startSlip
  extract_lets _ q
  have hq : q.Canonical := setSched _ h
  exact ite (bump _ _ (canonical.raise _ _ _ hq)) hq

theorem execSlipHoldStart_kept (h : s.pkg.Canonical) : KeepsMemory (execSlipHoldStart s) := by
  unfold execSlipHoldStart
  refine on _ (fun hq => ?_) h
  split
  · exact startSlip _ hq
  · exact hq

theorem closeSave (h : p.Canonical) : p.closeSave.Canonical := by
  unfold Pkg.closeSave
  split
  · exact h
  · exact ite (setReg _ _ (setReg _ _ h)) h

theorem endHold (h : p.Canonical) : p.endHold.Canonical := by
  unfold Pkg.endHold
  extract_lets _ q
  have hq : q.Canonical := setSched _ h
  split
  · exact startSlip _ hq
  · exact closeSave hq

theorem execSlipHoldEnd_kept (h : s.pkg.Canonical) : KeepsMemory (execSlipHoldEnd s) := by
  unfold execSlipHoldEnd
  refine on _ (fun hq => ?_) h
  split
  · exact hq
  · exact ite (endHold hq) hq

theorem tickBeat (h : p.Canonical) : p.tickBeat.Canonical := by
  unfold Pkg.tickBeat
  extract_lets _ q
  have hq : q.Canonical := setReg _ _ h
  split
  · exact hq
  · exact ite (setReg _ _ hq) hq

theorem growLate (h : p.Canonical) : p.growLate.Canonical := by
  unfold Pkg.growLate
  extract_lets _ _
  exact setReg _ _ (setSched _ h)

/-! ### The functions of `Machine/Agreement.lean` -/

theorem setEngine (e : Bool) (x : Engine) (h : p.Canonical) : (p.setEngine e x).Canonical := h

theorem setChan (e : Bool) (ch : Nat) (c : ChanSt) (h : p.Canonical) : (p.setChan e ch c).Canonical := setEngine _ _ h

theorem raiseOnce (e : Bool) (code bucket : Nat) (h : p.Canonical) : (p.raiseOnce e code bucket).Canonical :=
  ite h (canonical.raise _ _ _ (setEngine _ _ h))

theorem scaleEnt (i : Image) (e : Bool) (n : Nat) (h : p.Canonical) : (p.scaleEnt i e n).2.Canonical := by
  unfold Pkg.scaleEnt
  extract_lets _
  split
  · rename_i q heq
    have hq : q.Canonical := snd_of heq (canonical.agent.agentBytes _ _ _ h)
    exact hq
  · rename_i q heq
    have hq : q.Canonical := snd_of heq (canonical.agent.agentBytes _ _ _ h)
    exact ite hq (canonical.agent.agentWrite _ _ _ hq)

theorem pendScale (i : Image) (e : Bool) (b : BucketEnt) (hd : ChunkHdr) (h : p.Canonical) : (p.pendScale i e b hd).Canonical := by
  unfold Pkg.pendScale
  split
  · exact h
  · split
    · rename_i q heq
      have hq : q.Canonical := snd_of heq (scaleEnt _ _ _ h)
      exact hq
    · rename_i q heq
      have hq : q.Canonical := snd_of heq (scaleEnt _ _ _ h)
      extract_lets _ _ _ _ _ r
      have hr : r.Canonical := canonical.agent.agentWrite _ _ _ hq
      exact ite (canonical.raise _ _ _ hr) hr

theorem sendChunk (c : ChanEnt) (x : Chunk) (h : p.Canonical) : (p.sendChunk c x).Canonical := by
  unfold Pkg.sendChunk
  split
  · exact canonical.raise _ _ _ h
  · exact foldl (fun _ _ hq => canonical.agent.originate _ _ _ _ _ _ hq) _ h

theorem deliverChunk (c : ChanEnt) (b : BucketEnt) (x : Chunk) (h : p.Canonical) : (p.deliverChunk c b x).Canonical := by
  unfold Pkg.deliverChunk
  extract_lets _ _ _ _ _
  exact ite (foldl (fun _ _ hq => canonical.agent.pushFlit _ hq) _ h) (foldl (fun _ _ hq => canonical.agent.pushFlit _ hq) _ h)

theorem reportNf (hd : ChunkHdr) (h : p.Canonical) : (p.reportNf hd).Canonical := ite (voidReport _ h) h

theorem finalChunk (i : Image) (c : ChanEnt) (b : BucketEnt) (x : Chunk) (part : Nat) (h : p.Canonical) :
    (p.finalChunk i c b x part).Canonical := by
  unfold Pkg.finalChunk
  extract_lets _ q r
  have hq : q.Canonical := ite h (pendScale _ _ _ _ (reportNf _ h))
  have hr : r.Canonical := ite (raiseOnce _ _ _ (bump _ _ hq)) hq
  exact ite hq (deliverChunk _ _ _ hr)

theorem mismatches (e : Bool) (n : Nat) (h : p.Canonical) : (p.mismatches e n).Canonical := by
  unfold Pkg.mismatches
  exact foldl (fun _ _ hq => canonical.raise _ _ _ hq) _ (bump _ _ h)

theorem poisonSet (e : Bool) (h : p.Canonical) : (p.poisonSet e).Canonical := canonical.raise _ _ _ (bump _ _ h)

theorem receiveChunk (e : Bool) (ch : Nat) (x : Chunk) (h : p.Canonical) : (p.receiveChunk e ch x).Canonical := by
  unfold Pkg.receiveChunk
  split
  · exact h
  · split
    · exact canonical.declareFailed (canonical.raise _ _ _ h)
    · extract_lets _ _ _ q r _ _
      have hq : q.Canonical := ite h (mismatches _ _ h)
      have hr : r.Canonical := ite (poisonSet _ hq) hq
      split
      · exact canonical.declareFailed (canonical.raise _ _ _ h)
      · exact ite h (ite (canonical.declareFailed (canonical.raise _ _ _ h)) (setChan _ _ _ hr))

theorem takeWaiting (e : Bool) (ch n : Nat) (h : p.Canonical) : (Pkg.takeWaiting e ch n p).Canonical := by
  induction n generalizing p with
  | zero => exact h
  | succ n ih =>
    unfold Pkg.takeWaiting
    dsimp only
    split
    · exact h
    · exact ite h (ih (ite (setChan _ _ _ (freeCredit _ _ h)) (receiveChunk _ _ _ (setChan _ _ _ (freeCredit _ _ h)))))

theorem drainChan (e : Bool) (ch : Nat) (h : p.Canonical) : (p.drainChan e ch).Canonical := takeWaiting _ _ _ h

theorem execAgreementChunkReceive_kept (e : Bool) (ch : Fin 16) (c : Chunk) (h : s.pkg.Canonical) :
    KeepsMemory (execAgreementChunkReceive e ch c s) :=
  on _ (fun hq => receiveChunk _ _ _ hq) h

theorem chanNext (i : Image) (c : ChanEnt) (b : BucketEnt) (h : p.Canonical) : (p.chanNext i c b).Canonical := by
  unfold Pkg.chanNext
  extract_lets _ _
  exact ite (setChan _ _ _ h) (ite (setChan _ _ _ h) (setStepc _ (setChan _ _ _ h)))

theorem originScale (i : Image) (e : Bool) (b : BucketEnt) (chunk : Nat) (h : p.Canonical) : (p.originScale i e b chunk).2.2.Canonical := by
  unfold Pkg.originScale
  split
  · rename_i q heq
    have hq : q.Canonical := snd_of heq (scaleEnt _ _ _ h)
    exact hq
  · rename_i q heq
    have hq : q.Canonical := snd_of heq (scaleEnt _ _ _ h)
    exact canonical.fresh hq

theorem combine (i : Image) (c : ChanEnt) (b : BucketEnt) (chunk : Nat) (inc : Option Chunk) (x : List Byte) (bad : Bool) (mism : Nat) (h :
    p.Canonical) :
    (p.combine i c b chunk inc x bad mism).2.Canonical := by
  unfold Pkg.combine
  extract_lets _ q _ r t _ u _ v w y _ z
  have hq : q.2.2.Canonical := originScale _ _ _ _ h
  have hr : r.2.Canonical := by
    simp only [r]
    split
    · exact h
    · exact hq
  have ht : t.Canonical := hr
  have hu : u.Canonical := ite ht (mismatches _ _ ht)
  have hv : v.Canonical := ite hu (setReg _ _ (setReg _ _ (raiseOnce _ _ _ (bump _ _ hu))))
  have hw : w.Canonical := canonical.raise _ _ _ (mismatches _ _ hv)
  have hy : y.Canonical := ite hv (ite (bump _ _ hw) hw)
  have hz : z.Canonical := ite (poisonSet _ hy) hy
  exact hz

theorem agreementStep (i : Image) (c : ChanEnt) (b : BucketEnt) (mism : Nat) (h : p.Canonical) : (p.agreementStep i c b mism).Canonical := by
  unfold Pkg.agreementStep
  extract_lets _ _ _ _ _ _ _ _
  split
  · split
    · exact ite h (chanNext _ _ _ (ite (sendChunk _ _ (ite (combine _ _ _ _ _ _ _ _ h) (setChan _ _ _ (combine _ _ _ _ _ _ _ _ h)))) (sendChunk _ _
          (finalChunk _ _ _ _ _ (ite (combine _ _ _ _ _ _ _ _ h) (setChan _ _ _ (combine _ _ _ _ _ _ _ _ h)))))))
    · exact h
  · split
    · split
      · exact h
      · extract_lets _ _ q _ _ r
        have hq : q.2.Canonical := combine _ _ _ _ _ _ _ _ h
        have hr : r.2.Canonical := snd_ite (ite (poisonSet _ h) h) hq
        exact chanNext _ _ _ (sendChunk _ _ (finalChunk _ _ _ _ _ hr))
    · split
      · exact h
      · extract_lets q _ r
        have hq : q.Canonical := finalChunk _ _ _ _ _ (setChan _ _ _ h)
        have hr : r.Canonical := ite hq (sendChunk _ _ hq)
        exact chanNext _ _ _ hr

theorem execAgreementHop_kept (e : Bool) (ch : Fin 16) (mismatches : Nat) (h : s.pkg.Canonical) :
    KeepsMemory (execAgreementHop e ch mismatches s) := by
  unfold execAgreementHop
  refine on _ (fun hq => ?_) h
  split
  · exact hq
  · split
    · exact hq
    · extract_lets _
      split
      · exact hq
      · exact ite hq (drainChan _ _ (agreementStep _ _ _ _ hq))

theorem takeInput (i : Image) (c : ChanEnt) (bucket t : Nat) (off done : Nat) (h : p.Canonical) :
    (p.takeInput i c bucket t off done).Canonical := by
  unfold Pkg.takeInput
  extract_lets _ _ q _ _ r
  have hq : q.Canonical := setChan _ _ _ h
  have hr : r.Canonical := setReg _ _ hq
  exact ite hr (canonical.agent.pushFlit _ hr)

theorem offerInput (i : Image) (bucket t : Nat) (off done : Nat) (h : p.Canonical) : (p.offerInput i bucket t off done).Canonical := by
  unfold Pkg.offerInput
  split
  · exact h
  · extract_lets _
    exact ite (takeInput _ _ _ _ _ _ h) (raiseOnce _ _ _ (setChan _ _ _ h))

theorem execXagr_kept (a : XSlot) (h : s.pkg.Canonical) : KeepsMemory (execXagr a s) := by
  unfold execXagr
  refine move _ _ _ _ _ (fun _ _ _ hq => ?_) h
  split
  · exact hq
  · exact foldl (fun _ _ hr => offerInput _ _ _ _ _ hr) _ hq

theorem execXagrFlitAccept_kept (e : Bool) (ch : Fin 16) (h : s.pkg.Canonical) : KeepsMemory (execXagrFlitAccept e ch s) := by
  unfold execXagrFlitAccept
  refine on _ (fun hq => ?_) h
  split
  · exact hq
  · split
    · exact hq
    · extract_lets _
      split
      · exact hq
      · split
        · exact hq
        · exact takeInput _ _ _ _ _ _ (setChan _ _ _ hq)

theorem countStalls (h : p.Canonical) : p.countStalls.Canonical := by
  unfold Pkg.countStalls
  exact foldl (fun _ _ hq => foldl (fun _ _ hr => setChan _ _ _ hr) _ (bump _ _ hq)) _ h

/-! ### The functions of `Machine/MemCmd.lean` -/

theorem exitRefresh (a : Nat) (h : p.Canonical) : (p.exitRefresh a).Canonical := h

theorem serveIf (i : Nat) (kind : MemOp → Bool) (h : p.Canonical) : (p.serveIf i kind).Canonical := by
  unfold Pkg.serveIf
  split
  · exact h
  · exact ite (canonical.agent.serveAt _ (exitRefresh _ h)) h

theorem execMemoryLineRead_kept (i : Nat) (h : s.pkg.Canonical) : KeepsMemory (execMemoryLineRead i s) := on _ (fun hq => serveIf _ _ hq) h

theorem execMemoryLineWrite_kept (i : Nat) (h : s.pkg.Canonical) : KeepsMemory (execMemoryLineWrite i s) := on _ (fun hq => serveIf _ _ hq) h

theorem execCorrectionWriteback_kept (i : Nat) (h : s.pkg.Canonical) : KeepsMemory (execCorrectionWriteback i s) :=
  on _ (fun hq => serveIf _ _ hq) h

theorem scrubWord (a : Nat) (h : p.Canonical) : (p.scrubWord a).Canonical := by
  unfold Pkg.scrubWord
  extract_lets _ _ _
  split
  · exact h
  · exact h
  · exact canonical.agent.countCorrection _ _ (canonical.setWord _ _ h)
  · exact canonical.agent.countUncorrectable _ _ (canonical.setWord _ _ h)

theorem restartCounts (n : Nat) (h : p.Canonical) : (p.restartCounts n).Canonical := by
  unfold Pkg.restartCounts
  extract_lets _
  exact h

theorem execPatrolScrubRead_kept (n : DieNo) (h : s.pkg.Canonical) : KeepsMemory (execPatrolScrubRead n s) :=
  on _ (fun hq => ite hq (ite (canonical.raise _ _ _ (bump _ _ (restartCounts _ (of_mem (foldl (fun _ _ hr => scrubWord _ hr) _ hq) rfl)))) (of_mem
      (foldl (fun _ _ hr => scrubWord _ hr) _ hq) rfl))) h

theorem execScrubWindowClose_kept (n : DieNo) (h : s.pkg.Canonical) : KeepsMemory (execScrubWindowClose n s) := by
  unfold execScrubWindowClose
  refine on _ (fun hq => ?_) h
  split
  · exact hq
  · have hrestarted := restartCounts n.val hq
    exact ite hq hrestarted

theorem execMemTestOwnerWrite_kept (w : Writer) (n : DieNo) (v : Nat) (h : s.pkg.Canonical) : KeepsMemory (execMemTestOwnerWrite w n v s) := by
  unfold execMemTestOwnerWrite
  refine on _ (fun hq => ?_) h
  split
  · split
    · exact canonical.agent.refuse _ _ _ hq
    · exact hq
  · exact ownerWrite _ _ _ _ _ hq

theorem execRepairStart_kept (n : DieNo) (h : s.pkg.Canonical) : KeepsMemory (execRepairStart n s) := by
  unfold execRepairStart
  refine on _ (fun hq => ?_) h
  extract_lets _ r _
  have hr : r.Canonical := ownerWrite _ _ _ _ _ hq
  split
  · exact hq
  · exact ite hq (ite hr (setReg _ _ hr))

theorem rewriteRow (r : RowId) (h : p.Canonical) : (p.rewriteRow r).Canonical := by
  unfold Pkg.rewriteRow
  refine foldl (fun _ _ hq => ?_) _ h
  extract_lets _
  split
  · exact hq
  · exact hq
  · exact canonical.setWord _ _ hq
  · exact canonical.agent.countUncorrectable _ _ (canonical.setWord _ _ hq)

theorem releaseRepair (n : Nat) (h : p.Canonical) : (p.releaseRepair n).Canonical := ite (setReg _ _ h) h

theorem execDecodeQuery_kept (pt : Path) (v : Nat) (h : s.pkg.Canonical) : KeepsMemory (execDecodeQuery pt v s) :=
  on _ (fun hq => ite (setReg _ _ hq) (canonical.agent.refuse _ _ _ hq)) h

theorem execSelfRefreshIdleEntry_kept (unit : Fin 36) (h : s.pkg.Canonical) : KeepsMemory (execSelfRefreshIdleEntry unit s) :=
  on _ (fun hq => ite hq hq) h

/-! ### The functions of `Machine/CohCmd.lean` -/

theorem execCoherentRequestArrival_kept (idx : List Nat) (cyc : Nat) (h : s.pkg.Canonical) : KeepsMemory (execCoherentRequestArrival idx cyc s) :=
  on _ (fun hq => arriveAll _ _ hq) h

theorem execRdShared_kept (line : Nat) (h : s.pkg.Canonical) : KeepsMemory (execRdShared line s) :=
  on _ (fun hq => canonical.agent.arbitrate _ _ _ hq) h

theorem execRdOwn_kept (line : Nat) (h : s.pkg.Canonical) : KeepsMemory (execRdOwn line s) := on _ (fun hq => canonical.agent.arbitrate _ _ _ hq) h

theorem execUpgrade_kept (line : Nat) (h : s.pkg.Canonical) : KeepsMemory (execUpgrade line s) :=
  on _ (fun hq => canonical.agent.arbitrate _ _ _ hq) h

theorem execWbDirty_kept (line : Nat) (h : s.pkg.Canonical) : KeepsMemory (execWbDirty line s) :=
  on _ (fun hq => canonical.agent.arbitrate _ _ _ hq) h

theorem execEvClean_kept (line : Nat) (h : s.pkg.Canonical) : KeepsMemory (execEvClean line s) :=
  on _ (fun hq => canonical.agent.arbitrate _ _ _ hq) h

theorem execRdSnoop_kept (line : Nat) (h : s.pkg.Canonical) : KeepsMemory (execRdSnoop line s) :=
  on _ (fun hq => canonical.agent.arbitrate _ _ _ hq) h

theorem execWrInv_kept (line : Nat) (h : s.pkg.Canonical) : KeepsMemory (execWrInv line s) := on _ (fun hq => canonical.agent.arbitrate _ _ _ hq) h

theorem execDirectoryRecall_kept (line : Nat) (h : s.pkg.Canonical) : KeepsMemory (execDirectoryRecall line s) :=
  on _ (fun hq => canonical.agent.arbitrate _ _ _ hq) h

theorem execFwdS_kept (c : CoreNo) (line : Nat) (h : s.pkg.Canonical) : KeepsMemory (execFwdS c line s) :=
  on _ (fun hq => canonical.agent.coreAnswer _ _ _ hq) h

theorem execFwdM_kept (c : CoreNo) (line : Nat) (h : s.pkg.Canonical) : KeepsMemory (execFwdM c line s) :=
  on _ (fun hq => canonical.agent.coreAnswer _ _ _ hq) h

theorem execInv_kept (c : CoreNo) (line : Nat) (h : s.pkg.Canonical) : KeepsMemory (execInv c line s) :=
  on _ (fun hq => canonical.agent.coreAnswer _ _ _ hq) h

theorem execInvD_kept (c : CoreNo) (line : Nat) (h : s.pkg.Canonical) : KeepsMemory (execInvD c line s) :=
  on _ (fun hq => canonical.agent.coreAnswer _ _ _ hq) h

theorem execSnpRd_kept (c : CoreNo) (line : Nat) (h : s.pkg.Canonical) : KeepsMemory (execSnpRd c line s) :=
  on _ (fun hq => canonical.agent.coreAnswer _ _ _ hq) h

theorem execSnoopAnswer_kept (c : CoreNo) (line : Nat) (h : s.pkg.Canonical) : KeepsMemory (execSnoopAnswer c line s) :=
  on _ (fun hq => canonical.agent.homeAnswer _ _ hq) h

theorem execCompletionAck_kept (r : Fin 80) (line : Nat) (h : s.pkg.Canonical) : KeepsMemory (execCompletionAck r line s) :=
  on _ (fun hq => canonical.agent.ackLine _ _ hq) h

theorem execHomeTimeout_kept (c : CoreNo) (line : Nat) (h : s.pkg.Canonical) : KeepsMemory (execHomeTimeout c line s) := by
  unfold execHomeTimeout
  refine on _ (fun hq => ?_) h
  split
  · exact hq
  · exact ite hq (canonical.raise _ _ _ (bump _ _ (ite (canonical.agent.freeLine _ (canonical.agent.setEntry _ _ _ (canonical.agent.enqueue _ hq)))
        (canonical.agent.deliver _ _ _ (canonical.agent.setBusy _ (canonical.agent.setEntry _ _ _ (canonical.agent.enqueue _ hq)))))))

theorem execCoreReplacement_kept (c : CoreNo) (line : Nat) (h : s.pkg.Canonical) : KeepsMemory (execCoreReplacement c line s) :=
  on _ (fun hq => ite hq (canonical.agent.replaceLine _ _ hq)) h

theorem execCoreFill_kept (c : CoreNo) (line : Nat) (h : s.pkg.Canonical) : KeepsMemory (execCoreFill c line s) :=
  on _ (fun hq => canonical.agent.fillCore _ _ hq) h

theorem execFence_kept (c : CoreNo) (h : s.pkg.Canonical) : KeepsMemory (execFence c s) := on _ (fun hq => ite hq hq) h

theorem startSweep (h : p.Canonical) : p.startSweep.Canonical := setReg _ _ h

theorem reclaimDead (h : p.Canonical) : p.reclaimDead.Canonical := by
  unfold Pkg.reclaimDead
  extract_lets _ q
  have hq : q.Canonical := setReg _ _ (setReg _ _ (setReg _ _ h))
  exact ite hq (ite (startSweep hq) (canonical.raise _ _ _ hq))

theorem execReclaimOwnerWrite_kept (w : Writer) (v : Nat) (h : s.pkg.Canonical) : KeepsMemory (execReclaimOwnerWrite w v s) := by
  unfold execReclaimOwnerWrite
  refine on _ (fun hq => ?_) h
  split
  · split
    · exact canonical.agent.refuse _ _ _ hq
    · exact hq
  · extract_lets r
    have hr : r.Canonical := ownerWrite _ _ _ _ _ hq
    split
    · exact hr
    · exact ite (reclaimDead hr) hr

theorem execReclaimStart_kept (pt : Path) (v : Nat) (h : s.pkg.Canonical) : KeepsMemory (execReclaimStart pt v s) :=
  on _ (fun hq => ite (canonical.agent.refuse _ _ _ hq) (ite (canonical.raise _ _ _ (canonical.agent.refuse _ _ _ hq)) (ite hq (ite
      (canonical.raise _ _ _ (canonical.agent.refuse _ _ _ hq)) (startSweep hq))))) h

theorem execReclaimSweepComplete_kept (h : s.pkg.Canonical) : KeepsMemory (execReclaimSweepComplete s) :=
  on _ (fun hq => canonical.agent.endSweep hq) h

theorem spareWanted (c : Nat) (h : p.Canonical) : (p.spareWanted c).Canonical := ite (bump _ _ (canonical.raise _ _ _ (setShadow _ _ h))) h

theorem execCoreTakenOffline_kept (c : CoreNo) (h : s.pkg.Canonical) : KeepsMemory (execCoreTakenOffline c s) :=
  on _ (fun hq => ite hq (spareWanted _ (setReg _ _ (foldl (fun _ _ hr => canonical.agent.releaseLine _ _ hr) _ (canonical.agent.quietCore _
      hq))))) h

/-! ### The functions of `Machine/DispatchUnit.lean` -/

theorem setUnit (d : Nat) (u : DispUnit) (h : p.Canonical) : (p.setUnit d u).Canonical := h

theorem raiseTable (d code table : Nat) (h : p.Canonical) : (p.raiseTable d code table).Canonical := by
  unfold Pkg.raiseTable
  extract_lets _
  exact ite h (canonical.raise _ _ _ (setUnit _ _ h))

theorem sendToUnit (d table : Nat) (t off done : Nat) (h : p.Canonical) : (p.sendToUnit d table t off done).Canonical := by
  unfold Pkg.sendToUnit
  extract_lets _ q
  have hq : q.Canonical := setUnit _ _ h
  exact ite hq (canonical.agent.pushFlit _ hq)

theorem execXdsp_kept (a : XSlot) (h : s.pkg.Canonical) : KeepsMemory (execXdsp a s) := by
  unfold execXdsp
  refine move _ _ _ _ _ (fun _ _ _ hq => ?_) h
  extract_lets _ _
  split
  · exact hq
  · exact foldl (fun _ _ hr => ite (sendToUnit _ _ _ _ _ hr) (raiseTable _ _ _ (setUnit _ _ hr))) _ hq

theorem execRoutingRecordFlit_kept (d : DieNo) (table : Nat) (h : s.pkg.Canonical) : KeepsMemory (execRoutingRecordFlit d table s) := by
  unfold execRoutingRecordFlit
  refine on _ (fun hq => ?_) h
  split
  · exact ite hq (setUnit _ _ hq)
  · exact hq

theorem execDispatchTrigger_kept (d : DieNo) (table : Nat) (h : s.pkg.Canonical) : KeepsMemory (execDispatchTrigger d table s) := by
  unfold execDispatchTrigger
  refine on _ (fun hq => ?_) h
  split
  · exact ite hq (setUnit _ _ hq)
  · exact hq

theorem execDispatchFlitAccept_kept (d : DieNo) (table : Nat) (h : s.pkg.Canonical) : KeepsMemory (execDispatchFlitAccept d table s) := by
  unfold execDispatchFlitAccept
  refine on _ (fun hq => ?_) h
  extract_lets _
  split
  · split
    · exact hq
    · exact ite (sendToUnit _ _ _ _ _ (setUnit _ _ hq)) hq
  · exact hq

theorem countHolds (h : p.Canonical) : p.countHolds.Canonical := by
  unfold Pkg.countHolds
  exact foldl (fun _ _ hq => ite hq (bump _ _ (setUnit _ _ hq))) _ h

theorem sendBytes (t off win : Nat) (b : List Byte) (poison : Bool) (h : p.Canonical) : (p.sendBytes t off win b poison).Canonical := by
  unfold Pkg.sendBytes
  exact foldl (fun _ _ hq => canonical.agent.pushFlit _ hq) _ h

theorem execFill_kept (d : DieNo) (h : s.pkg.Canonical) : KeepsMemory (execFill d s) := by
  unfold execFill
  refine on _ (fun hq => ?_) h
  split
  · exact hq
  · extract_lets _
    split
    · exact hq
    · extract_lets _ _ _ _ _ r t
      have hr : r.Canonical := canonical.agent.agentWriteWords _ _ _ hq
      have ht : t.Canonical := sendBytes _ _ _ _ _ hr
      split
      · exact hq
      · split
        · exact bump _ _ (setUnit _ _ (canonical.raise _ _ _ (bump _ _ ht)))
        · extract_lets _ _ u v w x
          have hu : u.Canonical := canonical.agent.agentWrite _ _ _ hq
          have hv : v.Canonical := sendBytes _ _ _ _ _ hu
          have hw : w.Canonical := bump _ _ (bump _ _ hv)
          have hx : x.Canonical := ite (raiseTable _ _ _ hw) hw
          exact bump _ _ (setUnit _ _ hx)

theorem copyRow (d : Nat) (t : DispTable) (r : Nat) (src : Option (Option Nat)) (h : p.Canonical) : (p.copyRow d t r src).1.Canonical := by
  unfold Pkg.copyRow
  extract_lets _
  refine foldl_of (pkg := Prod.fst) (b := (p, false)) (fun b _ hb => ?_) _ h
  exact canonical.agent.pushFlit _ hb

theorem copyTable (d op : Nat) (h : p.Canonical) : (p.copyTable d op).Canonical := by
  unfold Pkg.copyTable
  split
  · exact h
  · extract_lets _
    split
    · exact h
    · split
      · exact h
      · extract_lets _ q _ _ _ _ r
        have hr : r.1.Canonical := by
          refine foldl_of (pkg := Prod.fst) (b := (q, false)) (fun b _ hb => ?_) _ (setUnit _ _ h)
          exact copyRow _ _ _ _ (canonical.agent.agentBytes _ _ _ hb)
        exact ite h (ite (canonical.raise _ _ _ hr) hr)

theorem execGather_kept (d : DieNo) (h : s.pkg.Canonical) : KeepsMemory (execGather d s) := on _ (fun hq => copyTable _ _ hq) h

theorem execScatter_kept (d : DieNo) (h : s.pkg.Canonical) : KeepsMemory (execScatter d s) := on _ (fun hq => copyTable _ _ hq) h

theorem execCollect_kept (d : DieNo) (h : s.pkg.Canonical) : KeepsMemory (execCollect d s) := on _ (fun hq => copyTable _ _ hq) h

theorem execDispatchTableAdvance_kept (d : DieNo) (h : s.pkg.Canonical) : KeepsMemory (execDispatchTableAdvance d s) := by
  unfold execDispatchTableAdvance
  refine on _ (fun hq => ?_) h
  split
  · exact hq
  · extract_lets _
    split
    · exact hq
    · split
      · exact hq
      · exact ite (setUnit _ _ hq) (ite (setUnit _ _ hq) (setUnit _ _ hq))

theorem execStageEntryStart_kept (e : DieNo) (h : s.pkg.Canonical) : KeepsMemory (execStageEntryStart e s) := by
  unfold execStageEntryStart
  refine on _ (fun hq => ?_) h
  split
  · exact hq
  · extract_lets _
    split
    · exact hq
    · exact ite hq hq

theorem execStageEntryComplete_kept (e : DieNo) (h : s.pkg.Canonical) : KeepsMemory (execStageEntryComplete e s) := by
  unfold execStageEntryComplete
  refine on _ (fun hq => ?_) h
  split
  · exact hq
  · extract_lets _
    split
    · extract_lets r _ t
      have hr : r.Canonical := ite (dropLate _ hq) hq
      have ht : t.Canonical := ite (canonical.copyBlock _ _ _ _ hr) (canonical.copyBlock _ _ _ _ hr)
      exact ht
    · exact hq

theorem execStageEntryDeadline_kept (e : DieNo) (h : s.pkg.Canonical) : KeepsMemory (execStageEntryDeadline e s) := on _ (fun hq => noteLate _ hq) h

end

end Canonical

end Sys2Proof.Machine

namespace Sys2Proof.Machine

namespace Canonical

section
variable {p : Pkg} {s : State}

/-! ### The functions of `Machine/TrainStep.lean` -/

theorem writeSysHeader (h : p.Canonical) : p.writeSysHeader.Canonical := by
  unfold Pkg.writeSysHeader
  split
  · exact h
  · exact canonical.protWrite _ _ _ _ _ h

theorem ringRecord (r : Ring) (b : List Byte) (h : p.Canonical) : (p.ringRecord r b).Canonical := by
  unfold Pkg.ringRecord
  extract_lets _ _
  exact ite h (ite (canonical.raise _ _ _ (bump _ _ h)) (bump32w _ _ (canonical.agent.agentWrite _ _ _ h)))

theorem readIndexWrite (pt : Path) (r : Ring) (v : Nat) (h : p.Canonical) : (p.readIndexWrite pt r v).Canonical :=
  objWrite _ _ _ (fun hq => ite (canonical.agent.refuse _ _ _ hq) (setReg _ _ hq)) h

theorem execLedgerReadIndexWrite_kept (pt : Path) (v : Nat) (h : s.pkg.Canonical) : KeepsMemory (execLedgerReadIndexWrite pt v s) :=
  on _ (fun hq => readIndexWrite _ _ _ hq) h

theorem execDispatchReadIndexWrite_kept (pt : Path) (v : Nat) (h : s.pkg.Canonical) : KeepsMemory (execDispatchReadIndexWrite pt v s) :=
  on _ (fun hq => readIndexWrite _ _ _ hq) h

theorem scaleQueryWrite (pt : Path) (v : Nat) (h : p.Canonical) : (p.scaleQueryWrite pt v).Canonical :=
  objWrite _ _ _ (fun hq => ite (canonical.agent.refuse _ _ _ hq) (setReg _ _ hq)) h

theorem execScaleQuery_kept (pt : Path) (v : Nat) (h : s.pkg.Canonical) : KeepsMemory (execScaleQuery pt v s) :=
  on _ (fun hq => scaleQueryWrite _ _ hq) h

theorem placementQueryWrite (pt : Path) (v : Nat) (h : p.Canonical) : (p.placementQueryWrite pt v).Canonical :=
  objWrite _ _ _ (fun hq => ite (setReg _ _ hq) (canonical.agent.refuse _ _ _ hq)) h

theorem execPlacementQuery_kept (pt : Path) (v : Nat) (h : s.pkg.Canonical) : KeepsMemory (execPlacementQuery pt v s) :=
  on _ (fun hq => placementQueryWrite _ _ hq) h

theorem closeLedger (void : Bool) (h : p.Canonical) : (p.closeLedger void).Canonical := by
  unfold Pkg.closeLedger
  extract_lets _ q r t _ _
  have hq : q.Canonical := by
    simp only [q]
    refine foldl (fun _ _ hq => ?_) _ h
    split
    · exact hq
    · exact ringRecord _ _ hq
  have hr : r.Canonical := foldl (fun _ _ hr => setReg _ _ hr) _ hq
  have ht : t.Canonical := by
    simp only [t]
    refine foldl (fun _ _ ht => ?_) _ hr
    split
    · exact ht
    · exact ite ht ht
  exact ht

theorem scaleUnit (h : p.Canonical) : p.scaleUnit.Canonical := by
  unfold Pkg.scaleUnit
  refine foldl (fun _ _ hq => ?_) _ h
  extract_lets _
  split
  · exact hq
  · split
    · rename_i q1 heq
      have hq1 : q1.Canonical := snd_of heq (canonical.agent.agentBytes _ _ _ hq)
      exact hq1
    · rename_i q1 heq
      have hq1 : q1.Canonical := snd_of heq (canonical.agent.agentBytes _ _ _ hq)
      exact ite hq1 (ite (canonical.raise _ _ _ (canonical.agent.agentWrite _ _ _ hq1)) (canonical.agent.agentWrite _ _ _ hq1))

theorem openWindow (h : p.Canonical) : p.openWindow.Canonical := h

theorem blockHdr (h : p.Canonical) : p.blockHdr.2.Canonical := by
  unfold Pkg.blockHdr
  split
  · rename_i q heq
    have hq : q.Canonical := snd_of heq (canonical.agent.agentBytes _ _ _ h)
    exact canonical.fresh (canonical.fresh hq)
  · rename_i q heq
    have hq : q.Canonical := snd_of heq (canonical.agent.agentBytes _ _ _ h)
    exact hq

theorem lrEntries (n : Nat) (h : p.Canonical) : (p.lrEntries n).2.Canonical := by
  unfold Pkg.lrEntries
  refine foldl_of (pkg := Prod.snd) (b := ([], p)) (fun b _ hb => ?_) _ h
  exact canonical.agent.agentBytes _ _ _ hb

theorem writePow (i s : Nat) (h : p.Canonical) : (p.writePow i s).Canonical := canonical.agent.agentWrite _ _ _ h

theorem openBlock (h : p.Canonical) : p.openBlock.Canonical := by
  unfold Pkg.openBlock
  extract_lets q r t
  have hq : q.2.Canonical := blockHdr h
  have hr : r.Canonical := ite hq (canonical.raise _ _ _ hq)
  have ht : t.2.Canonical := lrEntries _ hr
  refine foldl (fun _ _ ht => ?_) _ ht
  split
  · exact ht
  · exact writePow _ _ ht

theorem steerEntry (i : Nat) (o : Option LrEntry) (h : p.Canonical) : (p.steerEntry i o).Canonical := by
  unfold Pkg.steerEntry
  split
  · exact canonical.raise _ _ _ h
  · split
    · exact writePow _ _ h
    · extract_lets _ q _
      have hq : q.Canonical := h
      split
      · exact writePow _ _ hq
      · exact writePow _ _ (canonical.raise _ _ _ (bump _ _ hq))
      · exact writePow _ _ (canonical.agent.agentWrite _ _ _ (bump _ _ hq))
      · exact writePow _ _ (canonical.agent.agentWrite _ _ _ (bump _ _ hq))

theorem steerAll (n : Nat) (h : p.Canonical) : (p.steerAll n).Canonical := by
  unfold Pkg.steerAll
  extract_lets q
  have hq : q.2.Canonical := lrEntries _ h
  exact foldl (fun _ _ hr => steerEntry _ _ hr) _ hq

theorem latchSlots (h : p.Canonical) : p.latchSlots.Canonical := by
  unfold Pkg.latchSlots
  extract_lets q r
  have hq : q.2.Canonical := blockHdr h
  have hr : r.2.Canonical := lrEntries _ hq
  refine foldl (fun _ _ ht => ?_) _ hr
  split
  · exact ht
  · extract_lets _ _
    exact ite ht ht

theorem endStep (h : p.Canonical) : p.endStep.Canonical := ite (setStepc _ (closeLedger _ (latchSlots h))) h

theorem beginStep (i : Image) (h : p.Canonical) : (p.beginStep i).Canonical := by
  unfold Pkg.beginStep
  extract_lets _ q _ r t _ _ _ u _ v
  have hq : q.Canonical := endStep h
  have hr : r.Canonical := ite hq hq
  have ht : t.Canonical := setReg _ _ hr
  have hu : u.Canonical := ht
  have hv : v.Canonical := setSched _ hu
  exact writeSysHeader hv

theorem execStepStart_kept (h : s.pkg.Canonical) : KeepsMemory (execStepStart s) := by
  unfold execStepStart
  refine on _ (fun hq => ?_) h
  split
  · exact hq
  · exact ite (beginStep _ hq) hq

theorem execLocalVoteDeadline_kept (h : s.pkg.Canonical) : KeepsMemory (execLocalVoteDeadline s) := on _ (fun hq => noteLate _ hq) h

theorem execLocalVoteComplete_kept (h : s.pkg.Canonical) : KeepsMemory (execLocalVoteComplete s) := by
  unfold execLocalVoteComplete
  refine on _ (fun hq => ?_) h
  split
  · exact hq
  · split
    · exact hq
    · extract_lets _ r _
      have hr : r.Canonical := setStepc _ hq
      split
      · exact hr
      · exact setStepc _ (sendVote _ hr)

theorem closeDispatch (void : Bool) (h : p.Canonical) : (p.closeDispatch void).Canonical := by
  unfold Pkg.closeDispatch
  exact foldl (fun _ _ hq => setUnit _ _ (foldl (fun _ _ hr => ringRecord _ _ hr) _ hq)) _ h

theorem haltSoon (h : p.Canonical) : p.haltSoon.Canonical := setStepc _ (canonical.raise _ _ _ h)

theorem voidStep (r : VoteRec) (c : Nat) (h : p.Canonical) : (p.voidStep r c).Canonical := by
  unfold Pkg.voidStep
  extract_lets q t _ u v
  have hq : q.Canonical := setReg _ _ (bump16 _ _ (bump _ _ h))
  have ht : t.Canonical := foldl (fun _ _ hr => setReg _ _ hr) _ hq
  have hu : u.Canonical := setStepc _ (canonical.raise _ _ _ ht)
  have hv : v.Canonical := ite (haltSoon hu) hu
  exact closeLedger _ hv

theorem commitStep (i : Image) (c : Nat) (h : p.Canonical) : (p.commitStep i c).Canonical := by
  unfold Pkg.commitStep
  extract_lets _ q r _ _ _ t u v w x y _ z
  have hq : q.2.Canonical := blockHdr h
  have hr : r.Canonical := canonical.agent.agentWrite _ _ _ hq
  have ht : t.Canonical := ite (canonical.agent.agentWrite _ _ _ (canonical.agent.agentWrite _ _ _ hr)) hr
  have hu : u.Canonical := scaleUnit ht
  have hv : v.Canonical := ite (steerAll _ hu) hu
  have hw : w.Canonical := canonical.agent.agentWrite _ _ _ hv
  have hx : x.Canonical := setReg _ _ (setReg _ _ (setReg _ _ hw))
  have hy : y.Canonical := ite (setReg _ _ hx) hx
  have hz : z.Canonical := setStepc _ hy
  exact ite (haltSoon hz) hz

theorem noteOutcome (ok : Bool) (h : p.Canonical) : (p.noteOutcome ok).Canonical := by
  unfold Pkg.noteOutcome
  extract_lets _ _ q _
  have hq : q.Canonical := ite (setReg _ _ h) (setReg _ _ h)
  exact hq

theorem confirmSave (ok : Bool) (h : p.Canonical) : (p.confirmSave ok).Canonical := by
  unfold Pkg.confirmSave
  extract_lets _ _ q
  refine foldl (fun r _ hr => ?_) _ (setStepc _ h)
  split
  · exact setReg _ _ (setReg _ _ (bump _ _ hr))
  · exact canonical.raise _ _ _ hr

theorem execStepDecision_kept (h : s.pkg.Canonical) : KeepsMemory (execStepDecision s) := by
  unfold execStepDecision
  refine on _ (fun hq => ?_) h
  split
  · exact hq
  · split
    · exact hq
    · split
      · exact hq
      · extract_lets r _
        have hr : r.Canonical := by
          simp only [r]
          split
          · exact voidStep _ _ hq
          · exact commitStep _ _ hq
        exact writeSysHeader (confirmSave _ (noteOutcome _ (closeDispatch _ (openWindow hr))))

/-! ### The functions of `Machine/HostPort.lean` -/

theorem setHost (x : HostUnit) (h : p.Canonical) : (p.setHost x).Canonical := h

theorem bufferTlp (t : HostTlp) (h : p.Canonical) : (p.bufferTlp t).Canonical := by
  unfold Pkg.bufferTlp
  extract_lets _ _ q r
  have hq : q.Canonical := ite h (canonical.raise _ _ _ (setReg _ _ (setHost _ h)))
  have hr : r.Canonical := by
    simp only [r]
    split
    · exact setQueue _ _ hq
    · exact hq
  exact ite (setReg _ _ (bump _ _ hr)) (setReg _ _ (setHost _ h))

theorem hostWrite (addr : Nat) (b : List Byte) (poison : Bool) (h : p.Canonical) : (p.hostWrite addr b poison).Canonical :=
  ite (bufferTlp _ h) (canonical.emit _ h)

theorem sendMsix (v : Nat) (h : p.Canonical) : (p.sendMsix v).Canonical := ite h (ite (setHost _ h) (canonical.emit _ h))

theorem drainHost (h : p.Canonical) : p.drainHost.Canonical := by
  unfold Pkg.drainHost
  extract_lets q _ r _ _ t
  have hq : q.Canonical := h
  have hr : r.Canonical := setReg _ _ (setHost _ hq)
  have ht : t.Canonical := setHost _ hr
  exact ht

theorem showQueue (q : Nat) (h : p.Canonical) : (p.showQueue q).Canonical := by
  unfold Pkg.showQueue
  extract_lets _ _
  exact setReg _ _ h

theorem complete (q seq : Nat) (status result : Nat) (h : p.Canonical) : (p.complete q seq status result).Canonical := by
  unfold Pkg.complete
  extract_lets _
  exact ite h (showQueue _ (setQueue _ _ h))

theorem dropRejected (n q : Nat) (h : p.Canonical) : (Pkg.dropRejected n q p).Canonical := by
  induction n generalizing p with
  | zero => exact h
  | succ n ih =>
    unfold Pkg.dropRejected
    dsimp only
    split
    · exact h
    · exact ite h (ih (complete _ _ _ _ (setQueue _ _ h)))

theorem skipRejected (q : Nat) (h : p.Canonical) : (p.skipRejected q).Canonical := showQueue _ (dropRejected _ _ h)

theorem endCommand (q status result : Nat) (h : p.Canonical) : (p.endCommand q status result).Canonical := by
  unfold Pkg.endCommand
  extract_lets _
  split
  · exact h
  · exact skipRejected _ (complete _ _ _ _ (setQueue _ _ h))

theorem queueObject (pt : Path) (q key v : Nat) (h : p.Canonical) : (p.queueObject pt q key v).Canonical :=
  objWrite _ _ _ (fun hq => ite (canonical.agent.refuse _ _ _ hq) (setReg _ _ hq)) h

theorem queueOwnerWrite (pt : Path) (q v : Nat) (h : p.Canonical) : (p.queueOwnerWrite pt q v).Canonical := by
  unfold Pkg.queueOwnerWrite
  extract_lets _
  refine objWrite _ _ _ (fun hq => ?_) h
  extract_lets _
  split
  · exact canonical.agent.refuse _ _ _ hq
  · split
    · exact canonical.agent.refuse _ _ _ hq
    · split
      · exact canonical.agent.refuse _ _ _ hq
      · exact hq
      · exact setReg _ _ hq

theorem execQueueOwnerWrite_kept (pt : Path) (q : QueueNo) (v : Nat) (h : s.pkg.Canonical) : KeepsMemory (execQueueOwnerWrite pt q v s) :=
  on _ (fun hq => queueOwnerWrite _ _ _ hq) h

theorem queueConsumerWrite (pt : Path) (q v : Nat) (h : p.Canonical) : (p.queueConsumerWrite pt q v).Canonical := by
  unfold Pkg.queueConsumerWrite
  extract_lets _
  exact ite (canonical.agent.refuse _ _ _ h) (ite h (queueObject _ _ _ _ h))

theorem queueEnable (pt : Path) (q : Nat) (h : p.Canonical) : (p.queueEnable pt q).Canonical := by
  unfold Pkg.queueEnable
  extract_lets _ _ _
  exact ite (canonical.agent.refuse _ _ _ h) (ite h (ite (canonical.agent.refuse _ _ _ h) (showQueue _ (setReg _ _ (setReg _ _ (setReg _ _ (setReg
      _ _ (setQueue _ _ h))))))))

theorem execQueueEnable_kept (pt : Path) (q : QueueNo) (h : s.pkg.Canonical) : KeepsMemory (execQueueEnable pt q s) :=
  on _ (fun hq => queueEnable _ _ hq) h

theorem beginDisable (q : Nat) (h : p.Canonical) : (p.beginDisable q).Canonical := by
  unfold Pkg.beginDisable
  extract_lets _ r _ _ _ t
  have hr : r.Canonical := setReg _ _ (setQueue _ _ h)
  have ht : t.Canonical := ite (foldl (fun _ _ hq => complete _ _ _ _ hq) _ hr) (ite (canonical.emit _ (setQueue _ _ hr)) (foldl_of (pkg :=
      Prod.fst) (fun _ _ hacc => complete _ _ _ _ hacc) _ (setQueue _ _ hr)))
  exact ite h (showQueue _ ht)

theorem queueDisable (pt : Path) (q : Nat) (h : p.Canonical) : (p.queueDisable pt q).Canonical :=
  ite (canonical.agent.refuse _ _ _ h) (beginDisable _ h)

theorem execQueueDisable_kept (pt : Path) (q : QueueNo) (h : s.pkg.Canonical) : KeepsMemory (execQueueDisable pt q s) :=
  on _ (fun hq => queueDisable _ _ hq) h

theorem execQueueDisableComplete_kept (q : QueueNo) (h : s.pkg.Canonical) : KeepsMemory (execQueueDisableComplete q s) :=
  on _ (fun hq => ite (showQueue _ (setQueue _ _ hq)) hq) h

theorem sqDoorbell (pt : Path) (q v : Nat) (h : p.Canonical) : (p.sqDoorbell pt q v).Canonical := by
  unfold Pkg.sqDoorbell
  extract_lets _
  exact ite (canonical.raise _ _ _ h) (ite h (showQueue _ (setQueue _ _ h)))

theorem execSqDoorbell_kept (pt : Path) (q : QueueNo) (v : Nat) (h : s.pkg.Canonical) : KeepsMemory (execSqDoorbell pt q v s) :=
  on _ (fun hq => sqDoorbell _ _ _ hq) h

theorem loadRequest (b : List Byte) (claimant : Nat) (h : p.Canonical) : (p.loadRequest b claimant).Canonical := by
  unfold Pkg.loadRequest
  extract_lets _ _ _
  split
  · exact complete _ _ _ _ (canonical.raise _ _ _ h)
  · split
    · exact complete _ _ _ _ (canonical.raise _ _ _ h)
    · exact ite (complete _ _ _ _ (canonical.raise _ _ _ h)) h

theorem acceptDesc (q : Nat) (b : List Byte) (h : p.Canonical) : (p.acceptDesc q b).Canonical := by
  unfold Pkg.acceptDesc
  extract_lets _ _ _ r t _ _ u
  have hr : r.Canonical := setReg _ _ (setReg _ _ h)
  have ht : t.Canonical := setQueue _ _ hr
  have hu : u.Canonical := setQueue _ _ ht
  exact ite (loadRequest _ _ ht) (ite (canonical.emit _ (setReg _ _ ht)) (skipRejected _ (ite hu (canonical.raise _ _ _ hu))))

theorem readDesc (q : Nat) (h : p.Canonical) : (p.readDesc q).Canonical := by
  unfold Pkg.readDesc
  extract_lets _
  split
  · rename_i q1 heq
    have hq1 : q1.Canonical := snd_of heq (canonical.agent.agentBytes _ _ _ h)
    extract_lets _
    exact ite (acceptDesc _ _ hq1) (ite (setQueue _ _ hq1) (canonical.raise _ _ _ (bump _ _ (setQueue _ _ hq1))))

theorem execDescriptorFetch_kept (q : QueueNo) (h : s.pkg.Canonical) : KeepsMemory (execDescriptorFetch q s) :=
  on _ (fun hq => ite (showQueue _ (readDesc _ hq)) hq) h

theorem execDescriptorReread_kept (q : QueueNo) (h : s.pkg.Canonical) : KeepsMemory (execDescriptorReread q s) :=
  on _ (fun hq => ite (showQueue _ (readDesc _ hq)) hq) h

theorem setPci (pt : HostPort) (f : PciFn) (h : p.Canonical) : (p.setPci pt f).Canonical := by
  unfold Pkg.setPci
  split
  · exact setHost _ h
  · exact setHost _ h

theorem logPoisoned (pt : HostPort) (h : p.Canonical) : (p.logPoisoned pt).Canonical := setPci _ _ h

theorem resetPci (pt : HostPort) (h : p.Canonical) : (p.resetPci pt).Canonical := by
  unfold Pkg.resetPci
  extract_lets q _
  have hq : q.Canonical := setPci _ _ h
  split
  · exact setHost _ hq
  · exact hq

theorem execDmaNop_kept (q : QueueNo) (h : s.pkg.Canonical) : KeepsMemory (execDmaNop q s) := on _ (fun hq => ite (endCommand _ _ _ hq) hq) h

theorem pieceOut (src dst n : Nat) (h : p.Canonical) : (p.pieceOut src dst n).1.Canonical := by
  unfold Pkg.pieceOut
  exact foldl_of (pkg := Prod.fst) (fun _ _ hacc => hostWrite _ _ _ (canonical.agent.agentRead _ _ _ hacc)) _ h

theorem moveOn (q : Nat) (d : Desc) (n status : Nat) (h : p.Canonical) : (p.moveOn q d n status).Canonical := by
  unfold Pkg.moveOn
  extract_lets _ _
  exact ite (endCommand _ _ _ h) (setQueue _ _ h)

theorem tookTurn (q : Nat) (h : p.Canonical) : (p.tookTurn q).Canonical := setHost _ h

theorem execCopyToHost_kept (q : QueueNo) (h : s.pkg.Canonical) : KeepsMemory (execCopyToHost q s) := by
  unfold execCopyToHost
  refine on _ (fun hq => ?_) h
  split
  · exact hq
  · exact ite hq (tookTurn _ (moveOn _ _ _ _ (pieceOut _ _ _ hq)))

theorem poisonRange (a n : Nat) (h : p.Canonical) : (p.poisonRange a n).Canonical := ite h (canonical.agent.agentWriteWords _ _ _ h)

theorem badPiece (q : Nat) (cpl : HostCpl) (a n : Nat) (h : p.Canonical) : (p.badPiece q cpl a n).Canonical := by
  unfold Pkg.badPiece
  extract_lets r t
  have hr : r.Canonical := poisonRange _ _ h
  have ht : t.Canonical := ite hr (canonical.raise _ _ _ hr)
  exact ite (logPoisoned _ ht) ht

theorem execCopyFromHost_kept (q : QueueNo) (cpl : HostCpl) (h : s.pkg.Canonical) : KeepsMemory (execCopyFromHost q cpl s) := by
  unfold execCopyFromHost
  refine on _ (fun hq => ?_) h
  split
  · exact hq
  · exact ite hq (ite (endCommand _ _ _ (tookTurn _ hq)) (ite (endCommand _ _ _ (tookTurn _ hq)) (ite (moveOn _ _ _ _ (canonical.agent.agentWrite _
        _ _ (tookTurn _ hq))) (moveOn _ _ _ _ (badPiece _ _ _ _ (tookTurn _ hq))))))

theorem postWrite (q off : Nat) (b : List Byte) {f : Pkg → Pkg} (hf : ∀ {q : Pkg}, q.Canonical → (f q).Canonical) (h : p.Canonical) :
    OptionCanonical id (p.postWrite q off b f) := by
  unfold Pkg.postWrite
  extract_lets _
  exact option_ite (some_pkg (setQueue _ _ h)) (option_ite (some_pkg (hf h)) of_none)

theorem completionPost (q : Nat) (b : List Byte) (h : p.Canonical) : (p.completionPost q b).Canonical := by
  unfold Pkg.completionPost
  extract_lets _ _
  exact ite h (showQueue _ (setQueue _ _ h))

theorem execCompletionPost_kept (q : QueueNo) (bytes : List Byte) (h : s.pkg.Canonical) : KeepsMemory (execCompletionPost q bytes s) :=
  on _ (fun hq => completionPost _ _ hq) h

theorem placeRecord (q : Nat) (r : CplRec) (rest : List CplRec) (h : p.Canonical) : (p.placeRecord q r rest).1.Canonical := by
  unfold Pkg.placeRecord
  extract_lets _ _ _ _ _ _ t
  have ht : t.Canonical := setReg _ _ (setQueue _ _ h)
  exact fst_ite (sendMsix _ (canonical.agent.agentWrite _ _ _ (canonical.agent.agentWrite _ _ _ ht))) (fst_ite (sendMsix _ (bufferTlp _ ht))
      (canonical.emit _ ht))

theorem writeRecords (n q : Nat) (acc : List Unflushed) (h : p.Canonical) : (Pkg.writeRecords n q p acc).1.Canonical := by
  induction n generalizing p acc with
  | zero => exact h
  | succ n ih =>
    unfold Pkg.writeRecords
    dsimp only
    split
    · exact h
    · exact fst_ite (fst_ite (setQueue _ _ h) (fst_ite h (canonical.raise _ _ _ (setQueue _ _ h)))) (ih _ (placeRecord _ _ _ h))

theorem execCompletionRecordWrite_kept (q : QueueNo) (h : s.pkg.Canonical) : KeepsMemory (execCompletionRecordWrite q s) := by
  unfold execCompletionRecordWrite
  refine on _ (fun hq => ?_) h
  extract_lets r _ t u
  have hr : r.1.Canonical := writeRecords _ _ _ hq
  have ht : t.Canonical := setHost _ hr
  have hu : u.Canonical := by
    simp only [u]
    split
    · exact hr
    · exact canonical.emit _ ht
  exact showQueue _ hu

theorem execFlushReadComplete_kept (h : s.pkg.Canonical) : KeepsMemory (execFlushReadComplete s) := by
  unfold execFlushReadComplete
  refine on _ (fun hq => ?_) h
  split
  · exact hq
  · extract_lets _ r t
    have hr : r.Canonical := setHost _ hq
    have ht : t.Canonical := foldl (fun _ _ ht => canonical.emit _ ht) _ hr
    exact sendMsix _ ht

theorem cqHeadWrite (pt : Path) (q v : Nat) (h : p.Canonical) : (p.cqHeadWrite pt q v).Canonical := by
  unfold Pkg.cqHeadWrite
  extract_lets _ r _
  have hr : r.Canonical := setReg _ _ h
  exact ite (canonical.agent.refuse _ _ _ h) (showQueue _ (setQueue _ _ hr))

theorem execCompletionRingRoom_kept (pt : Path) (q : QueueNo) (v : Nat) (h : s.pkg.Canonical) : KeepsMemory (execCompletionRingRoom pt q v s) :=
  on _ (fun hq => cqHeadWrite _ _ _ hq) h

theorem detach (unacked : Nat) (h : p.Canonical) : (p.detach unacked).Canonical :=
  ite h (foldl (fun _ _ hq => showQueue _ (sendMsix _ (foldl (fun _ _ hr => bufferTlp _ hr) _ hq))) _ (setHost _ (foldl (fun _ _ hq => bufferTlp _
      hq) _ (canonical.raise _ _ _ (setHost _ (setReg _ _ h))))))

theorem detachFor (c : DetachCause) (unacked : Nat) (h : p.Canonical) : (p.detachFor c unacked).Canonical := by
  unfold Pkg.detachFor
  extract_lets q _
  have hq : q.Canonical := detach _ h
  split
  · exact resetPci _ hq
  · exact setPci _ _ hq
  · exact hq
  · exact hq
  · exact hq

theorem execPortHDetach_kept (x : Detach) (h : s.pkg.Canonical) : KeepsMemory (execPortHDetach x s) := on _ (fun hq => detachFor _ _ hq) h

theorem linkUp (i rate width : Nat) (h : p.Canonical) : (p.linkUp i rate width).Canonical :=
  ite h (ite (ite (setHost _ (ite (canonical.raise _ _ _ (canonical.raise _ _ _ (setReg _ _ (setReg _ _ (setReg _ _ h))))) (canonical.raise _ _ _
      (setReg _ _ (setReg _ _ (setReg _ _ h)))))) (drainHost (setHost _ (ite (canonical.raise _ _ _ (canonical.raise _ _ _ (setReg _ _ (setReg _ _
      (setReg _ _ h))))) (canonical.raise _ _ _ (setReg _ _ (setReg _ _ (setReg _ _ h)))))))) (ite (canonical.raise _ _ _ (canonical.raise _ _ _
      (setReg _ _ (setReg _ _ (setReg _ _ h))))) (canonical.raise _ _ _ (setReg _ _ (setReg _ _ (setReg _ _ h))))))

theorem execPcieLinkUp_kept (pt : HostPort) (rate width : Nat) (h : s.pkg.Canonical) : KeepsMemory (execPcieLinkUp pt rate width s) :=
  go (fun hq => ite (linkUp _ _ _ hq) hq) h

theorem linkDown (i st unacked : Nat) (h : p.Canonical) : (p.linkDown i st unacked).Canonical := by
  unfold Pkg.linkDown
  extract_lets _ q r t _
  have hq : q.Canonical := setReg _ _ (setReg _ _ (setReg _ _ h))
  have hr : r.Canonical := ite (canonical.raise _ _ _ (bump _ _ hq)) hq
  have ht : t.Canonical := ite (detach _ hr) hr
  exact ite (setHost _ ht) hr

theorem execPcieLinkDown_kept (pt : HostPort) (unacked : Nat) (h : s.pkg.Canonical) : KeepsMemory (execPcieLinkDown pt unacked s) :=
  go (fun hq => linkDown _ _ _ hq) h

theorem execPerst_kept (pt : HostPort) (unacked : Nat) (h : s.pkg.Canonical) : KeepsMemory (execPerst pt unacked s) := by
  unfold execPerst
  refine go (fun hq => ?_) h
  extract_lets r
  have hr : r.Canonical := linkDown _ _ _ hq
  split
  · exact resetPci _ (detach _ hr)
  · exact resetPci _ hr

theorem sessionRefused (pt : Path) (h : p.Canonical) : (p.sessionRefused pt).Canonical := canonical.raise _ _ _ (canonical.agent.refuse _ _ _ h)

theorem sessionAttach (pt : Path) (token : W64) (h : p.Canonical) : (p.sessionAttach pt token).Canonical :=
  ite (sessionRefused _ h) (ite (canonical.agent.refuse _ _ _ h) (setHost _ (setReg _ _ (setReg _ _ h))))

theorem execSessionAttach_kept (pt : Path) (token : W64) (h : s.pkg.Canonical) : KeepsMemory (execSessionAttach pt token s) :=
  on _ (fun hq => sessionAttach _ _ hq) h

theorem clearOverflow (h : p.Canonical) : p.clearOverflow.Canonical := setReg _ _ (setHost _ h)

theorem sessionResume (pt : Path) (drain : Bool) (h : p.Canonical) : (p.sessionResume pt drain).Canonical :=
  ite (sessionRefused _ h) (canonical.raise _ _ _ (ite (ite (clearOverflow (setReg _ _ h)) (drainHost (clearOverflow (setReg _ _ h)))) (setReg _ _
      (setHost _ (clearOverflow (setReg _ _ h))))))

theorem execSessionResumeDrain_kept (pt : Path) (h : s.pkg.Canonical) : KeepsMemory (execSessionResumeDrain pt s) :=
  on _ (fun hq => sessionResume _ _ hq) h

theorem execSessionResumeDiscard_kept (pt : Path) (h : s.pkg.Canonical) : KeepsMemory (execSessionResumeDiscard pt s) :=
  on _ (fun hq => sessionResume _ _ hq) h

theorem endSession (h : p.Canonical) : p.endSession.Canonical := by
  unfold Pkg.endSession
  extract_lets q _
  have hq : q.Canonical := clearOverflow h
  exact setReg _ _ (setReg _ _ (setHost _ hq))

theorem sessionRelease (pt : Path) (h : p.Canonical) : (p.sessionRelease pt).Canonical := ite h (ite (sessionRefused _ h) (endSession h))

theorem execSessionRelease_kept (pt : Path) (h : s.pkg.Canonical) : KeepsMemory (execSessionRelease pt s) := on _ (fun hq => sessionRelease _ hq) h

theorem execSessionExpiry_kept (h : s.pkg.Canonical) : KeepsMemory (execSessionExpiry s) :=
  on _ (fun hq => ite hq (canonical.raise _ _ _ (ite (setReg _ _ (foldl (fun _ _ hr => ite (beginDisable _ hr) hr) _ (endSession hq))) (foldl (fun
      _ _ hr => ite (beginDisable _ hr) hr) _ (endSession hq))))) h

theorem tokenLow (pt : Path) (h : p.Canonical) : (p.tokenLow pt).2.Canonical := snd_ite (setHost _ h) h

theorem tokenHigh (pt : Path) (h : p.Canonical) : (p.tokenHigh pt).2.Canonical := snd_ite (setHost _ h) h

theorem tokenRead (pt : Path) (h : p.Canonical) : (p.tokenRead pt).2.Canonical := snd_mk (tokenHigh _ (tokenLow _ h))

theorem execSessionTokenRead_kept (pt : Path) (h : s.pkg.Canonical) : KeepsMemory (execSessionTokenRead pt s) :=
  on _ (fun hq => canonical.emit _ (tokenRead _ hq)) h

theorem tlpWrite (pt : HostPort) (r a : Nat) (b : List Byte) (ep : Bool) (h : p.Canonical) : (p.tlpWrite pt r a b ep).Canonical :=
  ite (ite h (logPoisoned _ (canonical.agent.agentWriteWords _ _ _ h))) (canonical.agent.agentWrite _ _ _ h)

theorem execCommandWindowWrite_kept (offset : Nat) (x : TlpData) (h : s.pkg.Canonical) : KeepsMemory (execCommandWindowWrite offset x s) :=
  on _ (fun hq => ite (tlpWrite _ _ _ _ _ hq) hq) h

theorem execIngestWrite_kept (offset : Nat) (x : TlpData) (h : s.pkg.Canonical) : KeepsMemory (execIngestWrite offset x s) :=
  on _ (fun hq => ite hq (ite (ite (bump _ _ hq) (canonical.raise _ _ _ (setHost _ (bump _ _ hq)))) (bump64 _ _ (tlpWrite _ _ _ _ _ hq)))) h

theorem execIngestRead_kept (offset len : Nat) (h : s.pkg.Canonical) : KeepsMemory (execIngestRead offset len s) :=
  on _ (fun hq => ite (canonical.emit _ (canonical.raise _ _ _ (bump _ _ hq))) (canonical.emit _ (canonical.agent.agentRead _ _ _ hq))) h

theorem execNotificationWrite_kept (w : Nat) (h : s.pkg.Canonical) : KeepsMemory (execNotificationWrite w s) :=
  on _ (fun hq => ite hq (canonical.emit _ (bump _ _ (setHost _ hq)))) h

/-! ### The functions of `Machine/Phrase.lean` -/

theorem phraseStore_kept (t : Nat) (o : POut) (n : Nat) (x : VVal) (ready : Nat) (r : PhraseRun) (h : p.Canonical) :
    (phraseStore p t o n x ready r).1.Canonical := by
  unfold phraseStore
  split
  · exact h
  · split
    · exact h
    · extract_lets _ _ _ q _
      have hq : q.Canonical := setVec _ _ h
      split
      · exact fst_mk (vNarrow _ _ _ _ _ _ _ (narrowBanks _ _ _ _ _ hq))
      · exact fst_mk (vStore _ _ _ _ _ (storeBanks _ _ _ _ _ hq))

theorem phraseIteration_kept (t : Nat) (r : PhraseRun) (ins : List VVal) (c : Nat) (h : p.Canonical) :
    (phraseIteration p t r ins c).1.Canonical := by
  unfold phraseIteration
  extract_lets _ _ _ _ _ _ _ _ q u r' v
  have hu : u.Canonical := vecPoison _ _ (setVec _ _ h)
  have hv : v.1.Canonical := by
    refine foldl_of (pkg := Prod.fst) (b := (u, r')) (fun b _ hb => ?_) _ hu
    exact phraseStore_kept _ _ _ _ _ _ hb
  exact hv

theorem phraseBanks_kept (t c : Nat) (h : p.Canonical) : (phraseBanks p t c).1.Canonical := by
  unfold phraseBanks
  extract_lets _
  split
  · exact h
  · refine foldl_of (pkg := Prod.fst) (b := (p, 0)) (fun b _ hb => ?_) _ h
    exact fst_ite (bankUse _ _ _ _ _ hb) hb

theorem phraseAdvance_kept (t n : Nat) (h : p.Canonical) : (phraseAdvance t n p).Canonical := by
  induction n generalizing p with
  | zero => exact h
  | succ n ih =>
    unfold phraseAdvance
    split
    · exact h
    · rename_i r _
      split
      · exact h
      · extract_lets s c report
        have hreport (r : PhraseRun) : (report r p).1.Canonical := fst_ite h (canonical.raise _ _ _ h)
        split
        · exact setVec _ _ (hreport r)
        · extract_lets u q b v _ w
          have hu : u.1.Canonical := fst_ite (hreport r) h
          have hb : b.1.Canonical := phraseBanks_kept _ _ (bump64 _ _ (bump64 _ _ hu))
          have hw : w.1.Canonical := phraseIteration_kept _ _ _ _ (setVec _ _ hb)
          exact ih (drainRows _ _ (setVec _ _ hw))

theorem runPhrase (t : Nat) (h : p.Canonical) : (p.runPhrase t).Canonical := by
  unfold Pkg.runPhrase
  split
  · exact h
  · exact phraseAdvance_kept _ _ h

theorem runVphr_kept (a : VPhrForm) (c : Nat) (h : p.Canonical) : (runVphr p a c).Canonical := by
  unfold runVphr
  extract_lets _ _ _ _ _ _ _
  exact ite h (runPhrase _ (setVec _ _ h))

end

end Canonical

end Sys2Proof.Machine

namespace Sys2Proof.Machine

namespace Canonical

section
variable {p : Pkg} {s : State}

/-! ### The functions of `Machine/VectorSlot.lean` -/

theorem vRun_kept (c : Nat) (x2 : Instr) (h : p.Canonical) : (vRun p c x2).Canonical := by
  unfold vRun
  split
  · exact vLanes_kept _ _ _ _ _ _ h
  · exact vLanes_kept _ _ _ _ _ _ h
  · exact vLanes_kept _ _ _ _ _ _ h
  · exact vLanes_kept _ _ _ _ _ _ h
  · exact vLanes_kept _ _ _ _ _ _ h
  · exact vLanes_kept _ _ _ _ _ _ h
  · exact vLanes_kept _ _ _ _ _ _ h
  · exact vLanes_kept _ _ _ _ _ _ h
  · exact runVcmp_kept _ _ h
  · exact runVsel_kept _ _ h
  · exact vLanes_kept _ _ _ _ _ _ h
  · exact vLanes_kept _ _ _ _ _ _ h
  · exact vLanes_kept _ _ _ _ _ _ h
  · exact vLanes_kept _ _ _ _ _ _ h
  · exact vLanes_kept _ _ _ _ _ _ h
  · exact vLanes_kept _ _ _ _ _ _ h
  · exact vLanes_kept _ _ _ _ _ _ h
  · exact vLanes_kept _ _ _ _ _ _ h
  · exact vLanes_kept _ _ _ _ _ _ h
  · exact vLanes_kept _ _ _ _ _ _ h
  · exact vLanes_kept _ _ _ _ _ _ h
  · exact vLanes_kept _ _ _ _ _ _ h
  · exact vLanes_kept _ _ _ _ _ _ h
  · exact vLanes_kept _ _ _ _ _ _ h
  · exact vLanes_kept _ _ _ _ _ _ h
  · exact vLanes_kept _ _ _ _ _ _ h
  · exact vLanes_kept _ _ _ _ _ _ h
  · exact vLanes_kept _ _ _ _ _ _ h
  · exact runVperm_kept _ _ h
  · exact vMasks_kept _ _ _ h
  · exact vMasks_kept _ _ _ h
  · exact vMasks_kept _ _ _ h
  · exact runVld_kept _ _ h
  · exact runVst_kept _ _ h
  · exact runVnst_kept _ _ h
  · exact runVldq_kept _ _ h
  · exact runVrst_kept _ _ h
  · exact runVred_kept _ _ h
  · exact runVrget_kept _ _ h
  · exact runVphr_kept _ _ h
  · exact runVflg_kept _ _ h
  · exact h

theorem issueV_kept (i : Instr) (t c : Nat) (h : p.Canonical) : (issueV p i t c).Canonical := by
  unfold issueV
  extract_lets q _
  have hq : q.Canonical := vRun_kept _ _ (bump64 _ _ h)
  exact ite (setVec _ _ hq) hq

theorem slotV_kept (i : Instr) (t c : Nat) (h : p.Canonical) : (slotV p i t c).Canonical := by
  unfold slotV
  extract_lets q _
  have hq : q.Canonical := drainRows _ _ h
  exact ite hq (ite (canonical.raise _ _ _ (setVec _ _ hq)) (issueV_kept _ _ _ hq))

theorem execV2_kept (m : String) (a : VRegForm) (i : Instr) (vaOnly : Bool) (h : s.pkg.Canonical) : KeepsMemory (execV2 m a i vaOnly s) :=
  slot _ _ _ (fun hq => slotV_kept _ _ _ hq) h

theorem execVnop_kept (t : TileNo) (h : s.pkg.Canonical) : KeepsMemory (execVnop t s) := on _ (fun hq => ite (setVec _ _ hq) hq) h

theorem execVadd_kept (a : VRegForm) (h : s.pkg.Canonical) : KeepsMemory (execVadd a s) := execV2_kept _ _ _ _ h

theorem execVsub_kept (a : VRegForm) (h : s.pkg.Canonical) : KeepsMemory (execVsub a s) := execV2_kept _ _ _ _ h

theorem execVmul_kept (a : VRegForm) (h : s.pkg.Canonical) : KeepsMemory (execVmul a s) := execV2_kept _ _ _ _ h

theorem execVfma_kept (a : VRegForm) (h : s.pkg.Canonical) : KeepsMemory (execVfma a s) := execV2_kept _ _ _ _ h

theorem execVmax_kept (a : VRegForm) (h : s.pkg.Canonical) : KeepsMemory (execVmax a s) := execV2_kept _ _ _ _ h

theorem execVmin_kept (a : VRegForm) (h : s.pkg.Canonical) : KeepsMemory (execVmin a s) := execV2_kept _ _ _ _ h

theorem execVabs_kept (a : VRegForm) (h : s.pkg.Canonical) : KeepsMemory (execVabs a s) := execV2_kept _ _ _ _ h

theorem execVneg_kept (a : VRegForm) (h : s.pkg.Canonical) : KeepsMemory (execVneg a s) := execV2_kept _ _ _ _ h

theorem execVcmp_kept (a : VCmpForm) (h : s.pkg.Canonical) : KeepsMemory (execVcmp a s) := slot _ _ _ (fun hq => slotV_kept _ _ _ hq) h

theorem execVsel_kept (a : VRegForm) (h : s.pkg.Canonical) : KeepsMemory (execVsel a s) := slot _ _ _ (fun hq => slotV_kept _ _ _ hq) h

theorem execVrcp_kept (a : VRegForm) (h : s.pkg.Canonical) : KeepsMemory (execVrcp a s) := execV2_kept _ _ _ _ h

theorem execVsqrt_kept (a : VRegForm) (h : s.pkg.Canonical) : KeepsMemory (execVsqrt a s) := execV2_kept _ _ _ _ h

theorem execVrsq_kept (a : VRegForm) (h : s.pkg.Canonical) : KeepsMemory (execVrsq a s) := execV2_kept _ _ _ _ h

theorem execVexp2_kept (a : VRegForm) (h : s.pkg.Canonical) : KeepsMemory (execVexp2 a s) := execV2_kept _ _ _ _ h

theorem execVlog2_kept (a : VRegForm) (h : s.pkg.Canonical) : KeepsMemory (execVlog2 a s) := execV2_kept _ _ _ _ h

theorem execVexp_kept (a : VRegForm) (h : s.pkg.Canonical) : KeepsMemory (execVexp a s) := execV2_kept _ _ _ _ h

theorem execVtanh_kept (a : VRegForm) (h : s.pkg.Canonical) : KeepsMemory (execVtanh a s) := execV2_kept _ _ _ _ h

theorem execVsigm_kept (a : VRegForm) (h : s.pkg.Canonical) : KeepsMemory (execVsigm a s) := execV2_kept _ _ _ _ h

theorem execVsinp_kept (a : VRegForm) (h : s.pkg.Canonical) : KeepsMemory (execVsinp a s) := execV2_kept _ _ _ _ h

theorem execVcosp_kept (a : VRegForm) (h : s.pkg.Canonical) : KeepsMemory (execVcosp a s) := execV2_kept _ _ _ _ h

theorem execViadd_kept (a : VRegForm) (h : s.pkg.Canonical) : KeepsMemory (execViadd a s) := execV2_kept _ _ _ _ h

theorem execVand_kept (a : VRegForm) (h : s.pkg.Canonical) : KeepsMemory (execVand a s) := execV2_kept _ _ _ _ h

theorem execVor_kept (a : VRegForm) (h : s.pkg.Canonical) : KeepsMemory (execVor a s) := execV2_kept _ _ _ _ h

theorem execVxor_kept (a : VRegForm) (h : s.pkg.Canonical) : KeepsMemory (execVxor a s) := execV2_kept _ _ _ _ h

theorem execVshl_kept (a : VRegForm) (h : s.pkg.Canonical) : KeepsMemory (execVshl a s) := execV2_kept _ _ _ _ h

theorem execVshr_kept (a : VRegForm) (h : s.pkg.Canonical) : KeepsMemory (execVshr a s) := execV2_kept _ _ _ _ h

theorem execVcvti_kept (a : VRegForm) (h : s.pkg.Canonical) : KeepsMemory (execVcvti a s) := execV2_kept _ _ _ _ h

theorem execVcvtf_kept (a : VRegForm) (h : s.pkg.Canonical) : KeepsMemory (execVcvtf a s) := execV2_kept _ _ _ _ h

theorem execVperm_kept (a : VRegForm) (h : s.pkg.Canonical) : KeepsMemory (execVperm a s) := execV2_kept _ _ _ _ h

theorem execVmand_kept (a : VMaskForm) (h : s.pkg.Canonical) : KeepsMemory (execVmand a s) := slot _ _ _ (fun hq => slotV_kept _ _ _ hq) h

theorem execVmor_kept (a : VMaskForm) (h : s.pkg.Canonical) : KeepsMemory (execVmor a s) := slot _ _ _ (fun hq => slotV_kept _ _ _ hq) h

theorem execVmnot_kept (a : VMaskForm) (h : s.pkg.Canonical) : KeepsMemory (execVmnot a s) := slot _ _ _ (fun hq => slotV_kept _ _ _ hq) h

theorem execVld_kept (a : VMemForm) (h : s.pkg.Canonical) : KeepsMemory (execVld a s) := slot _ _ _ (fun hq => slotV_kept _ _ _ hq) h

theorem execVst_kept (a : VMemForm) (h : s.pkg.Canonical) : KeepsMemory (execVst a s) := slot _ _ _ (fun hq => slotV_kept _ _ _ hq) h

theorem execVnst_kept (a : VMemForm) (h : s.pkg.Canonical) : KeepsMemory (execVnst a s) := slot _ _ _ (fun hq => slotV_kept _ _ _ hq) h

theorem execVldq_kept (a : VMemForm) (h : s.pkg.Canonical) : KeepsMemory (execVldq a s) := slot _ _ _ (fun hq => slotV_kept _ _ _ hq) h

theorem execVrst_kept (a : VMemForm) (h : s.pkg.Canonical) : KeepsMemory (execVrst a s) := slot _ _ _ (fun hq => slotV_kept _ _ _ hq) h

theorem execVred_kept (a : VRedForm) (h : s.pkg.Canonical) : KeepsMemory (execVred a s) := slot _ _ _ (fun hq => slotV_kept _ _ _ hq) h

theorem execVrget_kept (a : VFoldForm) (h : s.pkg.Canonical) : KeepsMemory (execVrget a s) := on _ (fun hq => slotV_kept _ _ _ hq) h

theorem execVphr_kept (a : VPhrForm) (h : s.pkg.Canonical) : KeepsMemory (execVphr a s) := slot _ _ _ (fun hq => slotV_kept _ _ _ hq) h

theorem execPhraseEnd_kept (t : TileNo) (cyc : Nat) (h : s.pkg.Canonical) : KeepsMemory (execPhraseEnd t cyc s) := by
  unfold execPhraseEnd
  refine on _ (fun hq => ?_) h
  extract_lets _ _
  split
  · exact hq
  · exact ite hq (bump64 _ _ (setVec _ _ hq))

theorem execVflg_kept (a : VFlgForm) (h : s.pkg.Canonical) : KeepsMemory (execVflg a s) := on _ (fun hq => slotV_kept _ _ _ hq) h

theorem execVectorInterlockRelease_kept (t : TileNo) (cyc : Nat) (h : s.pkg.Canonical) : KeepsMemory (execVectorInterlockRelease t cyc s) := by
  unfold execVectorInterlockRelease
  refine on _ (fun hq => ?_) h
  extract_lets _
  split
  · exact ite hq (issueV_kept _ _ _ (bump64 _ _ (setVec _ _ hq)))
  · exact hq

theorem execDrainQueueHoldRelease_kept (t : TileNo) (cyc : Nat) (h : s.pkg.Canonical) : KeepsMemory (execDrainQueueHoldRelease t cyc s) := by
  unfold execDrainQueueHoldRelease
  refine on _ (fun hq => ?_) h
  extract_lets r _ u
  have hr : r.Canonical := drainRows _ _ hq
  have hu : u.Canonical := by
    simp only [u]
    split
    · exact ite hr (vRun_kept _ _ (bump64 _ _ (setVec _ _ hr)))
    · exact hr
  exact runPhrase _ hu

/-! ### The functions of `Machine/LoaderCmd.lean` -/

theorem execLoaderOwnerWrite_kept (w : Writer) (v : Nat) (h : s.pkg.Canonical) : KeepsMemory (execLoaderOwnerWrite w v s) := by
  unfold execLoaderOwnerWrite
  refine on _ (fun hq => ?_) h
  split
  · split
    · exact canonical.agent.refuse _ _ _ hq
    · exact hq
  · exact ownerWrite _ _ _ _ _ hq

theorem headRequest (op : LoadOp) (h : p.Canonical) : OptionCanonical Prod.snd (p.headRequest op) := by
  unfold Pkg.headRequest
  split
  · exact of_none
  · exact option_ite (of_some h) of_none

theorem endRequest (r : LoadReq) (status result : Nat) (h : p.Canonical) : (p.endRequest r status result).Canonical := ite h (complete _ _ _ _ h)

theorem refuseRequest (r : LoadReq) (h : p.Canonical) : (p.refuseRequest r).Canonical := endRequest _ _ _ (canonical.raise _ _ _ h)

theorem fixFault (h : p.Canonical) : p.fixFault.Canonical := canonical.setErrBit _ _ h

theorem unloadImage (h : p.Canonical) : p.unloadImage.Canonical := by
  unfold Pkg.unloadImage
  extract_lets _ _ _ q r
  have hq : q.Canonical := h
  have hr : r.Canonical := foldl (fun _ _ hr => setReg _ _ hr) _ hq
  exact canonical.setImageState _ (setReg _ _ (setReg _ _ hr))

theorem execUnload_kept (h : s.pkg.Canonical) : KeepsMemory (execUnload s) := by
  unfold execUnload
  refine on _ (fun hq => ?_) h
  split
  · exact hq
  · rename_i q heq
    have hq : q.Canonical := headRequest _ hq _ heq
    extract_lets _
    exact ite (refuseRequest _ hq) (ite (endRequest _ _ _ hq) (endRequest _ _ _ (canonical.raise _ _ _ (unloadImage hq))))

theorem beginLoad (r : LoadReq) (x : Image × Nat × List Tile) (h : p.Canonical) : (p.beginLoad r x).Canonical := by
  unfold Pkg.beginLoad
  extract_lets q t u _
  have hq : q.2.Canonical := canonical.agent.agentBytes _ _ _ h
  have ht : t.Canonical := canonical.extend _ _ _ _ _ hq
  have hu : u.Canonical := ite ht (unloadImage ht)
  exact canonical.setImageState _ hu

theorem execLoad_kept (h : s.pkg.Canonical) : KeepsMemory (execLoad s) := by
  unfold execLoad
  refine on _ (fun hq => ?_) h
  split
  · exact hq
  · rename_i q heq
    have hq : q.Canonical := headRequest _ hq _ heq
    split
    · exact refuseRequest _ hq
    · split
      · rename_i q1 heq1
        have hq1 : q1.Canonical := snd_of heq1 (canonical.loadCheck _ _ hq)
        exact endRequest _ _ _ (canonical.rejectImage _ hq1)
      · rename_i q1 heq1
        have hq1 : q1.Canonical := snd_of heq1 (canonical.loadCheck _ _ hq)
        exact beginLoad _ _ hq1

theorem execLoadComplete_kept (h : s.pkg.Canonical) : KeepsMemory (execLoadComplete s) := by
  unfold execLoadComplete
  refine on _ (fun hq => ?_) h
  split
  · exact hq
  · exact endRequest _ _ _ (canonical.raise _ _ _ (canonical.setImageState _ (canonical.installImage _ hq)))

theorem directedIn (x : C0In) {act : Pkg → Pkg} (hact : ∀ {q : Pkg}, q.Canonical → (act q).Canonical) (h : p.Canonical) :
    (p.directedIn x act).Canonical := by
  unfold Pkg.directedIn
  extract_lets _ _
  exact ite h (hact (setSched _ h))

theorem execStart_kept (h : s.pkg.Canonical) : KeepsMemory (execStart s) := by
  unfold execStart
  refine on _ (fun hq => ?_) h
  split
  · exact hq
  · rename_i q heq
    have hq : q.Canonical := headRequest _ hq _ heq
    split
    · exact refuseRequest _ hq
    · extract_lets _ _ r _
      have hr : r.Canonical := foldl (fun _ _ hr => canonical.flood _ _ _ hr) _ hq
      exact ite (refuseRequest _ hq) (ite (endRequest _ _ _ (canonical.rejectImage _ hq)) (setSched _ hr))

theorem execStartQuery_kept (x : C0In) (h : s.pkg.Canonical) : KeepsMemory (execStartQuery x s) :=
  on _ (fun hq => directedIn _ (fun hr => canonical.flood _ _ _ hr) hq) h

theorem execStartAnswer_kept (x : C0In) (state imageId variant : Nat) (h : s.pkg.Canonical) :
    KeepsMemory (execStartAnswer x state imageId variant s) := by
  unfold execStartAnswer
  refine on _ (fun hq => ?_) h
  refine directedIn _ (fun hr => ?_) hq
  split
  · exact hr
  · exact setSched _ hr

theorem execStartAnswerDeadline_kept (h : s.pkg.Canonical) : KeepsMemory (execStartAnswerDeadline s) := by
  unfold execStartAnswerDeadline
  refine on _ (fun hq => ?_) h
  split
  · exact ite hq (ite (complete _ _ _ _ (setSched _ (canonical.flood _ _ _ (setSched _ hq)))) (complete _ _ _ _ (canonical.raise _ _ _ (setSched _
        hq))))
  · exact hq

theorem execStartBeatMessage_kept (x : C0In) (beat : Nat) (h : s.pkg.Canonical) : KeepsMemory (execStartBeatMessage x beat s) :=
  on _ (fun hq => floodIn _ _ _ (fun hr => ite (setSched _ hr) (ite (setSched _ hr) hr)) hq) h

theorem execDomainStart_kept (h : s.pkg.Canonical) : KeepsMemory (execDomainStart s) := by
  unfold execDomainStart
  refine on _ (fun hq => ?_) h
  split
  · extract_lets _ _ r t u
    have hr : r.Canonical := setStepc _ (setSched _ hq)
    have ht : t.Canonical := setSched _ hq
    have hu : u.Canonical := setReg _ _ ht
    exact ite (openBlock (canonical.startMethods (canonical.raise _ _ _ (canonical.setImageState _ hr)))) (ite (canonical.setImageState _ (setReg _
        _ hu)) hq)
  · exact hq

theorem haltFrom (b : Nat) (h : p.Canonical) : (p.haltFrom b).Canonical := setSched _ h

theorem execHalt_kept (h : s.pkg.Canonical) : KeepsMemory (execHalt s) := by
  unfold execHalt
  refine on _ (fun hq => ?_) h
  split
  · exact hq
  · rename_i q heq
    have hq : q.Canonical := headRequest _ hq _ heq
    split
    · exact refuseRequest _ hq
    · exact ite (refuseRequest _ hq) (endRequest _ _ _ (haltFrom _ (canonical.flood _ _ _ hq)))

theorem execHaltMessage_kept (x : C0In) (beat : Nat) (h : s.pkg.Canonical) : KeepsMemory (execHaltMessage x beat s) :=
  on _ (fun hq => floodIn _ _ _ (fun hr => ite (haltFrom _ hr) hr) hq) h

theorem haltNow (h : p.Canonical) : p.haltNow.Canonical := by
  unfold Pkg.haltNow
  extract_lets q _ r _ _ t
  have hq : q.Canonical := endStep h
  have hr : r.Canonical := hq
  have ht : t.Canonical := setStepc _ (setSched _ hr)
  exact canonical.setImageState _ (setReg _ _ ht)

theorem execHaltTakeEffect_kept (h : s.pkg.Canonical) : KeepsMemory (execHaltTakeEffect s) := by
  unfold execHaltTakeEffect
  refine on _ (fun hq => ?_) h
  split
  · exact hq
  · exact ite (haltNow hq) hq

/-! ### The functions of `Machine/Securing.lean` -/

theorem protDelta (l : ProtLine) (h : p.Canonical) : (p.protDelta l).Canonical := by
  unfold Pkg.protDelta
  split
  · exact h
  · split
    · exact h
    · extract_lets _
      refine foldl (fun _ _ hq => ?_) _ h
      extract_lets _ r
      have hr : r.2.Canonical := canonical.agent.memCheck _ (canonical.agent.drainLine _ hq)
      split
      · exact canonical.agent.memWrite _ _ hr
      · exact canonical.agent.memWrite _ _ hr

theorem execProtectionDelta_kept (l : ProtLine) (h : s.pkg.Canonical) : KeepsMemory (execProtectionDelta l s) := on _ (fun hq => protDelta _ hq) h

theorem protCopy (l : ProtLine) (h : p.Canonical) : (p.protCopy l).Canonical := by
  unfold Pkg.protCopy
  split
  · exact h
  · extract_lets _
    exact foldl (fun _ _ hq => canonical.memPut _ _ hq) _ h

theorem execProtectionCopy_kept (l : ProtLine) (h : s.pkg.Canonical) : KeepsMemory (execProtectionCopy l s) := on _ (fun hq => protCopy _ hq) h

theorem execTrackedWrite_kept (addr : Nat) (bytes : List Byte) (h : s.pkg.Canonical) : KeepsMemory (execTrackedWrite addr bytes s) := by
  unfold execTrackedWrite
  refine on _ (fun hq => ?_) h
  split
  · exact hq
  · exact ite (canonical.agent.agentWrite _ _ _ hq) hq

theorem execRegionQuery_kept (pt : Path) (v : Nat) (h : s.pkg.Canonical) : KeepsMemory (execRegionQuery pt v s) := by
  unfold execRegionQuery
  refine on _ (fun hq => ?_) h
  refine objWrite _ _ _ (fun hr => ?_) hq
  split
  · exact canonical.agent.refuse _ _ _ hr
  · exact ite (setReg _ _ hr) (canonical.agent.refuse _ _ _ hr)

theorem commitMethods (x : SecPart) (l : List (Nat × Bool)) (h : p.Canonical) : (p.commitMethods x l).Canonical := by
  unfold Pkg.commitMethods
  refine foldl (fun q e hq => canonical.raise _ _ _ ?_) _ h
  have hbuilt := canonical.buildProtection x e.1 e.2 hq
  exact hbuilt

theorem segmentBytes (a n : Nat) (h : p.Canonical) : (p.segmentBytes a n).2.2.Canonical := by
  unfold Pkg.segmentBytes
  extract_lets q
  have hq : q.2.Canonical := canonical.agent.agentRead _ _ _ h
  exact hq

theorem freeBytes (n : Nat) (h : p.Canonical) : (p.freeBytes n).2.Canonical := h

theorem saveBytes (g : SaveSeg) (h : p.Canonical) : (p.saveBytes g).2.2.Canonical := by
  unfold Pkg.saveBytes
  split
  · exact segmentBytes _ _ h
  · exact freeBytes _ h

theorem runSwaps (i : Image) (l : List SaveSeg) (fuel : Nat) (h : p.Canonical) : (p.runSwaps i l fuel).Canonical := by
  induction fuel generalizing p with
  | zero => exact h
  | succ n ih =>
    unfold Pkg.runSwaps
    split
    · exact h
    · exact ite (ih (canonical.finishSwap _ h)) h

theorem advanceSwaps (i : Image) (l : List SaveSeg) (h : p.Canonical) : (p.advanceSwaps i l).Canonical := runSwaps _ _ _ h

theorem writeTrailer (i : Image) (x : SecPart) (hd : SaveHold) (h : p.Canonical) : (p.writeTrailer i x hd).Canonical := by
  unfold Pkg.writeTrailer
  extract_lets _ q r t _ u
  have hq : q.Canonical := canonical.putRecord _ _ h
  have hr : r.Canonical := canonical.raise _ _ _ (setReg _ _ (setReg _ _ hq))
  have ht : t.Canonical := commitMethods _ _ hr
  have hu : u.Canonical := ht
  exact canonical.writeSysPlace _ (advanceSwaps _ _ (writeSysHeader hu))

theorem streamSave (h : p.Canonical) : p.streamSave.Canonical := by
  unfold Pkg.streamSave
  split
  · split
    · exact h
    · extract_lets q r
      have hq : q.2.Canonical := canonical.ringRoom h
      have hr : r.Canonical := hq
      split
      · exact hr
      · split
        · exact writeTrailer _ _ _ hr
        · extract_lets t u _ v w _ x
          have ht : t.2.2.Canonical := saveBytes _ hr
          have hu : u.Canonical := ht
          have hv : v.Canonical := ite (canonical.protWrite _ _ _ _ _ hu) hu
          have hw : w.Canonical := canonical.putRecord _ _ hv
          have hx : x.Canonical := hw
          exact advanceSwaps _ _ hx
  · exact h

theorem execSaveHoldEnd_kept (h : s.pkg.Canonical) : KeepsMemory (execSaveHoldEnd s) := by
  unfold execSaveHoldEnd
  refine on _ (fun hq => ?_) h
  split
  · exact ite hq (ite (endHold (canonical.abandonSave hq)) (ite (endHold hq) hq))
  · exact hq

theorem abandonFrom (b : Nat) (h : p.Canonical) : (p.abandonFrom b).Canonical := h

theorem execSaveStallTimeout_kept (h : s.pkg.Canonical) : KeepsMemory (execSaveStallTimeout s) := by
  unfold execSaveStallTimeout
  refine on _ (fun hq => ?_) h
  split
  · exact ite hq (abandonFrom _ (canonical.flood _ _ _ hq))
  · exact hq

theorem execSaveAbandoned_kept (x : C0In) (beat : Nat) (h : s.pkg.Canonical) : KeepsMemory (execSaveAbandoned x beat s) :=
  on _ (fun hq => floodIn _ _ _ (fun hr => abandonFrom _ hr) hq) h

theorem forceSave (beat pos : Nat) (h : p.Canonical) : (p.forceSave beat pos).Canonical := h

theorem askSave (pos : Nat) (h : p.Canonical) : (p.askSave pos).Canonical := by
  unfold Pkg.askSave
  split
  · exact h
  · extract_lets _
    exact forceSave _ _ (canonical.flood _ _ _ h)

theorem saveRequestWrite (pt : Path) (v : Nat) (h : p.Canonical) : (p.saveRequestWrite pt v).Canonical :=
  objWrite _ _ _ (fun hq => ite (askSave _ hq) (canonical.agent.refuse _ _ _ hq)) h

theorem execSaveRequest_kept (pt : Path) (v : Nat) (h : s.pkg.Canonical) : KeepsMemory (execSaveRequest pt v s) :=
  on _ (fun hq => saveRequestWrite _ _ hq) h

theorem execSaveRequestMessage_kept (x : C0In) (beat position : Nat) (h : s.pkg.Canonical) :
    KeepsMemory (execSaveRequestMessage x beat position s) :=
  on _ (fun hq => floodIn _ _ _ (fun hr => forceSave _ _ hr) hq) h

theorem tableDigest (x : SecPart) (pos n : Nat) (h : p.Canonical) : (p.tableDigest x pos n).2.Canonical := by
  unfold Pkg.tableDigest
  extract_lets _
  exact canonical.agent.agentBytes _ _ _ h

theorem restoreMismatch (h : p.Canonical) : p.restoreMismatch.Canonical := canonical.raise _ _ _ (bump _ _ h)

theorem consumeRecord (h : p.Canonical) : p.consumeRecord.Canonical := by
  unfold Pkg.consumeRecord
  extract_lets _ _
  exact canonical.agent.agentWrite _ _ _ h

theorem execRestoreRecord_kept (h : s.pkg.Canonical) : KeepsMemory (execRestoreRecord s) := by
  unfold execRestoreRecord
  refine on _ (fun hq => ?_) h
  split
  · exact hq
  · split
    · exact hq
    · split
      · rename_i q heq1
        have hq : q.Canonical := snd_of heq1 (canonical.agent.agentBytes _ _ _ hq)
        exact hq
      · rename_i q heq1
        have hq : q.Canonical := snd_of heq1 (canonical.agent.agentBytes _ _ _ hq)
        split
        · exact hq
        · extract_lets _
          split
          · rename_i q1 heq2
            have hq1 : q1.Canonical := snd_of heq2 (canonical.agent.agentBytes _ _ _ hq)
            exact restoreMismatch hq1
          · rename_i q1 heq2
            have hq1 : q1.Canonical := snd_of heq2 (canonical.agent.agentBytes _ _ _ hq)
            extract_lets _ _ _
            split
            · exact consumeRecord hq1
            · split
              · rename_i q2 heq3
                have hq2 : q2.Canonical := snd_of heq3 (canonical.agent.agentBytes _ _ _ hq1)
                exact restoreMismatch hq2
              · rename_i q2 heq3
                have hq2 : q2.Canonical := snd_of heq3 (canonical.agent.agentBytes _ _ _ hq1)
                extract_lets _ r t u
                have hr : r.2.Canonical := snd_ite (tableDigest _ _ _ hq2) hq2
                have ht : t.Canonical := hr
                have hu : u.Canonical := by
                  simp only [u]
                  split
                  · exact canonical.agent.agentWrite _ _ _ ht
                  · split
                    · exact ht
                    · exact canonical.agent.agentWrite _ _ _ ht
                exact ite (restoreMismatch ht) (consumeRecord hu)

/-! ### The functions of `Machine/ConfigImage.lean` -/

theorem applyCfgEntry (e : Nat × Nat × Nat) (h : p.Canonical) : (p.applyCfgEntry e).Canonical := by
  unfold Pkg.applyCfgEntry
  split
  · exact canonical.raise _ _ _ h
  · exact ite (canonical.raise _ _ _ h) (ite (setShadow _ _ (setReg _ _ h)) (setReg _ _ h))

theorem applyCfgImage (b : List Byte) (h : p.Canonical) : (p.applyCfgImage b).Canonical := by
  unfold Pkg.applyCfgImage
  split
  · exact h
  · exact foldl (fun _ _ hq => applyCfgEntry _ hq) _ h

theorem restoreCfg (b : List Byte) (h : p.Canonical) : (p.restoreCfg b).Canonical := by
  unfold Pkg.restoreCfg
  split
  · exact h
  · exact canonical.noteScrub _ (setReg _ _ (applyCfgImage _ h))

end

end Canonical

end Sys2Proof.Machine

namespace Sys2Proof.Machine

namespace Canonical

section
variable {p : Pkg} {s : State}

/-! ### The functions of `Machine/Recovery.lean` -/

theorem setRecov (r : Option Recov) (h : p.Canonical) : (p.setRecov r).Canonical := h

theorem execGatherWindowEnd_kept (h : s.pkg.Canonical) : KeepsMemory (execGatherWindowEnd s) := by
  unfold execGatherWindowEnd
  refine on _ (fun hq => ?_) h
  split
  · exact ite hq (ite (canonical.planNow _ _ (setRecov _ hq)) (setRecov _ hq))
  · exact hq

theorem execRecoveryPlan_kept (x : C0In) (pl : RecPlan) (h : s.pkg.Canonical) : KeepsMemory (execRecoveryPlan x pl s) :=
  on _ (fun hq => floodIn _ _ _ (fun hr => canonical.applyPlan _ hr) hq) h

theorem noticeIn (src pos : Nat) (h : p.Canonical) : (p.noticeIn src pos).Canonical := canonical.noticeIn _ _ (canonical.raise _ _ _ h)

theorem execFailureNotice_kept (x : C0In) (position reporter beat : Nat) (h : s.pkg.Canonical) :
    KeepsMemory (execFailureNotice x position reporter beat s) :=
  on _ (fun hq => floodIn _ _ _ (fun hr => noticeIn _ _ hr) hq) h

theorem execDeadDetectExpiry_kept (port : PortNo) (h : s.pkg.Canonical) : KeepsMemory (execDeadDetectExpiry port s) := by
  unfold execDeadDetectExpiry
  refine on _ (fun hq => ?_) h
  split
  · exact hq
  · extract_lets _ _
    exact ite hq (noticeIn _ _ (canonical.flood _ _ _ hq))

theorem execRecoveryReport_kept (x : C0In) (r : RecReport) (h : s.pkg.Canonical) : KeepsMemory (execRecoveryReport x r s) := by
  unfold execRecoveryReport
  refine on _ (fun hq => ?_) h
  refine directedIn _ (fun hr => ?_) hq
  split
  · exact hr
  · exact setRecov _ hr

theorem execIdleSpareFailure_kept (phys : Nat) (h : s.pkg.Canonical) : KeepsMemory (execIdleSpareFailure phys s) :=
  on _ (fun hq => canonical.loseSpare _ hq) h

theorem rebuildWord (a : Nat) (h : p.Canonical) : (p.rebuildWord a).Canonical := by
  unfold Pkg.rebuildWord
  extract_lets q r t
  have hq : q.2.Canonical := canonical.fresh h
  have hr : r.2.Canonical := canonical.fresh hq
  have ht : t.2.Canonical := canonical.fresh hr
  exact ite (canonical.raise _ _ _ (bump _ _ (canonical.memPut _ _ ht))) (canonical.memPut _ _ ht)

theorem rebuildRange (a n : Nat) (h : p.Canonical) : (p.rebuildRange a n).Canonical := by
  unfold Pkg.rebuildRange
  exact foldl (fun _ _ hq => rebuildWord _ hq) _ h

theorem rebuildSpare (x : SecPart) (h : p.Canonical) : (p.rebuildSpare x).Canonical := by
  unfold Pkg.rebuildSpare
  extract_lets q
  have hq : q.Canonical := foldl (fun _ _ hq => rebuildRange _ _ hq) _ h
  exact rebuildRange _ _ hq

theorem rebuildProtection (x : SecPart) (h : p.Canonical) : (p.rebuildProtection x).Canonical := by
  unfold Pkg.rebuildProtection
  exact foldl (fun _ _ hq => canonical.buildProtection _ _ _ hq) _ h

theorem recordStep (x : SecPart) (h : p.Canonical) : (p.recordStep x).2.Canonical := by
  unfold Pkg.recordStep
  extract_lets q
  have hq : q.2.Canonical := canonical.agent.agentBytes _ _ _ h
  exact hq

theorem resumeKnown (beat step : Nat) (h : p.Canonical) : (p.resumeKnown beat step).Canonical := by
  unfold Pkg.resumeKnown
  split
  · exact h
  · exact setRecov _ h

theorem execRebuildComplete_kept (h : s.pkg.Canonical) : KeepsMemory (execRebuildComplete s) := by
  unfold execRebuildComplete
  refine on _ (fun hq => ?_) h
  split
  · split
    · exact hq
    · exact ite hq (ite (ite (rebuildProtection _ hq) (ite (rebuildSpare _ hq) hq)) (resumeKnown _ _ (canonical.flood _ _ _ (recordStep _ (ite
          (rebuildProtection _ hq) (ite (rebuildSpare _ hq) hq))))))
  · exact hq

theorem execResume_kept (x : C0In) (beat step : Nat) (h : s.pkg.Canonical) : KeepsMemory (execResume x beat step s) :=
  on _ (fun hq => floodIn _ _ _ (fun hr => resumeKnown _ _ hr) hq) h

theorem reloadTiles (i : Image) (f : Nat → Bool) (h : p.Canonical) : OptionCanonical id (p.reloadTiles i f) :=
  fun _ hr => canonical.reloadTiles hr h

theorem restoreRecordState (x : SecPart) (h : p.Canonical) : (p.restoreRecordState x).Canonical := by
  suffices hbody : ∀ f, f = Pkg.restoreRecordState → (f p x).Canonical from hbody _ rfl
  intro f hf
  delta Pkg.restoreRecordState at hf
  subst hf
  beta_reduce
  extract_lets -underBinder q r n t v w
  have hq : q.2.Canonical := canonical.agent.agentBytes _ _ _ h
  have hr : r.Canonical := by
    simp only [r]
    split
    · exact hq
    · exact setReg _ _ (setReg _ _ hq)
  have ht : t.2.Canonical := canonical.agent.agentBytes _ _ _ hr
  have hv : v.Canonical := by
    simp only [v]
    split
    · exact ht
    · exact of_mem ht rfl
  have hw : w.2.Canonical := canonical.agent.agentBytes _ _ _ hv
  -- A read behind a name: the kernel would else evaluate it, at an address with a large offset, when the match on it is taken apart.
  obtain ⟨w', hww, hw'⟩ : ∃ w', w = w' ∧ w'.2.Canonical := ⟨w, rfl, hw⟩
  rw [hww]
  split
  · exact hw'
  · extract_lets y
    have hy : y.2.Canonical := canonical.agent.agentBytes _ _ _ hw'
    obtain ⟨y', hyy, hy'⟩ : ∃ y', y = y' ∧ y'.2.Canonical := ⟨y, rfl, hy⟩
    rw [hyy]
    split
    · exact hy'
    · exact restoreCfg _ hy'

theorem restoreRecordSeqs (x : SecPart) (a : RecPlan) (h : p.Canonical) : (p.restoreRecordSeqs x a).Canonical := by
  unfold Pkg.restoreRecordSeqs
  extract_lets q _ r
  have hq : q.2.Canonical := canonical.agent.agentBytes _ _ _ h
  have hr : r.Canonical := by
    simp only [r]
    split
    · exact hq
    · rename_i b _
      have hset := setReg O.confirmedSeq (fieldAt b 36 4) (setReg O.saveSeq (fieldAt b 32 4) hq)
      exact hset
  exact ite (setReg _ _ (setReg _ _ hr)) hr

theorem keepSaves (a : RecPlan) (l : List Nat) (h : p.Canonical) : (p.keepSaves a l).Canonical := ite (ite h h) (setStepc _ h)

theorem noteResume (r : Recov) (a : RecPlan) (step : Nat) (h : p.Canonical) : (p.noteResume r a step).Canonical := by
  unfold Pkg.noteResume
  split
  · extract_lets _ q
    have hq : q.Canonical := canonical.raise _ _ _ (setReg _ _ (bump _ _ h))
    exact ite (canonical.raise _ _ _ hq) hq
  · extract_lets q
    have hq : q.Canonical := canonical.raise _ _ _ (bump _ _ h)
    exact ite (canonical.raise _ _ _ hq) hq

theorem resumeNow (i : Image) (x : SecPart) (r : Recov) (a : RecPlan) (step : Nat) (h : p.Canonical) : (p.resumeNow i x r a step).Canonical := by
  unfold Pkg.resumeNow
  extract_lets _ _ _ _ q t _ _ _ u _ v w y z q1
  have hq : q.Canonical := setReg _ _ h
  have ht : t.Canonical := setReg _ _ hq
  have hu : u.Canonical := of_mem (p := t) ht (by dsimp only [u])
  have hv : v.Canonical := setSched _ hu
  have hw : w.Canonical := canonical.setImageState _ (setReg _ _ hv)
  have hy : y.Canonical := ite (restoreRecordSeqs _ _ hw) hw
  have hz : z.Canonical := ite (restoreRecordState _ hy) hy
  have hq1 : q1.Canonical := ite (openBlock hz) hz
  exact noteResume _ _ _ (keepSaves _ _ hq1)

theorem execResumeBeat_kept (h : s.pkg.Canonical) : KeepsMemory (execResumeBeat s) := by
  unfold execResumeBeat
  refine on _ (fun hq => ?_) h
  split
  · split
    · split
      · exact hq
      · split
        · exact canonical.rejectImage _ hq
        · rename_i q heq5
          have hq : q.Canonical := reloadTiles _ _ hq _ heq5
          exact resumeNow _ _ _ _ _ hq
    · exact hq
  · exact hq

theorem askRollback (h : p.Canonical) : p.askRollback.Canonical := by
  unfold Pkg.askRollback
  extract_lets _ _
  exact canonical.floodPlan _ h

theorem rollbackWrite (pt : Path) (v : Nat) (h : p.Canonical) : (p.rollbackWrite pt v).Canonical :=
  objWrite _ _ _ (fun hq => ite (canonical.agent.refuse _ _ _ hq) (ite (canonical.agent.refuse _ _ _ hq) (askRollback hq))) h

theorem execRollbackRequest_kept (pt : Path) (v : Nat) (h : s.pkg.Canonical) : KeepsMemory (execRollbackRequest pt v s) :=
  on _ (fun hq => rollbackWrite _ _ hq) h

theorem voteIn (x : C0In) (r : VoteRec) (h : p.Canonical) : (p.voteIn x r).Canonical := by
  unfold Pkg.voteIn
  extract_lets _ _ q _
  have hq : q.Canonical := setStepc _ h
  exact ite (setStepc _ (c0Send _ _ hq)) hq

theorem execVoteRecord_kept (x : C0In) (r : VoteRec) (h : s.pkg.Canonical) : KeepsMemory (execVoteRecord x r s) := by
  unfold execVoteRecord
  refine on _ (fun hq => ?_) h
  split
  · exact hq
  · exact ite (askRollback (canonical.raise _ _ _ hq)) (ite (voteIn _ _ hq) hq)

theorem plannedRemap (h : p.Canonical) : p.plannedRemap.Canonical := by
  unfold Pkg.plannedRemap
  split
  · split
    · exact h
    · extract_lets _ q
      have hq : q.Canonical := h
      split
      · exact hq
      · exact canonical.floodPlan _ hq
  · exact h

theorem endUncovered (h : p.Canonical) : p.endUncovered.Canonical := by
  unfold Pkg.endUncovered
  split
  · exact ite (canonical.haltUncovered h) h
  · exact h

/-! ### The functions of `Machine/Power.lean` -/

theorem setPower (x : Power) (h : p.Canonical) : (p.setPower x).Canonical := h

theorem latchPads (st : Nat) (h : p.Canonical) : (p.latchPads st).Canonical := by
  unfold Pkg.latchPads
  exact foldl (fun _ _ hq => ite hq (setReg _ _ hq)) _ h

theorem releasePad (i : Nat) (h : p.Canonical) : (p.releasePad i).Canonical := by
  unfold Pkg.releasePad
  extract_lets _ q _
  have hq : q.Canonical := setReg _ _ h
  exact ite h (ite (setPower _ hq) hq)

theorem padReleaseWrite (pt : Path) (v : Nat) (h : p.Canonical) : (p.padReleaseWrite pt v).Canonical :=
  objWrite _ _ _ (fun hq => ite (canonical.agent.refuse _ _ _ hq) (ite (canonical.raise _ _ _ (canonical.agent.refuse _ _ _ hq)) (ite (setReg _ _
      (foldl (fun _ _ hr => ite (releasePad _ hr) hr) _ hq)) (foldl (fun _ _ hr => ite (releasePad _ hr) hr) _ hq)))) h

theorem execPadRelease_kept (pt : Path) (v : Nat) (h : s.pkg.Canonical) : KeepsMemory (execPadRelease pt v s) :=
  on _ (fun hq => padReleaseWrite _ _ hq) h

theorem psRefuse (code : Nat) (h : p.Canonical) : (p.psRefuse code).Canonical := canonical.raise _ _ _ (setReg _ _ (setReg _ _ h))

theorem psOwnerWrite (pt : Path) (v : Nat) (h : p.Canonical) : (p.psOwnerWrite pt v).Canonical := by
  unfold Pkg.psOwnerWrite
  split
  · exact canonical.agent.refuse _ _ _ h
  · split
    · exact setReg _ _ h
    · exact h
    · exact setReg _ _ h
    · exact psRefuse _ (canonical.agent.refuse _ _ _ h)

theorem execPsOwnerWrite_kept (pt : Path) (v : Nat) (h : s.pkg.Canonical) : KeepsMemory (execPsOwnerWrite pt v s) :=
  on _ (fun hq => psOwnerWrite _ _ hq) h

theorem switchSupplies (l : List Nat) (on : Bool) (h : p.Canonical) : (p.switchSupplies l on).Canonical := by
  unfold Pkg.switchSupplies
  exact foldl (fun _ _ hq => canonical.emit _ (setReg _ _ hq)) _ h

theorem saveAon (st : Nat) (h : p.Canonical) : (p.saveAon st).Canonical := by
  unfold Pkg.saveAon
  extract_lets _ _ _ _
  exact setPower _ h

theorem entryAction (st k : Nat) (h : p.Canonical) : (p.entryAction st k).Canonical := by
  unfold Pkg.entryAction
  split
  · exact foldl (fun _ _ hq => setReg _ _ (setReg _ _ hq)) _ h
  · extract_lets q
    have hq : q.Canonical := h
    exact foldl (fun _ _ hr => ite hr (canonical.emit _ (setPower _ hr))) _ hq
  · exact h
  · exact saveAon _ h
  · extract_lets q r
    have hq : q.Canonical := linkDown _ _ _ (linkDown _ _ _ h)
    have hr : r.Canonical := ite hq h
    exact switchSupplies _ _ hr
  · exact h

theorem entered (st : Nat) (h : p.Canonical) : (p.entered st).Canonical := by
  unfold Pkg.entered
  extract_lets q r _ t
  have hq : q.Canonical := setReg _ _ (latchPads _ h)
  have hr : r.Canonical := by
    simp only [r]
    split
    · exact setReg O.psOwner 0 hq
    · exact hq
  have ht : t.Canonical := by
    simp only [t]
    split
    · exact of_mem hr rfl
    · exact hr
  exact canonical.raise _ _ _ ht

theorem queuePowering (st : Nat) (h : p.Canonical) : (p.queuePowering st).Canonical := by
  unfold Pkg.queuePowering
  exact foldl (fun _ _ hq => ite hq (setPower _ hq)) _ h

theorem fillBuckets (h : p.Canonical) : p.fillBuckets.Canonical := by
  unfold Pkg.fillBuckets
  exact foldl (fun _ _ hq => setPower _ hq) _ h

theorem beginWake (target : Nat) (h : p.Canonical) : (p.beginWake target).Canonical := by
  unfold Pkg.beginWake
  extract_lets _ _ q r t
  have hq : q.Canonical := setPower _ h
  have hr : r.Canonical := setReg _ _ (setReg _ _ hq)
  have ht : t.Canonical := ite (switchSupplies _ _ hr) hr
  exact queuePowering _ (fillBuckets ht)

theorem restoreBlock (i : Nat) (h : p.Canonical) : (p.restoreBlock i).Canonical := by
  unfold Pkg.restoreBlock
  extract_lets _ _ q _ _ r _ _
  have hq : q.Canonical := canonical.raise _ _ _ (ite h (setReg _ _ h))
  have hr : r.Canonical := foldl (fun _ _ hr => setReg _ _ hr) _ h
  split
  · exact ite hq hq
  · split
    · exact foldl (fun _ _ ht => setShadow _ _ ht) _ hr
    · exact foldl (fun _ _ ht => setReg _ _ ht) _ h
    · exact h
    · exact h
    · exact foldl (fun _ _ ht => setReg _ _ ht) _ h
    · exact h

theorem leftState (st : Nat) (h : p.Canonical) : (p.leftState st).Canonical := by
  unfold Pkg.leftState
  extract_lets q r _
  have hq : q.Canonical := setReg _ _ h
  have hr : r.Canonical := ite (setReg _ _ hq) hq
  split
  · exact takeTail (setReg _ _ (foldl (fun _ _ ht => restoreBlock _ ht) _ (setReg _ _ hq)))
  · exact foldl (fun _ _ ht => restoreBlock _ ht) _ hr
  · exact foldl (fun _ _ ht => setPower _ ht) _ hq
  · exact hq

theorem woken (h : p.Canonical) : p.woken.Canonical := by
  unfold Pkg.woken
  extract_lets _ q
  have hq : q.Canonical := setPower _ h
  exact canonical.raise _ _ _ (setReg _ _ hq)

theorem noteAbort (target code : Nat) (h : p.Canonical) : (p.noteAbort target code).Canonical :=
  canonical.raise _ _ _ (setReg _ _ (setReg _ _ (bump _ _ h)))

theorem execWakeStepDone_kept (h : s.pkg.Canonical) : KeepsMemory (execWakeStepDone s) := by
  unfold execWakeStepDone
  refine on _ (fun hq => ?_) h
  split
  · exact hq
  · exact ite hq (ite (setReg _ _ (setReg _ _ (setPower _ (noteAbort _ _ hq)))) (ite hq (ite (woken (ite (leftState _ hq) hq)) (queuePowering _
        (ite (switchSupplies _ _ (ite (leftState _ hq) hq)) (ite (leftState _ hq) hq))))))

theorem execWakeBudgetStep_kept (rail : Fin 9) (h : s.pkg.Canonical) : KeepsMemory (execWakeBudgetStep rail s) := by
  unfold execWakeBudgetStep
  refine on _ (fun {q} hq => ?_) h
  extract_lets _ _ _ _
  split
  · exact hq
  · extract_lets spent _ exitOf
    have hspent : spent.Canonical := setPower _ hq
    have hexit (n : Nat) : (exitOf n).Canonical := of_mem (p := spent) hspent rfl
    exact ite hq (ite (hexit _) (ite (hexit _) hspent))

theorem wakeDuringEntry (h : p.Canonical) : OptionCanonical id p.wakeDuringEntry := by
  unfold Pkg.wakeDuringEntry
  split
  · exact option_ite of_none (some_pkg (setPower _ h))
  · exact of_none

theorem psRequestWrite (pt : Path) (v : Nat) (h : p.Canonical) : (p.psRequestWrite pt v).Canonical := by
  unfold Pkg.psRequestWrite
  refine objWrite _ _ _ (fun hq => ?_) h
  split
  · exact canonical.agent.refuse _ _ _ hq
  · split
    · rename_i q heq
      have hq : q.Canonical := (option_ite (wakeDuringEntry hq) of_none) _ heq
      exact hq
    · split
      · exact psRefuse _ (bump _ _ (canonical.agent.refuse _ _ _ hq))
      · extract_lets _ _
        exact ite (setReg _ _ (setReg _ _ (setPower _ hq))) (beginWake _ hq)

theorem execPsRequest_kept (pt : Path) (v : Nat) (h : s.pkg.Canonical) : KeepsMemory (execPsRequest pt v s) :=
  on _ (fun hq => psRequestWrite _ _ hq) h

theorem abortEntry (t : Transition) (code : Nat) (h : p.Canonical) : (p.abortEntry t code).Canonical := by
  unfold Pkg.abortEntry
  extract_lets q _ r _ u
  have hq : q.Canonical := noteAbort _ _ h
  have hr : r.Canonical := hq
  have hu : u.Canonical := setPower _ hr
  exact ite (canonical.raise _ _ _ (setReg _ _ (setReg _ _ hu))) (beginWake _ hr)

theorem execPsEntryStepDone_kept (h : s.pkg.Canonical) : KeepsMemory (execPsEntryStepDone s) := by
  unfold execPsEntryStepDone
  refine on _ (fun hq => ?_) h
  split
  · exact hq
  · split
    · exact hq
    · extract_lets _
      split
      · exact hq
      · extract_lets r _ t _
        have hr : r.Canonical := entryAction _ _ hq
        have ht : t.Canonical := ite (entered _ hr) hr
        exact ite (setReg _ _ (setPower _ ht)) (ite (abortEntry _ _ ht) (setPower _ ht))

theorem execPsEntryStepTimeout_kept (h : s.pkg.Canonical) : KeepsMemory (execPsEntryStepTimeout s) := by
  unfold execPsEntryStepTimeout
  refine on _ (fun hq => ?_) h
  split
  · exact hq
  · split
    · exact hq
    · split
      · exact hq
      · exact abortEntry _ _ hq

theorem wakeSource (bit : Nat) (h : p.Canonical) : (p.wakeSource bit).Canonical := by
  unfold Pkg.wakeSource
  split
  · rename_i q heq
    have hq : q.Canonical := wakeDuringEntry h _ heq
    exact hq
  · exact ite h (ite (ite (beginWake _ h) h) (ite (beginWake _ h) h))

theorem execWakeN_kept (h : s.pkg.Canonical) : KeepsMemory (execWakeN s) := on _ (fun hq => ite (wakeSource _ hq) hq) h

theorem commandVdd (d mv : Nat) (h : p.Canonical) : (p.commandVdd d mv).Canonical := canonical.emit _ (setPower _ h)

theorem aclkRefuse (pt : Path) (ab : Nat) (h : p.Canonical) : (p.aclkRefuse pt ab).Canonical :=
  canonical.raise _ _ _ (canonical.agent.refuse _ _ _ h)

theorem aclkDivisorWrite (pt : Path) (v : Nat) (h : p.Canonical) : (p.aclkDivisorWrite pt v).Canonical := by
  unfold Pkg.aclkDivisorWrite
  extract_lets _
  exact ite (aclkRefuse _ _ h) (ite (aclkRefuse _ _ h) (ite (canonical.agent.refuse _ _ _ h) (setShadow _ _ h)))

theorem execAclkDivisorWrite_kept (pt : Path) (v : Nat) (h : s.pkg.Canonical) : KeepsMemory (execAclkDivisorWrite pt v s) :=
  on _ (fun hq => aclkDivisorWrite _ _ hq) h

theorem execDivisorChange_kept (h : s.pkg.Canonical) : KeepsMemory (execDivisorChange s) := by
  unfold execDivisorChange
  refine on _ (fun hq => ?_) h
  split
  · exact hq
  · extract_lets _ _ _ _ r _ _ t u
    have hr : r.Canonical := canonical.declareFailed (canonical.raise _ _ _ hq)
    have ht : t.Canonical := setReg _ _ (setPower _ hq)
    have hu : u.Canonical := ite (foldl (fun _ _ ht => commandVdd _ _ ht) _ ht) ht
    exact ite hq (ite (ite (setPower _ hr) hq) (canonical.raise _ _ _ hu))

theorem execDvfsInterlockRelease_kept (d : DieNo) (h : s.pkg.Canonical) : KeepsMemory (execDvfsInterlockRelease d s) :=
  on _ (fun hq => setPower _ hq) h

theorem execPowerSample_kept (milliwatts : Nat) (h : s.pkg.Canonical) : KeepsMemory (execPowerSample milliwatts s) :=
  on _ (fun hq => ite (bump _ _ (canonical.raise _ _ _ (setReg _ _ (setReg _ _ (setPower _ hq))))) (setReg _ _ (setReg _ _ (setPower _ hq)))) h

/-! ### The functions of `Machine/CfgSwap.lean` -/

theorem setCfg (x : Cfg) (h : p.Canonical) : (p.setCfg x).Canonical := h

theorem cfgArmWrite (pt : Path) (v : Nat) (h : p.Canonical) : (p.cfgArmWrite pt v).Canonical :=
  objWrite _ _ _ (fun hq => ite (canonical.agent.refuse _ _ _ hq) (ite (ite (canonical.agent.refuse _ _ _ hq) (setCfg _ (setReg _ _ (setReg _ _
      hq)))) (ite (canonical.agent.refuse _ _ _ hq) (setReg _ _ (setReg _ _ hq))))) h

theorem execCfgArm_kept (pt : Path) (v : Nat) (h : s.pkg.Canonical) : KeepsMemory (execCfgArm pt v s) := on _ (fun hq => cfgArmWrite _ _ hq) h

theorem execCfgDisarmKept (pt : Path) (h : s.pkg.Canonical) : KeepsMemory (execCfgDisarm pt s) := on _ (fun hq => cfgArmWrite _ _ hq) h

theorem tryLock (h : p.Canonical) : p.tryLock.Canonical := by
  unfold Pkg.tryLock
  split
  · exact ite (setReg _ _ h) h
  · exact h

theorem execCfgArmValidated_kept (h : s.pkg.Canonical) : KeepsMemory (execCfgArmValidated s) := by
  unfold execCfgArmValidated
  refine on _ (fun hq => ?_) h
  split
  · exact hq
  · split
    · exact tryLock (setReg _ _ hq)
    · exact canonical.raise _ _ _ (setReg _ _ (canonical.raise _ _ _ (setReg _ _ hq)))

theorem takeAnnouncement (gen divisor beat : Nat) (h : p.Canonical) : (p.takeAnnouncement gen divisor beat).Canonical := tryLock (setCfg _ h)

theorem cfgSwapWrite (pt : Path) (v : Nat) (h : p.Canonical) : (p.cfgSwapWrite pt v).Canonical := by
  unfold Pkg.cfgSwapWrite
  refine objWrite _ _ _ (fun hq => ?_) h
  extract_lets r _
  have hr : r.Canonical := canonical.agent.refuse _ _ _ hq
  split
  · exact hr
  · split
    · exact hr
    · split
      · exact hr
      · exact takeAnnouncement _ _ _ (canonical.flood _ _ _ hq)

theorem execCfgSwapGen_kept (pt : Path) (v : Nat) (h : s.pkg.Canonical) : KeepsMemory (execCfgSwapGen pt v s) :=
  on _ (fun hq => cfgSwapWrite _ _ hq) h

theorem execSwapAnnouncement_kept (x : C0In) (gen divisor beat : Nat) (h : s.pkg.Canonical) :
    KeepsMemory (execSwapAnnouncement x gen divisor beat s) :=
  on _ (fun hq => floodIn _ _ _ (fun hr => ite (takeAnnouncement _ _ _ hr) hr) hq) h

theorem markRefused (h : p.Canonical) : p.markRefused.Canonical := setCfg _ h

theorem execSwapCutoff_kept (h : s.pkg.Canonical) : KeepsMemory (execSwapCutoff s) := by
  unfold execSwapCutoff
  refine on _ (fun hq => ?_) h
  split
  · exact ite hq (markRefused (canonical.flood _ _ _ hq))
  · exact hq

theorem execSwapRefusal_kept (x : RefusalIn) (h : s.pkg.Canonical) : KeepsMemory (execSwapRefusal x s) :=
  on _ (fun hq => floodIn _ _ _ (fun hr => markRefused hr) hq) h

theorem cfgLocalWrite (pt : Path) (v : Nat) (h : p.Canonical) : (p.cfgLocalWrite pt v).Canonical :=
  objWrite _ _ _ (fun hq => ite (canonical.agent.refuse _ _ _ hq) (ite (canonical.agent.refuse _ _ _ hq) (setCfg _ hq))) h

theorem execCfgSwapLocal_kept (pt : Path) (v : Nat) (h : s.pkg.Canonical) : KeepsMemory (execCfgSwapLocal pt v s) :=
  on _ (fun hq => cfgLocalWrite _ _ hq) h

theorem latchSnapshot (h : p.Canonical) : p.latchSnapshot.Canonical := h

theorem takePeriod (e : Option ProgEntry) (loc : Bool) (h : p.Canonical) : (p.takePeriod e loc).Canonical := by
  refine canonical.takePeriod _ _ _ fun kind => latchSnapshot ?_
  unfold Pkg.numberPeriod
  exact setReg _ _ (setReg _ _ (setReg _ _ (setReg _ _ h)))

theorem firePeriod (h : p.Canonical) : p.firePeriod.Canonical := by
  unfold Pkg.firePeriod
  extract_lets _ _
  exact ite (takePeriod _ _ h) h

theorem execPeriod_kept (h : s.pkg.Canonical) : KeepsMemory (execPeriod s) := on _ (fun hq => firePeriod hq) h

theorem localPeriod (h : p.Canonical) : p.localPeriod.Canonical := ite (takePeriod _ _ h) h

theorem localNow (h : p.Canonical) : p.localNow.Canonical := ite (localPeriod h) h

theorem execPeriodTimerFire_kept (h : s.pkg.Canonical) : KeepsMemory (execPeriodTimerFire s) := on _ (fun hq => ite hq (localNow (setCfg _ hq))) h

theorem askPeriod (h : p.Canonical) : p.askPeriod.Canonical := localNow (setCfg _ h)

theorem periodRequestWrite (pt : Path) (v : Nat) (h : p.Canonical) : (p.periodRequestWrite pt v).Canonical :=
  objWrite _ _ _ (fun hq => ite (askPeriod hq) (canonical.agent.refuse _ _ _ hq)) h

theorem execPeriodRequest_kept (pt : Path) (v : Nat) (h : s.pkg.Canonical) : KeepsMemory (execPeriodRequest pt v s) :=
  on _ (fun hq => periodRequestWrite _ _ hq) h

theorem timerOwnerWrite (pt : Path) (v : Nat) (h : p.Canonical) : (p.timerOwnerWrite pt v).Canonical :=
  ite (canonical.agent.refuse _ _ _ h) (ite (setCfg _ (ownerWrite _ _ _ _ _ h)) (ownerWrite _ _ _ _ _ h))

theorem execPeriodTimerOwnerWrite_kept (pt : Path) (v : Nat) (h : s.pkg.Canonical) : KeepsMemory (execPeriodTimerOwnerWrite pt v s) :=
  on _ (fun hq => timerOwnerWrite _ _ hq) h

theorem prdOutOwnerWrite (pt : Path) (v : Nat) (h : p.Canonical) : (p.prdOutOwnerWrite pt v).Canonical :=
  ite (canonical.agent.refuse _ _ _ h) (ownerWrite _ _ _ _ _ h)

theorem execPrdOutOwnerWrite_kept (pt : Path) (v : Nat) (h : s.pkg.Canonical) : KeepsMemory (execPrdOutOwnerWrite pt v s) :=
  on _ (fun hq => prdOutOwnerWrite _ _ hq) h

theorem timeExchange (x : TimeExchange) (h : p.Canonical) : (p.timeExchange x).Canonical :=
  ite h (ite (ite (canonical.declareFailed (ite (canonical.raise _ _ _ (setSched _ (setCfg _ (setReg _ _ (ite h (setSched _ (setReg _ _ (setReg _ _
      h)))))))) (setSched _ (setCfg _ (setReg _ _ (ite h (setSched _ (setReg _ _ (setReg _ _ h))))))))) (ite (canonical.raise _ _ _ (setSched _
      (setCfg _ (setReg _ _ (ite h (setSched _ (setReg _ _ (setReg _ _ h)))))))) (setSched _ (setCfg _ (setReg _ _ (ite h (setSched _ (setReg _ _
      (setReg _ _ h))))))))) (ite (canonical.declareFailed (canonical.raise _ _ _ (ite (canonical.declareFailed (canonical.raise _ _ _ (ite
      (canonical.declareFailed (ite (canonical.raise _ _ _ (setSched _ (setCfg _ (setReg _ _ (ite h (setSched _ (setReg _ _ (setReg _ _ h))))))))
      (setSched _ (setCfg _ (setReg _ _ (ite h (setSched _ (setReg _ _ (setReg _ _ h))))))))) (ite (canonical.raise _ _ _ (setSched _ (setCfg _
      (setReg _ _ (ite h (setSched _ (setReg _ _ (setReg _ _ h)))))))) (setSched _ (setCfg _ (setReg _ _ (ite h (setSched _ (setReg _ _ (setReg _ _
      h))))))))))) (ite (canonical.declareFailed (ite (canonical.raise _ _ _ (setSched _ (setCfg _ (setReg _ _ (ite h (setSched _ (setReg _ _
      (setReg _ _ h)))))))) (setSched _ (setCfg _ (setReg _ _ (ite h (setSched _ (setReg _ _ (setReg _ _ h))))))))) (ite (canonical.raise _ _ _
      (setSched _ (setCfg _ (setReg _ _ (ite h (setSched _ (setReg _ _ (setReg _ _ h)))))))) (setSched _ (setCfg _ (setReg _ _ (ite h (setSched _
      (setReg _ _ (setReg _ _ h)))))))))))) (ite (canonical.declareFailed (canonical.raise _ _ _ (ite (canonical.declareFailed (ite
      (canonical.raise _ _ _ (setSched _ (setCfg _ (setReg _ _ (ite h (setSched _ (setReg _ _ (setReg _ _ h)))))))) (setSched _ (setCfg _ (setReg _
      _ (ite h (setSched _ (setReg _ _ (setReg _ _ h))))))))) (ite (canonical.raise _ _ _ (setSched _ (setCfg _ (setReg _ _ (ite h (setSched _
      (setReg _ _ (setReg _ _ h)))))))) (setSched _ (setCfg _ (setReg _ _ (ite h (setSched _ (setReg _ _ (setReg _ _ h))))))))))) (ite
      (canonical.declareFailed (ite (canonical.raise _ _ _ (setSched _ (setCfg _ (setReg _ _ (ite h (setSched _ (setReg _ _ (setReg _ _ h))))))))
      (setSched _ (setCfg _ (setReg _ _ (ite h (setSched _ (setReg _ _ (setReg _ _ h))))))))) (ite (canonical.raise _ _ _ (setSched _ (setCfg _
      (setReg _ _ (ite h (setSched _ (setReg _ _ (setReg _ _ h)))))))) (setSched _ (setCfg _ (setReg _ _ (ite h (setSched _ (setReg _ _ (setReg _ _
      h))))))))))))

theorem execTimeExchange_kept (x : TimeExchange) (h : s.pkg.Canonical) : KeepsMemory (execTimeExchange x s) := on _ (fun hq => timeExchange _ hq) h

end

end Canonical

end Sys2Proof.Machine

namespace Sys2Proof.Machine

namespace Canonical

section
variable {p : Pkg} {s : State}

/-! ### The functions of `Machine/LinkPort.lean` -/

theorem sendCodeword (i pos : Nat) (fs : List LinkFlit) (h : p.Canonical) : (p.sendCodeword i pos fs).Canonical := by
  unfold Pkg.sendCodeword
  extract_lets _
  exact canonical.emit _ h

theorem newCodeword (i : Nat) (h : p.Canonical) : (p.newCodeword i).Canonical := by
  unfold Pkg.newCodeword
  extract_lets _ _ _ _ _ _ _ q
  have hq : q.Canonical := sendCodeword _ _ _ (setPort _ _ h)
  exact foldl (fun _ _ hr => freeCredit _ _ hr) _ hq

theorem idleCodeword (i : Nat) (h : p.Canonical) : (p.idleCodeword i).Canonical := by
  unfold Pkg.idleCodeword
  extract_lets _ _
  exact sendCodeword _ _ _ (setPort _ _ h)

theorem transmit (i : Nat) (h : p.Canonical) : (p.transmit i).Canonical := by
  unfold Pkg.transmit
  extract_lets _
  split
  · exact h
  · split
    · split
      · exact setPort _ _ h
      · exact sendCodeword _ _ _ (setPort _ _ h)
    · exact ite (idleCodeword _ h) (newCodeword _ h)

theorem execCodewordTransmit_kept (port : PortNo) (h : s.pkg.Canonical) : KeepsMemory (execCodewordTransmit port s) :=
  on _ (fun hq => transmit _ hq) h

theorem countCredit (h : p.Canonical) : p.countCredit.Canonical := by
  unfold Pkg.countCredit
  exact foldl (fun _ _ hq => ite (bump _ _ (setPort _ _ hq)) hq) _ h

theorem ackIn (i position : Nat) (credits : List Nat) (h : p.Canonical) : (p.ackIn i position credits).Canonical := by
  unfold Pkg.ackIn
  extract_lets _ _
  exact setPort _ _ h

theorem execAckFlit_kept (port : PortNo) (position : Nat) (credits : List Nat) (h : s.pkg.Canonical) :
    KeepsMemory (execAckFlit port position credits s) :=
  on _ (fun hq => ackIn _ _ _ hq) h

theorem nakIn (i position : Nat) (h : p.Canonical) : (p.nakIn i position).Canonical := by
  unfold Pkg.nakIn
  extract_lets _ q
  have hq : q.Canonical := bump _ _ (setPort _ _ h)
  exact ite h (ite hq (canonical.raise _ _ _ hq))

theorem execNakFlit_kept (port : PortNo) (position : Nat) (h : s.pkg.Canonical) : KeepsMemory (execNakFlit port position s) :=
  on _ (fun hq => nakIn _ _ hq) h

theorem applyLink (i : Nat) (h : p.Canonical) : (p.applyLink i).Canonical := by
  unfold Pkg.applyLink
  split
  · exact h
  · extract_lets _ _
    split
    · exact h
    · extract_lets _
      exact setReg _ _ h

theorem failPort (i : Nat) (h : p.Canonical) : (p.failPort i).Canonical := applyLink _ (canonical.raise _ _ _ (setReg _ _ (setPort _ _ h)))

theorem retrain (i : Nat) (lane : Option Nat) (h : p.Canonical) : (p.retrain i lane).Canonical := by
  unfold Pkg.retrain
  extract_lets _ _ q _
  have hq : q.Canonical := ite (canonical.raise _ _ _ (setReg _ _ (setReg _ _ (setPort _ _ h)))) h
  split
  · exact h
  · split
    · exact hq
    · exact ite (setReg _ _ (setPort _ _ hq)) (failPort _ hq)

theorem execLaneLockLoss_kept (port : PortNo) (lane : Option (Fin 8)) (h : s.pkg.Canonical) : KeepsMemory (execLaneLockLoss port lane s) :=
  on _ (fun hq => retrain _ _ hq) h

theorem comeUp (i id : Nat) (port revision : Nat) (h : p.Canonical) : (p.comeUp i id port revision).Canonical :=
  ite (canonical.raise _ _ _ h) (canonical.raise _ _ _ (setReg _ _ (setReg _ _ h)))

theorem execRetrainComplete_kept (w : PortIdentity) (h : s.pkg.Canonical) : KeepsMemory (execRetrainComplete w s) :=
  on _ (fun hq => ite hq (comeUp _ _ _ _ (setPort _ _ (canonical.emit _ hq)))) h

theorem execRetrainLimitExpiry_kept (port : PortNo) (h : s.pkg.Canonical) : KeepsMemory (execRetrainLimitExpiry port s) :=
  on _ (fun hq => ite (failPort _ hq) hq) h

theorem execPortTraining_kept (port : PortNo) (h : s.pkg.Canonical) : KeepsMemory (execPortTraining port s) :=
  on _ (fun hq => ite hq (canonical.emit _ (setReg _ _ (setPort _ _ hq)))) h

theorem identityIn (i id : Nat) (port revision : Nat) (h : p.Canonical) : (p.identityIn i id port revision).Canonical := ite h (comeUp _ _ _ _ h)

theorem execIdentityFlit_kept (p0 : PortNo) (id port revision : Nat) (h : s.pkg.Canonical) : KeepsMemory (execIdentityFlit p0 id port revision s) :=
  on _ (fun hq => identityIn _ _ _ _ hq) h

theorem nameSpare (i lane : Nat) (h : p.Canonical) : (p.nameSpare i lane).Canonical := by
  unfold Pkg.nameSpare
  extract_lets _ _
  exact setPort _ _ h

theorem startSubstitution (i lane : Nat) (h : p.Canonical) : (p.startSubstitution i lane).Canonical := by
  unfold Pkg.startSubstitution
  extract_lets _
  exact ite (canonical.raise _ _ _ h) (ite h (nameSpare _ _ h))

theorem spareNamed (i lane position : Nat) (h : p.Canonical) : (p.spareNamed i lane position).Canonical :=
  ite h (ite (setPort _ _ h) (nameSpare _ _ (setPort _ _ h)))

theorem laneMargin (i lane : Nat) (mv : Int) (h : p.Canonical) : (p.laneMargin i lane mv).Canonical := by
  unfold Pkg.laneMargin
  extract_lets q _
  have hq : q.Canonical := setReg _ _ h
  exact ite hq (startSubstitution _ _ hq)

theorem execLaneMarginLow_kept (port : PortNo) (lane : Fin 9) (mv : Nat) (h : s.pkg.Canonical) : KeepsMemory (execLaneMarginLow port lane mv s) :=
  on _ (fun hq => laneMargin _ _ _ hq) h

theorem execSubstitutionFlit_kept (port : PortNo) (lane : Fin 8) (position : Nat) (h : s.pkg.Canonical) :
    KeepsMemory (execSubstitutionFlit port lane position s) :=
  on _ (fun hq => spareNamed _ _ _ hq) h

theorem execSubstitutionPosition_kept (port : PortNo) (h : s.pkg.Canonical) : KeepsMemory (execSubstitutionPosition port s) := by
  unfold execSubstitutionPosition
  refine on _ (fun hq => ?_) h
  extract_lets _
  split
  · exact ite (canonical.raise _ _ _ (setReg _ _ hq)) hq
  · exact hq

/-- What a class-0 message means keeps the form. -/
theorem messageMeaning_kept {x : C0In} {m : C0Msg} {f : State → Host.Outcome State Fault Refusal} (hf : messageMeaning x m = some f) {s : State}
    (h : s.pkg.Canonical) : KeepsMemory (f s) := by
  unfold messageMeaning at hf
  dsimp only at hf
  split at hf
  all_goals cases hf
  · exact execSlipRequest_kept _ _ _ h
  · exact execVoteRecord_kept _ _ h
  · exact execStartQuery_kept _ h
  · exact execStartAnswer_kept _ _ _ _ h
  · exact execStartBeatMessage_kept _ _ h
  · exact execHaltMessage_kept _ _ h
  · exact execSaveRequestMessage_kept _ _ _ h
  · exact execFailureNotice_kept _ _ _ _ h
  · exact execRecoveryPlan_kept _ _ h
  · exact execSaveAbandoned_kept _ _ h
  · exact execResume_kept _ _ _ h
  · exact execRecoveryReport_kept _ _ h
  · exact execSwapAnnouncement_kept _ _ _ _ h
  · exact execSwapRefusal_kept _ h

theorem messageIn (port : PortNo) (m : C0Msg) (h : p.Canonical) : (p.messageIn port m).Canonical := by
  unfold Pkg.messageIn
  extract_lets x
  split
  case h_1 => exact canonical.raise _ _ _ h
  case h_2 f hf => exact ite (ite h (c0Send _ _ (setSched _ h))) (via (messageMeaning_kept hf) h)

theorem class0In (port : PortNo) (m : C0Msg) (seq : Nat) (replayed : Bool) (h : p.Canonical) : (p.class0In port m seq replayed).Canonical := by
  unfold Pkg.class0In
  extract_lets _ _ q r
  have hq : q.Canonical := setPort _ _ h
  have hr : r.Canonical := ite (canonical.raise _ _ _ (bump _ _ hq)) hq
  exact ite h (messageIn _ _ hr)

theorem execClass0Flit_kept (port : PortNo) (m : C0Msg) (_copy : Bool) (seq : Nat) (replayed : Bool) (h : s.pkg.Canonical) :
    KeepsMemory (execClass0Flit port m _copy seq replayed s) :=
  on _ (fun hq => class0In _ _ _ _ (freeCredit _ _ hq)) h

theorem inOrder (f : LinkFlit) (h : p.Canonical) : (p.inOrder f).2.Canonical := by
  unfold Pkg.inOrder
  extract_lets _ _
  exact snd_ite (canonical.agent.setPartner _ _ h) (canonical.declareFailed (canonical.raise _ _ _ (bump _ _ (canonical.agent.setPartner _ _ h))))

theorem chunkFlitIn (i : Nat) (f : LinkFlit) (h : p.Canonical) : (p.chunkFlitIn i f).Canonical := by
  unfold Pkg.chunkFlitIn
  extract_lets _ _ _
  exact drainChan _ _ (setChan _ _ _ h)

theorem streamFlitIn (f : LinkFlit) (h : p.Canonical) : (p.streamFlitIn f).Canonical := by
  unfold Pkg.streamFlitIn
  extract_lets _ _ _ q
  have hq : q.Canonical := h
  split
  · exact h
  · split
    · exact h
    · extract_lets _
      exact ite (protDelta _ hq) (protCopy _ hq)

theorem linkDeliver (i : Nat) (f : LinkFlit) (h : p.Canonical) : (p.linkDeliver i f).Canonical := by
  unfold Pkg.linkDeliver
  extract_lets q r
  have hq : q.2.Canonical := inOrder _ h
  have hr : r.Canonical := freeCredit _ _ hq
  exact ite (freeCredit _ _ hq) (ite (chunkFlitIn _ _ hq) (ite (streamFlitIn _ hr) (canonical.agent.pushFlit _ hr)))

theorem forward (came : Nat) (f : LinkFlit) (h : p.Canonical) : (p.forward came f).Canonical := by
  unfold Pkg.forward
  split
  · exact canonical.raise _ _ _ (freeCredit _ _ h)
  · extract_lets _
    exact canonical.agent.queueFlit _ _ h

theorem timeFlitIn (i : Nat) (b : List Byte) (h : p.Canonical) : (p.timeFlitIn i b).Canonical :=
  ite (setPort _ _ h) (ite (timeExchange _ (canonical.fresh h)) h)

theorem askTime (h : p.Canonical) : p.askTime.Canonical := by
  unfold Pkg.askTime
  extract_lets _ _
  exact ite h (setPort _ _ h)

theorem localIn (i : Nat) (f : LinkFlit) (h : p.Canonical) : (p.localIn i f).Canonical := by
  unfold Pkg.localIn
  extract_lets _
  split
  · exact ackIn _ _ _ h
  · exact nakIn _ _ h
  · exact identityIn _ _ _ _ h
  · exact spareNamed _ _ _ h
  · exact timeFlitIn _ _ h
  · exact h

theorem class0FlitIn (port : PortNo) (replayed : Bool) (f : LinkFlit) (h : p.Canonical) : (p.class0FlitIn port replayed f).Canonical :=
  ite h (class0In _ _ _ _ h)

theorem flitIn (port : PortNo) (replayed : Bool) (f : LinkFlit) (h : p.Canonical) : (p.flitIn port replayed f).Canonical := by
  unfold Pkg.flitIn
  extract_lets _
  exact ite (ite (localIn _ _ h) (class0FlitIn _ _ _ (freeCredit _ _ h))) (ite (linkDeliver _ _ h) (forward _ _ h))

theorem badCodeword (i : Nat) (h : p.Canonical) : (p.badCodeword i).Canonical := by
  unfold Pkg.badCodeword
  extract_lets q _ _ r
  have hq : q.Canonical := bump _ _ h
  have hr : r.Canonical := setPort _ _ hq
  exact ite (retrain _ _ hr) hr

theorem discardCodeword (port : PortNo) (fs : List LinkFlit) (replayed : Bool) (h : p.Canonical) :
    (p.discardCodeword port fs replayed).Canonical := by
  unfold Pkg.discardCodeword
  exact foldl (fun _ _ hq => class0FlitIn _ _ _ hq) _ (bump _ _ h)

theorem receive (port : PortNo) (w : RxCodeword) (h : p.Canonical) : (p.receive port w).Canonical := by
  unfold Pkg.receive
  extract_lets _ _ _ q r _ t
  have hq : q.Canonical := ite (bump64 _ _ h) h
  have hr : r.Canonical := setPort _ _ hq
  have ht : t.Canonical := setPort _ _ hr
  split
  · exact h
  · split
    · split
      · exact badCodeword _ hr
      · exact foldl (fun _ _ ht => flitIn _ _ _ ht) _ ht
    · exact ite (discardCodeword _ _ _ hr) hr

theorem execCodewordReceive_kept (port : PortNo) (cw : RxCodeword) (h : s.pkg.Canonical) : KeepsMemory (execCodewordReceive port cw s) :=
  on _ (fun hq => receive _ _ hq) h

theorem crossBridge (b : Nat) (w : SilzinWord) (h : p.Canonical) : (p.crossBridge b w).Canonical := by
  unfold Pkg.crossBridge
  extract_lets _ _ _ q
  have hq : q.Canonical := h
  split
  · exact canonical.emit _ hq
  · exact canonical.emit _ hq
  · exact canonical.emit _ hq
  · exact canonical.emit _ (canonical.raise _ _ _ (bump _ _ hq))

theorem execSilzinWordReceive_kept (b : Fin 13) (w : SilzinWord) (h : s.pkg.Canonical) : KeepsMemory (execSilzinWordReceive b w s) :=
  on _ (fun hq => crossBridge _ _ hq) h

theorem linkTestOwnerWrite (w : Writer) (d v : Nat) (h : p.Canonical) : (p.linkTestOwnerWrite w d v).Canonical := by
  unfold Pkg.linkTestOwnerWrite
  split
  · split
    · exact canonical.agent.refuse _ _ _ h
    · exact h
  · exact ownerWrite _ _ _ _ _ h

theorem execLinkTestOwnerWrite_kept (w : Writer) (d : Fin 2) (v : Nat) (h : s.pkg.Canonical) : KeepsMemory (execLinkTestOwnerWrite w d v s) :=
  on _ (fun hq => linkTestOwnerWrite _ _ _ hq) h

theorem linkTestRequest (pt : Path) (d v : Nat) (h : p.Canonical) : (p.linkTestRequest pt d v).Canonical := by
  unfold Pkg.linkTestRequest
  extract_lets _
  exact objWrite _ _ _ (fun hq => ite (canonical.agent.refuse _ _ _ hq) (ite (canonical.agent.refuse _ _ _ hq) (ite (canonical.agent.refuse _ _ _
      hq) hq))) h

theorem execLinkTestRequest_kept (pt : Path) (d : Fin 2) (v : Nat) (h : s.pkg.Canonical) : KeepsMemory (execLinkTestRequest pt d v s) :=
  on _ (fun hq => linkTestRequest _ _ _ hq) h

/-! ### The functions of `Machine/Wear.lean` -/

theorem setWear (x : Wear) (h : p.Canonical) : (p.setWear x).Canonical := h

theorem wearReading (r : Nat × Int) (h : p.Canonical) : (p.wearReading r).Canonical := by
  unfold Pkg.wearReading
  extract_lets _ _ q _ _ _ _
  have hq : q.Canonical := ite h (ite (laneMargin _ _ _ h) (setReg _ _ h))
  exact ite h (ite (setWear _ hq) (ite (setWear _ h) h))

theorem claimScan (d : Nat) (h : p.Canonical) : (p.claimScan d).Canonical := ownerWrite _ _ _ _ _ h

theorem endScan (d : Nat) (h : p.Canonical) : (p.endScan d).Canonical := ite (setReg _ _ h) h

theorem wearScan (readings : List (Nat × Int)) (h : p.Canonical) : (p.wearScan readings).Canonical := by
  unfold Pkg.wearScan
  extract_lets _ q _
  have hq : q.Canonical := foldl (fun _ _ hq => claimScan _ hq) _ h
  exact foldl (fun _ _ hr => endScan _ hr) _ (foldl (fun _ _ hr => wearReading _ hr) _ hq)

theorem execWearSample_kept (readings : List (Nat × Int)) (h : s.pkg.Canonical) : KeepsMemory (execWearSample readings s) :=
  on _ (fun hq => ite hq (wearScan _ hq)) h

theorem wearWord (v : Int) (h : p.Canonical) : (p.wearWord v).2.Canonical := snd_ite h (canonical.fresh h)

theorem storeValue (key : Nat) (h : p.Canonical) : (p.storeValue key).Canonical := by
  unfold Pkg.storeValue
  split
  · exact h
  · extract_lets q r _ _ _
    have hq : q.2.Canonical := wearWord _ h
    have hr : r.Canonical := hq
    exact setWear _ hr

theorem predictAll (h : p.Canonical) : p.predictAll.Canonical := by
  unfold Pkg.predictAll
  extract_lets _ _ q
  have hq : q.Canonical := setWear _ h
  exact foldl (fun _ _ hr => setReg _ _ hr) _ hq

theorem retireWorn (h : p.Canonical) : p.retireWorn.Canonical := by
  unfold Pkg.retireWorn
  exact foldl (fun _ _ hq => ite (canonical.retireTile _ hq) hq) _ h

theorem qualifySpare (u : Nat) (h : p.Canonical) : (p.qualifySpare u).2.Canonical := by
  unfold Pkg.qualifySpare
  extract_lets _ _ _ q r _
  have hq : q.Canonical := ownerWrite _ _ _ _ _ h
  have hr : r.Canonical := hq
  exact snd_ite hq (setWear _ (setReg _ _ hr))

theorem useSpare (kind u : Nat) (h : p.Canonical) : (p.useSpare kind u).2.Canonical := by
  unfold Pkg.useSpare
  split
  · exact qualifySpare _ h
  · exact snd_ite (setWear _ (canonical.raise _ _ _ h)) (setShadow _ _ h)
  · exact startSubstitution _ _ h
  · exact startSubstitution _ _ h
  · exact setShadow _ _ h
  · exact setShadow _ _ h
  · exact h

theorem wearUnit (x : Nat × Nat × Nat) (h : p.Canonical) : (p.wearUnit x).2.Canonical := by
  unfold Pkg.wearUnit
  extract_lets _ q
  have hq : q.2.Canonical := useSpare _ _ h
  split
  · exact h
  · split
    · exact h
    · exact snd_ite (canonical.raise _ _ _ h) (ite (bump _ _ (canonical.raise _ _ _ hq)) hq)
    · exact bump _ _ (canonical.raise _ _ _ h)

theorem setPackageEol (days source : Nat) (h : p.Canonical) : (p.setPackageEol days source).Canonical := by
  unfold Pkg.setPackageEol
  extract_lets _ q
  have hq : q.Canonical := setReg _ _ (setReg _ _ h)
  exact ite (askSave _ (canonical.raise _ _ _ hq)) hq

theorem wearActions (h : p.Canonical) : p.wearActions.Canonical := by
  unfold Pkg.wearActions
  extract_lets q _
  have hq : q.2.Canonical := by
    refine foldl_of (pkg := Prod.snd) (b := ([], p)) (fun b _ hb => ?_) _ h
    exact wearUnit _ hb
  exact setPackageEol _ _ hq

theorem queueFlash (prio offset : Nat) (bytes : List Byte) (h : p.Canonical) : (p.queueFlash prio offset bytes).Canonical := h

theorem queueWearArea (h : p.Canonical) : p.queueWearArea.Canonical := queueFlash _ _ _ (queueFlash _ _ _ h)

theorem execWearCheckpoint_kept (h : s.pkg.Canonical) : KeepsMemory (execWearCheckpoint s) :=
  on _ (fun hq => ite hq (queueWearArea (retireWorn (wearActions (predictAll (foldl (fun _ _ hr => storeValue _ hr) _ hq)))))) h

theorem wearQueryWrite (pt : Path) (v : Nat) (h : p.Canonical) : (p.wearQueryWrite pt v).Canonical :=
  objWrite _ _ _ (fun hq => ite (setReg _ _ hq) (canonical.agent.refuse _ _ _ hq)) h

theorem execWearQuery_kept (pt : Path) (v : Nat) (h : s.pkg.Canonical) : KeepsMemory (execWearQuery pt v s) :=
  on _ (fun hq => wearQueryWrite _ _ hq) h

theorem repairDone (n : Nat) (exhausted : Bool) (left : Nat) (h : p.Canonical) : (p.repairDone n exhausted left).Canonical := by
  unfold Pkg.repairDone
  split
  · exact h
  · exact ite h (releaseRepair _ (ite (setPackageEol _ _ (setReg _ _ (setWear _ (canonical.raise _ _ _ (bump16 _ _ (setReg _ _ h))))))
        (canonical.raise _ _ _ (bump _ _ (rewriteRow _ (setReg _ _ h))))))

theorem execRepairDone_kept (n : DieNo) (bankExhausted : Bool) (leftAfter : Nat) (h : s.pkg.Canonical) :
    KeepsMemory (execRepairDone n bankExhausted leftAfter s) :=
  on _ (fun hq => repairDone _ _ _ hq) h

/-! ### The functions of `Machine/Supply.lean` -/

theorem setSupply (x : Supply) (h : p.Canonical) : (p.setSupply x).Canonical := h

theorem setBoot (x : Boot) (h : p.Canonical) : (p.setBoot x).Canonical := h

theorem noticeOfReset (h : p.Canonical) : p.noticeOfReset.Canonical := ite (canonical.raise _ _ _ (canonical.flood _ _ _ h)) h

theorem resetAll (kept : Bool) (h : p.Canonical) : (p.resetAll kept).Canonical := by
  obtain ⟨d, l, hd⟩ := resetAll_same p kept
  rw [hd]
  show Memory.wf (if kept then mainCells p.mem else []) = true
  split
  · exact wf_filter _ h
  · rfl

theorem coldReset (cause : Nat) (kept : Bool) (h : p.Canonical) : (p.coldReset cause kept).Canonical :=
  ite (setReg _ _ h) (fixFault (setBoot _ (setReg _ _ (bump _ _ (resetAll _ (noticeOfReset h))))))

theorem commandOn (s : Nat) (h : p.Canonical) : (p.commandOn s).Canonical := ite h (canonical.emit _ (setReg _ _ (ite (commandVdd _ _ h) h)))

theorem sequenceFrom (n k : Nat) (h : p.Canonical) : (Pkg.sequenceFrom n k p).Canonical := by
  induction n generalizing k p with
  | zero => exact setBoot _ (setSupply _ h)
  | succ n ih =>
    have hon : ((stepSupplies k).foldl Pkg.commandOn (p.setSupply { p.supply with seqStep := k })).Canonical :=
      foldl (fun _ _ hq => commandOn _ hq) _ (setSupply _ h)
    exact ite (ih _ hon) hon

theorem runSequence (k : Nat) (h : p.Canonical) : (p.runSequence k).Canonical := sequenceFrom _ _ h

theorem stopSequence (s : Nat) (h : p.Canonical) : (p.stopSequence s).Canonical := by
  unfold Pkg.stopSequence
  extract_lets q _
  have hq : q.Canonical := canonical.raise _ _ _ (setReg _ _ h)
  exact fixFault (setSupply _ hq)

theorem noAnswer (s : Nat) (h : p.Canonical) : (p.noAnswer s).Canonical := canonical.raise _ _ _ (bump _ _ h)

theorem execPwrOkRise_kept (silentRegulators : List Nat) (h : s.pkg.Canonical) : KeepsMemory (execPwrOkRise silentRegulators s) := by
  unfold execPwrOkRise
  refine go (fun hq => ?_) h
  split
  · exact hq
  · extract_lets r _ _ t u
    have hr : r.Canonical := reset
    have ht : t.Canonical := hr
    have hu : u.Canonical := setReg _ _ ht
    split
    · exact runSequence _ hu
    · exact foldl (fun _ _ ht => stopSequence _ (noAnswer _ ht)) _ hu

theorem execSupplyPowerGood_kept (sup : Fin 21) (h : s.pkg.Canonical) : KeepsMemory (execSupplyPowerGood sup s) :=
  go (fun hq => ite hq (ite (runSequence _ (setReg _ _ hq)) (setReg _ _ hq))) h

theorem execPowerGoodTimeout_kept (sup : Fin 21) (h : s.pkg.Canonical) : KeepsMemory (execPowerGoodTimeout sup s) :=
  go (fun hq => ite (stopSequence _ hq) hq) h

theorem execPwrOkFall_kept (h : s.pkg.Canonical) : KeepsMemory (execPwrOkFall s) :=
  go (fun hq => ite hq (setSupply _ (canonical.emit _ (switchSupplies _ _ (resetAll _ (noticeOfReset (canonical.raise _ _ _ hq))))))) h

theorem execResetNAssert_kept (memoryConfirmed : Bool) (h : s.pkg.Canonical) : KeepsMemory (execResetNAssert memoryConfirmed s) :=
  go (fun hq => ite (setReg _ _ (setSupply _ hq)) (ite (runSequence _ (setBoot _ (coldReset _ _ (setSupply _ hq)))) (coldReset _ _ (setSupply _
      hq)))) h

theorem packageResetWrite (pt : Path) (v : Nat) (kept : Bool) (h : p.Canonical) : (p.packageResetWrite pt v kept).Canonical :=
  objWrite _ _ _ (fun hq => coldReset _ _ hq) h

theorem execPackageReset_kept (pt : Path) (v : Nat) (memoryConfirmed : Bool) (h : s.pkg.Canonical) :
    KeepsMemory (execPackageReset pt v memoryConfirmed s) :=
  on _ (fun hq => packageResetWrite _ _ _ hq) h

theorem execColdResetRelease_kept (recoveryN testMode : Bool) (h : s.pkg.Canonical) : KeepsMemory (execColdResetRelease recoveryN testMode s) :=
  on _ (fun hq => ite hq (ite (setReg _ _ hq) (fixFault (setBoot _ (setSupply _ hq))))) h

theorem execRefclkLoss_kept (h : s.pkg.Canonical) : KeepsMemory (execRefclkLoss s) :=
  go (fun hq => ite hq (setBoot _ (setSupply _ (setReg _ _ (bump _ _ (canonical.declareFailed (canonical.raise _ _ _ hq))))))) h

theorem execRefclkRestored_kept (memoryConfirmed : Bool) (h : s.pkg.Canonical) : KeepsMemory (execRefclkRestored memoryConfirmed s) :=
  go (fun hq => ite hq (coldReset _ _ (setSupply _ (setReg _ _ (canonical.raise _ _ _ hq))))) h

theorem stopPllUnit (u : Nat) (h : p.Canonical) : (p.stopPllUnit u).Canonical := by
  unfold Pkg.stopPllUnit
  extract_lets _ q
  have hq : q.Canonical := setSupply _ h
  exact ite (setReg _ _ hq) (ite (linkDown _ _ _ hq) (ite (linkDown _ _ _ hq) hq))

theorem loseRoot (h : p.Canonical) : p.loseRoot.Canonical := ite (setSupply _ h) (setReg _ _ h)

theorem execPllUnlock_kept (u : Pll) (h : s.pkg.Canonical) : KeepsMemory (execPllUnlock u s) := by
  unfold execPllUnlock
  refine go (fun hq => ?_) h
  extract_lets r
  have hr : r.Canonical := canonical.raise _ _ _ (bump _ _ hq)
  split
  · exact loseRoot (canonical.declareFailed hr)
  · exact stopPllUnit _ hr

theorem failBoot (h : p.Canonical) : p.failBoot.Canonical := by
  unfold Pkg.failBoot
  extract_lets q _
  have hq : q.Canonical := canonical.raise _ _ _ (setReg _ _ (setReg _ _ h))
  exact setBoot _ hq

theorem execPllLockTimeout_kept (u : Pll) (h : s.pkg.Canonical) : KeepsMemory (execPllLockTimeout u s) := by
  unfold execPllLockTimeout
  refine go (fun hq => ?_) h
  extract_lets r
  have hr : r.Canonical := canonical.raise _ _ _ hq
  split
  · exact ite hr (failBoot hr)
  · exact stopPllUnit _ hr

theorem supplyFaultAt (s : Nat) (h : p.Canonical) : (p.supplyFaultAt s).Canonical := canonical.declareFailed (canonical.raise _ _ _ (setReg _ _ h))

theorem supplyReading (s mv ma : Nat) (h : p.Canonical) : (p.supplyReading s mv ma).Canonical := by
  unfold Pkg.supplyReading
  extract_lets q _ _ r _ _ t
  have hq : q.Canonical := setReg _ _ (setReg _ _ h)
  have hr : r.Canonical := ite (setReg _ _ hq) hq
  have ht : t.Canonical := setSupply _ hr
  exact ite (canonical.raise _ _ _ ht) ht

theorem telemetry (s : Nat) (x : Telemetry) (h : p.Canonical) : (p.telemetry s x).Canonical := by
  unfold Pkg.telemetry
  split
  · exact supplyReading _ _ _ h
  · exact bump _ _ h
  · exact ite h (ite (bump _ _ h) (supplyFaultAt _ (noAnswer _ h)))
  · exact ite h (supplyFaultAt _ h)
  · exact ite h (canonical.raise _ _ _ h)

theorem execPmbAlert_kept (sup : Fin 18) (x : Telemetry) (h : s.pkg.Canonical) : KeepsMemory (execPmbAlert sup x s) := by
  unfold execPmbAlert
  refine on _ (fun hq => ?_) h
  extract_lets r
  have hr : r.Canonical := canonical.emit _ hq
  split
  · exact hr
  · exact hr
  · exact telemetry _ _ hr

theorem execTelemetryPoll_kept (sup : Fin 21) (x : Telemetry) (h : s.pkg.Canonical) : KeepsMemory (execTelemetryPoll sup x s) :=
  on _ (fun hq => telemetry _ _ (ite (canonical.emit _ hq) hq)) h

theorem temperature (k unit : Nat) (key limit : Nat) (t : Int) (h : p.Canonical) : (p.temperature k unit key limit t).Canonical := by
  unfold Pkg.temperature
  extract_lets q _ _ _
  have hq : q.Canonical := setReg _ _ h
  exact ite (ite hq (canonical.raise _ _ _ (setSupply _ hq))) (ite (setSupply _ hq) hq)

theorem execThermalSample_kept (dieTemps stackTemps : List Int) (h : s.pkg.Canonical) : KeepsMemory (execThermalSample dieTemps stackTemps s) :=
  on _ (fun hq => foldl (fun _ _ hr => temperature _ _ _ _ _ hr) _ (foldl (fun _ _ hr => temperature _ _ _ _ _ hr) _ hq)) h

theorem execThermalTrip_kept (unit : Fin 22) (h : s.pkg.Canonical) : KeepsMemory (execThermalTrip unit s) :=
  go (fun hq => ite hq (canonical.emit _ (of_nil rfl))) h

end

end Canonical

end Sys2Proof.Machine

namespace Sys2Proof.Machine

namespace Canonical

section
variable {p : Pkg} {s : State}

/-! ### The functions of `Machine/Boot.lean` -/

theorem loadOwners (h : p.Canonical) : p.loadOwners.2.2.Canonical := by
  unfold Pkg.loadOwners
  extract_lets _ _ _
  split
  · exact setBoot _ (setReg _ _ (setReg _ _ h))
  · exact setBoot _ (setReg _ _ (setReg _ _ h))

theorem loadFloors (h : p.Canonical) : p.loadFloors.Canonical := by
  unfold Pkg.loadFloors
  extract_lets _
  exact foldl (fun _ _ hq => setReg _ _ hq) _ (setReg _ _ h)

theorem raiseFloor (i v : Nat) (h : p.Canonical) : (p.raiseFloor i v).Canonical :=
  ite h (canonical.raise _ _ _ (queueFlash _ _ _ (setReg _ _ (setReg _ _ h))))

theorem floorRaiseWrite (pt : Path) (v : Nat) (h : p.Canonical) : (p.floorRaiseWrite pt v).Canonical :=
  objWrite _ _ _ (fun hq => ite (raiseFloor _ _ hq) (ite (raiseFloor _ _ hq) (raiseFloor _ _ hq))) h

theorem execFloorRaise_kept (pt : Path) (v : Nat) (h : s.pkg.Canonical) : KeepsMemory (execFloorRaise pt v s) :=
  on _ (fun hq => floorRaiseWrite _ _ hq) h

theorem countBoot (h : p.Canonical) : p.countBoot.Canonical := by
  unfold Pkg.countBoot
  extract_lets _ _ _ _ _ q
  have hq : q.Canonical := setWear _ h
  exact queueWearArea (setReg _ _ hq)

theorem sign (signer : Nat) (m : List Byte) (h : p.Canonical) : (p.sign signer m).2.Canonical := h

theorem takeCertificate (b : List Byte) (h : p.Canonical) : (p.takeCertificate b).Canonical := setBoot _ (setReg _ _ (setReg _ _ h))

theorem signed (signer region total : Nat) (l : List Byte) (h : p.Canonical) : (p.signed signer region total l).2.Canonical := by
  unfold Pkg.signed
  extract_lets _ q
  have hq : q.2.Canonical := sign _ _ h
  exact hq

theorem makeAlias (h : p.Canonical) : p.makeAlias.Canonical := by
  unfold Pkg.makeAlias
  extract_lets q _
  have hq : q.2.Canonical := signed _ _ _ _ h
  exact setBoot _ hq

theorem enterRecovery (reason : Nat) (h : p.Canonical) : (p.enterRecovery reason).Canonical := by
  unfold Pkg.enterRecovery
  extract_lets q r _
  have hq : q.Canonical := ite (loadFloors (loadOwners h)) h
  have hr : r.Canonical := setReg _ _ (setReg _ _ (setReg _ _ hq))
  exact setBoot _ (canonical.raise _ _ _ hr)

theorem checkHeader (h : p.Canonical) : p.checkHeader.Canonical := by
  unfold Pkg.checkHeader
  extract_lets _ _ q
  have hq : q.Canonical := setPower _ h
  exact ite h (ite hq (setReg _ _ hq))

theorem setBootFails (n : Nat) (h : p.Canonical) : (p.setBootFails n).Canonical := setPower _ h

theorem setRegs (k n v : Nat) (h : p.Canonical) : (p.setRegs k n v).Canonical := by
  unfold Pkg.setRegs
  exact foldl (fun _ _ hq => setReg _ _ hq) _ h

theorem claimTest (k n event : Nat) (h : p.Canonical) : (p.claimTest k n event).Canonical := by
  unfold Pkg.claimTest
  exact foldl (fun _ _ hq => ownerWrite _ _ _ _ _ hq) _ h

theorem releaseTest (k n : Nat) (h : p.Canonical) : (p.releaseTest k n).Canonical := by
  unfold Pkg.releaseTest
  exact foldl (fun _ _ hq => ite (setReg _ _ hq) hq) _ h

theorem beginBootStep (k : Nat) (h : p.Canonical) : (p.beginBootStep k).Canonical := by
  unfold Pkg.beginBootStep
  extract_lets _ q r _
  have hq : q.Canonical := setBoot _ h
  have hr : r.Canonical := setReg _ _ (setReg _ _ (setRegs _ _ _ (setReg _ _ hq)))
  split
  · exact switchSupplies _ _ hq
  · exact claimTest _ _ _ hq
  · exact claimTest _ _ _ hq
  · exact hr
  · exact claimTest _ _ _ hq
  · exact hq

theorem placeSpares (h : p.Canonical) : p.placeSpares.Canonical := by
  unfold Pkg.placeSpares
  extract_lets q r
  have hq : q.Canonical := foldl (fun _ _ hq => setReg _ _ hq) _ h
  have hr : r.Canonical := foldl (fun _ _ hr => ite (canonical.retireTile _ hr) hr) _ hq
  exact foldl (fun _ _ ht => setReg _ _ ht) _ hr

theorem applyDictionary (h : p.Canonical) : p.applyDictionary.Canonical := by
  unfold Pkg.applyDictionary
  extract_lets _ _ q _ r
  have hq : q.Canonical := canonical.extend _ _ _ _ _ (canonical.noteScrub _ (applyCfgImage _ h))
  have hr : r.Canonical := setBoot _ hq
  split
  · exact canonical.raise _ _ _ h
  · exact ite (raiseFloor _ _ hr) hr

theorem stageFirmware (b : List Byte) (h : p.Canonical) : (p.stageFirmware b).Canonical := by
  unfold Pkg.stageFirmware
  extract_lets _ q _
  have hq : q.Canonical := setReg _ _ (setReg _ _ h)
  exact canonical.extend _ _ _ _ _ (setBoot _ hq)

theorem endTest (failed : List PhysTile) (h : p.Canonical) : (p.endTest failed).Canonical := by
  unfold Pkg.endTest
  exact foldl (fun _ _ hq => ite hq (setReg _ _ (foldl (fun _ _ hr => tileTested_kept _ _ _ hr) _ hq))) _ h

/-- What repair leaves in the units of a group is what the training of each finds. -/
theorem repairsLeft (base n : Nat) (h : p.Canonical) :
    ((List.range n).foldl (fun q i => q.fresh.2.setReg (base + i) (q.fresh.1.toNat % 65536)) p).Canonical :=
  foldl (fun _ _ hq => setReg _ _ (canonical.fresh hq)) _ h

theorem cellsKept (f : Host.Cell → Bool) (h : p.Canonical) :
    ({ p with mem := p.mem.filter f, eccPins := [], checkBytes := [] } : Pkg).Canonical := wf_filter _ h

theorem endTraining (h : p.Canonical) : p.endTraining.Canonical := by
  unfold Pkg.endTraining
  extract_lets left hbm lpddr idle trained
  have hlpddr : lpddr.Canonical := repairsLeft O.lpddrRepairsLeft 24 (repairsLeft O.hbmRepairsLeft 12 (releaseTest O.memTestOwner 4 h))
  have htrained : trained.Canonical := of_mem (p := lpddr) hlpddr (by dsimp only [trained])
  exact ite htrained (cellsKept _ htrained)

theorem completeBoot (h : p.Canonical) : p.completeBoot.Canonical := by
  unfold Pkg.completeBoot
  extract_lets q _ _ r t
  have hq : q.Canonical := setBootFails _ (releaseTest _ _ h)
  have hr : r.Canonical := setBoot _ hq
  have ht : t.Canonical := canonical.raise _ _ _ (setReg _ _ (setReg _ _ hr))
  exact ite (raiseFloor _ _ ht) ht

theorem failIdentity (st reason : Nat) (h : p.Canonical) : (p.failIdentity st reason).Canonical :=
  enterRecovery _ (canonical.raise _ _ _ (setReg _ _ h))

theorem endBootStep (k : Nat) (f : BootFinding) (h : p.Canonical) : (p.endBootStep k f).Canonical := by
  unfold Pkg.endBootStep
  dsimp only
  split
  · have hchecked := canonical.extend 0 0 1 0 Config.romDigest (checkHeader h)
    exact ite (failBoot h) (ite (enterRecovery _ hchecked) (ite (enterRecovery _ hchecked) (ite (enterRecovery _ hchecked) (beginBootStep _
        hchecked))))
  · exact ite (enterRecovery _ h) (beginBootStep _ h)
  · have hoff := switchSupplies [17] false h
    refine ite (failIdentity _ _ hoff) ?_
    split
    · exact failIdentity _ _ (countBoot hoff)
    · exact beginBootStep _ (takeCertificate _ (countBoot hoff))
  · have howners := loadOwners h
    exact ite (beginBootStep _ (canonical.extend _ _ _ _ _ howners))
      (beginBootStep _ (canonical.raise _ _ _ (setBoot _ (setReg _ _ (setReg _ _ howners)))))
  · have hfloors := loadFloors h
    refine ite (enterRecovery _ hfloors) ?_
    split
    · exact enterRecovery _ hfloors
    · exact beginBootStep _ (stageFirmware _ hfloors)
  · exact ite (beginBootStep _ (takeTail (makeAlias h))) (failBoot h)
  · have hstate := setReg O.bootState 1 h
    exact ite (failBoot h) (beginBootStep _ (canonical.extend _ _ _ _ _ (placeSpares (applyDictionary (ite (canonical.raise _ _ _ hstate)
        hstate)))))
  · exact ite (beginBootStep _ (endTest _ h)) (failBoot h)
  · exact ite (beginBootStep _ (endTraining h)) (failBoot (canonical.raise _ _ _ (releaseTest _ _ h)))
  · refine ite (failBoot h) (beginBootStep _ (setReg _ _ (setReg _ _ (foldl (fun _ _ hq => canonical.agent.moveWay _ hq) _ ?_))))
    exact h
  · exact ite (completeBoot h) (failBoot h)

theorem execBootStepDone_kept (f : BootFinding) (h : s.pkg.Canonical) : KeepsMemory (execBootStepDone f s) :=
  on _ (fun hq => ite hq (endBootStep _ _ hq)) h

theorem execBootWatchdogExpiry_kept (memoryConfirmed : Bool) (h : s.pkg.Canonical) : KeepsMemory (execBootWatchdogExpiry memoryConfirmed s) :=
  on _ (fun hq => ite (canonical.raise _ _ _ (coldReset _ _ (setBootFails _ hq))) hq) h

theorem osBootWrite (pt : Path) (v : Nat) (h : p.Canonical) : (p.osBootWrite pt v).Canonical := by
  unfold Pkg.osBootWrite
  refine objWrite _ _ _ (fun hq => ?_) h
  extract_lets _ _ _
  split
  · exact hq
  · split
    · exact canonical.raise _ _ _ hq
    · split
      · rename_i q heq
        have hq : q.Canonical := snd_of heq (canonical.agent.agentBytes _ _ _ hq)
        exact canonical.raise _ _ _ hq
      · rename_i q heq
        have hq : q.Canonical := snd_of heq (canonical.agent.agentBytes _ _ _ hq)
        extract_lets r _
        have hr : r.Canonical := canonical.extend _ _ _ _ _ hq
        exact ite (canonical.raise _ _ _ hr) (setReg _ _ (setBoot _ hr))

theorem execOsBoot_kept (pt : Path) (v : Nat) (h : s.pkg.Canonical) : KeepsMemory (execOsBoot pt v s) := on _ (fun hq => osBootWrite _ _ hq) h

theorem leaveRetention (d : Nat) (h : p.Canonical) : (p.leaveRetention d).Canonical := ite (commandVdd _ _ h) h

theorem execCoreStarted_kept (c : CoreNo) (h : s.pkg.Canonical) : KeepsMemory (execCoreStarted c s) :=
  on _ (fun hq => ite (leaveRetention _ (setReg _ _ (setBoot _ hq))) hq) h

theorem recoveryRequestWrite (pt : Path) (v : Nat) (h : p.Canonical) : (p.recoveryRequestWrite pt v).Canonical :=
  objWrite _ _ _ (fun hq => setBoot _ hq) h

theorem execRecoveryRequest_kept (pt : Path) (v : Nat) (h : s.pkg.Canonical) : KeepsMemory (execRecoveryRequest pt v s) :=
  on _ (fun hq => recoveryRequestWrite _ _ hq) h

theorem refuseXfer (src : XferSrc) (reason : Nat) (verify : Bool) (h : p.Canonical) : (p.refuseXfer src reason verify).Canonical := by
  unfold Pkg.refuseXfer
  extract_lets q _
  have hq : q.Canonical := canonical.raise _ _ _ (setReg _ _ h)
  split
  · exact setBoot _ hq
  · exact canonical.agent.refuse _ _ _ hq

theorem acceptXfer (src : XferSrc) (h : p.Canonical) : (p.acceptXfer src).Canonical := by
  unfold Pkg.acceptXfer
  split
  · exact setBoot _ h
  · exact h

theorem idleRecovery (h : p.Canonical) : p.idleRecovery.Canonical := setReg _ _ h

theorem xferBegin (src : XferSrc) (kind mode total : Nat) (h : p.Canonical) : (p.xferBegin src kind mode total).Canonical :=
  ite (refuseXfer _ _ _ h) (acceptXfer _ (setReg _ _ (setReg _ _ (setBoot _ h))))

theorem execBeginTransfer_kept (src : XferSrc) (kind mode totalLen : Nat) (h : s.pkg.Canonical) :
    KeepsMemory (execBeginTransfer src kind mode totalLen s) :=
  on _ (fun hq => xferBegin _ _ _ _ hq) h

theorem xferData (src : XferSrc) (offset : Nat) (bytes : List Byte) (h : p.Canonical) : (p.xferData src offset bytes).Canonical := by
  unfold Pkg.xferData
  split
  · exact refuseXfer _ _ _ h
  · extract_lets _ _ q
    have hq : q.Canonical := setBoot _ h
    exact ite (refuseXfer _ _ _ h) (acceptXfer _ (setReg _ _ hq))

theorem execDataTransfer_kept (src : XferSrc) (offset : Nat) (bytes : List Byte) (h : s.pkg.Canonical) :
    KeepsMemory (execDataTransfer src offset bytes s) :=
  on _ (fun hq => xferData _ _ _ hq) h

theorem runTransferred (x : Xfer) (h : p.Canonical) : (p.runTransferred x).Canonical := by
  unfold Pkg.runTransferred
  extract_lets q r _
  have hq : q.Canonical := setReg _ _ (stageFirmware _ h)
  have hr : r.Canonical := setReg _ _ (setReg _ _ hq)
  exact beginBootStep _ (setBoot _ hr)

theorem takeObject (x : Xfer) (h : p.Canonical) : (p.takeObject x).Canonical := by
  unfold Pkg.takeObject
  extract_lets _ _ q r
  have hq : q.Canonical := canonical.extend _ _ _ _ _ h
  have hr : r.Canonical := ite (setBootFails _ hq) hq
  exact ite (runTransferred _ hr) (setReg _ _ (queueFlash _ _ _ hr))

theorem xferEnd (src : XferSrc) (h : p.Canonical) : (p.xferEnd src).Canonical := by
  unfold Pkg.xferEnd
  split
  · exact refuseXfer _ _ _ h
  · split
    · exact refuseXfer _ _ _ h
    · split
      · exact refuseXfer _ _ _ (idleRecovery (setBoot _ h))
      · exact acceptXfer _ (takeObject _ h)

theorem execEndTransfer_kept (src : XferSrc) (h : s.pkg.Canonical) : KeepsMemory (execEndTransfer src s) := on _ (fun hq => xferEnd _ hq) h

theorem xferAbort (src : XferSrc) (h : p.Canonical) : (p.xferAbort src).Canonical := by
  unfold Pkg.xferAbort
  split
  · exact refuseXfer _ _ _ h
  · exact ite (refuseXfer _ _ _ h) (acceptXfer _ (setReg _ _ (idleRecovery (setBoot _ h))))

theorem execAbortTransfer_kept (src : XferSrc) (h : s.pkg.Canonical) : KeepsMemory (execAbortTransfer src s) := on _ (fun hq => xferAbort _ hq) h

theorem runRecord (b : List Byte) (h : p.Canonical) : (p.runRecord b).Canonical := by
  unfold Pkg.runRecord
  extract_lets _
  split
  · exact refuseXfer _ _ _ h
  · split
    · exact xferBegin _ _ _ _ h
    · exact ite (refuseXfer _ _ _ h) (xferData _ _ _ h)
    · exact xferEnd _ h
    · exact xferAbort _ h
    · exact refuseXfer _ _ _ h

theorem mailboxBell (seq : Nat) (h : p.Canonical) : (p.mailboxBell seq).Canonical := by
  unfold Pkg.mailboxBell
  extract_lets _ _ q _
  have hq : q.Canonical := setBoot _ h
  exact ite (runRecord _ hq) (canonical.raise _ _ _ (setBoot _ hq))

theorem mailboxWrite (o : Nat) (b : List Byte) (h : p.Canonical) : OptionCanonical id (p.mailboxWrite o b) :=
  option_ite (some_pkg (mailboxBell _ h)) (option_ite (some_pkg (setBoot _ h)) of_none)

theorem freeFlash (a n : Nat) (h : p.Canonical) : (p.freeFlash a n).Canonical := by
  unfold Pkg.freeFlash
  exact foldl (fun _ _ hq => setBoot _ (canonical.fresh hq)) _ h

theorem written (h : p.Canonical) : p.written.Canonical := by
  unfold Pkg.written
  split
  · exact h
  · extract_lets _ _ q
    have hq : q.Canonical := idleRecovery (setBoot _ h)
    exact ite (runTransferred _ h) (ite hq (ite (loadOwners hq) (ite (takeCertificate _ hq) hq)))

theorem performWrite (good again : Bool) (h : p.Canonical) : (p.performWrite good again).Canonical := by
  unfold Pkg.performWrite
  split
  · exact h
  · split
    · exact h
    · extract_lets _ q _ _ _ _ r _ t
      have hq : q.Canonical := setBoot _ h
      have hr : r.Canonical := setBoot _ hq
      have ht : t.Canonical := ite (setBoot _ hr) (canonical.raise _ _ _ (freeFlash _ _ hr))
      exact ite (written ht) ht

theorem execFlashWrite_kept (good goodOnRetry : Bool) (h : s.pkg.Canonical) : KeepsMemory (execFlashWrite good goodOnRetry s) :=
  on _ (fun hq => performWrite _ _ hq) h

theorem nonceWrite (pt : Path) (n w v : Nat) (h : p.Canonical) : (p.nonceWrite pt n w v).Canonical := by
  unfold Pkg.nonceWrite
  extract_lets _
  exact ite (canonical.agent.refuse _ _ _ h) (setReg _ _ (setReg _ _ h))

theorem execQuoteNonceWrite_kept (pt : Path) (word : Fin 8) (v : W32) (h : s.pkg.Canonical) : KeepsMemory (execQuoteNonceWrite pt word v s) :=
  on _ (fun hq => nonceWrite _ _ _ _ hq) h

theorem quoteRequestWrite (pt : Path) (n v : Nat) (h : p.Canonical) : (p.quoteRequestWrite pt n v).Canonical := by
  unfold Pkg.quoteRequestWrite
  extract_lets _
  exact objWrite _ _ _ (fun hq => ite (canonical.agent.refuse _ _ _ hq) (setReg _ _ (setBoot _ (signed _ _ _ _ hq)))) h

theorem execQuoteRequest_kept (pt : Path) (v : Nat) (h : s.pkg.Canonical) : KeepsMemory (execQuoteRequest pt v s) :=
  on _ (fun hq => quoteRequestWrite _ _ _ hq) h

theorem execQuoteReady_kept (pt : Path) (h : s.pkg.Canonical) : KeepsMemory (execQuoteReady pt s) :=
  on _ (fun hq => ite hq (setReg _ _ (setBoot _ hq))) h

theorem attestSelectWrite (pt : Path) (n v : Nat) (h : p.Canonical) : (p.attestSelectWrite pt n v).Canonical := by
  unfold Pkg.attestSelectWrite
  extract_lets _
  exact ite (canonical.agent.refuse _ _ _ h) (setReg _ _ h)

theorem measureExtendWrite (pt : Path) (v : Nat) (h : p.Canonical) : (p.measureExtendWrite pt v).Canonical :=
  objWrite _ _ _ (fun hq => ite (canonical.agent.refuse _ _ _ hq) (canonical.extend _ _ _ _ _ hq)) h

theorem execMeasureExtend_kept (pt : Path) (v : Nat) (h : s.pkg.Canonical) : KeepsMemory (execMeasureExtend pt v s) :=
  on _ (fun hq => measureExtendWrite _ _ hq) h

theorem execRngHealthFail_kept (h : s.pkg.Canonical) : KeepsMemory (execRngHealthFail s) := on _ (fun hq => canonical.raise _ _ _ (setReg _ _ hq)) h

/-! ### The functions of `Machine/EventsCmd.lean` -/

theorem setEv (x : Events) (h : p.Canonical) : (p.setEv x).Canonical := h

theorem queueEmcy (r : EvRec) (h : p.Canonical) : (p.queueEmcy r).Canonical := by
  unfold Pkg.queueEmcy
  extract_lets _ _ _ q _
  have hq : q.Canonical := bump _ _ h
  split
  · exact setEv _ h
  · split
    · exact setEv _ hq
    · exact hq

theorem report (r : EvRec) (h : p.Canonical) : (p.report r).Canonical := by
  unfold Pkg.report
  extract_lets _ q t u
  have hq : q.Canonical := ite (queueEmcy _ h) h
  have ht : t.Canonical := ite (sendMsix _ hq) hq
  have hu : u.Canonical := ite (canonical.emit _ ht) ht
  exact ite (askPeriod hu) hu

theorem store (r : EvRec) (h : p.Canonical) : (p.store r).Canonical := by
  unfold Pkg.store
  extract_lets _ _ _
  exact report _ (setReg _ _ (setEv _ h))

theorem intervalNow (h : p.Canonical) : p.intervalNow.Canonical := by
  unfold Pkg.intervalNow
  extract_lets _ _
  exact ite h (setEv _ h)

theorem arriveEvent (r : EvRec) (h : p.Canonical) : (p.arriveEvent r).Canonical := by
  unfold Pkg.arriveEvent
  extract_lets q _ t _ _ u
  have hq : q.Canonical := intervalNow h
  have ht : t.Canonical := setEv _ hq
  have hu : u.Canonical := setEv _ (bump _ _ ht)
  exact ite (ite (store _ hu) hu) (store _ ht)

theorem eventArrival (n : Nat) (h : p.Canonical) : (p.eventArrival n).Canonical := by
  unfold Pkg.eventArrival
  extract_lets _ _ q _
  have hq : q.Canonical := setEv _ h
  exact ite (setEv _ hq) (foldl (fun _ _ hr => arriveEvent _ hr) _ hq)

theorem execEventRaise_kept (n : Nat) (h : s.pkg.Canonical) : KeepsMemory (execEventRaise n s) := go (fun hq => eventArrival _ hq) h

theorem latchRecord (n : Nat) (h : p.Canonical) : (p.latchRecord n).2.Canonical := by
  unfold Pkg.latchRecord
  extract_lets _ _
  exact setEv _ h

theorem execEventLogRecordLatch_kept (pt : Path) (h : s.pkg.Canonical) : KeepsMemory (execEventLogRecordLatch pt s) :=
  on _ (fun hq => canonical.emit _ (latchRecord _ hq)) h

theorem escMaskSet (pt : Path) (sev v : Nat) (h : p.Canonical) : (p.escMaskSet pt sev v).Canonical := by
  unfold Pkg.escMaskSet
  extract_lets _
  exact objWrite _ _ _ (fun hq => ite (canonical.agent.refuse _ _ _ hq) (setReg _ _ hq)) h

theorem execEscMaskWrite_kept (pt : Path) (sev : Fin 6) (v : Nat) (h : s.pkg.Canonical) : KeepsMemory (execEscMaskWrite pt sev v s) :=
  on _ (fun hq => escMaskSet _ _ _ hq) h

theorem msixVectorSet (pt : Path) (q : Option Nat) (v : Nat) (h : p.Canonical) : (p.msixVectorSet pt q v).Canonical := by
  unfold Pkg.msixVectorSet
  extract_lets _
  split
  · exact canonical.agent.refuse _ _ _ h
  · split
    · exact ite (canonical.raise _ _ _ (canonical.agent.refuse _ _ _ h)) (setReg _ _ h)
    · exact ite (canonical.raise _ _ _ (canonical.agent.refuse _ _ _ h)) (queueObject _ _ _ _ h)

theorem execMsixVectorWrite_kept (pt : Path) (q : Option QueueNo) (v : Nat) (h : s.pkg.Canonical) : KeepsMemory (execMsixVectorWrite pt q v s) :=
  on _ (fun hq => msixVectorSet _ _ _ hq) h

end

end Canonical

end Sys2Proof.Machine

namespace Sys2Proof.Machine

namespace Canonical

section
variable {p : Pkg} {s : State}

/-! ### The functions of `Machine/Dict.lean` -/

theorem scaleEntryWord (h : p.Canonical) : p.scaleEntryWord.2.Canonical := by
  unfold Pkg.scaleEntryWord
  split
  · exact h
  · exact canonical.fresh h

theorem fixCanBit (h : p.Canonical) : p.fixCanBit.Canonical := canonical.setErrBit _ _ h

theorem readErrorRegister (h : p.Canonical) : p.readErrorRegister.2.Canonical := fixCanBit h

theorem derived (pt : Path) (key : Nat) (h : p.Canonical) : OptionCanonical Prod.snd (p.derived pt key) := by
  unfold Pkg.derived
  refine option_ite (of_some (readErrorRegister h)) (option_ite (of_some (snd_ite h (scaleEntryWord h)))
    (option_ite (of_some (snd_ite h (scaleEntryWord h))) (option_ite (of_some h) (option_ite (of_some h) (option_ite (of_some h)
      (option_ite (of_some h) (option_ite (of_some (tokenRead _ h)) (option_ite (of_some h) ?_))))))))
  split
  · exact of_some h
  · exact of_some h
  · exact of_some h
  · exact option_ite (of_some h) (option_ite (option_ite (of_some (latchRecord _ h)) (of_some h)) of_none)

theorem readObject (pt : Path) (o : Obj) (key : Nat) (h : p.Canonical) : (p.readObject pt o key).2.Canonical := by
  unfold Pkg.readObject
  refine snd_ite h (snd_ite h (snd_ite h ?_))
  cases hd : p.derived pt key with
  | none => exact h
  | some r => exact derived _ _ h r hd

theorem readWord32 (pt : Path) (key : Nat) (h : p.Canonical) : (p.readWord32 pt key).2.Canonical := by
  unfold Pkg.readWord32
  split
  · exact tokenLow _ h
  · split
    · exact tokenHigh _ h
    · split
      · exact readObject _ _ _ h
      · split
        · exact readObject _ _ _ h
        · split
          · exact h
          · exact h

theorem mirrorRead (pt : Path) (off size : Nat) (h : p.Canonical) : (p.mirrorRead pt off size).2.Canonical :=
  snd_ite h (snd_ite (readWord32 _ _ h) (readWord32 _ _ (readWord32 _ _ h)))

theorem intervalWrite (pt : Path) (v : Nat) (h : p.Canonical) : (p.intervalWrite pt v).Canonical :=
  objWrite _ _ _ (fun hq => ite (canonical.agent.refuse _ _ _ hq) (setReg _ _ hq)) h

theorem reclaimMaskWrite (pt : Path) (k v : Nat) (h : p.Canonical) : (p.reclaimMaskWrite pt k v).Canonical :=
  ite (canonical.agent.refuse _ _ _ h) (ite (canonical.agent.refuse _ _ _ h) (setReg _ _ h))

theorem measureDataWrite (pt : Path) (k v : Nat) (h : p.Canonical) : (p.measureDataWrite pt k v).Canonical :=
  ite (canonical.agent.refuse _ _ _ h) (setReg _ _ h)

theorem sessionWrite (pt : Path) (v : Nat) (h : p.Canonical) : (p.sessionWrite pt v).Canonical :=
  objWrite _ _ _ (fun hq => ite (sessionAttach _ _ (canonical.fresh hq)) (ite (sessionResume _ _ hq) (ite (sessionResume _ _ hq) (sessionRelease _
      hq)))) h

theorem recoveryOpWrite (pt : Path) (v : Nat) (h : p.Canonical) : (p.recoveryOpWrite pt v).Canonical :=
  ite (xferBegin _ _ _ _ h) (ite (xferEnd _ h) (ite (xferAbort _ h) (canonical.agent.refuse _ _ _ h)))

theorem packageResetAny (pt : Path) (v : Nat) (h : p.Canonical) : (p.packageResetAny pt v).Canonical := by
  unfold Pkg.packageResetAny
  extract_lets q
  have hq : q.2.Canonical := canonical.fresh h
  exact packageResetWrite _ _ _ hq

theorem single (pt : Path) (k v : Nat) (h : p.Canonical) : OptionCanonical id (p.single pt k v) :=
  option_ite (some_pkg (readIndexWrite _ _ _ h)) (option_ite (some_pkg (readIndexWrite _ _ _ h)) (option_ite (some_pkg (scaleQueryWrite _ _ h))
      (option_ite (some_pkg (placementQueryWrite _ _ h)) (option_ite (some_pkg (via (fun hq => execLoaderOwnerWrite_kept _ _ hq) h)) (option_ite
      (some_pkg (via (fun hq => execDecodeQuery_kept _ _ hq) h)) (option_ite (some_pkg (via (fun hq => execReclaimOwnerWrite_kept _ _ hq) h))
      (option_ite (some_pkg (via (fun hq => execReclaimStart_kept _ _ hq) h)) (option_ite (some_pkg (via (fun hq => execRegionQuery_kept _ _ hq)
      h)) (option_ite (some_pkg (saveRequestWrite _ _ h)) (option_ite (some_pkg (rollbackWrite _ _ h)) (option_ite (some_pkg (sessionWrite _ _ h))
      (option_ite (some_pkg (psOwnerWrite _ _ h)) (option_ite (some_pkg (psRequestWrite _ _ h)) (option_ite (some_pkg (padReleaseWrite _ _ h))
      (option_ite (some_pkg (aclkDivisorWrite _ _ h)) (option_ite (some_pkg (cfgArmWrite _ _ h)) (option_ite (some_pkg (cfgSwapWrite _ _ h))
      (option_ite (some_pkg (cfgLocalWrite _ _ h)) (option_ite (some_pkg (periodRequestWrite _ _ h)) (option_ite (some_pkg (timerOwnerWrite _ _ h))
      (option_ite (some_pkg (intervalWrite _ _ h)) (option_ite (some_pkg (prdOutOwnerWrite _ _ h)) (option_ite (some_pkg (wearQueryWrite _ _ h))
      (option_ite (some_pkg (recoveryRequestWrite _ _ h)) (option_ite (some_pkg (floorRaiseWrite _ _ h)) (option_ite (some_pkg (osBootWrite _ _ h))
      (option_ite (some_pkg (measureExtendWrite _ _ h)) (option_ite (some_pkg (recoveryOpWrite _ _ h)) (option_ite (some_pkg (packageResetAny _ _
      h)) (option_ite (some_pkg (msixVectorSet _ _ _ h)) of_none))))))))))))))))))))))))))))))

theorem queueObjects (pt : Path) (k v : Nat) (h : p.Canonical) : OptionCanonical id (p.queueObjects pt k v) := by
  unfold Pkg.queueObjects
  split
  · exact of_none
  · extract_lets q base
    exact option_ite (some_pkg (queueOwnerWrite _ _ _ h)) (option_ite (some_pkg (queueConsumerWrite _ _ _ h))
      (option_ite (some_pkg (ite (queueEnable _ _ h) (ite (queueDisable _ _ h) (canonical.agent.refuse _ _ _ h))))
        (option_ite (some_pkg (cqHeadWrite _ _ _ h)) (option_ite (some_pkg (msixVectorSet _ _ _ h)) (some_pkg (queueObject _ _ _ _ h))))))

theorem arrayWrite (pt : Path) (k v : Nat) (h : p.Canonical) : OptionCanonical id (p.arrayWrite pt k v) := by
  unfold Pkg.arrayWrite
  split
  · exact some_pkg (via (fun hq => execBistOwnerWrite_kept _ _ _ hq) h)
  · exact some_pkg (via (fun hq => execBistRequest_kept _ _ _ hq) h)
  · exact some_pkg (via (fun hq => execMemTestOwnerWrite_kept _ _ _ hq) h)
  · exact some_pkg (reclaimMaskWrite _ _ _ h)
  · split
    · exact some_pkg (linkTestOwnerWrite _ _ _ h)
    · exact some_pkg (linkTestRequest _ _ _ h)
    · exact some_pkg (measureDataWrite _ _ _ h)
    · exact some_pkg (escMaskSet _ _ _ h)
    · split
      · exact some_pkg (quoteRequestWrite _ _ _ h)
      · exact some_pkg (attestSelectWrite _ _ _ h)
      · extract_lets _
        exact option_ite (some_pkg (nonceWrite _ _ _ _ h)) of_none

theorem writeObject (pt : Path) (o : Obj) (k v : Nat) (h : p.Canonical) : (p.writeObject pt o k v).Canonical := by
  unfold Pkg.writeObject
  refine ite (canonical.agent.refuse _ _ _ h) (ite (canonical.agent.refuse _ _ _ h) ?_)
  split
  case h_1 hq => exact single _ _ _ h _ hq
  case h_2 hq _ => exact queueObjects _ _ _ h _ hq
  case h_3 hq _ _ => exact arrayWrite _ _ _ h _ hq
  case h_4 => exact ite (ite (canonical.agent.refuse _ _ _ h) (setShadow _ _ h)) (setReg _ _ h)

theorem setStaged (m : SMap (Nat × Nat)) (h : p.Canonical) : (p.setStaged m).Canonical := h

theorem writeWord32 (pt : Path) (key v : Nat) (h : p.Canonical) : (p.writeWord32 pt key v).Canonical := by
  unfold Pkg.writeWord32
  split
  · exact ite (canonical.agent.refuse _ _ _ h) (ite (setStaged _ h) (ite (canonical.agent.refuse _ _ _ h) (writeObject _ _ _ _ h)))
  · split
    · exact ite (canonical.agent.refuse _ _ _ h) (writeObject _ _ _ _ (setStaged _ h))
    · split
      · exact canonical.agent.refuse _ _ _ h
      · exact canonical.agent.refuse _ _ _ h

theorem mirrorWrite (pt : Path) (key size v : Nat) (h : p.Canonical) : (p.mirrorWrite pt key size v).Canonical := by
  unfold Pkg.mirrorWrite
  split
  · exact canonical.agent.refuse _ _ _ h
  · split
    · exact writeWord32 _ _ _ h
    · split
      · exact ite (writeObject _ _ _ _ h) (writeWord32 _ _ _ (writeWord32 _ _ _ h))
      · exact writeWord32 _ _ _ (writeWord32 _ _ _ h)

theorem usdoWrite (key : Nat) (bytes : List Byte) (h : p.Canonical) : (p.usdoWrite key bytes).Canonical := by
  unfold Pkg.usdoWrite
  split
  · exact canonical.agent.refuse _ _ _ h
  · exact ite (canonical.agent.refuse _ _ _ h) (ite (ite (canonical.agent.refuse _ _ _ h) (xferData _ _ _ h)) (ite (canonical.agent.refuse _ _ _ h)
        (writeObject _ _ _ _ h)))

theorem dictWrite (pt : Path) (key size v : Nat) (h : p.Canonical) : (p.dictWrite pt key size v).Canonical := by
  unfold Pkg.dictWrite
  split
  · exact canonical.agent.refuse _ _ _ h
  · split
    · exact usdoWrite _ _ h
    · exact mirrorWrite _ _ _ _ h

theorem controlRead (pt : Path) (off n : Nat) (h : p.Canonical) : (p.controlRead pt off n).2.Canonical := snd_ite (mirrorRead _ _ _ h) (snd_ite h h)

theorem registerWrite (pt : Path) (off : Nat) (b : List Byte) (h : p.Canonical) : OptionCanonical id (p.registerWrite pt off b) := by
  unfold Pkg.registerWrite
  extract_lets _ _ _
  exact option_ite (some_pkg (sqDoorbell _ _ _ h)) (option_ite (postWrite _ _ _ (fun hq => completionPost _ _ hq) h) (option_ite (some_pkg (setHost
      _ h)) (option_ite (mailboxWrite _ _ h) of_none)))

theorem controlWrite (pt : Path) (off : Nat) (b : List Byte) (h : p.Canonical) : (p.controlWrite pt off b).Canonical := by
  unfold Pkg.controlWrite
  extract_lets _
  split
  · exact ite (dictWrite _ _ _ _ h) (canonical.agent.refuse _ _ _ h)
  · split
    · rename_i q heq
      have hq : q.Canonical := registerWrite _ _ _ h _ heq
      exact hq
    · exact canonical.agent.refuse _ _ _ h

theorem dropWrite (off : Nat) (h : p.Canonical) : (p.dropWrite off).Canonical := canonical.raise _ _ _ h

theorem dictWriteAs (pt : Path) (idx sub : Nat) (size value : Nat) (form : WriteForm) (h : p.Canonical) :
    (p.dictWriteAs pt idx sub size value form).Canonical := by
  unfold Pkg.dictWriteAs
  extract_lets _
  split
  · exact dropWrite _ h
  · exact ite (logPoisoned _ (dropWrite _ h)) (canonical.agent.refuse _ _ _ h)
  · exact ite (controlWrite _ _ _ h) (dictWrite _ _ _ _ h)

theorem execDictionaryWrite_kept (pt : Path) (idx sub size : Nat) (x : DictValue) (h : s.pkg.Canonical) :
    KeepsMemory (execDictionaryWrite pt idx sub size x s) :=
  on _ (fun hq => dictWriteAs _ _ _ _ _ _ hq) h

theorem execErrorRegisterRead_kept (pt : Path) (h : s.pkg.Canonical) : KeepsMemory (execErrorRegisterRead pt s) :=
  on _ (fun hq => canonical.emit _ (readErrorRegister hq)) h

theorem setCan (x : Can) (h : p.Canonical) : (p.setCan x).Canonical := h

theorem execCanBusOff_kept (h : s.pkg.Canonical) : KeepsMemory (execCanBusOff s) :=
  on _ (fun hq => ite hq (fixCanBit (canonical.raise _ _ _ (bump _ _ (setCan _ hq))))) h

theorem execCanBusOffRecovery_kept (h : s.pkg.Canonical) : KeepsMemory (execCanBusOffRecovery s) :=
  on _ (fun hq => ite (fixCanBit (setCan _ hq)) hq) h

theorem execCanErrorPassive_kept (h : s.pkg.Canonical) : KeepsMemory (execCanErrorPassive s) :=
  on _ (fun hq => ite hq (fixCanBit (canonical.raise _ _ _ (setCan _ hq)))) h

theorem execCanErrorActive_kept (h : s.pkg.Canonical) : KeepsMemory (execCanErrorActive s) := on _ (fun hq => fixCanBit (setCan _ hq)) h

theorem setNmt (n : Nmt) (h : p.Canonical) : (p.setNmt n).Canonical := setCan _ h

theorem execNmtStart_kept (node : Nat) (h : s.pkg.Canonical) : KeepsMemory (execNmtStart node s) :=
  on _ (fun hq => ite hq (ite (wakeSource _ (setNmt _ hq)) (wakeSource _ hq))) h

theorem execNmtStop_kept (node : Nat) (h : s.pkg.Canonical) : KeepsMemory (execNmtStop node s) := on _ (fun hq => ite (setNmt _ hq) hq) h

theorem execNmtPreOperational_kept (node : Nat) (h : s.pkg.Canonical) : KeepsMemory (execNmtPreOperational node s) :=
  on _ (fun hq => ite (setNmt _ hq) hq) h

theorem resetCommunication (h : p.Canonical) : p.resetCommunication.Canonical := setCan _ h

theorem execNmtResetNode_kept (node : Nat) (h : s.pkg.Canonical) : KeepsMemory (execNmtResetNode node s) :=
  on _ (fun hq => ite (resetCommunication hq) hq) h

theorem execNmtResetCommunication_kept (node : Nat) (h : s.pkg.Canonical) : KeepsMemory (execNmtResetCommunication node s) :=
  on _ (fun hq => ite (resetCommunication hq) hq) h

theorem execHeartbeat_kept (h : s.pkg.Canonical) : KeepsMemory (execHeartbeat s) := on _ (fun hq => ite (canonical.emit _ hq) hq) h

theorem execEmcyTransmit_kept (h : s.pkg.Canonical) : KeepsMemory (execEmcyTransmit s) := by
  unfold execEmcyTransmit
  refine on _ (fun hq => ?_) h
  split
  · exact hq
  · exact ite hq (canonical.emit _ (setEv _ hq))

theorem answerWrite {f : Pkg → Pkg} (hf : ∀ {q : Pkg}, q.Canonical → (f q).Canonical) (h : p.Canonical) : (p.answerWrite f).Canonical := by
  unfold Pkg.answerWrite
  extract_lets q
  have hq : q.Canonical := hf h
  exact ite hq (canonical.emit _ hq)

theorem usdoSet (key : Nat) (bytes : List Byte) (h : p.Canonical) : (p.usdoSet key bytes).Canonical :=
  ite (usdoWrite _ _ h) (canonical.agent.refuse _ _ _ h)

theorem usdoRead (key : Nat) (h : p.Canonical) : (p.usdoRead key).Canonical := by
  unfold Pkg.usdoRead
  split
  · exact canonical.emit _ h
  · split
    · exact canonical.emit _ h
    · extract_lets q
      have hq : q.2.Canonical := readObject _ _ _ h
      exact canonical.emit _ hq

theorem segment (bytes : List Byte) (h : p.Canonical) : (p.segment bytes).Canonical := by
  unfold Pkg.segment
  split
  · exact h
  · extract_lets _ _ _
    exact ite (canonical.agent.refuse _ _ _ (setCan _ h)) (ite (canonical.emit _ (setCan _ h)) (answerWrite (fun hq => usdoSet _ _ hq) (setCan _
        h)))

theorem usdo (f : UsdoFrame) (h : p.Canonical) : (p.usdo f).Canonical := by
  unfold Pkg.usdo
  extract_lets _ _
  split
  · exact h
  · split
    · exact usdoRead _ h
    · exact answerWrite (fun hq => usdoSet _ _ hq) h
    · exact canonical.emit _ (setCan _ h)
    · exact segment _ h

theorem execUsdoRequest_kept (f : UsdoFrame) (h : s.pkg.Canonical) : KeepsMemory (execUsdoRequest f s) := on _ (fun hq => usdo _ hq) h

theorem execUsdoSegmentTimeout_kept (h : s.pkg.Canonical) : KeepsMemory (execUsdoSegmentTimeout s) := by
  unfold execUsdoSegmentTimeout
  refine on _ (fun hq => ?_) h
  split
  · exact hq
  · exact canonical.agent.refuse _ _ _ (setCan _ hq)

/-! ### The functions of `Machine/CoreAccess.lean` -/

theorem coreLoad (c addr len : Nat) (lr : Bool) (h : p.Canonical) : (p.coreLoad c addr len lr).Canonical := by
  unfold Pkg.coreLoad
  extract_lets q r
  have hq : q.Canonical := ite (canonical.agent.trapCore _ _ h) (canonical.agent.runLoad _ _ _ _ h)
  have hr : r.2.Canonical := anyReads _ _ h
  split
  · exact h
  · split
    · exact ite h hq
    · exact ite h hq
    · exact canonical.agent.trapCore _ _ h
    · split
      · exact canonical.agent.trapCore _ _ h
      · split
        · exact ite (canonical.agent.trapCore _ _ hr) (canonical.emit _ hr)
        · exact canonical.agent.trapCore _ _ h
        · exact canonical.emit _ (controlRead _ _ _ h)

theorem execCoreLoad_kept (c : CoreNo) (addr : Nat) (x : CoreRead) (h : s.pkg.Canonical) : KeepsMemory (execCoreLoad c addr x s) :=
  on _ (fun hq => coreLoad _ _ _ _ hq) h

theorem ioAmo (c addr : Nat) (b : List Byte) (kind : CoreStoreKind) (h : p.Canonical) : (p.ioAmo c addr b kind).Canonical := by
  unfold Pkg.ioAmo
  dsimp only
  split
  · exact canonical.emit _ (controlWrite _ _ _ (controlRead _ _ _ h))
  · split
    · rename_i q heq
      exact canonical.agent.trapCore _ _ (snd_of heq (anyBytes _ _ h))
    · rename_i q heq
      exact canonical.emit _ (anyWriteBytes _ _ (snd_of heq (anyBytes _ _ h)))

theorem coreStore (c addr : Nat) (b : List Byte) (kind : CoreStoreKind) (h : p.Canonical) : (p.coreStore c addr b kind).Canonical := by
  unfold Pkg.coreStore
  extract_lets _ q
  have hq : q.Canonical := ite (canonical.agent.trapCore _ _ h) (ite (canonical.emit _ h) (canonical.agent.runStore _ _ _ _ _ h))
  split
  · exact h
  · split
    · exact ite h hq
    · exact ite h hq
    · exact canonical.agent.trapCore _ _ h
    · exact ite (ite (ioAmo _ _ _ _ h) (canonical.agent.trapCore _ _ h)) (ite (controlWrite _ _ _ h) (anyWriteBytes _ _ h))

theorem execCoreStore_kept (c : CoreNo) (addr : Nat) (x : CoreWrite) (h : s.pkg.Canonical) : KeepsMemory (execCoreStore c addr x s) :=
  on _ (fun hq => coreStore _ _ _ _ hq) h

/-! ### The functions of `Machine/Beat.lean` -/

theorem countBeats (h : p.Canonical) : p.countBeats.Canonical := countCredit (countHolds (countStalls h))

theorem beatSave (h : p.Canonical) : p.beatSave.Canonical := closeSave (endUncovered (plannedRemap (streamSave h)))

theorem execBeatBoundary_kept (h : s.pkg.Canonical) : KeepsMemory (execBeatBoundary s) :=
  on _ (fun hq => askTime (beatSave (localPeriod (growLate (tickBeat (countBeats hq)))))) h

/-! ### The functions of `Machine/Dispatch.lean` -/

/-- Every command keeps memory in its canonical form. -/
theorem exec_kept (i : Instr) (h : s.pkg.Canonical) : KeepsMemory (exec i s) := by
  cases i with
  | mnop a => exact execMnop_kept a h
  | mlw a => exact execMlw_kept a h
  | mws a => exact execMws_kept a h
  | mwt a => exact execMwt_kept a h
  | mdr a => exact execMdr_kept a h
  | mdv a => exact execMdv_kept a h
  | mclr a => exact execMclr_kept a h
  | mflg a => exact execMflg_kept a h
  | streamResultWrite t => exact execStreamResultWrite_kept t h
  | matrixInterlockRelease t cyc => exact execMatrixInterlockRelease_kept t cyc h
  | weightRegisterScrub t => exact execWeightRegisterScrub_kept t h
  | bistOwnerWrite w d v => exact execBistOwnerWrite_kept w d v h
  | bistRequest p d v => exact execBistRequest_kept p d v h
  | bistComplete d failed => exact execBistComplete_kept d failed h
  | tileSramWindowAccess a => exact execTileSramWindowAccess_kept a h
  | vnop t => exact execVnop_kept t h
  | vadd a => exact execVadd_kept a h
  | vsub a => exact execVsub_kept a h
  | vmul a => exact execVmul_kept a h
  | vfma a => exact execVfma_kept a h
  | vmax a => exact execVmax_kept a h
  | vmin a => exact execVmin_kept a h
  | vabs a => exact execVabs_kept a h
  | vneg a => exact execVneg_kept a h
  | vcmp a => exact execVcmp_kept a h
  | vsel a => exact execVsel_kept a h
  | vrcp a => exact execVrcp_kept a h
  | vsqrt a => exact execVsqrt_kept a h
  | vrsq a => exact execVrsq_kept a h
  | vexp2 a => exact execVexp2_kept a h
  | vlog2 a => exact execVlog2_kept a h
  | vexp a => exact execVexp_kept a h
  | vtanh a => exact execVtanh_kept a h
  | vsigm a => exact execVsigm_kept a h
  | vsinp a => exact execVsinp_kept a h
  | vcosp a => exact execVcosp_kept a h
  | viadd a => exact execViadd_kept a h
  | vand a => exact execVand_kept a h
  | vor a => exact execVor_kept a h
  | vxor a => exact execVxor_kept a h
  | vshl a => exact execVshl_kept a h
  | vshr a => exact execVshr_kept a h
  | vcvti a => exact execVcvti_kept a h
  | vcvtf a => exact execVcvtf_kept a h
  | vperm a => exact execVperm_kept a h
  | vmand a => exact execVmand_kept a h
  | vmor a => exact execVmor_kept a h
  | vmnot a => exact execVmnot_kept a h
  | vld a => exact execVld_kept a h
  | vst a => exact execVst_kept a h
  | vnst a => exact execVnst_kept a h
  | vldq a => exact execVldq_kept a h
  | vrst a => exact execVrst_kept a h
  | vred a => exact execVred_kept a h
  | vrget a => exact execVrget_kept a h
  | vphr a => exact execVphr_kept a h
  | phraseEnd t cyc => exact execPhraseEnd_kept t cyc h
  | vflg a => exact execVflg_kept a h
  | vectorInterlockRelease t cyc => exact execVectorInterlockRelease_kept t cyc h
  | drainQueueHoldRelease t cyc => exact execDrainQueueHoldRelease_kept t cyc h
  | cnop t => exact execCnop_kept t h
  | cwait t target => exact execCwait_kept t target h
  | carr t win slack count => exact execCarr_kept t win slack count h
  | cloop t lc iterations => exact execCloop_kept t lc iterations h
  | cnext t lc => exact execCnext_kept t lc h
  | cvote t desc vreg src => exact execCvote_kept t desc vreg src h
  | cend t cyc => exact execCend_kept t cyc h
  | heldBundleRelease t => exact execHeldBundleRelease_kept t h
  | clauseStart t sentence cyc => exact execClauseStart_kept t sentence cyc h
  | clauseStoreScrub t => exact execClauseStoreScrub_kept t h
  | clauseStoreRefetch t => exact execClauseStoreRefetch_kept t h
  | xnop t => exact execXnop_kept t h
  | xsend a => exact execXsend_kept a h
  | xget a => exact execXget_kept a h
  | xput a => exact execXput_kept a h
  | xpub t => exact execXpub_kept t h
  | xagr a => exact execXagr_kept a h
  | xdsp a => exact execXdsp_kept a h
  | flitCredit u => exact execFlitCredit_kept u h
  | beatBoundary => exact execBeatBoundary_kept h
  | timeExchange x => exact execTimeExchange_kept x h
  | lateCase c => exact execLateCase_kept c h
  | slipRequestRepeat c => exact execSlipRequestRepeat_kept c h
  | slipRequest x requester beat => exact execSlipRequest_kept x requester beat h
  | slipHoldStart => exact execSlipHoldStart_kept h
  | slipHoldEnd => exact execSlipHoldEnd_kept h
  | holdLimitExpiry c => exact execHoldLimitExpiry_kept c h
  | loaderOwnerWrite w v => exact execLoaderOwnerWrite_kept w v h
  | load => exact execLoad_kept h
  | unload => exact execUnload_kept h
  | start => exact execStart_kept h
  | halt => exact execHalt_kept h
  | startQuery x => exact execStartQuery_kept x h
  | startAnswer x state imageId variant => exact execStartAnswer_kept x state imageId variant h
  | startAnswerDeadline => exact execStartAnswerDeadline_kept h
  | startBeatMessage x beat => exact execStartBeatMessage_kept x beat h
  | domainStart => exact execDomainStart_kept h
  | haltMessage x beat => exact execHaltMessage_kept x beat h
  | haltTakeEffect => exact execHaltTakeEffect_kept h
  | stepStart => exact execStepStart_kept h
  | localVoteDeadline => exact execLocalVoteDeadline_kept h
  | localVoteComplete => exact execLocalVoteComplete_kept h
  | voteRecord x r => exact execVoteRecord_kept x r h
  | stepDecision => exact execStepDecision_kept h
  | ledgerReadIndexWrite p v => exact execLedgerReadIndexWrite_kept p v h
  | scaleQuery p v => exact execScaleQuery_kept p v h
  | agreementChunkReceive e ch c => exact execAgreementChunkReceive_kept e ch c h
  | agreementHop e ch mismatches => exact execAgreementHop_kept e ch mismatches h
  | xagrFlitAccept e ch => exact execXagrFlitAccept_kept e ch h
  | fill d => exact execFill_kept d h
  | gather d => exact execGather_kept d h
  | scatter d => exact execScatter_kept d h
  | collect d => exact execCollect_kept d h
  | routingRecordFlit d table => exact execRoutingRecordFlit_kept d table h
  | dispatchTrigger d table => exact execDispatchTrigger_kept d table h
  | dispatchFlitAccept d table => exact execDispatchFlitAccept_kept d table h
  | dispatchTableAdvance d => exact execDispatchTableAdvance_kept d h
  | dispatchReadIndexWrite p v => exact execDispatchReadIndexWrite_kept p v h
  | stageEntryStart e => exact execStageEntryStart_kept e h
  | stageEntryComplete e => exact execStageEntryComplete_kept e h
  | stageEntryDeadline e => exact execStageEntryDeadline_kept e h
  | placementQuery p v => exact execPlacementQuery_kept p v h
  | memoryLineRead u => exact execMemoryLineRead_kept u h
  | memoryLineWrite u => exact execMemoryLineWrite_kept u h
  | correctionWriteback u => exact execCorrectionWriteback_kept u h
  | patrolScrubRead n => exact execPatrolScrubRead_kept n h
  | scrubWindowClose n => exact execScrubWindowClose_kept n h
  | memTestOwnerWrite w n v => exact execMemTestOwnerWrite_kept w n v h
  | repairStart n => exact execRepairStart_kept n h
  | repairDone n bankExhausted leftAfter => exact execRepairDone_kept n bankExhausted leftAfter h
  | decodeQuery p v => exact execDecodeQuery_kept p v h
  | selfRefreshIdleEntry unit => exact execSelfRefreshIdleEntry_kept unit h
  | coherentRequestArrival idx cyc => exact execCoherentRequestArrival_kept idx cyc h
  | rdShared line => exact execRdShared_kept line h
  | rdOwn line => exact execRdOwn_kept line h
  | upgrade line => exact execUpgrade_kept line h
  | wbDirty line => exact execWbDirty_kept line h
  | evClean line => exact execEvClean_kept line h
  | rdSnoop line => exact execRdSnoop_kept line h
  | wrInv line => exact execWrInv_kept line h
  | directoryRecall line => exact execDirectoryRecall_kept line h
  | fwdS c line => exact execFwdS_kept c line h
  | fwdM c line => exact execFwdM_kept c line h
  | inv c line => exact execInv_kept c line h
  | invD c line => exact execInvD_kept c line h
  | snpRd c line => exact execSnpRd_kept c line h
  | snoopAnswer c line => exact execSnoopAnswer_kept c line h
  | completionAck r line => exact execCompletionAck_kept r line h
  | homeTimeout c line => exact execHomeTimeout_kept c line h
  | coreLoad c addr x => exact execCoreLoad_kept c addr x h
  | coreStore c addr x => exact execCoreStore_kept c addr x h
  | coreReplacement c line => exact execCoreReplacement_kept c line h
  | coreFill c line => exact execCoreFill_kept c line h
  | fence c => exact execFence_kept c h
  | reclaimOwnerWrite w v => exact execReclaimOwnerWrite_kept w v h
  | reclaimStart p v => exact execReclaimStart_kept p v h
  | reclaimSweepComplete => exact execReclaimSweepComplete_kept h
  | coreTakenOffline c => exact execCoreTakenOffline_kept c h
  | coreStarted c => exact execCoreStarted_kept c h
  | codewordTransmit p => exact execCodewordTransmit_kept p h
  | codewordReceive p cw => exact execCodewordReceive_kept p cw h
  | ackFlit p position credits => exact execAckFlit_kept p position credits h
  | nakFlit p position => exact execNakFlit_kept p position h
  | class0Flit p m copy seq replayed => exact execClass0Flit_kept p m copy seq replayed h
  | portTraining p => exact execPortTraining_kept p h
  | identityFlit p id port revision => exact execIdentityFlit_kept p id port revision h
  | laneMarginLow p lane mv => exact execLaneMarginLow_kept p lane mv h
  | substitutionFlit p lane position => exact execSubstitutionFlit_kept p lane position h
  | substitutionPosition p => exact execSubstitutionPosition_kept p h
  | laneLockLoss p lane => exact execLaneLockLoss_kept p lane h
  | retrainComplete x => exact execRetrainComplete_kept x h
  | retrainLimitExpiry p => exact execRetrainLimitExpiry_kept p h
  | silzinWordReceive b w => exact execSilzinWordReceive_kept b w h
  | linkTestOwnerWrite w d v => exact execLinkTestOwnerWrite_kept w d v h
  | linkTestRequest p d v => exact execLinkTestRequest_kept p d v h
  | pcieLinkUp p rate width => exact execPcieLinkUp_kept p rate width h
  | pcieLinkDown p unacked => exact execPcieLinkDown_kept p unacked h
  | perst p unacked => exact execPerst_kept p unacked h
  | commandWindowWrite offset x => exact execCommandWindowWrite_kept offset x h
  | ingestWrite offset x => exact execIngestWrite_kept offset x h
  | ingestRead offset len => exact execIngestRead_kept offset len h
  | notificationWrite w => exact execNotificationWrite_kept w h
  | queueOwnerWrite p q v => exact execQueueOwnerWrite_kept p q v h
  | queueEnable p q => exact execQueueEnable_kept p q h
  | queueDisable p q => exact execQueueDisable_kept p q h
  | queueDisableComplete q => exact execQueueDisableComplete_kept q h
  | sqDoorbell p q v => exact execSqDoorbell_kept p q v h
  | descriptorFetch q => exact execDescriptorFetch_kept q h
  | descriptorReread q => exact execDescriptorReread_kept q h
  | dmaNop q => exact execDmaNop_kept q h
  | copyToHost q => exact execCopyToHost_kept q h
  | copyFromHost q cpl => exact execCopyFromHost_kept q cpl h
  | completionPost q bytes => exact execCompletionPost_kept q bytes h
  | completionRecordWrite q => exact execCompletionRecordWrite_kept q h
  | flushReadComplete => exact execFlushReadComplete_kept h
  | completionRingRoom p q v => exact execCompletionRingRoom_kept p q v h
  | portHDetach x => exact execPortHDetach_kept x h
  | sessionAttach p token => exact execSessionAttach_kept p token h
  | sessionResumeDrain p => exact execSessionResumeDrain_kept p h
  | sessionResumeDiscard p => exact execSessionResumeDiscard_kept p h
  | sessionRelease p => exact execSessionRelease_kept p h
  | sessionExpiry => exact execSessionExpiry_kept h
  | sessionTokenRead p => exact execSessionTokenRead_kept p h
  | trackedWrite addr bytes => exact execTrackedWrite_kept addr bytes h
  | protectionDelta l => exact execProtectionDelta_kept l h
  | protectionCopy l => exact execProtectionCopy_kept l h
  | saveHoldEnd => exact execSaveHoldEnd_kept h
  | saveStallTimeout => exact execSaveStallTimeout_kept h
  | saveAbandoned x beat => exact execSaveAbandoned_kept x beat h
  | saveRequest p v => exact execSaveRequest_kept p v h
  | saveRequestMessage x beat position => exact execSaveRequestMessage_kept x beat position h
  | restoreRecord => exact execRestoreRecord_kept h
  | failureNotice x position reporter beat => exact execFailureNotice_kept x position reporter beat h
  | deadDetectExpiry p => exact execDeadDetectExpiry_kept p h
  | recoveryReport x r => exact execRecoveryReport_kept x r h
  | gatherWindowEnd => exact execGatherWindowEnd_kept h
  | recoveryPlan x pl => exact execRecoveryPlan_kept x pl h
  | rebuildComplete => exact execRebuildComplete_kept h
  | resume x beat step => exact execResume_kept x beat step h
  | resumeBeat => exact execResumeBeat_kept h
  | rollbackRequest p v => exact execRollbackRequest_kept p v h
  | idleSpareFailure phys => exact execIdleSpareFailure_kept phys h
  | regionQuery p v => exact execRegionQuery_kept p v h
  | psOwnerWrite p v => exact execPsOwnerWrite_kept p v h
  | psRequest p v => exact execPsRequest_kept p v h
  | psEntryStepDone => exact execPsEntryStepDone_kept h
  | psEntryStepTimeout => exact execPsEntryStepTimeout_kept h
  | wakeN => exact execWakeN_kept h
  | wakeStepDone => exact execWakeStepDone_kept h
  | wakeBudgetStep rail => exact execWakeBudgetStep_kept rail h
  | padRelease p v => exact execPadRelease_kept p v h
  | aclkDivisorWrite p v => exact execAclkDivisorWrite_kept p v h
  | divisorChange => exact execDivisorChange_kept h
  | dvfsInterlockRelease d => exact execDvfsInterlockRelease_kept d h
  | powerSample milliwatts => exact execPowerSample_kept milliwatts h
  | dictionaryWrite p idx sub size x => exact execDictionaryWrite_kept p idx sub size x h
  | usdoRequest f => exact execUsdoRequest_kept f h
  | usdoSegmentTimeout => exact execUsdoSegmentTimeout_kept h
  | nmtStart node => exact execNmtStart_kept node h
  | nmtStop node => exact execNmtStop_kept node h
  | nmtPreOperational node => exact execNmtPreOperational_kept node h
  | nmtResetNode node => exact execNmtResetNode_kept node h
  | nmtResetCommunication node => exact execNmtResetCommunication_kept node h
  | heartbeat => exact execHeartbeat_kept h
  | emcyTransmit => exact execEmcyTransmit_kept h
  | canBusOff => exact execCanBusOff_kept h
  | canBusOffRecovery => exact execCanBusOffRecovery_kept h
  | canErrorPassive => exact execCanErrorPassive_kept h
  | canErrorActive => exact execCanErrorActive_kept h
  | cfgArm p v => exact execCfgArm_kept p v h
  | cfgDisarm p => exact execCfgDisarmKept p h
  | cfgArmValidated => exact execCfgArmValidated_kept h
  | cfgSwapGen p v => exact execCfgSwapGen_kept p v h
  | swapAnnouncement x gen divisor beat => exact execSwapAnnouncement_kept x gen divisor beat h
  | swapCutoff => exact execSwapCutoff_kept h
  | swapRefusal x => exact execSwapRefusal_kept x h
  | cfgSwapLocal p v => exact execCfgSwapLocal_kept p v h
  | period => exact execPeriod_kept h
  | periodTimerFire => exact execPeriodTimerFire_kept h
  | periodRequest p v => exact execPeriodRequest_kept p v h
  | periodTimerOwnerWrite p v => exact execPeriodTimerOwnerWrite_kept p v h
  | prdOutOwnerWrite p v => exact execPrdOutOwnerWrite_kept p v h
  | wearSample readings => exact execWearSample_kept readings h
  | wearCheckpoint => exact execWearCheckpoint_kept h
  | wearQuery p v => exact execWearQuery_kept p v h
  | errorRegisterRead p => exact execErrorRegisterRead_kept p h
  | pwrOkRise silentRegulators => exact execPwrOkRise_kept silentRegulators h
  | supplyPowerGood u => exact execSupplyPowerGood_kept u h
  | powerGoodTimeout u => exact execPowerGoodTimeout_kept u h
  | pwrOkFall => exact execPwrOkFall_kept h
  | resetNAssert memoryConfirmed => exact execResetNAssert_kept memoryConfirmed h
  | packageReset p v memoryConfirmed => exact execPackageReset_kept p v memoryConfirmed h
  | coldResetRelease recoveryN testMode => exact execColdResetRelease_kept recoveryN testMode h
  | bootStepDone f => exact execBootStepDone_kept f h
  | bootWatchdogExpiry memoryConfirmed => exact execBootWatchdogExpiry_kept memoryConfirmed h
  | osBoot p v => exact execOsBoot_kept p v h
  | recoveryRequest p v => exact execRecoveryRequest_kept p v h
  | beginTransfer x kind mode totalLen => exact execBeginTransfer_kept x kind mode totalLen h
  | dataTransfer x offset bytes => exact execDataTransfer_kept x offset bytes h
  | endTransfer x => exact execEndTransfer_kept x h
  | abortTransfer x => exact execAbortTransfer_kept x h
  | flashWrite good goodOnRetry => exact execFlashWrite_kept good goodOnRetry h
  | floorRaise p v => exact execFloorRaise_kept p v h
  | quoteNonceWrite p word v => exact execQuoteNonceWrite_kept p word v h
  | quoteRequest p v => exact execQuoteRequest_kept p v h
  | quoteReady p => exact execQuoteReady_kept p h
  | measureExtend p v => exact execMeasureExtend_kept p v h
  | rngHealthFail => exact execRngHealthFail_kept h
  | refclkLoss => exact execRefclkLoss_kept h
  | refclkRestored memoryConfirmed => exact execRefclkRestored_kept memoryConfirmed h
  | pllUnlock u => exact execPllUnlock_kept u h
  | pllLockTimeout u => exact execPllLockTimeout_kept u h
  | thermalSample dieTemps stackTemps => exact execThermalSample_kept dieTemps stackTemps h
  | thermalTrip unit => exact execThermalTrip_kept unit h
  | pmbAlert u x => exact execPmbAlert_kept u x h
  | telemetryPoll u x => exact execTelemetryPoll_kept u x h
  | eventRaise n => exact execEventRaise_kept n h
  | eventLogRecordLatch p => exact execEventLogRecordLatch_kept p h
  | escMaskWrite p sev v => exact execEscMaskWrite_kept p sev v h
  | msixVectorWrite p q v => exact execMsixVectorWrite_kept p q v h
  | loadComplete => exact execLoadComplete_kept h

theorem step_kept (h : s.MemoryCanonical) : KeepsMemory (step s) := by
  unfold step
  split
  · exact next h
  · exact exec_kept _ h

end

end Canonical

/-- Settles O4: only a word's store, the resets and the losses of memory change its cells, and each keeps the form; every other function of the
model passes memory on. -/
theorem memoryStaysCanonical : Obligations.MemoryStaysCanonical := by
  unfold Obligations.MemoryStaysCanonical
  intro s t h hstep
  exact Canonical.step_kept h t hstep

end Sys2Proof.Machine
